-- ==== Sys2Proof/Word.lean ====
section
/-!
DEFINITION. The plainest types of the model: bytes, words, wide byte strings, and the two shapes sparse data takes
(a table of numbered items, a memory of bytes). Their operations stand in `Machine/Tab.lean`.
-/
namespace Sys2Proof

/-- One byte. -/
abbrev Byte := BitVec 8

/-- One 32-bit BAR0 register or mailbox word (R5, R300). -/
abbrev Word := BitVec 32

/-- A 16-byte network address, IPv6 or IPv4-mapped, byte 0 the most significant (R4, R179, R319). -/
abbrev Addr := BitVec 128

/-- A sparse table: numbered items, numbers strictly rising (the canonical form of `Sys2Proof.tsorted`). -/
abbrev Tab (α : Type) := List (Nat × α)

/-- A sparse byte memory in the form of `Host.Cell`: addresses strictly rising, no listed byte equal to what an
unlisted address reads as. -/
abbrev Mem := List (Nat × Byte)

end Sys2Proof
end

