-- ==== Sys2Proof/Syntax.lean ====
section
/-!
DEFINITION. Syntax: the rows of the step table, one constructor of `Instr` a row, and the structures their operands
take. A command of the host carries its block header and its payload (15 R305, 16); an event of the hardware carries what the
world outside the block brings with it. What a row does stands in `Machine/`.
-/
namespace Sys2Proof

/-! ## Payload conventions (16 R319, Tables 16-1 to 16-15) -/

/-- A time field as it lies in a payload: the low word (nanoseconds, bits [31:30] zero) and the low 32 bits of the
seconds (R319). -/
structure TimeField where
  ns  : Nat
  sec : Nat
deriving DecidableEq, Repr, Inhabited

/-- Layout CH of Table 16-1. -/
structure ChArg where
  object : Nat
  item   : Nat
deriving DecidableEq, Repr, Inhabited

/-- Layout CHT of Table 16-1. -/
structure ChtArg where
  object : Nat
  item   : Nat
  time   : TimeField
deriving DecidableEq, Repr, Inhabited

/-- The header of a command block as the host wrote it (Table 15-6). `pair` is the mailbox pair whose window holds the block, `length` the
length field, `extra` the bytes that are not zero in flags, status and the reserved places of header and payload, by offset, and `crc`
the block's last word. An opcode that is not the payload's is one that Table 16-3 does not list. -/
structure CmdHdr where
  pair    : Nat
  opcode  : Nat
  length  : Nat
  seq     : Nat
  session : Nat
  target  : Nat
  extra   : List (Nat × Byte)
  crc     : Word
deriving DecidableEq, Repr, Inhabited

/-- SESSION_OPEN (Table 16-6). -/
structure SessionOpenArg where
  keySlot : Nat
  roles   : Nat
  pair    : Nat
deriving DecidableEq, Repr, Inhabited

/-- SESSION_PROVE (Table 16-6). -/
structure SessionProveArg where
  nonce : BitVec 128
  proof : BitVec 128
deriving DecidableEq, Repr, Inhabited

/-- KEY_WRITE (R330). -/
structure KeyWriteArg where
  keySlot : Nat
  roles   : Nat
  key     : BitVec 256
deriving DecidableEq, Repr, Inhabited

/-- CAL_WRITE (R334). The record itself lies in the buffer. -/
structure CalWriteArg where
  surface : Nat
  crc     : Word
deriving DecidableEq, Repr, Inhabited

/-- What the verification of the image in a buffer finds (21 R433): whether the signature verifies, and the fields of
the image header. The signature scheme is a standard the spec names and does not restate, so its outcome is an operand. -/
structure ImageInfo where
  sigOk      : Bool
  digestOk   : Bool
  length     : Nat
  version    : Nat
  raiseFloor : Bool
deriving DecidableEq, Repr, Inhabited

/-- FIRMWARE_WRITE (R335). -/
structure FirmwareWriteArg where
  surface : Nat
  image   : Nat
  boot    : Nat
  info    : ImageInfo
deriving DecidableEq, Repr, Inhabited

/-- LIFECYCLE_SET (R336): the P-384 key and the signature, with what the device makes of them: the SHA-384 digest of the key, and
the message whose signature under that key it is, none where it is no signature of any. -/
structure LifecycleSetArg where
  target    : Nat
  key       : BitVec 768
  signature : BitVec 768
  keyDigest : BitVec 384
  signed    : Option (List Byte)
deriving DecidableEq, Repr, Inhabited

/-- TIME_CONFIG (Table 16-8, Table 11-1). -/
structure TimeConfigArg where
  domain          : Nat
  transport       : Nat
  delayMode       : Nat
  logDelayReq     : Int
  announceTimeout : Nat
  portPrimary     : Nat
  portSecondary   : Nat
  asymPrimary     : Int
  asymSecondary   : Int
  vid             : Nat
deriving DecidableEq, Repr, Inhabited

/-- TIME_SERVO_CONFIG (Table 16-8). -/
structure TimeServoArg where
  kp       : Nat
  ki       : Nat
  slew     : Nat
  thresh   : Nat
  autoStep : Nat
deriving DecidableEq, Repr, Inhabited

/-- TIME_PPS_CONFIG (Table 16-8). -/
structure TimePpsArg where
  width : Nat
  mode  : Nat
deriving DecidableEq, Repr, Inhabited

/-- PORT_CONFIG (R338). -/
structure PortConfigArg where
  port   : Nat
  mode   : Nat
  enable : Nat
deriving DecidableEq, Repr, Inhabited

/-- NET_ADDRESS (R338). -/
structure NetAddressArg where
  iface : Nat
  mac   : BitVec 48
  ipv4a : BitVec 32
  ipv4b : BitVec 32
  ipv6a : Addr
  ipv6b : Addr
deriving DecidableEq, Repr, Inhabited

/-- The configured bytes 0-51 of a flow entry (Table 9-1). `ctlRsv` is bits [7:5] of ctl; `vid` is its whole 16-bit field. -/
structure FlowArg where
  valid   : Bool
  kind    : Nat
  path    : Nat
  ctlRsv  : Nat
  essence : Nat
  vid     : Nat
  udpPort : Nat
  ifMask  : BitVec 16
  dst     : Addr
  src     : Addr
  target  : Nat
  pt      : Nat
  tol     : Nat
  rate    : Nat
  burst   : Nat
deriving DecidableEq, Repr, Inhabited

/-- TX_QUEUE_CONFIG (R340). -/
structure TxQueueArg where
  iface    : Nat
  queue    : Nat
  weight   : Nat
  maxFrame : Nat
deriving DecidableEq, Repr, Inhabited

/-- GATE_LIST_SET (R340). -/
structure GateListArg where
  iface   : Nat
  base    : TimeField
  cycle   : Nat
  count   : Nat
  surface : Nat
deriving DecidableEq, Repr, Inhabited

/-- LANE_CONFIG (R341). -/
structure LaneConfigArg where
  lane     : Nat
  loopback : Nat
  pattern  : Nat
  enable   : Nat
  pre      : Int
  main     : Int
  post     : Int
deriving DecidableEq, Repr, Inhabited

/-- The picture format of a channel or external stream (Table 16-9 offset 1): `size` as CHN_STATE, `fmtRsv` bits [7:3]. -/
structure FormatArg where
  size       : Nat
  interlaced : Bool
  fmtRsv     : Nat
deriving DecidableEq, Repr, Inhabited

/-- CHANNEL_DEFINE, offsets 0-23 and 46: what the channel is. -/
structure DefMain where
  format     : FormatArg
  rateId     : Nat
  inputDepth : Nat
  ctuSize    : Nat
  codec      : Nat
  profile    : Nat
  renditionOf : Nat
  flowA      : Nat
  flowB      : Nat
  inputOffset : Nat
  tTol       : Nat
  dPipe      : Nat
deriving DecidableEq, Repr, Inhabited

/-- CHANNEL_DEFINE, offsets 24-45: rate control (Table 4-1). -/
structure DefRate where
  rcMode    : Nat
  avgWindow : Nat
  dCpb      : Nat
  bitRate   : Nat
  avgRate   : Nat
  cpbSize   : Nat
  takeoverSlack : Nat
  overshoot : Nat
  qpMin     : Int
  qpMax     : Int
  initQp    : Int
deriving DecidableEq, Repr, Inhabited

/-- CHANNEL_DEFINE, offsets 48-60: references and refresh (Table 5-1). -/
structure DefRefs where
  stRefs      : Nat
  ltSlots     : Nat
  anchorSlots : Nat
  anchorDelta : Nat
  anchorShare : Nat
  anchorHold  : Nat
  refreshMode : Nat
  refreshInterval : Nat
  sweepG      : Nat
  rejoinG     : Nat
  protectedFloor : Int
deriving DecidableEq, Repr, Inhabited

/-- CHANNEL_DEFINE, offsets 64-77: systems and tone mapping. -/
structure DefTone where
  inSystem  : Nat
  outSystem : Nat
  tmMode    : Nat
  adapt     : Nat
  adaptTarget : Nat
  adaptSpeed  : Nat
  gainMin   : Nat
  gainMax   : Nat
deriving DecidableEq, Repr, Inhabited

/-- CHANNEL_DEFINE, offsets 80-171: egress. -/
structure DefOut where
  encap    : Nat
  srcMode  : Nat
  outIfA   : Nat
  outIfB   : Nat
  dstA     : Addr
  dstB     : Addr
  udpDst   : Nat
  vidA     : Nat
  vidB     : Nat
  dscp     : Nat
  hopLimit : Nat
  ssrc     : Nat
  seqInit  : Nat
  pt       : Nat
  queue    : Nat
  maxPayload : Nat
  tsRate   : Nat
  pidPmt   : Nat
  pidVideo : Nat
  pidAudio : List Nat
  pidAnc   : Nat
  programmes : Nat
  progChannels : List Nat
deriving DecidableEq, Repr, Inhabited

/-- CHANNEL_DEFINE (Table 16-9). -/
structure ChannelDefineArg where
  channel : Nat
  main    : DefMain
  rate    : DefRate
  refs    : DefRefs
  tone    : DefTone
  out     : DefOut
deriving DecidableEq, Repr, Inhabited

/-- CHANNEL_SET (Table 16-10). -/
structure ChannelSetArg where
  channel  : Nat
  select   : Word
  flowA    : Nat
  flowB    : Nat
  overshoot : Nat
  qpMin    : Int
  qpMax    : Int
  anchorDelta : Nat
  anchorShare : Nat
  anchorHold  : Nat
  sweepG   : Nat
  refreshInterval : Nat
  protectedFloor  : Int
  tmMode   : Nat
  adapt    : Nat
  adaptSpeed  : Nat
  adaptTarget : Nat
  gainMin  : Nat
  gainMax  : Nat
deriving DecidableEq, Repr, Inhabited

/-- ROI_SET (R345). -/
structure RoiSetArg where
  channel : Nat
  region  : Nat
  kind    : Nat
  value   : Int
  x0      : Int
  y0      : Int
  width   : Nat
  height  : Nat
deriving DecidableEq, Repr, Inhabited

/-- EXT_STREAM_DEFINE (R345). -/
structure ExtStreamArg where
  stream  : Nat
  payload : Nat
  codec   : Nat
  profile : Nat
  format  : FormatArg
  rateId  : Nat
  codedDepth : Nat
  flowA   : Nat
  flowB   : Nat
deriving DecidableEq, Repr, Inhabited

/-- SURFACE_ALLOC (Table 16-12). -/
structure SurfaceAllocArg where
  owner  : Nat
  kind   : Nat
  width  : Nat
  height : Nat
  bytes  : Nat
deriving DecidableEq, Repr, Inhabited

/-- One update entry of FLIP_SUBMIT (Table 16-13). -/
structure FlipUpdate where
  layer   : Nat
  enable  : Nat
  surface : Nat
  x0      : Int
  y0      : Int
  ga      : Nat
deriving DecidableEq, Repr, Inhabited

/-- FLIP_SUBMIT (Table 16-13). -/
structure FlipSubmitArg where
  channel     : Nat
  id          : Nat
  cancelAfter : Nat
  notBefore   : TimeField
  fences      : List Nat
  updates     : List FlipUpdate
deriving DecidableEq, Repr, Inhabited

/-- The CRC checks CU5 makes of a protected layer's images (R148, R150): which of them match the stored CRC. -/
structure ProtCheck where
  cacheOk : Bool
  copyAOk : Bool
  copyBOk : Bool
deriving DecidableEq, Repr, Inhabited

/-- The change of a channel to the stepped clock, with the check of the protected image at that boundary (R215, R150). -/
structure ClockChange where
  chan : Nat
  prot : ProtCheck
deriving DecidableEq, Repr, Inhabited

/-- A picture of a channel. -/
structure PicAt where
  chan : Nat
  pic  : Nat
deriving DecidableEq, Repr, Inhabited

/-- PROTECTED_LOAD (R348). -/
structure ProtectedLoadArg where
  channel : Nat
  x0      : Int
  y0      : Int
  surface : Nat
  crc     : Word
  time    : TimeField
  /-- CU5's checks of the cache and the copies once written, and once written again (R148). -/
  checks  : ProtCheck
  again   : ProtCheck
deriving DecidableEq, Repr, Inhabited

/-- TONEMAP_LOAD (R348). -/
structure TonemapLoadArg where
  channel : Nat
  surface : Nat
deriving DecidableEq, Repr, Inhabited

/-- AUDIO_PORT_CONFIG (Table 16-14). -/
structure AudioPortArg where
  port   : Nat
  dir    : Nat
  mode   : Nat
  slots  : Nat
  fsWidth : Nat
  fsDelay : Nat
  fsPolarity : Nat
  edge   : Nat
  target : Nat
deriving DecidableEq, Repr, Inhabited

/-- AUDIO_STREAM_CONFIG (Table 16-14). -/
structure AudioStreamArg where
  stream   : Nat
  format   : Nat
  channels : Nat
  ptime    : Nat
  flowA    : Nat
  flowB    : Nat
  target   : Nat
deriving DecidableEq, Repr, Inhabited

/-- One entry of AUDIO_ROUTE (R350). -/
structure RouteEntry where
  sinkKind : Nat
  sinkA    : Nat
  sinkB    : Nat
  srcKind  : Nat
  srcA     : Nat
  srcB     : Nat
deriving DecidableEq, Repr, Inhabited

/-- AUDIO_ROUTE (R350). -/
structure AudioRouteArg where
  entries : List RouteEntry
deriving DecidableEq, Repr, Inhabited

/-- AUDIO_ALIGN_GROUP (R351): members as (kind, stream or port). -/
structure AlignGroupArg where
  group   : Nat
  members : List (Nat × Nat)
deriving DecidableEq, Repr, Inhabited

/-- AUDIO_CLOCK (Table 16-14). -/
structure AudioClockArg where
  pilot : Nat
  kp    : Nat
  ki    : Nat
deriving DecidableEq, Repr, Inhabited

/-- GROUP_FORM and GROUP_JOIN (Table 16-15): service addresses as (interface, address). -/
structure GroupArg where
  groupId     : Nat
  size        : Nat
  rank        : Nat
  firstActive : Nat
  addrs       : List (Nat × Addr)
deriving DecidableEq, Repr, Inhabited

/-- EVENT_LOG_FETCH (R355). -/
structure EventFetchArg where
  fromSeq : Nat
  max     : Nat
deriving DecidableEq, Repr, Inhabited

/-- The payload of a command block, by opcode (Table 16-3). -/
inductive Payload where
  | sessionOpen (p : SessionOpenArg)
  | sessionProve (p : SessionProveArg)
  | sessionClose
  | completionFetch (p : Nat)
  | keyWrite (p : KeyWriteArg)
  | deviceInfo
  | deviceConfigure (p : ChArg)
  | powerBudget (p : Nat)
  | shutdown (p : ChArg)
  | calRead (p : Nat)
  | calWrite (p : CalWriteArg)
  | firmwareWrite (p : FirmwareWriteArg)
  | lifecycleSet (p : LifecycleSetArg)
  | timeConfig (p : TimeConfigArg)
  | timeServoConfig (p : TimeServoArg)
  | timeAcceptStep (p : TimeField)
  | timePpsConfig (p : TimePpsArg)
  | portConfig (p : PortConfigArg)
  | netAddress (p : NetAddressArg)
  | flowAdd (p : FlowArg)
  | flowDelete (p : Nat)
  | txQueueConfig (p : TxQueueArg)
  | gateListSet (p : GateListArg)
  | laneConfig (p : LaneConfigArg)
  | channelDefine (p : ChannelDefineArg)
  | channelDelete (p : ChArg)
  | channelStart (p : ChtArg)
  | channelStop (p : ChtArg)
  | channelSet (p : ChannelSetArg)
  | channelCommit (p : ChArg)
  | channelRefresh (p : ChtArg)
  | ltrMark (p : ChtArg)
  | ltrRelease (p : ChtArg)
  | roiSet (p : RoiSetArg)
  | roiClear (p : ChArg)
  | extStreamDefine (p : ExtStreamArg)
  | extStreamDelete (p : ChArg)
  | surfaceAlloc (p : SurfaceAllocArg)
  | surfaceFree (p : Nat)
  | flipSubmit (p : FlipSubmitArg)
  | protectedLoad (p : ProtectedLoadArg)
  | protectedRemove (p : ChtArg)
  | tonemapLoad (p : TonemapLoadArg)
  | audioPortConfig (p : AudioPortArg)
  | audioPortStart (p : ChArg)
  | audioPortStop (p : ChArg)
  | audioStreamConfig (p : AudioStreamArg)
  | audioStreamDelete (p : ChArg)
  | audioRoute (p : AudioRouteArg)
  | audioAlignGroup (p : AlignGroupArg)
  | audioClock (p : AudioClockArg)
  | groupForm (p : GroupArg)
  | groupJoin (p : GroupArg)
  | groupLeave
  | groupHandover (p : Nat)
  | chainEnumerate
  | chainBudget (p : Nat)
  | eventLogFetch (p : EventFetchArg)
  | cuAssign (p : ChArg)
deriving DecidableEq, Repr, Inhabited

/-- A completion (Table 15-6); its opcode, sequence, session and target are the command's. -/
structure Completion where
  opcode    : Nat
  seq       : Nat
  session   : Nat
  target    : Nat
  duplicate : Bool
  fetched   : Bool
  forwarded : Bool
  status    : Nat
  payload   : List Byte
deriving DecidableEq, Repr, Inhabited

/-! ## Operands of the events (the rows that no command block carries) -/

/-- The clock domains of Table 1-4, in its order; an event's domain object is this order's number from 0 (Table 20-3). -/
inductive Domain where
  | aon | ref | ctrl | fab | enc | proof | pix | hbm0 | hbm1 | emac | epcs | time | stay | rat | pcie | audm | audx | dbg
deriving DecidableEq, Repr, Inhabited

/-- A Sync message as firmware reads it. Times are in 2^-16 ns; `ingress` is the corrected receive timestamp, `tag` the
step count it carries (R211), `origin` the originTimestamp plus correctionField (zero origin in a two-step Sync),
`seqId` its sequenceId, `masterIs` the clockIdentity of the sender. -/
structure SyncMsg where
  twoStep : Bool
  seqId   : Nat
  ingress : Int
  tag     : Nat
  origin  : Int
  logSync : Int
deriving DecidableEq, Repr, Inhabited

/-- A Follow_Up message: preciseOriginTimestamp plus correctionField, in 2^-16 ns. -/
structure FollowUpMsg where
  seqId  : Nat
  origin : Int
deriving DecidableEq, Repr, Inhabited

/-- An Announce message and its source address. `best` is the outcome of the comparison of IEEE 1588-2019 over both ports' masters once this
message is taken in: the port with the best master, none when the two compare equal (R208). -/
structure AnnounceMsg where
  gm        : BitVec 64
  src       : Addr
  best      : Option Nat
  utc       : Int
  utcValid  : Bool
deriving DecidableEq, Repr, Inhabited

/-- A Delay_Resp message: the receiveTimestamp less correctionField, in 2^-16 ns. -/
structure DelayRespMsg where
  seqId   : Nat
  receive : Int
deriving DecidableEq, Repr, Inhabited

/-- What a patrol-scrub read finds (R390). -/
inductive EccResult where
  | clean | corrected | uncorrectable | skipped
deriving DecidableEq, Repr, Inhabited

/-- The master port, bulk tag and request ID of a captured fault (MEM_FAULT, R394). -/
structure FaultSource where
  master : Nat
  tag    : Nat
  id     : Nat
deriving DecidableEq, Repr, Inhabited

/-- Who reads poisoned data, and so how R389 and R419 go on. -/
inductive PoisonUser where
  /-- An encode job of picture `pic`, row `row` of channel `c` (R66, R70); for a read of reference samples the reference picture,
  its row and the CTU columns affected. -/
  | encodeJob (c pic row : Nat) (ref : Option (Nat × Nat × List Nat))
  /-- The proof decoder, on the DU of a row (R122), in the same way. -/
  | proofDu (c pic row : Nat) (ref : Option (Nat × Nat × List Nat))
  /-- The pixel front end, on a row's sources (R132). -/
  | pixel (c row : Nat) (layer : Nat)
  /-- A journal entry of a key slot (R419). -/
  | journal (slot seq : Nat)
  /-- Firmware-held channel tables (R419). -/
  | channelTable (c : Nat)
  /-- Active configuration held in a media block (R419). -/
  | activeConfig (c : Nat)
  /-- The packetiser, on a coded DU. -/
  | egress (c pic row : Nat)
  /-- Any other consumer, or none. -/
  | other
deriving DecidableEq, Repr, Inhabited

/-! ## What an engine codes (chapter 3) -/

/-- One line of a row at coded depth and chroma format: luma, Cb, Cr; a 4:2:0 line without chroma has none. -/
abbrev SampleLine : Type := List Nat × List Nat × List Nat

/-- Tools that not every tier or behaviour level tries (Tables 3-1, 3-2, 3-8). -/
inductive Tool where
  /-- HEVC: N×N intra at 8×8, asymmetric inter partitions. -/
  | nxn | amp
  /-- VVC: MIP, multiple reference lines, intra sub-partitions, explicit MTS, affine with PROF, MMVD, BCW, CIIP, GPM. -/
  | mip | mrl | isp | mts | affine | mmvd | bcw | ciip | gpm
deriving DecidableEq, Repr, Inhabited

/-- A position the decimated search visits: index in the reference list, displacement in luma samples, cost (R56). -/
structure DecTry where
  ref  : Nat
  x    : Int
  y    : Int
  cost : Nat
deriving DecidableEq, Repr, Inhabited

/-- A full-pel refinement around the decimated position of number `base`: offset in luma samples, cost (R56). -/
structure FullTry where
  base : Nat
  x    : Int
  y    : Int
  cost : Nat
deriving DecidableEq, Repr, Inhabited

/-- What a rate-distortion decision weighs of a coding: its cost, the bits it takes, the tools it uses and the quantised levels. -/
structure Coding where
  rd     : Nat
  bits   : Nat
  tools  : List Tool
  levels : List Int
deriving DecidableEq, Repr, Inhabited

/-- A sub-pel refinement around the full-pel position of number `base`: offset in 1/16 luma sample (R56), and the coding. -/
structure SubTry where
  base   : Nat
  x      : Int
  y      : Int
  coding : Coding
deriving DecidableEq, Repr, Inhabited

/-- A merge or skip candidate: its index, reference index and vector in 1/16 luma sample, and the coding. -/
structure MergeTry where
  index  : Nat
  ref    : Nat
  x      : Int
  y      : Int
  coding : Coding
deriving DecidableEq, Repr, Inhabited

/-- An intra mode: its number, the residual of its prediction (from which the Hadamard cost comes, R57), and the coding. -/
structure IntraTry where
  mode     : Nat
  residual : List (List Int)
  coding   : Coding
deriving DecidableEq, Repr, Inhabited

/-- What the searches and the RD decision of one CU find (R56 to R58). -/
structure CuTry where
  dec   : List DecTry := []
  full  : List FullTry := []
  sub   : List SubTry := []
  merge : List MergeTry := []
  intra : List IntraTry := []
deriving DecidableEq, Repr, Inhabited

/-- The partition an engine finds best for a block, with the unsplit CU of every node, which stands where the tier does not try the
split (Tables 3-1, 3-2). -/
inductive CtuTree where
  | leaf (u : CuTry)
  | quad (u : CuTry) (a b c d : CtuTree)
  | bin (u : CuTry) (vertical : Bool) (a b : CtuTree)
  | tern (u : CuTry) (vertical : Bool) (a b c : CtuTree)
deriving DecidableEq, Repr, Inhabited

/-- SAO parameters of a component: type (1 band, 2 edge), band position or edge class, offsets. -/
structure SaoParam where
  type    : Nat
  select  : Nat
  offsets : List Int
deriving DecidableEq, Repr, Inhabited

/-- The in-loop decisions of a CTU (R62): SAO by component (luma, both chroma), ALF flags by component, CC-ALF by chroma component. -/
structure CtuFilter where
  saoY  : Option SaoParam := none
  saoC  : Option SaoParam := none
  alf   : List Bool := []
  ccAlf : List Bool := []
deriving DecidableEq, Repr, Inhabited

/-- What an engine has found for a CTU when it is about to commit it: the partition, and the bits that belong to no CU (split flags and
in-loop parameters). -/
structure CtuTry where
  tree  : CtuTree
  extra : Nat
deriving DecidableEq, Repr, Inhabited

/-- How a CU is coded: an intra mode; inter with reference index, vector in 1/16 luma sample and merge index if merged; or one of the two
bare-pole forms of R67. -/
inductive CuMode where
  | intra (mode : Nat)
  | inter (ref : Nat) (x y : Int) (merge : Option Nat)
  | skip (merge : Nat)
  | dc
deriving DecidableEq, Repr, Inhabited

/-- A coded CU at its place in the CTU. -/
structure Cu where
  x      : Nat
  y      : Nat
  w      : Nat
  h      : Nat
  mode   : CuMode
  tools  : List Tool := []
  levels : List Int := []
deriving DecidableEq, Repr, Inhabited

/-- Slice types (R50). -/
inductive SliceType where
  | i | p | b
deriving DecidableEq, Repr, Inhabited

/-- A long-term reference as signalled (R102): the 16-bit least significant part of its POC, and its cycle where that is sent. -/
structure LtSignal where
  lsb   : Nat
  cycle : Option Nat
deriving DecidableEq, Repr, Inhabited

/-- A slice header as far as the manual determines it (R50, R51, R67, R101, R102). Short-term references are POC differences. -/
structure SliceHdr where
  row   : Nat
  type  : SliceType
  qp    : Int
  sao   : Bool
  alf   : Bool
  ccAlf : Bool
  /-- In-loop filtering across slice boundaries; temporal motion-vector prediction, its collocated picture index 0 of list 0. -/
  loopAcross : Bool
  tmvp  : Bool
  pocLsb : Nat
  st    : List Nat
  lt    : List LtSignal
deriving DecidableEq, Repr, Inhabited

/-- HRD parameters (R80): the clock tick as a fraction of a second, the tick divisor, bit rate and CPB size in bits, cbr_flag; NAL HRD
only, one schedule, decoding-unit parameters present. -/
structure HrdParams where
  tickNum  : Nat
  tickDen  : Nat
  divisor  : Nat
  bitRate  : Nat
  cpbSize  : Nat
  cbr      : Bool
deriving DecidableEq, Repr, Inhabited

/-- Tools and properties that the parameter sets of a stream declare (Tables 3-1 and 3-2, R51, R52). -/
inductive StreamTool where
  | amp | nxn | signHiding | depQuant | tmvp | longTerm | deblockAcross | sao | alf | ccAlf | dualTree | cclm | mip | mrl | isp
  | lfnst | mts | historyMerge | amvr | affine | prof | mmvd | sbTmvp | bcw | ciip | gpm | gdr | cuQpDelta | entropySync
deriving DecidableEq, Repr, Inhabited

/-- What the VPS, SPS and PPS of a channel carry (R51, R52, R54, R55, R80, R100, R151). -/
structure ParamSets where
  codec    : Nat
  profile  : Nat
  /-- General level, ten times its number, and the High tier. -/
  level    : Nat
  high     : Bool
  width    : Nat
  height   : Nat
  chroma   : Nat
  depth    : Nat
  ctuSize  : Nat
  minCu    : Nat
  tools    : List StreamTool
  /-- Size of the quantisation groups; pps_*_in_ph flags (R51). -/
  qpGroup  : Nat
  inPicHdr : Bool
  initQp   : Int
  /-- maximum decoded picture buffering as n_dpb − 1, pictures reordered, and no latency limit (R100). -/
  maxDec   : Nat
  reorder  : Nat
  latency  : Option Nat
  pocBits  : Nat
  fieldSeq : Bool
  primaries : Nat
  transfer : Nat
  matrix   : Nat
  fullRange : Bool
  hrd      : HrdParams
deriving DecidableEq, Repr, Inhabited

/-- SEI messages (R54, R80, R110). -/
inductive SeiMsg where
  | bufferingPeriod (delay offset : Nat) (concatenation : Bool)
  /-- CPB removal delay since the last buffering period in ticks, DPB output delay, sub-ticks per DU, NAL units of each DU, and
  pic_struct of a field. -/
  | pictureTiming (removal output increment : Nat) (nals : List Nat) (picStruct : Option Nat)
  | duInfo (du : Nat)
  | recoveryPoint (pocCnt : Nat) (exactMatch brokenLink : Bool)
  | frameField (bottom : Bool)
deriving DecidableEq, Repr, Inhabited

/-- The CTUs of a slice as coded: CUs, in-loop decisions, and the QP deltas of its quantisation groups (R116). -/
structure CtuSyntax where
  cus    : List Cu
  filter : CtuFilter
  deltas : List Int
deriving DecidableEq, Repr, Inhabited

/-- A NAL unit of an AU (R53, R81). -/
inductive NalUnit where
  | aud
  | vps (p : ParamSets)
  | sps (p : ParamSets)
  | pps (p : ParamSets)
  /-- An adaptation parameter set with an ALF set: the picture and rows whose statistics it comes from (R63). -/
  | aps (pic : Nat) (rows : List Nat)
  | sei (m : SeiMsg)
  /-- A slice; `gdr` where the picture header marks a GDR picture, with its ph_recovery_poc_cnt (R110). -/
  | slice (h : SliceHdr) (idr : Bool) (gdr : Option Nat) (ctus : List CtuSyntax)
  | filler (bytes : Nat)
deriving DecidableEq, Repr, Inhabited

/-- The arithmetic of a stage that residues check (R64): a sum, a difference, a product, or a rounding shift by `n` with the remainder
that it discards. -/
inductive ResidueOp where
  | add (a b : Int)
  | sub (a b : Int)
  | mul (a b : Int)
  | shift (a : Int) (n : Nat) (rem : Int)
deriving DecidableEq, Repr, Inhabited

/-- The stages that carry residues (R64). -/
inductive Stage where
  | transform | quantisation | reconstruction | interpolation | intraPrediction | trailingFilter
deriving DecidableEq, Repr, Inhabited

/-- One check at a stage exit: what the stage was given and what left it. -/
structure StageCheck where
  stage : Stage
  op    : ResidueOp
  out   : Int
deriving DecidableEq, Repr, Inhabited

/-- What the proof decoder finds in a DU (R120): the outcome of the parse, the number of its NAL units, slice address and slice type, and
the row it has reconstructed. -/
structure VerdictIn where
  parseOk : Bool
  nals    : Nat
  addr    : Nat
  type    : SliceType
  lines   : List SampleLine
deriving DecidableEq, Repr, Inhabited

/-- How an external AU may be entered (R127). -/
inductive AuStart where
  /-- An IRAP picture. -/
  | irap
  /-- A VVC GDR picture or an HEVC recovery-point picture, with the POC of its recovery point. -/
  | gradual (recoveryPoc : Int)
  | no
deriving DecidableEq, Repr, Inhabited

/-- What the parameter sets of an external stream announce (R127): codec and profile as Table 6-3 numbers them, ten times the level, chroma
format (1 4:2:0, 2 4:2:2), bit depth, picture size, and the CTU size. -/
structure ExtSets where
  codec   : Nat
  profile : Nat
  level   : Nat
  chroma  : Nat
  depth   : Nat
  width   : Nat
  height  : Nat
  ctu     : Nat
deriving DecidableEq, Repr, Inhabited

/-- A reference that an AU's reference structure names (R128): by its POC, or by the `bits` least significant bits of it. -/
inductive ExtRef where
  | poc (v : Int)
  | lsb (v bits : Nat)
deriving DecidableEq, Repr, Inhabited

/-- A slice of an external AU (R127, R129): the sequence numbers of its first and last packet, whether it parses, and the CTUs that it
covers in raster order. -/
structure ExtSlice where
  first  : Nat
  last   : Nat
  parses : Bool
  ctu    : Nat
  ctus   : Nat
deriving DecidableEq, Repr, Inhabited

/-- Planes of an external picture at the stream's depth and chroma format: luma, Cb, Cr. -/
structure ExtFrame where
  luma : List (List Nat) := []
  cb   : List (List Nat) := []
  cr   : List (List Nat) := []
deriving DecidableEq, Repr, Inhabited

/-- Lines of an output picture that are written now (R126): its POC, the media time its RTP timestamp denotes in clock ticks, the first
line and their number. -/
structure ExtOut where
  poc    : Int
  tMedia : Nat
  line   : Nat
  count  : Nat
deriving DecidableEq, Repr, Inhabited

/-- A part of an external AU as the decoder works through its CTU rows (R126 to R128): what the parameter sets announce, none where they or
the picture header do not parse; how the AU may be entered, its POC, the references its structure names, its slices; the samples that
decoding has given for the lines from `line` on, `done` with the last; and the output lines that are written meanwhile, in the order that
the stream's DPB parameters signal. -/
structure ExtAu where
  sets   : Option ExtSets
  start  : AuStart
  poc    : Int
  refs   : List ExtRef
  slices : List ExtSlice
  line   : Nat
  frame  : ExtFrame
  done   : Bool
  outs   : List ExtOut
deriving DecidableEq, Repr, Inhabited

/-- One SRD segment of an ST 2110-20 packet (R188): line, field bit, pixel-group offset and count in pixels, and the
samples of the segment as received (luma, Cb, Cr at input depth). -/
structure SrdSeg where
  line  : Nat
  field : Nat
  offset : Nat
  luma  : List Nat
  cb    : List Nat
  cr    : List Nat
deriving DecidableEq, Repr, Inhabited

/-- An RTP packet: payload type, 16-bit sequence number, timestamp, SSRC, marker bit, and the bytes after the header and before any
padding. -/
structure RtpPacket where
  pt      : Nat
  seq     : Nat
  ts      : Nat
  ssrc    : Nat
  marker  : Bool
  payload : List Byte
deriving DecidableEq, Repr, Inhabited

/-- A repaired packet and its extended sequence number (R235). -/
structure RepairPkt where
  seq : Nat
  pkt : RtpPacket
deriving DecidableEq, Repr, Inhabited

/-- A received frame (R176, R177): its bytes from the destination MAC address to the FCS, the instant in clock ticks at which its
start-of-frame delimiter crosses the MAC/PCS boundary, and the delimiter's place in its codeword in EPCS cycles (R218). -/
structure RxFrame where
  bytes    : List Byte
  sfd      : Nat
  codeword : Nat
deriving DecidableEq, Repr, Inhabited

/-- The header of a stay record (Table 12-3) and the CRC-32C behind it, with how it came: on which leg, in the frame of which link sequence
number (R227). `dest` is the member that a record of types 4, 5 or 7 is for, which the header does not carry (log entry 46). -/
structure RecHdr where
  leg     : Nat
  link    : Nat
  crc     : Word
  dest    : Nat
  relayed : Bool
  rank    : Nat
  role    : Nat
  recSeq  : Nat
  groupId : Nat
deriving DecidableEq, Repr, Inhabited

/-- A host access to BAR0 (R5) or to the command windows of BAR2 (R297) as it arrives: a read of `len` bytes, or a write of bytes. -/
inductive BarAccess where
  | read (off len : Nat)
  | write (off : Nat) (bytes : List Byte)
  | winRead (off len : Nat)
  | winWrite (off : Nat) (bytes : List Byte)
deriving DecidableEq, Repr, Inhabited

/-- The fields of the function's PCI Express configuration space that the manual names (R295, R296, R301), as the host writes them: Bus
Master Enable, power state D3hot, the AER mask, severity and reporting enable of an Unsupported Request, and whether its status bit is
written 1. -/
structure PciConfig where
  bme      : Bool
  d3hot    : Bool
  urMask   : Bool
  urFatal  : Bool
  urReport : Bool
  urClear  : Bool
deriving DecidableEq, Repr, Inhabited

/-- Where a register write goes: an offset of BAR0, or the bits of configuration space that the function holds. -/
inductive WriteAt where
  | bar0 (off : Nat)
  | config (c : PciConfig)
deriving DecidableEq, Repr, Inhabited

/-- One range of missing packets (Table 12-5): merge index, count, first extended sequence number. -/
structure GapRange where
  merge : Nat
  count : Nat
  first : Nat
deriving DecidableEq, Repr, Inhabited

/-- A row record (Table 12-4); `loss` lists the lines of the row that were incomplete. -/
structure RowRec where
  chan      : Nat
  pic       : Nat
  row       : Nat
  repairOpen : Bool
  resultValid : Bool
  planValid : Bool
  loss      : List Nat
  resSize   : Nat
  resGuard  : List Nat
  planCap   : Nat
  planQp    : Int
  planReef  : Nat
  planLatched : Bool
  resSubst  : Bool
  resOverrun : Bool
deriving DecidableEq, Repr, Inhabited

/-- A picture record (Table 12-5). `faults` is the 16-bit field; `flips` lists group ids. -/
structure PicRec where
  chan    : Nat
  pic     : Nat
  digPic  : Nat
  auCrc   : BitVec 64
  recCrc  : Word
  faults  : BitVec 16
  budget  : Nat
  ceiling : Nat
  decider : Bool
  flips   : List Nat
  cursorX : Int
  cursorY : Int
  cursorEn : Bool
  cfgGen  : Nat
  stepPic : Nat
  gaps    : List GapRange
  overflow : Bool
deriving DecidableEq, Repr, Inhabited

/-- A gap record (R232): stream, RTP timestamp of the AU, ranges. -/
structure GapRec where
  stream   : Nat
  ts       : Nat
  gaps     : List GapRange
  overflow : Bool
deriving DecidableEq, Repr, Inhabited

/-- A hello (Table 12-6): MAC addresses as (interface, address). -/
structure HelloRec where
  port        : Nat
  size        : Nat
  firstActive : Nat
  level       : Nat
  macs        : List (BitVec 48)
deriving DecidableEq, Repr, Inhabited

end Sys2Proof

namespace Sys2Proof.Machine

/-! ## Channel state that a rejoin copy carries (chapters 2, 4, 5, 7; Table 12-9) -/

/-- The running-changeable parameters of a channel, one shadow and one active copy of each (R10, R23, R344), with its
regions of interest and tone-mapping table. -/
structure RunCfg where
  flowA    : Nat
  flowB    : Nat
  overshoot : Nat
  qpMin    : Int
  qpMax    : Int
  anchorDelta : Nat
  anchorShare : Nat
  anchorHold  : Nat
  sweepG   : Nat
  refreshInterval : Nat
  protectedFloor  : Int
  tmMode   : Nat
  adapt    : Nat
  adaptSpeed  : Nat
  adaptTarget : Nat
  gainMin  : Nat
  gainMax  : Nat
  /-- Regions of interest by number (R115). -/
  rois     : Tab RoiSetArg := []
  /-- The tone-mapping table's bytes (R153); none before one is loaded. -/
  table    : Option (List Byte) := none
  /-- Channel-audio routes: sink programme * 8 + channel -> source kind, a, b (R156, R350). -/
  audio    : Tab (Nat × Nat × Nat) := []
deriving DecidableEq, Repr, Inhabited

/-- One line of 4:2:2 samples in the 20-bit domain (R39, R132). -/
structure PxLine where
  y  : List Nat
  cb : List Nat
  cr : List Nat
deriving DecidableEq, Repr, Inhabited

/-- Why a sweep runs (R108, R114). -/
inductive SweepKind where
  | periodic | requested | rejoin
deriving DecidableEq, Repr, Inhabited

/-- A sweep in progress (R110, R112). -/
structure Sweep where
  first  : Nat
  g      : Nat
  kind   : SweepKind
  failed : Bool := false
deriving DecidableEq, Repr, Inhabited

/-- Reference structure and refresh schedule of a channel (chapter 5). -/
structure RefState where
  /-- Short-term pictures, most recent first (R101). -/
  st       : List Nat := []
  /-- Long-term slots: slot -> picture (R103). -/
  lt       : Tab Nat := []
  /-- Picture at which a slot was last filled (R107). -/
  filled   : Tab Nat := []
  /-- Pending command marks: slot -> picture (R104). -/
  marks    : Tab Nat := []
  /-- Pending anchors: picture -> slot (R107). -/
  anchors  : Tab Nat := []
  /-- Accepted releases: slot and the picture whose structure empties it (R105). -/
  releases : List (Nat × Nat) := []
  /-- The pictures of requested refreshes, rising (R108). -/
  requests : List Nat := []
  /-- The schedule anchor (R108). -/
  anchor   : Nat := 0
  /-- The refresh interval in force (a change during a sweep waits, R99). -/
  interval : Nat := 0
  sweep    : Option Sweep := none
  /-- A sweep whose last picture is still in coding (R112). -/
  closing  : Option Sweep := none
  /-- A sweep begins at the next picture: after an abandoned one (R112) or a deferred one (R108). -/
  restart  : Option SweepKind := none
  /-- A rejoin refresh named by the group engine (R114). -/
  rejoinAt : Option Nat := none
  lastIdr  : Nat := 0
  /-- The latest picture with a buffering period SEI message (R80). -/
  lastBp   : Option Nat := none
  lastCut  : Option Nat := none
deriving DecidableEq, Repr, Inhabited

/-- The rate engine of a channel (chapter 4). -/
structure RateState where
  /-- Origins of the sub-tick count (R83), newest first: the first picture of each, and the drain counted from the DU before it to
  its DU 0 (R95). -/
  origins  : List (Nat × Nat) := []
  /-- Backlog of the actual ledger after the last entry, and that entry (R84). -/
  w        : Nat := 0
  last     : Option (Nat × Nat) := none
  /-- Backlog of the planning ledger just after the newest final DU's entry, and that DU (R85). -/
  wFin     : Nat := 0
  lastFin  : Option (Nat × Nat) := none
  /-- iota's S: x-hat over the latest IDR picture; none before one (R87). -/
  idrSize  : Option Nat := none
  idrSum   : Nat := 0
  /-- VBR surplus v (R87). -/
  v        : Int := 0
  /-- AU sizes released and not yet in v: picture, size (R87: pictures up to n - 2). -/
  auSizes  : Tab Nat := []
  /-- Sources of each row's weight and slice QP, for IDR pictures and for others, newest first: picture, weight, QP (R88, R89). -/
  wIdr     : Tab (List (Nat × Nat × Int)) := []
  wOther   : Tab (List (Nat × Nat × Int)) := []
  reef     : Nat := 0
  latched  : Bool := false
  tPic     : Int := 0
  bPic     : Int := 0
  lastAu   : Nat := 0
deriving DecidableEq, Repr, Inhabited

/-- The front state of a graphics layer or the cursor (R134). -/
structure Layer where
  surface : Nat := 0
  x0      : Int := 0
  y0      : Int := 0
  ga      : Nat := 1023
  enable  : Bool := false
deriving DecidableEq, Repr, Inhabited

/-- A pending flip group (R142 to R146). Times are in clock ticks. -/
structure FlipGroup where
  arg     : FlipSubmitArg
  tExec   : Nat
  notBefore : Nat
  /-- The first picture that met the time conditions (R146). -/
  q0      : Option Nat := none
  /-- The picture at which it flips, once decided (R145). -/
  flipAt  : Option Nat := none
  /-- Its id has been reported in LYR_FLIP_RESULT (R146). -/
  told    : Bool := false
deriving DecidableEq, Repr, Inhabited

/-- An entry of the timed cursor queue (R147). -/
structure CursorEntry where
  at_    : Nat
  x      : Int
  y      : Int
  enable : Bool
deriving DecidableEq, Repr, Inhabited

/-- A channel's protected layer (R148 to R150): its image in the SRAM cache and copies A and B of it in the firewalled regions of the two
stacks (Table 1-8). -/
structure Protected where
  x0      : Int
  y0      : Int
  width   : Nat
  height  : Nat
  kind    : Nat
  cache   : List Byte
  copyA   : List Byte
  copyB   : List Byte
  crc     : Word
  size    : Nat
  /-- Composition has read an uncorrectable error from the cache: its next check fails (R132, R150). -/
  hurt    : Bool := false
  /-- Picture from which it is composed; none until the channel runs (R327). -/
  from_   : Option Nat
  /-- The time of its load command, for a channel that is not running (R327). -/
  time    : TimeField
  /-- Pending removal: picture, or the time of the command. -/
  remove  : Option (Option Nat × TimeField) := none
  dropped : Bool := false
  /-- Which copy the next check takes in turn (R150). -/
  turn    : Bool := false
  /-- The first picture on which it has been composed (R117). -/
  shown   : Option Nat := none
deriving DecidableEq, Repr, Inhabited

/-- Layers, cursor, statistics and gain of a channel (chapter 7). -/
structure LayerState where
  front   : Tab Layer := []
  flips   : List FlipGroup := []
  cursorQ : List CursorEntry := []
  /-- Time of the entry last pushed (R147). -/
  lastPush : Option Nat := none
  /-- A position written to LYR_CUR_POS that has not taken effect: x, y, instant (R147). -/
  curReg  : Option (Int × Int × Nat) := none
  prot    : Option Protected := none
  /-- Cursor position and enable in force after the last boundary (R147). -/
  curPos  : Int × Int × Bool := (0, 0, false)
  /-- Decided cursor positions awaiting their picture in a group: picture, x, y, enable (R145, R147). -/
  curAt   : Tab (Int × Int × Bool) := []
  /-- The video layer of the newest row of each line (R37). -/
  video   : Tab PxLine := []
  /-- The first line of input has arrived since the start picture (R39). -/
  anyInput : Bool := false
  /-- CTU means of the picture being composed and of the one before (R107). -/
  means   : Tab Nat := []
  prevMeans : Tab Nat := []
  meansPic : Option Nat := none
  prevMeansPic : Option Nat := none
  /-- Sum and number of u0 of the picture being composed (R154). -/
  sumU    : Nat := 0
  numU    : Nat := 0
  /-- s(n), and the gains of the next pictures (R154). -/
  smooth  : Option Nat := none
  gains   : Tab Nat := []
  /-- The gain of the picture composed last (R155). -/
  gain    : Nat := 0
  /-- Malformed tiles and pixels already counted in the picture being composed (R141). -/
  stfSeen : List Nat := []
  /-- The last composed picture (R113, R146). -/
  composed : Option Nat := none
deriving DecidableEq, Repr, Inhabited

/-- The channel states of Table 2-7; a channel that the table `State.chans` does not list is FREE. -/
inductive ChanState where
  | defined | armed | running | stopping | stopped
deriving DecidableEq, Repr, Inhabited

/-- A picture of a long-term slot as a rejoin copy brings it (Table 12-9): its number, index and POC, its samples and damage marks by row. -/
structure SlotCopy where
  pic    : Nat
  num    : Nat
  poc    : Nat
  rows   : Tab (List SampleLine)
  damage : Tab (List Nat)
deriving DecidableEq, Repr, Inhabited

/-- A surface as a rejoin copy brings it (Table 12-9), with what it holds. -/
structure SurfCopy where
  handle : Nat
  owner  : Nat
  kind   : Nat
  width  : Nat
  height : Nat
  size   : Nat
  bytes  : List Byte
deriving DecidableEq, Repr, Inhabited

/-- What a rejoin copy brings for one channel (Table 12-9), as at DU 0 of s_c: the definition with its running configurations,
generations and shadow versions (R241); the bound flow entries by the active's index, and the external and audio streams they
feed; audio alignment groups; surfaces; layers, references, rate state, ALF set and egress state; the pictures of its long-term slots;
and the channel's state with its times. -/
structure ChanCopy where
  define   : ChannelDefineArg
  st       : ChanState
  startTime : Nat
  startPic : Nat
  stopPic  : Option Nat
  base     : Int
  nextPic  : Nat
  active   : RunCfg
  shadow   : RunCfg
  gen      : Nat
  genNow   : Nat
  held     : Tab RunCfg
  flows    : List (Nat × FlowArg)
  ext      : List ExtStreamArg
  audio    : List AudioStreamArg
  groups   : Tab (List Nat)
  surfs    : List SurfCopy
  layers   : LayerState
  refs     : RefState
  rate     : RateState
  alfFrom  : Option Nat
  alfRows  : List Nat
  nextSeq  : Nat
  tsCc     : Tab Nat
  tsOrigin : Option Nat
  slots    : List SlotCopy
deriving DecidableEq, Repr, Inhabited

end Sys2Proof.Machine

namespace Sys2Proof

/-- A copy record (R232): its block of a channel, 0 for the state of Table 12-9 and 1 + slot for a long-term slot, the offset and the
bytes it carries; with the last record of a block, the block's CRC, whether it holds, and what the block says. -/
structure CopyRec where
  chan   : Nat
  block  : Nat
  offset : Nat
  data   : List Byte
  last   : Bool
  blockCrc : Word
  crcOk  : Bool
  copy   : Option Machine.ChanCopy
  slot   : Option Machine.SlotCopy
deriving DecidableEq, Repr, Inhabited

/-- The header of a ratline message (Table 14-1) and its CRC-32C: the port it came in at (0 east, 1 west), in the frame of which link
sequence number (R285), and its fields. -/
structure RatHdr where
  port    : Nat
  link    : Nat
  crc     : Word
  length  : Nat
  west    : Bool
  manager : Bool
  src     : Nat
  dst     : Nat
  seq     : Nat
  hops    : Nat
deriving DecidableEq, Repr, Inhabited

/-- The status bits of a TRN set (Table 13-2). -/
structure TrnSet where
  lane    : Nat
  pre     : Nat
  post    : Nat
  ready   : Bool
  ffeDone : Bool
deriving DecidableEq, Repr, Inhabited

/-! ## The rows -/

/-- The commands and events of the step table, one constructor a row, in its order. -/
inductive Instr where
  /-- POWER_ON (R424). -/
  | powerOn
  /-- CHIP_RESET (R425). -/
  | chipReset
  /-- RESET_RELEASE (R431). -/
  | resetRelease (mgrSel : Bool) (failed : List Nat) (coreFail : Bool)
  /-- FIRMWARE_READY (R397). -/
  | firmwareReady (ms : Nat) (reread : Bool)
  /-- TRIAL_TIMEOUT (R434). -/
  | trialTimeout
  /-- PLL_UNLOCK (R12). -/
  | pllUnlock (d : Domain)
  /-- REFCLK_ETH_LOSS (R275). -/
  | refclkEthLoss
  /-- REFCLK_LINK_LOSS (R275). -/
  | refclkLinkLoss
  /-- REFCLK_LINK_RETURN (R275). -/
  | refclkLinkReturn
  /-- WATCHDOG_EXPIRY (R396). -/
  | watchdogExpiry (core : Nat)
  /-- FUNCTION_LEVEL_RESET (R315). -/
  | functionLevelReset
  /-- PICTURE_BOUNDARY (R10). -/
  | pictureBoundary (c : Nat) (prot : ProtCheck)
  /-- CHANNEL_CLOCK_CHANGE (R215). -/
  | channelClockChange (x : ClockChange)
  /-- LOSS_MAP_FREEZE (R189). -/
  | lossMapFreeze (c pic row : Nat)
  /-- ROW_DEADLINE (R31). -/
  | rowDeadline (c pic row : Nat)
  /-- ROW_JOB_RELEASE (R44). -/
  | rowJobRelease (c pic row : Nat)
  /-- ROW_JOB_START (R85). -/
  | rowJobStart (c pic row : Nat)
  /-- CTU_COMMIT (R86). -/
  | ctuCommit (c pic row : Nat) (t : CtuTry) (filter : CtuFilter) (bp : Nat)
  /-- ROW_JOB_COMPLETE (R120). -/
  | rowJobComplete (c pic row : Nat) (checks : List StageCheck) (overhead : Nat) (lines : List SampleLine) (load : Nat)
  /-- JOB_OVERRUN (R48). -/
  | jobOverrun (c pic row : Nat)
  /-- ENGINE_LOCAL_RESET (R48). -/
  | engineLocalReset (e : Nat) (inFlight : Nat)
  /-- DU_SUBSTITUTION (R68). -/
  | duSubstitution (c pic row : Nat) (overhead bits : Nat)
  /-- TRAILING_FILTER (R62). -/
  | trailingFilter (c pic row : Nat) (checks : List StageCheck) (fin : List SampleLine)
  /-- ALF_DERIVATION (R63). -/
  | alfDerivation (x : PicAt)
  /-- PROOF_DISPATCH (R121). -/
  | proofDispatch
  /-- PROOF_VERDICT (R120). -/
  | proofVerdict (p : Nat) (v : VerdictIn)
  /-- VERDICT_DEADLINE (R122). -/
  | verdictDeadline (c pic row : Nat)
  /-- SUBSTITUTE_DECODE (R123). -/
  | substituteDecode (c pic row : Nat) (lines : List SampleLine)
  /-- PROOF_TRAILING_FILTER (R123). -/
  | proofTrailingFilter (c pic row : Nat) (fin : List SampleLine)
  /-- PROOF_PIPE_RESET (R124). -/
  | proofPipeReset (p : Nat)
  /-- EXT_AU_FREEZE (R237). -/
  | extAuFreeze (d : Nat)
  /-- EXT_GAP_DEADLINE (R237). -/
  | extGapDeadline (d : Nat)
  /-- EXT_AU_DECODE (R126). -/
  | extAuDecode (d : Nat) (au : ExtAu)
  /-- DU_TRANSMIT_ENTRY (R32). -/
  | duTransmitEntry (c pic row : Nat)
  /-- ETHERNET_FRAME_RX (R177). -/
  | ethernetFrameRx (i : Nat) (f : RxFrame) (free : Nat)
  /-- SEQ_MISSING_TIMEOUT (R190). -/
  | seqMissingTimeout (m : Nat) (seq : Nat)
  /-- MERGE_PATH_DOWN (R187). -/
  | mergePathDown (m : Nat) (path : Nat)
  /-- FIRMWARE_CONTROL_PACKET (R178). -/
  | firmwareControlPacket (i : Nat) (k : Nat)
  /-- MEMBERSHIP_REPORT_TIMER (R191). -/
  | membershipReportTimer (i : Nat)
  /-- ETH_LINK_UP (R274). -/
  | ethLinkUp (i : Nat)
  /-- ETH_LINK_DOWN (R274). -/
  | ethLinkDown (i : Nat)
  /-- PACKET_MODEL_INSTANT (R198). -/
  | packetModelInstant (i : Nat) (c seq : Nat)
  /-- PACKET_TRANSMIT (R201). -/
  | packetTransmit (i : Nat) (held : Nat)
  /-- TS_SLOT (R196). -/
  | tsSlot (c : Nat)
  /-- GATE_LIST_TAKEN (R204). -/
  | gateListTaken (i : Nat)
  /-- GATE_LIST_START (R204). -/
  | gateListStart (i : Nat)
  /-- GATE_ENTRY_CHANGE (R203). -/
  | gateEntryChange (i : Nat)
  /-- SAMPLE_TICK (R156). -/
  | sampleTick
  /-- TDM_RX_FRAME (R156). -/
  | tdmRxFrame (p : Nat) (slots : List Word)
  /-- TDM_TX_FRAME (R156). -/
  | tdmTxFrame (p : Nat)
  /-- TDM_FRAME_SYNC (R165). -/
  | tdmFrameSync (p : Nat) (d : Nat) (spacing : Nat)
  /-- TDM_LOCK_TIMEOUT (R165). -/
  | tdmLockTimeout (p : Nat) (d : Nat)
  /-- AUDIO_CLOCK_LOOP_UPDATE (R168). -/
  | audioClockLoopUpdate
  /-- PILOT_HOLDOVER (R169). -/
  | pilotHoldover
  /-- PTP_SYNC (R208). -/
  | ptpSync (port : Nat) (m : SyncMsg)
  /-- PTP_FOLLOW_UP (R207). -/
  | ptpFollowUp (port : Nat) (m : FollowUpMsg)
  /-- PTP_ANNOUNCE (R208). -/
  | ptpAnnounce (port : Nat) (m : AnnounceMsg)
  /-- PTP_DELAY_RESP (R207). -/
  | ptpDelayResp (port : Nat) (m : DelayRespMsg)
  /-- DELAY_REQ_TIMER (R207). -/
  | delayReqTimer
  /-- ANNOUNCE_TIMEOUT (R208). -/
  | announceTimeout (port : Nat)
  /-- SERVO_OFFSET (R211). -/
  | servoOffset (o : Int) (tag : Nat) (logSync : Int)
  /-- SERVO_CORR_EXPIRY (R211). -/
  | servoCorrExpiry
  /-- OFFSET_TIMEOUT (R213). -/
  | offsetTimeout
  /-- STEP_APPLY (R214). -/
  | stepApply
  /-- PPS_OUT_PULSE (R220). -/
  | ppsOutPulse
  /-- PPS_OUT_FALL (R220). -/
  | ppsOutFall
  /-- PPS_IN_EDGE (R220). -/
  | ppsInEdge
  /-- ROW_RECORD (R234). -/
  | rowRecord (h : RecHdr) (r : RowRec)
  /-- PICTURE_RECORD (R238). -/
  | pictureRecord (h : RecHdr) (r : PicRec)
  /-- GAP_RECORD (R237). -/
  | gapRecord (h : RecHdr) (r : GapRec)
  /-- REPAIR_REQUEST (R235). -/
  | repairRequest (h : RecHdr) (merge first count : Nat)
  /-- REPAIR_DATA (R235). -/
  | repairData (h : RecHdr) (merge : Nat) (x : RepairPkt) (ingress : Nat)
  /-- COPY_RECORD (R256). -/
  | copyRecord (h : RecHdr) (r : CopyRec)
  /-- HELLO (R256). -/
  | hello (h : RecHdr) (r : HelloRec)
  /-- HELLO_TIMER (R232). -/
  | helloTimer
  /-- HANDOVER (R246). -/
  | handover (h : RecHdr) (tH target : Nat) (diverged : List Nat)
  /-- HANDOVER_ACK (R246). -/
  | handoverAck (h : RecHdr) (tH : Nat)
  /-- STAND_DOWN (R248). -/
  | standDown (h : RecHdr) (reason : Nat)
  /-- REJOIN_PLAN (R256). -/
  | rejoinPlan (h : RecHdr) (plan : List (Nat × Nat × Option Nat))
  /-- REJOIN_DONE (R232). -/
  | rejoinDone (h : RecHdr) (chans : List Nat)
  /-- HANDOVER_INSTANT (R246). -/
  | handoverInstant
  /-- HANDOVER_RETRY (R246). -/
  | handoverRetry
  /-- TAKEOVER_TIMER (R249). -/
  | takeoverTimer
  /-- TAKEOVER_WAIT_TIMER (R249). -/
  | takeoverWaitTimer
  /-- RECORD_SILENCE_TIMEOUT (R251). -/
  | recordSilenceTimeout
  /-- HELD_PACKET_EXPIRY (R250). -/
  | heldPacketExpiry (c seq : Nat)
  /-- REJOIN_COPY_COMPLETE (R256). -/
  | rejoinCopyComplete (c : Nat) (failed : List Nat)
  /-- COPY_RETRY_TIMER (R257). -/
  | copyRetryTimer (c : Nat)
  /-- STAY_REPLAY_TIMEOUT (R227). -/
  | stayReplayTimeout (leg : Nat)
  /-- LINK_ACK (R285). -/
  | linkAck (port link : Nat)
  /-- TRN (R271). -/
  | trn (q : Nat) (t : TrnSet)
  /-- ALN (R270). -/
  | aln (q : Nat) (numbers : List Nat) (skew : Nat)
  /-- SYMBOL_LOCK (R270). -/
  | symbolLock (l : Nat) (inverted : Bool)
  /-- TRAINING_STEP_TIMER (R271). -/
  | trainingStepTimer (l : Nat) (fom : Nat)
  /-- TRAINING_TIMEOUT (R271). -/
  | trainingTimeout (q : Nat) (foms : List Nat)
  /-- LANE_LOS_SET (R273). -/
  | laneLosSet (l : Nat)
  /-- LANE_LOS_CLEAR (R273). -/
  | laneLosClear (l : Nat)
  /-- CDR_LOCK_CHANGE (R273). -/
  | cdrLockChange (l : Nat) (locked : Bool)
  /-- ELASTIC_SLIP (R266). -/
  | elasticSlip (q : Nat)
  /-- FAILED_HOLD_EXPIRY (R272). -/
  | failedHoldExpiry (q : Nat)
  /-- ENUM (R286). -/
  | enum (h : RatHdr) (next : Nat) (ids : List (BitVec 64)) (fin : Bool)
  /-- ANNOUNCE (R287). -/
  | announce (h : RatHdr) (id : BitVec 64)
  /-- ANNOUNCE_TIMER (R287). -/
  | announceTimer
  /-- ASSIGN (R287). -/
  | assign (h : RatHdr) (id : BitVec 64) (addr : Nat)
  /-- RATLINE_COMMAND (R289). -/
  | ratlineCommand (h : RatHdr) (c : CmdHdr) (slot roles : Nat) (p : Payload)
  /-- RATLINE_COMPLETION (R290). -/
  | ratlineCompletion (h : RatHdr) (c : Completion)
  /-- COMMAND_RESEND_TIMER (R290). -/
  | commandResendTimer
  /-- FORWARD_TIMEOUT (R290). -/
  | forwardTimeout (pair : Nat) (seq : Nat)
  /-- RING_CHECK_TIMER (R288). -/
  | ringCheckTimer
  /-- RING_CHECK (R288). -/
  | ringCheck (h : RatHdr)
  /-- RING_REPORT (R288). -/
  | ringReport (h : RatHdr) (ports demand floor : Nat)
  /-- RING_SPLIT_TIMEOUT (R288). -/
  | ringSplitTimeout
  /-- BUDGET_TIMER (R292). -/
  | budgetTimer
  /-- BUDGET (R292). -/
  | budget (h : RatHdr) (b : List Nat)
  /-- BUDGET_TIMEOUT (R292). -/
  | budgetTimeout
  /-- TEST_REQUEST (R293). -/
  | testRequest (h : RatHdr) (block power : Nat)
  /-- TEST_GRANT (R293). -/
  | testGrant (h : RatHdr) (block power : Nat)
  /-- TEST_DONE (R293). -/
  | testDone (h : RatHdr) (block : Nat)
  /-- TEST_GRANT_TIMEOUT (R293). -/
  | testGrantTimeout
  /-- GRANT_EXPIRY (R293). -/
  | grantExpiry (addr : Nat)
  /-- RATLINE_REPLAY_TIMEOUT (R285). -/
  | ratlineReplayTimeout (port : Nat)
  /-- MBX_H2D_WRITE (R301). -/
  | mbxH2dWrite (p : Nat) (w : Word)
  /-- MBX_D2H_READ (R302). -/
  | mbxD2hRead (p : Nat)
  /-- D2H_QUEUE_POST (R317). -/
  | d2hQueuePost (p : Nat)
  /-- PING (R303). -/
  | ping (p : Nat)
  /-- SESSION_IDLE_TIMEOUT (R311). -/
  | sessionIdleTimeout (p : Nat)
  /-- NONCE_EXPIRY (R308). -/
  | nonceExpiry (nonce : BitVec 128)
  /-- SLOT_LOCK_EXPIRY (R309). -/
  | slotLockExpiry (slot : Nat)
  /-- SESSION_OPEN (R308). -/
  | sessionOpen (h : CmdHdr) (p : SessionOpenArg)
  /-- SESSION_PROVE (R309). -/
  | sessionProve (h : CmdHdr) (p : SessionProveArg)
  /-- SESSION_CLOSE (R311). -/
  | sessionClose (h : CmdHdr)
  /-- COMPLETION_FETCH (R313). -/
  | completionFetch (h : CmdHdr) (p : Nat)
  /-- KEY_WRITE (R330). -/
  | keyWrite (h : CmdHdr) (p : KeyWriteArg)
  /-- DEVICE_INFO (R331). -/
  | deviceInfo (h : CmdHdr)
  /-- DEVICE_CONFIGURE (R74). -/
  | deviceConfigure (h : CmdHdr) (p : ChArg)
  /-- POWER_BUDGET (R332). -/
  | powerBudget (h : CmdHdr) (p : Nat)
  /-- SHUTDOWN (R333). -/
  | shutdown (h : CmdHdr) (p : ChArg)
  /-- CAL_READ (R334). -/
  | calRead (h : CmdHdr) (p : Nat)
  /-- CAL_WRITE (R449). -/
  | calWrite (h : CmdHdr) (p : CalWriteArg)
  /-- FIRMWARE_WRITE (R335). -/
  | firmwareWrite (h : CmdHdr) (p : FirmwareWriteArg)
  /-- FIRMWARE_WRITE_DONE (R335). -/
  | firmwareWriteDone (status : Nat)
  /-- LIFECYCLE_SET (R441). -/
  | lifecycleSet (h : CmdHdr) (p : LifecycleSetArg)
  /-- TIME_CONFIG (R207). -/
  | timeConfig (h : CmdHdr) (p : TimeConfigArg)
  /-- TIME_SERVO_CONFIG (R212). -/
  | timeServoConfig (h : CmdHdr) (p : TimeServoArg)
  /-- TIME_ACCEPT_STEP (R214). -/
  | timeAcceptStep (h : CmdHdr) (p : TimeField)
  /-- TIME_PPS_CONFIG (R220). -/
  | timePpsConfig (h : CmdHdr) (p : TimePpsArg)
  /-- PORT_CONFIG (R175). -/
  | portConfig (h : CmdHdr) (p : PortConfigArg)
  /-- NET_ADDRESS (R176). -/
  | netAddress (h : CmdHdr) (p : NetAddressArg)
  /-- FLOW_ADD (R182). -/
  | flowAdd (h : CmdHdr) (p : FlowArg)
  /-- FLOW_DELETE (R181). -/
  | flowDelete (h : CmdHdr) (p : Nat)
  /-- TX_QUEUE_CONFIG (R340). -/
  | txQueueConfig (h : CmdHdr) (p : TxQueueArg)
  /-- GATE_LIST_SET (R204). -/
  | gateListSet (h : CmdHdr) (p : GateListArg)
  /-- LANE_CONFIG (R276). -/
  | laneConfig (h : CmdHdr) (p : LaneConfigArg)
  /-- CHANNEL_DEFINE (R24). -/
  | channelDefine (h : CmdHdr) (p : ChannelDefineArg)
  /-- CHANNEL_DELETE (R34). -/
  | channelDelete (h : CmdHdr) (p : ChArg)
  /-- CHANNEL_START (R35). -/
  | channelStart (h : CmdHdr) (p : ChtArg)
  /-- CHANNEL_STOP (R36). -/
  | channelStop (h : CmdHdr) (p : ChtArg)
  /-- CHANNEL_SET (R344). -/
  | channelSet (h : CmdHdr) (p : ChannelSetArg)
  /-- CHANNEL_COMMIT (R10). -/
  | channelCommit (h : CmdHdr) (p : ChArg)
  /-- CHANNEL_REFRESH (R108). -/
  | channelRefresh (h : CmdHdr) (p : ChtArg)
  /-- LTR_MARK (R104). -/
  | ltrMark (h : CmdHdr) (p : ChtArg)
  /-- LTR_RELEASE (R105). -/
  | ltrRelease (h : CmdHdr) (p : ChtArg)
  /-- ROI_SET (R115). -/
  | roiSet (h : CmdHdr) (p : RoiSetArg)
  /-- ROI_CLEAR (R115). -/
  | roiClear (h : CmdHdr) (p : ChArg)
  /-- EXT_STREAM_DEFINE (R125). -/
  | extStreamDefine (h : CmdHdr) (p : ExtStreamArg)
  /-- EXT_STREAM_DELETE (R125). -/
  | extStreamDelete (h : CmdHdr) (p : ChArg)
  /-- SURFACE_ALLOC (R135). -/
  | surfaceAlloc (h : CmdHdr) (p : SurfaceAllocArg)
  /-- SURFACE_FREE (R135). -/
  | surfaceFree (h : CmdHdr) (p : Nat)
  /-- FLIP_SUBMIT (R142). -/
  | flipSubmit (h : CmdHdr) (p : FlipSubmitArg)
  /-- PROTECTED_LOAD (R148). -/
  | protectedLoad (h : CmdHdr) (p : ProtectedLoadArg)
  /-- PROTECTED_REMOVE (R149). -/
  | protectedRemove (h : CmdHdr) (p : ChtArg)
  /-- TONEMAP_LOAD (R153). -/
  | tonemapLoad (h : CmdHdr) (p : TonemapLoadArg)
  /-- AUDIO_PORT_CONFIG (R163). -/
  | audioPortConfig (h : CmdHdr) (p : AudioPortArg)
  /-- AUDIO_PORT_START (R166). -/
  | audioPortStart (h : CmdHdr) (p : ChArg)
  /-- AUDIO_PORT_STOP (R166). -/
  | audioPortStop (h : CmdHdr) (p : ChArg)
  /-- AUDIO_STREAM_CONFIG (R349). -/
  | audioStreamConfig (h : CmdHdr) (p : AudioStreamArg)
  /-- AUDIO_STREAM_DELETE (R157). -/
  | audioStreamDelete (h : CmdHdr) (p : ChArg)
  /-- AUDIO_ROUTE (R350). -/
  | audioRoute (h : CmdHdr) (p : AudioRouteArg)
  /-- AUDIO_ALIGN_GROUP (R351). -/
  | audioAlignGroup (h : CmdHdr) (p : AlignGroupArg)
  /-- AUDIO_CLOCK (R168). -/
  | audioClock (h : CmdHdr) (p : AudioClockArg)
  /-- GROUP_FORM (R222). -/
  | groupForm (h : CmdHdr) (p : GroupArg)
  /-- GROUP_JOIN (R256). -/
  | groupJoin (h : CmdHdr) (p : GroupArg)
  /-- GROUP_LEAVE (R260). -/
  | groupLeave (h : CmdHdr)
  /-- GROUP_HANDOVER (R246). -/
  | groupHandover (h : CmdHdr) (p : Nat)
  /-- CHAIN_ENUMERATE (R286). -/
  | chainEnumerate (h : CmdHdr)
  /-- CHAIN_BUDGET (R292). -/
  | chainBudget (h : CmdHdr) (p : Nat)
  /-- EVENT_LOG_FETCH (R355). -/
  | eventLogFetch (h : CmdHdr) (p : EventFetchArg)
  /-- CU_ASSIGN (R408). -/
  | cuAssign (h : CmdHdr) (p : ChArg)
  /-- SELFTEST_BLOCK_START (R444). -/
  | selftestBlockStart
  /-- SELFTEST_BLOCK_END (R445). -/
  | selftestBlockEnd (block : Nat) (pass : Bool)
  /-- MOORED_ENTRY (R369). -/
  | mooredEntry
  /-- TEMP_SENSOR_SCAN (R357). -/
  | tempSensorScan (readings : List (Option Int))
  /-- THERMAL_HIGH (R364). -/
  | thermalHigh
  /-- THERMAL_TRIP (R364). -/
  | thermalTrip (sensor : Nat) (temp : Int)
  /-- PMBUS_POLL (R357). -/
  | pmbusPoll (rails : List (Option (Nat × Nat)))
  /-- HBM_TEMP_READ (R381). -/
  | hbmTempRead (t0 t1 : Option Int)
  /-- SUPPLY_WARNING_CROSSING (R366). -/
  | supplyWarningCrossing (src : Nat) (mv : Nat)
  /-- SUPPLY_WARNING_RELEASE (R367). -/
  | supplyWarningRelease (minMv : Nat) (us : Nat)
  /-- SUPPLY_RESET_CROSSING (R365). -/
  | supplyResetCrossing (rail : Nat) (mv : Nat)
  /-- HBM_REFRESH (R380). -/
  | hbmRefresh
  /-- PANIC_LONG_TIMER (R382). -/
  | panicLongTimer (port : Nat)
  /-- ROW_IDLE_CLOSE (R387). -/
  | rowIdleClose (g : Nat) (bank : Nat)
  /-- SCRUB_READ (R390). -/
  | scrubRead (a : Nat) (sram : Bool) (res : EccResult)
  /-- ECC_CORRECTED_ERROR (R389). -/
  | eccCorrectedError (a : Nat) (sram : Bool)
  /-- ECC_UNCORRECTABLE_ERROR (R389). -/
  | eccUncorrectableError (a : Nat) (sram : Bool) (fault : FaultSource) (user : PoisonUser)
  /-- MASTER_RESET_RETIRE (R379). -/
  | masterResetRetire (port : Nat)
  /-- HOST_HBM_ACCESS (R298). -/
  | hostHbmAccess (a : Nat) (len : Nat) (data : Option (List Byte))
  /-- BAR0_BAD_ACCESS (R5). -/
  | bar0BadAccess (a : BarAccess)
  /-- REGISTER_WRITE (R6). -/
  | registerWrite (w : WriteAt) (lo : Word) (hi : Option Word)
  /-- TIME_NOW_NS_READ (R210). -/
  | timeNowNsRead
  /-- CHN_AU_COUNT_LO_READ (R40). -/
  | chnAuCountLoRead (c : Nat)
  /-- PMU_CNT_LO_READ (R410). -/
  | pmuCntLoRead (i : Nat)
  /-- ENG_PEAK_LOAD_READ (R75). -/
  | engPeakLoadRead (e : Nat)
  /-- RC_HEADROOM_MIN_READ (R98). -/
  | rcHeadroomMinRead (c : Nat)
  /-- LYR_FLIP_RESULT_READ (R146). -/
  | lyrFlipResultRead (c : Nat)
  /-- EXT_MARGIN_MIN_READ (R126). -/
  | extMarginMinRead (e : Nat)
  /-- NET_MERGE_SKEW_READ (R186). -/
  | netMergeSkewRead (m : Nat)
  /-- EGR_LATE_MAX_READ (R198). -/
  | egrLateMaxRead (i : Nat)
  /-- LANE_FOM_READ (R271). -/
  | laneFomRead (l : Nat)
  /-- LYR_FENCE_SIGNAL (R143). -/
  | lyrFenceSignal (w : Word)
  /-- LYR_FENCE_RESET (R143). -/
  | lyrFenceReset (w : Word)
  /-- LYR_CUR_POS (R147). -/
  | lyrCurPos (c : Nat) (w : Word)
  /-- LYR_CUR_QUEUE (R147). -/
  | lyrCurQueue (c : Nat) (w : Word)
  /-- AUD_SLOT_COMMIT (R167). -/
  | audSlotCommit (p : Nat) (d : Nat)
  /-- CHK_PRESET (R404). -/
  | chkPreset (u : Nat) (w : Word)
  /-- CHK_INIT (R406). -/
  | chkInit (u : Nat)
  /-- CHK_FINISH (R406). -/
  | chkFinish (u : Nat)
  /-- CHK_START (R406). -/
  | chkStart (u : Nat)
  /-- CHK_ABORT (R407). -/
  | chkAbort (u : Nat)
  /-- CHK_FEED8 (R406). -/
  | chkFeed8 (u : Nat) (w : Word)
  /-- CHK_FEED16 (R406). -/
  | chkFeed16 (u : Nat) (w : Word)
  /-- CHK_FEED32 (R406). -/
  | chkFeed32 (u : Nat) (lo : Word) (hi : Option Word)
  /-- CHK_SCAN_END (R407). -/
  | chkScanEnd (u : Nat) (early : Bool)
  /-- PMU_COUNTER_ENABLE (R409). -/
  | pmuCounterEnable (i : Nat) (w : Word)
  /-- PMU_SAMPLE (R411). -/
  | pmuSample (i : Nat) (pc : Word) (core : Nat) (thread : Nat)
  /-- PMU_HIST_CLEAR (R412). -/
  | pmuHistClear (h : Nat) (w : Word)
  /-- PMU_DUMP_CONFIG_WRITE (R414). -/
  | pmuDumpConfigWrite (off : Nat) (w : Word)
  /-- PMU_DUMP_TRIGGER (R413). -/
  | pmuDumpTrigger (trigger : Nat) (pic : Nat) (busy : Bool)
  /-- THREAD_READY (R400). -/
  | threadReady (slot : Nat) (level : Nat) (ns : Nat)
  /-- DEV_RECOVERY (R435). -/
  | devRecovery (w : Word) (info : ImageInfo)
  /-- BIST_RUN_START (R451). -/
  | bistRunStart (w : Word) (pass : Bool)
  /-- CODE_ERROR (R270). -/
  | codeError (l : Nat) (symbol : Nat)
  /-- LANE_FOM_LOW (R271). -/
  | laneFomLow (l : Nat) (fom : Nat)
  /-- HAL_DISPATCH_MAX_READ (R415). -/
  | halDispatchMaxRead
  /-- PMU_SAMPLE_PC_READ (R411). -/
  | pmuSamplePcRead
  /-- BIST_OTP_BURN (R443). -/
  | bistOtpBurn
  /-- BIST_KEY_SLOT_WRITE (R443). -/
  | bistKeySlotWrite
  /-- RESTART_HOLD_EXPIRY (R398). -/
  | restartHoldExpiry
  /-- CONTROL_COMPLEX_RESET (R397). -/
  | controlComplexReset
  /-- HOUR_COUNTER_TICK (R437). -/
  | hourCounterTick
  /-- LIFECYCLE_RESET_TIMER (R441). -/
  | lifecycleResetTimer
  /-- AUDM_OSC_UNLOCK (R12). -/
  | audmOscUnlock
  /-- UNSTABLE_CLEAR (R398). -/
  | unstableClear
deriving DecidableEq, Repr, Inhabited

end Sys2Proof
end

