-- ==== Sys2Proof/Decode.lean ====
section
/-!
DEFINITION. Decoding of the step table's words. The table gives none of its rows any bits: a row is an operation or an event
with its operands, not a word. So no word spells a command.
-/
namespace Sys2Proof

/-- The command that a word spells by the table's bits: none, since no row has bits. -/
def decodeTableWord (_nbits _w : Nat) : Option Instr := none

end Sys2Proof
end

