-- ==== Sys2Proof/Config.lean ====
section
/-!
DEFINITION. What an implementation fixes and the values the spec leaves open. A free value is an opaque constant without a
body, applied to a counter of the state or to the operands it depends on: nothing can be proved of which value it is.
-/
namespace Sys2Proof.Config

/-- Clock ticks per nanosecond. The model measures instants in ticks of 1/12,960 ns, in which every picture period, line
time, row time and 90 kHz tick of the spec is a whole number (Table 2-2, R31, Table 4-1). -/
def ticksPerNs : Nat := 12960

/-- Clock ticks per second. -/
def ticksPerSec : Nat := 12960000000000

/-- Clock ticks per tick of 90 kHz. -/
def ticks90k : Nat := 144000000

/-- The nonce of a SESSION_OPEN (R308): a fresh random value, free. -/
opaque nonce : Nat → BitVec 128

/-- The first 16 bytes of HMAC-SHA-256 of a message under a key (R309). The spec names the standard's function and does not
restate it; the model takes it as a free function of its operands. -/
opaque hmac : BitVec 256 → List (BitVec 8) → BitVec 128

/-- The reason in the CLOSED word of a session that KEY_WRITE closes (R312): Table 15-5 names none for it, free. -/
opaque keyWriteReason : Nat

/-- Which way an increment that lies halfway between two units is rounded (R211 says "rounded to the nearest"): free. -/
opaque halfUp : Int → Bool

/-- The CRC-64 of an AU's bytes (R71, R231), a function of the NAL units the AU consists of: the standards, which the spec names and
does not restate, turn those into bytes. Free. -/
opaque auCrc : List NalUnit → BitVec 64

/-- A sample that DC prediction of a bare-pole CTU of the intra form gives (R67): the standards' rule, which the spec names and does
not restate, as a function of codec, depth and component, the lines of the CTU to its left, and the place in the CTU. Free. -/
opaque dcPredict : Nat → Nat → Nat → List (List Nat) → Nat → Nat → Nat

/-- Sizes in bytes of the non-VCL NAL units of an AU's DU 0 (R81): delimiter, parameter sets, APS and SEI messages. The spec bounds
their sum and does not state their sizes, so they are free. -/
opaque nonVcl : Nat → List Nat

/-- The UDP source port of a channel's packets with src_mode unit: the spec gives none (R194, R254), free. -/
opaque udpSource : Nat → Nat

/-- The RTP timestamp of a transport-stream datagram, by the number of its first slot: the spec gives none (R195, R196), free. -/
opaque tsTimestamp : Nat → Nat

/-- The 6-bit ID of a request, which its master chooses (R378) and MEM_FAULT captures: free. -/
opaque requestId : Nat → BitVec 6

/-- The bytes that a read of poisoned data carries (R389 states the poison, not the bytes): free. -/
opaque poisonByte : Nat → Nat → BitVec 8

/-- Master, tag and ID that MEM_FAULT captures for an error the patrol scrub finds (R390 gives the scrub no master port): free. -/
opaque scrubSource : Nat → BitVec 14

/-- Bytes a scan had processed when it was aborted (R407; a matter of timing), before the bound by its length: free. -/
opaque scanProgress : Nat → Nat

/-- Requests in flight at a master port that a control-complex or function-level reset resets (R379; a matter of timing): free. -/
opaque inFlight : Nat → Nat

/-- Bytes that a check unit reads at fabric addresses other than HBM (R406; SRAM and registers as memory): free. -/
opaque fabricByte : Nat → Nat → BitVec 8

/-- Bytes of a calibration record in flash that fails its CRC (R334, R449): free. -/
opaque flashByte : Nat → BitVec 8

/-- The flash fails while the test record is written at an instant (R445): free. -/
opaque flashFails : Nat → Bool

/-- The CTLE setting (4 bits) and first DFE tap (8 bits) that a receiver's own adaptation has reached (R271, R278), by lane and figure
of merit: the spec gives the registers and not how a receiver chooses the settings, free. -/
opaque receiverEq : Nat → Nat → BitVec 12

/-- SHA-384 digest of the Haldine service key, fixed in the boot ROM (R441); the spec does not give it. -/
opaque serviceKeyDigest : BitVec 384

end Sys2Proof.Config
end

