-- ==== Sys2Proof/Machine/RegMap.lean ====
section
/-!
DEFINITION. The BAR0 register map (R20, Table 1-9): the offset of every register by its name in the spec, one function a
register, its argument the channel, engine, port, pair or unit number of the register's stride; the access masks that a plain
register write obeys (R6, Table 0-4); and the reset values of the cells of the register bank that are not 0.
-/
namespace Sys2Proof.Machine

/-! ## Offsets -/

def Reg.CHN_STATE (i : Nat) : Nat := 0x00400000 + 0x1000 * i
def Reg.CHN_STATUS (i : Nat) : Nat := 0x00400004 + 0x1000 * i
def Reg.CHN_AU_COUNT_LO (i : Nat) : Nat := 0x00400008 + 0x1000 * i
def Reg.CHN_AU_COUNT_HI (i : Nat) : Nat := 0x0040000C + 0x1000 * i
def Reg.CHN_REPEAT_COUNT (i : Nat) : Nat := 0x00400010 + 0x1000 * i
def Reg.CHN_CONCEALED_LINES (i : Nat) : Nat := 0x00400014 + 0x1000 * i
def Reg.CHN_LATE_LINES (i : Nat) : Nat := 0x00400018 + 0x1000 * i
def Reg.CHN_DPIPE (i : Nat) : Nat := 0x0040001C + 0x1000 * i
def Reg.CHN_DPIPE_MIN (i : Nat) : Nat := 0x00400020 + 0x1000 * i
def Reg.CHN_TROW (i : Nat) : Nat := 0x00400024 + 0x1000 * i
def Reg.CHN_POOL_RESERVED (i : Nat) : Nat := 0x00400028 + 0x1000 * i
def Reg.CHN_HBM_RESERVED (i : Nat) : Nat := 0x0040002C + 0x1000 * i
def Reg.CHN_ENGINES (i : Nat) : Nat := 0x00400030 + 0x1000 * i
def Reg.CHN_CAP_SLOTS : Nat := 0x00440000
def Reg.CHN_CAP_POOL : Nat := 0x00440004
def Reg.CHN_CAP_HBM : Nat := 0x00440008
def Reg.ENC_LEVEL : Nat := 0x0044000C
def Reg.ENG_STATUS (i : Nat) : Nat := 0x00440100 + 0x40 * i
def Reg.ENG_JOBS (i : Nat) : Nat := 0x00440104 + 0x40 * i
def Reg.ENG_SUBSTITUTIONS (i : Nat) : Nat := 0x00440108 + 0x40 * i
def Reg.ENG_RESIDUE_FAULTS (i : Nat) : Nat := 0x0044010C + 0x40 * i
def Reg.ENG_POISON_READS (i : Nat) : Nat := 0x00440110 + 0x40 * i
def Reg.ENG_OVERRUNS (i : Nat) : Nat := 0x00440114 + 0x40 * i
def Reg.ENG_TIER1_ROWS (i : Nat) : Nat := 0x00440118 + 0x40 * i
def Reg.ENG_TIER2_ROWS (i : Nat) : Nat := 0x0044011C + 0x40 * i
def Reg.ENG_PEAK_LOAD (i : Nat) : Nat := 0x00440120 + 0x40 * i
def Reg.ENG_LOCAL_RESETS (i : Nat) : Nat := 0x00440124 + 0x40 * i
def Reg.RC_CONFIG (i : Nat) : Nat := 0x00400100 + 0x1000 * i
def Reg.RC_RATE (i : Nat) : Nat := 0x00400104 + 0x1000 * i
def Reg.RC_AVG_RATE (i : Nat) : Nat := 0x00400108 + 0x1000 * i
def Reg.RC_DCPB (i : Nat) : Nat := 0x0040010C + 0x1000 * i
def Reg.RC_CPB_SIZE (i : Nat) : Nat := 0x00400110 + 0x1000 * i
def Reg.RC_STATUS (i : Nat) : Nat := 0x00400114 + 0x1000 * i
def Reg.RC_PIC_TARGET (i : Nat) : Nat := 0x00400118 + 0x1000 * i
def Reg.RC_PIC_BUDGET (i : Nat) : Nat := 0x0040011C + 0x1000 * i
def Reg.RC_HEADROOM_MIN (i : Nat) : Nat := 0x00400120 + 0x1000 * i
def Reg.RC_LAST_AU_BITS (i : Nat) : Nat := 0x00400124 + 0x1000 * i
def Reg.RC_REEF_PICTURES (i : Nat) : Nat := 0x00400128 + 0x1000 * i
def Reg.RC_BAREPOLE_PICTURES (i : Nat) : Nat := 0x0040012C + 0x1000 * i
def Reg.RC_BAREPOLE_ROWS (i : Nat) : Nat := 0x00400130 + 0x1000 * i
def Reg.RC_GUARD_CTUS (i : Nat) : Nat := 0x00400134 + 0x1000 * i
def Reg.RC_FILLER_BYTES (i : Nat) : Nat := 0x00400138 + 0x1000 * i
def Reg.RC_HRD_ALARMS (i : Nat) : Nat := 0x0040013C + 0x1000 * i
def Reg.REF_CONFIG (i : Nat) : Nat := 0x00400180 + 0x1000 * i
def Reg.REF_DPB (i : Nat) : Nat := 0x00400184 + 0x1000 * i
def Reg.REF_STATUS (i : Nat) : Nat := 0x00400188 + 0x1000 * i
/-- REF_LTR_PICs of channel `c`. -/
def Reg.REF_LTR_PIC (c s : Nat) : Nat := 0x0040018C + 0x1000 * c + 4 * s
def Reg.REF_IDR_COUNT (i : Nat) : Nat := 0x0040019C + 0x1000 * i
def Reg.REF_SWEEPS_DONE (i : Nat) : Nat := 0x004001A0 + 0x1000 * i
def Reg.REF_SWEEPS_FAILED (i : Nat) : Nat := 0x004001A4 + 0x1000 * i
def Reg.REF_ANCHORS (i : Nat) : Nat := 0x004001A8 + 0x1000 * i
def Reg.REF_MARKS_CANCELLED (i : Nat) : Nat := 0x004001AC + 0x1000 * i
def Reg.ROI_ACTIVE (i : Nat) : Nat := 0x004001B0 + 0x1000 * i
def Reg.PRF_STATUS (i : Nat) : Nat := 0x00400200 + 0x1000 * i
def Reg.PRF_DUS (i : Nat) : Nat := 0x00400204 + 0x1000 * i
def Reg.PRF_FAILS (i : Nat) : Nat := 0x00400208 + 0x1000 * i
def Reg.PRF_LATE (i : Nat) : Nat := 0x0040020C + 0x1000 * i
def Reg.PRF_FILTER_MISMATCH (i : Nat) : Nat := 0x00400210 + 0x1000 * i
def Reg.PRF_SIDE_FAULTS (i : Nat) : Nat := 0x00400214 + 0x1000 * i
def Reg.PRF_DEVICE : Nat := 0x00440800
def Reg.EXT_STATE (i : Nat) : Nat := 0x00441000 + 0x40 * i
def Reg.EXT_PICTURES (i : Nat) : Nat := 0x00441004 + 0x40 * i
def Reg.EXT_CONCEALED (i : Nat) : Nat := 0x00441008 + 0x40 * i
def Reg.EXT_MISSING_REFS (i : Nat) : Nat := 0x0044100C + 0x40 * i
def Reg.EXT_LOST_SLICES (i : Nat) : Nat := 0x00441010 + 0x40 * i
def Reg.EXT_ERRORS (i : Nat) : Nat := 0x00441014 + 0x40 * i
def Reg.EXT_MARGIN_MIN (i : Nat) : Nat := 0x00441018 + 0x40 * i
def Reg.LYR_FENCE_SIGNAL : Nat := 0x00500000
def Reg.LYR_FENCE_RESET : Nat := 0x00500004
def Reg.LYR_FENCE_STATE (i : Nat) : Nat := 0x00500010 + 0x4 * i
def Reg.LYR_CUR_POS (i : Nat) : Nat := 0x00501000 + 0x40 * i
def Reg.LYR_CUR_TIME_NS (i : Nat) : Nat := 0x00501004 + 0x40 * i
def Reg.LYR_CUR_TIME_S (i : Nat) : Nat := 0x00501008 + 0x40 * i
def Reg.LYR_CUR_QUEUE (i : Nat) : Nat := 0x0050100C + 0x40 * i
def Reg.LYR_STATUS (i : Nat) : Nat := 0x00501010 + 0x40 * i
def Reg.LYR_FLIP_RESULT (i : Nat) : Nat := 0x00501014 + 0x40 * i
def Reg.LYR_FLIPS (i : Nat) : Nat := 0x00501018 + 0x40 * i
def Reg.LYR_FLIP_DEFERS (i : Nat) : Nat := 0x0050101C + 0x40 * i
def Reg.LYR_FLIP_CANCELS (i : Nat) : Nat := 0x00501020 + 0x40 * i
def Reg.LYR_CUR_REJECTS (i : Nat) : Nat := 0x00501024 + 0x40 * i
def Reg.LYR_PROT_CRC_FAILS (i : Nat) : Nat := 0x00501028 + 0x40 * i
def Reg.LYR_STF_ERRORS (i : Nat) : Nat := 0x0050102C + 0x40 * i
def Reg.LYR_TM_GAIN (i : Nat) : Nat := 0x00501030 + 0x40 * i
def Reg.LYR_TM_MEAN (i : Nat) : Nat := 0x00501034 + 0x40 * i
def Reg.AUD_DIR_STATE (i : Nat) : Nat := 0x00600000 + 0x80 * i
def Reg.AUD_SLOT_MASK_NEXT (i : Nat) : Nat := 0x00600004 + 0x80 * i
def Reg.AUD_SLOT_MASK_ACTIVE (i : Nat) : Nat := 0x00600008 + 0x80 * i
def Reg.AUD_SLOT_COMMIT (i : Nat) : Nat := 0x0060000C + 0x80 * i
def Reg.AUD_FIFO_LEVEL (i : Nat) : Nat := 0x00600010 + 0x80 * i
def Reg.AUD_UNDERRUNS (i : Nat) : Nat := 0x00600014 + 0x80 * i
def Reg.AUD_OVERRUNS (i : Nat) : Nat := 0x00600018 + 0x80 * i
def Reg.AUD_SLIP_FRAMES (i : Nat) : Nat := 0x0060001C + 0x80 * i
def Reg.AUD_LOST_FRAMES (i : Nat) : Nat := 0x00600020 + 0x80 * i
def Reg.AUD_LOCK_LOSSES (i : Nat) : Nat := 0x00600024 + 0x80 * i
def Reg.AUD_CLOCK_STATUS : Nat := 0x00601000
def Reg.AUD_GROUP_SLIPS (i : Nat) : Nat := 0x00601100 + 0x4 * i
def Reg.AUD_NS_LEVEL (i : Nat) : Nat := 0x00602000 + 0x20 * i
def Reg.AUD_NS_MISSING (i : Nat) : Nat := 0x00602004 + 0x20 * i
def Reg.AUD_NS_UNDERRUNS (i : Nat) : Nat := 0x00602008 + 0x20 * i
def Reg.AUD_NS_OVERRUNS (i : Nat) : Nat := 0x0060200C + 0x20 * i
def Reg.AUD_NS_SLIP_FRAMES (i : Nat) : Nat := 0x00602010 + 0x20 * i
def Reg.AUD_NS_LOST_FRAMES (i : Nat) : Nat := 0x00602014 + 0x20 * i
def Reg.NET_PORT_STATUS (i : Nat) : Nat := 0x00300000 + 0x100 * i
def Reg.NET_RX_FRAMES (i : Nat) : Nat := 0x00300004 + 0x100 * i
def Reg.NET_RX_FCS_ERRORS (i : Nat) : Nat := 0x00300008 + 0x100 * i
def Reg.NET_UNMATCHED (i : Nat) : Nat := 0x0030000C + 0x100 * i
def Reg.NET_MALFORMED (i : Nat) : Nat := 0x00300010 + 0x100 * i
def Reg.NET_FIXED_DROPS (i : Nat) : Nat := 0x00300014 + 0x100 * i
def Reg.NET_FLOW_STATUS : Nat := 0x00302000
def Reg.NET_FLOW_REFUSALS : Nat := 0x00302004
def Reg.NET_MERGE_STATUS (i : Nat) : Nat := 0x00304000 + 0x10 * i
def Reg.NET_MERGE_SKEW (i : Nat) : Nat := 0x00304004 + 0x10 * i
def Reg.NET_MERGE_STALE (i : Nat) : Nat := 0x00304008 + 0x10 * i
def Reg.NET_MERGE_MISSING (i : Nat) : Nat := 0x0030400C + 0x10 * i
def Reg.NET_TX_STATUS (i : Nat) : Nat := 0x00306000 + 0x100 * i
def Reg.NET_TX_FRAMES (i : Nat) : Nat := 0x00306004 + 0x100 * i
def Reg.NET_TX_DROPS (i : Nat) : Nat := 0x00306008 + 0x100 * i
def Reg.NET_TX_LINK_DROPS (i : Nat) : Nat := 0x0030600C + 0x100 * i
def Reg.NET_GATE_STATUS (i : Nat) : Nat := 0x00308000 + 0x100 * i
def Reg.NET_GATE_OPER_BASE_S (i : Nat) : Nat := 0x00308004 + 0x100 * i
def Reg.NET_GATE_OPER_BASE_NS (i : Nat) : Nat := 0x00308008 + 0x100 * i
def Reg.NET_GATE_CYCLE (i : Nat) : Nat := 0x0030800C + 0x100 * i
def Reg.EGR_STATUS (i : Nat) : Nat := 0x0030A000 + 0x40 * i
def Reg.EGR_PACKETS (i : Nat) : Nat := 0x0030A004 + 0x40 * i
def Reg.EGR_CATCHUPS (i : Nat) : Nat := 0x0030A008 + 0x40 * i
def Reg.EGR_ANC_DROPS (i : Nat) : Nat := 0x0030A00C + 0x40 * i
def Reg.EGR_LATE_MAX (i : Nat) : Nat := 0x0030A010 + 0x40 * i
def Reg.TIME_NOW_NS : Nat := 0x00200000
def Reg.TIME_NOW_S_LO : Nat := 0x00200004
def Reg.TIME_NOW_S_HI : Nat := 0x00200008
def Reg.TIME_STATUS : Nat := 0x00200010
def Reg.TIME_SERVO_KP : Nat := 0x00200014
def Reg.TIME_SERVO_KI : Nat := 0x00200018
def Reg.TIME_SLEW : Nat := 0x0020001C
def Reg.TIME_STEP_THRESH : Nat := 0x00200020
def Reg.TIME_FREQ : Nat := 0x00200024
def Reg.TIME_OFFSET_LAST : Nat := 0x00200028
def Reg.TIME_STEP_PEND_LO : Nat := 0x0020002C
def Reg.TIME_STEP_PEND_HI : Nat := 0x00200030
def Reg.TIME_STEPS : Nat := 0x00200034
def Reg.TIME_REFUSALS : Nat := 0x00200038
def Reg.TIME_GM_CHANGES : Nat := 0x0020003C
def Reg.TIME_FAILOVERS : Nat := 0x00200040
def Reg.TIME_PPS_IN_COUNT : Nat := 0x00200044
def Reg.TIME_GM_ID_LO : Nat := 0x00200048
def Reg.TIME_GM_ID_HI : Nat := 0x0020004C
def Reg.TIME_UTC_OFFSET : Nat := 0x00200050
def Reg.TIME_PPS_IN_NS : Nat := 0x00200054
def Reg.TIME_PPS_IN_S : Nat := 0x00200058
def Reg.GRP_STATUS : Nat := 0x00700000
def Reg.GRP_LEG_A : Nat := 0x00700004
def Reg.GRP_LEG_B : Nat := 0x00700008
def Reg.GRP_TAKEOVERS : Nat := 0x00700020
def Reg.GRP_HANDOVERS : Nat := 0x00700024
def Reg.GRP_HANDOVER_FAILS : Nat := 0x00700028
def Reg.GRP_OVERLAPS : Nat := 0x0070002C
def Reg.GRP_VOTES_LOST : Nat := 0x00700030
def Reg.GRP_RESYNCS : Nat := 0x00700034
def Reg.GRP_LATE_RECORDS : Nat := 0x00700038
def Reg.GRP_DUP_RECORDS : Nat := 0x0070003C
def Reg.GRP_REPAIR_REQUESTS : Nat := 0x00700040
def Reg.GRP_REPAIR_FILLED : Nat := 0x00700044
def Reg.GRP_INCOMPLETE_ROWS : Nat := 0x00700048
def Reg.GRP_HOLD_EXPIRED : Nat := 0x0070004C
def Reg.GRP_LINK_FAILS : Nat := 0x00700050
def Reg.GRP_WATCH_FOREIGN : Nat := 0x00700054
def Reg.GRP_CHN_STATUS (i : Nat) : Nat := 0x00701000 + 0x20 * i
def Reg.GRP_CHN_WATCH_SEQ (i : Nat) : Nat := 0x00701004 + 0x20 * i
def Reg.GRP_CHN_MISMATCHES (i : Nat) : Nat := 0x00701008 + 0x20 * i
def Reg.GRP_CHN_VOTED_PIC (i : Nat) : Nat := 0x0070100C + 0x20 * i
def Reg.LANE_STATUS (i : Nat) : Nat := 0x00800000 + 0x100 * i
def Reg.LANE_FOM (i : Nat) : Nat := 0x00800004 + 0x100 * i
def Reg.LANE_EQ (i : Nat) : Nat := 0x00800008 + 0x100 * i
def Reg.LANE_CODE_ERRORS (i : Nat) : Nat := 0x0080000C + 0x100 * i
def Reg.LANE_PRBS_ERRORS (i : Nat) : Nat := 0x00800010 + 0x100 * i
def Reg.LANE_LOCK_LOSSES (i : Nat) : Nat := 0x00800014 + 0x100 * i
def Reg.LANE_FOM_LOW (i : Nat) : Nat := 0x00800018 + 0x100 * i
def Reg.LINK_STATUS (i : Nat) : Nat := 0x00804000 + 0x40 * i
def Reg.LINK_RETRAINS (i : Nat) : Nat := 0x00804004 + 0x40 * i
def Reg.LINK_ELASTIC_SLIPS (i : Nat) : Nat := 0x00804008 + 0x40 * i
def Reg.LINK_TRAIN_FAILS (i : Nat) : Nat := 0x0080400C + 0x40 * i
def Reg.ETH_FEC_CORRECTED (i : Nat) : Nat := 0x00806000 + 0x40 * i
def Reg.ETH_FEC_UNCORRECTED (i : Nat) : Nat := 0x00806004 + 0x40 * i
def Reg.CHAIN_STATUS : Nat := 0x00900000
def Reg.CHAIN_MAP : Nat := 0x00900004
def Reg.CHAIN_BUDGET_OWN : Nat := 0x00900008
def Reg.CHAIN_CRC_ERRORS : Nat := 0x00900010
def Reg.CHAIN_DUPLICATES : Nat := 0x00900014
def Reg.CHAIN_FWD_DROPS : Nat := 0x00900018
def Reg.CHAIN_RX_OVERFLOWS : Nat := 0x0090001C
def Reg.CHAIN_UNNUMBERED : Nat := 0x00900020
def Reg.CHAIN_GRANT_EXPIRED : Nat := 0x00900024
def Reg.CHAIN_UNIT_ID_LO (i : Nat) : Nat := 0x00900100 + 0x8 * i
def Reg.CHAIN_UNIT_ID_HI (i : Nat) : Nat := 0x00900104 + 0x8 * i
def Reg.MBX_H2D (i : Nat) : Nat := 0x00100000 + 0x40 * i
def Reg.MBX_D2H (i : Nat) : Nat := 0x00100004 + 0x40 * i
def Reg.MBX_STATUS (i : Nat) : Nat := 0x00100008 + 0x40 * i
def Reg.MBX_REJECTS (i : Nat) : Nat := 0x0010000C + 0x40 * i
def Reg.MBX_SEQ_HIGH (i : Nat) : Nat := 0x00100010 + 0x40 * i
def Reg.MBX_DEVICE : Nat := 0x00101000
def Reg.MBX_FLR_WITHDRAWN : Nat := 0x00101004
def Reg.MBX_LOST : Nat := 0x00101008
def Reg.PWR_STATUS : Nat := 0x00D00000
def Reg.PWR_BUDGET : Nat := 0x00D00004
def Reg.PWR_MEASURED : Nat := 0x00D00008
def Reg.PWR_AVAIL : Nat := 0x00D0000C
def Reg.PWR_FLOOR_DEMAND : Nat := 0x00D00010
def Reg.PWR_TEMP : Nat := 0x00D00014
def Reg.PWR_HBM_TEMP : Nat := 0x00D00018
def Reg.PWR_VCORE : Nat := 0x00D0001C
def Reg.PWR_DIP_MIN : Nat := 0x00D00020
def Reg.PWR_DIP_DURATION : Nat := 0x00D00024
def Reg.PWR_WARNINGS : Nat := 0x00D00028
def Reg.PWR_CEILING_CUTS : Nat := 0x00D0002C
def Reg.PWR_RESET_CAUSE : Nat := 0x00D00030
def Reg.PWR_SENSOR (i : Nat) : Nat := 0x00D00100 + 0x4 * i
def Reg.PWR_CHN_CEILING (i : Nat) : Nat := 0x00D01000 + 0x4 * i
def Reg.MEM_STATUS : Nat := 0x00A00000
def Reg.MEM_RETAIN : Nat := 0x00A00004
def Reg.MEM_FAULT_ADDR_LO : Nat := 0x00A00008
def Reg.MEM_FAULT_ADDR_HI : Nat := 0x00A0000C
def Reg.MEM_FAULT : Nat := 0x00A00010
def Reg.MEM_HBM_CE : Nat := 0x00A00020
def Reg.MEM_HBM_UE : Nat := 0x00A00024
def Reg.MEM_SRAM_CE : Nat := 0x00A00028
def Reg.MEM_SRAM_UE : Nat := 0x00A0002C
def Reg.MEM_SCRUB_PASSES : Nat := 0x00A00030
def Reg.MEM_PANICS : Nat := 0x00A00034
def Reg.MEM_PANIC_LONG : Nat := 0x00A00038
def Reg.MEM_HAZARD_FWD : Nat := 0x00A0003C
def Reg.MEM_HAZARD_WAIT : Nat := 0x00A00040
def Reg.MEM_FW_VIOLATIONS : Nat := 0x00A00044
def Reg.MEM_DECODE_ERRORS : Nat := 0x00A00048
def Reg.MEM_MASTER_RESETS : Nat := 0x00A0004C
def Reg.MEM_PC_CE (i : Nat) : Nat := 0x00A00100 + 0x4 * i
def Reg.HAL_STATUS : Nat := 0x00E00000
def Reg.HAL_THREADS : Nat := 0x00E00004
def Reg.HAL_DISPATCH_MAX : Nat := 0x00E00008
def Reg.HAL_SPILLS : Nat := 0x00E00010
def Reg.HAL_WDOG_EXPIRIES : Nat := 0x00E00014
def Reg.HAL_CTRL_RESETS : Nat := 0x00E00018
def Reg.HAL_SLOT_REFUSALS : Nat := 0x00E0001C
def Reg.HAL_LAST_RESTART : Nat := 0x00E00020
def Reg.CHK_CONFIG (i : Nat) : Nat := 0x00B00000 + 0x100 * i
def Reg.CHK_PRESET (i : Nat) : Nat := 0x00B00004 + 0x100 * i
def Reg.CHK_POLY_LO (i : Nat) : Nat := 0x00B00008 + 0x100 * i
def Reg.CHK_POLY_HI (i : Nat) : Nat := 0x00B0000C + 0x100 * i
def Reg.CHK_INIT_LO (i : Nat) : Nat := 0x00B00010 + 0x100 * i
def Reg.CHK_INIT_HI (i : Nat) : Nat := 0x00B00014 + 0x100 * i
def Reg.CHK_XOROUT_LO (i : Nat) : Nat := 0x00B00018 + 0x100 * i
def Reg.CHK_XOROUT_HI (i : Nat) : Nat := 0x00B0001C + 0x100 * i
def Reg.CHK_CONTROL (i : Nat) : Nat := 0x00B00020 + 0x100 * i
def Reg.CHK_STATUS (i : Nat) : Nat := 0x00B00024 + 0x100 * i
def Reg.CHK_RESULT_LO (i : Nat) : Nat := 0x00B00028 + 0x100 * i
def Reg.CHK_RESULT_HI (i : Nat) : Nat := 0x00B0002C + 0x100 * i
def Reg.CHK_LENGTH (i : Nat) : Nat := 0x00B00030 + 0x100 * i
def Reg.CHK_FEED8 (i : Nat) : Nat := 0x00B00040 + 0x100 * i
def Reg.CHK_FEED16 (i : Nat) : Nat := 0x00B00044 + 0x100 * i
def Reg.CHK_FEED32 (i : Nat) : Nat := 0x00B00048 + 0x100 * i
def Reg.CHK_FEED32_HI (i : Nat) : Nat := 0x00B0004C + 0x100 * i
def Reg.CHK_SCAN_ADDR_LO (i : Nat) : Nat := 0x00B00040 + 0x100 * i
def Reg.CHK_SCAN_ADDR_HI (i : Nat) : Nat := 0x00B00044 + 0x100 * i
def Reg.CHK_SCAN_LEN (i : Nat) : Nat := 0x00B00048 + 0x100 * i
def Reg.CHK_GRANT : Nat := 0x00B01000
def Reg.PMU_CNT_CFG (i : Nat) : Nat := 0x00C00000 + 0x10 * i
def Reg.PMU_CNT_LO (i : Nat) : Nat := 0x00C00004 + 0x10 * i
def Reg.PMU_CNT_HI (i : Nat) : Nat := 0x00C00008 + 0x10 * i
def Reg.PMU_CNT_PERIOD (i : Nat) : Nat := 0x00C0000C + 0x10 * i
def Reg.PMU_RANGE_BASE_LO (i : Nat) : Nat := 0x00C02000 + 0x10 * i
def Reg.PMU_RANGE_BASE_HI (i : Nat) : Nat := 0x00C02004 + 0x10 * i
def Reg.PMU_RANGE_LIMIT_LO (i : Nat) : Nat := 0x00C02008 + 0x10 * i
def Reg.PMU_RANGE_LIMIT_HI (i : Nat) : Nat := 0x00C0200C + 0x10 * i
def Reg.PMU_OVF (i : Nat) : Nat := 0x00C02100 + 0x4 * i
def Reg.PMU_DUMP_CFG : Nat := 0x00C02200
def Reg.PMU_DUMP_PERIOD : Nat := 0x00C02204
def Reg.PMU_DUMP_BASE : Nat := 0x00C02208
def Reg.PMU_DUMP_SIZE : Nat := 0x00C0220C
def Reg.PMU_DUMP_WR : Nat := 0x00C02210
def Reg.PMU_DUMP_RD : Nat := 0x00C02214
def Reg.PMU_DUMP_RECORDS : Nat := 0x00C02218
def Reg.PMU_DUMP_DROPS : Nat := 0x00C0221C
def Reg.PMU_DUMP_MISSED : Nat := 0x00C02220
def Reg.PMU_SAMPLE_PC : Nat := 0x00C02300
def Reg.PMU_SAMPLE_INFO : Nat := 0x00C02304
def Reg.PMU_HIST_CFG (i : Nat) : Nat := 0x00C04000 + 0x200 * i
def Reg.PMU_HIST_ORIGIN (i : Nat) : Nat := 0x00C04004 + 0x200 * i
def Reg.PMU_HIST_BIN (h i : Nat) : Nat := 0x00C04100 + 0x200 * h + 4 * i
def Reg.DEV_ID : Nat := 0x00000000
def Reg.DEV_REVISION : Nat := 0x00000004
def Reg.DEV_UNIT_ID_LO : Nat := 0x00000008
def Reg.DEV_UNIT_ID_HI : Nat := 0x0000000C
def Reg.DEV_STATUS : Nat := 0x00000010
def Reg.DEV_BAD_ACCESS : Nat := 0x00000014
def Reg.DEV_EVENT_NEWEST : Nat := 0x00000018
def Reg.DEV_LAST_FATAL_CODE : Nat := 0x0000001C
def Reg.DEV_LAST_FATAL_S : Nat := 0x00000020
def Reg.DEV_LAST_FATAL_NS : Nat := 0x00000024
def Reg.DEV_RESET_KIND : Nat := 0x00000028
def Reg.DEV_BOOT_STATUS : Nat := 0x0000002C
def Reg.DEV_TEST_STATUS : Nat := 0x00000030
def Reg.DEV_RECOVERY : Nat := 0x00000034
def Reg.BIST_RUN : Nat := 0x00F00000
def Reg.BIST_PROV_INDEX : Nat := 0x00F00004
def Reg.BIST_PROV_DATA : Nat := 0x00F00008
def Reg.BIST_PROV_COMMIT : Nat := 0x00F0000C
def Reg.DEV_GPIO : Nat := 0x00000038

/-! ## Access masks and reset values -/

/-- The writable part of a register that a plain write reaches: `count` registers from `base` at `stride`, the mask of its RW
fields and that of its W1C bits. -/
structure RegRow where
  base   : Nat
  stride : Nat
  count  : Nat
  rw     : Word
  w1c    : Word
deriving DecidableEq, Repr

/-- Registers with RW or W1C fields, blocks DEV to NET. -/
def regRows0 : List RegRow := [
  /- MSIX address low -/ ⟨0x00010000, 0x10, 64, 0xFFFFFFFC, 0x00000000⟩,
  /- MSIX address high -/ ⟨0x00010004, 0x10, 64, 0xFFFFFFFF, 0x00000000⟩,
  /- MSIX data -/ ⟨0x00010008, 0x10, 64, 0xFFFFFFFF, 0x00000000⟩,
  /- MSIX control -/ ⟨0x0001000C, 0x10, 64, 0x00000001, 0x00000000⟩,
  /- CHN_STATUS -/ ⟨0x00400004, 0x1000, 64, 0x00000000, 0x00001F00⟩,
  /- ENG_STATUS -/ ⟨0x00440100, 0x40, 16, 0x00000000, 0x00000F00⟩,
  /- RC_STATUS -/ ⟨0x00400114, 0x1000, 64, 0x00000000, 0x00001F00⟩,
  /- REF_STATUS -/ ⟨0x00400188, 0x1000, 64, 0x00000000, 0x00003F00⟩,
  /- PRF_STATUS -/ ⟨0x00400200, 0x1000, 64, 0x00000000, 0x00000F00⟩,
  /- EXT_STATE -/ ⟨0x00441000, 0x40, 16, 0x00000000, 0x00070000⟩,
  /- LYR_CUR_POS -/ ⟨0x00501000, 0x40, 64, 0x3FFF3FFF, 0x00000000⟩,
  /- LYR_CUR_TIME_NS -/ ⟨0x00501004, 0x40, 64, 0x3FFFFFFF, 0x00000000⟩,
  /- LYR_CUR_TIME_S -/ ⟨0x00501008, 0x40, 64, 0xFFFFFFFF, 0x00000000⟩,
  /- LYR_STATUS -/ ⟨0x00501010, 0x40, 64, 0x00000000, 0x003F0000⟩,
  /- AUD_DIR_STATE -/ ⟨0x00600000, 0x80, 16, 0x00000000, 0x00000300⟩,
  /- AUD_SLOT_MASK_NEXT -/ ⟨0x00600004, 0x80, 16, 0x0000FFFF, 0x00000000⟩,
  /- AUD_NS_LEVEL -/ ⟨0x00602000, 0x20, 64, 0x00000000, 0x04000000⟩,
  /- NET_PORT_STATUS -/ ⟨0x00300000, 0x100, 16, 0x00000000, 0x00000F00⟩,
  /- NET_FLOW_STATUS -/ ⟨0x00302000, 0x0, 1, 0x00000000, 0x00010000⟩,
  /- NET_MERGE_STATUS -/ ⟨0x00304000, 0x10, 208, 0x00000000, 0x00000300⟩]

/-- Registers with RW or W1C fields, continued. -/
def regRows1 : List RegRow := [
  /- NET_TX_STATUS -/ ⟨0x00306000, 0x100, 16, 0x00000000, 0x00030000⟩,
  /- NET_GATE_STATUS -/ ⟨0x00308000, 0x100, 16, 0x00000000, 0x04000000⟩,
  /- TIME_STATUS -/ ⟨0x00200010, 0x0, 1, 0x00000000, 0x00001F00⟩,
  /- GRP_STATUS -/ ⟨0x00700000, 0x0, 1, 0x00000000, 0x00FF0000⟩,
  /- GRP_CHN_STATUS -/ ⟨0x00701000, 0x20, 64, 0x00000000, 0x00070000⟩,
  /- LANE_STATUS -/ ⟨0x00800000, 0x100, 26, 0x00000000, 0x00000F00⟩,
  /- LINK_STATUS -/ ⟨0x00804000, 0x40, 4, 0x00000000, 0x000F0000⟩,
  /- CHAIN_STATUS -/ ⟨0x00900000, 0x0, 1, 0x00000000, 0x000F0000⟩,
  /- MBX_STATUS -/ ⟨0x00100008, 0x40, 9, 0x00000000, 0x00030000⟩,
  /- PWR_STATUS -/ ⟨0x00D00000, 0x0, 1, 0x00000000, 0x00000F00⟩,
  /- MEM_STATUS -/ ⟨0x00A00000, 0x0, 1, 0x00000000, 0x00003F00⟩,
  /- CHK_CONFIG -/ ⟨0x00B00000, 0x100, 8, 0x00000F7F, 0x00000000⟩,
  /- CHK_POLY_LO -/ ⟨0x00B00008, 0x100, 8, 0xFFFFFFFF, 0x00000000⟩,
  /- CHK_POLY_HI -/ ⟨0x00B0000C, 0x100, 8, 0xFFFFFFFF, 0x00000000⟩,
  /- CHK_INIT_LO -/ ⟨0x00B00010, 0x100, 8, 0xFFFFFFFF, 0x00000000⟩,
  /- CHK_INIT_HI -/ ⟨0x00B00014, 0x100, 8, 0xFFFFFFFF, 0x00000000⟩,
  /- CHK_XOROUT_LO -/ ⟨0x00B00018, 0x100, 8, 0xFFFFFFFF, 0x00000000⟩,
  /- CHK_XOROUT_HI -/ ⟨0x00B0001C, 0x100, 8, 0xFFFFFFFF, 0x00000000⟩,
  /- CHK_STATUS -/ ⟨0x00B00024, 0x100, 8, 0x00000000, 0x00001F00⟩,
  /- CHK_SCAN_ADDR_LO -/ ⟨0x00B00040, 0x100, 8, 0xFFFFFFFF, 0x00000000⟩]

/-- Registers with RW or W1C fields, the rest. -/
def regRows2 : List RegRow := [
  /- CHK_SCAN_ADDR_HI -/ ⟨0x00B00044, 0x100, 8, 0x0000003F, 0x00000000⟩,
  /- CHK_SCAN_LEN -/ ⟨0x00B00048, 0x100, 8, 0xFFFFFFFF, 0x00000000⟩,
  /- PMU_CNT_CFG -/ ⟨0x00C00000, 0x10, 224, 0x07FFFFFF, 0x00000000⟩,
  /- PMU_CNT_PERIOD -/ ⟨0x00C0000C, 0x10, 224, 0xFFFFFFFF, 0x00000000⟩,
  /- PMU_RANGE_BASE_LO -/ ⟨0x00C02000, 0x10, 8, 0xFFFFFFFF, 0x00000000⟩,
  /- PMU_RANGE_BASE_HI -/ ⟨0x00C02004, 0x10, 8, 0x0000003F, 0x00000000⟩,
  /- PMU_RANGE_LIMIT_LO -/ ⟨0x00C02008, 0x10, 8, 0xFFFFFFFF, 0x00000000⟩,
  /- PMU_RANGE_LIMIT_HI -/ ⟨0x00C0200C, 0x10, 8, 0x0000003F, 0x00000000⟩,
  /- PMU_OVF -/ ⟨0x00C02100, 0x4, 8, 0x00000000, 0xFFFFFFFF⟩,
  /- PMU_DUMP_CFG -/ ⟨0x00C02200, 0x0, 1, 0xFFFF03F7, 0x00000000⟩,
  /- PMU_DUMP_PERIOD -/ ⟨0x00C02204, 0x0, 1, 0xFFFFFFFF, 0x00000000⟩,
  /- PMU_DUMP_BASE -/ ⟨0x00C02208, 0x0, 1, 0xFFFFFFFF, 0x00000000⟩,
  /- PMU_DUMP_SIZE -/ ⟨0x00C0220C, 0x0, 1, 0xFFFFFFFF, 0x00000000⟩,
  /- PMU_DUMP_RD -/ ⟨0x00C02214, 0x0, 1, 0xFFFFFFFF, 0x00000000⟩,
  /- PMU_HIST_CFG -/ ⟨0x00C04000, 0x200, 16, 0x0001FFFF, 0x00040000⟩,
  /- PMU_HIST_ORIGIN -/ ⟨0x00C04004, 0x200, 16, 0xFFFFFFFF, 0x00000000⟩,
  /- DEV_STATUS -/ ⟨0x00000010, 0x0, 1, 0x00000000, 0x00000300⟩,
  /- DEV_BOOT_STATUS -/ ⟨0x0000002C, 0x0, 1, 0x00000000, 0x01000000⟩,
  /- BIST_RUN -/ ⟨0x00F00000, 0x0, 1, 0x0000003F, 0x00001000⟩,
  /- BIST_PROV_INDEX -/ ⟨0x00F00004, 0x0, 1, 0xFFFFFFFF, 0x00000000⟩,
  /- BIST_PROV_DATA -/ ⟨0x00F00008, 0x0, 1, 0xFFFFFFFF, 0x00000000⟩]

/-- Every register with RW or W1C fields. -/
def regRows : List RegRow := regRows0 ++ regRows1 ++ regRows2

/-- `off` is one of the registers of a row. -/
def RegRow.has (r : RegRow) (off : Nat) : Bool :=
  decide (r.base ≤ off) &&
    (if r.stride = 0 then off == r.base
     else (off - r.base) % r.stride == 0 && decide ((off - r.base) / r.stride < r.count))

/-- The row of the register at an offset; none where every field is read-only, write-only or reserved. -/
def regRow? (off : Nat) : Option RegRow := regRows.find? (·.has off)

/-- Reset value of a cell of the register bank (R6: reserved fields 0; the registers' own tables for the rest): check units
(R416), the mask bits of the MSI-X table (PCI Express), performance counters' priv field and the fixed histogram sources (R417), and 0 elsewhere. -/
def Reg.reset (off : Nat) : Word :=
  if off < 0x00010000 then 0
  else if off < 0x00010400 then (if off % 0x10 = 0xC then 1 else 0)
  else if off < 0x00B00000 then 0
  else if off < 0x00B01000 then
    if off % 0x100 = 0x00 then 0x00000320
    else if off % 0x100 = 0x08 then 0x1EDC6F41
    else if off % 0x100 = 0x10 then 0xFFFFFFFF
    else if off % 0x100 = 0x18 then 0xFFFFFFFF
    else 0
  else if off < 0x00C00000 then 0
  else if off < 0x00C01000 then (if off % 0x10 = 0 then 0x0000E000 else 0)
  else if off = 0x00C04200 then 1
  else if off = 0x00C04400 then 2
  else if off = 0x00C04600 then 3
  else 0

end Sys2Proof.Machine
end

