-- ==== Sys2Proof/Machine/State.lean ====
section
/-!
DEFINITION. The state of the block as plain data, all of it: structures by chapter of the spec, and `State`. A field's default
is its reset value. Registers that only hold a count, sticky bits or a written field stand in the register bank `State.regs`;
registers that echo other state are computed from it (`Machine/View.lean`).
-/
namespace Sys2Proof.Machine

/-! ## Time (chapter 11) -/

/-- The servo states of R213, in TIME_STATUS's order. -/
inductive ServoState where
  | freeRun | acquiring | locked | holdover | stepHeld
deriving DecidableEq, Repr, Inhabited

/-- What the PTP instance holds for one of its two ports (R207, R208). -/
structure PtpPort where
  /-- The master this port has, by clockIdentity; none when it has lost it. -/
  master     : Option (BitVec 64) := none
  /-- The last Sync taken: sequenceId, ingress timestamp, tag, logSyncInterval; awaiting its Follow_Up when two-step. -/
  sync       : Option SyncMsg := none
  /-- meanPathDelay in 2^-16 ns. -/
  pathDelay  : Int := 0
  /-- The Delay_Req last sent: sequenceId and transmit timestamp t3 in 2^-16 ns. -/
  delayReq   : Option (Nat × Int) := none
  /-- t2 - t1 of the last Sync with its origin, in 2^-16 ns. -/
  syncDelta  : Int := 0
  /-- Source address of the master's Announce messages (R207: where a unicast Delay_Req goes). -/
  addr       : Addr := 0
  /-- The last offset firmware computed on this port: offset, tag, logSyncInterval. -/
  offset     : Option (Int × Nat × Int) := none
deriving DecidableEq, Repr, Inhabited

/-- The timebase, servo and PTP instance. -/
structure TimeState where
  /-- Seconds, 48 bits (R209; reset 0). -/
  sec   : Nat := 0
  /-- Nanoseconds, below 10^9 (R209; reset 0). -/
  ns    : Nat := 0
  /-- Fraction in 2^-40 ns: the visible 16 bits and the hidden 24 (R209; reset 0). -/
  frac  : Nat := 0
  /-- The increment per TIME cycle in 2^-40 ns (R209; reset 2^40). -/
  incr  : Nat := 2 ^ 40
  /-- Elapsed TIME cycles since power-on or chip reset, which no step moves (R422's own count; the model's clock for every
  rule of elapsed time). -/
  up    : Nat := 0
  /-- TIME_NOW_S_LO/HI latch: seconds and visible fraction (R210). -/
  latchS : Nat := 0
  latchF : Nat := 0
  /-- Steps applied since power-on or chip reset: the tag of ingress timestamps (R211). -/
  tag   : Nat := 0
  /-- I and corr in 2^-32 ppb (R211). -/
  i     : Int := 0
  corr  : Int := 0
  /-- kp, ki in 16.16 ppb per ns; slew in ppb; threshold in ns (R211, R212). -/
  kp    : Nat := 0x8000
  ki    : Nat := 0x0800
  slew  : Nat := 10000
  thresh : Nat := 20000
  autoStep : Bool := true
  st    : ServoState := .freeRun
  /-- Consecutive accepted offsets within 1,000 ns, and consecutive ones beyond (R213). -/
  goodRun : Nat := 0
  badRun  : Nat := 0
  /-- The pending step in 2^-16 ns (R212). -/
  pend  : Option Int := none
  /-- The accepted apply time in whole ns since the epoch (R214). -/
  accept : Option Nat := none
  /-- TIME_OFFSET_LAST before saturation, in 2^-16 ns. -/
  offsetLast : Int := 0
  /-- TIME_CONFIG's parameters; none before the first (R207). -/
  cfg   : Option TimeConfigArg := none
  /-- Flow-table indices of the PTP entries of R471. -/
  flows : List Nat := []
  /-- Active PTP port, 0 primary, 1 secondary (R208). -/
  active : Nat := 0
  /-- The failover waits for the next Sync on the other port (R208). -/
  failoverDue : Bool := false
  port0 : PtpPort := {}
  port1 : PtpPort := {}
  /-- The grandmaster's clockIdentity as last seen (R213). -/
  gm    : BitVec 64 := 0
  utc   : Int := 0
  utcValid : Bool := false
  delaySeq : Nat := 0
  /-- PPS (R220). -/
  ppsWidth : Nat := 10000000
  ppsAlways : Bool := false
  ppsOut : Bool := false
deriving DecidableEq, Repr, Inhabited

/-! ## The device: reset, boot, life cycle, self-test (chapters 20 to 22) -/

/-- The command states of R325. -/
inductive DevState where
  | ready | testing | halted
deriving DecidableEq, Repr, Inhabited

/-- Where boot stands (R431, R432, R435, R438). -/
inductive BootPhase where
  /-- Held by RESET_N or the power-on reset (R456). -/
  | held
  /-- Image chosen and tested; firmware not ready yet, or ready. -/
  | booted
  /-- Neither image valid (R435). -/
  | recovery
  /-- Stopped on a failed block (R438). -/
  | failed
deriving DecidableEq, Repr, Inhabited

/-- One image slot of the flash (R433). `sigOk` and `digestOk` are what verification finds in it. -/
structure ImageSlot where
  sigOk      : Bool := false
  digestOk   : Bool := false
  length     : Nat := 0
  version    : Nat := 0
  raiseFloor : Bool := false
deriving DecidableEq, Repr, Inhabited

/-- The fields of a test record (Table 21-5). -/
structure TestRecord where
  seq      : Nat
  hours    : Nat
  tested   : BitVec 64
  failed   : BitVec 64
  complete : Bool
  source   : Nat
  dieRev   : Nat
  fw       : Nat
deriving DecidableEq, Repr, Inhabited

/-- What survives every reset: OTP and boot flash (R424, R433, R437, R440, R443, R447, R448). -/
structure Nvm where
  /-- Fuses burnt, t (R440). -/
  fuses   : Nat := 0
  unitId  : BitVec 64 := 0
  dieRev  : BitVec 16 := 1
  /-- Burnt OTP words by index: 0-11 owner key digest, 12 subsystem IDs, 13 age limit (R443, R451). -/
  words   : Tab Word := []
  /-- Security floor (R434). -/
  floor   : Nat := 0
  imageA  : ImageSlot := {}
  imageB  : ImageSlot := {}
  /-- The preferred image, 0 A, 1 B; none when cleared (R433, R434). -/
  prefer  : Option Nat := none
  trial   : Bool := false
  /-- The test record's 64 bytes, none where no record has been written (R447). -/
  record  : Option (List Byte) := none
  hours   : Nat := 0
  /-- Hour-counter reading when DEV_LAST_FATAL was written after the record (R436): true when it was. -/
  fatalAfterRecord : Bool := false
  /-- Key slots: key and roles (R330, R443). -/
  keys    : Tab (BitVec 256 × Nat) := []
  /-- Calibration record bytes 0-4,095; none when it fails its CRC (R448, R449). -/
  cal     : Option (List Byte) := none
deriving DecidableEq, Repr, Inhabited

/-- A self-test block that runs: index and start instant (elapsed cycles). -/
structure RunningBlock where
  block : Nat
  start : Nat
deriving DecidableEq, Repr, Inhabited

/-- The shutdown self-test (R444, R445). -/
structure SelfTest where
  next    : Nat := 0
  running : List RunningBlock := []
  tested  : BitVec 64 := 0
  failed  : BitVec 64 := 0
  /-- No further block starts: a service request, a time-out or an abort (R446). -/
  stopping : Bool := false
  /-- The blocks granted by the manager and not yet ended (R293). -/
  granted : List Nat := []
  /-- A grant request is outstanding (R293). -/
  asked   : Bool := false
deriving DecidableEq, Repr, Inhabited

/-- The DEV and BIST blocks and the boot sequence. -/
structure DevBlock where
  phase    : BootPhase := .held
  state    : DevState := .ready
  fatal    : Bool := false
  /-- DEV_LAST_FATAL: code, object, seconds, ns (AON). -/
  lastCode : Nat := 0
  lastObj  : Nat := 0
  lastS    : Nat := 0
  lastNs   : Nat := 0
  /-- DEV_RESET_KIND. -/
  resetKind : Nat := 0
  /-- DEV_BOOT_STATUS.booted, image_a_bad, image_b_bad, trial, full_bist, boot_fail, cal_invalid. -/
  booted   : Nat := 0
  aBad     : Bool := false
  bBad     : Bool := false
  trial    : Bool := false
  fullBist : Bool := false
  bootFail : Bool := false
  calInvalid : Bool := false
  /-- DEV_TEST_STATUS.record_valid, record_complete, record_failed at the last boot. -/
  recValid : Bool := false
  recComplete : Bool := false
  recFailed : Bool := false
  test     : SelfTest := {}
  nvm      : Nvm := {}
  /-- An image write to flash in progress: image, surface, its verified header (R335). -/
  fwWrite  : Option (Nat × Nat × ImageInfo × Bool) := none
  /-- fw_ready has read 1 since the latest power-on or chip reset (R286, R434). -/
  readyOnce : Bool := false
  /-- LIFECYCLE_SET's chip reset is due (R441). -/
  lifeReset : Bool := false
  /-- BIST_RUN.pass and fail (R451). -/
  bistPass : Bool := false
  bistFail : Bool := false
  /-- Key words 0-8 of the BIST block (R451). -/
  keyWords : Tab Word := []
  /-- Levels at GPIO3-7 (R462). -/
  gpioIn   : BitVec 8 := 0
  /-- Behaviour level in force (R74; reset 2). -/
  level    : Nat := 2
  /-- The calibration record in force, as read at the last boot; none when the built-in defaults are (R449). -/
  calNow   : Option (List Byte) := none
  /-- PLL lock detectors that report loss of lock (R12, R22). -/
  unlocked : List Domain := []
  /-- The AUDM oscillator has lost lock (R12). -/
  oscUnlocked : Bool := false
  /-- REFCLK_LINK is absent (R275). -/
  linkRefLost : Bool := false
  /-- Power domains off: PD_ENG0-15, PD_PROOF, PD_PIX together (R17, R364, R369). -/
  mediaOff : Bool := false
deriving DecidableEq, Repr, Inhabited

/-! ## The event log (R421 to R423) -/

/-- One entry of the event log (Table 20-2). `first` is the elapsed count at its first occurrence. -/
structure Event where
  seq       : Nat
  code      : Nat
  severity  : Nat
  timeValid : Bool
  duringCtl : Bool
  sec       : Nat
  ns        : Nat
  rep       : Nat
  object    : Nat
  detail    : Nat
  first     : Nat
deriving DecidableEq, Repr, Inhabited

/-! ## Mailboxes, sessions, journal (chapter 15) -/

/-- A journal entry (R312, R313, R419). -/
inductive JEntry where
  | inProgress
  | done (c : Completion)
  /-- An uncorrectable error has hit it (R419). -/
  | damaged
deriving DecidableEq, Repr, Inhabited

/-- An open session on a pair (R308 to R311). -/
structure Session where
  slot  : Nat
  roles : Nat
deriving DecidableEq, Repr, Inhabited

/-- An outstanding nonce (R308). -/
structure Nonce where
  nonce : BitVec 128
  slot  : Nat
  roles : Nat
  pair  : Nat
deriving DecidableEq, Repr, Inhabited

/-- Why a command that has been read has no completion yet. -/
inductive HoldWhy where
  /-- A service request waits for the self-test's block boundary (R325). -/
  | service
  /-- SHUTDOWN waits until every channel has stopped (R333). -/
  | shutdown
  /-- GROUP_JOIN waits until its first hello has been sent (R352). -/
  | hello
deriving DecidableEq, Repr, Inhabited

/-- Where a command came from and where its completion goes. -/
inductive CmdOrigin where
  /-- The host: pair, tag of the H2D word, block index. -/
  | host (pair tag block : Nat)
  /-- A manager's COMMAND message: its source address (R289). -/
  | ratline (src : Nat)
deriving DecidableEq, Repr, Inhabited

/-- A command in execution whose completion is still due. -/
structure HeldCmd where
  why   : HoldWhy
  from_ : CmdOrigin
  slot  : Nat
  roles : Nat
  hdr   : CmdHdr
  body  : Payload
  /-- A function-level reset has come: the command runs to its end and is journaled, no word is posted (Table 15-8). -/
  silent : Bool := false
deriving DecidableEq, Repr, Inhabited

/-- The PCI Express function's configuration space as far as the manual names it (R295, R296, R301): Bus Master Enable, D3hot, and
of AER the Unsupported Request error's status, mask, severity and reporting enable. -/
structure PciState where
  bme      : Bool := false
  d3hot    : Bool := false
  urStatus : Bool := false
  urMask   : Bool := false
  urFatal  : Bool := false
  urReport : Bool := false
deriving DecidableEq, Repr, Inhabited

/-- Mailboxes, sessions and journal. -/
structure MbxState where
  /-- Configuration space of the PCI Express function (R295, R296). -/
  pci     : PciState := {}
  /-- MBX_DEVICE.fw_ready. -/
  fwReady : Bool := false
  /-- Full H2D mailboxes by pair with their word (R301). -/
  h2d   : Tab Word := []
  /-- Full D2H mailboxes by pair with their word (R302). -/
  d2h   : Tab Word := []
  /-- D2H words queued in firmware, by pair, oldest first, at most 256, each with the instant at which the full flag of the word
  it answers was set (R317, R412). -/
  queue : Tab (List (Word × Option Nat)) := []
  /-- When the flag of each full H2D mailbox was set, and of the word last read from it and not answered yet. -/
  h2dAt : Tab Nat := []
  asking : Tab Nat := []
  /-- The pair whose H2D word the firmware has read last (R323). DESIGN CHOICE (log entry 104): from reset the round begins at pair 0. -/
  lastPair : Nat := 8
  /-- Completions as they lie in the windows' blocks, block number 32 * pair + block (R297, R305). -/
  blocks : Tab Completion := []
  /-- Blocks as the host has written them since their last completion (R297). -/
  win    : Tab (List Byte) := []
  /-- Blocks whose status field reads E_SESSION_LOST after a LOST word (R315); the rest of such a block is the host's. -/
  lost  : List Nat := []
  sessions : Tab Session := []
  /-- Outstanding nonces, oldest first (R308). -/
  nonces : List Nonce := []
  /-- Instants of failed proofs within the last 60 s by key slot (R309). -/
  fails : Tab (List Nat) := []
  /-- Locked key slots (R309). -/
  locked : List Nat := []
  /-- Journals by key slot, entries by sequence (R312). -/
  journal : Tab (Tab JEntry) := []
  held  : Option HeldCmd := none
  /-- MSI-X pending bits (R299). -/
  msixPend : BitVec 64 := 0
  /-- Words whose command a control-complex reset has cut off, with their pair, and the pairs whose sessions it has closed: the
  restarted firmware posts their LOST and CLOSED words (R315). -/
  cut   : List (Nat × Word) := []
  closing : List Nat := []
deriving DecidableEq, Repr, Inhabited

/-! ## Control complex (chapter 19) -/

/-- Cores, watchdogs and the halyard scheduler. -/
structure CtlState where
  /-- Cores released and their watchdogs running (HAL_STATUS.cores_running). -/
  cores   : BitVec 8 := 0
  restarting : Bool := false
  /-- The restart waits for the 10 s of R398. -/
  hold    : Bool := false
  unstable : Bool := false
  /-- Elapsed instants of the latest control-complex resets, newest first (R398). -/
  resets  : List Nat := []
  lastMs  : Nat := 0
  lastCore : Nat := 0
  lastCause : Nat := 0
  /-- Thread slots in use with their level (R399). -/
  slots   : Tab Nat := []
  /-- The thread slot each core runs (R400). -/
  running : Tab Nat := []
  /-- Ready lists of the 64 levels, oldest first, at most 32 each (R399). -/
  ready   : Tab (List Nat) := []
  /-- Spill rings of the 64 levels, oldest first (R399). -/
  spill   : Tab (List Nat) := []
deriving DecidableEq, Repr, Inhabited

/-- The latched configuration of a check unit (R404 to R406). -/
structure ChkCfg where
  width  : Nat
  refin  : Bool
  refout : Bool
  mode   : Nat
  poly   : Nat
  init   : Nat
  xorout : Nat
deriving DecidableEq, Repr, Inhabited

/-- CU2, CU3 or CU7 (R403 to R408). -/
structure ChkUnit where
  granted : Bool := false
  latched : Option ChkCfg := none
  /-- Bytes fed since init, in order (register-fed), or scanned. -/
  bytes   : List Byte := []
  busy    : Bool := false
  done    : Bool := false
  pass    : Bool := false
  fail    : Bool := false
  /-- CHK_LENGTH. -/
  length  : Nat := 0
  /-- The value computed (before CHK_RESULT's halves). -/
  value   : Nat := 0
  /-- The scan's start address and length, latched at start. -/
  scanAt  : Nat := 0
  scanLen : Nat := 0
deriving DecidableEq, Repr, Inhabited

/-- One captured sample (R411). -/
structure Sample where
  pc      : Word
  core    : Nat
  thread  : Nat
  counter : Nat
deriving DecidableEq, Repr, Inhabited

/-- Performance counters, sample FIFO and dumps (R409 to R414). Histogram bins stand in the register bank. -/
structure PmuState where
  /-- Counter values, 48 bits (R409). -/
  cnt     : Tab Nat := []
  /-- Sample FIFO, oldest first, at most 64 (R411). -/
  fifo    : List Sample := []
  /-- A sample has been dropped since the last record read (R411). -/
  lost    : Bool := false
  dumpSeq : Nat := 0
  /-- A trigger was missed or dropped since the previous record (R413). -/
  dumpGap : Bool := false
  /-- The configuration was written: pointers and seq start again at the next trigger (R414). -/
  dumpReset : Bool := false
deriving DecidableEq, Repr, Inhabited

/-! ## Power and heat (chapter 17) -/

/-- A supply warning in force (R366, R367). -/
structure Warning where
  src   : Nat
  sec   : Nat
  ns    : Nat
deriving DecidableEq, Repr, Inhabited

/-- Sensors, budget and supply monitors. Temperatures are in 0.25 degrees C, powers in 1/16 W. -/
structure PwrState where
  sensors : List (Option Int) := []
  tMax    : Int := 0
  tSensor : Nat := 0
  hbm0    : Int := 0
  hbm1    : Int := 0
  /-- Sums over the rails of the last ten polls, in µW, newest first (R357). -/
  polls   : List Nat := []
  pMeas   : Nat := 0
  pT0     : Nat := 0
  hostBudget : Option Nat := none
  /-- The manager's latest BUDGET, and whether none has arrived for 5 s (R292, R358). -/
  mgrBudget : Option Nat := none
  budgetStale : Bool := false
  /-- A at the last decision and the group minimum (R359, R361). -/
  avail   : Nat := 0
  availGroup : Nat := 0
  warn    : Option Warning := none
  warnPin : Bool := false
  tripped : Bool := false
  moored  : Bool := false
  /-- A rail has had no fresh reading for 10 ms (R357). -/
  railStale : Bool := false
  floorExceeded : Bool := false
  vCore   : Nat := 0
deriving DecidableEq, Repr, Inhabited

/-! ## Memory and fabric (chapter 18) -/

/-- HBM contents, poison and the memory controllers. -/
structure MemState where
  /-- HBM bytes by BAR4 offset, in canonical form (R298, R371, R372). -/
  hbm    : Mem := []
  /-- Poisoned 32-byte HBM blocks by block number (R389). -/
  poison : Tab Unit := []
  /-- Poisoned SRAM words by word number (R389). -/
  sramPoison : Tab Unit := []
  refreshHot : Bool := false
  /-- The rate from the next refresh on is the hot one (R381). -/
  hotDue  : Bool := false
  /-- Consecutive cool readings, and consecutive invalid ones by stack (R381). -/
  coolRun : Nat := 0
  badRun0 : Nat := 0
  badRun1 : Nat := 0
  /-- Consecutive readings at or above 105 degrees C by stack (R381). -/
  hotRun0 : Nat := 0
  hotRun1 : Nat := 0
  panic0  : Bool := false
  panic1  : Bool := false
  /-- Panic has already counted as long (R382). -/
  long0   : Bool := false
  long1   : Bool := false
  /-- Open rows by 64 * bank + pseudo-channel (R387). -/
  openRows : Tab Unit := []
  /-- Corrected errors of the current second by pseudo-channel: window start, count (R389). -/
  ceSec   : Tab (Nat × Nat) := []
  selfRefresh : Bool := false
  retain  : BitVec 8 := 0
  /-- Block the patrol scrub reads next (R390). -/
  scrubAt : Nat := 0
  /-- Requests outstanding at master ports in reset, by port (R379). -/
  retiring : Tab Nat := []
deriving DecidableEq, Repr, Inhabited

/-! ## Channels: life cycle, rows, rate control (chapters 2 to 4) -/

/-- Where the row job of a DU stands (R44 to R48). -/
inductive JobState where
  | none
  /-- Released into its engine's deadline queue (R44). -/
  | ready
  /-- Started: its cap is set (R85); it may be switched away from at a CTU boundary (R46). -/
  | active
  /-- Its encode has ended with a residue verdict (R120). -/
  | ended
  /-- Abandoned at its deadline, or never encoded because its engine has failed (R48). -/
  | abandoned
deriving DecidableEq, Repr, Inhabited

/-- Where the DU of a row stands with the proof decoder (R120 to R123). -/
inductive ProofState where
  | none
  /-- Waits for a pipeline. -/
  | waiting
  /-- On pipeline `p`. -/
  | proving (p : Nat)
  | passed
  | failed
deriving DecidableEq, Repr, Inhabited

/-- One row of a picture from its deadline to its emission. -/
structure Row where
  /-- The row has entered the pixel front end (R31). -/
  entered  : Bool := false
  /-- Lines concealed in it (R37). -/
  concealed : List Nat := []
  job      : JobState := .none
  engine   : Nat := 0
  tier     : Nat := 0
  reef     : Nat := 0
  /-- Planned under the latch of R92. -/
  latched  : Bool := false
  cap      : Nat := 0
  tau      : Nat := 0
  wt       : Nat := 1
  qp       : Int := 0
  /-- CTUs committed and bits committed (R86). -/
  ctus     : Nat := 0
  bits     : Nat := 0
  /-- Guarded CTUs, bit `i` for CTU `i` (R86). -/
  guarded  : Nat := 0
  /-- Coded size x-hat once final (R85). -/
  size     : Nat := 0
  /-- The size the active's record reports for it while the channel resyncs (R258). -/
  told     : Option Nat := none
  /-- CTUs counted in n_intra (R87), by column. -/
  intra    : List Nat := []
  /-- Columns of the sweep coded intra so far (R111). -/
  swept    : List Nat := []
  /-- The CTUs as coded, by column (R56 to R58, R62, R67, R116), and the columns coded bare-pole (R69). -/
  code     : Tab CtuSyntax := []
  bareCols : List Nat := []
  /-- The reconstruction before the trailing filter, and the one it has finished (R62, R68). -/
  lines    : List SampleLine := []
  fin      : List SampleLine := []
  /-- Its engine was marked failed when the row was dispatched: it is never encoded and counts at β (R48, R93). -/
  unencoded : Bool := false
  /-- A poisoned read, and a residue mismatch, have been counted for the DU (R75). -/
  poisonRead : Bool := false
  residueBad : Bool := false
  /-- A residue mismatch, a poisoned read, an overrun or a failing verdict has marked the DU for substitution (R66). -/
  marked   : Bool := false
  substituted : Bool := false
  proof    : ProofState := .none
  /-- The DU has entered the transmit buffer (R32), with its size as sent. -/
  sent     : Bool := false
  txBits   : Nat := 0
  /-- Finished by the trailing filter of the encoder, and of the proof decoder (R62, R123). -/
  final    : Bool := false
  proofFinal : Bool := false
  /-- d_row and d_fin of the encoder (R120). -/
  dRow     : Word := 0
  dFin     : Word := 0
  /-- The proof decoder's d_fin (R123). -/
  pFin     : Word := 0
  /-- QP of each quantisation group coded so far, by (column + 1024 × line of groups in the row) (R116). -/
  qps      : Tab Int := []
  /-- The engine's rate of damage: CTU columns of the row damaged in the encoder's and in the proof decoder's copy (R70,
  R122). -/
  damage   : List Nat := []
  proofDamage : List Nat := []
  /-- The row's source as the engine codes it: at coded depth and chroma format (R60, R61). -/
  coded    : List (List Nat × List Nat × List Nat) := []
  /-- The loss map recorded at t_fz and the agreed one (R189, R234). -/
  lossMap  : Option (List Nat) := none
  agreed   : Option (List Nat) := none
deriving DecidableEq, Repr, Inhabited

/-- How a picture is coded (R38, R50, R108 to R113). -/
inductive PicKind where
  | idr | inter
  /-- The first picture of a gradual sweep (a GDR or recovery-point picture). -/
  | recovery
deriving DecidableEq, Repr, Inhabited

/-- A picture of a channel from its boundary until it leaves the decoded picture buffer. -/
structure Pic where
  kind     : PicKind := .inter
  /-- Picture index (R219). -/
  num      : Nat := 0
  /-- A repeat picture of R38; a refresh on one keeps it (R113). -/
  isRepeat : Bool := false
  /-- The first AU after a start, or after an accepted time step (R35, R216). -/
  first    : Bool := false
  discontinuity : Bool := false
  /-- Tier ceiling (R49, R360). -/
  ceiling  : Nat := 0
  rows     : Tab Row := []
  /-- Short-term and long-term references, in list order (R101), and which of them are long-term. -/
  refs     : List Nat := []
  lts      : List Nat := []
  /-- Picture order count (R102). -/
  poc      : Nat := 0
  /-- Sweep position j and the number of refresh pictures, when in a sweep (R110). -/
  sweepPos : Option (Nat × Nat) := none
  /-- Clean area, as the pictures of the sweep that the picture belongs to see it, or whole: columns 0 to clean - 1 (R111). -/
  clean    : Nat := 0
  /-- It belongs to a rejoin refresh (R114). -/
  rejoin   : Bool := false
  /-- AUs since the last buffering period (R80). -/
  removal  : Nat := 0
  tPic     : Int := 0
  bPic     : Int := 0
  /-- DU 0 has been planned, so T_pic and B_pic stand (R87). -/
  planned  : Bool := false
  latched  : Bool := false
  reefed   : Bool := false
  /-- CTUs per row counted in n_intra (R87): the columns refreshed or damaged, by row. -/
  auBits   : Nat := 0
  /-- Rows of the picture in which some line was not concealed, and whether row 0 had input by its deadline (R38). -/
  input    : Bool := false
  row0     : Bool := false
  lost     : Bool := false
  /-- Gain of R154 for this picture. -/
  gain     : Nat := 4096
  /-- The composed rows in the source ring, by line (R132). -/
  source   : Tab PxLine := []
  /-- Rows composed from poisoned words (R132). -/
  poisonRows : List Nat := []
  /-- A new ALF set travels in DU 0 (R63), from statistics of these rows of the picture before. -/
  alf      : Bool := false
  alfRows  : List Nat := []
  /-- The running configuration and the protected layer it is coded and composed with (R10, R97, R148). -/
  cfg      : RunCfg := default
  prot     : Option Protected := none
  /-- Faults seen, for the picture record (R418). -/
  faults   : Nat := 0
  /-- The picture digest over released DUs, encoder side (chapter 12). -/
  digest   : BitVec 64 := 0
deriving DecidableEq, Repr, Inhabited

/-! ## Engines, proof decoder, external streams, surfaces, fences -/

/-- A piece of work on a proof pipeline (R121). -/
inductive PipeWork where
  | du (c pic row : Nat)
  | ext (d : Nat)
deriving DecidableEq, Repr, Inhabited

/-- The encode array and the proof decoder's pipelines. -/
structure EngState where
  /-- Engines marked failed (R48). -/
  failed  : List Nat := []
  /-- Instants of the local resets within the last second, by engine (R48). -/
  resets  : Tab (List Nat) := []
  /-- The job whose CTU is in progress on each engine: channel, picture, row (R46). -/
  current : Tab (Nat × Nat × Nat) := []
  /-- Work held by each pipeline; an unlisted one is idle (R121). -/
  pipes   : Tab PipeWork := []
  pipeFailed : List Nat := []
  pipeResets : Tab (List Nat) := []
  /-- Substitutions of the current second by channel: window start, count (Table 20-3, 0x0005). -/
  substSec : Tab (Nat × Nat) := []
deriving DecidableEq, Repr, Inhabited

/-- A decoded picture an external stream still holds (R128). -/
structure ExtPic where
  poc       : Int
  concealed : Bool
  /-- It has been output. -/
  shown     : Bool
  /-- Its samples, as decoded and concealed (R127). -/
  frame     : ExtFrame := {}
deriving DecidableEq, Repr, Inhabited

/-- A gradual refresh of an external stream (R128): its first AU and that picture's POC, the POC of its recovery point, and
whether a lost slice or a missing reference has spoilt it. -/
structure ExtRefresh where
  first    : Nat
  firstPoc : Int
  recovery : Int
  spoilt   : Bool
deriving DecidableEq, Repr, Inhabited

/-- An external stream (R125 to R128). -/
structure ExtStream where
  arg       : ExtStreamArg
  shares    : Nat
  decoding  : Bool := false
  concealing : Bool := false
  unsupported : Bool := false
  held      : List ExtPic := []
  /-- Substituted references already counted (R128). -/
  missed    : List ExtRef := []
  /-- AUs decoded, the AU of the first substitution of the marking in force, and the gradual refreshes that may end it (R128). -/
  count     : Nat := 0
  firstSub  : Option Nat := none
  refresh   : List ExtRefresh := []
  /-- The AU in decoding, by its timestamp, and for each missing reference of it the POC of the substitute, none for mid-grey (R128). -/
  inWork    : Option Nat := none
  subs      : List (ExtRef × Option Int) := []
  /-- The RTP timestamp of the AU received last (R237). -/
  lastTs    : Option Nat := none
  /-- The picture output last (R127). -/
  lastOut   : Option ExtFrame := none
  /-- The AUs that are frozen and not yet decoded, by RTP timestamp, oldest first, and whether decoding may begin (R237). -/
  frozen    : List (Nat × Bool) := []
  /-- Gap lists by 4 * timestamp + rank, this unit's own included; none when a list overflowed (R237). -/
  gaps      : Tab (Option (List GapRange)) := []
  /-- The AUs in reception, oldest first: extended sequence number of the first packet accepted of each, and timestamp (R237). -/
  heads     : List (Nat × Nat) := []
  /-- Timestamps of the last sixteen AUs that have left; gap records for them come too late (R229). -/
  past      : List Nat := []
deriving DecidableEq, Repr, Inhabited

/-- A surface or buffer (R135, R346). -/
structure Surface where
  owner  : Nat
  kind   : Nat
  width  : Nat
  height : Nat
  /-- Size allocated, and the size before it was rounded up (R346). -/
  bytes  : Nat
  size   : Nat
  addr   : Nat
deriving DecidableEq, Repr, Inhabited

/-- Surfaces by handle, fences and the protected-layer cache. -/
structure SurfState where
  surfs   : Tab Surface := []
  nextHandle : Nat := 1
  /-- Fences that are set, with their signal instants in clock ticks (R143). -/
  fences  : Tab Nat := []
  /-- HBM buffers: address -> size in bytes and owner, a channel's number or 64 + the handle of a surface (R374). -/
  heap    : Tab (Nat × Nat) := []
deriving DecidableEq, Repr, Inhabited

/-! ## Audio (chapter 8) -/

/-- What follows a fade: the silence of an underrun, the discarding of an overrun, or a stop (R159, R160, R166). -/
inductive FadeEnd where
  | underrun | overrun | stop
deriving DecidableEq, Repr, Inhabited

/-- Where a FIFO's reader stands (R159 to R162, R166). -/
inductive SlipPhase where
  | normal
  /-- Fading, the next frame being frame `i` of 96. -/
  | fade (i : Nat) (then_ : FadeEnd)
  /-- Silent after an underrun's fade, inserting frames. -/
  | silent
  /-- An overrun's fade is over: frames are discarded at this boundary. -/
  | drop
  /-- Ramping, the next frame being frame `i` of 96; whether after an overrun. -/
  | ramp (i : Nat) (afterOverrun : Bool)
  /-- Silent from a start until the level reaches target. -/
  | start
  /-- Silent after a stop. -/
  | mute
deriving DecidableEq, Repr, Inhabited

/-- One FIFO (R156 to R160). A TDM FIFO holds frames oldest first; a stream FIFO holds them by media time. -/
structure AudFifo where
  target : Nat := 192
  frames : List (List Int) := []
  /-- Stream FIFO: frames received by media time, the read pointer once a sample has come, and the newest media time (R157). -/
  byTime : Tab (List Int) := []
  rd     : Option Nat := none
  newest : Nat := 0
  phase  : SlipPhase := .start
deriving DecidableEq, Repr, Inhabited

/-- A slip in progress, until its ramps begin (R159 to R161): members as 256 * kind + number. -/
structure Slip where
  trigger : Nat
  members : List Nat
  overrun : Bool
deriving DecidableEq, Repr, Inhabited

/-- Where a direction stands (R166); fading, silence and ramps of AUD_DIR_STATE come from its FIFO. -/
inductive DirState where
  | stopped | starting | running | stopping
deriving DecidableEq, Repr, Inhabited

/-- One direction of a TDM port (R163 to R167). -/
structure AudDir where
  fmt     : AudioPortArg := { port := 0, dir := 0, mode := 0, slots := 8, fsWidth := 0, fsDelay := 1, fsPolarity := 0, edge := 0, target := 192 }
  st      : DirState := .stopped
  locked  : Bool := false
  /-- Frames since the start or the lock, by the direction's own clock (R166). -/
  frame   : Nat := 0
  /-- A stop has arrived during the start's zero frames (R166). -/
  stopDue : Bool := false
  mask    : BitVec 16 := 0
  fading  : BitVec 16 := 0
  /-- Frame of each fading slot and of each ramping slot (R167). -/
  fadePos : Tab Nat := []
  rampPos : Tab Nat := []
  /-- Slots to start with a ramp after their drop (R167). -/
  readd   : BitVec 16 := 0
  fifo    : AudFifo := {}
  /-- The frame last sent on the pins (transmit), and the level of frame sync that a stopped master drives; its bit clock is low (R164,
  R166). -/
  pins    : List Word := []
  fsPin   : Bool := false
deriving DecidableEq, Repr, Inhabited

/-- A network audio stream (R157, R349). -/
structure AudStream where
  arg  : AudioStreamArg
  fifo : AudFifo := {}
  /-- Frames received by media time, each with its packet's extended sequence number, for the channels that carry the stream as audio
  (R170, R236). -/
  recent : Tab (Nat × List Int) := []
  /-- Media time of the newest sample in 1/256 frame (R168). -/
  newestFrac : Nat := 0
deriving DecidableEq, Repr, Inhabited

/-- The audio block. -/
structure AudState where
  /-- Directions by 2 * port + direction. -/
  dirs    : Tab AudDir := []
  streams : Tab AudStream := []
  /-- Routes of TDM transmit sinks: 16 * port + slot -> source kind, a, b (R350). -/
  routes  : Tab (Nat × Nat × Nat) := []
  /-- Routes that wait for their direction's next frame boundary (R350). -/
  newRoutes : Tab (Nat × Nat × Nat) := []
  /-- Alignment groups: members as 256 * kind + number (R161, R351). -/
  groups  : Tab (List Nat) := []
  /-- Samples of TDM receive slots by 16 * port + slot and media frame, for the channels that carry them as audio (R171). -/
  tdmRecent : Tab (Tab Int) := []
  newGroups : Tab (List Nat) := []
  /-- Slips in progress. -/
  slips   : List Slip := []
  /-- Sinks whose old source fades out, and those whose new one ramps in, with the next frame (R350). -/
  routeFade : Tab Nat := []
  routeRamp : Tab Nat := []
  /-- AUDIO_CLOCK: pilot selection (0xFE default rule, 0xFF none), gains (R168, R349). -/
  pilotSel : Nat := 0xFE
  kp      : Nat := 0x20000
  ki      : Nat := 0x0CCD
  /-- Integrator and steer in 2^-24 ppm (R168). -/
  integ   : Int := 0
  steer   : Int := 0
  atLimit : Bool := false
  holdover : Bool := false
  /-- Updates since the loop resumed after a holdover, while its slew is limited (R169). -/
  resume  : Bool := false
deriving DecidableEq, Repr, Inhabited

/-! ## Network ingest and egress (chapters 9 and 10) -/

/-- One interface (R174 to R178, R199, R203). -/
structure Iface where
  enabled : Bool := false
  linkUp  : Bool := false
  mac     : Option (BitVec 48) := none
  ipv4a   : BitVec 32 := 0
  ipv4b   : BitVec 32 := 0
  ipv6a   : Addr := 0
  ipv6b   : Addr := 0
  /-- The fixed bucket of R178 in 2^-20 packets, and its last fill instant in ticks. -/
  fixed   : Nat := 64 * 2 ^ 20
  fixedAt : Nat := 0
deriving DecidableEq, Repr, Inhabited

/-- A resident flow entry (Table 9-1) with its bucket in 1/1024 byte and the instant it was last filled (R184). -/
structure Flow where
  arg    : FlowArg
  bucket : Nat
  at_    : Nat
  pkts   : Word := 0
  drops  : Word := 0
  dups   : Word := 0
deriving DecidableEq, Repr, Inhabited

/-- A merge of one target (R186, R187, R190). Instants are in clock ticks. -/
structure Merge where
  /-- Accepted sequence numbers within the window, with the ingress instant and the entry (32,768 for stay repair) of their
  accepted copy. -/
  got     : Tab (Nat × Nat) := []
  /-- Ingress instant of the packet last accepted. -/
  newest  : Nat := 0
  /-- Highest accepted sequence number, extended without bound. -/
  newestSeq : Option Nat := none
  /-- The highest number that has left the window: copies of it and of those below are stale. -/
  floor   : Option Nat := none
  /-- Missing sequence numbers, with the ingress instant of the first accepted later packet. -/
  missing : Tab Nat := []
  /-- Numbers declared missing already (R190). -/
  declared : List Nat := []
  /-- Group staging: the accepted packets of the last 4 ms by sequence number (R235). -/
  stage   : Tab RtpPacket := []
  upA     : Bool := false
  upB     : Bool := false
deriving DecidableEq, Repr, Inhabited

/-- A packet that firmware takes from the fixed rules or from a management entry (R178, R183, R191). -/
inductive CtlPacket where
  /-- An ARP request or a neighbour solicitation for an address. -/
  | resolve (a : Addr)
  /-- An IGMP or MLD query: a group, or 0 for a general query. -/
  | query (group : Addr)
  /-- An ICMP echo request, in a frame of this length. -/
  | echo (frame : Nat)
  /-- Any other; firmware takes it without an answer. -/
  | other
deriving DecidableEq, Repr, Inhabited

/-- Ports, interfaces, flow table and merges. -/
structure NetState where
  /-- Ports in breakout mode (R174). -/
  breakout : List Nat := []
  ifaces  : Tab Iface := []
  flows   : Tab Flow := []
  merges  : Tab Merge := []
  /-- Group memberships reported: (interface, group, source) (R191). -/
  members : List (Nat × Addr × Addr) := []
  /-- Packets passed to firmware and not yet taken by it, with their interface: control packets, and PTP datagrams with their ingress
  timestamp (R178, R183). -/
  toFw    : List (Nat × CtlPacket) := []
  toPtp   : List (Nat × Nat × List Byte) := []
deriving DecidableEq, Repr, Inhabited

/-- A transport-stream packet (R196): PID, continuity counter, whether a PES packet or section starts in it, its PCR and
discontinuity_indicator, PTS and data_alignment_indicator of the video PES that starts in it, and its payload bytes. -/
structure TsPkt where
  pid   : Nat
  cc    : Nat := 0
  start : Bool := false
  pcr   : Option Nat := none
  disc  : Bool := false
  pts   : Option Nat := none
  align : Bool := false
  bytes : Nat := 0
deriving DecidableEq, Repr, Inhabited

/-- How a packet carries NAL-unit data (R195): a whole NAL unit, or the first, a middle or the last fragment of one. -/
inductive NalPart where
  | single | first | middle | last
deriving DecidableEq, Repr, Inhabited

/-- A packet of a channel, from the packetiser to the wire (R195 to R198). -/
structure Packet where
  chan   : Nat
  seq    : Nat
  pic    : Nat
  row    : Nat
  /-- RTP timestamp, marker bit, bytes of NAL-unit data or 1,316, frame length with FCS. -/
  ts     : Nat
  marker : Bool
  bytes  : Nat
  frame  : Nat
  /-- Model instant in clock ticks (R198). -/
  ej     : Nat
  /-- The NAL unit of its DU that it carries, and how; or the seven transport-stream packets. -/
  nal    : Nat := 0
  part   : NalPart := .single
  slots  : List TsPkt := []
  /-- Re-sent after a takeover (R202). -/
  resent : Bool := false
deriving DecidableEq, Repr, Inhabited

/-- Header fields of a packet on an interface (Table 10-1, R254): source MAC, VID (0 untagged), addresses, UDP ports, DSCP, hop limit,
RTP payload type and SSRC. -/
structure PktHeader where
  mac     : BitVec 48
  vid     : Nat
  src     : Addr
  dst     : Addr
  srcPort : Nat
  dstPort : Nat
  dscp    : Nat
  hops    : Nat
  pt      : Nat
  ssrc    : Nat
deriving DecidableEq, Repr, Inhabited

/-- A packet waiting on one interface: eligible once its model instant has come (R198, R199). -/
structure TxPacket where
  pkt      : Packet
  queue    : Nat
  eligible : Bool := false
deriving DecidableEq, Repr, Inhabited

/-- A gate list (R203, R204). Times in ns. -/
structure GateList where
  base    : Nat
  cycle   : Nat
  entries : List (BitVec 16 × Nat)
  start   : Option Nat := none
deriving DecidableEq, Repr, Inhabited

/-- A group record of a membership report (R191): the group; whether it excludes (an empty list) or includes its sources; or, with
`leave`, the sources no longer wanted, none for the wildcard. -/
structure GroupRec where
  group   : Addr
  exclude : Bool
  leave   : Bool
  sources : List Addr
deriving DecidableEq, Repr, Inhabited

/-- A frame that firmware sends (R178, R191, R199, R207, R254). -/
inductive CtlReply where
  | resolved (a : Addr)
  /-- An IGMPv3 or MLDv2 report of one group. -/
  | membership (record : GroupRec)
  /-- An echo reply, in a frame of the request's length. -/
  | echo (frame : Nat)
  /-- A gratuitous ARP or an unsolicited neighbour advertisement (R254). -/
  | announceAddr (a : Addr)
  /-- A Delay_Req of PTP port `port` with its sequenceId, destination and VID (R207). -/
  | delayReq (port seqId : Nat) (dst : Addr) (vid : Nat)
deriving DecidableEq, Repr, Inhabited

/-- A frame of queue 0 or 3 waiting on an interface, with its length. -/
structure CtlFrame where
  queue : Nat
  frame : Nat
  what  : CtlReply
deriving DecidableEq, Repr, Inhabited

/-- Egress of one interface. -/
structure TxIface where
  /-- Packets waiting, oldest first. -/
  queued  : List TxPacket := []
  /-- Frames of queues 0 and 3, oldest first (R199). -/
  ctl     : List CtlFrame := []
  /-- Weights and largest frames by queue where set (R199, R203). -/
  weight  : Tab Nat := []
  maxFrame : Tab Nat := []
  /-- Deficit of each weighted queue and the queue served next (R199). -/
  deficit : Tab Int := []
  next    : Nat := 4
  /-- Bytes held by queue 3 and each weighted queue (R199). -/
  held    : Tab Nat := []
  /-- Credit of each channel's shaper in bits times 2^-20, and its last update (R201). -/
  credit  : Tab (Int × Nat) := []
  /-- Channels catching up (R202). -/
  catchup : List Nat := []
  oper    : Option GateList := none
  pend    : Option GateList := none
  /-- The pending list has been taken by the hardware. -/
  taken   : Bool := false
  /-- The gate mask and entry in force. -/
  openMask : BitVec 16 := 0xFFFF
  entry   : Nat := 0
deriving DecidableEq, Repr, Inhabited

/-- Video of a DU on its way into a transport stream (R196): the instant from which the model delivers it in ticks times the bit rate, its
bytes, those of the PES header before it, how many of both have gone, whether it begins or ends its PES packet, the picture, the PTS, and
whether it begins a timestamp discontinuity. -/
structure TsDu where
  start  : Nat
  bytes  : Nat
  head   : Nat
  gone   : Nat := 0
  ends   : Bool
  pic    : Nat
  pts    : Nat
  disc   : Bool
deriving DecidableEq, Repr, Inhabited

/-- A PES packet of audio or ancillary data waiting for slots (R170, R196): PID, PTS, bytes in all and left. -/
structure TsPes where
  pid   : Nat
  pts   : Nat
  bytes : Nat
  left  : Nat
deriving DecidableEq, Repr, Inhabited

/-- Egress of one channel (R194 to R197). -/
structure TxChan where
  nextSeq : Nat := 0
  /-- The model's delivery instant of the previous DU's last bit, in ticks times the bit rate (R78, R198). -/
  delivered : Nat := 0
  packets : Nat := 0
  /-- Interfaces still to send or discard each packet, by sequence number (EGR_PACKETS, R206). -/
  pendingIfs : Tab Nat := []
  /-- Transport stream: slot origin once the first DU has entered, next slot number, continuity counters by PID, the next 10 ms
  multiple that carries a PCR, and twice the next 100 ms multiple that carries PSI, plus 1 once its PAT is out (R196). -/
  tsOrigin : Option Nat := none
  tsSlot  : Nat := 0
  tsCc    : Tab Nat := []
  tsPcr   : Nat := 0
  tsPsi   : Nat := 0
  /-- The TS packets of the datagram being built, and the start of its first slot. -/
  tsBuf   : List TsPkt := []
  tsFirst : Nat := 0
  /-- Video waiting for slots, by DU. -/
  tsVideo : List TsDu := []
  /-- PES packets of audio and of ancillary data waiting for slots. -/
  tsAudio : List TsPes := []
  tsAnc   : List TsPes := []
  /-- The picture from which the stream goes on after a takeover, and the PIDs whose next packet carries the discontinuity flag (R252). -/
  tsDisc  : Option Nat := none
  tsFirsts : List Nat := []
  /-- Until a picture on the new clock begins, the step in 2^-16 ns that slots add to their instants for the stream time (R215). -/
  tsShift : Int := 0
  /-- At a picture, the sequence number the channel goes on with (R252). -/
  rebase  : Option (Nat × Nat) := none
  /-- Ancillary data collected by picture index, by sequence number (R196). -/
  anc     : Tab (Tab (List Byte)) := []
deriving DecidableEq, Repr, Inhabited

/-! ## Shroud groups (chapter 12) -/

/-- The roles of Table 12-2. -/
inductive Role where
  | none | active | standby | joining | unverified | detached
deriving DecidableEq, Repr, Inhabited

/-- Where a resyncing channel stands (GRP_CHN_STATUS.phase, R256). -/
inductive ResyncPhase where
  | none | copy | refresh | confirm
deriving DecidableEq, Repr, Inhabited

/-- A peer as this unit knows it. -/
structure Peer where
  role    : Nat := 0
  level   : Nat := 0
  macs    : List (BitVec 48) := []
  /-- Channels that it resyncs, as this unit knows (R256). -/
  needs   : List Nat := []
  /-- Records already held: highest and those seen below it (R228). -/
  seen    : List Nat := []
deriving DecidableEq, Repr, Inhabited

/-- What a stay frame carries, as sent. -/
inductive StayMsg where
  | row (r : RowRec)
  | pic (r : PicRec)
  | gap (r : GapRec)
  | repairRequest (merge first count : Nat)
  | repairData (merge seq : Nat) (p : RtpPacket)
  | hello (h : HelloRec)
  | handover (tH target : Nat) (diverged : List Nat)
  | handoverAck (tH : Nat)
  | standDown (reason : Nat)
  | rejoinPlan (plan : List (Nat × Nat × Option Nat))
  | rejoinDone (chans : List Nat)
  | roleChange (role : Nat)
  /-- The records of a block: the state of a channel, or a long-term slot (R256). -/
  | copy (chan block : Nat) (state : Option ChanCopy) (slot : Option SlotCopy)
deriving DecidableEq, Repr, Inhabited

/-- A record of this unit: its rec_seq and content (R228). -/
structure StayRec where
  seq : Nat
  src : Nat
  relayed : Bool
  msg : StayMsg
deriving DecidableEq, Repr, Inhabited

/-- A frame in a replay buffer: link sequence number, replays so far, first sending in elapsed cycles (R227). -/
structure ReplayFrame (α : Type) where
  link    : Nat
  replays : Nat
  first   : Nat
  msg     : α
deriving DecidableEq, Repr, Inhabited

/-- A stay leg, 0 A, 1 B (R225, R227, R228). -/
structure Leg where
  peerRank : Nat := 0
  helloOk  : Bool := false
  /-- Link sequence numbers: of the next frame sent, and of the next frame expected (R227). -/
  nextLink : Nat := 0
  rxLink   : Nat := 0
  /-- Until when repair data fills the leg's 40 Gb/s, in elapsed cycles (R235). -/
  repairTo : Nat := 0
  replay   : List (ReplayFrame StayRec) := []
  /-- Records waiting while the leg is failed, oldest first, at most 512 (R228). -/
  outage   : List StayRec := []
deriving DecidableEq, Repr, Inhabited

/-- A planned handover in progress at the active (R246). -/
structure Handover where
  tH       : Nat
  target   : Nat
  diverged : List Nat
  acked    : Bool := false
  /-- GROUP_LEAVE asked for it: the unit becomes DETACHED at t_h (R260, R353). -/
  leave    : Bool := false
  /-- Cancelled, to be retried after 5 ms (R246). -/
  retry    : Bool := false
deriving DecidableEq, Repr, Inhabited

/-- Group state of a channel. -/
structure GrpChan where
  inSync  : Bool := false
  phase   : ResyncPhase := .none
  matchRun : Nat := 0
  /-- s_c, s_r and RP (R256). -/
  sC      : Option Nat := none
  sR      : Option Nat := none
  rp      : Option Nat := none
  /-- Blocks that have failed once (R256). -/
  failedBlocks : List Nat := []
  /-- The copy of the channel does not fit (R257). -/
  refused : Bool := false
  /-- Generation of the configuration, and the shadow contents held by generation (R241). -/
  gen     : Nat := 0
  /-- The generation in force (R241). -/
  genNow  : Nat := 0
  held    : Tab RunCfg := []
  /-- Row records by ((pic * 2^16 + row) * 4 + rank) (R230). -/
  rows    : Tab RowRec := []
  /-- Picture records by (pic * 4 + rank), each with its sender's role code, this unit's own included (R231). -/
  pics    : Tab (Nat × PicRec) := []
  /-- What this unit decided at t0 of a picture, until its record goes out (R238). -/
  own     : Tab PicRec := []
  /-- The agreed gap set by picture; none when a list overflowed (R236). -/
  agreedGaps : Tab (Option (List GapRange)) := []
  /-- Pictures voted, and the last that matched (R244, R247). -/
  votedPic : Option Nat := none
  lastMatch : Option Nat := none
  /-- Since the last picture that matched: pictures with an event of R72 at this unit, and whether it has been outvoted (R247). -/
  events  : List Nat := []
  lost    : Bool := false
  /-- Highest extended sequence number seen on the watch (R255). -/
  watchSeq : Option Nat := none
  /-- Own digests by picture, with its faults field (R231). -/
  digests : Tab (BitVec 64 × Word × Nat) := []
  /-- This unit emits the channel up to this picture and then stops, or from this picture on (R246, R252, R253). -/
  emitTo  : Option Nat := none
  emitFrom : Option Nat := none
deriving DecidableEq, Repr, Inhabited

/-- The group engine. -/
structure GrpState where
  role    : Role := .none
  rank    : Nat := 0
  size    : Nat := 0
  groupId : Nat := 0
  firstActive : Nat := 0
  service : List (Nat × Addr) := []
  /-- The unit has been formed and not yet STANDBY since (Table 12-10). -/
  forming : Bool := false
  activeRank : Nat := 0
  recSeq  : Nat := 0
  legA    : Leg := {}
  legB    : Leg := {}
  peers   : Tab Peer := []
  chans   : Tab GrpChan := []
  handover : Option Handover := none
  /-- As target of a handover: t_h of the notice acknowledged (R246). -/
  targetOf : Option Nat := none
  /-- The latest handover notice of the active, and whether the target's ack has come (R246, R247). -/
  notice  : Option Handover := none
  /-- Packets held: channel, and the packet (R250). -/
  heldPkts : List Packet := []
  /-- R242 applies until every channel is FREE. -/
  planLag : Bool := false
  /-- A takeover candidate that waits a further Tp_g (R249). -/
  waiting : Bool := false
  /-- The member whose overlap has been counted (R253). -/
  overlapWith : Option Nat := none
  /-- The unit stands down once the AUs in emission have ended (R253). -/
  standDown : Bool := false
deriving DecidableEq, Repr, Inhabited

/-! ## Serial lanes (chapter 13) -/

/-- A lane (R269 to R273, R276). -/
structure Lane where
  los     : Bool := true
  lol     : Bool := true
  symLock : Bool := false
  polInv  : Bool := false
  loopback : Nat := 0
  pattern : Bool := false
  enabled : Bool := false
  fom     : Nat := 0
  fomMin  : Nat := 0
  fomValid : Bool := false
  pre     : Int := 0
  main    : Int := 0
  post    : Int := -8
  ffeDone : Bool := false
  /-- Training has ended on the lane (R271). -/
  trained : Bool := false
  /-- The step requested of the peer last and not yet judged: its direction (0 pre-cursor up, 1 pre-cursor down, 2 and 3 the
  post-cursor) and the FOM before it; the direction to try next; directions tried in a row without improvement (R271). -/
  lastStep : Option (Nat × Nat) := none
  tryDir  : Nat := 0
  misses  : Nat := 0
  /-- Consecutive TRN sets with ready received on it (R269). -/
  readyRun : Nat := 0
  /-- Symbols (by count) of recent code errors (R270). -/
  errAt   : List Nat := []
  /-- Lane number the ordered sets report, for reordering (R270). -/
  number  : Option Nat := none
deriving DecidableEq, Repr, Inhabited

/-- Link states of R272. -/
inductive LinkState where
  | down | training | up | failed
deriving DecidableEq, Repr, Inhabited

/-- A stay or ratline port: 0 stay A, 1 stay B, 2 ratline east, 3 ratline west (R272, R278). -/
structure Port where
  st      : LinkState := .down
  deskewed : Bool := false
  skewMax : Nat := 0
  /-- Instants of slips within the last 1 ms (R266). -/
  slips   : List Nat := []
deriving DecidableEq, Repr, Inhabited

/-- The lanes and ports. -/
structure LaneState where
  lanes : Tab Lane := []
  ports : Tab Port := []
deriving DecidableEq, Repr, Inhabited

/-! ## The ratline (chapter 14) -/

/-- A ratline message as this unit sends it (Table 14-2). -/
inductive RatMsg where
  | enum (next : Nat) (ids : List (BitVec 64)) (fin : Bool)
  | announce (id : BitVec 64)
  | assign (id : BitVec 64) (addr : Nat)
  | command (h : CmdHdr) (slot roles : Nat) (p : Payload)
  | completion (c : Completion)
  | ringCheck
  | ringReport (ports demand floor : Nat)
  | budget (b : List Nat)
  | testRequest (block power : Nat)
  | testGrant (block power : Nat)
  | testDone (block : Nat)
deriving DecidableEq, Repr, Inhabited

/-- A message on its way out of a port. -/
structure RatFrame where
  west    : Bool
  manager : Bool
  src     : Nat
  dst     : Nat
  seq     : Nat
  hops    : Nat
  msg     : RatMsg
deriving DecidableEq, Repr, Inhabited

/-- A forwarded command that awaits its completion (R289, R290). -/
structure Forwarded where
  pair  : Nat
  tag   : Nat
  block : Nat
  hdr   : CmdHdr
  slot  : Nat
  roles : Nat
  body  : Payload
  seq   : Nat
deriving DecidableEq, Repr, Inhabited

/-- A grant outstanding or waiting: address, block, power, instant (R293). -/
structure TestGrant where
  addr  : Nat
  block : Nat
  power : Nat
  at_   : Nat
deriving DecidableEq, Repr, Inhabited

/-- The ratline chain. -/
structure RatState where
  manager : Bool := false
  conflict : Bool := false
  addr    : Nat := 0
  /-- Source sequence counter (R284). -/
  seq     : Nat := 0
  /-- Enumerated units: address -> unit_id (R286). -/
  table   : Tab (BitVec 64) := []
  /-- The ring is known closed by the walk; the walk under way goes west (R286). -/
  ring    : Nat := 0
  westWalk : Bool := false
  /-- Addresses reachable east-bound and west-bound in the current check, and in the last (R288). -/
  east    : List Nat := []
  west    : List Nat := []
  eastNow : List Nat := []
  westNow : List Nat := []
  /-- Per source: highest seq taken and those taken within the window below (R284). -/
  windows : Tab (List Nat) := []
  /-- Replay buffers of east (0) and west (1) (R285). -/
  replay  : Tab (List (ReplayFrame RatFrame)) := []
  /-- Link sequence numbers by port: of the next frame sent, and of the next frame expected (R285). -/
  nextLink : Tab Nat := []
  rxLink  : Tab Nat := []
  /-- Messages that wait for room in a port's replay buffer, oldest first, at most 256 (R291). -/
  outQ    : Tab (List RatFrame) := []
  /-- Receive ring: messages waiting for firmware (R291). -/
  rxRing  : List RatFrame := []
  forwarded : List Forwarded := []
  /-- A worker's journals of forwarded commands by 8 * source + key slot, entries by sequence (R290). -/
  stored  : Tab (Tab JEntry) := []
  limit   : Option Nat := none
  /-- Demand and floor by address from the latest report (R292). -/
  demand  : Tab (Nat × Nat) := []
  budgets : Tab Nat := []
  /-- Own budget in force, from the manager (R292). -/
  grants  : List TestGrant := []
  waiting : List TestGrant := []
  enumDone : Bool := false
deriving DecidableEq, Repr, Inhabited

/-! ## The channel -/

/-- One row slot of a channel's pool reservation (R29, R188): the row it holds, by picture index, and the segments received by line
number within the row. Until when it holds that row follows from the row's deadline. -/
structure PoolRow where
  pic   : Nat
  row   : Nat
  segs  : Tab (List SrdSeg) := []
deriving DecidableEq, Repr, Inhabited

/-- A defined channel (R23, R34): what CHANNEL_DEFINE fixed, what it holds, and everything that runs on it. -/
structure Chan where
  cfg      : ChannelDefineArg
  st       : ChanState := .defined
  /-- The state before ARMED, for a stop of an armed channel (Table 2-8). -/
  prev     : ChanState := .defined
  slots    : Nat
  k        : Nat
  /-- Engines held, ascending (R26). -/
  engines  : List Nat
  /-- P_pool in bytes, 0 for a rendition (R29). -/
  pool     : Nat
  /-- M_hbm in MiB, and the part of it on the stack of the proof store (R30). -/
  hbm      : Nat
  hbmProof : Nat
  /-- D_pipe and D_pipe_min in ns (R31, R32). -/
  dPipe    : Nat
  dPipeMin : Nat
  /-- Digest lag L_d (R243). -/
  digestLag : Nat := 0
  shadow   : RunCfg
  active   : RunCfg
  /-- A commit waits for the next boundary (R10). -/
  commitDue : Bool := false
  /-- An uncorrectable error has hit the firmware-held tables: commits are refused (R419). -/
  tablesBad : Bool := false
  /-- start_time of the last accepted CHANNEL_START in ns since the epoch, 0 when none (R35, R217). -/
  startTime : Nat := 0
  startPic : Nat := 0
  /-- The first picture that is not emitted, once a stop has been accepted (R36). -/
  stopPic  : Option Nat := none
  /-- The picture of the next boundary (R83). The model counts a channel's pictures in decoding order: by their picture index
  (R219) until an accepted time step, after which `base` is the difference of the two (R215). -/
  nextPic  : Nat := 0
  base     : Int := 0
  /-- The picture at which the channel changes clock, once a step has been applied (R215). -/
  stepPic  : Option Nat := none
  /-- Step still subtracted from this channel's rebuilt clock, in 2^-16 ns (R215). -/
  stepHeld : Int := 0
  /-- The latest clock change: its first picture, the base of the pictures before it, and the step in 2^-16 ns; those pictures keep
  their instants on the clock before it (R215). -/
  before   : Option (Nat × Int × Int) := none
  /-- Steps accepted since the channel last coded, in 2^-16 ns: its next first AU becomes the origin of R83. -/
  idleStep : Option Int := none
  inputLost : Bool := false
  /-- The row slots of the pool reservation, by slot (R29, R188). -/
  pool_    : Tab PoolRow := []
  /-- The flow entries that fed the pictures before picture index `feedFrom`, where a commit has changed them (R23). -/
  feedOld  : Nat × Nat := (0xFFFF, 0xFFFF)
  feedFrom : Nat := 0
  /-- AUs whose last DU has entered the transmit buffer (CHN_AU_COUNT, 48 bits). -/
  auCount  : Nat := 0
  /-- Ceilings fixed by picture, and whether from the decider's record (R360, R361). -/
  ceilings : Tab (Nat × Bool) := []
  /-- Sum of the tiers of the rows of the last complete picture, over its number of rows (R359). -/
  tierSum  : Nat := 0
  pics     : Tab Pic := []
  refs     : RefState := {}
  rate     : RateState := {}
  layers   : LayerState := {}
  /-- An ALF set is in force (R63), derived from which picture and which of its rows. -/
  alfFrom  : Option Nat := none
  alfRows  : List Nat := []
  /-- A derivation has ended: the picture whose statistics it used, and the rows that contributed (R63). -/
  alfReady : Option (Nat × List Nat) := none
deriving DecidableEq, Repr, Inhabited

/-! ## What leaves the block -/

/-- What the block has sent or answered, newest first in `State.out`: the model's own record of its outputs. -/
inductive Out where
  /-- A DU as it enters the transmit buffer: its NAL units in order (R32, R53). -/
  | du (c pic row : Nat) (nals : List NalUnit)
  /-- A packet of a channel on an interface (R198), with its headers. -/
  | packet (iface : Nat) (h : PktHeader) (p : Packet)
  | reply (iface : Nat) (r : CtlReply)
  /-- An audio PES packet of a channel's picture: PID, PTS and its samples by frame (R170), and an ancillary one (R196). -/
  | audioPes (c pic pid pts : Nat) (samples : List (List Int))
  | ancPes (c pic pts : Nat) (data : List Byte)
  /-- A stay frame: leg, link sequence number, record (R227). -/
  | stay (leg link : Nat) (r : StayRec)
  /-- An ACK of a stay or ratline port: port, link sequence number (Table 13-2). -/
  | ack (port link : Nat)
  /-- A ratline frame: port, link sequence number, message (R285). -/
  | rat (port link : Nat) (f : RatFrame)
  /-- An ordered set of a stay or ratline port: TRN with its request and status bits, ALN (Table 13-2). -/
  | trn (t : TrnSet)
  | aln (port : Nat)
  /-- An MSI-X message of a vector (R299). -/
  | msix (vector : Nat)
  /-- The word a host read returns, or the bytes of a BAR4 read. -/
  | readData (w : Word)
  | hbmData (bytes : List Byte)
  /-- A read of a command window (R297). -/
  | windowData (bytes : List Byte)
  /-- The access ends as a completer abort (R5, R298). -/
  | abort
  /-- The request is handled as an Unsupported Request (R295, R301), and the error message AER sends for one, fatal or not. -/
  | unsupported
  | pcieError (fatal : Bool)
  /-- A frame on the pins of a TDM transmit direction (R164). -/
  | tdm (port : Nat) (slots : List Word)
  /-- A PMBus or flash access is left to its own row; this marks the start of the firmware of an image (R431). -/
  | boot (image : Nat)
  /-- Sideband: the Ethernet transmitters send idles (R12). -/
  | idles
deriving DecidableEq, Repr, Inhabited

/-! ## The machine -/

/-- The block's state. `out`, `fresh` and `pending` are the model's own fields: what has left the block, the counter that
free values are drawn by, and the queue of commands that wait, first in, first out. -/
structure State where
  /-- BAR0 registers that hold a value of their own (counters, sticky bits, RW fields), by offset, where it differs from
  the reset value of `Reg.reset`. -/
  regs    : Tab Word := []
  time    : TimeState := {}
  dev     : DevBlock := {}
  /-- The event ring, newest first, at most 4,096 (R421), and the next entry's number. -/
  log     : List Event := []
  logSeq  : Nat := 1
  mbx     : MbxState := {}
  ctl     : CtlState := {}
  /-- Check units CU2, CU3, CU7 by number (R403). -/
  chk     : Tab ChkUnit := []
  pmu     : PmuState := {}
  pwr     : PwrState := {}
  mem     : MemState := {}
  chans   : Tab Chan := []
  eng     : EngState := {}
  ext     : Tab ExtStream := []
  surf    : SurfState := {}
  aud     : AudState := {}
  net     : NetState := {}
  tx      : Tab TxIface := []
  txc     : Tab TxChan := []
  grp     : GrpState := {}
  lane    : LaneState := {}
  rat     : RatState := {}
  out     : List Out := []
  fresh   : Nat := 0
  pending : List Instr := []
deriving DecidableEq, Repr, Inhabited

/-- Reasons a step stops with a fault. There is none: every command and event of the spec leaves the block in a state the
spec describes, an access to an absent address included (R5, R377), so no meaning faults. -/
inductive Fault where
deriving DecidableEq, Repr

/-- Reasons a step is refused. -/
inductive Refusal where
  /-- Raised by an arm of `exec` whose row has no meaning yet. Safe: nothing can be proved of a step that does not happen. -/
  | notModelled (mnemonic : String)
deriving DecidableEq, Repr

/-- The machine right after the internal power-on reset, still held (R424, R456): every register at its reset value,
nothing defined, nothing listed in memory, no command waiting. Values the spec does not give are named in the assumption
log. -/
def State.reset : State := {}

end Sys2Proof.Machine
end

