-- ==== Sys2Proof/Machine/Tab.lean ====
section
/-!
DEFINITION. Operations on sparse tables: items by number, in one canonical form (numbers strictly rising), so that equal
contents are equal data. A table of words with a default and a byte memory are kept canonical by the same operations.
-/
namespace Sys2Proof.Machine

variable {α : Type}

/-- The item of number `k`. -/
def tget : Tab α → Nat → Option α
  | [], _ => none
  | (j, a) :: r, k => if j = k then some a else tget r k

/-- `tget` with a default. -/
def tgetD (t : Tab α) (k : Nat) (d : α) : α := (tget t k).getD d

/-- Writes item `k`, keeping the numbers rising. -/
def tset : Tab α → Nat → α → Tab α
  | [], k, a => [(k, a)]
  | (j, b) :: r, k, a =>
    if k < j then (k, a) :: (j, b) :: r
    else if k = j then (k, a) :: r
    else (j, b) :: tset r k a

/-- Removes item `k`. -/
def tdel : Tab α → Nat → Tab α
  | [], _ => []
  | (j, b) :: r, k => if j = k then tdel r k else (j, b) :: tdel r k

/-- Changes item `k` where it exists. -/
def tupd : Tab α → Nat → (α → α) → Tab α
  | [], _, _ => []
  | (j, b) :: r, k, f => if j = k then (j, f b) :: r else (j, b) :: tupd r k f

/-- Changes every item. -/
def tmap (t : Tab α) (f : Nat → α → α) : Tab α := t.map fun e => (e.1, f e.1 e.2)

/-- Keeps the items that meet a condition. -/
def tfilter (t : Tab α) (p : Nat → α → Bool) : Tab α := t.filter fun e => p e.1 e.2

/-- Numbers are strictly rising: the canonical form. -/
def tsorted : Tab α → Bool
  | [] => true
  | [_] => true
  | (j, _) :: (k, b) :: r => decide (j < k) && tsorted ((k, b) :: r)

/-- The numbers listed. -/
def tkeys (t : Tab α) : List Nat := t.map (·.1)

/-- The items listed, by rising number. -/
def tvals (t : Tab α) : List α := t.map (·.2)

/-- Item `k` is listed. -/
def thas (t : Tab α) (k : Nat) : Bool := (tget t k).isSome

/-! ## Byte memory -/

/-- The byte at an address; an unlisted one reads 0. -/
def Mem.byte (m : Mem) (a : Nat) : Byte := (tget m a).getD 0

/-- Writes one byte; writing 0 removes the entry. -/
def Mem.put (m : Mem) (a : Nat) (b : Byte) : Mem := if b = 0 then tdel m a else tset m a b

/-- `n` bytes from an address. -/
def Mem.read (m : Mem) (a n : Nat) : List Byte := (List.range n).map fun i => Mem.byte m (a + i)

/-- Writes bytes from an address upward. -/
def Mem.write : Mem → Nat → List Byte → Mem
  | m, _, [] => m
  | m, a, b :: bs => Mem.write (Mem.put m a b) (a + 1) bs

/-- The canonical form of a memory: addresses strictly rising, no listed byte equal to what an unlisted address reads as. -/
def Memory.wf (m : Mem) : Bool := tsorted m && m.all fun e => e.2 != 0

/-! ## Lists -/

/-- Inserts a number in a rising list without repeats. -/
def insertNat (k : Nat) : List Nat → List Nat
  | [] => [k]
  | j :: r => if k < j then k :: j :: r else if k = j then j :: r else j :: insertNat k r

/-- The sum of a list. -/
def sumNat (l : List Nat) : Nat := l.foldl (· + ·) 0

/-- The sum of a list of integers. -/
def sumInt (l : List Int) : Int := l.foldl (· + ·) 0

/-- The least of a list, or a default. -/
def minNat? : List Nat → Option Nat
  | [] => none
  | a :: r => some (r.foldl min a)

/-- The greatest of a list, 0 when empty. -/
def maxNat (l : List Nat) : Nat := l.foldl max 0

/-- The integers `a` to `a + n - 1`. -/
def rangeFrom (a n : Nat) : List Nat := (List.range n).map (a + ·)

end Sys2Proof.Machine
end

