-- ==== Sys2Proof/Machine/Flags.lean ====
section
/-!
DEFINITION. The register bank: counts, sticky bits and written fields of BAR0 (R5, R6). A cell that holds its reset value is
not listed, so equal banks are equal data. All counts are 32 bits and wrap, as every chapter's register rule says.
-/
namespace Sys2Proof.Machine

/-- The word a cell of the bank holds. -/
def bget (b : Tab Word) (off : Nat) : Word := (tget b off).getD (Reg.reset off)

/-- Writes a cell of the bank. -/
def bset (b : Tab Word) (off : Nat) (v : Word) : Tab Word :=
  if v = Reg.reset off then tdel b off else tset b off v

/-- Canonical form of a bank. -/
def bwf (b : Tab Word) : Bool := tsorted b && b.all fun e => e.2 != Reg.reset e.1

/-- Puts back the reset value of every cell from `lo` up to but not including `hi`. -/
def bclear (b : Tab Word) (lo hi : Nat) : Tab Word := b.filter fun e => !(decide (lo ≤ e.1) && decide (e.1 < hi))

/-- The word in bank cell `off`. -/
def State.rd (s : State) (off : Nat) : Word := bget s.regs off

/-- The state with bank cell `off` holding `v`. -/
def State.wr (s : State) (off : Nat) (v : Word) : State := { s with regs := bset s.regs off v }

/-- Advances a count by `n`, wrapping. -/
def State.bumpBy (s : State) (off n : Nat) : State := s.wr off (s.rd off + BitVec.ofNat 32 n)

/-- Advances a count by 1, wrapping. -/
def State.bump (s : State) (off : Nat) : State := s.bumpBy off 1

/-- Advances a saturating count by 1. -/
def State.bumpSat (s : State) (off : Nat) : State :=
  if s.rd off = 0xFFFFFFFF then s else s.bump off

/-- Sets the bits of a mask (a sticky bit's cause has occurred). -/
def State.sticky (s : State) (off : Nat) (mask : Word) : State := s.wr off (s.rd off ||| mask)

/-- Clears the bits of a mask (W1C, or a field that a rule clears). -/
def State.unstick (s : State) (off : Nat) (mask : Word) : State := s.wr off (s.rd off &&& ~~~mask)

/-- Bits `hi` to `lo` of a word. -/
def wfield (w : Word) (hi lo : Nat) : Nat := (w.toNat >>> lo) % 2 ^ (hi - lo + 1)

/-- A word with bits `hi` to `lo` replaced by the low bits of `v`. -/
def wsetField (w : Word) (hi lo v : Nat) : Word :=
  let m := (2 ^ (hi - lo + 1) - 1) <<< lo
  (w &&& ~~~(BitVec.ofNat 32 m)) ||| BitVec.ofNat 32 ((v % 2 ^ (hi - lo + 1)) <<< lo)

/-- Bit `i` of a word. -/
def wbit (w : Word) (i : Nat) : Bool := w.toNat.testBit i

/-- A word with only bit `i` set. -/
def bit1 (i : Nat) : Word := BitVec.ofNat 32 (2 ^ i)

/-- A word from a Bool at bit `i`. -/
def bitIf (c : Bool) (i : Nat) : Word := if c then bit1 i else 0

/-- A word holding the two's complement of `v` in bits `hi` to `lo`. -/
def wint (v : Int) (hi lo : Nat) : Word :=
  BitVec.ofNat 32 ((v % (2 ^ (hi - lo + 1) : Nat)).toNat <<< lo)

/-- A word holding `v` in bits `hi` to `lo`. -/
def wnat (v hi lo : Nat) : Word := BitVec.ofNat 32 ((v % 2 ^ (hi - lo + 1)) <<< lo)

/-- Stores the greater of `v` and the value in bits `hi` to 0 of an RC register, and sets its valid bit 31 (RC registers that
record a maximum). -/
def State.recordMax (s : State) (off hi v : Nat) : State :=
  let v := min v (2 ^ (hi + 1) - 1)
  let w := s.rd off
  let m := if wbit w 31 then max v (wfield w hi 0) else v
  s.wr off (BitVec.ofNat 32 (m + 2 ^ 31))

/-- Clears every cell from `lo` up to but not including `hi`. -/
def State.clearRegs (s : State) (lo hi : Nat) : State := { s with regs := bclear s.regs lo hi }

/-- The definition that binds a merge target clears its merge registers (R193). -/
def State.clearMerge (s : State) (m : Nat) : State := s.clearRegs (Reg.NET_MERGE_STATUS m) (Reg.NET_MERGE_MISSING m + 4)

/-- Applies an operation when a condition holds. -/
def State.when (s : State) (c : Bool) (f : State → State) : State := if c then f s else s

/-- The last `n` of a list. -/
def takeLast {α : Type} (n : Nat) (l : List α) : List α := l.drop (l.length - n)

end Sys2Proof.Machine
end

