-- ==== Sys2Proof/Machine/Operands.lean ====
section
/-!
DEFINITION. Operand forms: formats and rates (Table 2-2), the exact times of a channel (R31), its sizes and costs (R29, R30,
Table 4-2), time fields of commands (R319), byte strings and CRCs (R404), and the numbering of pictures (R219).
-/
namespace Sys2Proof

/-! ## Rounding -/

/-- Division rounded up. -/
def cdiv (a b : Nat) : Nat := (a + b - 1) / b

/-- `a` rounded up to a multiple of `b`. -/
def roundUp (a b : Nat) : Nat := cdiv a b * b

/-- `v` held between `lo` and `hi`. -/
def clampI (v lo hi : Int) : Int := min (max v lo) hi

/-- Floor of an integer divided by a positive number, as every `floor` and `>>` of the spec. -/
def fdiv (a : Int) (b : Nat) : Int := a / (b : Int)

/-! ## Formats and rates (Table 2-2) -/

/-- Picture period of a rate in clock ticks: 12,960 × 10^9 × den / num. -/
def tpTicks : Nat → Nat
  | 0 => 540540000000
  | 1 => 540000000000
  | 2 => 518400000000
  | 3 => 432432000000
  | 4 => 432000000000
  | 5 => 259200000000
  | 6 => 216216000000
  | 7 => 216000000000
  | 8 => 129600000000
  | 9 => 108108000000
  | _ => 108000000000

/-- Width in luma samples. -/
def FormatArg.width (f : FormatArg) : Nat := if f.size = 0 then 7680 else if f.size = 1 then 3840 else 1920

/-- Active lines per picture, per field when interlaced. -/
def FormatArg.lines (f : FormatArg) : Nat :=
  if f.size = 0 then 4320 else if f.size = 1 then 2160 else if f.interlaced then 540 else 1080

/-- Lines of a frame, in which graphics positions count (R134). -/
def FormatArg.frameLines (f : FormatArg) : Nat := if f.interlaced then 1080 else f.lines

/-- Engine slots of a format and rate; none where Table 2-2 has no such row. -/
def slotsOf (f : FormatArg) (rate : Nat) : Option Nat :=
  if 10 < rate ∨ 2 < f.size ∨ (f.interlaced ∧ f.size ≠ 2) then none
  else if f.interlaced then (if rate = 5 ∨ rate = 6 then some 1 else none)
  else if f.size = 0 then some (if 8 ≤ rate then 32 else if 5 ≤ rate then 16 else 8)
  else if f.size = 1 then some (if 8 ≤ rate then 8 else if 5 ≤ rate then 4 else 2)
  else some (if 8 ≤ rate then 2 else 1)

/-- Output is 4:2:2 (Table 3-3). -/
def DefMain.out422 (m : DefMain) : Bool := m.profile != 0

/-- Coded bit depth (Table 3-3). -/
def DefMain.codedDepth (m : DefMain) : Nat := if m.codec = 0 ∧ m.profile = 2 then 12 else 10

/-- Line bytes in the pool (Table 2-4). -/
def DefMain.lineBytes (m : DefMain) : Nat := if m.inputDepth = 12 then m.format.width * 3 else m.format.width * 5 / 2

/-! ## Geometry and times of a channel -/

/-- CTU rows N. -/
def DefMain.rows (m : DefMain) : Nat := cdiv m.format.lines m.ctuSize

/-- CTUs per row c. -/
def DefMain.ctus (m : DefMain) : Nat := m.format.width / m.ctuSize

/-- Tp in ticks. -/
def DefMain.tp (m : DefMain) : Nat := tpTicks m.rateId

/-- T_line in ticks (R31). -/
def DefMain.tLine (m : DefMain) : Nat := m.tp / m.format.lines

/-- T_row in ticks (R31). -/
def DefMain.tRow (m : DefMain) : Nat := m.ctuSize * m.tLine

/-- Nanoseconds in ticks. -/
def nsTicks (ns : Nat) : Nat := ns * Config.ticksPerNs

/-- Engines worked concurrently (R25). -/
def kOf (slots : Nat) : Nat := max 1 (slots / 8)

/-- D_pipe_min in ns, rounded up (R31). -/
def dPipeMinOf (m : DefMain) (k : Nat) : Nat := cdiv ((1 + k) * m.tRow + nsTicks 150000) Config.ticksPerNs

/-- D_pipe in ns (R32). -/
def dPipeOf (m : DefMain) (k : Nat) : Nat := if m.dPipe = 0 then dPipeMinOf m k + m.tTol else m.dPipe

/-- P_pool in bytes (R29). -/
def poolOf (m : DefMain) : Nat :=
  if m.renditionOf ≠ 0xFF then 0
  else roundUp ((2 + cdiv (nsTicks m.tTol) m.tRow) * m.ctuSize * m.lineBytes) 65536

/-- Row slots of the pool reservation (R29). -/
def rowsHeld (m : DefMain) : Nat := 2 + cdiv (nsTicks m.tTol) m.tRow

/-- DPB size (R100). -/
def DefRefs.nDpb (r : DefRefs) : Nat := 1 + r.stRefs + r.ltSlots

/-- Device cap on the DPB size (Table 5-2). -/
def nCap (f : FormatArg) : Nat := if f.size = 0 then 6 else 8

/-- Bytes of one picture in a store, the p of R30. -/
def picBytes (m : DefMain) : Nat := m.format.width * m.format.lines * (if m.out422 then 8 else 6)

/-- M_hbm in MiB (R30). -/
def hbmOf (m : DefMain) (r : DefRefs) : Nat := cdiv ((2 + 2 * r.nDpb) * picBytes m + 64 * 2 ^ 20) (2 ^ 20)

/-- The proof store's part of M_hbm in MiB (R30). -/
def hbmProofOf (m : DefMain) (r : DefRefs) : Nat := cdiv (r.nDpb * picBytes m) (2 ^ 20)

/-- Digest lag L_d (R243). -/
def digestLagOf (m : DefMain) (dPipe : Nat) : Nat :=
  cdiv (nsTicks dPipe + (m.rows - 1) * m.tRow + nsTicks 20000 - (m.tp + nsTicks m.tTol)) m.tp

/-- t0 of a picture, in ticks since the epoch (fixed delay; R219). -/
def DefMain.t0 (m : DefMain) (n : Nat) : Nat := n * m.tp + nsTicks m.inputOffset

/-- Row deadline t_dl(r) of picture `n` (R31). -/
def DefMain.tDl (m : DefMain) (n r : Nat) : Nat :=
  m.t0 n + min ((r + 1) * m.ctuSize) m.format.lines * m.tLine + nsTicks m.tTol

/-- Lines in a row; the last may be partial. -/
def DefMain.rowLines (m : DefMain) (r : Nat) : Nat := min m.ctuSize (m.format.lines - r * m.ctuSize)

/-- The first picture whose t0 is at or after an instant. -/
def DefMain.picAt (m : DefMain) (t : Nat) : Nat := cdiv (t - nsTicks m.inputOffset) m.tp

/-- The first picture whose t0 is after an instant. -/
def DefMain.picAfter (m : DefMain) (t : Nat) : Nat := m.picAt (t + 1)

/-! ## Rate constants (Table 4-2, R81, R82) -/

/-- Sub-ticks per row s_row. -/
def DefMain.sRow (m : DefMain) : Nat := 135 * m.ctuSize / m.format.lines

/-- B_bp: bare-pole bits per CTU (R82). -/
def DefMain.bBp (m : DefMain) : Nat := if m.codec = 0 then 8 else 10

/-- o_AU: the bound on the non-VCL bits of an AU (R81). -/
def DefMain.oAu (m : DefMain) : Nat := if m.codec = 0 then 2048 else 6144

/-- β_r (R82). -/
def DefMain.beta (m : DefMain) (r : Nat) : Nat := m.ctus * m.bBp + 256 + (if r = 0 then m.oAu else 0)

/-- P_bp (R82). -/
def DefMain.pBp (m : DefMain) : Nat := m.rows * (m.ctus * m.bBp + 256) + m.oAu

/-- Q(n, r): the bare-pole cost of the rows after `r` (R82). -/
def DefMain.qRest (m : DefMain) (r : Nat) : Nat := (m.rows - 1 - r) * (m.ctus * m.bBp + 256)

/-- CTUs per picture. -/
def DefMain.picCtus (m : DefMain) : Nat := m.rows * m.ctus

/-- The rate of R87's targets: R, or avg_rate in capped VBR. -/
def DefRate.target (q : DefRate) : Nat := if q.rcMode = 0 then q.bitRate else q.avgRate

/-- floor(rate × t) with t in ticks. -/
def bitsIn (rate t : Nat) : Nat := rate * t / Config.ticksPerSec

/-- f_max = floor(R × D') with D' = D_cpb − takeover_slack (R77). -/
def DefRate.fMax (q : DefRate) : Nat := bitsIn q.bitRate ((q.dCpb - q.takeoverSlack) * Config.ticks90k)

/-- cum(m) = floor(R × Tp × m / 135) (R83). -/
def cumBits (rate tp m : Nat) : Nat := rate * tp * m / (135 * Config.ticksPerSec)

/-- MaxBR of Level 6.2 High tier in b/s and MaxCPB in bits for a profile (R77): 800,000 × 1,100 × 5/5 b/s for the 10-bit
4:2:0 profiles of HEVC. PRESUMED from the standards' tables, which the spec names and does not restate (log entry 13). -/
def maxBr (_m : DefMain) : Nat := 800000000

/-! ## Time fields (R319) -/

/-- Nanoseconds of a time field are in range, and its reserved bits 0 (R319). -/
def TimeField.ok (f : TimeField) : Bool := decide (f.ns < 1000000000)

/-- The time field is 0: "none" or "at once" (R319). -/
def TimeField.zero (f : TimeField) : Bool := f.ns == 0 && f.sec == 0

/-- Seconds whose low 32 bits are `low`, nearest the seconds `cur` (within 2^31 s; R147, R319). -/
def resolveSec (low cur : Nat) : Nat :=
  let base := cur - cur % 2 ^ 32 + low % 2 ^ 32
  if base > cur + 2 ^ 31 then base - 2 ^ 32 else if base + 2 ^ 31 < cur then base + 2 ^ 32 else base

/-! ## Bytes -/

/-- `n` little-endian bytes of a number (R4). -/
def leBytes (n v : Nat) : List Byte := (List.range n).map fun i => BitVec.ofNat 8 (v >>> (8 * i))

/-- The number that little-endian bytes spell (R4). -/
def leNat : List Byte → Nat
  | [] => 0
  | b :: r => b.toNat + 256 * leNat r

/-- `n` big-endian bytes of a number, for byte strings in network order (R319). -/
def beBytes (n v : Nat) : List Byte := (leBytes n v).reverse

/-- A list of bytes cut or filled with 0 to `n` bytes. -/
def padTo (n : Nat) (l : List Byte) : List Byte := (l ++ List.replicate (n - l.length) 0).take n

/-! ## CRC (R404) -/

/-- The low `w` bits of `v` in reverse order. -/
def reflect : Nat → Nat → Nat
  | 0, _ => 0
  | w + 1, v => v % 2 * 2 ^ w + reflect w (v / 2)

/-- One step of R404 in a CRC register of width `w`: the register moves up by a bit, and the polynomial is added when the bit moved out
differs from the input bit, the lowest of `v`. -/
def crcBit (w poly reg v : Nat) : Nat := Nat.xor (reg * 2 % 2 ^ w) (poly * ((reg / 2 ^ (w - 1) + v) % 2))

/-- The low `n` bits of `v` into a CRC register, most significant first. -/
def crcBits (w poly v : Nat) : Nat → Nat → Nat
  | 0, reg => reg
  | n + 1, reg => crcBits w poly v n (crcBit w poly reg (v / 2 ^ n))

/-- One byte into a CRC register, reflected first when `refin` (R404). -/
def crcByte (w poly : Nat) (refin : Bool) (reg : Nat) (b : Byte) : Nat :=
  crcBits w poly (if refin then reflect 8 b.toNat else b.toNat) 8 reg

/-- A CRC's register after the bytes, from `init`. -/
def crcRun (w poly : Nat) (refin : Bool) (init : Nat) (bytes : List Byte) : Nat :=
  bytes.foldl (crcByte w poly refin) init

/-- The value of a finished CRC (R404). -/
def crcOut (w : Nat) (refout : Bool) (xorout reg : Nat) : Nat :=
  Nat.xor (if refout then reflect w reg else reg) xorout

/-- CRC-32C (Table 19-5). -/
def crc32c (bytes : List Byte) : Word :=
  BitVec.ofNat 32 (crcOut 32 true 0xFFFFFFFF (crcRun 32 0x1EDC6F41 true 0xFFFFFFFF bytes))

/-- CRC-64 (ECMA-182), the AU digest of R231. -/
def crc64 (bytes : List Byte) : Nat := crcOut 64 false 0 (crcRun 64 0x42F0E1EBA9EA3693 false 0 bytes)

end Sys2Proof

namespace Sys2Proof.Machine

/-! ## The local clock -/

/-- Local clock in ticks (R209). -/
def TimeState.now (t : TimeState) : Nat :=
  (t.sec * 1000000000 + t.ns) * Config.ticksPerNs + t.frac * Config.ticksPerNs / 2 ^ 40

/-- Elapsed time in ticks, which no step moves. -/
def TimeState.elapsed (t : TimeState) : Nat := t.up * Config.ticksPerNs

/-- Local clock in whole ns since the epoch. -/
def TimeState.nowNs (t : TimeState) : Nat := t.sec * 1000000000 + t.ns

/-- A time field in whole ns since the epoch, 0 for a zero field. -/
def timeNs (f : TimeField) (t : TimeState) : Nat :=
  if f.zero then 0 else resolveSec f.sec t.sec * 1000000000 + f.ns

/-! ## Instants of a channel's pictures -/

/-- What a picture's number differs from its picture index by: pictures before the latest clock change keep theirs (R215). -/
def Chan.baseOf (ch : Chan) (n : Nat) : Int :=
  match ch.before with
  | some (m, b, _) => if n < m then b else ch.base
  | none => ch.base

/-- An instant of picture `n` as the clock in force reads: for a picture before the latest clock change, the step taken off (R215). -/
def Chan.onClock (ch : Chan) (n t : Nat) : Nat :=
  match ch.before with
  | some (m, _, o) => if n < m then ((t : Int) - fdiv (o * (Config.ticksPerNs : Nat)) 65536).toNat else t
  | none => t

/-- t0 of picture `n` in ticks on the channel's clock (R219). -/
def Chan.t0 (ch : Chan) (n : Nat) : Nat := ch.onClock n (ch.cfg.main.t0 ((n : Int) + ch.baseOf n).toNat)

/-- Row deadline t_dl of row `r` of picture `n` (R31). -/
def Chan.tDl (ch : Chan) (n r : Nat) : Nat := ch.onClock n (ch.cfg.main.tDl ((n : Int) + ch.baseOf n).toNat r)

/-- Encode deadline of row `r` of picture `n` (R44). -/
def Chan.deadline (ch : Chan) (n r : Nat) : Nat := ch.tDl n r + ch.k * ch.cfg.main.tRow

/-- The first picture whose t0 is at or after an instant. -/
def Chan.picAt (ch : Chan) (t : Nat) : Nat := ((ch.cfg.main.picAt t : Int) - ch.base).toNat

/-- The first picture whose t0 is after an instant. -/
def Chan.picAfter (ch : Chan) (t : Nat) : Nat := ch.picAt (t + 1)

/-- The picture with a picture index (R219). -/
def Chan.serial (ch : Chan) (i : Nat) : Nat := ((i : Int) - ch.base).toNat

/-- The picture index of picture `n` (R219). -/
def Chan.index (ch : Chan) (n : Nat) : Nat := ((n : Int) + ch.baseOf n).toNat

/-- The picture index that a picture was formed with; for one no longer held, as the channel counts now. -/
def Chan.wire (ch : Chan) (n : Nat) : Nat :=
  match tget ch.pics n with
  | some p => p.num
  | none => ch.index n

end Sys2Proof.Machine
end

