-- ==== Sys2Proof/Machine/Wire.lean ====
section
/-!
DEFINITION. Byte layouts of what comes and goes under a CRC-32C (R4, R405): command and completion blocks (Tables 15-6 and 16-1 to
16-15), stay records (Tables 12-3 to 12-6) and ratline messages (Tables 14-1 and 14-2).
-/
namespace Sys2Proof

/-! ## Fields -/

/-- `n` little-endian bytes of the two's complement of a number (R4, R319). -/
def leInt (n : Nat) (v : Int) : List Byte := leBytes n (v % (2 ^ (8 * n) : Nat)).toNat

/-- A flag as a number. -/
def flag (b : Bool) : Nat := if b then 1 else 0

/-- The mask of the numbers below `n` in a list. -/
def maskOf (n : Nat) (l : List Nat) : Nat := (List.range n).foldl (fun a i => a + (if l.contains i then 2 ^ i else 0)) 0

/-- Bytes with the CRC-32C over them, little-endian, behind them (R405). -/
def sealed (b : List Byte) : List Byte := b ++ leBytes 4 (crc32c b).toNat

/-- The last four of `n` bytes are the CRC-32C over those before. -/
def crcHolds (n : Nat) (b : List Byte) : Bool := crc32c (b.take (n - 4)) == BitVec.ofNat 32 (leNat ((b.drop (n - 4)).take 4))

/-- The little-endian bytes of numbers, each with its size before it; reserved bytes are a 0 of their size. -/
def fields (l : List (Nat × Nat)) : List Byte := l.flatMap fun e => leBytes e.1 e.2

/-! ## Payloads of commands (chapter 16) -/

/-- A time field (R319). -/
def TimeField.bytes (t : TimeField) : List Byte := fields [(4, t.ns), (4, t.sec)]

/-- Layouts CH and CHT (Table 16-1). -/
def ChArg.bytes (a : ChArg) : List Byte := fields [(1, a.object), (1, a.item), (2, 0)]
def ChtArg.bytes (a : ChtArg) : List Byte := fields [(1, a.object), (1, a.item), (2, 0)] ++ a.time.bytes

/-- A format byte (Table 16-9). -/
def FormatArg.code (f : FormatArg) : Nat := f.size + 4 * flag f.interlaced + 8 * f.fmtRsv

/-- TIME_CONFIG (Table 16-8). -/
def TimeConfigArg.bytes (a : TimeConfigArg) : List Byte :=
  fields [(1, a.domain), (1, a.transport), (1, a.delayMode)] ++ leInt 1 a.logDelayReq
    ++ fields [(1, a.announceTimeout), (1, a.portPrimary), (1, a.portSecondary), (1, 0)] ++ leInt 4 a.asymPrimary ++ leInt 4 a.asymSecondary
    ++ fields [(2, a.vid), (2, 0)]

/-- Bytes 0 to 51 of a flow entry (Table 9-1). -/
def FlowArg.bytes (a : FlowArg) : List Byte :=
  fields [(1, flag a.valid + 2 * a.kind + 16 * a.path + 32 * a.ctlRsv), (1, a.essence), (2, a.vid), (2, a.udpPort), (2, a.ifMask.toNat)]
    ++ beBytes 16 a.dst.toNat ++ beBytes 16 a.src.toNat
    ++ fields [(2, a.target), (1, a.pt), (1, a.tol), (4, a.rate), (4, a.burst)]

/-- CHANNEL_DEFINE (Table 16-9): offsets 1 to 23, 24 to 47, 48 to 63, 64 to 79 and 80 to 175. -/
def DefMain.bytes (m : DefMain) : List Byte :=
  fields [(1, m.format.code), (1, m.rateId), (1, m.inputDepth), (1, m.ctuSize), (1, m.codec), (1, m.profile), (1, m.renditionOf),
    (2, m.flowA), (2, m.flowB), (4, m.inputOffset), (4, m.tTol), (4, m.dPipe)]
def DefRate.bytes (q : DefRate) : List Byte :=
  fields [(1, q.rcMode), (1, q.avgWindow), (2, q.dCpb), (4, q.bitRate), (4, q.avgRate), (4, q.cpbSize), (2, q.takeoverSlack), (1, q.overshoot)]
    ++ leInt 1 q.qpMin ++ leInt 1 q.qpMax ++ leInt 1 q.initQp ++ leBytes 2 0
def DefRefs.bytes (r : DefRefs) : List Byte :=
  fields [(1, r.stRefs), (1, r.ltSlots), (1, r.anchorSlots), (1, r.anchorDelta), (2, r.anchorShare), (1, r.anchorHold), (1, r.refreshMode),
    (2, r.refreshInterval), (1, r.sweepG), (1, r.rejoinG)] ++ leInt 1 r.protectedFloor ++ leBytes 3 0
def DefTone.bytes (t : DefTone) : List Byte :=
  fields [(1, t.inSystem), (1, t.outSystem), (1, t.tmMode), (1, t.adapt), (4, t.adaptTarget), (2, t.adaptSpeed), (2, t.gainMin), (2, t.gainMax),
    (2, 0)]
def DefOut.bytes (o : DefOut) : List Byte :=
  fields [(1, o.encap), (1, o.srcMode), (1, o.outIfA), (1, o.outIfB)] ++ beBytes 16 o.dstA.toNat ++ beBytes 16 o.dstB.toNat
    ++ fields [(2, o.udpDst), (2, o.vidA), (2, o.vidB), (1, o.dscp), (1, o.hopLimit), (4, o.ssrc), (2, o.seqInit), (1, o.pt), (1, o.queue),
      (2, o.maxPayload), (2, 0), (4, o.tsRate), (2, o.pidPmt), (2, o.pidVideo)]
    ++ fields (o.pidAudio.map (2, ·)) ++ fields [(2, o.pidAnc), (1, o.programmes), (1, 0)] ++ fields (o.progChannels.map (1, ·)) ++ leBytes 4 0
def ChannelDefineArg.bytes (a : ChannelDefineArg) : List Byte :=
  leBytes 1 a.channel ++ a.main.bytes ++ a.rate.bytes ++ a.refs.bytes ++ a.tone.bytes ++ a.out.bytes

/-- CHANNEL_SET (Table 16-10). -/
def ChannelSetArg.bytes (a : ChannelSetArg) : List Byte :=
  fields [(1, a.channel), (3, 0), (4, a.select.toNat), (2, a.flowA), (2, a.flowB), (1, a.overshoot)] ++ leInt 1 a.qpMin ++ leInt 1 a.qpMax
    ++ fields [(1, a.anchorDelta), (2, a.anchorShare), (1, a.anchorHold), (1, a.sweepG), (2, a.refreshInterval)] ++ leInt 1 a.protectedFloor
    ++ fields [(1, a.tmMode), (1, a.adapt), (1, 0), (2, a.adaptSpeed), (4, a.adaptTarget), (2, a.gainMin), (2, a.gainMax)]

/-- ROI_SET and EXT_STREAM_DEFINE (R345). -/
def RoiSetArg.bytes (a : RoiSetArg) : List Byte :=
  fields [(1, a.channel), (1, a.region), (1, a.kind)] ++ leInt 1 a.value ++ leInt 2 a.x0 ++ leInt 2 a.y0
    ++ fields [(2, a.width), (2, a.height), (4, 0)]
def ExtStreamArg.bytes (a : ExtStreamArg) : List Byte :=
  fields [(1, a.stream), (1, a.payload), (1, a.codec), (1, a.profile), (1, a.format.code), (1, a.rateId), (1, a.codedDepth), (1, 0),
    (2, a.flowA), (2, a.flowB)]

/-- FLIP_SUBMIT (Table 16-13). -/
def FlipUpdate.bytes (u : FlipUpdate) : List Byte :=
  fields [(1, u.layer), (1, u.enable), (2, 0), (4, u.surface)] ++ leInt 2 u.x0 ++ leInt 2 u.y0 ++ fields [(2, u.ga), (2, 0)]
def FlipSubmitArg.bytes (a : FlipSubmitArg) : List Byte :=
  fields [(1, a.channel), (1, a.id), (1, a.updates.length), (1, a.fences.length), (1, a.cancelAfter), (3, 0)] ++ a.notBefore.bytes
    ++ padTo 8 (fields (a.fences.map (1, ·))) ++ a.updates.flatMap FlipUpdate.bytes

/-- GROUP_FORM and GROUP_JOIN (Table 16-15). -/
def GroupArg.bytes (a : GroupArg) : List Byte :=
  fields [(1, a.groupId), (1, a.size), (1, a.rank), (1, a.firstActive), (1, a.addrs.length), (3, 0)]
    ++ a.addrs.flatMap fun e => fields [(1, e.1), (3, 0)] ++ beBytes 16 e.2.toNat

/-- The payload of a command in bytes (chapter 16); keys, nonces and proofs are numbers in little-endian order (R4), the P-384 key and the
signature most significant byte first (R336). -/
def Payload.bytes : Payload → List Byte
  | .sessionOpen p => fields [(1, p.keySlot), (1, p.roles), (1, p.pair), (1, 0)]
  | .sessionProve p => fields [(16, p.nonce.toNat), (16, p.proof.toNat)]
  | .sessionClose => []
  | .completionFetch p => leBytes 4 p
  | .keyWrite p => fields [(1, p.keySlot), (1, p.roles), (2, 0), (32, p.key.toNat)]
  | .deviceInfo => []
  | .deviceConfigure p => p.bytes
  | .powerBudget p => fields [(2, p), (2, 0)]
  | .shutdown p => p.bytes
  | .calRead p => leBytes 4 p
  | .calWrite p => fields [(4, p.surface), (4, p.crc.toNat)]
  | .firmwareWrite p => fields [(4, p.surface), (1, p.image), (1, p.boot), (2, 0)]
  | .lifecycleSet p => fields [(1, p.target), (3, 0)] ++ beBytes 96 p.key.toNat ++ beBytes 96 p.signature.toNat
  | .timeConfig p => p.bytes
  | .timeServoConfig p => fields [(4, p.kp), (4, p.ki), (4, p.slew), (4, p.thresh), (1, p.autoStep), (3, 0)]
  | .timeAcceptStep p => p.bytes
  | .timePpsConfig p => fields [(4, p.width), (1, p.mode), (3, 0)]
  | .portConfig p => fields [(1, p.port), (1, p.mode), (1, p.enable), (1, 0)]
  | .netAddress p =>
    fields [(1, p.iface), (1, 0)] ++ beBytes 6 p.mac.toNat ++ beBytes 4 p.ipv4a.toNat ++ beBytes 4 p.ipv4b.toNat ++ beBytes 16 p.ipv6a.toNat
      ++ beBytes 16 p.ipv6b.toNat
  | .flowAdd p => p.bytes
  | .flowDelete p => fields [(2, p), (2, 0)]
  | .txQueueConfig p => fields [(1, p.iface), (1, p.queue), (1, p.weight), (1, 0), (2, p.maxFrame), (2, 0)]
  | .gateListSet p => fields [(1, p.iface), (3, 0)] ++ p.base.bytes ++ fields [(4, p.cycle), (2, p.count), (2, 0), (4, p.surface)]
  | .laneConfig p =>
    fields [(1, p.lane), (1, p.loopback), (1, p.pattern), (1, p.enable)] ++ leInt 1 p.pre ++ leInt 1 p.main ++ leInt 1 p.post ++ leBytes 1 0
  | .channelDefine p => p.bytes
  | .channelDelete p => p.bytes
  | .channelStart p => p.bytes
  | .channelStop p => p.bytes
  | .channelSet p => p.bytes
  | .channelCommit p => p.bytes
  | .channelRefresh p => p.bytes
  | .ltrMark p => p.bytes
  | .ltrRelease p => p.bytes
  | .roiSet p => p.bytes
  | .roiClear p => p.bytes
  | .extStreamDefine p => p.bytes
  | .extStreamDelete p => p.bytes
  | .surfaceAlloc p => fields [(1, p.owner), (1, p.kind), (2, 0), (2, p.width), (2, p.height), (4, p.bytes), (4, 0)]
  | .surfaceFree p => leBytes 4 p
  | .flipSubmit p => p.bytes
  | .protectedLoad p =>
    fields [(1, p.channel), (1, 0)] ++ leInt 2 p.x0 ++ leInt 2 p.y0 ++ fields [(2, 0), (4, p.surface), (4, p.crc.toNat)] ++ p.time.bytes
  | .protectedRemove p => p.bytes
  | .tonemapLoad p => fields [(1, p.channel), (3, 0), (4, p.surface)]
  | .audioPortConfig p =>
    fields [(1, p.port), (1, p.dir), (1, p.mode), (1, p.slots), (1, p.fsWidth), (1, p.fsDelay), (1, p.fsPolarity), (1, p.edge), (2, p.target),
      (2, 0)]
  | .audioPortStart p => p.bytes
  | .audioPortStop p => p.bytes
  | .audioStreamConfig p =>
    fields [(1, p.stream), (1, p.format), (1, p.channels), (1, p.ptime), (2, p.flowA), (2, p.flowB), (2, p.target), (2, 0)]
  | .audioStreamDelete p => p.bytes
  | .audioRoute p =>
    fields [(1, p.entries.length), (3, 0)] ++ p.entries.flatMap fun e =>
      fields [(1, e.sinkKind), (1, e.sinkA), (1, e.sinkB), (1, e.srcKind), (1, e.srcA), (1, e.srcB), (2, 0)]
  | .audioAlignGroup p => fields [(1, p.group), (1, p.members.length), (2, 0)] ++ fields (p.members.map fun e => (2, 2 ^ 14 * e.1 + e.2))
  | .audioClock p => fields [(1, p.pilot), (3, 0), (4, p.kp), (4, p.ki)]
  | .groupForm p => p.bytes
  | .groupJoin p => p.bytes
  | .groupLeave => []
  | .groupHandover p => fields [(1, p), (3, 0)]
  | .chainEnumerate => []
  | .chainBudget p => leBytes 4 p
  | .eventLogFetch p => fields [(4, p.fromSeq), (1, p.max), (3, 0)]
  | .cuAssign p => p.bytes

/-- The opcode of a command (Table 16-3). -/
def opcodeOf : Payload → Nat
  | .sessionOpen _ => 0x0101
  | .sessionProve _ => 0x0102
  | .sessionClose => 0x0103
  | .completionFetch _ => 0x0104
  | .keyWrite _ => 0x0105
  | .deviceInfo => 0x0201
  | .deviceConfigure _ => 0x0202
  | .powerBudget _ => 0x0203
  | .shutdown _ => 0x0204
  | .calRead _ => 0x0205
  | .calWrite _ => 0x0206
  | .firmwareWrite _ => 0x0207
  | .lifecycleSet _ => 0x0208
  | .timeConfig _ => 0x0301
  | .timeServoConfig _ => 0x0302
  | .timeAcceptStep _ => 0x0303
  | .timePpsConfig _ => 0x0304
  | .portConfig _ => 0x0401
  | .netAddress _ => 0x0402
  | .flowAdd _ => 0x0403
  | .flowDelete _ => 0x0404
  | .txQueueConfig _ => 0x0405
  | .gateListSet _ => 0x0406
  | .laneConfig _ => 0x0407
  | .channelDefine _ => 0x0501
  | .channelDelete _ => 0x0502
  | .channelStart _ => 0x0503
  | .channelStop _ => 0x0504
  | .channelSet _ => 0x0505
  | .channelCommit _ => 0x0506
  | .channelRefresh _ => 0x0507
  | .ltrMark _ => 0x0508
  | .ltrRelease _ => 0x0509
  | .roiSet _ => 0x050A
  | .roiClear _ => 0x050B
  | .extStreamDefine _ => 0x050C
  | .extStreamDelete _ => 0x050D
  | .surfaceAlloc _ => 0x0601
  | .surfaceFree _ => 0x0602
  | .flipSubmit _ => 0x0603
  | .protectedLoad _ => 0x0604
  | .protectedRemove _ => 0x0605
  | .tonemapLoad _ => 0x0606
  | .audioPortConfig _ => 0x0701
  | .audioPortStart _ => 0x0702
  | .audioPortStop _ => 0x0703
  | .audioStreamConfig _ => 0x0704
  | .audioStreamDelete _ => 0x0705
  | .audioRoute _ => 0x0706
  | .audioAlignGroup _ => 0x0707
  | .audioClock _ => 0x0708
  | .groupForm _ => 0x0801
  | .groupJoin _ => 0x0802
  | .groupLeave => 0x0803
  | .groupHandover _ => 0x0804
  | .chainEnumerate => 0x0901
  | .chainBudget _ => 0x0902
  | .eventLogFetch _ => 0x0A01
  | .cuAssign _ => 0x0A02

/-! ## Blocks (R305) -/

/-- Bytes with some of them replaced, by offset. -/
def overlay (b : List Byte) (l : List (Nat × Byte)) : List Byte := l.foldl (fun a e => a.set e.1 e.2) b

/-- Bytes 0 to 251 of a command block (Table 15-6), with what the host has written into reserved bytes. -/
def blockBytes (h : CmdHdr) (p : Payload) : List Byte :=
  overlay (padTo 252 (fields [(2, h.opcode), (2, h.length), (4, h.seq), (1, h.session), (1, h.target), (6, 0)] ++ p.bytes)) h.extra

/-- The block's CRC holds (step 1 of R306). -/
def CmdHdr.crcOk (h : CmdHdr) (p : Payload) : Bool := h.crc == crc32c (blockBytes h p)

/-- Table 16-3 lists the opcode (R324). -/
def CmdHdr.known (h : CmdHdr) (p : Payload) : Bool := h.opcode == opcodeOf p

/-- Flags, status and every reserved byte are zero (R319, Table 15-6). -/
def CmdHdr.reservedOk (h : CmdHdr) : Bool := h.extra.isEmpty

/-- The 256 bytes of a completion block (Table 15-6). -/
def Completion.block (c : Completion) : List Byte :=
  sealed (padTo 252 (fields [(2, c.opcode), (2, c.payload.length), (4, c.seq), (1, c.session), (1, c.target),
    (2, flag c.duplicate + 2 * flag c.fetched + 4 * flag c.forwarded), (2, c.status), (2, 0)] ++ c.payload))

/-! ## Stay records (R230 to R232) -/

/-- A packet from its RTP header onward, in network order. -/
def RtpPacket.bytes (p : RtpPacket) : List Byte :=
  [0x80] ++ beBytes 1 (128 * flag p.marker + p.pt) ++ beBytes 2 p.seq ++ beBytes 4 p.ts ++ beBytes 4 p.ssrc ++ p.payload

/-- One range of a gap list (Table 12-5). -/
def GapRange.bytes (g : GapRange) : List Byte := fields [(2, g.merge), (2, g.count), (4, g.first)]

/-- Offsets 16 to 63 of a row record (Table 12-4). -/
def RowRec.body (r : RowRec) : List Byte :=
  fields [(8, r.pic), (2, r.row), (2, flag r.repairOpen + 2 * flag r.resultValid + 4 * flag r.planValid), (8, maskOf 64 r.loss), (4, r.resSize),
    (16, maskOf 128 r.resGuard), (4, r.planCap)] ++ leInt 1 r.planQp
    ++ fields [(1, r.planReef + 8 * flag r.planLatched), (2, flag r.resSubst + 2 * flag r.resOverrun)]

/-- A cursor packed as LYR_CUR_QUEUE (R147). -/
def cursorWord (x y : Int) (en : Bool) : Nat := (x % 16384).toNat + 2 ^ 14 * flag en + 2 ^ 16 * (y % 16384).toNat

/-- Offsets 16 on of a picture record (Table 12-5). -/
def PicRec.body (r : PicRec) : List Byte :=
  fields [(8, r.pic), (8, r.digPic), (8, r.auCrc.toNat), (4, r.recCrc.toNat), (2, r.faults.toNat), (2, r.budget),
    (1, r.ceiling + 4 * flag r.decider), (1, 0), (2, maskOf 16 r.flips), (4, cursorWord r.cursorX r.cursorY r.cursorEn), (4, r.cfgGen),
    (8, r.stepPic), (1, r.gaps.length), (1, flag r.overflow), (2, 0)] ++ r.gaps.flatMap GapRange.bytes

/-- Offsets 16 on of a gap record (R232). -/
def GapRec.body (r : GapRec) : List Byte :=
  fields [(1, r.stream), (1, r.gaps.length), (1, flag r.overflow), (1, 0), (4, r.ts)] ++ r.gaps.flatMap GapRange.bytes

end Sys2Proof

namespace Sys2Proof.Machine

/-- Type and channel of a record's header (Table 12-3). -/
def StayMsg.head : StayMsg → Nat × Nat
  | .row r => (1, r.chan)
  | .pic r => (2, r.chan)
  | .gap r => (3, 64 + r.stream)
  | .repairRequest _ _ _ => (4, 0xFF)
  | .repairData _ _ _ => (5, 0xFF)
  | .copy c _ _ _ => (7, c)
  | _ => (6, 0xFF)

/-- A PTP time in ns: seconds and nanoseconds. -/
def ptpBytes (t : Nat) : List Byte := fields [(6, t / 1000000000), (4, t % 1000000000)]

/-- Offsets 16 on of a record. DESIGN CHOICE (log entry 106): of types 4 to 7, whose fields R232 and Table 12-6 list without offsets, the
fields in that order and of the sizes that the other tables give them. -/
def StayMsg.body (h : RecHdr) : StayMsg → List Byte
  | .row r => r.body
  | .pic r => r.body
  | .gap r => r.body
  | .repairRequest m f n => fields [(2, m), (4, f), (2, n)]
  | .repairData m q p => fields [(2, m), (4, q)] ++ p.bytes
  | .hello r =>
    fields [(1, 1), (1, r.port), (1, h.groupId), (1, r.size), (1, h.rank), (1, r.firstActive), (1, r.level)]
      ++ r.macs.flatMap fun a => beBytes 6 a.toNat
  | .handover t k l => fields [(1, 2)] ++ ptpBytes t ++ fields [(1, k), (8, maskOf 64 l)]
  | .handoverAck t => fields [(1, 3)] ++ ptpBytes t
  | .standDown r => fields [(1, 4), (1, r)]
  | .rejoinPlan l => fields [(1, 5)] ++ l.flatMap fun e => fields [(1, e.1), (8, e.2.1), (8, e.2.2.getD (2 ^ 64 - 1))]
  | .rejoinDone l => fields [(1, 6), (8, maskOf 64 l)]
  | .roleChange r => fields [(1, r)]
  | .copy _ b _ _ => fields [(2, b)]

/-! ## Ratline messages (R282) -/

/-- Type, end of a walk, and payload of a message (Tables 14-1 and 14-2). -/
def RatMsg.wire : RatMsg → Nat × Bool × List Byte
  | .enum n l fin => (1, fin, leBytes 1 n ++ fields (l.map fun i => (8, i.toNat)))
  | .announce i => (2, false, leBytes 8 i.toNat)
  | .assign i a => (3, false, fields [(8, i.toNat), (1, a)])
  | .command c _ _ p => (4, false, blockBytes c p ++ leBytes 4 c.crc.toNat)
  | .completion c => (5, false, c.block)
  | .ringCheck => (6, false, [])
  | .ringReport p d f => (7, false, fields [(1, p), (2, d), (2, f)])
  | .budget l => (8, false, fields (l.map (2, ·)))
  | .testRequest b p => (9, false, fields [(1, b), (2, p)])
  | .testGrant b p => (10, false, fields [(1, b), (2, p)])
  | .testDone b => (11, false, leBytes 1 b)

end Sys2Proof.Machine

namespace Sys2Proof

/-- A record up to its CRC (Table 12-3) with a body. -/
def RecHdr.bytes (h : RecHdr) (m : Machine.StayMsg) (b : List Byte) : List Byte :=
  fields [(1, m.head.1), (1, flag h.relayed), (1, h.rank), (1, h.role), (4, h.recSeq), (2, 20 + b.length), (1, m.head.2), (1, h.groupId), (4, 0)]
    ++ b

/-- The record's CRC-32C holds (R230). -/
def RecHdr.crcOk (h : RecHdr) (m : Machine.StayMsg) (b : List Byte) : Bool := h.crc == crc32c (h.bytes m b)

/-- A message up to its CRC (Table 14-1). -/
def RatHdr.bytes (h : RatHdr) (m : Machine.RatMsg) : List Byte :=
  fields [(1, m.wire.1), (1, flag h.west + 2 * flag h.manager + 4 * flag m.wire.2.1), (1, h.src), (1, h.dst), (4, h.seq), (2, h.length),
    (1, h.hops), (1, 0)] ++ m.wire.2.2

/-- The message's CRC-32C and length hold (R282). -/
def RatHdr.ok (h : RatHdr) (m : Machine.RatMsg) : Bool :=
  decide (16 ≤ h.length) && decide (h.length ≤ 272) && h.crc == crc32c (h.bytes m)

end Sys2Proof
end

