-- ==== Sys2Proof/Machine/Ops.lean ====
section
/-!
DEFINITION. The operations every family shares: what leaves the block, interrupts (R299), the event log (R421 to R423), access
to channels, pictures and rows, memory poison (R389), the test record (R447) and the fatal error (R420).
-/
namespace Sys2Proof.Machine

/-! ## Outputs and interrupts -/

/-- Something leaves the block. -/
def State.emit (s : State) (o : Out) : State := { s with out := o :: s.out }

/-- Offset of the control word of an MSI-X vector in the table at 0x0001_0000 (R299). -/
def msixControl (v : Nat) : Nat := 0x1000C + 0x10 * v

/-- The function may send MSI-X messages: Bus Master Enable is set and it is not in D3hot (R295, R296). -/
def PciState.mayWrite (p : PciState) : Bool := p.bme && !p.d3hot

/-- Vector `v` may send a message: it is not masked, and the function may send one. -/
def State.msixOpen (s : State) (v : Nat) : Bool := s.mbx.pci.mayWrite && !(wbit (s.rd (msixControl v)) 0)

/-- A cause of vector `v` (R299): one message, or the pending bit while it is masked. DESIGN CHOICE (log entry 79): a cause that comes
while the function may send no message pends as one of a masked vector does. -/
def State.signal (s : State) (v : Nat) : State :=
  if s.mbx.msixPend.toNat.testBit v then s
  else if s.msixOpen v then s.emit (.msix v)
  else { s with mbx := { s.mbx with msixPend := s.mbx.msixPend ||| BitVec.ofNat 64 (2 ^ v) } }

/-- Sends the message of a vector that is pending and may send it (R299). -/
def State.msixRelease (s : State) (v : Nat) : State :=
  if s.mbx.msixPend.toNat.testBit v && s.msixOpen v then
    { s with mbx := { s.mbx with msixPend := s.mbx.msixPend &&& ~~~(BitVec.ofNat 64 (2 ^ v)) } }.emit (.msix v)
  else s

/-! ## Host accesses to BAR0 (R5, R20, R22) -/

/-- The clock domain of a BAR0 offset (Table 1-9). -/
def regDomain (off : Nat) : Domain :=
  match off / 0x100000 with
  | 1 => .aon
  | 2 => .time
  | 3 => .emac
  | 4 => .enc
  | 5 => .pix
  | 6 => .audm
  | 7 => .enc
  | 9 => .rat
  | 14 => .ctrl
  | 15 => .dbg
  | 16 => .emac
  | 17 => .emac
  | _ => .fab

/-- A bad host access: counted and flagged (R5, R430). -/
def State.badAccess (s : State) : State := (s.bump Reg.DEV_BAD_ACCESS).sticky Reg.DEV_STATUS 0x200

/-- An Unsupported Request (R295, R301): AER records it and sends its error message where that is enabled. PRESUMED (log entry 79):
what the Base Specification states of the status, mask, severity and enable bits. -/
def State.unsupported (s : State) : State :=
  let p := s.mbx.pci
  let s := { s with mbx := { s.mbx with pci := { p with urStatus := true } } }
  if p.urReport && !p.urMask then s.emit (.pcieError p.urFatal) else s

/-- A BAR access in D3hot is an Unsupported Request (R295; the Base Specification, log entry 79); in D0 it does what it does. -/
def State.barRead (s : State) (f : State → State) : State := if s.mbx.pci.d3hot then s.unsupported.emit .unsupported else f s
def State.barWrite (s : State) (f : State → State) : State := if s.mbx.pci.d3hot then s.unsupported else f s

/-- The PLL of a domain has lost lock: a detector has reported it, or its reference clock is gone (R22, R275). -/
def DevBlock.down (d : DevBlock) (x : Domain) : Bool := d.unlocked.contains x || (d.linkRefLost && x == .rat)

/-- A host read at an offset: of a domain whose PLL has lost lock it completes with all ones and counts (R22). -/
def State.hostRead (s : State) (off : Nat) (f : State → State) : State :=
  s.barRead fun s => if s.dev.down (regDomain off) then s.badAccess.emit (.readData 0xFFFFFFFF) else f s

/-- A host write at an offset: to such a domain it is discarded and counts (R22). -/
def State.hostWrite (s : State) (off : Nat) (f : State → State) : State :=
  s.barWrite fun s => if s.dev.down (regDomain off) then s.badAccess else f s

/-- A read that answers with a register and clears it (RC). -/
def State.readClear (s : State) (off : Nat) : State := s.hostRead off fun s => (s.wr off 0).emit (.readData (s.rd off))

/-- A read of a reserved offset returns 0 (R5). -/
def State.readReserved (s : State) : State := s.barRead fun s => s.emit (.readData 0)

/-! ## Interfaces and the frames that firmware sends (R176, R178, R191, R199, R205) -/

/-- An interface. -/
def State.iface (s : State) (i : Nat) : Iface := tgetD s.net.ifaces i {}

/-- Changes an interface. -/
def State.updIface (s : State) (i : Nat) (f : Iface → Iface) : State :=
  { s with net := { s.net with ifaces := tset s.net.ifaces i (f (s.iface i)) } }

/-- Egress state of an interface. -/
def State.txIf (s : State) (i : Nat) : TxIface := tgetD s.tx i {}

/-- Changes it. -/
def State.updTx (s : State) (i : Nat) (f : TxIface → TxIface) : State := { s with tx := tset s.tx i (f (s.txIf i)) }

/-- max_frame of a queue. -/
def TxIface.maxF (t : TxIface) (q : Nat) : Nat := tgetD t.maxFrame q 1522

/-- The address is IPv4-mapped. -/
def isIpv4 (a : Addr) : Bool := a.toNat / 2 ^ 32 == 0xFFFF

/-- Length with FCS of a frame that firmware sends, at least 64 bytes. PRESUMED (log entry 99): ARP, neighbour discovery, IGMPv3, MLDv2
and Delay_Req messages as their standards lay them out. -/
def CtlReply.frame : CtlReply → Nat
  | .resolved a => if isIpv4 a then 64 else 90
  | .announceAddr a => if isIpv4 a then 64 else 90
  | .echo n => n
  | .membership r => max 64 (if isIpv4 r.group then 58 + 4 * r.sources.length else 94 + 16 * r.sources.length)
  | .delayReq _ _ d v => (if v = 0 then 14 else 18) + (if isIpv4 d then 20 else 40) + 8 + 44 + 4

/-- Firmware gives a frame to queue `q` of interface `i`: discarded and counted while the link is down or the interface has no MAC
address (R176, R205), dropped over max_frame or where queue 3 is full (R199, R203), and not sent after a fatal error (R420). -/
def State.sendCtl (s : State) (i q : Nat) (what : CtlReply) : State :=
  let f := s.iface i
  let t := s.txIf i
  let n := what.frame
  let held := tgetD t.held q 0
  if s.dev.fatal then s
  else if !f.linkUp || f.mac.isNone then (s.bump (Reg.NET_TX_LINK_DROPS i)).sticky (Reg.NET_TX_STATUS i) 0x20000
  else if t.maxF q < n || (q == 3 && decide (262144 < held + n)) then
    (s.bump (Reg.NET_TX_DROPS i)).sticky (Reg.NET_TX_STATUS i) 0x10000
  else s.updTx i fun t => { t with ctl := t.ctl ++ [⟨q, n, what⟩], held := tset t.held q (held + n) }

/-- Firmware takes the oldest PTP datagram that the flow table has passed to it (R183, R207). -/
def State.takePtp (s : State) : State := { s with net := { s.net with toPtp := s.net.toPtp.drop 1 } }

/-! ## Histograms (R412) -/

/-- One value into histogram unit `h`, of a source and filter item (R412, Table 19-7). -/
def State.histUnit (s : State) (src item : Nat) (v : Int) (h : Nat) : State :=
  let w := s.rd (Reg.PMU_HIST_CFG h)
  let source := if h ≤ 3 then h else wfield w 1 0
  if wbit w 2 && source == src && (!(wbit w 16) || wfield w 15 8 == item) then
    let o : Int := (s.rd (Reg.PMU_HIST_ORIGIN h)).toInt
    let b := (min (max (fdiv (v - o) (2 ^ wfield w 7 3)) 0) 63).toNat
    let c := s.rd (Reg.PMU_HIST_BIN h b)
    let s := s.bump (Reg.PMU_HIST_BIN h b)
    if c = 0xFFFFFFFF then s.sticky (Reg.PMU_HIST_CFG h) 0x40000 else s
  else s

/-- A value of a histogram source into every unit that takes it, in ns. -/
def State.hist (s : State) (src item : Nat) (v : Int) : State :=
  (List.range 16).foldl (fun (t : State) h => t.histUnit src item v h) s

/-! ## Performance counters (R409 to R411) -/

/-- What an event carries for the filters of R409: its master port, its fabric address and its origin (0 kernel, 1 thread, 2
host-initiated), each where it has one. -/
structure PmuSource where
  master : Option Nat := none
  addr   : Option Nat := none
  origin : Option Nat := none
deriving DecidableEq, Repr

/-- The fabric address of a pair of range registers. -/
def State.rangeAddr (s : State) (lo hi : Nat) : Nat := (s.rd lo).toNat + 2 ^ 32 * wfield (s.rd hi) 5 0

/-- The filters of a counter's configuration let an event through; one that does not apply to it is ignored (R409). -/
def State.pmuPasses (s : State) (w : Word) (x : PmuSource) : Bool :=
  (match x.origin with
    | some o => wbit w (13 + o)
    | none => true)
  && (match x.master with
    | some m => !(wbit w 21) || wfield w 20 16 == m
    | none => true)
  && (match x.addr with
    | some a =>
      let k := wfield w 24 22
      !(wbit w 25) || (decide (s.rangeAddr (Reg.PMU_RANGE_BASE_LO k) (Reg.PMU_RANGE_BASE_HI k) ≤ a)
        && decide (a ≤ s.rangeAddr (Reg.PMU_RANGE_LIMIT_LO k) (Reg.PMU_RANGE_LIMIT_HI k)))
    | none => true)

/-- The counters that are enabled, with their configuration. -/
def pmuEnabled (b : Tab Word) : List (Nat × Word) :=
  b.filterMap fun e =>
    if decide (0x00C00000 ≤ e.1) && decide (e.1 < 0x00C01000) && e.1 % 16 == 0 && wbit e.2 12 then some ((e.1 - 0x00C00000) / 16, e.2)
    else none

/-- Advances counter `i` by `n`; passing 2^48 - 1 wraps it and sets its overflow bit (R410). -/
def State.pmuAdvance (s : State) (i n : Nat) : State :=
  let v := tgetD s.pmu.cnt i 0 + n
  let s := { s with pmu := { s.pmu with cnt := tset s.pmu.cnt i (v % 2 ^ 48) } }
  s.when (decide (2 ^ 48 ≤ v)) (·.sticky (Reg.PMU_OVF (i / 32)) (bit1 (i % 32)))

/-- `n` occurrences of an event of Table 19-6 (R409). -/
def State.pmuCount (s : State) (cls num n : Nat) (x : PmuSource) : State :=
  (pmuEnabled s.regs).foldl (fun (t : State) (e : Nat × Word) =>
    if wfield e.2 11 0 == cls * 256 + num && s.pmuPasses e.2 x then t.pmuAdvance e.1 n else t) s

/-- One occurrence of an event to which no filter applies. -/
def State.pmuEvent (s : State) (cls num : Nat) : State := s.pmuCount cls num 1 {}

/-! ## Event log -/

/-- 100 ms in TIME cycles (R422). -/
def mergeWindow : Nat := 100000000

/-- The entry of an event at this instant (Table 20-2). -/
def State.eventOf (s : State) (code sev obj detail : Nat) : Event :=
  { seq := s.logSeq, code := code, severity := sev,
    timeValid := s.time.st != .freeRun, duringCtl := s.ctl.restarting,
    sec := s.time.sec % 2 ^ 48, ns := s.time.ns, rep := 1, object := obj, detail := detail % 2 ^ 64, first := s.time.up }

/-- The event merges into the newest entry (R422). -/
def mergesInto (e : Event) (code sev obj up : Nat) : Bool :=
  e.code == code && e.object == obj && decide (up < e.first + mergeWindow) && sev != 3

/-- Raises an event (R421 to R423): merge or a new entry, DEV_STATUS.event_seen and vector 0. -/
def State.raise (s : State) (code sev obj detail : Nat) : State :=
  let fresh : List Event × Nat := ((s.eventOf code sev obj detail :: s.log).take 4096, s.logSeq + 1)
  let r : List Event × Nat :=
    match s.log with
    | [] => fresh
    | e :: rest =>
      if mergesInto e code sev obj s.time.up then
        ({ e with rep := min 65535 (e.rep + 1), detail := detail % 2 ^ 64 } :: rest, s.logSeq)
      else fresh
  ({ s with log := r.1, logSeq := r.2 }.sticky Reg.DEV_STATUS 0x100).signal 0

/-! ## Channels, pictures, rows -/

/-- Changes channel `c` where it is defined. -/
def State.updChan (s : State) (c : Nat) (f : Chan → Chan) : State := { s with chans := tupd s.chans c f }

/-- Puts channel `c`. -/
def State.setChan (s : State) (c : Nat) (ch : Chan) : State := { s with chans := tset s.chans c ch }

/-- Runs an operation on a defined channel; nothing happens to a FREE one. -/
def State.onChan (s : State) (c : Nat) (f : Chan → State → State) : State :=
  match tget s.chans c with
  | none => s
  | some ch => f ch s

/-- ARMED, RUNNING or STOPPING: what R360 calls running. -/
def ChanState.active (t : ChanState) : Bool := t == .armed || t == .running || t == .stopping

/-- RUNNING or STOPPING: the channel codes pictures. -/
def ChanState.coding (t : ChanState) : Bool := t == .running || t == .stopping

/-- The picture `n` of a channel. -/
def Chan.pic? (c : Chan) (n : Nat) : Option Pic := tget c.pics n

/-- Changes a picture where it exists. -/
def Chan.updPic (c : Chan) (n : Nat) (f : Pic → Pic) : Chan := { c with pics := tupd c.pics n f }

/-- A row of a picture; one that nothing has touched is the default row. -/
def Pic.row (p : Pic) (r : Nat) : Row := tgetD p.rows r {}

/-- Changes a row of a picture. -/
def Pic.updRow (p : Pic) (r : Nat) (f : Row → Row) : Pic := { p with rows := tset p.rows r (f (p.row r)) }

/-- Changes row `r` of picture `n`. -/
def Chan.updRow (c : Chan) (n r : Nat) (f : Row → Row) : Chan := c.updPic n fun p => p.updRow r f

/-- Runs an operation on row `r` of picture `n` of channel `c`, where all three exist. -/
def State.onRow (s : State) (c n r : Nat) (f : Chan → Pic → Row → State → State) : State :=
  s.onChan c fun ch s =>
    match ch.pic? n with
    | none => s
    | some p => if r < ch.cfg.main.rows then f ch p (p.row r) s else s

/-- The RUNNING channels by rising number. -/
def State.runningChans (s : State) : List (Nat × Chan) := s.chans.filter fun e => e.2.st.active

/-- The unit is a member of a shroud group (Table 12-2). -/
def State.member (s : State) : Bool := s.grp.role != .none && s.grp.role != .detached

/-- Code of a role (Table 12-2). -/
def Role.code : Role → Nat
  | .none => 0
  | .active => 1
  | .standby => 2
  | .joining => 3
  | .unverified => 4
  | .detached => 5

/-- The unit emits a channel's packets as far as its role goes: a single unit or the ACTIVE (Table 12-2). -/
def State.emits (s : State) : Bool := s.grp.role == .none || s.grp.role == .active

/-! ## Memory poison -/

/-- The 32-byte HBM block of an address carries poison (R389). -/
def State.poisoned (s : State) (a : Nat) : Bool := thas s.mem.poison (a / 32)

/-- The blocks that a write covers whole (R389). -/
def coveredBlocks (a n : Nat) : List Nat := (rangeFrom (cdiv a 32) (n / 32 + 1)).filter fun b => decide (32 * b + 32 ≤ a + n)

/-- A write to HBM: bytes stored, poison cleared where a block is covered whole. -/
def State.hbmWrite (s : State) (a : Nat) (d : List Byte) : State :=
  { s with mem := { s.mem with
      hbm := Mem.write s.mem.hbm a d
      poison := (coveredBlocks a d.length).foldl (fun (t : Tab Unit) b => tdel t b) s.mem.poison } }

/-! ## Self-test record and fatal errors -/

/-- A BitVec bit by number. -/
def hasBit64 (b : BitVec 64) (i : Nat) : Bool := b.toNat.testBit i

/-- The 64-bit mask with bit `i`. -/
def bit64 (i : Nat) : BitVec 64 := BitVec.ofNat 64 (2 ^ i)

/-- Bytes 0 to 59 of a test record (Table 21-5). -/
def TestRecord.body (r : TestRecord) : List Byte :=
  leBytes 4 r.seq ++ leBytes 4 r.hours ++ leBytes 8 r.tested.toNat ++ leBytes 8 r.failed.toNat ++ leBytes 1 (if r.complete then 1 else 0)
    ++ leBytes 1 r.source ++ leBytes 2 r.dieRev ++ leBytes 2 r.fw ++ leBytes 30 0

/-- The test record that the flash holds, none where it is absent or fails its CRC (R436, R447). -/
def Nvm.test (v : Nvm) : Option TestRecord :=
  match v.record with
  | none => none
  | some b =>
    let at_ (i n : Nat) : Nat := leNat ((b.drop i).take n)
    if crcHolds 64 b then
      some {
        seq := at_ 0 4, hours := at_ 4 4, tested := BitVec.ofNat 64 (at_ 8 8), failed := BitVec.ofNat 64 (at_ 16 8)
        complete := at_ 24 1 == 1, source := at_ 25 1, dieRev := at_ 26 2, fw := at_ 28 2 }
    else none

/-- Tchista 3.2, major version in [15:8] (R432, Table 21-5). -/
def fwVersion : Nat := 0x0302

/-- Writes the test record (R447) with the tested and failed masks. -/
def DevBlock.writeRecord (d : DevBlock) (tested failed : BitVec 64) (complete : Bool) (source : Nat) : DevBlock :=
  let seq := match d.nvm.test with | some r => r.seq | none => 0
  let r : TestRecord := {
    seq := (seq + 1) % 2 ^ 32, hours := d.nvm.hours, tested := tested, failed := failed, complete := complete, source := source
    dieRev := d.nvm.dieRev.toNat, fw := fwVersion }
  { d with nvm := { d.nvm with record := some (sealed r.body), fatalAfterRecord := false } }

/-- Number of bits set among the first 64. -/
def bitCount (b : BitVec 64) : Nat := ((List.range 64).filter fun i => hasBit64 b i).length

/-- Every block of Table 21-4. -/
def allBlocks : BitVec 64 := BitVec.ofNat 64 (2 ^ 50 - 1)

/-- The end of a shutdown self-test (R445, R446): running blocks are abandoned untested, the record is written, unless the flash fails,
which leaves the previous one, SELFTEST_DONE is logged and the device is HALTED. -/
def State.endTest (s : State) : State :=
  let t := s.dev.test
  let complete := t.tested == allBlocks
  let d := if Config.flashFails s.time.up then s.dev else s.dev.writeRecord t.tested t.failed complete 0
  let s := { s with dev := { d with
      state := .halted, test := { t with running := [], stopping := false, asked := false, granted := [] } } }
  s.raise 0x0082 (if t.failed = 0 then 0 else 2) 0xFF
    (bitCount t.tested + 2 ^ 16 * bitCount t.failed + (if complete then 0 else 2 ^ 32))

/-- The references of a channel that has stopped: long-term slots released, pending marks cancelled, anchors dropped (R105 to
R107). -/
def RefState.stopped (f : RefState) : RefState :=
  { f with
    lt := [], marks := [], anchors := [], releases := [], requests := [], sweep := none, closing := none,
    restart := none, rejoinAt := none }

/-- Pending marks cancelled by a stop count (R106); `ch` is the channel before it. -/
def State.cancelMarks (s : State) (c : Nat) (ch : Chan) : State :=
  if ch.refs.marks.isEmpty then s
  else (s.bumpBy (Reg.REF_MARKS_CANCELLED c) ch.refs.marks.length).sticky (Reg.REF_STATUS c) 0x1000

/-- What a stop of channel `c`, `ch` before it, counts: CHN_STATUS.stopped, marks cancelled, slots released (R105, R106). -/
def State.countStop (s : State) (c : Nat) (ch : Chan) : State :=
  let s := (s.sticky (Reg.CHN_STATUS c) 0x1000).cancelMarks c ch
  if ch.refs.lt.isEmpty then s else s.sticky (Reg.REF_STATUS c) 0x2000

/-- A channel after a fatal error: ARMED, RUNNING and STOPPING become STOPPED (Table 2-8). -/
def Chan.fatalStop (c : Chan) : Chan :=
  if c.st.active then
    { c with
      st := .stopped, stopPic := none, pics := [], stepPic := none, stepHeld := 0, inputLost := false,
      refs := c.refs.stopped }
  else c

/-- Counts the stop of every channel that a fatal error stops. -/
def State.stopSticky (s : State) : State :=
  s.chans.foldl (fun (t : State) (e : Nat × Chan) => if e.2.st.active then t.countStop e.1 e.2 else t) s

/-- Every channel becomes STOPPED (R420, step 1). -/
def State.stopAll (s : State) : State :=
  let s := s.stopSticky
  { s with chans := s.chans.map fun e => (e.1, e.2.fatalStop) }

/-- A stopping fault (R420): every channel STOPPED and the transmitters idle, with nothing left to send (R12), a group member DETACHED, DEV_LAST_FATAL written,
the event logged, DEV_STATUS.fatal set; a shutdown self-test ends first (R446). -/
def State.fatal (s : State) (code obj detail : Nat) : State :=
  let s := if s.dev.state == .testing then s.endTest else s
  let s := s.stopAll.emit .idles
  let s := { s with tx := tmap s.tx fun _ t => { t with queued := [], ctl := [], held := [], catchup := [] } }
  let s := if s.member then { s with grp := { s.grp with role := .detached, handover := none, targetOf := none } } else s
  let d := { s.dev with fatal := true, lastCode := code, lastObj := obj, lastS := s.time.sec % 2 ^ 32, lastNs := s.time.ns }
  let s := { s with dev := { d with nvm := { d.nvm with fatalAfterRecord := true } } }
  s.raise code 3 obj detail

end Sys2Proof.Machine
end

