-- ==== Sys2Proof/Machine/Governor.lean ====
section
/-!
DEFINITION. The trim governor (17 R358 to R363): the budget in force, the power available for optional work, the admission of
tiers, and the floor and demand a unit reports. Powers are in 1/16 W; sums that hold a mean tier are exact in 1/612 of that,
612 being a common multiple of every row count of Table 4-2.
-/
namespace Sys2Proof.Machine

/-- Scale of exact powers: 612 parts of 1/16 W. -/
def pwrScale : Nat := 612

/-- p_opt (R359), in 1/(16 × 612) W: over the running channels, slots × 3/16 W × the mean tier of the last picture's rows. -/
def State.pOpt (s : State) : Nat :=
  sumNat (s.runningChans.map fun e => e.2.slots * 3 * e.2.tierSum * (pwrScale / e.2.cfg.main.rows))

/-- P_t0 (R359), in 1/(16 × 612) W. -/
def State.pT0 (s : State) : Int := (s.pwr.pMeas * pwrScale : Nat) - (s.pOpt : Int)

/-- Slots of the channels that are DEFINED or STOPPED (R362). -/
def State.idleSlots (s : State) : Nat :=
  sumNat (s.chans.map fun e => if e.2.st.active then 0 else e.2.slots)

/-- The floor f (R362) in 1/16 W: P_t0 + 1.40 W for each idle slot, rounded down. -/
def State.floorPower (s : State) : Nat :=
  ((s.pT0 * 10 + (s.idleSlots * 224 * pwrScale : Nat)) / ((10 * pwrScale : Nat) : Int)).toNat

/-- The demand w (R362) in 1/16 W: f + 3/8 W for each slot of a running channel. -/
def State.demandPower (s : State) : Nat :=
  s.floorPower + 6 * sumNat (s.runningChans.map fun e => e.2.slots)

/-- A manager has numbered the unit (R281, R358); a manager itself, once it has enumerated. -/
def State.numbered (s : State) : Bool := s.rat.addr != 0 && (!s.rat.manager || s.rat.enumDone)

/-- The budget in force B in 1/16 W, with its source code of PWR_BUDGET (R358). -/
def State.budgetInForce (s : State) : Nat × Nat :=
  let rating := 5280
  if s.numbered then
    if s.pwr.budgetStale then
      let f := s.floorPower
      if f < rating then (f, 3) else (rating, 0)
    else
      match s.pwr.mgrBudget with
      | some b => if b < rating then (b, 2) else (rating, 0)
      | none => (rating, 0)
  else
    match s.pwr.hostBudget with
    | some b => if b < rating then (b, 1) else (rating, 0)
    | none => (rating, 0)

/-- A (R359) in 1/16 W, rounded down. `tMax` is in 0.25 °C: 115 °C is 460, 125 °C is 500. -/
def State.availPower (s : State) : Nat :=
  if s.pwr.warn.isSome then 0
  else
    let a : Int := (s.budgetInForce.1 * pwrScale : Nat) - s.pT0
    let scaled : Int :=
      if s.pwr.tMax > 460 then a * (max 0 (500 - s.pwr.tMax)) / ((40 * pwrScale : Nat) : Int)
      else a / (pwrScale : Int)
    scaled.toNat

/-- One pass of R360 for tier `t`: each running channel in ascending number that holds tier t − 1 and fits takes it. -/
def admitPass (t aUse : Nat) : List (Nat × Nat × Nat) → Nat → List (Nat × Nat × Nat) × Nat
  | [], spend => ([], spend)
  | (c, slots, tier) :: r, spend =>
    let fits := tier + 1 == t && decide (spend + slots * 3 ≤ aUse)
    let rest := admitPass t aUse r (if fits then spend + slots * 3 else spend)
    ((c, slots, if fits then t else tier) :: rest.1, rest.2)

/-- The allocation of R360 for `aUse` in 1/16 W: (channel, slots, tier). -/
def admission (chans : List (Nat × Nat)) (aUse : Nat) : List (Nat × Nat × Nat) :=
  let p1 := admitPass 1 aUse (chans.map fun e => (e.1, e.2, 0)) 0
  (admitPass 2 aUse p1.1 p1.2).1

/-- The tier R360 gives channel `c` under `aUse`. -/
def State.tierFor (s : State) (c aUse : Nat) : Nat :=
  match (admission (s.runningChans.map fun e => (e.1, e.2.slots)) aUse).find? (·.1 == c) with
  | some (_, _, t) => t
  | none => 0

/-- floor_exceeded follows B and P_t0 (R363), and sets its sticky bit. -/
def State.checkFloor (s : State) : State :=
  let ex : Bool := decide (((s.budgetInForce.1 * pwrScale : Nat) : Int) < s.pT0)
  let s := { s with pwr := { s.pwr with floorExceeded := ex } }
  s.when ex (·.sticky Reg.PWR_STATUS 0x800)

/-- A decision of the governor for channel `c` with the available power `avail` (R360): the tier, recorded with A. -/
def State.decideTier (s : State) (c avail group : Nat) : State × Nat :=
  let t := s.tierFor c (avail - 32)
  let s := { s with pwr := { s.pwr with avail := s.availPower, availGroup := group, pT0 := (s.pT0 / (pwrScale : Int)).toNat } }
  let s := s.checkFloor
  (s.when (decide (t < 2)) (·.bump Reg.PWR_CEILING_CUTS), t)

end Sys2Proof.Machine
end

