-- ==== Sys2Proof/Machine/GroupOps.lean ====
section
/-!
DEFINITION. What every family needs of a shroud group (chapter 12): sending records over the stay legs (R227, R228), the agreed
loss map (R234), the decisions carried by the active (R238 to R241), voting (R243 to R245), role changes (R260) and the start of
a planned handover (R246, R248).
-/
namespace Sys2Proof.Machine

/-! ## Legs and records -/

/-- Stay leg 0 (A) or 1 (B). -/
def State.leg (s : State) (i : Nat) : Leg := if i = 0 then s.grp.legA else s.grp.legB

/-- Puts a stay leg. -/
def State.setLeg (s : State) (i : Nat) (l : Leg) : State :=
  if i = 0 then { s with grp := { s.grp with legA := l } } else { s with grp := { s.grp with legB := l } }

/-- The link of a port is UP (R272). -/
def State.portUp (s : State) (q : Nat) : Bool := (tgetD s.lane.ports q {}).st == .up

/-- Puts a record on a leg that is up: a frame kept for replay (R227). -/
def State.frameOn (s : State) (i : Nat) (r : StayRec) : State :=
  let l := s.leg i
  let f : ReplayFrame StayRec := ⟨l.nextLink, 0, s.time.up, r⟩
  ((s.setLeg i { l with nextLink := (l.nextLink + 1) % 256, replay := takeLast 16 (l.replay ++ [f]) }).emit
    (.stay i l.nextLink r)).pmuEvent 8 0

/-- Sends a record on a leg, or queues it while the leg is not in use: not up, or its hello not passed (R225, R228). -/
def State.sendLeg (s : State) (i : Nat) (r : StayRec) : State :=
  let l := s.leg i
  if s.portUp i && l.helloOk then s.frameOn i r
  else s.setLeg i { l with outage := takeLast 512 (l.outage ++ [r]) }

/-- Sends the outage queue in order once the leg has recovered (R228). -/
def State.flushLeg (s : State) (i : Nat) : State :=
  let q := (s.leg i).outage
  q.foldl (fun t r => t.sendLeg i r) (s.setLeg i { s.leg i with outage := [] })

/-- A record of this unit with the next rec_seq (R228). -/
def State.nextRec (s : State) (m : StayMsg) : State × StayRec :=
  ({ s with grp := { s.grp with recSeq := (s.grp.recSeq + 1) % 2 ^ 32 } }, ⟨s.grp.recSeq, s.grp.rank, false, m⟩)

/-- The unit sends records in its role (Table 12-2). -/
def State.sendsRecords (s : State) : Bool :=
  match s.grp.role with
  | .none => false
  | .active => true
  | .standby => true
  | .joining => true
  | .unverified => s.portUp 0 || s.portUp 1
  | .detached => false

/-- Sends a record of types 1, 2, 3 or 6 over both legs (R225, R228). -/
def State.sendAll (s : State) (m : StayMsg) : State :=
  if s.sendsRecords then
    let p := s.nextRec m
    (p.1.sendLeg 0 p.2).sendLeg 1 p.2
  else s

/-- Sends a record whatever the role's rule, for a member that has just left its role (a stand-down, a role change). -/
def State.sendBoth (s : State) (m : StayMsg) : State :=
  let p := s.nextRec m
  (p.1.sendLeg 0 p.2).sendLeg 1 p.2

/-- The leg that leads to a rank directly, once its hello has passed (R225, R256). -/
def State.legTo (s : State) (rank : Nat) : Option Nat :=
  if s.portUp 0 && s.grp.legA.helloOk && s.grp.legA.peerRank == rank then some 0
  else if s.portUp 1 && s.grp.legB.helloOk && s.grp.legB.peerRank == rank then some 1
  else none

/-- The ranks of the other members. -/
def State.otherRanks (s : State) : List Nat := (rangeFrom 1 s.grp.size).filter (· != s.grp.rank)

/-- A member has a working stay path: directly, or in a triad through the third unit (R228). -/
def State.reachable (s : State) (rank : Nat) : Bool :=
  (s.legTo rank).isSome ||
    (s.grp.size == 3 && (s.otherRanks.any fun o => o != rank && (s.legTo o).isSome) && thas s.grp.peers rank)

/-- The leg by which a record for one member leaves: its own, or the one to the third unit (R228). -/
def State.wayTo (s : State) (rank : Nat) : Nat :=
  match s.legTo rank with
  | some i => i
  | none => if s.portUp 0 then 0 else 1

/-- Sends a record of type 4, 5 or 7 to one member: on its own leg, or through the third unit (R228). -/
def State.sendTo (s : State) (rank : Nat) (m : StayMsg) : State :=
  let p := s.nextRec m
  p.1.sendLeg (s.wayTo rank) p.2

/-- The hello of this unit for a leg (Table 12-6): the addresses of its enabled interfaces, 0 for one without (R176). -/
def State.helloRec (s : State) (leg : Nat) : HelloRec :=
  { port := leg, size := s.grp.size, firstActive := s.grp.firstActive, level := s.dev.level
    macs := (s.net.ifaces.filter fun (e : Nat × Iface) => e.2.enabled).map fun (e : Nat × Iface) => e.2.mac.getD 0 }

/-- Sends a hello on a leg that is up (R232). -/
def State.sendHello (s : State) (leg : Nat) : State :=
  if s.member && s.portUp leg then
    let p := s.nextRec (.hello (s.helloRec leg))
    p.1.frameOn leg p.2
  else s

/-- What this unit knows of a peer. -/
def State.peer (s : State) (rank : Nat) : Peer := tgetD s.grp.peers rank {}

/-- The takeover order when rank `a` is active (R223); every rank in turn while none is known to be. -/
def takeoverOrder (a size : Nat) : List Nat :=
  if a = 0 then rangeFrom 1 size else (List.range (size - 1)).map fun i => (a + i) % size + 1

/-! ## Group state of a channel -/

/-- The group state of channel `c`. -/
def State.gch (s : State) (c : Nat) : GrpChan := tgetD s.grp.chans c {}

/-- Changes the group state of a channel. -/
def State.updGch (s : State) (c : Nat) (f : GrpChan → GrpChan) : State :=
  { s with grp := { s.grp with chans := tset s.grp.chans c (f (s.gch c)) } }

/-- Sets a bit of a picture's faults field (Table 12-5). -/
def State.setFault (s : State) (c n bit : Nat) : State :=
  s.updChan c fun ch => ch.updPic n fun p => { p with faults := p.faults ||| (2 ^ bit) }

/-- An event of R72 in picture `n` at this unit: the fault bit, and for a member the picture in the list R247 asks. -/
def State.localEvent (s : State) (c n bit : Nat) : State :=
  let s := s.setFault c n bit
  if s.member then s.updGch c fun g => { g with events := insertNat n g.events } else s

/-! ## Agreed input (R234) -/

/-- Key of a row record. -/
def rowKey (n r rank : Nat) : Nat := (n * 2 ^ 16 + r) * 4 + rank

/-- The records for a row that have been received from other members. -/
def State.rowRecs (s : State) (c n r : Nat) : List RowRec :=
  s.otherRanks.filterMap fun k => tget (s.gch c).rows (rowKey n r k)

/-- A member whose row record counts: ACTIVE, STANDBY or JOINING (R234). -/
def recordRole (role : Nat) : Bool := role == 1 || role == 2 || role == 3

/-- The record of some counting member with a working path is absent (R234). -/
def State.rowIncomplete (s : State) (c n r : Nat) : Bool :=
  s.otherRanks.any fun k =>
    recordRole (s.peer k).role && s.reachable k && !(thas (s.gch c).rows (rowKey n r k))

/-- The agreed loss map of a row (R234): the unit's own map or, on a member that is not UNVERIFIED, its OR with the maps of the
records received. -/
def State.agreedLoss (s : State) (c n r : Nat) (own : List Nat) : List Nat :=
  if s.member && s.grp.role != .unverified then
    (s.rowRecs c n r).foldl (fun a rec => rec.loss.foldl (fun b i => insertNat i b) a) own
  else own

/-! ## Decisions (R238 to R240) -/

/-- The record whose decisions picture `n + 2` takes: on an UNVERIFIED member its own evaluation (R251), else the record of
the sender of highest precedence among those that were deciders of `n` (R240); none means the defaults of R239. -/
def State.decision (s : State) (c n : Nat) : Option PicRec :=
  let g := s.gch c
  if s.grp.role == .unverified then tget g.own n
  else
    ((rangeFrom 1 s.grp.size).filterMap fun k =>
      match tget g.pics (n * 4 + k) with
      | some (_, r) => if r.decider then some r else none
      | none => none).head?

/-- The latest budget each member reported on a channel, this unit's own included (R361). -/
def State.groupBudget (s : State) (own : Nat) : Nat :=
  s.otherRanks.foldl (fun a k =>
    let latest := (s.grp.chans.flatMap fun e => e.2.pics).foldl (fun (b : Option (Nat × Nat)) e =>
      if e.1 % 4 == k then
        match b with
        | some (n, v) => if n ≤ e.1 / 4 then some (e.1 / 4, e.2.2.budget) else some (n, v)
        | none => some (e.1 / 4, e.2.2.budget)
      else b) none
    match latest with
    | some (_, v) => min a v
    | none => a) own

/-! ## Role changes (R260) -/

/-- Tells a gratuitous address announcement of every service address (R254). -/
def State.announceService (s : State) : State :=
  s.grp.service.foldl (fun t e => t.sendCtl e.1 3 (.announceAddr e.2)) s

/-- Changes role, sending the control record that every change sends (R260); becoming ACTIVE announces the service addresses
(R254). -/
def State.setRole (s : State) (r : Role) : State :=
  if s.grp.role == r then s
  else
    let s := { s with grp := { s.grp with role := r } }
    let s := s.sendBoth (.roleChange r.code)
    if r == .active then { s with grp := { s.grp with activeRank := s.grp.rank } }.announceService else s

/-- A channel begins to resync at step 2 (R256). -/
def GrpChan.resync (g : GrpChan) : GrpChan :=
  { g with inSync := false, lost := false, events := [], phase := .copy, matchRun := 0, sC := none, sR := none, rp := none, failedBlocks := [] }

/-- A member resyncs one channel from R256 step 2; a STANDBY becomes JOINING (R224, R245). -/
def State.resyncChan (s : State) (c : Nat) : State :=
  let s := s.updGch c (·.resync)
  if s.grp.role == .standby then s.setRole .joining else s

/-- Every defined channel resyncs from step 2. -/
def State.resyncAll (s : State) : State := (tkeys s.chans).foldl (fun t c => t.updGch c (·.resync)) s

/-! ## Planned handover (R246) -/

/-- The ranks that are STANDBY, in takeover order after this unit, with a working stay path. -/
def State.standbys (s : State) : List Nat :=
  (takeoverOrder s.grp.rank s.grp.size).filter fun k => (s.peer k).role == 2 && s.reachable k

/-- The diverged mask of a self-demotion (R247, Table 12-8): the channels of its trigger, and those on which the active has been outvoted or
had an event of R72 after their last picture that matched in a vote. -/
def State.divergedMask (s : State) (cs : List Nat) : List Nat :=
  (tkeys s.chans).filter fun c => cs.contains c || (s.gch c).lost || !(s.gch c).events.isEmpty

/-- Starts a planned handover (R246, steps 1 and 2); one already in progress stands (R368). -/
def State.startHandover (s : State) (target : Nat) (diverged : List Nat) (leave : Bool) : State :=
  if s.grp.role != .active || s.grp.handover.isSome then s
  else
    let tH := s.time.nowNs + 5000000
    let s := { s with grp := { s.grp with handover := some { tH := tH, target := target, diverged := diverged, leave := leave } } }
    s.sendAll (.handover tH target diverged)

/-- Self-demotion of an ACTIVE (R248): to the first STANDBY in takeover order; with none it keeps emitting. -/
def State.selfDemote (s : State) (diverged : List Nat) : State :=
  match s.standbys with
  | [] => s
  | k :: _ => s.startHandover k (s.divergedMask diverged) false

/-! ## Resynchronisation as the active plans it (R256, R259) -/

/-- A peer of the active resyncs channel `c`. -/
def State.needed (s : State) (c : Nat) : Bool := s.grp.peers.any fun e => e.2.needs.contains c

/-- A resync of the channel is under way at the active: its pictures of step 4 are not all voted. -/
def GrpChan.inProgress (g : GrpChan) : Bool :=
  g.sC.isSome && match g.rp, g.votedPic with
    | some r, some v => decide (v < r + 3)
    | _, _ => true

/-- The active names s_c for each channel given (R256 step 2): the first picture with t0 at or after now + 2 Tp. -/
def State.planCopies (s : State) (cs : List Nat) : State :=
  let r := cs.foldl (fun (a : State × List (Nat × Nat × Option Nat)) c =>
    match tget a.1.chans c with
    | some ch =>
      let n := ch.picAt (a.1.time.now + 2 * ch.cfg.main.tp)
      (a.1.updGch c fun g => { g with sC := some n, sR := none, rp := none, failedBlocks := [] }, a.2 ++ [(c, ch.index n, none)])
    | none => a) (s, [])
  r.1.sendAll (.rejoinPlan r.2)

/-- The essence, output-watch and repair entries bound to a channel, to the external stream or audio streams that feed it, or to an entry so
bound (R183, Table 12-9). -/
def State.boundFlows (s : State) (c : Nat) (ext audio : List Nat) : List (Nat × FlowArg) :=
  let fs : List (Nat × FlowArg) := s.net.flows.map fun e => (e.1, e.2.arg)
  let bound (a : FlowArg) : Bool :=
    match a.kind, a.essence with
    | 2, _ => a.target == c
    | 1, 1 => ext.contains a.target
    | 1, 2 => audio.contains a.target
    | 1, 3 => audio.contains a.target
    | 1, _ => a.target == c
    | _, _ => false
  let direct := fs.filter fun e => bound e.2
  direct ++ fs.filter fun e => e.2.kind == 4 && direct.any fun d => d.1 == e.2.target

/-- A surface as the copy brings it. -/
def State.surfCopy (s : State) (h : Nat) (f : Surface) : SurfCopy :=
  ⟨h, f.owner, f.kind, f.width, f.height, f.size, (List.range f.size).map fun i => Mem.byte s.mem.hbm (f.addr + i)⟩

/-- A picture of a long-term slot as the copy brings it, with its damage marks (Table 12-9). -/
def Chan.slotCopy (ch : Chan) (n : Nat) : Option SlotCopy :=
  (ch.pic? n).map fun p => { pic := n, num := p.num, poc := p.poc, rows := p.rows.map fun e => (e.1, e.2.fin), damage := p.rows.map fun e => (e.1, e.2.damage) }

/-- The state of Table 12-9 for a channel as it stands. -/
def State.chanCopy (s : State) (c : Nat) (ch : Chan) : ChanCopy :=
  let g := s.gch c
  let t := tgetD s.txc c {}
  let ext := s.ext.filter fun e => e.2.arg.flowA == ch.active.flowA
  let ids := ((tvals ch.active.audio).filterMap fun r => if r.1 = 1 then some r.2.1 else none).dedup
  let audio := s.aud.streams.filter fun e => ids.contains e.1
  let named (h : Nat) : Bool := (tvals ch.layers.front).any (·.surface == h) ||
    ch.layers.flips.any fun f => f.arg.updates.any (·.surface == h)
  { define := ch.cfg, st := ch.st, startTime := ch.startTime, startPic := ch.startPic, stopPic := ch.stopPic, base := ch.base
    nextPic := ch.nextPic, active := ch.active, shadow := ch.shadow, gen := g.gen, genNow := g.genNow, held := g.held
    flows := s.boundFlows c (tkeys ext) ids, ext := ext.map (·.2.arg), audio := audio.map (·.2.arg)
    groups := s.aud.groups.filter fun e => e.2.any fun m => ids.any fun i => m == 256 + i
    surfs := (s.surf.surfs.filter fun e => named e.1).map fun e => s.surfCopy e.1 e.2
    layers := ch.layers, refs := ch.refs, rate := ch.rate, alfFrom := ch.alfFrom, alfRows := ch.alfRows
    nextSeq := t.nextSeq, tsCc := t.tsCc, tsOrigin := t.tsOrigin, slots := (tvals ch.refs.lt).filterMap ch.slotCopy }

/-- Block `b` of a channel's rejoin copy as a message: 0 the state, 1 + slot a long-term slot (R256). -/
def State.copyMsg (s : State) (c b : Nat) : StayMsg :=
  match tget s.chans c with
  | none => .copy c b none none
  | some ch =>
    if b = 0 then .copy c b (some (s.chanCopy c ch)) none
    else .copy c b none ((tget ch.refs.lt (b - 1)).bind ch.slotCopy)

/-- Sends a block of a channel's rejoin copy to the peers that resync it (R256 step 2). -/
def State.sendCopy (s : State) (c b : Nat) : State :=
  (tkeys s.grp.peers).foldl (fun (t : State) k => if (t.peer k).needs.contains c then t.sendTo k (t.copyMsg c b) else t) s

/-- The active captures the state of Table 12-9 at the planning of DU 0 of s_c (R256 step 2). -/
def State.captureCopy (s : State) (c n row : Nat) : State :=
  if s.grp.role == .active && row == 0 && (s.gch c).sC == some n then s.sendCopy c 0 else s

/-- A long-term slot whose picture changes at `n`, after s_c and before step 3, is copied again (R256 step 2). -/
def State.copySlots (s : State) (c n : Nat) (before : Tab Nat) : State :=
  s.onChan c fun ch s =>
    let g := s.gch c
    let open_ : Bool := (match g.sC with | some a => decide (a ≤ n) | none => false) &&
      (match g.sR with | some r => decide (n < r) | none => true)
    if s.grp.role == .active && open_ then
      ((List.range 4).filter fun k => (tget ch.refs.lt k).isSome && tget ch.refs.lt k != tget before k).foldl
        (fun (t : State) k => t.sendCopy c (1 + k)) s
    else s

/-- Plans every channel that a peer resyncs and that is not under way. -/
def State.planNeeded (s : State) : State :=
  if s.grp.role == .active then
    let cs := (tkeys s.chans).filter fun c => s.needed c && !(s.gch c).inProgress
    if cs.isEmpty then s else s.planCopies cs
  else s

/-- Picture `n` lies in a periodic or requested sweep under way or predicted (R256 step 3). -/
def Chan.inPlainSweep (ch : Chan) (n : Nat) : Bool :=
  let f := ch.refs
  let g := ch.active.sweepG
  (match f.sweep with | some w => w.kind != .rejoin && decide (w.first ≤ n) && decide (n < w.first + w.g) | none => false) ||
    (ch.cfg.refs.refreshMode == 2 &&
      ((f.requests.any fun q => decide (q ≤ n) && decide (n < q + g)) ||
        (decide (0 < f.interval) && decide (f.anchor + f.interval ≤ n) && decide ((n - f.anchor) % f.interval < g))))

/-- The first picture from `n` on that may begin a rejoin refresh: outside other sweeps, and a top field when interlaced. -/
def Chan.rejoinStart (ch : Chan) : Nat → Nat → Nat
  | 0, n => n
  | fuel + 1, n =>
    if ch.inPlainSweep n || (ch.cfg.main.format.interlaced && ch.index n % 2 == 1) then Chan.rejoinStart ch fuel (n + 1) else n

/-- s_r and RP of a channel, with its rejoin refresh (R256 step 3, R114). -/
def State.setRefresh (s : State) (c n : Nat) : State :=
  s.onChan c fun ch s =>
    let s := s.updGch c fun g => { g with sR := some n, rp := some (n + ch.cfg.refs.rejoinG - 1), matchRun := 0 }
    s.updChan c fun ch => { ch with refs := { ch.refs with rejoinAt := some n } }

/-- The active names s_r, at least 2 Tp ahead, and tells the members (R256 step 3). -/
def State.nameRefresh (s : State) (c : Nat) : State :=
  s.onChan c fun ch s =>
    let n := ch.rejoinStart 4096 (ch.picAt (s.time.now + 2 * ch.cfg.main.tp))
    (s.setRefresh c n).sendAll (.rejoinPlan [(c, ch.index ((s.gch c).sC.getD n), some (ch.index n))])

/-- A resync of a channel starts step 3 again (R259): the active names a new s_r. -/
def State.restartRefresh (s : State) (c : Nat) : State :=
  let s := s.sticky (Reg.GRP_CHN_STATUS c) 0x20000
  if s.grp.role == .active then s.nameRefresh c
  else s.updGch c fun g => { g with phase := .refresh, matchRun := 0, sR := none, rp := none }

/-! ## Voting (R244, R245) -/

/-- A ballot: rank, role code, whether the sender's picture is clean, and the value reported. -/
structure Ballot where
  rank  : Nat
  role  : Nat
  clean : Bool
  value : BitVec 64 × Word
deriving DecidableEq, Repr

/-- The picture index under which the records name picture `j` of a channel. -/
def State.wirePic (s : State) (c j : Nat) : Nat := match tget s.chans c with | some ch => ch.wire j | none => j

/-- The ballots for picture `j`, from the records of picture `n` = j + L_d, of members whose digests are voted (Table 12-2). -/
def State.ballots (s : State) (c n j : Nat) : List Ballot :=
  let w := s.wirePic c j
  (rangeFrom 1 s.grp.size).filterMap fun k =>
    match tget (s.gch c).pics (n * 4 + k) with
    | some (role, r) =>
      if r.digPic == w && recordRole role && !(r.faults.toNat.testBit 6) then
        some ⟨k, role, r.faults.toNat % 64 == 0, (r.auCrc, r.recCrc)⟩
      else none
    | none => none

/-- How many ballots carry a value. -/
def votesFor (bs : List Ballot) (v : BitVec 64 × Word) : Nat := (bs.filter (·.value == v)).length

/-- The right value of a vote (R244). -/
def rightValue (bs : List Ballot) (active : Nat) : Option (BitVec 64 × Word) :=
  match bs.find? fun b => decide (2 ≤ votesFor bs b.value) &&
      bs.all fun o => o.value == b.value || decide (votesFor bs o.value < votesFor bs b.value) with
  | some b => some b.value
  | none =>
    match bs.find? fun b => b.rank == active && b.clean with
    | some b => some b.value
    | none =>
      match bs.find? (·.clean) with
      | some b => some b.value
      | none => (bs.find? (·.rank == active)).map (·.value)

/-- The member is outvoted on channel `c` at picture `j` (R245). -/
def State.outvoted (s : State) (c : Nat) (bs : List Ballot) (right : BitVec 64 × Word) : State :=
  let s := ((s.bump Reg.GRP_VOTES_LOST).bump (Reg.GRP_CHN_MISMATCHES c)).sticky Reg.GRP_STATUS 0x80000
  let s := (s.sticky (Reg.GRP_CHN_STATUS c) 0x10000).updGch c fun g => { g with lost := true }
  match s.grp.role with
  | .standby => s.resyncChan c
  | .joining => s.resyncChan c
  | .active =>
    match s.standbys.filter fun k => bs.any fun b => b.rank == k && b.value == right with
    | [] => s
    | ks =>
      match ks.foldl (fun (a : Option Nat) k => some (match a with | some m => min m k | none => k)) none with
      | some k => s.startHandover k (s.divergedMask [c]) false
      | none => s
  | _ => s

/-- A match or a difference in the confirm step of a resync (R256 step 4, R259). -/
def State.confirmVote (s : State) (c j : Nat) (matched : Bool) : State :=
  let g := s.gch c
  match g.rp with
  | some rp =>
    if !(g.phase == .refresh || g.phase == .confirm) || decide (j < rp) || decide (rp + 3 < j) then s
    else if matched then
      if g.matchRun + 1 = 4 then
        s.updGch c fun g => { g with phase := .none, inSync := true, matchRun := 4 }
      else s.updGch c fun g => { g with phase := .confirm, matchRun := g.matchRun + 1 }
    else s.restartRefresh c
  | none => s

/-- The active sees that a resyncing peer's digests of a picture from RP to RP + 3 differ: step 3 begins again (R259). -/
def State.peerConfirm (s : State) (c n j : Nat) (right : BitVec 64 × Word) : State :=
  let g := s.gch c
  match g.rp with
  | some rp =>
    if s.grp.role == .active && decide (rp ≤ j) && decide (j ≤ rp + 3) && (s.grp.peers.any fun e =>
        e.2.needs.contains c && match tget g.pics (n * 4 + e.1) with
          | some (_, r) => r.digPic == s.wirePic c j && (r.auCrc, r.recCrc) != right
          | none => false) then s.restartRefresh c
    else s
  | none => s

/-- Ends a resync once every channel is in sync: rejoin_done, STANDBY, joined_seen, GRP_RESYNCS (R256 step 4). -/
def State.finishResync (s : State) : State :=
  if s.grp.role == .joining && (tkeys s.chans).all (fun c => (s.gch c).inSync) &&
      s.grp.chans.all (fun e => e.2.phase == .none && !e.2.refused) then
    let s := s.sendAll (.rejoinDone (tkeys s.chans))
    let s := s.setRole .standby
    (s.sticky Reg.GRP_STATUS 0x200000).bump Reg.GRP_RESYNCS
  else s

/-- The active is outvoted and no STANDBY has the right value (R245): the other members resync the channel. -/
def State.nobodyRight (s : State) (bs : List Ballot) (right : BitVec 64 × Word) : Bool :=
  (s.grp.role == .standby || s.grp.role == .joining) && (bs.any fun b => b.rank == s.grp.activeRank && b.value != right)
    && !(bs.any fun b => b.role == 2 && b.value == right)

/-- The vote of picture `j` of a channel, from the picture records of `n` (R244), once; its result is recorded (R247) and acted
on (R245, R256, R259). -/
def State.vote (s : State) (c n j : Nat) : State :=
  let g := s.gch c
  if (match g.votedPic with | some v => decide (j ≤ v) | none => false) then s
  else
    let bs := s.ballots c n j
    match rightValue bs s.grp.activeRank with
    | none => s
    | some right =>
      let s := (s.updGch c fun g => { g with votedPic := some j }).wr (Reg.GRP_CHN_VOTED_PIC c) (BitVec.ofNat 32 (s.wirePic c j))
      let s := s.peerConfirm c n j right
      match bs.find? (·.rank == s.grp.rank) with
      | some b =>
        if b.value != right then s.outvoted c bs right
        else if s.nobodyRight bs right then s.resyncChan c
        else s.updGch c fun g => { g with lastMatch := some j, lost := false, events := g.events.filter (j < ·) }
      | none =>
        -- a resyncing member's own digests are not ballots, but R256 step 4 compares them with the right value
        match tget g.pics (n * 4 + s.grp.rank) with
        | some (_, r) =>
          if r.digPic == s.wirePic c j then (s.confirmVote c j ((r.auCrc, r.recCrc) == right)).finishResync else s
        | none => s

/-- Member `k`'s channel `c` is in sync as its newest picture record says (faults bit 6, Table 12-5); a member none has come
from is in sync unless it is JOINING. -/
def State.peerInSync (s : State) (c k : Nat) : Bool :=
  match ((s.gch c).pics.filter fun e => e.1 % 4 == k).getLast? with
  | some (_, _, r) => !(r.faults.toNat.testBit 6)
  | none => (s.peer k).role != 3

/-- Every expected record of picture `n` has arrived: from each member with a working stay path whose channel is in sync
(R244). -/
def State.voteReady (s : State) (c n : Nat) : Bool :=
  s.otherRanks.all fun k =>
    !(recordRole (s.peer k).role && s.reachable k && s.peerInSync c k) || thas (s.gch c).pics (n * 4 + k)

/-- Drops group records of pictures before `n`. -/
def GrpChan.prune (g : GrpChan) (n : Nat) : GrpChan :=
  { g with
    rows := tfilter g.rows fun k _ => decide (n ≤ k / 4 / 2 ^ 16)
    pics := tfilter g.pics fun k _ => decide (n ≤ k / 4)
    own := tfilter g.own fun k _ => decide (n ≤ k)
    agreedGaps := tfilter g.agreedGaps fun k _ => decide (n ≤ k)
    digests := tfilter g.digests fun k _ => decide (n ≤ k) }

end Sys2Proof.Machine
end

