-- ==== Sys2Proof/Machine/Refs.lean ====
section
/-!
DEFINITION. References, refresh and regions (chapter 5): the reference structure of a picture (R100 to R107), the refresh
schedule and sweeps (R108 to R114), and the QP of a quantisation group (R116).
-/
namespace Sys2Proof.Machine

/-! ## Sweeps -/

/-- First and end column of the refresh CTUs of sweep picture `j` of `g` with `c` CTUs per row (R110). -/
def refreshCols (c g j : Nat) : Nat × Nat := (j * c / g, (j + 1) * c / g)

/-- The refresh columns of a picture: those of its sweep position, none outside a sweep (R110). -/
def Pic.refreshSpan (p : Pic) (c : Nat) : Nat × Nat :=
  match p.sweepPos with
  | some (j, g) => refreshCols c g j
  | none => (0, 0)

/-- Last picture of a sweep. -/
def Sweep.last (w : Sweep) : Nat := w.first + w.g - 1

/-- The picture lies in the sweep. -/
def Sweep.covers (w : Sweep) (n : Nat) : Bool := decide (w.first ≤ n) && decide (n < w.first + w.g)

/-! ## Reference structure -/

/-- Slots of the scene-anchor rule: the highest-numbered ones (R103). -/
def anchorSlotList (r : DefRefs) : List Nat := rangeFrom (r.ltSlots - r.anchorSlots) r.anchorSlots

/-- The anchor slot a cut takes (R107, item 3): empty before filled, then least recently filled, then lowest. -/
def pickAnchorSlot (d : DefRefs) (f : RefState) : Option Nat :=
  let key (s : Nat) : Nat := if thas f.lt s then 1 + tgetD f.filled s 0 else 0
  (anchorSlotList d).foldl (fun (a : Option Nat) s =>
    match a with
    | none => some s
    | some b => if key s < key b then some s else some b) none

/-- Pending marks that an IDR at picture `n` cancels (R106). -/
def marksCancelledBy (marks : Tab Nat) (n : Nat) : Tab Nat := tfilter marks fun _ m => m + 1 == n || m + 2 == n

/-- The effect of an IDR picture `n` on the references (R105, R106, R109). -/
def RefState.idr (f : RefState) (n : Nat) : RefState :=
  { f with
    st := [], lt := []
    marks := tfilter f.marks fun _ m => !(m + 1 == n || m + 2 == n)
    anchors := tfilter f.anchors fun m _ => !(m + 1 == n || m + 2 == n)
    releases := tfilter f.releases fun _ q => decide (n < q)
    lastIdr := n }

/-- What the reference structure of a picture did, for the counts of R118. -/
structure RefNews where
  cancelled : Nat := 0
  anchors   : Nat := 0
  released  : Bool := false
deriving DecidableEq, Repr

/-- Puts picture `m` in slot `k`, releasing what the slot held (R103). -/
def RefState.convert (f : RefState) (k m n : Nat) : RefState :=
  { f with lt := tset f.lt k m, st := f.st.filter (· != m), filled := tset f.filled k n }

/-- The reference structure of picture `n` that is not an IDR (R101, R103, R105, R107): accepted releases, then the
recovery-point release of a sweep of the host or the schedule, then conversions of marks and anchors due at `n`.
`isRepeat m` says that picture `m` was a repeat picture. -/
def RefState.form (f : RefState) (n : Nat) (isRepeat : Nat → Bool) : RefState × RefNews :=
  let due := tfilter f.releases fun _ q => decide (q ≤ n)
  let f := { f with lt := tfilter f.lt fun k _ => !(thas due k), releases := tfilter f.releases fun _ q => decide (n < q) }
  let rp : Option Nat :=
    match f.sweep with
    | some w => if w.last == n && w.kind != .rejoin then some w.first else none
    | none => none
  let dropped := match rp with
    | some first => f.lt.any fun e => decide (e.2 < first)
    | none => false
  let f := match rp with
    | some first => { f with lt := tfilter f.lt fun _ m => decide (first ≤ m) }
    | none => f
  let marks := tfilter f.marks fun _ m => m + 2 == n
  let replaced := marks.any fun e => thas f.lt e.1
  let f := marks.foldl (fun g e => g.convert e.1 e.2 n) { f with marks := tfilter f.marks fun _ m => m + 2 != n }
  let anchors := tfilter f.anchors fun m _ => m + 2 == n
  let f := { f with anchors := tfilter f.anchors fun m _ => m + 2 != n }
  let taken := anchors.filter fun e => !(isRepeat e.1) && !(marks.any fun k => k.2 == e.1)
  let replacedA := taken.any fun e => thas f.lt e.2
  let f := taken.foldl (fun g e => g.convert e.2 e.1 n) f
  (f, { anchors := taken.length, released := dropped || replaced || replacedA })

/-- The reference lists of a picture (R101): the short-term set, most recent first, then the long-term references in ascending
slot number. -/
def RefState.lists (f : RefState) (stRefs : Nat) : List Nat := f.st.take stRefs ++ tvals f.lt

/-! ## Refresh schedule (R108) -/

/-- What a boundary finds due. -/
inductive Refresh where
  | none
  | idr
  | sweep (k : SweepKind) (g : Nat)
deriving DecidableEq, Repr

/-- A rejoin refresh is in progress at picture `n`. -/
def RefState.inRejoin (f : RefState) (n : Nat) : Bool :=
  match f.sweep with
  | some w => w.kind == .rejoin && w.covers n
  | none => false

/-- A sweep of any kind is in progress at picture `n`. -/
def RefState.inSweep (f : RefState) (n : Nat) : Bool :=
  match f.sweep with
  | some w => w.covers n
  | none => false

/-- The refresh due at picture `n` (R108, R112, R114). `field` says that a refresh may begin on it (not a bottom field);
`changed` says that the interval in force changed at this boundary. -/
def RefState.due (f : RefState) (mode g rejoinG n : Nat) (field changed : Bool) : Refresh :=
  if f.rejoinAt == some n then .sweep .rejoin rejoinG
  else
    match f.restart with
    | some .rejoin => if field then .sweep .rejoin rejoinG else .none
    | some k => if field then .sweep k g else .none
    | none =>
      if f.inRejoin n || !field then .none
      else
        let req := f.requests.any fun q => decide (q ≤ n)
        let per := mode != 0 && !changed && decide (f.anchor + f.interval ≤ n)
        if req then (if mode == 2 then .sweep .requested g else .idr)
        else if per then (if mode == 2 then .sweep .periodic g else .idr)
        else .none

/-- The schedule after a refresh has begun at picture `n`. -/
def RefState.began (f : RefState) (r : Refresh) (n : Nat) : RefState :=
  match r with
  | .none => f
  | .idr => { f with requests := f.requests.filter fun q => decide (n < q), restart := none, anchor := n, sweep := none }
  | .sweep .rejoin g => { f with rejoinAt := none, restart := none, sweep := some ⟨n, g, .rejoin, false⟩ }
  | .sweep k g =>
    { f with
      requests := f.requests.filter fun q => decide (n < q)
      restart := none, anchor := n, sweep := some ⟨n, g, k, false⟩ }

/-- The sweep position of picture `n`. -/
def RefState.pos (f : RefState) (n : Nat) : Option (Nat × Nat) :=
  match f.sweep with
  | some w => if w.covers n then some (n - w.first, w.g) else none
  | none => none

/-- A sweep whose last picture lies before `n` closes: its result is known once that picture has been coded (R112). -/
def RefState.close (f : RefState) (n : Nat) : RefState :=
  match f.sweep with
  | some w => if w.first + w.g ≤ n then { f with sweep := none, closing := some w } else f
  | none => f

/-- The counts of an abandoned sweep (R112). -/
def State.sweepFailCount (s : State) (c : Nat) : State :=
  (s.bump (Reg.REF_SWEEPS_FAILED c)).sticky (Reg.REF_STATUS c) 0x400

/-- The job of a row has ended (R85): encoded, abandoned at its deadline or never encoded. -/
def Row.jobOver (r : Row) : Bool := r.job == .ended || r.job == .abandoned

/-- Picture `n` has been coded: the job of every row is over. -/
def Chan.coded (ch : Chan) (n : Nat) : Bool :=
  match ch.pic? n with
  | some p => (List.range ch.cfg.main.rows).all fun r => (p.row r).jobOver
  | none => true

/-- The sweep that covers picture `n` and is not complete: the one in progress, or the one whose last picture is still in coding. -/
def RefState.sweepOf (f : RefState) (n : Nat) : Option Sweep :=
  match f.sweep with
  | some w => if w.covers n then some w else f.closing.filter (·.covers n)
  | none => f.closing.filter (·.covers n)

/-- A sweep is abandoned once picture `n` has been coded (R112): it counts, and a new one begins at the next picture. DESIGN CHOICE (log
entry 87): the next picture is the first whose DU 0 has not been planned; a picture already in coding keeps the columns it has. -/
def State.sweepAbandon (s : State) (c n : Nat) (w : Sweep) : State :=
  let s := s.sweepFailCount c
  let s := s.updChan c fun ch => { ch with refs := { ch.refs with sweep := none, closing := none, restart := some w.kind } }
  let s := if w.kind == .rejoin then s.sticky (Reg.GRP_CHN_STATUS c) 0x20000 else s
  s.onChan c fun ch s =>
    match ch.pic? (n + 1) with
    | some p =>
      if p.planned || (ch.cfg.main.format.interlaced && p.num % 2 == 1) then s
      else
        let g := if w.kind == .rejoin then ch.cfg.refs.rejoinG else ch.active.sweepG
        s.updChan c fun ch =>
          let f := ch.refs.began (.sweep w.kind g) (n + 1)
          ({ ch with refs := f } : Chan).updPic (n + 1) fun (p : Pic) =>
            { p with
              sweepPos := some (0, g), clean := (refreshCols ch.cfg.main.ctus g 0).2, rejoin := w.kind == .rejoin
              kind := if w.kind == .rejoin || p.kind == .idr then p.kind else .recovery }
    | none => s

/-- A refresh CTU of picture `n` was not refreshed: its sweep has failed, and is abandoned at the end of the picture (R112). -/
def State.sweepMissed (s : State) (c n : Nat) : State :=
  s.onChan c fun ch s =>
    match ch.refs.sweepOf n with
    | none => s
    | some w =>
      if ch.coded n then s.sweepAbandon c n w
      else
        let fail (v : Sweep) : Sweep := if v.covers n then { v with failed := true } else v
        s.updChan c fun ch => { ch with refs := { ch.refs with sweep := ch.refs.sweep.map fail, closing := ch.refs.closing.map fail } }

/-- The job of a row of picture `n` is over: with the last one, a sweep that has failed is abandoned (R112). -/
def State.sweepEnd (s : State) (c n : Nat) : State :=
  s.onChan c fun ch s =>
    match ch.refs.sweepOf n with
    | some w => if w.failed && ch.coded n then s.sweepAbandon c n w else s
    | none => s

/-- The last picture of a sweep has been coded with every refresh CTU intra: the sweep is complete (R112). -/
def State.sweepDone (s : State) (c n : Nat) : State :=
  s.onChan c fun ch s =>
    let fin (s : State) : State := (s.bump (Reg.REF_SWEEPS_DONE c)).sticky (Reg.REF_STATUS c) 0x200
    match ch.refs.closing with
    | some w =>
      if w.last == n && !w.failed then fin (s.updChan c fun ch => { ch with refs := { ch.refs with closing := none } }) else s
    | none =>
      match ch.refs.sweep with
      | some w =>
        if w.last == n && !w.failed then fin (s.updChan c fun ch => { ch with refs := { ch.refs with sweep := none } }) else s
      | none => s

/-! ## Regions of interest (R115 to R117) -/

/-- A rectangle covers some sample of the 32 × 32 group at luma position (x, y). -/
def rectHits (x0 y0 : Int) (w h : Nat) (x y : Int) : Bool :=
  decide (x0 < x + 32) && decide (x < x0 + w) && decide (y0 < y + 32) && decide (y < y0 + h)

/-- Reef columns of Table 4-4: outside regions, regions with an offset, quality-floor regions. -/
def reefTable : Nat → Int × Int × Int
  | 0 => (0, 0, 0)
  | 1 => (2, 0, 0)
  | 2 => (4, 0, 0)
  | 3 => (6, 2, 0)
  | 4 => (9, 4, 3)
  | _ => (12, 6, 6)

/-- Highest QP of a codec (R76). -/
def qpTop (codec : Nat) : Int := if codec = 0 then 51 else 63

/-- The protected layer is in force at picture `n` (R117, R148, R149). -/
def Protected.inForce (p : Protected) (n : Nat) : Bool :=
  !p.dropped &&
    (match p.from_ with | some f => decide (f ≤ n) | none => false) &&
    (match p.remove with | some (some r, _) => decide (n < r) | _ => true)

/-- The protected-layer region is in force at picture `n` (R117): from the first picture on which the layer is composed; `composes` says
that picture `n` is composed. -/
def Protected.region (p : Protected) (n : Nat) (composes : Bool) : Bool :=
  p.inForce n && (composes || (match p.shown with | some k => decide (k ≤ n) | none => false))

/-- The lines of a picture that a rectangle's frame lines cover: first line and number (R115, R117, R134); a field has every second frame
line, from the first in a top field. -/
def fieldLines (interlaced : Bool) (odd y0 : Int) (h : Nat) : Int × Nat :=
  if interlaced then
    let a := -(fdiv (-(y0 - odd)) 2)
    let b := fdiv (y0 + h - 1 - odd) 2
    (a, (b - a + 1).toNat)
  else (y0, h)

/-- The QP of the quantisation group at luma position (x, y) in a DU of picture `n` that is neither guarded nor latched
(R116). -/
def Chan.groupQp (ch : Chan) (n : Nat) (p : Pic) (rowQp : Int) (level : Nat) (x y : Nat) : Int :=
  let regs := (tvals p.cfg.rois).filter fun g => rectHits g.x0 g.y0 g.width g.height x y
  let off := regs.find? (·.kind == 0)
  let t := reefTable level
  let q := rowQp + (match off with | some g => g.value | none => 0)
  let q := q + (match off with | some _ => t.2.1 | none => t.1)
  let floors := (regs.filter (·.kind == 1)).map (·.value)
  let q := match floors with
    | [] => q
    | a :: r => min q (r.foldl min a + t.2.2)
  let q := match p.prot with
    | some l =>
      let v := fieldLines ch.cfg.main.format.interlaced ((ch.index n % 2 : Nat) : Int) l.y0 l.height
      if l.region n (!p.isRepeat) && rectHits l.x0 v.1 l.width v.2 x y then min q p.cfg.protectedFloor else q
    | none => q
  min (max q (-6 * ((ch.cfg.main.codedDepth : Int) - 8))) (qpTop ch.cfg.main.codec)

end Sys2Proof.Machine
end

