-- ==== Sys2Proof/Machine/Rate.lean ====
section
/-!
DEFINITION. Rate control (chapter 4): sub-tick time and drain (R83, R95), the planning ledger with caps and the latch (R85, R92),
picture and row targets (R87, R88), row QP (R89), reef levels (R90), and the actual ledger with filler (R84).
-/
namespace Sys2Proof.Machine

/-- A decoding unit: picture and row. -/
abbrev DuId := Nat × Nat

/-! ## Time of entries (R83, R95) -/

/-- The origin that a picture counts from, with the drain up to its DU 0. -/
def Chan.originOf (ch : Chan) (n : Nat) : Nat × Nat := (ch.rate.origins.find? (·.1 ≤ n)).getD (0, 0)

/-- Sub-tick of a DU's entry, counted from its origin. -/
def Chan.subTick (ch : Chan) (d : DuId) : Nat := 135 * (d.1 - (ch.originOf d.1).1) + d.2 * ch.cfg.main.sRow

/-- cum of a DU's entry (R83). -/
def Chan.cumAt (ch : Chan) (d : DuId) : Nat := cumBits ch.cfg.rate.bitRate ch.cfg.main.tp (ch.subTick d)

/-- The drain between the entries of two DUs (R83); into the first DU after an accepted step, the drain of the physical interval
(R95). -/
def Chan.drain (ch : Chan) (a b : DuId) : Nat :=
  let o := ch.originOf b.1
  if a.1 < o.1 then o.2 + ch.cumAt b else ch.cumAt b - ch.cumAt a

/-- The DU that follows in decoding order among the pictures held. -/
def Chan.nextDu (ch : Chan) (d : DuId) : Option DuId :=
  if d.2 + 1 < ch.cfg.main.rows then some (d.1, d.2 + 1)
  else
    match (tkeys ch.pics).find? (d.1 < ·) with
    | some m => some (m, 0)
    | none => none

/-- The row of a DU. -/
def Chan.duRow (ch : Chan) (d : DuId) : Row :=
  match ch.pic? d.1 with
  | some p => p.row d.2
  | none => {}

/-- x-hat of a final DU (R85): no less than β; an abandoned one counts at β; while the channel resyncs, the size the active
reports (R258). -/
def Chan.xhat (ch : Chan) (d : DuId) : Nat :=
  let r := ch.duRow d
  let b := ch.cfg.main.beta d.2
  match r.told with
  | some v => max v b
  | none => if r.job == .abandoned then b else max r.size b

/-- Size of a DU as released. -/
def Row.released (r : Row) : Nat := if r.substituted || r.sent then r.txBits else r.size

/-- A DU counts as final when DU (n, r) is planned: it lies at least `lag` DUs before it in decoding order. The spec makes the
count depend on place alone in a fault-free device (R85, R45, R46), so that every unit plans alike. -/
def isBefore (rows lag : Nat) (d e : DuId) : Bool := decide (d.1 * rows + d.2 + lag ≤ e.1 * rows + e.2)

/-! ## Final DUs -/

/-- A row's weight source joins the earlier ones, of which four are kept: one that is substituted after all gives way to the one
before it (R88). -/
def addWeight (t : Tab (List (Nat × Nat × Int))) (d : DuId) (x : Nat) (qp : Int) : Tab (List (Nat × Nat × Int)) :=
  tset t d.2 (((d.1, x, qp) :: tgetD t d.2 []).take 4)

/-- A substituted row is no weight source: its earlier weight stands (R88). -/
def Chan.dropWeight (ch : Chan) (d : DuId) : Chan :=
  let drop (t : Tab (List (Nat × Nat × Int))) := tset t d.2 ((tgetD t d.2 []).filter fun e => e.1 != d.1)
  { ch with rate := { ch.rate with wIdr := drop ch.rate.wIdr, wOther := drop ch.rate.wOther } }

/-- One DU becomes final in the planning ledger (R85): the backlog after its entry, its weight (R88) and the IDR sum (R87). DESIGN CHOICE
(log entry 90): while DUs of the latest IDR picture are not final yet, the sum of the IDR picture before it stands. -/
def Chan.advanceFin (ch : Chan) (d : DuId) : Chan :=
  let q := ch.rate
  let x := ch.xhat d
  let row := ch.duRow d
  let floor := if ch.cfg.rate.rcMode = 0 then 8 else 0
  let w := match q.lastFin with
    | none => x
    | some a => max (q.wFin - ch.drain a d) floor + x
  let p := (ch.pic? d.1).getD {}
  let idr := p.kind == .idr
  let source := !p.isRepeat && !row.latched && !row.substituted && row.job == .ended
  let sum := (if d.2 = 0 then 0 else q.idrSum) + x
  { ch with
    rate := { q with
      wFin := w, lastFin := some d
      wIdr := if source && idr then addWeight q.wIdr d x row.qp else q.wIdr
      wOther := if source && !idr then addWeight q.wOther d x row.qp else q.wOther
      idrSum := if idr then sum else q.idrSum
      idrSize := if idr && d.2 + 1 == ch.cfg.main.rows then some sum else q.idrSize } }

/-- The DU whose finality is examined next. -/
def Chan.finCandidate (ch : Chan) : Option DuId :=
  match ch.rate.lastFin with
  | some d => ch.nextDu d
  | none =>
    match ch.pics with
    | [] => none
    | (n, _) :: _ => some (n, 0)

/-- Advances the final DUs, at most `fuel` of them, up to those `lag` before `e` whose jobs are over. -/
def Chan.advanceTo : Nat → Chan → Nat → DuId → Chan
  | 0, ch, _, _ => ch
  | fuel + 1, ch, lag, e =>
    match ch.finCandidate with
    | none => ch
    | some d =>
      if isBefore ch.cfg.main.rows lag d e && (ch.duRow d).jobOver then Chan.advanceTo fuel (ch.advanceFin d) lag e else ch

/-- The DUs in flight when `e` is planned: from the newest final DU up to the one before `e`, oldest first. -/
def Chan.inFlight : Nat → Chan → Option DuId → DuId → List DuId
  | 0, _, _, _ => []
  | fuel + 1, ch, d?, e =>
    match d? with
    | none => []
    | some d => if isBefore ch.cfg.main.rows 1 d e then d :: Chan.inFlight fuel ch (ch.nextDu d) e else []

/-! ## The planning ledger (R85) -/

/-- Backlog in the planning ledger just before the entry of `e`; 0 at the channel's first DU. DESIGN CHOICE (log entry 88): a DU in
flight whose job has not started, which only a stall leaves behind, has no cap yet and counts at 0. -/
def Chan.planBacklog (ch : Chan) (fly : List DuId) (e : DuId) : Nat :=
  let floor := if ch.cfg.rate.rcMode = 0 then 8 else 0
  let r := fly.foldl (fun (a : Option DuId × Nat) i =>
    let w := match a.1 with
      | none => 0
      | some prev => max (a.2 - ch.drain prev i) floor
    (some i, w + (ch.duRow i).cap)) (ch.rate.lastFin, ch.rate.wFin)
  match r.1 with
  | none => 0
  | some prev => max (r.2 - ch.drain prev e) floor

/-- A DU counts as final in the planning of a picture's later DUs. -/
def Chan.isFin (ch : Chan) (d : DuId) : Bool :=
  match ch.rate.lastFin with
  | some f => decide (d.1 < f.1) || (d.1 == f.1 && decide (d.2 ≤ f.2))
  | none => false

/-- spent(n, r) (R85): x-hat of final DUs and caps of in-flight DUs of the picture before row `r`. -/
def Chan.spent (ch : Chan) (n r : Nat) : Nat :=
  sumNat ((List.range r).map fun i => if ch.isFin (n, i) then ch.xhat (n, i) else (ch.duRow (n, i)).cap)

/-- spent_t (R88): x-hat of final DUs and targets of in-flight DUs of the picture before row `r`. -/
def Chan.spentT (ch : Chan) (n r : Nat) : Nat :=
  sumNat ((List.range r).map fun i => if ch.isFin (n, i) then ch.xhat (n, i) else (ch.duRow (n, i)).tau)

/-- O(n, r) (R90): the sum of x-hat − τ over the final DUs of the picture before row `r`. -/
def Chan.overspend (ch : Chan) (n r : Nat) : Int :=
  sumInt ((List.range r).map fun i =>
    if ch.isFin (n, i) then (ch.xhat (n, i) : Int) - ((ch.duRow (n, i)).tau : Int) else 0)

/-! ## Targets (R87, R88, R89) -/

/-- iota (R87). -/
def Chan.iota (ch : Chan) : Nat :=
  match ch.rate.idrSize with
  | some t => t / ch.cfg.main.picCtus
  | none => 2 * ch.cfg.rate.target * ch.cfg.main.tp / Config.ticksPerSec / ch.cfg.main.picCtus

/-- Columns of row `r` of picture `p` counted in n_intra (R87): every CTU of an IDR picture, the refresh CTUs, and the CTUs
whose co-located CTU at index 0 of list 0 is damaged. -/
def Chan.intraCols (ch : Chan) (p : Pic) (r : Nat) : List Nat :=
  let c := ch.cfg.main.ctus
  if p.kind == .idr then List.range c
  else
    let span := p.refreshSpan c
    let dmg := match p.refs with
      | [] => []
      | a :: _ => (ch.duRow (a, r)).damage
    (List.range c).filter fun x => (decide (span.1 ≤ x) && decide (x < span.2)) || dmg.contains x

/-- T_pic and B_pic at DU 0 (R87), from the planning ledger's headroom `h0`. -/
def Chan.picTargets (ch : Chan) (cfg : RunCfg) (h0 : Int) (nIntra : Nat) : Int × Int :=
  let q := ch.cfg.rate
  let m := ch.cfg.main
  let perPic : Int := bitsIn q.bitRate m.tp
  let base : Int :=
    if q.rcMode = 0 then perPic + fdiv (h0 - ((q.fMax + m.pBp) / 2 : Nat)) 8
    else (bitsIn q.avgRate m.tp : Int) + fdiv ch.rate.v (max 1 q.avgWindow)
  let t := base + ((min (nIntra * ch.iota) (bitsIn q.target m.tp / 2) : Nat) : Int)
  let t := max t (m.pBp : Int)
  let b := min (max (fdiv (t * cfg.overshoot) 16) (m.pBp : Int)) (h0 + perPic - m.pBp)
  (t, b)

/-- Weight and slice QP of the source of row `r` for a picture of one kind (R88, R89); none before any history. -/
def Chan.weightSource (ch : Chan) (idr : Bool) (r : Nat) : Option (Nat × Int) :=
  ((if idr then tgetD ch.rate.wIdr r [] else tgetD ch.rate.wOther r []).head?).map (·.2)

/-- wt(r) (R88). -/
def Chan.weight (ch : Chan) (p : Pic) (r : Nat) : Nat :=
  match ch.weightSource (p.kind == .idr) r with
  | some (w, _) => w + ch.iota * (p.row r).intra.length
  | none => 1

/-- tau(n, r) (R88). -/
def Chan.rowTarget (ch : Chan) (n : Nat) (p : Pic) (tPic : Int) (r : Nat) : Nat :=
  let wr := ch.weight p r
  let sum := sumNat ((rangeFrom r (ch.cfg.main.rows - r)).map fun j => ch.weight p j)
  max (ch.cfg.main.beta r) (fdiv ((tPic - (ch.spentT n r : Int)) * (wr : Int)) (max 1 sum)).toNat

/-- Thresholds of Table 4-3. -/
def qpThresholds : List Nat :=
  [34716, 38968, 43740, 49097, 55109, 61858, 69433, 77936, 87480, 98193, 110218, 123715]

/-- Row QP (R89). -/
def Chan.rowQp (ch : Chan) (p : Pic) (r tau : Nat) : Int :=
  match ch.weightSource (p.kind == .idr) r with
  | none => ch.cfg.rate.initQp
  | some (_, qw) =>
    let rho := 65536 * ch.weight p r / max 1 tau
    let delta : Int := ((qpThresholds.filter (· ≤ rho)).length : Int) - 6
    clampI (qw + delta) p.cfg.qpMin p.cfg.qpMax

/-- Reef level of DU (n, r) (R90): the levels reached, never below that of the DU before in the picture. -/
def reefLevel (o margin : Int) (prev : Nat) : Nat :=
  let n := ((rangeFrom 1 5).filter fun i => decide (0 < o) && decide (-(fdiv (-((i : Int) * margin)) 5) ≤ o)).length
  max prev n

/-! ## One planning -/

/-- What the planning of a DU decides. -/
structure Plan where
  cap     : Nat
  tau     : Nat
  wt      : Nat
  qp      : Int
  reef    : Nat
  latched : Bool
  tPic    : Int
  bPic    : Int
deriving DecidableEq, Repr

/-- Plans DU (n, r) of picture `p` (R85 to R92) on a channel whose final DUs have been advanced. A repeat picture without a
refresh is latched from DU 0 (R95, R113). DESIGN CHOICE (log entry 89): where the row of DU 0 lies on a failed engine, no job of DU 0
starts; T_pic and B_pic are then set, and the reef level begins at 0, at the first DU of the picture that is planned, with that DU's h
and the n_intra counted so far. -/
def Chan.plan (ch : Chan) (n r : Nat) (p : Pic) : Plan :=
  let m := ch.cfg.main
  let fly := ch.inFlight (4 * m.rows + 4) ch.finCandidate (n, r)
  let w := ch.planBacklog fly (n, r)
  let h : Int := (ch.cfg.rate.fMax : Int) - w
  let nIntra := sumNat ((List.range m.rows).map fun i => (p.row i).intra.length)
  let tb := if r = 0 || !p.planned then ch.picTargets p.cfg h nIntra else (p.tPic, p.bPic)
  let base : Int := ((m.beta r + m.qRest r : Nat) : Int)
  let eBuf := h - base
  let ePic := tb.2 - (ch.spent n r : Int) - base
  let repeatOnly := p.isRepeat && p.sweepPos.isNone && p.kind != .idr
  let lat := p.latched || repeatOnly || decide (ePic < ((32 * m.ctus : Nat) : Int)) || decide (eBuf < 0)
  let cap := if lat then m.beta r else m.beta r + (fdiv (min eBuf ePic) ch.k).toNat
  let tau := ch.rowTarget n p tb.1 r
  let reef := reefLevel (ch.overspend n r) (tb.2 - tb.1) (if p.planned then ch.rate.reef else 0)
  { cap := cap, tau := tau, wt := ch.weight p r, qp := ch.rowQp p r tau, reef := reef, latched := lat, tPic := tb.1, bPic := tb.2 }

/-- The VBR surplus takes in the AU of a picture (R87). DESIGN CHOICE (log entry 91): the clamp holds the running sum at each AU. -/
def Chan.surplus (ch : Chan) (size : Nat) : Chan :=
  let q := ch.cfg.rate
  let lim : Int := ((q.avgRate * q.avgWindow * ch.cfg.main.tp / Config.ticksPerSec : Nat) : Int)
  { ch with rate := { ch.rate with
      v := clampI (ch.rate.v + (bitsIn q.avgRate ch.cfg.main.tp : Int) - size) (-lim) lim } }

/-- Size of a picture's AU as released. -/
def Pic.auSize (p : Pic) : Nat := sumNat (p.rows.map fun e => e.2.released)

/-! ## The actual ledger (R84) -/

/-- What the actual ledger finds at a DU's entry: backlog after it, size with filler, filler bytes above the minimum, whether
the DU was over f_max, and H_act − x. -/
structure Entry where
  w      : Nat
  x      : Nat
  filler : Nat
  alarm  : Bool
  left   : Int
deriving DecidableEq, Repr

/-- The actual ledger at the entry of `e` (R84); `next` is the DU that follows at its actual instant, none before a stop. -/
def Chan.enter (ch : Chan) (e : DuId) (x : Nat) (next : Option DuId) : Entry :=
  let w := match ch.rate.last with
    | none => 0
    | some a => ch.rate.w - ch.drain a e
  let f := ch.cfg.rate.fMax
  let fill := match next with
    | some d => if ch.cfg.rate.rcMode = 0 then cdiv (ch.drain e d - (w + x)) 8 else 0
    | none => 0
  let x' := x + 8 * fill
  { w := w + x', x := x', filler := fill, alarm := decide (f < w + x), left := (f : Int) - w - x' }

end Sys2Proof.Machine
end

