-- ==== Sys2Proof/Machine/Coding.lean ====
section
/-!
DEFINITION. What an engine may code and what the stream declares (chapters 3 to 5): tools and effort tiers (R55, R58, R73), motion and
intra search (R56, R57, R70, R111), residues (R64), the bare-pole generator (R67 to R69), digests of rows (R120), parameter sets
(R52, R55, R80, R100, R151), slice headers (R50, R51, R101, R102), and the NAL units of an AU (R53, R54, R63, R80, R110).
-/
namespace Sys2Proof.Machine

/-! ## Tools by codec, tier and behaviour level (Tables 3-1, 3-2, 3-8) -/

end Sys2Proof.Machine

namespace Sys2Proof

/-- The codec a tool belongs to, and the lowest tier that tries it. -/
def Tool.rule : Tool → Nat × Nat
  | .nxn => (0, 2)
  | .amp => (0, 1)
  | .mip => (1, 1)
  | .mrl => (1, 1)
  | .isp => (1, 2)
  | .mts => (1, 2)
  | .affine => (1, 1)
  | .mmvd => (1, 1)
  | .bcw => (1, 2)
  | .ciip => (1, 2)
  | .gpm => (1, 2)

end Sys2Proof

namespace Sys2Proof.Machine

/-- The engine may use a tool: its codec has it, the tier tries it, and GPM needs behaviour level 2 (R58, R73). -/
def toolOk (codec tier level : Nat) (t : Tool) : Bool :=
  t.rule.1 == codec && decide (t.rule.2 ≤ tier) && (t != .gpm || decide (2 ≤ level))

/-! ## Search (R56 to R58, R70, R111) -/

/-- Search ranges of Table 3-4: decimated stage horizontally and vertically, full-pel refinement. -/
def searchRange (f : FormatArg) : Nat × Nat × Nat :=
  if f.size = 0 then (1024, 512, 64) else if f.size = 1 then (512, 256, 32)
  else if f.interlaced then (256, 64, 16) else (256, 128, 16)

/-- Vertical reach V (Table 3-4): the decimated vertical range, the refinement and 8 lines of interpolation margin. -/
def reachV (f : FormatArg) : Nat := (searchRange f).2.1 + (searchRange f).2.2 + 8

end Sys2Proof.Machine

namespace Sys2Proof

/-- Lines of a picture as coded: whole smallest CUs. DEDUCED (log entry 82): the standards code whole CUs of 8 lines. -/
def DefMain.codedLines (m : DefMain) : Nat := roundUp m.format.lines 8

end Sys2Proof

namespace Sys2Proof.Machine

/-- What motion search sees of one entry of the reference list: its clean columns for the picture being coded, all of them outside a
sweep (R111), and its damaged CTUs as row and column (R70). -/
structure RefArea where
  clean  : Nat
  damage : List (Nat × Nat)
deriving DecidableEq, Repr

/-- What bounds the coding of one CTU. -/
structure CodeEnv where
  m     : DefMain
  tier  : Nat
  level : Nat
  row   : Nat
  col   : Nat
  /-- Only intra CUs: an I slice, or a refresh CTU (R50, R110). -/
  intraOnly : Bool
  /-- The CTU lies in the clean area of a picture in a sweep (R111). -/
  cleanHere : Bool
  refs  : List RefArea
deriving DecidableEq, Repr

/-- CTU numbers that samples `a` to `b - 1` of one dimension touch, the edge repeating, among `n` CTUs. -/
def ctusOf (ctu n : Nat) (a b : Int) : List Nat :=
  let lo := (fdiv (max a 0) ctu).toNat
  let hi := (fdiv (max (b - 1) 0) ctu).toNat
  rangeFrom (min lo (n - 1)) (min hi (n - 1) + 1 - min lo (n - 1))

/-- A motion candidate may be visited: entry `ref` and vector (dx, dy) in 1/16 sample for the block of w × h at (x, y) of the picture.
The prediction block lies at most one CTU outside the picture (R56); it touches no damaged CTU, the interpolation margin included
(R70); and for a CTU in the clean area it lies within the reference's, less 8 or 16 samples at its right edge (R111). DEDUCED (log
entry 83): the margin of 8 samples belongs to a fractional component, and a reference that is clean as a whole has no clean boundary
to shrink from. -/
def CodeEnv.permits (e : CodeEnv) (x y w h ref : Nat) (dx dy : Int) : Bool :=
  match e.refs[ref]? with
  | none => false
  | some a =>
    let ctu : Int := e.m.ctuSize
    let x0 := (x : Int) + fdiv dx 16
    let x1 := (x : Int) + w - fdiv (-dx) 16
    let y0 := (y : Int) + fdiv dy 16
    let y1 := (y : Int) + h - fdiv (-dy) 16
    let mx : Int := if dx % 16 = 0 then 0 else 8
    let my : Int := if dy % 16 = 0 then 0 else 8
    let inside := decide (-ctu ≤ x0) && decide (x1 ≤ e.m.format.width + ctu) && decide (-ctu ≤ y0) && decide (y1 ≤ e.m.format.lines + ctu)
    let cols := ctusOf e.m.ctuSize e.m.ctus (x0 - mx) (x1 + mx)
    let rows := ctusOf e.m.ctuSize e.m.rows (y0 - my) (y1 + my)
    let shrink : Int := if e.m.codec = 0 then 8 else 16
    inside && !(a.damage.any fun d => rows.contains d.1 && cols.contains d.2)
      && (!e.cleanHere || a.clean == e.m.ctus || decide (x1 + mx ≤ a.clean * ctu - shrink))

/-- Inserts an entry by rising cost, behind those of equal cost. -/
def insertBy {α : Type} (cost : α → Nat) (a : α) : List α → List α
  | [] => [a]
  | b :: r => if cost a < cost b then a :: b :: r else b :: insertBy cost a r

/-- The `n` entries of least cost, earlier ones first among equals. -/
def bestBy {α : Type} (cost : α → Nat) (n : Nat) (l : List α) : List α := (l.foldl (fun t a => insertBy cost a t) []).take n

/-- The Walsh-Hadamard transform of a vector whose length is a power of two, by halves. -/
def hadamard : Nat → List Int → List Int
  | 0, l => l
  | k + 1, l =>
    if l.length ≤ 1 then l
    else
      let a := l.take (l.length / 2)
      let b := l.drop (l.length / 2)
      hadamard k (List.zipWith (· + ·) a b) ++ hadamard k (List.zipWith (· - ·) a b)

/-- The Hadamard cost of a residual block (R57): the sum of the magnitudes of its two-dimensional transform. -/
def hadamardCost (b : List (List Int)) : Nat :=
  let rows := b.map (hadamard 7)
  sumNat ((List.range ((b.headD []).length)).map fun i =>
    sumNat ((hadamard 7 (rows.map fun l => l.getD i 0)).map Int.natAbs))

/-- Candidates that full-pel and sub-pel refinement take, intra modes passed, and full RD decisions (Table 3-5). -/
structure Quota where
  full  : Nat
  sub   : Nat
  intra : Nat
  rd    : Nat
deriving DecidableEq, Repr

/-- Table 3-5, with Table 3-8's number of RD decisions at Tier 2. -/
def quotaOf (tier level : Nat) : Quota :=
  match tier with
  | 0 => ⟨2, 1, 2, 3⟩
  | 1 => ⟨4, 2, 2, 3⟩
  | _ => ⟨4, 2, 4, if level = 1 then 6 else 8⟩

/-- A magnitude bound. -/
def within (v : Int) (n : Nat) : Bool := decide (v.natAbs ≤ n)

/-- Every tool of a coding is one the engine may use. -/
def CodeEnv.toolsOk (e : CodeEnv) (k : Coding) : Bool := k.tools.all (toolOk e.m.codec e.tier e.level)

/-- The inter codings that the three stages reach (R56, R58): the decimated search over index 0 of list 0, or every active reference from
Tier 1 on; then refinements of the best. -/
def CodeEnv.interCodings (e : CodeEnv) (x y w h : Nat) (u : CuTry) : List (CuMode × Coding) :=
  let r := searchRange e.m.format
  let q := quotaOf e.tier e.level
  let dec := bestBy (fun d : DecTry × Nat => d.1.cost) q.full (u.dec.zipIdx.filter fun d =>
    (d.1.ref == 0 || decide (1 ≤ e.tier)) && d.1.x % 4 == 0 && d.1.y % 4 == 0 && within d.1.x r.1 && within d.1.y r.2.1
      && e.permits x y w h d.1.ref (16 * d.1.x) (16 * d.1.y))
  let full := bestBy (fun f : (DecTry × FullTry) × Nat => f.1.2.cost) q.sub (u.full.zipIdx.filterMap fun f =>
    match dec.find? (·.2 == f.1.base) with
    | some d =>
      if within f.1.x r.2.2 && within f.1.y r.2.2 && e.permits x y w h d.1.ref (16 * (d.1.x + f.1.x)) (16 * (d.1.y + f.1.y))
      then some ((d.1, f.1), f.2) else none
    | none => none)
  let step : Int := if e.m.codec = 0 then 4 else 1
  u.sub.filterMap fun b =>
    match full.find? (·.2 == b.base) with
    | some f =>
      let dx := 16 * (f.1.1.x + f.1.2.x) + b.x
      let dy := 16 * (f.1.1.y + f.1.2.y) + b.y
      if within b.x 15 && within b.y 15 && b.x % step == 0 && b.y % step == 0 && e.toolsOk b.coding
          && e.permits x y w h f.1.1.ref dx dy
      then some (.inter f.1.1.ref dx dy none, b.coding) else none
    | none => none

/-- The merge and skip candidates, all examined at every tier (R58): 5 in HEVC, 6 in VVC. -/
def CodeEnv.mergeCodings (e : CodeEnv) (x y w h : Nat) (u : CuTry) : List (CuMode × Coding) :=
  u.merge.filterMap fun g =>
    if decide (g.index < if e.m.codec = 0 then 5 else 6) && e.toolsOk g.coding && e.permits x y w h g.ref g.x g.y
    then some (.inter g.ref g.x g.y (some g.index), g.coding) else none

/-- The intra modes of least Hadamard cost that go to the RD decision (R57): 35 modes in HEVC, 67 in VVC. In a slice of one row every
reference sample lies in a column up to the CTU's own, so R111 shuts no mode out. -/
def CodeEnv.intraCodings (e : CodeEnv) (u : CuTry) : List (CuMode × Coding) :=
  (bestBy (fun i : IntraTry => hadamardCost i.residual) (quotaOf e.tier e.level).intra
    (u.intra.filter fun i => decide (i.mode < if e.m.codec = 0 then 35 else 67) && e.toolsOk i.coding)).map fun i => (.intra i.mode, i.coding)

/-- The full RD decision of a CU (R58): the best inter, merge and intra coding first, then the others up to the tier's number; the least
cost is taken. DESIGN CHOICE (log entry 84): which codings the further decisions of Tier 2 weigh. A CU without a coding is intra DC
(R70, R111). -/
def CodeEnv.codeCu (e : CodeEnv) (x y w h : Nat) (u : CuTry) : CuMode × Coding :=
  let rd : CuMode × Coding → Nat := fun k => k.2.rd
  let inter := if e.intraOnly then [] else bestBy rd 64 (e.interCodings x y w h u)
  let merge := if e.intraOnly then [] else bestBy rd 64 (e.mergeCodings x y w h u)
  let intra := bestBy rd 64 (e.intraCodings u)
  let order := inter.take 1 ++ merge.take 1 ++ intra.take 1 ++ bestBy rd 64 (inter.drop 1 ++ merge.drop 1 ++ intra.drop 1)
  ((bestBy rd 1 (order.take (quotaOf e.tier e.level).rd)).head?).getD (.intra 1, ⟨0, 0, [], []⟩)

/-- A quadtree split of a block of side `w` is tried (Table 3-1: 64 down to 16, and 8 at Tier 2; Table 3-2: before any other split). A
block that the lower edge of the picture cuts is always split. -/
def CodeEnv.quadOk (e : CodeEnv) (y w depth : Nat) : Bool :=
  decide (8 < w) && depth == 0 &&
    (decide (e.m.codedLines - e.row * e.m.ctuSize < y + w) || e.m.codec == 1 || decide (16 < w) || decide (2 ≤ e.tier))

/-- A binary or ternary split is tried (Table 3-2): VVC, to depth 1, 2 or 3 by tier. -/
def CodeEnv.mttOk (e : CodeEnv) (w h depth : Nat) : Bool := e.m.codec == 1 && decide (depth ≤ e.tier) && decide (8 ≤ max w h)

/-- The CU of a block, with its bits; none of a block below the picture. -/
def CodeEnv.codeLeaf (e : CodeEnv) (x y w h : Nat) (u : CuTry) : List Cu × Nat :=
  if e.m.codedLines - e.row * e.m.ctuSize ≤ y then ([], 0)
  else
    let k := e.codeCu (e.col * e.m.ctuSize + x) (e.row * e.m.ctuSize + y) w h u
    ([{ x := x, y := y, w := w, h := h, mode := k.1, tools := k.2.tools, levels := k.2.levels }], k.2.bits)

/-- The CUs of a partition and their bits: splits that the tier does not try give way to the unsplit CU. -/
def CodeEnv.codeTree (e : CodeEnv) (x y w h depth : Nat) : CtuTree → List Cu × Nat
  | .leaf u => e.codeLeaf x y w h u
  | .quad u a b c d =>
    if e.quadOk y w depth then
      let hw := w / 2
      let hh := h / 2
      let ra := e.codeTree x y hw hh 0 a
      let rb := e.codeTree (x + hw) y hw hh 0 b
      let rc := e.codeTree x (y + hh) hw hh 0 c
      let rd := e.codeTree (x + hw) (y + hh) hw hh 0 d
      (ra.1 ++ rb.1 ++ rc.1 ++ rd.1, ra.2 + rb.2 + rc.2 + rd.2)
    else e.codeLeaf x y w h u
  | .bin u v a b =>
    if e.mttOk w h depth then
      let hw := if v then w / 2 else w
      let hh := if v then h else h / 2
      let ra := e.codeTree x y hw hh (depth + 1) a
      let rb := if v then e.codeTree (x + hw) y hw hh (depth + 1) b else e.codeTree x (y + hh) hw hh (depth + 1) b
      (ra.1 ++ rb.1, ra.2 + rb.2)
    else e.codeLeaf x y w h u
  | .tern u v a b c =>
    if e.mttOk w h depth then
      let q := if v then w / 4 else h / 4
      let ra := if v then e.codeTree x y q h (depth + 1) a else e.codeTree x y w q (depth + 1) a
      let rb := if v then e.codeTree (x + q) y (2 * q) h (depth + 1) b else e.codeTree x (y + q) w (2 * q) (depth + 1) b
      let rc := if v then e.codeTree (x + 3 * q) y q h (depth + 1) c else e.codeTree x (y + 3 * q) w q (depth + 1) c
      (ra.1 ++ rb.1 ++ rc.1, ra.2 + rb.2 + rc.2)
    else e.codeLeaf x y w h u

end Sys2Proof.Machine

namespace Sys2Proof

/-- The in-loop decisions that the codec and level allow (Tables 3-1, 3-2, 3-8): ALF in VVC, CC-ALF at behaviour level 2. -/
def CtuFilter.allowed (f : CtuFilter) (codec level : Nat) : CtuFilter :=
  { f with alf := if codec = 1 then f.alf else [], ccAlf := if codec = 1 ∧ 2 ≤ level then f.ccAlf else [] }

/-- A CU is coded intra. -/
def CuMode.isIntra : CuMode → Bool
  | .intra _ => true
  | .dc => true
  | _ => false

end Sys2Proof

namespace Sys2Proof.Machine

/-! ## What a picture's rows may refer to (R70, R111) -/

/-- The clean columns of reference `k` as picture `n` sees them (R111): all of them outside a sweep; in a sweep none of a picture before
it, but of a long-term reference in a rejoin refresh (R114). -/
def Chan.cleanOf (ch : Chan) (n : Nat) (p : Pic) (k : Nat) : Nat :=
  match p.sweepPos with
  | none => ch.cfg.main.ctus
  | some (j, _) =>
    if n ≤ k + j then (match ch.pic? k with | some q => q.clean | none => 0)
    else if p.rejoin && p.lts.contains k then ch.cfg.main.ctus
    else 0

/-- The damaged CTUs of a picture (R70). -/
def Pic.damaged (p : Pic) : List (Nat × Nat) := p.rows.flatMap fun e => e.2.damage.map fun c => (e.1, c)

/-- The reference list of picture `n` as motion search sees it. -/
def Chan.refAreas (ch : Chan) (n : Nat) (p : Pic) : List RefArea :=
  p.refs.map fun k => { clean := ch.cleanOf n p k, damage := match ch.pic? k with | some q => q.damaged | none => [] }

/-- A CTU column of picture `p` is to be coded intra: an IDR picture, or a refresh CTU (R50, R110). -/
def Chan.forcedIntra (ch : Chan) (p : Pic) (i : Nat) : Bool :=
  let span := p.refreshSpan ch.cfg.main.ctus
  p.kind == .idr || (decide (span.1 ≤ i) && decide (i < span.2))

/-- What bounds the coding of CTU `i` of row `r` of picture `n`. -/
def Chan.codeEnv (ch : Chan) (level n r i : Nat) (p : Pic) (tier : Nat) : CodeEnv :=
  { m := ch.cfg.main, tier := tier, level := level, row := r, col := i
    intraOnly := ch.forcedIntra p i
    cleanHere := p.sweepPos.isSome && decide (i < p.clean)
    refs := ch.refAreas n p }

/-! ## Residues (R64) -/

/-- The residue of a word: its value modulo 4095, held as 0 to 4094. -/
def residue (v : Int) : Int := v % 4095

end Sys2Proof.Machine

namespace Sys2Proof

/-- The residue that a stage's result must have, from the residues of what went in, and the residue found: for a rounding shift the
quotient and the discarded remainder together. -/
def StageCheck.ok (k : StageCheck) : Bool :=
  match k.op with
  | .add a b => Machine.residue k.out == Machine.residue (Machine.residue a + Machine.residue b)
  | .sub a b => Machine.residue k.out == Machine.residue (Machine.residue a - Machine.residue b)
  | .mul a b => Machine.residue k.out == Machine.residue (Machine.residue a * Machine.residue b)
  | .shift a n rem => Machine.residue (Machine.residue k.out * 2 ^ n + Machine.residue rem) == Machine.residue (Machine.residue a + 2 ^ (n - 1))

end Sys2Proof

namespace Sys2Proof.Machine

/-! ## Rows of samples (R68, R120) -/

/-- The bytes of one plane in raster order, each sample a 16-bit little-endian word. -/
def planeBytes (l : List (List Nat)) : List Byte := l.flatMap fun x => x.flatMap fun v => leBytes 2 v

/-- The CRC-32C of a row of samples (R120): luma, then Cb, then Cr. -/
def rowCrc (l : List SampleLine) : Word := crc32c (planeBytes (l.map (·.1)) ++ planeBytes (l.map (·.2.1)) ++ planeBytes (l.map (·.2.2)))

/-! ## The bare-pole generator (R67 to R69) -/

/-- The pieces of a bare-pole block: whole, or by the splits that the picture's lower edge implies. -/
def bareBlocks : Nat → Nat → Nat → Nat → Nat → List (Nat × Nat × Nat)
  | 0, _, _, _, _ => []
  | fuel + 1, lines, x, y, w =>
    if lines ≤ y then []
    else if y + w ≤ lines || w ≤ 8 then [(x, y, w)]
    else
      let h := w / 2
      bareBlocks fuel lines x y h ++ bareBlocks fuel lines (x + h) y h ++ bareBlocks fuel lines x (y + h) h
        ++ bareBlocks fuel lines (x + h) (y + h) h

/-- The CTU of a row as it was coded. -/
def Row.ctuCode (x : Row) (i : Nat) : CtuSyntax := tgetD x.code i ⟨[], {}, []⟩

end Sys2Proof.Machine

namespace Sys2Proof

/-- The block of a CTU that holds its centre is inter: what the temporal candidate of a bare-pole CTU takes (R67; the candidate below the
CTU lies in another row, which the standards leave out). -/
def CtuSyntax.centreInter (k : CtuSyntax) (size : Nat) : Bool :=
  match k.cus.find? fun u => decide (u.x ≤ size / 2) && decide (size / 2 < u.x + u.w) && decide (u.y ≤ size / 2) && decide (size / 2 < u.y + u.h) with
  | some u => !u.mode.isIntra
  | none => false

end Sys2Proof

namespace Sys2Proof.Machine

/-- The form of bare-pole CTU `i` of row `r` of picture `p` (R67, R70): intra in an I slice and where the co-located area in reference
index 0 is damaged; else inter, with merge index 0 after an inter-form CTU of the same DU, 1 behind a temporal candidate, else 0. -/
def Chan.bareMode (ch : Chan) (p : Pic) (r i : Nat) (leftInter : Bool) : CuMode :=
  match p.refs with
  | [] => .dc
  | k :: _ =>
    let x := ch.duRow (k, r)
    if p.kind == .idr || x.damage.contains i then .dc
    else if leftInter then .skip 0
    else .skip (if (x.ctuCode i).centreInter ch.cfg.main.ctuSize then 1 else 0)

/-- A bare-pole CTU: one CU, or the pieces of one that the picture's edge cuts, all of its form, and no in-loop decision. -/
def Chan.bareCtu (ch : Chan) (p : Pic) (r i : Nat) (leftInter : Bool) : CtuSyntax :=
  let m := ch.cfg.main
  let mode := ch.bareMode p r i leftInter
  { cus := (bareBlocks 8 (m.codedLines - r * m.ctuSize) 0 0 m.ctuSize).map fun b => { x := b.1, y := b.2.1, w := b.2.2, h := b.2.2, mode := mode }
    filter := {}, deltas := [] }

end Sys2Proof.Machine

namespace Sys2Proof

/-- The CTU is an inter-form bare-pole CTU. -/
def CtuSyntax.interForm (k : CtuSyntax) : Bool := k.cus.any fun u => match u.mode with | .skip _ => true | _ => false

end Sys2Proof

namespace Sys2Proof.Machine

/-- The CTUs of a wholly bare-pole DU. -/
def Chan.bareCode (ch : Chan) (p : Pic) (r : Nat) : Tab CtuSyntax :=
  (List.range ch.cfg.main.ctus).foldl (fun (t : Tab CtuSyntax) i =>
    tset t i (ch.bareCtu p r i (match tget t (i - 1) with | some k => decide (0 < i) && k.interForm | none => false))) []

end Sys2Proof.Machine

namespace Sys2Proof

/-- The part of a line that CTU column `i` covers, by component. -/
def DefMain.ctuPart (m : DefMain) (i : Nat) (l : SampleLine) : SampleLine :=
  let c := m.ctuSize / 2
  ((l.1.drop (i * m.ctuSize)).take m.ctuSize, (l.2.1.drop (i * c)).take c, (l.2.2.drop (i * c)).take c)

end Sys2Proof

namespace Sys2Proof.Machine

/-- Joins two parts of a line. -/
def joinLine (a b : SampleLine) : SampleLine := (a.1 ++ b.1, a.2.1 ++ b.2.1, a.2.2 ++ b.2.2)

/-- The samples of an intra-form CTU (R67): mid-grey at the first CTU of the slice, else DC prediction from the CTU to its left. -/
def Chan.dcBlock (ch : Chan) (i : Nat) (like left : List SampleLine) : List SampleLine :=
  let m := ch.cfg.main
  let mid := 2 ^ (m.codedDepth - 1)
  let v (comp : Nat) (l : List (List Nat)) (y x : Nat) : Nat := if i = 0 then mid else Config.dcPredict m.codec m.codedDepth comp l x y
  like.zipIdx.map fun e =>
    (e.1.1.zipIdx.map fun s => v 0 (left.map (·.1)) e.2 s.2, e.1.2.1.zipIdx.map fun s => v 1 (left.map (·.2.1)) e.2 s.2,
      e.1.2.2.zipIdx.map fun s => v 2 (left.map (·.2.2)) e.2 s.2)

/-- The reconstruction of a bare-pole DU (R67, R68): inter-form CTUs copy the co-located area of reference index 0, intra-form CTUs are DC
prediction. `like` gives the lines' lengths. -/
def Chan.bareLines (ch : Chan) (p : Pic) (r : Nat) (like : List SampleLine) (code : Tab CtuSyntax) : List SampleLine :=
  let m := ch.cfg.main
  let co : List SampleLine := match p.refs with | [] => like | k :: _ => (ch.duRow (k, r)).fin
  (List.range m.ctus).foldl (fun (a : List SampleLine × List SampleLine) i =>
    let blk := if (tgetD code i ⟨[], {}, []⟩).interForm then co.map (m.ctuPart i) else ch.dcBlock i (like.map (m.ctuPart i)) a.2
    (if i = 0 then blk else List.zipWith joinLine a.1 blk, blk)) ([], []) |>.1

/-! ## Level and parameter sets (R52, R55, R80, R100, R151) -/

/-- Limits of a level: ten times its number, MaxLumaPs, MaxLumaSr, and in units of 1,000 bits MaxCPB and MaxBR of the Main and of the
High tier. -/
structure LevelRow where
  num  : Nat
  ps   : Nat
  sr   : Nat
  main : Nat
  high : Nat
deriving DecidableEq, Repr

/-- Levels of the standards, lowest first. PRESUMED (log entry 85): the spec names the standards' tables and does not restate them; a
level without a High tier has its Main limit in both places. -/
def levelRows : List LevelRow :=
  [⟨10, 36864, 552960, 350, 350⟩, ⟨20, 122880, 3686400, 1500, 1500⟩, ⟨21, 245760, 7372800, 3000, 3000⟩,
   ⟨30, 552960, 16588800, 6000, 6000⟩, ⟨31, 983040, 33177600, 10000, 10000⟩, ⟨40, 2228224, 66846720, 12000, 30000⟩,
   ⟨41, 2228224, 133693440, 20000, 50000⟩, ⟨50, 8912896, 267386880, 25000, 100000⟩, ⟨51, 8912896, 534773760, 40000, 160000⟩,
   ⟨52, 8912896, 1069547520, 60000, 240000⟩, ⟨60, 35651584, 1069547520, 60000, 240000⟩, ⟨61, 35651584, 2139095040, 120000, 480000⟩,
   ⟨62, 35651584, 4278190080, 240000, 800000⟩]

/-- NAL HRD bits per unit of a level's limits, by profile. PRESUMED (log entry 85). -/
def nalFactor (m : DefMain) : Nat :=
  if m.codec = 0 then (if m.profile = 0 then 1100 else if m.profile = 1 then 1833 else 2200)
  else if m.profile = 0 then 1100 else 2750

/-- A level covers a format and rate (R55). -/
def LevelRow.covers (l : LevelRow) (m : DefMain) (q : DefRate) : Bool :=
  let lines := m.codedLines
  decide (m.format.width * lines ≤ l.ps) && decide (m.format.width * lines * Config.ticksPerSec ≤ l.sr * m.tp)
    && decide (q.bitRate ≤ l.high * nalFactor m) && decide (q.cpbSize ≤ l.high * nalFactor m)

/-- The general level (R55): the lowest that covers the channel, at most 6.2. -/
def generalLevel (m : DefMain) (q : DefRate) : LevelRow := (levelRows.find? (·.covers m q)).getD ⟨62, 35651584, 4278190080, 240000, 800000⟩

/-- The clock tick Tp as a fraction of a second, by rate (R80, Table 2-2). -/
def tickOf : Nat → Nat × Nat
  | 0 => (1001, 24000)
  | 1 => (1, 24)
  | 2 => (1, 25)
  | 3 => (1001, 30000)
  | 4 => (1, 30)
  | 5 => (1, 50)
  | 6 => (1001, 60000)
  | 7 => (1, 60)
  | 8 => (1, 100)
  | 9 => (1001, 120000)
  | _ => (1, 120)

/-- HRD parameters of a channel (R80). -/
def Chan.hrd (ch : Chan) : HrdParams :=
  let q := ch.cfg.rate
  let t := tickOf ch.cfg.main.rateId
  { tickNum := t.1, tickDen := t.2, divisor := 135, bitRate := q.bitRate, cpbSize := q.cpbSize, cbr := q.rcMode == 0 }

/-- Entries that stand where a condition holds. -/
def whenList {α : Type} (b : Bool) (l : List α) : List α := if b then l else []

/-- Tools of HEVC parameter sets (Table 3-1). -/
def hevcTools : List StreamTool := [.amp, .nxn, .signHiding, .tmvp, .deblockAcross, .sao, .cuQpDelta]

/-- Tools of VVC parameter sets at either behaviour level (Table 3-2). -/
def vvcTools : List StreamTool :=
  [.dualTree, .cclm, .mip, .mrl, .isp, .lfnst, .mts, .depQuant, .historyMerge, .amvr, .affine, .prof, .mmvd, .sbTmvp, .tmvp, .bcw,
    .ciip, .deblockAcross, .sao, .alf, .gdr, .cuQpDelta]

/-- Tools of VVC that behaviour level 2 adds (Table 3-8). -/
def vvcTools2 : List StreamTool := [.gpm, .ccAlf]

/-- The tools that the parameter sets enable (Tables 3-1, 3-2, 3-8; R51, R52), whatever the tier; the entropy-coding sync flag with
k ≥ 2. -/
def Chan.streamTools (ch : Chan) (level : Nat) : List StreamTool :=
  let own := if ch.cfg.main.codec = 0 then hevcTools else vvcTools ++ whenList (decide (2 ≤ level)) vvcTools2
  own ++ whenList (ch.cfg.refs.ltSlots != 0) [StreamTool.longTerm] ++ whenList (decide (2 ≤ ch.k)) [StreamTool.entropySync]

/-- Output VUI of an out_system (Table 7-6): primaries, transfer characteristics, matrix coefficients. -/
def vuiOf : Nat → Nat × Nat × Nat
  | 0 => (1, 1, 1)
  | 1 => (9, 16, 9)
  | _ => (9, 18, 9)

/-- The parameter sets of a channel at a behaviour level. -/
def Chan.paramSets (ch : Chan) (level : Nat) : ParamSets :=
  let m := ch.cfg.main
  let q := ch.cfg.rate
  let l := generalLevel m q
  let v := vuiOf ch.cfg.tone.outSystem
  { codec := m.codec, profile := m.profile, level := l.num
    high := decide (l.main * nalFactor m < q.bitRate)
    width := m.format.width, height := m.format.lines, chroma := if m.out422 then 2 else 1, depth := m.codedDepth
    ctuSize := m.ctuSize, minCu := 8, tools := ch.streamTools level, qpGroup := 32, inPicHdr := false, initQp := q.initQp
    maxDec := ch.cfg.refs.nDpb - 1, reorder := 0, latency := none, pocBits := 16, fieldSeq := m.format.interlaced
    primaries := v.1, transfer := v.2.1, matrix := v.2.2, fullRange := false, hrd := ch.hrd }

/-! ## Slices and NAL units (R50 to R54, R80, R101, R102, R110) -/

/-- Slice type of a picture (R50): I in an IDR picture, P in a repeat picture, else B. -/
def Pic.sliceType (p : Pic) : SliceType := if p.kind == .idr then .i else if p.isRepeat then .p else .b

/-- A long-term reference as picture `n` signals it (R102). -/
def Chan.ltSignal (ch : Chan) (n : Nat) (p : Pic) (k : Nat) : LtSignal :=
  let poc := match ch.pic? k with | some q => q.poc | none => 0
  { lsb := poc % 65536, cycle := if k + 32768 ≤ n then some (p.poc / 65536 - poc / 65536) else none }

/-- The slice header of row `r` of picture `n` (R50, R51, R67, R101, R102). DEDUCED (log entry 86): the base QP of a picture, which a
substitute takes, is the initial QP its PPS carries. -/
def Chan.sliceHdr (ch : Chan) (n r : Nat) (p : Pic) : SliceHdr :=
  let x := p.row r
  let on (f : CtuFilter → Bool) : Bool := !x.substituted && (tvals x.code).any fun k => f k.filter
  { row := r, type := p.sliceType, qp := if x.substituted then ch.cfg.rate.initQp else x.qp
    sao := on fun f => f.saoY.isSome || f.saoC.isSome, alf := on fun f => f.alf.any id, ccAlf := on fun f => f.ccAlf.any id
    loopAcross := true, tmvp := p.sliceType != .i, pocLsb := p.poc % 65536
    st := (p.refs.filter fun k => !(p.lts.contains k)).map fun k => n - k
    lt := p.lts.map (ch.ltSignal n p) }

/-- The picture carries a buffering period SEI message (R80). -/
def Pic.hasBp (p : Pic) : Bool := p.kind != .inter || p.discontinuity

/-- Parameter sets travel with the picture (R53). -/
def Pic.hasSets (p : Pic) : Bool := p.kind != .inter

/-- NAL units of a DU beside those that only DU 0 has: its slice, and in CBR its filler (R81). -/
def Chan.duUnits (ch : Chan) : Nat := if ch.cfg.rate.rcMode = 0 then 2 else 1

/-- Non-VCL NAL units of DU 0, SEI messages apart (R53). -/
def Chan.headUnits (ch : Chan) (level n : Nat) (p : Pic) : List NalUnit :=
  let q := ch.paramSets level
  [NalUnit.aud] ++ whenList (p.hasSets && ch.cfg.main.codec == 0) [NalUnit.vps q] ++ whenList p.hasSets [NalUnit.sps q, NalUnit.pps q]
    ++ whenList p.alf [NalUnit.aps (n - 1) p.alfRows]

/-- The SEI messages of picture `n` (R53, R54, R80, R110), `units` being the NAL units of DU 0 beside the picture timing's own count. -/
def Chan.seiMsgs (ch : Chan) (n : Nat) (p : Pic) (head : Nat) : List SeiMsg :=
  let m := ch.cfg.main
  let odd := ch.index n % 2
  let bp := whenList p.hasBp [SeiMsg.bufferingPeriod ch.cfg.rate.dCpb 0 p.discontinuity]
  let recovery : List SeiMsg := match p.sweepPos with
    | some (0, g) => whenList (p.kind == .recovery && m.codec == 0) [SeiMsg.recoveryPoint (g - 1) false false]
    | _ => []
  let rest := [SeiMsg.duInfo 0] ++ recovery ++ whenList (m.format.interlaced && m.codec == 1) [SeiMsg.frameField (odd == 1)]
  let first := head + bp.length + 1 + rest.length + ch.duUnits
  let units := first :: List.replicate (m.rows - 1) ch.duUnits
  let struct := if m.format.interlaced && m.codec == 0 then some (1 + odd) else none
  bp ++ [SeiMsg.pictureTiming p.removal 0 m.sRow units struct] ++ rest

/-- The non-VCL NAL units of DU 0. -/
def Chan.nonVclUnits (ch : Chan) (level n : Nat) (p : Pic) : List NalUnit :=
  let h := ch.headUnits level n p
  h ++ (ch.seiMsgs n p h.length).map .sei

/-- The slice of row `r` of picture `n`. -/
def Chan.sliceUnit (ch : Chan) (n r : Nat) (p : Pic) : NalUnit :=
  let gdr := match p.sweepPos with
    | some (0, g) => if p.kind == .recovery && ch.cfg.main.codec == 1 then some (g - 1) else none
    | _ => none
  .slice (ch.sliceHdr n r p) (p.kind == .idr) gdr (tvals (p.row r).code)

/-- The NAL units of a DU in order (R53, R81): `filler` is the number of bytes above the minimum of its filler NAL unit in CBR. -/
def Chan.duNalUnits (ch : Chan) (level n r filler : Nat) (p : Pic) : List NalUnit :=
  (if r = 0 then ch.nonVclUnits level n p else []) ++ [ch.sliceUnit n r p]
    ++ (if ch.cfg.rate.rcMode = 0 then [.filler (7 + filler)] else [])

end Sys2Proof.Machine
end

