-- ==== Sys2Proof/Machine/Compose.lean ====
section
/-!
DEFINITION. The pixel front end's arithmetic (chapter 7, 3 R60 and R61): lines from received segments, entry into the 20-bit
domain, tone mapping (R152, R154), surfaces and the Syesh tile format (R136, R139 to R141), conversion (R137), blending (R138),
and the output rounding of the encode engine.
-/
namespace Sys2Proof.Machine

/-! ## Lines -/

/-- Writes samples over a line from a position. -/
def placeAt {α : Type} (base : List α) (off : Nat) (xs : List α) : List α :=
  base.take off ++ xs.take (base.length - off) ++ base.drop (off + xs.length)

/-- The pixels of a line that its segments cover. -/
def coverage (width : Nat) (segs : List SrdSeg) : List Bool :=
  segs.foldl (fun a g => placeAt a g.offset (List.replicate g.luma.length true)) (List.replicate width false)

/-- A line has every pgroup (R188, R189). -/
def lineWhole (width : Nat) (segs : List SrdSeg) : Bool := (coverage width segs).all id

/-- A line of received samples from its segments. -/
def rawLine (width : Nat) (segs : List SrdSeg) : PxLine :=
  segs.foldl (fun a g =>
    { y := placeAt a.y g.offset g.luma, cb := placeAt a.cb (g.offset / 2) g.cb, cr := placeAt a.cr (g.offset / 2) g.cr })
    { y := List.replicate width 0, cb := List.replicate (width / 2) 0, cr := List.replicate (width / 2) 0 }

/-- Entry into the 20-bit domain (R132): v << 10 at 10 bits, v << 8 at 12 bits. -/
def enterLine (depth : Nat) (l : PxLine) : PxLine :=
  let k := if depth = 12 then 256 else 1024
  { y := l.y.map (· * k), cb := l.cb.map (· * k), cr := l.cr.map (· * k) }

/-- The black line of R39. -/
def blackLine (width : Nat) : PxLine :=
  { y := List.replicate width (64 * 1024), cb := List.replicate (width / 2) (512 * 1024)
    cr := List.replicate (width / 2) (512 * 1024) }

/-- Clips to the 20-bit domain. -/
def clip20 (v : Int) : Nat := (min (max v 0) 1048575).toNat

/-! ## Output rounding of the engine (R60, R61) -/

/-- R61: a 20-bit word rounded to the coded depth and clipped clear of the reserved codes. -/
def roundOut (depth w : Nat) : Nat :=
  let sh := 20 - depth
  let v := (w + 2 ^ (sh - 1)) / 2 ^ sh
  if depth = 12 then min (max v 16) 4079 else min (max v 4) 1019

/-- R60: one 4:2:0 chroma sample from the four 4:2:2 rows about it. -/
def chroma420 (a b c d : Nat) : Nat := (a + 3 * b + 3 * c + d + 4) / 8

/-- R126: vertical upsampling of 4:2:0 chroma, even and odd output rows. -/
def chroma422 (near far : Nat) : Nat := (3 * near + far + 2) / 4

/-! ## Tone mapping (R152 to R154) -/

/-- The 32-bit word at a byte offset of a table. -/
def tableWord (t : List Byte) (off : Nat) : Nat := leNat ((t.drop off).take 4)

/-- Point `i` of curve `k`, 0 to 2 pre, 3 to 5 post (Table 7-7); point 1,024 is extrapolated. -/
def curvePoint (t : List Byte) (k i : Nat) : Nat :=
  let p (j : Nat) : Nat := tableWord t (64 + 4 * (1024 * k + j)) % 2 ^ 20
  if i < 1024 then p i else clip20 (2 * (p 1023 : Int) - (p 1022 : Int))

/-- A curve at `v` (R152). -/
def curve (t : List Byte) (k v : Nat) : Nat :=
  let i := v / 1024
  let f := v % 1024
  let a : Int := curvePoint t k i
  let b : Int := curvePoint t k (i + 1)
  clip20 (a + fdiv ((b - a) * f + 512) 1024)

/-- Component `o` of LUT node (i, j, k) (R153). -/
def lutNode (t : List Byte) (o i j k : Nat) : Nat :=
  leNat ((t.drop (24640 + 8 * ((i * 33 + j) * 33 + k))).take 8) / 2 ^ (20 * o) % 2 ^ 20

/-- Axes by descending fraction, ties in axis order (R152). -/
def axisOrder (f0 f1 f2 : Nat) : List Nat :=
  if f0 ≥ f1 then
    (if f1 ≥ f2 then [0, 1, 2] else if f0 ≥ f2 then [0, 2, 1] else [2, 0, 1])
  else
    (if f0 ≥ f2 then [1, 0, 2] else if f1 ≥ f2 then [1, 2, 0] else [2, 1, 0])

/-- One output component of the tetrahedral LUT (R152). -/
def lutEval (t : List Byte) (o u0 u1 u2 : Nat) : Nat :=
  let i := u0 / 32768
  let j := u1 / 32768
  let k := u2 / 32768
  let f : Nat → Nat := fun a => if a = 0 then u0 % 32768 else if a = 1 then u1 % 32768 else u2 % 32768
  let ord := axisOrder (f 0) (f 1) (f 2)
  let a := ord.getD 0 0
  let b := ord.getD 1 1
  let c := ord.getD 2 2
  let node : List Nat → Int := fun on =>
    lutNode t o (i + if on.contains 0 then 1 else 0) (j + if on.contains 1 then 1 else 0) (k + if on.contains 2 then 1 else 0)
  let q0 := node []
  let qa := node [a]
  let qb := node [a, b]
  let q3 := node [0, 1, 2]
  clip20 (q0 + fdiv ((f a : Int) * (qa - q0) + (f b : Int) * (qb - qa) + (f c : Int) * (q3 - qb) + 16384) 32768)

/-- The scene-adaptive gain on one position (R154). -/
def gainApply (g u0 u1 u2 : Nat) : Nat × Nat × Nat :=
  let ch (u : Nat) : Nat := clip20 (524288 + fdiv (((u : Int) - 524288) * g + 2048) 4096)
  (min ((u0 * g + 2048) / 4096) 1048575, ch u1, ch u2)

/-- The chroma of a line at every x: odd positions interpolated, the right edge repeating (R152). -/
def chromaFull (c : List Nat) (x : Nat) : Nat :=
  if x % 2 = 0 then c.getD (x / 2) 0
  else
    let a := c.getD (x / 2) 0
    (a + c.getD (x / 2 + 1) a + 1) / 2

/-- One position before the LUT: u0, u1, u2 with their gain (R152). -/
def preMap (t : List Byte) (gain : Option Nat) (l : PxLine) (x : Nat) : Nat × Nat × Nat :=
  let u0 := curve t 0 (l.y.getD x 0)
  let u1 := curve t 1 (chromaFull l.cb x)
  let u2 := curve t 2 (chromaFull l.cr x)
  match gain with
  | some g => gainApply g u0 u1 u2
  | none => (u0, u1, u2)

/-- One position mapped: y and full-rate chroma (R152). -/
def mapPos (t : List Byte) (gain : Option Nat) (l : PxLine) (x : Nat) : Nat × Nat × Nat :=
  let u := preMap t gain l x
  let v (o : Nat) : Nat := lutEval t o u.1 u.2.1 u.2.2
  (curve t 3 (v 0), curve t 4 (v 1), curve t 5 (v 2))

/-- Keeps chroma at even x: (1, 2, 1)/4 with edges repeating (R152). -/
def keepEven (w : Nat) (c : List Nat) : List Nat :=
  (List.range (w / 2)).map fun i =>
    let x := 2 * i
    let m := c.getD x 0
    (c.getD (if x = 0 then 0 else x - 1) m + 2 * m + c.getD (x + 1) m + 2) / 4

/-- A line through the tone mapping of R152 with table `t` and the gain in force. -/
def toneMap (t : List Byte) (gain : Option Nat) (l : PxLine) : PxLine :=
  let w := l.y.length
  let px := (List.range w).map (mapPos t gain l)
  { y := px.map (·.1), cb := keepEven w (px.map (·.2.1)), cr := keepEven w (px.map (·.2.2)) }

/-- The sum of u0 over a line, before the gain: the statistic of R154 (through the pre-curve in table mode). -/
def lineU0 (t : Option (List Byte)) (l : PxLine) : Nat :=
  match t with
  | some b => sumNat (l.y.map (curve b 0))
  | none => sumNat l.y

/-! ## Pixel words (R136, R137) -/

/-- Surface kinds with 8888 pixel words: ARGB8888 and STF8888. -/
def kind8888 (kind : Nat) : Bool := kind == 0 || kind == 2

/-- Surface kinds in tiles. -/
def kindStf (kind : Nat) : Bool := kind == 2 || kind == 3

/-- Alpha of a pixel word, to 10 bits (Table 7-1). -/
def pxAlpha (kind w : Nat) : Nat :=
  if kind8888 kind then
    let a := w / 2 ^ 24 % 256
    a * 4 + a / 64
  else w / 2 ^ 30 % 4 * 341

/-- Colour component 0 R, 1 G, 2 B of a pixel word, to 20 bits (Table 7-1). -/
def pxColour (kind w i : Nat) : Nat :=
  if kind8888 kind then
    let c := w / 2 ^ (16 - 8 * i) % 256
    c * 4096 + c * 16 + c / 16
  else
    let c := w / 2 ^ (20 - 10 * i) % 1024
    c * 1024 + c

/-- Conversion coefficients of Table 7-2: rows y, cb, cr. -/
def convCoef (sys row : Nat) : Int × Int × Int :=
  if sys = 0 then
    (if row = 0 then (11919, 40097, 4048) else if row = 1 then (-6570, -22102, 28672) else (28672, -26043, -2629))
  else
    (if row = 0 then (14728, 38011, 3325) else if row = 1 then (-8007, -20665, 28672) else (28672, -26366, -2306))

/-- Component 0 y, 1 cb, 2 cr of a pixel in the 20-bit domain (R137). -/
def pxConvert (sys kind w row : Nat) : Nat :=
  let k := convCoef sys row
  let off : Int := if row = 0 then 65536 else 524288
  let v := off + fdiv (k.1 * (pxColour kind w 0 : Nat) + k.2.1 * (pxColour kind w 1 : Nat) + k.2.2 * (pxColour kind w 2 : Nat)
    + 32768) 65536
  v.toNat

/-! ## Surfaces (R139 to R141) -/

/-- What a surface holds at a pixel. -/
inductive Px where
  /-- Transparent without error. -/
  | clear
  | word (w : Nat)
  /-- A malformed tile or pixel, by an identity within its surface (R141). -/
  | bad (id : Nat)
deriving DecidableEq, Repr

/-- 32-bit little-endian word of a memory. -/
def memWord (m : Mem) (a : Nat) : Nat := leNat (Mem.read m a 4)

/-- The pixel (x, y) of a surface, with the addresses of the words read for it. `base` is its first byte, `size` its allocation
in bytes. -/
def surfPixel (m : Mem) (base kind width height size x y : Nat) : Px × List Nat :=
  if !kindStf kind then
    let a := base + 4 * (y * width + x)
    (.word (memWord m a), [a])
  else
    let cols := cdiv width 32
    let tiles := cols * cdiv height 8
    let tile := y / 8 * cols + x / 32
    let ha := base + 4 * tile
    let hdr := memWord m ha
    let off := hdr % 2 ^ 30 * 64
    let pix := y % 8 * 32 + x % 32
    let badTile : Px := .bad tile
    let fits (n : Nat) : Bool := decide (off + n ≤ size) && decide (4 * tiles ≤ off)
    match hdr / 2 ^ 30 with
    | 0 => if off = 0 then (.clear, [ha]) else (badTile, [ha])
    | 1 => if fits 4 then (.word (memWord m (base + off)), [ha, base + off]) else (badTile, [ha])
    | 2 =>
      if fits 4 then
        let pw := memWord m (base + off)
        let n := pw % 16 + 1
        if pw / 16 ≠ 0 ∨ !(fits (132 + 4 * n)) then (badTile, [ha, base + off])
        else
          let ia := base + off + 4 + 4 * n + pix / 2
          let b := (Mem.byte m ia).toNat
          let idx := if pix % 2 = 0 then b % 16 else b / 16
          let pa := base + off + 4 + 4 * idx
          if idx < n then (.word (memWord m pa), [ha, base + off, ia, pa])
          else (.bad (tiles + (y * width + x)), [ha, base + off, ia])
      else (badTile, [ha])
    | _ =>
      let pa := base + off + 4 * pix
      if fits 1024 then (.word (memWord m pa), [ha, pa]) else (badTile, [ha])

/-! ## Blending (R138) -/

/-- Blend weight 0 to 1,024 of a pixel under a global alpha. -/
def blendA1 (alpha ga : Nat) : Nat :=
  let a := (alpha * (ga + ga / 512) + 512) / 1024
  a + a / 512

/-- One sample blended over `d`. -/
def blend (s d a1 : Nat) : Nat := (s * a1 + d * (1024 - a1) + 512) / 1024

/-- A layer as one row of it is composed: surface place and form, position, alpha, and whether it is opaque where its alpha is
not 0 (the protected layer). -/
structure LayerSrc where
  number : Nat
  base   : Nat
  kind   : Nat
  width  : Nat
  height : Nat
  size   : Nat
  x0     : Int
  y0     : Int
  ga     : Nat
  opaque_ : Bool
deriving DecidableEq, Repr

/-- The surface pixel under picture position (x, y), y in frame lines; none outside the surface. -/
def layerPixel (m : Mem) (l : LayerSrc) (x y : Nat) : Option (Px × List Nat) :=
  let sx := (x : Int) - l.x0
  let sy := (y : Int) - l.y0
  if 0 ≤ sx ∧ sx < l.width ∧ 0 ≤ sy ∧ sy < l.height then
    some (surfPixel m l.base l.kind l.width l.height l.size sx.toNat sy.toNat)
  else none

/-- One component of one position after a layer (R138). -/
def layerSample (m : Mem) (sys : Nat) (l : LayerSrc) (x y row d : Nat) : Nat :=
  match layerPixel m l x y with
  | some (.word w, _) =>
    let alpha := pxAlpha l.kind w
    if l.opaque_ then (if alpha = 0 then d else pxConvert sys l.kind w row)
    else blend (pxConvert sys l.kind w row) d (blendA1 alpha l.ga)
  | _ => d

/-- A line after a layer: luma at every x, chroma at even x (R138). -/
def layerLine (m : Mem) (sys : Nat) (l : LayerSrc) (y : Nat) (d : PxLine) : PxLine :=
  { y := d.y.mapIdx fun x v => layerSample m sys l x y 0 v
    cb := d.cb.mapIdx fun i v => layerSample m sys l (2 * i) y 1 v
    cr := d.cr.mapIdx fun i v => layerSample m sys l (2 * i) y 2 v }

/-- Malformed tiles and pixels of a layer on a line, each identified by layer and place (R141). -/
def layerErrors (m : Mem) (l : LayerSrc) (y width : Nat) : List Nat :=
  ((List.range width).filterMap fun x =>
    match layerPixel m l x y with
    | some (.bad i, _) => some (l.number * 2 ^ 40 + i)
    | _ => none).dedup

/-- A layer reads a poisoned word on a line (R132). -/
def layerPoison (m : Mem) (poison : Tab Unit) (l : LayerSrc) (y width : Nat) : Bool :=
  !poison.isEmpty && ((List.range width).any fun x =>
    match layerPixel m l x y with
    | some (_, as) => as.any fun a => thas poison (a / 32)
    | none => false)

/-- Truncated mean of a CTU's luma over the lines of a row (R107). -/
def ctuMean (lines : List PxLine) (ctu col : Nat) : Nat :=
  let s := sumNat (lines.map fun l => sumNat ((l.y.drop (col * ctu)).take ctu))
  let n := sumNat (lines.map fun l => ((l.y.drop (col * ctu)).take ctu).length)
  s / max 1 n

end Sys2Proof.Machine
end

