-- ==== Sys2Proof/Machine/Boundary.lean ====
section
/-!
DEFINITION. What a picture boundary does to a channel (R10): commits, flips and the cursor (R142 to R147), the protected layer
(R148 to R150), the refresh and reference structure (chapter 5), the tier ceiling (R360, R361), the group's decisions (R238 to
R241), and the picture itself.
-/
namespace Sys2Proof.Machine

/-! ## Flips and cursor (R142 to R147) -/

/-- The fences of a group are set, signalled no later than a row time before t0 (R144). -/
def fencesReady (fences : Tab Nat) (g : FlipGroup) (limit : Int) : Bool :=
  g.arg.fences.all fun f => match tget fences f with | some t => decide ((t : Int) ≤ limit) | none => false

/-- The time conditions of a group at t0 (R144, second and third). -/
def flipTimes (m : DefMain) (g : FlipGroup) (t0 : Nat) : Bool :=
  decide (g.tExec + m.tRow ≤ t0) && decide (g.notBefore ≤ t0)

/-- A group is eligible at picture `n` (R144). -/
def flipEligible (ch : Chan) (fences : Tab Nat) (g : FlipGroup) (n : Nat) : Bool :=
  flipTimes ch.cfg.main g (ch.t0 n) && fencesReady fences g ((ch.t0 n : Int) - ch.cfg.main.tRow)

/-- What a boundary makes of one pending group: kept (perhaps with its flip picture), or cancelled; and whether the picture
counts as a deferral (R146). `chosen` says that the group flips at `n`; `lag` is 0 on a single unit, 2 in a group. -/
def flipStep (ch : Chan) (g : FlipGroup) (n lag : Nat) (chosen : Bool) : FlipGroup × Bool × Bool :=
  let g := if g.q0.isNone && flipTimes ch.cfg.main g (ch.t0 n) then { g with q0 := some n } else g
  if g.flipAt.isSome then (g, false, false)
  else if chosen then ({ g with flipAt := some n }, false, false)
  else
    match g.q0 with
    | some q => if n < q + lag then (g, false, false) else (g, true, decide (q + lag + g.arg.cancelAfter ≤ n))
    | none => (g, false, false)

/-- The id bit of a group in LYR_FLIP_RESULT. -/
def flipBit (id : Nat) : Word := BitVec.ofNat 32 (2 ^ (id % 16))

/-- Flip groups at boundary `n` of channel `c` (R144 to R146): groups in `chosen` (by id) flip, others that are due defer, and
the overdue are cancelled. -/
def State.flipsAt (s : State) (c n lag : Nat) (chosen : List Nat) : State :=
  s.onChan c fun ch s =>
    let st := ch.layers.flips.map fun g => flipStep ch g n lag (chosen.contains g.arg.id)
    let keep := (st.filter fun e => !e.2.2).map (·.1)
    let cancelled := (st.filter fun e => e.2.2).map (·.1.arg.id)
    let s := s.updChan c fun ch => { ch with layers := { ch.layers with flips := keep } }
    let s := st.foldl (fun t e => if e.2.1 then (t.bump (Reg.LYR_FLIP_DEFERS c)).sticky (Reg.LYR_STATUS c) 0x10000 else t) s
    cancelled.foldl (fun t id =>
      let t := ((t.bump (Reg.LYR_FLIP_CANCELS c)).sticky (Reg.LYR_STATUS c) 0x20000).sticky (Reg.LYR_FLIP_RESULT c)
        (BitVec.ofNat 32 (2 ^ (16 + id % 16)))
      t.raise 0x0020 0 c id) s

/-- Reports the groups that flip at the next composed picture and have not been reported (R146). -/
def State.tellFlips (s : State) (c : Nat) : State :=
  s.onChan c fun ch s =>
    let new := ch.layers.flips.filter fun g => g.flipAt.isSome && !g.told
    let s := s.updChan c fun ch => { ch with layers := { ch.layers with
      flips := ch.layers.flips.map fun g => if g.flipAt.isSome then { g with told := true } else g } }
    new.foldl (fun t g => (t.bump (Reg.LYR_FLIPS c)).sticky (Reg.LYR_FLIP_RESULT c) (flipBit g.arg.id)) s

/-- One update of a flip group on the front state (R134, R142, R147): the cursor's position does not come from a flip. -/
def Layer.flip (l : Layer) (u : FlipUpdate) : Layer :=
  { surface := if u.enable = 0 ∧ u.surface = 0 then l.surface else u.surface
    x0 := if u.layer = 5 then l.x0 else u.x0, y0 := if u.layer = 5 then l.y0 else u.y0
    ga := u.ga, enable := u.enable = 1 }

/-- The front state of picture `n`, a composed one: groups due by `n` flip and leave (R144), the cursor decided by `n` applies
(R147). -/
def LayerState.latch (l : LayerState) (n : Nat) : LayerState :=
  let due := l.flips.filter fun g => match g.flipAt with | some p => decide (p ≤ n) | none => false
  let front := due.foldl (fun f g => g.arg.updates.foldl (fun f u => tset f u.layer ((tgetD f u.layer {}).flip u)) f) l.front
  let cur := (tfilter l.curAt fun p _ => decide (p ≤ n)).getLast?
  let front := match cur with
    | some (_, x, y, en) => tset front 5 { tgetD front 5 {} with x0 := x, y0 := y, enable := en }
    | none => front
  { l with
    front := front
    flips := l.flips.filter fun g => match g.flipAt with | some p => decide (n < p) | none => true
    curAt := tfilter l.curAt fun p _ => decide (n < p) }

/-- The cursor position in force at t0 (R147): of the register write and the queue entries that take effect, the one with the
later instant, the register winning a tie; queue entries that take effect leave the queue. -/
def LayerState.cursorAt (l : LayerState) (t0 : Nat) : LayerState :=
  let due := l.cursorQ.filter fun e => decide (e.at_ ≤ t0)
  let q := due.getLast?
  let r := match l.curReg with
    | some (x, y, w) => if w < t0 then some (x, y, w) else none
    | none => none
  let pos := match r, q with
    | none, none => l.curPos
    | some (x, y, _), none => (x, y, l.curPos.2.2)
    | none, some e => (e.x, e.y, e.enable)
    | some (x, y, w), some e => if e.at_ ≤ w then (x, y, e.enable) else (e.x, e.y, e.enable)
  { l with
    cursorQ := l.cursorQ.filter fun e => !decide (e.at_ ≤ t0)
    curReg := if r.isSome then none else l.curReg
    curPos := pos }

/-! ## Protected layer (R148 to R150) -/

/-- Which images of a layer match its stored CRC at a boundary, `k` saying which of them have kept what was written (R150). -/
def Protected.matches (p : Protected) (k : ProtCheck) : ProtCheck :=
  { cacheOk := k.cacheOk && !p.hurt && crc32c p.cache == p.crc
    copyAOk := k.copyAOk && crc32c p.copyA == p.crc
    copyBOk := k.copyBOk && crc32c p.copyB == p.crc }

/-- Copy B is the one that a boundary checks besides, rather than copy A; none is, where the chain has checked the one whose turn it is
(R150). -/
def checkBesides (k : ProtCheck) (turn : Bool) : Option Bool :=
  if k.cacheOk then some turn else if k.copyAOk && turn then some true else none

/-- The checks of a boundary on a loaded layer (R150): how many failed, and whether the layer is dropped. `turn` names the copy that is
checked besides. -/
def protCheck (k : ProtCheck) (turn : Bool) : Nat × Bool :=
  let chain : Nat := if k.cacheOk then 0 else if k.copyAOk then 1 else if k.copyBOk then 2 else 3
  let extra : Nat :=
    match checkBesides k turn with
    | some true => if k.copyBOk then 0 else 1
    | some false => if k.copyAOk then 0 else 1
    | none => 0
  (chain + extra, decide (chain = 3))

/-- The layer after the checks of a boundary (R150): the cache and copy A refilled as the chain says, the copy checked besides rewritten
from the other where it failed, or the layer dropped. -/
def Protected.checked (p : Protected) (k : ProtCheck) : Protected :=
  let q : Protected :=
    if k.cacheOk then p
    else if k.copyAOk then { p with cache := p.copyA, hurt := false }
    else if k.copyBOk then { p with cache := p.copyB, copyA := p.copyB, hurt := false }
    else { p with dropped := true }
  let q := match checkBesides k p.turn with
    | some true => if k.copyBOk then q else { q with copyB := p.copyA }
    | some false => if k.copyAOk then q else { q with copyA := p.copyB }
    | none => q
  { q with turn := !p.turn }

/-- The check of a boundary on a loaded layer (R150): counts, refills, the drop, the event and what a group makes of it. -/
def State.protRun (s : State) (c n : Nat) (k : ProtCheck) (p : Protected) : State :=
  if p.dropped then s
  else
    let k := p.matches k
    let r := protCheck k p.turn
    let s := s.updChan c fun ch => { ch with layers := { ch.layers with prot := some (p.checked k) } }
    let s := s.when (decide (0 < r.1)) fun t => (t.bumpBy (Reg.LYR_PROT_CRC_FAILS c) r.1).sticky (Reg.LYR_STATUS c) 0x100000
    if r.2 then
      let s := s.raise 0x0021 2 c (n % 2 ^ 48)
      let s := s.setFault c n 5
      if s.grp.role == .active then s.selfDemote [c] else s
    else s

/-- The protected layer at boundary `n` (R149, R150). -/
def State.protAt (s : State) (c n : Nat) (k : ProtCheck) : State :=
  s.onChan c fun ch s =>
    match ch.layers.prot with
    | none => s
    | some p =>
      match p.remove with
      | some (some r, _) =>
        if r ≤ n then s.updChan c fun ch => { ch with layers := { ch.layers with prot := none } } else s.protRun c n k p
      | _ => s.protRun c n k p

/-! ## Commits (R10, R241) -/

/-- The refresh interval in force after a boundary: a change committed during a sweep waits for its end (R99). -/
def Chan.takeInterval (ch : Chan) (n : Nat) : Chan × Bool :=
  if ch.refs.inSweep n then (ch, false)
  else
    ({ ch with refs := { ch.refs with interval := ch.active.refreshInterval } },
      ch.refs.interval != ch.active.refreshInterval)

/-- A running configuration becomes active from picture `n` on; the flow entries before it still feed the pictures before
(R10, R23). -/
def Chan.activate (ch : Chan) (n : Nat) (cfg : RunCfg) : Chan :=
  let same := cfg.flowA == ch.active.flowA && cfg.flowB == ch.active.flowB
  { ch with
    active := cfg, commitDue := false
    feedOld := if same then ch.feedOld else (ch.active.flowA, ch.active.flowB)
    feedFrom := if same then ch.feedFrom else ch.index n }

/-- The shadow copy becomes active at boundary `n`, its contents then being those of the generation in force (R10): what a
control-complex reset leaves of the shadow copy is what has been committed. -/
def State.commitShadow (s : State) (c n : Nat) (ch : Chan) : State :=
  (s.updChan c fun ch => ch.activate n ch.shadow).updGch c fun g => { g with genNow := g.gen, held := tset g.held g.gen ch.shadow }

/-- The configuration a boundary makes active: on a member the generation the decision for `n` names, else the shadow copy when
a commit waits (R10, R241). -/
def State.commitAt (s : State) (c n : Nat) (start : Bool) : State :=
  s.onChan c fun ch s =>
    if start then s.commitShadow c n ch
    else if s.member then
      let g := s.gch c
      match s.decision c (n - 2) with
      | some r =>
        if r.cfgGen == g.genNow then s
        else
          match tget g.held r.cfgGen with
          | some cfg =>
            (s.updChan c fun ch => ch.activate n cfg).updGch c fun g => { g with genNow := r.cfgGen }
          | none => s.sticky Reg.GRP_STATUS 0x400000
      | none => s
    else if ch.commitDue then s.commitShadow c n ch
    else s

/-- The member does not hold the generation that the decision for `n` names (R241). -/
def State.cfgLag (s : State) (c n : Nat) (start : Bool) : Bool :=
  !start && s.member &&
    match s.decision c (n - 2) with
    | some r => r.cfgGen != (s.gch c).genNow && !(thas (s.gch c).held r.cfgGen)
    | none => false

/-! ## The picture -/

/-- Pictures still needed at boundary `n`: recent ones, references, the one composed last (R113), and those not wholly sent. -/
def Chan.keepPics (ch : Chan) (n : Nat) : Chan :=
  let held := ch.refs.st ++ tvals ch.refs.lt ++ tvals ch.refs.marks ++ tkeys ch.refs.anchors ++ ch.layers.composed.toList
  { ch with pics := tfilter ch.pics fun k p =>
      decide (n < k + 20) || held.contains k || !(p.row (ch.cfg.main.rows - 1)).sent }

/-- Takes the AUs of pictures up to `n − 2` into the VBR surplus, once each (R87). -/
def Chan.takeSurplus (ch : Chan) (n : Nat) : Chan :=
  if ch.cfg.rate.rcMode = 0 then ch
  else
    (ch.pics.filter fun e => decide (e.1 + 2 ≤ n) && decide (ch.rate.lastAu < e.1 + 1)).foldl
      (fun a e => ({ a.surplus e.2.auSize with rate := { (a.surplus e.2.auSize).rate with lastAu := e.1 + 1 } } : Chan)) ch

/-- Forms picture `n` (R50, R99 to R114): refresh, references, POC and sweep position. `start` marks the start picture, `disc` the
first picture after an accepted time step. -/
def State.formPic (s : State) (c n ceiling : Nat) (start disc : Bool) : State :=
  s.onChan c fun ch s =>
    let m := ch.cfg.main
    let d := ch.cfg.refs
    let ti := ch.takeInterval n
    let ch := ti.1
    let f := ch.refs.close n
    let rf : Refresh :=
      if start then .idr else f.due d.refreshMode ch.active.sweepG d.rejoinG n (!m.format.interlaced || ch.index n % 2 == 0) ti.2
    let f := f.began rf n
    let idr := rf == .idr
    let isRep (k : Nat) : Bool := match ch.pic? k with | some p => p.isRepeat | none => false
    let cancelled := (marksCancelledBy f.marks n).length
    let hadLt := !f.lt.isEmpty
    let r : RefState × RefNews :=
      if idr then (f.idr n, { cancelled := cancelled, released := hadLt }) else f.form n isRep
    let news := r.2
    let f := r.1
    let refs := if idr then [] else f.lists d.stRefs
    let pos := f.pos n
    let rejoin := f.inRejoin n
    let clean := match pos with
      | some (j, g) => (refreshCols m.ctus g j).2
      | none => m.ctus
    let kind : PicKind := if idr then .idr else match pos with
      | some (0, _) => if rejoin then .inter else .recovery
      | _ => .inter
    let p : Pic :=
      { kind := kind, num := ch.index n, first := start || disc, discontinuity := disc
        ceiling := if rejoin then 0 else ceiling
        refs := refs, lts := if idr then [] else tvals f.lt, poc := n - f.lastIdr, sweepPos := pos, clean := clean, rejoin := rejoin
        removal := match f.lastBp with | some b => n - b | none => 0
        cfg := ch.active }
    let f := if p.hasBp then { f with lastBp := some n } else f
    let ch := (ch.takeSurplus n).keepPics n
    let s := s.setChan c { ch with
      refs := { f with st := (n :: f.st).take 16 }, pics := tset ch.pics n p }
    let s := s.when idr fun t => (t.bump (Reg.REF_IDR_COUNT c)).sticky (Reg.REF_STATUS c) 0x100
    let s := s.when (decide (0 < news.cancelled)) fun t =>
      (t.bumpBy (Reg.REF_MARKS_CANCELLED c) news.cancelled).sticky (Reg.REF_STATUS c) 0x1000
    let s := s.when (decide (0 < news.anchors)) fun t =>
      (t.bumpBy (Reg.REF_ANCHORS c) news.anchors).sticky (Reg.REF_STATUS c) 0x800
    s.when news.released fun t => t.sticky (Reg.REF_STATUS c) 0x2000

/-! ## The governor's and the decider's part (R238, R360, R361) -/

/-- Fixes the tier ceiling of picture `n + 2` (R360): on a single unit at once; on a member the unit's own decision goes into its
record (R361). Returns the tier. -/
def State.ceilingAt (s : State) (c n : Nat) : State × Nat :=
  let own := s.availPower
  let decider := s.grp.role == .active || s.grp.role == .unverified
  if s.member then
    let a := if decider then s.groupBudget own else own
    s.decideTier c a (if s.grp.role == .active then a else 0)
  else
    let r := s.decideTier c own 0
    (r.1.updChan c fun ch =>
      { ch with ceilings := tset (tfilter ch.ceilings fun k _ => decide (n ≤ k)) (n + 2) (r.2, false) }, r.2)

/-- The ceiling of picture `n`: on a member from the decision of `n − 2`, or 0 (R239, R361); else the one fixed two pictures
earlier, or Tier 0 where no record exists (R49). -/
def State.ceilingOf (s : State) (c n : Nat) : Nat :=
  if s.member then
    match s.decision c (n - 2) with
    | some r => r.ceiling
    | none => 0
  else
    match tget s.chans c with
    | some ch => (tgetD ch.ceilings n (0, false)).1
    | none => 0

/-- The cursor's enable after flip groups take effect: the update of the cursor decides it (R147). -/
def cursorEnable (gs : List FlipGroup) (en : Bool) : Bool :=
  gs.foldl (fun (e : Bool) g => g.arg.updates.foldl (fun e u => if u.layer = 5 then u.enable = 1 else e) e) en

/-- The flip groups that this unit decides to flip at t0(n) (R144, R145): the eligible ones that are not on their way, neither with a flip
picture of theirs nor named by the decision of the picture before. -/
def State.flipsChosen (s : State) (c n : Nat) (ch : Chan) : List FlipGroup :=
  let named : List Nat := if s.member && decide (0 < n) then (match s.decision c (n - 1) with | some r => r.flips | none => []) else []
  ch.layers.flips.filter fun g => g.flipAt.isNone && !(named.contains g.arg.id) && flipEligible ch s.surf.fences g n

/-- What this unit decides for `n + 2` at t0(n) (R238), kept for its picture record. The cursor's enable that it names is the one its flips
leave, and on the active unit holds from here (R145, R147). -/
def State.decideAt (s : State) (c n tier : Nat) : State :=
  s.onChan c fun ch s =>
    if s.member then
      let gs := s.flipsChosen c n ch
      let elig := gs.map (·.arg.id)
      let en := cursorEnable gs ch.layers.curPos.2.2
      let s := s.when (s.grp.role == .active) fun s => s.updChan c fun ch =>
        { ch with layers := { ch.layers with curPos := (ch.layers.curPos.1, ch.layers.curPos.2.1, en) } }
      let r : PicRec :=
        { chan := c, pic := ch.index n, digPic := ch.wire (n - ch.digestLag), auCrc := 0, recCrc := 0, faults := 0
          budget := s.availPower, ceiling := tier, decider := s.grp.role == .active, flips := elig
          cursorX := ch.layers.curPos.1, cursorY := ch.layers.curPos.2.1, cursorEn := en
          cfgGen := (s.gch c).gen, stepPic := (match ch.stepPic with | some m => ch.index m | none => 0), gaps := [], overflow := false }
      s.updGch c fun g => { g with own := tset g.own n r }
    else s

/-- Layers at boundary `n`: the position in force, then on a single unit the eligible groups and the cursor of this picture, on
a member what the decision of `n − 2` names (R144, R145, R147, R239). -/
def State.layersAt (s : State) (c n : Nat) : State :=
  s.onChan c fun ch s =>
    let l := ch.layers.cursorAt (ch.t0 n)
    let s := s.updChan c fun ch => { ch with layers := l }
    if s.member then
      match s.decision c (n - 2) with
      | some r =>
        -- a unit that did not decide them learns the cursor's enable with the flips themselves
        let gs := if s.grp.role == .active then [] else l.flips.filter fun g => g.flipAt.isNone && r.flips.contains g.arg.id
        (s.flipsAt c n 2 r.flips).updChan c fun ch =>
          { ch with layers := { ch.layers with
              curPos := (l.curPos.1, l.curPos.2.1, cursorEnable gs l.curPos.2.2)
              curAt := tset ch.layers.curAt n (r.cursorX, r.cursorY, r.cursorEn) } }
      | none => s.flipsAt c n 2 []
    else
      let gs := s.flipsChosen c n ch
      let en := cursorEnable gs l.curPos.2.2
      (s.flipsAt c n 0 (gs.map (·.arg.id))).updChan c fun ch =>
        { ch with layers := { ch.layers with
            curPos := (l.curPos.1, l.curPos.2.1, en)
            curAt := tset ch.layers.curAt n (l.curPos.1, l.curPos.2.1, en) } }

/-- The votes whose records fall due at t0(n) (R244, Table 12-7). -/
def State.votesDue (s : State) (c n : Nat) : State :=
  s.onChan c fun ch s =>
    if s.member && s.grp.role != .unverified && decide (2 + ch.digestLag ≤ n) then
      (s.vote c (n - 2) (n - 2 - ch.digestLag)).updGch c (·.prune (n - 24))
    else s

/-- A layer command taken while the channel was not running takes its picture by its time (R104, R327). -/
def Chan.layerPic (ch : Chan) (n : Nat) (f : TimeField) : Nat := max n (ch.picAt (nsTicks (f.sec * 1000000000 + f.ns)))

/-- The pictures of a protected layer loaded, or to be removed, while the channel was not running (R327). -/
def Protected.resolve (p : Protected) (ch : Chan) (n : Nat) : Protected :=
  let p := if p.from_.isNone then { p with from_ := some (ch.layerPic n p.time) } else p
  match p.remove with
  | some (none, f) => { p with remove := some (some (ch.layerPic n f), f) }
  | _ => p

/-- The drain between the last DU before a stop and DU 0 of picture `n`, steps of `o` in 2^-16 ns lying between (R83, R95): that of the
physical interval. -/
def Chan.idleDrain (ch : Chan) (n : Nat) (o : Int) : Nat :=
  match ch.rate.last with
  | some d =>
    let gap : Int := ((ch.cfg.main.t0 (ch.index n) : Int) - ch.cfg.main.t0 (ch.index d.1) - (d.2 * ch.cfg.main.tRow : Nat)) * 65536
      + o * (Config.ticksPerNs : Nat)
    ch.cfg.rate.bitRate * (fdiv gap (65536 * Config.ticksPerNs)).toNat / 1000000000
  | none => 0

/-- An ARMED channel reaches its start picture (R34, R35, R39): RUNNING, the video layer black, the ledgers' origin set by the
first picture ever. A protected layer loaded while the channel was not running takes effect by its time (R327). -/
def Chan.start (ch : Chan) (n : Nat) : Chan :=
  let prot := ch.layers.prot.map (·.resolve ch n)
  { ch with
    st := .running, inputLost := false
    layers := { ch.layers with video := [], anyInput := false, means := [], prevMeans := [], prot := prot }
    rate := if ch.rate.last.isNone && ch.rate.lastFin.isNone then { ch.rate with origins := [(n, 0)] } else
      match ch.idleStep with
      | some o => { ch.rate with origins := (n, ch.idleDrain n o) :: ch.rate.origins }
      | none => ch.rate
    idleStep := none
    refs := { ch.refs with
      sweep := none, closing := none, restart := none, requests := ch.refs.requests.filter fun q => decide (n < q) } }

/-- Picture `n` of a coding channel begins (R10): commit, layers, references, the protected layer. -/
def State.beginPic (s : State) (c n : Nat) (k : ProtCheck) (start disc : Bool) : State :=
  let lag := s.cfgLag c n start
  let s := s.commitAt c n start
  let s := s.layersAt c n
  let before : Tab Nat := match tget s.chans c with | some ch => ch.refs.lt | none => []
  let s := (s.formPic c n (s.ceilingOf c n) start disc).copySlots c n before
  let s := s.when lag fun t => t.setFault c n 7
  let s := s.protAt c n k
  let s := s.updChan c fun ch => ch.updPic n fun p => { p with prot := ch.layers.prot }
  -- flips of a picture known to be composed are reported once the picture before has no row to come (R146)
  s.onChan c fun ch s =>
    let before := match ch.pic? (n - 1) with
      | some p => (p.row (ch.cfg.main.rows - 1)).entered
      | none => true
    if before && !ch.inputLost then s.tellFlips c else s

/-- The part of boundary `n` that every active channel has: the governor's decision, then the picture, if the channel codes one
(R10, R34, R360). `disc` marks the first picture after an accepted time step. -/
def State.boundaryRun (s : State) (c n : Nat) (k : ProtCheck) (disc : Bool) : State :=
  s.onChan c fun ch s =>
    let s := s.updChan c fun ch => { ch with nextPic := n + 1 }
    let ct := s.ceilingAt c n
    let s := ct.1
    let start := ch.st == .armed && decide (ch.startPic ≤ n)
    let ended := match ch.stopPic with
      | some q => decide (q ≤ n)
      | none => false
    if (ch.st == .armed && !start) || ended then s
    else
      let s := if start then s.updChan c (·.start n) else s
      let s := s.votesDue c n
      let s := s.when s.member fun t => t.updGch c fun g =>
        if g.phase == .refresh && g.rp == some (n - 1) && decide (0 < n) then { g with phase := .confirm } else g
      let s := s.beginPic c n k start disc
      s.decideAt c n ct.2

/-- On a member that is not active, the picture at which the channel changes clock comes with the decision for `n` (R217, R238). -/
def State.takeStepPic (s : State) (c n : Nat) : State :=
  if s.member && s.grp.role != .active then
    match s.decision c (n - 2) with
    | some r =>
      s.updChan c fun ch =>
        if r.stepPic ≠ 0 ∧ n ≤ ch.serial r.stepPic then { ch with stepPic := some (ch.serial r.stepPic) } else ch
    | none => s
  else s

/-- The boundary t0(n) of channel `c` (R10), `n` being the channel's next picture. The boundary at which a channel changes clock
is its CHANNEL_CLOCK_CHANGE (R215). -/
def State.boundary (s : State) (c : Nat) (k : ProtCheck) : State :=
  s.onChan c fun ch s =>
    if ch.st.active then
      let s := s.takeStepPic c ch.nextPic
      s.onChan c fun ch s =>
        match ch.stepPic with
        | some m => if m ≤ ch.nextPic ∧ ch.st.coding then s else s.boundaryRun c ch.nextPic k false
        | none => s.boundaryRun c ch.nextPic k false
    else s

/-- PICTURE_BOUNDARY (R10). -/
def execPictureBoundary (c : Nat) (prot : ProtCheck) (s : State) : Host.Outcome State Fault Refusal :=
  .next (s.boundary c prot)

end Sys2Proof.Machine
end

