-- ==== Sys2Proof/Machine/RatOps.lean ====
section
/-!
DEFINITION. Sending on the ratline (R283 to R285, R291): the link layer of a port with its replay buffer and outbound queue, and
messages from this unit.
-/
namespace Sys2Proof.Machine

/-- A ratline port, 0 east or 1 west, is UP (ports 2 and 3 of R278). -/
def State.ratUp (s : State) (port : Nat) : Bool := s.portUp (2 + port)

/-- Sends waiting messages of a port while its replay buffer of 8 frames has room (R285), at most `fuel` of them. -/
def State.ratPump : Nat → State → Nat → State
  | 0, s, _ => s
  | fuel + 1, s, port =>
    let rp := tgetD s.rat.replay port []
    match tgetD s.rat.outQ port [] with
    | [] => s
    | f :: rest =>
      if s.ratUp port && decide (rp.length < 8) then
        let l := tgetD s.rat.nextLink port 0
        let e : ReplayFrame RatFrame := ⟨l, 0, s.time.up, f⟩
        let s := { s with rat := { s.rat with
          replay := tset s.rat.replay port (rp ++ [e])
          nextLink := tset s.rat.nextLink port ((l + 1) % 256)
          outQ := tset s.rat.outQ port rest } }
        State.ratPump fuel ((s.emit (.rat port l f)).pmuEvent 8 2) port
      else s

/-- Puts a message out of a port: through the outbound queue of at most 256 (R291); a port that is not UP sends nothing. -/
def State.ratOut (s : State) (port : Nat) (f : RatFrame) : State :=
  let q := tgetD s.rat.outQ port []
  if s.ratUp port && decide (q.length < 256) then
    State.ratPump 8 { s with rat := { s.rat with outQ := tset s.rat.outQ port (q ++ [f]) } } port
  else s

/-- A message of this unit (Table 14-1). -/
def State.ratFrame (s : State) (dst seq : Nat) (west : Bool) (m : RatMsg) : RatFrame :=
  { west := west, manager := s.rat.manager, src := s.rat.addr, dst := dst, seq := seq, hops := 0, msg := m }

/-- Sends a message under a given sequence number on both ports (R283). -/
def State.ratSendAs (s : State) (dst seq : Nat) (m : RatMsg) : State :=
  (s.ratOut 0 (s.ratFrame dst seq false m)).ratOut 1 (s.ratFrame dst seq true m)

/-- Takes the next source sequence number (R284). -/
def State.ratNext (s : State) : State := { s with rat := { s.rat with seq := (s.rat.seq + 1) % 2 ^ 32 } }

/-- Sends a message with the next sequence number on both ports (R283, R284). -/
def State.ratSend (s : State) (dst : Nat) (m : RatMsg) : State := s.ratNext.ratSendAs dst s.rat.seq m

/-- The unit acts as manager: strapped so and not in conflict (R279, R280). -/
def State.manages (s : State) : Bool := s.rat.manager && !s.rat.conflict

end Sys2Proof.Machine
end

