-- ==== Sys2Proof/Machine/Mailbox.lean ====
section
/-!
DEFINITION. Mailboxes, sessions and the journal (chapter 15): words in both directions (R300 to R304, R317), completions (R305),
closing a session (R311), the journal rule (R313), sessions and nonces (R308, R309), and the answer a command's body gives.
-/
namespace Sys2Proof.Machine

/-! ## Status codes (Table 16-2) -/

def eOk : Nat := 0
def eBusy : Nat := 1
def eBadOpcode : Nat := 2
def eBadParam : Nat := 3
def eNotAuthorised : Nat := 4
def eSessionLost : Nat := 5
def eNoCapacity : Nat := 6
def eRejectedSelftest : Nat := 7
def eCrc : Nat := 8
def eState : Nat := 9
def eTimeout : Nat := 10

/-! ## The answer of a command's body -/

/-- Who issues a command: its origin, the key slot and roles of its session, and its block's sequence. -/
structure CmdCtx where
  from_ : CmdOrigin
  slot  : Nat
  roles : Nat
  seq   : Nat
deriving DecidableEq, Repr

/-- The session's pair, 0 for the lobby and for a forwarded command. -/
def CmdCtx.pair (x : CmdCtx) : Nat :=
  match x.from_ with
  | .host p _ _ => p
  | .ratline _ => 0

/-- What executing a command gives: the state, the completion's status and payload, a stored completion to return in its place
(R313), a reason why the completion waits, and a session to close once it has been posted. -/
structure Answer where
  st     : State
  status : Nat := eOk
  data   : List Byte := []
  stored : Option Completion := none
  hold   : Option HoldWhy := none
  close  : Option (Nat × Nat) := none
deriving DecidableEq, Repr

/-- The first failing check of R321: conditions in order, each with its status. -/
def firstBad : List (Bool × Nat) → Option Nat
  | [] => none
  | (b, e) :: r => if b then some e else firstBad r

/-- Executes `f` when no check of R321 fails; a refused command changes nothing (R320). -/
def State.checked (s : State) (checks : List (Bool × Nat)) (f : State → Answer) : Answer :=
  match firstBad checks with
  | some e => { st := s, status := e }
  | none => f s

/-- The command is done. -/
def State.done (s : State) : Answer := { st := s }

/-- The command is done with a completion payload. -/
def State.reply (s : State) (d : List Byte) : Answer := { st := s, data := d }

/-! ## Words -/

/-- A mailbox word (Table 15-4). -/
def mbxWord (type tag param : Nat) : Word := BitVec.ofNat 32 (type * 2 ^ 28 + tag % 4096 * 2 ^ 16 + param % 2 ^ 16)

/-- Type, tag and parameter of a mailbox word. -/
def wordType (w : Word) : Nat := wfield w 31 28
def wordTag (w : Word) : Nat := wfield w 27 16
def wordParam (w : Word) : Nat := wfield w 15 0

/-- Queues a D2H word of a pair (R317); a word other than CLOSED answers the H2D word read last (R412). -/
def State.queueWord (s : State) (p : Nat) (w : Word) : State :=
  let answers : Bool := wordType w != 6
  { s with mbx := { s.mbx with
      queue := tset s.mbx.queue p (tgetD s.mbx.queue p [] ++ [(w, if answers then tget s.mbx.asking p else none)])
      asking := if answers then tdel s.mbx.asking p else s.mbx.asking } }

/-- Posts the oldest queued word of a pair when its mailbox is empty, with vector 2 + p (R302, R317). -/
def State.postWord (s : State) (p : Nat) : State :=
  match tgetD s.mbx.queue p [], thas s.mbx.d2h p with
  | (w, at_) :: rest, false =>
    let s := { s with mbx := { s.mbx with
        d2h := tset s.mbx.d2h p w
        queue := if rest.isEmpty then tdel s.mbx.queue p else tset s.mbx.queue p rest } }
    let s := match at_ with
      | some t => s.hist 1 p ((s.time.up : Int) - t)
      | none => s
    s.signal (2 + p)
  | _, _ => s

/-- The firmware's read of an H2D mailbox empties it, with vector 11 + p (R301). -/
def State.takeWord (s : State) (p : Nat) : State :=
  { s with mbx := { s.mbx with
      h2d := tdel s.mbx.h2d p, h2dAt := tdel s.mbx.h2dAt p
      asking := match tget s.mbx.h2dAt p with
        | some t => tset s.mbx.asking p t
        | none => tdel s.mbx.asking p } }.signal (11 + p)

/-- The H2D mailbox of a pair holds a word, and the pair's queue has room for its answer (R317). -/
def State.waits (s : State) (p : Nat) : Bool := thas s.mbx.h2d p && decide ((tgetD s.mbx.queue p []).length < 256)

/-- The pair whose word the firmware reads next: round robin from the pair after the one served last (R323). -/
def State.turn (s : State) : Option Nat := ((List.range 9).map fun i => (s.mbx.lastPair + 1 + i) % 9).find? s.waits

/-- Firmware reads the H2D word of a pair next: it is ready, no command is in execution, and it is the pair's turn (R314, R323). -/
def State.mayRead (s : State) (p : Nat) : Bool := s.mbx.fwReady && s.mbx.held.isNone && s.turn == some p

/-- Firmware reads the word of the pair whose turn it is. -/
def State.serveWord (s : State) (p : Nat) : State := { s with mbx := { s.mbx with lastPair := p } }.takeWord p

/-- REFUSED with a tag and a status (R304). -/
def State.refuseWord (s : State) (p tag status : Nat) : State := s.queueWord p (mbxWord 5 tag status)

/-- Why a word cannot be answered through a block, in R304's order. -/
def State.wordRefusal (s : State) (p : Nat) (w : Word) : Option Nat :=
  if wordType w ≠ 1 ∧ wordType w ≠ 2 then some eBadOpcode
  else if wordType w = 1 ∧ 31 < wordParam w then some eBadParam
  else if p ≠ 0 ∧ !(thas s.mbx.sessions p) then some eNotAuthorised
  else none

/-- Answers a word LOST: its block's status reads E_SESSION_LOST (R311, R315). -/
def State.loseWord (s : State) (p : Nat) (w : Word) : State :=
  let b := 32 * p + wordParam w
  let s := if wordType w = 1 ∧ wordParam w ≤ 31 then
      { s with mbx := { s.mbx with lost := insertNat b s.mbx.lost, blocks := tdel s.mbx.blocks b } } else s
  (s.queueWord p (mbxWord 4 (wordTag w) (wordParam w))).bump Reg.MBX_LOST

/-! ## Completions -/

/-- Payload length limit of a completion that is not OK: 0 (R319). -/
def okData (status : Nat) (d : List Byte) : List Byte := if status = eOk then d else []

/-- Puts a completion into its block and queues the COMPLETION word (R306), or sends it to the manager (R290). -/
def State.complete (s : State) (o : CmdOrigin) (c : Completion) (silent : Bool) : State :=
  match o with
  | .host p tag b =>
    let k := 32 * p + b
    let s := { s with mbx := { s.mbx with blocks := tset s.mbx.blocks k c, win := tdel s.mbx.win k, lost := s.mbx.lost.filter (· != k) } }
    if silent then s else s.queueWord p (mbxWord 1 tag b)
  | .ratline src => s.ratSend src (.completion { c with forwarded := true })

/-- The completion of a command's block. -/
def completionOf (h : CmdHdr) (op status : Nat) (dup : Bool) (d : List Byte) : Completion :=
  { opcode := op, seq := h.seq, session := h.session, target := h.target, duplicate := dup, fetched := false
    forwarded := false, status := status, payload := okData status d }

/-! ## Command windows (R297) -/

/-- The 256 bytes of a block as the host reads them: what it has written since the last completion, else the completion, with the status
of a LOST answer (R305, R315). A block that nothing has written reads 0. -/
def State.window (s : State) (k : Nat) : List Byte :=
  let b := match tget s.mbx.win k, tget s.mbx.blocks k with
    | some b, _ => b
    | none, some c => c.block
    | none, none => List.replicate 256 0
  if s.mbx.lost.contains k then overlay b [(12, 5), (13, 0)] else b

/-- An access to BAR2 lies within one block (R297). -/
def inBlock (off n : Nat) : Bool := decide (off % 256 + n ≤ 256)

/-- A read of BAR2 (R297): one that crosses a block boundary ends as a bad read of R5; beyond the windows it reads 0. -/
def State.windowRead (s : State) (off len : Nat) : State :=
  if !(inBlock off len) then s.emit .abort
  else if 0x12000 ≤ off then s.emit (.windowData (List.replicate len 0))
  else s.emit (.windowData (((s.window (off / 256)).drop (off % 256)).take len))

/-- A write of BAR2 (R297). -/
def State.windowWrite (s : State) (off : Nat) (d : List Byte) : State :=
  let k := off / 256
  if !(inBlock off d.length) then s.badAccess
  else if 0x12000 ≤ off then s
  else
    let b := s.window k
    { s with mbx := { s.mbx with
        win := tset s.mbx.win k (b.take (off % 256) ++ d ++ b.drop (off % 256 + d.length)), lost := s.mbx.lost.filter (· != k) } }

/-! ## Journal (R312, R313) -/

/-- high(k): the highest sequence in a journal, 0 when empty. -/
def journalHigh (j : Tab JEntry) : Nat := match j.getLast? with | some e => e.1 | none => 0

/-- Enters a sequence, keeping the last 32,768 commands. -/
def journalPut (j : Tab JEntry) (q : Nat) (e : JEntry) : Tab JEntry :=
  let t := tset j q e
  t.drop (t.length - 32768)

/-- The journal a command is entered in: its key slot's, or on a worker that of the source address and key slot (R290). -/
def State.journalOf (s : State) (x : CmdCtx) : Tab JEntry :=
  match x.from_ with
  | .host _ _ _ => tgetD s.mbx.journal x.slot []
  | .ratline src => tgetD s.rat.stored (8 * src + x.slot) []

/-- Puts that journal back. -/
def State.setJournal (s : State) (x : CmdCtx) (j : Tab JEntry) : State :=
  match x.from_ with
  | .host _ _ _ => { s with mbx := { s.mbx with journal := if j.isEmpty then tdel s.mbx.journal x.slot else tset s.mbx.journal x.slot j } }
  | .ratline src => { s with rat := { s.rat with stored := tset s.rat.stored (8 * src + x.slot) j } }

/-- What the journal rule says of a sequence (R313, R419). -/
inductive JournalRule where
  | refuse (status : Nat)
  | repeated (c : Completion)
  | inProgress
  | damaged
  | fresh
deriving DecidableEq, Repr

/-- The journal rule (R313). -/
def journalRule (j : Tab JEntry) (q : Nat) : JournalRule :=
  if q = 0 then .refuse eBadParam
  else
    match tget j q with
    | some (.done c) => .repeated c
    | some .inProgress => .inProgress
    | some .damaged => .damaged
    | none => if journalHigh j < q then .fresh else .refuse eState

/-! ## Sessions -/

/-- Discards the completions queued for a pair and not posted (R311). -/
def State.dropCompletions (s : State) (p : Nat) : State :=
  let q := (tgetD s.mbx.queue p []).filter fun w => wordType w.1 != 1
  { s with mbx := { s.mbx with queue := if q.isEmpty then tdel s.mbx.queue p else tset s.mbx.queue p q } }

/-- Ends the session of a pair: a waiting word is answered LOST and a CLOSED word with the reason is queued; after a function-level
reset there is neither (no reason). -/
def State.shutSession (s : State) (p : Nat) (reason : Option Nat) : State :=
  match tget s.mbx.sessions p with
  | none => s
  | some _ =>
    let s := { s with mbx := { s.mbx with sessions := tdel s.mbx.sessions p } }.sticky (Reg.MBX_STATUS p) 0x20000
    match reason with
    | some r =>
      let s := match tget s.mbx.h2d p with
        | some w => (s.takeWord p).loseWord p w
        | none => s
      s.queueWord p (mbxWord 6 0 r)
    | none => s

/-- Closes the session of a pair (R311): queued completions are discarded, and the session ends. -/
def State.closeSession (s : State) (p : Nat) (reason : Option Nat) : State :=
  if thas s.mbx.sessions p then (s.dropCompletions p).shutSession p reason else s

/-- The pair of a key slot's session (R310). -/
def State.slotPair (s : State) (slot : Nat) : Option Nat := (s.mbx.sessions.find? fun e => e.2.slot == slot).map (·.1)

/-- A pair is free: no session on it and no nonce that reserves it. -/
def State.pairFree (s : State) (p : Nat) : Bool :=
  !(thas s.mbx.sessions p) && !(s.mbx.nonces.any (·.pair == p))

/-- The pair SESSION_OPEN reserves (R308): the slot's own session's, the one asked for, or the lowest free one. -/
def State.pairFor (s : State) (slot want : Nat) : Option Nat :=
  match s.slotPair slot with
  | some p => some p
  | none => if want = 0 then (rangeFrom 1 8).find? s.pairFree else if s.pairFree want then some want else none

/-- The proof message of Table 15-7. -/
def proofMessage (label : Nat) (nonce : BitVec 128) (unitId : BitVec 64) (slot roles pair : Nat) : List Byte :=
  [BitVec.ofNat 8 label] ++ leBytes 16 nonce.toNat ++ leBytes 8 unitId.toNat
    ++ [BitVec.ofNat 8 slot, BitVec.ofNat 8 roles, BitVec.ofNat 8 pair]

/-- SESSION_OPEN (R308, R328). -/
def State.doSessionOpen (s : State) (p : SessionOpenArg) : Answer :=
  s.checked [
      (decide (7 < p.keySlot) || decide (31 < p.roles) || decide (8 < p.pair) || !(thas s.dev.nvm.keys p.keySlot), eBadParam),
      (s.mbx.locked.contains p.keySlot || (s.pairFor p.keySlot p.pair).isNone, eBusy)] fun s =>
    let pr := (s.pairFor p.keySlot p.pair).getD 0
    let n := Config.nonce s.fresh
    let e : Nonce := ⟨n, p.keySlot, p.roles, pr⟩
    let s := { s with
      fresh := s.fresh + 1
      mbx := { s.mbx with nonces := takeLast 8 (s.mbx.nonces ++ [e]) } }
    s.reply (leBytes 16 n.toNat ++ leBytes 8 s.dev.nvm.unitId.toNat ++ leBytes 4 pr)

/-- A failed proof of a key slot: four within 60 s lock it (R309). -/
def State.failProof (s : State) (slot : Nat) : State :=
  let recent := ((tgetD s.mbx.fails slot []).filter fun t => decide (s.time.up < t + 60000000000)) ++ [s.time.up]
  if 4 ≤ recent.length then
    { s with mbx := { s.mbx with fails := tdel s.mbx.fails slot, locked := insertNat slot s.mbx.locked } }
  else { s with mbx := { s.mbx with fails := tset s.mbx.fails slot recent } }

/-- SESSION_PROVE (R309, R311, R328). -/
def State.doSessionProve (s : State) (p : SessionProveArg) : Answer :=
  match s.mbx.nonces.find? (·.nonce == p.nonce) with
  | none => { st := s, status := eNotAuthorised }
  | some n =>
    let s := { s with mbx := { s.mbx with nonces := s.mbx.nonces.filter fun m => m.nonce != p.nonce } }
    let good := match tget s.dev.nvm.keys n.slot with
      | some (key, roles) =>
        Config.hmac key (proofMessage 0x48 n.nonce s.dev.nvm.unitId n.slot n.roles n.pair) == p.proof && n.roles &&& roles == n.roles
      | none => false
    if good then
      let s := match s.slotPair n.slot with
        | some q => s.closeSession q (some 2)
        | none => s
      let s := { s with mbx := { s.mbx with sessions := tset s.mbx.sessions n.pair ⟨n.slot, n.roles⟩ } }
      let key := match tget s.dev.nvm.keys n.slot with | some (k, _) => k | none => 0
      let proof := Config.hmac key (proofMessage 0x44 n.nonce s.dev.nvm.unitId n.slot n.roles n.pair)
      s.reply (leBytes 16 proof.toNat ++ leBytes 4 (journalHigh (tgetD s.mbx.journal n.slot [])))
    else { st := s.failProof n.slot, status := eNotAuthorised }

/-- SESSION_CLOSE (R311, R329): the session closes once the completion has been posted. -/
def State.doSessionClose (s : State) (x : CmdCtx) : Answer := { st := s, close := some (x.pair, 1) }

/-- COMPLETION_FETCH (R313, R329, R419). -/
def State.doCompletionFetch (s : State) (x : CmdCtx) (q : Nat) : Answer :=
  match tget (s.journalOf x) q with
  | some (.done c) => { st := s, stored := some { c with duplicate := true, fetched := true }, status := c.status }
  | some .inProgress => { st := s, status := eBusy }
  | some .damaged => { st := s, status := eCrc }
  | none => { st := s, status := eState }

/-- KEY_WRITE (R312, R330). -/
def State.doKeyWrite (s : State) (p : KeyWriteArg) : Answer :=
  let keys : Tab (BitVec 256 × Nat) :=
    if p.roles = 0 then tdel s.dev.nvm.keys p.keySlot else tset s.dev.nvm.keys p.keySlot (p.key, p.roles)
  s.checked [
      (decide (7 < p.keySlot) || decide (31 < p.roles) || (p.roles == 0 && p.key != 0), eBadParam),
      (!(keys.any fun e => e.2.2.testBit 4), eState)] fun s =>
    { st := { s with
        dev := { s.dev with nvm := { s.dev.nvm with keys := keys } }
        mbx := { s.mbx with journal := tdel s.mbx.journal p.keySlot } }
      close := (s.slotPair p.keySlot).map fun q => (q, Config.keyWriteReason) }

/-! ## The long-running SHUTDOWN (R333) -/

/-- Every channel is STOPPED or DEFINED. -/
def State.allStopped (s : State) : Bool := s.chans.all fun e => !e.2.st.active

/-- Completes a held command: its journal entry and its completion. -/
def State.finishHeld (s : State) (h : HeldCmd) (op status : Nat) (d : List Byte) : State :=
  let x : CmdCtx := ⟨h.from_, h.slot, h.roles, h.hdr.seq⟩
  let c := completionOf h.hdr op status false d
  let s := { s with mbx := { s.mbx with held := none } }
  let j := s.journalOf x
  let s := if thas j h.hdr.seq then s.setJournal x (journalPut j h.hdr.seq (.done c)) else s
  s.complete h.from_ c h.silent

/-- SHUTDOWN's completion once every channel has stopped; with mode 1 the device is then HALTED, with mode 0 the self-test
begins (R325, R333). -/
def State.settleShutdown (s : State) : State :=
  match s.mbx.held with
  | some h =>
    if h.why == .shutdown && s.allStopped then
      let s := match h.body with
        | .shutdown p => if p.object = 1 then { s with dev := { s.dev with state := .halted } } else s
        | _ => s
      s.finishHeld h 0x0204 eOk []
    else s
  | none => s

/-- GROUP_JOIN's completion once a hello has been sent (R352). -/
def State.settleJoin (s : State) : State :=
  match s.mbx.held with
  | some h => if h.why == .hello && (s.portUp 0 || s.portUp 1) then s.finishHeld h 0x0802 eOk [] else s
  | none => s

/-! ## Events of the mailboxes -/

/-- MBX_H2D_WRITE (R301): stored while the flag is clear, else rejected and counted, with vector 1. -/
def execMbxH2dWrite (p : Nat) (w : Word) (s : State) : Host.Outcome State Fault Refusal :=
  .next (
    if 8 < p then s
    else s.barWrite fun s =>
      if thas s.mbx.h2d p then
        ((s.unsupported.sticky (Reg.MBX_STATUS p) 0x10000).bump (Reg.MBX_REJECTS p)).signal 1
      else { s with mbx := { s.mbx with h2d := tset s.mbx.h2d p w, h2dAt := tset s.mbx.h2dAt p s.time.up } })

/-- MBX_D2H_READ (R302): the word, 0 when empty, and the flag cleared. -/
def execMbxD2hRead (p : Nat) (s : State) : Host.Outcome State Fault Refusal :=
  .next (s.barRead fun s =>
    { s with mbx := { s.mbx with d2h := tdel s.mbx.d2h p } }.emit (.readData (tgetD s.mbx.d2h p 0)))

/-- D2H_QUEUE_POST (R317). -/
def execD2hQueuePost (p : Nat) (s : State) : Host.Outcome State Fault Refusal :=
  .next (if s.mbx.fwReady then s.postWord p else s)

/-- PING (R303, R304): PONG with the same value, or REFUSED where no block could carry an answer. A word that announces a command
waits for that command's own row. -/
def execPing (p : Nat) (s : State) : Host.Outcome State Fault Refusal :=
  .next (
    match tget s.mbx.h2d p with
    | none => s
    | some w =>
      if s.mayRead p then
        match s.wordRefusal p w with
        | some e => (s.serveWord p).refuseWord p (wordTag w) e
        | none =>
          if wordType w = 2 then (s.serveWord p).queueWord p (mbxWord 2 (wordTag w) (wordParam w)) else s
      else s)

/-- SESSION_IDLE_TIMEOUT (R311). -/
def execSessionIdleTimeout (p : Nat) (s : State) : Host.Outcome State Fault Refusal := .next (s.closeSession p (some 3))

/-- NONCE_EXPIRY (R308). -/
def execNonceExpiry (nonce : BitVec 128) (s : State) : Host.Outcome State Fault Refusal :=
  .next { s with mbx := { s.mbx with nonces := s.mbx.nonces.filter fun n => n.nonce != nonce } }

/-- SLOT_LOCK_EXPIRY (R309). -/
def execSlotLockExpiry (slot : Nat) (s : State) : Host.Outcome State Fault Refusal :=
  .next { s with mbx := { s.mbx with locked := s.mbx.locked.filter (· != slot) } }

end Sys2Proof.Machine
end

