-- ==== Sys2Proof/Machine/Clock.lean ====
section
/-!
DEFINITION. The timebase, the servo and PTP (chapter 11): the clock's cycle (R209), offsets and steps (R211 to R217), the PTP
exchange and its two ports (R207, R208) and the pulses (R220).
-/
namespace Sys2Proof.Machine

/-! ## The clock (R209, R210) -/

/-- One TIME cycle: the clock advances by the increment, with its carries (R209). -/
def TimeState.tick (t : TimeState) : TimeState :=
  let f := t.frac + t.incr
  let n := t.ns + f / 2 ^ 40
  { t with
    up := t.up + 1
    frac := f % 2 ^ 40
    ns := if n < 1000000000 then n else n - 1000000000
    sec := if n < 1000000000 then t.sec else (t.sec + 1) % 2 ^ 48 }

/-- What a step does when no command waits: one TIME cycle passes. -/
def State.idle (s : State) : State := { s with time := s.time.tick }

/-- TIME_NOW_NS_READ (R210): the nanoseconds, with seconds and fraction of the same cycle latched. -/
def execTimeNowNsRead (s : State) : Host.Outcome State Fault Refusal :=
  .next (s.hostRead Reg.TIME_NOW_NS fun s =>
    { s with time := { s.time with latchS := s.time.sec, latchF := s.time.frac / 2 ^ 24 } }.emit
      (.readData (BitVec.ofNat 32 s.time.ns)))

/-! ## The servo (R211 to R213) -/

/-- 2^40 × (1 + y × 10^-9) rounded to the nearest (R211), y in 2^-32 ppb. A value halfway between two is rounded as the free
choice has it. -/
def incrementOf (y : Int) : Nat :=
  let v := y * 256
  let q := fdiv v 1000000000
  let r := v - q * 1000000000
  let q := if 2 * r < 1000000000 then q else if 1000000000 < 2 * r then q + 1 else if Config.halfUp y then q + 1 else q
  ((2 ^ 40 : Int) + q).toNat

/-- The increment follows I and corr. -/
def TimeState.retune (t : TimeState) : TimeState := { t with incr := incrementOf (t.i + t.corr) }

/-- An accepted offset updates I, corr and the increment (R211). -/
def TimeState.steer (t : TimeState) (o : Int) : TimeState :=
  let i := clampI (t.i - t.ki * o) (-(500000 * 2 ^ 32)) (500000 * 2 ^ 32)
  let lim : Int := t.slew * 2 ^ 32
  { t with i := i, corr := clampI (-(t.kp * o)) (-lim) lim }.retune

/-- The states of an accepted offset (R213). -/
def TimeState.acceptOffset (t : TimeState) (o : Int) : TimeState :=
  let small := decide (o.natAbs ≤ 1000 * 65536)
  let one := if small then 1 else 0
  match t.st with
  | .holdover => { t with st := .acquiring, goodRun := one, badRun := 0 }
  | .stepHeld => { t with st := .acquiring, goodRun := one, badRun := 0 }
  | .freeRun => t
  | .acquiring =>
    let g := if small then t.goodRun + 1 else 0
    if 8 ≤ g then { t with st := .locked, goodRun := 0, badRun := 0 } else { t with goodRun := g }
  | .locked =>
    let b := if small then 0 else t.badRun + 1
    if 4 ≤ b then { t with st := .acquiring, goodRun := 0, badRun := 0 } else { t with badRun := b }

/-- The clock's value moved by `-o` (R212, R214), `o` in 2^-16 ns. -/
def TimeState.moved (t : TimeState) (o : Int) : TimeState :=
  let total : Int := (((t.sec * 1000000000 + t.ns) * 65536 + t.frac / 2 ^ 24 : Nat) : Int) - o
  let v := (total % ((2 ^ 48 * 1000000000 * 65536 : Nat) : Int)).toNat
  { t with
    sec := v / 65536 / 1000000000, ns := v / 65536 % 1000000000
    frac := v % 65536 * 2 ^ 24 + t.frac % 2 ^ 24 }

/-- A time field of the event log: ns, signed, in bits [31:0] (R423). -/
def detailNs (o : Int) : Nat := (fdiv o 65536 % (2 ^ 32 : Int)).toNat

/-- 2^-16 ns in clock ticks, scaled by 65,536: an exact product. -/
def stepScaled (o : Int) : Int := o * (Config.ticksPerNs : Nat)

/-- Pending work named by a picture, carried onto the new clock: work whose time has passed takes effect at the first picture
(R217). -/
def shiftPic (m : Nat) (old new : Int) (p : Nat) : Nat := if p < m then p else max m ((p : Int) + old - new).toNat

/-- The channel's pending work on the new clock. -/
def Chan.shiftWork (ch : Chan) (m : Nat) (new : Int) : Chan :=
  let f := shiftPic m ch.base new
  { ch with
    base := new
    stopPic := ch.stopPic.map f
    refs := { ch.refs with
      marks := tmap ch.refs.marks fun _ p => f p
      releases := tmap ch.refs.releases fun _ p => f p
      requests := ch.refs.requests.map f }
    layers := { ch.layers with prot := ch.layers.prot.map fun p =>
      { p with from_ := p.from_.map f, remove := p.remove.map fun r => (r.1.map f, r.2) } } }

/-- A channel that does not code meets a step (R83): what it will code counts from a new origin; where the new clock would number its next
pictures no higher than those it has coded, they are numbered on from the last. -/
def Chan.afresh (ch : Chan) (aNew : Nat) (o : Int) : Chan :=
  match ch.rate.last with
  | none => ch
  | some d =>
    let ch := { ch with idleStep := some (ch.idleStep.getD 0 + o) }
    if d.1 < ch.picAt aNew then ch
    else
      let new : Int := (ch.cfg.main.picAt aNew : Int) - (d.1 + 1 : Nat)
      { ch.shiftWork (d.1 + 1) new with before := some (d.1 + 1, ch.base, o) }

/-- What a step does to one channel (R215, R217): a coding one will change clock at the first picture whose t0 on the old clock is
at or after `a` (ticks); an ARMED one chooses its start picture again on the new clock. One that does not code will count from a new
origin when it next starts (R83), its pictures numbered on beyond those it has coded. -/
def Chan.stepped (ch : Chan) (a aNew : Nat) (o : Int) : Chan :=
  let ch := if ch.st.coding then ch else ch.afresh aNew o
  if ch.st.coding then
    { ch with stepPic := some (ch.stepPic.getD (ch.picAt a)), stepHeld := ch.stepHeld + o }
  else if ch.st == .armed then
    { ch with
      startPic := ch.picAt (max (nsTicks ch.startTime) (aNew + 2 * ch.cfg.main.tp))
      nextPic := ch.picAfter aNew }
  else ch

/-- The clock is stepped by `-o` at the instant `a` in ticks of the clock before the step (R212, R214 to R217). -/
def State.stepClock (s : State) (o : Int) (a : Nat) : State :=
  let aNew := ((a : Int) - fdiv (stepScaled o) 65536).toNat
  let s := { s with
    chans := tmap s.chans fun _ ch => ch.stepped a aNew o
    time := { s.time.moved o with
      tag := s.time.tag + 1, st := .acquiring, goodRun := 0, badRun := 0, pend := none, accept := none
      corr := 0 }.retune }
  ((s.bump Reg.TIME_STEPS).sticky Reg.TIME_STATUS 0x200).raise 0x0041 0 0xFF (detailNs (-o))

/-- No channel is ARMED, RUNNING or STOPPING (R212). -/
def State.noneActive (s : State) : Bool := s.chans.all fun e => !e.2.st.active

/-- An offset with its tag reaches the servo (R211, R212). -/
def State.offset (s : State) (o : Int) (tag : Nat) : State :=
  if tag ≠ s.time.tag then s
  else
    let s := { s with time := { s.time with offsetLast := o } }
    if s.time.thresh * 65536 < o.natAbs then
      if s.time.autoStep && s.noneActive then s.stepClock o s.time.now
      else
        let s := { s with time := { s.time with pend := some o, st := .stepHeld, goodRun := 0, badRun := 0 } }
        ((s.bump Reg.TIME_REFUSALS).sticky Reg.TIME_STATUS 0x100).raise 0x0040 1 0xFF (detailNs o)
    else
      { s with time := ({ s.time with pend := none, accept := none }.acceptOffset o).steer o }

/-- SERVO_OFFSET (R211): firmware writes offsets, so none comes during a restart (R11). -/
def execServoOffset (o : Int) (tag : Nat) (_logSync : Int) (s : State) : Host.Outcome State Fault Refusal :=
  .next (if s.ctl.restarting then s else s.offset o tag)

/-- SERVO_CORR_EXPIRY (R211): one sync interval after an offset, y falls back to I. -/
def execServoCorrExpiry (s : State) : Host.Outcome State Fault Refusal :=
  .next { s with time := { s.time with corr := 0 }.retune }

/-- Holdover, from ACQUIRING or LOCKED only (R213): the clock runs at I. -/
def State.enterHoldover (s : State) : State :=
  if s.time.st == .acquiring || s.time.st == .locked then
    { s with time := { s.time with st := .holdover, corr := 0, goodRun := 0, badRun := 0 }.retune }.sticky Reg.TIME_STATUS 0x800
  else s

/-- OFFSET_TIMEOUT (R213): no offset for 2 s. -/
def execOffsetTimeout (s : State) : Host.Outcome State Fault Refusal := .next s.enterHoldover

/-- STEP_APPLY (R214): the accepted step is made at its apply instant. -/
def execStepApply (s : State) : Host.Outcome State Fault Refusal :=
  .next (
    match s.time.pend, s.time.accept with
    | some o, some a => s.stepClock o (nsTicks a)
    | _, _ => s)

/-! ## The clock change of a channel (R215 to R217) -/

/-- The picture index of the first picture on the new clock: the first whose t0 is at or after the instant of t0(m) on the old
one (R215). -/
def Chan.newIndex (ch : Chan) (m : Nat) : Nat :=
  let off := nsTicks ch.cfg.main.inputOffset
  (-(fdiv (-((((ch.t0 m - off) * 65536 : Nat) : Int) - stepScaled ch.stepHeld)) (ch.cfg.main.tp * 65536))).toNat

/-- The drain between the last DU of picture m − 1 and DU 0 of the first picture on the new clock (R95): floor(R × d / 10^9), d the
physical interval in whole ns. DESIGN CHOICE (log entry 92): R95 also says that the interval lies between one and two picture periods,
which holds from DU 0 to DU 0; the interval it names, from the last DU, is taken. -/
def Chan.stepDrainOf (ch : Chan) (m idx : Nat) : Nat :=
  let md := ch.cfg.main
  let gap : Int := ((md.tp : Int) - ((md.rows - 1) * md.tRow : Nat)) * 65536
    + ((md.t0 idx : Int) - (ch.t0 m : Int)) * 65536 + stepScaled ch.stepHeld
  ch.cfg.rate.bitRate * (fdiv gap (65536 * Config.ticksPerNs)).toNat / 1000000000

/-- Instants of a channel's emission as the new clock reads them: what is queued, held or waiting keeps its physical instants (R215). `o`
is the step in 2^-16 ns, `r` the bit rate. -/
def shiftTicks (o : Int) (t : Nat) : Nat := ((t : Int) - fdiv (stepScaled o) 65536).toNat
def shiftScaled (o : Int) (r t : Nat) : Nat := ((t : Int) - fdiv (stepScaled o * (r : Nat)) 65536).toNat
def Packet.shift (p : Packet) (c : Nat) (o : Int) : Packet := if p.chan = c then { p with ej := shiftTicks o p.ej } else p
def TxChan.shift (t : TxChan) (o : Int) (r : Nat) : TxChan :=
  { t with
    delivered := shiftScaled o r t.delivered, tsOrigin := t.tsOrigin.map (shiftTicks o), tsFirst := shiftTicks o t.tsFirst
    tsVideo := t.tsVideo.map fun d => { d with start := shiftScaled o r d.start }, tsShift := t.tsShift + o }
def State.shiftEmission (s : State) (c r : Nat) (o : Int) : State :=
  { s with
    tx := tmap s.tx fun _ t => { t with queued := t.queued.map fun w => { w with pkt := w.pkt.shift c o } }
    txc := tupd s.txc c fun t => t.shift o r
    grp := { s.grp with heldPkts := s.grp.heldPkts.map fun p => p.shift c o } }

/-- CHANNEL_CLOCK_CHANGE (R215): the channel changes to the new clock and begins its first picture there, a timestamp
discontinuity. A member that has not stepped its clock yet steps here (R217). -/
def execChannelClockChange (x : ClockChange) (s : State) : Host.Outcome State Fault Refusal :=
  .next (
    let c := x.chan
    let s := s.onChan c fun ch s =>
      match ch.stepPic, s.time.pend, s.time.accept with
      | some m, some o, some a => if s.member && m ≤ ch.nextPic then s.stepClock o (nsTicks a) else s
      | _, _, _ => s
    s.onChan c fun ch s =>
      match ch.stepPic with
      | some m =>
        if ch.st.coding && decide (m ≤ ch.nextPic) then
          let n := ch.nextPic
          let idx := ch.newIndex n
          let drain := ch.stepDrainOf n idx
          let old := ch.base
          let held := ch.stepHeld
          let ch := ch.shiftWork n ((idx : Int) - n)
          let s := s.setChan c { ch with
            stepPic := none, stepHeld := 0, before := some (n, old, held)
            rate := { ch.rate with origins := (n, drain) :: ch.rate.origins } }
          (s.shiftEmission c ch.cfg.rate.bitRate held).boundaryRun c n x.prot true
        else s
      | none => s)

/-! ## PTP (R207, R208) -/

/-- What a PTP port holds. -/
def TimeState.port (t : TimeState) (p : Nat) : PtpPort := if p = 0 then t.port0 else t.port1

/-- Puts it. -/
def TimeState.setPort (t : TimeState) (p : Nat) (v : PtpPort) : TimeState :=
  if p = 0 then { t with port0 := v } else { t with port1 := v }

/-- delayAsymmetry of a port in 2^-16 ns. -/
def TimeState.asym (t : TimeState) (p : Nat) : Int :=
  match t.cfg with
  | some c => (if p = 0 then c.asymPrimary else c.asymSecondary) * 65536
  | none => 0

/-- Half of a sum of 2^-16 ns; an odd one falls as the free choice has it. -/
def halfOf (v : Int) : Int := if v % 2 = 0 then v / 2 else if Config.halfUp v then v / 2 + 1 else v / 2

/-- The offset of the local clock on a port from a Sync's arrival and the master's time (R207; IEEE 1588-2019). -/
def TimeState.takeSync (t : TimeState) (p : Nat) (m : SyncMsg) (origin : Int) : TimeState :=
  let v := t.port p
  let d := m.ingress - origin - t.asym p
  t.setPort p { v with syncDelta := d, offset := some (d - v.pathDelay, m.tag, m.logSync) }

/-- The grandmaster of the active port, and what follows when its identity changes (R213). -/
def State.noteGm (s : State) : State :=
  match (s.time.port s.time.active).master with
  | some g =>
    if g = s.time.gm then s
    else
      let first := s.time.gm == 0
      let s := { s with time := { s.time with gm := g } }
      if first then s
      else ((s.bump Reg.TIME_GM_CHANGES).sticky Reg.TIME_STATUS 0x400).raise 0x0042 0 0xFF g.toNat
  | none => s

/-- A failover that waits is made at a Sync received on the other port (R208); the grandmaster is then that port's (R213). -/
def State.failoverAt (s : State) (p : Nat) : State :=
  if s.time.failoverDue && decide (p < 2) && p != s.time.active && (s.time.port p).master.isSome then
    (({ s with time := { s.time with active := p, failoverDue := false } }.bump Reg.TIME_FAILOVERS).sticky Reg.TIME_STATUS 0x1000).noteGm
  else s

/-- PTP_SYNC (R208): PTP messages reach firmware, which takes none during a restart (R11, R397). -/
def execPtpSync (port : Nat) (m : SyncMsg) (s : State) : Host.Outcome State Fault Refusal :=
  .next (
    let s := s.takePtp
    if s.ctl.restarting || s.time.cfg.isNone || decide (1 < port) then s
    else
      let s := s.failoverAt port
      let t := s.time.setPort port { s.time.port port with sync := if m.twoStep then some m else none }
      { s with time := if m.twoStep then t else t.takeSync port m m.origin })

/-- PTP_FOLLOW_UP (R207): the origin of the two-step Sync with its sequenceId. -/
def execPtpFollowUp (port : Nat) (m : FollowUpMsg) (s : State) : Host.Outcome State Fault Refusal :=
  .next (
    let s := s.takePtp
    match (s.time.port port).sync with
    | some y =>
      if y.seqId = m.seqId ∧ port ≤ 1 ∧ !s.ctl.restarting then
        let t := s.time.takeSync port y m.origin
        { s with time := t.setPort port { t.port port with sync := none } }
      else s
    | none => s)

/-- PTP_ANNOUNCE (R208, R213): the port has a master; the active port is the one with the best master, unchanged when the two
compare equal. -/
def execPtpAnnounce (port : Nat) (m : AnnounceMsg) (s : State) : Host.Outcome State Fault Refusal :=
  .next (
    let s := s.takePtp
    if s.ctl.restarting || s.time.cfg.isNone || decide (1 < port) then s
    else
      let t := s.time.setPort port { s.time.port port with master := some m.gm, addr := m.src }
      let t := if t.failoverDue && port == t.active then { t with failoverDue := false } else t
      let t := match m.best with
        | some b => if !t.failoverDue && decide (b < 2) && (t.port b).master.isSome then { t with active := b } else t
        | none => if !t.failoverDue && (t.port t.active).master.isNone then { t with active := port } else t
      let t := if port = t.active then { t with utc := m.utc, utcValid := m.utcValid } else t
      { s with time := t }.noteGm)

/-- A PTP port has lost its master (R208, R213). -/
def State.loseMaster (s : State) (p : Nat) : State :=
  let t := s.time.setPort p { s.time.port p with master := none }
  let other := (t.port (1 - p)).master.isSome
  let s := { s with time := t }
  if p = s.time.active then
    if other then { s with time := { s.time with failoverDue := true } } else s.enterHoldover
  else if s.time.failoverDue then { s with time := { s.time with failoverDue := false } }.enterHoldover
  else s

/-- ANNOUNCE_TIMEOUT (R208). -/
def execAnnounceTimeout (port : Nat) (s : State) : Host.Outcome State Fault Refusal :=
  .next (if s.time.cfg.isSome && decide (port < 2) && !s.ctl.restarting then s.loseMaster port else s)

/-- The PTP ports on an interface lose their master with its link (R176, R208). -/
def State.ptpLinkDown (s : State) (i : Nat) : State :=
  match s.time.cfg with
  | some c =>
    let s := if c.portPrimary = i then s.loseMaster 0 else s
    if c.portSecondary = i then s.loseMaster 1 else s
  | none => s

/-- PTP_DELAY_RESP (R207; IEEE 1588-2019): meanPathDelay from the exchange whose request it answers. -/
def execPtpDelayResp (port : Nat) (m : DelayRespMsg) (s : State) : Host.Outcome State Fault Refusal :=
  .next (
    let s := s.takePtp
    let v := s.time.port port
    match v.delayReq with
    | some (q, t3) =>
      if q = m.seqId ∧ port ≤ 1 ∧ !s.ctl.restarting then
        { s with time := s.time.setPort port { v with
            delayReq := none, pathDelay := halfOf (v.syncDelta + m.receive - t3) } }
      else s
    | none => s)

/-! ## Pulses (R220) -/

/-- PPS_OUT_PULSE: a whole second passes; in mode locked the pin stays low outside LOCKED. -/
def execPpsOutPulse (s : State) : Host.Outcome State Fault Refusal :=
  .next { s with time := { s.time with ppsOut := s.time.ppsAlways || s.time.st == .locked } }

/-- PPS_OUT_FALL: the configured width has passed. -/
def execPpsOutFall (s : State) : Host.Outcome State Fault Refusal := .next { s with time := { s.time with ppsOut := false } }

/-- PPS_IN_EDGE: the edge is timestamped at 1 ns and counted. -/
def execPpsInEdge (s : State) : Host.Outcome State Fault Refusal :=
  .next (((s.wr Reg.TIME_PPS_IN_NS (BitVec.ofNat 32 s.time.ns)).wr Reg.TIME_PPS_IN_S (BitVec.ofNat 32 s.time.sec)).bump
    Reg.TIME_PPS_IN_COUNT)

/-! ## Time commands -/

/-- TIME_SERVO_CONFIG (R212, R337). -/
def State.doTimeServoConfig (s : State) (p : TimeServoArg) : Answer :=
  s.checked [
      (p.kp == 0 || decide (0x100000 < p.kp) || p.ki == 0 || decide (0x100000 < p.ki) || decide (p.slew < 1000)
        || decide (500000 < p.slew) || decide (p.thresh < 1000) || decide (1000000000 < p.thresh) || decide (1 < p.autoStep),
        eBadParam)] fun s =>
    { s with time := { s.time with
        kp := p.kp, ki := p.ki, slew := p.slew, thresh := p.thresh, autoStep := p.autoStep == 1 } }.done

/-- TIME_ACCEPT_STEP (R214, R337): a later acceptance replaces the apply time. -/
def State.doTimeAcceptStep (s : State) (p : TimeField) : Answer :=
  let t := timeNs p s.time
  s.checked [
      (!p.ok || (s.member && p.zero), eBadParam),
      (s.time.pend.isNone, eState),
      (!p.zero && decide (t < s.time.nowNs), eTimeout)] fun s =>
    { s with time := { s.time with accept := some (if p.zero then s.time.nowNs else t) } }.done

/-- TIME_PPS_CONFIG (R220, R337). -/
def State.doTimePpsConfig (s : State) (p : TimePpsArg) : Answer :=
  s.checked [(decide (p.width < 1000) || decide (500000000 < p.width) || decide (1 < p.mode), eBadParam)] fun s =>
    { s with time := { s.time with ppsWidth := p.width, ppsAlways := p.mode == 1 } }.done

end Sys2Proof.Machine
end

