-- ==== Sys2Proof/Machine/Shaper.lean ====
section
/-!
DEFINITION. Shapers (R200 to R202): header overhead, the idle slope W of a channel, and the credit of its shaper on an interface.
-/
namespace Sys2Proof.Machine

/-- Rate of an interface in bits per ns. -/
def State.ifRate (s : State) (i : Nat) : Nat := if s.net.breakout.contains (i / 4) then 100 else 400

/-- The ingress timestamp of a frame at the medium-dependent interface (R218, Table 11-3), in clock ticks: an EPCS cycle is 0.753 ns. -/
def State.ingressOf (s : State) (i : Nat) (f : RxFrame) : Nat :=
  f.sfd - ((if s.ifRate i = 400 then 318 else 356) * Config.ticksPerNs + f.codeword * 753 * Config.ticksPerNs / 1000)

/-- The transmit timestamp of a frame that leaves now, at the medium-dependent interface (R218, Table 11-3), in 2^-16 ns. -/
def State.egressStamp (s : State) (i : Nat) : Int :=
  ((s.time.sec * 1000000000 + s.time.ns + (if s.ifRate i = 400 then 142 else 168)) * 65536 + s.time.frac / 2 ^ 24 : Nat)

/-- Interfaces of out_if. -/
def outIfs (o : DefOut) : List Nat := if o.outIfB = 0xFF then [o.outIfA] else [o.outIfA, o.outIfB]

/-- Header bytes of a frame up to the RTP payload, with FCS (R194), on the first (0) or second interface of out_if. -/
def headerBytes (o : DefOut) (path : Nat) : Nat :=
  14 + (if (if path = 0 then o.vidA else o.vidB) = 0 then 0 else 4)
    + (if isIpv4 (if path = 0 then o.dstA else o.dstB) then 20 else 40) + 8 + 12 + 4

/-- The header overhead o of R194. -/
def overheadBytes (o : DefOut) (path : Nat) : Nat := headerBytes o path + 20 + (if o.encap = 0 then 3 else 0)

/-- Largest payload m of a packet (R201). -/
def payloadMax (o : DefOut) : Nat := if o.encap = 0 then o.maxPayload else 1316

/-- The shaper rate W of a channel on one of its interfaces, in 2^-20 b/s, rounded down (R201). -/
def shaperRate (a : ChannelDefineArg) (path : Nat) : Nat :=
  let m := payloadMax a.out
  let o := overheadBytes a.out path
  let re := if a.out.encap = 0 then a.rate.bitRate else a.out.tsRate
  let t := a.main.tRow
  -- (re (m + o) / m + 8 o / T_row) 65 / 64
  2 ^ 20 * 65 * (re * (m + o) * t + 8 * o * Config.ticksPerSec * m) / (64 * m * t)

/-- The place of interface `i` in out_if. -/
def pathOf (o : DefOut) (i : Nat) : Nat := if o.outIfA = i then 0 else 1

/-- A packet of channel `c` waits eligible on an interface. -/
def TxIface.waits (t : TxIface) (c : Nat) : Bool := t.queued.any fun p => p.pkt.chan == c && p.eligible

/-- A channel's credit after the time since its last update (R201): it rises while an eligible packet waits behind an open gate,
holds behind a closed one, and without an eligible packet goes to 0 from above at once and from below at the idle slope. -/
def creditAfter (slope : Nat) (waits open_ : Bool) (cr : Int) (dt : Nat) : Int :=
  let rise : Int := (slope * dt / Config.ticksPerSec : Nat)
  if waits then (if open_ then cr + rise else cr)
  else if 0 < cr then 0 else min 0 (cr + rise)

/-- Brings the credit of channel `c` on interface `i` up to now, by elapsed time, which no step of the clock changes. -/
def State.settleCredit (s : State) (i c : Nat) (ch : Chan) : State :=
  let t := s.txIf i
  let now := s.time.elapsed
  let e := tgetD t.credit c (0, now)
  if e.2 < now then
    let w := shaperRate ch.cfg (pathOf ch.cfg.out i)
    let w := if t.catchup.contains c then 4 * w else w
    let cr := creditAfter w (t.waits c) (t.openMask.toNat.testBit ch.cfg.out.queue) e.1 (now - e.2)
    s.updTx i fun t => { t with credit := tset t.credit c (cr, now) }
  else s

/-- Brings every channel's credit on an interface up to now, before something it depends on changes. -/
def State.settleCredits (s : State) (i : Nat) : State :=
  s.chans.foldl (fun (t : State) (e : Nat × Chan) =>
    if (outIfs e.2.cfg.out).contains i then t.settleCredit i e.1 e.2 else t) s

end Sys2Proof.Machine
end

