-- ==== Sys2Proof/Machine/FlowTable.lean ====
section
/-!
DEFINITION. The flow table and the interfaces' configuration (chapters 9 and 10): hashing and placement (R179, R182), FLOW_ADD and
FLOW_DELETE (R181), membership (R191), NET_ADDRESS (R176), the PTP entries of TIME_CONFIG (R471), queues and gate lists (R203,
R204).
-/
namespace Sys2Proof.Machine

/-! ## Interfaces (R174) -/

/-- An interface exists: sub-port 0 in either mode, the others in breakout mode. -/
def State.ifExists (s : State) (i : Nat) : Bool := decide (i < 16) && (i % 4 == 0 || s.net.breakout.contains (i / 4))

/-- The interfaces of a mask. -/
def maskIfs (m : BitVec 16) : List Nat := (List.range 16).filter fun i => m.toNat.testBit i

/-! ## Keys and buckets (R179) -/

/-- The key of an entry or a packet. -/
structure FlowKey where
  dst : Addr
  src : Addr
  udpPort : Nat
  vid : Nat
deriving DecidableEq, Repr

/-- The key of a configured entry. -/
def keyOf (a : FlowArg) : FlowKey := ⟨a.dst, a.src, a.udpPort, a.vid⟩

/-- The 36 hashed bytes of a key. -/
def FlowKey.bytes (k : FlowKey) : List Byte :=
  beBytes 16 k.dst.toNat ++ beBytes 16 k.src.toNat ++ leBytes 2 k.udpPort ++ leBytes 2 (k.vid % 4096)

/-- h0 (initial value 0) and h1 (initial value all ones): bits [11:0] of the CRC of the key. -/
def FlowKey.hash (k : FlowKey) (init : Nat) : Nat :=
  crcOut 32 true 0xFFFFFFFF (crcRun 32 0x1EDC6F41 true init k.bytes) % 4096

/-- First index of a key's bucket in way 0 or way 1. -/
def FlowKey.bucket (k : FlowKey) (way : Nat) : Nat :=
  if way = 0 then 4 * k.hash 0 else 16384 + 4 * k.hash 0xFFFFFFFF

/-- The resident entry with a key, by lookup in its two buckets. -/
def findKey (t : Tab Flow) (k : FlowKey) : Option Nat :=
  (rangeFrom (k.bucket 0) 4 ++ rangeFrom (k.bucket 1) 4).find? fun x =>
    match tget t x with
    | some f => keyOf f.arg == k
    | none => false

/-! ## Placement (R182) -/

/-- First free slot of a bucket. -/
def freeSlot (t : Tab Flow) (base : Nat) : Option Nat := (rangeFrom base 4).find? fun x => !(thas t x)

/-- First index of the other bucket of the resident at slot `x`. -/
def otherBucket (t : Tab Flow) (x : Nat) : Nat :=
  match tget t x with
  | some f => (keyOf f.arg).bucket (if x < 16384 then 1 else 0)
  | none => 0

/-- The first chain of a frontier whose last resident's other bucket has a free slot, with that slot. -/
def closeChain (t : Tab Flow) : List (List Nat) → Option (List Nat × Nat)
  | [] => none
  | p :: r =>
    match p.getLast? with
    | some x =>
      match freeSlot t (otherBucket t x) with
      | some f => some (p, f)
      | none => closeChain t r
    | none => closeChain t r

/-- The next frontier: every chain extended by each slot of its last resident's other bucket. -/
def growChains (t : Tab Flow) (ps : List (List Nat)) : List (List Nat) :=
  ps.flatMap fun p =>
    match p.getLast? with
    | some x => ((rangeFrom (otherBucket t x) 4).filter fun y => !(p.contains y)).map fun y => p ++ [y]
    | none => []

/-- Breadth-first search for a chain of at most `n` moves. -/
def findChain (t : Tab Flow) : Nat → List (List Nat) → Option (List Nat × Nat)
  | 0, _ => none
  | n + 1, ps =>
    match closeChain t ps with
    | some r => some r
    | none => findChain t n (growChains t ps)

/-- The moves of a placement, each from a slot to a slot, in the order made, and the slot the new entry takes. -/
def placement (t : Tab Flow) (k : FlowKey) : Option (List (Nat × Nat) × Nat) :=
  match freeSlot t (k.bucket 0) with
  | some x => some ([], x)
  | none =>
    match freeSlot t (k.bucket 1) with
    | some x => some ([], x)
    | none =>
      match findChain t 3 ((rangeFrom (k.bucket 0) 4 ++ rangeFrom (k.bucket 1) 4).map fun x => [x]) with
      | some (p, f) =>
        let ends := p.drop 1 ++ [f]
        some ((p.zip ends).reverse, p.headD 0)
      | none => none

/-! ## The table in State -/

/-- A new index for whatever names a moved entry. -/
def movedIx (a b x : Nat) : Nat := if x = a then b else x

/-- A resident entry moves from slot `a` to slot `b` (R182); what names it goes on naming it. -/
def State.moveFlow (s : State) (a b : Nat) : State :=
  match tget s.net.flows a with
  | none => s
  | some f =>
    let ix := movedIx a b
    let flows := tset (tdel s.net.flows a) b f
    { s with
      net := { s.net with
        flows := tmap flows fun _ e => if e.arg.kind = 4 then { e with arg := { e.arg with target := ix e.arg.target } } else e
        merges := tmap s.net.merges fun _ m => { m with got := tmap m.got fun _ e => (e.1, ix e.2) } }
      chans := tmap s.chans fun _ ch => { ch with
        shadow := { ch.shadow with flowA := ix ch.shadow.flowA, flowB := ix ch.shadow.flowB }
        active := { ch.active with flowA := ix ch.active.flowA, flowB := ix ch.active.flowB }
        feedOld := (ix ch.feedOld.1, ix ch.feedOld.2) }
      ext := tmap s.ext fun _ e => { e with arg := { e.arg with flowA := ix e.arg.flowA, flowB := ix e.arg.flowB } }
      aud := { s.aud with streams := tmap s.aud.streams fun _ e =>
        { e with arg := { e.arg with flowA := ix e.arg.flowA, flowB := ix e.arg.flowB } } }
      time := { s.time with flows := s.time.flows.map ix } }

/-- burst_eff in bytes (R184). -/
def burstEff (a : FlowArg) : Nat := if a.kind = 1 then a.burst * (100 + a.tol) / 100 else a.burst

/-- rate_eff in kb/s (R184). -/
def rateEff (a : FlowArg) : Nat := if a.kind = 1 then a.rate * (100 + a.tol) / 100 else a.rate

/-- Inserts an entry: its moves, its counters zero, its bucket full (R181, R182, R184). -/
def State.insertFlow (s : State) (a : FlowArg) (moves : List (Nat × Nat)) (x : Nat) : State :=
  let s := moves.foldl (fun t m => t.moveFlow m.1 m.2) s
  let a := if a.kind = 4 then { a with target := moves.foldl (fun x m => movedIx m.1 m.2 x) a.target } else a
  { s with net := { s.net with flows := tset s.net.flows x { arg := a, bucket := burstEff a * 1024, at_ := s.time.now } } }

/-- Removes an entry. -/
def State.removeFlow (s : State) (x : Nat) : State := { s with net := { s.net with flows := tdel s.net.flows x } }

/-! ## Membership (R191) -/

/-- A multicast address, IPv4-mapped or IPv6. -/
def isMulticast (a : Addr) : Bool :=
  if a.toNat / 2 ^ 32 = 0xFFFF then decide (0xE0 ≤ a.toNat / 2 ^ 24 % 256) && decide (a.toNat / 2 ^ 24 % 256 ≤ 0xEF)
  else a.toNat / 2 ^ 120 == 0xFF

/-- The memberships an entry asks for: interface, group, source. -/
def groupsOf (a : FlowArg) : List (Nat × Addr × Addr) :=
  if a.kind ≠ 5 ∧ isMulticast a.dst then (maskIfs a.ifMask).map fun i => (i, a.dst, a.src) else []

/-- The record that reports group `g` of interface `i` from the memberships held: the wildcard excludes an empty list, otherwise the
sources are included together; none where the group is not held. -/
def groupRec (members : List (Nat × Addr × Addr)) (i : Nat) (g : Addr) : Option GroupRec :=
  let of := members.filter fun m => m.1 == i && m.2.1 == g
  if of.isEmpty then none
  else if of.any fun m => m.2.2 == 0 then some ⟨g, true, false, []⟩
  else some ⟨g, false, false, of.map (·.2.2)⟩

/-- Reports the groups given on interface `i`, each in one report (R191). DESIGN CHOICE (log entry 101): one frame per group. -/
def State.reportGroups (s : State) (i : Nat) (gs : List Addr) : State :=
  (gs.filterMap (groupRec s.net.members i)).foldl (fun (t : State) r => t.sendCtl i 3 (.membership r)) s

/-- Reports that group `g` of interface `i` is left, or some of its sources: `gone` are the memberships dropped (R191). -/
def State.reportLeave (s : State) (i : Nat) (g : Addr) (gone : List Addr) : State :=
  match groupRec s.net.members i g with
  | none => s.sendCtl i 3 (.membership ⟨g, false, true, if gone.contains 0 then [] else gone⟩)
  | some r => if r.exclude then s else s.sendCtl i 3 (.membership (if gone.contains 0 then r else ⟨g, false, true, gone⟩))

/-- Membership follows the entries: the groups of an entry added are reported, those that no entry asks for any more as left. -/
def State.syncMembers (s : State) (added : List FlowArg) : State :=
  let want := (s.net.flows.flatMap fun e => groupsOf e.2.arg).dedup
  let left := s.net.members.filter fun m => !(want.contains m)
  let s := { s with net := { s.net with members := want } }
  let s := ((added.flatMap groupsOf).map fun m => (m.1, m.2.1)).dedup.foldl (fun (t : State) m => t.reportGroups m.1 [m.2]) s
  (left.map fun m => (m.1, m.2.1)).dedup.foldl (fun (t : State) m =>
    t.reportLeave m.1 m.2 ((left.filter fun e => e.1 == m.1 && e.2.1 == m.2).map (·.2.2))) s

/-! ## FLOW_ADD, FLOW_DELETE (R181, R339) -/

/-- The essence type of an entry suits its target. -/
def targetSuits (essence target : Nat) : Bool :=
  if essence = 1 then decide (target < 16) else decide (target < 64)

/-- An entry's target field is in range for its kind (Table 9-1, R181). -/
def State.targetOk (s : State) (a : FlowArg) : Bool :=
  match a.kind with
  | 1 => targetSuits a.essence a.target
  | 2 => decide (a.target < 64)
  | 4 => (match tget s.net.flows a.target with | some f => f.arg.kind == 1 | none => false)
  | _ => a.target == 0

/-- Every field of an entry is within Table 9-1 (R181). -/
def State.flowArgOk (s : State) (a : FlowArg) : Bool :=
  a.valid && decide (1 ≤ a.kind) && decide (a.kind ≤ 5) && decide (a.path ≤ 1) && a.ctlRsv == 0 && decide (a.vid < 4096)
    && (if a.kind = 1 then decide (a.essence ≤ 4) else a.essence == 0)
    && (decide (a.pt < 128) || a.pt == 255)
    && (if a.kind = 1 then decide (a.tol ≤ 100) else a.tol == 0 && a.rate != 0)
    && (maskIfs a.ifMask).all s.ifExists && s.targetOk a

/-- FLOW_ADD (R181, R182). -/
def State.doFlowAdd (s : State) (a : FlowArg) : Answer :=
  match firstBad [(!(s.flowArgOk a), eBadParam), ((findKey s.net.flows (keyOf a)).isSome, eState)] with
  | some e => { st := s, status := e }
  | none =>
    match placement s.net.flows (keyOf a) with
    | some (moves, x) => ((s.insertFlow a moves x).syncMembers [a]).reply (leBytes 4 x)
    | none => { st := (s.bump Reg.NET_FLOW_REFUSALS).sticky Reg.NET_FLOW_STATUS 0x10000, status := eNoCapacity }

/-- Something defined names an entry, so it may not be deleted (R181). -/
def State.flowNamed (s : State) (x : Nat) : Bool :=
  (s.chans.any fun e => e.2.active.flowA == x || e.2.active.flowB == x || e.2.shadow.flowA == x || e.2.shadow.flowB == x)
    || (s.ext.any fun e => e.2.arg.flowA == x || e.2.arg.flowB == x)
    || (s.aud.streams.any fun e => e.2.arg.flowA == x || e.2.arg.flowB == x)
    || (s.net.flows.any fun e => e.2.arg.kind == 4 && e.2.arg.target == x)
    || s.time.flows.contains x

/-- FLOW_DELETE (R181, R339). -/
def State.doFlowDelete (s : State) (x : Nat) : Answer :=
  s.checked [(decide (32767 < x), eBadParam), (!(thas s.net.flows x) || s.flowNamed x, eState)] fun s =>
    ((s.removeFlow x).syncMembers []).done

/-! ## PTP entries (R471) -/

/-- An IPv4 address as an IPv4-mapped IPv6 address (R179). -/
def mapped4 (a : BitVec 32) : Addr := BitVec.ofNat 128 (0xFFFF * 2 ^ 32 + a.toNat)

/-- 224.0.1.129 mapped, or FF0E::181. -/
def ptpGroup (transport : Nat) : Addr :=
  if transport = 0 then mapped4 0xE0000181 else BitVec.ofNat 128 (0xFF0E * 2 ^ 112 + 0x181)

/-- The first address of the transport's family of an interface, 0 when it has none. -/
def Iface.ptpAddr (f : Iface) (transport : Nat) : Addr :=
  if transport = 0 then (if f.ipv4a ≠ 0 then mapped4 f.ipv4a else if f.ipv4b ≠ 0 then mapped4 f.ipv4b else 0)
  else (if f.ipv6a ≠ 0 then f.ipv6a else f.ipv6b)

/-- The PTP ports of a configuration. -/
def ptpPorts (c : TimeConfigArg) : List Nat := c.portPrimary :: (if c.portSecondary = 0xFF then [] else [c.portSecondary])

/-- One PTP entry. -/
def ptpEntry (c : TimeConfigArg) (dst : Addr) (port mask : Nat) : FlowArg :=
  { valid := true, kind := 3, path := 0, ctlRsv := 0, essence := 0, vid := c.vid, udpPort := port
    ifMask := BitVec.ofNat 16 mask, dst := dst, src := 0, target := 0, pt := 0xFF, tol := 0, rate := 2000, burst := 16384 }

/-- The entries of Table 11-4. -/
def State.ptpEntries (s : State) (c : TimeConfigArg) : List FlowArg :=
  let mask := (ptpPorts c).foldl (fun m p => m ||| 2 ^ p) 0
  [ptpEntry c (ptpGroup c.transport) 319 mask, ptpEntry c (ptpGroup c.transport) 320 mask]
    ++ (if c.delayMode = 1 then
        ((ptpPorts c).filter fun p => (s.iface p).ptpAddr c.transport != 0).map fun p =>
          ptpEntry c ((s.iface p).ptpAddr c.transport) 320 (2 ^ p)
      else [])

/-- Adds entries at the placements found one after another; none when one does not fit. -/
def State.addAll (s : State) : List FlowArg → Option State
  | [] => some s
  | a :: r =>
    match placement s.net.flows (keyOf a) with
    | some (moves, x) =>
      let t := s.insertFlow a moves x
      { t with time := { t.time with flows := t.time.flows ++ [x] } }.addAll r
    | none => none

/-- Replaces the PTP entries by those of a configuration: entries that both need stay where they are (R337, R471). -/
def State.setPtpEntries (s : State) (c : TimeConfigArg) : Option State :=
  let want := s.ptpEntries c
  let stays (x : Nat) : Bool := match tget s.net.flows x with | some f => want.contains f.arg | none => false
  let gone := s.time.flows.filter fun x => !(stays x)
  let held := (s.time.flows.filter stays).filterMap fun x => (tget s.net.flows x).map (·.arg)
  let t := gone.foldl (fun (t : State) x => t.removeFlow x) { s with time := { s.time with flows := s.time.flows.filter stays } }
  let new := want.filter fun a => !(held.contains a)
  (t.addAll new).map fun u => u.syncMembers new

/-- The values of TIME_CONFIG are in their ranges (Table 11-1, R337). -/
def State.timeConfigOk (s : State) (c : TimeConfigArg) : Bool :=
  decide (c.domain ≤ 127) && decide (c.transport ≤ 1) && decide (c.delayMode ≤ 1)
    && decide (-7 ≤ c.logDelayReq) && decide (c.logDelayReq ≤ 0) && decide (2 ≤ c.announceTimeout)
    && decide (c.announceTimeout ≤ 10) && (s.ifExists c.portPrimary && (s.iface c.portPrimary).enabled)
    && (c.portSecondary == 0xFF || (s.ifExists c.portSecondary && (s.iface c.portSecondary).enabled && c.portSecondary != c.portPrimary))
    && decide (c.asymPrimary.natAbs ≤ 100000) && decide (c.asymSecondary.natAbs ≤ 100000) && decide (c.vid ≤ 4094)
    && (c.delayMode == 0 || (ptpPorts c).all fun p => (s.iface p).ptpAddr c.transport != 0)

/-- TIME_CONFIG (R207, R337, R471). A PTP port whose interface, domain, transport or VID changes has no master until one is heard
there. -/
def State.doTimeConfig (s : State) (c : TimeConfigArg) : Answer :=
  if !(s.timeConfigOk c) then { st := s, status := eBadParam }
  else
    match s.setPtpEntries c with
    | none => { st := s, status := eNoCapacity }
    | some t =>
      let old := s.time.cfg
      let same := match old with
        | some o => o.domain == c.domain && o.transport == c.transport && o.vid == c.vid
        | none => false
      let keep0 := same && (match old with | some o => o.portPrimary == c.portPrimary | none => false)
      let keep1 := same && (match old with | some o => o.portSecondary == c.portSecondary | none => false)
      let t := { t with time := { t.time with cfg := some c } }
      let t := if keep1 then t else { t with time := t.time.setPort 1 { t.time.port1 with sync := none, delayReq := none } }.loseMaster 1
      let t := if keep0 then t else { t with time := t.time.setPort 0 { t.time.port0 with sync := none, delayReq := none } }.loseMaster 0
      t.done

/-! ## NET_ADDRESS (R176, R338) -/

/-- NET_ADDRESS: every address of an interface at once; the unicast PTP entry of a PTP port follows its address. -/
def State.doNetAddress (s : State) (p : NetAddressArg) : Answer :=
  if !(s.ifExists p.iface) || p.mac.toNat.testBit 40 then { st := s, status := eBadParam }
  else
    let t := s.updIface p.iface fun f =>
      { f with mac := some p.mac, ipv4a := p.ipv4a, ipv4b := p.ipv4b, ipv6a := p.ipv6a, ipv6b := p.ipv6b }
    match s.time.cfg with
    | some c =>
      if c.delayMode = 1 ∧ (ptpPorts c).contains p.iface then
        match t.setPtpEntries c with
        | some u => u.done
        | none => { st := s, status := eNoCapacity }
      else t.done
    | none => t.done

/-! ## Queues and gates (R203, R204, R340) -/

/-- The guard band in ns: the transmission time of a frame plus 20 bytes, rounded up, at `rate` bits per ns. -/
def guardBand (maxFrame rate : Nat) : Nat := cdiv ((maxFrame + 20) * 8) rate

/-- The entries as they run in one cycle: cut at its end, the last held to it. -/
def gateRuns : List (BitVec 16 × Nat) → Nat → List (BitVec 16 × Nat)
  | [], _ => []
  | [(m, _)], left => if left = 0 then [] else [(m, left)]
  | (m, d) :: r, left => if left = 0 then [] else (m, min d left) :: gateRuns r (left - d)

/-- The shortest run of entries that keeps queue `q` open, round the cycle; none when the queue never opens or never closes. -/
def shortestOpen (es : List (BitVec 16 × Nat)) (q : Nat) : Option Nat :=
  let r := (es ++ es).foldl (fun (a : Option Nat × Option Nat) e =>
    -- the current run, none until a closed entry has been seen; the least complete run
    if e.1.toNat.testBit q then (a.1.map (· + e.2), a.2)
    else
      match a.1 with
      | some n => (some 0, if n = 0 then a.2 else some (match a.2 with | some b => min b n | none => n))
      | none => (some 0, a.2)) (none, none)
  r.2

/-- A gate list keeps the run rule of R203 on an interface at `rate`. -/
def gateRuleOk (t : TxIface) (rate : Nat) (g : GateList) : Bool :=
  (List.range 16).all fun q =>
    match shortestOpen (gateRuns g.entries g.cycle) q with
    | some n => decide (2 * guardBand (t.maxF q) rate ≤ n)
    | none => true

/-- TX_QUEUE_CONFIG (R340). -/
def State.doTxQueueConfig (s : State) (p : TxQueueArg) : Answer :=
  let t := s.txIf p.iface
  let u := { t with
    weight := if 4 ≤ p.queue then tset t.weight p.queue p.weight else t.weight
    maxFrame := tset t.maxFrame p.queue p.maxFrame }
  let okList (g : Option GateList) : Bool := match g with | some l => gateRuleOk u (s.ifRate p.iface) l | none => true
  s.checked [
      (!(s.ifExists p.iface) || decide (15 < p.queue) || (if 4 ≤ p.queue then p.weight == 0 || decide (255 < p.weight) else p.weight != 0)
        || decide (p.maxFrame < 64) || decide (9216 < p.maxFrame), eBadParam),
      (!(okList t.oper) || !(okList t.pend), eState)] fun s => (s.updTx p.iface fun _ => u).done

/-- A device-owned buffer of at least `n` bytes (R346). -/
def State.deviceBuffer (s : State) (h n : Nat) : Option Surface :=
  match tget s.surf.surfs h with
  | some b => if b.owner = 0xFF ∧ n ≤ b.bytes then some b else none
  | none => none

/-- The entries of a gate list in its buffer: mask (2), — (2), interval (4). -/
def gateEntries (m : Mem) (addr count : Nat) : List (BitVec 16 × Nat) :=
  (List.range count).map fun i =>
    (BitVec.ofNat 16 (leNat (Mem.read m (addr + 8 * i) 2)), leNat (Mem.read m (addr + 8 * i + 4) 4))

/-- GATE_LIST_SET (R203, R204, R340): a pending list; one that is not started yet is replaced. -/
def State.doGateListSet (s : State) (p : GateListArg) : Answer :=
  let buf := s.deviceBuffer p.surface (8 * p.count)
  let addr := match buf with | some b => b.addr | none => 0
  let es := if p.count = 0 then [] else gateEntries s.mem.hbm addr p.count
  let g : GateList := { base := timeNs p.base s.time, cycle := p.cycle, entries := es }
  s.checked [
      (!(s.ifExists p.iface) || !p.base.ok || decide (p.cycle < 1000) || decide (1000000000 < p.cycle) || decide (256 < p.count)
        || (p.count != 0 && buf.isNone) || (es.any fun e => decide (e.2 < 32) || decide (1000000000 < e.2))
        || ((List.range p.count).any fun i => leNat (Mem.read s.mem.hbm (addr + 8 * i + 2) 2) != 0)
        || !(gateRuleOk (s.txIf p.iface) (s.ifRate p.iface) g), eBadParam)] fun s =>
    (s.updTx p.iface fun t => { t with pend := some g, taken := false }).done

/-- The entry of a list at `pos` ns into its cycle: number and mask. -/
def gateAt : List (BitVec 16 × Nat) → Nat → Nat → Nat × BitVec 16
  | [], _, n => (n, 0xFFFF)
  | [(m, _)], _, n => (n, m)
  | (m, d) :: r, pos, n => if pos < d then (n, m) else gateAt r (pos - d) (n + 1)

/-- GATE_LIST_TAKEN (R204): the hardware takes the pending list and fixes its start. -/
def execGateListTaken (i : Nat) (s : State) : Host.Outcome State Fault Refusal :=
  .next (
    match (s.txIf i).pend with
    | none => s
    | some g =>
      if (s.txIf i).taken then s
      else
        let lim := s.time.nowNs + 2000
        if lim ≤ g.base then s.updTx i fun t => { t with pend := some { g with start := some g.base }, taken := true }
        else
          let n := cdiv (lim - g.base) (max 1 g.cycle)
          let s := s.updTx i fun t => { t with pend := some { g with start := some (g.base + n * g.cycle) }, taken := true }
          (s.sticky (Reg.NET_GATE_STATUS i) 0x4000000).raise 0x0030 0 i n)

/-- GATE_LIST_START (R204): the old list is cut and the pending one operates; one with no entries removes the list. -/
def execGateListStart (i : Nat) (s : State) : Host.Outcome State Fault Refusal :=
  .next (
    match (s.txIf i).pend with
    | none => s
    | some g =>
      if (s.txIf i).taken then
        let a := gateAt g.entries 0 0
        (s.settleCredits i).updTx i fun t => { t with
          oper := if g.entries.isEmpty then none else some g, pend := none, taken := false
          openMask := if g.entries.isEmpty then 0xFFFF else a.2, entry := 0 }
      else s)

/-- GATE_ENTRY_CHANGE (R203): the entry in force at the clock's position in the cycle. -/
def execGateEntryChange (i : Nat) (s : State) : Host.Outcome State Fault Refusal :=
  .next (
    match (s.txIf i).oper with
    | none => s
    | some g =>
      let pos := (((s.time.nowNs : Int) - g.base) % ((max 1 g.cycle : Nat) : Int)).toNat
      let a := gateAt g.entries pos 0
      (s.settleCredits i).updTx i fun t => { t with openMask := a.2, entry := a.1 })

/-! ## Firmware's control packets (R176, R178, R191, R254) -/

/-- An address that NET_ADDRESS gives an interface. -/
def Iface.owns (f : Iface) (a : Addr) : Bool :=
  a != 0 && (a == f.ipv6a || a == f.ipv6b || (f.ipv4a != 0 && a == mapped4 f.ipv4a) || (f.ipv4b != 0 && a == mapped4 f.ipv4b))

/-- The unit answers for an address on an interface: one of its own, or a service address while it is ACTIVE (R176, R254). -/
def State.answersFor (s : State) (i : Nat) (a : Addr) : Bool :=
  (s.iface i).owns a
    || (s.grp.role == .active && s.grp.service.any fun e => e.1 == i && e.2 == a)

/-- The groups of an interface. -/
def State.groupsAt (s : State) (i : Nat) : List Addr := ((s.net.members.filter fun m => m.1 == i).map (·.2.1)).dedup

/-- What firmware does with a packet (R176, R178, R191, R254). A packet of another kind, a management packet for one, is taken and
answered by nothing the spec states. -/
def State.answerCtl (s : State) (i : Nat) : CtlPacket → State
  | .resolve a => if s.answersFor i a then s.sendCtl i 3 (.resolved a) else s
  | .query g => s.reportGroups i (if g = 0 then s.groupsAt i else [g])
  | .echo n => s.sendCtl i 3 (.echo n)
  | .other => s

/-- FIRMWARE_CONTROL_PACKET (R178, R183, R191, R254): firmware takes one of the packets passed to it from an interface; which one is
the operand, for the spec states no order (log entry 107). Nothing is answered during a control-complex reset (R192). -/
def execFirmwareControlPacket (i k : Nat) (s : State) : Host.Outcome State Fault Refusal :=
  .next (
    match (s.net.toFw.filter fun e => e.1 == i)[k]? with
    | some e =>
      let s := { s with net := { s.net with toFw := s.net.toFw.erase e } }
      if s.ctl.restarting then s else s.answerCtl i e.2
    | none => s)

/-- MEMBERSHIP_REPORT_TIMER (R191, R192). -/
def execMembershipReportTimer (i : Nat) (s : State) : Host.Outcome State Fault Refusal :=
  .next (if s.ctl.restarting then s else s.reportGroups i (s.groupsAt i))

/-! ## Delay_Req (R207) -/

/-- The interface of a PTP port. -/
def portIfOf (c : TimeConfigArg) (p : Nat) : Nat := if p = 0 then c.portPrimary else c.portSecondary

/-- Where a Delay_Req of a PTP port goes: to the group, or in unicast mode to the port's master. -/
def State.delayReqDst (s : State) (c : TimeConfigArg) (p : Nat) : Addr :=
  if c.delayMode = 0 then ptpGroup c.transport else (s.time.port p).addr

/-- DELAY_REQ_TIMER (R207): a Delay_Req enters queue 0 of the active port's interface; its transmit timestamp is taken when it is
sent. -/
def execDelayReqTimer (s : State) : Host.Outcome State Fault Refusal :=
  .next (
    let p := s.time.active
    match s.time.cfg with
    | some c =>
      if (s.time.port p).master.isSome && !s.ctl.restarting then
        let q := s.time.delaySeq
        { s with time := { s.time with delaySeq := (q + 1) % 65536 } }.sendCtl (portIfOf c p) 0 (.delayReq p q (s.delayReqDst c p) c.vid)
      else s
    | none => s)

end Sys2Proof.Machine
end

