-- ==== Sys2Proof/Machine/Audio.lean ====
section
/-!
DEFINITION. Audio ports and clocks (chapter 8): gains, FIFOs and slips (R156 to R162), TDM directions (R163 to R167), the audio
master clock (R168, R169) and the audio commands (R349 to R351).
-/
namespace Sys2Proof.Machine

/-! ## Gains (R158) -/

/-- fade(i) in 1/65,536: (1 + cos(π (i + 1) / 96)) / 2 to the nearest. -/
def fadeTable : List Nat :=
  [65518, 65466, 65378, 65256, 65098, 64906, 64680, 64419, 64125, 63797, 63436, 63042, 62615, 62157, 61667, 61146] ++
  [60595, 60014, 59403, 58765, 58098, 57404, 56684, 55938, 55168, 54373, 53556, 52716, 51855, 50973, 50072, 49152] ++
  [48215, 47261, 46292, 45308, 44311, 43301, 42280, 41249, 40209, 39161, 38106, 37045, 35980, 34911, 33840, 32768] ++
  [31696, 30625, 29556, 28491, 27430, 26375, 25327, 24287, 23256, 22235, 21225, 20228, 19244, 18275, 17321, 16384] ++
  [15464, 14563, 13681, 12820, 11980, 11163, 10368, 9598, 8852, 8132, 7438, 6771, 6133, 5522, 4941, 4390] ++
  [3869, 3379, 2921, 2494, 2100, 1739, 1411, 1117, 856, 630, 438, 280, 158, 70, 18, 0]
/-- The fade gain of frame `i`. -/
def fadeGain (i : Nat) : Nat := fadeTable.getD i 0

/-- The ramp gain of frame `i`: 1 − fade(i). -/
def rampGain (i : Nat) : Nat := 65536 - fadeTable.getD i 0

/-- A sample under a product of two gains, rounded half up to 24 bits (R158, R167). -/
def gainSample (v : Int) (g1 g2 : Nat) : Int := fdiv (v * (g1 * g2 : Nat) + 2 ^ 31) (2 ^ 32)

/-! ## FIFOs -/

/-- Numbers of the FIFOs: 0 to 63 network streams, 256 + p receive of port p, 512 + p transmit of port p. -/
def State.fifo? (s : State) (id : Nat) : Option AudFifo :=
  match id / 256 with
  | 0 => (tget s.aud.streams id).map (·.fifo)
  | 1 => (tget s.aud.dirs (2 * (id % 256))).map (·.fifo)
  | _ => (tget s.aud.dirs (2 * (id % 256) + 1)).map (·.fifo)

/-- Changes a FIFO where it exists. -/
def State.updFifo (s : State) (id : Nat) (f : AudFifo → AudFifo) : State :=
  match id / 256 with
  | 0 => { s with aud := { s.aud with streams := tupd s.aud.streams id fun e => { e with fifo := f e.fifo } } }
  | 1 => { s with aud := { s.aud with dirs := tupd s.aud.dirs (2 * (id % 256)) fun e => { e with fifo := f e.fifo } } }
  | _ => { s with aud := { s.aud with dirs := tupd s.aud.dirs (2 * (id % 256) + 1) fun e => { e with fifo := f e.fifo } } }

/-- A FIFO is a network stream's. -/
def isStream (id : Nat) : Bool := id / 256 == 0

/-- Level in frames: frames held, or for a stream the newest media time less the read pointer (R157). -/
def AudFifo.level (f : AudFifo) (stream : Bool) : Nat :=
  if stream then (match f.rd with | some r => f.newest - r | none => 0) else f.frames.length

/-- The direction index of a TDM FIFO. -/
def dirOf (id : Nat) : Nat := if id / 256 = 1 then 2 * (id % 256) else 2 * (id % 256) + 1

/-- Count registers of a FIFO: underruns, overruns, slip frames, lost frames (R173). -/
def audReg (id which : Nat) : Nat :=
  if isStream id then
    if which = 0 then Reg.AUD_NS_UNDERRUNS id
    else if which = 1 then Reg.AUD_NS_OVERRUNS id
    else if which = 2 then Reg.AUD_NS_SLIP_FRAMES id
    else Reg.AUD_NS_LOST_FRAMES id
  else if which = 0 then Reg.AUD_UNDERRUNS (dirOf id)
  else if which = 1 then Reg.AUD_OVERRUNS (dirOf id)
  else if which = 2 then Reg.AUD_SLIP_FRAMES (dirOf id)
  else Reg.AUD_LOST_FRAMES (dirOf id)

/-- slip_seen of a FIFO. -/
def State.slipSeen (s : State) (id : Nat) : State :=
  if isStream id then s.sticky (Reg.AUD_NS_LEVEL id) 0x4000000 else s.sticky (Reg.AUD_DIR_STATE (dirOf id)) 0x200

/-- The alignment group of a FIFO. -/
def State.groupOf (s : State) (id : Nat) : Option (Nat × List Nat) := s.aud.groups.find? fun e => e.2.contains id

/-- What follows a fade. -/
def FadeEnd.after : FadeEnd → SlipPhase
  | .underrun => .silent
  | .overrun => .drop
  | .stop => .mute

/-- A slip begins: a fade from full gain, or from the gain a ramp has reached (R162); an output that is silent already has nothing to
fade, and a stop goes on. -/
def SlipPhase.beginFade (p : SlipPhase) (e : FadeEnd) : SlipPhase :=
  match p with
  | .normal => .fade 0 e
  | .ramp k _ => if k = 0 then e.after else .fade (96 - k) e
  | .fade i .stop => .fade i .stop
  | .fade i _ => .fade i e
  | .mute => .mute
  | _ => e.after

/-- A slip begins (R159 to R161): every member of the FIFO's alignment group starts the same sequence. An underrun that takes the place
of an overrun of the same frame is the same slip of the group. -/
def State.beginSlip (s : State) (id : Nat) (overrun : Bool) : State :=
  let g := s.groupOf id
  let members := match g with | some e => e.2 | none => [id]
  let again : Bool := match s.fifo? id with | some f => f.phase == .fade 0 .overrun | none => false
  let s := match g with | some e => if again then s else s.bump (Reg.AUD_GROUP_SLIPS e.1) | none => s
  let s := { s with aud := { s.aud with slips :=
    ⟨id, members, overrun⟩ :: s.aud.slips.filter fun l => !(l.members.any members.contains) } }
  members.foldl (fun t m =>
    if (t.fifo? m).isSome then
      let t := t.updFifo m fun f => { f with phase := f.phase.beginFade (if overrun then .overrun else .underrun) }
      (t.bump (audReg m (if overrun then 1 else 0))).slipSeen m
    else t) s

/-- An underrun may be detected in this phase (R159, R161, R162). -/
def SlipPhase.underrunnable : SlipPhase → Bool
  | .normal => true
  | .ramp _ o => o
  | .fade i .overrun => i == 0
  | _ => false

/-- An overrun may be detected in this phase (R160, R162). -/
def SlipPhase.overrunnable : SlipPhase → Bool
  | .normal => true
  | .ramp _ o => !o
  | .start => true
  | _ => false

/-- The check at a write (R160). -/
def State.checkOverrun (s : State) (id : Nat) : State :=
  match s.fifo? id with
  | some f => if f.phase.overrunnable && decide (384 ≤ f.level (isStream id)) then s.beginSlip id true else s
  | none => s

/-- The check at a read (R159). -/
def State.checkUnderrun (s : State) (id : Nat) : State :=
  match s.fifo? id with
  | some f => if f.phase.underrunnable && decide (f.level (isStream id) ≤ 100) then s.beginSlip id false else s
  | none => s

/-- Discards the oldest frames. -/
def AudFifo.discard (f : AudFifo) (stream : Bool) (n : Nat) : AudFifo :=
  if stream then { f with rd := f.rd.map (· + n), byTime := match f.rd with | some r => tfilter f.byTime fun k _ => decide (r + n ≤ k) | none => [] }
  else { f with frames := f.frames.drop n }

/-- A phase belongs to an underrun's sequence, or to an overrun's. -/
def SlipPhase.of (p : SlipPhase) (overrun : Bool) : Bool :=
  match p with
  | .fade _ .underrun => !overrun
  | .fade _ .overrun => overrun
  | .silent => !overrun
  | .drop => overrun
  | _ => false

/-- The members of a slip that are in its sequence, and whether all of them have faded. -/
def State.inSlip (s : State) (l : Slip) : List Nat :=
  l.members.filter fun m => match s.fifo? m with | some f => f.phase.of l.overrun | none => false
def State.slipFaded (s : State) (l : Slip) : Bool :=
  (s.inSlip l).all fun m => match s.fifo? m with | some f => f.phase == .silent || f.phase == .drop | none => true

/-- An overrun's members discard what the triggering one discards, and begin their ramps (R160, R161). -/
def State.dropSlip (s : State) (l : Slip) (n : Nat) : State :=
  (s.inSlip l).foldl (fun t m =>
    match t.fifo? m with
    | some f =>
      let d := min n (f.level (isStream m))
      let t := t.updFifo m fun f => { f.discard (isStream m) d with phase := .ramp 0 true }
      (t.bumpBy (audReg m 2) d).bumpBy (audReg m 3) (n - d)
    | none => t) s

/-- The silence of an underrun ends for every member when the triggering one has reached target; an overrun's discarding comes at
the frame after its fade (R159 to R161). A triggering FIFO that has left the sequence, being stopped or started anew, leaves each other
member to a slip of its own. -/
def State.turnSlip (s : State) (l : Slip) : State :=
  let put (t : State) (more : List Slip) : State := { t with aud := { t.aud with slips := more ++ t.aud.slips.filter (· != l) } }
  match s.fifo? l.trigger with
  | some f =>
    let lv := f.level (isStream l.trigger)
    if !(f.phase.of l.overrun) then put s ((s.inSlip l).map fun m => ⟨m, [m], l.overrun⟩)
    else if !(s.slipFaded l) then s
    else if l.overrun then put (s.dropSlip l (lv - f.target)) []
    else if f.target ≤ lv then
      put ((s.inSlip l).foldl (fun t m => t.updFifo m fun f => { f with phase := .ramp 0 false }) s) []
    else s
  | none => put s ((s.inSlip l).map fun m => ⟨m, [m], l.overrun⟩)

/-- One frame read from a FIFO: the frame, whether it was missing, and the FIFO after it. -/
def AudFifo.pop (f : AudFifo) (stream : Bool) : Option (List Int) × Bool × AudFifo :=
  if stream then
    match f.rd with
    | some r => (tget f.byTime r, !(thas f.byTime r), { f with rd := some (r + 1), byTime := tfilter f.byTime fun k _ => decide (r < k) })
    | none => (none, false, f)
  else
    match f.frames with
    | x :: rest => (some x, false, { f with frames := rest })
    | [] => (none, false, f)

/-- What a reader does with its FIFO on one frame: the frame it takes (zeros for silence), the gain, the FIFO after it, whether a
frame was missing, and whether one was inserted (R157, R159, R160). -/
structure ReadOut where
  frame    : List Int
  gain     : Nat
  fifo     : AudFifo
  missing  : Bool
  inserted : Bool
deriving DecidableEq, Repr

/-- The phase after frame `i` of a fade. -/
def fadeNext (i : Nat) (e : FadeEnd) : SlipPhase :=
  if 96 ≤ i + 1 then e.after else .fade (i + 1) e

/-- One read of a FIFO. -/
def AudFifo.readOne (f : AudFifo) (stream : Bool) : ReadOut :=
  let take (g : Nat) (p : SlipPhase) : ReadOut :=
    let r := f.pop stream
    ⟨r.1.getD [], if r.1.isSome then g else 0, { r.2.2 with phase := p }, r.2.1, false⟩
  match f.phase with
  | .normal => take 65536 .normal
  | .fade i e => take (fadeGain i) (fadeNext i e)
  | .ramp i o => take (rampGain i) (if 96 ≤ i + 1 then .normal else .ramp (i + 1) o)
  | .silent => ⟨[], 0, f, false, true⟩
  | .drop => ⟨[], 0, f, false, false⟩
  | .start => if f.target ≤ f.level stream && (!stream || f.rd.isSome) then take (rampGain 0) (.ramp 1 false) else ⟨[], 0, f, false, false⟩
  | .mute => ⟨[], 0, f, false, false⟩

/-- Reads the FIFOs of one clock on one frame: detection, the turns of slips, then every FIFO's frame under its gain
(R156 to R161). -/
def State.readFifos (s : State) (ids : List Nat) : State × Tab (List Int × Nat) :=
  let s := ids.foldl State.checkUnderrun s
  let s := (s.aud.slips.filter fun l => l.members.any ids.contains).foldl State.turnSlip s
  ids.foldl (fun (a : State × Tab (List Int × Nat)) id =>
    match a.1.fifo? id with
    | some f =>
      let r := f.readOne (isStream id)
      let t := a.1.updFifo id fun _ => r.fifo
      let t := t.when r.inserted (·.bump (audReg id 2))
      let chans := match tget s.aud.streams id with | some e => e.arg.channels | none => 0
      let t := t.when (r.missing && isStream id) (·.bumpBy (Reg.AUD_NS_MISSING id) chans)
      (t, tset a.2 id (r.frame, r.gain))
    | none => a) (s, [])

/-! ## Directions (R163 to R167) -/

/-- A direction. -/
def State.dir (s : State) (k : Nat) : AudDir := tgetD s.aud.dirs k {}

/-- Changes a direction. -/
def State.updDir (s : State) (k : Nat) (f : AudDir → AudDir) : State :=
  { s with aud := { s.aud with dirs := tset s.aud.dirs k (f (s.dir k)) } }

/-- The direction's clock runs: a started master, or a locked slave. -/
def AudDir.clocked (d : AudDir) : Bool := if d.fmt.mode = 1 then d.st != .stopped else d.locked

/-- The bits of a direction's slots. -/
def AudDir.slotBits (d : AudDir) : Nat := 2 ^ d.fmt.slots - 1

/-- Slot `i` starts with a ramp, or begins its fade. -/
def AudDir.addSlot (d : AudDir) (i : Nat) : AudDir :=
  let b : BitVec 16 := BitVec.ofNat 16 (2 ^ i)
  { d with mask := d.mask ||| b, readd := d.readd &&& ~~~b, rampPos := tset d.rampPos i 0 }
def AudDir.fadeSlot (d : AudDir) (i : Nat) : AudDir :=
  { d with fading := d.fading ||| BitVec.ofNat 16 (2 ^ i), fadePos := tset d.fadePos i 0, rampPos := tdel d.rampPos i }

/-- A slot whose fade has ended is dropped. -/
def AudDir.dropSlot (d : AudDir) (i : Nat) : AudDir :=
  let b : BitVec 16 := BitVec.ofNat 16 (2 ^ i)
  { d with fading := d.fading &&& ~~~b, mask := d.mask &&& ~~~b, fadePos := tdel d.fadePos i }

/-- A frame boundary of the slot mask (R167): slots added again start at the boundary after their drop, slots whose fade has ended are
dropped, and a pending commit takes effect. -/
def AudDir.maskBoundary (d : AudDir) (commit : Bool) (next : Nat) : AudDir :=
  let again := (List.range 16).filter fun i => d.readd.toNat.testBit i && !(d.mask.toNat.testBit i)
  let ended := (List.range 16).filter fun i => tget d.fadePos i == some 96
  let d := ended.foldl AudDir.dropSlot (again.foldl AudDir.addSlot d)
  if !commit then d
  else
    (List.range d.fmt.slots).foldl (fun (d : AudDir) i =>
      let b : BitVec 16 := BitVec.ofNat 16 (2 ^ i)
      let has := d.mask.toNat.testBit i
      let going := d.fading.toNat.testBit i
      if next.testBit i then
        if going || ended.contains i then { d with readd := d.readd ||| b }
        else if has then d
        else d.addSlot i
      else
        let d := { d with readd := d.readd &&& ~~~b }
        if has && !going then d.fadeSlot i else d) d

/-- The gain of slot `i` (R167). -/
def AudDir.slotGain (d : AudDir) (i : Nat) : Nat :=
  if !(d.mask.toNat.testBit i) then 0
  else
    match tget d.fadePos i with
    | some k => fadeGain k
    | none =>
      match tget d.rampPos i with
      | some k => rampGain k
      | none => 65536

/-- Slot fades and ramps move on by one frame. -/
def AudDir.slotsMove (d : AudDir) : AudDir :=
  { d with
    fadePos := tmap d.fadePos fun _ k => k + 1
    rampPos := (tmap d.rampPos fun _ k => k + 1).filter fun e => decide (e.2 < 96) }

/-- The mask part of a frame boundary in State: the commit bit clears when the mask takes effect. -/
def State.maskAt (s : State) (k : Nat) : State :=
  let commit := wbit (s.rd (Reg.AUD_SLOT_COMMIT k)) 0
  let next := (s.rd (Reg.AUD_SLOT_MASK_NEXT k)).toNat % 2 ^ 16
  let s := s.updDir k fun d => d.maskBoundary commit (next &&& d.slotBits)
  if commit then s.wr (Reg.AUD_SLOT_COMMIT k) 0 else s

/-- Writes a frame into a TDM FIFO; a full one loses it (R160). -/
def State.writeTdm (s : State) (id : Nat) (frame : List Int) : State :=
  let s := s.checkOverrun id
  match s.fifo? id with
  | some f =>
    if 512 ≤ f.frames.length then s.bump (audReg id 3)
    else s.updFifo id fun f => { f with frames := f.frames ++ [frame] }
  | none => s

/-- The start sequence begins (R166): frame 0, readers silent. A slip under way goes on where its silence or its discarding is due
(R159, R160, R165). -/
def AudDir.begin (d : AudDir) : AudDir :=
  { d with st := .starting, frame := 0, fifo := { d.fifo with phase := match d.fifo.phase with
      | .fade _ e => if e == .stop then .start else e.after
      | .silent => .silent
      | .drop => .drop
      | _ => .start } }

/-- The stop sequence begins (R166). A stop during a start goes without a ramp. -/
def AudDir.halt (d : AudDir) : AudDir :=
  { d with
    st := .stopping, frame := 0, stopDue := false
    fifo := { d.fifo with phase := match d.fifo.phase with
      | .normal => .fade 0 .stop
      | .fade i _ => .fade i .stop
      | .ramp k _ => if k = 0 then .mute else .fade (96 - k) .stop
      | _ => .mute } }

/-- The direction has stopped; its FIFO is empty, and a master's frame sync rests at its inactive level. -/
def AudDir.ended (d : AudDir) : AudDir :=
  { d with
    st := .stopped, frame := 0, fsPin := d.fmt.mode == 1 && d.fmt.fsPolarity == 1
    fifo := { d.fifo with frames := [], phase := .start } }

/-- The 24-bit sample of a slot word, and the slot word of a sample: bits [31:8], most significant bit first on the pins (R164). -/
def slotSample (w : Word) : Int := fdiv w.toInt 256
def slotWord (v : Int) : Word := BitVec.ofInt 32 (v * 256)

/-- TDM_RX_FRAME (R156, R164 to R167): a receive direction completes a frame. Frames 0 to 63 of a start are discarded. -/
def execTdmRxFrame (p : Nat) (slots : List Word) (s : State) : Host.Outcome State Fault Refusal :=
  .next (
    let k := 2 * p
    let d := s.dir k
    if d.st == .stopped || !d.clocked || decide (7 < p) then s
    else
      let s := s.maskAt k
      let d := s.dir k
      let frame := (List.range d.fmt.slots).map fun i => gainSample (slotSample (slots.getD i 0)) (d.slotGain i) 65536
      let s := s.updDir k fun d => { d.slotsMove with frame := d.frame + 1 }
      match d.st with
      | .starting =>
        if d.frame < 63 then s
        else if d.stopDue then s.updDir k AudDir.halt
        else s.updDir k fun d => { d with st := .running }
      | .running => s.writeTdm (256 + p) frame
      | .stopping =>
        if d.frame < 96 then
          let s := s.writeTdm (256 + p) frame
          if d.frame + 1 = 96 ∧ d.fmt.mode = 0 then s.updDir k AudDir.ended else s
        else if d.frame + 1 < 160 then s
        else s.updDir k AudDir.ended
      | .stopped => s)

/-- Routes of a port that wait take effect at its frame boundary: the old source fades, a new one without an old ramps (R350). -/
def State.routesAt (s : State) (p : Nat) : State :=
  (s.aud.newRoutes.filter fun e => e.1 / 16 == p).foldl (fun t e =>
    if thas t.aud.routeFade e.1 then t
    else if thas t.aud.routes e.1 then { t with aud := { t.aud with routeFade := tset t.aud.routeFade e.1 0, routeRamp := tdel t.aud.routeRamp e.1 } }
    else
      { t with aud := { t.aud with
          newRoutes := tdel t.aud.newRoutes e.1
          routes := if e.2.1 = 0 then t.aud.routes else tset t.aud.routes e.1 e.2
          routeRamp := if e.2.1 = 0 then t.aud.routeRamp else tset t.aud.routeRamp e.1 0 } }) s

/-- The frame a transmit direction sends, from what its FIFO gives (R164, R167). -/
def AudDir.txFrame (d : AudDir) (r : List Int × Nat) : List Word :=
  (List.range d.fmt.slots).map fun i => slotWord (gainSample (r.1.getD i 0) r.2 (d.slotGain i))

/-- Sends a frame on the pins of a transmit direction. -/
def State.sendTdm (s : State) (p : Nat) (frame : List Word) : State :=
  (s.updDir (2 * p + 1) fun d => { d with pins := frame }).emit (.tdm p frame)

/-- TDM_TX_FRAME (R156, R164 to R167): a transmit direction sends a frame. -/
def execTdmTxFrame (p : Nat) (s : State) : Host.Outcome State Fault Refusal :=
  .next (
    let k := 2 * p + 1
    let d := s.dir k
    let zeros : List Word := List.replicate d.fmt.slots 0
    if decide (7 < p) then s
    else if d.st == .stopped then (if d.fmt.mode = 0 && thas s.aud.dirs k then s.sendTdm p zeros else s)
    else if !d.clocked then s
    else
      let s := (s.maskAt k).routesAt p
      let d := s.dir k
      let s := s.updDir k fun d => { d.slotsMove with frame := d.frame + 1 }
      match d.st with
      | .starting =>
        if d.frame + 1 < 64 then s.sendTdm p zeros
        else if d.stopDue then (s.updDir k AudDir.halt).sendTdm p zeros
        else (s.updDir k fun d => { d with st := .running }).sendTdm p zeros
      | .running =>
        let r := s.readFifos [512 + p]
        r.1.sendTdm p (d.txFrame (tgetD r.2 (512 + p) ([], 0)))
      | .stopping =>
        if d.frame < 96 then
          let r := s.readFifos [512 + p]
          r.1.sendTdm p (d.txFrame (tgetD r.2 (512 + p) ([], 0)))
        else if d.frame + 1 < 160 then s.sendTdm p zeros
        else (s.updDir k AudDir.ended).sendTdm p zeros
      | .stopped => s)

/-- A slave direction locks and its start sequence begins (R165, R166); a stop sequence goes on. -/
def State.dirLock (s : State) (k : Nat) : State :=
  s.updDir k fun d =>
    if d.locked then d
    else if d.st == .stopped || d.st == .stopping then { d with locked := true }
    else { d.begin with locked := true }

/-- A direction loses lock (R165). -/
def State.dirUnlock (s : State) (k : Nat) : State :=
  if (s.dir k).locked && (s.dir k).fmt.mode == 0 then
    ((s.updDir k fun d => { d with locked := false }).bump (Reg.AUD_LOCK_LOSSES k)).sticky (Reg.AUD_DIR_STATE k) 0x100
  else s

/-- TDM_FRAME_SYNC (R165): `spacing` bit clocks after the last one. -/
def execTdmFrameSync (p d : Nat) (spacing : Nat) (s : State) : Host.Outcome State Fault Refusal :=
  .next (
    let k := 2 * p + d
    let v := s.dir k
    if 7 < p ∨ 1 < d ∨ v.fmt.mode = 1 then s
    else if spacing = v.fmt.slots * 32 then s.dirLock k else s.dirUnlock k)

/-- TDM_LOCK_TIMEOUT (R165): no frame sync within 4 frames of the last one. -/
def execTdmLockTimeout (p d : Nat) (s : State) : Host.Outcome State Fault Refusal :=
  .next (if 7 < p ∨ 1 < d then s else s.dirUnlock (2 * p + d))

/-- AUD_SLOT_COMMIT (R167): the commit is pending until it takes effect. -/
def execAudSlotCommit (p d : Nat) (s : State) : Host.Outcome State Fault Refusal :=
  .next (if 7 < p ∨ 1 < d then s else s.hostWrite (Reg.AUD_SLOT_COMMIT (2 * p + d)) fun s => s.wr (Reg.AUD_SLOT_COMMIT (2 * p + d)) 1)

/-! ## The sample tick (R156) -/

/-- FIFOs that the sample tick reads: defined streams, and receive directions that are not stopped. -/
def State.tickFifos (s : State) : List Nat :=
  tkeys s.aud.streams ++ ((List.range 8).filter fun p => (s.dir (2 * p)).st != .stopped).map (256 + ·)

/-- One source sample of a tick, under its FIFO's gain. -/
def sourceSample (got : Tab (List Int × Nat)) (r : Nat × Nat × Nat) (g : Nat) : Int :=
  let id := if r.1 = 1 then r.2.1 else 256 + r.2.1
  match tget got id with
  | some (f, gain) => gainSample (f.getD r.2.2 0) gain g
  | none => 0

/-- The sample of a transmit sink, under the gain of a change of route (R350). -/
def State.sinkSample (s : State) (got : Tab (List Int × Nat)) (key : Nat) : Int :=
  match tget s.aud.routes key with
  | none => 0
  | some r =>
    let g := match tget s.aud.routeFade key with
      | some i => fadeGain i
      | none => match tget s.aud.routeRamp key with | some i => rampGain i | none => 65536
    sourceSample got r g

/-- Route fades and ramps move on; a sink whose fade has ended takes its new source. -/
def State.routesMove (s : State) : State :=
  let done := (s.aud.routeFade.filter fun e => decide (96 ≤ e.2 + 1)).map (·.1)
  let s := { s with aud := { s.aud with
    routeFade := (tmap s.aud.routeFade fun _ i => i + 1).filter fun e => decide (e.2 < 96)
    routeRamp := (tmap s.aud.routeRamp fun _ i => i + 1).filter fun e => decide (e.2 < 96) } }
  done.foldl (fun t k =>
    let r := tgetD t.aud.newRoutes k (0, 0, 0)
    { t with aud := { t.aud with
        newRoutes := tdel t.aud.newRoutes k
        routes := if r.1 = 0 then tdel t.aud.routes k else tset t.aud.routes k r
        routeRamp := if r.1 = 0 then t.aud.routeRamp else tset t.aud.routeRamp k 0 } }) s

/-- The alignment groups as they will stand at the next sample tick. -/
def State.alignGroups (s : State) : Tab (List Nat) :=
  s.aud.newGroups.foldl (fun (g : Tab (List Nat)) (e : Nat × List Nat) => if e.2.isEmpty then tdel g e.1 else tset g e.1 e.2) s.aud.groups

/-- Clock ticks of a sample period. -/
def sampleTicks : Nat := 270000000

/-- The TDM receive slots that feed channel audio, as 16 * port + slot (R171). -/
def State.tdmSources (s : State) : List Nat :=
  (s.chans.flatMap fun e => (tvals e.2.active.audio).filterMap fun r => if r.1 = 2 then some (16 * r.2.1 + r.2.2) else none).dedup

/-- Samples of those slots are placed by the local clock (R171). -/
def State.keepTdm (s : State) (got : Tab (List Int × Nat)) : State :=
  let k := s.time.now / sampleTicks
  let old (x : Nat) : Tab Int := tfilter (tgetD s.aud.tdmRecent x []) fun q _ => decide (k < q + 262144)
  let new (x : Nat) : Tab Int := tset (old x) k (sourceSample got (2, x / 16, x % 16) 65536)
  { s with aud := { s.aud with tdmRecent := s.tdmSources.foldl (fun (t : Tab (Tab Int)) x => tset t x (new x)) s.aud.tdmRecent } }

/-- SAMPLE_TICK (R156 to R161, R171, R351). -/
def execSampleTick (s : State) : Host.Outcome State Fault Refusal :=
  .next (
    let s := { s with aud := { s.aud with groups := s.alignGroups, newGroups := [] } }
    let r := s.readFifos s.tickFifos
    let s := (List.range 8).foldl (fun (t : State) (p : Nat) =>
      let d := t.dir (2 * p + 1)
      if d.st == .stopped then t
      else t.writeTdm (512 + p) ((List.range d.fmt.slots).map fun i => t.sinkSample r.2 (16 * p + i))) r.1
    (s.keepTdm r.2).routesMove)

/-! ## Streams -/

/-- One frame enters a stream's FIFO at its media frame; outside the FIFO's reach it is lost (R157, R160). -/
def State.writeStream (s : State) (st k : Nat) (frame : List Int) : State :=
  let s := s.checkOverrun st
  match s.fifo? st with
  | some f =>
    let rd := f.rd.getD k
    if k < rd then s.updFifo st fun f => { f with rd := some rd }
    else if rd + 512 ≤ k then s.bump (audReg st 3)
    else s.updFifo st fun f => { f with rd := some rd, byTime := tset f.byTime k frame, newest := max f.newest k }
  | none => s

/-- The frames of an audio packet, of extended sequence number `q`, enter a stream's FIFO by media time (R157) and are kept by media time
for channel audio (R170); the fraction of the newest sample's time is kept for the pilot (R168). -/
def State.audioIn (s : State) (st q tMedia : Nat) (frames : List (List Int)) : State :=
  let k := tMedia / sampleTicks
  let at_ := frames.zip (rangeFrom k frames.length)
  let top := k + frames.length
  let s := at_.foldl (fun (t : State) fk => t.writeStream st fk.2 fk.1) s
  { s with aud := { s.aud with
      streams := tupd s.aud.streams st fun e => { e with
        newestFrac := if e.fifo.newest + 1 = top then tMedia % sampleTicks * 256 / sampleTicks else e.newestFrac
        recent := at_.foldl (fun (t : Tab (Nat × List Int)) fk => tset t fk.2 (q, fk.1))
          (tfilter e.recent fun j _ => decide (top < j + 262144)) } } }

/-- The frames of a copy that takes another's place (R186) stand where its frames stood. -/
def State.audioAgain (s : State) (st tMedia : Nat) (frames : List (List Int)) : State :=
  let at_ := frames.zip (rangeFrom (tMedia / sampleTicks) frames.length)
  { s with aud := { s.aud with
      streams := tupd s.aud.streams st fun e => { e with
        fifo := { e.fifo with byTime := at_.foldl (fun (t : Tab (List Int)) fk => tupd t fk.2 fun _ => fk.1) e.fifo.byTime }
        recent := at_.foldl (fun (t : Tab (Nat × List Int)) fk => tupd t fk.2 fun o => (o.1, fk.1)) e.recent } } }

/-! ## Audio master clock (R168, R169) -/

/-- The pilot stream: the one AUDIO_CLOCK names, or by default the lowest-numbered one that feeds a TDM transmit slot. -/
def State.pilot (s : State) : Option Nat :=
  if s.aud.pilotSel = 0xFF then none
  else if s.aud.pilotSel = 0xFE then
    minNat? ((s.aud.routes.filter fun e => e.2.1 == 1 && thas s.aud.streams e.2.2.1).map fun e => e.2.2.1)
  else if thas s.aud.streams s.aud.pilotSel then some s.aud.pilotSel else none

/-- ±100 ppm in 2^-24 ppm. -/
def steerLimit : Int := 100 * 2 ^ 24

/-- AUDIO_CLOCK_LOOP_UPDATE (R168, R169), once per millisecond; an oscillator without lock holds its steering word (R12). -/
def execAudioClockLoopUpdate (s : State) : Host.Outcome State Fault Refusal :=
  .next (
    if s.dev.oscUnlocked then s
    else match s.pilot with
    | none => { s with aud := { s.aud with steer := 0, atLimit := false, holdover := false, resume := false } }
    | some p =>
      if s.aud.holdover then s
      else
        match tget s.aud.streams p with
        | none => s
        | some e =>
          match e.fifo.rd with
          | none => s
          | some rd =>
            let lv : Int := ((e.fifo.newest * 256 + e.newestFrac : Nat) : Int) - ((rd * 256 : Nat) : Int)
            let err := lv - ((e.fifo.target * 256 : Nat) : Int)
            let integ := if s.aud.atLimit then s.aud.integ
              else clampI (s.aud.integ + s.aud.ki * err) (-steerLimit) steerLimit
            let raw := clampI (s.aud.kp * err + integ) (-steerLimit) steerLimit
            let slewed := clampI raw (s.aud.steer - 2 ^ 24) (s.aud.steer + 2 ^ 24)
            let steer := if s.aud.resume then slewed else raw
            { s with aud := { s.aud with
                integ := integ, steer := steer, atLimit := decide (steer.natAbs = steerLimit.natAbs)
                resume := s.aud.resume && slewed != raw } })

/-- PILOT_HOLDOVER (R169): no packet of the pilot for 10 ms. -/
def execPilotHoldover (s : State) : Host.Outcome State Fault Refusal :=
  .next (if s.pilot.isSome then { s with aud := { s.aud with holdover := true } } else s)

/-- A packet of the pilot ends the holdover (R169). -/
def State.pilotBack (s : State) (st : Nat) : State :=
  if s.aud.holdover && s.pilot == some st then { s with aud := { s.aud with holdover := false, resume := true } } else s

/-! ## Commands (R349 to R351) -/

/-- AUDIO_PORT_CONFIG (R163, R349). -/
def State.doAudioPortConfig (s : State) (p : AudioPortArg) : Answer :=
  let k := 2 * p.port + p.dir
  s.checked [
      (decide (7 < p.port) || decide (1 < p.dir) || decide (1 < p.mode) || !([2, 4, 8, 16].contains p.slots) || decide (1 < p.fsWidth)
        || decide (1 < p.fsDelay) || decide (1 < p.fsPolarity) || decide (1 < p.edge) || decide (p.target < 128)
        || decide (383 < p.target), eBadParam),
      ((s.dir k).st != .stopped, eState)] fun s =>
    (s.updDir k fun d => { d with
      locked := d.locked && d.fmt.slots == p.slots && d.fmt.mode == p.mode
      fmt := p
      fifo := { d.fifo with target := p.target } }).done

/-- AUDIO_PORT_START (R166, R173): the direction's counts and sticky bits clear. -/
def State.doAudioPortStart (s : State) (p : ChArg) : Answer :=
  let k := 2 * p.object + p.item
  s.checked [(decide (7 < p.object) || decide (1 < p.item), eBadParam), ((s.dir k).st != .stopped, eState)] fun s =>
    let s := s.clearRegs (Reg.AUD_UNDERRUNS k) (Reg.AUD_LOCK_LOSSES k + 4)
    let s := s.wr (Reg.AUD_DIR_STATE k) 0
    (s.updDir k fun d => { d.begin with fifo := { d.fifo with frames := [], phase := .start }, stopDue := false }).done

/-- AUDIO_PORT_STOP (R166): a stop during a start first completes its zero frames. -/
def State.doAudioPortStop (s : State) (p : ChArg) : Answer :=
  let k := 2 * p.object + p.item
  s.checked [(decide (7 < p.object) || decide (1 < p.item), eBadParam),
      ((s.dir k).st == .stopped || (s.dir k).st == .stopping, eState)] fun s =>
    (s.updDir k fun d => if d.st == .starting then { d with stopDue := true } else d.halt).done

/-- A flow entry is an essence entry of an audio type whose target is stream `st`. -/
def State.audioFlow (s : State) (x st : Nat) (format : Nat) : Bool :=
  match tget s.net.flows x with
  | some f => f.arg.kind == 1 && f.arg.target == st && f.arg.essence == (if format = 2 then 3 else 2)
  | none => false

/-- AUDIO_STREAM_CONFIG (R157, R158, R349, R193). -/
def State.doAudioStreamConfig (s : State) (p : AudioStreamArg) : Answer :=
  s.checked [
      (decide (63 < p.stream) || decide (2 < p.format) || decide (p.channels < 1) || decide (64 < p.channels) || decide (1 < p.ptime)
        || decide (p.target < 128) || decide (383 < p.target) || !(s.audioFlow p.flowA p.stream p.format)
        || (p.flowB != 0xFFFF && !(s.audioFlow p.flowB p.stream p.format)), eBadParam),
      (thas s.aud.streams p.stream, eState),
      (decide (512 < p.channels + sumNat (s.aud.streams.map fun e => e.2.arg.channels)), eNoCapacity)] fun s =>
    let s := s.clearRegs (Reg.AUD_NS_LEVEL p.stream) (Reg.AUD_NS_LOST_FRAMES p.stream + 4)
    let s := s.clearMerge (80 + p.stream)
    { s with aud := { s.aud with streams := tset s.aud.streams p.stream { arg := p, fifo := { target := p.target } } } }.done

/-- AUDIO_STREAM_DELETE (R157). -/
def State.doAudioStreamDelete (s : State) (p : ChArg) : Answer :=
  s.checked [(decide (63 < p.object) || p.item != 0, eBadParam), (!(thas s.aud.streams p.object), eState)] fun s =>
    { s with
      aud := { s.aud with streams := tdel s.aud.streams p.object }
      net := { s.net with merges := tdel s.net.merges (80 + p.object) } }.done

/-- An AUDIO_ROUTE entry is in its ranges (R350). -/
def routeOk (e : RouteEntry) : Bool :=
  (match e.sinkKind with
    | 1 => decide (e.sinkA ≤ 7) && decide (e.sinkB ≤ 15)
    | 2 => decide (e.sinkA ≤ 63) && decide (e.sinkB ≤ 63)
    | _ => false)
  && (match e.srcKind with
    | 0 => e.srcA == 0 && e.srcB == 0
    | 1 => decide (e.srcA ≤ 63) && decide (e.srcB ≤ 63)
    | 2 => decide (e.srcA ≤ 7) && decide (e.srcB ≤ 15)
    | _ => false)

/-- A channel that this member resyncs (R326). -/
def State.resyncing (s : State) (c : Nat) : Bool := s.grp.role == .joining && (s.gch c).phase != .none

/-- One entry of AUDIO_ROUTE: a transmit sink's waits for its frame boundary, a channel sink's for a commit. -/
def State.routeEntry (t : State) (e : RouteEntry) : State :=
  let r : Nat × Nat × Nat := (e.srcKind, e.srcA, e.srcB)
  if e.sinkKind = 1 then
    let n := tset t.aud.newRoutes (16 * e.sinkA + e.sinkB) r
    { t with aud := { t.aud with newRoutes := n } }
  else
    t.updChan e.sinkA fun ch =>
      let n := if e.srcKind = 0 then tdel ch.shadow.audio e.sinkB else tset ch.shadow.audio e.sinkB r
      { ch with shadow := { ch.shadow with audio := n } }

/-- AUDIO_ROUTE (R156, R171, R326, R327, R350): transmit sinks at their next frame boundary, channel audio by commit. -/
def State.doAudioRoute (s : State) (p : AudioRouteArg) : Answer :=
  s.checked [
      (p.entries.isEmpty || decide (16 < p.entries.length) || !(p.entries.all routeOk), eBadParam),
      (p.entries.any fun e => e.sinkKind == 2 &&
        (!(thas s.chans e.sinkA) || (e.srcKind == 2 && s.member) || s.resyncing e.sinkA), eState)] fun s =>
    (p.entries.foldl State.routeEntry s).done

/-- AUDIO_ALIGN_GROUP (R161, R351). -/
def State.doAudioAlignGroup (s : State) (p : AlignGroupArg) : Answer :=
  let ids := p.members.map fun m => 256 * m.1 + m.2
  let others := (s.alignGroups.filter fun e => e.1 != p.group).flatMap (·.2)
  s.checked [
      (decide (15 < p.group) || decide (16 < p.members.length)
        || (p.members.any fun m => decide (2 < m.1) || decide ((if m.1 = 0 then 63 else 7) < m.2))
        || !(p.members.all (fun m => m.1 != 2) || decide (p.members.length ≤ 1))
        || decide (ids.dedup.length < ids.length) || ids.any others.contains, eBadParam)] fun s =>
    { s with aud := { s.aud with newGroups := tset s.aud.newGroups p.group ids } }.done

/-- AUDIO_CLOCK (R168, R349): a change of pilot keeps the integrator. -/
def State.doAudioClock (s : State) (p : AudioClockArg) : Answer :=
  s.checked [(decide (63 < p.pilot) && p.pilot != 0xFE && p.pilot != 0xFF, eBadParam)] fun s =>
    { s with aud := { s.aud with pilotSel := p.pilot, kp := p.kp, ki := p.ki } }.done

end Sys2Proof.Machine
end

