-- ==== Sys2Proof/Machine/Frame.lean ====
section
/-!
DEFINITION. Frames as bytes (chapter 9): parsing of Ethernet, IP and UDP (R176, R177), the fixed rules (R178), RTP and RFC 4588
(R183), and the essence formats of Table 9-2 (R172, R185, R188). The layouts are those of the standards that the spec names and does
not restate: PRESUMED (log entry 99).
-/
namespace Sys2Proof.Machine

/-! ## Bytes -/

/-- Byte `i` of a list as a number, 0 beyond its end. -/
def byteOf (l : List Byte) (i : Nat) : Nat := (l.getD i 0).toNat

/-- The big-endian number in `n` bytes from byte `i` on. -/
def beNat (l : List Byte) (i n : Nat) : Nat := (rangeFrom i n).foldl (fun a k => 256 * a + byteOf l k) 0

/-- The sum of the 16-bit words of a list, the last byte of an odd one in the high half. -/
def words16 : List Byte → Nat
  | [] => 0
  | [a] => 256 * a.toNat
  | a :: b :: r => 256 * a.toNat + b.toNat + words16 r

/-- An internet checksum holds over words of this sum. -/
def checksumOk (n : Nat) : Bool := n != 0 && n % 65535 == 0

/-- The frame check sequence is right: CRC-32, least significant byte first. -/
def fcsOk (l : List Byte) : Bool :=
  l.drop (l.length - 4) == leBytes 4 (crcOut 32 true 0xFFFFFFFF (crcRun 32 0x04C11DB7 true 0xFFFFFFFF (l.take (l.length - 4))))

/-! ## Ethernet, IP and UDP (R177, R178) -/

/-- A UDP datagram as the flow table sees it: key fields and payload. -/
structure Datagram where
  dst     : Addr
  src     : Addr
  port    : Nat
  vid     : Nat
  payload : List Byte
deriving DecidableEq, Repr

/-- What parsing a frame gives. -/
inductive Parsed where
  | flowControl
  | malformed
  /-- A frame of the fixed rules, as firmware reads it. -/
  | fixed (k : CtlPacket)
  | udp (d : Datagram)
  | other
deriving DecidableEq, Repr

/-- The IPv4 address at byte `i`. -/
def addr4 (l : List Byte) (i : Nat) : Addr := mapped4 (BitVec.ofNat 32 (beNat l i 4))

/-- The IPv6 address at byte `i`. -/
def addr6 (l : List Byte) (i : Nat) : Addr := BitVec.ofNat 128 (beNat l i 16)

/-- The UDP datagram in the body of an IP packet, `pseudo` being the sum of its addresses; `always` verifies a checksum of 0 too. -/
def parseUdp (dst src : Addr) (vid pseudo : Nat) (always : Bool) (l : List Byte) : Parsed :=
  let n := beNat l 4 2
  if decide (l.length < 8) || decide (n < 8) || decide (l.length < n) then .malformed
  else if (always || beNat l 6 2 != 0) && !(checksumOk (pseudo + 17 + n + words16 (l.take n))) then .malformed
  else .udp ⟨dst, src, beNat l 2 2, vid, (l.take n).drop 8⟩

/-- ARP: a request asks for an address. -/
def parseArp (l : List Byte) : CtlPacket := if beNat l 6 2 = 1 ∧ 28 ≤ l.length then .resolve (addr4 l 24) else .other

/-- IGMP: a query names a group, or none. -/
def parseIgmp (l : List Byte) : CtlPacket :=
  if byteOf l 0 = 0x11 ∧ 8 ≤ l.length then .query (if beNat l 4 4 = 0 then 0 else addr4 l 4) else .other

/-- ICMPv6 as firmware answers it: echo requests, neighbour solicitations, MLD queries. -/
def parseIcmp6 (mine : Bool) (frame : Nat) (l : List Byte) : CtlPacket :=
  match byteOf l 0 with
  | 128 => if mine then .echo frame else .other
  | 130 => .query (addr6 l 8)
  | 135 => .resolve (addr6 l 8)
  | _ => .other

/-- ICMPv6 types of the fixed rules (R178). -/
def fixedType (l : List Byte) : Bool := decide (128 ≤ byteOf l 0) && decide (byteOf l 0 ≤ 137) || byteOf l 0 == 143

/-- An IPv4 packet: version, lengths and header checksum are verified, options skipped, fragments malformed (R177). -/
def parseIp4 (f : Iface) (vid frame : Nat) (l : List Byte) : Parsed :=
  let ihl := byteOf l 0 % 16 * 4
  let n := beNat l 2 2
  if decide (l.length < 20) || byteOf l 0 / 16 != 4 || decide (ihl < 20) || decide (l.length < n) || decide (n < ihl) then .malformed
  else if !(checksumOk (words16 (l.take ihl))) || beNat l 6 2 % 2 ^ 14 != 0 then .malformed
  else
    let body := (l.take n).drop ihl
    let dst := addr4 l 16
    match byteOf l 9 with
    | 2 => .fixed (parseIgmp body)
    | 1 => if f.owns dst then .fixed (if byteOf body 0 = 8 then .echo frame else .other) else .other
    | 17 => parseUdp dst (addr4 l 12) vid (words16 ((l.take 20).drop 12)) false body
    | _ => .other

/-- The header types of IPv6 that are extension headers. -/
def extensionHeaders : List Nat := [0, 43, 44, 50, 51, 60, 135, 139, 140]

/-- An IPv6 packet: UDP only directly after the fixed header, ICMPv6 of the fixed rules also after a hop-by-hop header (R177, R178). -/
def parseIp6 (f : Iface) (vid frame : Nat) (l : List Byte) : Parsed :=
  let n := beNat l 4 2
  if decide (l.length < 40) || byteOf l 0 / 16 != 6 || decide (l.length < 40 + n) then .malformed
  else
    let body := (l.drop 40).take n
    let dst := addr6 l 24
    let after := body.drop (8 * (byteOf body 1 + 1))
    match byteOf l 6 with
    | 17 => parseUdp dst (addr6 l 8) vid (words16 ((l.take 40).drop 8)) true body
    | 58 => if fixedType body then .fixed (parseIcmp6 (f.owns dst) frame body) else .other
    | 0 => if byteOf body 0 = 58 ∧ fixedType after then .fixed (parseIcmp6 (f.owns dst) frame after) else .malformed
    | k => if extensionHeaders.contains k then .malformed else .other

/-- The content of a frame by its EtherType. -/
def parseType (f : Iface) (vid frame type : Nat) (l : List Byte) : Parsed :=
  match type with
  | 0x0806 => .fixed (parseArp l)
  | 0x0800 => parseIp4 f vid frame l
  | 0x86DD => parseIp6 f vid frame l
  | 0x8808 => if beNat l 0 2 = 0x0001 ∨ beNat l 0 2 = 0x0101 then .flowControl else .other
  | _ => .other

/-- A frame with good FCS, on interface `f` (R176 to R178): untagged or with one tag; a second tag is malformed. -/
def parseFrame (f : Iface) (bytes : List Byte) : Parsed :=
  let l := bytes.take (bytes.length - 4)
  let tag (t : Nat) : Bool := t == 0x8100 || t == 0x88A8
  let t := beNat l 12 2
  if tag t && tag (beNat l 16 2) then .malformed
  else if t = 0x8100 then parseType f (beNat l 14 2 % 4096) bytes.length (beNat l 16 2) (l.drop 18)
  else parseType f 0 bytes.length t (l.drop 14)

/-! ## RTP (R183) -/

/-- The RTP packet in a UDP payload: header with CSRCs and extension skipped, padding removed. -/
def parseRtp (l : List Byte) : Option RtpPacket :=
  let b := byteOf l 0
  let base := 12 + 4 * (b % 16)
  let hdr := if b.testBit 4 then base + 4 + 4 * beNat l (base + 2) 2 else base
  let pad := if b.testBit 5 then byteOf l (l.length - 1) else 0
  if decide (l.length < 12) || b / 64 != 2 || decide (l.length < hdr + pad) || (b.testBit 5 && pad == 0) then none
  else some {
    pt := byteOf l 1 % 128, marker := (byteOf l 1).testBit 7, seq := beNat l 2 2, ts := beNat l 4 4, ssrc := beNat l 8 4
    payload := (l.take (l.length - pad)).drop hdr }

/-- The RTP payload type of a datagram. -/
def payloadType (l : List Byte) : Nat := byteOf l 1 % 128

/-- The packet that a retransmission restores (RFC 4588): the original sequence number stands in front of the original payload. -/
def restoreRtp (p : RtpPacket) : Option RtpPacket :=
  if p.payload.length < 2 then none else some { p with seq := beNat p.payload 0 2, payload := p.payload.drop 2 }

/-- The media time in ticks of an RTP timestamp of a clock with `unit` ticks, nearest an instant (R188; SMPTE ST 2059-1). -/
def mediaTime (unit ts at_ : Nat) : Nat :=
  let now := at_ / unit
  let k := now - now % 2 ^ 32 + ts
  (if k + 2 ^ 31 < now then k + 2 ^ 32 else if now + 2 ^ 31 < k ∧ 2 ^ 32 ≤ k then k - 2 ^ 32 else k) * unit

/-! ## Essence (R172, R185) -/

/-- An essence packet as its target takes it. -/
inductive Essence where
  | video (segs : List SrdSeg)
  | compressed
  | audio (frames : List (List Int))
  | anc (data : List Byte)
deriving DecidableEq, Repr

/-- Up to `n` SRD headers: length, line, field and offset of each, with what follows them; none where the payload is short or another
header follows. -/
def srdHeaders : Nat → List Byte → Option (List (Nat × Nat × Nat × Nat) × List Byte)
  | 0, _ => none
  | n + 1, l =>
    if l.length < 6 then none
    else
      let h := (beNat l 0 2, beNat l 2 2 % 32768, beNat l 2 2 / 32768, beNat l 4 2 % 32768)
      if (byteOf l 4).testBit 7 then (srdHeaders n (l.drop 6)).map fun r => (h :: r.1, r.2) else some ([h], l.drop 6)

/-- `n` pgroups of 4:2:2 samples at `depth` bits: Cb, Y, Cr, Y of each. -/
def pgroups (depth : Nat) : Nat → List Byte → List (Nat × Nat × Nat × Nat)
  | 0, _ => []
  | n + 1, l =>
    let v := beNat l 0 (depth / 2)
    let at_ (i : Nat) : Nat := v / 2 ^ (depth * (3 - i)) % 2 ^ depth
    (at_ 0, at_ 1, at_ 2, at_ 3) :: pgroups depth n (l.drop (depth / 2))

/-- The segments that SRD headers describe, from the sample data after them; whole pgroups only. -/
def srdSegs (depth : Nat) : List (Nat × Nat × Nat × Nat) → List Byte → Option (List SrdSeg)
  | [], _ => some []
  | (n, line, field, off) :: r, l =>
    if n % (depth / 2) ≠ 0 ∨ off % 2 ≠ 0 ∨ l.length < n then none
    else
      let g := pgroups depth (n / (depth / 2)) l
      (srdSegs depth r (l.drop n)).map fun t =>
        { line := line, field := field, offset := off, luma := g.flatMap fun x => [x.2.1, x.2.2.2], cb := g.map (·.1), cr := g.map (·.2.2.1) } :: t

/-- The video of an ST 2110-20 packet: extended sequence number, one to three SRD headers, samples. -/
def videoSegs (depth : Nat) (l : List Byte) : Option (List SrdSeg) :=
  match srdHeaders 3 (l.drop 2) with
  | some (hs, r) => srdSegs depth hs r
  | none => none

/-- A number of `bits` bits in two's complement. -/
def signedOf (bits v : Nat) : Int := if v < 2 ^ (bits - 1) then v else (v : Int) - 2 ^ bits

/-- The 24-bit sample at byte `i` of an audio payload: L16 as v << 8, L24, or the sample word of an AES3 subframe without its V, U and C
bits (R172). -/
def audioSample (format : Nat) (l : List Byte) (i : Nat) : Int :=
  if format = 0 then signedOf 16 (beNat l i 2) * 256
  else if format = 1 then signedOf 24 (beNat l i 3)
  else signedOf 24 (beNat l (i + 1) 3)

/-- The frames of an audio packet with the stream's channels and packet time; none for another size. -/
def audioFrames (a : AudioStreamArg) (l : List Byte) : Option (List (List Int)) :=
  let w := if a.format = 0 then 2 else if a.format = 1 then 3 else 4
  let n := if a.ptime = 0 then 48 else 6
  if l.length ≠ n * a.channels * w then none
  else some ((List.range n).map fun i => (List.range a.channels).map fun c => audioSample a.format l ((i * a.channels + c) * w))

/-- The ancillary data of an RFC 8331 payload. -/
def ancData (l : List Byte) : Option (List Byte) :=
  if l.length < 8 + beNat l 2 2 then none else some ((l.drop 8).take (beNat l 2 2))

/-- An essence packet under an entry of this type and target (Table 9-2); none when it does not meet the table. -/
def State.decodeEssence (s : State) (essence target : Nat) (p : RtpPacket) : Option Essence :=
  match essence with
  | 0 => (tget s.chans target).bind fun ch => (videoSegs ch.cfg.main.inputDepth p.payload).map .video
  | 1 => some .compressed
  | 4 => (ancData p.payload).map .anc
  | _ => (tget s.aud.streams target).bind fun st => (audioFrames st.arg p.payload).map .audio

/-- The sequence number of an essence packet, extended by the field of ST 2110-20 or by the caller's rollover count: value and width in
bits (R186). -/
def essenceSeq (essence : Nat) (p : RtpPacket) : Nat × Nat :=
  if essence = 0 then (p.seq + 65536 * beNat p.payload 0 2, 32) else (p.seq, 16)

end Sys2Proof.Machine
end

