-- ==== Sys2Proof/Machine/Ingest.lean ====
section
/-!
DEFINITION. Ingest (chapter 9): frames and fixed rules (R176 to R178; their parsing stands in `Frame.lean`), lookup and policing (R180 to R184), merging and
missing numbers (R186, R187, R190, R235), line fill (R188), and the output watch with its overlaps (R253, R255).
-/
namespace Sys2Proof.Machine

/-! ## Panic of the network masters (R382) -/

/-- The level of network master `k`'s buffer in bytes: it enters panic below 32 KiB and leaves it above 48 KiB. -/
def State.panicLevel (s : State) (k level : Nat) : State :=
  let on := if k = 0 then s.mem.panic0 else s.mem.panic1
  if !on && decide (level < 32768) then
    { s with mem := if k = 0 then { s.mem with panic0 := true, long0 := false } else { s.mem with panic1 := true, long1 := false } }.bump
      Reg.MEM_PANICS
  else if on && decide (49152 < level) then
    { s with mem := if k = 0 then { s.mem with panic0 := false, long0 := false } else { s.mem with panic1 := false, long1 := false } }
  else s

/-! ## Drops -/

/-- A malformed drop (R177, R185, R188). -/
def State.malformed (s : State) (i : Nat) : State := (s.bump (Reg.NET_MALFORMED i)).sticky (Reg.NET_PORT_STATUS i) 0x400

/-- An unmatched drop (R178, R180). -/
def State.unmatched (s : State) (i : Nat) : State := (s.bump (Reg.NET_UNMATCHED i)).sticky (Reg.NET_PORT_STATUS i) 0x200

/-- A malformed drop on an interface, if the packet came by one. -/
def State.malformedAt (s : State) (i : Option Nat) : State := match i with | some i => s.malformed i | none => s

/-! ## Buckets (R178, R184) -/

/-- A packet is passed to firmware. -/
def State.toFirmware (s : State) (i : Nat) (k : CtlPacket) : State := { s with net := { s.net with toFw := s.net.toFw ++ [(i, k)] } }

/-- The fixed bucket of an interface takes a packet, 10,000 packets per second, 64 at most, and passes it to firmware (R178). -/
def State.fixedTake (s : State) (i at_ : Nat) (k : CtlPacket) : State :=
  let f := s.iface i
  let units (t : Nat) : Nat := 10000 * 2 ^ 20 * t / Config.ticksPerSec
  let lv := min (64 * 2 ^ 20) (f.fixed + (units at_ - units f.fixedAt))
  if 2 ^ 20 ≤ lv then (s.updIface i fun f => { f with fixed := lv - 2 ^ 20, fixedAt := at_ }).toFirmware i k
  else (s.updIface i fun f => { f with fixed := lv, fixedAt := at_ }).bump (Reg.NET_FIXED_DROPS i)

/-- Level of an entry's bucket at an instant, in 1/1024 byte (R184). -/
def Flow.level (f : Flow) (at_ : Nat) : Nat :=
  let r := rateEff f.arg * 125 * 1024
  min (burstEff f.arg * 1024) (f.bucket + (r * at_ / Config.ticksPerSec - r * f.at_ / Config.ticksPerSec))

/-- Changes a resident entry. -/
def State.updFlow (s : State) (x : Nat) (f : Flow → Flow) : State := { s with net := { s.net with flows := tupd s.net.flows x f } }

/-- A packet of `cost` bytes meets the policer of an entry: the entry after it, and whether it is accepted (R184). -/
def Flow.police (f : Flow) (cost at_ : Nat) : Flow × Bool :=
  if f.arg.rate = 0 then ({ f with pkts := f.pkts + 1 }, true)
  else
    let lv := f.level at_
    if cost * 1024 ≤ lv then ({ f with bucket := lv - cost * 1024, at_ := at_, pkts := f.pkts + 1 }, true)
    else ({ f with bucket := lv, at_ := at_, drops := f.drops + 1 }, false)

/-- A drop of an entry for another reason than its policer (R183, R188). -/
def State.flowDrop (s : State) (x : Nat) : State := s.updFlow x fun f => { f with drops := f.drops + 1 }

/-- A duplicate or stale copy of an entry (R186). -/
def State.flowDup (s : State) (x : Nat) : State := (s.updFlow x fun f => { f with dups := f.dups + 1 }).pmuEvent 7 3

/-! ## Repair (R190, R235) -/

/-- Runs of consecutive numbers, each of at most 64: first and count. -/
def runsOf64 : List Nat → List (Nat × Nat)
  | [] => []
  | q :: r =>
    match runsOf64 r with
    | (f, n) :: rest => if f = q + 1 ∧ n < 64 then (q, n + 1) :: rest else (q, 1) :: (f, n) :: rest
    | [] => [(q, 1)]

/-- Peers with a working stay path. -/
def State.peersUp (s : State) : List Nat := s.otherRanks.filter s.reachable

/-- The channel whose video or ancillary data a merge carries has t_tol = 0: it conceals without repair (R33, R190). -/
def State.noRepair (s : State) (m : Nat) : Bool :=
  let c := if m < 64 then m else m - 144
  (decide (m < 64) || decide (144 ≤ m)) && (match tget s.chans c with | some ch => ch.cfg.main.tTol == 0 | none => false)

/-- Requests missing numbers from every peer with a working stay path (R235), for a channel that repairs at all (R33). -/
def State.requestRepair (s : State) (m : Nat) (seqs : List Nat) : State :=
  if s.sendsRecords && !(s.noRepair m) then
    (runsOf64 seqs).foldl (fun (t : State) (g : Nat × Nat) =>
      t.peersUp.foldl (fun (u : State) (k : Nat) =>
        (u.sendTo k (.repairRequest m (g.1 % 2 ^ 32) g.2)).bump Reg.GRP_REPAIR_REQUESTS) t) s
  else s

/-! ## Merging (R186, R187, R190) -/

/-- 8 ms and 4 ms in clock ticks. -/
def mergeTicks : Nat := 8000000 * 12960
def stageTicks : Nat := 4000000 * 12960

/-- A merge. -/
def State.merge (s : State) (m : Nat) : Merge := tgetD s.net.merges m {}

/-- Changes a merge. -/
def State.updMerge (s : State) (m : Nat) (f : Merge → Merge) : State :=
  { s with net := { s.net with merges := tset s.net.merges m (f (s.merge m)) } }

/-- A sequence number of `2^bits` values extended to the nearest of its values to the newest (R186). -/
def extendSeq (bits : Nat) (newest : Option Nat) (q : Nat) : Nat :=
  let m := 2 ^ bits
  match newest with
  | none => q % m + 2 ^ 32
  | some hi =>
    let b := hi - hi % m + q % m
    if b + m / 2 < hi then b + m else if hi + m / 2 < b ∧ m ≤ b then b - m else b

/-- A number is stale: it has left the window (R186). -/
def Merge.stale (g : Merge) (q : Nat) : Bool := match g.floor with | some f => decide (q ≤ f) | none => false

/-- The window moves up to the packet last accepted: numbers that leave it, and how many of them were never accepted. -/
def Merge.advance (g : Merge) : Merge × Nat :=
  let gone (t : Nat) : Bool := decide (t + mergeTicks < g.newest)
  let old := (g.got.filter fun e => gone e.2.1).map (·.1)
  let lost := (g.missing.filter fun e => gone e.2).map (·.1)
  let floor := (old ++ lost).foldl (fun (a : Option Nat) q => some (max (a.getD 0) q)) g.floor
  ({ g with
      got := tfilter g.got fun _ e => !(gone e.1), missing := tfilter g.missing fun _ t => !(gone t)
      declared := g.declared.filter fun q => !(lost.contains q), floor := floor }, lost.length)

/-- A number is accepted: gaps below it become missing, and those 32 or more below it are declared (R190). -/
def Merge.accept (g : Merge) (q ingress x : Nat) : Merge × List Nat :=
  let new := match g.newestSeq with
    | some hi => if hi + 1 < q then rangeFrom (hi + 1) (q - hi - 1) else []
    | none => []
  let missing := new.foldl (fun t k => tset t k ingress) (tdel g.missing q)
  let hi := match g.newestSeq with | some h => max h q | none => q
  let due := ((tkeys missing).filter fun k => decide (k + 32 ≤ q) && !(g.declared.contains k))
  ({ g with
      got := tset g.got q (ingress, x), newest := ingress, newestSeq := some hi, missing := missing
      declared := (g.declared.filter (· != q)) ++ due }, due)

/-- A path of a merge has a packet past its policer: it is up (R187). -/
def Merge.pathUp (g : Merge) (path : Nat) : Merge :=
  if path = 0 then { g with upA := true } else if path = 1 then { g with upB := true } else g

/-- What a copy of a sequence number meets: it is accepted, dropped, or, coming by path A in the same cycle as path B's accepted copy, it
takes that copy's place. -/
inductive MergeTake where
  | accepted
  | dropped
  | replaced
deriving DecidableEq, Repr

/-- Group staging holds an accepted packet, and drops those accepted more than 4 ms before (R235). -/
def Merge.keep (g : Merge) (q : Nat) (p : RtpPacket) : Merge :=
  { g with stage := (tset g.stage q p).filter fun e => match tget g.got e.1 with
      | some (t, _) => decide (g.newest ≤ t + stageTicks)
      | none => false }

/-- A copy of sequence number `q` (extended) reaches a merge by entry `x` on `path`, 2 for a repair (R186, R190). -/
def State.mergeCopy (s : State) (m x path q ingress : Nat) (p : RtpPacket) : State × MergeTake :=
  let s := s.updMerge m (·.pathUp path)
  let g := s.merge m
  let kept (g : Merge) : Merge := if s.member then g.keep q p else g
  match tget g.got q with
  | some (t0, x0) =>
    let p0 : Nat := match tget s.net.flows x0 with | some f => f.arg.path | none => 2
    let swap := t0 == ingress && path == 0 && p0 == 1
    let s := if swap then (s.updMerge m fun g => kept { g with got := tset g.got q (t0, x) }).flowDup x0 else s.flowDup x
    (s.recordMax (Reg.NET_MERGE_SKEW m) 13 ((max t0 ingress - min t0 ingress) / (1000 * Config.ticksPerNs)),
      if swap then .replaced else .dropped)
  | none =>
    if g.stale q then
      (((s.flowDup x).bump (Reg.NET_MERGE_STALE m)).sticky (Reg.NET_MERGE_STATUS m) 0x200, .dropped)
    else
      let a := g.accept q ingress x
      let b := a.1.advance
      let s := (s.updMerge m fun _ => kept b.1).bumpBy (Reg.NET_MERGE_MISSING m) b.2
      (s.requestRepair m (a.2.filter fun k => thas b.1.missing k), .accepted)

/-! ## Line fill (R188) -/

/-- The clock a channel's ingest runs on: the local clock with the steps not yet taken by the channel added back (R15, R215). -/
def Chan.clock (ch : Chan) (t : Nat) : Nat := ((t : Int) + fdiv (ch.stepHeld * (Config.ticksPerNs : Nat)) 65536).toNat

/-- Channels that a channel's pool feeds: itself and its renditions (R28). -/
def State.feeds (s : State) (c : Nat) : List (Nat × Chan) :=
  s.chans.filter fun e => e.1 == c || e.2.cfg.main.renditionOf == c

/-- Some channel fed by `c`'s pool is ARMED, RUNNING or STOPPING; the first of them (R188). -/
def State.fedChan (s : State) (c : Nat) : Option Chan := ((s.feeds c).find? fun e => e.2.st.active).map (·.2)

/-- The picture index whose media epoch lies within half a period of a media time (R188). -/
def picOfMedia (m : DefMain) (t : Nat) : Nat := (2 * t + m.tp) / (2 * m.tp)

/-- The flow entries that feed picture index `n` of a channel (R10, R23, R344). -/
def State.flowsFor (s : State) (ch : Chan) (n : Nat) : Nat × Nat :=
  if ch.st == .armed && decide (ch.index ch.startPic ≤ n) then (ch.shadow.flowA, ch.shadow.flowB)
  else if ch.st.coding && ch.commitDue && !s.member && decide (ch.index ch.nextPic ≤ n) then (ch.shadow.flowA, ch.shadow.flowB)
  else if n < ch.feedFrom then ch.feedOld
  else (ch.active.flowA, ch.active.flowB)

/-- A segment counts as a late line (R29, R37, R188). -/
def State.lateLine (s : State) (c : Nat) : State := (s.bump (Reg.CHN_LATE_LINES c)).sticky (Reg.CHN_STATUS c) 0x200

/-- At `t` the slot of row `r` of picture index `n` still holds the row before it in the slot: the pixel front end of some channel that
the pool feeds codes that row and has not finished reading it (R29, R188). Whether any line of that row came plays no part. -/
def State.slotHeld (s : State) (c : Nat) (m : DefMain) (n r t : Nat) : Bool :=
  let q := m.rows * n + r - rowsHeld m
  decide (rowsHeld m ≤ m.rows * n + r) && decide (t < m.tDl (q / m.rows) (q % m.rows) + m.tRow) &&
    (s.feeds c).any fun e => e.2.st.active && decide (e.2.index e.2.startPic ≤ q / m.rows)

/-- Writes one SRD segment of picture index `n` into the pool of channel `c`, the packet having come at `t` on the channel's
clock (R188). `again` writes over a line that is complete already: path A's copy of a packet takes path B's place. -/
def State.writeSeg (s : State) (c n t : Nat) (i : Option Nat) (again : Bool) (g : SrdSeg) : State :=
  s.onChan c fun ch s =>
    let m := ch.cfg.main
    let fits := decide (g.line < m.format.lines) && decide (g.offset + g.luma.length ≤ m.format.width)
      && !(m.format.interlaced && g.field != n % 2)
    if !fits then s.malformedAt i
    else
      let r := g.line / m.ctuSize
      let l := g.line % m.ctuSize
      let slot := (m.rows * n + r) % rowsHeld m
      let old := tget ch.pool_ slot
      let own : Option PoolRow := match old with
        | some p => if p.pic = n ∧ p.row = r then some p else none
        | none => none
      let whole := match own with
        | some p => lineWhole m.format.width (tgetD p.segs l [])
        | none => false
      if s.slotHeld c m n r t || decide (m.tDl n r ≤ t) then s.lateLine c
      else if whole && !again then s
      else
        let p := own.getD { pic := n, row := r }
        let p := { p with segs := tset p.segs l (tgetD p.segs l [] ++ [g]) }
        s.updChan c fun ch => { ch with pool_ := tset ch.pool_ slot p }

/-! ## Delivery of an accepted packet (R183, R185) -/

/-- ST 2110-40 data joins the ancillary data of its picture, within 64 KiB (R196). -/
def State.ancIn (s : State) (c n q : Nat) (data : List Byte) : State :=
  let t := tgetD s.txc c {}
  let held := tdel (tgetD t.anc n []) q
  let room := 65536 - sumNat ((tvals held).map List.length)
  let s := { s with txc := tset s.txc c { t with anc := tset t.anc n (tset held q (data.take room)) } }
  s.bumpBy (Reg.EGR_ANC_DROPS c) (data.length - room)

/-- A packet of an external stream with this RTP timestamp begins an AU: none before it had the same or a later one (R237). -/
def ExtStream.begins (e : ExtStream) (ts : Nat) : Bool :=
  match e.lastTs with
  | some t => ts != t && decide ((ts + 2 ^ 32 - t) % 2 ^ 32 < 2 ^ 31)
  | none => true

/-- The first packet of an external AU is noted (R237). -/
def ExtStream.first (e : ExtStream) (q ts : Nat) : ExtStream :=
  if e.begins ts then { e with heads := e.heads ++ [(q, ts)], lastTs := some ts } else e

/-- The picture index of a 90 kHz RTP timestamp at an instant (R188). -/
def picOfTs (m : DefMain) (ts at_ : Nat) : Nat := picOfMedia m (mediaTime Config.ticks90k ts at_)

/-- An accepted essence packet is written to its target. `t` is its ingress instant; `again` says that it replaces a copy. -/
def State.deliver (s : State) (target q t : Nat) (i : Option Nat) (p : RtpPacket) (d : Essence) (again : Bool) : State :=
  match d with
  | .video segs =>
    match s.fedChan target with
    | some ch => segs.foldl (fun (u : State) g => u.writeSeg target (picOfTs ch.cfg.main p.ts t) (ch.clock t) i again g) s
    | none => s
  | .compressed => { s with ext := tupd s.ext target fun e => e.first q p.ts }
  | .audio frames =>
    let at_ := mediaTime sampleTicks p.ts t
    if again then s.audioAgain target at_ frames else (s.audioIn target q at_ frames).pilotBack target
  | .anc data =>
    s.onChan target fun ch s =>
      if ch.cfg.out.encap = 1 then s.ancIn target (picOfTs ch.cfg.main p.ts t) q data else s

/-- Merge index of an essence type and target (R193). -/
def mergeIndex (essence target : Nat) : Nat :=
  match essence with
  | 0 => target
  | 1 => 64 + target
  | 2 => 80 + target
  | 3 => 80 + target
  | _ => 144 + target

/-- Entry `x` feeds a target that names entries `a` and `b`: it is one of them, or the other path of a pair with one (R186). -/
def State.feedsTarget (s : State) (x : Nat) (e : FlowArg) (a b : Nat) : Bool :=
  let pairs (y : Nat) : Bool := match tget s.net.flows y with
    | some f => f.arg.kind == 1 && f.arg.essence == e.essence && f.arg.target == e.target && f.arg.path != e.path
    | none => false
  a == x || b == x || pairs a || pairs b

/-- Whether the target of essence entry `x` takes its packets: none says that they count as drops (R188), false that nothing
names the entry. -/
def State.targetTakes (s : State) (x : Nat) (a : FlowArg) (p : RtpPacket) (at_ : Nat) : Option Bool :=
  match a.essence with
  | 0 =>
    match s.fedChan a.target, tget s.chans a.target with
    | some _, some src =>
      let f := s.flowsFor src (picOfTs src.cfg.main p.ts at_)
      some (s.feedsTarget x a f.1 f.2)
    | _, _ => none
  | 1 => some (match tget s.ext a.target with | some e => s.feedsTarget x a e.arg.flowA e.arg.flowB | none => false)
  | 4 => some (thas s.chans a.target)
  | _ => some (match tget s.aud.streams a.target with | some e => s.feedsTarget x a e.arg.flowA e.arg.flowB | none => false)

/-- The essence entry that a repair entry names. -/
def State.essenceOf (s : State) (x : Nat) : Nat := match tget s.net.flows x with | some f => f.arg.target | none => x

/-- A packet of a target that takes it meets Table 9-2, its merge and, accepted, its target (R185, R186, R190); whether it was accepted.
`x` is the entry that brings it, 32,768 for stay repair, and `path` the merge path. -/
def State.intoMerge (s : State) (x : Nat) (a : FlowArg) (path : Nat) (i : Option Nat) (p : RtpPacket) (at_ : Nat) : State × Bool :=
  match s.decodeEssence a.essence a.target p with
  | none => (s.malformedAt i, false)
  | some d =>
    let m := mergeIndex a.essence a.target
    let n := essenceSeq a.essence p
    let q := extendSeq n.2 (s.merge m).newestSeq n.1
    let r := s.mergeCopy m x path q at_ p
    if r.2 = .dropped then (r.1, false) else (r.1.deliver a.target q at_ i p d (r.2 == .replaced), true)

/-- An essence packet past its policer reaches its target (R183 to R190). `x` is the entry that takes it, `a` the essence entry's
configuration, `path` the merge path. -/
def State.essence (s : State) (x : Nat) (a : FlowArg) (path : Nat) (i : Option Nat) (p : RtpPacket) (at_ : Nat) : State :=
  match s.targetTakes (if path = 2 then s.essenceOf x else x) a p at_ with
  | none => s.flowDrop x
  | some false => s
  | some true => (s.intoMerge x a path i p at_).1

/-! ## The output watch (R253, R255) -/

/-- The rank whose hello named a MAC address. -/
def State.rankOfMac (s : State) (mac : BitVec 48) : Option Nat :=
  if mac = 0 then none else s.otherRanks.find? fun k => (s.peer k).macs.contains mac

/-- One of this unit's own MAC addresses. -/
def State.ownMac (s : State) (mac : BitVec 48) : Bool := s.net.ifaces.any fun e => e.2.mac == some mac

/-- The last picture of a channel whose DU 0 has entered the transmit buffer, and whether its last DU has. -/
def Chan.inEmission (ch : Chan) : Option (Nat × Bool) :=
  ((ch.pics.filter fun e => (e.2.row 0).sent).getLast?).map fun e => (e.1, (e.2.row (ch.cfg.main.rows - 1)).sent)

/-- Every AU in emission has ended: the unit that stands down becomes STANDBY (R253, Table 12-10). -/
def State.settleStandDown (s : State) : State :=
  let open_ : Bool := s.chans.any fun e => match e.2.inEmission with | some (_, done) => e.2.st.coding && !done | none => false
  if s.grp.standDown && !open_ then
    ({ s with grp := { s.grp with standDown := false } }.setRole .standby)
  else s

/-- An emitting member finds that the member of rank `k` emits too (R253): it counts the overlap once, and the lower rank stands
down after the AU in emission. `obj` is the channel of the packet, or 0xFF. -/
def State.overlap (s : State) (k obj : Nat) : State :=
  if s.grp.role != .active || s.grp.overlapWith == some k then s
  else
    let s := { s with grp := { s.grp with overlapWith := some k } }
    let s := ((s.bump Reg.GRP_OVERLAPS).sticky Reg.GRP_STATUS 0x40000).raise 0x0051 1 obj k
    if k < s.grp.rank then
      let s := s.chans.foldl (fun (t : State) (e : Nat × Chan) => t.updGch e.1 fun g =>
        { g with emitTo := e.2.inEmission.map (·.1) }) s
      { s with grp := { s.grp with standDown := true, activeRank := k } }.settleStandDown
    else s

/-- A packet of the output watch of channel `c` (R255). -/
def State.watch (s : State) (c : Nat) (mac : BitVec 48) (p : RtpPacket) : State :=
  if !s.member || s.ownMac mac then s
  else
    match s.rankOfMac mac with
    | none => if mac = 0 then s else s.bump Reg.GRP_WATCH_FOREIGN
    | some k =>
      let q := extendSeq 16 (s.gch c).watchSeq p.seq
      let s := s.updGch c fun g => { g with watchSeq := some (max q (g.watchSeq.getD q)) }
      if (match tget s.chans c with | some ch => ch.st.coding | none => false) then s.overlap k c else s

/-! ## Frames (R176 to R183) -/

/-- A group MAC address. -/
def groupMac (m : BitVec 48) : Bool := m.toNat.testBit 40

/-- An RTP packet under an essence, output-watch or repair entry (R183). -/
def State.rtpIn (s : State) (i x : Nat) (f : RxFrame) (e : Flow) (p : RtpPacket) : State :=
  match e.arg.kind with
  | 1 => s.essence x e.arg e.arg.path (some i) p (s.ingressOf i f)
  | 2 => s.watch e.arg.target (BitVec.ofNat 48 (beNat f.bytes 6 6)) p
  | _ =>
    match restoreRtp p, tget s.net.flows e.arg.target with
    | some q, some t => s.essence x t.arg 2 (some i) q (s.ingressOf i f)
    | none, _ => s.malformed i
    | _, none => s

/-- A UDP packet under an entry that accepts it (R183). -/
def State.byKind (s : State) (i x : Nat) (f : RxFrame) (u : Datagram) (e : Flow) : State :=
  let right := e.arg.pt == 255 || payloadType u.payload == e.arg.pt
  match e.arg.kind with
  | 3 => if right then { s with net := { s.net with toPtp := s.net.toPtp ++ [(i, (s.ingressOf i f), u.payload)] } } else s.flowDrop x
  | 5 => if right then s.toFirmware i .other else s.flowDrop x
  | k =>
    match parseRtp u.payload with
    | some p => if right then s.rtpIn i x f e p else s.flowDrop x
    | none => if k = 2 then s else s.malformed i

/-- A UDP packet is looked up, policed and handled (R180, R183, R184). -/
def State.udpIn (s : State) (i : Nat) (f : RxFrame) (u : Datagram) : State :=
  let k : FlowKey := ⟨u.dst, u.src, u.port, u.vid⟩
  let hit := match findKey s.net.flows k with
    | some x => some x
    | none => findKey s.net.flows { k with src := 0 }
  match hit with
  | none => s.unmatched i
  | some x =>
    match tget s.net.flows x with
    | none => s.unmatched i
    | some e =>
      if !(e.arg.ifMask.toNat.testBit i) then s.unmatched i
      else
        let r := e.police f.bytes.length (s.ingressOf i f)
        let s := s.updFlow x fun _ => r.1
        if r.2 then s.byKind i x f u e else s.pmuEvent 7 2

/-- ETHERNET_FRAME_RX (R176 to R190, R253, R255, R382): a frame on interface `i`, `free` bytes being free in the ingest buffer. -/
def execEthernetFrameRx (i : Nat) (f : RxFrame) (free : Nat) (s : State) : Host.Outcome State Fault Refusal :=
  .next (
    let n := s.iface i
    if !(s.ifExists i) || !n.enabled || !n.linkUp then s
    else
      let s := s.panicLevel 0 free
      if decide (f.bytes.length < 64) || decide (9216 < f.bytes.length) || !(fcsOk f.bytes) then
        (s.bump (Reg.NET_RX_FCS_ERRORS i)).sticky (Reg.NET_PORT_STATUS i) 0x800
      else if n.mac.isNone && !(groupMac (BitVec.ofNat 48 (beNat f.bytes 0 6))) then s
      else
        let s := (s.bump (Reg.NET_RX_FRAMES i)).pmuEvent 7 0
        match parseFrame n f.bytes with
        | .flowControl => s.bump (Reg.NET_FIXED_DROPS i)
        | .malformed => s.malformed i
        | .fixed k => s.fixedTake i (s.ingressOf i f) k
        | .udp u => s.udpIn i f u
        | .other => s.unmatched i)

/-! ## The merge's own events -/

/-- SEQ_MISSING_TIMEOUT (R190, R235): 50 µs after the first later packet, a missing number is declared. -/
def execSeqMissingTimeout (m seq : Nat) (s : State) : Host.Outcome State Fault Refusal :=
  .next (
    let g := s.merge m
    match (tkeys g.missing).find? fun q => q % 2 ^ 32 == seq % 2 ^ 32 && !(g.declared.contains q) with
    | some q => (s.updMerge m fun g => { g with declared := g.declared ++ [q] }).requestRepair m [q]
    | none => s)

/-- A target has entries on both paths (NET_MERGE_STATUS.paired). -/
def State.paired (s : State) (m : Nat) : Bool :=
  let on (path : Nat) : Bool := s.net.flows.any fun e =>
    e.2.arg.kind == 1 && e.2.arg.path == path && mergeIndex e.2.arg.essence e.2.arg.target == m
  on 0 && on 1

/-- MERGE_PATH_DOWN (R187): a path of a pair has accepted nothing for 2 ms while its partner has. -/
def execMergePathDown (m path : Nat) (s : State) : Host.Outcome State Fault Refusal :=
  .next (
    let g := s.merge m
    if s.paired m && (if path = 0 then g.upA else g.upB) && decide (path < 2) then
      (s.updMerge m fun g => if path = 0 then { g with upA := false } else { g with upB := false }).sticky
        (Reg.NET_MERGE_STATUS m) 0x100
    else s)

/-- NET_MERGE_SKEW_READ (R186). -/
def execNetMergeSkewRead (m : Nat) (s : State) : Host.Outcome State Fault Refusal :=
  .next (if m < 208 then s.readClear (Reg.NET_MERGE_SKEW m) else s.readReserved)

end Sys2Proof.Machine
end

