-- ==== Sys2Proof/Machine/Rows.lean ====
section
/-!
DEFINITION. Rows from their lines to the source ring: the loss map and the records sent with it (R189, R230, R231, R236), the row
deadline with concealment, repeat pictures, tone mapping, statistics, composition and scene cuts (R31, R37 to R39, R107, R132 to
R141, R152, R154), and the source as the engines code it (R60, R61).
-/
namespace Sys2Proof.Machine

/-! ## The lines of a row -/

/-- The channel whose pool holds a channel's lines: its source, or itself (R28). -/
def Chan.poolOwner (ch : Chan) (c : Nat) : Nat := if ch.cfg.main.renditionOf = 0xFF then c else ch.cfg.main.renditionOf

/-- The pool slot that holds row `r` of a picture index, if it does. -/
def Chan.poolRow (src : Chan) (idx r : Nat) : Option PoolRow :=
  match tget src.pool_ ((src.cfg.main.rows * idx + r) % rowsHeld src.cfg.main) with
  | some p => if p.pic = idx ∧ p.row = r then some p else none
  | none => none

/-- The segments received of line `i` of a row. -/
def lineSegs (p : Option PoolRow) (i : Nat) : List SrdSeg := match p with | some q => tgetD q.segs i [] | none => []

/-- The pool row of row `r` of picture `n` of channel `c`. -/
def State.rowInput (s : State) (c : Nat) (ch : Chan) (n r : Nat) : Option PoolRow :=
  match tget s.chans (ch.poolOwner c) with
  | some src => src.poolRow (ch.index n) r
  | none => none

/-- The unit's own loss map of a row: the lines that lack a pgroup (R189). -/
def State.ownLoss (s : State) (c : Nat) (ch : Chan) (n r : Nat) : List Nat :=
  let p := s.rowInput c ch n r
  (List.range (ch.cfg.main.rowLines r)).filter fun i => !(lineWhole ch.cfg.main.format.width (lineSegs p i))

/-! ## Records (R230, R231, R236) -/

/-- The DU `k` places before a DU in decoding order, among the pictures held. -/
def Chan.duBefore (ch : Chan) : Nat → DuId → Option DuId
  | 0, d => some d
  | k + 1, d =>
    if 0 < d.2 then Chan.duBefore ch k (d.1, d.2 - 1)
    else
      match ((tkeys ch.pics).filter (· < d.1)).getLast? with
      | some m => Chan.duBefore ch k (m, ch.cfg.main.rows - 1)
      | none => none

/-- The bits of a mask that are set, as numbers below `n`. -/
def maskBits (n m : Nat) : List Nat := (List.range n).filter fun i => m.testBit i

/-- The row record of row `r` of picture `n` (Table 12-4). -/
def State.rowRecord (s : State) (c : Nat) (ch : Chan) (n r : Nat) (loss : List Nat) : RowRec :=
  let m := ch.cfg.main
  let res := ch.duBefore (ch.k + 1) (n, r)
  let plan := ch.duBefore 1 (n, r)
  let a := match res with | some d => ch.duRow d | none => {}
  let b := match plan with | some d => ch.duRow d | none => {}
  let planned : Bool := b.job == .active || b.jobOver
  { chan := c, pic := ch.index n, row := r
    repairOpen := !(s.merge (ch.poolOwner c)).missing.isEmpty
    resultValid := a.jobOver, planValid := planned, loss := loss
    resSize := if a.jobOver then a.released else 0
    resGuard := maskBits m.ctus a.guarded
    planCap := b.cap, planQp := b.qp, planReef := b.reef, planLatched := b.latched
    resSubst := a.substituted, resOverrun := a.job == .abandoned }

/-- Runs of consecutive numbers: first and count, at most 65,535 each. -/
def gapRuns : List Nat → List (Nat × Nat)
  | [] => []
  | q :: r =>
    match gapRuns r with
    | (f, n) :: rest => if f = q + 1 ∧ n < 65535 then (q, n + 1) :: rest else (q, 1) :: (f, n) :: rest
    | [] => [(q, 1)]

/-- The missing ranges of a merge. -/
def State.mergeGaps (s : State) (m : Nat) : List GapRange :=
  (gapRuns (tkeys (s.merge m).missing)).map fun g => ⟨m, g.2, g.1 % 2 ^ 32⟩

/-- Merges of the audio and ancillary flows that a transport-stream channel carries (R170, R196, R236). -/
def Chan.gapMerges (ch : Chan) (c : Nat) : List Nat :=
  if ch.cfg.out.encap = 1 then
    ((tvals ch.active.audio).filterMap fun r => if r.1 = 1 then some (80 + r.2.1) else none).dedup ++ [144 + c]
  else []

/-- A bit of a number set or not. -/
def withBit (b : Bool) (i : Nat) : Nat := if b then 2 ^ i else 0

/-- The picture record of picture `n` as it goes out (Table 12-5): what was decided at t0, the digests of the picture L_d before,
and the gap list. -/
def State.picRecord (s : State) (c : Nat) (ch : Chan) (n : Nat) : PicRec :=
  let g := s.gch c
  let base : PicRec := tgetD g.own n
    { chan := c, pic := ch.index n, digPic := ch.wire (n - ch.digestLag), auCrc := 0, recCrc := 0, faults := 0, budget := 0
      ceiling := 0, decider := false, flips := [], cursorX := 0, cursorY := 0, cursorEn := false, cfgGen := g.gen, stepPic := 0
      gaps := [], overflow := false }
  let j := n - ch.digestLag
  let dig := tgetD g.digests j (0, 0, 0)
  let fl := (match ch.pic? j with | some p => p.faults | none => dig.2.2) ||| withBit (g.phase != .none || !g.inSync) 6
  let gaps := (ch.gapMerges c).flatMap s.mergeGaps
  { base with
    auCrc := dig.1, recCrc := dig.2.1, faults := BitVec.ofNat 16 fl
    gaps := gaps.take 16, overflow := decide (16 < gaps.length) }

/-- LOSS_MAP_FREEZE (R189, R230, R231, R233, R244): the row's loss map is recorded; a member sends the row record and, on the
last row, the picture record. -/
def execLossMapFreeze (c pic row : Nat) (s : State) : Host.Outcome State Fault Refusal :=
  .next (s.onRow c pic row fun ch _ _ s =>
    let own := s.ownLoss c ch pic row
    let s := s.updChan c fun ch => ch.updRow pic row fun r => { r with lossMap := some own }
    if s.member then
      let s := s.sendAll (.row (s.rowRecord c ch pic row own))
      if row + 1 = ch.cfg.main.rows then
        let r := s.picRecord c ch pic
        let s := s.sendAll (.pic r)
        let s := s.updGch c fun g => { g with pics := tset g.pics (pic * 4 + s.grp.rank) (s.grp.role.code, r) }
        if s.voteReady c pic && s.grp.role != .unverified && decide (ch.digestLag ≤ pic) then s.vote c pic (pic - ch.digestLag) else s
      else s
    else s)

/-! ## The video layer of a row (R37 to R39, R132) -/

/-- The co-located line of the previous picture's video layer, black before any (R37, R39). -/
def Chan.videoLine (ch : Chan) (l : Nat) : PxLine := tgetD ch.layers.video l (blackLine ch.cfg.main.format.width)

/-- The video layer of a row, in the 20-bit domain and before tone mapping: received lines, and concealed ones in their place. -/
def State.rowVideo (s : State) (c : Nat) (ch : Chan) (n r : Nat) (lost : List Nat) : List PxLine :=
  let m := ch.cfg.main
  let p := s.rowInput c ch n r
  (List.range (m.rowLines r)).map fun i =>
    if lost.contains i then ch.videoLine (r * m.ctuSize + i)
    else enterLine m.inputDepth (rawLine m.format.width (lineSegs p i))

/-! ## Tone mapping and its gain (R152, R154) -/

/-- The gain from a smoothed statistic (R154). -/
def RunCfg.gainOf (q : RunCfg) (sm : Nat) : Nat := min (max (q.adaptTarget * 4096 / max sm 1024) q.gainMin) q.gainMax

/-- The gain of picture `n` (R154): the newest computed for a picture up to `n`; before any, that of a statistic equal to
adapt_target. -/
def Chan.gainAt (ch : Chan) (q : RunCfg) (n : Nat) : Nat :=
  match (tfilter ch.layers.gains fun k _ => decide (k ≤ n)).getLast? with
  | some e => e.2
  | none => q.gainOf q.adaptTarget

/-- The table in force, in table mode (R151). -/
def RunCfg.tableOn (q : RunCfg) : Option (List Byte) := if q.tmMode = 1 then q.table else none

/-- A line after tone mapping with the gain of its picture (R152). -/
def tonedLine (q : RunCfg) (gain : Nat) (l : PxLine) : PxLine :=
  match q.tableOn with
  | some t => toneMap t (if q.adapt = 1 then some gain else none) l
  | none => l

/-! ## Graphics (R133 to R141) -/

/-- A graphics layer or the cursor as it is composed: none when disabled, or without a surface. -/
def State.layerSrc (s : State) (ch : Chan) (i : Nat) : Option LayerSrc :=
  match tget ch.layers.front i with
  | some l =>
    if l.enable then
      match tget s.surf.surfs l.surface with
      | some f => some ⟨i, f.addr, f.kind, f.width, f.height, f.bytes, l.x0, l.y0, l.ga, false⟩
      | none => none
    else none
  | none => none

/-- The protected layer as it is composed in picture `n`, with the memory of its loaded bytes. -/
def Pic.protSrc (p : Pic) (n : Nat) : Option (Mem × LayerSrc) :=
  match p.prot with
  | some l =>
    if l.inForce n then
      some (Mem.write [] 0 l.cache, ⟨6, 0, l.kind, l.width, l.height, l.cache.length, l.x0, l.y0, 1023, true⟩)
    else none
  | none => none

/-- The layers of a picture, bottom to top, each with the memory that holds its surface. -/
def State.layerStack (s : State) (ch : Chan) (n : Nat) (p : Pic) : List (Mem × LayerSrc) :=
  ((rangeFrom 1 5).filterMap fun i => (s.layerSrc ch i).map fun l => (s.mem.hbm, l)) ++
    (match p.protSrc n with | some e => [e] | none => [])

/-- A line with every layer over it; `y` is its position in frame lines. -/
def composeLine (sys : Nat) (stack : List (Mem × LayerSrc)) (y : Nat) (l : PxLine) : PxLine :=
  stack.foldl (fun d e => layerLine e.1 sys e.2 y d) l

/-- The position of line `l` of a picture in frame lines (R134). -/
def frameY (m : DefMain) (idx l : Nat) : Nat := if m.format.interlaced then 2 * l + idx % 2 else l

/-! ## The source as the engines code it (R60, R61) -/

/-- A chroma plane's line of the source, the edge rows repeating. -/
def srcChroma (src : Tab PxLine) (lines : Nat) (cr : Bool) (y : Int) : List Nat :=
  let l := (min (max y 0) ((lines : Int) - 1)).toNat
  match tget src l with
  | some p => if cr then p.cr else p.cb
  | none => []

/-- One line of 4:2:0 chroma (R60). -/
def chroma420Line (src : Tab PxLine) (lines : Nat) (cr : Bool) (y : Nat) : List Nat :=
  let at_ (d : Int) : List Nat := srcChroma src lines cr (2 * (y : Int) + d)
  (at_ 0).mapIdx fun x b => chroma420 ((at_ (-1)).getD x b) b ((at_ 1).getD x b) ((at_ 2).getD x b)

/-- A row of the source at coded chroma format and depth: luma, Cb and Cr lines (R60, R61). -/
def codedRow (m : DefMain) (src : Tab PxLine) (r : Nat) : List (List Nat × List Nat × List Nat) :=
  let d := m.codedDepth
  let n := m.format.lines
  (List.range (m.rowLines r)).map fun i =>
    let l := r * m.ctuSize + i
    let y := match tget src l with | some p => p.y.map (roundOut d) | none => []
    if m.out422 then (y, (srcChroma src n false l).map (roundOut d), (srcChroma src n true l).map (roundOut d))
    else if l % 2 = 0 then
      (y, (chroma420Line src n false (l / 2)).map (roundOut d), (chroma420Line src n true (l / 2)).map (roundOut d))
    else (y, [], [])

/-- Puts the coded source of row `r` of picture `n`, from the source ring of picture `from_`. -/
def Chan.putCoded (ch : Chan) (n from_ r : Nat) : Chan :=
  match ch.pic? from_ with
  | some p => ch.updRow n r fun x => { x with coded := codedRow ch.cfg.main p.source r }
  | none => ch

/-! ## Scene cuts (R107) -/

/-- Picture `n` is a cut, its means and those of picture n − 1 being complete. -/
def Chan.isCut (ch : Chan) (q : RunCfg) (n : Nat) : Bool :=
  let m := ch.cfg.main
  let moved := (List.range m.picCtus).filter fun i =>
    let a := tgetD ch.layers.means i 0
    let b := tgetD ch.layers.prevMeans i 0
    decide (q.anchorDelta * 1024 < max a b - min a b)
  ch.layers.prevMeansPic == some (n - 1) && decide (0 < n) && decide (cdiv (q.anchorShare * m.picCtus) 256 ≤ moved.length) &&
    (match ch.refs.lastCut with | some k => decide (k + q.anchorHold ≤ n) | none => true)

/-- A cut at picture `n` chooses picture n + 1 for an anchor slot (R107). -/
def Chan.takeCut (ch : Chan) (q : RunCfg) (n : Nat) : Chan :=
  if ch.isCut q n then
    { ch with refs := { ch.refs with
        lastCut := some n
        anchors := match pickAnchorSlot ch.cfg.refs ch.refs with
          | some k => tset ch.refs.anchors (n + 1) k
          | none => ch.refs.anchors } }
  else ch

/-- Gains computed up to picture `n`, without those that no picture after `n` can take: it takes the newest for a picture up to its own
(R154). -/
def keepGains (g : Tab Nat) (n : Nat) : Tab Nat :=
  match (tkeys (tfilter g fun k _ => decide (k ≤ n + 1))).getLast? with
  | some last => tfilter g fun k _ => decide (last ≤ k)
  | none => g

/-- The statistics of a composed picture at its last row (R107, R154). -/
def Chan.closeStats (ch : Chan) (q : RunCfg) (n : Nat) : Chan :=
  let l := ch.layers
  let stat := l.sumU / max 1 l.numU
  let old := l.smooth.getD q.adaptTarget
  let sm := ((old : Int) + fdiv (((stat : Int) - old) * q.adaptSpeed + 128) 256).toNat
  let ch := ch.takeCut q n
  { ch with layers := { ch.layers with
      smooth := some sm
      gains := tset (keepGains ch.layers.gains n) (n + 2) (q.gainOf sm)
      prevMeans := ch.layers.means, prevMeansPic := some n, means := [], meansPic := none } }

/-! ## The row deadline -/

/-- The gap set a picture's audio and ancillary data agree on (R236): none when a list overflowed. -/
def State.agreeGaps (s : State) (c n : Nat) : State :=
  let g := s.gch c
  let recs := (rangeFrom 1 s.grp.size).filterMap fun k =>
    match tget g.pics (n * 4 + k) with
    | some (role, r) => if k = s.grp.rank ∨ recordRole role then some r else none
    | none => none
  let set_ : Option (List GapRange) := if recs.any (·.overflow) then none else some (recs.flatMap (·.gaps)).dedup
  s.updGch c fun g => { g with agreedGaps := tset g.agreedGaps n set_ }

/-- Every counting member with a working path has sent its record of picture `n`. -/
def State.picsHere (s : State) (c n : Nat) : Bool :=
  s.otherRanks.all fun k => !(recordRole (s.peer k).role && s.reachable k) || thas (s.gch c).pics (n * 4 + k)

/-- A row deadline on a member: the incomplete agreement is counted, and with the last row the gap set is formed (R234, R236). -/
def State.memberDeadline (s : State) (c : Nat) (ch : Chan) (n r : Nat) : State :=
  if s.member && s.grp.role != .unverified then
    let s := if s.rowIncomplete c n r then (s.bump Reg.GRP_INCOMPLETE_ROWS).setFault c n 4 else s
    if r + 1 = ch.cfg.main.rows && ch.cfg.out.encap == 1 then
      let s := if s.picsHere c n then s else s.setFault c n 4
      s.agreeGaps c n
    else s
  else if s.member && r + 1 = ch.cfg.main.rows && ch.cfg.out.encap == 1 then s.agreeGaps c n
  else s

/-- Row 0 decides whether picture `n` is a repeat picture (R38): it is while input is lost and no line of row 0 has come. -/
def Chan.rowZero (ch : Chan) (n : Nat) (came : Bool) : Chan :=
  if ch.inputLost && !came then ch.updPic n fun p => { p with isRepeat := true, row0 := false }
  else { ch with inputLost := false }.updPic n fun p => { p with row0 := came }

/-- Picture `n` is composed with the layer, if it is in force: the first such picture is kept (R117). -/
def Protected.show_ (p : Protected) (n : Nat) : Protected :=
  if p.shown.isNone && p.inForce n then { p with shown := some n } else p

/-- A composed picture begins at row 0: the front state latches, the statistics start, and the gain is that of the picture (R117, R144,
R147, R154). -/
def State.latchFront (s : State) (c n : Nat) : State :=
  s.updChan c fun ch => { ch with layers := { ch.layers.latch n with
    means := [], meansPic := some n, sumU := 0, numU := 0, stfSeen := [], composed := some n
    prot := ch.layers.prot.map (·.show_ n), gain := ch.gainAt ((ch.pic? n).getD {}).cfg n } }

/-- The row is composed (R132): entry and concealment, tone mapping, statistics, layers, the source ring. -/
def State.composeRow (s : State) (c n r : Nat) (lost : List Nat) : State :=
  s.onRow c n r fun ch p _ s =>
    let m := ch.cfg.main
    let q := p.cfg
    let first := r * m.ctuSize
    let video := s.rowVideo c ch n r lost
    let gain := ch.gainAt q n
    let toned := video.map (tonedLine q gain)
    let stack := s.layerStack ch n p
    let sys := if ch.cfg.tone.outSystem = 0 then 0 else 1
    let ys := (List.range toned.length).map fun i => frameY m (ch.index n) (first + i)
    let rows := toned.zipIdx.map fun e => composeLine sys stack (ys.getD e.2 0) e.1
    let errs := (stack.flatMap fun e => ys.flatMap fun y => layerErrors e.1 e.2 y m.format.width).dedup
    let new := errs.filter fun i => !(ch.layers.stfSeen.contains i)
    let bad : Bool := (stack.filter fun e => !e.2.opaque_).any fun e => ys.any fun y => layerPoison e.1 s.mem.poison e.2 y m.format.width
    let means := (List.range m.ctus).foldl (fun t x => tset t (r * m.ctus + x) (ctuMean toned m.ctuSize x)) ch.layers.means
    let u := sumNat (video.map (lineU0 q.tableOn))
    let came := decide (lost.length < toned.length)
    let s := s.updChan c fun ch =>
      ({ ch with layers := { ch.layers with
          video := video.zipIdx.foldl (fun (t : Tab PxLine) (e : PxLine × Nat) => tset t (first + e.2) e.1) ch.layers.video
          anyInput := ch.layers.anyInput || came
          means := means, sumU := ch.layers.sumU + u, numU := ch.layers.numU + sumNat (video.map fun (l : PxLine) => l.y.length)
          stfSeen := ch.layers.stfSeen ++ new } }.updPic n fun p => { p with
        source := rows.zipIdx.foldl (fun (t : Tab PxLine) (e : PxLine × Nat) => tset t (first + e.2) e.1) p.source
        input := p.input || came, gain := gain
        poisonRows := if bad then p.poisonRows ++ [r] else p.poisonRows }).updRow n r fun x => { x with
        entered := true, concealed := lost }
    let s := s.pmuEvent 4 0
    let s := if lost.isEmpty then s
      else (s.bumpBy (Reg.CHN_CONCEALED_LINES c) lost.length).sticky (Reg.CHN_STATUS c) 0x400
    let s := if new.isEmpty then s
      else (s.bumpBy (Reg.LYR_STF_ERRORS c) new.length).sticky (Reg.LYR_STATUS c) 0x200000
    s.updChan c fun ch =>
      let ch := if 0 < r then ch.putCoded n n (r - 1) else ch
      if r + 1 = m.rows then ch.putCoded n n r else ch

/-- The last row of a composed picture: a picture without any input is lost, and input_lost holds from the next (R38); until the first
line since the start has arrived, composition runs on (R39). The statistics close, and the flips of the next picture are reported if
it will be composed (R146). -/
def State.closePicture (s : State) (c n : Nat) : State :=
  s.onChan c fun ch s =>
    let p := (ch.pic? n).getD {}
    let s := s.updChan c fun ch => ch.closeStats p.cfg n
    if p.input || !ch.layers.anyInput then s.tellFlips c
    else
      (s.updChan c fun ch => { ch with inputLost := true }.updPic n fun p => { p with lost := true }).sticky (Reg.CHN_STATUS c) 0x100

/-- A repeat picture's row enters without composition; a refresh on it codes the source of the last composed picture (R38,
R113). -/
def State.repeatRow (s : State) (c n r : Nat) : State :=
  s.updChan c fun ch =>
    let ch := ch.updRow n r fun x => { x with entered := true }
    match ch.layers.composed, ch.pic? n with
    | some k, some p => if p.sweepPos.isSome || p.kind == .idr then ch.putCoded n k r else ch
    | _, _ => ch

/-- While a channel resyncs, this unit's own plan of DU r − 1 is compared with the active's record (R258). -/
def State.comparePlan (s : State) (c : Nat) (ch : Chan) (n r : Nat) : State :=
  if s.grp.role == .joining && (s.gch c).phase != .none then
    match tget (s.gch c).rows (rowKey n r s.grp.activeRank), ch.duBefore 1 (n, r) with
    | some rec, some d =>
      let x := ch.duRow d
      let mine : Bool := x.job == .active || x.jobOver
      if rec.planValid && mine && !(x.cap == rec.planCap && x.qp == rec.planQp && x.reef == rec.planReef
          && x.latched == rec.planLatched) then
        (s.resyncChan c).sticky (Reg.GRP_CHN_STATUS c) 0x20000
      else s
    | _, _ => s
  else s

/-- ROW_DEADLINE (R31, R37 to R39, R132, R234): the row enters the pixel front end whatever has arrived. -/
def execRowDeadline (c pic row : Nat) (s : State) : Host.Outcome State Fault Refusal :=
  .next (s.onRow c pic row fun ch _ x s =>
    if x.entered then s
    else
      let own := match x.lossMap with
        | some l => if s.member then l else s.ownLoss c ch pic row
        | none => s.ownLoss c ch pic row
      let lost := s.agreedLoss c pic row own
      let s := s.memberDeadline c ch pic row
      let s := s.comparePlan c ch pic row
      let s := s.updChan c fun ch => ch.updRow pic row fun r => { r with agreed := some lost }
      let came := decide (lost.length < ch.cfg.main.rowLines row)
      let s := if row = 0 then s.updChan c (·.rowZero pic came) else s
      match (match tget s.chans c with | some ch => ch.pic? pic | none => none) with
      | none => s
      | some p =>
        if p.isRepeat then s.repeatRow c pic row
        else
          let s := if row = 0 then (s.tellFlips c).latchFront c pic else s
          let s := s.composeRow c pic row lost
          if row + 1 = ch.cfg.main.rows then s.closePicture c pic else s)

end Sys2Proof.Machine
end

