-- ==== Sys2Proof/Machine/Jobs.lean ====
section
/-!
DEFINITION. The row jobs of the encode array (chapter 3): release, start with its planning (R47, R49, R85 to R92), CTUs and their
guard (R86, R94, R112, R116), the end of a job (R64, R66, R120), overruns and local resets (R48), substitution (R66 to R68), the
trailing filter (R62), reference damage (R70, R123), and the ALF derivation (R63).
-/
namespace Sys2Proof.Machine

/-! ## Marks, damage, proof pipelines -/

/-- Frees every pipeline that holds the DU (R122: proof of the original is abandoned). -/
def EngState.drop (e : EngState) (c n r : Nat) : EngState :=
  { e with pipes := tfilter e.pipes fun _ w => w != .du c n r }

/-- Marks a DU for substitution (R66); its proof is abandoned. A DU that is sent or substituted already is left. -/
def State.markDu (s : State) (c n r : Nat) : State :=
  s.onRow c n r fun _ _ x s =>
    if x.sent || x.substituted || x.marked then s
    else
      let s := { s with eng := s.eng.drop c n r }
      s.updChan c fun ch => ch.updRow n r fun x => { x with marked := true, proof := .none }

/-- Marks columns of a row of a reference picture damaged in both copies (R70, R122, R123). -/
def State.damageRow (s : State) (c n r : Nat) (cols : List Nat) : State :=
  s.onRow c n r fun _ _ _ s =>
    (s.updChan c fun ch => ch.updRow n r fun x =>
      { x with
        damage := cols.foldl (fun a i => insertNat i a) x.damage
        proofDamage := cols.foldl (fun a i => insertNat i a) x.proofDamage }).localEvent c n 2

/-- Every column of a row. -/
def Chan.allCols (ch : Chan) : List Nat := List.range ch.cfg.main.ctus

/-- The row is wholly bare-pole (R69): latched, or every CTU coded so. -/
def Row.bare (x : Row) (ctus : Nat) : Bool := x.latched || (List.range ctus).all x.bareCols.contains

/-- The DU has passed proof or been substituted, or is released unchanged (R62, R69). -/
def Row.cleared (x : Row) (ctus : Nat) : Bool :=
  x.substituted || (!x.marked && (x.proof == .passed || (x.proof == .failed && x.bare ctus)))

/-- A count and a sticky bit of an engine. -/
def State.engCount (s : State) (e off bit : Nat) : State := (s.bump off).sticky (Reg.ENG_STATUS e) (bit1 bit)

/-- Raises the largest job-window fraction of an engine (R75). -/
def State.peakLoad (s : State) (e v : Nat) : State :=
  let v := min v 2047
  if (s.rd (Reg.ENG_PEAK_LOAD e)).toNat < v then s.wr (Reg.ENG_PEAK_LOAD e) (BitVec.ofNat 32 v) else s

/-! ## Release (R44, R45, R48, R63) -/

/-- No new ALF set travels from the copy picture of a resync to its recovery point (R256). -/
def GrpChan.alfHeld (g : GrpChan) (n : Nat) : Bool :=
  match g.sC, g.rp with
  | some a, some b => decide (a ≤ n) && decide (n ≤ b)
  | some a, none => decide (a ≤ n)
  | none, _ => false

/-- The ALF set derived from picture `n - 1` in time travels in DU 0 of picture `n` (R63). DESIGN CHOICE (log entry 93): a repeat picture
takes no new set and the set derived for it is dropped; the previous one stays in force. -/
def State.takeAlf (s : State) (c n : Nat) : State :=
  s.updChan c fun ch =>
    let ch' : Chan := { ch with alfReady := none }
    match ch.pic? n, ch.alfReady with
    | some p, some (k, rows) =>
      if k + 1 = n ∧ ch.cfg.main.codec = 1 ∧ !p.isRepeat ∧ !(s.gch c).alfHeld n then
        { ch' with alfFrom := some k, alfRows := rows }.updPic n fun p => { p with alf := true, alfRows := rows }
      else ch'
    | _, _ => ch'

/-- A poisoned read of data that a DU's encode used (R66): the DU is marked and counts once in ENG_POISON_READS (R75). -/
def State.poisonDu (s : State) (c n r : Nat) : State :=
  s.onRow c n r fun _ _ x s =>
    let s := if x.poisonRead then s else
      (s.engCount x.engine (Reg.ENG_POISON_READS x.engine) 10).updChan c fun ch => ch.updRow n r fun x => { x with poisonRead := true }
    s.markDu c n r

/-- A residue mismatch in a DU (R64): it is marked and counts once in ENG_RESIDUE_FAULTS (R75). -/
def State.residueFault (s : State) (c n r : Nat) : State :=
  s.onRow c n r fun _ _ x s =>
    let s := if x.residueBad then s else
      (s.engCount x.engine (Reg.ENG_RESIDUE_FAULTS x.engine) 9).updChan c fun ch => ch.updRow n r fun x => { x with residueBad := true }
    s.markDu c n r

/-- ROW_JOB_RELEASE (R44, R45, R48): the job enters its engine's queue; a failed engine's row is substituted without encoding and counts
at β (R93), a row composed from poisoned words is marked (R132). -/
def execRowJobRelease (c pic row : Nat) (s : State) : Host.Outcome State Fault Refusal :=
  .next (s.onRow c pic row fun ch p x s =>
    if !x.entered || x.job != .none then s
    else
      let e := ch.engines.getD (row % max 1 ch.k) 0
      let s := if row = 0 then s.takeAlf c pic else s
      if s.eng.failed.contains e then
        ((s.updChan c fun ch => ch.updRow pic row fun x =>
          { x with engine := e, job := .abandoned, unencoded := true, cap := ch.cfg.main.beta row }).markDu c pic row).sweepEnd c pic
      else
        let s := s.updChan c fun ch => ch.updRow pic row fun x => { x with engine := e, job := .ready }
        if p.poisonRows.contains row then s.poisonDu c pic row else s)

/-- Rows of picture `n` whose statistics an ALF derivation takes (R63): rows 0 to N - 2k - 2, substituted ones left out. -/
def Chan.alfStats (ch : Chan) (n : Nat) : List Nat :=
  (List.range (ch.cfg.main.rows - 2 * ch.k - 1)).filter fun r => !(ch.duRow (n, r)).substituted

/-- ALF_DERIVATION (R63): the set for the next picture from the statistics of the one named; it is in time while the first job of
the next has not been released. -/
def execAlfDerivation (x : PicAt) (s : State) : Host.Outcome State Fault Refusal :=
  .next (s.updChan x.chan fun ch =>
    let pic := x.pic
    let late : Bool := match ch.pic? (pic + 1) with | some p => (p.row 0).job != .none | none => false
    if ch.st.coding && ch.cfg.main.codec == 1 && (ch.pic? pic).isSome && !late then
      { ch with alfReady := some (pic, ch.alfStats pic) }
    else ch)

/-! ## Start (R47, R49, R85 to R92) -/

/-- Every reference line within the reach of row `r` is final (R47). -/
def Chan.refsFinal (ch : Chan) (p : Pic) (r : Nat) : Bool :=
  let m := ch.cfg.main
  let last := min (m.rows - 1) (((r + 1) * m.ctuSize + reachV m.format - 1) / m.ctuSize)
  p.refs.all fun k =>
    match ch.pic? k with
    | some q => (List.range (last + 1)).all fun i => (q.row i).final
    | none => true

/-- The columns that R87 counts as intra stand in every row from DU 0 on. -/
def Chan.setIntra (ch : Chan) (n : Nat) : Chan :=
  match ch.pic? n with
  | some p => (List.range ch.cfg.main.rows).foldl (fun (a : Chan) r => a.updRow n r fun x => { x with intra := ch.intraCols p r }) ch
  | none => ch

/-- A supply warning is in force (R367). -/
def State.supplyWarned (s : State) : Bool := s.pwr.warn.isSome

/-- The tier a row runs at (R49, R113). -/
def State.rowTier (s : State) (p : Pic) (reef : Nat) : Nat :=
  if 0 < reef || s.supplyWarned || p.isRepeat then 0 else p.ceiling

/-- Puts a plan in force for a row. -/
def Chan.takePlan (ch : Chan) (n r : Nat) (pl : Plan) (tier : Nat) : Chan :=
  let ch := ch.updPic n fun p =>
    (({ p with
        tPic := pl.tPic, bPic := pl.bPic, planned := true
        latched := p.latched || pl.latched, reefed := p.reefed || decide (0 < pl.reef) } : Pic).updRow r fun x =>
      { x with
        job := .active, tier := tier, reef := pl.reef, latched := pl.latched, cap := pl.cap, tau := pl.tau, wt := pl.wt
        qp := pl.qp, ctus := 0, bits := 256 + (if r = 0 then ch.cfg.main.oAu else 0), guarded := 0, swept := [], qps := []
        code := [], bareCols := [] })
  { ch with rate := { ch.rate with reef := pl.reef, latched := pl.latched, tPic := pl.tPic, bPic := pl.bPic } }

/-- What the plan of a row counts (R90, R92, R98): rows latched of a picture that is not a repeat picture; latch_seen for any. -/
def State.countPlan (s : State) (c : Nat) (p : Pic) (pl : Plan) : State :=
  let s := if 0 < pl.reef then
      let s := s.sticky (Reg.RC_STATUS c) 0x100
      if p.reefed then s else s.bump (Reg.RC_REEF_PICTURES c)
    else s
  let s := if pl.latched then s.sticky (Reg.RC_STATUS c) 0x200 else s
  if pl.latched && !p.isRepeat then
    let s := s.bump (Reg.RC_BAREPOLE_ROWS c)
    if p.latched then s else s.bump (Reg.RC_BAREPOLE_PICTURES c)
  else s

/-- The sum of the tiers of a picture's rows, once its last job has started (R359). -/
def Chan.sumTiers (ch : Chan) (n r : Nat) : Chan :=
  if r + 1 = ch.cfg.main.rows then
    match ch.pic? n with
    | some p => { ch with tierSum := sumNat ((List.range ch.cfg.main.rows).map fun i => (p.row i).tier) }
    | none => ch
  else ch

/-- The job of DU (n, r) starts: the ledger runs and the row takes its plan (R85). -/
def State.startJob (s : State) (c n r : Nat) : State :=
  s.onChan c fun ch s =>
    let ch := if r = 0 then ch.setIntra n else ch
    let lag := if s.grp.planLag then ch.k + 1 else ch.k
    let ch := Chan.advanceTo (4 * ch.cfg.main.rows + 4) ch lag (n, r)
    match ch.pic? n with
    | none => s
    | some p =>
      let pl := ch.plan n r p
      let tier := s.rowTier p pl.reef
      let forced : Bool := decide (pl.reef = 0) && s.supplyWarned && !p.isRepeat && decide (0 < p.ceiling)
      let s := s.setChan c ((ch.takePlan n r pl tier).sumTiers n r)
      let s := s.countPlan c p pl
      if forced then s.localEvent c n 3 else s

/-! ## Which job an engine runs (R46) -/

/-- The rows an engine has in its queue: channel, picture, row. -/
def State.engineRows (s : State) (e : Nat) : List (Nat × Nat × Nat × Row) :=
  s.chans.flatMap fun c => c.2.pics.flatMap fun p => p.2.rows.filterMap fun r =>
    if r.2.engine == e && (r.2.job == .ready || r.2.job == .active) then some (c.1, p.1, r.1, r.2) else none

/-- A job as the dispatcher orders it: deadline, channel, row, picture. -/
structure JobKey where
  due : Nat
  c   : Nat
  r   : Nat
  n   : Nat
deriving DecidableEq, Repr

/-- R46: the earlier deadline first, then the lower channel, then the lower row. -/
def JobKey.before (a b : JobKey) : Bool :=
  decide (a.due < b.due) || (a.due == b.due && (decide (a.c < b.c) || (a.c == b.c && decide (a.r < b.r))))

/-- A job that an engine's CTU pipeline may work on: started with CTUs left, or ready with its reference rows final (R46, R47). The rows of
a latch come from the bare-pole generator, which is separate from the pipeline (R68, R69). -/
def State.mayWork (s : State) (w : Nat × Nat × Nat × Row) : Option JobKey :=
  match tget s.chans w.1 with
  | some ch =>
    let x := w.2.2.2
    let ok : Bool :=
      if x.job == .active then !x.latched && decide (x.ctus < ch.cfg.main.ctus)
      else match ch.pic? w.2.1 with | some p => ch.refsFinal p w.2.2.1 | none => false
    if ok then some ⟨ch.deadline w.2.1 w.2.2.1, w.1, w.2.2.1, w.2.1⟩ else none
  | none => none

/-- The first of some jobs in the order of R46. -/
def firstJob : List JobKey → Option JobKey
  | [] => none
  | a :: r =>
    match firstJob r with
    | some b => if b.before a then some b else some a
    | none => some a

/-- The job that engine `e` is to work on now. -/
def State.edfJob (s : State) (e : Nat) : Option (Nat × Nat × Nat) :=
  (firstJob ((s.engineRows e).filterMap s.mayWork)).map fun k => (k.c, k.n, k.r)

/-- A CTU of the job is in progress on the engine. -/
def EngState.serves (t : EngState) (e : Nat) (j : Nat × Nat × Nat) : Bool := tget t.current e == some j

/-- The engine's pipeline works on a job: one that is still active. -/
def State.pipeBusy (s : State) (e : Nat) : Bool :=
  match tget s.eng.current e with
  | some j => (s.engineRows e).any fun w => w.1 == j.1 && w.2.1 == j.2.1 && w.2.2.1 == j.2.2 && (s.mayWork w).isSome
  | none => false

/-- At a CTU boundary the engine takes the first job in order (R46); one that has not started waits for its start. -/
def State.nextJob (s : State) (e : Nat) : State :=
  let cur : Tab (Nat × Nat × Nat) := match s.edfJob e with
    | some j =>
      let x : Row := match tget s.chans j.1 with | some ch => ch.duRow (j.2.1, j.2.2) | none => {}
      if x.job == .active then tset s.eng.current e j else tdel s.eng.current e
    | none => tdel s.eng.current e
  { s with eng := { s.eng with current := cur } }

/-- The engine's pipeline leaves a job whose work has ended, and takes the first in order. -/
def State.leaveJob (s : State) (e : Nat) (j : Nat × Nat × Nat) : State :=
  if s.eng.serves e j || !(s.pipeBusy e) then s.nextJob e else s

/-- ROW_JOB_START (R46, R47, R85): a ready job starts when the engine's pipeline is free, the job is the first in order, and its reference
rows are final; a job of a failed engine does not start (log entry 94). -/
def execRowJobStart (c pic row : Nat) (s : State) : Host.Outcome State Fault Refusal :=
  .next (s.onRow c pic row fun ch p x s =>
    if x.job == .ready && !s.dev.mediaOff && ch.refsFinal p row && !(s.eng.failed.contains x.engine) && !(s.pipeBusy x.engine)
        && s.edfJob x.engine == some (c, pic, row) then
      ((s.captureCopy c pic row).startJob c pic row).nextJob x.engine
    else s)

/-! ## CTUs (R86, R94, R111 to R113, R116) -/

/-- The QPs of the quantisation groups of CTU `i` of row `r` (R116). -/
def Chan.ctuQps (ch : Chan) (n r i : Nat) (p : Pic) (x : Row) : List (Nat × Int) :=
  let m := ch.cfg.main
  let g := m.ctuSize / 32
  (List.range g).flatMap fun v => (List.range g).map fun h =>
    let gx := i * g + h
    (gx + 1024 * v, ch.groupQp n p x.qp x.reef (gx * 32) (r * m.ctuSize + v * 32))

/-- The CTUs' committed bits break the guard's bound with `cost` more (R86). -/
def guardBreaks (m : DefMain) (x : Row) (cost : Nat) : Bool :=
  decide ((x.cap : Int) - ((m.ctus - x.ctus - 1) * m.bBp : Nat) - 32 < ((x.bits + cost : Nat) : Int))

/-- One CTU of an active job at behaviour level `level`: coded as R56 to R58 choose, or bare-pole when guarded or outside the refresh
columns of a repeat picture (R86, R113), with `bp` bits. Answers the row and whether the CTU was guarded. -/
def Chan.commitCtu (ch : Chan) (level n r : Nat) (t : CtuTry) (filter : CtuFilter) (bp : Nat) (p : Pic) (x : Row) : Row × Bool :=
  let m := ch.cfg.main
  let i := x.ctus
  let span := p.refreshSpan m.ctus
  let inSpan : Bool := decide (span.1 ≤ i) && decide (i < span.2)
  let outside : Bool := p.isRepeat && p.kind != .idr && !inSpan
  let e := ch.codeEnv level n r i p x.tier
  let coded := e.codeTree 0 0 m.ctuSize m.ctuSize 0 t.tree
  let cost := coded.2 + t.extra
  let guard : Bool := !outside && guardBreaks m x cost
  let bare : Bool := outside || guard
  let left : Bool := match tget x.code (i - 1) with | some k => decide (0 < i) && k.interForm | none => false
  let qps := ch.ctuQps n r i p x
  let code : CtuSyntax :=
    if bare then ch.bareCtu p r i left
    else { cus := coded.1, filter := filter.allowed m.codec level, deltas := qps.map fun q => q.2 - x.qp }
  let y := { x with
    ctus := i + 1
    bits := x.bits + (if bare then min bp m.bBp else cost)
    guarded := if guard then x.guarded ||| 2 ^ i else x.guarded
    swept := if inSpan && !bare then x.swept ++ [i] else x.swept
    code := tset x.code i code
    bareCols := if bare then x.bareCols ++ [i] else x.bareCols
    qps := if bare then x.qps else qps.foldl (fun t e => tset t e.1 e.2) x.qps }
  (y, guard)

/-- CTU_COMMIT (R46, R56 to R58, R86): the CTU in progress of the job that the engine serves, from what its searches and decisions have
found, with `bp` bits if it is coded bare-pole. -/
def execCtuCommit (c pic row : Nat) (t : CtuTry) (filter : CtuFilter) (bp : Nat) (s : State) : Host.Outcome State Fault Refusal :=
  .next (s.onRow c pic row fun ch p x s =>
    if x.job == .active && !s.dev.mediaOff && !x.latched && decide (x.ctus < ch.cfg.main.ctus) && s.eng.serves x.engine (c, pic, row)
        && !(s.eng.failed.contains x.engine) then
      let y := ch.commitCtu s.dev.level pic row t filter bp p x
      let s := s.updChan c fun ch => ch.updRow pic row fun _ => y.1
      let s := s.pmuEvent 2 0
      let s := if y.2 then ((s.bump (Reg.RC_GUARD_CTUS c)).sticky (Reg.RC_STATUS c) 0x400).pmuEvent 2 3 else s
      s.nextJob x.engine
    else s)

/-! ## The end of a job (R64, R66, R112, R120) -/

/-- Refresh CTUs of a row that have not been refreshed (R112). -/
def Chan.unswept (ch : Chan) (p : Pic) (x : Row) : Bool :=
  let span := p.refreshSpan ch.cfg.main.ctus
  (rangeFrom span.1 (span.2 - span.1)).any fun i => !(x.swept.contains i)

/-- Lines of row `r` in the coded picture's shape, every sample 0 (R120: at coded depth and chroma format). -/
def blankRow (m : DefMain) (r : Nat) : List SampleLine :=
  (List.range (min m.ctuSize (m.codedLines - r * m.ctuSize))).map fun y =>
    let c := if m.out422 || y % 2 == 0 then List.replicate (m.format.width / 2) 0 else []
    (List.replicate m.format.width 0, c, c)

/-- The bare-pole generator's DU in place of row `r` (R67 to R69): its CTUs, its reconstruction and the digest of it. -/
def Chan.bareRow (ch : Chan) (p : Pic) (r : Nat) (x : Row) : Row :=
  let code := ch.bareCode p r
  let lines := ch.bareLines p r (blankRow ch.cfg.main r) code
  { x with code := code, bareCols := List.range ch.cfg.main.ctus, lines := lines, dRow := rowCrc lines, qps := [], swept := [] }

/-- The end of an encode job (R85, R120): `oh` bits of slice overhead and non-VCL units, at most what R81 allows; the coded size, the
reconstruction and its digest. A latched row comes from the bare-pole generator. -/
def Chan.endJob (ch : Chan) (p : Pic) (r oh : Nat) (lines : List SampleLine) (x : Row) : Row :=
  let m := ch.cfg.main
  let bound := 256 + if r = 0 then m.oAu else 0
  if x.latched then
    let size := min oh (m.beta r)
    { ch.bareRow p r x with job := .ended, size := size, txBits := size }
  else
    let size := x.bits - bound + min oh bound
    { x with job := .ended, size := size, txBits := size, lines := lines, dRow := rowCrc lines }

/-- ROW_JOB_COMPLETE (R64, R85, R120): the job ends with its residue checks; a clean DU that nothing has marked waits for proof. `lines` is
the unfiltered reconstruction that the engine has formed; `overhead` counts a latched row's whole DU. -/
def execRowJobComplete (c pic row : Nat) (checks : List StageCheck) (overhead : Nat) (lines : List SampleLine) (load : Nat) (s : State) :
    Host.Outcome State Fault Refusal :=
  .next (s.onRow c pic row fun ch p x s =>
    let m := ch.cfg.main
    if x.job == .active && (x.latched || x.ctus == m.ctus) then
      let s := s.updChan c fun ch => ch.updRow pic row (ch.endJob p row overhead lines)
      let e := x.engine
      let s := if x.latched then s else s.bump (Reg.ENG_JOBS e)
      let s := if x.latched then s else
        if x.tier = 1 then (s.bump (Reg.ENG_TIER1_ROWS e)).pmuEvent 2 1
        else if x.tier = 2 then (s.bump (Reg.ENG_TIER2_ROWS e)).pmuEvent 2 2 else s
      let s := s.peakLoad e load
      let s := if ch.unswept p x then s.sweepMissed c pic else s.sweepEnd c pic
      let s := s.leaveJob e (c, pic, row)
      if !(checks.all (·.ok)) then s.residueFault c pic row
      else if x.marked then s
      else s.updChan c fun ch => ch.updRow pic row fun x => { x with proof := .waiting }
    else s)

/-- JOB_OVERRUN (R48): the job is abandoned at its deadline and its DU marked. -/
def execJobOverrun (c pic row : Nat) (s : State) : Host.Outcome State Fault Refusal :=
  .next (s.onRow c pic row fun _ _ x s =>
    if x.job == .ready || x.job == .active then
      let e := x.engine
      let s := s.updChan c fun ch => ch.updRow pic row fun x => { x with job := .abandoned, cap := max x.cap (ch.cfg.main.beta row) }
      ((((((s.engCount e (Reg.ENG_OVERRUNS e) 8).peakLoad e 1025).localEvent c pic 1).markDu c pic row).leaveJob e
        (c, pic, row)).sweepEnd c pic)
    else s)

/-! ## Local resets (R48, R379) -/

/-- Restarts an active job from its first CTU, with `start` bits of overhead committed. -/
def Row.restart (start : Nat) (x : Row) : Row :=
  if x.job == .active then { x with ctus := 0, bits := start, guarded := 0, swept := [], qps := [], code := [], bareCols := [] } else x

/-- The instants of the last second with one more. -/
def resetsNow (l : List Nat) (up : Nat) : List Nat := up :: l.filter fun t => decide (up < t + 1000000000)

/-- The channels placed on an engine. -/
def State.chansOn (s : State) (e : Nat) : List Nat := (s.chans.filter fun c => c.2.engines.contains e).map (·.1)

/-- An engine is marked failed (R48): the event is raised, an ACTIVE demotes itself (R248). DESIGN CHOICE (log entry 94): jobs dispatched
to it before stay queued and make no progress, so each becomes an overrun at its deadline. -/
def State.failEngine (s : State) (e : Nat) : State :=
  let on := s.chansOn e
  let s := { s with eng := { s.eng with failed := insertNat e s.eng.failed } }
  let s := s.raise 0x0002 2 e (sumNat (on.map fun c => 2 ^ c))
  if on.isEmpty then s else s.selfDemote on

/-- ENGINE_LOCAL_RESET (R48, R379) of an engine that holds a ready job: `inFlight` requests are outstanding at its master port. -/
def execEngineLocalReset (e inFlight : Nat) (s : State) : Host.Outcome State Fault Refusal :=
  .next (
    let rows := s.engineRows e
    if 15 < e || s.eng.failed.contains e || rows.isEmpty then s
    else
      let s := rows.foldl (fun (t : State) (w : Nat × Nat × Nat × Row) =>
        t.updChan w.1 fun ch => ch.updRow w.2.1 w.2.2.1 (Row.restart (256 + if w.2.2.1 = 0 then ch.cfg.main.oAu else 0))) s
      let s := s.nextJob e
      let s := s.engCount e (Reg.ENG_LOCAL_RESETS e) 11
      let s := if 0 < inFlight then
          { s with mem := { s.mem with retiring := tset s.mem.retiring e inFlight } }.bump Reg.MEM_MASTER_RESETS
        else s
      let obj := match rows.find? (fun w => w.2.2.2.job == .active) with
        | some w => w.1 + w.2.2.1 * 256
        | none => match rows.head? with
          | some w => w.1 + w.2.2.1 * 256
          | none => 0
      let s := s.raise 0x0001 1 e obj
      let l := resetsNow (tgetD s.eng.resets e []) s.time.up
      let s := { s with eng := { s.eng with resets := tset s.eng.resets e l } }
      if 3 ≤ l.length then s.failEngine e else s)

/-! ## Substitution (R66 to R69) -/

/-- Counts a substitution of a channel within its second: above 8 the event is raised (Table 20-3). -/
def State.substRate (s : State) (c : Nat) : State :=
  let w := tgetD s.eng.substSec c (s.time.up, 0)
  let w := if s.time.up < w.1 + 1000000000 then (w.1, w.2 + 1) else (s.time.up, 1)
  let s := { s with eng := { s.eng with substSec := tset s.eng.substSec c w } }
  if w.2 = 9 then s.raise 0x0005 1 c w.2 else s

/-- A row's finished samples no longer stand: the DU of its own or of its lower boundary has changed (R62, R68). -/
def Row.unfinish (x : Row) : Row := { x with final := false, proofFinal := false }

/-- The substitute of a DU in place of its row (R67, R68): the generator's CTUs and reconstruction, over the engine's own; a row that
was never encoded counts at β (R93). -/
def Chan.substituteRow (ch : Chan) (p : Pic) (r size : Nat) (x : Row) : Row :=
  let m := ch.cfg.main
  { (ch.bareRow p r x).unfinish with
    substituted := true, proof := .none
    txBits := if x.unencoded then m.beta r else min size (m.ctus * m.bBp + 256 + if r = 0 then m.oAu else 0) }

/-- DU_SUBSTITUTION (R66 to R68, R88, R112): the generator's DU takes the place of a marked one, with `overhead` bits of slice header and
`bits` of CTUs. -/
def execDuSubstitution (c pic row overhead bits : Nat) (s : State) : Host.Outcome State Fault Refusal :=
  .next (s.onRow c pic row fun ch p x s =>
    if x.marked && !x.substituted && !x.sent then
      let s := { s with eng := s.eng.drop c pic row }
      let s := s.updChan c fun ch =>
        let ch := (ch.dropWeight (pic, row)).updRow pic row (ch.substituteRow p row (overhead + bits))
        if row = 0 then ch else ch.updRow pic (row - 1) Row.unfinish
      let s := (((s.bump (Reg.ENG_SUBSTITUTIONS x.engine)).pmuEvent 2 4).localEvent c pic 0).substRate c
      let span := p.refreshSpan ch.cfg.main.ctus
      if span.1 < span.2 then s.sweepMissed c pic else s
    else s)

/-! ## The trailing filter (R62, R64, R120, R123) -/

/-- Compares the two d_fin of a row once both stand (R123). -/
def State.compareFin (s : State) (c n r : Nat) : State :=
  s.onRow c n r fun ch _ x s =>
    if x.final && x.proofFinal && x.dFin != x.pFin then
      ((s.bump (Reg.PRF_FILTER_MISMATCH c)).sticky (Reg.PRF_STATUS c) 0x400).damageRow c n r ch.allCols
    else s

/-- Both DUs of the boundary below row `r` are cleared; the last row needs only itself, and every row but the first that the stage has
finished the one above, whose lower boundary is its upper one (R62). -/
def Chan.boundaryReady (ch : Chan) (p : Pic) (r : Nat) : Bool :=
  let c := ch.cfg.main.ctus
  (p.row r).cleared c && (r + 1 == ch.cfg.main.rows || (p.row (r + 1)).cleared c)

/-- The engine's trailing stage has finished the row above. -/
def Pic.aboveFinal (p : Pic) (r : Nat) : Bool := r == 0 || (p.row (r - 1)).final

/-- The proof decoder's trailing filter has finished the row above. -/
def Pic.aboveProofFinal (p : Pic) (r : Nat) : Bool := r == 0 || (p.row (r - 1)).proofFinal

/-- TRAILING_FILTER (R62, R64, R120): the stage finishes row `row` with the samples `fin`, after the row above. -/
def execTrailingFilter (c pic row : Nat) (checks : List StageCheck) (fin : List SampleLine) (s : State) : Host.Outcome State Fault Refusal :=
  .next (s.onRow c pic row fun ch p x s =>
    if x.final || !(ch.boundaryReady p row) || !(p.aboveFinal row) then s
    else
      let s := if checks.all (·.ok) then s else
        let s := s.residueFault c pic row
        if row + 1 = ch.cfg.main.rows then s else s.residueFault c pic (row + 1)
      s.onRow c pic row fun ch p _ s =>
        if ch.boundaryReady p row then
          (s.updChan c fun ch => ch.updRow pic row fun x =>
            { x with final := true, fin := fin, dFin := rowCrc fin }).compareFin c pic row
        else s)

/-! ## Reads that clear -/

/-- ENG_PEAK_LOAD_READ (R75). -/
def execEngPeakLoadRead (e : Nat) (s : State) : Host.Outcome State Fault Refusal :=
  .next (if e < 16 then s.readClear (Reg.ENG_PEAK_LOAD e) else s.readReserved)

end Sys2Proof.Machine
end

