-- ==== Sys2Proof/Machine/Proof.lean ====
section
/-!
DEFINITION. The proof decoder (chapter 6): dispatch and verdicts (R120 to R122), the decode of substitutes and the trailing filter
(R123), pipeline resets (R124), and external streams (R125 to R129, R237).
-/
namespace Sys2Proof.Machine

/-! ## Dispatch (R121) -/

/-- The verdict deadline v(r) in ticks (R121). -/
def Chan.verdictAt (ch : Chan) (n r : Nat) : Nat := ch.tDl n r + ch.k * ch.cfg.main.tRow + nsTicks 100000

/-- A DU that waits for a pipeline: deadline, channel, row, picture. -/
structure WaitDu where
  v : Nat
  c : Nat
  r : Nat
  n : Nat
deriving DecidableEq, Repr

/-- Dispatch order (R121): verdict deadline, then channel, then row. -/
def WaitDu.before (a b : WaitDu) : Bool :=
  decide (a.v < b.v) || (a.v == b.v && (decide (a.c < b.c) || (a.c == b.c && decide (a.r < b.r))))

/-- The DUs that wait for proof. -/
def State.waitingDus (s : State) : List WaitDu :=
  s.chans.flatMap fun c => c.2.pics.flatMap fun p => p.2.rows.filterMap fun r =>
    if r.2.proof == .waiting then some ⟨c.2.verdictAt p.1 r.1, c.1, r.1, p.1⟩ else none

/-- The first of them. -/
def firstDu : List WaitDu → Option WaitDu
  | [] => none
  | w :: r =>
    match firstDu r with
    | some v => if v.before w then some v else some w
    | none => some w

/-- Pipelines that work. -/
def State.goodPipes (s : State) : List Nat := (List.range 4).filter fun p => !(s.eng.pipeFailed.contains p)

/-- The pipeline a DU takes: the lowest idle one, else the lowest that runs external decode. -/
def State.pipeFor (s : State) : Option Nat :=
  match s.goodPipes.find? fun p => !(thas s.eng.pipes p) with
  | some p => some p
  | none => s.goodPipes.find? fun p => match tget s.eng.pipes p with | some (.ext _) => true | _ => false

/-- An external stream has an AU that may be decoded. -/
def ExtStream.due (e : ExtStream) : Bool := match e.frozen with | (_, true) :: _ => true | _ => false

/-- The external stream that takes an idle pipeline when no DU waits. DESIGN CHOICE (log entry 95): the lowest-numbered with work that holds
no pipeline, so a stream holds one at most. -/
def State.extWaiting (s : State) : Option Nat :=
  (s.ext.find? fun e => e.2.due && !(s.eng.pipes.any fun w => w.2 == .ext e.1)).map (·.1)

/-- PROOF_DISPATCH (R121), not while the proof decoder's domain is off (R17). -/
def execProofDispatch (s : State) : Host.Outcome State Fault Refusal :=
  .next (
    if s.dev.mediaOff then s else
    match firstDu s.waitingDus with
    | some w =>
      match s.pipeFor with
      | some p =>
        { s with eng := { s.eng with pipes := tset s.eng.pipes p (.du w.c w.n w.r) } }.updChan w.c fun ch =>
          ch.updRow w.n w.r fun x => { x with proof := .proving p }
      | none => s
    | none =>
      match s.extWaiting, s.goodPipes.find? fun p => !(thas s.eng.pipes p) with
      | some d, some p => { s with eng := { s.eng with pipes := tset s.eng.pipes p (.ext d) } }
      | _, _ => s)

/-! ## Verdicts (R120, R122) -/

/-- A proof-side fault (R122, R123). -/
def State.sideFault (s : State) (c : Nat) : State := (s.bump (Reg.PRF_SIDE_FAULTS c)).sticky (Reg.PRF_STATUS c) 0x800

/-- A DU fails proof or has no verdict by v(r): a wholly bare-pole one is released unchanged, any other is counted at `off` with
bit `bit` of PRF_STATUS and substituted (R122). -/
def State.failDu (s : State) (c n r off : Nat) (bit : Word) : State :=
  s.onRow c n r fun ch _ x s =>
    let s := { s with eng := s.eng.drop c n r }
    if x.bare ch.cfg.main.ctus then
      (s.updChan c fun ch => ch.updRow n r fun x => { x with proof := .failed }).sideFault c
    else
      let s := (s.bump off).sticky (Reg.PRF_STATUS c) bit
      (s.updChan c fun ch => ch.updRow n r fun x => { x with proof := .failed }).markDu c n r

/-- Frees a pipeline. -/
def State.freePipe (s : State) (p : Nat) : State := { s with eng := { s.eng with pipes := tdel s.eng.pipes p } }

/-- NAL units that a DU is signalled with (R80, R81). -/
def Chan.nalCount (ch : Chan) (level n r : Nat) (p : Pic) : Nat :=
  (if r = 0 then (ch.nonVclUnits level n p).length else 0) + ch.duUnits

/-- A DU passes proof (R120): it parses, its NAL unit count, slice address and slice type are those expected, and the d_row values
agree. -/
def Chan.proofOk (ch : Chan) (level n r : Nat) (p : Pic) (x : Row) (v : VerdictIn) : Bool :=
  v.parseOk && v.nals == ch.nalCount level n r p && v.addr == r && v.type == p.sliceType && rowCrc v.lines == x.dRow

/-- PROOF_VERDICT (R120, R122) on the DU that a pipeline holds. -/
def execProofVerdict (p : Nat) (v : VerdictIn) (s : State) : Host.Outcome State Fault Refusal :=
  .next (
    if s.dev.mediaOff then s else
    match tget s.eng.pipes p with
    | some (.du c n r) =>
      let s := s.freePipe p
      s.onRow c n r fun ch q x s =>
        let lag := fdiv ((s.time.now : Int) - (ch.deadline n r : Int)) Config.ticksPerNs
        let s := (s.hist 3 c lag).pmuEvent 3 0
        if x.proof != .proving p then s
        else if ch.proofOk s.dev.level n r q x v then
          (s.updChan c fun ch => ch.updRow n r fun x => { x with proof := .passed }).bump (Reg.PRF_DUS c)
        else s.failDu c n r (Reg.PRF_FAILS c) 0x100
    | _ => s)

/-- VERDICT_DEADLINE (R122): no verdict by v(r). -/
def execVerdictDeadline (c pic row : Nat) (s : State) : Host.Outcome State Fault Refusal :=
  .next (s.onRow c pic row fun _ _ x s =>
    match x.proof with
    | .waiting => (s.pmuEvent 3 2).failDu c pic row (Reg.PRF_LATE c) 0x200
    | .proving _ => (s.pmuEvent 3 2).failDu c pic row (Reg.PRF_LATE c) 0x200
    | .none => s
    | .passed => s
    | .failed => s)

/-- SUBSTITUTE_DECODE (R123): a d_row that differs from the generator's is a proof-side fault and damages the row. -/
def execSubstituteDecode (c pic row : Nat) (lines : List SampleLine) (s : State) : Host.Outcome State Fault Refusal :=
  .next (if s.dev.mediaOff then s else
    s.onRow c pic row fun ch _ x s =>
      if x.substituted && rowCrc lines != x.dRow then (s.sideFault c).damageRow c pic row ch.allCols else s)

/-- PROOF_TRAILING_FILTER (R123): the decoder's own filter finishes the row, after the row above. -/
def execProofTrailingFilter (c pic row : Nat) (fin : List SampleLine) (s : State) : Host.Outcome State Fault Refusal :=
  .next (if s.dev.mediaOff then s else
    s.onRow c pic row fun ch p x s =>
      if x.proofFinal || !(ch.boundaryReady p row) || !(p.aboveProofFinal row) then s
      else (s.updChan c fun ch => ch.updRow pic row fun x => { x with proofFinal := true, pFin := rowCrc fin }).compareFin c pic row)

/-- The load of a failed pipeline moves to the others (R124). -/
def State.movePipe (s : State) (p : Nat) : State :=
  match tget s.eng.pipes p with
  | some (.du c n r) => (s.freePipe p).updChan c fun ch => ch.updRow n r fun x => { x with proof := .waiting }
  | _ => s.freePipe p

/-- PROOF_PIPE_RESET (R124): only a pipeline that holds work is reset; the third reset within a second marks it failed. -/
def execProofPipeReset (p : Nat) (s : State) : Host.Outcome State Fault Refusal :=
  .next (
    if 3 < p || s.eng.pipeFailed.contains p || !(thas s.eng.pipes p) then s
    else
      let s := s.raise 0x0003 1 p 0
      let l := resetsNow (tgetD s.eng.pipeResets p []) s.time.up
      let s := { s with eng := { s.eng with pipeResets := tset s.eng.pipeResets p l } }
      if 3 ≤ l.length then
        ({ s with eng := { s.eng with pipeFailed := insertNat p s.eng.pipeFailed } }.movePipe p).raise 0x0004 2 p 0
      else s)

/-! ## External streams: the freeze and the gap agreement (R237) -/

/-- Missing ranges of an external AU: numbers missing from its first packet to before the next AU's (R237). -/
def State.extGaps (s : State) (d from_ : Nat) (to? : Option Nat) : List GapRange :=
  (gapRuns ((tkeys (s.merge (64 + d)).missing).filter fun q =>
    decide (from_ ≤ q) && (match to? with | some t => decide (q < t) | none => true))).map fun g => ⟨64 + d, g.2, g.1 % 2 ^ 32⟩

/-- Members whose gap records an AU waits for: those with a working stay path (R237). -/
def State.gapPeers (s : State) : List Nat :=
  if s.member && s.grp.role != .unverified then s.otherRanks.filter s.reachable else []

/-- Decoding of the AU with timestamp `a` may begin, every gap record having come. -/
def State.extReady (s : State) (e : ExtStream) (a : Nat) : Bool := s.gapPeers.all fun k => thas e.gaps (4 * a + k)

/-- Marks the AUs whose gap records are complete. -/
def State.extSettle (s : State) (d : Nat) : State :=
  { s with ext := tupd s.ext d fun e => { e with frozen := e.frozen.map fun f => (f.1, f.2 || s.extReady e f.1) } }

/-- EXT_AU_FREEZE (R237): the AU is frozen and a member sends its gap record, with at most 32 ranges. -/
def execExtAuFreeze (d : Nat) (s : State) : Host.Outcome State Fault Refusal :=
  .next (
    match tget s.ext d with
    | none => s
    | some e =>
      match e.heads with
      | [] => s
      | (q, a) :: next =>
        let gaps := s.extGaps d q (next.head?.map (·.1))
        let own : Option (List GapRange) := if s.member ∧ 32 < gaps.length then none else some gaps
        let s := { s with ext := tset s.ext d { e with
          heads := next, frozen := e.frozen ++ [(a, false)], gaps := tset e.gaps (4 * a + s.grp.rank) own } }
        let s := if s.member then
            s.sendAll (.gap ⟨d, a, gaps.take 32, decide (32 < gaps.length)⟩) else s
        s.extSettle d)

/-- EXT_GAP_DEADLINE (R237): decoding of the oldest frozen AU begins with the lists received. -/
def execExtGapDeadline (d : Nat) (s : State) : Host.Outcome State Fault Refusal :=
  .next { s with ext := tupd s.ext d fun e =>
    match e.frozen with
    | (a, _) :: r => { e with frozen := (a, true) :: r }
    | [] => e }

/-! ## References (R128) -/

/-- A reference names a picture of this POC. -/
def refNames (r : ExtRef) (poc : Int) : Bool :=
  match r with
  | .poc v => v == poc
  | .lsb v bits => poc % 2 ^ bits == v

/-- The POC that a missing reference of a picture of POC `cur` counts with. DESIGN CHOICE (log entry 96): one named by its least significant
bits alone counts with the nearest POC before `cur` that has them. -/
def refPoc (r : ExtRef) (cur : Int) : Int :=
  match r with
  | .poc v => v
  | .lsb v bits => cur - 1 - (cur - 1 - v) % 2 ^ bits

/-- References of the AU that were never decoded (R128). -/
def ExtStream.absent (e : ExtStream) (au : ExtAu) : List ExtRef :=
  au.refs.filter fun r => !(e.held.any fun h => refNames r h.poc)

/-- The substitute of a missing reference (R128): the held picture nearest in POC, the lower on a tie; none for mid-grey. -/
def ExtStream.substitute (e : ExtStream) (poc : Int) : Option Int :=
  e.held.foldl (fun (a : Option Int) h =>
    match a with
    | none => some h.poc
    | some b =>
      let x := (h.poc - poc).natAbs
      let y := (b - poc).natAbs
      if x < y ∨ (x = y ∧ h.poc < b) then some h.poc else some b) none

/-- Marking of a decoded picture with `lost` slices lost (R128): the stream after it, and whether the picture is marked concealed. DESIGN
CHOICE (log entry 97): a never-decoded reference lies at or after a refresh's first picture when its POC does. -/
def ExtStream.mark (e : ExtStream) (au : ExtAu) (lost : Nat) : ExtStream × Bool :=
  let absent := e.absent au
  -- an IRAP picture ends the marking
  let e := if au.start == .irap then { e with concealing := false, firstSub := none, refresh := [], missed := [] } else e
  -- gradual refreshes that may end it are followed from their first pictures
  let e := match au.start with
    | .gradual rp => { e with refresh := e.refresh ++ [({ first := e.count, firstPoc := au.poc, recovery := rp, spoilt := false } : ExtRefresh)] }
    | .irap => e
    | .no => e
  let e := if absent.isEmpty then e
    else { e with concealing := true, firstSub := some (e.firstSub.getD e.count) }
  let spoil (f : ExtRefresh) : ExtRefresh :=
    { f with spoilt := f.spoilt || decide (0 < lost) || absent.any fun r => decide (f.firstPoc ≤ refPoc r au.poc) }
  let refresh := e.refresh.map spoil
  let ends : Bool := e.concealing && refresh.any fun f =>
    au.poc == f.recovery && !f.spoilt && (match e.firstSub with | some q => decide (q ≤ f.first) | none => false)
  let e := { e with refresh := refresh.filter fun f => au.poc != f.recovery }
  if ends then ({ e with concealing := false, firstSub := none }, decide (0 < lost))
  else (e, e.concealing || decide (0 < lost))

/-! ## Lost slices (R127, R129, R237) -/

/-- A packet lies in the union of the gap lists of AU `a` (R129, R237). -/
def ExtStream.gone (e : ExtStream) (a q : Nat) : Bool :=
  e.gaps.any fun g => g.1 / 4 == a && (g.2.getD []).any fun r => decide ((q + 2 ^ 32 - r.first) % 2 ^ 32 < r.count)

/-- A slice is treated as lost (R127): it does not parse, or a packet of it is missing in the agreed union. -/
def ExtStream.sliceLost (e : ExtStream) (a : Nat) (x : ExtSlice) : Bool :=
  !x.parses || (rangeFrom x.first (x.last + 1 - x.first)).any (e.gone a)

/-- One sample of a plane after concealment: `ctuW` and `ctuH` are the CTU's size in the plane. -/
def concealPlane (lost : List ExtSlice) (perRow ctuW ctuH line mid : Nat) (prev : Option (List (List Nat))) (l : List (List Nat)) :
    List (List Nat) :=
  l.zipIdx.map fun e => e.1.zipIdx.map fun v =>
    let y := line + e.2
    let a := y / ctuH * perRow + v.2 / ctuW
    if lost.any fun x => decide (x.ctu ≤ a) && decide (a < x.ctu + x.ctus) then
      match prev with
      | some p => (p.getD y []).getD v.2 mid
      | none => mid
    else v.1

/-- Decoded lines from `line` on with the CTUs of lost slices copied from the picture output before, or mid-grey (R127). -/
def ExtStream.conceal (e : ExtStream) (q : ExtSets) (lost : List ExtSlice) (line : Nat) (f : ExtFrame) : ExtFrame :=
  let perRow := cdiv q.width (max 1 q.ctu)
  let mid := 2 ^ (q.depth - 1)
  let v := if q.chroma = 1 then 2 else 1
  let c := max 1 q.ctu
  let chroma := concealPlane lost perRow (max 1 (c / 2)) (max 1 (c / v)) (line / v) mid
  { luma := concealPlane lost perRow c c line mid (e.lastOut.map (·.luma)) f.luma
    cb := chroma (e.lastOut.map (·.cb)) f.cb, cr := chroma (e.lastOut.map (·.cr)) f.cr }

/-! ## Lines into a channel's pool (R126) -/

/-- A sample of an external stream at the channel's input depth (R126). -/
def extSample (coded input v : Nat) : Nat := if coded = 10 ∧ input = 12 then v * 4 else v

/-- One line of 4:2:2 chroma from a stream's chroma plane of `lines` luma lines (R126). -/
def extChroma (plane : List (List Nat)) (lines y : Nat) : List Nat :=
  if plane.length = lines then plane.getD y []
  else
    let row (i : Int) : List Nat := plane.getD ((min (max i 0) ((plane.length : Int) - 1)).toNat) []
    let h : Int := (y / 2 : Nat)
    let near := row h
    let far := row (if y % 2 = 0 then h - 1 else h + 1)
    near.mapIdx fun x v => chroma422 v (far.getD x v)

/-- The channel that takes stream `e` as the input of the picture at media time `t` (R126). -/
def State.extUser (s : State) (e : ExtStream) (t : Nat) : Option (Nat × Chan) :=
  s.chans.find? fun c =>
    c.2.cfg.main.renditionOf == 0xFF && (s.flowsFor c.2 (picOfMedia c.2.cfg.main t)).1 == e.arg.flowA && (s.fedChan c.1).isSome

/-- The least margin of a stream since its last read (R131), from a line written `m` ns before its row deadline. -/
def State.extMargin (s : State) (d : Nat) (m : Int) : State :=
  let w := s.rd (Reg.EXT_MARGIN_MIN d)
  let v := min (max m 0).toNat (2 ^ 31 - 1)
  let v := if wbit w 31 then min v (wfield w 30 0) else v
  s.wr (Reg.EXT_MARGIN_MIN d) (BitVec.ofNat 32 (v + 2 ^ 31))

/-- Lines of an output picture enter the pool of the channel as they are decoded (R126): each by its own row's slot and deadline, with the
margin of those written (R131). -/
def State.extWrite (s : State) (d : Nat) (e : ExtStream) (c : Nat) (ch : Chan) (f : ExtFrame) (o : ExtOut) : State :=
  let m := ch.cfg.main
  let conv := List.map (extSample e.arg.codedDepth m.inputDepth)
  let n := picOfMedia m o.tMedia
  let now := ch.clock s.time.now
  (rangeFrom o.line o.count).foldl (fun (t : State) y =>
    let r := y / m.ctuSize
    let t' := if t.slotHeld c m n r now || decide (m.tDl n r ≤ now) then t
      else t.extMargin d (fdiv ((m.tDl n r : Int) - now) Config.ticksPerNs)
    t'.writeSeg c n now none false
      ⟨y, n % 2, 0, conv (f.luma.getD y []), conv (extChroma f.cb f.luma.length y), conv (extChroma f.cr f.luma.length y)⟩) s

/-! ## Decoding an AU (R126 to R128) -/

/-- Lines of an output picture (R126 to R128, R131); with its last line it has been output, and counts where a channel takes it. -/
def State.extOutput (s : State) (d : Nat) (o : ExtOut) : State :=
  match tget s.ext d with
  | none => s
  | some e =>
    match e.held.find? (fun (h : ExtPic) => h.poc == o.poc) with
    | none => s
    | some h =>
      let whole := decide (e.arg.format.lines ≤ o.line + o.count)
      let show_ (h : ExtPic) : ExtPic := if h.poc == o.poc then { h with shown := true } else h
      let s := if whole then { s with ext := tset s.ext d { e with held := e.held.map show_, lastOut := some h.frame } } else s
      let s := if whole && h.concealed then s.bump (Reg.EXT_CONCEALED d) else s
      match s.extUser e o.tMedia with
      | some (c, ch) =>
        let s := if whole then s.bump (Reg.EXT_PICTURES d) else s
        s.extWrite d e c ch h.frame o
      | none => s

/-- The samples of the AU in decoding grow by the lines just decoded. -/
def ExtPic.add (h : ExtPic) (f : ExtFrame) : ExtPic :=
  { h with frame := { luma := h.frame.luma ++ f.luma, cb := h.frame.cb ++ f.cb, cr := h.frame.cr ++ f.cr } }

/-- Decoding of AU `a`, which may be entered, begins (R127, R128): references, marking, counts. -/
def State.extBegin (s : State) (d a : Nat) (e : ExtStream) (au : ExtAu) : State :=
  let absent := e.absent au
  let new := absent.filter fun r => !(e.missed.contains r)
  let lost := (au.slices.filter (e.sliceLost a)).length
  let m := e.mark au lost
  let keep := m.1.held.filter fun h => !h.shown || au.refs.any fun r => refNames r h.poc
  let e' := { m.1 with
    decoding := true, unsupported := false, count := m.1.count + 1, missed := m.1.missed ++ new, inWork := some a
    subs := absent.map fun r => (r, e.substitute (refPoc r au.poc)), held := keep ++ [{ poc := au.poc, concealed := m.2, shown := false }] }
  let s := { s with ext := tset s.ext d e' }
  let s := if new.isEmpty then s
    else (s.bumpBy (Reg.EXT_MISSING_REFS d) new.length).sticky (Reg.EXT_STATE d) 0x20000
  if lost = 0 then s else (s.bumpBy (Reg.EXT_LOST_SLICES d) lost).sticky (Reg.EXT_STATE d) 0x10000

/-- A gap list of the AU overflowed: the AU is treated as lost (R237). -/
def ExtStream.auLost (e : ExtStream) (a : Nat) : Bool :=
  e.gaps.any fun g => g.1 / 4 == a && g.2.isNone

/-- What the parameter sets announce lies within Table 6-3 (R127). -/
def extSupported (q : ExtSets) (a : ExtStreamArg) : Bool :=
  q.codec == a.codec && q.profile == a.profile && decide (q.level ≤ 62) && q.depth == a.codedDepth && q.width == a.format.width
    && q.height == a.format.lines && (q.chroma == 1 || (q.chroma == 2 && q.profile != 0))

/-- The AU with timestamp `a` leaves: decoded, or passed over. Its pipeline is free and its gap lists go. -/
def State.extLeave (s : State) (d a : Nat) : State :=
  { s with
    ext := tupd s.ext d fun e =>
      { e with
        frozen := e.frozen.filter fun f => f.1 != a, inWork := none, subs := []
        gaps := tfilter e.gaps fun k _ => k / 4 != a, past := takeLast 16 (e.past ++ [a]) }
    eng := { s.eng with pipes := tfilter s.eng.pipes fun _ w => w != .ext d } }

/-- A part of AU `a` is decoded: its lines join the picture, concealed where slices are lost, and output lines are written. -/
def State.extPart (s : State) (d a : Nat) (q : ExtSets) (au : ExtAu) : State :=
  let add (e : ExtStream) : ExtStream :=
    let f := e.conceal q (au.slices.filter (e.sliceLost a)) au.line au.frame
    { e with held := e.held.map fun h => if h.poc == au.poc then h.add f else h }
  let s := { s with ext := tupd s.ext d add }
  let s := au.outs.foldl (fun (t : State) (o : ExtOut) => t.extOutput d o) s
  if au.done then s.extLeave d a else s

/-- EXT_AU_DECODE (R17, R121, R124, R126 to R129, R237): a part of the oldest frozen AU whose decoding may begin, on the pipeline that the
stream holds. DEDUCED (log entry 98): parameter sets or a picture header that do not parse are a decode error, after which decoding begins
again only at a picture of R127; lost slices are not. -/
def execExtAuDecode (d : Nat) (au : ExtAu) (s : State) : Host.Outcome State Fault Refusal :=
  .next (
    if s.dev.mediaOff || !(s.eng.pipes.any fun w => w.2 == .ext d) then s else
    match tget s.ext d with
    | none => s
    | some e =>
      match e.frozen with
      | (a, true) :: _ =>
        if e.auLost a then s.extLeave d a
        else
          match au.sets with
          | none => { s with ext := tupd s.ext d fun e => { e with decoding := false } }.extLeave d a
          | some q =>
            if !(extSupported q e.arg) then
              (({ s with ext := tupd s.ext d fun e => { e with unsupported := true, decoding := false } }.bump (Reg.EXT_ERRORS d)).sticky
                (Reg.EXT_STATE d) 0x40000).extLeave d a
            else if e.inWork == some a then s.extPart d a q au
            else if !e.decoding && au.start == .no then s.extLeave d a
            else (s.extBegin d a e au).extPart d a q au
      | _ => s)

/-- EXT_MARGIN_MIN_READ (R131). -/
def execExtMarginMinRead (e : Nat) (s : State) : Host.Outcome State Fault Refusal :=
  .next (if e < 16 then s.readClear (Reg.EXT_MARGIN_MIN e) else s.readReserved)

end Sys2Proof.Machine
end

