-- ==== Sys2Proof/Machine/Egress.lean ====
section
/-!
DEFINITION. Emission (chapter 10): the DU's entry into the transmit buffer (R32, R84), packets and their model instants (R195, R197,
R198), held packets of a group (R250), the transport stream (R170, R196), and sending: queues, shapers, gates (R199 to R205).
-/
namespace Sys2Proof.Machine

/-! ## Who emits (R238, R246, R250 to R253) -/

/-- The unit emits picture `n` of channel `c`; otherwise it holds the packets. -/
def State.mayEmit (s : State) (c n : Nat) : Bool :=
  let g := s.gch c
  let upTo : Bool := match g.emitTo with | some t => decide (n ≤ t) | none => true
  match s.grp.role with
  | .none => true
  | .active => upTo && (match g.emitFrom with | some f => decide (f ≤ n) | none => true)
  | _ => g.emitTo.isSome && upTo

/-! ## Queues (R199, R203) -/

/-- Queues of 256 KiB: queue 3 and the weighted group. -/
def boundedQueue (q : Nat) : Bool := q == 3 || decide (4 ≤ q)

/-- One interface less for a packet; the packet counts when it was the last (R206). -/
def State.packetDone (s : State) (c seq : Nat) : State :=
  let t := tgetD s.txc c {}
  match tget t.pendingIfs seq with
  | some k =>
    if k ≤ 1 then ({ s with txc := tset s.txc c { t with pendingIfs := tdel t.pendingIfs seq, packets := t.packets + 1 } }.bump
      (Reg.EGR_PACKETS c))
    else { s with txc := tset s.txc c { t with pendingIfs := tset t.pendingIfs seq (k - 1) } }
  | none => s

/-- A packet that an interface would send while it is down, or without a MAC address, is discarded (R176, R205). -/
def State.linkDrop (s : State) (i c seq : Nat) : State :=
  ((s.bump (Reg.NET_TX_LINK_DROPS i)).sticky (Reg.NET_TX_STATUS i) 0x20000).packetDone c seq

/-- The interface can send: its link is up and it has a MAC address. -/
def Iface.sends (f : Iface) : Bool := f.linkUp && f.mac.isSome

/-- A packet enters its queue on interface `i`, unless it is over max_frame or the queue is full (R199, R203), or eligible on an
interface that cannot send (R205). -/
def State.enqueue (s : State) (i q : Nat) (p : Packet) (eligible : Bool) : State :=
  let t := s.txIf i
  let held := tgetD t.held q 0
  if eligible && !((s.iface i).sends) then s.linkDrop i p.chan p.seq
  else if t.maxF q < p.frame || (boundedQueue q && decide (262144 < held + p.frame)) then
    ((s.bump (Reg.NET_TX_DROPS i)).sticky (Reg.NET_TX_STATUS i) 0x10000).packetDone p.chan p.seq
  else
    let w : TxPacket := { pkt := p, queue := q, eligible := eligible }
    let s := s.settleCredits i
    s.updTx i fun t => { t with queued := t.queued ++ [w], held := tset t.held q (held + p.frame) }

/-- A packet goes to every interface of out_if. -/
def State.dispatch (s : State) (c : Nat) (o : DefOut) (p : Packet) (eligible : Bool) : State :=
  let ifs := outIfs o
  let t := tgetD s.txc c {}
  let s := { s with txc := tset s.txc c { t with pendingIfs := tset t.pendingIfs p.seq ifs.length } }
  ifs.foldl (fun (u : State) i =>
    u.enqueue i o.queue { p with frame := headerBytes o (pathOf o i) + p.bytes } eligible) s

/-- A packet that the packetiser has built: sent on, or held by a member that does not emit (R250). -/
def State.sendPacket (s : State) (c : Nat) (o : DefOut) (p : Packet) : State :=
  if s.mayEmit c p.pic then s.dispatch c o p false
  else { s with grp := { s.grp with heldPkts := s.grp.heldPkts ++ [p] } }

/-- The next sequence number of a channel (R197). -/
def State.takeSeq (s : State) (c : Nat) : State × Nat :=
  let t := tgetD s.txc c {}
  ({ s with txc := tset s.txc c { t with nextSeq := (t.nextSeq + 1) % 65536 } }, t.nextSeq)

/-! ## RTP elementary stream (R195, R198) -/

/-- The RTP timestamp of AU `n`: the 90 kHz count of t0 − input_offset (R195, R219). -/
def Chan.rtpTime (ch : Chan) (n : Nat) : Nat := ch.index n * ch.cfg.main.tp / Config.ticks90k % 2 ^ 32

/-- Sizes of `k` non-VCL NAL units within `room` bytes, start codes included: as the free list has them, at least a header each. -/
def headSizes : Nat → List Nat → Nat → List Nat
  | 0, _, _ => []
  | k + 1, l, room =>
    let a := min (max 2 (l.headD 0)) (room - 4 - 6 * k)
    a :: headSizes k (l.drop 1) (room - 4 - a)

/-- NAL units of a DU in bytes without start codes (R81): the non-VCL ones of DU 0, the slice, and in CBR the filler data. -/
def duNals (pre : List Nat) (cbr : Bool) (bytes fill : Nat) : List Nat :=
  let tail := if cbr then 7 + fill else 0
  pre ++ [bytes - sumNat (pre.map (· + 4)) - 4 - tail] ++ (if cbr then [3 + fill] else [])

/-- A packet of a DU: offset in the Annex B bytes of the byte that sets its model instant, bytes after the RTP header, NAL unit and part. -/
structure DuPacket where
  off   : Nat
  bytes : Nat
  nal   : Nat
  part  : NalPart
deriving DecidableEq, Repr

/-- Packets of NAL unit `k`, of `n` bytes, whose start code lies at `at_` (R195, R198): the byte is that of the NAL unit header for a single
or first packet, else the fragment's first. -/
def nalPackets (maxPayload k n at_ : Nat) : List DuPacket :=
  if n ≤ maxPayload then [⟨at_ + 4, n, k, .single⟩]
  else
    let c := cdiv (n - 2) maxPayload
    (List.range c).map fun i =>
      ⟨at_ + 4 + (if i = 0 then 0 else 2 + i * maxPayload), min maxPayload (n - 2 - i * maxPayload) + 3, k,
        if i = 0 then .first else if i + 1 = c then .last else .middle⟩

/-- Packets of a DU from NAL unit `k` on. -/
def duPackets (maxPayload : Nat) : List Nat → Nat → Nat → List DuPacket
  | [], _, _ => []
  | n :: r, k, at_ => nalPackets maxPayload k n at_ ++ duPackets maxPayload r (k + 1) (at_ + 4 + n)

/-- The instant at which byte `off` of a DU has been delivered, `start` being in ticks times the rate (R198). -/
def byteAt (rate start off : Nat) : Nat := cdiv (start + 8 * (off + 1) * Config.ticksPerSec) rate

/-- Packetises a DU of `bytes` bytes, of which `head` NAL units are non-VCL, under rtp_es. -/
def State.packetise (s : State) (c n r : Nat) (ch : Chan) (head bytes fill start : Nat) : State :=
  let m := ch.cfg.main
  let pre := if r = 0 then headSizes head (Config.nonVcl s.fresh) (min (m.oAu / 8) bytes) else []
  let s := if r = 0 then { s with fresh := s.fresh + 1 } else s
  let ps := duPackets ch.cfg.out.maxPayload (duNals pre (ch.cfg.rate.rcMode == 0) bytes fill) 0 0
  let last := ps.length - 1
  ps.zipIdx.foldl (fun (t : State) (e : DuPacket × Nat) =>
    let q := t.takeSeq c
    q.1.sendPacket c ch.cfg.out
      { chan := c, seq := q.2, pic := n, row := r, ts := ch.rtpTime n
        marker := r + 1 == m.rows && e.2 == last, bytes := e.1.bytes, frame := 0
        ej := byteAt ch.cfg.rate.bitRate start e.1.off, nal := e.1.nal, part := e.1.part }) s

/-! ## Transport stream (R170, R196) -/

/-- The stream time s(t) in ticks (R196). -/
def Chan.streamTime (ch : Chan) (t : Int) : Int := t - nsTicks ch.dPipe - nsTicks ch.cfg.main.inputOffset

/-- Start of TS slot `k` from an origin. -/
def slotAt (rate origin k : Nat) : Nat := origin + k * 1504 * Config.ticksPerSec / rate

/-- The first slot that starts at or after an instant. -/
def slotFrom (rate origin t : Nat) : Nat := cdiv ((t - origin) * rate) (1504 * Config.ticksPerSec)

/-- First media frame whose time is at or after an instant in ticks. -/
def frameFrom (t : Nat) : Nat := cdiv t sampleTicks

/-- Media frames packed with AU `n` (R170). -/
def Chan.auFrames (ch : Chan) (n : Nat) : Nat × Nat :=
  let m := ch.cfg.main
  (frameFrom (ch.index n * m.tp), frameFrom ((ch.index n + 1) * m.tp))

/-- The sequence number `q` (extended) of merge `m` is on the agreed gap list of picture `n`; with an overflowed list every one is
(R236). -/
def State.gapLists (s : State) (c n m q : Nat) : Bool :=
  s.member && match tget (s.gch c).agreedGaps n with
    | some none => true
    | some (some gs) => gs.any fun g => g.merge == m && decide ((q + 2 ^ 32 - g.first % 2 ^ 32) % 2 ^ 32 < g.count)
    | none => false

/-- The sample of media frame `k` that a source feeds AU `n` with; none when it is missing: it has not come, or its packet is listed
(R157, R170, R171, R236). -/
def State.audSample (s : State) (c n : Nat) (src : Nat × Nat × Nat) (k : Nat) : Option Int :=
  if src.1 = 1 then
    match tget s.aud.streams src.2.1 with
    | none => none
    | some st =>
      match tget st.recent k with
      | some (q, f) => if s.gapLists c n (80 + src.2.1) q then none else some (f.getD src.2.2 0)
      | none => none
  else if s.gapLists c n 0x10000 0 then none
  else tget (tgetD s.aud.tdmRecent (16 * src.2.1 + src.2.2) []) k

/-- Missing samples of AU `n` over the channel's network audio routes, counted at their streams (R157, R170). -/
def State.countMissing (s : State) (c n : Nat) (ch : Chan) (p : Pic) : State :=
  let fr := ch.auFrames n
  p.cfg.audio.foldl (fun (t : State) (e : Nat × (Nat × Nat × Nat)) =>
    if e.2.1 = 1 then
      t.bumpBy (Reg.AUD_NS_MISSING e.2.2.1) ((rangeFrom fr.1 (fr.2 - fr.1)).filter fun k => (t.audSample c n e.2 k).isNone).length
    else t) s

/-- The samples of programme `i` of AU `n`, by frame: one of each channel, 0 where missing or not routed (R156, R170). -/
def State.programme (s : State) (c n i : Nat) (ch : Chan) (p : Pic) : List (List Int) :=
  let fr := ch.auFrames n
  (rangeFrom fr.1 (fr.2 - fr.1)).map fun k => (List.range (ch.cfg.out.progChannels.getD i 0)).map fun j =>
    match tget p.cfg.audio (8 * i + j) with
    | some src => (s.audSample c n src k).getD 0
    | none => 0

/-- Bytes of the ST 302M PES packet of a programme with `chans` channels and `frames` frames: 24-bit samples, a 4-byte audio
header, a 14-byte PES header. -/
def audioPes (chans frames : Nat) : Nat := 14 + 4 + cdiv chans 2 * 7 * frames

/-- PTS of AU `n` (R196): the 90 kHz count of its media time plus (N − 1) × T_row plus D_cpb, modulo 2^33. -/
def Chan.pts (ch : Chan) (n : Nat) : Nat :=
  let m := ch.cfg.main
  (ch.index n * m.tp + (m.rows - 1) * m.tRow + ch.cfg.rate.dCpb * Config.ticks90k) / Config.ticks90k % 2 ^ 33

/-- The 27 MHz count of a stream time, modulo 2^33 × 300 (R196). -/
def pcrOf (st : Int) : Nat := (fdiv st 480000 % (2 ^ 33 * 300 : Nat)).toNat

/-- Ancillary data of a picture, in the order of its packets: none on a member whose gap lists overflowed, and without the listed packets
(R196, R236). -/
def State.ancData (s : State) (c n : Nat) (ch : Chan) : List Byte :=
  ((tgetD (tgetD s.txc c {}).anc (ch.index n) []).filter fun e => !(s.gapLists c n (144 + c) e.1)).flatMap (·.2)

/-- Changes a channel's egress state. -/
def State.updTxc (s : State) (c : Nat) (f : TxChan → TxChan) : State := { s with txc := tset s.txc c (f (tgetD s.txc c {})) }

/-- The PIDs of a channel's stream. -/
def streamPids (o : DefOut) : List Nat := [0, o.pidPmt, o.pidVideo] ++ o.pidAudio.take (min o.programmes 8) ++ [o.pidAnc]

/-- The slots that carry a picture's DU 0: a channel's first DU and a timestamp discontinuity begin the count anew; after a stop it goes
on at the first slot from this DU on (R196, R197, R216). After a takeover the first packet of each PID is marked (R252). -/
def TxChan.tsBegin (t : TxChan) (ch : Chan) (n : Nat) (p : Pic) (tTx : Nat) : TxChan :=
  let st := ch.streamTime tTx
  let anew (t : TxChan) : TxChan := { t with
    tsOrigin := some tTx, tsSlot := 0, tsShift := 0
    tsPcr := (fdiv st (nsTicks 10000000)).toNat, tsPsi := 2 * (fdiv st (nsTicks 100000000)).toNat }
  let t := match t.tsOrigin with
    | none => anew t
    | some org =>
      if p.discontinuity || decide (tTx < org) then anew t
      else if p.first then { t with tsSlot := max t.tsSlot (slotFrom ch.cfg.out.tsRate org tTx) }
      else t
  match t.tsDisc with
  | some k => if k ≤ n then { t with tsDisc := none, tsFirsts := streamPids ch.cfg.out } else t
  | none => t

/-- The audio and ancillary data of AU `n` join the transport stream (R170, R196). -/
def State.tsData (s : State) (c n : Nat) (ch : Chan) (p : Pic) : State :=
  let o := ch.cfg.out
  let pts := ch.pts n
  let anc := s.ancData c n ch
  let audio := (List.range (min o.programmes 8)).map fun i => (o.pidAudio.getD i 0, s.programme c n i ch p)
  let s := s.countMissing c n ch p
  let s := audio.foldl (fun (t : State) a => t.emit (.audioPes c n a.1 pts a.2)) s
  let s := if anc.isEmpty then s else s.emit (.ancPes c n pts anc)
  let pes (pid bytes : Nat) : TsPes := ⟨pid, pts, bytes, bytes⟩
  s.updTxc c fun t => { t with
    tsAudio := t.tsAudio ++ audio.zipIdx.map fun a => pes a.1.1 (audioPes (o.progChannels.getD a.2 0) a.1.2.length)
    tsAnc := if anc.isEmpty then t.tsAnc else t.tsAnc ++ [pes o.pidAnc (anc.length + 14)]
    anc := tfilter t.anc fun k _ => decide (ch.index n < k) }

/-- A DU's bytes join the transport stream; the last DU of an AU brings its audio and ancillary data (R170, R196). -/
def State.tsPush (s : State) (c n r : Nat) (ch : Chan) (p : Pic) (bytes start tTx : Nat) : State :=
  let lastDu : Bool := r + 1 == ch.cfg.main.rows
  let s := s.updTxc c fun t =>
    let t := if r = 0 then t.tsBegin ch n p tTx else t
    { t with tsVideo := t.tsVideo ++ [{
      start := start, bytes := bytes, head := if r = 0 then 19 else 0, ends := lastDu, pic := n, pts := ch.pts n
      disc := p.discontinuity && r == 0 }] }
  if lastDu then s.tsData c n ch p else s

/-- The first packet of a PID after a takeover, and the payload room that its adaptation field leaves: with a PCR 176 bytes, with flags
alone 182. -/
def tsRoom (pcr disc : Bool) : Nat := if pcr then 176 else if disc then 182 else 184

/-- A packet with payload on a PID advances its continuity counter, from 0 (R196). -/
def TxChan.pack (t : TxChan) (p : TsPkt) : TsPkt × TxChan :=
  let cc := tgetD t.tsCc p.pid 0
  ({ p with cc := cc, disc := p.disc || t.tsFirsts.contains p.pid },
    { t with tsCc := tset t.tsCc p.pid ((cc + 1) % 16), tsFirsts := t.tsFirsts.filter (· != p.pid) })

/-- The packet that the PES packet at the head of a queue fills, and the queue after it. -/
def takePes (firsts : List Nat) : List TsPes → TsPkt × List TsPes
  | [] => ({ pid := 0x1FFF }, [])
  | e :: r =>
    let n := min (tsRoom false (firsts.contains e.pid)) e.left
    let head := e.left == e.bytes
    ({ pid := e.pid, start := head, pts := if head then some e.pts else none, align := false, bytes := n },
      if e.left ≤ n then r else { e with left := e.left - n } :: r)

/-- Bytes of a DU that stand ready at an instant given in ticks times the rate: the PES header, and what the model has delivered. -/
def TsDu.ready (d : TsDu) (now : Nat) : Nat :=
  if d.start ≤ now then d.head + min d.bytes ((now - d.start) / (8 * Config.ticksPerSec)) - d.gone else 0

/-- Video bytes ready in the DUs of the PES packet at the head, and whether they end it. -/
def videoReady (now : Nat) : List TsDu → Nat × Bool
  | [] => (0, false)
  | d :: r =>
    let got := d.ready now
    if d.gone + got < d.head + d.bytes then (got, false)
    else if d.ends then (got, true)
    else
      let rest := videoReady now r
      (got + rest.1, rest.2)

/-- Takes `n` video bytes. -/
def takeVideo : List TsDu → Nat → List TsDu
  | [], _ => []
  | d :: r, n =>
    let left := d.head + d.bytes - d.gone
    if left ≤ n then takeVideo r (n - left) else { d with gone := d.gone + n } :: r

/-- The video packet of a slot that begins at `at_`, at stream time `st`: full, or the last of its PES packet; none when too little is ready
(R196, R216). -/
def TxChan.videoSlot (t : TxChan) (ch : Chan) (at_ : Nat) (st : Int) : Option (TsPkt × TxChan) :=
  match t.tsVideo with
  | [] => none
  | d :: _ =>
    let head := d.gone == 0 && decide (0 < d.head)
    let disc := d.disc && head
    let pcr : Bool := decide (((t.tsPcr * nsTicks 10000000 : Nat) : Int) ≤ st) || disc
    let room := tsRoom pcr (t.tsFirsts.contains ch.cfg.out.pidVideo)
    let ready := videoReady (at_ * ch.cfg.rate.bitRate) t.tsVideo
    if room ≤ ready.1 || (ready.2 && decide (0 < ready.1)) then
      some ({ pid := ch.cfg.out.pidVideo, start := head, pcr := if pcr then some (pcrOf st) else none, disc := disc
              pts := if head then some d.pts else none, align := head, bytes := min room ready.1 },
        { t with
          tsVideo := takeVideo t.tsVideo (min room ready.1)
          tsPcr := if pcr then (fdiv st (nsTicks 10000000)).toNat + 1 else t.tsPcr })
    else none

/-- The content of a slot that begins at `at_`, in R196's order: PAT and PMT, audio, ancillary data, video, else a null packet; and the
channel after it. -/
def TxChan.fillSlot (t : TxChan) (ch : Chan) (at_ : Nat) : TsPkt × TxChan :=
  let o := ch.cfg.out
  let st := ch.streamTime ((at_ : Int) + fdiv (stepScaled t.tsShift) 65536)
  if ((t.tsPsi / 2 * nsTicks 100000000 : Nat) : Int) ≤ st then
    if t.tsPsi % 2 = 0 then { t with tsPsi := t.tsPsi + 1 }.pack { pid := 0, start := true, bytes := 184 }
    else { t with tsPsi := 2 * ((fdiv st (nsTicks 100000000)).toNat + 1) }.pack { pid := o.pidPmt, start := true, bytes := 184 }
  else if !t.tsAudio.isEmpty then
    let e := takePes t.tsFirsts t.tsAudio
    { t with tsAudio := e.2 }.pack e.1
  else if !t.tsAnc.isEmpty then
    let e := takePes t.tsFirsts t.tsAnc
    { t with tsAnc := e.2 }.pack e.1
  else
    match t.videoSlot ch at_ st with
    | some (p, u) => u.pack p
    | none => ({ pid := 0x1FFF }, t)

/-- The picture that a transport-stream packet belongs to for the purpose of holding: the one whose video is at the head. -/
def TxChan.headPic (t : TxChan) (n : Nat) : Nat := match t.tsVideo with | d :: _ => d.pic | [] => n

/-- TS_SLOT (R196, R198): the next slot of a channel's transport stream; seven make a datagram. -/
def execTsSlot (c : Nat) (s : State) : Host.Outcome State Fault Refusal :=
  .next (s.onChan c fun ch s =>
    let t := tgetD s.txc c {}
    let live : Bool := ch.st.coding || !t.tsVideo.isEmpty || !t.tsAudio.isEmpty || !t.tsAnc.isEmpty || !t.tsBuf.isEmpty
    match t.tsOrigin with
    | none => s
    | some org =>
      if ch.cfg.out.encap ≠ 1 || !live || s.dev.fatal then s
      else
        let at_ := slotAt ch.cfg.out.tsRate org t.tsSlot
        let f := t.fillSlot ch at_
        let first := if t.tsBuf.isEmpty then at_ else t.tsFirst
        let buf := t.tsBuf ++ [f.1]
        let n := t.headPic (ch.nextPic - 1)
        if buf.length < 7 then s.updTxc c fun _ => { f.2 with tsSlot := t.tsSlot + 1, tsBuf := buf, tsFirst := first }
        else
          let s := s.updTxc c fun _ => { f.2 with tsSlot := t.tsSlot + 1, tsBuf := [] }
          let q := s.takeSeq c
          q.1.sendPacket c ch.cfg.out
            { chan := c, seq := q.2, pic := n, row := 0, ts := Config.tsTimestamp (t.tsSlot + 1 - 7), marker := false
              bytes := 1316, frame := 0, ej := first, slots := buf })

/-! ## The transmit buffer (R32, R34, R36, R84) -/

/-- The least of H_act − x since the last read: 31 bits two's complement with a valid bit (RC_HEADROOM_MIN). -/
def State.headroom (s : State) (c : Nat) (v : Int) : State :=
  let w := s.rd (Reg.RC_HEADROOM_MIN c)
  let v := clampI v (-(2 ^ 30)) (2 ^ 30 - 1)
  let old : Int := (wfield w 30 0 : Nat)
  let old := if 2 ^ 30 ≤ old then old - 2 ^ 31 else old
  let v := if wbit w 31 then min v old else v
  s.wr (Reg.RC_HEADROOM_MIN c) (BitVec.ofNat 32 ((v % (2 ^ 31 : Int)).toNat + 2 ^ 31))

/-- The DU that follows at a DU's entry, at its actual instant; none for the last DU before a stop (R84). -/
def Chan.duAfter (ch : Chan) (n r : Nat) : Option DuId :=
  if r + 1 < ch.cfg.main.rows then some (n, r + 1)
  else
    match ch.stopPic with
    | some q => if q ≤ n + 1 then none else some (ch.nextDu (n, r) |>.getD (n + 1, 0))
    | none => some (ch.nextDu (n, r) |>.getD (n + 1, 0))

/-- Counts of the actual ledger's entry (R84, R98). -/
def State.countEntry (s : State) (c n r : Nat) (ch : Chan) (e : Entry) : State :=
  let s := if e.filler = 0 then s
    else (s.bumpBy (Reg.RC_FILLER_BYTES c) e.filler).sticky (Reg.RC_STATUS c) 0x800
  let s := if e.alarm then
      ((s.bump (Reg.RC_HRD_ALARMS c)).sticky (Reg.RC_STATUS c) 0x1000).raise 0x0006 2 c (ch.index n % 2 ^ 48 + r * 2 ^ 48)
    else s
  s.headroom c e.left

/-- The reconstruction digest of a picture (R231). -/
def Pic.recCrc (p : Pic) (rows : Nat) : Word := crc32c ((List.range rows).flatMap fun i => leBytes 4 (p.row i).dFin.toNat)

/-- A STOPPING channel whose last AU has entered is STOPPED: its long-term slots are released, pending marks cancelled and pending
anchors dropped (R34, R36, R105, R106). -/
def State.stopChan (s : State) (c : Nat) : State :=
  s.onChan c fun ch s =>
    (s.setChan c { ch with st := .stopped, stopPic := none, inputLost := false, refs := ch.refs.stopped }).countStop c ch

/-- Bytes by which a DU's filler NAL unit has been enlarged at its entry (R84). -/
def Row.enlarged (x : Row) : Nat := (x.txBits - x.released) / 8

/-- The NAL units of an AU as released (R231). -/
def Chan.auNals (ch : Chan) (level n : Nat) (p : Pic) : List NalUnit :=
  (List.range ch.cfg.main.rows).flatMap fun r => ch.duNalUnits level n r (p.row r).enlarged p

/-- The last DU of an AU has entered (R34, R38, R40, R112, R231). -/
def State.auDone (s : State) (c n : Nat) (p : Pic) : State :=
  s.onChan c fun ch s =>
    let au := sumNat ((List.range ch.cfg.main.rows).map fun i => ((ch.pic? n).getD {} |>.row i).txBits)
    let s := s.updChan c fun ch => { ch with auCount := (ch.auCount + 1) % 2 ^ 48 }
    let s := s.wr (Reg.RC_LAST_AU_BITS c) (BitVec.ofNat 32 au)
    let s := if p.isRepeat then s.bump (Reg.CHN_REPEAT_COUNT c) else s
    let s := if s.member then
        let q := (ch.pic? n).getD p
        let d : BitVec 64 × Word × Nat := (Config.auCrc (ch.auNals s.dev.level n q), p.recCrc ch.cfg.main.rows, p.faults)
        s.updGch c fun g => { g with digests := tset g.digests n d }
      else s
    let s := s.sweepDone c n
    let s := match ch.stopPic with
      | some q => if ch.st == ChanState.stopping && decide (q ≤ n + 1) then s.stopChan c else s
      | none => s
    s.settleStandDown.settleShutdown

/-- DU_TRANSMIT_ENTRY (R32, R84, R195 to R198): a released DU enters, the actual ledger runs, and its packets are built. -/
def execDuTransmitEntry (c pic row : Nat) (s : State) : Host.Outcome State Fault Refusal :=
  .next (s.onRow c pic row fun ch p x s =>
    if x.sent || !(x.cleared ch.cfg.main.ctus) then s
    else
      let e := ch.enter (pic, row) x.released (ch.duAfter pic row)
      let tTx := ch.t0 pic + nsTicks ch.dPipe + row * ch.cfg.main.tRow
      let tc := tgetD s.txc c {}
      let start := max (tTx * ch.cfg.rate.bitRate) tc.delivered
      let s := s.setChan c (({ ch with rate := { ch.rate with w := e.w, last := some (pic, row) } } : Chan).updRow pic row fun x =>
        { x with sent := true, txBits := e.x })
      let s := s.countEntry c pic row ch e
      let s := match tc.rebase with
        | some (k, q) => if row = 0 ∧ k ≤ pic then s.updTxc c fun t => { t with nextSeq := q % 65536, rebase := none } else s
        | none => s
      let s := if row = 0 && p.first && !p.discontinuity then s.sticky (Reg.CHN_STATUS c) 0x800 else s
      let nals := ch.duNalUnits s.dev.level pic row e.filler p
      let bytes := cdiv e.x 8
      let s := (s.emit (.du c pic row nals)).updTxc c fun t => { t with delivered := start + e.x * Config.ticksPerSec }
      let s := if ch.cfg.out.encap = 1 then s.tsPush c pic row ch p bytes start tTx
        else s.packetise c pic row ch (nals.length - ch.duUnits) bytes e.filler start
      if row + 1 = ch.cfg.main.rows then s.auDone c pic p else s)

/-! ## Model instants (R198, R205) -/

/-- A packet leaves its queue on an interface. -/
def State.dequeue (s : State) (i : Nat) (w : TxPacket) : State :=
  let s := s.settleCredits i
  s.updTx i fun t => { t with
    queued := t.queued.erase w, held := tset t.held w.queue (tgetD t.held w.queue 0 - w.pkt.frame) }

/-- PACKET_MODEL_INSTANT (R198, R205, R176): the packet becomes eligible; on an interface that is down or has no MAC address it is
discarded. -/
def execPacketModelInstant (i c seq : Nat) (s : State) : Host.Outcome State Fault Refusal :=
  .next (
    match (s.txIf i).queued.find? fun w => w.pkt.chan == c && w.pkt.seq == seq && !w.eligible with
    | none => s
    | some w =>
      if !((s.iface i).sends) then (s.dequeue i w).linkDrop i c seq
      else
        let s := s.settleCredits i
        s.updTx i fun t => { t with queued := t.queued.map fun v => if v = w then { v with eligible := true } else v })

/-! ## Sending (R199, R201 to R203) -/

/-- Time in ns for which queue `q` stays open from position `pos` of a cycle, at most `horizon`. -/
def openFor (q : Nat) : List (BitVec 16 × Nat) → Nat → Nat → Nat → Nat
  | [], _, horizon, acc => max acc horizon
  | (m, d) :: r, pos, horizon, acc =>
    if d ≤ pos then openFor q r (pos - d) horizon acc
    else if !(m.toNat.testBit q) then acc
    else if horizon ≤ acc then acc
    else openFor q r 0 horizon (acc + (d - pos))

/-- Time in ns for which a list keeps queue `q` open from position `pos` of its cycle; two cycles stand for ever. -/
def GateList.opens (g : GateList) (q pos : Nat) : Nat :=
  let runs := gateRuns g.entries g.cycle
  openFor q (runs ++ runs ++ runs) pos (2 * g.cycle) 0

/-- The gate of a queue is open and stays so for the queue's guard band, up to a pending list's start and on into it (R203, R204). -/
def State.gateOk (s : State) (i q : Nat) : Bool :=
  let t := s.txIf i
  let g := guardBand (t.maxF q) (s.ifRate i)
  let now := s.time.nowNs
  let stay : Option Nat := t.oper.map fun o => o.opens q (((now : Int) - o.base) % ((max 1 o.cycle : Nat) : Int)).toNat
  let next : Option (Nat × Nat) := t.pend.bind fun p => p.start.map fun b => (b - now, if p.entries.isEmpty then g else p.opens q 0)
  let left := match next, stay with
    | some (cut, more), some n => if n < cut then n else cut + more
    | some (cut, more), none => cut + more
    | none, some n => n
    | none, none => g
  t.openMask.toNat.testBit q && decide (g ≤ left)

/-- The first waiting packet of channel `c`, if it is eligible: packets of a channel go in sequence order (R198). -/
def TxIface.headOf (t : TxIface) (c : Nat) : Option TxPacket :=
  match t.queued.find? fun w => w.pkt.chan == c with
  | some w => if w.eligible then some w else none
  | none => none

/-- The packet a queue sends next: among the eligible packets of channels whose credit is not negative, the one with the earliest
model instant, ties to the lower channel (R201). -/
def TxIface.candidate (t : TxIface) (q : Nat) : Option TxPacket :=
  let chans := ((t.queued.filter fun w => w.queue == q).map (·.pkt.chan)).dedup
  let heads := (chans.filterMap t.headOf).filter fun w => decide (0 ≤ (tgetD t.credit w.pkt.chan (0, 0)).1)
  heads.foldl (fun (a : Option TxPacket) w =>
    match a with
    | none => some w
    | some b => if w.pkt.ej < b.pkt.ej || (w.pkt.ej == b.pkt.ej && decide (w.pkt.chan < b.pkt.chan)) then some w else some b) none

/-- Deficit round robin over queues 4 to 15 (R199), at most `fuel` visits: the packet, and the deficits and turn after it. `entering`
says that the queue is visited anew and receives its quantum. -/
def drr (t : TxIface) (ok : Nat → Bool) : Nat → Nat → Bool → Tab Int → Option (TxPacket × Tab Int × Nat)
  | 0, _, _, _ => none
  | fuel + 1, q, entering, def_ =>
    let nextQ := if q = 15 then 4 else q + 1
    match (if ok q then t.candidate q else none) with
    | some w =>
      let d := tgetD def_ q 0 + (if entering then (tgetD t.weight q 8 * 512 : Nat) else 0)
      if (w.pkt.frame : Int) ≤ d then some (w, tset def_ q (d - w.pkt.frame), q)
      else drr t ok fuel nextQ true (tset def_ q d)
    | none => drr t ok fuel nextQ true (if t.queued.any fun w => w.queue == q then def_ else tset def_ q 0)

/-- The frame that an interface sends next: one of firmware's, or a channel's with the deficits and the turn after it. -/
inductive NextFrame where
  | ctl (f : CtlFrame)
  | media (w : TxPacket) (deficit : Tab Int) (next : Nat)
deriving DecidableEq, Repr

/-- What queue `q`, one of the strict ones, sends next. -/
def TxIface.strict (t : TxIface) (q : Nat) : Option NextFrame :=
  if q = 0 ∨ q = 3 then (t.ctl.find? fun f => f.queue == q).map .ctl else (t.candidate q).map fun w => .media w t.deficit t.next

/-- What an interface sends next: queues 0 to 3 by priority, then the weighted group (R199). -/
def State.nextPacket (s : State) (i : Nat) : Option NextFrame :=
  let t := s.txIf i
  match ([0, 1, 2, 3].filterMap fun q => if s.gateOk i q then t.strict q else none).head? with
  | some f => some f
  | none =>
    if t.queued.any fun w => w.eligible && decide (4 ≤ w.queue) then
      (drr t (s.gateOk i) 300 t.next false t.deficit).map fun e => .media e.1 e.2.1 e.2.2
    else none

/-- The clock of a packet's channel, on which its model instant stands (R215). -/
def State.chanNow (s : State) (c : Nat) : Nat := match tget s.chans c with | some ch => ch.clock s.time.now | none => s.time.now

/-- A channel has caught up on an interface once its next packet lies in the future or none waits (R202). -/
def State.catchupDone (s : State) (i c : Nat) : State :=
  let t := s.txIf i
  let more : Bool := match t.queued.find? fun w => w.pkt.chan == c with
    | some w => decide (w.pkt.ej ≤ s.chanNow c)
    | none => false
  if t.catchup.contains c && !more then s.updTx i fun t => { t with catchup := t.catchup.filter (· != c) } else s

/-- Lateness of a packet's departure, in EGR_LATE_MAX and the histogram; a catch-up packet counts as sent and is left out of both
(R198, R206, R412). -/
def State.noteLate (s : State) (i : Nat) (p : Packet) : State :=
  if p.resent || (s.txIf i).catchup.contains p.chan then s.recordMax (Reg.EGR_LATE_MAX p.chan) 30 0
  else
    let late := (s.chanNow p.chan - p.ej) / Config.ticksPerNs
    (s.recordMax (Reg.EGR_LATE_MAX p.chan) 30 late).hist 2 p.chan late

/-- Header fields of a channel's packet on an interface (R194, R254). DESIGN CHOICE (log entry 100): a unit's own address is the first
that NET_ADDRESS gives the interface of the destination's family, its UDP source port free. -/
def State.pktHeader (s : State) (c i : Nat) (o : DefOut) : PktHeader :=
  let path := pathOf o i
  let dst := if path = 0 then o.dstA else o.dstB
  let f := s.iface i
  let own := f.ptpAddr (if isIpv4 dst then 0 else 1)
  let service := ((s.grp.service.find? fun e => e.1 == i).map (·.2)).getD 0
  { mac := f.mac.getD 0, vid := if path = 0 then o.vidA else o.vidB, src := if o.srcMode = 0 then own else service, dst := dst
    srcPort := if o.srcMode = 0 then Config.udpSource c else o.udpDst, dstPort := o.udpDst, dscp := o.dscp, hops := o.hopLimit
    pt := o.pt, ssrc := o.ssrc }

/-- Firmware's frame leaves; a Delay_Req's transmit timestamp is the instant it leaves (R207, R218). -/
def State.sendFrame (s : State) (i : Nat) (f : CtlFrame) : State :=
  let s := s.updTx i fun t => { t with
    ctl := t.ctl.erase f, held := tset t.held f.queue (tgetD t.held f.queue 0 - f.frame) }
  let s := match f.what with
    | .delayReq p q _ _ =>
      { s with time := s.time.setPort p { s.time.port p with delayReq := some (q, s.egressStamp i) } }
    | _ => s
  ((s.bump (Reg.NET_TX_FRAMES i)).pmuEvent 7 1).emit (.reply i f.what)

/-- A channel's packet leaves: its credit falls by what the shaper's send slope takes (R201). -/
def State.sendMedia (s : State) (i : Nat) (w : TxPacket) (def_ : Tab Int) (next : Nat) : State :=
  let p := w.pkt
  let s := s.noteLate i p
  let s := s.dequeue i w
  let bits := (p.frame + 20) * 8
  let rate := s.ifRate i
  let cost : Int := match tget s.chans p.chan with
    | some ch =>
      let sl := shaperRate ch.cfg (pathOf ch.cfg.out i)
      (bits * 2 ^ 20 : Nat) - ((sl * bits / (rate * 1000000000) : Nat) : Int)
    | none => 0
  let done := s.time.elapsed + bits * Config.ticksPerNs / rate
  let s := s.updTx i fun t => { t with
    deficit := def_, next := next
    credit := tset t.credit p.chan ((tgetD t.credit p.chan (0, 0)).1 - cost, done) }
  let s := match tget s.chans p.chan with
    | some ch => s.emit (.packet i (s.pktHeader p.chan i ch.cfg.out) p)
    | none => s
  let s := ((s.bump (Reg.NET_TX_FRAMES i)).pmuEvent 7 1).packetDone p.chan p.seq
  s.catchupDone i p.chan

/-- PACKET_TRANSMIT (R199 to R203, R218, R382): an interface sends its next frame, `held` being the level of the egress buffer in
bytes; after a fatal error it sends idles (R12, R420). -/
def execPacketTransmit (i held : Nat) (s : State) : Host.Outcome State Fault Refusal :=
  .next (
    let s := (s.panicLevel 1 held).settleCredits i
    if !(s.iface i).linkUp || s.dev.fatal then s
    else
      match s.nextPacket i with
      | none => s
      | some (.ctl f) => s.sendFrame i f
      | some (.media w def_ next) => s.sendMedia i w def_ next)

/-- EGR_LATE_MAX_READ (R206). -/
def execEgrLateMaxRead (i : Nat) (s : State) : Host.Outcome State Fault Refusal :=
  .next (if i < 64 then s.readClear (Reg.EGR_LATE_MAX i) else s.readReserved)

/-- RC_HEADROOM_MIN_READ (R98). -/
def execRcHeadroomMinRead (c : Nat) (s : State) : Host.Outcome State Fault Refusal :=
  .next (if c < 64 then s.readClear (Reg.RC_HEADROOM_MIN c) else s.readReserved)

end Sys2Proof.Machine
end

