-- ==== Sys2Proof/Machine/Layers.lean ====
section
/-!
DEFINITION. Memory of channels and surfaces (R346, R374), flip groups and fences (R142, R143), the cursor's registers (R147), the
protected layer's commands (R148, R149) and tone-mapping tables (R153); the time rule of R104.
-/
namespace Sys2Proof.Machine

/-! ## The channel heap (R373, R374) -/

/-- Addresses of an octet that the channel heap may use: from, and up to but not including. -/
def octetSpan (stack octet : Nat) : Nat × Nat :=
  let b := stack * 2 ^ 34 + octet * 2 ^ 32
  (if octet = 0 then b + 2 ^ 30 else b, b + 2 ^ 32)

/-- The lowest address from `a` at which `size` bytes fit below `limit` between the buffers listed. -/
def firstGap (size limit : Nat) : Tab (Nat × Nat) → Nat → Option Nat
  | [], a => if a + size ≤ limit then some a else none
  | (b, n, _) :: r, a =>
    if b + n ≤ a then firstGap size limit r a
    else if a + size ≤ b ∧ a + size ≤ limit then some a
    else firstGap size limit r (b + n)

/-- A place in one octet: the lowest address with room. -/
def placeInOctet (heap : Tab (Nat × Nat)) (stack octet size : Nat) : Option Nat :=
  firstGap size (octetSpan stack octet).2 heap (octetSpan stack octet).1

/-- A place in the first octet of a list that has room. -/
def placeIn (heap : Tab (Nat × Nat)) (stack size : Nat) : List Nat → Option Nat
  | [] => none
  | o :: r =>
    match placeInOctet heap stack o size with
    | some a => some a
    | none => placeIn heap stack size r

/-- The octets in rotation from `o`. -/
def octetsFrom (o : Nat) : List Nat := (List.range 4).map fun i => (o + i) % 4

/-- Places buffers of the given sizes on a stack in rotation, the first at octet `turn` (R374). -/
def placeBuffers (owner stack : Nat) : List Nat → Tab (Nat × Nat) → Nat → Option (Tab (Nat × Nat))
  | [], heap, _ => some heap
  | n :: r, heap, turn =>
    match placeIn heap stack n (octetsFrom turn) with
    | some a => placeBuffers owner stack r (tset heap a (n, owner)) (turn + 1)
    | none => none

/-- The buffers of channel `c` (R30, R374): source ring, DPB pictures and bitstream on stack c mod 2, the proof store on the
other. -/
def placeChannel (heap : Tab (Nat × Nat)) (c : Nat) (m : DefMain) (r : DefRefs) : Option (Tab (Nat × Nat)) :=
  let pic := roundUp (picBytes m) 4096
  match placeBuffers c (c % 2) (List.replicate (2 + r.nDpb) pic ++ [64 * 2 ^ 20]) heap (c / 2 % 4) with
  | some h => placeBuffers c (1 - c % 2) (List.replicate r.nDpb pic) h (c / 2 % 4)
  | none => none

/-- Frees every buffer of an owner. -/
def freeOwner (heap : Tab (Nat × Nat)) (owner : Nat) : Tab (Nat × Nat) := tfilter heap fun _ e => e.2 != owner

/-! ## The time rule of the timed commands (R35, R104) -/

/-- The least instant at which a timed command of a channel may take effect: t_exec + 2 × Tp, in ticks of its clock. -/
def State.timeLimit (s : State) (ch : Chan) : Nat := ch.clock s.time.now + 2 * ch.cfg.main.tp

/-- A timed command's time field is in range; on a group member it may not be zero (R226, R319). -/
def State.timeOk (s : State) (f : TimeField) : Bool := f.ok && !(s.member && f.zero)

/-- A time field in ticks, 0 for "at once". -/
def State.fieldTicks (s : State) (f : TimeField) : Nat := nsTicks (timeNs f s.time)

/-- The timestamp is non-zero and earlier than the limit: E_TIMEOUT (R104). -/
def State.tooEarly (s : State) (ch : Chan) (f : TimeField) : Bool := !f.zero && decide (s.fieldTicks f < s.timeLimit ch)

/-- The picture of the rule: the first whose t0 is at or after both, from the start picture on when ARMED. -/
def State.timedPic (s : State) (ch : Chan) (f : TimeField) : Nat :=
  let n := ch.picAt (max (s.fieldTicks f) (s.timeLimit ch))
  if ch.st == .armed then max n ch.startPic else n

/-- A channel's state is one of a list; false when FREE (R327). -/
def State.chanIn (s : State) (c : Nat) (l : List ChanState) : Bool :=
  match tget s.chans c with
  | some ch => l.contains ch.st
  | none => false

/-- The channel of a layer or configuration command is FREE, or resyncs on a JOINING member: E_STATE (R326, R327). -/
def State.chanRefused (s : State) (c : Nat) : Bool := !(thas s.chans c) || s.resyncing c

/-! ## Surfaces (R135, R346) -/

/-- Tiles of an STF surface (R139). -/
def stfTiles (w h : Nat) : Nat := cdiv w 32 * cdiv h 8

/-- SURFACE_ALLOC's fields are in range (Table 16-12). -/
def surfaceArgOk (p : SurfaceAllocArg) : Bool :=
  (decide (p.owner < 64) || (p.owner == 0xFF && p.kind == 4)) && decide (p.kind ≤ 4)
    && (if p.kind = 4 then p.width == 0 && p.height == 0 && decide (1 ≤ p.bytes) && decide (p.bytes ≤ 268435456)
        else decide (1 ≤ p.width) && decide (p.width ≤ 7680) && decide (1 ≤ p.height) && decide (p.height ≤ 4320)
          && (if kindStf p.kind then decide (4 * stfTiles p.width p.height ≤ p.bytes) else p.bytes == 0))

/-- The size of a surface before rounding. -/
def surfaceSize (p : SurfaceAllocArg) : Nat :=
  if p.kind = 4 ∨ kindStf p.kind then p.bytes else 4 * p.width * p.height

/-- The stack a surface lies on (R135, R346). -/
def surfaceStack (owner : Nat) : Nat := if owner = 0xFF then 0 else owner % 2

/-- SURFACE_ALLOC (R135, R346, R374). -/
def State.doSurfaceAlloc (s : State) (p : SurfaceAllocArg) : Answer :=
  let n := roundUp (surfaceSize p) 4096
  let place := placeIn s.surf.heap (surfaceStack p.owner) n (octetsFrom 0)
  s.checked [
      (!(surfaceArgOk p), eBadParam),
      (p.owner != 0xFF && s.chanRefused p.owner, eState),
      (place.isNone, eNoCapacity)] fun s =>
    let a := place.getD 0
    let h := s.surf.nextHandle
    let f : Surface := ⟨p.owner, p.kind, p.width, p.height, n, surfaceSize p, a⟩
    { s with surf := { s.surf with
        surfs := tset s.surf.surfs h f, nextHandle := h + 1, heap := tset s.surf.heap a (n, 64 + h) } }.reply
      (leBytes 4 h ++ leBytes 4 n ++ leBytes 8 a)

/-- A pending flip group: one not yet reported as applied (R142, R146). -/
def Chan.pendingFlips (ch : Chan) : List FlipGroup := ch.layers.flips.filter fun g => !g.told

/-- Something uses a surface (R135): a front state, a flip group on its way, an image write that reads it. -/
def State.surfaceUsed (s : State) (h : Nat) : Bool :=
  (s.chans.any fun e =>
    (e.2.layers.front.any fun l => l.2.surface == h)
      || e.2.layers.flips.any fun g => g.arg.updates.any fun u => u.surface == h)
    || (match s.dev.fwWrite with | some (_, f, _, _) => f == h | none => false)

/-- SURFACE_FREE (R135). -/
def State.doSurfaceFree (s : State) (h : Nat) : Answer :=
  let owner := match tget s.surf.surfs h with | some f => f.owner | none => 0xFF
  s.checked [
      (!(thas s.surf.surfs h), eBadParam),
      ((owner != 0xFF && s.chanRefused owner) || s.surfaceUsed h, eState)] fun s =>
    { s with surf := { s.surf with surfs := tdel s.surf.surfs h, heap := freeOwner s.surf.heap (64 + h) } }.done

/-! ## Flip groups and fences (R142, R143) -/

/-- A surface suits a layer of a channel (R134, R142, R346). -/
def State.surfaceSuits (s : State) (c layer h : Nat) : Bool :=
  match tget s.surf.surfs h with
  | some f => f.owner == c && f.kind != 4 && (layer != 5 || (f.width == 256 && f.height == 256))
  | none => false

/-- A position is in range and its x even (R134). -/
def positionOk (x y : Int) : Bool :=
  decide (-8192 ≤ x) && decide (x ≤ 8191) && decide (-8192 ≤ y) && decide (y ≤ 8191) && x % 2 == 0

/-- One update of a submission is in range (R134, R142, R347). -/
def State.updateOk (s : State) (c : Nat) (u : FlipUpdate) : Bool :=
  decide (1 ≤ u.layer) && decide (u.layer ≤ 5) && decide (u.enable ≤ 1) && decide (u.ga ≤ 1023) && positionOk u.x0 u.y0
    && ((u.enable == 0 && u.surface == 0) || s.surfaceSuits c u.layer u.surface)

/-- FLIP_SUBMIT's fields are in range (R142, R347). -/
def State.flipArgOk (s : State) (p : FlipSubmitArg) : Bool :=
  decide (p.channel < 64) && decide (p.id < 16) && decide (1 ≤ p.updates.length) && decide (p.updates.length ≤ 5)
    && decide (p.fences.length ≤ 8) && (p.fences.all fun f => decide (f < 256)) && decide (1 ≤ p.cancelAfter)
    && decide (p.cancelAfter ≤ 255) && p.notBefore.ok && (p.updates.all (s.updateOk p.channel))
    && decide ((p.updates.map (·.layer)).Nodup)

/-- A fifth group, a pending id, or a layer that a pending group names (R142). -/
def Chan.flipBusy (ch : Chan) (p : FlipSubmitArg) : Bool :=
  let g := ch.pendingFlips
  decide (4 ≤ g.length) || (g.any fun x => x.arg.id == p.id)
    || g.any fun x => x.arg.updates.any fun u => p.updates.any fun v => v.layer == u.layer

/-- FLIP_SUBMIT (R142, R144). -/
def State.doFlipSubmit (s : State) (p : FlipSubmitArg) : Answer :=
  s.checked [
      (!(s.flipArgOk p), eBadParam),
      (s.chanRefused p.channel, eState),
      ((match tget s.chans p.channel with | some ch => ch.flipBusy p | none => false), eBusy)] fun s =>
    (s.updChan p.channel fun ch =>
      let g : FlipGroup := { arg := p, tExec := ch.clock s.time.now, notBefore := s.fieldTicks p.notBefore }
      { ch with layers := { ch.layers with flips := ch.layers.flips ++ [g] } }).done

/-- LYR_FENCE_SIGNAL (R143): a fence already set keeps its instant. -/
def execLyrFenceSignal (w : Word) (s : State) : Host.Outcome State Fault Refusal :=
  .next (s.hostWrite Reg.LYR_FENCE_SIGNAL fun s =>
    let n := wfield w 7 0
    if thas s.surf.fences n then s else { s with surf := { s.surf with fences := tset s.surf.fences n s.time.now } })

/-- LYR_FENCE_RESET (R143). -/
def execLyrFenceReset (w : Word) (s : State) : Host.Outcome State Fault Refusal :=
  .next (s.hostWrite Reg.LYR_FENCE_RESET fun s =>
    { s with surf := { s.surf with fences := tdel s.surf.fences (wfield w 7 0) } })

/-! ## Cursor (R147) -/

/-- A signed field of 14 bits. -/
def signed14 (v : Nat) : Int := if v < 8192 then v else (v : Int) - 16384

/-- x of a cursor word, bit 0 ignored. -/
def curX (w : Word) : Int := signed14 (wfield w 13 1 * 2)

/-- y of a cursor word. -/
def curY (w : Word) : Int := signed14 (wfield w 29 16)

/-- LYR_CUR_POS (R147): it takes effect at the first boundary after this instant. -/
def execLyrCurPos (c : Nat) (w : Word) (s : State) : Host.Outcome State Fault Refusal :=
  .next (s.hostWrite (Reg.LYR_CUR_POS 0) fun s => s.onChan c fun ch s =>
    (s.wr (Reg.LYR_CUR_POS c) (w &&& 0x3FFF3FFF)).updChan c fun _ =>
      { ch with layers := { ch.layers with curReg := some (curX w, curY w, ch.clock s.time.now) } })

/-- A push that is discarded is counted, with its sticky bits (R147). -/
def State.rejectPush (s : State) (c : Nat) (mask : Word) : State := (s.bump (Reg.LYR_CUR_REJECTS c)).sticky (Reg.LYR_STATUS c) mask

/-- LYR_CUR_QUEUE (R147): pushes an entry with the time in LYR_CUR_TIME_S and LYR_CUR_TIME_NS. -/
def execLyrCurQueue (c : Nat) (w : Word) (s : State) : Host.Outcome State Fault Refusal :=
  .next (s.hostWrite (Reg.LYR_CUR_QUEUE 0) fun s => s.onChan c fun ch s =>
    let ns := (s.rd (Reg.LYR_CUR_TIME_NS c)).toNat
    let at_ := nsTicks (resolveSec (s.rd (Reg.LYR_CUR_TIME_S c)).toNat s.time.sec * 1000000000 + ns)
    let order := decide (1000000000 ≤ ns) || (match ch.layers.lastPush with | some t => decide (at_ < t) | none => false)
    let full := decide (16 ≤ ch.layers.cursorQ.length)
    if order || full then s.rejectPush c ((if order then 0x40000 else 0) ||| (if full then 0x80000 else 0))
    else
      let e : CursorEntry := ⟨at_, curX w, curY w, wbit w 14⟩
      s.updChan c fun _ => { ch with layers := { ch.layers with cursorQ := ch.layers.cursorQ ++ [e], lastPush := some at_ } })

/-- LYR_FLIP_RESULT_READ (R146): the word, then cleared. -/
def execLyrFlipResultRead (c : Nat) (s : State) : Host.Outcome State Fault Refusal :=
  .next (if c < 64 then s.readClear (Reg.LYR_FLIP_RESULT c) else s.readReserved)

/-! ## Protected layer (R148, R149, R327, R348) -/

/-- A check unit reads bytes of HBM: their poison fails the check (R407). -/
def State.rangePoisoned (s : State) (a n : Nat) : Bool :=
  s.mem.poison.any fun e => decide (a < 32 * e.1 + 32) && decide (32 * e.1 < a + n)

/-- CRC-32C of bytes of HBM matches, with no poison among them. -/
def State.crcMatches (s : State) (a n : Nat) (crc : Word) : Bool :=
  !(s.rangePoisoned a n) && crc32c (Mem.read s.mem.hbm a n) == crc

/-- Bytes of the protected layers loaded, over all channels (R148). -/
def State.protBytes (s : State) : Nat :=
  sumNat (s.chans.map fun e => match e.2.layers.prot with | some p => p.size | none => 0)

/-- The channel codes pictures or is ARMED: a timed layer command names its picture at once (R327). -/
def ChanState.timed (t : ChanState) : Bool := t.active

/-- The picture that a timed layer command reports and holds: none, reported as 0, in DEFINED and STOPPED (R327). -/
def State.layerCmdPic (s : State) (ch : Chan) (f : TimeField) : Option Nat :=
  if ch.st.timed then some (s.timedPic ch f) else none

/-- The picture index a completion reports. -/
def reportPic (ch : Chan) (n : Option Nat) : List Byte := leBytes 8 (match n with | some k => ch.index k | none => 0)

/-- A time resolved as a field of whole seconds: what a layer command keeps until its channel runs (R319, R327). -/
def State.keepTime (s : State) (ch : Chan) (f : TimeField) : TimeField :=
  let ns := max (timeNs f s.time) (cdiv (s.timeLimit ch) Config.ticksPerNs)
  ⟨ns % 1000000000, ns / 1000000000⟩

/-- A surface holds what PROTECTED_LOAD may name (R148). -/
def State.protSource (s : State) (c h : Nat) : Option Surface :=
  match tget s.surf.surfs h with
  | some f => if f.owner = c ∧ f.kind ≠ 4 then some f else none
  | none => none

/-- Every image of a protected layer has passed its check, the failed ones once written again (R148). -/
def protCopied (p : ProtectedLoadArg) : Bool :=
  (p.checks.cacheOk || p.again.cacheOk) && (p.checks.copyAOk || p.again.copyAOk) && (p.checks.copyBOk || p.again.copyBOk)

/-- PROTECTED_LOAD (R148, R327, R348). -/
def State.doProtectedLoad (s : State) (x : CmdCtx) (p : ProtectedLoadArg) : Answer :=
  let src := s.protSource p.channel p.surface
  let size := match src with | some f => f.size | none => 0
  let addr := match src with | some f => f.addr | none => 0
  s.checked [
      (!(x.roles.testBit 3), eNotAuthorised),
      (decide (63 < p.channel) || !(positionOk p.x0 p.y0) || !(s.timeOk p.time) || src.isNone, eBadParam),
      (s.chanRefused p.channel || (match tget s.chans p.channel with | some ch => ch.layers.prot.isSome | none => false), eState),
      ((match tget s.chans p.channel with | some ch => s.tooEarly ch p.time | none => false), eTimeout),
      (decide (1048576 < s.protBytes + size), eNoCapacity),
      (!(s.crcMatches addr size p.crc) || !(protCopied p), eCrc)] fun s =>
    match tget s.chans p.channel, src with
    | some ch, some f =>
      let n := s.layerCmdPic ch p.time
      let b := Mem.read s.mem.hbm f.addr f.size
      let l : Protected :=
        { x0 := p.x0, y0 := p.y0, width := f.width, height := f.height, kind := f.kind
          cache := b, copyA := b, copyB := b, crc := p.crc, size := f.size, from_ := n, time := s.keepTime ch p.time }
      (s.updChan p.channel fun ch => { ch with layers := { ch.layers with prot := some l } }).reply (reportPic ch n)
    | _, _ => s.done

/-- A protected layer that may be removed: loaded or dropped, with no removal pending. -/
def Chan.removable (ch : Chan) : Bool := match ch.layers.prot with | some p => p.remove.isNone | none => false

/-- PROTECTED_REMOVE (R149, R327). -/
def State.doProtectedRemove (s : State) (x : CmdCtx) (p : ChtArg) : Answer :=
  let c := p.object
  s.checked [
      (!(x.roles.testBit 3), eNotAuthorised),
      (decide (63 < c) || p.item != 0 || !(s.timeOk p.time), eBadParam),
      (s.chanRefused c || (match tget s.chans c with | some ch => !ch.removable | none => false), eState),
      ((match tget s.chans c with | some ch => s.tooEarly ch p.time | none => false), eTimeout)] fun s =>
    match tget s.chans c with
    | some ch =>
      let n := s.layerCmdPic ch p.time
      let f := s.keepTime ch p.time
      (s.updChan c fun ch => { ch with layers := { ch.layers with
        prot := ch.layers.prot.map fun l => { l with remove := some (n, f) } } }).reply (reportPic ch n)
    | none => s.done

/-! ## Tone-mapping tables (R153) -/

/-- Length of a table buffer (Table 7-7). -/
def tableLength : Nat := 312136

/-- A list of bytes is all zero. -/
def allZero (l : List Byte) : Bool := l.all (· == 0)

/-- Every point of the curves keeps bits [31:20] at 0 (R153). -/
def pointsOk : List Byte → Bool
  | _ :: _ :: c :: d :: r => decide (c.toNat < 16) && d == 0 && pointsOk r
  | _ => true

/-- Every node of the LUT keeps bits [63:60] at 0 (R153). -/
def nodesOk : List Byte → Bool
  | _ :: _ :: _ :: _ :: _ :: _ :: _ :: h :: r => decide (h.toNat < 16) && nodesOk r
  | _ => true

/-- A table buffer's length and reserved bits are right (R153). -/
def tableFormOk (b : List Byte) : Bool :=
  leNat (b.take 4) == tableLength && allZero ((b.drop 8).take 56) && pointsOk ((b.drop 64).take 24576) && nodesOk (b.drop 24640)

/-- The buffer that TONEMAP_LOAD names (R153). -/
def State.tableSource (s : State) (c h : Nat) : Option Surface :=
  match tget s.surf.surfs h with
  | some f => if f.owner = c ∧ f.kind = 4 ∧ tableLength ≤ f.bytes then some f else none
  | none => none

/-- TONEMAP_LOAD (R153, R348): the new table enters the shadow copy. -/
def State.doTonemapLoad (s : State) (p : TonemapLoadArg) : Answer :=
  let src := s.tableSource p.channel p.surface
  let addr := match src with | some f => f.addr | none => 0
  let b := Mem.read s.mem.hbm addr tableLength
  s.checked [
      (decide (63 < p.channel) || src.isNone || !(tableFormOk b), eBadParam),
      (s.chanRefused p.channel, eState),
      (s.rangePoisoned addr tableLength || (crc32c (b.drop 64)).toNat != leNat ((b.drop 4).take 4), eCrc)] fun s =>
    (s.updChan p.channel fun ch => { ch with shadow := { ch.shadow with table := some b } }).done

end Sys2Proof.Machine
end

