-- ==== Sys2Proof/Machine/Channel.lean ====
section
/-!
DEFINITION. The commands of channels (chapter 2; 16 R342 to R345): definition with its checks (R24, R28, R77, R99, R100, R151, R194)
and its reservations (R26, R29, R30, R200), life cycle (R34 to R36), running configuration (R10, R344), refresh and marks (R104,
R105, R108), regions (R115), and external streams (R125, R126).
-/
namespace Sys2Proof.Machine

/-! ## Ranges of CHANNEL_DEFINE -/

/-- Highest profile of a codec (Table 16-9). -/
def profileOk (codec profile : Nat) : Bool := if codec = 0 then decide (profile ≤ 2) else codec == 1 && decide (profile ≤ 1)

/-- A format and rate are a row of Table 2-2, with the reserved bits 0. -/
def formatOk (f : FormatArg) (rate : Nat) : Bool := f.fmtRsv == 0 && (slotsOf f rate).isSome

/-- k of a definition. -/
def mainK (m : DefMain) : Nat := kOf ((slotsOf m.format m.rateId).getD 1)

/-- The channel parameters are in range (Table 2-1, R24). -/
def mainOk (m : DefMain) : Bool :=
  formatOk m.format m.rateId && (m.inputDepth == 10 || m.inputDepth == 12)
    && (m.ctuSize == 64 || (m.ctuSize == 32 && decide (m.format.lines ≤ 1080))) && profileOk m.codec m.profile
    && (decide (m.renditionOf < 64) || m.renditionOf == 0xFF) && decide (m.inputOffset ≤ 20000000) && decide (m.tTol ≤ 2000000)
    && (m.dPipe == 0 || (decide (dPipeMinOf m (mainK m) + m.tTol ≤ m.dPipe) && decide (m.dPipe ≤ 100000000)))

/-- The rate parameters with their default meanings resolved (R342). -/
def resolveRate (m : DefMain) (q : DefRate) : DefRate :=
  let d := if q.dCpb = 0 then cdiv (2 * m.tp) Config.ticks90k else q.dCpb
  { q with
    dCpb := d
    avgRate := if q.rcMode = 1 ∧ q.avgRate = 0 then q.bitRate else q.avgRate
    cpbSize := if q.cpbSize = 0 then roundUp (cdiv (q.bitRate * d) 90000) 16 else q.cpbSize }

/-- A bit rate is in its range (Table 4-1). -/
def bitRateOk (r : Nat) : Bool := decide (1000000 ≤ r) && r % 64 == 0

/-- Lowest QP of a coded depth (R76). -/
def qpLow (m : DefMain) : Int := -6 * ((m.codedDepth : Int) - 8)

/-- MaxCPB in bits of Level 6.2 High tier for the profile (R77). PRESUMED from the standards' tables (log entry 13). -/
def maxCpb (m : DefMain) : Nat :=
  if m.codec = 0 then (if m.profile = 0 then 880000000 else if m.profile = 1 then 1466400000 else 1760000000)
  else (if m.profile = 0 then 880000000 else 2200000000)

/-- The resolved rate parameters are in range and carry a bare-pole picture (Table 4-1, R77). -/
def rateOk (m : DefMain) (q : DefRate) : Bool :=
  decide (q.rcMode ≤ 1) && bitRateOk q.bitRate && decide (q.bitRate ≤ maxBr m)
    && (if q.rcMode = 0 then q.avgRate == 0 && q.avgWindow == 0
        else bitRateOk q.avgRate && decide (q.avgRate ≤ q.bitRate) && decide (8 ≤ q.avgWindow) && decide (q.avgWindow ≤ 255))
    && decide (cdiv m.tRow Config.ticks90k ≤ q.dCpb) && decide (q.dCpb ≤ 4 * m.tp / Config.ticks90k)
    && q.cpbSize % 16 == 0 && decide (cdiv (q.bitRate * q.dCpb) 90000 ≤ q.cpbSize) && decide (q.cpbSize ≤ maxCpb m)
    && decide (q.takeoverSlack ≤ q.dCpb) && decide (16 ≤ q.overshoot) && decide (q.overshoot ≤ 64)
    && decide (qpLow m ≤ q.qpMin) && decide (q.qpMin ≤ q.qpMax) && decide (q.qpMax ≤ qpTop m.codec)
    && decide (q.qpMin ≤ q.initQp) && decide (q.initQp ≤ q.qpMax)
    && decide (m.pBp ≤ bitsIn q.bitRate m.tp)
    && decide (m.pBp + 8 ≤ bitsIn q.bitRate ((q.dCpb - q.takeoverSlack) * Config.ticks90k - m.tRow))

/-- Refresh interval and G suit the mode (Table 5-1, R99). DESIGN CHOICE (log entry 108): in mode none, for which Table 5-1 gives no
range, every interval is accepted. -/
def refreshOk (m : DefMain) (mode interval g : Nat) : Bool :=
  decide (4 ≤ g) && decide (g ≤ min 32 m.ctus) && decide (interval ≤ 65535)
    && (if mode = 1 then decide (8 ≤ interval) else if mode = 2 then decide (g ≤ interval) else true)
    && (!m.format.interlaced || (interval % 2 == 0 && g % 2 == 0))

/-- The reference parameters are in range (Table 5-1, R99, R100). -/
def refsOk (m : DefMain) (r : DefRefs) : Bool :=
  decide (1 ≤ r.stRefs) && decide (r.ltSlots ≤ 4) && decide (r.nDpb ≤ nCap m.format) && decide (r.anchorSlots ≤ r.ltSlots)
    && decide (1 ≤ r.anchorDelta) && decide (r.anchorDelta ≤ 255) && decide (1 ≤ r.anchorShare) && decide (r.anchorShare ≤ 256)
    && decide (2 ≤ r.anchorHold) && decide (r.anchorHold ≤ 255) && decide (r.refreshMode ≤ 2)
    && refreshOk m r.refreshMode r.refreshInterval r.sweepG
    && decide (4 ≤ r.rejoinG) && decide (r.rejoinG ≤ min 32 m.ctus) && (!m.format.interlaced || r.rejoinG % 2 == 0)
    && decide (0 ≤ r.protectedFloor) && decide (r.protectedFloor ≤ qpTop m.codec)

/-- A gain is in its range (Table 7-5). -/
def gainOk (g : Nat) : Bool := decide (256 ≤ g) && decide (g ≤ 65535)

/-- The colour parameters are in range (Table 7-5). -/
def toneOk (t : DefTone) : Bool :=
  decide (t.inSystem ≤ 2) && decide (t.outSystem ≤ 2) && decide (t.tmMode ≤ 1) && decide (t.adapt ≤ 1)
    && decide (1 ≤ t.adaptTarget) && decide (t.adaptTarget ≤ 1048575) && decide (1 ≤ t.adaptSpeed) && decide (t.adaptSpeed ≤ 256)
    && gainOk t.gainMin && gainOk t.gainMax && decide (t.gainMin ≤ t.gainMax)

/-- An interface may carry a channel: it exists and is enabled (R194). -/
def State.outIfOk (s : State) (i : Nat) : Bool := s.ifExists i && (s.iface i).enabled

/-- Audio channel pairs of the programmes (R196). -/
def audioPairs (o : DefOut) : Nat := sumNat (o.progChannels.map (· / 2))

/-- A PID is in its range (Table 10-1). -/
def pidOk (p : Nat) : Bool := decide (0x20 ≤ p) && decide (p ≤ 0x1FFE)

/-- The fields of ts_rtp are in range and the rate carries the stream (Table 10-1, R196). -/
def tsOk (o : DefOut) (bitRate : Nat) : Bool :=
  let pids := o.pidPmt :: o.pidVideo :: o.pidAnc :: o.pidAudio
  o.pt == 33 && o.maxPayload == 0 && decide (2000000 ≤ o.tsRate) && decide (o.tsRate ≤ 900000000) && o.tsRate % 8 == 0
    && pids.all pidOk && decide pids.Nodup && decide (o.programmes ≤ 8)
    && ((o.progChannels.take o.programmes).all fun n => n == 2 || n == 4 || n == 6 || n == 8)
    && ((o.progChannels.drop o.programmes).all (· == 0))
    && decide (103 * (bitRate * 188 + 184 * (2750000 * audioPairs o + 2000000)) ≤ 18400 * o.tsRate)

/-- The fields of rtp_es are in range and those of ts_rtp 0 (Table 10-1, R342). -/
def esOk (o : DefOut) : Bool :=
  decide (96 ≤ o.pt) && decide (o.pt ≤ 127) && decide (512 ≤ o.maxPayload) && decide (o.maxPayload ≤ 8192) && o.maxPayload % 4 == 0
    && o.tsRate == 0 && o.pidPmt == 0 && o.pidVideo == 0 && o.pidAnc == 0 && o.pidAudio.all (· == 0) && o.programmes == 0
    && o.progChannels.all (· == 0)

/-- The egress parameters are in range (Table 10-1, R194, R342). -/
def State.outOk (s : State) (o : DefOut) (bitRate : Nat) : Bool :=
  decide (o.encap ≤ 1) && decide (o.srcMode ≤ 1) && s.outIfOk o.outIfA && o.dstA != 0
    && (if o.outIfB = 0xFF then o.dstB == 0 && o.vidB == 0
        else s.outIfOk o.outIfB && o.outIfB / 4 != o.outIfA / 4 && o.dstB != 0)
    && decide (1024 ≤ o.udpDst) && decide (o.udpDst ≤ 65535) && decide (o.vidA ≤ 4094) && decide (o.vidB ≤ 4094)
    && decide (o.dscp ≤ 63) && decide (1 ≤ o.hopLimit) && decide (o.hopLimit ≤ 255) && decide (o.seqInit ≤ 65535)
    && (o.queue == 1 || o.queue == 2 || (decide (4 ≤ o.queue) && decide (o.queue ≤ 15)))
    && (if o.encap = 1 then tsOk o bitRate else esOk o)
    && (o.srcMode == 0 || !s.member || (outIfs o).all fun i => s.grp.service.any fun e => e.1 == i)

/-! ## video_flow (R24, R126) -/

/-- The external stream whose first flow entry is `a`. -/
def State.extOf (s : State) (a : Nat) : Option (Nat × ExtStream) := s.ext.find? fun e => e.2.arg.flowA == a

/-- Another channel than `c` names a flow entry as its first video flow, in force or in its shadow copy. -/
def State.namedByOther (s : State) (c a : Nat) : Bool :=
  s.chans.any fun e => e.1 != c && (e.2.active.flowA == a || e.2.shadow.flowA == a)

/-- A flow entry is an ST 2110-20 essence entry for channel `c`, with its path. -/
def State.videoEntry (s : State) (c a : Nat) : Option Nat :=
  match tget s.net.flows a with
  | some f => if f.arg.kind = 1 ∧ f.arg.essence = 0 ∧ f.arg.target = c then some f.arg.path else none
  | none => none

/-- The video flows of a channel that is not a rendition meet their conditions (R24, R126). -/
def State.videoFlowOk (s : State) (c a b : Nat) (m : DefMain) : Bool :=
  match s.extOf a with
  | some (_, e) =>
    b == 0xFFFF && decide (e.arg.format = m.format) && e.arg.rateId == m.rateId && decide (e.arg.codedDepth ≤ m.inputDepth)
      && !(s.namedByOther c a)
  | none =>
    match s.videoEntry c a with
    | some p => b == 0xFFFF || (match s.videoEntry c b with | some q => q != p | none => false)
    | none => false

/-- A rendition matches its source (R28). -/
def renditionMatches (m src : DefMain) (k dPipeSrc : Nat) : Bool :=
  decide (m.format = src.format) && m.rateId == src.rateId && m.inputDepth == src.inputDepth && m.ctuSize == src.ctuSize
    && m.inputOffset == src.inputOffset && m.tTol == src.tTol && dPipeOf m k == dPipeSrc && src.renditionOf == 0xFF

/-- The source of lines is right: the video flows, or the channel a rendition is of (R24, R28, R342). -/
def State.sourceOk (s : State) (c : Nat) (m : DefMain) : Bool :=
  if m.renditionOf = 0xFF then s.videoFlowOk c m.flowA m.flowB m
  else
    m.flowA == 0xFFFF && m.flowB == 0xFFFF &&
      (match tget s.chans m.renditionOf with
      | some ch => renditionMatches m ch.cfg.main (mainK m) ch.dPipe
      | none => false)

/-- Every check of CHANNEL_DEFINE that gives E_BAD_PARAM. -/
def State.defineOk (s : State) (p : ChannelDefineArg) : Bool :=
  decide (p.channel < 64) && mainOk p.main && rateOk p.main (resolveRate p.main p.rate) && refsOk p.main p.refs && toneOk p.tone
    && s.outOk p.out p.rate.bitRate && s.sourceOk p.channel p.main

/-! ## Capacity (R26, R29, R30, R200, R374) -/

/-- Slots of an engine that no channel holds. -/
def State.engineFree (s : State) (e : Nat) : Nat :=
  8 - sumNat (s.chans.map fun c => if c.2.engines.contains e then c.2.slots / c.2.k else 0)

/-- Engines that work. -/
def State.goodEngines (s : State) : List Nat := (List.range 16).filter fun e => !(s.eng.failed.contains e)

/-- The engine with the fewest free slots that still fits, the lowest-numbered among equals. -/
def State.bestFit (s : State) (slots : Nat) : Option Nat :=
  (s.goodEngines.filter fun e => decide (slots ≤ s.engineFree e)).foldl (fun (a : Option Nat) e =>
    match a with
    | none => some e
    | some b => if s.engineFree e < s.engineFree b then some e else some b) none

/-- The placement of R26. -/
def State.placeEngines (s : State) (slots k : Nat) : Option (List Nat) :=
  if 2 ≤ k then
    let whole := s.goodEngines.filter fun e => s.engineFree e == 8
    if k ≤ whole.length then some (whole.take k) else none
  else (s.bestFit slots).map fun e => [e]

/-- Pool bytes that no channel holds (R29). -/
def State.poolFree (s : State) : Nat := 25165824 - sumNat (s.chans.map fun e => e.2.pool)

/-- MiB of a stack's channel heap that no channel holds (R30). -/
def State.heapFree (s : State) (stack : Nat) : Nat :=
  15360 - sumNat (s.chans.map fun e => if e.1 % 2 = stack then e.2.hbm - e.2.hbmProof else e.2.hbmProof)

/-- Both parts of M_hbm fit their stacks (R30). -/
def State.hbmFits (s : State) (c : Nat) (m : DefMain) (r : DefRefs) : Bool :=
  decide (hbmOf m r - hbmProofOf m r ≤ s.heapFree (c % 2)) && decide (hbmProofOf m r ≤ s.heapFree (1 - c % 2))

/-- Sum of the shaper rates of the channels of a queue on an interface, in 2^-20 b/s (R200). -/
def State.queueLoad (s : State) (i q : Nat) : Nat :=
  sumNat (s.chans.map fun e =>
    if e.2.cfg.out.queue = q ∧ (outIfs e.2.cfg.out).contains i then shaperRate e.2.cfg (pathOf e.2.cfg.out i) else 0)

/-- The admission check of R200 on one interface. -/
def State.admits (s : State) (p : ChannelDefineArg) (i : Nat) : Bool :=
  let w := shaperRate p (pathOf p.out i)
  let rate := s.ifRate i * 1000000000 * 2 ^ 20
  let w1 := s.queueLoad i 1 + (if p.out.queue = 1 then w else 0)
  let w2 := s.queueLoad i 2 + (if p.out.queue = 2 then w else 0)
  decide (4 ≤ p.out.queue) || (decide (4 * w1 ≤ 3 * rate) && decide (10 * (w1 + w2) ≤ 9 * rate))

/-- Everything a definition needs fits (R24, R194, R374). -/
def State.fits (s : State) (p : ChannelDefineArg) : Bool :=
  (s.placeEngines ((slotsOf p.main.format p.main.rateId).getD 1) (mainK p.main)).isSome
    && decide (poolOf p.main ≤ s.poolFree) && s.hbmFits p.channel p.main p.refs
    && (placeChannel s.surf.heap p.channel p.main p.refs).isSome && (outIfs p.out).all (s.admits p)

/-! ## CHANNEL_DEFINE, CHANNEL_DELETE -/

/-- The running configuration a definition starts with. -/
def runCfgOf (p : ChannelDefineArg) : RunCfg :=
  { flowA := p.main.flowA, flowB := p.main.flowB, overshoot := p.rate.overshoot, qpMin := p.rate.qpMin, qpMax := p.rate.qpMax
    anchorDelta := p.refs.anchorDelta, anchorShare := p.refs.anchorShare, anchorHold := p.refs.anchorHold, sweepG := p.refs.sweepG
    refreshInterval := p.refs.refreshInterval, protectedFloor := p.refs.protectedFloor, tmMode := p.tone.tmMode
    adapt := p.tone.adapt, adaptSpeed := p.tone.adaptSpeed, adaptTarget := p.tone.adaptTarget, gainMin := p.tone.gainMin
    gainMax := p.tone.gainMax }

/-- The channel that a definition makes, on the engines given (R23, R26, R29 to R32, R243). -/
def chanOf (p : ChannelDefineArg) (engines : List Nat) (now : Nat) : Chan :=
  let m := p.main
  let d := dPipeOf m (mainK m)
  { cfg := { p with rate := resolveRate m p.rate }
    slots := (slotsOf m.format m.rateId).getD 1, k := (mainK m), engines := engines, pool := poolOf m
    hbm := hbmOf m p.refs, hbmProof := hbmProofOf m p.refs, dPipe := d, dPipeMin := dPipeMinOf m (mainK m)
    digestLag := digestLagOf m d, shadow := runCfgOf p, active := runCfgOf p, nextPic := m.picAfter now
    refs := { interval := p.refs.refreshInterval } }

/-- Engines as a mask. -/
def engineMask (l : List Nat) : Nat := sumNat (l.map fun e => 2 ^ e)

/-- Clears every count and sticky bit of a channel (R40, R155, R206, R262). -/
def State.clearChanRegs (s : State) (c : Nat) : State :=
  (((s.clearRegs (0x00400000 + 0x1000 * c) (0x00401000 + 0x1000 * c)).clearRegs (0x00501000 + 0x40 * c)
    (0x00501040 + 0x40 * c)).clearRegs (0x0030A000 + 0x40 * c) (0x0030A040 + 0x40 * c)).clearRegs
    (0x00701000 + 0x20 * c) (0x00701020 + 0x20 * c)

/-- Drops what egress still holds of a channel: packets, credit and catch-up. -/
def State.dropEgress (s : State) (c : Nat) : State :=
  { s with
    tx := tmap s.tx fun _ t => { t with
      queued := t.queued.filter fun w => w.pkt.chan != c
      held := tmap t.held fun q n => n - sumNat ((t.queued.filter fun w => w.pkt.chan == c && w.queue == q).map (·.pkt.frame))
      credit := tdel t.credit c, catchup := t.catchup.filter (· != c) }
    txc := tdel s.txc c
    grp := { s.grp with heldPkts := s.grp.heldPkts.filter fun p => p.chan != c } }

/-- CHANNEL_DEFINE (R23, R24, R342, R343). -/
def State.doChannelDefine (s : State) (p : ChannelDefineArg) : Answer :=
  let c := p.channel
  s.checked [(!(s.defineOk p), eBadParam), (thas s.chans c || s.resyncing c, eState), (!(s.fits p), eNoCapacity)] fun s =>
    let ch := chanOf p ((s.placeEngines ((slotsOf p.main.format p.main.rateId).getD 1) (mainK p.main)).getD []) s.time.now
    let s := (((s.clearChanRegs c).clearMerge c).clearMerge (144 + c)).dropEgress c
    let s := { s with
      surf := { s.surf with heap := (placeChannel s.surf.heap c p.main p.refs).getD s.surf.heap }
      txc := tset s.txc c { nextSeq := p.out.seqInit }
      grp := { s.grp with chans := tset s.grp.chans c { inSync := true, held := [(0, ch.shadow)] } } }
    (s.setChan c ch).reply
      (leBytes 4 ch.dPipe ++ leBytes 4 ch.dPipeMin ++ leBytes 2 (engineMask ch.engines) ++ leBytes 1 ch.slots ++ leBytes 1 ch.k
        ++ leBytes 4 ch.hbm)

/-- A unit that is not a member with every channel FREE: a DETACHED one has role none again (Table 12-10), and R242 ends. -/
def State.settleFree (s : State) : State :=
  if s.chans.isEmpty && !s.member then
    { s with grp := { recSeq := s.grp.recSeq, legA := s.grp.legA, legB := s.grp.legB } }
  else s

/-- CHANNEL_DELETE (R28, R34). -/
def State.doChannelDelete (s : State) (p : ChArg) : Answer :=
  let c := p.object
  s.checked [
      (decide (63 < c) || p.item != 0, eBadParam),
      (!(s.chanIn c [.defined, .stopped]) || s.resyncing c || (s.chans.any fun e => e.2.cfg.main.renditionOf == c), eState)] fun s =>
    let s := (s.clearChanRegs c).dropEgress c
    ({ s with
      chans := tdel s.chans c
      surf := { s.surf with heap := freeOwner s.surf.heap c }
      grp := { s.grp with chans := tdel s.grp.chans c } }.settleFree).done

/-! ## CHANNEL_START, CHANNEL_STOP (R34 to R36) -/

/-- A table is needed and none is loaded (R151). -/
def Chan.tableMissing (ch : Chan) : Bool :=
  ch.shadow.table.isNone && (ch.cfg.tone.inSystem != ch.cfg.tone.outSystem || ch.shadow.tmMode == 1)

/-- A check on a channel; one that does not exist fails none. -/
def State.chanIs (s : State) (c : Nat) (f : Chan → Bool) : Bool :=
  match tget s.chans c with
  | some ch => f ch
  | none => false

/-- CHANNEL_START (R35, R226, R326, R420). -/
def State.doChannelStart (s : State) (p : ChtArg) : Answer :=
  let c := p.object
  s.checked [
      (decide (63 < c) || p.item != 0 || !(s.timeOk p.time), eBadParam),
      (s.dev.fatal || s.grp.role == .detached || !(s.chanIn c [.defined, .stopped]) || s.resyncing c || s.chanIs c Chan.tableMissing, eState),
      (s.chanIs c fun ch => s.tooEarly ch p.time, eTimeout)] fun s =>
    match tget s.chans c with
    | some ch =>
      let n := s.timedPic ch p.time
      (s.setChan c { ch with
        st := .armed, prev := ch.st, startPic := n, startTime := timeNs p.time s.time, stopPic := none
        nextPic := ch.picAfter s.time.now }).reply (leBytes 8 (ch.index n))
    | none => s.done

/-- t_exec + Tp of R36, in ticks. -/
def State.stopLimit (s : State) (ch : Chan) : Nat := ch.clock s.time.now + ch.cfg.main.tp

/-- CHANNEL_STOP (R34, R36, R343). -/
def State.doChannelStop (s : State) (p : ChtArg) : Answer :=
  let c := p.object
  s.checked [
      (decide (63 < c) || p.item != 0 || !(s.timeOk p.time), eBadParam),
      (!(s.chanIn c [.armed, .running]) || s.resyncing c, eState),
      (s.chanIs c fun ch => !p.time.zero && decide (s.fieldTicks p.time < s.stopLimit ch), eTimeout)] fun s =>
    match tget s.chans c with
    | some ch =>
      if ch.st == .armed then
        (((s.setChan c { ch with st := ch.prev, refs := ch.refs.stopped }).cancelMarks c ch)).reply (leBytes 8 (2 ^ 64 - 1))
      else
        let n := max ch.nextPic (ch.picAt (max (s.fieldTicks p.time) (s.stopLimit ch)))
        (s.setChan c { ch with st := .stopping, stopPic := some n }).reply (leBytes 8 (ch.index n - 1))
    | none => s.done

/-! ## CHANNEL_SET, CHANNEL_COMMIT (R10, R241, R344) -/

/-- The shadow copy with the selected fields written (R344). -/
def setFields (q : RunCfg) (p : ChannelSetArg) : RunCfg :=
  let on (i : Nat) : Bool := wbit p.select i
  { q with
    flowA := if on 0 then p.flowA else q.flowA, flowB := if on 0 then p.flowB else q.flowB
    overshoot := if on 1 then p.overshoot else q.overshoot
    qpMin := if on 2 then p.qpMin else q.qpMin, qpMax := if on 3 then p.qpMax else q.qpMax
    anchorDelta := if on 4 then p.anchorDelta else q.anchorDelta
    anchorShare := if on 5 then p.anchorShare else q.anchorShare
    anchorHold := if on 6 then p.anchorHold else q.anchorHold
    sweepG := if on 7 then p.sweepG else q.sweepG
    refreshInterval := if on 8 then p.refreshInterval else q.refreshInterval
    protectedFloor := if on 9 then p.protectedFloor else q.protectedFloor
    tmMode := if on 10 then p.tmMode else q.tmMode, adapt := if on 11 then p.adapt else q.adapt
    adaptSpeed := if on 12 then p.adaptSpeed else q.adaptSpeed
    adaptTarget := if on 13 then p.adaptTarget else q.adaptTarget
    gainMin := if on 14 then p.gainMin else q.gainMin, gainMax := if on 15 then p.gainMax else q.gainMax }

/-- Unselected fields and select bits 16 to 31 are 0 (R344). -/
def setZeros (p : ChannelSetArg) : Bool :=
  let z (i : Nat) (b : Bool) : Bool := wbit p.select i || b
  wfield p.select 31 16 == 0 && z 0 (p.flowA == 0 && p.flowB == 0) && z 1 (p.overshoot == 0) && z 2 (p.qpMin == 0)
    && z 3 (p.qpMax == 0) && z 4 (p.anchorDelta == 0) && z 5 (p.anchorShare == 0) && z 6 (p.anchorHold == 0) && z 7 (p.sweepG == 0)
    && z 8 (p.refreshInterval == 0) && z 9 (p.protectedFloor == 0) && z 10 (p.tmMode == 0) && z 11 (p.adapt == 0)
    && z 12 (p.adaptSpeed == 0) && z 13 (p.adaptTarget == 0) && z 14 (p.gainMin == 0) && z 15 (p.gainMax == 0)

/-- The shadow values after the write are in range and consistent (R344, Tables 4-1, 5-1, 7-5). -/
def shadowOk (d : ChannelDefineArg) (q : RunCfg) : Bool :=
  decide (16 ≤ q.overshoot) && decide (q.overshoot ≤ 64) && decide (qpLow d.main ≤ q.qpMin) && decide (q.qpMin ≤ q.qpMax)
    && decide (q.qpMax ≤ qpTop d.main.codec) && decide (1 ≤ q.anchorDelta) && decide (q.anchorDelta ≤ 255)
    && decide (1 ≤ q.anchorShare) && decide (q.anchorShare ≤ 256) && decide (2 ≤ q.anchorHold) && decide (q.anchorHold ≤ 255)
    && refreshOk d.main d.refs.refreshMode q.refreshInterval q.sweepG && decide (0 ≤ q.protectedFloor)
    && decide (q.protectedFloor ≤ qpTop d.main.codec) && decide (q.tmMode ≤ 1) && decide (q.adapt ≤ 1)
    && decide (1 ≤ q.adaptSpeed) && decide (q.adaptSpeed ≤ 256) && decide (1 ≤ q.adaptTarget) && decide (q.adaptTarget ≤ 1048575)
    && gainOk q.gainMin && gainOk q.gainMax && decide (q.gainMin ≤ q.gainMax)

/-- CHANNEL_SET (R344). -/
def State.doChannelSet (s : State) (p : ChannelSetArg) : Answer :=
  let c := p.channel
  s.checked [
      (decide (63 < c) || !(setZeros p) || (s.chanIs c fun ch =>
        !(shadowOk ch.cfg (setFields ch.shadow p))
          || (wbit p.select 0 && (ch.cfg.main.renditionOf != 0xFF || !(s.videoFlowOk c p.flowA p.flowB ch.cfg.main)))), eBadParam),
      (s.chanRefused c, eState)] fun s =>
    (s.updChan c fun ch => { ch with shadow := setFields ch.shadow p }).done

/-- The video flow in the shadow copy is new and no longer meets its conditions (R126). -/
def State.commitFlowBad (s : State) (c : Nat) (ch : Chan) : Bool :=
  (ch.shadow.flowA != ch.active.flowA || ch.shadow.flowB != ch.active.flowB)
    && !(s.videoFlowOk c ch.shadow.flowA ch.shadow.flowB ch.cfg.main)

/-- A commit advances the generation and keeps the shadow contents of the last four (R241). -/
def GrpChan.commit (g : GrpChan) (q : RunCfg) : GrpChan :=
  let n := (g.gen + 1) % 2 ^ 32
  { g with gen := n, held := takeLast 4 (tset g.held n q) }

/-- CHANNEL_COMMIT (R10, R126, R241, R343, R419). -/
def State.doChannelCommit (s : State) (p : ChArg) : Answer :=
  let c := p.object
  s.checked [
      (decide (63 < c) || p.item != 0 || (s.chanIs c fun ch => s.commitFlowBad c ch), eBadParam),
      (s.chanRefused c || (s.chanIs c fun ch => ch.tablesBad), eState)] fun s =>
    match tget s.chans c with
    | some ch =>
      let s := (s.updGch c fun g => g.commit ch.shadow).setChan c { ch with commitDue := true }
      s.reply (leBytes 4 (s.gch c).gen)
    | none => s.done

/-! ## CHANNEL_REFRESH, LTR_MARK, LTR_RELEASE (R104, R105, R108) -/

/-- CHANNEL_REFRESH (R108). -/
def State.doChannelRefresh (s : State) (p : ChtArg) : Answer :=
  let c := p.object
  s.checked [
      (decide (63 < c) || p.item != 0 || !(s.timeOk p.time), eBadParam),
      (s.grp.role == .detached || !(s.chanIn c [.armed, .running]) || s.resyncing c, eState),
      (s.chanIs c fun ch => s.tooEarly ch p.time, eTimeout)] fun s =>
    match tget s.chans c with
    | some ch =>
      let n := s.timedPic ch p.time
      (s.setChan c { ch with refs := { ch.refs with requests := insertNat n ch.refs.requests } }).reply (leBytes 8 (ch.index n))
    | none => s.done

/-- LTR_MARK (R104, R226, R326). -/
def State.doLtrMark (s : State) (p : ChtArg) : Answer :=
  let c := p.object
  s.checked [
      (decide (63 < c) || !(s.timeOk p.time) || (s.chanIs c fun ch =>
        decide (ch.cfg.refs.ltSlots - ch.cfg.refs.anchorSlots ≤ p.item)), eBadParam),
      (s.grp.role == .detached || !(s.chanIn c [.armed, .running]) || s.resyncing c || (s.chanIs c fun ch =>
        ch.refs.marks.any fun e => e.2 == s.timedPic ch p.time), eState),
      (s.chanIs c fun ch => thas ch.refs.marks p.item, eBusy),
      (s.chanIs c fun ch => s.tooEarly ch p.time, eTimeout)] fun s =>
    match tget s.chans c with
    | some ch =>
      let n := s.timedPic ch p.time
      (s.setChan c { ch with refs := { ch.refs with marks := tset ch.refs.marks p.item n } }).reply (leBytes 8 (ch.index n))
    | none => s.done

/-- LTR_RELEASE (R105, R226). -/
def State.doLtrRelease (s : State) (p : ChtArg) : Answer :=
  let c := p.object
  s.checked [
      (decide (63 < c) || !(s.timeOk p.time) || (s.chanIs c fun ch => decide (ch.cfg.refs.ltSlots ≤ p.item)), eBadParam),
      (!(s.chanIn c [.armed, .running]) || s.resyncing c, eState),
      (s.chanIs c fun ch => s.tooEarly ch p.time, eTimeout)] fun s =>
    match tget s.chans c with
    | some ch =>
      let n := s.timedPic ch p.time
      (s.setChan c { ch with refs := { ch.refs with releases := ch.refs.releases ++ [(p.item, n)] } }).reply
        (leBytes 8 (ch.index n))
    | none => s.done

/-! ## Regions (R115) -/

/-- A region's fields are in range and its rectangle touches the picture (R115). -/
def roiOk (d : ChannelDefineArg) (p : RoiSetArg) : Bool :=
  (if p.kind = 0 then decide (-12 ≤ p.value) && decide (p.value ≤ 12)
    else decide (0 ≤ p.value) && decide (p.value ≤ qpTop d.main.codec))
    && decide (p.x0 < (d.main.format.width : Int)) && decide (0 < p.x0 + p.width)
    && decide (p.y0 < (d.main.format.lines : Int)) && decide (0 < p.y0 + p.height)

/-- ROI_SET (R115, R345). -/
def State.doRoiSet (s : State) (p : RoiSetArg) : Answer :=
  let c := p.channel
  s.checked [
      (decide (63 < c) || decide (15 < p.region) || decide (1 < p.kind) || p.width == 0 || p.height == 0
        || (s.chanIs c fun ch => !(roiOk ch.cfg p)), eBadParam),
      (s.chanRefused c, eState)] fun s =>
    (s.updChan c fun ch => { ch with shadow := { ch.shadow with rois := tset ch.shadow.rois p.region p } }).done

/-- ROI_CLEAR (R115). -/
def State.doRoiClear (s : State) (p : ChArg) : Answer :=
  s.checked [(decide (63 < p.object) || decide (15 < p.item), eBadParam), (s.chanRefused p.object, eState)] fun s =>
    (s.updChan p.object fun ch => { ch with shadow := { ch.shadow with rois := tdel ch.shadow.rois p.item } }).done

/-! ## External streams (R125, R345) -/

/-- A flow entry is a compressed-video essence entry for external stream `d`, with its path. -/
def State.extEntry (s : State) (d a : Nat) : Option Nat :=
  match tget s.net.flows a with
  | some f => if f.arg.kind = 1 ∧ f.arg.essence = 1 ∧ f.arg.target = d then some f.arg.path else none
  | none => none

/-- EXT_STREAM_DEFINE's fields are in range (Table 6-3, R345). -/
def State.extArgOk (s : State) (p : ExtStreamArg) : Bool :=
  decide (p.stream < 16) && decide (p.payload ≤ 3) && p.codec == p.payload % 2 && profileOk p.codec p.profile
    && formatOk p.format p.rateId && (p.codedDepth == 10 || p.codedDepth == 12)
    && (match s.extEntry p.stream p.flowA with
      | some q => p.flowB == 0xFFFF || (match s.extEntry p.stream p.flowB with | some r => r != q | none => false)
      | none => false)

/-- EXT_STREAM_DEFINE (R125). -/
def State.doExtStreamDefine (s : State) (p : ExtStreamArg) : Answer :=
  let n := (slotsOf p.format p.rateId).getD 0
  s.checked [
      (!(s.extArgOk p), eBadParam), (thas s.ext p.stream, eState),
      (decide (32 < sumNat (s.ext.map fun e => e.2.shares) + n), eNoCapacity)] fun s =>
    let s := (s.clearRegs (0x00441000 + 0x40 * p.stream) (0x00441040 + 0x40 * p.stream)).clearMerge (64 + p.stream)
    { s with ext := tset s.ext p.stream { arg := p, shares := n } }.done

/-- A defined channel names a flow entry as its video flow. -/
def State.videoNamed (s : State) (a : Nat) : Bool := s.chans.any fun e => e.2.active.flowA == a || e.2.shadow.flowA == a

/-- EXT_STREAM_DELETE (R125). -/
def State.doExtStreamDelete (s : State) (p : ChArg) : Answer :=
  let d := p.object
  s.checked [
      (decide (15 < d) || p.item != 0, eBadParam),
      ((match tget s.ext d with | some e => s.videoNamed e.arg.flowA | none => true), eState)] fun s =>
    let s := s.clearRegs (0x00441000 + 0x40 * d) (0x00441040 + 0x40 * d)
    { s with
      ext := tdel s.ext d
      eng := { s.eng with pipes := tfilter s.eng.pipes fun _ w => w != PipeWork.ext d } }.done

/-! ## Registers -/

/-- CHN_AU_COUNT_LO_READ (R40): the low word, with the high one latched. -/
def execChnAuCountLoRead (c : Nat) (s : State) : Host.Outcome State Fault Refusal :=
  .next (s.hostRead (Reg.CHN_AU_COUNT_LO 0) fun s =>
    match tget s.chans c with
    | some ch =>
      (s.wr (Reg.CHN_AU_COUNT_HI c) (BitVec.ofNat 32 (ch.auCount / 2 ^ 32))).emit (.readData (BitVec.ofNat 32 ch.auCount))
    | none => s.readReserved)

end Sys2Proof.Machine
end

