-- ==== Sys2Proof/Machine/Lanes.lean ====
section
/-!
DEFINITION. Serial lanes (chapter 13): lanes, bring-up and training of the stay and ratline ports, link states and failures
(R263 to R273), LANE_CONFIG (R276); the Ethernet interfaces' links and PORT_CONFIG (R174 to R176, R274).
-/
namespace Sys2Proof.Machine

/-! ## Lanes and ports -/

/-- The lanes of a stay or ratline port (Table 13-1). -/
def portLanes (q : Nat) : List Nat := if q = 0 then rangeFrom 16 4 else if q = 1 then rangeFrom 20 4 else if q = 2 then [24] else [25]

/-- The stay or ratline port of a lane; none for an Ethernet lane. -/
def lanePort (l : Nat) : Option Nat :=
  if l < 16 then none else if l < 20 then some 0 else if l < 24 then some 1 else if l = 24 then some 2 else if l = 25 then some 3 else none

/-- The lanes of an Ethernet interface (R174, R263). -/
def State.ifLanes (s : State) (i : Nat) : List Nat := if s.net.breakout.contains (i / 4) then [i] else rangeFrom (4 * (i / 4)) 4

/-- The Ethernet interface a lane belongs to (R174, R263). -/
def State.laneIf (s : State) (l : Nat) : Nat := if s.net.breakout.contains (l / 4) then l else 4 * (l / 4)

/-- Lane `l`. -/
def State.laneOf (s : State) (l : Nat) : Lane := tgetD s.lane.lanes l {}

/-- Changes a lane. -/
def State.updLane (s : State) (l : Nat) (f : Lane → Lane) : State :=
  { s with lane := { s.lane with lanes := tset s.lane.lanes l (f (s.laneOf l)) } }

/-- Stay or ratline port `q`. -/
def State.portOf (s : State) (q : Nat) : Port := tgetD s.lane.ports q {}

/-- Changes a port. -/
def State.updPort (s : State) (q : Nat) (f : Port → Port) : State :=
  { s with lane := { s.lane with ports := tset s.lane.ports q (f (s.portOf q)) } }

/-- A loopback or pattern mode is set: the lane carries no traffic (R276). -/
def Lane.testMode (l : Lane) : Bool := l.loopback != 0 || l.pattern

/-- Training begins again on a lane: its equalisation holds (R271), its training does not. -/
def Lane.retrain (l : Lane) : Lane :=
  { l with ffeDone := false, trained := false, lastStep := none, tryDir := 0, misses := 0, readyRun := 0 }

/-- Every lane of a port is set to train. -/
def State.retrainLanes (s : State) (q : Nat) : State := (portLanes q).foldl (fun (t : State) l => t.updLane l (·.retrain)) s

/-- A figure of merit is computed (R271): the current value, and the lowest since the last read. -/
def Lane.noteFom (l : Lane) (f : Nat) : Lane :=
  { l with fom := f, fomMin := if l.fomValid then min l.fomMin f else f, fomValid := true }

/-! ## Link failures (R227, R272, R273) -/

/-- The link layer of a port starts again (R227, R228, R285): a leg waits for a hello and its unacknowledged records wait with the others
in its outage queue; a ratline port discards its frames. DESIGN CHOICE (log entry 103): both ends number their frames from 0 again. -/
def State.linkRestart (s : State) (q : Nat) : State :=
  if q < 2 then
    let l := s.leg q
    s.setLeg q { l with helloOk := false, nextLink := 0, rxLink := 0, replay := [], outage := takeLast 512 (l.replay.map (·.msg) ++ l.outage) }
  else { s with rat := { s.rat with
    replay := tdel s.rat.replay (q - 2), nextLink := tdel s.rat.nextLink (q - 2), rxLink := tdel s.rat.rxLink (q - 2) } }

/-- A stay leg has failed (R227, R273): counted, flagged and logged with its cause, 1 replay or 2 lane. -/
def State.legFailed (s : State) (leg cause : Nat) : State :=
  ((s.bump Reg.GRP_LINK_FAILS).sticky Reg.GRP_STATUS 0x100000).raise 0x0052 1 leg cause

/-- A port enters FAILED (R272, R273); a cause while it is FAILED only begins its 100 µs again. -/
def State.failPort (s : State) (q cause : Nat) : State :=
  if (s.portOf q).st == .failed then s
  else
    let s := s.updPort q fun p => { p with st := .failed, deskewed := false }
    let s := (s.retrainLanes q).linkRestart q
    let s := (s.bump (Reg.LINK_RETRAINS q)).sticky (Reg.LINK_STATUS q) 0x80000
    if q < 2 then s.legFailed q cause else s

/-- A training failure (R270, R271). -/
def State.trainFail (s : State) (q : Nat) : State :=
  ((s.bump (Reg.LINK_TRAIN_FAILS q)).sticky (Reg.LINK_STATUS q) 0x10000).failPort q 2

/-- los is set on every lane of a port, or every lane is disabled, or one is in a test mode: it reads DOWN (R272, R276). -/
def State.portDark (s : State) (q : Nat) : Bool :=
  let ls := (portLanes q).map s.laneOf
  ls.all (fun l => l.los) || ls.all (fun l => !l.enabled) || ls.any (fun l => l.testMode)

/-- A port that trains goes DOWN once it is dark (R272). -/
def State.settlePort (s : State) (q : Nat) : State :=
  if (s.portOf q).st == .training && s.portDark q then (s.updPort q fun p => { p with st := .down, deskewed := false }).retrainLanes q
  else s

/-- A lane has lost its signal, its clock or its symbols (R273): an UP port fails. -/
def State.laneLost (s : State) (l : Nat) : State :=
  match lanePort l with
  | some q => if s.portUp q then s.failPort q 2 else s.settlePort q
  | none => s

/-! ## Detectors -/

/-- LANE_LOS_SET (R273). -/
def execLaneLosSet (l : Nat) (s : State) : Host.Outcome State Fault Refusal :=
  .next (
    if 25 < l ∨ (s.laneOf l).los then s
    else
      let s := s.updLane l fun x => { x with los := true, symLock := false, errAt := [] }
      ((s.bump (Reg.LANE_LOCK_LOSSES l)).sticky (Reg.LANE_STATUS l) 0x100).laneLost l)

/-- LANE_LOS_CLEAR (R273). -/
def execLaneLosClear (l : Nat) (s : State) : Host.Outcome State Fault Refusal :=
  .next (if 25 < l then s else s.updLane l fun x => { x with los := false })

/-- lol sets on a lane (R273, R275). -/
def State.loseCdr (s : State) (l : Nat) : State :=
  if (s.laneOf l).lol then s
  else
    let s := s.updLane l fun x => { x with lol := true, symLock := false, errAt := [] }
    (s.bump (Reg.LANE_LOCK_LOSSES l)).sticky (Reg.LANE_STATUS l) 0x200

/-- CDR_LOCK_CHANGE (R273). -/
def execCdrLockChange (l : Nat) (locked : Bool) (s : State) : Host.Outcome State Fault Refusal :=
  .next (
    if 25 < l then s
    else if locked then s.updLane l fun x => { x with lol := false }.noteFom x.fom
    else if (s.laneOf l).lol then s
    else (s.loseCdr l).laneLost l)

/-- SYMBOL_LOCK (R270): three commas at one alignment, the input inverted where they came inverted. A ratline port has no deskew
and begins to train. -/
def execSymbolLock (l : Nat) (inverted : Bool) (s : State) : Host.Outcome State Fault Refusal :=
  .next (
    match lanePort l with
    | none => s
    | some q =>
      let x := s.laneOf l
      if !x.enabled || x.testMode || x.los || x.lol then s
      else
        let s := s.updLane l fun x => { x with symLock := true, polInv := inverted, errAt := [] }
        if 2 ≤ q ∧ (s.portOf q).st == .down then (s.retrainLanes q).updPort q fun p => { p with st := .training } else s)

/-- CODE_ERROR (R270): the fourth within 64 symbols loses symbol lock. -/
def execCodeError (l : Nat) (symbol : Nat) (s : State) : Host.Outcome State Fault Refusal :=
  .next (
    if (lanePort l).isNone then s
    else
      let es := ((s.laneOf l).errAt.filter fun e => decide (symbol < e + 64)) ++ [symbol]
      let s := ((s.bump (Reg.LANE_CODE_ERRORS l)).sticky (Reg.LANE_STATUS l) 0x800).pmuEvent 8 3
      if 4 ≤ es.length then
        let locked := (s.laneOf l).symLock
        let s := s.updLane l fun x => { x with symLock := false, errAt := [] }
        if locked then s.laneLost l else s
      else s.updLane l fun x => { x with errAt := es })

/-- LANE_FOM_LOW (R271): never a link state by itself. -/
def execLaneFomLow (l : Nat) (fom : Nat) (s : State) : Host.Outcome State Fault Refusal :=
  .next (
    let up := match lanePort l with
      | some q => s.portUp q
      | none => decide (l < 16) && (s.iface (s.laneIf l)).linkUp
    if up && decide (fom < 32) then
      ((s.updLane l (·.noteFom fom)).bump (Reg.LANE_FOM_LOW l)).sticky (Reg.LANE_STATUS l) 0x400
    else s)

/-- LANE_FOM_READ (R271, R278): returns the register, then clears fom_min and valid. -/
def execLaneFomRead (l : Nat) (s : State) : Host.Outcome State Fault Refusal :=
  .next (
    if 25 < l then s.readReserved
    else s.hostRead (Reg.LANE_FOM l) fun s =>
      let x := s.laneOf l
      let s := s.emit (.readData (wnat x.fom 7 0 ||| wnat x.fomMin 15 8 ||| bitIf x.fomValid 16))
      s.updLane l fun x => { x with fomMin := 0, fomValid := false })

/-- ELASTIC_SLIP (R266): the fourth on a port within 1 ms fails it. -/
def execElasticSlip (q : Nat) (s : State) : Host.Outcome State Fault Refusal :=
  .next (
    if 3 < q then s
    else
      let s := (s.bump (Reg.LINK_ELASTIC_SLIPS q)).sticky (Reg.LINK_STATUS q) 0x40000
      let es := ((s.portOf q).slips.filter fun e => decide (s.time.up < e + 1000000)) ++ [s.time.up]
      if 4 ≤ es.length then
        ((s.updPort q fun p => { p with slips := [] }).sticky (Reg.LINK_STATUS q) 0x20000).failPort q 2
      else s.updPort q fun p => { p with slips := es })

/-! ## Bring-up and training (R269 to R271) -/

/-- Two lanes report one number. -/
def hasRepeat : List Nat → Bool
  | [] => false
  | a :: r => r.contains a || hasRepeat r

/-- ALN (R270): the lanes of a stay port are ordered and deskewed on it; the port begins to train. -/
def execAln (q : Nat) (numbers : List Nat) (skew : Nat) (s : State) : Host.Outcome State Fault Refusal :=
  .next (
    let p := s.portOf q
    if decide (1 < q) || p.deskewed || p.st == .failed || !((portLanes q).all fun l => (s.laneOf l).symLock) then s
    else if hasRepeat numbers || decide (16 < skew) then s.trainFail q
    else
      let s := (((portLanes q).zip numbers).foldl (fun (t : State) e => t.updLane e.1 fun x => { x with number := some e.2 }) s)
      let s := if p.st == LinkState.down then s.retrainLanes q else s
      s.updPort q fun p =>
        { p with deskewed := true, skewMax := skew, st := if p.st == .down then .training else p.st })

/-- A step of 1/64 asked of a cursor: 1 up, 2 down, else hold; the cursor holds six bits (LANE_EQ). -/
def cursorStep (v : Int) (req : Nat) : Int := if req = 1 then min 31 (v + 1) else if req = 2 then max (-32) (v - 1) else v

/-- The lane of a port that carries a lane number (R270). -/
def State.laneBy (s : State) (q n : Nat) : Option Nat :=
  if q < 2 then (portLanes q).find? fun l => (s.laneOf l).number == some n else (portLanes q).head?

/-- The TRN set a lane sends: a request, ready once training has ended on every lane of the port, and ffe_done (Table 13-2). -/
def State.trnSet (s : State) (q l pre post : Nat) : TrnSet :=
  { lane := l - (portLanes q).headD 0, pre := pre, post := post
    ready := (portLanes q).all fun k => (s.laneOf k).trained, ffeDone := (s.laneOf l).ffeDone }

/-- Every lane has ended training and received ready sixteen times in a row: the port is UP (R269), and a stay leg of a member
sends a hello (R232). -/
def State.settleUp (s : State) (q : Nat) : State :=
  if (s.portOf q).st == .training && (decide (2 ≤ q) || (s.portOf q).deskewed) &&
      (portLanes q).all fun l => (s.laneOf l).trained && decide (16 ≤ (s.laneOf l).readyRun) then
    let s := s.updPort q fun p => { p with st := .up }
    if q < 2 then (s.sendHello q).settleJoin else s
  else s

/-- TRN (R271, R273). -/
def execTrn (q : Nat) (t : TrnSet) (s : State) : Host.Outcome State Fault Refusal :=
  .next (
    match (s.portOf q).st with
    | .up => ((s.retrainLanes q).updPort q fun p => { p with st := .training }).linkRestart q
    | .training =>
      match s.laneBy q t.lane with
      | none => s
      | some l =>
        let s := s.updLane l fun x =>
          { x with
            pre := cursorStep x.pre t.pre, post := cursorStep x.post t.post
            readyRun := if t.ready then x.readyRun + 1 else 0 }
        s.settleUp q
    | _ => s)

/-- A direction of TRAINING_STEP_TIMER as the request codes of a TRN set: pre-cursor, post-cursor. -/
def stepCodes (d : Nat) (back : Bool) : Nat × Nat :=
  let c := if (d % 2 == 0) != back then 1 else 2
  if d < 2 then (c, 0) else (0, c)

/-- One adaptation step of a lane (R271): judges the step before it, keeps one that raised the FOM by more than 2 and asks for
another, reverses one that did not; ffe_done after four directions without improvement. -/
def Lane.adapt (x : Lane) (fom : Nat) : Lane × Option (Nat × Nat) :=
  let x := x.noteFom fom
  match x.lastStep with
  | some (d, was) =>
    if was + 2 < fom then ({ x with lastStep := some (d, fom), misses := 0 }, some (stepCodes d false))
    else
      ({ x with lastStep := none, tryDir := (d + 1) % 4, misses := x.misses + 1, ffeDone := decide (3 ≤ x.misses) },
        some (stepCodes d true))
  | none =>
    if x.ffeDone then (x, none)
    else ({ x with lastStep := some (x.tryDir, fom) }, some (stepCodes x.tryDir false))

/-- TRAINING_STEP_TIMER (R271). -/
def execTrainingStepTimer (l : Nat) (fom : Nat) (s : State) : Host.Outcome State Fault Refusal :=
  .next (
    match lanePort l with
    | none => s
    | some q =>
      let x := s.laneOf l
      if (s.portOf q).st != .training || x.los || x.lol || x.trained then s
      else
        let r := x.adapt fom
        let y := { r.1 with trained := r.1.ffeDone && decide (96 ≤ fom) }
        let s := s.updLane l fun _ => y
        let s := match r.2 with
          | some (a, b) => s.emit (.trn (s.trnSet q l a b))
          | none => s.emit (.trn (s.trnSet q l 0 0))
        s.settleUp q)

/-- TRAINING_TIMEOUT (R271): 8 ms into TRAINING a FOM of 64 is enough; a lane below it fails the port. -/
def execTrainingTimeout (q : Nat) (foms : List Nat) (s : State) : Host.Outcome State Fault Refusal :=
  .next (
    if 3 < q ∨ (s.portOf q).st != .training then s
    else
      let s := ((portLanes q).zip foms).foldl (fun (t : State) e => t.updLane e.1 fun x =>
        { x with trained := x.trained || decide (64 ≤ e.2) }.noteFom e.2) s
      if (portLanes q).all fun l => (s.laneOf l).trained then s.settleUp q else s.trainFail q)

/-- FAILED_HOLD_EXPIRY (R272): not while REFCLK_LINK is absent (R275). -/
def execFailedHoldExpiry (q : Nat) (s : State) : Host.Outcome State Fault Refusal :=
  .next (
    if 3 < q ∨ (s.portOf q).st != .failed ∨ s.dev.linkRefLost then s
    else s.updPort q fun p => { p with st := if s.portDark q then .down else .training })

/-! ## REFCLK_LINK (R275) -/

/-- REFCLK_LINK_LOSS (R275): every stay and ratline port enters FAILED and stays there. -/
def execRefclkLinkLoss (s : State) : Host.Outcome State Fault Refusal :=
  .next (
    let s := { s with dev := { s.dev with linkRefLost := true } }
    let s := (rangeFrom 16 10).foldl (fun (t : State) l => t.updLane l fun x => { x with symLock := false, errAt := [] }) s
    (List.range 4).foldl (fun (t : State) q => t.failPort q 2) s)

/-- REFCLK_LINK_RETURN (R275): the ports bring up blind. -/
def execRefclkLinkReturn (s : State) : Host.Outcome State Fault Refusal :=
  .next (
    let s := { s with dev := { s.dev with linkRefLost := false } }
    (List.range 4).foldl (fun (t : State) q =>
      if (t.portOf q).st == .failed then t.updPort q fun p => { p with st := .down } else t) s)

/-! ## Ethernet links (R175, R176, R274) -/

/-- An ACTIVE every interface of a running channel of which is down sends a stand_down to a STANDBY (R248, R205). -/
def State.standDownCheck (s : State) : State :=
  let dark : Bool := s.chans.any fun e => e.2.st.coding && (outIfs e.2.cfg.out).all fun i => !(s.iface i).linkUp
  if s.grp.role == .active && dark && !s.standbys.isEmpty then s.sendAll (.standDown 0) else s

/-- What an interface that goes down would send now is discarded: eligible packets and firmware's frames (R205). -/
def State.dropEligible (s : State) (i : Nat) : State :=
  let t := s.txIf i
  let s := (t.queued.filter (·.eligible)).foldl (fun (u : State) w => (u.dequeue i w).linkDrop i w.pkt.chan w.pkt.seq) s
  let n := t.ctl.length
  let s := s.updTx i fun t => { t with ctl := [], held := tdel (tdel t.held 0) 3 }
  if n = 0 then s else (s.bumpBy (Reg.NET_TX_LINK_DROPS i) n).sticky (Reg.NET_TX_STATUS i) 0x20000

/-- A link goes down (R176): link_down_seen, and the PTP ports on it lose their master (R208). -/
def State.linkDown (s : State) (i : Nat) : State :=
  if (s.iface i).linkUp then
    ((((s.updIface i fun f => { f with linkUp := false }).sticky (Reg.NET_PORT_STATUS i) 0x100).dropEligible i).ptpLinkDown
      i).standDownCheck
  else s

/-- ETH_LINK_DOWN (R274). -/
def execEthLinkDown (i : Nat) (s : State) : Host.Outcome State Fault Refusal := .next (s.linkDown i)

/-- ETH_LINK_UP (R274): every lane has CDR lock and the PCS is aligned. -/
def execEthLinkUp (i : Nat) (s : State) : Host.Outcome State Fault Refusal :=
  .next (
    if s.ifExists i && (s.iface i).enabled && !((s.ifLanes i).any fun l => (s.laneOf l).testMode) then
      let s := (s.ifLanes i).foldl (fun (t : State) l => t.updLane l fun x => { x with los := false, lol := false }) s
      s.updIface i fun f => { f with linkUp := true }
    else s)

/-! ## PORT_CONFIG (R174, R175, R338) -/

/-- The interfaces that PORT_CONFIG would leave enabled. -/
def keptIfs (p : PortConfigArg) : List Nat :=
  ((List.range 4).filter fun k => p.enable.testBit k && (p.mode == 1 || k == 0)).map fun k => 4 * p.port + k

/-- An interface is named by a flow entry's if_mask or used by a channel's output (R175). -/
def State.ifUsed (s : State) (i : Nat) : Bool :=
  (s.net.flows.any fun e => e.2.arg.ifMask.toNat.testBit i) || s.chans.any fun e => (outIfs e.2.cfg.out).contains i

/-- The counts and sticky bits of an interface cleared (R193, R206). -/
def State.clearIfRegs (s : State) (i : Nat) : State :=
  (s.clearRegs (0x00300000 + 0x100 * i) (0x00300100 + 0x100 * i)).clearRegs (0x00306000 + 0x100 * i) (0x00306100 + 0x100 * i)

/-- Removes an interface: its addresses, queues and counts go with it (R175). -/
def State.removeIf (s : State) (i : Nat) : State :=
  let s := (s.linkDown i).clearIfRegs i
  let s := s.clearRegs (0x00308000 + 0x100 * i) (0x00308100 + 0x100 * i)
  { s with net := { s.net with ifaces := tdel s.net.ifaces i }, tx := tdel s.tx i }

/-- PORT_CONFIG. -/
def State.doPortConfig (s : State) (p : PortConfigArg) : Answer :=
  let all := rangeFrom (4 * p.port) 4
  let stays (i : Nat) : Bool := i % 4 == 0 || p.mode == 1
  let gone := all.filter fun i => (s.ifExists i && !(stays i)) || ((s.iface i).enabled && !((keptIfs p).contains i))
  s.checked [
      (decide (3 < p.port) || decide (1 < p.mode) || decide (15 < p.enable) || (p.mode == 0 && decide (1 < p.enable)), eBadParam),
      (gone.any s.ifUsed, eState)] fun s =>
    let s := gone.foldl (fun (t : State) i => t.removeIf i) s
    let was := s.net.breakout.contains p.port
    let s :=
      if was != (p.mode == 1) then
        let s := all.foldl (fun (t : State) i => t.linkDown i) s
        let s := { s with net := { s.net with
          breakout := if p.mode = 1 then insertNat p.port s.net.breakout else s.net.breakout.filter (· != p.port) } }
        if p.mode = 0 then (all.drop 1).foldl (fun (t : State) i => t.removeIf i) s else s
      else s
    let s := (keptIfs p).foldl (fun (t : State) i =>
      if (t.iface i).enabled then t else (t.clearIfRegs i).updIface i fun f => { f with enabled := true }) s
    let s := all.foldl (fun (t : State) l => t.updLane l fun x => { x with enabled := (keptIfs p).contains (t.laneIf l) }) s
    s.done

/-! ## LANE_CONFIG (R276, R341) -/

/-- The cursors suit the lane's family (R341). -/
def cursorsOk (p : LaneConfigArg) : Bool :=
  if p.lane < 16 then
    decide (-16 ≤ p.pre) && decide (p.pre ≤ 0) && decide (32 ≤ p.main) && decide (p.main ≤ 64) && decide (-24 ≤ p.post) &&
      decide (p.post ≤ 0) && decide (p.main - p.pre - p.post ≤ 64)
  else p.pre == 0 && p.main == 0 && p.post == 0

/-- The lane belongs to something in use (R276). -/
def State.laneInUse (s : State) (l : Nat) : Bool :=
  match lanePort l with
  | some q => if q < 2 then s.grp.role != .none else s.portUp q
  | none => (s.iface (s.laneIf l)).enabled

/-- LANE_CONFIG. Clearing every mode returns the lane to bring-up. -/
def State.doLaneConfig (s : State) (p : LaneConfigArg) : Answer :=
  s.checked [
      (decide (25 < p.lane) || decide (3 < p.loopback) || decide (1 < p.pattern) || decide (1 < p.enable) ||
        (p.pattern == 1 && p.loopback == 3) || !(cursorsOk p), eBadParam),
      (decide (p.lane ≤ 25) && s.laneInUse p.lane, eState)] fun s =>
    let s := s.updLane p.lane fun x =>
      let x := { x with loopback := p.loopback, pattern := p.pattern == 1, enabled := p.enable == 1 }
      if p.lane < 16 then { x with pre := p.pre, main := p.main, post := p.post }
      else { x with symLock := x.symLock && !x.testMode && x.enabled, errAt := [] }
    match lanePort p.lane with
    | some q =>
      if s.portDark q && (s.portOf q).st != .failed then
        ((s.updPort q fun r => { r with st := .down, deskewed := false }).retrainLanes q).done
      else s.done
    | none => s.done

end Sys2Proof.Machine
end

