-- ==== Sys2Proof/Machine/Group.lean ====
section
/-!
DEFINITION. Shroud groups (chapter 12): the record layer of the stay legs (R227 to R230), records and what each brings (R230 to
R241), repair (R235), handover, takeover and overlap (R246 to R253), rejoin (R256 to R259), and the group commands (R222, R256,
R260, R352, R353).
-/
namespace Sys2Proof.Machine

/-! ## Roles -/

/-- No channel that runs has an output-watch entry (R255). -/
def State.noWatch (s : State) : Bool :=
  !(s.net.flows.any fun e => e.2.arg.kind == 2 &&
    match tget s.chans e.2.arg.target with | some ch => ch.st.coding | none => false)

/-- A member leaves the group (R260, Table 12-10): DETACHED, nothing held, nothing resyncing. -/
def State.detach (s : State) : State :=
  let s := s.setRole .detached
  { s with grp := { s.grp with
    handover := none, targetOf := none, notice := none, heldPkts := [], waiting := false, standDown := false
    chans := tmap s.grp.chans fun _ g => { g with phase := .none, inSync := true, refused := false } } }.settleFree

/-- A takeover refresh (R247) of a channel at a picture: a requested refresh. -/
def State.refreshAt (s : State) (c n : Nat) : State :=
  s.updChan c fun ch => { ch with refs := { ch.refs with requests := insertNat n ch.refs.requests } }

/-- h_c: the first picture of a channel with t0 at or after t_h, a time in ns (R246). -/
def Chan.handoverPic (ch : Chan) (tH : Nat) : Nat := ch.picAt (nsTicks tH)

/-! ## Takeover (R249, R250, R252) -/

/-- The held packets of a channel that follow the highest number seen on its watch (R250). -/
def State.toResend (s : State) (c : Nat) : List Packet :=
  s.grp.heldPkts.filter fun p => p.chan == c && match (s.gch c).watchSeq with
    | some w => decide (0 < (p.seq + 65536 - w % 65536) % 65536) && decide ((p.seq + 65536 - w % 65536) % 65536 < 32768)
    | none => true

/-- A channel in sync goes on at once: held packets that follow the watch are sent, those whose model instant has passed at once and caught
up at four times the rate (R202, R250). -/
def State.resumeChan (s : State) (c : Nat) (ch : Chan) : State :=
  let ps := s.toResend c
  let due (p : Packet) : Bool := decide (p.ej ≤ s.chanNow c)
  let s := { s with grp := { s.grp with heldPkts := s.grp.heldPkts.filter fun p => p.chan != c } }
  let s := s.updGch c fun g => { g with emitTo := none, emitFrom := none }
  let s := ps.foldl (fun (t : State) p => t.dispatch c ch.cfg.out { p with resent := due p } (due p)) s
  if !(ps.any due) then s
  else
    ((outIfs ch.cfg.out).foldl (fun (t : State) i => (t.settleCredits i).updTx i fun x =>
      { x with catchup := insertNat c x.catchup }) s).bump (Reg.EGR_CATCHUPS c)

/-- A channel not in sync is emitted from the first picture whose t0 follows, on rebased sequence numbers and with a takeover
refresh (R252). -/
def State.rebaseChan (s : State) (c : Nat) (ch : Chan) : State :=
  let n := ch.picAfter s.time.now
  let s := { s with grp := { s.grp with heldPkts := s.grp.heldPkts.filter fun p => p.chan != c } }
  let s := s.updGch c fun g => { g with emitTo := none, emitFrom := some n, phase := .none, inSync := true, refused := false }
  let s := s.updTxc c fun t => { t with
    rebase := some (n, match (s.gch c).watchSeq with | some w => (w + 1) % 65536 | none => t.nextSeq), tsDisc := some n }
  s.refreshAt c n

/-- The unit takes over (R249): counted, logged with the former active and the role before, and each channel resumed or rebased. -/
def State.takeOver (s : State) : State :=
  let was := s.grp.role
  let former := s.grp.activeRank
  let s := ((s.bump Reg.GRP_TAKEOVERS).sticky Reg.GRP_STATUS 0x10000).raise 0x0050 1 0xFF (former + was.code * 256)
  let s := { s with grp := { s.grp with
    waiting := false, handover := none, targetOf := none, notice := none, forming := false, standDown := false
    peers := tupd s.grp.peers former fun p => { p with role := 0 } } }
  let s := s.chans.foldl (fun (t : State) (e : Nat × Chan) =>
    if was == Role.unverified || (was == Role.joining && !((t.gch e.1).inSync)) then t.rebaseChan e.1 e.2
    else t.resumeChan e.1 e.2) s
  s.setRole .active

/-- Preference of a role as takeover candidate (R249); 0 is none. -/
def candidateRole (role : Nat) : Nat := if role = 2 then 3 else if role = 4 then 2 else if role = 3 then 1 else 0

/-- This unit is the first candidate: first in takeover order among the members in the best available role (R249). -/
def State.firstCandidate (s : State) : Bool :=
  let order := takeoverOrder s.grp.activeRank s.grp.size
  let roleOf (k : Nat) : Nat :=
    if k = s.grp.rank then s.grp.role.code else if s.reachable k then (s.peer k).role else 0
  let best := maxNat (order.map fun k => candidateRole (roleOf k))
  (order.find? fun k => candidateRole (roleOf k) == best) == some s.grp.rank

/-- A member that may take over by the timers of R249: not one without a watch (R255). -/
def State.mayTakeOver (s : State) : Bool :=
  (s.grp.role == .standby || s.grp.role == .unverified || s.grp.role == .joining) && !s.noWatch

/-- TAKEOVER_TIMER (R249). -/
def execTakeoverTimer (s : State) : Host.Outcome State Fault Refusal :=
  .next (
    if s.mayTakeOver then
      if s.firstCandidate then s.takeOver else { s with grp := { s.grp with waiting := true } }
    else s)

/-- TAKEOVER_WAIT_TIMER (R249): nothing came in the further Tp_g. -/
def execTakeoverWaitTimer (s : State) : Host.Outcome State Fault Refusal :=
  .next (if s.grp.waiting && s.mayTakeOver then s.takeOver else s)

/-- RECORD_SILENCE_TIMEOUT (R251). -/
def execRecordSilenceTimeout (s : State) : Host.Outcome State Fault Refusal :=
  .next (
    if s.grp.role == .standby || s.grp.role == .joining then
      { s.setRole .unverified with grp := { (s.setRole .unverified).grp with forming := false, targetOf := none } }
    else s)

/-- HELD_PACKET_EXPIRY (R250): a packet whose number has not been seen on the watch counts. -/
def execHeldPacketExpiry (c seq : Nat) (s : State) : Host.Outcome State Fault Refusal :=
  .next (
    match s.grp.heldPkts.find? fun p => p.chan == c && p.seq == seq with
    | none => s
    | some p =>
      let due := (s.toResend c).contains p
      let s := { s with grp := { s.grp with heldPkts := s.grp.heldPkts.erase p } }
      if due then s.bump Reg.GRP_HOLD_EXPIRED else s)

/-! ## The record layer (R225, R228, R229) -/

/-- Notes a peer's role. -/
def State.notePeer (s : State) (rank role recSeq : Nat) : State :=
  let p := s.peer rank
  { s with grp := { s.grp with
    peers := tset s.grp.peers rank { p with role := role, seen := takeLast 4096 (p.seen ++ [recSeq]) }
    overlapWith := if s.grp.overlapWith == some rank && role != 1 then none else s.grp.overlapWith } }

/-- A record of the ACTIVE (R249, R251, R253): it is known, a waiting candidate waits no longer, an UNVERIFIED member resyncs, and a
second ACTIVE is an overlap. -/
def State.fromActive (s : State) (rank : Nat) : State :=
  if s.grp.role == .active then s.overlap rank 0xFF
  else
    let s := { s with grp := { s.grp with activeRank := rank, waiting := false } }
    if s.grp.role == .unverified then
      if s.grp.forming then ({ s with grp := { s.grp with forming := false } }.setRole .standby)
      else s.resyncAll.setRole .joining
    else s

/-- Relays a record that came directly from one peer of a triad to the other, once (R228). -/
def State.relay (s : State) (h : RecHdr) (m : StayMsg) : State :=
  if s.grp.size = 3 ∧ !h.relayed then s.sendLeg (1 - h.leg) ⟨h.recSeq, h.rank, true, m⟩ else s

/-- The link layer takes a frame of a leg that is UP (R227, R229): one whose CRC fails is counted as its record is; the next in order is
acknowledged and passed up; one delivered already is acknowledged again and discarded; one ahead of a lost frame waits for the replay. -/
def State.linkIn (s : State) (h : RecHdr) (m : StayMsg) (b : List Byte) : State × Bool :=
  let l := s.leg h.leg
  if !s.member || !(s.portUp h.leg) then (s, false)
  else if !(h.crcOk m b) then (s.bump Reg.GRP_LATE_RECORDS, false)
  else if h.link = l.rxLink then ((s.setLeg h.leg { l with rxLink := (l.rxLink + 1) % 256 }).emit (.ack h.leg h.link), true)
  else if (l.rxLink + 256 - h.link) % 256 ≤ 16 then (s.emit (.ack h.leg h.link), false)
  else (s, false)

/-- The header is of this group and of another member (R225, Table 12-1). -/
def State.ours (s : State) (h : RecHdr) : Bool :=
  s.member && h.groupId == s.grp.groupId && decide (1 ≤ h.rank) && decide (h.rank ≤ s.grp.size) && h.rank != s.grp.rank

/-- A record of types 4, 5 and 7 goes to one member: it comes to the third unit while the direct leg is failed, which passes it on
(R228). -/
def StayMsg.direct : StayMsg → Bool
  | .repairRequest _ _ _ => true
  | .repairData _ _ _ => true
  | .copy _ _ _ _ => true
  | _ => false

/-- The record layer admits a record (R228, R229) that comes too late or not; `m` is what a triad relays. Answers whether it is for this
unit. -/
def State.enterRecord (s : State) (h : RecHdr) (late : Bool) (m : StayMsg) : State × Bool :=
  if !(s.ours h) || !(s.leg h.leg).helloOk then (s, false)
  else if late then (s.bump Reg.GRP_LATE_RECORDS, false)
  else if (s.peer h.rank).seen.contains h.recSeq then (s.bump Reg.GRP_DUP_RECORDS, false)
  else
    let mine := !m.direct || h.dest == s.grp.rank
    let s := s.notePeer h.rank h.role h.recSeq
    let s := s.when (!m.direct || !mine) (·.relay h m)
    let s := if h.role = 1 then s.fromActive h.rank
      else if (takeoverOrder s.grp.activeRank s.grp.size).head? == some h.rank then { s with grp := { s.grp with waiting := false } }
      else s
    (s, mine)

/-- Takes a record in from the link up, with its bytes from offset 16 on. -/
def State.takeBytes (s : State) (h : RecHdr) (late : Bool) (m : StayMsg) (b : List Byte) : State × Bool :=
  let t := s.linkIn h m b
  if t.2 then t.1.enterRecord h late m else t

/-- Takes a record in whose bytes its content gives. -/
def State.takeRecord (s : State) (h : RecHdr) (late : Bool) (m : StayMsg) : State × Bool := s.takeBytes h late m (m.body h)

/-- STAY_REPLAY_TIMEOUT (R227): the unacknowledged frames are replayed, or the leg is declared failed and its records wait. -/
def execStayReplayTimeout (leg : Nat) (s : State) : Host.Outcome State Fault Refusal :=
  .next (
    if 1 < leg then s
    else
      let l := s.leg leg
      match l.replay with
      | [] => s
      | f :: _ =>
        if 4 ≤ f.replays ∨ 50000 < s.time.up - f.first then
          s.failPort leg 1
        else
          let fs := l.replay.map fun x => { x with replays := x.replays + 1 }
          fs.foldl (fun (t : State) (x : ReplayFrame StayRec) => (t.emit (.stay leg x.link x.msg)).pmuEvent 8 1) (s.setLeg leg { l with replay := fs }))

/-- LINK_ACK (R227, R285): stay ports 0 and 1, ratline ports 2 and 3. -/
def execLinkAck (port link : Nat) (s : State) : Host.Outcome State Fault Refusal :=
  .next (
    if port < 2 then
      let l := s.leg port
      s.setLeg port { l with replay := l.replay.filter fun f => f.link != link }
    else if port < 4 then
      let q := port - 2
      State.ratPump 8 { s with rat := { s.rat with
        replay := tset s.rat.replay q ((tgetD s.rat.replay q []).filter fun f => f.link != link) } } q
    else s)

/-! ## Hellos (R225, R232, R256) -/

/-- HELLO_TIMER (R232). -/
def execHelloTimer (s : State) : Host.Outcome State Fault Refusal :=
  .next (if s.member then ((s.sendHello 0).sendHello 1).settleJoin else s)

/-- The wiring of R225: which port of which rank a leg meets. -/
def State.wired (s : State) (leg rank port : Nat) : Bool :=
  if s.grp.size = 2 then port == 1 - leg
  else if leg = 0 then rank == s.grp.rank % 3 + 1 && port == 1
  else s.grp.rank == rank % 3 + 1 && port == 0

/-- What a hello tells of a peer; the active notes a member that begins to resync every channel (R256). -/
def State.hailed (s : State) (h : RecHdr) (r : HelloRec) (newPath : Bool) : State :=
  let old := (s.peer h.rank).role
  let s := { s with grp := { s.grp with peers := tset s.grp.peers h.rank { s.peer h.rank with level := r.level, macs := r.macs } } }
  if s.grp.role == .active && h.role == 3 && (newPath || !(recordRole old)) then
    { s with grp := { s.grp with peers := tset s.grp.peers h.rank { s.peer h.rank with needs := tkeys s.chans } } }.when
      s.chans.isEmpty fun t => t.planCopies []
  else s

/-- HELLO (R225, R228, R256 step 1): a direct hello opens its leg or, failing a check, closes it; a relayed one only tells of a
peer. -/
def execHello (h : RecHdr) (r : HelloRec) (s : State) : Host.Outcome State Fault Refusal :=
  .next (
    let t := s.linkIn h (.hello r) (StayMsg.body h (.hello r))
    let s := t.1
    if !t.2 then s
    else if h.relayed then
      let t := (s.hailed h r false).enterRecord h false (.hello r)
      if t.2 then t.1.planNeeded else (s.enterRecord h false (.hello r)).1
    else
      let ok := s.ours h && r.size == s.grp.size && r.level == s.dev.level && s.wired h.leg h.rank r.port
      if !ok then (s.setLeg h.leg { s.leg h.leg with helloOk := false }).sticky Reg.GRP_STATUS 0x800000
      else
        let newPath := (s.legTo h.rank).isNone
        let fresh := !((s.peer h.rank).seen.contains h.recSeq)
        let s := if fresh then s.hailed h r newPath else s
        let s := s.setLeg h.leg { s.leg h.leg with helloOk := true, peerRank := h.rank }
        let s := (s.enterRecord h false (.hello r)).1
        let s := s.flushLeg h.leg
        s.planNeeded)

/-! ## Row, picture and gap records (R234, R236 to R238, R244) -/

/-- The guard map a record reports for DU r − k − 1 differs from this unit's own inside the clean area, in the span of R259. -/
def State.guardDiffers (s : State) (c : Nat) (ch : Chan) (n : Nat) (r : RowRec) : Bool :=
  match (s.gch c).sR, ch.duBefore (ch.k + 1) (n, r.row) with
  | some a, some d =>
    match ch.pic? d.1 with
    | some p =>
      let x := p.row d.2
      let inside (l : List Nat) : List Nat := l.filter fun i => decide (i < p.clean)
      r.resultValid && x.jobOver && decide (a ≤ d.1)
        && inside r.resGuard != inside ((List.range ch.cfg.main.ctus).filter fun i => x.guarded.testBit i)
    | none => false
  | _, _ => false

/-- A row record comes after its row's deadline, a picture record after t0(n + 2) (R229, Table 12-7). -/
def State.rowLate (s : State) (r : RowRec) : Bool :=
  match tget s.chans r.chan with | some ch => decide (ch.tDl (ch.serial r.pic) r.row < ch.clock s.time.now) | none => false
def State.picLate (s : State) (r : PicRec) : Bool :=
  match tget s.chans r.chan with | some ch => decide (ch.t0 (ch.serial r.pic + 2) < ch.clock s.time.now) | none => false

/-- A gap record comes after its AU's deadline: decoding of the AU may begin, or the AU has left (R229, R237). -/
def State.gapLate (s : State) (r : GapRec) : Bool :=
  match tget s.ext r.stream with | some e => e.frozen.contains (r.ts, true) || e.past.contains r.ts | none => false

/-- ROW_RECORD (R230, R234, R258, R259): held for the row's agreement if its sender is ACTIVE, STANDBY or JOINING; while the channel resyncs, the active's sizes enter the
ledgers and the guard maps are compared. -/
def execRowRecord (h : RecHdr) (r : RowRec) (s : State) : Host.Outcome State Fault Refusal :=
  .next (
    let t := s.takeRecord h (s.rowLate r) (.row r)
    if !t.2 then t.1
    else
      t.1.onChan r.chan fun ch s =>
        let c := r.chan
        let n := ch.serial r.pic
        let s := if recordRole h.role then s.updGch c fun g => { g with rows := tset g.rows (rowKey n r.row h.rank) r } else s
        let differs := s.guardDiffers c ch n r
        if s.grp.role == .active then
          if differs && (s.peer h.rank).needs.contains c then s.restartRefresh c else s
        else if (s.gch c).phase != .none && h.rank == s.grp.activeRank then
          let s := match r.resultValid, ch.duBefore (ch.k + 1) (n, r.row) with
            | true, some d => s.updChan c fun ch => ch.updRow d.1 d.2 fun x => { x with told := some r.resSize }
            | _, _ => s
          if differs && (s.gch c).phase != .copy then s.restartRefresh c else s
        else s)

/-- What the active learns of a peer's channel from the resyncing bit of its picture record (Table 12-5). -/
def State.noteResync (s : State) (rank c : Nat) (bit : Bool) : State :=
  if s.grp.role == .active then
    let p := s.peer rank
    let needs := if bit then insertNat c p.needs else p.needs.filter (· != c)
    { s with grp := { s.grp with peers := tset s.grp.peers rank { p with needs := needs } } }.planNeeded
  else s

/-- PICTURE_RECORD (R231, R233, R238, R244): decisions, budget, gap list and digests; the vote once every expected record is here. -/
def execPictureRecord (h : RecHdr) (r : PicRec) (s : State) : Host.Outcome State Fault Refusal :=
  .next (
    let t := s.takeRecord h (s.picLate r) (.pic r)
    if !t.2 then t.1
    else
      t.1.onChan r.chan fun ch s =>
        let c := r.chan
        let n := ch.serial r.pic
        let s := s.updGch c fun g => { g with pics := tset g.pics (n * 4 + h.rank) (h.role, r) }
        let s := s.noteResync h.rank c (r.faults.toNat.testBit 6)
        if s.voteReady c n && s.grp.role != .unverified && decide (ch.digestLag ≤ n) && thas (s.gch c).pics (n * 4 + s.grp.rank) then
          s.vote c n (n - ch.digestLag)
        else s)

/-- GAP_RECORD (R237). -/
def execGapRecord (h : RecHdr) (r : GapRec) (s : State) : Host.Outcome State Fault Refusal :=
  .next (
    let t := s.takeRecord h (s.gapLate r) (.gap r)
    if !t.2 then t.1
    else
      { t.1 with ext := tupd t.1.ext r.stream fun e =>
        { e with gaps := tset e.gaps (4 * r.ts + h.rank) (if r.overflow then none else some r.gaps) } }.extSettle r.stream)

/-! ## Repair (R235) -/

/-- Sends a staged packet to a member, while the leg's repair data, at 40 Gb/s, ends within the 10 µs in which a request is answered
(R235). DESIGN CHOICE (log entry 102): so the limit and its window are read. -/
def State.sendRepair (s : State) (rank merge q : Nat) (p : RtpPacket) : State :=
  let i := s.wayTo rank
  let l := s.leg i
  let done := max l.repairTo s.time.up + cdiv (8 * (40 + p.payload.length)) 40
  if done ≤ s.time.up + 10000 then (s.setLeg i { l with repairTo := done }).sendTo rank (.repairData merge q p) else s

/-- REPAIR_REQUEST (R235): packets accepted within the last 4 ms are sent. -/
def execRepairRequest (h : RecHdr) (merge first count : Nat) (s : State) : Host.Outcome State Fault Refusal :=
  .next (
    let t := s.takeRecord h false (.repairRequest merge first count)
    if !t.2 then t.1
    else
      let g := t.1.merge merge
      let held (q : Nat) : Bool := match tget g.got q with
        | some (at_, _) => decide (t.1.time.now ≤ at_ + stageTicks)
        | none => false
      (g.stage.filter fun e => decide ((e.1 + 2 ^ 32 - first % 2 ^ 32) % 2 ^ 32 < min count 64) && held e.1).foldl
        (fun (u : State) e => u.sendRepair h.rank merge (e.1 % 2 ^ 32) e.2) t.1)

/-- REPAIR_DATA (R190, R235): the packet enters the merge as a third path. -/
def execRepairData (h : RecHdr) (merge : Nat) (x : RepairPkt) (ingress : Nat) (s : State) : Host.Outcome State Fault Refusal :=
  .next (
    let p := x.pkt
    let t := s.takeRecord h false (.repairData merge x.seq p)
    if !t.2 then t.1
    else
      let s := t.1
      match s.net.flows.find? fun e => e.2.arg.kind == 1 && mergeIndex e.2.arg.essence e.2.arg.target == merge &&
          s.targetTakes e.1 e.2.arg p ingress == some true with
      | none => s
      | some (_, e) =>
        let r := s.intoMerge 32768 e.arg 2 none p ingress
        if r.2 then r.1.bump Reg.GRP_REPAIR_FILLED else r.1)

/-! ## Handover (R246, R247) -/

/-- HANDOVER (R246 step 4): a STANDBY target acknowledges. -/
def execHandover (h : RecHdr) (tH target : Nat) (diverged : List Nat) (s : State) : Host.Outcome State Fault Refusal :=
  .next (
    let t := s.takeRecord h false (.handover tH target diverged)
    if !t.2 then t.1
    else
      let s := { t.1 with grp := { t.1.grp with notice := some { tH := tH, target := target, diverged := diverged } } }
      if target = s.grp.rank ∧ s.grp.role == .standby then
        { s with grp := { s.grp with targetOf := some tH } }.sendAll (.handoverAck tH)
      else s)

/-- An ack of the notice with this t_h. -/
def Handover.ack (o : Handover) (tH rank : Nat) : Handover := if o.tH = tH ∧ o.target = rank then { o with acked := true } else o

/-- HANDOVER_ACK (R246 step 5); one that comes after t_h finds no handover (Table 12-7). -/
def execHandoverAck (h : RecHdr) (tH : Nat) (s : State) : Host.Outcome State Fault Refusal :=
  .next (
    let t := s.takeRecord h false (.handoverAck tH)
    if !t.2 then t.1
    else
      { t.1 with grp := { t.1.grp with
        handover := t.1.grp.handover.map fun o => if o.retry then o else o.ack tH h.rank
        notice := t.1.grp.notice.map (·.ack tH h.rank) } })

/-- The active's side of t_h with the ack (R246 step 5, R260). -/
def State.handOff (s : State) (o : Handover) : State :=
  let s := s.chans.foldl (fun (t : State) (e : Nat × Chan) => t.updGch e.1 fun g =>
    { g with emitTo := if e.2.handoverPic o.tH = 0 then none else some (e.2.handoverPic o.tH - 1), emitFrom := none }) s
  let s := { s with grp := { s.grp with handover := none, activeRank := o.target } }
  let s := (s.bump Reg.GRP_HANDOVERS).sticky Reg.GRP_STATUS 0x20000
  if o.leave then s.detach
  else if o.diverged.isEmpty then s.setRole .standby
  else (o.diverged.foldl (fun (t : State) c => t.updGch c (·.resync)) s).setRole .joining

/-- The target's side of t_h (R246 step 4, R247). -/
def State.handIn (s : State) (tH : Nat) (diverged : List Nat) : State :=
  let s := s.chans.foldl (fun (t : State) (e : Nat × Chan) => t.updGch e.1 fun g =>
    { g with emitTo := none, emitFrom := some (e.2.handoverPic tH) }) s
  let s := { s with grp := { s.grp with targetOf := none, notice := none } }
  let s := (s.bump Reg.GRP_HANDOVERS).sticky Reg.GRP_STATUS 0x20000
  let s := diverged.foldl (fun (t : State) c => t.onChan c fun ch u => u.refreshAt c (ch.handoverPic tH)) s
  s.setRole .active

/-- HANDOVER_INSTANT (R246, R247): t_h at the active, at the target, and at a third member. -/
def execHandoverInstant (s : State) : Host.Outcome State Fault Refusal :=
  .next (
    match s.grp.handover, s.grp.targetOf, s.grp.notice with
    | some o, _, _ =>
      if o.retry then s
      else if o.acked then s.handOff o
      else { s with grp := { s.grp with handover := some { o with retry := true } } }.bump Reg.GRP_HANDOVER_FAILS
    | none, some tH, n => s.handIn tH (match n with | some o => o.diverged | none => [])
    | none, none, some o =>
      let s := { s with grp := { s.grp with notice := none } }
      if o.acked && (s.grp.role == .standby || s.grp.role == .joining) then
        (o.diverged.filter fun c => (s.gch c).inSync).foldl
          (fun (t : State) c => t.onChan c fun ch u => u.refreshAt c (ch.handoverPic o.tH)) s
      else s
    | none, none, none => s)

/-- HANDOVER_RETRY (R246 step 6). -/
def execHandoverRetry (s : State) : Host.Outcome State Fault Refusal :=
  .next (
    match s.grp.handover with
    | some o =>
      if o.retry then
        let s := { s with grp := { s.grp with handover := none } }
        match (if s.standbys.contains o.target then some o.target else s.standbys.head?) with
        | some k => s.startHandover k o.diverged o.leave
        | none => s
      else s
    | none => s)

/-- STAND_DOWN (R248): the first STANDBY in takeover order takes over at once. -/
def execStandDown (h : RecHdr) (reason : Nat) (s : State) : Host.Outcome State Fault Refusal :=
  .next (
    let t := s.takeRecord h false (.standDown reason)
    if !t.2 then t.1
    else
      let s := t.1
      let first := (takeoverOrder h.rank s.grp.size).find? fun k =>
        (k == s.grp.rank && s.grp.role == .standby) || ((s.peer k).role == 2 && s.reachable k)
      if h.rank = s.grp.activeRank ∧ first = some s.grp.rank then s.takeOver else s)

/-! ## Rejoin (R256 to R259) -/

/-- REJOIN_PLAN (R256): s_c and later s_r of each resyncing channel; every member takes part in the rejoin refresh. -/
def execRejoinPlan (h : RecHdr) (plan : List (Nat × Nat × Option Nat)) (s : State) : Host.Outcome State Fault Refusal :=
  .next (
    let t := s.takeRecord h false (.rejoinPlan plan)
    if !t.2 || h.role != 1 then t.1
    else
      let s := plan.foldl (fun (u : State) (e : Nat × Nat × Option Nat) =>
        let known := tget u.chans e.1
        let resyncs := u.grp.role == Role.joining && ((u.gch e.1).phase != ResyncPhase.none || known.isNone)
        match e.2.2 with
        | none =>
          let u := u.updGch e.1 fun g =>
            { g with sC := some (match known with | some ch => ch.serial e.2.1 | none => e.2.1), sR := none, rp := none }
          if resyncs then u.updGch e.1 fun g => { g with phase := .copy, matchRun := 0, inSync := false } else u
        | some r =>
          match known with
          | some ch =>
            let u := u.setRefresh e.1 (ch.serial r)
            if resyncs then u.updGch e.1 fun g => { g with phase := .refresh } else u
          | none => u) t.1
      s.finishResync)

/-- REJOIN_DONE (R232). -/
def execRejoinDone (h : RecHdr) (chans : List Nat) (s : State) : Host.Outcome State Fault Refusal :=
  .next (
    let t := s.takeRecord h false (.rejoinDone chans)
    if !t.2 then t.1
    else
      let p := t.1.peer h.rank
      let s := { t.1 with grp := { t.1.grp with
        peers := tset t.1.grp.peers h.rank { p with needs := p.needs.filter fun c => !(chans.contains c) } } }
      chans.foldl (fun (u : State) c =>
        if u.grp.role == Role.active && !(u.needed c) then u.updGch c fun g => { g with sC := none, sR := none, rp := none } else u) s)

/-- A member starts the resync of a channel again at step 2, waiting for a new s_c. -/
def State.restartCopy (s : State) (c : Nat) : State :=
  (s.updGch c (·.resync)).sticky (Reg.GRP_CHN_STATUS c) 0x20000

/-- REJOIN_COPY_COMPLETE (R256 steps 2 and 3), at the active: failed blocks go once more, a second failure names a new s_c, and a
whole copy names s_r. -/
def execRejoinCopyComplete (c : Nat) (failed : List Nat) (s : State) : Host.Outcome State Fault Refusal :=
  .next (
    if s.grp.role != .active || (s.gch c).sC.isNone || !(thas s.chans c) then s
    else
      let before := (s.gch c).failedBlocks
      if failed.any before.contains then (s.sticky (Reg.GRP_CHN_STATUS c) 0x20000).planCopies [c]
      else if failed.isEmpty then s.nameRefresh c
      else failed.foldl (fun (t : State) b => t.sendCopy c b) (s.updGch c fun g => { g with failedBlocks := before ++ failed }))

/-- An index of the active's flow table as this unit's own. -/
def remapIx (m : Tab Nat) (x : Nat) : Nat := tgetD m x x

/-- The entry a key has here, by the active's index. -/
def State.flowMap (s : State) (fs : List (Nat × FlowArg)) : Tab Nat :=
  fs.foldl (fun (m : Tab Nat) e => match findKey s.net.flows (keyOf e.2) with | some x => tset m e.1 x | none => m) []

/-- Inserts the entries that are not here yet; none when one finds no place. -/
def State.copyFlows (s : State) : List (Nat × FlowArg) → Option State
  | [] => some s
  | (_, a) :: r =>
    if (findKey s.net.flows (keyOf a)).isSome then s.copyFlows r
    else
      match placement s.net.flows (keyOf a) with
      | some (moves, x) => (s.insertFlow a moves x).copyFlows r
      | none => none

/-- Places the surfaces that are not here yet with what they hold (R135, R374); none when one finds no place. -/
def State.copySurfs (s : State) : List SurfCopy → Option State
  | [] => some s
  | q :: r =>
    if thas s.surf.surfs q.handle then s.copySurfs r
    else
      let n := roundUp q.size 4096
      match placeIn s.surf.heap (surfaceStack q.owner) n (octetsFrom 0) with
      | some a =>
        let f : Surface := ⟨q.owner, q.kind, q.width, q.height, n, q.size, a⟩
        (({ s with surf := { s.surf with
          surfs := tset s.surf.surfs q.handle f, nextHandle := max s.surf.nextHandle (q.handle + 1)
          heap := tset s.surf.heap a (n, 64 + q.handle) } } : State).hbmWrite a q.bytes).copySurfs r
      | none => none

/-- A running configuration with the flow entries of this unit. -/
def remapRun (m : Tab Nat) (q : RunCfg) : RunCfg := { q with flowA := remapIx m q.flowA, flowB := remapIx m q.flowB }

/-- A picture of a long-term slot as the copy brings it, with its damage marks (R70, Table 12-9). -/
def slotPic (q : SlotCopy) : Pic :=
  { num := q.num, poc := q.poc, rows := q.rows.map fun e => (e.1, { fin := e.2, final := true, proofFinal := true, damage := tgetD q.damage e.1 [] }) }

/-- Copied layers: a protected layer is written to the cache and both copies (Table 12-9). -/
def copiedLayers (l : LayerState) : LayerState :=
  { l with prot := l.prot.map fun p => { p with copyA := p.cache, copyB := p.cache, hurt := false } }

/-- A copied channel as this unit holds it: its own resources, the active's definition and state (Table 12-9). -/
def copiedChan (base : Chan) (p : ChannelDefineArg) (m : Tab Nat) (k : ChanCopy) : Chan :=
  { base with
    cfg := { p with rate := resolveRate p.main p.rate }
    st := k.st, startTime := k.startTime, startPic := k.startPic, stopPic := k.stopPic, base := k.base, nextPic := k.nextPic
    active := remapRun m k.active, shadow := remapRun m k.shadow, layers := copiedLayers k.layers, refs := k.refs, rate := k.rate
    alfFrom := k.alfFrom, alfRows := k.alfRows, pics := k.slots.foldl (fun t q => tset t q.pic (slotPic q)) base.pics }

/-- Streams that the copy brings and this unit lacks, and the alignment groups. -/
def State.copyStreams (s : State) (m : Tab Nat) (k : ChanCopy) : State :=
  let s := k.ext.foldl (fun (t : State) (a : ExtStreamArg) =>
    if thas t.ext a.stream then t
    else
      let a : ExtStreamArg := { a with flowA := remapIx m a.flowA, flowB := remapIx m a.flowB }
      { t with ext := tset t.ext a.stream { arg := a, shares := (slotsOf a.format a.rateId).getD 0 } }) s
  let s := k.audio.foldl (fun (t : State) (a : AudioStreamArg) =>
    if thas t.aud.streams a.stream then t
    else
      let a : AudioStreamArg := { a with flowA := remapIx m a.flowA, flowB := remapIx m a.flowB }
      { t with aud := { t.aud with streams := tset t.aud.streams a.stream { arg := a, fifo := { target := a.target } } } }) s
  k.groups.foldl (fun (t : State) e => { t with aud := { t.aud with groups := tset t.aud.groups e.1 e.2 } }) s

/-- Takes the copy of a channel in (R256, R257, Table 12-9); none when it does not fit. A channel the unit already holds keeps its
resources; a new one is placed as CHANNEL_DEFINE would. -/
def State.applyCopy (s : State) (k : ChanCopy) : Option State :=
  let c := k.define.channel
  match (s.copyFlows k.flows).bind fun t => t.copySurfs k.surfs with
  | none => none
  | some t =>
    let m := t.flowMap k.flows
    let d := k.define.main
    let p : ChannelDefineArg := { k.define with main := { d with flowA := remapIx m d.flowA, flowB := remapIx m d.flowB } }
    let new := (k.flows.filter fun e => (findKey s.net.flows (keyOf e.2)).isNone).map (·.2)
    let t := (t.copyStreams m k).syncMembers new
    let put (u : State) (base : Chan) : State :=
      let u := u.setChan c (copiedChan base p m k)
      let u := u.updTxc c fun x => { x with nextSeq := k.nextSeq, tsCc := k.tsCc, tsOrigin := k.tsOrigin }
      u.updGch c fun g => { g with gen := k.gen, genNow := k.genNow, held := tmap k.held fun _ q => remapRun m q }
    match tget t.chans c with
    | some ch => some (put t ch)
    | none =>
      if t.fits p then
        let ch := chanOf p ((t.placeEngines ((slotsOf d.format d.rateId).getD 1) (mainK d)).getD []) t.time.now
        let t := t.clearChanRegs c
        some (put { t with surf := { t.surf with heap := (placeChannel t.surf.heap c d p.refs).getD t.surf.heap } } ch)
      else none

/-- Offsets 16 on of a copy record (R232): block identifier, offset and data, and on the last record the block's CRC. -/
def copyBody (h : RecHdr) (r : CopyRec) : List Byte :=
  StayMsg.body h (.copy r.chan r.block none none) ++ leBytes 4 r.offset ++ r.data ++ (if r.last then leBytes 4 r.blockCrc.toNat else [])

/-- COPY_RECORD (R256 step 2, R257): the last record of a block checks its CRC; the state block brings the channel. -/
def execCopyRecord (h : RecHdr) (r : CopyRec) (s : State) : Host.Outcome State Fault Refusal :=
  .next (
    let t := s.takeBytes h false (.copy r.chan r.block r.copy r.slot) (copyBody h r)
    if !t.2 || t.1.grp.role != .joining || (t.1.gch r.chan).phase != .copy || !r.last then t.1
    else
      let s := t.1
      let g := s.gch r.chan
      if !r.crcOk then
        if g.failedBlocks.contains r.block then s.restartCopy r.chan
        else s.updGch r.chan fun g => { g with failedBlocks := g.failedBlocks ++ [r.block] }
      else
        match r.copy with
        | some k =>
          if k.define.channel != r.chan then s
          else
            match s.applyCopy k with
            | some u => u
            | none =>
              (s.updGch r.chan fun g => { g with phase := .none, inSync := false, refused := true }).sticky
                (Reg.GRP_CHN_STATUS r.chan) 0x40000
        | none =>
          match r.slot with
          | some q => s.updChan r.chan fun ch => { ch with pics := tset ch.pics q.pic (slotPic q) }
          | none => s)

/-- COPY_RETRY_TIMER (R257): the joiner goes back to step 2 for a channel it refused; the active names a new s_c for it. -/
def execCopyRetryTimer (c : Nat) (s : State) : Host.Outcome State Fault Refusal :=
  .next (
    if s.grp.role == .joining && (s.gch c).refused then s.updGch c fun g => { g.resync with refused := false }
    else if s.grp.role == .active && s.needed c && thas s.chans c then s.planCopies [c]
    else s)

/-! ## Group commands (R222, R246, R256, R260, R352, R353) -/

/-- GROUP_FORM's and GROUP_JOIN's values (Tables 12-1 and 16-15, R352). -/
def State.groupArgOk (s : State) (p : GroupArg) (join : Bool) : Bool :=
  decide (1 ≤ p.groupId) && decide (p.groupId ≤ 255) && (p.size == 2 || p.size == 3) && decide (1 ≤ p.rank) && decide (p.rank ≤ p.size)
    && (if join then p.firstActive == 0 else decide (1 ≤ p.firstActive) && decide (p.firstActive ≤ p.size))
    && decide (p.addrs.length ≤ 11) && !(hasRepeat (p.addrs.map (·.1))) && p.addrs.all fun a => s.ifExists a.1

/-- The group engine at the start of a membership: device counts and sticky bits cleared (R262), R242 in force. -/
def State.enterGroup (s : State) (p : GroupArg) (forming : Bool) (active : Nat) : State :=
  let s := s.clearRegs 0x00700000 0x00700100
  { s with grp := { s.grp with
    rank := p.rank, size := p.size, groupId := p.groupId, firstActive := p.firstActive, service := p.addrs, forming := forming
    activeRank := active, legA := { s.grp.legA with helloOk := false }, legB := { s.grp.legB with helloOk := false }
    peers := [], chans := [], handover := none, targetOf := none, notice := none, heldPkts := [], planLag := true
    waiting := false, overlapWith := none, standDown := false } }

/-- GROUP_FORM (R222). -/
def State.doGroupForm (s : State) (p : GroupArg) : Answer :=
  s.checked [(!(s.groupArgOk p false), eBadParam), (s.grp.role != .none || !s.chans.isEmpty, eState)] fun s =>
    let s := s.enterGroup p (p.rank != p.firstActive) p.firstActive
    let s := s.setRole (if p.rank = p.firstActive then .active else .unverified)
    ((s.sendHello 0).sendHello 1).done

/-- GROUP_JOIN (R256, R352, R420): it completes when its first hello has been sent. -/
def State.doGroupJoin (s : State) (p : GroupArg) : Answer :=
  s.checked [
      (!(s.groupArgOk p true), eBadParam),
      (!(s.grp.role == .none || s.grp.role == .detached) || !s.chans.isEmpty || s.dev.fatal, eState)] fun s =>
    let s := (s.enterGroup p false 0).setRole .joining
    let t := (s.sendHello 0).sendHello 1
    { st := t, hold := if t.portUp 0 || t.portUp 1 then none else some .hello }

/-- GROUP_LEAVE (R260, R353): on the ACTIVE a planned handover first. -/
def State.doGroupLeave (s : State) : Answer :=
  s.checked [(!s.member || (s.grp.role == .active && s.standbys.isEmpty), eState)] fun s =>
    if s.grp.role == .active then
      match s.grp.handover, s.standbys with
      | some o, _ => { s with grp := { s.grp with handover := some { o with leave := true } } }.done
      | none, k :: _ => (s.startHandover k [] true).done
      | none, [] => s.done
    else s.detach.done

/-- A member is STANDBY with every channel in sync. -/
def State.goodTarget (s : State) (k : Nat) : Bool := s.standbys.contains k && (s.peer k).needs.isEmpty

/-- GROUP_HANDOVER (R246, R353): completes with t_h. -/
def State.doGroupHandover (s : State) (target : Nat) : Answer :=
  let k := if target = 0 then s.standbys.head? else if s.goodTarget target then some target else none
  s.checked [
      (decide (3 < target) || (s.member && decide (s.grp.size < target)), eBadParam),
      (s.grp.role != .active || (match k with | some k => !(s.goodTarget k) | none => true), eState)] fun s =>
    match s.grp.handover, k with
    | some o, _ => s.reply (leBytes 4 (o.tH % 1000000000) ++ leBytes 4 (o.tH / 1000000000))
    | none, some k =>
      let t := s.startHandover k [] false
      let tH := s.time.nowNs + 5000000
      t.reply (leBytes 4 (tH % 1000000000) ++ leBytes 4 (tH / 1000000000))
    | none, none => s.done

end Sys2Proof.Machine
end

