-- ==== Sys2Proof/Machine/Ratline.lean ====
section
/-!
DEFINITION. The ratline chain (chapter 14): receiving and forwarding messages (R282 to R285, R291), enumeration (R286, R287), the
ring's state (R288), completions of forwarded commands (R289, R290), power budgets (R292) and test grants (R293). Executing a
forwarded command stands in `Machine/Commands.lean`.
-/
namespace Sys2Proof.Machine

/-! ## Receiving (R282 to R284, R291) -/

/-- Forgets what has been taken from a source that is given an address, and from address 0, which it leaves (R284). -/
def State.clearWindow (s : State) (a : Nat) : State :=
  { s with rat := { s.rat with windows := tdel (tdel s.rat.windows a) 0 } }

/-- A sequence number of a source has been taken, or lies below its window of 256 (R284). -/
def State.ratDuplicate (s : State) (src seq : Nat) : Bool :=
  let w := tgetD s.rat.windows src []
  w.contains seq || decide (seq + 256 < maxNat w)

/-- Notes a sequence number as taken. -/
def State.ratTaken (s : State) (src seq : Nat) : State :=
  let w := insertNat seq (tgetD s.rat.windows src [])
  { s with rat := { s.rat with windows := tset s.rat.windows src (w.filter fun q => decide (maxNat w ≤ q + 256)) } }

/-- The message as it is passed on (Table 14-1). -/
def passedOn (h : RatHdr) (m : RatMsg) : RatFrame :=
  { west := h.west, manager := h.manager, src := h.src, dst := h.dst, seq := h.seq, hops := h.hops + 1, msg := m }

/-- Forwards a message out of the opposite port (R283). -/
def State.ratForward (s : State) (h : RatHdr) (m : RatMsg) : State :=
  let own := s.rat.addr
  if (own != 0 && (h.dst == own || h.src == own)) || decide (15 ≤ h.hops) then s
  else if s.ratUp (1 - h.port) then s.ratOut (1 - h.port) (passedOn h m)
  else s.bump Reg.CHAIN_FWD_DROPS

/-- The message is for this unit (R283). -/
def State.ratMine (s : State) (h : RatHdr) (m : RatMsg) : Bool :=
  (s.rat.addr != 0 && h.dst == s.rat.addr) || h.dst == 0xFF ||
    (h.dst == 0 && match m with | .assign id _ => id == s.dev.nvm.unitId | _ => false)

/-- What receiving a message other than ENUM gives: the state, whether the message is taken, and whether it was a duplicate. -/
structure RatTake where
  st    : State
  taken : Bool
  dup   : Bool

/-- The link layer takes a frame of a port that is UP (R282, R285): one with a bad CRC is counted; the next in order is acknowledged and
passed up; one delivered already is acknowledged again and discarded; one ahead of a lost frame waits for the replay. -/
def State.ratLinkIn (s : State) (h : RatHdr) (m : RatMsg) : State × Bool :=
  let n := tgetD s.rat.rxLink h.port 0
  if !(s.ratUp h.port) then (s, false)
  else if !(h.ok m) then (s.bump Reg.CHAIN_CRC_ERRORS, false)
  else if h.link = n then
    ({ s with rat := { s.rat with rxLink := tset s.rat.rxLink h.port ((n + 1) % 256) } }.emit (.ack (2 + h.port) h.link), true)
  else if (n + 256 - h.link) % 256 ≤ 8 then (s.emit (.ack (2 + h.port) h.link), false)
  else (s, false)

/-- A message that the link layer has passed up (R283, R284). -/
def State.ratReceive (s : State) (h : RatHdr) (m : RatMsg) : RatTake :=
  let s := s.ratForward h m
  let s := match m with | .assign _ a => s.clearWindow a | _ => s
  if !(s.ratMine h m) then ⟨s, false, false⟩
  else if s.ratDuplicate h.src h.seq then ⟨s.bump Reg.CHAIN_DUPLICATES, false, true⟩
  else ⟨s.ratTaken h.src h.seq, true, false⟩

/-- Firmware is there to take messages. -/
def State.fwAlive (s : State) : Bool := s.mbx.fwReady && !s.ctl.restarting

/-- A message waits for firmware in the receive ring of 64 (R291). -/
def State.ratWait (s : State) (h : RatHdr) (m : RatMsg) : State :=
  if s.rat.rxRing.length < 64 then
    { s with rat := { s.rat with rxRing := s.rat.rxRing ++ [{ passedOn h m with hops := h.hops }] } }
  else s.bump Reg.CHAIN_RX_OVERFLOWS

/-! ## Enumeration (R286, R287) -/

/-- A unit is left at address 0 (R286). -/
def State.chainFull (s : State) (id : BitVec 64) : State :=
  ((s.bump Reg.CHAIN_UNNUMBERED).sticky Reg.CHAIN_STATUS 0x40000).raise 0x0061 1 0xFF id.toNat

/-- An ENUM message out of a port. -/
def State.sendEnum (s : State) (port : Nat) (west : Bool) (next : Nat) (ids : List (BitVec 64)) (fin : Bool) : State :=
  s.ratNext.ratOut port { west := west, manager := true, src := 1, dst := 0xFF, seq := s.rat.seq, hops := 0, msg := .enum next ids fin }

/-- The walk west begins from the west port (R286 step 4), or ends there. -/
def State.walkWest (s : State) : State :=
  let s := ({ s with rat := { s.rat with ring := 2, enumDone := true, westWalk := true } }.sticky Reg.CHAIN_STATUS 0x10000)
  if s.ratUp 1 then s.sendEnum 1 true 16 (tvals s.rat.table) false else s

/-- The manager starts an enumeration (R286 step 1). -/
def State.enumerate (s : State) : State :=
  let s := { s with rat := { s.rat with addr := 1, table := [(1, s.dev.nvm.unitId)], westWalk := false, ring := 0 } }
  if s.ratUp 0 then s.sendEnum 0 false 2 [s.dev.nvm.unitId] false
  else if s.ratUp 1 then s.walkWest
  else { s with rat := { s.rat with enumDone := true } }

/-- The table of a walk: units numbered from an address upward, or downward. -/
def walkTable (ids : List (BitVec 64)) (from_ : Nat) (up : Bool) : Tab (BitVec 64) :=
  ids.zipIdx.foldl (fun (t : Tab (BitVec 64)) e => tset t (if up then from_ + e.2 else from_ - e.2) e.1) []

/-- The manager's own walk comes back (R286 step 4). -/
def State.walkBack (s : State) (port : Nat) (ids : List (BitVec 64)) (fin : Bool) : State :=
  if s.rat.westWalk then
    let old := s.rat.table
    let west := walkTable (ids.drop old.length) 16 false
    { s with rat := { s.rat with table := west.foldl (fun t e => tset t e.1 e.2) old, westWalk := false } }
  else
    let s := { s with rat := { s.rat with table := walkTable ids 1 true } }
    if fin then s.walkWest
    else if port = 1 then { s with rat := { s.rat with ring := 1, enumDone := true } }
    else s

/-- A worker on the walk (R286 steps 2 and 3): it takes the next address, records its unit_id and passes the walk on, or back with
end set. A unit beyond address 16, or where the two walks would collide, stays at 0: the payload lists the units numbered so
far, the manager among them, and the addresses are used up after 16. -/
def State.walkOn (s : State) (h : RatHdr) (next : Nat) (ids : List (BitVec 64)) : State :=
  let room := decide (ids.length < 16)
  let id := s.dev.nvm.unitId
  let s := if room then { s with rat := { s.rat with addr := next } } else { s with rat := { s.rat with addr := 0 } }.chainFull id
  let next' := if room then (if h.west then next - 1 else next + 1) else next
  let ids' := if room then ids ++ [id] else ids
  let out := 1 - h.port
  if s.ratUp out then s.ratOut out (passedOn h (.enum next' ids' false))
  else s.ratOut h.port { passedOn h (.enum next' ids' true) with west := !h.west }

/-- Firmware takes an ENUM message (R280, R286). -/
def State.takeEnum (s : State) (h : RatHdr) (next : Nat) (ids : List (BitVec 64)) (fin : Bool) : State :=
  if s.rat.manager then
    if ids.head? != some s.dev.nvm.unitId then
      { s with rat := { s.rat with conflict := true } }.raise 0x0060 2 0xFF ((ids.headD 0).toNat)
    else if s.rat.conflict then s
    else s.walkBack h.port ids fin
  else if fin then
    if s.ratUp (1 - h.port) then s.ratOut (1 - h.port) (passedOn h (.enum next ids true)) else s.bump Reg.CHAIN_FWD_DROPS
  else s.walkOn h next ids

/-- ENUM (R286): the walk is passed on by each unit it reaches, outside the forwarding rules of R283. -/
def execEnum (h : RatHdr) (next : Nat) (ids : List (BitVec 64)) (fin : Bool) (s : State) : Host.Outcome State Fault Refusal :=
  .next (
    let t := s.ratLinkIn h (.enum next ids fin)
    if !t.2 then t.1
    else if t.1.fwAlive then t.1.takeEnum h next ids fin
    else t.1.ratWait h (.enum next ids fin))

/-- The address ASSIGN gives a unit_id (R287): the one the table holds, else the lowest free one. -/
def RatState.addressFor (r : RatState) (id : BitVec 64) : Option Nat :=
  match r.table.find? fun e => e.2 == id with
  | some (a, _) => some a
  | none => (rangeFrom 2 15).find? fun a => !(thas r.table a)

/-- The manager answers an ANNOUNCE (R287). -/
def State.takeAnnounce (s : State) (id : BitVec 64) : State :=
  if s.manages then
    match s.rat.addressFor id with
    | some a => ({ s with rat := { s.rat with table := tset s.rat.table a id } }.clearWindow a).ratSend 0 (.assign id a)
    | none => s.chainFull id
  else s

/-- A unit takes the address it is assigned (R287). -/
def State.takeAssign (s : State) (a : Nat) : State := { s with rat := { s.rat with addr := a } }

/-- ANNOUNCE_TIMER (R287). -/
def execAnnounceTimer (s : State) : Host.Outcome State Fault Refusal :=
  .next (
    if s.rat.addr == 0 && (s.ratUp 0 || s.ratUp 1) && s.fwAlive then s.ratSend 1 (.announce s.dev.nvm.unitId) else s)

/-! ## The ring (R288) -/

/-- The manager's check of the ring every 10 ms: the reports of the last check make the map, and a new check is sent. -/
def execRingCheckTimer (s : State) : Host.Outcome State Fault Refusal :=
  .next (
    if s.manages && s.rat.enumDone && s.fwAlive then
      let e := s.rat.eastNow
      let w := s.rat.westNow
      let units := (tkeys s.rat.table).filter (· != 1)
      let s := { s with rat := { s.rat with east := e, west := w, eastNow := [], westNow := [] } }
      let s :=
        if units.isEmpty then s
        else if units.all fun a => e.contains a && w.contains a then { s with rat := { s.rat with ring := 1 } }
        else if units.all fun a => e.contains a || w.contains a then
          { s with rat := { s.rat with ring := 2 } }.sticky Reg.CHAIN_STATUS 0x10000
        else s
      s.ratSend 0xFF .ringCheck
    else s)

/-- The ratline port states of a RING_REPORT: east in bits [1:0], west in bits [3:2], as LINK_STATUS.state. -/
def State.ratPorts (s : State) : Nat :=
  let code (st : LinkState) : Nat := match st with | .down => 0 | .training => 1 | .up => 2 | .failed => 3
  code (tgetD s.lane.ports 2 {}).st + 4 * code (tgetD s.lane.ports 3 {}).st

/-- A unit answers a RING_CHECK with its states, demand and floor (R288, R292). -/
def State.takeRingCheck (s : State) : State := s.ratSend 1 (.ringReport s.ratPorts s.demandPower s.floorPower)

/-- Which way a report shows its unit to be reachable: one that came west-bound to the east port was sent from a unit reached
east-bound (R288). -/
def State.noteReach (s : State) (h : RatHdr) : State :=
  if h.port = 0 then { s with rat := { s.rat with eastNow := insertNat h.src s.rat.eastNow } }
  else { s with rat := { s.rat with westNow := insertNat h.src s.rat.westNow } }

/-- The manager keeps a report's demand and floor (R292). -/
def State.takeRingReport (s : State) (src demand floor : Nat) : State :=
  { s with rat := { s.rat with demand := tset s.rat.demand src (demand, floor) } }

/-- RING_SPLIT_TIMEOUT (R288): some numbered unit has been unreachable for 30 ms. -/
def execRingSplitTimeout (s : State) : Host.Outcome State Fault Refusal :=
  .next (
    let gone := (tkeys s.rat.table).filter fun a => a != 1 && !(s.rat.east.contains a) && !(s.rat.west.contains a)
    if s.manages && s.rat.enumDone && !gone.isEmpty then
      ({ s with rat := { s.rat with ring := 3 } }.sticky Reg.CHAIN_STATUS 0x20000).raise 0x0062 1 0xFF
        (sumNat (gone.map fun a => 2 ^ (a - 1)))
    else s)

/-! ## Budgets (R292, R358) -/

/-- The budgets of R292 from (address, demand, floor): by address, with the spare power. -/
def budgetsOf (l : Nat) (units : List (Nat × Nat × Nat)) : Tab Nat :=
  let f := sumNat (units.map fun u => u.2.2)
  let sp := sumNat (units.map fun u => u.2.1 - u.2.2)
  units.foldl (fun (t : Tab Nat) u =>
    let b := if l ≤ f ∨ sp = 0 then u.2.2 else min u.2.1 (u.2.2 + (l - f) * (u.2.1 - u.2.2) / sp)
    tset t u.1 b) []

/-- A budget from the manager is in force from the governor's next decision (R292, R358). -/
def State.applyBudget (s : State) (b : Nat) : State :=
  { s with pwr := { s.pwr with mgrBudget := some b, budgetStale := false } }.checkFloor

/-- BUDGET_TIMER (R292). -/
def execBudgetTimer (s : State) : Host.Outcome State Fault Refusal :=
  .next (
    match s.rat.limit with
    | none => s
    | some l =>
      if s.manages && s.rat.enumDone && s.fwAlive then
        let d := tset s.rat.demand 1 (s.demandPower, s.floorPower)
        let units := (d.filter fun (e : Nat × Nat × Nat) => thas s.rat.table e.1).map fun (e : Nat × Nat × Nat) => (e.1, e.2.1, e.2.2)
        let f := sumNat (units.map fun u => u.2.2)
        let b := budgetsOf l units
        let s := { s with rat := { s.rat with demand := d, budgets := b } }
        let s := if l ≤ f then (s.sticky Reg.CHAIN_STATUS 0x80000).raise 0x0063 1 0xFF f else s
        let s := s.ratSend 0xFF (.budget ((rangeFrom 1 16).map fun a => tgetD b a 0))
        s.applyBudget (tgetD b 1 0)
      else s)

/-- A numbered unit takes its budget out of a BUDGET message of its manager; an entry of 0 names none. -/
def State.takeBudget (s : State) (h : RatHdr) (b : List Nat) : State :=
  let v := b.getD (s.rat.addr - 1) 0
  if h.manager && h.src == 1 && s.rat.addr != 0 && v != 0 then s.applyBudget v else s

/-- BUDGET_TIMEOUT (R292): no BUDGET for 5 s, so the unit uses its floor. -/
def execBudgetTimeout (s : State) : Host.Outcome State Fault Refusal :=
  .next (if s.numbered then { s with pwr := { s.pwr with budgetStale := true } }.checkFloor else s)

/-! ## Test grants (R293) -/

/-- A unit is testing: it holds a grant or waits for one. -/
def RatState.testing (r : RatState) (a : Nat) : Bool := r.grants.any (·.addr == a) || r.waiting.any (·.addr == a)

/-- A request fits under the limit (R293). -/
def RatState.grantFits (r : RatState) (g : TestGrant) : Bool :=
  match r.limit with
  | none => true
  | some l =>
    decide (sumNat ((r.budgets.filter fun (e : Nat × Nat) => !(r.testing e.1)).map fun (e : Nat × Nat) => e.2)
      + sumNat (r.grants.map (·.power)) + g.power ≤ l)

/-- A unit's own grant (R293). -/
def State.granted (s : State) (block : Nat) : State :=
  { s with dev := { s.dev with test := { s.dev.test with granted := s.dev.test.granted ++ [block], asked := false } } }

/-- Grants waiting requests in the order they arrived, one block a unit, while the first fits (R293); a manager in conflict grants none
(R280). -/
def State.grantPump : Nat → State → State
  | 0, s => s
  | fuel + 1, s =>
    match s.rat.waiting with
    | [] => s
    | g :: r =>
      if !s.rat.conflict && s.rat.grantFits g && !(s.rat.grants.any (·.addr == g.addr)) then
        let s := { s with rat := { s.rat with waiting := r, grants := s.rat.grants ++ [{ g with at_ := s.time.up }] } }
        State.grantPump fuel (if g.addr = s.rat.addr then s.granted g.block else s.ratSend g.addr (.testGrant g.block g.power))
      else s

/-- The manager takes a request (R293). -/
def State.takeTestRequest (s : State) (src block power : Nat) : State :=
  if s.manages then
    State.grantPump 32 { s with rat := { s.rat with waiting := s.rat.waiting ++ [⟨src, block, power, s.time.up⟩] } }
  else s

/-- The manager takes a TEST_DONE: the grant is released. -/
def State.takeTestDone (s : State) (src block : Nat) : State :=
  if s.manages then
    State.grantPump 32 { s with rat := { s.rat with grants := s.rat.grants.filter fun g => !(g.addr == src && g.block == block) } }
  else s

/-- A unit takes a TEST_GRANT of its manager. -/
def State.takeTestGrant (s : State) (h : RatHdr) (block : Nat) : State := if h.manager && h.src == 1 then s.granted block else s

/-- GRANT_EXPIRY (R293). -/
def execGrantExpiry (addr : Nat) (s : State) : Host.Outcome State Fault Refusal :=
  .next (
    if s.rat.grants.any (·.addr == addr) then
      State.grantPump 32 ({ s with rat := { s.rat with grants := s.rat.grants.filter (·.addr != addr) } }.bump Reg.CHAIN_GRANT_EXPIRED)
    else s)

/-! ## Completions of forwarded commands (R289, R290) -/

/-- Completes a forwarded command to the host. -/
def State.finishForward (s : State) (f : Forwarded) (c : Completion) : State :=
  { s with rat := { s.rat with forwarded := s.rat.forwarded.erase f } }.complete (.host f.pair f.tag f.block)
    { c with session := if c.fetched then c.session else f.hdr.session, target := f.hdr.target, forwarded := true } false

/-- A completion answers a forwarded command: it carries its opcode, sequence and session; one with FETCHED set is the stored
block that a COMPLETION_FETCH names (R313). -/
def Forwarded.answeredBy (f : Forwarded) (c : Completion) : Bool :=
  match f.body, c.fetched with
  | .completionFetch q, true => q == c.seq
  | b, _ => opcodeOf b == c.opcode && f.hdr.seq == c.seq && f.hdr.session == c.session

/-- The manager takes a COMPLETION (R289). -/
def State.takeCompletion (s : State) (src : Nat) (c : Completion) : State :=
  match s.rat.forwarded.find? fun f => f.hdr.target == src && f.answeredBy c with
  | some f => s.finishForward f c
  | none => s

/-- COMMAND_RESEND_TIMER (R290): the same seq; a manager in conflict forwards none (R280). -/
def execCommandResendTimer (s : State) : Host.Outcome State Fault Refusal :=
  .next (
    if s.fwAlive && !s.rat.conflict then
      s.rat.forwarded.foldl (fun (t : State) f => t.ratSendAs f.hdr.target f.seq (.command f.hdr f.slot f.roles f.body)) s
    else s)

/-- FORWARD_TIMEOUT (R290): 2 s have passed without a COMPLETION. -/
def execForwardTimeout (pair seq : Nat) (s : State) : Host.Outcome State Fault Refusal :=
  .next (
    match s.rat.forwarded.find? fun f => f.pair == pair && f.hdr.seq == seq with
    | some f => s.finishForward f
        { opcode := opcodeOf f.body, seq := f.hdr.seq, session := f.hdr.session, target := f.hdr.target, duplicate := false, fetched := false
          forwarded := true, status := eTimeout, payload := [] }
    | none => s)

/-- RATLINE_REPLAY_TIMEOUT (R285): the unacknowledged frames are replayed, or the port is declared failed and they are discarded. -/
def execRatlineReplayTimeout (port : Nat) (s : State) : Host.Outcome State Fault Refusal :=
  .next (
    if 1 < port then s
    else
      match tgetD s.rat.replay port [] with
      | [] => s
      | f :: r =>
        if 4 ≤ f.replays ∨ 200000 < s.time.up - f.first then
          s.failPort (2 + port) 1
        else
          let fs := (f :: r).map fun x => { x with replays := x.replays + 1 }
          fs.foldl (fun (t : State) (x : ReplayFrame RatFrame) => t.emit (.rat port x.link x.msg))
            { s with rat := { s.rat with replay := tset s.rat.replay port fs } })

/-! ## The messages firmware takes, but for COMMAND -/

/-- Firmware takes a message (R283). -/
def State.ratHandle (s : State) (h : RatHdr) (m : RatMsg) : State :=
  match m with
  | .enum next ids fin => s.takeEnum h next ids fin
  | .announce id => s.takeAnnounce id
  | .assign _ a => s.takeAssign a
  | .command _ _ _ _ => s
  | .completion c => s.takeCompletion h.src c
  | .ringCheck => s.takeRingCheck
  | .ringReport _ d f => s.takeRingReport h.src d f
  | .budget b => s.takeBudget h b
  | .testRequest b p => s.takeTestRequest h.src b p
  | .testGrant b _ => s.takeTestGrant h b
  | .testDone b => s.takeTestDone h.src b

/-- A message that the link layer has passed up: firmware takes it, or it waits for firmware. -/
def State.ratTake (s : State) (h : RatHdr) (m : RatMsg) : State :=
  let t := s.ratReceive h m
  if !t.taken then t.st else if t.st.fwAlive then t.st.ratHandle h m else t.st.ratWait h m

/-- A message arrives at a port. -/
def State.ratArrive (s : State) (h : RatHdr) (m : RatMsg) : State :=
  let t := s.ratLinkIn h m
  if t.2 then t.1.ratTake h m else t.1

/-- ANNOUNCE (R287). -/
def execAnnounce (h : RatHdr) (id : BitVec 64) (s : State) : Host.Outcome State Fault Refusal := .next (s.ratArrive h (.announce id))

/-- ASSIGN (R287). -/
def execAssign (h : RatHdr) (id : BitVec 64) (addr : Nat) (s : State) : Host.Outcome State Fault Refusal :=
  .next (s.ratArrive h (.assign id addr))

/-- RATLINE_COMPLETION (R289, R290). -/
def execRatlineCompletion (h : RatHdr) (c : Completion) (s : State) : Host.Outcome State Fault Refusal :=
  .next (s.ratArrive h (.completion c))

/-- RING_CHECK (R288). -/
def execRingCheck (h : RatHdr) (s : State) : Host.Outcome State Fault Refusal := .next (s.ratArrive h .ringCheck)

/-- RING_REPORT (R288): both copies show a way, one is taken. -/
def execRingReport (h : RatHdr) (ports demand floor : Nat) (s : State) : Host.Outcome State Fault Refusal :=
  .next (
    let t := s.ratLinkIn h (.ringReport ports demand floor)
    if !t.2 then t.1
    else (t.1.when (t.1.rat.manager && h.dst == t.1.rat.addr) (·.noteReach h)).ratTake h (.ringReport ports demand floor))

/-- BUDGET (R292). -/
def execBudget (h : RatHdr) (b : List Nat) (s : State) : Host.Outcome State Fault Refusal := .next (s.ratArrive h (.budget b))

/-- TEST_REQUEST (R293). -/
def execTestRequest (h : RatHdr) (block power : Nat) (s : State) : Host.Outcome State Fault Refusal :=
  .next (s.ratArrive h (.testRequest block power))

/-- TEST_GRANT (R293). -/
def execTestGrant (h : RatHdr) (block power : Nat) (s : State) : Host.Outcome State Fault Refusal :=
  .next (s.ratArrive h (.testGrant block power))

/-- TEST_DONE (R293). -/
def execTestDone (h : RatHdr) (block : Nat) (s : State) : Host.Outcome State Fault Refusal := .next (s.ratArrive h (.testDone block))

/-! ## Commands (R287, R292, R354) -/

/-- CHAIN_ENUMERATE (R287, R354): it completes when the first walk has been sent. -/
def State.doChainEnumerate (s : State) : Answer :=
  s.checked [(!s.manages, eState), (!s.rat.forwarded.isEmpty, eBusy)] fun s => s.enumerate.done

/-- CHAIN_BUDGET (R292, R354). -/
def State.doChainBudget (s : State) (l : Nat) : Answer :=
  s.checked [(decide (l < 1600) || decide (84480 < l), eBadParam), (!s.manages, eState)] fun s =>
    { s with rat := { s.rat with limit := some l } }.done

end Sys2Proof.Machine
end

