-- ==== Sys2Proof/Machine/Selftest.lean ====
section
/-!
DEFINITION. The shutdown self-test (21 R444 to R447): the blocks of Table 21-4, when one starts, what its end leaves, grants of
the ratline manager (R293), and how the device leaves HALTED (R325).
-/
namespace Sys2Proof.Machine

/-- Extra power d of a block in 0.1 W (Table 21-4). -/
def blockPower (b : Nat) : Nat :=
  if b < 16 then 118 else if b < 32 then 32 else if b < 36 then 88 else if b < 40 then 24 else if b < 44 then 72 else 32

/-- The same in 1/16 W, rounded up, as TEST_REQUEST carries it (Table 14-2). -/
def blockRequest (b : Nat) : Nat := cdiv (blockPower b * 16) 10

/-- A failed block marks its engine or its proof pipeline failed (R438, R445). -/
def EngState.markBlock (e : EngState) (b : Nat) : EngState :=
  if b < 32 then { e with failed := insertNat (b % 16) e.failed }
  else if b < 40 then { e with pipeFailed := insertNat (b % 4) e.pipeFailed }
  else e

/-- The blocks of the test are under way: the device is TESTING and its channels have stopped (R325, R333). -/
def State.testRuns (s : State) : Bool :=
  s.dev.state == .testing && (match s.mbx.held with | some h => h.why != .shutdown | none => true)

/-- The power condition of R444, in 1/160 W. -/
def State.blockFits (s : State) : Bool :=
  let t := s.dev.test
  let recent := t.running.filter fun r => decide (s.time.up < r.start + 10000000)
  let d := sumNat (recent.map fun r => blockPower r.block) + blockPower t.next
  decide (s.pwr.pMeas * 10 + d * 16 ≤ min s.budgetInForce.1 5280 * 10)

/-- Fewer than four blocks run, or none on a numbered unit (R444). -/
def State.blockRoom (s : State) : Bool :=
  let n := s.dev.test.running.length
  if s.numbered then n == 0 else decide (n < 4)

/-- The next block waits for its turn alone: the test runs, has not been ended, and has a block left (R444, R446). -/
def State.blockDue (s : State) : Bool := s.testRuns && !s.dev.test.stopping && decide (s.dev.test.next < 50) && s.blockRoom

/-- Starts the next block. -/
def State.startBlock (s : State) : State :=
  let t := s.dev.test
  { s with dev := { s.dev with test := { t with next := t.next + 1, running := t.running ++ [⟨t.next, s.time.up⟩] } } }

/-- Asks the manager for the next block's power; the manager asks itself (R293). -/
def State.askGrant (s : State) : State :=
  let b := s.dev.test.next
  let s := { s with dev := { s.dev with test := { s.dev.test with asked := true } } }
  if s.rat.manager then s.takeTestRequest s.rat.addr b (blockRequest b) else s.ratSend 1 (.testRequest b (blockRequest b))

/-- SELFTEST_BLOCK_START (R293, R368, R444): the next block starts once every condition holds; on a numbered unit without a
grant, the grant is asked for. -/
def execSelftestBlockStart (s : State) : Host.Outcome State Fault Refusal :=
  .next (
    let t := s.dev.test
    if !s.blockDue then s
    else if s.numbered && !(t.granted.contains t.next) then (if t.asked then s else s.askGrant)
    else if s.blockFits && decide (s.pwr.tMax ≤ 460) && s.pwr.warn.isNone then s.startBlock
    else s)

/-- TEST_DONE for a block whose grant the unit holds (R293, R446). -/
def State.releaseGrant (s : State) (b : Nat) : State :=
  if s.dev.test.granted.contains b then
    let s := { s with dev := { s.dev with test := { s.dev.test with granted := s.dev.test.granted.filter (· != b) } } }
    if s.rat.manager then s.takeTestDone s.rat.addr b else s.ratSend 1 (.testDone b)
  else s

/-- The test is over: no block runs and none is to start (R445, R446). Firmware ends it, so not during a restart. -/
def State.settleTest (s : State) : State :=
  let t := s.dev.test
  if s.testRuns && !s.ctl.restarting && t.running.isEmpty && (t.stopping || decide (50 ≤ t.next)) then
    (t.granted.foldl (fun (u : State) b => u.releaseGrant b) s).endTest
  else s

/-- A running block ends (R445): its result counts, and a failed one is marked at once. -/
def State.blockEnd (s : State) (b : Nat) (pass : Bool) : State :=
  let t := s.dev.test
  if t.running.any (·.block == b) then
    let s := { s with
      dev := { s.dev with test := { t with
        running := t.running.filter (·.block != b)
        tested := t.tested ||| bit64 b
        failed := if pass then t.failed else t.failed ||| bit64 b } }
      eng := if pass then s.eng else s.eng.markBlock b }
    (s.releaseGrant b).settleTest
  else s

/-- No grant has come within 10 s (R293): the test ends at that block boundary. -/
def State.grantTimeout (s : State) : State :=
  if s.dev.state == .testing && s.dev.test.asked then
    { s with dev := { s.dev with test := { s.dev.test with stopping := true, asked := false } } }.settleTest
  else s

/-- A service request, or a control-complex reset, lets no further block start (R325, R446). -/
def State.stopTest (s : State) : State :=
  if s.dev.state == .testing then { s with dev := { s.dev with test := { s.dev.test with stopping := true } } }.settleTest else s

/-- The tested blocks are re-initialised and the device becomes READY (R325, R364, R369): it leaves MOORED, and after a thermal
trip tripped and the fatal flag clear. -/
def State.toReady (s : State) : State :=
  { s with
    dev := { s.dev with state := .ready, mediaOff := false, fatal := s.dev.fatal && !s.pwr.tripped }
    pwr := { s.pwr with moored := false, tripped := false }
    mem := { s.mem with selfRefresh := false } }

/-- The test begins (R325): a device executes SHUTDOWN with mode 0. -/
def State.beginTest (s : State) : State := { s with dev := { s.dev with state := .testing, test := {} } }

end Sys2Proof.Machine
end

