-- ==== Sys2Proof/Machine/Power.lean ====
section
/-!
DEFINITION. Power and heat (chapter 17): sensor scan and PMBus poll (R357), thermal limits and the trip (R364), supply warnings
and the reset level (R365 to R368), POWER_BUDGET (R332). Temperatures are in 0.25 °C, powers in 1/16 W, voltages in mV.
-/
namespace Sys2Proof.Machine

/-! ## Measurements (R357) -/

/-- A reading inside −55 °C to +150 °C of a sensor that has answered; none for an invalid sensor. -/
def validReading (r : Option Int) : Option Int :=
  match r with
  | some t => if -220 ≤ t ∧ t ≤ 600 then some t else none
  | none => none

/-- The highest valid reading with its sensor, from sensor `i` on. -/
def hottest : Nat → List (Option Int) → Option (Int × Nat)
  | _, [] => none
  | i, r :: rs =>
    match r, hottest (i + 1) rs with
    | some t, some (u, k) => if u ≤ t then some (t, i) else some (u, k)
    | some t, none => some (t, i)
    | none, x => x

/-- T_max and its sensor (R357, R449): the highest valid reading, 6 °C higher on built-in defaults; 125 °C when fewer than 16
sensors are valid. -/
def tMaxOf (readings : List (Option Int)) (defaults : Bool) : Int × Nat :=
  let h := (hottest 0 readings).getD (500, 0)
  let t := if (readings.filter (·.isSome)).length < 16 then 500 else h.1
  (if defaults then t + 24 else t, h.2)

/-- The trim of a die sensor in 0.25 °C (Table 21-7), none on built-in defaults (R449). -/
def sensorTrim (cal : Option (List Byte)) (i : Nat) : Int :=
  match cal with
  | some c => (BitVec.ofNat 16 (leNat ((c.drop (432 + 2 * i)).take 2))).toInt
  | none => 0

/-- TEMP_SENSOR_SCAN (R357): `readings` of sensors 0 to 31 before their trim, none for one that has not answered for 1 ms. -/
def execTempSensorScan (readings : List (Option Int)) (s : State) : Host.Outcome State Fault Refusal :=
  .next (
    let rs := (List.range 32).map fun i => validReading ((readings.getD i none).map (· + sensorTrim s.dev.calNow i))
    let t := tMaxOf rs s.dev.calInvalid
    let s := { s with pwr := { s.pwr with sensors := rs, tMax := t.1, tSensor := t.2 } }
    s.when (rs.any (·.isNone)) (·.sticky Reg.PWR_STATUS 0x400))

/-- Maximum powers of the rails of a calibration record, in its order (Table 21-7). -/
def railMaxima (cal : List Byte) : List Nat :=
  let at_ (i : Nat) : Nat := leNat [cal.getD i 0]
  let n := ((List.range 32).find? fun i => at_ (512 + 8 * i) == 0).getD 32
  (List.range n).map fun i => at_ (516 + 8 * i) + 256 * at_ (517 + 8 * i)

/-- The microwatts of 1/16 W. -/
def unitPower : Nat := 62500

/-- The sum of V × I in µW over the rails in force, V in mV and I in mA: a rail without a fresh reading counts its maximum (R357); on
built-in defaults every rail of Table 17-1 is taken at its maximum (R449). -/
def railSum (cal : Option (List Byte)) (rails : List (Option (Nat × Nat))) : Nat × Bool :=
  match cal with
  | none => (5280 * unitPower, false)
  | some c =>
    let ms := (railMaxima c).zipIdx
    let power (e : Nat × Nat) : Nat := match rails.getD e.2 none with
      | some (v, i) => v * i
      | none => e.1 * unitPower
    (sumNat (ms.map power), ms.any fun e => (rails.getD e.2 none).isNone)

/-- PMBUS_POLL (R357): READ_VOUT and READ_IOUT of the rails by the record's order, none for one without a fresh reading for 10 ms.
P_meas is the mean of the last ten polls. DESIGN CHOICE (log entry 105): in whole 1/16 W, rounded down. -/
def execPmbusPoll (rails : List (Option (Nat × Nat))) (s : State) : Host.Outcome State Fault Refusal :=
  .next (
    let r := railSum s.dev.calNow rails
    let ps := (r.1 :: s.pwr.polls).take 10
    let s := { s with pwr := { s.pwr with polls := ps, pMeas := sumNat ps / (ps.length * unitPower), railStale := r.2 } }
    (s.when r.2 (·.sticky Reg.PWR_STATUS 0x400)).checkFloor)

/-! ## Thermal limits (R364) -/

/-- THERMAL_HIGH: T_max has stayed at or above 125 °C for 10 ms. -/
def execThermalHigh (s : State) : Host.Outcome State Fault Refusal :=
  .next (
    if 500 ≤ s.pwr.tMax then
      (s.raise 0x0071 1 s.pwr.tSensor (s.pwr.tMax.toNat)).sticky Reg.PWR_STATUS 0x200
    else s)

/-- A trip: the fatal error, the switched domains off, HALTED, tripped (R364). -/
def State.trip (s : State) (code obj detail : Nat) : State :=
  let s := s.fatal code obj detail
  { s with
    dev := { s.dev with mediaOff := true, state := .halted }
    pwr := { s.pwr with tripped := true } }

/-! ## Supply warnings (R366 to R368) -/

/-- The role action of a warning (R366). -/
def State.warnRole (s : State) : State :=
  match s.grp.role with
  | .active => s.selfDemote (tkeys s.chans)
  | .standby => s.resyncAll.setRole .joining
  | .joining => (tkeys s.chans).foldl (fun (t : State) c => if (t.gch c).inSync then t else t.updGch c (·.resync)) s
  | .none => s
  | .unverified => s
  | .detached => s

/-- SUPPLY_WARNING_CROSSING (R366, R367): source 0 VDD_CORE, 1 VDD_SRAM, 2 the pin; `mv` is the rail's sample. -/
def execSupplyWarningCrossing (src mv : Nat) (s : State) : Host.Outcome State Fault Refusal :=
  .next (
    let s := { s with pwr := { s.pwr with
      warnPin := s.pwr.warnPin || src == 2, vCore := if src = 0 then mv else s.pwr.vCore } }
    if s.pwr.warn.isSome then s
    else
      let s := { s with pwr := { s.pwr with warn := some ⟨src, s.time.sec, s.time.ns⟩ } }
      ((s.bump Reg.PWR_WARNINGS).sticky Reg.PWR_STATUS 0x100).warnRole)

/-- SUPPLY_WARNING is logged with the time of the warning's beginning (R366); everything else of the entry is as for any event. -/
def State.raiseWarning (s : State) (w : Warning) (detail : Nat) : State :=
  let t := { s with time := { s.time with sec := w.sec, ns := w.ns } }.raise 0x0070 1 w.src detail
  { t with time := s.time }

/-- SUPPLY_WARNING_RELEASE (R366, R367): every source has released. `minMv` is the lowest sample of the rail that began the
warning, `us` its duration as R366 defines it. -/
def execSupplyWarningRelease (minMv us : Nat) (s : State) : Host.Outcome State Fault Refusal :=
  .next (
    match s.pwr.warn with
    | none => s
    | some w =>
      let s := { s with pwr := { s.pwr with warn := none, warnPin := false } }
      let v := if w.src = 2 then 0 else minMv
      let s := s.wr Reg.PWR_DIP_MIN (wnat v 11 0 ||| bitIf (w.src == 1) 12 ||| bitIf (w.src == 2) 13)
      let s := s.wr Reg.PWR_DIP_DURATION (BitVec.ofNat 32 us)
      s.raiseWarning w (v % 2 ^ 16 + 2 ^ 16 * (us % 2 ^ 32)))

/-! ## POWER_BUDGET (R292, R332, R358) -/

/-- POWER_BUDGET: 100 W to 330 W, or 0 to withdraw. -/
def State.doPowerBudget (s : State) (b : Nat) : Answer :=
  s.checked [(b != 0 && (decide (b < 1600) || decide (5280 < b)), eBadParam), (s.numbered, eState)] fun s =>
    { s with pwr := { s.pwr with hostBudget := if b = 0 then none else some b } }.done

end Sys2Proof.Machine
end

