-- ==== Sys2Proof/Machine/Memory.lean ====
section
/-!
DEFINITION. Memory controller and fabric (chapter 18): the address map (R372, R373), refresh (R380, R381), panic (R382), errors and
the scrub (R389, R390), the firewall (R391, R392), self-refresh (R393), and host accesses through BAR4 (R298).
-/
namespace Sys2Proof.Machine

/-! ## Address map (R371 to R373) -/

/-- Global pseudo-channel number of an HBM address (R371, Table 18-1). -/
def pseudoOf (a : Nat) : Nat :=
  a / 2 ^ 32 % 8 * 8 + (a / 2 ^ 8 % 8 ^^^ a / 2 ^ 11 % 8 ^^^ a / 2 ^ 14 % 8)

/-- Bytes of HBM. -/
def hbmSize : Nat := 2 ^ 35

/-- The firewalled regions of HBM: start and end (Tables 1-8 and 18-5, R373). -/
def firewalled : List (Nat × Nat) :=
  [(0, 0x04000000), (0x04000000, 0x14000000), (0x30000000, 0x40000000), (0x400000000, 0x410000000)]

/-- An access of `n` bytes touches a region. -/
def touches (a n : Nat) (r : Nat × Nat) : Bool := decide (a < r.2) && decide (r.1 < a + n)

/-! ## Refused requests (R377, R392) -/

/-- MEM_FAULT and its address capture a fault: kind 0 uncorrectable, 1 firewall, 2 decode error. -/
def State.captureFault (s : State) (master tag id kind a : Nat) (write : Bool) : State :=
  let s := s.wr Reg.MEM_FAULT_ADDR_LO (BitVec.ofNat 32 a)
  let s := s.wr Reg.MEM_FAULT_ADDR_HI (wnat (a / 2 ^ 32) 5 0)
  s.wr Reg.MEM_FAULT (wnat master 4 0 ||| wnat tag 7 5 ||| wnat id 13 8 ||| bitIf write 14 ||| wnat kind 17 16)

/-- Detail of a refused access: the address and bit 63 for a write (Table 20-3). -/
def accessDetail (a : Nat) (write : Bool) : Nat := a % 2 ^ 38 + (if write then 2 ^ 63 else 0)

/-- The firewall refuses a request (R392). -/
def State.fwViolation (s : State) (master tag a : Nat) (write : Bool) (origin : Option Nat) : State :=
  let s := { s with fresh := s.fresh + 1 }.captureFault master tag (Config.requestId s.fresh).toNat 1 a write
  let s := (s.bump Reg.MEM_FW_VIOLATIONS).sticky Reg.MEM_STATUS 0x200
  (s.pmuCount 0 6 1 ⟨some master, some a, origin⟩).raise 0x0012 2 master (accessDetail a write)

/-- The default target answers a request (R377). -/
def State.decodeError (s : State) (master tag a : Nat) (write : Bool) : State :=
  let s := { s with fresh := s.fresh + 1 }.captureFault master tag (Config.requestId s.fresh).toNat 2 a write
  ((s.bump Reg.MEM_DECODE_ERRORS).sticky Reg.MEM_STATUS 0x400).raise 0x0013 2 master (accessDetail a write)

/-! ## Refresh (R380, R381, R387) -/

/-- HBM_REFRESH: every pseudo-channel is closed; a pending change to the hot rate applies from here. -/
def execHbmRefresh (s : State) : Host.Outcome State Fault Refusal :=
  .next { s with mem := { s.mem with openRows := [], refreshHot := s.mem.hotDue } }

/-- A run of readings that meet a condition. -/
def runOf (n : Nat) (b : Bool) : Nat := if b then n + 1 else 0

/-- The readings of R381, in 0.25 °C: above 85 °C, or invalid for 10 ms, the rate becomes hot; 100 cool readings end it. -/
def MemState.readTemps (m : MemState) (t0 t1 : Option Int) : MemState :=
  let cool (t : Option Int) : Bool := match t with | some x => decide (x ≤ 340) | none => false
  let warm (t : Option Int) : Bool := match t with | some x => decide (340 < x) | none => false
  let hot (t : Option Int) : Bool := match t with | some x => decide (420 ≤ x) | none => false
  let m := { m with
    badRun0 := runOf m.badRun0 t0.isNone, badRun1 := runOf m.badRun1 t1.isNone
    hotRun0 := runOf m.hotRun0 (hot t0), hotRun1 := runOf m.hotRun1 (hot t1)
    coolRun := runOf m.coolRun (cool t0 && cool t1) }
  if warm t0 || warm t1 || decide (10 ≤ m.badRun0) || decide (10 ≤ m.badRun1) then { m with hotDue := true }
  else if 100 ≤ m.coolRun then { m with hotDue := false, refreshHot := false }
  else m

/-- The stacks' readings are kept (R357): an invalid one leaves the last. -/
def State.readHbm (s : State) (t0 t1 : Option Int) : State :=
  { s with
    mem := s.mem.readTemps t0 t1
    pwr := { s.pwr with hbm0 := t0.getD s.pwr.hbm0, hbm1 := t1.getD s.pwr.hbm1 } }

/-- A stack at or above 105 °C for 10 ms: HBM_OVER_TEMP, and the device trips (R381). -/
def State.overTemp (s : State) : State :=
  let go (s : State) (stack : Nat) (t : Int) : State :=
    (s.trip 0x0014 stack (t % 2 ^ 64).toNat).sticky Reg.MEM_STATUS 0x2000
  if s.pwr.tripped then s
  else if 10 ≤ s.mem.hotRun0 then go s 0 s.pwr.hbm0
  else if 10 ≤ s.mem.hotRun1 then go s 1 s.pwr.hbm1
  else s

/-- ROW_IDLE_CLOSE (R387): an open row of pseudo-channel `g` has seen no request for 200 ns. -/
def execRowIdleClose (g bank : Nat) (s : State) : Host.Outcome State Fault Refusal :=
  .next { s with mem := { s.mem with openRows := tdel s.mem.openRows (64 * bank + g) } }

/-! ## Panic and master resets (R379, R382) -/

/-- PANIC_LONG_TIMER (R382): panic of network master `port` lasts beyond 10 µs. -/
def execPanicLongTimer (port : Nat) (s : State) : Host.Outcome State Fault Refusal :=
  .next (
    let go (s : State) : State := (s.bump Reg.MEM_PANIC_LONG).sticky Reg.MEM_STATUS 0x1000
    if port = 0 && s.mem.panic0 && !s.mem.long0 then go { s with mem := { s.mem with long0 := true } }
    else if port = 1 && s.mem.panic1 && !s.mem.long1 then go { s with mem := { s.mem with long1 := true } }
    else s)

/-- A master port is reset with `n` requests in flight (R379). -/
def State.resetMaster (s : State) (port n : Nat) : State :=
  if 0 < n then { s with mem := { s.mem with retiring := tset s.mem.retiring port n } }.bump Reg.MEM_MASTER_RESETS else s

/-- MASTER_RESET_RETIRE (R379): the last outstanding ID of a port retires. -/
def execMasterResetRetire (port : Nat) (s : State) : Host.Outcome State Fault Refusal :=
  .next { s with mem := { s.mem with retiring := tdel s.mem.retiring port } }

/-! ## Errors (R388 to R390, R419) -/

/-- A corrected error of a pseudo-channel within its second: the 1,001st raises MEM_CE_STORM, once for that second (R389). -/
def State.ceStorm (s : State) (g : Nat) : State :=
  let w := match tget s.mem.ceSec g with
    | some (t, n) => if s.time.up < t + 1000000000 then (t, n + 1) else (s.time.up, 1)
    | none => (s.time.up, 1)
  let s := { s with mem := { s.mem with ceSec := tset s.mem.ceSec g w } }
  if w.2 = 1001 then (s.raise 0x0011 1 g w.2).sticky Reg.MEM_STATUS 0x800 else s

/-- A corrected error (R389). -/
def State.corrected (s : State) (a : Nat) (sram : Bool) : State :=
  let s := s.pmuCount 1 2 1 { addr := some a }
  if sram then s.bump Reg.MEM_SRAM_CE
  else ((s.bump Reg.MEM_HBM_CE).bump (Reg.MEM_PC_CE (pseudoOf a))).ceStorm (pseudoOf a)

/-- ECC_CORRECTED_ERROR (R389). -/
def execEccCorrectedError (a : Nat) (sram : Bool) (s : State) : Host.Outcome State Fault Refusal := .next (s.corrected a sram)

/-- An uncorrectable error (R389): poisoned, counted, captured, logged. -/
def State.uncorrectable (s : State) (a : Nat) (sram : Bool) (f : FaultSource) : State :=
  let s := { s with mem :=
    if sram then { s.mem with sramPoison := tset s.mem.sramPoison (a / 8) () }
    else { s.mem with poison := tset s.mem.poison (a / 32) () } }
  let s := (s.bump (if sram then Reg.MEM_SRAM_UE else Reg.MEM_HBM_UE)).sticky Reg.MEM_STATUS 0x100
  let s := (s.captureFault f.master f.tag f.id 0 a false).pmuCount 1 3 1 { addr := some a }
  s.raise 0x0010 2 (if sram then 64 else pseudoOf a) (a % 2 ^ 38)

/-- The channel alone is stopped as by a fatal error (R419). -/
def State.stopChannel (s : State) (c : Nat) : State :=
  s.onChan c fun ch s => if ch.st.active then (s.countStop c ch).updChan c (·.fatalStop) else s

/-- What the consumer of poisoned data does (R66, R70, R122, R132, R389, R419). -/
def State.consumePoison (s : State) (u : PoisonUser) : State :=
  match u with
  | .encodeJob c pic row ref =>
    let s := s.poisonDu c pic row
    match ref with
    | some (n, r, cols) => (s.damageRow c n r cols).localEvent c pic 2
    | none => s
  | .proofDu c pic row ref =>
    let s := s.onRow c pic row fun _ _ x s =>
      match x.proof with
      | .proving _ => s.failDu c pic row (Reg.PRF_FAILS c) 0x100
      | _ => s
    match ref with
    | some (n, r, cols) => (s.damageRow c n r cols).localEvent c pic 2
    | none => s
  | .pixel c row layer =>
    s.updChan c fun ch => match ch.layers.composed with
      | some n =>
        let ch := if layer = 6 then
          { ch with layers := { ch.layers with prot := ch.layers.prot.map fun p => { p with hurt := true } } } else ch
        ch.updPic n fun p => { p with poisonRows := insertNat row p.poisonRows }
      | none => ch
  | .journal slot seq =>
    let j := tgetD s.mbx.journal slot []
    if thas j seq then { s with mbx := { s.mbx with journal := tset s.mbx.journal slot (tset j seq .damaged) } } else s
  | .channelTable c => s.updChan c fun ch => { ch with tablesBad := true }
  | .activeConfig c => s.stopChannel c
  | .egress _ _ _ => s
  | .other => s

/-- ECC_UNCORRECTABLE_ERROR (R389, R419). -/
def execEccUncorrectableError (a : Nat) (sram : Bool) (fault : FaultSource) (user : PoisonUser) (s : State) :
    Host.Outcome State Fault Refusal :=
  .next ((s.uncorrectable a sram fault).consumePoison user).settleShutdown

/-- SCRUB_READ (R390): the patrol scrub reads the block at `a`; the last block of HBM completes a pass. Its own reads come
from no master port of Table 18-2, so what MEM_FAULT names for one is free. -/
def execScrubRead (a : Nat) (sram : Bool) (res : EccResult) (s : State) : Host.Outcome State Fault Refusal :=
  .next (
    let s := match res with
      | .clean => s
      | .skipped => s
      | .corrected => s.corrected a sram
      | .uncorrectable =>
        let f := (Config.scrubSource s.fresh).toNat
        { s with fresh := s.fresh + 1 }.uncorrectable a sram ⟨f % 32, f / 32 % 8, f / 256⟩
    if sram then s
    else
      let b := a / 32
      let s := { s with mem := { s.mem with scrubAt := (b + 1) % 2 ^ 30 } }
      s.when (b == 2 ^ 30 - 1) (·.bump Reg.MEM_SCRUB_PASSES))

/-! ## Reads and writes of HBM (R298, R389) -/

/-- Bytes of HBM as a read returns them: those of a poisoned block are free. -/
def State.hbmBytes (s : State) (a n : Nat) : List Byte :=
  (List.range n).map fun i => if s.poisoned (a + i) then Config.poisonByte s.fresh i else Mem.byte s.mem.hbm (a + i)

/-- BAR4 reaches only the system area of stack 0 in recovery (R435). -/
def State.bar4Reaches (s : State) (a n : Nat) : Bool :=
  decide (a + n ≤ hbmSize) && (s.dev.phase != .recovery || decide (a + n ≤ 0x40000000))

/-- HOST_HBM_ACCESS (R19, R298, R392): a read of `len` bytes, or a write of `data`, at BAR4 offset `a`. -/
def execHostHbmAccess (a len : Nat) (data : Option (List Byte)) (s : State) : Host.Outcome State Fault Refusal :=
  .next (
    if s.mbx.pci.d3hot then (if data.isSome then s.unsupported else s.unsupported.emit .unsupported) else
    let n := match data with | some d => d.length | none => len
    if !(s.bar4Reaches a n) then (if data.isSome then s.badAccess else s.emit .abort)
    else if firewalled.any (touches a n) then
      let s := s.fwViolation 22 0 a data.isSome (some 2)
      if data.isSome then s else s.emit .abort
    else
      match data with
      | some d => s.hbmWrite a d
      | none => ({ s with fresh := s.fresh + 1 }).emit (.hbmData (s.hbmBytes a n)))

/-! ## MOORED (R369, R393) -/

/-- The octet of an HBM address, 4 × stack + octet. -/
def octetOf (a : Nat) : Nat := a / 2 ^ 32 % 8

/-- The retention mask (R393): octet 0 of each stack, and every octet that holds a buffer. -/
def State.retention (s : State) : BitVec 8 :=
  let os := (s.surf.heap.map fun e => octetOf e.1) ++ [0, 4]
  BitVec.ofNat 8 (sumNat (((List.range 8).filter fun o => os.contains o).map fun o => 2 ^ o))

/-- MOORED_ENTRY: 100 ms after HALTED, with no channel active. The octets that are not retained lose their contents. -/
def execMooredEntry (s : State) : Host.Outcome State Fault Refusal :=
  .next (
    if s.dev.state == .halted && s.allStopped && !s.pwr.moored then
      let keep := s.retention
      let kept (a : Nat) : Bool := keep.toNat.testBit (octetOf a)
      { s with
        dev := { s.dev with mediaOff := true }
        pwr := { s.pwr with moored := true }
        mem := { s.mem with
          selfRefresh := true, retain := keep, openRows := []
          hbm := s.mem.hbm.filter fun (e : Nat × Byte) => kept e.1
          poison := s.mem.poison.filter fun (e : Nat × Unit) => kept (32 * e.1) } }
    else s)

end Sys2Proof.Machine
end

