-- ==== Sys2Proof/Machine/Control.lean ====
section
/-!
DEFINITION. The control complex (chapter 19): the check units (R403 to R408), performance counters, samples, histograms and dumps
(R409 to R414), and the halyard scheduler (R399 to R401).
-/
namespace Sys2Proof.Machine

/-! ## Check units -/

/-- Unit `u`. -/
def State.chkOf (s : State) (u : Nat) : ChkUnit := tgetD s.chk u {}

/-- Changes unit `u`. -/
def State.updChk (s : State) (u : Nat) (f : ChkUnit → ChkUnit) : State := { s with chk := tset s.chk u (f (s.chkOf u)) }

/-- A unit that can be granted to the host (R403). -/
def chkHost (u : Nat) : Bool := u == 2 || u == 3 || u == 7

/-- A scan unit (Table 19-4). -/
def chkScan (u : Nat) : Bool := u == 7

/-- A host write to a unit: discarded and counted while it is not granted (R408); without effect on the units the host never
reaches. -/
def State.chkWrite (s : State) (u : Nat) (f : State → State) : State :=
  if !(chkHost u) then s
  else s.hostWrite (Reg.CHK_CONFIG u) fun s => if (s.chkOf u).granted then f s else s.badAccess

/-- The configuration the unit's registers hold (R404). -/
def State.chkConfig (s : State) (u : Nat) : ChkCfg :=
  let c := s.rd (Reg.CHK_CONFIG u)
  let pair (lo hi : Nat) : Nat := ((s.rd lo).toNat + 2 ^ 32 * (s.rd hi).toNat) % 2 ^ wfield c 6 0
  { width := wfield c 6 0, refin := wbit c 8, refout := wbit c 9, mode := wfield c 11 10
    poly := pair (Reg.CHK_POLY_LO u) (Reg.CHK_POLY_HI u)
    init := pair (Reg.CHK_INIT_LO u) (Reg.CHK_INIT_HI u)
    xorout := pair (Reg.CHK_XOROUT_LO u) (Reg.CHK_XOROUT_HI u) }

/-- The configuration is invalid at init or start (R405). -/
def ChkCfg.bad (c : ChkCfg) (scan : Bool) (len : Nat) : Bool :=
  decide (c.width < 8) || decide (64 < c.width) || c.mode == 3
    || (c.mode == 1 && !scan)
    || (c.mode != 0 && c.width % 8 != 0)
    || (scan && len == 0)
    || (scan && c.mode == 2 && decide (len < c.width / 8))

/-- The value of R404 over bytes. -/
def ChkCfg.value (c : ChkCfg) (bytes : List Byte) : Nat := crcOut c.width c.refout c.xorout (crcRun c.width c.poly c.refin c.init bytes)

/-- A value as its check bytes: least significant first when refout is set (R405). -/
def ChkCfg.bytes (c : ChkCfg) (v : Nat) : List Byte := if c.refout then leBytes (c.width / 8) v else beBytes (c.width / 8) v

/-- The end of a computation over `bytes` (R405): in check mode the last w / 8 bytes are compared. -/
def ChkUnit.finish (u : ChkUnit) (c : ChkCfg) (bytes : List Byte) : ChkUnit :=
  let n := c.width / 8
  let m := bytes.length - n
  let v := c.value (bytes.take m)
  if c.mode = 2 then
    { u with
      busy := false, done := true, value := v, length := m
      pass := bytes.drop m == c.bytes v, fail := bytes.drop m != c.bytes v }
  else { u with busy := false, done := true, value := c.value bytes, length := bytes.length }

/-- A computation begins: configuration latched, initial value loaded, length cleared (R406). -/
def ChkUnit.begin_ (u : ChkUnit) (c : ChkCfg) : ChkUnit :=
  { u with latched := some c, bytes := [], done := false, pass := false, fail := false, length := 0, value := c.value [] }

/-- A row of Table 19-5: width, polynomial, initial value, reflection, final XOR. -/
def chkPreset : Nat → Option (Nat × Nat × Nat × Bool × Nat)
  | 0 => some (32, 0x1EDC6F41, 0xFFFFFFFF, true, 0xFFFFFFFF)
  | 1 => some (32, 0x04C11DB7, 0xFFFFFFFF, true, 0xFFFFFFFF)
  | 2 => some (32, 0x04C11DB7, 0xFFFFFFFF, false, 0)
  | 3 => some (64, 0x42F0E1EBA9EA3693, 0, false, 0)
  | 4 => some (64, 0x42F0E1EBA9EA3693, 0xFFFFFFFFFFFFFFFF, true, 0xFFFFFFFFFFFFFFFF)
  | 5 => some (16, 0x1021, 0xFFFF, false, 0)
  | 6 => some (16, 0x1021, 0, false, 0)
  | 7 => some (16, 0x8005, 0, true, 0)
  | 8 => some (8, 0x07, 0, false, 0)
  | 9 => some (24, 0x864CFB, 0xB704CE, false, 0)
  | _ => none

/-- Writes a 64-bit value into a pair of registers. -/
def State.wrPair (s : State) (lo hi v : Nat) : State := (s.wr lo (BitVec.ofNat 32 v)).wr hi (BitVec.ofNat 32 (v / 2 ^ 32))

/-- CHK_PRESET (R404). -/
def execChkPreset (u : Nat) (w : Word) (s : State) : Host.Outcome State Fault Refusal :=
  .next (s.chkWrite u fun s =>
    match chkPreset (wfield w 3 0) with
    | none => s.sticky (Reg.CHK_STATUS u) 0x100
    | some (n, p, i, refl, x) =>
      let mode := s.rd (Reg.CHK_CONFIG u) &&& 0xC00
      let s := s.wr (Reg.CHK_CONFIG u) (mode ||| wnat n 6 0 ||| bitIf refl 8 ||| bitIf refl 9)
      let s := s.wrPair (Reg.CHK_POLY_LO u) (Reg.CHK_POLY_HI u) p
      let s := s.wrPair (Reg.CHK_INIT_LO u) (Reg.CHK_INIT_HI u) i
      s.wrPair (Reg.CHK_XOROUT_LO u) (Reg.CHK_XOROUT_HI u) x)

/-- CHK_INIT (R405, R406): register-fed units. -/
def execChkInit (u : Nat) (s : State) : Host.Outcome State Fault Refusal :=
  .next (s.chkWrite u fun s =>
    let c := s.chkConfig u
    if chkScan u then s
    else if c.bad false 0 then s.sticky (Reg.CHK_STATUS u) 0x100
    else s.updChk u (·.begin_ c))

/-- Feeds bytes into a register-fed unit: those of a computation that has not finished count. -/
def State.chkFeed (s : State) (u : Nat) (b : List Byte) : State :=
  s.chkWrite u fun s =>
    match (s.chkOf u).latched with
    | some c =>
      if chkScan u || (s.chkOf u).done then s
      else s.updChk u fun x => { x with bytes := x.bytes ++ b, value := c.value (x.bytes ++ b), length := x.length + b.length }
    | none => s

/-- CHK_FEED8 (R406). -/
def execChkFeed8 (u : Nat) (w : Word) (s : State) : Host.Outcome State Fault Refusal := .next (s.chkFeed u (leBytes 1 w.toNat))

/-- CHK_FEED16 (R406). -/
def execChkFeed16 (u : Nat) (w : Word) (s : State) : Host.Outcome State Fault Refusal := .next (s.chkFeed u (leBytes 2 w.toNat))

/-- CHK_FEED32 (R406): a 64-bit write feeds eight bytes, lower word first. -/
def execChkFeed32 (u : Nat) (lo : Word) (hi : Option Word) (s : State) : Host.Outcome State Fault Refusal :=
  .next (s.chkFeed u (leBytes 4 lo.toNat ++ (match hi with | some h => leBytes 4 h.toNat | none => [])))

/-- CHK_FINISH (R405, R406): fewer bytes than the check value holds are an invalid configuration. -/
def execChkFinish (u : Nat) (s : State) : Host.Outcome State Fault Refusal :=
  .next (s.chkWrite u fun s =>
    match (s.chkOf u).latched with
    | some c =>
      if chkScan u || (s.chkOf u).done then s
      else if c.mode == 2 && decide ((s.chkOf u).bytes.length < c.width / 8) then s.sticky (Reg.CHK_STATUS u) 0x100
      else s.updChk u fun x => x.finish c x.bytes
    | none => s)

/-- CHK_START (R405 to R407): scan units. -/
def execChkStart (u : Nat) (s : State) : Host.Outcome State Fault Refusal :=
  .next (s.chkWrite u fun s =>
    let c := s.chkConfig u
    let len := (s.rd (Reg.CHK_SCAN_LEN u)).toNat
    if !(chkScan u) then s
    else if (s.chkOf u).busy then s.sticky (Reg.CHK_STATUS u) 0x1000
    else if c.bad true len then s.sticky (Reg.CHK_STATUS u) 0x100
    else s.updChk u fun x => { x.begin_ c with
      busy := true, scanLen := len, scanAt := s.rangeAddr (Reg.CHK_SCAN_ADDR_LO u) (Reg.CHK_SCAN_ADDR_HI u) })

/-- Bytes at a fabric address as a scan reads them (R372, R406): outside HBM they are free. -/
def State.fabricBytes (s : State) (a n : Nat) : List Byte :=
  if a + n ≤ hbmSize then s.hbmBytes a n else (List.range n).map fun i => Config.fabricByte s.fresh (a + i)

/-- A scan ends early after `n` bytes with a bit of CHK_STATUS (R407). -/
def State.chkStop (s : State) (u n : Nat) (bit : Word) : State :=
  let x := s.chkOf u
  let v := match x.latched with | some c => c.value (s.fabricBytes x.scanAt n) | none => 0
  ({ s with fresh := s.fresh + 1 }.updChk u fun x => { x with busy := false, done := true, length := n, value := v }).sticky
    (Reg.CHK_STATUS u) bit

/-- CHK_ABORT (R407): the bytes processed by then are a matter of timing, and free. -/
def execChkAbort (u : Nat) (s : State) : Host.Outcome State Fault Refusal :=
  .next (s.chkWrite u fun s =>
    let x := s.chkOf u
    if chkScan u && x.busy then s.chkStop u (Config.scanProgress s.fresh % (x.scanLen + 1)) 0x800 else s)

/-- A fabric address that no target answers to the bulk master (Table 18-2). -/
def unmapped (a : Nat) : Bool :=
  !(decide (a < hbmSize) || (decide (0x1000000000 ≤ a) && decide (a < 0x1002000000))
    || (decide (0x2000000000 ≤ a) && decide (a < 0x2004000000)))

/-- The address ranges in which a read of CU7 is refused: the firewalled regions, and those of no target (R377, R391, Table 18-2). -/
def refusedRanges : List (Nat × Nat) :=
  firewalled ++ [(hbmSize, 0x1000000000), (0x1002000000, 0x2000000000), (0x2004000000, 0x4000000000)]

/-- Where in a scan of `n` bytes from `a` the first read is refused. Bursts begin on 128-byte boundaries, as the ranges do (R375), so every
byte before has been read. -/
def refusedAt (a n : Nat) : Option Nat := ((refusedRanges.filter (touches a n)).map fun r => r.1 - a).min?

/-- Where in a scan the first poisoned beat of 128 bytes begins (R375, R389). -/
def State.poisonedAt (s : State) (a n : Nat) : Option Nat :=
  let beats (size : Nat) (blocks : List Nat) : List Nat :=
    (blocks.filter fun b => touches a n (size * b, size * b + size)).map fun b => size * b / 128 * 128 - a
  (beats 32 (tkeys s.mem.poison) ++ beats 8 (tkeys s.mem.sramPoison)).min?

/-- How a scan ends (R407): after how many bytes, and whether a refusal or poison ends it; none where it reads every byte. -/
def State.scanEnd (s : State) (a n : Nat) : Option (Nat × Bool) :=
  match refusedAt a n, s.poisonedAt a n with
  | some r, some p => if r ≤ p then some (r, true) else some (p, false)
  | some r, none => some (r, true)
  | none, some p => some (p, false)
  | none, none => none

/-- The read that ends a scan is refused: by the default target, or else by the firewall (R377, R392, R407). The bulk master is
port 24, and CU7's tag is 3. -/
def State.refusedRead (s : State) (a : Nat) : State := if unmapped a then s.decodeError 24 3 a false else s.fwViolation 24 3 a false none

/-- Append mode writes the value after the scanned bytes (R405), unless the firewall or the default target refuses the write. -/
def State.chkAppend (s : State) (a : Nat) (b : List Byte) : State :=
  if firewalled.any (touches a b.length) then s.fwViolation 24 3 a true none
  else if a + b.length ≤ hbmSize then s.hbmWrite a b
  else if unmapped a then s.decodeError 24 3 a true
  else s

/-- CHK_SCAN_END (R405 to R407): every byte has been read, or, `early`, a refused read or poison ends the scan. A command that names
the end the scan does not have changes nothing (log entry 107). -/
def execChkScanEnd (u : Nat) (early : Bool) (s : State) : Host.Outcome State Fault Refusal :=
  .next (
    let x := s.chkOf u
    match x.latched with
    | some c =>
      if !x.busy then s
      else
        match s.scanEnd x.scanAt x.scanLen, early with
        | none, false =>
          let b := s.fabricBytes x.scanAt x.scanLen
          let s := { s with fresh := s.fresh + 1 }.updChk u fun x => x.finish c b
          if c.mode = 1 then s.chkAppend (x.scanAt + x.scanLen) (c.bytes (c.value b)) else s
        | some (n, true), true => (s.chkStop u n 0x200).refusedRead (x.scanAt + n)
        | some (n, false), true => s.chkStop u n 0x400
        | _, _ => s
    | none => s)

/-- The registers of a unit take their reset values and its operation is dropped. -/
def State.chkReset (s : State) (u : Nat) : State :=
  (s.clearRegs (Reg.CHK_CONFIG u) (Reg.CHK_CONFIG (u + 1))).updChk u fun x => { granted := x.granted }

/-- CU_ASSIGN (R332, R408): a unit other than CU2, CU3 and CU7, or an item above 1, gives E_BAD_PARAM. A return aborts a scan and
discards a computation. -/
def State.doCuAssign (s : State) (p : ChArg) : Answer :=
  s.checked [(!(chkHost p.object) || decide (1 < p.item), eBadParam)] fun s =>
    let x := s.chkOf p.object
    if p.item = 1 then
      if x.granted then s.done
      else ((s.updChk p.object fun x => { x with granted := true }).chkReset p.object).done
    else if x.granted then
      ((s.when x.busy (·.sticky (Reg.CHK_STATUS p.object) 0x800)).updChk p.object fun x =>
        { x with granted := false, busy := false, latched := none, bytes := [] }).done
    else s.done

/-! ## Performance counters (R409 to R411) -/

/-- PMU_CNT_LO_READ (R410): the low word, with bits [47:32] latched. -/
def execPmuCntLoRead (i : Nat) (s : State) : Host.Outcome State Fault Refusal :=
  .next (
    if 255 < i then s.readReserved
    else s.hostRead (Reg.PMU_CNT_LO i) fun s =>
      let v := tgetD s.pmu.cnt i 0
      (s.wr (Reg.PMU_CNT_HI i) (wnat (v / 2 ^ 32) 15 0)).emit (.readData (BitVec.ofNat 32 v)))

/-- A host write to a register of counter `i`: one of firmware's counters discards and counts it (R409). -/
def State.pmuWrite (s : State) (i : Nat) (f : State → State) : State :=
  s.hostWrite (Reg.PMU_CNT_CFG 0) fun s => if i < 224 then f s else if i < 256 then s.badAccess else s

/-- PMU_COUNTER_ENABLE (R409): a write of PMU_CNT_CFG that sets enable from 0 clears the counter and its overflow bit. -/
def execPmuCounterEnable (i : Nat) (w : Word) (s : State) : Host.Outcome State Fault Refusal :=
  .next (s.pmuWrite i fun s =>
    let rises := wbit w 12 && !(wbit (s.rd (Reg.PMU_CNT_CFG i)) 12)
    let s := if rises then
        { s with pmu := { s.pmu with cnt := tdel s.pmu.cnt i } }.unstick (Reg.PMU_OVF (i / 32)) (bit1 (i % 32))
      else s
    s.wr (Reg.PMU_CNT_CFG i) (w &&& 0x07FFFFFF))

/-- PMU_SAMPLE (R411): a host counter of class 5 that samples has advanced by PMU_CNT_PERIOD since the last sample; the sample enters a
FIFO of 64. A period of 0, outside the field's range, samples nothing. -/
def execPmuSample (i : Nat) (pc : Word) (core thread : Nat) (s : State) : Host.Outcome State Fault Refusal :=
  .next (
    let w := s.rd (Reg.PMU_CNT_CFG i)
    let period := (s.rd (Reg.PMU_CNT_PERIOD i)).toNat
    if decide (i < 224) && wbit w 12 && wbit w 26 && wfield w 11 8 == 5 && period != 0 then
      let s := s.pmuAdvance i period
      if 64 ≤ s.pmu.fifo.length then { s with pmu := { s.pmu with lost := true } }
      else
        let x : Sample := ⟨pc, core, thread, i⟩
        { s with pmu := { s.pmu with fifo := s.pmu.fifo ++ [x] } }
    else s)

/-- PMU_SAMPLE_PC_READ (R411, R417): the oldest entry, with PMU_SAMPLE_INFO latched; an empty FIFO reads 0 and not valid. -/
def execPmuSamplePcRead (s : State) : Host.Outcome State Fault Refusal :=
  .next (s.hostRead Reg.PMU_SAMPLE_PC fun s =>
    match s.pmu.fifo with
    | [] => (s.wr Reg.PMU_SAMPLE_INFO 0).emit (.readData 0)
    | x :: rest =>
      let info := wnat x.core 2 0 ||| wnat x.thread 11 3 ||| wnat x.counter 19 12 ||| bitIf s.pmu.lost 30 ||| bit1 31
      ({ s with pmu := { s.pmu with fifo := rest, lost := false } }.wr Reg.PMU_SAMPLE_INFO info).emit (.readData x.pc))

/-! ## Histograms (R412) -/

/-- A write of PMU_HIST_CFG: the source of units 0 to 3 is fixed, and overflow clears where 1 is written. -/
def State.histConfig (s : State) (h : Nat) (w : Word) : State :=
  let old := s.rd (Reg.PMU_HIST_CFG h)
  let mask : Word := if h ≤ 3 then 0x1FFFC else 0x1FFFF
  s.wr (Reg.PMU_HIST_CFG h) ((w &&& mask) ||| (old &&& ~~~mask &&& ~~~(w &&& 0x40000)))

/-- PMU_HIST_CLEAR (R412): a write of PMU_HIST_CFG with clear set zeroes every bin and the overflow bit. -/
def execPmuHistClear (h : Nat) (w : Word) (s : State) : Host.Outcome State Fault Refusal :=
  .next (
    if 15 < h then s
    else s.hostWrite (Reg.PMU_HIST_CFG h) fun s =>
      let s := if wbit w 17 then
          (s.clearRegs (Reg.PMU_HIST_BIN h 0) (Reg.PMU_HIST_BIN h 64)).unstick (Reg.PMU_HIST_CFG h) 0x40000
        else s
      s.histConfig h w)

/-! ## Dumps (R413, R414) -/

/-- First and last counter of a record, where they are in range. -/
def State.dumpRange (s : State) : Option (Nat × Nat) :=
  let w := s.rd Reg.PMU_DUMP_CFG
  let a := wfield w 23 16
  let b := wfield w 31 24
  if a ≤ b ∧ b ≤ 223 then some (a, b) else none

/-- Length of a dump record, rounded up to 64 bytes (R413). -/
def State.dumpLength (s : State) : Option Nat :=
  s.dumpRange.map fun r =>
    roundUp (32 + 8 * (r.2 + 1 - r.1) + (if wbit (s.rd Reg.PMU_DUMP_CFG) 2 then 4096 else 0)) 64

/-- dump_cfg_err (R414): the ring is not a whole number of records. -/
def State.dumpError (s : State) : Bool :=
  match s.dumpLength with
  | some l => (s.rd Reg.PMU_DUMP_SIZE).toNat % l != 0
  | none => true

/-- PMU_DUMP_CONFIG_WRITE (R414). -/
def execPmuDumpConfigWrite (off : Nat) (w : Word) (s : State) : Host.Outcome State Fault Refusal :=
  .next (s.hostWrite Reg.PMU_DUMP_CFG fun s =>
    let again (s : State) : State := { s with pmu := { s.pmu with dumpReset := true } }
    if off = Reg.PMU_DUMP_CFG then again (s.wr off (w &&& 0xFFFF03F7))
    else if off = Reg.PMU_DUMP_BASE ∨ off = Reg.PMU_DUMP_SIZE then again (s.wr off w)
    else s)

/-- The record of Table 19-8. -/
def State.dumpRecord (s : State) (trigger pic : Nat) (r : Nat × Nat) (len : Nat) : List Byte :=
  let hist := wbit (s.rd Reg.PMU_DUMP_CFG) 2
  let head := leBytes 4 s.pmu.dumpSeq ++ leBytes 1 trigger
    ++ leBytes 1 ((if hist then 1 else 0) + (if s.pmu.dumpGap then 2 else 0))
    ++ leBytes 2 (r.2 + 1 - r.1) ++ leBytes 6 s.time.sec ++ leBytes 4 s.time.ns ++ leBytes 6 0
    ++ leBytes 8 (if trigger = 2 then pic else 0)
  let cnt := (rangeFrom r.1 (r.2 + 1 - r.1)).flatMap fun i =>
    leBytes 8 (tgetD s.pmu.cnt i 0 + (if wbit (s.rd (Reg.PMU_OVF (i / 32))) (i % 32) then 2 ^ 63 else 0))
  let bins := if hist then
      (List.range 16).flatMap fun h => (List.range 64).flatMap fun b => leBytes 4 (s.rd (Reg.PMU_HIST_BIN h b)).toNat
    else []
  padTo len (head ++ cnt ++ bins)

/-- A record of `len` bytes would reach PMU_DUMP_RD (R414). -/
def ringFull (wr rd size len : Nat) : Bool :=
  let d := (rd % size + size - wr % size) % size
  size == 0 || decide ((if d = 0 then size else d) ≤ len)

/-- The record is written into the ring, or dropped (R413, R414). -/
def State.dumpWrite (s : State) (trigger pic len : Nat) (r : Nat × Nat) : State :=
  let size := (s.rd Reg.PMU_DUMP_SIZE).toNat
  let wr := (s.rd Reg.PMU_DUMP_WR).toNat
  if ringFull wr (s.rd Reg.PMU_DUMP_RD).toNat size len then
    { s with pmu := { s.pmu with dumpGap := true } }.bump Reg.PMU_DUMP_DROPS
  else
    let s := s.hbmWrite (0x410000000 + (s.rd Reg.PMU_DUMP_BASE).toNat + wr) (s.dumpRecord trigger pic r len)
    let s := { s with pmu := { s.pmu with dumpSeq := (s.pmu.dumpSeq + 1) % 2 ^ 32, dumpGap := false } }
    ((s.wr Reg.PMU_DUMP_WR (BitVec.ofNat 32 ((wr + len) % size))).bump Reg.PMU_DUMP_RECORDS).signal 20

/-- The pointers and seq start again at the first trigger after a configuration write (R414). -/
def State.dumpRestart (s : State) : State :=
  if s.pmu.dumpReset then
    ({ s with pmu := { s.pmu with dumpReset := false, dumpSeq := 0, dumpGap := false } }.wr Reg.PMU_DUMP_WR 0).wr Reg.PMU_DUMP_RD 0
  else s

/-- The trigger is the configured one (R413): in picture mode its channel is RUNNING. -/
def State.dumpArmed (s : State) (trigger : Nat) : Bool :=
  let w := s.rd Reg.PMU_DUMP_CFG
  wfield w 1 0 == trigger && (trigger == 1 || (trigger == 2 &&
    (match tget s.chans (wfield w 9 4) with | some ch => ch.st == .running | none => false)))

/-- PMU_DUMP_TRIGGER (R413, R414): `trigger` is 1 for the period and 2 for picture `pic`; `busy` says that the record before is
still being written. -/
def execPmuDumpTrigger (trigger pic : Nat) (busy : Bool) (s : State) : Host.Outcome State Fault Refusal :=
  .next (
    match s.dumpRange, s.dumpLength with
    | some r, some len =>
      if !(s.dumpArmed trigger) || s.dumpError then s
      else if busy then { s with pmu := { s.pmu with dumpGap := true } }.bump Reg.PMU_DUMP_MISSED
      else s.dumpRestart.dumpWrite trigger pic len r
    | _, _ => s)

/-! ## Halyard scheduler (R399 to R401) -/

/-- The level of a thread slot. -/
def CtlState.level (c : CtlState) (slot : Nat) : Nat := tgetD c.slots slot 63

/-- Released cores without a thread. -/
def CtlState.idle (c : CtlState) : List Nat := (List.range 8).filter fun i => c.cores.toNat.testBit i && !(thas c.running i)

/-- The core whose thread has the numerically highest level, with that level. -/
def CtlState.lowest (c : CtlState) : Option (Nat × Nat) :=
  c.running.foldl (fun (a : Option (Nat × Nat)) (e : Nat × Nat) =>
    match a with
    | none => some (e.1, c.level e.2)
    | some (k, l) => if l < c.level e.2 then some (e.1, c.level e.2) else some (k, l)) none

/-- A slot waits in a ready list or a ring. -/
def CtlState.waits (c : CtlState) (slot : Nat) : Bool :=
  c.ready.any (fun e => e.2.contains slot) || c.spill.any (fun e => e.2.contains slot)

/-- Puts a list of a level; an empty one is not listed. -/
def putLevel (t : Tab (List Nat)) (l : Nat) (q : List Nat) : Tab (List Nat) := if q.isEmpty then tdel t l else tset t l q

/-- A thread waits at the end of its level's list, or of its ring once the list is full or the ring holds entries (R399); whether
it spilled. -/
def CtlState.enqueue (c : CtlState) (slot level : Nat) : CtlState × Bool :=
  let q := tgetD c.ready level []
  let r := tgetD c.spill level []
  if r.isEmpty && decide (q.length < 32) then ({ c with ready := tset c.ready level (q ++ [slot]) }, false)
  else ({ c with spill := tset c.spill level (r ++ [slot]) }, true)

/-- A preempted thread waits before those of its level that became ready after it; a list over 32 gives its last to the ring. -/
def CtlState.requeue (c : CtlState) (slot : Nat) : CtlState :=
  let l := c.level slot
  let q := slot :: tgetD c.ready l []
  let r := q.drop 32 ++ tgetD c.spill l []
  { c with ready := tset c.ready l (q.take 32), spill := putLevel c.spill l r }

/-- The highest level with a waiting thread gives its oldest, and its ring refills its list (R400). -/
def CtlState.takeReady (c : CtlState) : Option (Nat × CtlState) :=
  match c.ready.find? (fun e => !e.2.isEmpty) with
  | some (l, slot :: q) =>
    let r := tgetD c.spill l []
    some (slot, { c with ready := putLevel c.ready l (q ++ r.take 1), spill := putLevel c.spill l (r.drop 1) })
  | _ => none

/-- A thread that runs and becomes ready again had left its core, which has taken the next waiting thread. -/
def CtlState.leave (c : CtlState) (slot : Nat) : CtlState :=
  match c.running.find? (·.2 == slot) with
  | none => c
  | some (core, _) =>
    let c := { c with running := tdel c.running core }
    match c.takeReady with
    | some (k, d) => { d with running := tset d.running core k }
    | none => c

/-- A dispatch or preemption of `ns` (R415). -/
def State.noteDispatch (s : State) (ns : Nat) : State := s.recordMax Reg.HAL_DISPATCH_MAX 15 ns

/-- A ready thread starts on an idle core, preempts, or waits (R399, R400). -/
def State.startThread (s : State) (slot level ns : Nat) : State :=
  match s.ctl.idle with
  | core :: _ => ({ s with ctl := { s.ctl with running := tset s.ctl.running core slot } }.noteDispatch ns).pmuEvent 6 0
  | [] =>
    match s.ctl.lowest with
    | some (core, l) =>
      if level < l then
        let old := tgetD s.ctl.running core 0
        let s := { s with ctl := { s.ctl with running := tset s.ctl.running core slot }.requeue old }
        ((s.noteDispatch ns).pmuEvent 6 0).pmuEvent 6 1
      else
        let r := s.ctl.enqueue slot level
        let s := { s with ctl := r.1 }
        if r.2 then (s.bump Reg.HAL_SPILLS).pmuEvent 6 2 else s
    | none => s

/-- THREAD_READY (R399 to R401): thread slot `slot` of a level becomes ready; `ns` is the latency when it is dispatched. A new
thread needs a free one of the 512 slots. -/
def execThreadReady (slot level ns : Nat) (s : State) : Host.Outcome State Fault Refusal :=
  .next (
    if s.ctl.restarting || s.ctl.cores = 0 || decide (63 < level) then s
    else if !(thas s.ctl.slots slot) && (decide (511 < slot) || decide (512 ≤ s.ctl.slots.length)) then
      (s.bump Reg.HAL_SLOT_REFUSALS).pmuEvent 6 3
    else if s.ctl.waits slot then s
    else
      let c := s.ctl.leave slot
      { s with ctl := { c with slots := tset c.slots slot level } }.startThread slot level ns)

/-- HAL_DISPATCH_MAX_READ (R415). -/
def execHalDispatchMaxRead (s : State) : Host.Outcome State Fault Refusal := .next (s.readClear Reg.HAL_DISPATCH_MAX)

/-- UNSTABLE_CLEAR (R398): 60 s have passed without a control-complex reset. -/
def execUnstableClear (s : State) : Host.Outcome State Fault Refusal :=
  .next { s with ctl := { s.ctl with unstable := false, hold := false, resets := [] } }

end Sys2Proof.Machine
end

