-- ==== Sys2Proof/Machine/Device.lean ====
section
/-!
DEFINITION. The device commands (16 R331 to R336, R355): identity, level, shutdown, calibration record, firmware images, life cycle
(R440 to R442), event log fetch.
-/
namespace Sys2Proof.Machine

/-! ## Life cycle (R440) -/

/-- The life-cycle state of `t` burnt fuses, in the codes of R331: 0 MANUFACTURE, 1 PROVISIONED, 2 DEPLOYED, 3 SERVICE. -/
def lifeCycle (t : Nat) : Nat :=
  if t = 0 then 0 else if t = 1 then 1 else if (t - 2) % 3 = 0 then 2 else if (t - 2) % 3 = 1 then 3 else 1

/-- The life-cycle state of the part. -/
def State.life (s : State) : Nat := lifeCycle s.dev.nvm.fuses

/-- MANUFACTURE or SERVICE: the BIST block is reachable (R21, R443). -/
def State.bistOpen (s : State) : Bool := s.life == 0 || s.life == 3

/-- The owner key digest that the burnt OTP words 0 to 11 hold; none until all are burnt (R441, R451). -/
def Nvm.ownerDigest (v : Nvm) : Option (BitVec 384) :=
  if (List.range 12).all fun i => thas v.words i then
    some (BitVec.ofNat 384 (sumNat ((List.range 12).map fun i => (tgetD v.words i 0).toNat * 2 ^ (32 * i))))
  else none

/-- Subsystem vendor ID and subsystem ID (R295). -/
def Nvm.subsystem (v : Nvm) : Word := tgetD v.words 12 0

/-! ## DEVICE_INFO, DEVICE_CONFIGURE (R74, R331, R332) -/

/-- Bit `k` for each key slot that holds a key. -/
def Nvm.keyMask (v : Nvm) : Nat := sumNat ((tkeys v.keys).map fun k => 2 ^ k)

/-- Code of a command state (R325). -/
def DevState.code : DevState → Nat
  | .ready => 0
  | .testing => 1
  | .halted => 2

/-- DEVICE_INFO (Table 16-7). -/
def State.doDeviceInfo (s : State) : Answer :=
  let v := s.dev.nvm
  s.reply (leBytes 8 v.unitId.toNat ++ leBytes 2 v.dieRev.toNat ++ [3, 2] ++ leBytes 1 s.life ++ leBytes 1 s.dev.state.code
    ++ leBytes 1 s.dev.level ++ [1, 2] ++ leBytes 1 s.dev.booted ++ leBytes 1 s.rat.addr ++ leBytes 1 s.grp.role.code
    ++ leBytes 1 v.keyMask ++ [0, 0, 0] ++ leBytes 4 v.subsystem.toNat)

/-- DEVICE_CONFIGURE (R74, R226): the behaviour level. -/
def State.doDeviceConfigure (s : State) (p : ChArg) : Answer :=
  s.checked [(decide (p.object < 1) || decide (2 < p.object) || p.item != 0, eBadParam),
      (!s.chans.isEmpty || (s.member && p.object != s.dev.level), eState)] fun s =>
    { s with dev := { s.dev with level := p.object } }.done

/-! ## SHUTDOWN (R325, R326, R333) -/

/-- Every ARMED channel goes back, every RUNNING one stops as CHANNEL_STOP with time 0 stops it. -/
def State.stopForShutdown (s : State) : State :=
  (tkeys s.chans).foldl (fun (t : State) c => (t.doChannelStop ⟨c, 0, ⟨0, 0⟩⟩).st) s

/-- SHUTDOWN: mode 0 tests, mode 1 halts. The completion waits until every channel has stopped. -/
def State.doShutdown (s : State) (p : ChArg) : Answer :=
  s.checked [(decide (1 < p.object) || p.item != 0, eBadParam), (s.member, eState)] fun s =>
    let s := s.stopForShutdown
    let s := if p.object = 0 then s.beginTest else s
    if s.allStopped then
      (if p.object = 1 then { s with dev := { s.dev with state := .halted } } else s).done
    else { st := s, hold := some .shutdown }

/-! ## Calibration record (R334, R448, R449) -/

/-- The stored record as CAL_READ moves it; one that fails its CRC holds bytes the spec does not give. -/
def Nvm.calBytes (v : Nvm) : List Byte := v.cal.getD ((List.range 4096).map Config.flashByte)

/-- CAL_READ (R334): a surface that is no buffer of the device of at least 4,096 bytes gives E_BAD_PARAM. -/
def State.doCalRead (s : State) (surf : Nat) : Answer :=
  match s.deviceBuffer surf 4096 with
  | none => { st := s, status := eBadParam }
  | some f =>
    let b := s.dev.nvm.calBytes
    (s.hbmWrite f.addr b).reply (leBytes 4 (crc32c b).toNat ++ [b.getD 12 0, 0, 0, 0])

/-- Offsets of the record that hold 0 (Table 21-7). -/
def calReserved (i : Nat) : Bool :=
  i == 2 || i == 3 || (decide (13 ≤ i) && decide (i < 16)) || (decide (508 ≤ i) && decide (i < 512))
    || (decide (512 ≤ i) && decide (i < 768) && (i % 8 == 3 || i % 8 == 6 || i % 8 == 7))
    || (decide (768 ≤ i) && decide (i < 4092))

/-- The record's version, unit_id, origin and reserved bytes are right (R334, R449). -/
def calOk (b : List Byte) (unitId : BitVec 64) : Bool :=
  leNat (b.take 2) == 1 && leNat ((b.drop 4).take 8) == unitId.toNat && decide ((b.getD 12 0).toNat ≤ 1)
    && b.zipIdx.all fun e => !(calReserved e.2) || e.1 == 0

/-- A record as CAL_WRITE stores it: origin 1, with its trailer (R334, Table 21-7). -/
def calStored (b : List Byte) : List Byte :=
  sealed (b.take 12 ++ [1] ++ (b.drop 13).take 4079)

/-- CAL_WRITE (R334, R449). -/
def State.doCalWrite (s : State) (p : CalWriteArg) : Answer :=
  match s.deviceBuffer p.surface 4096 with
  | none => { st := s, status := eBadParam }
  | some f =>
    let b := Mem.read s.mem.hbm f.addr 4096
    s.checked [
        (!(calOk b s.dev.nvm.unitId), eBadParam),
        (s.rangePoisoned f.addr 4096 || crc32c b != p.crc || !(crcHolds 4096 b), eCrc)]
      fun s => { s with dev := { s.dev with nvm := { s.dev.nvm with cal := some (calStored b) } } }.done

/-! ## Firmware images (R335, R433) -/

/-- An image slot of the flash. -/
def Nvm.slot (v : Nvm) (i : Nat) : ImageSlot := if i = 0 then v.imageA else v.imageB

/-- Puts an image slot. -/
def Nvm.setSlot (v : Nvm) (i : Nat) (x : ImageSlot) : Nvm := if i = 0 then { v with imageA := x } else { v with imageB := x }

/-- The image as it stands in flash once it is written. -/
def slotOf (x : ImageInfo) : ImageSlot :=
  { sigOk := x.sigOk, digestOk := x.digestOk, length := x.length, version := x.version, raiseFloor := x.raiseFloor }

/-- FIRMWARE_WRITE (R335): the flash write begins; until its end the slot holds no valid image. -/
def State.doFirmwareWrite (s : State) (p : FirmwareWriteArg) : Answer :=
  s.checked [
      (!p.info.sigOk, eNotAuthorised),
      (decide (1 < p.image) || decide (1 < p.boot) || decide (2 ^ 24 < p.info.length)
        || (s.deviceBuffer p.surface p.info.length).isNone, eBadParam),
      (s.dev.booted == p.image, eState),
      (s.dev.fwWrite.isSome, eBusy)] fun s =>
    { s with dev := { s.dev with
        fwWrite := some (p.image, p.surface, p.info, p.boot == 1)
        nvm := s.dev.nvm.setSlot p.image {} } }.done

/-- FIRMWARE_WRITE_DONE (R335): the outcome is logged; a written image with boot = 1 is the next one booted, on trial (R433,
R434). -/
def execFirmwareWriteDone (status : Nat) (s : State) : Host.Outcome State Fault Refusal :=
  .next (
    match s.dev.fwWrite with
    | none => s
    | some (i, _, info, boot) =>
      let v := if status = 0 then s.dev.nvm.setSlot i (slotOf info) else s.dev.nvm
      let v := if status = 0 ∧ boot then { v with prefer := some i, trial := true } else v
      { s with dev := { s.dev with fwWrite := none, nvm := v } }.raise 0x0081 (if status = 0 then 0 else 2) i status)

/-! ## LIFECYCLE_SET (R336, R441, R442) -/

/-- The transitions of Table 21-2. -/
def lifeMove (t target : Nat) : Bool :=
  let l := lifeCycle t
  decide (t < 14) && ((l == 0 && target == 1) || (l == 1 && target == 2) || (l == 2 && target == 3) || (l == 3 && target == 1))

/-- Digest of the key that Table 21-2 names for a transition out of a state. -/
def State.signKey (s : State) : Option (BitVec 384) := if s.life = 2 then some Config.serviceKeyDigest else s.dev.nvm.ownerDigest

/-- Closes every session (R441): their CLOSED words carry a reason that Table 15-5 does not name. -/
def State.closeAll (s : State) (reason : Option Nat) : State :=
  (tkeys s.mbx.sessions).foldl (fun (t : State) p => t.closeSession p reason) s

/-- The entry action of a transition (Table 21-2): DEPLOYED to SERVICE empties keys and journal and closes sessions; SERVICE to
PROVISIONED empties the keys. -/
def State.lifeEntry (s : State) : State :=
  let noKeys (s : State) : State := { s with dev := { s.dev with nvm := { s.dev.nvm with keys := [] } } }
  if s.life = 2 then
    let s := (noKeys s).closeAll (some Config.keyWriteReason)
    { s with mbx := { s.mbx with journal := [] } }
  else if s.life = 3 then noKeys s
  else s

/-- The message that a transition's signature covers (R442): unit, present state, target and fuses burnt. -/
def State.lifeMessage (s : State) (target : Nat) : List Byte :=
  leBytes 8 s.dev.nvm.unitId.toNat ++ leBytes 1 s.life ++ leBytes 1 target ++ leBytes 1 s.dev.nvm.fuses ++ leBytes 5 0

/-- LIFECYCLE_SET: signature, fuse, entry action, completion; a chip reset follows (R441). -/
def State.doLifecycleSet (s : State) (p : LifecycleSetArg) : Answer :=
  let move := lifeMove s.dev.nvm.fuses p.target
  s.checked [
      (move && s.signKey.isSome && (s.signKey != some p.keyDigest || p.signed != some (s.lifeMessage p.target)), eNotAuthorised),
      (decide (3 < p.target), eBadParam),
      (!move || s.signKey.isNone || !s.chans.isEmpty || s.grp.role != .none, eState)] fun s =>
    let s := s.lifeEntry
    { s with dev := { s.dev with
        lifeReset := true, nvm := { s.dev.nvm with fuses := s.dev.nvm.fuses + 1 } } }.done

/-! ## EVENT_LOG_FETCH (R355) -/

/-- An entry as Table 20-2 lays it out. -/
def Event.bytes (e : Event) : List Byte :=
  leBytes 4 e.seq ++ leBytes 2 e.code ++ leBytes 1 e.severity
    ++ leBytes 1 ((if e.timeValid then 1 else 0) + (if e.duringCtl then 2 else 0))
    ++ leBytes 6 e.sec ++ leBytes 4 e.ns ++ leBytes 2 e.rep ++ leBytes 1 e.object ++ leBytes 3 0 ++ leBytes 8 e.detail

/-- EVENT_LOG_FETCH: entries from `fromSeq` on, oldest first, at most `max`. -/
def State.doEventLogFetch (s : State) (p : EventFetchArg) : Answer :=
  s.checked [(decide (p.max < 1) || decide (7 < p.max), eBadParam)] fun s =>
    let l := s.log.reverse
    let es := (l.filter fun (e : Event) => decide (p.fromSeq ≤ e.seq)).take p.max
    let oldest := match l with | e :: _ => e.seq | [] => s.logSeq
    let lost := if max p.fromSeq 1 < oldest then 1 else 0
    let next := match es.getLast? with | some e => e.seq + 1 | none => p.fromSeq
    s.reply (leBytes 1 es.length ++ leBytes 1 lost ++ leBytes 2 0 ++ leBytes 4 next ++ es.flatMap Event.bytes)

end Sys2Proof.Machine
end

