-- ==== Sys2Proof/Machine/Commands.lean ====
section
/-!
DEFINITION. Running a command (R306, R313, R319 to R327): Table 16-3, the checks and their order, the journal, the device states of
R325, forwarding to a worker (R289, R290), and the rows of the commands themselves.
-/
namespace Sys2Proof.Machine

/-! ## Table 16-3 -/

/-- Class of a command for the device states (Table 16-4). -/
inductive OpClass where
  | a | s | r
deriving DecidableEq, Repr

/-- Who may issue a command: the lobby alone, any open session, or one that holds a role of a mask (Table 15-7). -/
inductive OpRoles where
  | lobby
  | anySession
  | oneOf (mask : Nat)
deriving DecidableEq, Repr

/-- A row of Table 16-3: class, roles, and the payload length where it is fixed. -/
structure OpInfo where
  cls    : OpClass
  roles  : OpRoles
  length : Option Nat
deriving DecidableEq, Repr

/-- Table 16-3. -/
def opInfo : Payload → OpInfo
  | .sessionOpen _ => ⟨.a, .lobby, (some 4)⟩
  | .sessionProve _ => ⟨.a, .lobby, (some 32)⟩
  | .sessionClose => ⟨.a, .anySession, (some 0)⟩
  | .completionFetch _ => ⟨.a, .anySession, (some 4)⟩
  | .keyWrite _ => ⟨.a, (.oneOf 16), (some 36)⟩
  | .deviceInfo => ⟨.a, .anySession, (some 0)⟩
  | .deviceConfigure _ => ⟨.s, (.oneOf 4), (some 4)⟩
  | .powerBudget _ => ⟨.a, (.oneOf 4), (some 4)⟩
  | .shutdown _ => ⟨.r, (.oneOf 4), (some 4)⟩
  | .calRead _ => ⟨.a, (.oneOf 4), (some 4)⟩
  | .calWrite _ => ⟨.r, (.oneOf 4), (some 8)⟩
  | .firmwareWrite _ => ⟨.r, (.oneOf 4), (some 8)⟩
  | .lifecycleSet _ => ⟨.r, (.oneOf 16), (some 196)⟩
  | .timeConfig _ => ⟨.s, (.oneOf 4), (some 20)⟩
  | .timeServoConfig _ => ⟨.s, (.oneOf 4), (some 20)⟩
  | .timeAcceptStep _ => ⟨.s, (.oneOf 4), (some 8)⟩
  | .timePpsConfig _ => ⟨.s, (.oneOf 4), (some 8)⟩
  | .portConfig _ => ⟨.s, (.oneOf 4), (some 4)⟩
  | .netAddress _ => ⟨.s, (.oneOf 4), (some 48)⟩
  | .flowAdd _ => ⟨.s, (.oneOf 4), (some 52)⟩
  | .flowDelete _ => ⟨.s, (.oneOf 4), (some 4)⟩
  | .txQueueConfig _ => ⟨.s, (.oneOf 4), (some 8)⟩
  | .gateListSet _ => ⟨.s, (.oneOf 4), (some 24)⟩
  | .laneConfig _ => ⟨.r, (.oneOf 4), (some 8)⟩
  | .channelDefine _ => ⟨.s, (.oneOf 4), (some 176)⟩
  | .channelDelete _ => ⟨.s, (.oneOf 4), (some 4)⟩
  | .channelStart _ => ⟨.s, (.oneOf 6), (some 12)⟩
  | .channelStop _ => ⟨.s, (.oneOf 6), (some 12)⟩
  | .channelSet _ => ⟨.s, (.oneOf 4), (some 36)⟩
  | .channelCommit _ => ⟨.s, (.oneOf 6), (some 4)⟩
  | .channelRefresh _ => ⟨.s, (.oneOf 6), (some 12)⟩
  | .ltrMark _ => ⟨.s, (.oneOf 6), (some 12)⟩
  | .ltrRelease _ => ⟨.s, (.oneOf 6), (some 12)⟩
  | .roiSet _ => ⟨.s, (.oneOf 6), (some 16)⟩
  | .roiClear _ => ⟨.s, (.oneOf 6), (some 4)⟩
  | .extStreamDefine _ => ⟨.s, (.oneOf 4), (some 12)⟩
  | .extStreamDelete _ => ⟨.s, (.oneOf 4), (some 4)⟩
  | .surfaceAlloc _ => ⟨.s, (.oneOf 4), (some 16)⟩
  | .surfaceFree _ => ⟨.s, (.oneOf 4), (some 4)⟩
  | .flipSubmit _ => ⟨.s, (.oneOf 6), none⟩
  | .protectedLoad _ => ⟨.s, (.oneOf 8), (some 24)⟩
  | .protectedRemove _ => ⟨.s, (.oneOf 8), (some 12)⟩
  | .tonemapLoad _ => ⟨.s, (.oneOf 4), (some 8)⟩
  | .audioPortConfig _ => ⟨.s, (.oneOf 4), (some 12)⟩
  | .audioPortStart _ => ⟨.s, (.oneOf 6), (some 4)⟩
  | .audioPortStop _ => ⟨.s, (.oneOf 6), (some 4)⟩
  | .audioStreamConfig _ => ⟨.s, (.oneOf 4), (some 12)⟩
  | .audioStreamDelete _ => ⟨.s, (.oneOf 4), (some 4)⟩
  | .audioRoute _ => ⟨.s, (.oneOf 6), none⟩
  | .audioAlignGroup _ => ⟨.s, (.oneOf 4), none⟩
  | .audioClock _ => ⟨.s, (.oneOf 4), (some 12)⟩
  | .groupForm _ => ⟨.s, (.oneOf 4), none⟩
  | .groupJoin _ => ⟨.s, (.oneOf 4), none⟩
  | .groupLeave => ⟨.s, (.oneOf 4), (some 0)⟩
  | .groupHandover _ => ⟨.s, (.oneOf 6), (some 4)⟩
  | .chainEnumerate => ⟨.s, (.oneOf 4), (some 0)⟩
  | .chainBudget _ => ⟨.a, (.oneOf 4), (some 4)⟩
  | .eventLogFetch _ => ⟨.a, .anySession, (some 8)⟩
  | .cuAssign _ => ⟨.a, (.oneOf 4), (some 4)⟩

/-- A session's roles permit a command (step 5 of R306, R324). -/
def OpRoles.permits (o : OpRoles) (roles : Nat) : Bool :=
  match o with
  | .lobby => false
  | .anySession => true
  | .oneOf m => m &&& roles != 0

/-- Commands that are not journaled (R322). -/
def unjournaled : Payload → Bool
  | .sessionOpen _ => true
  | .sessionProve _ => true
  | .completionFetch _ => true
  | .deviceInfo => true
  | .eventLogFetch _ => true
  | _ => false

/-- The length that a payload's count fields imply, where it varies (R319). -/
def impliedLength : Payload → Option Nat
  | .flipSubmit p => some (24 + 16 * p.updates.length)
  | .audioRoute p => some (4 + 8 * p.entries.length)
  | .audioAlignGroup p => some (4 + 2 * p.members.length)
  | .groupForm p => some (8 + 20 * p.addrs.length)
  | .groupJoin p => some (8 + 20 * p.addrs.length)
  | _ => none

/-- The length field is wrong at step 3 of R306: beyond 236, or not what a listed opcode fixes. -/
def badLength (h : CmdHdr) (p : Payload) : Bool :=
  decide (236 < h.length) || (h.known p && match (opInfo p).length with | some n => h.length != n | none => false)

/-! ## What each command does -/

/-- The body of a command. -/
def State.body (s : State) (x : CmdCtx) : Payload → Answer
  | .sessionOpen p => s.doSessionOpen p
  | .sessionProve p => s.doSessionProve p
  | .sessionClose => s.doSessionClose x
  | .completionFetch p => s.doCompletionFetch x p
  | .keyWrite p => s.doKeyWrite p
  | .deviceInfo => s.doDeviceInfo
  | .deviceConfigure p => s.doDeviceConfigure p
  | .powerBudget p => s.doPowerBudget p
  | .shutdown p => s.doShutdown p
  | .calRead p => s.doCalRead p
  | .calWrite p => s.doCalWrite p
  | .firmwareWrite p => s.doFirmwareWrite p
  | .lifecycleSet p => s.doLifecycleSet p
  | .timeConfig p => s.doTimeConfig p
  | .timeServoConfig p => s.doTimeServoConfig p
  | .timeAcceptStep p => s.doTimeAcceptStep p
  | .timePpsConfig p => s.doTimePpsConfig p
  | .portConfig p => s.doPortConfig p
  | .netAddress p => s.doNetAddress p
  | .flowAdd p => s.doFlowAdd p
  | .flowDelete p => s.doFlowDelete p
  | .txQueueConfig p => s.doTxQueueConfig p
  | .gateListSet p => s.doGateListSet p
  | .laneConfig p => s.doLaneConfig p
  | .channelDefine p => s.doChannelDefine p
  | .channelDelete p => s.doChannelDelete p
  | .channelStart p => s.doChannelStart p
  | .channelStop p => s.doChannelStop p
  | .channelSet p => s.doChannelSet p
  | .channelCommit p => s.doChannelCommit p
  | .channelRefresh p => s.doChannelRefresh p
  | .ltrMark p => s.doLtrMark p
  | .ltrRelease p => s.doLtrRelease p
  | .roiSet p => s.doRoiSet p
  | .roiClear p => s.doRoiClear p
  | .extStreamDefine p => s.doExtStreamDefine p
  | .extStreamDelete p => s.doExtStreamDelete p
  | .surfaceAlloc p => s.doSurfaceAlloc p
  | .surfaceFree p => s.doSurfaceFree p
  | .flipSubmit p => s.doFlipSubmit p
  | .protectedLoad p => s.doProtectedLoad x p
  | .protectedRemove p => s.doProtectedRemove x p
  | .tonemapLoad p => s.doTonemapLoad p
  | .audioPortConfig p => s.doAudioPortConfig p
  | .audioPortStart p => s.doAudioPortStart p
  | .audioPortStop p => s.doAudioPortStop p
  | .audioStreamConfig p => s.doAudioStreamConfig p
  | .audioStreamDelete p => s.doAudioStreamDelete p
  | .audioRoute p => s.doAudioRoute p
  | .audioAlignGroup p => s.doAudioAlignGroup p
  | .audioClock p => s.doAudioClock p
  | .groupForm p => s.doGroupForm p
  | .groupJoin p => s.doGroupJoin p
  | .groupLeave => s.doGroupLeave
  | .groupHandover p => s.doGroupHandover p
  | .chainEnumerate => s.doChainEnumerate
  | .chainBudget p => s.doChainBudget p
  | .eventLogFetch p => s.doEventLogFetch p
  | .cuAssign p => s.doCuAssign p

/-- The body with the checks of R319 that every payload shares: a reserved byte that is not 0, or a length other than the counts
imply, gives E_BAD_PARAM, after the authorisation checks of R321. -/
def State.checkedBody (s : State) (h : CmdHdr) (x : CmdCtx) (p : Payload) : Answer :=
  let a := s.body x p
  let bad := !h.reservedOk || (match impliedLength p with | some n => h.length != n | none => false)
  if bad && a.status != eNotAuthorised then { st := s, status := eBadParam } else a

/-- After a thermal trip a device stays HALTED while T_max is at or above 110 °C (R364). -/
def State.tooHot (s : State) : Bool := s.pwr.tripped && decide (440 ≤ s.pwr.tMax)

/-- A command of class S brings the device back to READY and executes; one that is refused changes nothing (Table 16-4). -/
def State.bringReady (s : State) (h : CmdHdr) (x : CmdCtx) (p : Payload) : Answer :=
  let a := s.toReady.checkedBody h x p
  if a.status = eOk then a else { st := s, status := a.status }

/-- Thread slots left to levels 16 to 63, 32 of the 512 being kept for levels 0 to 15 (R401). DEDUCED (log entry 109): a command needs
one of them. -/
def State.threadFree (s : State) : Bool := decide (s.ctl.slots.length < 480)

/-- A command under Table 16-4; one that gets no thread slot of level 24 to 39 completes with E_BUSY (R401). -/
def State.execute (s : State) (h : CmdHdr) (x : CmdCtx) (p : Payload) : Answer :=
  if !s.threadFree then { st := s, status := eBusy } else
  match s.dev.state, (opInfo p).cls with
  | .ready, _ => s.checkedBody h x p
  | .testing, .a => s.checkedBody h x p
  | .halted, .a => s.checkedBody h x p
  | .testing, .r => { st := s, status := eRejectedSelftest }
  | .halted, .r => { st := s, status := eState }
  | .testing, .s =>
    let a := s.bringReady h x p
    if a.status != eOk then a
    else
      let t := s.stopTest
      if t.dev.state == .testing then { st := t, hold := some .service } else t.bringReady h x p
  | .halted, .s => if s.tooHot then { st := s, status := eState } else s.bringReady h x p

/-! ## Completing -/

/-- Completes an executed command: its completion is journaled where it was entered, written and announced; a session that the
command closes ends after that (R311, R314, R329, R330). -/
def HeldCmd.answer (k : HeldCmd) (a : Answer) : State :=
  let x : CmdCtx := ⟨k.from_, k.slot, k.roles, k.hdr.seq⟩
  let s := a.st
  match a.hold with
  | some why => { s with mbx := { s.mbx with held := some { k with why := why } } }
  | none =>
    let c := a.stored.getD (completionOf k.hdr (opcodeOf k.body) a.status false a.data)
    let j := s.journalOf x
    let s := if thas j x.seq && !(unjournaled k.body) then s.setJournal x (journalPut j x.seq (.done c)) else s
    match a.close with
    | some (p, r) => ((s.dropCompletions p).complete k.from_ c k.silent).shutSession p (some r)
    | none => s.complete k.from_ c k.silent

/-- Steps 6 and 7 of R306 for a command that executes here: the journal rule (R313, R322), and execution. -/
def State.runHere (s : State) (h : CmdHdr) (x : CmdCtx) (p : Payload) (f : State → Answer) : State :=
  let k : HeldCmd := ⟨.service, x.from_, x.slot, x.roles, h, p, false⟩
  let op := opcodeOf p
  if unjournaled p then k.answer (f s)
  else
    match journalRule (s.journalOf x) h.seq with
    | .refuse e => s.complete x.from_ (completionOf h op e false []) false
    | .repeated c => s.complete x.from_ { c with duplicate := true } false
    | .inProgress => s.complete x.from_ (completionOf h op eBusy true []) false
    | .damaged => s.complete x.from_ (completionOf h op eCrc true []) false
    | .fresh =>
      let s := s.setJournal x (journalPut (s.journalOf x) h.seq .inProgress)
      k.answer (f s)

/-! ## Forwarding (R280, R289) -/

/-- Why a command with a non-local target is refused here. -/
def State.forwardRefusal (s : State) (h : CmdHdr) (p : Payload) : Option Nat :=
  firstBad [
    ((opInfo p).roles == .oneOf 16, eNotAuthorised),
    (s.rat.conflict, eState),
    (!s.rat.manager || !(thas s.rat.table h.target), eBadParam)]

/-- Sends a command to a worker, whose journal it is entered in (R289, R290). -/
def State.forward (s : State) (h : CmdHdr) (x : CmdCtx) (tag block : Nat) (p : Payload) : State :=
  let f : Forwarded := ⟨x.pair, tag, block, h, x.slot, x.roles, p, s.rat.seq⟩
  { s with rat := { s.rat with forwarded := s.rat.forwarded ++ [f] } }.ratSend h.target (.command h x.slot x.roles p)

/-- A command for a worker: a sequence that this unit's journal holds is answered from it. -/
def State.runForward (s : State) (h : CmdHdr) (x : CmdCtx) (tag block : Nat) (p : Payload) : State :=
  match s.forwardRefusal h p with
  | some e => s.runHere h x p fun s => { st := s, status := e }
  | none =>
    if !(unjournaled p) && (h.seq == 0 || thas (s.journalOf x) h.seq) then s.runHere h x p fun s => s.done
    else s.forward h x tag block p

/-! ## A command block of the host (R306) -/

/-- The first failing check of steps 1 to 5 of R306. -/
def commandRefusal (h : CmdHdr) (roles : Nat) (p : Payload) : Option Nat :=
  let o := (opInfo p).roles
  firstBad [
    (!(h.crcOk p), eCrc),
    (h.session != h.pair, eNotAuthorised),
    (badLength h p, eBadParam),
    (!(h.known p), eBadOpcode),
    ((h.pair == 0) != (o == .lobby), eNotAuthorised),
    (h.pair != 0 && !(o.permits roles), eNotAuthorised)]

/-- The firmware reads a COMMAND word and works on its block (R306). Without such a word in the pair's mailbox, or while the word
stays unread (R314, R317), nothing happens; a word that no block can answer is REFUSED (R304). -/
def State.runCommand (s : State) (h : CmdHdr) (p : Payload) : State :=
  match tget s.mbx.h2d h.pair with
  | none => s
  | some w =>
    if !(s.mayRead h.pair) || wordType w != 1 then s
    else
      let t := s.serveWord h.pair
      match s.wordRefusal h.pair w with
      | some e => t.refuseWord h.pair (wordTag w) e
      | none =>
        let e := tgetD t.mbx.sessions h.pair ⟨0, 0⟩
        let x : CmdCtx := ⟨.host h.pair (wordTag w) (wordParam w), e.slot, e.roles, h.seq⟩
        match commandRefusal h e.roles p with
        | some e => t.complete x.from_ (completionOf h h.opcode e false []) false
        | none =>
          if 2 ≤ h.target then t.runForward h x (wordTag w) (wordParam w) p
          else t.runHere h x p fun s => s.execute h x p

/-! ## A command that waits (R325) -/

/-- A service request executes once the test has ended and the device is ready for it. -/
def State.settleService (s : State) : State :=
  match s.mbx.held with
  | some k =>
    if k.why == .service && s.dev.state != .testing then
      let s := { s with mbx := { s.mbx with held := none } }
      let x : CmdCtx := ⟨k.from_, k.slot, k.roles, k.hdr.seq⟩
      k.answer (if s.tooHot then { st := s, status := eState } else s.bringReady k.hdr x k.body)
    else s
  | none => s

/-- Commands that wait take notice of a device that has stopped. -/
def State.settle (s : State) : State := s.settleShutdown.settleService

/-! ## A worker's commands (R284, R289, R290) -/

/-- A worker accepts COMMAND messages only of its manager (R289). -/
def fromManager (h : RatHdr) : Bool := h.manager && h.src == 1

/-- A worker executes a forwarded command with the roles of the manager's session. -/
def State.ratCommand (s : State) (src : Nat) (c : CmdHdr) (slot roles : Nat) (p : Payload) : State :=
  let x : CmdCtx := ⟨.ratline src, slot, roles, c.seq⟩
  s.runHere c x p fun s => s.execute c x p

/-- A duplicate COMMAND makes the worker send the stored COMPLETION again (R284). -/
def State.resendCompletion (s : State) (src : Nat) (c : CmdHdr) (slot : Nat) : State :=
  match tget (tgetD s.rat.stored (8 * src + slot) []) c.seq with
  | some (.done d) => s.complete (.ratline src) d false
  | _ => s

/-- Firmware takes one waiting message. -/
def State.takeWaiting (s : State) (f : RatFrame) : State :=
  let h : RatHdr := ⟨if f.west then 0 else 1, 0, 0, 0, f.west, f.manager, f.src, f.dst, f.seq, f.hops⟩
  match f.msg with
  | .command c slot roles p => s.ratCommand f.src c slot roles p
  | m => s.ratHandle h m

/-- Firmware drains the receive ring (R291); a COMMAND waits while another is in execution. -/
def State.drainRing : Nat → State → State
  | 0, s => s
  | fuel + 1, s =>
    match s.rat.rxRing with
    | [] => s
    | f :: r =>
      if s.fwAlive && s.mbx.held.isNone then
        State.drainRing fuel ({ s with rat := { s.rat with rxRing := r } }.takeWaiting f)
      else s

/-- RATLINE_COMMAND (R284, R289, R290). -/
def execRatlineCommand (h : RatHdr) (c : CmdHdr) (slot roles : Nat) (p : Payload) (s : State) : Host.Outcome State Fault Refusal :=
  .next (
    let m : RatMsg := .command c slot roles p
    let l := s.ratLinkIn h m
    let t : RatTake := if l.2 then l.1.ratReceive h m else ⟨l.1, false, false⟩
    let s := State.drainRing 64 t.st
    if t.dup then (if fromManager h && s.fwAlive then s.resendCompletion h.src c slot else s)
    else if !t.taken then s
    else if !(fromManager h) then s.bump Reg.CHAIN_FWD_DROPS
    else if s.fwAlive && s.mbx.held.isNone then s.ratCommand h.src c slot roles p
    else s.ratWait h m)

/-! ## Events that end a test or a wait -/

/-- SELFTEST_BLOCK_END (R445, R446). -/
def execSelftestBlockEnd (block : Nat) (pass : Bool) (s : State) : Host.Outcome State Fault Refusal :=
  .next (s.blockEnd block pass).settleService

/-- TEST_GRANT_TIMEOUT (R293). -/
def execTestGrantTimeout (s : State) : Host.Outcome State Fault Refusal := .next s.grantTimeout.settleService

/-- THERMAL_TRIP (R364): a trip of a device that has tripped already changes nothing. -/
def execThermalTrip (sensor : Nat) (temp : Int) (s : State) : Host.Outcome State Fault Refusal :=
  .next (if s.pwr.tripped then s else (s.trip 0x0072 sensor (temp % 2 ^ 64).toNat).settle)

/-- HBM_TEMP_READ (R381). -/
def execHbmTempRead (t0 t1 : Option Int) (s : State) : Host.Outcome State Fault Refusal := .next (s.readHbm t0 t1).overTemp.settle

/-! ## The commands' rows -/

/-- SESSION_OPEN (R308). -/
def execSessionOpen (h : CmdHdr) (p : SessionOpenArg) (s : State) : Host.Outcome State Fault Refusal :=
  .next (s.runCommand h (.sessionOpen p))

/-- SESSION_PROVE (R309). -/
def execSessionProve (h : CmdHdr) (p : SessionProveArg) (s : State) : Host.Outcome State Fault Refusal :=
  .next (s.runCommand h (.sessionProve p))

/-- SESSION_CLOSE (R311, R329). -/
def execSessionClose (h : CmdHdr) (s : State) : Host.Outcome State Fault Refusal :=
  .next (s.runCommand h .sessionClose)

/-- COMPLETION_FETCH (R313, R329). -/
def execCompletionFetch (h : CmdHdr) (p : Nat) (s : State) : Host.Outcome State Fault Refusal :=
  .next (s.runCommand h (.completionFetch p))

/-- KEY_WRITE (R312, R330). -/
def execKeyWrite (h : CmdHdr) (p : KeyWriteArg) (s : State) : Host.Outcome State Fault Refusal :=
  .next (s.runCommand h (.keyWrite p))

/-- DEVICE_INFO (R331). -/
def execDeviceInfo (h : CmdHdr) (s : State) : Host.Outcome State Fault Refusal :=
  .next (s.runCommand h .deviceInfo)

/-- DEVICE_CONFIGURE (R74). -/
def execDeviceConfigure (h : CmdHdr) (p : ChArg) (s : State) : Host.Outcome State Fault Refusal :=
  .next (s.runCommand h (.deviceConfigure p))

/-- POWER_BUDGET (R332). -/
def execPowerBudget (h : CmdHdr) (p : Nat) (s : State) : Host.Outcome State Fault Refusal :=
  .next (s.runCommand h (.powerBudget p))

/-- SHUTDOWN (R333). -/
def execShutdown (h : CmdHdr) (p : ChArg) (s : State) : Host.Outcome State Fault Refusal :=
  .next (s.runCommand h (.shutdown p))

/-- CAL_READ (R334). -/
def execCalRead (h : CmdHdr) (p : Nat) (s : State) : Host.Outcome State Fault Refusal :=
  .next (s.runCommand h (.calRead p))

/-- CAL_WRITE (R334, R449). -/
def execCalWrite (h : CmdHdr) (p : CalWriteArg) (s : State) : Host.Outcome State Fault Refusal :=
  .next (s.runCommand h (.calWrite p))

/-- FIRMWARE_WRITE (R335). -/
def execFirmwareWrite (h : CmdHdr) (p : FirmwareWriteArg) (s : State) : Host.Outcome State Fault Refusal :=
  .next (s.runCommand h (.firmwareWrite p))

/-- LIFECYCLE_SET (R336, R441). -/
def execLifecycleSet (h : CmdHdr) (p : LifecycleSetArg) (s : State) : Host.Outcome State Fault Refusal :=
  .next (s.runCommand h (.lifecycleSet p))

/-- TIME_CONFIG (R207, R337). -/
def execTimeConfig (h : CmdHdr) (p : TimeConfigArg) (s : State) : Host.Outcome State Fault Refusal :=
  .next (s.runCommand h (.timeConfig p))

/-- TIME_SERVO_CONFIG (R211, R212). -/
def execTimeServoConfig (h : CmdHdr) (p : TimeServoArg) (s : State) : Host.Outcome State Fault Refusal :=
  .next (s.runCommand h (.timeServoConfig p))

/-- TIME_ACCEPT_STEP (R214). -/
def execTimeAcceptStep (h : CmdHdr) (p : TimeField) (s : State) : Host.Outcome State Fault Refusal :=
  .next (s.runCommand h (.timeAcceptStep p))

/-- TIME_PPS_CONFIG (R220). -/
def execTimePpsConfig (h : CmdHdr) (p : TimePpsArg) (s : State) : Host.Outcome State Fault Refusal :=
  .next (s.runCommand h (.timePpsConfig p))

/-- PORT_CONFIG (R174, R175, R338). -/
def execPortConfig (h : CmdHdr) (p : PortConfigArg) (s : State) : Host.Outcome State Fault Refusal :=
  .next (s.runCommand h (.portConfig p))

/-- NET_ADDRESS (R176, R338). -/
def execNetAddress (h : CmdHdr) (p : NetAddressArg) (s : State) : Host.Outcome State Fault Refusal :=
  .next (s.runCommand h (.netAddress p))

/-- FLOW_ADD (R181, R182, R339). -/
def execFlowAdd (h : CmdHdr) (p : FlowArg) (s : State) : Host.Outcome State Fault Refusal :=
  .next (s.runCommand h (.flowAdd p))

/-- FLOW_DELETE (R181, R339). -/
def execFlowDelete (h : CmdHdr) (p : Nat) (s : State) : Host.Outcome State Fault Refusal :=
  .next (s.runCommand h (.flowDelete p))

/-- TX_QUEUE_CONFIG (R199, R203, R340). -/
def execTxQueueConfig (h : CmdHdr) (p : TxQueueArg) (s : State) : Host.Outcome State Fault Refusal :=
  .next (s.runCommand h (.txQueueConfig p))

/-- GATE_LIST_SET (R203, R204, R340). -/
def execGateListSet (h : CmdHdr) (p : GateListArg) (s : State) : Host.Outcome State Fault Refusal :=
  .next (s.runCommand h (.gateListSet p))

/-- LANE_CONFIG (R274, R276, R341). -/
def execLaneConfig (h : CmdHdr) (p : LaneConfigArg) (s : State) : Host.Outcome State Fault Refusal :=
  .next (s.runCommand h (.laneConfig p))

/-- CHANNEL_DEFINE (R23, R24). -/
def execChannelDefine (h : CmdHdr) (p : ChannelDefineArg) (s : State) : Host.Outcome State Fault Refusal :=
  .next (s.runCommand h (.channelDefine p))

/-- CHANNEL_DELETE (R34). -/
def execChannelDelete (h : CmdHdr) (p : ChArg) (s : State) : Host.Outcome State Fault Refusal :=
  .next (s.runCommand h (.channelDelete p))

/-- CHANNEL_START (R35). -/
def execChannelStart (h : CmdHdr) (p : ChtArg) (s : State) : Host.Outcome State Fault Refusal :=
  .next (s.runCommand h (.channelStart p))

/-- CHANNEL_STOP (R36). -/
def execChannelStop (h : CmdHdr) (p : ChtArg) (s : State) : Host.Outcome State Fault Refusal :=
  .next (s.runCommand h (.channelStop p))

/-- CHANNEL_SET (R23, R344). -/
def execChannelSet (h : CmdHdr) (p : ChannelSetArg) (s : State) : Host.Outcome State Fault Refusal :=
  .next (s.runCommand h (.channelSet p))

/-- CHANNEL_COMMIT (R10, R241). -/
def execChannelCommit (h : CmdHdr) (p : ChArg) (s : State) : Host.Outcome State Fault Refusal :=
  .next (s.runCommand h (.channelCommit p))

/-- CHANNEL_REFRESH (R108). -/
def execChannelRefresh (h : CmdHdr) (p : ChtArg) (s : State) : Host.Outcome State Fault Refusal :=
  .next (s.runCommand h (.channelRefresh p))

/-- LTR_MARK (R104). -/
def execLtrMark (h : CmdHdr) (p : ChtArg) (s : State) : Host.Outcome State Fault Refusal :=
  .next (s.runCommand h (.ltrMark p))

/-- LTR_RELEASE (R105). -/
def execLtrRelease (h : CmdHdr) (p : ChtArg) (s : State) : Host.Outcome State Fault Refusal :=
  .next (s.runCommand h (.ltrRelease p))

/-- ROI_SET (R115, R345). -/
def execRoiSet (h : CmdHdr) (p : RoiSetArg) (s : State) : Host.Outcome State Fault Refusal :=
  .next (s.runCommand h (.roiSet p))

/-- ROI_CLEAR (R115). -/
def execRoiClear (h : CmdHdr) (p : ChArg) (s : State) : Host.Outcome State Fault Refusal :=
  .next (s.runCommand h (.roiClear p))

/-- EXT_STREAM_DEFINE (R125, R345). -/
def execExtStreamDefine (h : CmdHdr) (p : ExtStreamArg) (s : State) : Host.Outcome State Fault Refusal :=
  .next (s.runCommand h (.extStreamDefine p))

/-- EXT_STREAM_DELETE (R125). -/
def execExtStreamDelete (h : CmdHdr) (p : ChArg) (s : State) : Host.Outcome State Fault Refusal :=
  .next (s.runCommand h (.extStreamDelete p))

/-- SURFACE_ALLOC (R135, R346). -/
def execSurfaceAlloc (h : CmdHdr) (p : SurfaceAllocArg) (s : State) : Host.Outcome State Fault Refusal :=
  .next (s.runCommand h (.surfaceAlloc p))

/-- SURFACE_FREE (R135, R346). -/
def execSurfaceFree (h : CmdHdr) (p : Nat) (s : State) : Host.Outcome State Fault Refusal :=
  .next (s.runCommand h (.surfaceFree p))

/-- FLIP_SUBMIT (R142 to R146, R347). -/
def execFlipSubmit (h : CmdHdr) (p : FlipSubmitArg) (s : State) : Host.Outcome State Fault Refusal :=
  .next (s.runCommand h (.flipSubmit p))

/-- PROTECTED_LOAD (R148, R348). -/
def execProtectedLoad (h : CmdHdr) (p : ProtectedLoadArg) (s : State) : Host.Outcome State Fault Refusal :=
  .next (s.runCommand h (.protectedLoad p))

/-- PROTECTED_REMOVE (R149, R348). -/
def execProtectedRemove (h : CmdHdr) (p : ChtArg) (s : State) : Host.Outcome State Fault Refusal :=
  .next (s.runCommand h (.protectedRemove p))

/-- TONEMAP_LOAD (R153, R348). -/
def execTonemapLoad (h : CmdHdr) (p : TonemapLoadArg) (s : State) : Host.Outcome State Fault Refusal :=
  .next (s.runCommand h (.tonemapLoad p))

/-- AUDIO_PORT_CONFIG (R163, R349). -/
def execAudioPortConfig (h : CmdHdr) (p : AudioPortArg) (s : State) : Host.Outcome State Fault Refusal :=
  .next (s.runCommand h (.audioPortConfig p))

/-- AUDIO_PORT_START (R166). -/
def execAudioPortStart (h : CmdHdr) (p : ChArg) (s : State) : Host.Outcome State Fault Refusal :=
  .next (s.runCommand h (.audioPortStart p))

/-- AUDIO_PORT_STOP (R166). -/
def execAudioPortStop (h : CmdHdr) (p : ChArg) (s : State) : Host.Outcome State Fault Refusal :=
  .next (s.runCommand h (.audioPortStop p))

/-- AUDIO_STREAM_CONFIG (R157, R349). -/
def execAudioStreamConfig (h : CmdHdr) (p : AudioStreamArg) (s : State) : Host.Outcome State Fault Refusal :=
  .next (s.runCommand h (.audioStreamConfig p))

/-- AUDIO_STREAM_DELETE (R157). -/
def execAudioStreamDelete (h : CmdHdr) (p : ChArg) (s : State) : Host.Outcome State Fault Refusal :=
  .next (s.runCommand h (.audioStreamDelete p))

/-- AUDIO_ROUTE (R156, R171, R350). -/
def execAudioRoute (h : CmdHdr) (p : AudioRouteArg) (s : State) : Host.Outcome State Fault Refusal :=
  .next (s.runCommand h (.audioRoute p))

/-- AUDIO_ALIGN_GROUP (R161, R351). -/
def execAudioAlignGroup (h : CmdHdr) (p : AlignGroupArg) (s : State) : Host.Outcome State Fault Refusal :=
  .next (s.runCommand h (.audioAlignGroup p))

/-- AUDIO_CLOCK (R168, R349). -/
def execAudioClock (h : CmdHdr) (p : AudioClockArg) (s : State) : Host.Outcome State Fault Refusal :=
  .next (s.runCommand h (.audioClock p))

/-- GROUP_FORM (R222, R352). -/
def execGroupForm (h : CmdHdr) (p : GroupArg) (s : State) : Host.Outcome State Fault Refusal :=
  .next (s.runCommand h (.groupForm p))

/-- GROUP_JOIN (R256, R352). -/
def execGroupJoin (h : CmdHdr) (p : GroupArg) (s : State) : Host.Outcome State Fault Refusal :=
  .next (s.runCommand h (.groupJoin p))

/-- GROUP_LEAVE (R260, R353). -/
def execGroupLeave (h : CmdHdr) (s : State) : Host.Outcome State Fault Refusal :=
  .next (s.runCommand h .groupLeave)

/-- GROUP_HANDOVER (R246, R353). -/
def execGroupHandover (h : CmdHdr) (p : Nat) (s : State) : Host.Outcome State Fault Refusal :=
  .next (s.runCommand h (.groupHandover p))

/-- CHAIN_ENUMERATE (R287, R354). -/
def execChainEnumerate (h : CmdHdr) (s : State) : Host.Outcome State Fault Refusal :=
  .next (s.runCommand h .chainEnumerate)

/-- CHAIN_BUDGET (R292, R354). -/
def execChainBudget (h : CmdHdr) (p : Nat) (s : State) : Host.Outcome State Fault Refusal :=
  .next (s.runCommand h (.chainBudget p))

/-- EVENT_LOG_FETCH (R355). -/
def execEventLogFetch (h : CmdHdr) (p : EventFetchArg) (s : State) : Host.Outcome State Fault Refusal :=
  .next (s.runCommand h (.eventLogFetch p))

/-- CU_ASSIGN (R332, R408). -/
def execCuAssign (h : CmdHdr) (p : ChArg) (s : State) : Host.Outcome State Fault Refusal :=
  .next (s.runCommand h (.cuAssign p))

end Sys2Proof.Machine
end

