-- ==== Sys2Proof/Machine/Reset.lean ====
section
/-!
DEFINITION. Resets and boot (R424, Table 20-4): power-on and chip reset, the boot sequence (R431 to R438), recovery, the trial of an
image, the life cycle's reset, control-complex resets (R396 to R398, R315), function-level resets (R315, R316), and clocks that lose
lock (R12, R275).
-/
namespace Sys2Proof.Machine

/-! ## Power-on and chip reset (Table 20-4) -/

/-- What every reset of the device keeps: OTP, flash, pins and clocks outside it, and the model's own record. -/
def State.bare (s : State) (kind : Nat) : State :=
  { State.reset with
    dev := { resetKind := kind, nvm := s.dev.nvm, gpioIn := s.dev.gpioIn, linkRefLost := s.dev.linkRefLost }
    out := s.out, fresh := s.fresh, pending := s.pending }

/-- A chip reset (R424, R425): DEV_LAST_FATAL, PWR_RESET_CAUSE and the contents of HBM, which the table does not name, are kept. -/
def State.chipReset (s : State) (kind : Nat) : State :=
  let t := s.bare kind
  { t with
    dev := { t.dev with lastCode := s.dev.lastCode, lastObj := s.dev.lastObj, lastS := s.dev.lastS, lastNs := s.dev.lastNs }
    mem := { t.mem with hbm := s.mem.hbm, poison := s.mem.poison } }.wr Reg.PWR_RESET_CAUSE (s.rd Reg.PWR_RESET_CAUSE)

/-- POWER_ON (R424, R456): every item is cleared, DEV_LAST_FATAL among them, so it holds no fatal error of after the record. -/
def execPowerOn (s : State) : Host.Outcome State Fault Refusal :=
  .next (
    let t := s.bare 0
    { t with dev := { t.dev with nvm := { t.dev.nvm with fatalAfterRecord := false } } })

/-- CHIP_RESET (R425): RESET_N. -/
def execChipReset (s : State) : Host.Outcome State Fault Refusal := .next (s.chipReset 1)

/-- SUPPLY_RESET_CROSSING (R365, R368): a chip reset; PWR_RESET_CAUSE keeps the rail, 0 VDD_CORE or 1 VDD_SRAM, and the lowest
sample. -/
def execSupplyResetCrossing (rail mv : Nat) (s : State) : Host.Outcome State Fault Refusal :=
  .next ((s.chipReset 2).wr Reg.PWR_RESET_CAUSE (bitIf (rail == 0) 0 ||| bitIf (rail == 1) 1 ||| wnat mv 27 16))

/-! ## Boot (R431 to R438) -/

/-- An image is valid (R433). -/
def ImageSlot.valid (x : ImageSlot) (floor : Nat) : Bool :=
  x.sigOk && x.digestOk && decide (floor ≤ x.version) && decide (x.length ≤ 2 ^ 24)

/-- The image the boot ROM boots (R433): the preferred one if it is valid, else the other; A is first without a preference. -/
def Nvm.choose (v : Nvm) : Option Nat :=
  let i := v.prefer.getD 0
  if (v.slot i).valid v.floor then some i else if (v.slot (1 - i)).valid v.floor then some (1 - i) else none

/-- The OTP age limit in hours, 720 when unwritten (R437). -/
def Nvm.ageLimit (v : Nvm) : Nat :=
  match tget v.words 13 with
  | some w => w.toNat
  | none => 720

/-- Full BIST runs (R436). -/
def State.fullBistDue (s : State) : Bool :=
  let v := s.dev.nvm
  s.bistOpen || v.fatalAfterRecord || (match v.test with
    | none => true
    | some r => r.failed != 0 || decide (v.ageLimit ≤ v.hours - r.hours))

/-- The blocks of Table 21-4 that boot tests (R436, R437). -/
def State.bootBlocks (s : State) (full : Bool) : List Nat :=
  (List.range 50).filter fun b => full || (match s.dev.nvm.test with | some r => !(hasBit64 r.tested b) | none => true)

/-- The system area of both stacks is initialised (Table 21-1, R373). -/
def systemArea (a : Nat) : Bool := a % 2 ^ 34 < 2 ^ 30

/-- What the boot test finds (R438, R447): failed engines and pipelines are marked, any other failed block stops the boot, a
failure is logged, and a full BIST that passes writes a complete record. -/
def State.bootTest (s : State) (failed : List Nat) (coreFail : Bool) : State :=
  let full := s.fullBistDue
  let run := s.bootBlocks full
  let bad := run.filter fun b => failed.contains b
  let stop := coreFail || bad.any fun b => decide (40 ≤ b)
  let s := bad.foldl (fun (t : State) b => { t with eng := t.eng.markBlock b }) s
  let d := if full && bad.isEmpty && !coreFail then s.dev.writeRecord allBlocks 0 true 1 else s.dev
  let s := { s with dev := { d with fullBist := full, bootFail := stop, phase := if stop then .failed else .booted } }
  if bad.isEmpty then s else s.raise 0x0082 2 0xFF (run.length + 2 ^ 16 * bad.length)

/-- DEV_TEST_STATUS and the calibration in force, from flash (R449, R450). -/
def DevBlock.readFlash (d : DevBlock) : DevBlock :=
  let r := d.nvm.test
  { d with
    recValid := r.isSome
    recComplete := match r with | some r => r.complete | none => false
    recFailed := match r with | some r => r.failed != 0 | none => false
    calNow := d.nvm.cal, calInvalid := d.nvm.cal.isNone }

/-- RESET_RELEASE (R279, R431 to R438): MGR_SEL is sampled, an image chosen and the part tested. `failed` are the blocks of
Table 21-4 whose test fails, `coreFail` says that another block fails. The stay and ratline lanes begin to transmit (R269). -/
def execResetRelease (mgrSel : Bool) (failed : List Nat) (coreFail : Bool) (s : State) : Host.Outcome State Fault Refusal :=
  .next (
    if s.dev.phase != .held then s
    else
      let v := s.dev.nvm
      let s := { s with
        rat := { s.rat with manager := mgrSel, addr := if mgrSel then 1 else 0 }
        dev := { s.dev with aBad := !(v.imageA.valid v.floor), bBad := !(v.imageB.valid v.floor) } }
      let s := (rangeFrom 16 10).foldl (fun (t : State) l => t.updLane l fun x => { x with enabled := true }) s
      match v.choose with
      | none => { s with dev := { s.dev with phase := .recovery, booted := 2 } }
      | some i =>
        let s := { s with
          dev := { s.dev with booted := i, trial := v.trial && v.prefer == some i }.readFlash
          mem := { s.mem with
            hbm := s.mem.hbm.filter fun (e : Nat × Byte) => !(systemArea e.1)
            poison := s.mem.poison.filter fun (e : Nat × Unit) => !(systemArea (32 * e.1)) } }
        (s.bootTest failed coreFail).emit (.boot i))

/-- DEV_RECOVERY (R435): in recovery, a write of the length of an image that verifies boots it; it is not stored. -/
def execDevRecovery (w : Word) (info : ImageInfo) (s : State) : Host.Outcome State Fault Refusal :=
  .next (
    if s.dev.phase == .recovery && (slotOf { info with length := wfield w 24 0 }).valid s.dev.nvm.floor then
      let s := { s with dev := { s.dev with booted := 2 }.readFlash }
      (s.bootTest [] false).emit (.boot 2)
    else s)

/-- The trial of the running image passes (R434): the floor rises where the image asks for it. -/
def DevBlock.passTrial (d : DevBlock) : DevBlock :=
  if d.trial then
    let x := d.nvm.slot d.booted
    { d with
      trial := false
      nvm := { d.nvm with trial := false, floor := if x.raiseFloor then max d.nvm.floor x.version else d.nvm.floor } }
  else d

/-- TRIAL_TIMEOUT (R434): the preference goes to the other image, and a chip reset follows. -/
def execTrialTimeout (s : State) : Host.Outcome State Fault Refusal :=
  .next (
    if s.dev.trial && !s.mbx.fwReady then
      let t := s.chipReset 1
      { t with dev := { t.dev with nvm := { t.dev.nvm with
          prefer := some (1 - s.dev.booted), trial := false } } }.sticky Reg.DEV_BOOT_STATUS 0x1000000
    else s)

/-- HOUR_COUNTER_TICK (R437): a 4-byte counter (Table 21-5). -/
def execHourCounterTick (s : State) : Host.Outcome State Fault Refusal :=
  .next { s with dev := { s.dev with nvm := { s.dev.nvm with hours := (s.dev.nvm.hours + 1) % 2 ^ 32 } } }

/-- LIFECYCLE_RESET_TIMER (R441). -/
def execLifecycleResetTimer (s : State) : Host.Outcome State Fault Refusal :=
  .next (if s.dev.lifeReset then s.chipReset 1 else s)

/-! ## Control-complex reset (R315, R396 to R398) -/

/-- A command in execution is not applied (R314, R315): its journal entry is removed, and its word will be answered LOST. A
GROUP_JOIN that waits for its first hello has not joined. -/
def State.cutHeld (s : State) : State :=
  match s.mbx.held with
  | none => s
  | some k =>
    let x : CmdCtx := ⟨k.from_, k.slot, k.roles, k.hdr.seq⟩
    let j := s.journalOf x
    let s := { s with mbx := { s.mbx with held := none } }
    let s := if tget j x.seq == some .inProgress then s.setJournal x (tdel j x.seq) else s
    let s := match k.from_, k.silent with
      | .host p tag b, false => { s with mbx := { s.mbx with cut := s.mbx.cut ++ [(p, mbxWord 1 tag b)] } }
      | _, _ => s
    if k.why == .hello then { s with grp := { s.grp with role := .detached } }.settleFree else s

/-- Forwarded commands in execution are answered LOST (R291, R315). -/
def State.cutForwarded (s : State) : State :=
  let ws := s.rat.forwarded.map fun f => (f.pair, mbxWord 1 f.tag f.block)
  { s with rat := { s.rat with forwarded := [] }, mbx := { s.mbx with cut := s.mbx.cut ++ ws } }

/-- Sessions, nonces and locks end with the reset; queued completions are discarded and stay in the journal (Table 15-8). -/
def State.cutSessions (s : State) : State :=
  let ps := tkeys s.mbx.sessions
  let s := ps.foldl (fun (t : State) p => (t.dropCompletions p).sticky (Reg.MBX_STATUS p) 0x20000) (s.dropCompletions 0)
  { s with mbx := { s.mbx with sessions := [], closing := s.mbx.closing ++ ps, nonces := [], fails := [], locked := [] } }

/-- Fields of a shadow copy that were never committed are discarded (R10). -/
def State.dropUncommitted (s : State) : State :=
  { s with chans := tmap s.chans fun c ch =>
      let g := s.gch c
      { ch with shadow := (tget g.held g.gen).getD ch.active } }

/-- A fourth reset within 60 s of the first of three earlier ones makes the complex unstable (R398). -/
def CtlState.noteReset (c : CtlState) (now : Nat) : CtlState :=
  let u := c.unstable || (match c.resets[2]? with | some t => decide (now ≤ t + 60000000000) | none => false)
  { c with resets := (now :: c.resets).take 4, unstable := u, hold := u }

/-- A control-complex reset of a cause and core (R396, R397, R424). Media runs on (R11). -/
def State.ctlReset (s : State) (cause core : Nat) : State :=
  let c := s.ctl.noteReset s.time.up
  let s := { s with
    ctl := { c with
      cores := 0, restarting := true, lastCause := cause, lastCore := core, slots := [], running := [], ready := [], spill := [] }
    mbx := { s.mbx with fwReady := false }
    dev := { s.dev with
      resetKind := 3, test := if s.dev.state == DevState.testing then { s.dev.test with stopping := true } else s.dev.test } }
  let s := (s.bump Reg.HAL_CTRL_RESETS).cutHeld.cutForwarded.cutSessions.dropUncommitted
  { s with fresh := s.fresh + 1 }.resetMaster 23 (Config.inFlight s.fresh)

/-- The control complex has been released from reset: it can be reset. -/
def State.ctlRuns (s : State) : Bool := s.dev.phase == .booted

/-- CONTROL_COMPLEX_RESET (R397): a fatal firmware error. -/
def execControlComplexReset (s : State) : Host.Outcome State Fault Refusal := .next (if s.ctlRuns then s.ctlReset 3 0 else s)

/-- WATCHDOG_EXPIRY (R396). -/
def execWatchdogExpiry (core : Nat) (s : State) : Host.Outcome State Fault Refusal :=
  .next (if s.ctlRuns && decide (core < 8) then (s.ctlReset 1 core).bump Reg.HAL_WDOG_EXPIRIES else s)

/-- RESTART_HOLD_EXPIRY (R398). -/
def execRestartHoldExpiry (s : State) : Host.Outcome State Fault Refusal :=
  .next { s with ctl := { s.ctl with hold := false } }

/-! ## Firmware ready (R286, R397, R434) -/

/-- LOST words after a restart: for commands in execution, then for every word that waits; CLOSED words follow (R315). -/
def State.postLost (s : State) : State :=
  let s := s.mbx.cut.foldl (fun (t : State) (e : Nat × Word) => t.loseWord e.1 e.2) s
  let s := s.mbx.h2d.foldl (fun (t : State) (e : Nat × Word) => (t.takeWord e.1).loseWord e.1 e.2) s
  let s := s.mbx.closing.foldl (fun (t : State) p => t.queueWord p (mbxWord 6 0 4)) s
  { s with mbx := { s.mbx with cut := [], closing := [] } }

/-- HAL_LAST_RESTART (R396, R397). -/
def State.lastRestart (s : State) : Word := wnat s.ctl.lastMs 23 0 ||| wnat s.ctl.lastCore 26 24 ||| wnat s.ctl.lastCause 31 28

/-- A restart ends after `ms`; the image was read again from flash where `reread` (R397). -/
def State.restarted (s : State) (ms : Nat) (reread : Bool) : State :=
  let s := { s with
    ctl := { s.ctl with restarting := false, lastMs := ms, lastCause := if reread then 4 else s.ctl.lastCause }
  }
  (s.raise 0x0080 1 s.ctl.lastCore s.lastRestart.toNat).postLost

/-- Firmware is ready for the first time since reset: a trial passes, and a manager with a ratline port UP enumerates. -/
def State.firstReady (s : State) : State :=
  if s.dev.readyOnce then s
  else
    let s := { s with dev := { s.dev with readyOnce := true }.passTrial }
    if s.manages && (s.ratUp 0 || s.ratUp 1) then s.enumerate else s

/-- FIRMWARE_READY (R397, R431): the end of boot, or of a restart that is not held. -/
def execFirmwareReady (ms : Nat) (reread : Bool) (s : State) : Host.Outcome State Fault Refusal :=
  .next (
    if s.dev.phase != .booted || s.mbx.fwReady || (s.ctl.restarting && s.ctl.hold) then s
    else
      let s := { s with
        mbx := { s.mbx with fwReady := true }, ctl := { s.ctl with cores := 0xFF }
        dev := { s.dev with unlocked := s.dev.unlocked.filter (· != Domain.ctrl) } }
      let s := if s.ctl.restarting then s.restarted ms reread else s
      State.drainRing 64 s.firstReady.settleTest)

/-! ## Function-level reset (R315, R316, R408) -/

/-- FUNCTION_LEVEL_RESET: FLR, hot reset, or the PCIe link going down. -/
def State.flr (s : State) : State :=
  let s := { s with dev := { s.dev with resetKind := 4 } }.bumpBy Reg.MBX_FLR_WITHDRAWN s.mbx.h2d.length
  let s := (tkeys s.mbx.sessions).foldl (fun (t : State) p => t.shutSession p none) s
  let s := { s with
    mbx := { s.mbx with
      h2d := [], h2dAt := [], asking := [], d2h := [], queue := [], nonces := [], fails := [], locked := [], closing := []
      held := s.mbx.held.map fun (k : HeldCmd) => { k with silent := match k.from_ with | .host _ _ _ => true | .ratline _ => k.silent }
      msixPend := 0, pci := {} }
    rat := { s.rat with forwarded := [] } }
  let s := s.clearRegs 0x00010000 0x00010400
  let s := [2, 3, 7].foldl (fun (t : State) u => if (t.chkOf u).granted then t.chkReset u else t) s
  { s with fresh := s.fresh + 1 }.resetMaster 22 (Config.inFlight s.fresh)

/-- FUNCTION_LEVEL_RESET (R315). -/
def execFunctionLevelReset (s : State) : Host.Outcome State Fault Refusal := .next s.flr

/-! ## Loss of lock (R12, R22, R275) -/

/-- The number of a domain: the order of Table 1-4 from 0. -/
def domainCode : Domain → Nat
  | .aon => 0
  | .ref => 1
  | .ctrl => 2
  | .fab => 3
  | .enc => 4
  | .proof => 5
  | .pix => 6
  | .hbm0 => 7
  | .hbm1 => 8
  | .emac => 9
  | .epcs => 10
  | .time => 11
  | .stay => 12
  | .rat => 13
  | .pcie => 14
  | .audm => 15
  | .audx => 16
  | .dbg => 17

/-- Domains whose PLL stops the device (R12). -/
def stoppingDomains : List Domain := [.fab, .enc, .proof, .pix, .hbm0, .hbm1, .emac, .time]

/-- Domains whose lock detectors report loss. -/
def State.unlock (s : State) (ds : List Domain) : State :=
  { s with dev := { s.dev with unlocked := s.dev.unlocked ++ ds.filter fun d => !(s.dev.unlocked.contains d) } }

/-- PLL_UNLOCK of a domain that does not stop the device is logged as a warning (Table 20-3). -/
def State.noteUnlock (s : State) (d : Domain) : State := s.raise 0x0073 1 (domainCode d) 0

/-- Every Ethernet lane loses its clock and every interface goes down (R274, R275). -/
def State.ethLost (s : State) : State :=
  let s := (List.range 16).foldl (fun (t : State) l => t.loseCdr l) s
  (List.range 16).foldl (fun (t : State) i => t.linkDown i) s

/-- The lanes of a stay or ratline port lose their clock, and the port fails (R273). -/
def State.portClockLost (s : State) (q : Nat) : State :=
  let s := (portLanes q).foldl (fun (t : State) l => t.updLane l fun x => { x with symLock := false, errAt := [] }) s
  s.failPort q 2

/-- The AUDM oscillator has lost lock and holds its steering word (R12). -/
def State.audmLost (s : State) : State := { s with dev := { s.dev with oscUnlocked := true } }.noteUnlock .audm

/-- PLL_UNLOCK (R12): by domain. DESIGN CHOICE (log entry 81): a CTRL PLL that unlocks before the control complex is booted has nothing
to reset; the loss is logged and the domain marked, as with a booted one. -/
def execPllUnlock (d : Domain) (s : State) : Host.Outcome State Fault Refusal :=
  .next (
    match d with
    | .ctrl => if s.ctlRuns then ((s.noteUnlock d).unlock [d]).ctlReset 2 0 else (s.noteUnlock d).unlock [d]
    | .pcie => (s.noteUnlock d).flr
    | .epcs => (s.noteUnlock d).ethLost
    | .stay => ((s.noteUnlock d).portClockLost 0).portClockLost 1
    | .rat => ((s.noteUnlock d).portClockLost 2).portClockLost 3
    | .audm => s.audmLost
    | d => if stoppingDomains.contains d then ((s.unlock [d]).fatal 0x0073 (domainCode d) 0).settle else s)

/-- Every PLL fed from REF unlocks, with one fatal entry, and every Ethernet lane and interface goes down (R12, R275). -/
def State.refLost (s : State) : State :=
  ((s.unlock (.ctrl :: stoppingDomains)).fatal 0x0073 (domainCode .ref) 0).settle.ethLost

/-- The control complex, whose PLL is among those that unlock, is reset. -/
def State.refReset (s : State) : State := if s.refLost.ctlRuns then s.refLost.ctlReset 2 0 else s.refLost

/-- REFCLK_ETH_LOSS (R12, R275). -/
def execRefclkEthLoss (s : State) : Host.Outcome State Fault Refusal := .next s.refReset

/-- AUDM_OSC_UNLOCK (R12). -/
def execAudmOscUnlock (s : State) : Host.Outcome State Fault Refusal := .next s.audmLost

end Sys2Proof.Machine
end

