-- ==== Sys2Proof/Machine/Access.lean ====
section
/-!
DEFINITION. Host accesses to BAR0 (R5, R6, R20 to R22): writes of registers by their access types, bad accesses, and the BIST block
(R443, R451).
-/
namespace Sys2Proof.Machine

/-! ## BIST (R443, R451) -/

/-- A host write to the BIST block: discarded and counted outside MANUFACTURE and SERVICE (R21). -/
def State.bistWrite (s : State) (f : State → State) : State := s.barWrite fun s => if s.bistOpen then f s else s.badAccess

/-- A write of BIST_RUN's block and prov_err fields. -/
def State.bistRunFields (s : State) (w : Word) : State :=
  let old := s.rd Reg.BIST_RUN
  s.wr Reg.BIST_RUN ((w &&& 0x3F) ||| (old &&& 0x1000 &&& ~~~w))

/-- BIST_RUN_START (R443, R451): a write of BIST_RUN with start set; `pass` is the outcome of the block it names. A block that
fails is marked (R438). -/
def execBistRunStart (w : Word) (pass : Bool) (s : State) : Host.Outcome State Fault Refusal :=
  .next (s.bistWrite fun s =>
    let s := s.bistRunFields w
    if wbit w 8 && s.chans.isEmpty then
      { s with
        dev := { s.dev with bistPass := pass, bistFail := !pass }
        eng := if pass then s.eng else s.eng.markBlock (wfield w 5 0) }
    else s)

/-- BIST_OTP_BURN (R443): each OTP word burns once. -/
def execBistOtpBurn (s : State) : Host.Outcome State Fault Refusal :=
  .next (s.bistWrite fun s =>
    let i := (s.rd Reg.BIST_PROV_INDEX).toNat
    let v := s.dev.nvm
    if 13 < i then s
    else if thas v.words i then s.sticky Reg.BIST_RUN 0x1000
    else { s with dev := { s.dev with nvm := { v with words := tset v.words i (s.rd Reg.BIST_PROV_DATA) } } })

/-- Key words 0 to 7 as a key, least significant word first. -/
def DevBlock.keyOfWords (d : DevBlock) : BitVec 256 :=
  BitVec.ofNat 256 (sumNat ((List.range 8).map fun i => (tgetD d.keyWords i 0).toNat * 2 ^ (32 * i)))

/-- BIST_KEY_SLOT_WRITE (R443): key slot 0 and its roles; roles of 0 empty it, as KEY_WRITE does. -/
def execBistKeySlotWrite (s : State) : Host.Outcome State Fault Refusal :=
  .next (s.bistWrite fun s =>
    let roles := wfield (tgetD s.dev.keyWords 8 0) 4 0
    let v := s.dev.nvm
    { s with dev := { s.dev with nvm := { v with
        keys := if roles = 0 then tdel v.keys 0 else tset v.keys 0 (s.dev.keyOfWords, roles) } } })

/-! ## Plain writes (R6, Table 0-4) -/

/-- A write to a register by its access types: RW fields take the value, W1C bits written 1 clear, the rest is ignored; a reserved
offset discards it. -/
def State.plainWrite (s : State) (off : Nat) (w : Word) : State :=
  match regRow? off with
  | none => s
  | some r =>
    let old := s.rd off
    s.wr off ((old &&& ~~~r.rw &&& ~~~(r.w1c &&& w)) ||| (w &&& r.rw))

/-- The state an outcome goes on with. -/
def outState (s : State) (o : Host.Outcome State Fault Refusal) : State :=
  match o with
  | .next t => t
  | .fault _ => s
  | .refused _ => s

/-! ## Writes by block (Table 1-9) -/

/-- DEV: the MSI-X table sends what its unmasking releases (R299); DEV_RECOVERY has a row of its own, whose operand is what the
verification of the image finds. -/
def State.writeDev (s : State) (off : Nat) (w : Word) : State :=
  s.hostWrite off fun s =>
    let t := s.plainWrite off w
    if 0x10000 ≤ off ∧ off < 0x10400 ∧ off % 16 = 12 then t.msixRelease ((off - 0x10000) / 16) else t

/-- MBX: MBX_H2D posts a word (R301). -/
def State.writeMbx (s : State) (off : Nat) (w : Word) : State :=
  let p := (off - 0x100000) / 0x40
  if off < 0x100240 ∧ off % 0x40 = 0 then outState s (execMbxH2dWrite p w s) else s.hostWrite off fun s => s.plainWrite off w

/-- LYR: fences and cursors have registers that act (R143, R147). -/
def State.writeLyr (s : State) (off : Nat) (w : Word) : State :=
  let c := (off - 0x501000) / 0x40
  if off = Reg.LYR_FENCE_SIGNAL then outState s (execLyrFenceSignal w s)
  else if off = Reg.LYR_FENCE_RESET then outState s (execLyrFenceReset w s)
  else if 0x501000 ≤ off ∧ off % 0x40 = 0 ∧ c < 64 then outState s (execLyrCurPos c w s)
  else if 0x501000 ≤ off ∧ off % 0x40 = 12 ∧ c < 64 then outState s (execLyrCurQueue c w s)
  else s.hostWrite off fun s => s.plainWrite off w

/-- AUD: AUD_SLOT_COMMIT (R167). -/
def State.writeAud (s : State) (off : Nat) (w : Word) : State :=
  let k := (off - 0x600000) / 0x80
  if off < 0x600800 ∧ off % 0x80 = 12 then (if wbit w 0 then outState s (execAudSlotCommit (k / 2) (k % 2) s) else s.hostWrite off fun s => s)
  else s.hostWrite off fun s => s.plainWrite off w

/-- CHK_CONTROL (R406, R407): each bit acts. -/
def State.chkControl (s : State) (u : Nat) (w : Word) : State :=
  let s := if wbit w 0 then outState s (execChkInit u s) else s
  let s := if wbit w 1 then outState s (execChkFinish u s) else s
  let s := if wbit w 2 then outState s (execChkStart u s) else s
  if wbit w 3 then outState s (execChkAbort u s) else s

/-- CHK: presets, control and feeds act; the rest are plain registers of a granted unit (R404 to R408). -/
def State.writeChk (s : State) (off : Nat) (w : Word) : State :=
  let u := (off - 0xB00000) / 0x100
  let r := off % 0x100
  if 8 ≤ u then s
  else if r = 0x04 then outState s (execChkPreset u w s)
  else if r = 0x20 then s.chkControl u w
  else if r = 0x40 ∧ !(chkScan u) then outState s (execChkFeed8 u w s)
  else if r = 0x44 ∧ !(chkScan u) then outState s (execChkFeed16 u w s)
  else if (r = 0x48 ∨ r = 0x4C) ∧ !(chkScan u) then outState s (execChkFeed32 u w none s)
  else s.chkWrite u fun s => s.plainWrite off w

/-- PMU: counters, histograms and dumps (R409, R412, R414). -/
def State.writePmu (s : State) (off : Nat) (w : Word) : State :=
  let i := (off - 0xC00000) / 16
  if off < 0xC01000 then
    if off % 16 = 0 then outState s (execPmuCounterEnable i w s) else s.pmuWrite i fun s => s.plainWrite off w
  else if 0xC04000 ≤ off ∧ off < 0xC06000 ∧ off % 0x200 = 0 then outState s (execPmuHistClear ((off - 0xC04000) / 0x200) w s)
  else if off = Reg.PMU_DUMP_CFG ∨ off = Reg.PMU_DUMP_BASE ∨ off = Reg.PMU_DUMP_SIZE then
    outState s (execPmuDumpConfigWrite off w s)
  else s.hostWrite off fun s => s.plainWrite off w

/-- BIST: the start of a block has its own row, its outcome being an operand. -/
def State.writeBist (s : State) (off : Nat) (w : Word) : State :=
  if off = Reg.BIST_PROV_COMMIT then
    let t := wfield w 1 0
    if t = 1 then outState s (execBistOtpBurn s)
    else if t = 2 then outState s (execBistKeySlotWrite s)
    else s.bistWrite id
  else s.bistWrite fun s =>
    if off = Reg.BIST_RUN then s.bistRunFields w
    else
      let t := s.plainWrite off w
      if off = Reg.BIST_PROV_DATA then
        { t with dev := { t.dev with keyWords := tset t.dev.keyWords (t.rd Reg.BIST_PROV_INDEX).toNat w } }
      else t

/-- One 32-bit write (R5, R20 to R22, R181). -/
def State.writeReg (s : State) (off : Nat) (w : Word) : State := s.barWrite fun s =>
  match off / 0x100000 with
  | 0 => s.writeDev off w
  | 1 => s.writeMbx off w
  | 5 => s.writeLyr off w
  | 6 => s.writeAud off w
  | 11 => s.writeChk off w
  | 12 => s.writePmu off w
  | 14 => s.badAccess
  | 15 => s.writeBist off w
  | 16 => s.badAccess
  | 17 => s.badAccess
  | _ => s.hostWrite off fun s => s.plainWrite off w

/-- A write of BAR0: 32 bits, or 64 bits over two registers, lower offset first (R5). One that is not naturally aligned, or lies
beyond BAR0, is a bad access. DESIGN CHOICE (log entry 80): a 64-bit write is two writes of registers, so where both registers refuse
it, it counts twice in DEV_BAD_ACCESS. -/
def State.bar0Write (s : State) (off : Nat) (lo : Word) (hi : Option Word) : State :=
  match hi with
  | none => if off % 4 = 0 ∧ off < 0x4000000 then s.writeReg off lo else s.barWrite (·.badAccess)
  | some h => if off % 8 = 0 ∧ off < 0x4000000 then s.barWrite (fun s => (s.writeReg off lo).writeReg (off + 4) h) else s.barWrite (·.badAccess)

/-- A write of the function's configuration space (R295, R296): messages that pend and may now leave do. -/
def State.pciWrite (s : State) (c : PciConfig) : State :=
  let p := s.mbx.pci
  let s := { s with mbx := { s.mbx with pci :=
    { bme := c.bme, d3hot := c.d3hot, urMask := c.urMask, urFatal := c.urFatal, urReport := c.urReport
      urStatus := p.urStatus && !c.urClear } } }
  (List.range 64).foldl (fun (t : State) v => t.msixRelease v) s

/-- REGISTER_WRITE (R5, R6, R295, R296). -/
def execRegisterWrite (w : WriteAt) (lo : Word) (hi : Option Word) (s : State) : Host.Outcome State Fault Refusal :=
  .next (
    match w with
    | .bar0 off => s.bar0Write off lo hi
    | .config c => s.pciWrite c)

end Sys2Proof.Machine
end

