-- ==== Sys2Proof/Machine/View.lean ====
section
/-!
DEFINITION. What every BAR0 register reads as (the register tables of chapters 2 to 22): a bank cell holds counts, sticky bits and
written fields, and the fields that echo other state are computed from it here, block by block; with the rules of R20 to R22 and
those of each block for what reads 0 (R40, R131, R155, R262, R294, R408, R443). The row table has no row for an ordinary read, since it
changes nothing; the reads that clear a register are rows.
-/
namespace Sys2Proof.Machine

/-- Number and offset within its stride of one of `count` registers or register groups from `base` at `stride`. -/
def strideOf (off base stride count : Nat) : Option (Nat × Nat) :=
  if base ≤ off ∧ off < base + stride * count then some ((off - base) / stride, (off - base) % stride) else none

/-- A Nat's low 32 bits. -/
def w32 (v : Nat) : Word := BitVec.ofNat 32 v

/-! ## Channels and engines (R40, R41, R75, R98, R118, R130) -/

/-- Code of a channel state (Table 2-7). -/
def ChanState.code : ChanState → Nat
  | .defined => 1
  | .armed => 2
  | .running => 3
  | .stopping => 4
  | .stopped => 5

/-- CHN_STATE (R40). -/
def Chan.stateWord (ch : Chan) : Word :=
  let m := ch.cfg.main
  wnat ch.st.code 2 0 ||| wnat m.codec 4 4 ||| bitIf (m.ctuSize == 32) 5 ||| bitIf m.format.interlaced 6
    ||| bitIf (m.inputDepth == 12) 7 ||| wnat m.format.size 9 8 ||| wnat m.rateId 15 12 ||| wnat ch.slots 21 16 ||| wnat ch.k 24 22
    ||| bitIf (m.renditionOf != 0xFF) 25 ||| (if m.renditionOf = 0xFF then 0 else wnat m.renditionOf 31 26)

/-- The sweep in progress: until its last picture has been coded, then the next one (REF_STATUS, R118). -/
def Chan.sweepNow (ch : Chan) : Option Sweep := if ch.refs.closing.isSome then ch.refs.closing else ch.refs.sweep

/-- Index within a sweep of its picture coded last; 0 before the first has been coded (R118). -/
def Chan.sweepPos (ch : Chan) (w : Sweep) : Nat :=
  maxNat ((List.range w.g).filter fun j => (ch.pic? (w.first + j)).isSome && ch.coded (w.first + j))

/-- REF_STATUS.sweep_active, sweep_pos and rejoin (R118). -/
def Chan.refWord (ch : Chan) : Word :=
  match ch.sweepNow with
  | some w => bit1 0 ||| wnat (ch.sweepPos w) 5 1 ||| bitIf (w.kind == .rejoin) 6
  | none => 0

/-- REF_LTR_PIC of a slot (R118): its picture's number, counted from the origin of its clock (R83). -/
def Chan.ltrWord (ch : Chan) (k : Nat) : Word :=
  match tget ch.refs.lt k with
  | some n => w32 (n - (ch.originOf n).1)
  | none => 0

/-- The fields of a channel's registers that echo its state (R40, R98, R118, R130), by offset within the stride. -/
def State.chanWord (s : State) (ch : Chan) (o : Nat) : Word :=
  let m := ch.cfg.main
  let q := ch.cfg.rate
  let r := ch.cfg.refs
  let a := ch.active
  match o with
  | 0x000 => ch.stateWord
  | 0x004 => bitIf ch.inputLost 0
  | 0x008 => w32 ch.auCount
  | 0x01C => w32 ch.dPipe
  | 0x020 => w32 ch.dPipeMin
  | 0x024 => w32 (m.tRow * 1000 / Config.ticksPerNs)
  | 0x028 => w32 ch.pool
  | 0x02C => w32 ch.hbm
  | 0x030 => w32 (engineMask ch.engines)
  | 0x100 => wnat q.rcMode 0 0 ||| wint q.initQp 7 1 ||| wint a.qpMin 14 8 ||| wint a.qpMax 22 16 ||| wnat a.overshoot 30 24
  | 0x104 => wnat (q.bitRate / 64) 23 0
  | 0x108 => wnat (q.target / 64) 23 0 ||| wnat q.avgWindow 31 24
  | 0x10C => wnat q.dCpb 15 0 ||| wnat q.takeoverSlack 31 16
  | 0x110 => w32 q.cpbSize
  | 0x114 => wnat ch.rate.reef 2 0 ||| bitIf ch.rate.latched 3
  | 0x118 => wint ch.rate.tPic 31 0
  | 0x11C => wint ch.rate.bPic 31 0
  | 0x180 => wnat r.refreshMode 1 0 ||| wnat a.sweepG 13 8 ||| wnat ch.refs.interval 31 16
  | 0x184 => wnat r.nDpb 3 0 ||| wnat r.stRefs 7 4 ||| wnat r.ltSlots 10 8 ||| wnat r.anchorSlots 14 12
      ||| wnat (sumNat ((tkeys ch.refs.lt).map (2 ^ ·))) 19 16 ||| wnat (sumNat ((tkeys ch.refs.marks).map (2 ^ ·))) 23 20
  | 0x188 => ch.refWord
  | 0x18C => ch.ltrWord 0
  | 0x190 => ch.ltrWord 1
  | 0x194 => ch.ltrWord 2
  | 0x198 => ch.ltrWord 3
  | 0x1B0 => wnat (sumNat ((tkeys a.rois).map (2 ^ ·))) 15 0
      ||| bitIf (match ch.layers.prot with | some p => !p.dropped && p.shown.isSome | none => false) 16
  | 0x200 => bitIf (s.extOf a.flowA).isSome 0
  | _ => 0

/-- CHN_CAP_SLOTS (R41). -/
def State.capWord (s : State) : Word :=
  let free := (List.range 16).map s.engineFree
  wnat (sumNat free) 7 0 ||| wnat (maxNat free) 11 8 ||| wnat (free.filter (· == 8)).length 20 16

/-- ENG_STATUS's echo (R75). -/
def State.engWord (s : State) (e : Nat) : Word :=
  let failed := s.eng.failed.contains e
  let used := sumNat (s.chans.map fun x => if x.2.engines.contains e then x.2.slots / x.2.engines.length else 0)
  bitIf (used == 0) 0 ||| bitIf failed 1 ||| wnat used 7 4

/-- EXT_STATE's echo (R131). -/
def ExtStream.word (x : ExtStream) : Word :=
  bit1 0 ||| bitIf x.decoding 1 ||| bitIf x.concealing 2 ||| bitIf x.unsupported 3 ||| wnat x.shares 13 8

/-- The CHN block, which holds the encode array's and the proof decoder's registers too. A FREE channel and an undefined stream read 0
(R40, R131). -/
def State.readChn (s : State) (off : Nat) : Word :=
  match strideOf off 0x00400000 0x1000 64 with
  | some (c, o) =>
    match tget s.chans c with
    | some ch => if o < 0x300 then s.rd off ||| s.chanWord ch o else 0
    | none => 0
  | none =>
    match strideOf off 0x00441000 0x40 16 with
    | some (d, o) =>
      match tget s.ext d with
      | some x => s.rd off ||| (if o = 0 then x.word else 0)
      | none => 0
    | none =>
      match strideOf off 0x00440100 0x40 16 with
      | some (e, o) => s.rd off ||| (if o = 0 then s.engWord e else 0)
      | none =>
        if off = Reg.CHN_CAP_SLOTS then s.capWord
        else if off = Reg.CHN_CAP_POOL then w32 s.poolFree
        else if off = Reg.CHN_CAP_HBM then wnat (s.heapFree 0) 15 0 ||| wnat (s.heapFree 1) 31 16
        else if off = Reg.ENC_LEVEL then wnat s.dev.level 7 0 ||| wnat 1 15 8 ||| wnat 2 23 16
        else if off = Reg.PRF_DEVICE then
          wnat (sumNat (s.eng.pipeFailed.map (2 ^ ·))) 3 0 ||| wnat (32 - sumNat (s.ext.map fun e => e.2.shares)) 13 8
            ||| wnat s.ext.length 20 16
        else 0

/-! ## Layers and audio (R155, R173) -/

/-- A channel's LYR registers, by offset within the stride. -/
def Chan.layerWord (ch : Chan) (o : Nat) : Word :=
  let l := ch.layers
  match o with
  | 0x10 => wnat l.cursorQ.length 4 0 ||| bitIf (match l.prot with | some p => p.inForce (ch.nextPic - 1) | none => false) 5
      ||| bitIf (match l.prot with | some p => p.dropped | none => false) 6 ||| wnat ch.pendingFlips.length 10 8
  | 0x30 => wnat l.gain 15 0
  | 0x34 => wnat (l.smooth.getD 0) 19 0
  | _ => 0

/-- The LYR block (R155). The write-only registers read 0. -/
def State.readLyr (s : State) (off : Nat) : Word :=
  match strideOf off 0x00501000 0x40 64 with
  | some (c, o) =>
    match tget s.chans c with
    | some ch => if o = 0x0C then 0 else s.rd off ||| ch.layerWord o
    | none => 0
  | none =>
    match strideOf off 0x00500010 4 8 with
    | some (i, 0) => w32 (sumNat (((tkeys s.surf.fences).filter (· / 32 == i)).map fun f => 2 ^ (f % 32)))
    | _ => 0

/-- AUD_DIR_STATE.state (R173): what its FIFO's reader does shows while the direction runs. -/
def AudDir.code (d : AudDir) : Nat :=
  match d.st, d.fifo.phase with
  | .stopped, _ => 0
  | .starting, _ => 1
  | .stopping, _ => 6
  | .running, .fade _ _ => 3
  | .running, .silent => 4
  | .running, .ramp _ _ => 5
  | .running, _ => 2

/-- A direction's registers, by offset within the stride (R173). -/
def AudDir.word (d : AudDir) (o : Nat) : Word :=
  match o with
  | 0x00 => wnat d.code 2 0 ||| bitIf (d.fmt.mode == 1) 3 ||| bitIf (if d.fmt.mode = 1 then d.st != .stopped else d.locked) 4
  | 0x08 => wnat d.mask.toNat 15 0 ||| wnat d.fading.toNat 31 16
  | 0x10 => wnat (d.fifo.level false) 9 0 ||| wnat d.fmt.target 24 16
  | _ => 0

/-- A network audio stream's registers (R173). -/
def AudStream.word (x : AudStream) (o : Nat) : Word :=
  if o = 0 then wnat (x.fifo.level true) 9 0 ||| wnat x.arg.target 24 16 ||| bit1 25 else 0

/-- The AUD block (R173). -/
def State.readAud (s : State) (off : Nat) : Word :=
  match strideOf off 0x00600000 0x80 16 with
  | some (k, o) => s.rd off ||| (match tget s.aud.dirs k with | some d => d.word o | none => 0)
  | none =>
    match strideOf off 0x00602000 0x20 64 with
    | some (n, o) => s.rd off ||| (match tget s.aud.streams n with | some x => x.word o | none => 0)
    | none =>
      if off = Reg.AUD_CLOCK_STATUS then
        wint (fdiv s.aud.steer (2 ^ 14)) 17 0 ||| bitIf s.aud.atLimit 18 ||| bitIf s.aud.holdover 19 ||| bitIf s.dev.oscUnlocked 20
          ||| (match s.pilot with | some p => wnat p 29 24 ||| bit1 30 | none => 0)
      else s.rd off

/-! ## Network (R174, R193, R206, Table 9-1): the registers of an interface that its port's mode does not have read 0 -/

/-- The 64 bytes of a flow entry (Table 9-1). -/
def Flow.bytes (f : Flow) : List Byte := f.arg.bytes ++ fields [(4, f.pkts.toNat), (4, f.drops.toNat), (4, f.dups.toNat)]

/-- The FLOW window (R20, R181): an entry that is not valid reads zeros. -/
def State.readFlow (s : State) (off : Nat) : Word :=
  match strideOf off 0x01000000 64 32768 with
  | some (x, o) =>
    match tget s.net.flows x with
    | some f => w32 (leNat ((f.bytes.drop (o / 4 * 4)).take 4))
    | none => 0
  | none => 0

/-- NET_GATE_* of an interface (R206). -/
def TxIface.gateWord (t : TxIface) (o : Nat) : Word :=
  match o with
  | 0x0 => wnat t.openMask.toNat 15 0 ||| wnat t.entry 23 16 ||| bitIf t.oper.isSome 24 ||| bitIf t.pend.isSome 25
  | 0x4 => match t.oper with | some g => w32 (g.start.getD g.base / 1000000000) | none => 0
  | 0x8 => match t.oper with | some g => wnat (g.start.getD g.base % 1000000000) 29 0 | none => 0
  | 0xC => match t.oper with | some g => wnat g.cycle 29 0 | none => 0
  | _ => 0

/-- NET_PORT_STATUS's echo (R193). -/
def State.portWord (s : State) (i : Nat) : Word :=
  let f := s.iface i
  bitIf f.linkUp 0 ||| bitIf (i % 4 == 0 && !(s.net.breakout.contains (i / 4))) 1 ||| bitIf f.enabled 2

/-- NET_TX_STATUS's echo (R206). -/
def State.txWord (s : State) (i : Nat) : Word :=
  let t := s.txIf i
  wnat (sumNat (((List.range 16).filter fun q => t.queued.any (·.queue == q) || t.ctl.any (·.queue == q)).map (2 ^ ·))) 15 0
    ||| bitIf (!t.catchup.isEmpty) 18

/-- EGR_STATUS (R206); a FREE channel has no egress. -/
def State.egrWord (s : State) (c : Nat) : Word :=
  match tget s.chans c with
  | some ch =>
    wnat (tgetD s.txc c {}).nextSeq 15 0 ||| wnat ch.cfg.out.queue 19 16 ||| bitIf (ch.cfg.out.encap == 1) 20
      ||| bitIf (s.tx.any fun e => e.2.catchup.contains c) 21
  | none => 0

/-- The NET block (R193, R206). -/
def State.readNet (s : State) (off : Nat) : Word :=
  match strideOf off 0x00300000 0x100 16 with
  | some (i, o) => if s.ifExists i then s.rd off ||| (if o = 0 then s.portWord i else 0) else 0
  | none =>
    match strideOf off 0x00304000 0x10 208 with
    | some (m, o) =>
      s.rd off ||| (if o = 0 then bitIf (s.merge m).upA 0 ||| bitIf (s.merge m).upB 1 ||| bitIf (s.paired m) 2 else 0)
    | none =>
      match strideOf off 0x00306000 0x100 16 with
      | some (i, o) => if s.ifExists i then s.rd off ||| (if o = 0 then s.txWord i else 0) else 0
      | none =>
        match strideOf off 0x00308000 0x100 16 with
        | some (i, o) => if s.ifExists i then s.rd off ||| (s.txIf i).gateWord o else 0
        | none =>
          match strideOf off 0x0030A000 0x40 64 with
          | some (c, o) => s.rd off ||| (if o = 0 then s.egrWord c else 0)
          | none => s.rd off ||| (if off = Reg.NET_FLOW_STATUS then wnat s.net.flows.length 15 0 else 0)

/-! ## Time (R210, R221) -/

/-- TIME_STATUS.state. -/
def ServoState.code : ServoState → Nat
  | .freeRun => 0
  | .acquiring => 1
  | .locked => 2
  | .holdover => 3
  | .stepHeld => 4

/-- An integer held in `n` bits' two's complement range. -/
def saturate (n : Nat) (v : Int) : Int := clampI v (-(2 ^ (n - 1) : Nat)) ((2 ^ (n - 1) - 1 : Nat) : Int)

/-- The TIME block's echoes (R221). -/
def TimeState.word (t : TimeState) (o : Nat) : Word :=
  match o with
  | 0x00 => wnat t.ns 29 0
  | 0x04 => w32 t.latchS
  | 0x08 => wnat (t.latchS / 2 ^ 32) 15 0 ||| wnat t.latchF 31 16
  | 0x10 => wnat t.st.code 2 0 ||| bitIf t.autoStep 3 ||| wnat t.active 4 4 ||| bitIf (t.port t.active).master.isSome 5
  | 0x14 => w32 t.kp
  | 0x18 => w32 t.ki
  | 0x1C => wnat t.slew 23 0
  | 0x20 => wnat t.thresh 29 0
  | 0x24 => wint (saturate 32 (fdiv t.i (2 ^ 24))) 31 0
  | 0x28 => wint (saturate 32 (fdiv t.offsetLast 65536)) 31 0
  | 0x2C => wint (fdiv (t.pend.getD 0) 65536) 31 0
  | 0x30 => wint (fdiv (fdiv (t.pend.getD 0) 65536) (2 ^ 32)) 31 0
  | 0x48 => w32 (leNat ((beBytes 8 t.gm.toNat).take 4))
  | 0x4C => w32 (leNat ((beBytes 8 t.gm.toNat).drop 4))
  | 0x50 => wint t.utc 15 0 ||| bitIf t.utcValid 16
  | _ => 0

/-- The TIME block. -/
def State.readTime (s : State) (off : Nat) : Word := s.rd off ||| s.time.word (off - 0x00200000)

/-! ## Groups (R262) -/

/-- GRP_LEG_A and GRP_LEG_B (R262): the state of the leg's port and the leg's hello. -/
def State.legWord (s : State) (i : Nat) : Word :=
  let l := s.leg i
  let st := match (s.portOf i).st with | .down => 0 | .training => 1 | .up => 2 | .failed => 3
  wnat st 1 0 ||| wnat l.peerRank 3 2 ||| bitIf l.helloOk 4 ||| wnat l.outage.length 17 8

/-- GRP_CHN_STATUS, GRP_CHN_WATCH_SEQ and GRP_CHN_VOTED_PIC (R262). -/
def State.grpChanWord (s : State) (c o : Nat) : Word :=
  let g := s.gch c
  match o with
  | 0x0 =>
    let lag := match tget s.chans c with | some ch => ch.digestLag | none => 0
    let phase := match g.phase with | .none => 0 | .copy => 1 | .refresh => 2 | .confirm => 3
    bitIf g.inSync 0 ||| wnat phase 2 1 ||| wnat g.matchRun 5 3 ||| wnat lag 11 8
  | 0x4 => match g.watchSeq with | some q => wnat q 15 0 ||| bit1 16 | none => 0
  | 0xC => w32 (g.votedPic.getD 0)
  | _ => 0

/-- The GRP block (R262): a unit whose role is none reads 0 in every register but GRP_STATUS.role. -/
def State.readGrp (s : State) (off : Nat) : Word :=
  let g := s.grp
  if g.role = .none then 0
  else if off = Reg.GRP_STATUS then
    s.rd off ||| wnat g.role.code 2 0 ||| wnat g.rank 4 3 ||| wnat g.size 6 5 ||| bitIf s.noWatch 7
      ||| wnat (sumNat ((s.otherRanks.filter s.reachable).map fun i => 2 ^ (i - 1))) 10 8 ||| wnat g.activeRank 12 11
  else if off = Reg.GRP_LEG_A then s.legWord 0
  else if off = Reg.GRP_LEG_B then s.legWord 1
  else
    match strideOf off 0x00701000 0x20 64 with
    | some (c, o) => s.rd off ||| s.grpChanWord c o
    | none => s.rd off

/-! ## Lanes and chain (R278, R294) -/

/-- LANE_STATUS, LANE_FOM and LANE_EQ (R278). The CTLE and DFE settings of a lane that has locked are the receiver's own, free. -/
def Lane.word (l : Nat) (x : Lane) (o : Nat) : Word :=
  match o with
  | 0x0 => bitIf x.los 0 ||| bitIf x.lol 1 ||| bitIf x.symLock 2 ||| bitIf x.polInv 3 ||| wnat x.loopback 5 4 ||| bitIf x.pattern 6
      ||| bitIf x.enabled 7
  | 0x4 => wnat x.fom 7 0 ||| wnat x.fomMin 15 8 ||| bitIf x.fomValid 16
  | 0x8 => wint x.pre 9 4 ||| wint x.post 15 10 ||| (if x.lol then 0 else
      let e := (Config.receiverEq l x.fom).toNat
      wnat e 3 0 ||| wnat (e / 16) 23 16)
  | _ => 0

/-- LINK_STATUS's echo (R278). -/
def State.linkWord (s : State) (q : Nat) : Word :=
  let p := s.portOf q
  let st := match p.st with | .down => 0 | .training => 1 | .up => 2 | .failed => 3
  let first := (portLanes q).headD 0
  wnat st 1 0 ||| wnat (sumNat (((portLanes q).filter fun l => (s.laneOf l).symLock).map fun l => 2 ^ (l - first))) 5 2
    ||| bitIf p.deskewed 6 ||| wnat p.skewMax 12 8

/-- The LANE block (R278). -/
def State.readLane (s : State) (off : Nat) : Word :=
  match strideOf off 0x00800000 0x100 26 with
  | some (l, o) => s.rd off ||| (s.laneOf l).word l o
  | none =>
    match strideOf off 0x00804000 0x40 4 with
    | some (q, o) => s.rd off ||| (if o = 0 then s.linkWord q else 0)
    | none => s.rd off

/-- The CHAIN block (R294). A worker reads 0 in CHAIN_MAP and the per-address registers. -/
def State.readChain (s : State) (off : Nat) : Word :=
  let r := s.rat
  let b := s.budgetInForce
  match strideOf off 0x00900108 8 16 with
  | some (i, o) =>
    match (if s.manages then tget r.table (i + 1) else none) with
    | some id => w32 (if o = 0 then id.toNat else id.toNat / 2 ^ 32)
    | none => 0
  | none =>
    if off = Reg.CHAIN_STATUS then
      s.rd off ||| bitIf r.manager 0 ||| bitIf r.conflict 1 ||| wnat r.ring 3 2 ||| wnat r.addr 8 4
        ||| (if s.manages then wnat r.table.length 13 9 else 0)
    else if off = Reg.CHAIN_MAP then
      if s.manages then
        wnat (sumNat (r.east.map fun a => 2 ^ (a - 1))) 15 0 ||| wnat (sumNat (r.west.map fun a => 2 ^ (a - 1))) 31 16
      else 0
    else if off = Reg.CHAIN_BUDGET_OWN then wnat b.1 15 0 ||| bitIf (b.2 == 2) 16
    else s.rd off

/-! ## Mailboxes, device and start-up (R318, R430, R450, R451, R462, R470) -/

/-- MBX_STATUS's echo and MBX_SEQ_HIGH of a pair (R318). MBX_H2D reads 0, MBX_D2H its word. -/
def State.mbxWordAt (s : State) (p o : Nat) : Word :=
  let b := s.mbx
  match o with
  | 0x00 => 0
  | 0x04 => tgetD b.d2h p 0
  | 0x08 =>
    bitIf (thas b.h2d p) 0 ||| bitIf (thas b.d2h p) 1
      ||| (match tget b.sessions p with | some x => bit1 2 ||| wnat x.slot 5 3 ||| wnat x.roles 12 8 | none => 0)
      ||| wnat (tgetD b.queue p []).length 28 20
  | 0x10 => match tget b.sessions p with | some x => w32 (journalHigh (tgetD b.journal x.slot [])) | none => 0
  | _ => 0

/-- The MBX block (R318). -/
def State.readMbx (s : State) (off : Nat) : Word :=
  match strideOf off 0x00100000 0x40 9 with
  | some (p, o) => s.rd off ||| s.mbxWordAt p o
  | none =>
    if off = Reg.MBX_DEVICE then bitIf s.mbx.fwReady 0 ||| wnat (sumNat (s.mbx.locked.map (2 ^ ·))) 8 1 else s.rd off

/-- DEV_GPIO (R462): outputs follow their functions once the reset is released, read low before. -/
def State.gpioWord (s : State) : Word :=
  let out := if s.dev.phase = .held then 0
    else bitIf s.mbx.fwReady 0 ||| bitIf (!s.dev.fatal) 1 ||| bitIf (s.grp.role == .active) 2
  out ||| wnat (s.dev.gpioIn.toNat / 8 * 8) 7 0

/-- DEV_BOOT_STATUS's echo (R450). -/
def State.bootWord (s : State) : Word :=
  let d := s.dev
  wnat d.booted 1 0 ||| bitIf d.aBad 2 ||| bitIf d.bBad 3 ||| bitIf d.trial 4 ||| bitIf d.fullBist 5 ||| bitIf d.bootFail 6
    ||| bitIf d.calInvalid 7 ||| wnat s.life 10 8 ||| wnat d.nvm.fuses 14 11 ||| wnat d.nvm.floor 21 16

/-- DEV_TEST_STATUS (R450). -/
def DevBlock.testWord (d : DevBlock) : Word :=
  wnat d.test.next 5 0 ||| wnat (d.test.running.length - 1) 7 6 ||| bitIf (!d.test.running.isEmpty) 8 ||| bitIf d.recValid 9
    ||| bitIf d.recComplete 10 ||| bitIf d.recFailed 11

/-- The DEV block's echoes (R430, R450, R462, R470). -/
def State.devWord (s : State) (o : Nat) : Word :=
  let d := s.dev
  match o with
  | 0x00 => 0x41201DC7
  | 0x04 => wnat d.nvm.dieRev.toNat 15 0 ||| (if s.mbx.fwReady then 0x02030000 else 0)
  | 0x08 => w32 d.nvm.unitId.toNat
  | 0x0C => w32 (d.nvm.unitId.toNat / 2 ^ 32)
  | 0x10 => bitIf d.fatal 0 ||| wnat d.state.code 2 1
  | 0x18 => match s.log with | e :: _ => w32 e.seq | [] => 0
  | 0x1C => wnat d.lastCode 15 0 ||| wnat d.lastObj 23 16
  | 0x20 => w32 d.lastS
  | 0x24 => wnat d.lastNs 29 0
  | 0x28 => wnat d.resetKind 2 0
  | 0x2C => s.bootWord
  | 0x30 => d.testWord
  | 0x38 => s.gpioWord
  | _ => 0

/-- The DEV block, with the MSI-X table at 0x0001_0000 and its pending bits at 0x0001_1000 (R299). -/
def State.readDev (s : State) (off : Nat) : Word :=
  if off = 0x11000 then w32 s.mbx.msixPend.toNat
  else if off = 0x11004 then w32 (s.mbx.msixPend.toNat / 2 ^ 32)
  else s.rd off ||| s.devWord off

/-- The BIST block (R21, R451): open in MANUFACTURE and SERVICE only; start, and the write-only commit, read 0. -/
def State.readBist (s : State) (off : Nat) : Word :=
  if !s.bistOpen then 0
  else if off = Reg.BIST_PROV_COMMIT then 0
  else s.rd off ||| (if off = Reg.BIST_RUN then bitIf s.dev.bistPass 10 ||| bitIf s.dev.bistFail 11 else 0)

/-! ## Power and memory (R370, R394) -/

/-- PWR_CHN_CEILING of a channel (R370). -/
def Chan.ceilWord (ch : Chan) : Word :=
  let at_ (n : Nat) : Nat × Bool := tgetD ch.ceilings n (2, false)
  wnat (at_ ch.nextPic).1 1 0 ||| wnat (at_ (ch.nextPic + 1)).1 3 2 ||| bitIf (at_ (ch.nextPic + 1)).2 4

/-- The PWR block's echoes (R370). -/
def State.pwrWord (s : State) (o : Nat) : Word :=
  let p := s.pwr
  let valid := (p.sensors.filter (·.isSome)).length
  match o with
  | 0x00 => bitIf p.warn.isSome 0 ||| bitIf p.warnPin 1 ||| bitIf p.moored 2 ||| bitIf p.tripped 3 ||| bitIf (decide (460 < p.tMax)) 4
      ||| bitIf (p.railStale || (!p.sensors.isEmpty && valid != 32)) 5 ||| bitIf p.floorExceeded 6
  | 0x04 => wnat s.budgetInForce.1 15 0 ||| wnat s.budgetInForce.2 17 16
  | 0x08 => wnat p.pMeas 15 0 ||| wnat p.pT0 31 16
  | 0x0C => wnat p.avail 15 0 ||| wnat p.availGroup 31 16
  | 0x10 => wnat s.floorPower 15 0 ||| wnat s.demandPower 31 16
  | 0x14 => wint p.tMax 10 0 ||| wnat p.tSensor 15 11 ||| wnat valid 21 16
  | 0x18 => wint p.hbm0 10 0 ||| wint p.hbm1 26 16
  | 0x1C => wnat p.vCore 11 0 ||| wnat 720 27 16
  | _ => 0

/-- The PWR block (R370). -/
def State.readPwr (s : State) (off : Nat) : Word :=
  match strideOf off 0x00D00100 4 32 with
  | some (i, _) => match s.pwr.sensors.getD i none with | some t => wint t 10 0 ||| bit1 11 | none => 0
  | none =>
    match strideOf off 0x00D01000 4 64 with
    | some (c, _) => match tget s.chans c with | some ch => ch.ceilWord | none => 0
    | none => s.rd off ||| s.pwrWord (off - 0x00D00000)

/-- The MEM block (R394). -/
def State.readMem (s : State) (off : Nat) : Word :=
  let m := s.mem
  if off = Reg.MEM_STATUS then
    s.rd off ||| bitIf m.refreshHot 0 ||| bitIf m.panic0 1 ||| bitIf m.panic1 2 ||| bitIf m.selfRefresh 3
  else if off = Reg.MEM_RETAIN then wnat m.retain.toNat 7 0
  else s.rd off

/-! ## Control complex, check units and counters (R415 to R417) -/

/-- The HAL block (R415). -/
def State.readHal (s : State) (off : Nat) : Word :=
  let c := s.ctl
  if off = Reg.HAL_STATUS then wnat c.cores.toNat 7 0 ||| bitIf c.restarting 8 ||| bitIf c.unstable 9
  else if off = Reg.HAL_THREADS then
    wnat c.slots.length 9 0 ||| wnat (sumNat (c.spill.map fun e => e.2.length)) 25 16
  else if off = Reg.HAL_LAST_RESTART then wnat c.lastMs 23 0 ||| wnat c.lastCore 26 24 ||| wnat c.lastCause 31 28
  else s.rd off

/-- The running or final value of a check unit, before CHK_RESULT's halves (R406). -/
def ChkUnit.now (u : ChkUnit) : Nat :=
  match u.latched with
  | some c => if u.done then u.value else c.value u.bytes
  | none => u.value

/-- A check unit's registers (R416), by offset within the stride. -/
def ChkUnit.word (u : ChkUnit) (o : Nat) : Word :=
  match o with
  | 0x24 => bitIf u.busy 0 ||| bitIf u.done 1 ||| bitIf u.pass 2 ||| bitIf u.fail 3
  | 0x28 => w32 u.now
  | 0x2C => w32 (u.now / 2 ^ 32)
  | 0x30 => w32 u.length
  | _ => 0

/-- The CHK block (R408, R416): a unit that is not granted reads 0, and so do the write-only registers. -/
def State.readChk (s : State) (off : Nat) : Word :=
  match strideOf off 0x00B00000 0x100 8 with
  | some (u, o) =>
    if !(s.chkOf u).granted || o = 0x04 || o = 0x20 || decide (0x50 ≤ o) || (decide (0x40 ≤ o) && !(chkScan u)) then 0
    else s.rd off ||| (s.chkOf u).word o
  | none =>
    if off = Reg.CHK_GRANT then w32 (sumNat ((s.chk.filter fun e => e.2.granted).map fun e => 2 ^ e.1)) else 0

/-- The PMU block (R410, R412, R414, R417). Counters 224 to 255 are firmware's; the host's read of one is a bad access and answers 0
(R409). -/
def State.readPmu (s : State) (off : Nat) : Word :=
  match strideOf off 0x00C00000 0x10 224 with
  | some (i, o) => if o = 4 then w32 (tgetD s.pmu.cnt i 0) else s.rd off
  | none =>
    if off = Reg.PMU_DUMP_CFG then s.rd off ||| bitIf s.dumpError 3
    else if off = Reg.PMU_SAMPLE_PC then match s.pmu.fifo with | x :: _ => x.pc | [] => 0
    else s.rd off

/-! ## The whole map (R5, R20, R22) -/

/-- What a BAR0 offset holds, its clock running (Table 1-9); a reserved offset reads 0 (R5). -/
def State.readBlock (s : State) (off : Nat) : Word :=
  match off / 0x100000 with
  | 0 => s.readDev off
  | 1 => s.readMbx off
  | 2 => s.readTime off
  | 3 => s.readNet off
  | 4 => s.readChn off
  | 5 => s.readLyr off
  | 6 => s.readAud off
  | 7 => s.readGrp off
  | 8 => s.readLane off
  | 9 => s.readChain off
  | 10 => s.readMem off
  | 11 => s.readChk off
  | 12 => s.readPmu off
  | 13 => s.readPwr off
  | 14 => s.readHal off
  | 15 => s.readBist off
  | 16 => s.readFlow off
  | 17 => s.readFlow off
  | _ => 0

/-- The word a host read of a BAR0 register returns, without the read's own effects: all ones from a domain that has lost lock
(R22). -/
def State.readReg (s : State) (off : Nat) : Word :=
  if s.dev.down (regDomain off) then 0xFFFFFFFF else s.readBlock off

end Sys2Proof.Machine
end

