-- ==== Sys2Proof/Machine/HostRead.lean ====
section
/-!
DEFINITION. A host access to BAR0 as it arrives (R5): naturally aligned reads of 32 and 64 bits return what the map holds, the registers
that a read acts on by the row of that read; every other read is aborted and every other write discarded and counted.
-/
namespace Sys2Proof.Machine

/-- The number of the register at an offset among `n` registers of one name. -/
def regIndex (f : Nat → Nat) (n off : Nat) : Option Nat := (List.range n).find? fun i => f i == off

/-- What a read of one register does where it does more than return it: the meaning of that read's row. -/
def readAct (off : Nat) : Option (State → Host.Outcome State Fault Refusal) :=
  if off = Reg.TIME_NOW_NS then some execTimeNowNsRead
  else if off = Reg.HAL_DISPATCH_MAX then some execHalDispatchMaxRead
  else if off = Reg.PMU_SAMPLE_PC then some execPmuSamplePcRead
  else (regIndex Reg.MBX_D2H 9 off).map execMbxD2hRead
    <|> (regIndex Reg.CHN_AU_COUNT_LO 64 off).map execChnAuCountLoRead
    <|> (regIndex Reg.RC_HEADROOM_MIN 64 off).map execRcHeadroomMinRead
    <|> (regIndex Reg.LYR_FLIP_RESULT 64 off).map execLyrFlipResultRead
    <|> (regIndex Reg.EXT_MARGIN_MIN 16 off).map execExtMarginMinRead
    <|> (regIndex Reg.ENG_PEAK_LOAD 16 off).map execEngPeakLoadRead
    <|> (regIndex Reg.NET_MERGE_SKEW 208 off).map execNetMergeSkewRead
    <|> (regIndex Reg.EGR_LATE_MAX 64 off).map execEgrLateMaxRead
    <|> (regIndex Reg.LANE_FOM 26 off).map execLaneFomRead
    <|> (regIndex Reg.PMU_CNT_LO 256 off).map execPmuCntLoRead

/-- A host read of one register (R5, R6, R22). -/
def State.readAt (s : State) (off : Nat) : State :=
  match readAct off with
  | some f => outState s (f s)
  | none => s.hostRead off fun s => s.emit (.readData (s.readBlock off))

/-- A read of BAR0 (R5): 32 or 64 bits, naturally aligned, two registers with the lower offset first; any other ends with Completer
Abort. -/
def State.bar0Read (s : State) (off len : Nat) : State :=
  if len = 4 ∧ off % 4 = 0 ∧ off < 0x4000000 then s.readAt off
  else if len = 8 ∧ off % 8 = 0 ∧ off < 0x4000000 then s.barRead fun s => (s.readAt off).readAt (off + 4)
  else s.barRead (·.emit .abort)

/-- BAR0_BAD_ACCESS (R5, R297): an access is what its offset and length make it; one that is no naturally aligned access of 32 or 64 bits is
aborted or discarded and counted. -/
def execBar0BadAccess (a : BarAccess) (s : State) : Host.Outcome State Fault Refusal :=
  .next (
    match a with
    | .read off len => s.bar0Read off len
    | .write off d =>
      if d.length = 4 then s.bar0Write off (w32 (leNat d)) none
      else if d.length = 8 then s.bar0Write off (w32 (leNat (d.take 4))) (some (w32 (leNat (d.drop 4))))
      else s.barWrite (·.badAccess)
    | .winRead off len => s.barRead (·.windowRead off len)
    | .winWrite off d => s.barWrite (·.windowWrite off d))

end Sys2Proof.Machine
end

