-- ==== Sys2Proof/Machine/Dispatch.lean ====
section
/-!
DEFINITION. Dispatch: the meaning of every row, one arm a constructor.
-/
namespace Sys2Proof.Machine

/-- The effect of a command or event on everything but the queue. -/
def exec (i : Instr) (s : State) : Host.Outcome State Fault Refusal :=
  match i with
  | .powerOn => Sys2Proof.Machine.execPowerOn s
  | .chipReset => Sys2Proof.Machine.execChipReset s
  | .resetRelease mgrSel failed coreFail => Sys2Proof.Machine.execResetRelease mgrSel failed coreFail s
  | .firmwareReady ms reread => Sys2Proof.Machine.execFirmwareReady ms reread s
  | .trialTimeout => Sys2Proof.Machine.execTrialTimeout s
  | .hourCounterTick => Sys2Proof.Machine.execHourCounterTick s
  | .lifecycleResetTimer => Sys2Proof.Machine.execLifecycleResetTimer s
  | .pllUnlock d => Sys2Proof.Machine.execPllUnlock d s
  | .refclkEthLoss => Sys2Proof.Machine.execRefclkEthLoss s
  | .refclkLinkLoss => Sys2Proof.Machine.execRefclkLinkLoss s
  | .refclkLinkReturn => Sys2Proof.Machine.execRefclkLinkReturn s
  | .audmOscUnlock => Sys2Proof.Machine.execAudmOscUnlock s
  | .controlComplexReset => Sys2Proof.Machine.execControlComplexReset s
  | .watchdogExpiry core => Sys2Proof.Machine.execWatchdogExpiry core s
  | .restartHoldExpiry => Sys2Proof.Machine.execRestartHoldExpiry s
  | .functionLevelReset => Sys2Proof.Machine.execFunctionLevelReset s
  | .pictureBoundary c prot => Sys2Proof.Machine.execPictureBoundary c prot s
  | .channelClockChange x => Sys2Proof.Machine.execChannelClockChange x s
  | .lossMapFreeze c pic row => Sys2Proof.Machine.execLossMapFreeze c pic row s
  | .rowDeadline c pic row => Sys2Proof.Machine.execRowDeadline c pic row s
  | .rowJobRelease c pic row => Sys2Proof.Machine.execRowJobRelease c pic row s
  | .rowJobStart c pic row => Sys2Proof.Machine.execRowJobStart c pic row s
  | .ctuCommit c pic row t filter bp => Sys2Proof.Machine.execCtuCommit c pic row t filter bp s
  | .rowJobComplete c pic row checks overhead lines load => Sys2Proof.Machine.execRowJobComplete c pic row checks overhead lines load s
  | .jobOverrun c pic row => Sys2Proof.Machine.execJobOverrun c pic row s
  | .engineLocalReset e inFlight => Sys2Proof.Machine.execEngineLocalReset e inFlight s
  | .duSubstitution c pic row overhead bits => Sys2Proof.Machine.execDuSubstitution c pic row overhead bits s
  | .trailingFilter c pic row checks fin => Sys2Proof.Machine.execTrailingFilter c pic row checks fin s
  | .alfDerivation x => Sys2Proof.Machine.execAlfDerivation x s
  | .proofDispatch => Sys2Proof.Machine.execProofDispatch s
  | .proofVerdict p v => Sys2Proof.Machine.execProofVerdict p v s
  | .verdictDeadline c pic row => Sys2Proof.Machine.execVerdictDeadline c pic row s
  | .substituteDecode c pic row lines => Sys2Proof.Machine.execSubstituteDecode c pic row lines s
  | .proofTrailingFilter c pic row fin => Sys2Proof.Machine.execProofTrailingFilter c pic row fin s
  | .proofPipeReset p => Sys2Proof.Machine.execProofPipeReset p s
  | .extAuFreeze d => Sys2Proof.Machine.execExtAuFreeze d s
  | .extGapDeadline d => Sys2Proof.Machine.execExtGapDeadline d s
  | .extAuDecode d au => Sys2Proof.Machine.execExtAuDecode d au s
  | .duTransmitEntry c pic row => Sys2Proof.Machine.execDuTransmitEntry c pic row s
  | .ethernetFrameRx n f free => Sys2Proof.Machine.execEthernetFrameRx n f free s
  | .seqMissingTimeout m seq => Sys2Proof.Machine.execSeqMissingTimeout m seq s
  | .mergePathDown m path => Sys2Proof.Machine.execMergePathDown m path s
  | .firmwareControlPacket n k => Sys2Proof.Machine.execFirmwareControlPacket n k s
  | .membershipReportTimer n => Sys2Proof.Machine.execMembershipReportTimer n s
  | .ethLinkUp n => Sys2Proof.Machine.execEthLinkUp n s
  | .ethLinkDown n => Sys2Proof.Machine.execEthLinkDown n s
  | .packetModelInstant n c seq => Sys2Proof.Machine.execPacketModelInstant n c seq s
  | .packetTransmit n held => Sys2Proof.Machine.execPacketTransmit n held s
  | .tsSlot c => Sys2Proof.Machine.execTsSlot c s
  | .gateListTaken n => Sys2Proof.Machine.execGateListTaken n s
  | .gateListStart n => Sys2Proof.Machine.execGateListStart n s
  | .gateEntryChange n => Sys2Proof.Machine.execGateEntryChange n s
  | .sampleTick => Sys2Proof.Machine.execSampleTick s
  | .tdmRxFrame p slots => Sys2Proof.Machine.execTdmRxFrame p slots s
  | .tdmTxFrame p => Sys2Proof.Machine.execTdmTxFrame p s
  | .tdmFrameSync p d spacing => Sys2Proof.Machine.execTdmFrameSync p d spacing s
  | .tdmLockTimeout p d => Sys2Proof.Machine.execTdmLockTimeout p d s
  | .audioClockLoopUpdate => Sys2Proof.Machine.execAudioClockLoopUpdate s
  | .pilotHoldover => Sys2Proof.Machine.execPilotHoldover s
  | .ptpSync port m => Sys2Proof.Machine.execPtpSync port m s
  | .ptpFollowUp port m => Sys2Proof.Machine.execPtpFollowUp port m s
  | .ptpAnnounce port m => Sys2Proof.Machine.execPtpAnnounce port m s
  | .ptpDelayResp port m => Sys2Proof.Machine.execPtpDelayResp port m s
  | .delayReqTimer => Sys2Proof.Machine.execDelayReqTimer s
  | .announceTimeout port => Sys2Proof.Machine.execAnnounceTimeout port s
  | .servoOffset o tag logSync => Sys2Proof.Machine.execServoOffset o tag logSync s
  | .servoCorrExpiry => Sys2Proof.Machine.execServoCorrExpiry s
  | .offsetTimeout => Sys2Proof.Machine.execOffsetTimeout s
  | .stepApply => Sys2Proof.Machine.execStepApply s
  | .ppsOutPulse => Sys2Proof.Machine.execPpsOutPulse s
  | .ppsOutFall => Sys2Proof.Machine.execPpsOutFall s
  | .ppsInEdge => Sys2Proof.Machine.execPpsInEdge s
  | .rowRecord h r => Sys2Proof.Machine.execRowRecord h r s
  | .pictureRecord h r => Sys2Proof.Machine.execPictureRecord h r s
  | .gapRecord h r => Sys2Proof.Machine.execGapRecord h r s
  | .repairRequest h merge first count => Sys2Proof.Machine.execRepairRequest h merge first count s
  | .repairData h merge x ingress => Sys2Proof.Machine.execRepairData h merge x ingress s
  | .copyRecord h r => Sys2Proof.Machine.execCopyRecord h r s
  | .hello h r => Sys2Proof.Machine.execHello h r s
  | .helloTimer => Sys2Proof.Machine.execHelloTimer s
  | .handover h tH target diverged => Sys2Proof.Machine.execHandover h tH target diverged s
  | .handoverAck h tH => Sys2Proof.Machine.execHandoverAck h tH s
  | .standDown h reason => Sys2Proof.Machine.execStandDown h reason s
  | .rejoinPlan h plan => Sys2Proof.Machine.execRejoinPlan h plan s
  | .rejoinDone h chans => Sys2Proof.Machine.execRejoinDone h chans s
  | .handoverInstant => Sys2Proof.Machine.execHandoverInstant s
  | .handoverRetry => Sys2Proof.Machine.execHandoverRetry s
  | .takeoverTimer => Sys2Proof.Machine.execTakeoverTimer s
  | .takeoverWaitTimer => Sys2Proof.Machine.execTakeoverWaitTimer s
  | .recordSilenceTimeout => Sys2Proof.Machine.execRecordSilenceTimeout s
  | .heldPacketExpiry c seq => Sys2Proof.Machine.execHeldPacketExpiry c seq s
  | .rejoinCopyComplete c failed => Sys2Proof.Machine.execRejoinCopyComplete c failed s
  | .copyRetryTimer c => Sys2Proof.Machine.execCopyRetryTimer c s
  | .stayReplayTimeout leg => Sys2Proof.Machine.execStayReplayTimeout leg s
  | .linkAck port link => Sys2Proof.Machine.execLinkAck port link s
  | .trn q t => Sys2Proof.Machine.execTrn q t s
  | .aln q numbers skew => Sys2Proof.Machine.execAln q numbers skew s
  | .symbolLock l inverted => Sys2Proof.Machine.execSymbolLock l inverted s
  | .trainingStepTimer l fom => Sys2Proof.Machine.execTrainingStepTimer l fom s
  | .trainingTimeout q foms => Sys2Proof.Machine.execTrainingTimeout q foms s
  | .laneLosSet l => Sys2Proof.Machine.execLaneLosSet l s
  | .laneLosClear l => Sys2Proof.Machine.execLaneLosClear l s
  | .cdrLockChange l locked => Sys2Proof.Machine.execCdrLockChange l locked s
  | .elasticSlip q => Sys2Proof.Machine.execElasticSlip q s
  | .failedHoldExpiry q => Sys2Proof.Machine.execFailedHoldExpiry q s
  | .enum h next ids fin => Sys2Proof.Machine.execEnum h next ids fin s
  | .announce h id => Sys2Proof.Machine.execAnnounce h id s
  | .announceTimer => Sys2Proof.Machine.execAnnounceTimer s
  | .assign h id addr => Sys2Proof.Machine.execAssign h id addr s
  | .ratlineCommand h c slot roles p => Sys2Proof.Machine.execRatlineCommand h c slot roles p s
  | .ratlineCompletion h c => Sys2Proof.Machine.execRatlineCompletion h c s
  | .commandResendTimer => Sys2Proof.Machine.execCommandResendTimer s
  | .forwardTimeout pair seq => Sys2Proof.Machine.execForwardTimeout pair seq s
  | .ringCheckTimer => Sys2Proof.Machine.execRingCheckTimer s
  | .ringCheck h => Sys2Proof.Machine.execRingCheck h s
  | .ringReport h ports demand floor => Sys2Proof.Machine.execRingReport h ports demand floor s
  | .ringSplitTimeout => Sys2Proof.Machine.execRingSplitTimeout s
  | .budgetTimer => Sys2Proof.Machine.execBudgetTimer s
  | .budget h b => Sys2Proof.Machine.execBudget h b s
  | .budgetTimeout => Sys2Proof.Machine.execBudgetTimeout s
  | .testRequest h block power => Sys2Proof.Machine.execTestRequest h block power s
  | .testGrant h block power => Sys2Proof.Machine.execTestGrant h block power s
  | .testDone h block => Sys2Proof.Machine.execTestDone h block s
  | .testGrantTimeout => Sys2Proof.Machine.execTestGrantTimeout s
  | .grantExpiry addr => Sys2Proof.Machine.execGrantExpiry addr s
  | .ratlineReplayTimeout port => Sys2Proof.Machine.execRatlineReplayTimeout port s
  | .mbxH2dWrite p w => Sys2Proof.Machine.execMbxH2dWrite p w s
  | .mbxD2hRead p => Sys2Proof.Machine.execMbxD2hRead p s
  | .d2hQueuePost p => Sys2Proof.Machine.execD2hQueuePost p s
  | .ping p => Sys2Proof.Machine.execPing p s
  | .sessionIdleTimeout p => Sys2Proof.Machine.execSessionIdleTimeout p s
  | .nonceExpiry nonce => Sys2Proof.Machine.execNonceExpiry nonce s
  | .slotLockExpiry slot => Sys2Proof.Machine.execSlotLockExpiry slot s
  | .sessionOpen h p => Sys2Proof.Machine.execSessionOpen h p s
  | .sessionProve h p => Sys2Proof.Machine.execSessionProve h p s
  | .sessionClose h => Sys2Proof.Machine.execSessionClose h s
  | .completionFetch h p => Sys2Proof.Machine.execCompletionFetch h p s
  | .keyWrite h p => Sys2Proof.Machine.execKeyWrite h p s
  | .deviceInfo h => Sys2Proof.Machine.execDeviceInfo h s
  | .deviceConfigure h p => Sys2Proof.Machine.execDeviceConfigure h p s
  | .powerBudget h p => Sys2Proof.Machine.execPowerBudget h p s
  | .shutdown h p => Sys2Proof.Machine.execShutdown h p s
  | .calRead h p => Sys2Proof.Machine.execCalRead h p s
  | .calWrite h p => Sys2Proof.Machine.execCalWrite h p s
  | .firmwareWrite h p => Sys2Proof.Machine.execFirmwareWrite h p s
  | .firmwareWriteDone status => Sys2Proof.Machine.execFirmwareWriteDone status s
  | .lifecycleSet h p => Sys2Proof.Machine.execLifecycleSet h p s
  | .timeConfig h p => Sys2Proof.Machine.execTimeConfig h p s
  | .timeServoConfig h p => Sys2Proof.Machine.execTimeServoConfig h p s
  | .timeAcceptStep h p => Sys2Proof.Machine.execTimeAcceptStep h p s
  | .timePpsConfig h p => Sys2Proof.Machine.execTimePpsConfig h p s
  | .portConfig h p => Sys2Proof.Machine.execPortConfig h p s
  | .netAddress h p => Sys2Proof.Machine.execNetAddress h p s
  | .flowAdd h p => Sys2Proof.Machine.execFlowAdd h p s
  | .flowDelete h p => Sys2Proof.Machine.execFlowDelete h p s
  | .txQueueConfig h p => Sys2Proof.Machine.execTxQueueConfig h p s
  | .gateListSet h p => Sys2Proof.Machine.execGateListSet h p s
  | .laneConfig h p => Sys2Proof.Machine.execLaneConfig h p s
  | .channelDefine h p => Sys2Proof.Machine.execChannelDefine h p s
  | .channelDelete h p => Sys2Proof.Machine.execChannelDelete h p s
  | .channelStart h p => Sys2Proof.Machine.execChannelStart h p s
  | .channelStop h p => Sys2Proof.Machine.execChannelStop h p s
  | .channelSet h p => Sys2Proof.Machine.execChannelSet h p s
  | .channelCommit h p => Sys2Proof.Machine.execChannelCommit h p s
  | .channelRefresh h p => Sys2Proof.Machine.execChannelRefresh h p s
  | .ltrMark h p => Sys2Proof.Machine.execLtrMark h p s
  | .ltrRelease h p => Sys2Proof.Machine.execLtrRelease h p s
  | .roiSet h p => Sys2Proof.Machine.execRoiSet h p s
  | .roiClear h p => Sys2Proof.Machine.execRoiClear h p s
  | .extStreamDefine h p => Sys2Proof.Machine.execExtStreamDefine h p s
  | .extStreamDelete h p => Sys2Proof.Machine.execExtStreamDelete h p s
  | .surfaceAlloc h p => Sys2Proof.Machine.execSurfaceAlloc h p s
  | .surfaceFree h p => Sys2Proof.Machine.execSurfaceFree h p s
  | .flipSubmit h p => Sys2Proof.Machine.execFlipSubmit h p s
  | .protectedLoad h p => Sys2Proof.Machine.execProtectedLoad h p s
  | .protectedRemove h p => Sys2Proof.Machine.execProtectedRemove h p s
  | .tonemapLoad h p => Sys2Proof.Machine.execTonemapLoad h p s
  | .audioPortConfig h p => Sys2Proof.Machine.execAudioPortConfig h p s
  | .audioPortStart h p => Sys2Proof.Machine.execAudioPortStart h p s
  | .audioPortStop h p => Sys2Proof.Machine.execAudioPortStop h p s
  | .audioStreamConfig h p => Sys2Proof.Machine.execAudioStreamConfig h p s
  | .audioStreamDelete h p => Sys2Proof.Machine.execAudioStreamDelete h p s
  | .audioRoute h p => Sys2Proof.Machine.execAudioRoute h p s
  | .audioAlignGroup h p => Sys2Proof.Machine.execAudioAlignGroup h p s
  | .audioClock h p => Sys2Proof.Machine.execAudioClock h p s
  | .groupForm h p => Sys2Proof.Machine.execGroupForm h p s
  | .groupJoin h p => Sys2Proof.Machine.execGroupJoin h p s
  | .groupLeave h => Sys2Proof.Machine.execGroupLeave h s
  | .groupHandover h p => Sys2Proof.Machine.execGroupHandover h p s
  | .chainEnumerate h => Sys2Proof.Machine.execChainEnumerate h s
  | .chainBudget h p => Sys2Proof.Machine.execChainBudget h p s
  | .eventLogFetch h p => Sys2Proof.Machine.execEventLogFetch h p s
  | .cuAssign h p => Sys2Proof.Machine.execCuAssign h p s
  | .selftestBlockStart => Sys2Proof.Machine.execSelftestBlockStart s
  | .selftestBlockEnd block pass => Sys2Proof.Machine.execSelftestBlockEnd block pass s
  | .mooredEntry => Sys2Proof.Machine.execMooredEntry s
  | .tempSensorScan readings => Sys2Proof.Machine.execTempSensorScan readings s
  | .thermalHigh => Sys2Proof.Machine.execThermalHigh s
  | .thermalTrip sensor temp => Sys2Proof.Machine.execThermalTrip sensor temp s
  | .pmbusPoll rails => Sys2Proof.Machine.execPmbusPoll rails s
  | .hbmTempRead t0 t1 => Sys2Proof.Machine.execHbmTempRead t0 t1 s
  | .supplyWarningCrossing src mv => Sys2Proof.Machine.execSupplyWarningCrossing src mv s
  | .supplyWarningRelease minMv us => Sys2Proof.Machine.execSupplyWarningRelease minMv us s
  | .supplyResetCrossing rail mv => Sys2Proof.Machine.execSupplyResetCrossing rail mv s
  | .hbmRefresh => Sys2Proof.Machine.execHbmRefresh s
  | .panicLongTimer port => Sys2Proof.Machine.execPanicLongTimer port s
  | .rowIdleClose g bank => Sys2Proof.Machine.execRowIdleClose g bank s
  | .scrubRead a sram res => Sys2Proof.Machine.execScrubRead a sram res s
  | .eccCorrectedError a sram => Sys2Proof.Machine.execEccCorrectedError a sram s
  | .eccUncorrectableError a sram fault user => Sys2Proof.Machine.execEccUncorrectableError a sram fault user s
  | .masterResetRetire port => Sys2Proof.Machine.execMasterResetRetire port s
  | .hostHbmAccess a len data => Sys2Proof.Machine.execHostHbmAccess a len data s
  | .bar0BadAccess a => Sys2Proof.Machine.execBar0BadAccess a s
  | .registerWrite w lo hi => Sys2Proof.Machine.execRegisterWrite w lo hi s
  | .timeNowNsRead => Sys2Proof.Machine.execTimeNowNsRead s
  | .chnAuCountLoRead c => Sys2Proof.Machine.execChnAuCountLoRead c s
  | .pmuCntLoRead n => Sys2Proof.Machine.execPmuCntLoRead n s
  | .engPeakLoadRead e => Sys2Proof.Machine.execEngPeakLoadRead e s
  | .rcHeadroomMinRead c => Sys2Proof.Machine.execRcHeadroomMinRead c s
  | .lyrFlipResultRead c => Sys2Proof.Machine.execLyrFlipResultRead c s
  | .extMarginMinRead e => Sys2Proof.Machine.execExtMarginMinRead e s
  | .netMergeSkewRead m => Sys2Proof.Machine.execNetMergeSkewRead m s
  | .egrLateMaxRead n => Sys2Proof.Machine.execEgrLateMaxRead n s
  | .laneFomRead l => Sys2Proof.Machine.execLaneFomRead l s
  | .halDispatchMaxRead => Sys2Proof.Machine.execHalDispatchMaxRead s
  | .lyrFenceSignal w => Sys2Proof.Machine.execLyrFenceSignal w s
  | .lyrFenceReset w => Sys2Proof.Machine.execLyrFenceReset w s
  | .lyrCurPos c w => Sys2Proof.Machine.execLyrCurPos c w s
  | .lyrCurQueue c w => Sys2Proof.Machine.execLyrCurQueue c w s
  | .audSlotCommit p d => Sys2Proof.Machine.execAudSlotCommit p d s
  | .chkPreset u w => Sys2Proof.Machine.execChkPreset u w s
  | .chkInit u => Sys2Proof.Machine.execChkInit u s
  | .chkFinish u => Sys2Proof.Machine.execChkFinish u s
  | .chkStart u => Sys2Proof.Machine.execChkStart u s
  | .chkAbort u => Sys2Proof.Machine.execChkAbort u s
  | .chkFeed8 u w => Sys2Proof.Machine.execChkFeed8 u w s
  | .chkFeed16 u w => Sys2Proof.Machine.execChkFeed16 u w s
  | .chkFeed32 u lo hi => Sys2Proof.Machine.execChkFeed32 u lo hi s
  | .chkScanEnd u early => Sys2Proof.Machine.execChkScanEnd u early s
  | .pmuCounterEnable n w => Sys2Proof.Machine.execPmuCounterEnable n w s
  | .pmuSample n pc core thread => Sys2Proof.Machine.execPmuSample n pc core thread s
  | .pmuSamplePcRead => Sys2Proof.Machine.execPmuSamplePcRead s
  | .pmuHistClear h w => Sys2Proof.Machine.execPmuHistClear h w s
  | .pmuDumpConfigWrite off w => Sys2Proof.Machine.execPmuDumpConfigWrite off w s
  | .pmuDumpTrigger trigger pic busy => Sys2Proof.Machine.execPmuDumpTrigger trigger pic busy s
  | .threadReady slot level ns => Sys2Proof.Machine.execThreadReady slot level ns s
  | .devRecovery w info => Sys2Proof.Machine.execDevRecovery w info s
  | .bistRunStart w pass => Sys2Proof.Machine.execBistRunStart w pass s
  | .bistOtpBurn => Sys2Proof.Machine.execBistOtpBurn s
  | .bistKeySlotWrite => Sys2Proof.Machine.execBistKeySlotWrite s
  | .codeError l symbol => Sys2Proof.Machine.execCodeError l symbol s
  | .laneFomLow l fom => Sys2Proof.Machine.execLaneFomLow l fom s
  | .unstableClear => Sys2Proof.Machine.execUnstableClear s

end Sys2Proof.Machine
end

