-- ==== Sys2Proof/Safety.lean ====
section
/-!
DEFINITION. What a safe run is, in the terms the statements use: outcomes that go on, and the frames that say which
parts of the machine an effect leaves alone.
-/
namespace Sys2Proof.Machine

/-- The outcome is a next state that meets `P`. -/
def goesOn (P : State → Prop) : Host.Outcome State Fault Refusal → Prop
  | .next t => P t
  | .fault _ => False
  | .refused _ => False

/-! ## Frames -/

/-- The fields of `State`. -/
inductive Fld where
  | regs | time | dev | log | logSeq | mbx | ctl | chk | pmu | pwr | mem | chans | eng | ext | surf | aud | net | tx | txc | grp | lane
  | rat | out | fresh | pending
deriving DecidableEq, Repr

/-- `t` has the field of `s`. -/
def Fld.same : Fld → State → State → Prop
  | .regs, s, t => t.regs = s.regs
  | .time, s, t => t.time = s.time
  | .dev, s, t => t.dev = s.dev
  | .log, s, t => t.log = s.log
  | .logSeq, s, t => t.logSeq = s.logSeq
  | .mbx, s, t => t.mbx = s.mbx
  | .ctl, s, t => t.ctl = s.ctl
  | .chk, s, t => t.chk = s.chk
  | .pmu, s, t => t.pmu = s.pmu
  | .pwr, s, t => t.pwr = s.pwr
  | .mem, s, t => t.mem = s.mem
  | .chans, s, t => t.chans = s.chans
  | .eng, s, t => t.eng = s.eng
  | .ext, s, t => t.ext = s.ext
  | .surf, s, t => t.surf = s.surf
  | .aud, s, t => t.aud = s.aud
  | .net, s, t => t.net = s.net
  | .tx, s, t => t.tx = s.tx
  | .txc, s, t => t.txc = s.txc
  | .grp, s, t => t.grp = s.grp
  | .lane, s, t => t.lane = s.lane
  | .rat, s, t => t.rat = s.rat
  | .out, s, t => t.out = s.out
  | .fresh, s, t => t.fresh = s.fresh
  | .pending, s, t => t.pending = s.pending

/-- `t` differs from `s` in the fields of `l` only. -/
structure Touches (l : List Fld) (s t : State) : Prop where
  same : ∀ f, f ∉ l → f.same s t

/-! ## What a command does -/

/-- No register cell. -/
def noReg : Nat → Prop := fun _ => False

/-- Any register cell. -/
def anyReg : Nat → Prop := fun _ => True

/-- The register cells of a list. -/
def regIn (l : List Nat) : Nat → Prop := fun off => off ∈ l

/-- The register cells of a list, and those of the PMU block, whose overflow bits and histograms count what happens. -/
def regOrPmu (l : List Nat) : Nat → Prop := fun off => off ∈ l ∨ (0x00C00000 ≤ off ∧ off < 0x00D00000)

/-- `exec i s` ANSWERS A NEXT STATE `t`, which differs from `s` in the fields of `l` only, in whose register bank only cells of `r`
may differ, and which meets `P`. -/
def Does (i : Instr) (s : State) (l : List Fld) (r : Nat → Prop) (P : State → Prop) : Prop :=
  ∃ t, exec i s = .next t ∧ Touches l s t ∧ (∀ off, ¬ r off → t.rd off = s.rd off) ∧ P t

/-- `exec i s` answers exactly `t`. -/
def Gives (i : Instr) (s t : State) : Prop := exec i s = .next t

/-- The newest entry of the log is of an event with this code, object and detail (R421). -/
def Entered (code obj detail : Nat) (t : State) : Prop :=
  ∃ e r, t.log = e :: r ∧ e.code = code ∧ e.object = obj ∧ e.detail = detail % 2 ^ 64

/-- Every field but the outputs, the counter of free values and the queue of commands. -/
def resetFlds : List Fld :=
  [.regs, .time, .dev, .log, .logSeq, .mbx, .ctl, .chk, .pmu, .pwr, .mem, .chans, .eng, .ext, .surf, .aud, .net, .tx, .txc, .grp,
    .lane, .rat]

/-- What Table 20-4 says that power-on and a chip reset clear, after a reset of a kind. -/
def Cleared (kind : Nat) (t : State) : Prop :=
  t.chans = [] ∧ t.log = [] ∧ t.mbx = {} ∧ t.time = {} ∧ t.grp.role = .none ∧ t.rat.addr = 0 ∧ t.chk = [] ∧ t.dev.state = .ready
    ∧ t.dev.resetKind = kind

/-! ## Host commands -/

/-- A COMMAND word with tag `g` for block `b` waits in the mailbox of the pair, the firmware may read it and nothing of R306 steps 1
to 5, R313, R319 and R325 keeps it from executing the command of this block here at once. -/
def State.serves (s : State) (h : CmdHdr) (p : Payload) (g b : Nat) : Bool :=
  let e := tgetD s.mbx.sessions h.pair ⟨0, 0⟩
  decide (g < 4096) && decide (b < 32) && tget s.mbx.h2d h.pair == some (mbxWord 1 g b) && s.mayRead h.pair
    && (h.pair == 0 || thas s.mbx.sessions h.pair)
    && commandRefusal h e.roles p == none && decide (h.target < 2) && h.reservedOk
    && (match impliedLength p with | some n => h.length == n | none => true)
    && s.dev.state == .ready && s.threadFree
    && (unjournaled p || journalRule (tgetD s.mbx.journal e.slot []) h.seq == .fresh)

/-- The command has been answered with OK and a completion payload `d`: its block holds the completion (R305, R306), the COMPLETION
word is the last of the pair's queue (R314, R317), its journal, where it has one, holds it (R313; a journal is a table in
canonical form), the H2D mailbox is empty. -/
def Answered (s : State) (h : CmdHdr) (p : Payload) (g b : Nat) (d : List Byte) (t : State) : Prop :=
  let c := completionOf h (opcodeOf p) eOk false d
  tget t.mbx.blocks (32 * h.pair + b) = some c
    ∧ (∃ q a, tgetD t.mbx.queue h.pair [] = q ++ [(mbxWord 1 g b, a)])
    ∧ (unjournaled p = false → tsorted (tgetD s.mbx.journal (tgetD s.mbx.sessions h.pair ⟨0, 0⟩).slot []) = true →
        tget (tgetD t.mbx.journal (tgetD s.mbx.sessions h.pair ⟨0, 0⟩).slot []) h.seq = some (.done c))
    ∧ tget t.mbx.h2d h.pair = none

/-- What answering a command leaves alone in the mailboxes: the other pairs' words, every D2H mailbox, the other blocks, and the
sessions. -/
def MbxKept (h : CmdHdr) (b : Nat) (s t : State) : Prop :=
  (∀ p, p ≠ h.pair → tget t.mbx.h2d p = tget s.mbx.h2d p) ∧ t.mbx.d2h = s.mbx.d2h
    ∧ (∀ k, k ≠ 32 * h.pair + b → tget t.mbx.blocks k = tget s.mbx.blocks k) ∧ t.mbx.sessions = s.mbx.sessions

/-- The command runs: `exec i s` answers a next state in which the command has been answered with OK and `d`, which differs from `s`
in the fields of `l`, the mailboxes and the outputs only, and which meets `P`. -/
def Runs (i : Instr) (s : State) (h : CmdHdr) (p : Payload) (g b : Nat) (d : List Byte) (l : List Fld) (r : Nat → Prop)
    (P : State → Prop) : Prop :=
  Does i s (.mbx :: .out :: l) r fun t => Answered s h p g b d t ∧ MbxKept h b s t ∧ P t

/-! ## Host accesses, and rows of pictures -/

/-- A host access reaches the register at an offset: the function is in D0 (R295) and the PLL of the domain is locked (R22). -/
def State.reaches (s : State) (off : Nat) : Bool := !s.mbx.pci.d3hot && !s.dev.down (regDomain off)

/-- What a host write makes of the machine in D0; in D3hot it is an Unsupported Request (R295, log entry 79). -/
def State.inD0 (s t : State) : State := if s.mbx.pci.d3hot = true then s.unsupported else t

/-- A host read at an offset of BAR0: in D3hot it is an Unsupported Request (R295, log entry 79), of a domain whose PLL has lost lock
it completes with all ones and counts (R22), else it answers `w`, touches the outputs, the fields of `l` and the cells of `r`, and
leaves a state that meets `P`. -/
def Reads (i : Instr) (off : Nat) (s : State) (l : List Fld) (r : Nat → Prop) (w : Word) (P : State → Prop) : Prop :=
  if s.mbx.pci.d3hot = true then Gives i s (s.unsupported.emit .unsupported)
  else if s.dev.down (regDomain off) = true then Gives i s (s.badAccess.emit (.readData 0xFFFFFFFF))
  else Does i s (.out :: l) r fun t => t.out = .readData w :: s.out ∧ P t

/-- The state of row `r` of picture `n` of channel `c`; the initial one where there is none. -/
def State.du (s : State) (c n r : Nat) : Row := ((tget s.chans c).bind (·.pic? n)).elim {} (·.row r)

/-- Row `r` of picture `n` of channel `c` exists. -/
def State.hasDu (s : State) (c n r : Nat) : Bool :=
  match tget s.chans c with
  | some ch => (ch.pic? n).isSome && decide (r < ch.cfg.main.rows)
  | none => false

/-- Every other row of every picture is as it was. -/
def OtherDus (c n r : Nat) (s t : State) : Prop := ∀ c' n' r', ¬ (c' = c ∧ n' = n ∧ r' = r) → t.du c' n' r' = s.du c' n' r'

end Sys2Proof.Machine
end

