-- ==== Sys2Proof/WellFormed.lean ====
section
/-!
DEFINITION. Well-formed commands and events: every operand lies in the field that carries it (the payload tables of chapter 16, the
block header of Table 15-6, the record and message layouts of chapters 12 and 14) and every number names something that can exist (a
channel, a row, an interface, a lane, a pair, a port). What a field may MEAN, and what a value outside its range gives, is the meaning's
affair, not checked here.
-/
namespace Sys2Proof

/-! ## Fields -/

/-- A number fits in `n` bits. -/
def fits (n v : Nat) : Bool := decide (v < 2 ^ n)

/-- An integer fits in `n` bits of two's complement. -/
def fitsI (n : Nat) (v : Int) : Bool := decide (-(2 ^ (n - 1) : Nat) ≤ v) && decide (v < (2 ^ (n - 1) : Nat))

/-- Each number fits in the bits listed before it. -/
def fitAll (l : List (Nat × Nat)) : Bool := l.all fun e => fits e.1 e.2

/-- Each integer fits in the bits listed before it. -/
def fitAllI (l : List (Nat × Int)) : Bool := l.all fun e => fitsI e.1 e.2

/-- A time field's words (R319). -/
def TimeField.wf (f : TimeField) : Bool := fitAll [(32, f.ns), (32, f.sec)]

/-- Layouts CH and CHT (Table 16-1). -/
def ChArg.wf (a : ChArg) : Bool := fitAll [(8, a.object), (8, a.item)]
def ChtArg.wf (a : ChtArg) : Bool := fitAll [(8, a.object), (8, a.item)] && a.time.wf

/-- The block header (Table 15-6), which lies in one of the nine pairs' windows (R297). -/
def CmdHdr.wf (h : CmdHdr) : Bool :=
  decide (h.pair < 9) && fitAll [(8, h.session), (32, h.seq), (8, h.target), (16, h.length), (16, h.opcode)]
    && h.extra.all (fun e => decide (e.1 < 252) && e.2 != 0) && decide (h.extra.Pairwise (·.1 < ·.1))

/-- Table 16-3 lists an opcode: family in the high byte, number in the low byte. -/
def opcodeListed (o : Nat) : Bool := decide (1 ≤ o % 256) && decide (o % 256 ≤ [0, 5, 8, 4, 7, 13, 6, 8, 4, 2, 2].getD (o / 256) 0)

/-! ## Payloads (chapter 16) -/

/-- A format byte: size_id, interlaced and the reserved bits (Table 16-9). -/
def FormatArg.wf (f : FormatArg) : Bool := fitAll [(2, f.size), (5, f.fmtRsv)]

/-- TIME_CONFIG (Table 16-8). -/
def TimeConfigArg.wf (a : TimeConfigArg) : Bool :=
  fitAll [(8, a.domain), (8, a.transport), (8, a.delayMode), (8, a.announceTimeout), (8, a.portPrimary), (8, a.portSecondary), (16, a.vid)]
    && fitAllI [(8, a.logDelayReq), (32, a.asymPrimary), (32, a.asymSecondary)]

/-- A flow entry's configured bytes (Table 9-1). -/
def FlowArg.wf (a : FlowArg) : Bool :=
  fitAll [(3, a.kind), (1, a.path), (3, a.ctlRsv), (8, a.essence), (16, a.vid), (16, a.udpPort), (16, a.target), (8, a.pt), (8, a.tol),
    (32, a.rate), (32, a.burst)]

/-- CHANNEL_DEFINE (Table 16-9). -/
def DefMain.wf (m : DefMain) : Bool :=
  m.format.wf && fitAll [(8, m.rateId), (8, m.inputDepth), (8, m.ctuSize), (8, m.codec), (8, m.profile), (8, m.renditionOf), (16, m.flowA),
    (16, m.flowB), (32, m.inputOffset), (32, m.tTol), (32, m.dPipe)]
def DefRate.wf (q : DefRate) : Bool :=
  fitAll [(8, q.rcMode), (8, q.avgWindow), (16, q.dCpb), (32, q.bitRate), (32, q.avgRate), (32, q.cpbSize), (16, q.takeoverSlack),
    (8, q.overshoot)] && fitAllI [(8, q.qpMin), (8, q.qpMax), (8, q.initQp)]
def DefRefs.wf (r : DefRefs) : Bool :=
  fitAll [(8, r.stRefs), (8, r.ltSlots), (8, r.anchorSlots), (8, r.anchorDelta), (16, r.anchorShare), (8, r.anchorHold),
    (8, r.refreshMode), (16, r.refreshInterval), (8, r.sweepG), (8, r.rejoinG)] && fitsI 8 r.protectedFloor
def DefTone.wf (t : DefTone) : Bool :=
  fitAll [(8, t.inSystem), (8, t.outSystem), (8, t.tmMode), (8, t.adapt), (32, t.adaptTarget), (16, t.adaptSpeed), (16, t.gainMin),
    (16, t.gainMax)]
def DefOut.wf (o : DefOut) : Bool :=
  fitAll [(8, o.encap), (8, o.srcMode), (8, o.outIfA), (8, o.outIfB), (16, o.udpDst), (16, o.vidA), (16, o.vidB), (8, o.dscp),
    (8, o.hopLimit), (32, o.ssrc), (16, o.seqInit), (8, o.pt), (8, o.queue), (16, o.maxPayload), (32, o.tsRate), (16, o.pidPmt),
    (16, o.pidVideo), (16, o.pidAnc), (8, o.programmes)]
    && o.pidAudio.length == 8 && o.pidAudio.all (fits 16) && o.progChannels.length == 8 && o.progChannels.all (fits 8)
def ChannelDefineArg.wf (a : ChannelDefineArg) : Bool :=
  fits 8 a.channel && a.main.wf && a.rate.wf && a.refs.wf && a.tone.wf && a.out.wf

/-- CHANNEL_SET (Table 16-10). -/
def ChannelSetArg.wf (a : ChannelSetArg) : Bool :=
  fitAll [(8, a.channel), (16, a.flowA), (16, a.flowB), (8, a.overshoot), (8, a.anchorDelta), (16, a.anchorShare), (8, a.anchorHold),
    (8, a.sweepG), (16, a.refreshInterval), (8, a.tmMode), (8, a.adapt), (16, a.adaptSpeed), (32, a.adaptTarget), (16, a.gainMin),
    (16, a.gainMax)] && fitAllI [(8, a.qpMin), (8, a.qpMax), (8, a.protectedFloor)]

/-- ROI_SET and EXT_STREAM_DEFINE (R345). -/
def RoiSetArg.wf (a : RoiSetArg) : Bool :=
  fitAll [(8, a.channel), (8, a.region), (8, a.kind), (16, a.width), (16, a.height)] && fitAllI [(8, a.value), (16, a.x0), (16, a.y0)]
def ExtStreamArg.wf (a : ExtStreamArg) : Bool :=
  a.format.wf && fitAll [(8, a.stream), (8, a.payload), (8, a.codec), (8, a.profile), (8, a.rateId), (8, a.codedDepth), (16, a.flowA),
    (16, a.flowB)]

/-- FLIP_SUBMIT (Table 16-13). -/
def FlipUpdate.wf (u : FlipUpdate) : Bool :=
  fitAll [(8, u.layer), (8, u.enable), (32, u.surface), (16, u.ga)] && fitAllI [(16, u.x0), (16, u.y0)]
def FlipSubmitArg.wf (a : FlipSubmitArg) : Bool :=
  fitAll [(8, a.channel), (8, a.id), (8, a.cancelAfter)] && a.notBefore.wf && decide (a.fences.length ≤ 8) && a.fences.all (fits 8)
    && decide (a.updates.length ≤ 255) && a.updates.all (·.wf)

/-- GROUP_FORM and GROUP_JOIN (Table 16-15). -/
def GroupArg.wf (a : GroupArg) : Bool :=
  fitAll [(8, a.groupId), (8, a.size), (8, a.rank), (8, a.firstActive)] && decide (a.addrs.length ≤ 255) && a.addrs.all fun e => fits 8 e.1

/-- AUDIO_ROUTE and AUDIO_ALIGN_GROUP (R350, R351). -/
def RouteEntry.wf (e : RouteEntry) : Bool :=
  fitAll [(8, e.sinkKind), (8, e.sinkA), (8, e.sinkB), (8, e.srcKind), (8, e.srcA), (8, e.srcB)]
def AlignGroupArg.wf (a : AlignGroupArg) : Bool :=
  fits 8 a.group && decide (a.members.length ≤ 255) && a.members.all fun e => fitAll [(2, e.1), (8, e.2)]

/-- A command's payload. -/
def Payload.wf : Payload → Bool
  | .sessionOpen p => fitAll [(8, p.keySlot), (8, p.roles), (8, p.pair)]
  | .sessionProve _ => true
  | .sessionClose => true
  | .completionFetch p => fits 32 p
  | .keyWrite p => fitAll [(8, p.keySlot), (8, p.roles)]
  | .deviceInfo => true
  | .deviceConfigure p => p.wf
  | .powerBudget p => fits 16 p
  | .shutdown p => p.wf
  | .calRead p => fits 32 p
  | .calWrite p => fits 32 p.surface
  | .firmwareWrite p => fitAll [(32, p.surface), (8, p.image), (8, p.boot), (32, p.info.length), (32, p.info.version)]
  | .lifecycleSet p => fits 8 p.target
  | .timeConfig p => p.wf
  | .timeServoConfig p => fitAll [(32, p.kp), (32, p.ki), (32, p.slew), (32, p.thresh), (8, p.autoStep)]
  | .timeAcceptStep p => p.wf
  | .timePpsConfig p => fitAll [(32, p.width), (8, p.mode)]
  | .portConfig p => fitAll [(8, p.port), (8, p.mode), (8, p.enable)]
  | .netAddress p => fits 8 p.iface
  | .flowAdd p => p.wf
  | .flowDelete p => fits 16 p
  | .txQueueConfig p => fitAll [(8, p.iface), (8, p.queue), (8, p.weight), (16, p.maxFrame)]
  | .gateListSet p => fitAll [(8, p.iface), (32, p.cycle), (16, p.count), (32, p.surface)] && p.base.wf
  | .laneConfig p => fitAll [(8, p.lane), (8, p.loopback), (8, p.pattern), (8, p.enable)] && fitAllI [(8, p.pre), (8, p.main), (8, p.post)]
  | .channelDefine p => p.wf
  | .channelDelete p => p.wf
  | .channelStart p => p.wf
  | .channelStop p => p.wf
  | .channelSet p => p.wf
  | .channelCommit p => p.wf
  | .channelRefresh p => p.wf
  | .ltrMark p => p.wf
  | .ltrRelease p => p.wf
  | .roiSet p => p.wf
  | .roiClear p => p.wf
  | .extStreamDefine p => p.wf
  | .extStreamDelete p => p.wf
  | .surfaceAlloc p => fitAll [(8, p.owner), (8, p.kind), (16, p.width), (16, p.height), (32, p.bytes)]
  | .surfaceFree p => fits 32 p
  | .flipSubmit p => p.wf
  | .protectedLoad p => fitAll [(8, p.channel), (32, p.surface)] && fitAllI [(16, p.x0), (16, p.y0)] && p.time.wf
  | .protectedRemove p => p.wf
  | .tonemapLoad p => fitAll [(8, p.channel), (32, p.surface)]
  | .audioPortConfig p => fitAll [(8, p.port), (8, p.dir), (8, p.mode), (8, p.slots), (8, p.fsWidth), (8, p.fsDelay), (8, p.fsPolarity),
      (8, p.edge), (16, p.target)]
  | .audioPortStart p => p.wf
  | .audioPortStop p => p.wf
  | .audioStreamConfig p => fitAll [(8, p.stream), (8, p.format), (8, p.channels), (8, p.ptime), (16, p.flowA), (16, p.flowB), (16, p.target)]
  | .audioStreamDelete p => p.wf
  | .audioRoute p => decide (p.entries.length ≤ 255) && p.entries.all (·.wf)
  | .audioAlignGroup p => p.wf
  | .audioClock p => fitAll [(8, p.pilot), (32, p.kp), (32, p.ki)]
  | .groupForm p => p.wf
  | .groupJoin p => p.wf
  | .groupLeave => true
  | .groupHandover p => fits 8 p
  | .chainEnumerate => true
  | .chainBudget p => fits 32 p
  | .eventLogFetch p => fitAll [(32, p.fromSeq), (16, p.max)]
  | .cuAssign p => p.wf

/-! ## Operands of events -/

/-- A channel and a row of a picture: at most 135 rows (4,320 lines of 32-line CTUs). -/
def rowWf (c r : Nat) : Bool := decide (c < 64) && decide (r < 135)

/-- A stay record's header (Table 12-3): leg, rank, role and group. -/
def RecHdr.wf (h : RecHdr) : Bool := decide (h.leg < 2) && fitAll [(8, h.link), (2, h.dest), (2, h.rank), (3, h.role), (32, h.recSeq), (8, h.groupId)]

/-- A ratline message's header (Table 14-1). -/
def RatHdr.wf (h : RatHdr) : Bool :=
  decide (h.port < 2) && fitAll [(8, h.link), (16, h.length), (8, h.src), (8, h.dst), (32, h.seq), (8, h.hops)]

/-- A range of missing packets (Table 12-5). -/
def GapRange.wf (g : GapRange) : Bool := decide (g.merge < 208) && fitAll [(16, g.count), (32, g.first)]

/-- A row record (Table 12-4). -/
def RowRec.wf (r : RowRec) : Bool := rowWf r.chan r.row && r.loss.all (fun l => decide (l < 64)) && fitAll [(32, r.resSize), (32, r.planCap)]

/-- A picture record (Table 12-5). -/
def PicRec.wf (r : PicRec) : Bool := decide (r.chan < 64) && fitAll [(16, r.budget), (2, r.ceiling)] && r.gaps.all (·.wf)

/-- A TRN set's fields (Table 13-2). -/
def TrnSet.wf (t : TrnSet) : Bool := fitAll [(2, t.lane), (2, t.pre), (2, t.post)]

/-- An RTP packet's header fields. -/
def RtpPacket.wf (p : RtpPacket) : Bool := fitAll [(7, p.pt), (16, p.seq), (32, p.ts), (32, p.ssrc)]

/-- A command of the host is well-formed when its header and its payload are, and its opcode is the payload's or one that Table 16-3 does
not list. -/
def cmdWf (h : CmdHdr) (p : Payload) : Bool := h.wf && p.wf && (h.opcode == opcodeOf p || !opcodeListed h.opcode)

/-- A BAR0 access starts within 64 MiB and is no aligned write, which is a REGISTER_WRITE; a BAR2 access starts within 1 MiB (R295). -/
def BarAccess.wf : BarAccess → Bool
  | .winRead off len => fits 20 off && decide (1 ≤ len)
  | .winWrite off d => fits 20 off && !d.isEmpty
  | .read off len => fits 26 off && decide (1 ≤ len)
  | .write off d => fits 26 off && !d.isEmpty && !((d.length == 4 && off % 4 == 0) || (d.length == 8 && off % 8 == 0))

/-- A write to a register with no row of its own: DEV_RECOVERY and BIST_RUN with start set have theirs (R435, R451). A write
of configuration space carries its bits and no word. -/
def WriteAt.wf (w : WriteAt) (lo : Word) (hi : Option Word) : Bool :=
  match w with
  | .bar0 off =>
    let own (o : Nat) (w : Word) : Bool := o == 0x34 || (o == 0xF00000 && w.toNat.testBit 8)
    fits 26 off && off % 4 == 0 && !(own off lo) && (match hi with | some w => off % 8 == 0 && !(own (off + 4) w) | none => true)
  | .config _ => lo == 0 && hi.isNone

/-- Well-formed commands and events. -/
def Instr.wf : Instr → Bool
  | .powerOn => true
  | .chipReset => true
  | .resetRelease _ l _ => l.all fun b => decide (b < 64)
  | .firmwareReady ms _ => fits 24 ms
  | .trialTimeout => true
  | .hourCounterTick => true
  | .lifecycleResetTimer => true
  | .pllUnlock _ => true
  | .refclkEthLoss => true
  | .refclkLinkLoss => true
  | .refclkLinkReturn => true
  | .audmOscUnlock => true
  | .controlComplexReset => true
  | .watchdogExpiry c => decide (c < 8)
  | .restartHoldExpiry => true
  | .functionLevelReset => true
  | .pictureBoundary c _ => decide (c < 64)
  | .channelClockChange x => decide (x.chan < 64)
  | .lossMapFreeze c _ r => rowWf c r
  | .rowDeadline c _ r => rowWf c r
  | .rowJobRelease c _ r => rowWf c r
  | .rowJobStart c _ r => rowWf c r
  | .ctuCommit c _ r _ _ _ => rowWf c r
  | .rowJobComplete c _ r _ _ _ _ => rowWf c r
  | .jobOverrun c _ r => rowWf c r
  | .engineLocalReset e _ => decide (e < 16)
  | .duSubstitution c _ r _ _ => rowWf c r
  | .trailingFilter c _ r _ _ => rowWf c r
  | .alfDerivation x => decide (x.chan < 64)
  | .proofDispatch => true
  | .proofVerdict p _ => decide (p < 4)
  | .verdictDeadline c _ r => rowWf c r
  | .substituteDecode c _ r _ => rowWf c r
  | .proofTrailingFilter c _ r _ => rowWf c r
  | .proofPipeReset p => decide (p < 4)
  | .extAuFreeze d => decide (d < 16)
  | .extGapDeadline d => decide (d < 16)
  | .extAuDecode d _ => decide (d < 16)
  | .duTransmitEntry c _ r => rowWf c r
  | .ethernetFrameRx i _ _ => decide (i < 16)
  | .seqMissingTimeout m _ => decide (m < 208)
  | .mergePathDown m q => decide (m < 208) && decide (q < 2)
  | .firmwareControlPacket i _ => decide (i < 16)
  | .membershipReportTimer i => decide (i < 16)
  | .ethLinkUp i => decide (i < 16)
  | .ethLinkDown i => decide (i < 16)
  | .packetModelInstant i c q => decide (i < 16) && decide (c < 64) && fits 16 q
  | .packetTransmit i _ => decide (i < 16)
  | .tsSlot c => decide (c < 64)
  | .gateListTaken i => decide (i < 16)
  | .gateListStart i => decide (i < 16)
  | .gateEntryChange i => decide (i < 16)
  | .sampleTick => true
  | .tdmRxFrame p _ => decide (p < 8)
  | .tdmTxFrame p => decide (p < 8)
  | .tdmFrameSync p d _ => decide (p < 8) && decide (d < 2)
  | .tdmLockTimeout p d => decide (p < 8) && decide (d < 2)
  | .audioClockLoopUpdate => true
  | .pilotHoldover => true
  | .ptpSync p m => decide (p < 2) && fits 16 m.seqId
  | .ptpFollowUp p m => decide (p < 2) && fits 16 m.seqId
  | .ptpAnnounce p m => decide (p < 2) && fitsI 16 m.utc
  | .ptpDelayResp p m => decide (p < 2) && fits 16 m.seqId
  | .delayReqTimer => true
  | .announceTimeout p => decide (p < 2)
  | .servoOffset _ _ l => fitsI 8 l
  | .servoCorrExpiry => true
  | .offsetTimeout => true
  | .stepApply => true
  | .ppsOutPulse => true
  | .ppsOutFall => true
  | .ppsInEdge => true
  | .rowRecord h r => h.wf && r.wf
  | .pictureRecord h r => h.wf && r.wf
  | .gapRecord h r => h.wf && decide (r.stream < 16) && fits 32 r.ts && r.gaps.all (·.wf)
  | .repairRequest h m _ n => h.wf && decide (m < 208) && decide (n ≤ 64)
  | .repairData h m x _ => h.wf && decide (m < 208) && fits 32 x.seq && x.pkt.wf
  | .copyRecord h r => h.wf && decide (r.chan < 64) && fits 16 r.block && fits 32 r.offset && decide (r.data.length ≤ 1024)
  | .hello h r => h.wf && decide (r.port < 2) && fits 2 r.size
  | .helloTimer => true
  | .handover h _ t d => h.wf && fits 2 t && d.all fun c => decide (c < 64)
  | .handoverAck h _ => h.wf
  | .standDown h r => h.wf && fits 8 r
  | .rejoinPlan h l => h.wf && l.all fun e => decide (e.1 < 64)
  | .rejoinDone h l => h.wf && l.all fun c => decide (c < 64)
  | .handoverInstant => true
  | .handoverRetry => true
  | .takeoverTimer => true
  | .takeoverWaitTimer => true
  | .recordSilenceTimeout => true
  | .heldPacketExpiry c q => decide (c < 64) && fits 16 q
  | .rejoinCopyComplete c _ => decide (c < 64)
  | .copyRetryTimer c => decide (c < 64)
  | .stayReplayTimeout l => decide (l < 2)
  | .linkAck p l => decide (p < 4) && fits 32 l
  | .trn q t => decide (q < 4) && t.wf
  | .aln q l _ => decide (q < 4) && l.all fun n => decide (n < 4)
  | .symbolLock l _ => decide (16 ≤ l) && decide (l < 26)
  | .trainingStepTimer l f => decide (16 ≤ l) && decide (l < 26) && fits 8 f
  | .trainingTimeout q l => decide (q < 4) && l.all (fits 8)
  | .laneLosSet l => decide (l < 26)
  | .laneLosClear l => decide (l < 26)
  | .cdrLockChange l _ => decide (l < 26)
  | .elasticSlip q => decide (q < 4)
  | .failedHoldExpiry q => decide (q < 4)
  | .enum h n l _ => h.wf && fits 8 n && decide (l.length ≤ 16)
  | .announce h _ => h.wf
  | .announceTimer => true
  | .assign h _ a => h.wf && fits 8 a
  | .ratlineCommand h c k r p => h.wf && fitAll [(3, k), (5, r)] && cmdWf c p
  | .ratlineCompletion h c => h.wf && fitAll [(16, c.opcode), (32, c.seq), (8, c.session), (8, c.target), (8, c.status)]
  | .commandResendTimer => true
  | .forwardTimeout p q => decide (p < 9) && fits 32 q
  | .ringCheckTimer => true
  | .ringCheck h => h.wf
  | .ringReport h p d f => h.wf && fits 2 p && fitAll [(16, d), (16, f)]
  | .ringSplitTimeout => true
  | .budgetTimer => true
  | .budget h l => h.wf && decide (l.length ≤ 16) && l.all (fits 16)
  | .budgetTimeout => true
  | .testRequest h b w => h.wf && fits 8 b && fits 16 w
  | .testGrant h b w => h.wf && fits 8 b && fits 16 w
  | .testDone h b => h.wf && fits 8 b
  | .testGrantTimeout => true
  | .grantExpiry a => decide (a ≤ 16)
  | .ratlineReplayTimeout p => decide (p < 2)
  | .mbxH2dWrite p _ => decide (p < 9)
  | .mbxD2hRead p => decide (p < 9)
  | .d2hQueuePost p => decide (p < 9)
  | .ping p => decide (p < 9)
  | .sessionIdleTimeout p => decide (p < 9)
  | .nonceExpiry _ => true
  | .slotLockExpiry k => decide (k < 8)
  | .sessionOpen h p => cmdWf h (.sessionOpen p)
  | .sessionProve h p => cmdWf h (.sessionProve p)
  | .sessionClose h => cmdWf h .sessionClose
  | .completionFetch h p => cmdWf h (.completionFetch p)
  | .keyWrite h p => cmdWf h (.keyWrite p)
  | .deviceInfo h => cmdWf h .deviceInfo
  | .deviceConfigure h p => cmdWf h (.deviceConfigure p)
  | .powerBudget h p => cmdWf h (.powerBudget p)
  | .shutdown h p => cmdWf h (.shutdown p)
  | .calRead h p => cmdWf h (.calRead p)
  | .calWrite h p => cmdWf h (.calWrite p)
  | .firmwareWrite h p => cmdWf h (.firmwareWrite p)
  | .firmwareWriteDone st => fits 8 st
  | .lifecycleSet h p => cmdWf h (.lifecycleSet p)
  | .timeConfig h p => cmdWf h (.timeConfig p)
  | .timeServoConfig h p => cmdWf h (.timeServoConfig p)
  | .timeAcceptStep h p => cmdWf h (.timeAcceptStep p)
  | .timePpsConfig h p => cmdWf h (.timePpsConfig p)
  | .portConfig h p => cmdWf h (.portConfig p)
  | .netAddress h p => cmdWf h (.netAddress p)
  | .flowAdd h p => cmdWf h (.flowAdd p)
  | .flowDelete h p => cmdWf h (.flowDelete p)
  | .txQueueConfig h p => cmdWf h (.txQueueConfig p)
  | .gateListSet h p => cmdWf h (.gateListSet p)
  | .laneConfig h p => cmdWf h (.laneConfig p)
  | .channelDefine h p => cmdWf h (.channelDefine p)
  | .channelDelete h p => cmdWf h (.channelDelete p)
  | .channelStart h p => cmdWf h (.channelStart p)
  | .channelStop h p => cmdWf h (.channelStop p)
  | .channelSet h p => cmdWf h (.channelSet p)
  | .channelCommit h p => cmdWf h (.channelCommit p)
  | .channelRefresh h p => cmdWf h (.channelRefresh p)
  | .ltrMark h p => cmdWf h (.ltrMark p)
  | .ltrRelease h p => cmdWf h (.ltrRelease p)
  | .roiSet h p => cmdWf h (.roiSet p)
  | .roiClear h p => cmdWf h (.roiClear p)
  | .extStreamDefine h p => cmdWf h (.extStreamDefine p)
  | .extStreamDelete h p => cmdWf h (.extStreamDelete p)
  | .surfaceAlloc h p => cmdWf h (.surfaceAlloc p)
  | .surfaceFree h p => cmdWf h (.surfaceFree p)
  | .flipSubmit h p => cmdWf h (.flipSubmit p)
  | .protectedLoad h p => cmdWf h (.protectedLoad p)
  | .protectedRemove h p => cmdWf h (.protectedRemove p)
  | .tonemapLoad h p => cmdWf h (.tonemapLoad p)
  | .audioPortConfig h p => cmdWf h (.audioPortConfig p)
  | .audioPortStart h p => cmdWf h (.audioPortStart p)
  | .audioPortStop h p => cmdWf h (.audioPortStop p)
  | .audioStreamConfig h p => cmdWf h (.audioStreamConfig p)
  | .audioStreamDelete h p => cmdWf h (.audioStreamDelete p)
  | .audioRoute h p => cmdWf h (.audioRoute p)
  | .audioAlignGroup h p => cmdWf h (.audioAlignGroup p)
  | .audioClock h p => cmdWf h (.audioClock p)
  | .groupForm h p => cmdWf h (.groupForm p)
  | .groupJoin h p => cmdWf h (.groupJoin p)
  | .groupLeave h => cmdWf h .groupLeave
  | .groupHandover h p => cmdWf h (.groupHandover p)
  | .chainEnumerate h => cmdWf h .chainEnumerate
  | .chainBudget h p => cmdWf h (.chainBudget p)
  | .eventLogFetch h p => cmdWf h (.eventLogFetch p)
  | .cuAssign h p => cmdWf h (.cuAssign p)
  | .selftestBlockStart => true
  | .selftestBlockEnd b _ => decide (b < 50)
  | .mooredEntry => true
  | .tempSensorScan l => decide (l.length ≤ 32)
  | .thermalHigh => true
  | .thermalTrip n _ => decide (n < 32)
  | .pmbusPoll l => decide (l.length ≤ 32)
  | .hbmTempRead _ _ => true
  | .supplyWarningCrossing n mv => decide (n < 3) && fits 12 mv
  | .supplyWarningRelease mv _ => fits 12 mv
  | .supplyResetCrossing n mv => decide (n < 2) && fits 12 mv
  | .hbmRefresh => true
  | .panicLongTimer p => decide (p < 2)
  | .rowIdleClose g _ => decide (g < 64)
  | .scrubRead a _ _ => fits 38 a
  | .eccCorrectedError a _ => fits 38 a
  | .eccUncorrectableError a _ f _ => fits 38 a && decide (f.master < 26) && fitAll [(3, f.tag), (6, f.id)]
  | .masterResetRetire p => decide (p < 26)
  | .hostHbmAccess a n d => fits 38 a && decide (1 ≤ n) && (match d with | some b => b.length == n | none => true)
  | .bar0BadAccess a => a.wf
  | .registerWrite w lo hi => w.wf lo hi
  | .timeNowNsRead => true
  | .chnAuCountLoRead c => decide (c < 64)
  | .pmuCntLoRead i => decide (i < 256)
  | .engPeakLoadRead e => decide (e < 16)
  | .rcHeadroomMinRead c => decide (c < 64)
  | .lyrFlipResultRead c => decide (c < 64)
  | .extMarginMinRead d => decide (d < 16)
  | .netMergeSkewRead m => decide (m < 208)
  | .egrLateMaxRead c => decide (c < 64)
  | .laneFomRead l => decide (l < 26)
  | .halDispatchMaxRead => true
  | .lyrFenceSignal _ => true
  | .lyrFenceReset _ => true
  | .lyrCurPos c _ => decide (c < 64)
  | .lyrCurQueue c _ => decide (c < 64)
  | .audSlotCommit p d => decide (p < 8) && decide (d < 2)
  | .chkPreset u _ => decide (u < 8)
  | .chkInit u => decide (u < 8)
  | .chkFinish u => decide (u < 8)
  | .chkStart u => decide (u < 8)
  | .chkAbort u => decide (u < 8)
  | .chkFeed8 u _ => decide (u < 8)
  | .chkFeed16 u _ => decide (u < 8)
  | .chkFeed32 u _ _ => decide (u < 8)
  | .chkScanEnd u _ => decide (u < 8)
  | .pmuCounterEnable i _ => decide (i < 256)
  | .pmuSample i _ c _ => decide (i < 256) && decide (c < 8)
  | .pmuSamplePcRead => true
  | .pmuHistClear h _ => decide (h < 16)
  | .pmuDumpConfigWrite off _ => fits 26 off
  | .pmuDumpTrigger t _ _ => fits 2 t
  | .threadReady _ l _ => decide (l < 64)
  | .devRecovery _ i => fitAll [(32, i.length), (32, i.version)]
  | .bistRunStart _ _ => true
  | .bistOtpBurn => true
  | .bistKeySlotWrite => true
  | .codeError l _ => decide (l < 26)
  | .laneFomLow l f => decide (l < 26) && fits 8 f
  | .unstableClear => true

end Sys2Proof
end

