-- ==== Sys2Proof/Certificates/Slice0/Obligations.lean ====
section
/-!
DEFINITION. The statements for the provers: what the rows of the step table do (completion, result and frame), and the rules of the
whole block.
-/
open Sys2Proof Sys2Proof.Machine

/-- With a command c at the front of its queue, step of a state is exec of c on that state with the rest of the queue. Where
the spec is silent this follows the model's choice: log entry 1. -/
def Obligations.StepTakesFront : Prop :=
  ∀ (c : Instr) (r : List Instr) (s : State), s.pending = c :: r → step s = exec c { s with pending := r }

/-- The model's choice (log entry 2): on an empty queue a step is one TIME cycle: the elapsed count rises by 1, the timebase
advances by the increment (R209), and nothing else changes. -/
def Obligations.EmptyQueueTicks : Prop :=
  ∀ s : State, s.pending = [] → ∃ t, step s = .next t ∧ Touches [.time] s t ∧ t.time.up = s.time.up + 1
    ∧ (s.time.ns < 1000000000 → s.time.frac < 2 ^ 40 → s.time.incr ≤ 2 ^ 41 → s.time.sec < 2 ^ 48 →
        t.time.ns < 1000000000 ∧ t.time.frac < 2 ^ 40 ∧ ∃ c, c ≤ 1 ∧ t.time.sec = (s.time.sec + c) % 2 ^ 48
          ∧ (c * 1000000000 + t.time.ns) * 2 ^ 40 + t.time.frac = s.time.ns * 2 ^ 40 + s.time.frac + s.time.incr)

/-- Right after power-on: READY, no fatal error, no channel, no session, an empty log, role none, ratline address 0, the
increment 2^40 and the servo gains of chapter 11, behaviour level 2, every mailbox empty and fw_ready 0, and an empty queue.
Where the spec is silent this follows the model's choice: log entry 12. -/
def Obligations.ResetLeaves : Prop :=
  State.reset.dev.state = .ready ∧ State.reset.dev.fatal = false ∧ State.reset.dev.resetKind = 0 ∧ State.reset.dev.level = 2
    ∧ State.reset.chans = [] ∧ State.reset.log = [] ∧ State.reset.mbx = {} ∧ State.reset.mbx.fwReady = false
    ∧ State.reset.grp.role = .none ∧ State.reset.rat.addr = 0 ∧ State.reset.time.incr = 2 ^ 40 ∧ State.reset.time.sec = 0
    ∧ State.reset.time.ns = 0 ∧ State.reset.time.kp = 0x8000 ∧ State.reset.time.ki = 0x0800 ∧ State.reset.pending = []
    ∧ ∀ off, State.reset.rd off = Reg.reset off

/-- The memory of the reset state lists nothing and is in canonical form. Where the spec is silent this follows the model's
choice: log entry 10. -/
def Obligations.ResetMemoryCanonical : Prop :=
  Memory.wf State.reset.mem.hbm = true ∧ ∀ a, Mem.byte State.reset.mem.hbm a = 0

/-- In whatever state a step begins whose HBM image is in canonical form (addresses strictly rising, no listed byte equal to
what an unlisted one reads as), the next state has an image in canonical form. Where the spec is silent this follows the
model's choice: log entry 10. -/
def Obligations.MemoryStaysCanonical : Prop :=
  ∀ s t : State, Memory.wf s.mem.hbm = true → step s = .next t → Memory.wf t.mem.hbm = true

/-- exec of any command answers a next state, and the queue of waiting commands in it is the one before. Where the spec is
silent this follows the model's choice: log entry 1. -/
def Obligations.QueueLeftAlone : Prop :=
  ∀ (c : Instr) (s : State), ∃ t, exec c s = .next t ∧ t.pending = s.pending

/-- POWER_ON, CHIP_RESET, SUPPLY_RESET_CROSSING, the timer of LIFECYCLE_SET and a failed trial each answer the state of Table
20-4: channels FREE, log, mailboxes, sessions and journal empty, clock and servo reset, role none, ratline address 0, grants
cleared, READY, every count and sticky bit at its reset value. Power-on clears DEV_LAST_FATAL and PWR_RESET_CAUSE, a chip
reset keeps them, a supply crossing records its rail and millivolts there; the flash and OTP are kept. A failed trial prefers
the other image and sets trial_failed. Where the spec is silent this follows the model's choice: log entries 37, 38 and 39. -/
def Obligations.ChipResets : Prop :=
  (∀ s : State, Does .powerOn s resetFlds anyReg fun t => Cleared 0 t ∧ (∀ off, t.rd off = Reg.reset off)
    ∧ t.dev.lastCode = 0 ∧ t.dev.lastObj = 0 ∧ t.dev.lastS = 0 ∧ t.dev.lastNs = 0
    ∧ t.dev.nvm = { s.dev.nvm with fatalAfterRecord := false })
  ∧ (∀ s : State, Does .chipReset s resetFlds anyReg fun t => Cleared 1 t
    ∧ (∀ off, t.rd off = if off = Reg.PWR_RESET_CAUSE then s.rd off else Reg.reset off)
    ∧ t.dev.lastCode = s.dev.lastCode ∧ t.dev.lastObj = s.dev.lastObj ∧ t.dev.lastS = s.dev.lastS ∧ t.dev.lastNs = s.dev.lastNs
    ∧ t.dev.nvm = s.dev.nvm ∧ t.mem.hbm = s.mem.hbm)
  ∧ (∀ (s : State) (rail mv : Nat), Does (.supplyResetCrossing rail mv) s resetFlds anyReg fun t => Cleared 2 t
    ∧ (∀ off, t.rd off = if off = Reg.PWR_RESET_CAUSE then bitIf (rail == 0) 0 ||| bitIf (rail == 1) 1 ||| wnat mv 27 16
        else Reg.reset off)
    ∧ t.dev.lastCode = s.dev.lastCode ∧ t.dev.nvm = s.dev.nvm)
  ∧ (∀ s : State, s.dev.lifeReset = true → Does .lifecycleResetTimer s resetFlds anyReg fun t => Cleared 1 t
    ∧ t.rd Reg.PWR_RESET_CAUSE = s.rd Reg.PWR_RESET_CAUSE ∧ t.dev.nvm = s.dev.nvm)
  ∧ (∀ s : State, s.dev.trial = true → s.mbx.fwReady = false → Does .trialTimeout s resetFlds anyReg fun t => Cleared 1 t
    ∧ t.dev.nvm = { s.dev.nvm with prefer := some (1 - s.dev.booted), trial := false }
    ∧ (t.rd Reg.DEV_BOOT_STATUS).toNat.testBit 24 = true)

/-- RESET_RELEASE of a part that is held samples MGR_SEL (R279), marks invalid images bad, and boots the image R433 names, the
preferred one if it is valid and else the other: booted and trial say which, a failed block of the control complex, fabric,
pixel front ends, pools or HBM controllers stops the boot with boot_fail set, and any other failure lets it boot; with no
valid image it enters recovery with booted 2. In recovery an image that verifies boots with booted 2. Where the spec is silent
this follows the model's choice: log entries 7 and 11. -/
def Obligations.BootFromFlash : Prop :=
  (∀ (s : State) (mgr core : Bool) (failed : List Nat), s.dev.phase = .held →
    Does (.resetRelease mgr failed core) s [.regs, .dev, .log, .logSeq, .mbx, .mem, .eng, .lane, .rat, .out] (regIn [Reg.DEV_STATUS])
      fun t => t.rat.manager = mgr ∧ t.rat.addr = (if mgr then 1 else 0)
        ∧ t.dev.aBad = !(s.dev.nvm.imageA.valid s.dev.nvm.floor) ∧ t.dev.bBad = !(s.dev.nvm.imageB.valid s.dev.nvm.floor)
        ∧ (s.dev.nvm.choose = none → t.dev.phase = .recovery ∧ t.dev.booted = 2)
        ∧ ∀ i, s.dev.nvm.choose = some i →
            t.dev.booted = i ∧ t.dev.trial = (s.dev.nvm.trial && s.dev.nvm.prefer == some i)
              ∧ t.dev.fullBist = s.fullBistDue
              ∧ t.dev.bootFail = (core || ((s.bootBlocks s.fullBistDue).filter fun b => failed.contains b).any fun b => decide (40 ≤ b))
              ∧ t.dev.phase = (if t.dev.bootFail then .failed else .booted))
  ∧ (∀ (s : State) (w : Word) (info : ImageInfo), s.dev.phase = .recovery →
      (slotOf { info with length := wfield w 24 0 }).valid s.dev.nvm.floor = true →
      Does (.devRecovery w info) s [.regs, .dev, .log, .logSeq, .mbx, .eng, .out] noReg
        fun t => t.dev.phase = .booted ∧ t.dev.booted = 2 ∧ t.dev.bootFail = false ∧ t.dev.nvm.imageA = s.dev.nvm.imageA
          ∧ t.dev.nvm.imageB = s.dev.nvm.imageB)

/-- FIRMWARE_READY of a part that has booted, whose firmware is not ready and whose restart is not held, sets fw_ready, runs
all eight cores, finds the CTRL PLL locked, ends a restart with its duration, cause and LOST words (R397, R315), lets a trial
pass (R434), and then takes the ratline messages that wait (R291). u is the state before those messages are taken. Where the
spec is silent this follows the model's choice: log entries 33 and 40. -/
def Obligations.FirmwareComesUp : Prop :=
  ∀ (s : State) (ms : Nat) (reread : Bool), s.dev.phase = .booted → s.mbx.fwReady = false → (s.ctl.restarting && s.ctl.hold) = false →
    let v : State := { s with
      mbx := { s.mbx with fwReady := true }, ctl := { s.ctl with cores := 0xFF }
      dev := { s.dev with unlocked := s.dev.unlocked.filter (· != Domain.ctrl) } }
    let u := ((if s.ctl.restarting then v.restarted ms reread else v).firstReady).settleTest
    exec (.firmwareReady ms reread) s = .next (State.drainRing 64 u)
      ∧ Touches [.regs, .dev, .log, .logSeq, .mbx, .ctl, .pmu, .rat, .out] s u
      ∧ u.mbx.fwReady = true ∧ u.ctl.cores = 0xFF ∧ u.ctl.restarting = false ∧ u.dev.readyOnce = true
      ∧ .ctrl ∉ u.dev.unlocked
      ∧ (s.ctl.restarting = true → u.ctl.lastMs = ms ∧ u.ctl.lastCause = (if reread then 4 else s.ctl.lastCause) ∧ u.mbx.cut = []
          ∧ u.mbx.closing = [])
      ∧ (s.dev.readyOnce = false → u.dev.trial = false)

/-- A fatal firmware error, and a watchdog expiry of a core, reset the control complex of a part that has booted: fw_ready
reads 0, no core runs, every thread slot and ready list is empty, sessions close, nonces and slot locks are cleared,
DEV_RESET_KIND is 3 and HAL_CTRL_RESETS counts; a watchdog counts in HAL_WDOG_EXPIRIES and records cause 1 and its core. The
words in the mailboxes, the timebase, lanes, check units, performance counters, flows, surfaces and the state of every channel
stay as they were. When a fourth reset falls within 60 s of the first of three earlier ones, unstable reads 1 and the restart
is held; RESTART_HOLD_EXPIRY ends the hold and UNSTABLE_CLEAR unstable, and change nothing else. Where the spec is silent this
follows the model's choice: log entries 33 and 34. -/
def Obligations.ControlReset : Prop :=
  let kept (n : Nat) (s t : State) : Prop :=
    t.mbx.fwReady = false ∧ t.ctl.cores = 0 ∧ t.ctl.restarting = true ∧ t.ctl.slots = [] ∧ t.ctl.running = [] ∧ t.ctl.ready = []
      ∧ t.ctl.spill = [] ∧ t.ctl.lastCause = n ∧ t.mbx.sessions = [] ∧ t.mbx.nonces = [] ∧ t.mbx.fails = [] ∧ t.mbx.locked = []
      ∧ t.mbx.held = none ∧ t.mbx.h2d = s.mbx.h2d ∧ t.mbx.d2h = s.mbx.d2h ∧ t.dev.resetKind = 3
      ∧ t.rd Reg.HAL_CTRL_RESETS = s.rd Reg.HAL_CTRL_RESETS + 1
      ∧ ∀ c, (tget t.chans c).map (fun ch => (ch.st, ch.active, ch.pics, ch.nextPic)) =
          (tget s.chans c).map (fun ch => (ch.st, ch.active, ch.pics, ch.nextPic))
  (∀ s : State, s.dev.phase = .booted →
    Does .controlComplexReset s [.regs, .dev, .mbx, .ctl, .mem, .chans, .grp, .rat, .fresh] anyReg (kept 3 s))
  ∧ (∀ (s : State) (core : Nat), s.dev.phase = .booted → core < 8 →
    Does (.watchdogExpiry core) s [.regs, .dev, .mbx, .ctl, .mem, .chans, .grp, .rat, .fresh] anyReg fun t => kept 1 s t
      ∧ t.ctl.lastCore = core ∧ t.rd Reg.HAL_WDOG_EXPIRIES = s.rd Reg.HAL_WDOG_EXPIRIES + 1)
  ∧ (∀ (s : State) (a b c : Nat), s.dev.phase = .booted → s.ctl.resets.take 3 = [a, b, c] → s.time.up ≤ c + 60000000000 →
    Does .controlComplexReset s [.regs, .dev, .mbx, .ctl, .mem, .chans, .grp, .rat, .fresh] anyReg
      fun t => t.ctl.unstable = true ∧ t.ctl.hold = true ∧ t.ctl.resets = [s.time.up, a, b, c])
  ∧ (∀ s : State, Gives .restartHoldExpiry s { s with ctl := { s.ctl with hold := false } })
  ∧ (∀ s : State, Gives .unstableClear s { s with ctl := { s.ctl with unstable := false, hold := false, resets := [] } })

/-- FUNCTION_LEVEL_RESET withdraws every waiting H2D word and counts it, clears the D2H mailboxes and queues, closes every
session without a word, clears nonces, slot locks and MSI-X, and records kind 4; the journal, the channels, the group, the
timebase and the log are kept. Where the spec is silent this follows the model's choice: log entry 35. -/
def Obligations.FunctionReset : Prop :=
  ∀ s : State, Does .functionLevelReset s [.regs, .dev, .mbx, .chk, .mem, .rat, .out, .fresh] anyReg fun t =>
    t.mbx.h2d = [] ∧ t.mbx.d2h = [] ∧ t.mbx.queue = [] ∧ t.mbx.nonces = [] ∧ t.mbx.locked = [] ∧ t.mbx.msixPend = 0
      ∧ (tsorted s.mbx.sessions = true → t.mbx.sessions = []) ∧ t.mbx.journal = s.mbx.journal ∧ t.dev.resetKind = 4
      ∧ t.dev.nvm = s.dev.nvm ∧ t.dev.state = s.dev.state ∧ t.mem.hbm = s.mem.hbm

/-- A PLL of FAB, ENC, PROOF, PIX, HBM0, HBM1, EMAC or TIME that loses lock is a fatal error: every channel stops, every
transmit queue is emptied, DEV_LAST_FATAL names PLL_UNLOCK with the domain; so is the loss of REFCLK_ETH, once, with REF as
its object, every Ethernet interface being down. The CTRL PLL resets the control complex with cause 2. The PCIe PLL takes the
link down, which acts as a function-level reset. The lane clocks of EPCS take every interface down; those of STAY and RAT fail
their ports, and so does the loss of REFCLK_LINK, which leaves media unaffected; its return lets the ports bring up. The AUDM
oscillator flags its loss. A CTRL PLL that unlocks before the control complex is booted is marked and logged (log entry 81);
the domains without a PLL have nothing to lose. Where the spec is silent this follows the model's choice: log entries 6, 40
and 81. -/
def Obligations.LossOfLock : Prop :=
  let stopped (s u : State) (d : Domain) : Prop := u.dev.fatal = true ∧ u.dev.lastCode = 0x0073 ∧ u.dev.lastObj = domainCode d
    ∧ Entered 0x0073 (domainCode d) 0 u ∧ (∀ c ch, tget u.chans c = some ch → ch.st.active = false)
    ∧ (∀ i x, tget u.tx i = some x → x.queued = [] ∧ x.ctl = [])
    ∧ (s.member = true → u.grp.role = .detached) ∧ u.mbx.sessions = s.mbx.sessions ∧ u.time = s.time
    ∧ Touches [.regs, .dev, .log, .logSeq, .mbx, .chans, .tx, .grp, .out] s u
  (∀ (s : State) (d : Domain), d ∈ stoppingDomains →
      let u := (s.unlock [d]).fatal 0x0073 (domainCode d) 0
      exec (.pllUnlock d) s = .next u.settle ∧ stopped s u d ∧ d ∈ u.dev.unlocked)
  ∧ (∀ s : State,
      let u := (s.unlock (.ctrl :: stoppingDomains)).fatal 0x0073 (domainCode .ref) 0
      let v := u.settle.ethLost
      exec .refclkEthLoss s = .next (if v.ctlRuns then v.ctlReset 2 0 else v)
        ∧ stopped s u .ref ∧ (∀ d ∈ stoppingDomains, d ∈ u.dev.unlocked) ∧ .ctrl ∈ u.dev.unlocked ∧ ∀ i < 16, (v.iface i).linkUp = false)
  ∧ (∀ s : State, s.dev.phase = .booted → ∃ t, exec (.pllUnlock .ctrl) s = .next t ∧ t.mbx.fwReady = false ∧ t.ctl.lastCause = 2
      ∧ t.ctl.restarting = true ∧ .ctrl ∈ t.dev.unlocked ∧ t.mbx.sessions = [] ∧ t.time = s.time ∧ t.lane = s.lane
      ∧ Entered 0x0073 (domainCode .ctrl) 0 t)
  ∧ (∀ s : State, s.dev.phase ≠ .booted → ∃ t, exec (.pllUnlock .ctrl) s = .next t ∧ .ctrl ∈ t.dev.unlocked
      ∧ Entered 0x0073 (domainCode .ctrl) 0 t ∧ Touches [.regs, .dev, .log, .logSeq, .mbx, .out] s t)
  ∧ (∀ s : State, ∃ t, exec (.pllUnlock .pcie) s = .next t ∧ t.mbx.h2d = [] ∧ t.mbx.d2h = [] ∧ t.mbx.journal = s.mbx.journal
      ∧ t.chans = s.chans ∧ Entered 0x0073 (domainCode .pcie) 0 t)
  ∧ (∀ s : State, ∃ t, exec (.pllUnlock .epcs) s = .next t ∧ Touches [.regs, .time, .log, .logSeq, .mbx, .pmu, .net, .tx, .txc, .grp,
        .lane, .out] s t ∧ ∀ i < 16, (t.iface i).linkUp = false)
  ∧ (∀ s : State, ∃ t, exec (.pllUnlock .stay) s = .next t ∧ (t.portOf 0).st = .failed ∧ (t.portOf 1).st = .failed
      ∧ Touches [.regs, .log, .logSeq, .mbx, .pmu, .grp, .lane, .rat, .out] s t)
  ∧ (∀ s : State, ∃ t, exec (.pllUnlock .rat) s = .next t ∧ (t.portOf 2).st = .failed ∧ (t.portOf 3).st = .failed
      ∧ Touches [.regs, .log, .logSeq, .mbx, .pmu, .grp, .lane, .rat, .out] s t)
  ∧ (∀ s : State, ∃ t, exec .audmOscUnlock s = .next t ∧ exec (.pllUnlock .audm) s = .next t ∧ t.dev = { s.dev with oscUnlocked := true }
      ∧ Entered 0x0073 (domainCode .audm) 0 t ∧ Touches [.regs, .dev, .log, .logSeq, .mbx, .out] s t
      ∧ ∀ off, off ≠ Reg.DEV_STATUS → t.rd off = s.rd off)
  ∧ (∀ (s : State) (d : Domain), d ∈ [Domain.aon, .ref, .audx, .dbg] → exec (.pllUnlock d) s = .next s)
  ∧ (∀ s : State, ∃ t, exec .refclkLinkLoss s = .next t ∧ t.dev = { s.dev with linkRefLost := true } ∧ (∀ q < 4, (t.portOf q).st = .failed)
      ∧ Touches [.regs, .dev, .log, .logSeq, .mbx, .pmu, .grp, .lane, .rat, .out] s t)
  ∧ (∀ s : State, ∃ t, exec .refclkLinkReturn s = .next t ∧ t.dev = { s.dev with linkRefLost := false }
      ∧ (∀ q < 4, (t.portOf q).st ≠ .failed) ∧ Touches [.dev, .lane] s t)

/-- SERVO_OFFSET with a stale tag changes nothing (R211). With the tag in force, an offset within the threshold updates I,
corr and the increment, clears the pending step with its acceptance, and moves the state as R213 has it; one beyond it is
refused: it becomes the pending step, the state is STEP_HELD, I, corr, the increment and the clock stay, it counts and raises
TIME_STEP_REFUSED; with auto_step and no channel active the clock is stepped by -o at once. STEP_APPLY steps it by the pending
step. A step keeps I, drops corr, enters ACQUIRING, counts and raises TIME_STEP_APPLIED. SERVO_CORR_EXPIRY lets y fall back to
I, OFFSET_TIMEOUT enters holdover from ACQUIRING and LOCKED only. Where the spec is silent this follows the model's choice:
log entries 17 and 74. -/
def Obligations.Servo : Prop :=
  let total (t : State) : Int := (((t.time.sec * 1000000000 + t.time.ns) * 65536 + t.time.frac / 2 ^ 24 : Nat) : Int)
  let stepped (o : Int) (s t : State) : Prop :=
    t.time.tag = s.time.tag + 1 ∧ t.time.st = .acquiring ∧ t.time.i = s.time.i ∧ t.time.corr = 0
      ∧ t.time.incr = incrementOf s.time.i ∧ t.time.pend = none ∧ t.time.accept = none
      ∧ total t = (total s - o) % ((2 ^ 48 * 1000000000 * 65536 : Nat) : Int)
      ∧ t.rd Reg.TIME_STEPS = s.rd Reg.TIME_STEPS + 1 ∧ Entered 0x0041 0xFF (detailNs (-o)) t
  let L : List Fld := [.regs, .time, .chans, .log, .logSeq, .mbx, .out]
  let R := regIn [Reg.TIME_STEPS, Reg.TIME_STATUS, Reg.DEV_STATUS]
  (∀ (s : State) (o : Int) (tag : Nat) (l : Int), tag ≠ s.time.tag → Gives (.servoOffset o tag l) s s)
  ∧ (∀ (s : State) (o l : Int), s.ctl.restarting = false → o.natAbs ≤ s.time.thresh * 65536 →
      Does (.servoOffset o s.time.tag l) s [.time] noReg fun t =>
        t.time.i = clampI (s.time.i - s.time.ki * o) (-(500000 * 2 ^ 32)) (500000 * 2 ^ 32)
          ∧ t.time.corr = clampI (-(s.time.kp * o)) (-((s.time.slew : Int) * 2 ^ 32)) ((s.time.slew : Int) * 2 ^ 32)
          ∧ t.time.incr = incrementOf (t.time.i + t.time.corr) ∧ t.time.pend = none ∧ t.time.accept = none
          ∧ t.time.offsetLast = o ∧ total t = total s ∧ t.time.frac = s.time.frac
          ∧ (s.time.st = .freeRun → t.time.st = .freeRun)
          ∧ (s.time.st = .holdover ∨ s.time.st = .stepHeld → t.time.st = .acquiring)
          ∧ (s.time.st = .acquiring → t.time.st =
              (if o.natAbs ≤ 1000 * 65536 ∧ 7 ≤ s.time.goodRun then .locked else .acquiring))
          ∧ (s.time.st = .locked → t.time.st =
              (if 1000 * 65536 < o.natAbs ∧ 3 ≤ s.time.badRun then .acquiring else .locked)))
  ∧ (∀ (s : State) (o l : Int), s.ctl.restarting = false → s.time.thresh * 65536 < o.natAbs →
      (s.time.autoStep && s.noneActive) = false →
      Does (.servoOffset o s.time.tag l) s [.regs, .time, .log, .logSeq, .mbx, .out]
        (regIn [Reg.TIME_REFUSALS, Reg.TIME_STATUS, Reg.DEV_STATUS]) fun t =>
          t.time.pend = some o ∧ t.time.accept = s.time.accept ∧ t.time.st = .stepHeld ∧ t.time.i = s.time.i ∧ t.time.corr = s.time.corr
            ∧ t.time.incr = s.time.incr ∧ total t = total s ∧ t.rd Reg.TIME_REFUSALS = s.rd Reg.TIME_REFUSALS + 1
            ∧ Entered 0x0040 0xFF (detailNs o) t)
  ∧ (∀ (s : State) (o l : Int), s.ctl.restarting = false → s.time.thresh * 65536 < o.natAbs → s.time.autoStep = true →
      s.noneActive = true → Does (.servoOffset o s.time.tag l) s L R (stepped o s))
  ∧ (∀ (s : State) (o : Int) (a : Nat), s.time.pend = some o → s.time.accept = some a → Does .stepApply s L R (stepped o s))
  ∧ (∀ s : State, Gives .servoCorrExpiry s { s with time := { s.time with corr := 0, incr := incrementOf s.time.i } })
  ∧ (∀ s : State, s.time.st = .acquiring ∨ s.time.st = .locked → Does .offsetTimeout s [.regs, .time] (regIn [Reg.TIME_STATUS]) fun t =>
      t.time = { s.time with st := .holdover, corr := 0, goodRun := 0, badRun := 0, incr := incrementOf s.time.i })
  ∧ (∀ s : State, s.time.st ≠ .acquiring → s.time.st ≠ .locked → Gives .offsetTimeout s s)

/-- While firmware runs and PTP is configured: a Sync gives the port its offset at once or, two-step, is kept for the
Follow_Up with its sequenceId; a Sync on the other port makes a failover that is due, which counts and leaves the servo state.
An Announce gives the port a master and its address, and the active port follows the best master, unchanged on a tie, and
gives the UTC offset; a new grandmaster identity, by an Announce or a failover, counts and raises TIME_GM_CHANGE.
DELAY_REQ_TIMER gives a Delay_Req with the next sequenceId to queue 0 of the interface of the active port, where it is
discarded and counted while the link is down or there is no MAC address; its response sets the path delay from the instant at
which it was sent. Each message is taken from those the flow table passed to firmware. ANNOUNCE_TIMEOUT takes the master of
its port. Where the spec is silent this follows the model's choice: log entries 7, 72 and 99. -/
def Obligations.PtpExchange : Prop :=
  let taken (s t : State) : Prop := t.net = { s.net with toPtp := s.net.toPtp.drop 1 }
  let master (s t : State) : Prop := ∀ g, (t.time.port t.time.active).master = some g → t.time.gm = g
    ∧ (if s.time.gm ≠ 0 ∧ g ≠ s.time.gm then t.rd Reg.TIME_GM_CHANGES = s.rd Reg.TIME_GM_CHANGES + 1 ∧ Entered 0x0042 0xFF g.toNat t
       else t.rd Reg.TIME_GM_CHANGES = s.rd Reg.TIME_GM_CHANGES ∧ t.log = s.log ∧ t.logSeq = s.logSeq ∧ t.mbx = s.mbx ∧ t.out = s.out)
  let F : List Fld := [.regs, .time, .net, .log, .logSeq, .mbx, .out]
  (∀ (s : State) (p : Nat) (m : SyncMsg), s.ctl.restarting = false → s.time.cfg.isSome = true → p ≤ 1 →
    Does (.ptpSync p m) s F (regIn [Reg.TIME_FAILOVERS, Reg.TIME_GM_CHANGES, Reg.TIME_STATUS, Reg.DEV_STATUS]) fun t =>
      let d := m.ingress - m.origin - s.time.asym p
      taken s t ∧ t.time.port (1 - p) = s.time.port (1 - p) ∧ t.time.st = s.time.st ∧ t.time.i = s.time.i
        ∧ (m.twoStep = true → t.time.port p = { s.time.port p with sync := some m })
        ∧ (m.twoStep = false → t.time.port p = { s.time.port p with
            sync := none, syncDelta := d, offset := some (d - (s.time.port p).pathDelay, m.tag, m.logSync) })
        ∧ (if s.time.failoverDue = true ∧ p ≠ s.time.active ∧ (s.time.port p).master.isSome = true then
            t.time.active = p ∧ t.time.failoverDue = false ∧ t.rd Reg.TIME_FAILOVERS = s.rd Reg.TIME_FAILOVERS + 1 ∧ master s t
          else t.time.active = s.time.active ∧ t.time.failoverDue = s.time.failoverDue ∧ t.time.gm = s.time.gm ∧ t.regs = s.regs
            ∧ t.log = s.log ∧ t.logSeq = s.logSeq ∧ t.mbx = s.mbx ∧ t.out = s.out))
  ∧ (∀ (s : State) (p : Nat) (m : FollowUpMsg) (y : SyncMsg), s.ctl.restarting = false → p ≤ 1 → (s.time.port p).sync = some y →
      y.seqId = m.seqId →
    Does (.ptpFollowUp p m) s [.time, .net] noReg fun t =>
      let d := y.ingress - m.origin - s.time.asym p
      taken s t ∧ t.time.port (1 - p) = s.time.port (1 - p) ∧ t.time.active = s.time.active
        ∧ t.time.port p = { s.time.port p with
            sync := none, syncDelta := d, offset := some (d - (s.time.port p).pathDelay, y.tag, y.logSync) })
  ∧ (∀ (s : State) (p : Nat) (m : AnnounceMsg), s.ctl.restarting = false → s.time.cfg.isSome = true → p ≤ 1 →
    Does (.ptpAnnounce p m) s F (regIn [Reg.TIME_GM_CHANGES, Reg.TIME_STATUS, Reg.DEV_STATUS])
      fun t =>
        taken s t ∧ t.time.port p = { s.time.port p with master := some m.gm, addr := m.src } ∧ t.time.port (1 - p) = s.time.port (1 - p) ∧ t.time.st = s.time.st
          ∧ (m.best = none → (s.time.port s.time.active).master.isSome = true → t.time.active = s.time.active)
          ∧ (∀ b, m.best = some b → b < 2 → s.time.failoverDue = false → (t.time.port b).master.isSome = true → t.time.active = b)
          ∧ (t.time.active = p → t.time.utc = m.utc ∧ t.time.utcValid = m.utcValid)
          ∧ (t.time.active ≠ p → t.time.utc = s.time.utc ∧ t.time.utcValid = s.time.utcValid) ∧ master s t)
  ∧ (∀ (s : State) (c : TimeConfigArg), s.ctl.restarting = false → s.time.cfg = some c →
      (s.time.port s.time.active).master.isSome = true → s.dev.fatal = false →
      let a := s.time.active
      let i := portIfOf c a
      let x : CtlReply := .delayReq a s.time.delaySeq (s.delayReqDst c a) c.vid
      ((s.iface i).linkUp = true → (s.iface i).mac.isSome = true → x.frame ≤ (s.txIf i).maxF 0 →
        Does .delayReqTimer s [.time, .tx] noReg fun t => t.time = { s.time with delaySeq := (s.time.delaySeq + 1) % 65536 }
          ∧ (t.txIf i).ctl = (s.txIf i).ctl ++ [⟨0, x.frame, x⟩] ∧ ∀ j, j ≠ i → t.txIf j = s.txIf j)
      ∧ ((s.iface i).linkUp = false ∨ (s.iface i).mac = none →
        Does .delayReqTimer s [.time, .regs] (regIn [Reg.NET_TX_LINK_DROPS i, Reg.NET_TX_STATUS i]) fun t =>
          t.time = { s.time with delaySeq := (s.time.delaySeq + 1) % 65536 }
            ∧ t.rd (Reg.NET_TX_LINK_DROPS i) = s.rd (Reg.NET_TX_LINK_DROPS i) + 1))
  ∧ (∀ (s : State) (p : Nat) (m : DelayRespMsg) (t3 : Int), s.ctl.restarting = false → p ≤ 1 →
      (s.time.port p).delayReq = some (m.seqId, t3) →
    Does (.ptpDelayResp p m) s [.time, .net] noReg fun t => taken s t ∧ t.time.port (1 - p) = s.time.port (1 - p)
      ∧ t.time.port p = { s.time.port p with delayReq := none, pathDelay := halfOf ((s.time.port p).syncDelta + m.receive - t3) })
  ∧ (∀ (s : State) (p : Nat), s.ctl.restarting = false → s.time.cfg.isSome = true → p < 2 →
    Does (.announceTimeout p) s [.regs, .time] (regIn [Reg.TIME_STATUS]) fun t => (t.time.port p).master = none
      ∧ t.time.port (1 - p) = s.time.port (1 - p) ∧ t.time.active = s.time.active
      ∧ (p = s.time.active → (s.time.port (1 - p)).master.isSome = true → t.time.failoverDue = true ∧ t.time.st = s.time.st)
      ∧ (p = s.time.active → (s.time.port (1 - p)).master = none → s.time.st = .acquiring ∨ s.time.st = .locked →
          t.time.st = .holdover))

/-- At a whole second the PPS output rises, in mode locked only while LOCKED; it falls after its width; an edge on the input
is timestamped and counted (R220). The hour counter of the flash, 4 bytes, advances (R437). -/
def Obligations.Pulses : Prop :=
  (∀ s : State, Gives .ppsOutPulse s { s with time := { s.time with ppsOut := s.time.ppsAlways || s.time.st == .locked } })
  ∧ (∀ s : State, Gives .ppsOutFall s { s with time := { s.time with ppsOut := false } })
  ∧ (∀ s : State, Does .ppsInEdge s [.regs] (regIn [Reg.TIME_PPS_IN_NS, Reg.TIME_PPS_IN_S, Reg.TIME_PPS_IN_COUNT]) fun t =>
      t.rd Reg.TIME_PPS_IN_NS = BitVec.ofNat 32 s.time.ns ∧ t.rd Reg.TIME_PPS_IN_S = BitVec.ofNat 32 s.time.sec
        ∧ t.rd Reg.TIME_PPS_IN_COUNT = s.rd Reg.TIME_PPS_IN_COUNT + 1)
  ∧ (∀ s : State, Gives .hourCounterTick s
      { s with dev := { s.dev with nvm := { s.dev.nvm with hours := (s.dev.nvm.hours + 1) % 2 ^ 32 } } })

/-- A read of a register that clears on a read answers with its word and clears it, and changes no other; TIME_NOW_NS latches
seconds and fraction of the same cycle, CHN_AU_COUNT_LO and PMU_CNT_LO their high words, PMU_SAMPLE_PC takes the oldest sample
with its info, LANE_FOM clears fom_min and valid. In D3hot it is an Unsupported Request (R295). A read of a domain whose PLL
has lost lock completes with all ones and counts (R22); beyond the array of registers it reads 0 (R5). Where the spec is
silent this follows the model's choice: log entries 9 and 79. -/
def Obligations.ReadsThatAct : Prop :=
  let turnedAway (i : Instr) (off : Nat) (s : State) : Prop :=
    (s.mbx.pci.d3hot = true → exec i s = .next (s.unsupported.emit .unsupported))
      ∧ (s.mbx.pci.d3hot = false → s.dev.down (regDomain off) = true → exec i s = .next (s.badAccess.emit (.readData 0xFFFFFFFF)))
  let cleared (off : Nat) (s t : State) : Prop := Touches [.regs, .out] s t ∧ t.out = .readData (s.rd off) :: s.out ∧ t.rd off = 0
    ∧ ∀ o, o ≠ off → t.rd o = s.rd o
  ∀ s : State,
    (∀ e, (e < 16 → turnedAway (.engPeakLoadRead e) (Reg.ENG_PEAK_LOAD e) s ∧ (s.reaches (Reg.ENG_PEAK_LOAD e) = true →
        ∃ t, exec (.engPeakLoadRead e) s = .next t ∧ cleared (Reg.ENG_PEAK_LOAD e) s t))
      ∧ (16 ≤ e → s.mbx.pci.d3hot = false → exec (.engPeakLoadRead e) s = .next (s.emit (.readData 0))))
    ∧ (∀ c, (c < 64 → turnedAway (.rcHeadroomMinRead c) (Reg.RC_HEADROOM_MIN c) s ∧ (s.reaches (Reg.RC_HEADROOM_MIN c) = true →
        ∃ t, exec (.rcHeadroomMinRead c) s = .next t ∧ cleared (Reg.RC_HEADROOM_MIN c) s t))
      ∧ (64 ≤ c → s.mbx.pci.d3hot = false → exec (.rcHeadroomMinRead c) s = .next (s.emit (.readData 0))))
    ∧ (∀ c, (c < 64 → turnedAway (.lyrFlipResultRead c) (Reg.LYR_FLIP_RESULT c) s ∧ (s.reaches (Reg.LYR_FLIP_RESULT c) = true →
        ∃ t, exec (.lyrFlipResultRead c) s = .next t ∧ cleared (Reg.LYR_FLIP_RESULT c) s t))
      ∧ (64 ≤ c → s.mbx.pci.d3hot = false → exec (.lyrFlipResultRead c) s = .next (s.emit (.readData 0))))
    ∧ (∀ e, (e < 16 → turnedAway (.extMarginMinRead e) (Reg.EXT_MARGIN_MIN e) s ∧ (s.reaches (Reg.EXT_MARGIN_MIN e) = true →
        ∃ t, exec (.extMarginMinRead e) s = .next t ∧ cleared (Reg.EXT_MARGIN_MIN e) s t))
      ∧ (16 ≤ e → s.mbx.pci.d3hot = false → exec (.extMarginMinRead e) s = .next (s.emit (.readData 0))))
    ∧ (∀ m, (m < 208 → turnedAway (.netMergeSkewRead m) (Reg.NET_MERGE_SKEW m) s ∧ (s.reaches (Reg.NET_MERGE_SKEW m) = true →
        ∃ t, exec (.netMergeSkewRead m) s = .next t ∧ cleared (Reg.NET_MERGE_SKEW m) s t))
      ∧ (208 ≤ m → s.mbx.pci.d3hot = false → exec (.netMergeSkewRead m) s = .next (s.emit (.readData 0))))
    ∧ (∀ i, (i < 64 → turnedAway (.egrLateMaxRead i) (Reg.EGR_LATE_MAX i) s ∧ (s.reaches (Reg.EGR_LATE_MAX i) = true →
        ∃ t, exec (.egrLateMaxRead i) s = .next t ∧ cleared (Reg.EGR_LATE_MAX i) s t))
      ∧ (64 ≤ i → s.mbx.pci.d3hot = false → exec (.egrLateMaxRead i) s = .next (s.emit (.readData 0))))
    ∧ turnedAway .halDispatchMaxRead Reg.HAL_DISPATCH_MAX s
    ∧ (s.reaches Reg.HAL_DISPATCH_MAX = true → ∃ t, exec .halDispatchMaxRead s = .next t ∧ cleared Reg.HAL_DISPATCH_MAX s t)
    ∧ (∀ l, l < 26 → turnedAway (.laneFomRead l) (Reg.LANE_FOM l) s ∧ (s.reaches (Reg.LANE_FOM l) = true →
        ∃ t, exec (.laneFomRead l) s = .next t ∧ Touches [.lane, .out] s t
          ∧ t.out = .readData (wnat (s.laneOf l).fom 7 0 ||| wnat (s.laneOf l).fomMin 15 8 ||| bitIf (s.laneOf l).fomValid 16) :: s.out
          ∧ t.laneOf l = { s.laneOf l with fomMin := 0, fomValid := false } ∧ (∀ k, k ≠ l → t.laneOf k = s.laneOf k)
          ∧ t.lane.ports = s.lane.ports))
    ∧ (∀ l, 26 ≤ l → s.mbx.pci.d3hot = false → exec (.laneFomRead l) s = .next (s.emit (.readData 0)))
    ∧ turnedAway .timeNowNsRead Reg.TIME_NOW_NS s
    ∧ (s.reaches Reg.TIME_NOW_NS = true → ∃ t, exec .timeNowNsRead s = .next t ∧ Touches [.time, .out] s t
        ∧ t.out = .readData (BitVec.ofNat 32 s.time.ns) :: s.out
        ∧ t.time = { s.time with latchS := s.time.sec, latchF := s.time.frac / 2 ^ 24 })
    ∧ (∀ c, turnedAway (.chnAuCountLoRead c) (Reg.CHN_AU_COUNT_LO 0) s)
    ∧ (∀ c ch, tget s.chans c = some ch → s.reaches (Reg.CHN_AU_COUNT_LO 0) = true →
        ∃ t, exec (.chnAuCountLoRead c) s = .next t ∧ Touches [.regs, .out] s t ∧ t.out = .readData (BitVec.ofNat 32 ch.auCount) :: s.out
          ∧ t.rd (Reg.CHN_AU_COUNT_HI c) = BitVec.ofNat 32 (ch.auCount / 2 ^ 32)
          ∧ ∀ o, o ≠ Reg.CHN_AU_COUNT_HI c → t.rd o = s.rd o)
    ∧ (∀ c, tget s.chans c = none → s.reaches (Reg.CHN_AU_COUNT_LO 0) = true → s.mbx.pci.d3hot = false → exec (.chnAuCountLoRead c) s = .next (s.emit (.readData 0)))
    ∧ (∀ i, i < 256 → turnedAway (.pmuCntLoRead i) (Reg.PMU_CNT_LO i) s ∧ (s.reaches (Reg.PMU_CNT_LO i) = true →
        ∃ t, exec (.pmuCntLoRead i) s = .next t ∧ Touches [.regs, .out] s t
          ∧ t.out = .readData (BitVec.ofNat 32 (tgetD s.pmu.cnt i 0)) :: s.out
          ∧ t.rd (Reg.PMU_CNT_HI i) = wnat (tgetD s.pmu.cnt i 0 / 2 ^ 32) 15 0 ∧ ∀ o, o ≠ Reg.PMU_CNT_HI i → t.rd o = s.rd o))
    ∧ (∀ i, 256 ≤ i → s.mbx.pci.d3hot = false → exec (.pmuCntLoRead i) s = .next (s.emit (.readData 0)))
    ∧ turnedAway .pmuSamplePcRead Reg.PMU_SAMPLE_PC s
    ∧ (s.reaches Reg.PMU_SAMPLE_PC = true → s.pmu.fifo = [] → ∃ t, exec .pmuSamplePcRead s = .next t ∧ Touches [.regs, .out] s t
        ∧ t.out = .readData 0 :: s.out ∧ t.rd Reg.PMU_SAMPLE_INFO = 0 ∧ ∀ o, o ≠ Reg.PMU_SAMPLE_INFO → t.rd o = s.rd o)
    ∧ (∀ x rest, s.pmu.fifo = x :: rest → s.reaches Reg.PMU_SAMPLE_PC = true →
        ∃ t, exec .pmuSamplePcRead s = .next t ∧ Touches [.regs, .pmu, .out] s t ∧ t.out = .readData x.pc :: s.out
          ∧ t.pmu = { s.pmu with fifo := rest, lost := false }
          ∧ t.rd Reg.PMU_SAMPLE_INFO = (wnat x.core 2 0 ||| wnat x.thread 11 3 ||| wnat x.counter 19 12
              ||| bitIf s.pmu.lost 30 ||| bit1 31) ∧ ∀ o, o ≠ Reg.PMU_SAMPLE_INFO → t.rd o = s.rd o)

/-- REGISTER_WRITE of an aligned word to a register of the map whose write does not act by itself stores the RW bits, clears
the W1C bits written 1 and leaves the rest (R6), where the domain is locked; to a reserved offset it changes nothing;
misaligned, beyond BAR0, to a read-only block or to a block whose clock is lost it is a bad access, which counts and sets
bad_access. A 64-bit write is two writes, the lower offset first (each half counts, log entry 80). A write that has a row of
its own does what the row does. In D3hot every access to BAR0 is an Unsupported Request (R295, log entry 79), and the
configuration write sets Bus Master Enable, the power state and the AER bits. Of BAR0_BAD_ACCESS, an aligned read of 32 bits
answers with what the map holds or is the read row of its register, one of 64 bits is two of them, lower offset first, every
other read is aborted; an aligned write is REGISTER_WRITE, every other is a bad access. A window access within a block reads
or writes its octets, and one that crosses the boundary is refused (R297). Where the spec is silent this follows the model's
choice: log entries 9, 76, 79, 80, 113 and 114. -/
def Obligations.RegisterWrites : Prop :=
  let plain (off : Nat) : Prop := off / 0x100000 = 2 ∨ off / 0x100000 = 3 ∨ off / 0x100000 = 4 ∨ off / 0x100000 = 7
    ∨ off / 0x100000 = 8 ∨ off / 0x100000 = 9 ∨ off / 0x100000 = 10 ∨ off / 0x100000 = 13
  let write (off : Nat) (w : Word) : Instr := .registerWrite (.bar0 off) w none
  let bad (i : Instr) (s : State) : Prop := s.mbx.pci.d3hot = false →
    Does i s [.regs] (regIn [Reg.DEV_BAD_ACCESS, Reg.DEV_STATUS]) fun t =>
      t.rd Reg.DEV_BAD_ACCESS = s.rd Reg.DEV_BAD_ACCESS + 1 ∧ t.rd Reg.DEV_STATUS = (s.rd Reg.DEV_STATUS ||| 0x200)
  (∀ (s : State) (off : Nat) (w : Word), off % 4 = 0 → plain off → s.reaches off = true →
    (∀ r, regRow? off = some r → Does (write off w) s [.regs] (regIn [off]) fun t =>
      t.rd off = ((s.rd off &&& ~~~r.rw &&& ~~~(r.w1c &&& w)) ||| (w &&& r.rw)))
    ∧ (regRow? off = none → Gives (write off w) s s))
  ∧ (∀ (s : State) (off : Nat) (w : Word), off % 4 = 0 → plain off → s.dev.down (regDomain off) = true → bad (write off w) s)
  ∧ (∀ (s : State) (off : Nat) (w : Word), off % 4 ≠ 0 ∨ 0x4000000 ≤ off ∨ off / 0x100000 = 14 ∨ off / 0x100000 = 16
      ∨ off / 0x100000 = 17 → bad (write off w) s)
  ∧ (∀ (s t : State) (off : Nat) (lo hi : Word), off % 8 = 0 → off < 0x4000000 → s.mbx.pci.d3hot = false → Gives (write off lo) s t →
      exec (.registerWrite (.bar0 off) lo (some hi)) s = exec (write (off + 4) hi) t)
  ∧ (∀ (s : State) (off : Nat) (lo hi : Word), off % 8 ≠ 0 ∨ 0x4000000 ≤ off → bad (.registerWrite (.bar0 off) lo (some hi)) s)
  ∧ (∀ (s : State) (off : Nat) (lo : Word) (hi : Option Word), s.mbx.pci.d3hot = true →
      Gives (.registerWrite (.bar0 off) lo hi) s s.unsupported)
  ∧ (∀ (s : State) (w : Word),
      (∀ p, p < 9 → exec (write (0x100000 + 0x40 * p) w) s = exec (.mbxH2dWrite p w) s)
      ∧ exec (write Reg.LYR_FENCE_SIGNAL w) s = exec (.lyrFenceSignal w) s
      ∧ exec (write Reg.LYR_FENCE_RESET w) s = exec (.lyrFenceReset w) s
      ∧ (∀ c, c < 64 → exec (write (0x501000 + 0x40 * c) w) s = exec (.lyrCurPos c w) s
          ∧ exec (write (0x50100C + 0x40 * c) w) s = exec (.lyrCurQueue c w) s)
      ∧ (∀ p d, p < 8 → d < 2 → wbit w 0 = true → exec (write (0x60000C + 0x80 * (2 * p + d)) w) s = exec (.audSlotCommit p d) s)
      ∧ (∀ u, u = 2 ∨ u = 3 ∨ u = 7 → exec (write (Reg.CHK_PRESET u) w) s = exec (.chkPreset u w) s
          ∧ (w = 1 → exec (write (Reg.CHK_CONTROL u) w) s = exec (.chkInit u) s)
          ∧ (w = 2 → exec (write (Reg.CHK_CONTROL u) w) s = exec (.chkFinish u) s)
          ∧ (w = 4 → exec (write (Reg.CHK_CONTROL u) w) s = exec (.chkStart u) s)
          ∧ (w = 8 → exec (write (Reg.CHK_CONTROL u) w) s = exec (.chkAbort u) s))
      ∧ (∀ u, u = 2 ∨ u = 3 → exec (write (Reg.CHK_FEED8 u) w) s = exec (.chkFeed8 u w) s
          ∧ exec (write (Reg.CHK_FEED16 u) w) s = exec (.chkFeed16 u w) s
          ∧ exec (write (Reg.CHK_FEED32 u) w) s = exec (.chkFeed32 u w none) s)
      ∧ (∀ i, i < 256 → exec (write (Reg.PMU_CNT_CFG i) w) s = exec (.pmuCounterEnable i w) s)
      ∧ (∀ h, h < 16 → exec (write (Reg.PMU_HIST_CFG h) w) s = exec (.pmuHistClear h w) s)
      ∧ exec (write Reg.PMU_DUMP_SIZE w) s = exec (.pmuDumpConfigWrite Reg.PMU_DUMP_SIZE w) s
      ∧ (wfield w 1 0 = 1 → exec (write Reg.BIST_PROV_COMMIT w) s = exec .bistOtpBurn s)
      ∧ (wfield w 1 0 = 2 → exec (write Reg.BIST_PROV_COMMIT w) s = exec .bistKeySlotWrite s))
  ∧ (∀ (s : State) (c : PciConfig) (lo : Word) (hi : Option Word), Does (.registerWrite (.config c) lo hi) s [.mbx, .out] noReg fun t =>
      t.mbx.pci = { bme := c.bme, d3hot := c.d3hot, urMask := c.urMask, urFatal := c.urFatal, urReport := c.urReport,
                    urStatus := s.mbx.pci.urStatus && !c.urClear }
        ∧ t.mbx.win = s.mbx.win ∧ t.mbx.h2d = s.mbx.h2d ∧ t.mbx.sessions = s.mbx.sessions
        ∧ (c.bme = false ∨ c.d3hot = true → t.out = s.out ∧ t.mbx.msixPend = s.mbx.msixPend))
  ∧ (∀ (s : State) (off : Nat), off % 4 = 0 → off < 0x4000000 → readAct off = none →
      Reads (.bar0BadAccess (.read off 4)) off s [] noReg (s.readBlock off) fun _ => True)
  ∧ (∀ s : State, exec (.bar0BadAccess (.read Reg.TIME_NOW_NS 4)) s = exec .timeNowNsRead s
      ∧ exec (.bar0BadAccess (.read Reg.PMU_SAMPLE_PC 4)) s = exec .pmuSamplePcRead s
      ∧ (∀ p, p < 9 → exec (.bar0BadAccess (.read (Reg.MBX_D2H p) 4)) s = exec (.mbxD2hRead p) s)
      ∧ (∀ c, c < 64 → exec (.bar0BadAccess (.read (Reg.CHN_AU_COUNT_LO c) 4)) s = exec (.chnAuCountLoRead c) s)
      ∧ (∀ l, l < 26 → exec (.bar0BadAccess (.read (Reg.LANE_FOM l) 4)) s = exec (.laneFomRead l) s))
  ∧ (∀ (s t : State) (off : Nat), off % 8 = 0 → off < 0x4000000 → s.mbx.pci.d3hot = false →
      Gives (.bar0BadAccess (.read off 4)) s t →
      exec (.bar0BadAccess (.read off 8)) s = exec (.bar0BadAccess (.read (off + 4) 4)) t)
  ∧ (∀ (s : State) (off len : Nat), ¬ (len = 4 ∧ off % 4 = 0) → ¬ (len = 8 ∧ off % 8 = 0) ∨ 0x4000000 ≤ off →
      Gives (.bar0BadAccess (.read off len)) s (if s.mbx.pci.d3hot = true then s.unsupported.emit .unsupported else s.emit .abort))
  ∧ (∀ (s : State) (off : Nat) (d : List Byte),
      (d.length = 4 → exec (.bar0BadAccess (.write off d)) s = exec (write off (w32 (leNat d))) s)
      ∧ (d.length = 8 → exec (.bar0BadAccess (.write off d)) s
          = exec (.registerWrite (.bar0 off) (w32 (leNat (d.take 4))) (some (w32 (leNat (d.drop 4))))) s)
      ∧ (d.length ≠ 4 → d.length ≠ 8 → bad (.bar0BadAccess (.write off d)) s))
  ∧ (∀ (s : State) (off : Nat) (d : List Byte), s.mbx.pci.d3hot = false → off < 0x12000 →
      (inBlock off d.length = true → Does (.bar0BadAccess (.winWrite off d)) s [.mbx] noReg fun t =>
          t.window (off / 256) = ((s.window (off / 256)).take (off % 256) ++ d ++ (s.window (off / 256)).drop (off % 256 + d.length))
            ∨ s.mbx.lost.contains (off / 256) = true)
      ∧ (inBlock off d.length = true → Gives (.bar0BadAccess (.winRead off d.length)) s
          (s.emit (.windowData (((s.window (off / 256)).drop (off % 256)).take d.length))))
      ∧ (inBlock off d.length = false → bad (.bar0BadAccess (.winWrite off d)) s
          ∧ Gives (.bar0BadAccess (.winRead off d.length)) s (s.emit .abort)))

/-- In MANUFACTURE and SERVICE a write of BIST_RUN with start, no channel being defined, leaves pass or fail of the block it
names and marks a failed one; a second burn of an OTP word sets prov_err, the first burns it with the data register; a
key-slot write sets slot 0 with its roles, roles of 0 empty it. In the other states every write is a bad access, in D3hot an
Unsupported Request. Where the spec is silent this follows the model's choice: log entries 41 and 79. -/
def Obligations.BistRows : Prop :=
  (∀ (s : State) (w : Word) (pass : Bool), s.mbx.pci.d3hot = false → s.bistOpen = true → s.chans = [] → wbit w 8 = true →
    Does (.bistRunStart w pass) s [.regs, .dev, .eng] (regIn [Reg.BIST_RUN]) fun t =>
      t.dev = { s.dev with bistPass := pass, bistFail := !pass }
        ∧ t.eng = (if pass then s.eng else s.eng.markBlock (wfield w 5 0))
        ∧ t.rd Reg.BIST_RUN = ((w &&& 0x3F) ||| (s.rd Reg.BIST_RUN &&& 0x1000 &&& ~~~w)))
  ∧ (∀ s : State, s.mbx.pci.d3hot = false → s.bistOpen = true → (s.rd Reg.BIST_PROV_INDEX).toNat ≤ 13 →
      (thas s.dev.nvm.words (s.rd Reg.BIST_PROV_INDEX).toNat = false → Gives .bistOtpBurn s { s with dev := { s.dev with
        nvm := { s.dev.nvm with words := tset s.dev.nvm.words (s.rd Reg.BIST_PROV_INDEX).toNat (s.rd Reg.BIST_PROV_DATA) } } })
      ∧ (thas s.dev.nvm.words (s.rd Reg.BIST_PROV_INDEX).toNat = true →
          Does .bistOtpBurn s [.regs] (regIn [Reg.BIST_RUN]) fun t => t.rd Reg.BIST_RUN = (s.rd Reg.BIST_RUN ||| 0x1000)))
  ∧ (∀ s : State, s.mbx.pci.d3hot = false → s.bistOpen = true → Does .bistKeySlotWrite s [.dev] noReg fun t =>
      tget t.dev.nvm.keys 0 = (if wfield (tgetD s.dev.keyWords 8 0) 4 0 = 0 then none
        else some (s.dev.keyOfWords, wfield (tgetD s.dev.keyWords 8 0) 4 0))
      ∧ (∀ k, k ≠ 0 → tget t.dev.nvm.keys k = tget s.dev.nvm.keys k) ∧ t.dev.nvm.words = s.dev.nvm.words)
  ∧ (∀ (s : State) (w : Word) (pass : Bool), s.bistOpen = false →
      Gives (.bistRunStart w pass) s (s.inD0 s.badAccess) ∧ Gives .bistOtpBurn s (s.inD0 s.badAccess)
        ∧ Gives .bistKeySlotWrite s (s.inD0 s.badAccess)
        ∧ s.badAccess.rd Reg.DEV_BAD_ACCESS = s.rd Reg.DEV_BAD_ACCESS + 1)

/-- On a granted unit: a preset of Table 19-5 loads width, polynomial, initial value, reflection and final XOR and keeps the
mode, another code sets cfg_err; init latches the configuration, unless it is bad, which sets cfg_err; feeds add 1, 2, 4 or 8
bytes, the lowest first, to a computation that has not finished, and the value covers every byte; finish ends it, in check
mode comparing the trailing bytes. A unit that is not granted counts a bad access. Where the spec is silent this follows the
model's choice: log entries 59 and 79. -/
def Obligations.CheckUnits : Prop :=
  let free (s : State) (u : Nat) : Prop := (s.chkOf u).granted = true ∧ s.reaches (Reg.CHK_CONFIG u) = true
  let fed (s : State) (u : Nat) (b : List Byte) (i : Instr) : Prop := ∀ c, (s.chkOf u).latched = some c → (s.chkOf u).done = false →
    Does i s [.chk] noReg fun t => t.chkOf u = { s.chkOf u with
      bytes := (s.chkOf u).bytes ++ b, value := c.value ((s.chkOf u).bytes ++ b), length := (s.chkOf u).length + b.length }
  (∀ (s : State) (u n p i x : Nat) (r : Bool) (w : Word), u = 2 ∨ u = 3 ∨ u = 7 → free s u → chkPreset (wfield w 3 0) = some (n, p, i, r, x) →
    Does (.chkPreset u w) s [.regs] (regIn [Reg.CHK_CONFIG u, Reg.CHK_POLY_LO u, Reg.CHK_POLY_HI u, Reg.CHK_INIT_LO u,
        Reg.CHK_INIT_HI u, Reg.CHK_XOROUT_LO u, Reg.CHK_XOROUT_HI u]) fun t =>
      t.chkConfig u = { width := n, refin := r, refout := r, mode := (s.chkConfig u).mode, poly := p, init := i, xorout := x })
  ∧ (∀ (s : State) (u : Nat) (w : Word), u = 2 ∨ u = 3 ∨ u = 7 → free s u → 9 < wfield w 3 0 →
      Does (.chkPreset u w) s [.regs] (regIn [Reg.CHK_STATUS u]) fun t => t.rd (Reg.CHK_STATUS u) = (s.rd (Reg.CHK_STATUS u) ||| 0x100))
  ∧ (∀ (s : State) (u : Nat), u = 2 ∨ u = 3 → free s u →
      ((s.chkConfig u).bad false 0 = false → Does (.chkInit u) s [.chk] noReg fun t =>
        (t.chkOf u).latched = some (s.chkConfig u) ∧ (t.chkOf u).bytes = [] ∧ (t.chkOf u).length = 0 ∧ (t.chkOf u).done = false
          ∧ (t.chkOf u).pass = false ∧ (t.chkOf u).fail = false ∧ (t.chkOf u).value = (s.chkConfig u).value [])
      ∧ ((s.chkConfig u).bad false 0 = true → Does (.chkInit u) s [.regs] (regIn [Reg.CHK_STATUS u]) fun t =>
          t.rd (Reg.CHK_STATUS u) = (s.rd (Reg.CHK_STATUS u) ||| 0x100)))
  ∧ (∀ (s : State) (u : Nat) (w : Word), u = 2 ∨ u = 3 → free s u →
      fed s u (leBytes 1 w.toNat) (.chkFeed8 u w) ∧ fed s u (leBytes 2 w.toNat) (.chkFeed16 u w)
      ∧ fed s u (leBytes 4 w.toNat) (.chkFeed32 u w none)
      ∧ ∀ h : Word, fed s u (leBytes 4 w.toNat ++ leBytes 4 h.toNat) (.chkFeed32 u w (some h)))
  ∧ (∀ (s : State) (u : Nat) (c : ChkCfg), u = 2 ∨ u = 3 → free s u → (s.chkOf u).latched = some c → (s.chkOf u).done = false →
      let b := (s.chkOf u).bytes
      let m := b.length - c.width / 8
      (c.mode ≠ 2 → Does (.chkFinish u) s [.chk] noReg fun t =>
        (t.chkOf u).done = true ∧ (t.chkOf u).value = c.value b ∧ (t.chkOf u).length = b.length)
      ∧ (c.mode = 2 → c.width / 8 ≤ b.length → Does (.chkFinish u) s [.chk] noReg fun t =>
          (t.chkOf u).done = true ∧ (t.chkOf u).length = m
            ∧ (t.chkOf u).pass = decide (b.drop m = c.bytes (c.value (b.take m))) ∧ (t.chkOf u).fail = !(t.chkOf u).pass)
      ∧ (c.mode = 2 → b.length < c.width / 8 → Does (.chkFinish u) s [.regs] (regIn [Reg.CHK_STATUS u]) fun t =>
          t.rd (Reg.CHK_STATUS u) = (s.rd (Reg.CHK_STATUS u) ||| 0x100)))
  ∧ (∀ (s : State) (u : Nat) (w : Word), u = 2 ∨ u = 3 ∨ u = 7 → (s.chkOf u).granted = false →
      let lost (i : Instr) : Prop := Gives i s (s.inD0 s.badAccess)
      lost (.chkPreset u w) ∧ lost (.chkInit u) ∧ lost (.chkFeed8 u w) ∧ lost (.chkFeed16 u w) ∧ (∀ h, lost (.chkFeed32 u w h))
        ∧ lost (.chkFinish u) ∧ lost (.chkStart u) ∧ lost (.chkAbort u)
        ∧ s.badAccess.rd Reg.DEV_BAD_ACCESS = s.rd Reg.DEV_BAD_ACCESS + 1)

/-- On the granted unit a start latches the configuration, address and length and is busy, unless the configuration is bad
(cfg_err) or a scan is running (start_reject). A scan whose range meets no refused address and no poisoned beat covers all its
bytes, compares in check mode, and in append mode writes the value after them; the first refused read ends it with bus_err,
counted by firewall or default target, the first poisoned beat with poison, and the length is the bytes before it; an abort
sets aborted after a number of bytes that the model leaves free. Then done is set, and pass and fail stay clear. Where the
spec is silent this follows the model's choice: log entries 22, 23, 59, 107 and 111. -/
def Obligations.ScanUnit : Prop :=
  let free (s : State) : Prop := (s.chkOf 7).granted = true ∧ s.reaches (Reg.CHK_CONFIG 7) = true
  let len (s : State) : Nat := (s.rd (Reg.CHK_SCAN_LEN 7)).toNat
  (∀ s : State, free s → (s.chkOf 7).busy = false → (s.chkConfig 7).bad true (len s) = false →
    Does (.chkStart 7) s [.chk] noReg fun t => (t.chkOf 7).busy = true ∧ (t.chkOf 7).done = false
      ∧ (t.chkOf 7).latched = some (s.chkConfig 7) ∧ (t.chkOf 7).scanLen = len s
      ∧ (t.chkOf 7).scanAt = s.rangeAddr (Reg.CHK_SCAN_ADDR_LO 7) (Reg.CHK_SCAN_ADDR_HI 7))
  ∧ (∀ s : State, free s → (s.chkOf 7).busy = true ∨ (s.chkConfig 7).bad true (len s) = true →
      Does (.chkStart 7) s [.regs] (regIn [Reg.CHK_STATUS 7]) fun t =>
        t.rd (Reg.CHK_STATUS 7) = (s.rd (Reg.CHK_STATUS 7) ||| (if (s.chkOf 7).busy then 0x1000 else 0x100)))
  ∧ (∀ s : State, free s → (s.chkOf 7).busy = true → Does (.chkAbort 7) s [.regs, .chk, .fresh] (regIn [Reg.CHK_STATUS 7]) fun t =>
      (t.chkOf 7).busy = false ∧ (t.chkOf 7).done = true ∧ (t.chkOf 7).length ≤ (s.chkOf 7).scanLen
        ∧ (t.chkOf 7).pass = (s.chkOf 7).pass ∧ (t.chkOf 7).fail = (s.chkOf 7).fail
        ∧ t.rd (Reg.CHK_STATUS 7) = (s.rd (Reg.CHK_STATUS 7) ||| 0x800))
  ∧ (∀ (s : State) (c : ChkCfg), (s.chkOf 7).latched = some c → (s.chkOf 7).busy = true →
      let b := s.fabricBytes (s.chkOf 7).scanAt (s.chkOf 7).scanLen
      let m := b.length - c.width / 8
      let e := (s.chkOf 7).scanAt + (s.chkOf 7).scanLen
      Gives (.chkScanEnd 7 (s.scanEnd (s.chkOf 7).scanAt (s.chkOf 7).scanLen).isNone) s s
      ∧ (s.scanEnd (s.chkOf 7).scanAt (s.chkOf 7).scanLen = none → c.mode = 0 → Does (.chkScanEnd 7 false) s [.chk, .fresh] noReg fun t =>
        (t.chkOf 7).done = true ∧ (t.chkOf 7).busy = false ∧ (t.chkOf 7).length = b.length ∧ (t.chkOf 7).value = c.value b)
      ∧ (s.scanEnd (s.chkOf 7).scanAt (s.chkOf 7).scanLen = none → c.mode = 2 → Does (.chkScanEnd 7 false) s [.chk, .fresh] noReg fun t =>
          (t.chkOf 7).done = true ∧ (t.chkOf 7).busy = false ∧ (t.chkOf 7).length = m
            ∧ (t.chkOf 7).pass = decide (b.drop m = c.bytes (c.value (b.take m))) ∧ (t.chkOf 7).fail = !(t.chkOf 7).pass)
      ∧ (s.scanEnd (s.chkOf 7).scanAt (s.chkOf 7).scanLen = none → c.mode = 1 → e + (c.bytes (c.value b)).length ≤ hbmSize → firewalled.any (touches e (c.bytes (c.value b)).length) = false →
          Does (.chkScanEnd 7 false) s [.chk, .fresh, .mem] noReg fun t =>
            (t.chkOf 7).done = true ∧ (t.chkOf 7).value = c.value b
              ∧ Mem.read t.mem.hbm e (c.bytes (c.value b)).length = c.bytes (c.value b)
              ∧ ∀ a, a < e ∨ e + (c.bytes (c.value b)).length ≤ a → Mem.byte t.mem.hbm a = Mem.byte s.mem.hbm a)
      ∧ (∀ n, s.scanEnd (s.chkOf 7).scanAt (s.chkOf 7).scanLen = some (n, false) → Does (.chkScanEnd 7 true) s [.regs, .chk, .fresh] (regIn [Reg.CHK_STATUS 7]) fun t =>
          (t.chkOf 7).done = true ∧ (t.chkOf 7).busy = false ∧ (t.chkOf 7).length = n
            ∧ t.rd (Reg.CHK_STATUS 7) = (s.rd (Reg.CHK_STATUS 7) ||| 0x400))
      ∧ (∀ n, s.scanEnd (s.chkOf 7).scanAt (s.chkOf 7).scanLen = some (n, true) → Does (.chkScanEnd 7 true) s [.regs, .log, .logSeq, .mbx, .chk, .pmu, .out, .fresh] anyReg fun t =>
          (t.chkOf 7).done = true ∧ (t.chkOf 7).busy = false ∧ (t.chkOf 7).length = n
            ∧ t.rd (Reg.CHK_STATUS 7) = (s.rd (Reg.CHK_STATUS 7) ||| 0x200)
            ∧ (unmapped ((s.chkOf 7).scanAt + n) = true → t.rd Reg.MEM_DECODE_ERRORS = s.rd Reg.MEM_DECODE_ERRORS + 1)
            ∧ (unmapped ((s.chkOf 7).scanAt + n) = false → t.rd Reg.MEM_FW_VIOLATIONS = s.rd Reg.MEM_FW_VIOLATIONS + 1)))

/-- A write of PMU_CNT_CFG that sets enable from 0 clears the counter and its overflow bit, any write stores the
configuration, and one of firmware counters counts a bad access. A sample of an enabled class 5 counter with sampling and a
period that is not 0 is taken when the counter has advanced by the period, which it then holds, and enters the FIFO of 64, or
is lost. A write of PMU_HIST_CFG with clear zeroes the bins and the overflow bit. A write of a dump register stores it and
restarts pointers and seq at the next trigger. A trigger writes a record at PMU_DUMP_WR, advances it around the ring, counts
and signals vector 20; a full ring counts a drop, a trigger during a write a miss. Where the spec is silent this follows the
model's choice: log entries 60, 79 and 112. -/
def Obligations.PmuRows : Prop :=
  let live (s : State) (off : Nat) : Prop := s.reaches off = true
  (∀ (s : State) (i : Nat) (w : Word), i < 224 → live s (Reg.PMU_CNT_CFG 0) →
    Does (.pmuCounterEnable i w) s [.regs, .pmu] (regIn [Reg.PMU_CNT_CFG i, Reg.PMU_OVF (i / 32)]) fun t =>
      let rises := wbit w 12 && !(wbit (s.rd (Reg.PMU_CNT_CFG i)) 12)
      t.rd (Reg.PMU_CNT_CFG i) = (w &&& 0x07FFFFFF) ∧ t.pmu.fifo = s.pmu.fifo ∧ t.pmu.dumpSeq = s.pmu.dumpSeq
        ∧ (∀ k, tget t.pmu.cnt k = if rises = true ∧ k = i then none else tget s.pmu.cnt k)
        ∧ t.rd (Reg.PMU_OVF (i / 32)) = (if rises then s.rd (Reg.PMU_OVF (i / 32)) &&& ~~~(bit1 (i % 32)) else s.rd (Reg.PMU_OVF (i / 32))))
  ∧ (∀ (s : State) (i : Nat) (w : Word), 224 ≤ i → i < 256 → Gives (.pmuCounterEnable i w) s (s.inD0 s.badAccess))
  ∧ (∀ (s : State) (i : Nat) (pc : Word) (core thread : Nat), i < 224 → wbit (s.rd (Reg.PMU_CNT_CFG i)) 12 = true →
      wbit (s.rd (Reg.PMU_CNT_CFG i)) 26 = true → wfield (s.rd (Reg.PMU_CNT_CFG i)) 11 8 = 5 →
      s.rd (Reg.PMU_CNT_PERIOD i) ≠ 0 →
      Does (.pmuSample i pc core thread) s [.regs, .pmu] (regIn [Reg.PMU_OVF (i / 32)]) fun t =>
        let n := tgetD s.pmu.cnt i 0 + (s.rd (Reg.PMU_CNT_PERIOD i)).toNat
        t.pmu = (if s.pmu.fifo.length < 64 then
            { s.pmu with cnt := tset s.pmu.cnt i (n % 2 ^ 48), fifo := s.pmu.fifo ++ [⟨pc, core, thread, i⟩] }
          else { s.pmu with cnt := tset s.pmu.cnt i (n % 2 ^ 48), lost := true })
          ∧ t.rd (Reg.PMU_OVF (i / 32))
            = (if 2 ^ 48 ≤ n then s.rd (Reg.PMU_OVF (i / 32)) ||| bit1 (i % 32) else s.rd (Reg.PMU_OVF (i / 32))))
  ∧ (∀ (s : State) (h : Nat) (w : Word), h < 16 → live s (Reg.PMU_HIST_CFG h) → wbit w 17 = true →
      Does (.pmuHistClear h w) s [.regs] (fun off => off = Reg.PMU_HIST_CFG h ∨ (Reg.PMU_HIST_BIN h 0 ≤ off ∧ off < Reg.PMU_HIST_BIN h 64))
        fun t => (∀ b, b < 64 → t.rd (Reg.PMU_HIST_BIN h b) = 0) ∧ wbit (t.rd (Reg.PMU_HIST_CFG h)) 18 = false
          ∧ wfield (t.rd (Reg.PMU_HIST_CFG h)) 16 2 = wfield w 16 2)
  ∧ (∀ (s : State) (w : Word), live s Reg.PMU_DUMP_CFG →
      (Does (.pmuDumpConfigWrite Reg.PMU_DUMP_CFG w) s [.regs, .pmu] (regIn [Reg.PMU_DUMP_CFG]) fun t =>
        t.rd Reg.PMU_DUMP_CFG = (w &&& 0xFFFF03F7) ∧ t.pmu = { s.pmu with dumpReset := true })
      ∧ ∀ off, off = Reg.PMU_DUMP_BASE ∨ off = Reg.PMU_DUMP_SIZE →
          Does (.pmuDumpConfigWrite off w) s [.regs, .pmu] (regIn [off]) fun t =>
            t.rd off = w ∧ t.pmu = { s.pmu with dumpReset := true })
  ∧ (∀ (s : State) (k pic len : Nat) (r : Nat × Nat), s.dumpRange = some r → s.dumpLength = some len → s.dumpArmed k = true →
      s.dumpError = false → s.pmu.dumpReset = false →
      let size := (s.rd Reg.PMU_DUMP_SIZE).toNat
      let wr := (s.rd Reg.PMU_DUMP_WR).toNat
      let at_ := 0x410000000 + (s.rd Reg.PMU_DUMP_BASE).toNat + wr
      (ringFull wr (s.rd Reg.PMU_DUMP_RD).toNat size len = false →
        Does (.pmuDumpTrigger k pic false) s [.regs, .mbx, .pmu, .mem, .out] (regIn [Reg.PMU_DUMP_WR, Reg.PMU_DUMP_RECORDS]) fun t =>
          t.rd Reg.PMU_DUMP_WR = BitVec.ofNat 32 ((wr + len) % size) ∧ t.rd Reg.PMU_DUMP_RECORDS = s.rd Reg.PMU_DUMP_RECORDS + 1
            ∧ t.pmu = { s.pmu with dumpSeq := (s.pmu.dumpSeq + 1) % 2 ^ 32, dumpGap := false }
            ∧ t.mem.hbm = Mem.write s.mem.hbm at_ (s.dumpRecord k pic r len))
      ∧ (ringFull wr (s.rd Reg.PMU_DUMP_RD).toNat size len = true →
          Does (.pmuDumpTrigger k pic false) s [.regs, .pmu] (regIn [Reg.PMU_DUMP_DROPS]) fun t =>
            t.rd Reg.PMU_DUMP_DROPS = s.rd Reg.PMU_DUMP_DROPS + 1 ∧ t.pmu = { s.pmu with dumpGap := true })
      ∧ Does (.pmuDumpTrigger k pic true) s [.regs, .pmu] (regIn [Reg.PMU_DUMP_MISSED]) fun t =>
          t.rd Reg.PMU_DUMP_MISSED = s.rd Reg.PMU_DUMP_MISSED + 1 ∧ t.pmu = { s.pmu with dumpGap := true })

/-- THREAD_READY while the complex runs: a new thread needs a free one of 512 slots, or is refused and counted. A thread
starts on an idle core; with none idle it preempts the core of the numerically highest level, if that is higher than its own,
the preempted thread waiting first in its level; else it waits at the end of its level list of 32, or in the ring once the
list is full or the ring is in use, which counts a spill. Threads of one level never preempt one another. -/
def Obligations.ThreadScheduling : Prop :=
  let run (s : State) (l : Nat) : Prop := s.ctl.restarting = false ∧ s.ctl.cores ≠ 0 ∧ l ≤ 63
  let new (s : State) (k : Nat) : Prop := thas s.ctl.slots k = false ∧ k ≤ 511 ∧ s.ctl.slots.length < 512 ∧ s.ctl.waits k = false
    ∧ s.ctl.running.all (·.2 != k) = true
  (∀ (s : State) (k l ns : Nat), run s l → thas s.ctl.slots k = false → 511 < k ∨ 512 ≤ s.ctl.slots.length →
    Does (.threadReady k l ns) s [.regs, .pmu] (regOrPmu [Reg.HAL_SLOT_REFUSALS]) fun t =>
      t.rd Reg.HAL_SLOT_REFUSALS = s.rd Reg.HAL_SLOT_REFUSALS + 1)
  ∧ (∀ (s : State) (k l ns c : Nat) (r : List Nat), run s l → new s k → s.ctl.idle = c :: r →
      Does (.threadReady k l ns) s [.regs, .ctl, .pmu] (regOrPmu [Reg.HAL_DISPATCH_MAX]) fun t =>
        t.ctl = { s.ctl with slots := tset s.ctl.slots k l, running := tset s.ctl.running c k })
  ∧ (∀ (s : State) (k l ns c m : Nat), run s l → new s k → s.ctl.idle = [] →
      ({ s.ctl with slots := tset s.ctl.slots k l } : CtlState).lowest = some (c, m) →
      (l < m → Does (.threadReady k l ns) s [.regs, .ctl, .pmu] (regOrPmu [Reg.HAL_DISPATCH_MAX]) fun t =>
        tget t.ctl.running c = some k ∧ tget t.ctl.slots k = some l ∧ t.ctl.waits (tgetD s.ctl.running c 0) = true)
      ∧ (m ≤ l → Does (.threadReady k l ns) s [.regs, .ctl, .pmu] (regOrPmu [Reg.HAL_SPILLS]) fun t =>
          t.ctl.running = s.ctl.running ∧ tget t.ctl.slots k = some l
            ∧ (tgetD s.ctl.spill l [] = [] → (tgetD s.ctl.ready l []).length < 32 →
                tgetD t.ctl.ready l [] = tgetD s.ctl.ready l [] ++ [k] ∧ t.ctl.spill = s.ctl.spill
                  ∧ t.rd Reg.HAL_SPILLS = s.rd Reg.HAL_SPILLS)
            ∧ (tgetD s.ctl.spill l [] ≠ [] ∨ 32 ≤ (tgetD s.ctl.ready l []).length →
                tgetD t.ctl.spill l [] = tgetD s.ctl.spill l [] ++ [k] ∧ t.ctl.ready = s.ctl.ready
                  ∧ t.rd Reg.HAL_SPILLS = s.rd Reg.HAL_SPILLS + 1)))

/-- A host write stores its word while the flag is clear, else it is discarded, logged as an Unsupported Request in the AER
registers with the error message they select, flagged, counted and signals vector 1 (R301), which pends while it is masked or
the function may send nothing; in D3hot every access is an Unsupported Request (log entry 79). A host read returns the word, 0
from an empty mailbox, and clears the flag (R302). Firmware posts the oldest queued word of a pair once its mailbox is empty,
with vector 2 + p (R317). It answers a PING with PONG of the same tag and value, and a word that no block can answer with
REFUSED (R303, R304), the mailbox being emptied with vector 11 + p, of the pair whose turn it is in round robin. Where the
spec is silent this follows the model's choice: log entries 79 and 104. -/
def Obligations.MailboxWords : Prop :=
  (∀ (s : State) (p : Nat) (w : Word), s.mbx.pci.d3hot = false → p ≤ 8 → thas s.mbx.h2d p = false → Gives (.mbxH2dWrite p w) s
      { s with mbx := { s.mbx with h2d := tset s.mbx.h2d p w, h2dAt := tset s.mbx.h2dAt p s.time.up } })
  ∧ (∀ (s : State) (p : Nat) (w : Word), s.mbx.pci.d3hot = false → p ≤ 8 → thas s.mbx.h2d p = true →
      Does (.mbxH2dWrite p w) s [.regs, .mbx, .out] (regIn [Reg.MBX_STATUS p, Reg.MBX_REJECTS p]) fun t =>
        t.mbx = { s.mbx with msixPend := t.mbx.msixPend, pci := { s.mbx.pci with urStatus := true } }
          ∧ t.rd (Reg.MBX_STATUS p) = (s.rd (Reg.MBX_STATUS p) ||| 0x10000) ∧ t.rd (Reg.MBX_REJECTS p) = s.rd (Reg.MBX_REJECTS p) + 1
          ∧ t.out = (if s.mbx.msixPend.toNat.testBit 1 = false ∧ s.msixOpen 1 = true then [.msix 1] else [])
              ++ (if s.mbx.pci.urReport = true ∧ s.mbx.pci.urMask = false then [.pcieError s.mbx.pci.urFatal] else []) ++ s.out
          ∧ t.mbx.msixPend = (if s.mbx.msixPend.toNat.testBit 1 = true ∨ s.msixOpen 1 = true then s.mbx.msixPend else s.mbx.msixPend ||| 2))
  ∧ (∀ (s : State) (p : Nat), s.mbx.pci.d3hot = false → Gives (.mbxD2hRead p) s
      ({ s with mbx := { s.mbx with d2h := tdel s.mbx.d2h p } }.emit (.readData (tgetD s.mbx.d2h p 0))))
  ∧ (∀ (s : State) (p : Nat) (w : Word), s.mbx.pci.d3hot = true → (p ≤ 8 → Gives (.mbxH2dWrite p w) s s.unsupported)
      ∧ Gives (.mbxD2hRead p) s (s.unsupported.emit .unsupported))
  ∧ (∀ (s : State) (p : Nat) (w : Word) (a : Option Nat) (r : List (Word × Option Nat)), s.mbx.fwReady = true →
      tgetD s.mbx.queue p [] = (w, a) :: r → thas s.mbx.d2h p = false →
      Does (.d2hQueuePost p) s [.regs, .mbx, .out] (fun off => 0x00C04000 ≤ off ∧ off < 0x00C06000) fun t =>
        tget t.mbx.d2h p = some w ∧ tgetD t.mbx.queue p [] = r ∧ (∀ k, k ≠ p → tget t.mbx.d2h k = tget s.mbx.d2h k
            ∧ tget t.mbx.queue k = tget s.mbx.queue k)
          ∧ t.mbx.h2d = s.mbx.h2d ∧ t.mbx.blocks = s.mbx.blocks ∧ t.mbx.sessions = s.mbx.sessions)
  ∧ (∀ (s : State) (p : Nat) (w : Word), s.mayRead p = true → tget s.mbx.h2d p = some w →
      let why : Option Nat := if wordType w ≠ 1 ∧ wordType w ≠ 2 then some eBadOpcode
        else if wordType w = 1 ∧ 31 < wordParam w then some eBadParam
        else if 1 ≤ p ∧ thas s.mbx.sessions p = false then some eNotAuthorised else none
      (∀ e, why = some e → Does (.ping p) s [.mbx, .out] noReg fun t =>
        t.mbx.h2d = tdel s.mbx.h2d p ∧ t.mbx.lastPair = p ∧ t.mbx.d2h = s.mbx.d2h ∧ t.mbx.blocks = s.mbx.blocks ∧ t.mbx.sessions = s.mbx.sessions
          ∧ ∃ a, tgetD t.mbx.queue p [] = tgetD s.mbx.queue p [] ++ [(mbxWord 5 (wordTag w) e, a)])
      ∧ (why = none → wordType w = 2 → Does (.ping p) s [.mbx, .out] noReg fun t =>
          t.mbx.h2d = tdel s.mbx.h2d p ∧ t.mbx.lastPair = p ∧ t.mbx.d2h = s.mbx.d2h ∧ t.mbx.blocks = s.mbx.blocks ∧ t.mbx.sessions = s.mbx.sessions
            ∧ ∃ a, tgetD t.mbx.queue p [] = tgetD s.mbx.queue p [] ++ [(mbxWord 2 (wordTag w) (wordParam w), a)]))

/-- After 60 s without a word a session closes: its word waiting is answered LOST, its queued completions are discarded and a
CLOSED word with reason 3 is queued last; a pair without a session is left alone. A nonce expires by itself, and a lock of a
key slot ends; neither touches anything else. -/
def Obligations.SessionTimers : Prop :=
  (∀ (s : State) (p : Nat), thas s.mbx.sessions p = true →
    Does (.sessionIdleTimeout p) s [.regs, .mbx, .out] (regIn [Reg.MBX_STATUS p, Reg.MBX_LOST]) fun t =>
      t.mbx.sessions = tdel s.mbx.sessions p ∧ tget t.mbx.h2d p = none ∧ t.mbx.d2h = s.mbx.d2h ∧ t.mbx.journal = s.mbx.journal
        ∧ t.rd (Reg.MBX_STATUS p) = (s.rd (Reg.MBX_STATUS p) ||| 0x20000)
        ∧ t.rd Reg.MBX_LOST = s.rd Reg.MBX_LOST + (if thas s.mbx.h2d p then 1 else 0)
        ∧ (tgetD t.mbx.queue p []).map (·.1) = ((tgetD s.mbx.queue p []).map (·.1)).filter (fun w => wordType w != 1)
            ++ (match tget s.mbx.h2d p with | some w => [mbxWord 4 (wordTag w) (wordParam w)] | none => []) ++ [mbxWord 6 0 3])
  ∧ (∀ (s : State) (p : Nat), thas s.mbx.sessions p = false → Gives (.sessionIdleTimeout p) s s)
  ∧ (∀ (s : State) (n : BitVec 128), Gives (.nonceExpiry n) s
      { s with mbx := { s.mbx with nonces := s.mbx.nonces.filter fun m => m.nonce != n } })
  ∧ (∀ (s : State) (k : Nat), Gives (.slotLockExpiry k) s
      { s with mbx := { s.mbx with locked := s.mbx.locked.filter (· != k) } })

/-- A scan of the 32 sensors keeps each valid trimmed reading (-55 to +150 degrees C), sets telemetry_fault when one is
invalid, and takes T_max as the highest valid reading, as 125 degrees C with fewer than 16 of them, 6 degrees higher on
built-in defaults. A poll keeps the sum of voltage times current over the rails, with the last nine and their mean in 1/16 W
(rounded down, log entry 105), a rail without a fresh reading at its maximum with telemetry_fault. THERMAL_HIGH is raised at
125 degrees C and above. Where the spec is silent this follows the model's choice: log entries 56, 57, 105 and 112. -/
def Obligations.PowerReadings : Prop :=
  (∀ (s : State) (rs : List (Option Int)),
    Does (.tempSensorScan rs) s [.regs, .pwr] (regIn [Reg.PWR_STATUS]) fun t =>
      let v := (List.range 32).map fun i => validReading ((rs.getD i none).map (· + sensorTrim s.dev.calNow i))
      t.pwr = { s.pwr with sensors := v, tMax := (tMaxOf v s.dev.calInvalid).1, tSensor := (tMaxOf v s.dev.calInvalid).2 }
        ∧ (v.any (·.isNone) = true → t.rd Reg.PWR_STATUS = (s.rd Reg.PWR_STATUS ||| 0x400))
        ∧ (v.any (·.isNone) = false → t.rd Reg.PWR_STATUS = s.rd Reg.PWR_STATUS)
        ∧ ((v.filter (·.isSome)).length < 16 → t.pwr.tMax = if s.dev.calInvalid then 524 else 500)
        ∧ (16 ≤ (v.filter (·.isSome)).length → s.dev.calInvalid = false →
            some t.pwr.tMax ∈ v ∧ ∀ i < 32, ∀ x, v.getD i none = some x → x ≤ t.pwr.tMax))
  ∧ (∀ (s : State) (rails : List (Option (Nat × Nat))),
      Does (.pmbusPoll rails) s [.regs, .pwr] (regIn [Reg.PWR_STATUS]) fun t =>
        t.pwr.polls = ((railSum s.dev.calNow rails).1 :: s.pwr.polls).take 10
          ∧ t.pwr.pMeas = sumNat t.pwr.polls / (t.pwr.polls.length * unitPower) ∧ t.pwr.railStale = (railSum s.dev.calNow rails).2
          ∧ t.pwr.floorExceeded = decide (((t.budgetInForce.1 * pwrScale : Nat) : Int) < t.pT0)
          ∧ t.pwr.sensors = s.pwr.sensors ∧ t.pwr.hostBudget = s.pwr.hostBudget ∧ t.pwr.warn = s.pwr.warn
          ∧ t.rd Reg.PWR_STATUS = (s.rd Reg.PWR_STATUS ||| bitIf t.pwr.railStale 10 ||| bitIf t.pwr.floorExceeded 11))
  ∧ (∀ s : State, 500 ≤ s.pwr.tMax → Does .thermalHigh s [.regs, .log, .logSeq, .mbx, .out] (regIn [Reg.PWR_STATUS, Reg.DEV_STATUS])
      fun t => Entered 0x0071 s.pwr.tSensor s.pwr.tMax.toNat t ∧ t.rd Reg.PWR_STATUS = (s.rd Reg.PWR_STATUS ||| 0x200))
  ∧ (∀ s : State, s.pwr.tMax < 500 → Gives .thermalHigh s s)

/-- A thermal trip is a fatal error: every channel stops, a group member is DETACHED, DEV_LAST_FATAL and the log name
THERMAL_TRIP with its sensor, the switched domains go off, the device is HALTED and tripped; a device that has tripped already
stays as it is. HBM readings are kept, an invalid one leaving the last; above 85 degrees C, or invalid ten times running, the
hot refresh rate is due, a hundred cool ones end it; the tenth at or above 105 degrees C running trips the device with
HBM_OVER_TEMP. What a waiting command then does is settled after (R333, R325). Where the spec is silent this follows the
model's choice: log entry 56. -/
def Obligations.ThermalTrips : Prop :=
  let tripped (code obj : Nat) (s u : State) : Prop := u.dev.state = .halted ∧ u.dev.mediaOff = true ∧ u.dev.fatal = true
    ∧ u.pwr.tripped = true ∧ u.dev.lastCode = code ∧ u.dev.lastObj = obj ∧ (∀ c ch, tget u.chans c = some ch → ch.st.active = false)
    ∧ (s.member = true → u.grp.role = .detached) ∧ u.mbx.sessions = s.mbx.sessions ∧ u.time = s.time ∧ u.mem.hbm = s.mem.hbm
  (∀ (s : State) (n : Nat) (x : Int), s.pwr.tripped = false →
      let u := s.trip 0x0072 n (x % 2 ^ 64).toNat
      exec (.thermalTrip n x) s = .next u.settle ∧ tripped 0x0072 n s u ∧ Entered 0x0072 n (x % 2 ^ 64).toNat u)
  ∧ (∀ (s : State) (n : Nat) (x : Int), s.pwr.tripped = true → Gives (.thermalTrip n x) s s)
  ∧ (∀ (s : State) (a b : Option Int),
      let v := s.readHbm a b
      (s.pwr.tripped = true ∨ (v.mem.hotRun0 < 10 ∧ v.mem.hotRun1 < 10) → exec (.hbmTempRead a b) s = .next v.settle)
      ∧ (s.pwr.tripped = false → 10 ≤ v.mem.hotRun0 → exec (.hbmTempRead a b) s = .next v.overTemp.settle
          ∧ tripped 0x0014 0 v v.overTemp ∧ wbit (v.overTemp.rd Reg.MEM_STATUS) 13 = true)
      ∧ (s.pwr.tripped = false → v.mem.hotRun0 < 10 → 10 ≤ v.mem.hotRun1 → exec (.hbmTempRead a b) s = .next v.overTemp.settle
          ∧ tripped 0x0014 1 v v.overTemp)
      ∧ Touches [.mem, .pwr] s v ∧ v.pwr = { s.pwr with hbm0 := a.getD s.pwr.hbm0, hbm1 := b.getD s.pwr.hbm1 }
      ∧ v.mem.hbm = s.mem.hbm ∧ v.mem.poison = s.mem.poison
      ∧ v.mem.hotRun0 = (match a with | some x => if 420 ≤ x then s.mem.hotRun0 + 1 else 0 | none => 0)
      ∧ v.mem.hotRun1 = (match b with | some x => if 420 ≤ x then s.mem.hotRun1 + 1 else 0 | none => 0)
      ∧ (∀ x, a = some x ∨ b = some x → 340 < x → v.mem.hotDue = true)
      ∧ (a = none → 9 ≤ s.mem.badRun0 → v.mem.hotDue = true)
      ∧ (∀ x y, a = some x → b = some y → x ≤ 340 → y ≤ 340 → v.mem.hotDue = (if 99 ≤ s.mem.coolRun then false else s.mem.hotDue)))

/-- The first crossing begins a warning: counted, flagged, with its source and time, and the role acts; a source that crosses
while one is in force only extends it. The release ends it, leaves the dip registers (v_min 0 with pin for a warning of the
pin) and logs SUPPLY_WARNING with the time of the beginning. MOORED is entered from HALTED with every channel stopped: media
domains off, self-refresh, the octets that hold no buffer lose their contents. -/
def Obligations.SupplyWarnings : Prop :=
  (∀ (s : State) (src mv : Nat), s.pwr.warn = none →
    let v := ({ s with pwr := { s.pwr with warnPin := s.pwr.warnPin || src == 2, vCore := if src = 0 then mv else s.pwr.vCore
                                           warn := some ⟨src, s.time.sec, s.time.ns⟩ } }.bump Reg.PWR_WARNINGS).sticky Reg.PWR_STATUS 0x100
    exec (.supplyWarningCrossing src mv) s = .next v.warnRole ∧ (s.grp.role = .none ∨ s.grp.role = .unverified → v.warnRole = v)
      ∧ (s.grp.role = .standby → v.warnRole.grp.role = .joining ∧ ∀ c g, tget v.warnRole.grp.chans c = some g → g.inSync = false))
  ∧ (∀ (s : State) (src mv : Nat), s.pwr.warn.isSome = true → Gives (.supplyWarningCrossing src mv) s
      { s with pwr := { s.pwr with warnPin := s.pwr.warnPin || src == 2, vCore := if src = 0 then mv else s.pwr.vCore } })
  ∧ (∀ (s : State) (w : Warning) (mv us : Nat), s.pwr.warn = some w →
      Does (.supplyWarningRelease mv us) s [.regs, .pwr, .log, .logSeq, .mbx, .out]
        (regIn [Reg.PWR_DIP_MIN, Reg.PWR_DIP_DURATION, Reg.DEV_STATUS]) fun t =>
          let v := if w.src = 2 then 0 else mv
          t.pwr = { s.pwr with warn := none, warnPin := false }
            ∧ t.rd Reg.PWR_DIP_MIN = (wnat v 11 0 ||| bitIf (w.src == 1) 12 ||| bitIf (w.src == 2) 13)
            ∧ t.rd Reg.PWR_DIP_DURATION = BitVec.ofNat 32 us
            ∧ Entered 0x0070 w.src (v % 2 ^ 16 + 2 ^ 16 * (us % 2 ^ 32)) t
            ∧ (s.log = [] → ∃ e, t.log = [e] ∧ e.sec = w.sec % 2 ^ 48 ∧ e.ns = w.ns))
  ∧ (∀ s : State, s.pwr.warn = none → ∀ mv us, Gives (.supplyWarningRelease mv us) s s)
  ∧ (∀ s : State, s.dev.state = .halted → s.allStopped = true → s.pwr.moored = false →
      Does .mooredEntry s [.dev, .pwr, .mem] noReg fun t => t.dev = { s.dev with mediaOff := true } ∧ t.pwr = { s.pwr with moored := true }
        ∧ t.mem.selfRefresh = true ∧ t.mem.retain = s.retention ∧ t.mem.openRows = []
        ∧ t.mem.hbm = s.mem.hbm.filter fun e => s.retention.toNat.testBit (octetOf e.1))

/-- A corrected error counts for SRAM, or for HBM and its pseudo-channel, whose 1,001st within a second raises MEM_CE_STORM.
An uncorrectable error poisons its HBM block or SRAM word, counts, sets its status bit, captures MEM_FAULT with kind 0 and
raises MEM_ECC_UE; its user goes on after it. The patrol scrub counts what it finds and moves on, the last block of HBM
completing a pass. Where the spec is silent this follows the model's choice: log entries 21 and 55. -/
def Obligations.HbmErrors : Prop :=
  (∀ (s : State) (a : Nat), Does (.eccCorrectedError a true) s [.regs, .pmu] (regOrPmu [Reg.MEM_SRAM_CE]) fun t =>
      t.rd Reg.MEM_SRAM_CE = s.rd Reg.MEM_SRAM_CE + 1)
  ∧ (∀ (s : State) (a : Nat), Does (.eccCorrectedError a false) s [.regs, .log, .logSeq, .mbx, .pmu, .mem, .out]
      (regOrPmu [Reg.MEM_HBM_CE, Reg.MEM_PC_CE (pseudoOf a), Reg.MEM_STATUS, Reg.DEV_STATUS]) fun t =>
        t.rd Reg.MEM_HBM_CE = s.rd Reg.MEM_HBM_CE + 1 ∧ t.rd (Reg.MEM_PC_CE (pseudoOf a)) = s.rd (Reg.MEM_PC_CE (pseudoOf a)) + 1
          ∧ t.mem.hbm = s.mem.hbm ∧ t.mem.poison = s.mem.poison
          ∧ (∀ b n, tget s.mem.ceSec (pseudoOf a) = some (b, n) → s.time.up < b + 1000000000 →
              tget t.mem.ceSec (pseudoOf a) = some (b, n + 1) ∧ (n = 1000 → Entered 0x0011 (pseudoOf a) 1001 t)
                ∧ (n ≠ 1000 → t.log = s.log)))
  ∧ (∀ (s : State) (a : Nat) (sram : Bool) (f : FaultSource),
      let u := s.uncorrectable a sram f
      exec (.eccUncorrectableError a sram f .other) s = .next u.settleShutdown
        ∧ (∀ x, exec (.eccUncorrectableError a sram f x) s = .next (u.consumePoison x).settleShutdown)
        ∧ Touches [.regs, .log, .logSeq, .mbx, .pmu, .mem, .out] s u
        ∧ (sram = false → u.poisoned a = true ∧ u.rd Reg.MEM_HBM_UE = s.rd Reg.MEM_HBM_UE + 1 ∧ u.mem.hbm = s.mem.hbm)
        ∧ (sram = true → thas u.mem.sramPoison (a / 8) = true ∧ u.rd Reg.MEM_SRAM_UE = s.rd Reg.MEM_SRAM_UE + 1
            ∧ u.mem.poison = s.mem.poison)
        ∧ u.rd Reg.MEM_STATUS = (s.rd Reg.MEM_STATUS ||| 0x100) ∧ u.rd Reg.MEM_FAULT_ADDR_LO = BitVec.ofNat 32 a
        ∧ u.rd Reg.MEM_FAULT = (wnat f.master 4 0 ||| wnat f.tag 7 5 ||| wnat f.id 13 8)
        ∧ Entered 0x0010 (if sram then 64 else pseudoOf a) (a % 2 ^ 38) u)
  ∧ (∀ (s : State) (a : Nat), Does (.scrubRead a false .clean) s [.regs, .mem] (regIn [Reg.MEM_SCRUB_PASSES]) fun t =>
      t.mem = { s.mem with scrubAt := (a / 32 + 1) % 2 ^ 30 }
        ∧ t.rd Reg.MEM_SCRUB_PASSES = s.rd Reg.MEM_SCRUB_PASSES + (if a / 32 = 2 ^ 30 - 1 then 1 else 0))
  ∧ (∀ (s t : State) (a : Nat), Gives (.eccCorrectedError a true) s t → Gives (.scrubRead a true .corrected) s t)

/-- A BAR4 write within reach and outside the firewalled regions stores its bytes and no other, and frees the blocks it covers
whole of poison; a read answers with the bytes and changes no memory. An access to a firewalled region is refused, counted,
captured and raises FIREWALL_VIOLATION; in D3hot every access is an Unsupported Request (log entry 79); beyond reach a read is
aborted and a write a bad access; in recovery reach is the system area of stack 0. A refresh closes the rows and takes the
rate that is due, an idle row closes, panic beyond 10 us counts once, a retired master port no longer waits. Where the spec is
silent this follows the model's choice: log entries 10, 22, 55, 76 and 79. -/
def Obligations.HbmAccess : Prop :=
  (∀ (s : State) (a len : Nat) (d : List Byte), s.mbx.pci.d3hot = false → s.bar4Reaches a d.length = true →
      firewalled.any (touches a d.length) = false →
    Does (.hostHbmAccess a len (some d)) s [.mem] noReg fun t =>
      (∀ i, i < d.length → Mem.byte t.mem.hbm (a + i) = d.getD i 0)
        ∧ (∀ b, b < a ∨ a + d.length ≤ b → Mem.byte t.mem.hbm b = Mem.byte s.mem.hbm b)
        ∧ (∀ b, a ≤ 32 * b → 32 * b + 32 ≤ a + d.length → thas t.mem.poison b = false)
        ∧ (∀ b, 32 * b < a ∨ a + d.length < 32 * b + 32 → thas t.mem.poison b = thas s.mem.poison b)
        ∧ t.mem.scrubAt = s.mem.scrubAt ∧ t.mem.ceSec = s.mem.ceSec)
  ∧ (∀ (s : State) (a n : Nat), s.mbx.pci.d3hot = false → s.bar4Reaches a n = true → firewalled.any (touches a n) = false →
      Does (.hostHbmAccess a n none) s [.out, .fresh] noReg fun t => ∃ l, t.out = .hbmData l :: s.out ∧ l.length = n
        ∧ ∀ i, i < n → s.poisoned (a + i) = false → l.getD i 0 = Mem.byte s.mem.hbm (a + i))
  ∧ (∀ (s : State) (a n : Nat), s.mbx.pci.d3hot = false → s.bar4Reaches a n = true → firewalled.any (touches a n) = true →
      Does (.hostHbmAccess a n none) s [.regs, .log, .logSeq, .mbx, .pmu, .out, .fresh]
        (regOrPmu [Reg.MEM_FAULT, Reg.MEM_FAULT_ADDR_LO, Reg.MEM_FAULT_ADDR_HI, Reg.MEM_FW_VIOLATIONS, Reg.MEM_STATUS, Reg.DEV_STATUS])
        fun t => t.rd Reg.MEM_FW_VIOLATIONS = s.rd Reg.MEM_FW_VIOLATIONS + 1 ∧ Entered 0x0012 22 (a % 2 ^ 38) t
          ∧ wbit (t.rd Reg.MEM_STATUS) 9 = true ∧ t.rd Reg.MEM_FAULT_ADDR_LO = BitVec.ofNat 32 a ∧ t.out.head? = some .abort)
  ∧ (∀ (s : State) (a len : Nat) (d : List Byte), s.mbx.pci.d3hot = false → s.bar4Reaches a d.length = true →
      firewalled.any (touches a d.length) = true →
      Does (.hostHbmAccess a len (some d)) s [.regs, .log, .logSeq, .mbx, .pmu, .out, .fresh]
        (regOrPmu [Reg.MEM_FAULT, Reg.MEM_FAULT_ADDR_LO, Reg.MEM_FAULT_ADDR_HI, Reg.MEM_FW_VIOLATIONS, Reg.MEM_STATUS, Reg.DEV_STATUS])
        fun t => t.rd Reg.MEM_FW_VIOLATIONS = s.rd Reg.MEM_FW_VIOLATIONS + 1 ∧ Entered 0x0012 22 (a % 2 ^ 38 + 2 ^ 63) t)
  ∧ (∀ (s : State) (a len : Nat) (d : List Byte), s.mbx.pci.d3hot = true →
      Gives (.hostHbmAccess a len none) s (s.unsupported.emit .unsupported) ∧ Gives (.hostHbmAccess a len (some d)) s s.unsupported)
  ∧ (∀ (s : State) (a len : Nat) (d : List Byte), s.mbx.pci.d3hot = false →
      (s.bar4Reaches a len = false → Gives (.hostHbmAccess a len none) s (s.emit .abort))
      ∧ (s.bar4Reaches a d.length = false → Gives (.hostHbmAccess a len (some d)) s s.badAccess))
  ∧ (∀ s : State, Gives .hbmRefresh s { s with mem := { s.mem with openRows := [], refreshHot := s.mem.hotDue } })
  ∧ (∀ (s : State) (g b : Nat), Gives (.rowIdleClose g b) s { s with mem := { s.mem with openRows := tdel s.mem.openRows (64 * b + g) } })
  ∧ (∀ (s : State) (p : Nat), Gives (.masterResetRetire p) s { s with mem := { s.mem with retiring := tdel s.mem.retiring p } })
  ∧ (∀ s : State,
      (s.mem.panic0 = true → s.mem.long0 = false → Does (.panicLongTimer 0) s [.regs, .mem] (regIn [Reg.MEM_PANIC_LONG, Reg.MEM_STATUS]) fun t =>
        t.mem = { s.mem with long0 := true } ∧ t.rd Reg.MEM_PANIC_LONG = s.rd Reg.MEM_PANIC_LONG + 1)
      ∧ (s.mem.panic1 = true → s.mem.long1 = false → Does (.panicLongTimer 1) s [.regs, .mem] (regIn [Reg.MEM_PANIC_LONG, Reg.MEM_STATUS]) fun t =>
        t.mem = { s.mem with long1 := true } ∧ t.rd Reg.MEM_PANIC_LONG = s.rd Reg.MEM_PANIC_LONG + 1))

/-- The next block starts once it may: on an unnumbered unit with room, within the power, T_max at most 115 degrees C and no
supply warning; a numbered unit without a grant asks once and waits. The end of a running block leaves its result, a failed
one marked; the last block of a test, or the block boundary after a stop, ends the test: the record is written, SELFTEST_DONE
raised, the device HALTED. A grant that does not come ends the test so. A waiting command is settled after. Where the spec is
silent this follows the model's choice: log entries 58 and 127. -/
def Obligations.SelftestBlocks : Prop :=
  let started (s : State) : State := { s with dev := { s.dev with test := { s.dev.test with
    next := s.dev.test.next + 1, running := s.dev.test.running ++ [⟨s.dev.test.next, s.time.up⟩] } } }
  (∀ s : State, s.blockDue = false → Gives .selftestBlockStart s s)
  ∧ (∀ s : State, s.blockDue = true → (s.numbered = false ∨ s.dev.test.granted.contains s.dev.test.next = true) →
      (s.blockFits = true ∧ s.pwr.tMax ≤ 460 ∧ s.pwr.warn = none → Gives .selftestBlockStart s (started s))
      ∧ (s.blockFits = false ∨ 460 < s.pwr.tMax ∨ s.pwr.warn.isSome = true → Gives .selftestBlockStart s s))
  ∧ (∀ s : State, s.blockDue = true → s.numbered = true → s.dev.test.granted.contains s.dev.test.next = false →
      (s.dev.test.asked = true → Gives .selftestBlockStart s s)
      ∧ (s.dev.test.asked = false → s.rat.manager = false → Does .selftestBlockStart s [.regs, .dev, .pmu, .rat, .out] anyReg fun t =>
          t.dev = { s.dev with test := { s.dev.test with asked := true } } ∧ t.rat.seq = (s.rat.seq + 1) % 2 ^ 32
            ∧ t.rat.grants = s.rat.grants ∧ t.rat.waiting = s.rat.waiting))
  ∧ (∀ (s : State) (b : Nat) (pass : Bool), s.testRuns = true → s.dev.test.granted = [] →
      (s.dev.test.running.any (·.block == b) = false → Gives (.selftestBlockEnd b pass) s s)
      ∧ (s.dev.test.running.any (·.block == b) = true →
          let rest := s.dev.test.running.filter (·.block != b)
          let dev := { s.dev with test := { s.dev.test with
            running := rest, tested := s.dev.test.tested ||| bit64 b
            failed := if pass then s.dev.test.failed else s.dev.test.failed ||| bit64 b } }
          let eng := if pass then s.eng else s.eng.markBlock b
          (rest ≠ [] ∨ s.ctl.restarting = true ∨ (s.dev.test.stopping = false ∧ s.dev.test.next < 50) →
            Gives (.selftestBlockEnd b pass) s { s with dev := dev, eng := eng })
          ∧ (rest = [] → s.ctl.restarting = false → s.dev.test.stopping = true ∨ 50 ≤ s.dev.test.next →
              let u := ({ s with dev := dev, eng := eng } : State).endTest
              exec (.selftestBlockEnd b pass) s = .next u.settleService ∧ u.dev.state = .halted ∧ u.eng = eng ∧ u.mem = s.mem
                ∧ u.chans = s.chans ∧ u.dev.nvm.keys = s.dev.nvm.keys ∧ u.dev.test.tested = dev.test.tested
                ∧ Entered 0x0082 0xFF (bitCount dev.test.tested + 2 ^ 16 * bitCount dev.test.failed
                    + (if dev.test.tested = allBlocks then 0 else 2 ^ 32)) u)))
  ∧ (∀ s : State, (s.dev.state ≠ .testing ∨ s.dev.test.asked = false) → s.mbx.held = none → Gives .testGrantTimeout s s)
  ∧ (∀ s : State, s.testRuns = true → s.dev.test.asked = true → s.dev.test.granted = [] → s.dev.test.running = [] →
      s.ctl.restarting = false →
      let u := ({ s with dev := { s.dev with test := { s.dev.test with stopping := true, asked := false } } } : State).endTest
      exec .testGrantTimeout s = .next u.settleService ∧ u.dev.state = .halted ∧ u.dev.test.asked = false ∧ u.rat = s.rat)
  ∧ (∀ (s : State) (st i h : Nat) (x : ImageInfo) (boot : Bool), s.dev.fwWrite = some (i, h, x, boot) →
      Does (.firmwareWriteDone st) s [.regs, .dev, .log, .logSeq, .mbx, .out] (regIn [Reg.DEV_STATUS]) fun t =>
        Entered 0x0081 i st t ∧ (st = 0 ∧ boot = true → t.dev.nvm.prefer = some i ∧ t.dev.nvm.trial = true)
          ∧ (st = 0 → (if i = 0 then t.dev.nvm.imageA else t.dev.nvm.imageB) = slotOf x)
          ∧ (st ≠ 0 → t.dev = { s.dev with fwWrite := none }) ∧ t.dev.state = s.dev.state ∧ t.dev.fwWrite = none)
  ∧ (∀ (s : State) (st : Nat), s.dev.fwWrite = none → Gives (.firmwareWriteDone st) s s)

/-- Loss of signal and loss of CDR lock each count once in LANE_LOCK_LOSSES, set their bit and lose symbol lock; a lane of an
UP port takes the port to FAILED, whose link layer starts again: a leg waits for a hello with its unacknowledged records in
its outage queue, a ratline port discards its frames. SYMBOL_LOCK on a lane able to lock sets sym_lock and the polarity and a
ratline port that is DOWN trains. Every code error counts, the fourth within 64 symbols loses symbol lock. A FOM below 32
counts on an UP link and changes no link state. Every slip counts, the fourth within 1 ms fails the port. FAILED ends in DOWN
or TRAINING, but not while REFCLK_LINK is lost. Where the spec is silent this follows the model's choice: log entries 61 and
103. -/
def Obligations.LaneDetectors : Prop :=
  let cells (l : Nat) : List Nat := [Reg.LANE_LOCK_LOSSES l, Reg.LANE_STATUS l] ++ (match lanePort l with
    | some q => [Reg.LINK_RETRAINS q, Reg.LINK_STATUS q, Reg.GRP_LINK_FAILS, Reg.GRP_STATUS, Reg.DEV_STATUS]
    | none => [])
  let restarted (s t : State) (q : Nat) : Prop :=
    (q < 2 → t.rat = s.rat ∧ t.leg q = { s.leg q with
      helloOk := false, nextLink := 0, rxLink := 0, replay := []
      outage := takeLast 512 ((s.leg q).replay.map (·.msg) ++ (s.leg q).outage) })
    ∧ (2 ≤ q → t.grp = s.grp ∧ t.rat = { s.rat with
      replay := tdel s.rat.replay (q - 2), nextLink := tdel s.rat.nextLink (q - 2), rxLink := tdel s.rat.rxLink (q - 2) })
  let kept (s t : State) : Prop := t.grp = s.grp ∧ t.rat = s.rat
  let falls (s t : State) (l : Nat) : Prop :=
    (∀ q, lanePort l = some q → s.portUp q = true →
      (t.portOf q).st = .failed ∧ t.rd (Reg.LINK_RETRAINS q) = s.rd (Reg.LINK_RETRAINS q) + 1 ∧ restarted s t q
        ∧ (q < 2 → Entered 0x0052 q 2 t))
    ∧ ((∀ q, lanePort l = some q → s.portUp q = false) → kept s t)
  (∀ (s : State) (l : Nat), l ≤ 25 →
    ((s.laneOf l).los = true → Gives (.laneLosSet l) s s)
    ∧ ((s.laneOf l).los = false → Does (.laneLosSet l) s [.regs, .log, .logSeq, .mbx, .grp, .lane, .rat, .out] (regIn (cells l)) fun t =>
        (t.laneOf l).los = true ∧ (t.laneOf l).symLock = false ∧ (t.laneOf l).lol = (s.laneOf l).lol ∧ falls s t l
          ∧ t.rd (Reg.LANE_LOCK_LOSSES l) = s.rd (Reg.LANE_LOCK_LOSSES l) + 1
          ∧ t.rd (Reg.LANE_STATUS l) = (s.rd (Reg.LANE_STATUS l) ||| 0x100)
          ∧ (∀ k, k ∉ portLanes ((lanePort l).getD 4) → k ≠ l → t.laneOf k = s.laneOf k))
    ∧ Does (.laneLosClear l) s [.lane] noReg (fun t => t.laneOf l = { s.laneOf l with los := false }
        ∧ t.lane.ports = s.lane.ports ∧ ∀ k, k ≠ l → t.laneOf k = s.laneOf k)
    ∧ Does (.cdrLockChange l true) s [.lane] noReg (fun t => (t.laneOf l).lol = false ∧ (t.laneOf l).fomValid = true
        ∧ (t.laneOf l).fom = (s.laneOf l).fom ∧ t.lane.ports = s.lane.ports)
    ∧ ((s.laneOf l).lol = true → Gives (.cdrLockChange l false) s s)
    ∧ ((s.laneOf l).lol = false → Does (.cdrLockChange l false) s [.regs, .log, .logSeq, .mbx, .grp, .lane, .rat, .out] (regIn (cells l))
        fun t => (t.laneOf l).lol = true ∧ (t.laneOf l).symLock = false ∧ falls s t l
          ∧ t.rd (Reg.LANE_LOCK_LOSSES l) = s.rd (Reg.LANE_LOCK_LOSSES l) + 1
          ∧ t.rd (Reg.LANE_STATUS l) = (s.rd (Reg.LANE_STATUS l) ||| 0x200)))
  ∧ (∀ (s : State) (l q : Nat) (inv : Bool), lanePort l = some q → (s.laneOf l).enabled = true → (s.laneOf l).testMode = false →
      (s.laneOf l).los = false → (s.laneOf l).lol = false → Does (.symbolLock l inv) s [.lane] noReg fun t =>
        (t.laneOf l).symLock = true ∧ (t.laneOf l).polInv = inv ∧ (t.laneOf l).errAt = []
          ∧ (t.portOf q).st = (if 2 ≤ q ∧ (s.portOf q).st = .down then .training else (s.portOf q).st))
  ∧ (∀ (s : State) (l q n : Nat), lanePort l = some q →
      Does (.codeError l n) s [.regs, .log, .logSeq, .mbx, .pmu, .grp, .lane, .rat, .out] (regOrPmu (Reg.LANE_CODE_ERRORS l :: cells l)) fun t =>
        let near := (s.laneOf l).errAt.filter fun e => decide (n < e + 64)
        t.rd (Reg.LANE_CODE_ERRORS l) = s.rd (Reg.LANE_CODE_ERRORS l) + 1 ∧ wbit (t.rd (Reg.LANE_STATUS l)) 11 = true
          ∧ (near.length < 3 → (t.laneOf l).symLock = (s.laneOf l).symLock ∧ (t.laneOf l).errAt = near ++ [n]
              ∧ t.lane.ports = s.lane.ports ∧ kept s t)
          ∧ (3 ≤ near.length → (t.laneOf l).symLock = false ∧ (t.laneOf l).errAt = []
              ∧ ((s.laneOf l).symLock = true → s.portUp q = true → (t.portOf q).st = .failed ∧ restarted s t q)
              ∧ ((s.laneOf l).symLock = false ∨ s.portUp q = false → kept s t)))
  ∧ (∀ (s : State) (l q fom : Nat), lanePort l = some q → s.portUp q = true → fom < 32 →
      Does (.laneFomLow l fom) s [.regs, .lane] (regIn [Reg.LANE_FOM_LOW l, Reg.LANE_STATUS l]) fun t =>
        t.rd (Reg.LANE_FOM_LOW l) = s.rd (Reg.LANE_FOM_LOW l) + 1 ∧ t.rd (Reg.LANE_STATUS l) = (s.rd (Reg.LANE_STATUS l) ||| 0x400)
          ∧ (t.laneOf l).fom = fom ∧ t.lane.ports = s.lane.ports)
  ∧ (∀ (s : State) (q : Nat), q ≤ 3 → Does (.elasticSlip q) s [.regs, .log, .logSeq, .mbx, .grp, .lane, .rat, .out]
      (regIn [Reg.LINK_ELASTIC_SLIPS q, Reg.LINK_STATUS q, Reg.LINK_RETRAINS q, Reg.GRP_LINK_FAILS, Reg.GRP_STATUS, Reg.DEV_STATUS]) fun t =>
        let near := (s.portOf q).slips.filter fun e => decide (s.time.up < e + 1000000)
        t.rd (Reg.LINK_ELASTIC_SLIPS q) = s.rd (Reg.LINK_ELASTIC_SLIPS q) + 1 ∧ wbit (t.rd (Reg.LINK_STATUS q)) 18 = true
          ∧ (near.length < 3 → t.portOf q = { s.portOf q with slips := near ++ [s.time.up] } ∧ t.lane.lanes = s.lane.lanes ∧ kept s t)
          ∧ (3 ≤ near.length → (t.portOf q).st = .failed ∧ wbit (t.rd (Reg.LINK_STATUS q)) 17 = true
              ∧ ((s.portOf q).st = .failed → kept s t) ∧ ((s.portOf q).st ≠ .failed → restarted s t q)))
  ∧ (∀ (s : State) (q : Nat), q ≤ 3 → (s.portOf q).st = .failed →
      (s.dev.linkRefLost = true → Gives (.failedHoldExpiry q) s s)
      ∧ (s.dev.linkRefLost = false → Does (.failedHoldExpiry q) s [.lane] noReg fun t =>
          t.portOf q = { s.portOf q with st := if s.portDark q then .down else .training } ∧ t.lane.lanes = s.lane.lanes))

/-- The lanes of a stay port that have symbol lock are ordered by ALN; two lanes of one number, or a skew over 16 words, is a
training failure. A TRN set moves the cursors a step in 6 bits and counts ready in a row; on an UP port it begins training
again. A training step judges the last: kept above 2, else reversed, ffe_done after four directions, trained at FOM 96 and
above; after 8 ms FOM 64 is enough, else the port fails. A port is UP when every lane is trained and has had ready sixteen
times. An Ethernet link comes up on an enabled interface and its loss sets link_down_seen and discards and counts what it
would send now. Where the spec is silent this follows the model's choice: log entries 61 and 103. -/
def Obligations.LinkTraining : Prop :=
  let ready (s : State) (q : Nat) : Bool := (s.portOf q).st == .training && (decide (2 ≤ q) || (s.portOf q).deskewed) &&
    (portLanes q).all fun l => (s.laneOf l).trained && decide (16 ≤ (s.laneOf l).readyRun)
  let all : List Fld := [.regs, .mbx, .pmu, .grp, .lane, .rat, .out]
  let restarted (s t : State) (q : Nat) : Prop :=
    (q < 2 → t.rat = s.rat ∧ t.leg q = { s.leg q with
      helloOk := false, nextLink := 0, rxLink := 0, replay := []
      outage := takeLast 512 ((s.leg q).replay.map (·.msg) ++ (s.leg q).outage) })
    ∧ (2 ≤ q → t.grp = s.grp ∧ t.rat = { s.rat with
      replay := tdel s.rat.replay (q - 2), nextLink := tdel s.rat.nextLink (q - 2), rxLink := tdel s.rat.rxLink (q - 2) })
  (∀ (s : State) (q : Nat), (ready s q = false → s.settleUp q = s) ∧ (ready s q = true → ((s.settleUp q).portOf q).st = .up))
  ∧ (∀ (s : State) (q k : Nat) (nums : List Nat), q ≤ 1 → (s.portOf q).deskewed = false → (s.portOf q).st ≠ .failed →
      ((portLanes q).all fun l => (s.laneOf l).symLock) = true →
      (hasRepeat nums = true ∨ 16 < k → Does (.aln q nums k) s [.regs, .log, .logSeq, .mbx, .grp, .lane, .out]
        (regIn [Reg.LINK_TRAIN_FAILS q, Reg.LINK_STATUS q, Reg.LINK_RETRAINS q, Reg.GRP_LINK_FAILS, Reg.GRP_STATUS, Reg.DEV_STATUS]) fun t =>
          t.rd (Reg.LINK_TRAIN_FAILS q) = s.rd (Reg.LINK_TRAIN_FAILS q) + 1 ∧ (t.portOf q).st = .failed ∧ restarted s t q
            ∧ wbit (t.rd (Reg.LINK_STATUS q)) 16 = true ∧ Entered 0x0052 q 2 t)
      ∧ (hasRepeat nums = false → k ≤ 16 → Does (.aln q nums k) s [.lane] noReg fun t =>
          (t.portOf q).deskewed = true ∧ (t.portOf q).skewMax = k
            ∧ (t.portOf q).st = (if (s.portOf q).st = .down then .training else (s.portOf q).st)
            ∧ (∀ i, i < 4 → i < nums.length → (t.laneOf ((portLanes q).getD i 0)).number = some (nums.getD i 0))))
  ∧ (∀ (s : State) (q : Nat) (x : TrnSet), (s.portOf q).st = .up → Does (.trn q x) s [.grp, .lane, .rat] noReg fun t =>
      (t.portOf q).st = .training ∧ restarted s t q ∧ ∀ l ∈ portLanes q, t.laneOf l = (s.laneOf l).retrain)
  ∧ (∀ (s : State) (q l : Nat) (x : TrnSet), (s.portOf q).st = .training → s.laneBy q x.lane = some l →
      let u := s.updLane l fun y => { y with
        pre := cursorStep y.pre x.pre, post := cursorStep y.post x.post, readyRun := if x.ready then y.readyRun + 1 else 0 }
      exec (.trn q x) s = .next (u.settleUp q) ∧ Touches all s (u.settleUp q))
  ∧ (∀ (v : Int) (r : Nat), -32 ≤ v → v ≤ 31 → -32 ≤ cursorStep v r ∧ cursorStep v r ≤ 31 ∧ (r = 1 → v < 31 → cursorStep v r = v + 1)
      ∧ (r = 2 → -32 < v → cursorStep v r = v - 1) ∧ (r = 0 → cursorStep v r = v))
  ∧ (∀ (s : State) (q : Nat) (x : TrnSet), (s.portOf q).st = .down ∨ (s.portOf q).st = .failed → Gives (.trn q x) s s)
  ∧ (∀ (s : State) (l q fom : Nat), lanePort l = some q → (s.portOf q).st = .training → (s.laneOf l).los = false →
      (s.laneOf l).lol = false → (s.laneOf l).trained = false →
      let r := (s.laneOf l).adapt fom
      let u := s.updLane l fun _ => { r.1 with trained := r.1.ffeDone && decide (96 ≤ fom) }
      let c := r.2.getD (0, 0)
      exec (.trainingStepTimer l fom) s = .next ((u.emit (.trn (u.trnSet q l c.1 c.2))).settleUp q)
        ∧ Touches all s ((u.emit (.trn (u.trnSet q l c.1 c.2))).settleUp q))
  ∧ (∀ (x : Lane) (fom : Nat), (x.adapt fom).1.fom = fom
      ∧ (∀ d was, x.lastStep = some (d, was) → was + 2 < fom → (x.adapt fom).1.lastStep = some (d, fom) ∧ (x.adapt fom).1.misses = 0
          ∧ (x.adapt fom).2 = some (stepCodes d false))
      ∧ (∀ d was, x.lastStep = some (d, was) → fom ≤ was + 2 → (x.adapt fom).1.lastStep = none
          ∧ (x.adapt fom).1.ffeDone = decide (3 ≤ x.misses) ∧ (x.adapt fom).2 = some (stepCodes d true))
      ∧ (x.lastStep = none → x.ffeDone = true → (x.adapt fom).2 = none)
      ∧ (x.lastStep = none → x.ffeDone = false → (x.adapt fom).2 = some (stepCodes x.tryDir false)))
  ∧ (∀ (s : State) (q : Nat) (foms : List Nat), q ≤ 3 → (s.portOf q).st = .training →
      let u := ((portLanes q).zip foms).foldl (fun (t : State) e => t.updLane e.1 fun x =>
        { x with trained := x.trained || decide (64 ≤ e.2) }.noteFom e.2) s
      (((portLanes q).all fun l => (u.laneOf l).trained) = true → exec (.trainingTimeout q foms) s = .next (u.settleUp q))
      ∧ (((portLanes q).all fun l => (u.laneOf l).trained) = false →
          Does (.trainingTimeout q foms) s [.regs, .log, .logSeq, .mbx, .grp, .lane, .rat, .out]
            (regIn [Reg.LINK_TRAIN_FAILS q, Reg.LINK_STATUS q, Reg.LINK_RETRAINS q, Reg.GRP_LINK_FAILS, Reg.GRP_STATUS, Reg.DEV_STATUS]) fun t =>
              t.rd (Reg.LINK_TRAIN_FAILS q) = s.rd (Reg.LINK_TRAIN_FAILS q) + 1 ∧ (t.portOf q).st = .failed ∧ restarted s t q))
  ∧ (∀ (s : State) (i : Nat), s.ifExists i = true → (s.iface i).enabled = true → ((s.ifLanes i).any fun l => (s.laneOf l).testMode) = false →
      Does (.ethLinkUp i) s [.net, .lane] noReg fun t => t.iface i = { s.iface i with linkUp := true }
        ∧ (∀ k, k ≠ i → t.iface k = s.iface k) ∧ ∀ l ∈ s.ifLanes i, (t.laneOf l).los = false ∧ (t.laneOf l).lol = false)
  ∧ (∀ (s : State) (i : Nat), ((s.iface i).linkUp = false → Gives (.ethLinkDown i) s s)
      ∧ ((s.iface i).linkUp = true → s.grp.role ≠ .active →
          Does (.ethLinkDown i) s [.regs, .time, .net, .tx, .txc]
            (regIn ([Reg.NET_PORT_STATUS i, Reg.TIME_STATUS, Reg.NET_TX_LINK_DROPS i, Reg.NET_TX_STATUS i]
              ++ (s.txIf i).queued.map fun w => Reg.EGR_PACKETS w.pkt.chan)) fun t =>
            t.iface i = { s.iface i with linkUp := false } ∧ (∀ k, k ≠ i → t.iface k = s.iface k)
              ∧ t.rd (Reg.NET_PORT_STATUS i) = (s.rd (Reg.NET_PORT_STATUS i) ||| 0x100)
              ∧ (t.txIf i).queued = (s.txIf i).queued.filter (fun w => !w.eligible) ∧ (t.txIf i).ctl = []
              ∧ (∀ k, k ≠ i → t.txIf k = s.txIf k)
              ∧ t.rd (Reg.NET_TX_LINK_DROPS i) = s.rd (Reg.NET_TX_LINK_DROPS i)
                + BitVec.ofNat 32 (((s.txIf i).queued.filter (·.eligible)).length + (s.txIf i).ctl.length)))

/-- On an interface that exists, is enabled and up: a frame outside 64 to 9,216 bytes or with a wrong FCS counts as
NET_RX_FCS_ERRORS; every other one an interface with a MAC address takes counts in NET_RX_FRAMES and is parsed. Flow control
counts as a fixed drop, a malformed frame as malformed; a frame of the fixed rules takes from the bucket of 64 packets and,
where it holds one, is passed to firmware; any other frame and a UDP packet without an entry for its key on that interface is
unmatched. An entry accepts a packet its bucket holds and counts it, else it counts a drop; of PTP and management entries a
packet with the right payload type goes to firmware and one with another counts a drop. Where the spec is silent this follows
the model's choice: log entries 12, 99 and 118. -/
def Obligations.FramesIn : Prop :=
  let cells (i : Nat) : List Nat := [Reg.MEM_PANICS, Reg.NET_RX_FCS_ERRORS i, Reg.NET_RX_FRAMES i, Reg.NET_PORT_STATUS i,
    Reg.NET_FIXED_DROPS i, Reg.NET_MALFORMED i, Reg.NET_UNMATCHED i]
  let counted (i : Nat) (f : RxFrame) (k : Nat) (s : State) (P : State → Prop) : Prop :=
    Does (.ethernetFrameRx i f k) s [.regs, .mem, .pmu, .net] (regOrPmu (cells i)) fun t =>
      t.rd (Reg.NET_RX_FRAMES i) = s.rd (Reg.NET_RX_FRAMES i) + 1 ∧ t.mem.hbm = s.mem.hbm ∧ t.net.merges = s.net.merges ∧ P t
  let entry (s : State) (u : Datagram) : Option Nat := (findKey s.net.flows ⟨u.dst, u.src, u.port, u.vid⟩).orElse
    fun _ => findKey s.net.flows ⟨u.dst, 0, u.port, u.vid⟩
  (∀ (s : State) (i k : Nat) (f : RxFrame),
    let takes : Bool := s.ifExists i && (s.iface i).enabled && (s.iface i).linkUp
    let good : Bool := decide (64 ≤ f.bytes.length) && decide (f.bytes.length ≤ 9216) && fcsOk f.bytes
    let mine : Bool := (s.iface i).mac.isSome || groupMac (BitVec.ofNat 48 (beNat f.bytes 0 6))
    let at_ := s.ingressOf i f
    (takes = false → Gives (.ethernetFrameRx i f k) s s)
    ∧ (takes = true → good = false → Does (.ethernetFrameRx i f k) s [.regs, .mem] (regIn (cells i)) fun t =>
        t.rd (Reg.NET_RX_FCS_ERRORS i) = s.rd (Reg.NET_RX_FCS_ERRORS i) + 1 ∧ t.rd (Reg.NET_RX_FRAMES i) = s.rd (Reg.NET_RX_FRAMES i)
          ∧ t.rd (Reg.NET_PORT_STATUS i) = (s.rd (Reg.NET_PORT_STATUS i) ||| 0x800) ∧ t.mem.hbm = s.mem.hbm)
    ∧ (takes = true → good = true → mine = false → Does (.ethernetFrameRx i f k) s [.regs, .mem] (regIn [Reg.MEM_PANICS]) fun t =>
        t.mem.hbm = s.mem.hbm)
    ∧ (takes = true → good = true → mine = true →
        (parseFrame (s.iface i) f.bytes = .flowControl → counted i f k s fun t =>
          t.rd (Reg.NET_FIXED_DROPS i) = s.rd (Reg.NET_FIXED_DROPS i) + 1 ∧ t.net = s.net)
        ∧ (parseFrame (s.iface i) f.bytes = .malformed → counted i f k s fun t =>
            t.rd (Reg.NET_MALFORMED i) = s.rd (Reg.NET_MALFORMED i) + 1 ∧ t.net = s.net
              ∧ t.rd (Reg.NET_PORT_STATUS i) = (s.rd (Reg.NET_PORT_STATUS i) ||| 0x400))
        ∧ (parseFrame (s.iface i) f.bytes = .other → counted i f k s fun t =>
            t.rd (Reg.NET_UNMATCHED i) = s.rd (Reg.NET_UNMATCHED i) + 1 ∧ t.net = s.net
              ∧ t.rd (Reg.NET_PORT_STATUS i) = (s.rd (Reg.NET_PORT_STATUS i) ||| 0x200))
        ∧ (∀ c, parseFrame (s.iface i) f.bytes = .fixed c → counted i f k s fun t => t.net.flows = s.net.flows ∧
            let lv := min (64 * 2 ^ 20) ((s.iface i).fixed +
              (10000 * 2 ^ 20 * at_ / Config.ticksPerSec - 10000 * 2 ^ 20 * (s.iface i).fixedAt / Config.ticksPerSec))
            (2 ^ 20 ≤ lv → (t.iface i).fixed = lv - 2 ^ 20 ∧ t.rd (Reg.NET_FIXED_DROPS i) = s.rd (Reg.NET_FIXED_DROPS i)
                ∧ t.net.toFw = s.net.toFw ++ [(i, c)])
              ∧ (lv < 2 ^ 20 → (t.iface i).fixed = lv ∧ t.rd (Reg.NET_FIXED_DROPS i) = s.rd (Reg.NET_FIXED_DROPS i) + 1
                ∧ t.net.toFw = s.net.toFw))
        ∧ (∀ u, parseFrame (s.iface i) f.bytes = .udp u →
            (entry s u = none → counted i f k s fun t => t.rd (Reg.NET_UNMATCHED i) = s.rd (Reg.NET_UNMATCHED i) + 1 ∧ t.net = s.net)
            ∧ (∀ x, entry s u = some x → ∀ e, tget s.net.flows x = some e →
                (e.arg.ifMask.toNat.testBit i = false → counted i f k s fun t =>
                  t.rd (Reg.NET_UNMATCHED i) = s.rd (Reg.NET_UNMATCHED i) + 1 ∧ t.net = s.net)
                ∧ (e.arg.ifMask.toNat.testBit i = true → (e.police f.bytes.length at_).2 = false → counted i f k s fun t =>
                    tget t.net.flows x = some { e with bucket := e.level at_, at_ := at_, drops := e.drops + 1 }
                      ∧ ∀ y, y ≠ x → tget t.net.flows y = tget s.net.flows y)
                ∧ (e.arg.ifMask.toNat.testBit i = true → (e.police f.bytes.length at_).2 = true → e.arg.kind = 3 ∨ e.arg.kind = 5 →
                    counted i f k s fun t => let w := (e.police f.bytes.length at_).1
                      if e.arg.pt = 255 ∨ payloadType u.payload = e.arg.pt then
                        tget t.net.flows x = some w
                          ∧ t.net.toPtp = s.net.toPtp ++ (if e.arg.kind = 3 then [(i, at_, u.payload)] else [])
                          ∧ t.net.toFw = s.net.toFw ++ (if e.arg.kind = 5 then [(i, .other)] else [])
                      else tget t.net.flows x = some { w with drops := w.drops + 1 } ∧ t.net.toPtp = s.net.toPtp
                        ∧ t.net.toFw = s.net.toFw)))))
  ∧ (∀ (e : Flow) (cost at_ : Nat),
      (e.arg.rate = 0 → e.police cost at_ = ({ e with pkts := e.pkts + 1 }, true))
      ∧ (e.arg.rate ≠ 0 → cost * 1024 ≤ e.level at_ →
          e.police cost at_ = ({ e with bucket := e.level at_ - cost * 1024, at_ := at_, pkts := e.pkts + 1 }, true))
      ∧ (e.arg.rate ≠ 0 → e.level at_ < cost * 1024 → (e.police cost at_).2 = false ∧ (e.police cost at_).1.drops = e.drops + 1)
      ∧ e.level at_ ≤ burstEff e.arg * 1024)

/-- The first copy of a number that is not stale is accepted, its path up; another copy within the window is a duplicate of
its entry and leaves the skew, and path A copy in the same cycle takes the place of path B copy; a stale one counts. Every
accepted number raises the newest, the numbers skipped become missing, those 32 or more below are declared. 50 us after the
first later packet a missing number is declared, and requested from no peer by a channel with t_tol = 0; a path of a pair goes
down with its sticky bit. A video, watch or repair packet of an entry reaches the merge of its target, one that does not meet
Table 9-2 is malformed. Where the spec is silent this follows the model's choice: log entry 102. -/
def Obligations.Merging : Prop :=
  let entry (s : State) (u : Datagram) : Option Nat := (findKey s.net.flows ⟨u.dst, u.src, u.port, u.vid⟩).orElse
    fun _ => findKey s.net.flows ⟨u.dst, 0, u.port, u.vid⟩
  (∀ (s : State) (m x path q t0 : Nat) (p : RtpPacket), path < 3 →
    let g := (s.merge m).pathUp path
    (tget (s.merge m).got q = none → (s.merge m).stale q = false →
      let r := s.mergeCopy m x path q t0 p
      let b := ((g.accept q t0 x).1.advance)
      r.2 = .accepted ∧ r.1.merge m = (if s.member = true then b.1.keep q p else b.1) ∧ r.1.net.flows = s.net.flows
        ∧ r.1.rd (Reg.NET_MERGE_MISSING m) = s.rd (Reg.NET_MERGE_MISSING m) + BitVec.ofNat 32 b.2)
    ∧ (tget (s.merge m).got q = none → (s.merge m).stale q = true →
        let r := s.mergeCopy m x path q t0 p
        r.2 = .dropped ∧ r.1.merge m = g ∧ r.1.rd (Reg.NET_MERGE_STALE m) = s.rd (Reg.NET_MERGE_STALE m) + 1
          ∧ r.1.rd (Reg.NET_MERGE_STATUS m) = (s.rd (Reg.NET_MERGE_STATUS m) ||| 0x200)
          ∧ tget r.1.net.flows x = (tget s.net.flows x).map fun e => { e with dups := e.dups + 1 })
    ∧ (∀ y, tget (s.merge m).got q = some y →
        let r := s.mergeCopy m x path q t0 p
        let was := match tget s.net.flows y.2 with | some f => f.arg.path | none => 2
        (r.1.merge m).newest = (s.merge m).newest ∧ (r.1.merge m).missing = (s.merge m).missing
          ∧ wbit (r.1.rd (Reg.NET_MERGE_SKEW m)) 31 = true
          ∧ (if y.1 = t0 ∧ path = 0 ∧ was = 1 then r.2 = .replaced ∧ tget (r.1.merge m).got q = some (t0, x)
             else r.2 = .dropped ∧ r.1.merge m = g)))
  ∧ (∀ (g : Merge) (q t0 x : Nat),
      let a := (g.accept q t0 x).1
      tget a.got q = some (t0, x) ∧ a.newest = t0 ∧ (∀ hi, g.newestSeq = some hi → a.newestSeq = some (max hi q))
        ∧ (g.newestSeq = none → a.newestSeq = some q)
        ∧ (∀ hi k, g.newestSeq = some hi → hi < k → k < q → tget a.missing k = some t0)
        ∧ (∀ k ∈ (g.accept q t0 x).2, k + 32 ≤ q ∧ k ∈ a.declared))
  ∧ (∀ (s : State) (i k : Nat) (f : RxFrame) (u : Datagram) (p : RtpPacket) (x : Nat) (e : Flow),
      (s.ifExists i && (s.iface i).enabled && (s.iface i).linkUp && (s.iface i).mac.isSome) = true →
      (decide (64 ≤ f.bytes.length) && decide (f.bytes.length ≤ 9216) && fcsOk f.bytes) = true →
      parseFrame (s.iface i) f.bytes = .udp u → parseRtp u.payload = some p →
      entry s u = some x → tget s.net.flows x = some e →
      e.arg.ifMask.toNat.testBit i = true → (e.police f.bytes.length (s.ingressOf i f)).2 = true →
      e.arg.pt = 255 ∨ payloadType u.payload = e.arg.pt →
      let at_ := s.ingressOf i f
      let v := (((s.panicLevel 0 k).bump (Reg.NET_RX_FRAMES i)).pmuEvent 7 0).updFlow x fun _ => (e.police f.bytes.length at_).1
      (e.arg.kind = 1 → exec (.ethernetFrameRx i f k) s = .next (v.essence x e.arg e.arg.path (some i) p at_))
      ∧ (e.arg.kind = 2 → exec (.ethernetFrameRx i f k) s = .next (v.watch e.arg.target (BitVec.ofNat 48 (beNat f.bytes 6 6)) p))
      ∧ (e.arg.kind = 4 → ∀ o w, restoreRtp p = some o → tget v.net.flows e.arg.target = some w →
          exec (.ethernetFrameRx i f k) s = .next (v.essence x w.arg 2 (some i) o at_))
      ∧ (e.arg.kind = 1 → e.arg.path < 2 →
          (v.targetTakes x e.arg p at_ = none → exec (.ethernetFrameRx i f k) s = .next (v.flowDrop x))
          ∧ (v.targetTakes x e.arg p at_ = some true → v.decodeEssence e.arg.essence e.arg.target p = none →
              exec (.ethernetFrameRx i f k) s = .next (v.malformed i))
          ∧ (∀ d, v.targetTakes x e.arg p at_ = some true → v.decodeEssence e.arg.essence e.arg.target p = some d →
              let m := mergeIndex e.arg.essence e.arg.target
              let q := extendSeq (essenceSeq e.arg.essence p).2 (v.merge m).newestSeq (essenceSeq e.arg.essence p).1
              let r := v.mergeCopy m x e.arg.path q at_ p
              exec (.ethernetFrameRx i f k) s
                = .next (if r.2 = .dropped then r.1 else r.1.deliver e.arg.target q at_ (some i) p d (r.2 == .replaced)))))
  ∧ (∀ (s : State) (m q : Nat), thas (s.merge m).missing q = true → (s.merge m).declared.contains q = false →
      (∀ k ∈ tkeys (s.merge m).missing, k ≠ q → k % 2 ^ 32 ≠ q % 2 ^ 32) → s.grp.role = .none ∨ s.noRepair m = true →
      Does (.seqMissingTimeout m q) s [.net] noReg fun t =>
        t.merge m = { s.merge m with declared := (s.merge m).declared ++ [q] } ∧ ∀ k, k ≠ m → t.merge k = s.merge k)
  ∧ (∀ (s : State) (m q : Nat), (s.merge m).missing = [] → Gives (.seqMissingTimeout m q) s s)
  ∧ (∀ (s : State) (m : Nat), s.paired m = true →
      ((s.merge m).upA = true → Does (.mergePathDown m 0) s [.regs, .net] (regIn [Reg.NET_MERGE_STATUS m]) fun t =>
        t.merge m = { s.merge m with upA := false } ∧ t.rd (Reg.NET_MERGE_STATUS m) = (s.rd (Reg.NET_MERGE_STATUS m) ||| 0x100))
      ∧ ((s.merge m).upB = true → Does (.mergePathDown m 1) s [.regs, .net] (regIn [Reg.NET_MERGE_STATUS m]) fun t =>
        t.merge m = { s.merge m with upB := false } ∧ t.rd (Reg.NET_MERGE_STATUS m) = (s.rd (Reg.NET_MERGE_STATUS m) ||| 0x100)))

/-- FIRMWARE_CONTROL_PACKET takes the oldest packet passed to firmware from the interface: it answers a resolution of an
address the unit answers for, an echo, and a query with one report for each group held; a report timer reports every group.
The frames wait in queue 3, and are discarded and counted while the link is down or the interface has no MAC address; nothing
is answered during a restart. A pending gate list starts at its base time, or when that is less than 2 us ahead at the first
whole number of cycles after it, which GATE_LATE reports; at its start it operates, a list without entries removing the old
one; an entry change takes the entry at the clock position in the cycle. Where the spec is silent this follows the model's
choice: log entries 72, 99, 101 and 107. -/
def Obligations.ControlAndGates : Prop :=
  let taken (s : State) (e : Nat × CtlPacket) : State := { s with net := { s.net with toFw := s.net.toFw.erase e } }
  let sends (s : State) (i : Nat) (l : List CtlReply) : Prop := s.dev.fatal = false ∧ (s.iface i).linkUp = true
    ∧ (s.iface i).mac.isSome = true ∧ (∀ x ∈ l, x.frame ≤ (s.txIf i).maxF 3)
    ∧ tgetD (s.txIf i).held 3 0 + sumNat (l.map CtlReply.frame) ≤ 262144
  let dead (s : State) (i : Nat) : Prop := s.dev.fatal = false ∧ ((s.iface i).linkUp = false ∨ (s.iface i).mac = none)
  let queued (s t : State) (i : Nat) (l : List CtlReply) : Prop :=
    (t.txIf i).ctl = (s.txIf i).ctl ++ l.map (fun x => ⟨3, x.frame, x⟩) ∧ (t.txIf i).queued = (s.txIf i).queued
      ∧ ∀ k, k ≠ i → t.txIf k = s.txIf k
  let lost (s t : State) (i : Nat) (l : List CtlReply) : Prop :=
    t.rd (Reg.NET_TX_LINK_DROPS i) = s.rd (Reg.NET_TX_LINK_DROPS i) + BitVec.ofNat 32 l.length
  let reports (s : State) (i : Nat) (gs : List Addr) : List CtlReply := (gs.filterMap (groupRec s.net.members i)).map .membership
  let answer (s : State) (i : Nat) : CtlPacket → List CtlReply
    | .resolve a => if s.answersFor i a then [.resolved a] else []
    | .query g => reports s i (if g = 0 then s.groupsAt i else [g])
    | .echo n => [.echo n]
    | .other => []
  (∀ (s : State) (i k : Nat), (s.net.toFw.filter fun e => e.1 == i).length ≤ k → Gives (.firmwareControlPacket i k) s s)
  ∧ (∀ (s : State) (i k : Nat) (e : Nat × CtlPacket), (s.net.toFw.filter fun e => e.1 == i)[k]? = some e →
      (s.ctl.restarting = true → Gives (.firmwareControlPacket i k) s (taken s e))
      ∧ (s.ctl.restarting = false → answer s i e.2 = [] → Gives (.firmwareControlPacket i k) s (taken s e))
      ∧ (s.ctl.restarting = false → sends s i (answer s i e.2) → Does (.firmwareControlPacket i k) s [.net, .tx] noReg fun t =>
          t.net = (taken s e).net ∧ queued s t i (answer s i e.2))
      ∧ (s.ctl.restarting = false → dead s i → Does (.firmwareControlPacket i k) s [.net, .regs]
          (regIn [Reg.NET_TX_LINK_DROPS i, Reg.NET_TX_STATUS i]) fun t => t.net = (taken s e).net ∧ lost s t i (answer s i e.2)))
  ∧ (∀ (s : State) (i : Nat), (s.ctl.restarting = true → Gives (.membershipReportTimer i) s s)
      ∧ (s.ctl.restarting = false → sends s i (reports s i (s.groupsAt i)) → Does (.membershipReportTimer i) s [.tx] noReg fun t =>
          queued s t i (reports s i (s.groupsAt i)))
      ∧ (s.ctl.restarting = false → dead s i → Does (.membershipReportTimer i) s [.regs]
          (regIn [Reg.NET_TX_LINK_DROPS i, Reg.NET_TX_STATUS i]) fun t => lost s t i (reports s i (s.groupsAt i))))
  ∧ (∀ (s : State) (i : Nat),
      (((s.txIf i).pend.isNone || (s.txIf i).taken) = true → Gives (.gateListTaken i) s s)
      ∧ (((s.txIf i).pend.isNone || !(s.txIf i).taken) = true → Gives (.gateListStart i) s s)
      ∧ ((s.txIf i).oper = none → Gives (.gateEntryChange i) s s)
      ∧ (∀ g, (s.txIf i).pend = some g → (s.txIf i).taken = false →
          (s.time.nowNs + 2000 ≤ g.base → Does (.gateListTaken i) s [.tx] noReg fun t =>
            t.txIf i = { s.txIf i with pend := some { g with start := some g.base }, taken := true }
              ∧ ∀ k, k ≠ i → t.txIf k = s.txIf k)
          ∧ (g.base < s.time.nowNs + 2000 → 0 < g.cycle →
              let n := cdiv (s.time.nowNs + 2000 - g.base) g.cycle
              Does (.gateListTaken i) s [.regs, .log, .logSeq, .mbx, .tx, .out] (regIn [Reg.NET_GATE_STATUS i, Reg.DEV_STATUS]) fun t =>
                s.time.nowNs + 2000 ≤ g.base + n * g.cycle ∧ g.base + n * g.cycle < s.time.nowNs + 2000 + g.cycle
                  ∧ t.txIf i = { s.txIf i with pend := some { g with start := some (g.base + n * g.cycle) }, taken := true }
                  ∧ (∀ k, k ≠ i → t.txIf k = s.txIf k)
                  ∧ Entered 0x0030 i n t ∧ t.rd (Reg.NET_GATE_STATUS i) = (s.rd (Reg.NET_GATE_STATUS i) ||| 0x4000000)))
      ∧ (∀ g, (s.txIf i).pend = some g → (s.txIf i).taken = true → Does (.gateListStart i) s [.tx] noReg fun t =>
          (t.txIf i).oper = (if g.entries = [] then none else some g) ∧ (t.txIf i).pend = none ∧ (t.txIf i).taken = false
            ∧ (t.txIf i).entry = 0 ∧ (t.txIf i).openMask = (if g.entries = [] then 0xFFFF else (gateAt g.entries 0 0).2)
            ∧ (t.txIf i).queued = (s.txIf i).queued ∧ (t.txIf i).ctl = (s.txIf i).ctl ∧ (t.txIf i).weight = (s.txIf i).weight
            ∧ ∀ k, k ≠ i → t.txIf k = s.txIf k)
      ∧ (∀ g, (s.txIf i).oper = some g → Does (.gateEntryChange i) s [.tx] noReg fun t =>
          let a := gateAt g.entries (((s.time.nowNs : Int) - g.base) % ((max 1 g.cycle : Nat) : Int)).toNat 0
          (t.txIf i).openMask = a.2 ∧ (t.txIf i).entry = a.1 ∧ (t.txIf i).queued = (s.txIf i).queued ∧ (t.txIf i).ctl = (s.txIf i).ctl
            ∧ (t.txIf i).oper = some g ∧ ∀ k, k ≠ i → t.txIf k = s.txIf k))

/-- A frame sync exactly one frame after the last locks a slave direction, a started one beginning its start sequence and one
that stops going on; another, or none within 4 frames, loses the lock with a count and lock_lost. A slot commit is pending
until its frame boundary; in D3hot it is an Unsupported Request, with the clock of the block lost a bad access. The loop
steers by proportion and integral of the level of the pilot within 100 ppm, the integral held at the limit, at most 1 ppm an
update on the way out of holdover; without a pilot the steering is 0, in holdover or without the oscillator lock it holds. -/
def Obligations.AudioClocks : Prop :=
  (∀ (s : State) (p d n : Nat), p ≤ 7 → d ≤ 1 → (s.dir (2 * p + d)).fmt.mode = 0 →
    let v := s.dir (2 * p + d)
    let only (t : State) : Prop := ∀ k, k ≠ 2 * p + d → t.dir k = s.dir k
    let loses (i : Instr) : Prop := Does i s [.regs, .aud]
      (regIn [Reg.AUD_LOCK_LOSSES (2 * p + d), Reg.AUD_DIR_STATE (2 * p + d)]) fun t =>
        t.dir (2 * p + d) = { v with locked := false } ∧ only t
          ∧ t.rd (Reg.AUD_LOCK_LOSSES (2 * p + d)) = s.rd (Reg.AUD_LOCK_LOSSES (2 * p + d)) + 1
          ∧ t.rd (Reg.AUD_DIR_STATE (2 * p + d)) = (s.rd (Reg.AUD_DIR_STATE (2 * p + d)) ||| 0x100)
    (n = v.fmt.slots * 32 → Does (.tdmFrameSync p d n) s [.aud] noReg fun t => only t
        ∧ (v.locked = true → t.dir (2 * p + d) = v)
        ∧ (v.locked = false → v.st = .stopped ∨ v.st = .stopping → t.dir (2 * p + d) = { v with locked := true })
        ∧ (v.locked = false → v.st = .starting ∨ v.st = .running → t.dir (2 * p + d) = { v.begin with locked := true }
            ∧ (t.dir (2 * p + d)).st = .starting ∧ (t.dir (2 * p + d)).frame = 0))
    ∧ (n ≠ v.fmt.slots * 32 → v.locked = true → loses (.tdmFrameSync p d n))
    ∧ (n ≠ v.fmt.slots * 32 → v.locked = false → Gives (.tdmFrameSync p d n) s s)
    ∧ (v.locked = true → loses (.tdmLockTimeout p d)) ∧ (v.locked = false → Gives (.tdmLockTimeout p d) s s))
  ∧ (∀ (s : State) (p d n : Nat), p ≤ 7 → d ≤ 1 → (s.dir (2 * p + d)).fmt.mode = 1 → Gives (.tdmFrameSync p d n) s s)
  ∧ (∀ (s : State) (p d : Nat), p ≤ 7 → d ≤ 1 → Gives (.audSlotCommit p d) s (s.inD0
      (if s.dev.down .audm = true then s.badAccess else s.wr (Reg.AUD_SLOT_COMMIT (2 * p + d)) 1)))
  ∧ (∀ s : State, s.dev.oscUnlocked = true → Gives .audioClockLoopUpdate s s)
  ∧ (∀ s : State, s.dev.oscUnlocked = false → s.pilot = none → Gives .audioClockLoopUpdate s
      { s with aud := { s.aud with steer := 0, atLimit := false, holdover := false, resume := false } })
  ∧ (∀ s : State, s.dev.oscUnlocked = false → s.pilot.isSome = true → s.aud.holdover = true → Gives .audioClockLoopUpdate s s)
  ∧ (∀ (s : State) (p : Nat) (e : AudStream) (rd : Nat), s.dev.oscUnlocked = false → s.pilot = some p → s.aud.holdover = false →
      tget s.aud.streams p = some e → e.fifo.rd = some rd → Does .audioClockLoopUpdate s [.aud] noReg fun t =>
        let err : Int := ((e.fifo.newest * 256 + e.newestFrac : Nat) : Int) - ((rd * 256 : Nat) : Int) - ((e.fifo.target * 256 : Nat) : Int)
        let integ := if s.aud.atLimit then s.aud.integ else clampI (s.aud.integ + s.aud.ki * err) (-(100 * 2 ^ 24)) (100 * 2 ^ 24)
        let raw := clampI (s.aud.kp * err + integ) (-(100 * 2 ^ 24)) (100 * 2 ^ 24)
        t.aud.integ = integ ∧ (s.aud.resume = false → t.aud.steer = raw)
          ∧ (s.aud.resume = true → t.aud.steer = clampI raw (s.aud.steer - 2 ^ 24) (s.aud.steer + 2 ^ 24)
              ∧ (t.aud.steer = raw ↔ t.aud.resume = false))
          ∧ (t.aud.atLimit = true ↔ t.aud.steer = 100 * 2 ^ 24 ∨ t.aud.steer = -(100 * 2 ^ 24))
          ∧ t.aud.streams = s.aud.streams ∧ t.aud.dirs = s.aud.dirs ∧ t.aud.routes = s.aud.routes)
  ∧ (∀ s : State, (s.pilot.isSome = true → Gives .pilotHoldover s { s with aud := { s.aud with holdover := true } })
      ∧ (s.pilot = none → Gives .pilotHoldover s s))

/-- A running receive direction puts each frame into its FIFO, every slot under its gain: whole in an enabled slot, 0 in
another, the sample being bits 31 to 8 of its slot; the first 64 frames of a start are discarded, a stop that waits beginning
after them. A transmit direction sends the next frame of its FIFO so, zeros in the first 64 frames of a start, and a stopped
slave one zeros. A sample tick takes one frame from every stream above the level of an underrun, and the new alignment groups
come into force. -/
def Obligations.AudioFrames : Prop :=
  let calm (d : AudDir) : Prop := d.fadePos = [] ∧ d.rampPos = [] ∧ d.fmt.slots ≤ 16
  let received (d : AudDir) (l : List Word) : List Int :=
    (List.range d.fmt.slots).map fun i => if d.mask.toNat.testBit i then slotSample (l.getD i 0) else 0
  let sent (d : AudDir) (l : List Int) : List Word :=
    (List.range d.fmt.slots).map fun i => slotWord (if d.mask.toNat.testBit i then l.getD i 0 else 0)
  (∀ (v : Int), gainSample v 65536 65536 = v ∧ gainSample v 0 65536 = 0 ∧ gainSample v 65536 0 = 0)
  ∧ (∀ v : Int, -(2 ^ 23) ≤ v → v < 2 ^ 23 → slotSample (slotWord v) = v ∧ (slotWord v).toNat % 256 = 0)
  ∧ (∀ (s : State) (p : Nat) (x : List Word), p ≤ 7 →
      let d := s.dir (2 * p)
      (d.st = .stopped ∨ d.clocked = false → Gives (.tdmRxFrame p x) s s)
      ∧ (d.clocked = true → calm d → wbit (s.rd (Reg.AUD_SLOT_COMMIT (2 * p))) 0 = false →
          (d.st = .starting → d.frame < 63 ∨ d.stopDue = false → Does (.tdmRxFrame p x) s [.aud] noReg fun t =>
            t.dir (2 * p) = { d with frame := d.frame + 1, st := if d.frame < 63 then .starting else .running }
              ∧ ∀ k, k ≠ 2 * p → t.dir k = s.dir k)
          ∧ (d.st = .starting → 63 ≤ d.frame → d.stopDue = true → Does (.tdmRxFrame p x) s [.aud] noReg fun t =>
              (t.dir (2 * p)).st = .stopping ∧ (t.dir (2 * p)).frame = 0 ∧ (t.dir (2 * p)).stopDue = false
                ∧ ∀ k, k ≠ 2 * p → t.dir k = s.dir k)
          ∧ (d.st = .running → d.fifo.phase = .normal → d.fifo.frames.length < 384 → Does (.tdmRxFrame p x) s [.aud] noReg fun t =>
              t.dir (2 * p) = { d with frame := d.frame + 1, fifo := { d.fifo with frames := d.fifo.frames ++ [received d x] } }
                ∧ ∀ k, k ≠ 2 * p → t.dir k = s.dir k)
          ∧ (d.st = .stopping → 159 ≤ d.frame → Does (.tdmRxFrame p x) s [.aud] noReg fun t =>
              (t.dir (2 * p)).st = .stopped ∧ (t.dir (2 * p)).fifo.frames = [] ∧ ∀ k, k ≠ 2 * p → t.dir k = s.dir k)))
  ∧ (∀ (s : State) (p : Nat), p ≤ 7 →
      let k := 2 * p + 1
      let d := s.dir k
      let zeros : List Word := List.replicate d.fmt.slots 0
      let sends (l : List Word) (P : State → Prop) : Prop := Does (.tdmTxFrame p) s [.aud, .out] noReg fun t =>
        t.out = .tdm p l :: s.out ∧ (t.dir k).pins = l ∧ (∀ j, j ≠ k → t.dir j = s.dir j) ∧ t.aud.streams = s.aud.streams ∧ P t
      (d.st = .stopped → d.fmt.mode = 0 → thas s.aud.dirs k = true → sends zeros fun t => t.dir k = { d with pins := zeros })
      ∧ (d.st = .stopped → d.fmt.mode = 1 → Gives (.tdmTxFrame p) s s)
      ∧ (d.clocked = true → calm d → wbit (s.rd (Reg.AUD_SLOT_COMMIT k)) 0 = false → s.aud.newRoutes = [] →
          (d.st = .starting → d.frame < 63 → sends zeros fun t => (t.dir k).frame = d.frame + 1 ∧ (t.dir k).st = .starting)
          ∧ (d.st = .starting → 63 ≤ d.frame → d.stopDue = false → sends zeros fun t => (t.dir k).st = .running)
          ∧ (d.st = .stopping → 159 ≤ d.frame → sends zeros fun t => (t.dir k).st = .stopped ∧ (t.dir k).fifo.frames = [])
          ∧ (∀ x rest, d.st = .running → d.fifo.phase = .normal → 100 < d.fifo.frames.length → s.aud.slips = [] →
              d.fifo.frames = x :: rest → thas s.aud.dirs k = true → sends (sent d x) fun t =>
                (t.dir k).fifo.frames = rest ∧ (t.dir k).frame = d.frame + 1 ∧ (t.dir k).st = .running)))
  ∧ (∀ s : State, Does .sampleTick s [.regs, .aud] anyReg fun t => t.aud.newGroups = [] ∧ t.aud.steer = s.aud.steer
        ∧ t.aud.pilotSel = s.aud.pilotSel ∧ t.aud.integ = s.aud.integ ∧ t.aud.holdover = s.aud.holdover)
  ∧ (∀ (s : State) (k : Nat) (e : AudStream) (r : Nat), tsorted s.aud.streams = true → (∀ x ∈ s.aud.streams, x.1 < 64) →
      s.aud.dirs = [] → s.aud.slips = [] → s.aud.newGroups = [] → s.aud.groups = [] → tget s.aud.streams k = some e →
      e.fifo.phase = .normal → e.fifo.rd = some r → r + 100 < e.fifo.newest → Does .sampleTick s [.regs, .aud] anyReg fun t =>
        ∃ f, tget t.aud.streams k = some f ∧ f.fifo.rd = some (r + 1) ∧ f.fifo.phase = .normal ∧ f.fifo.newest = e.fifo.newest
          ∧ f.arg = e.arg)

/-- While the clock of the composition block is locked: LYR_CUR_POS keeps the position of a defined channel with its instant;
LYR_CUR_QUEUE adds an entry with the time of LYR_CUR_TIME, but a time out of range or before the last push, or a seventeenth
entry, is discarded with its sticky bits and counts once. A FREE channel takes neither. With the clock lost each is a bad
access, in D3hot an Unsupported Request. Where the spec is silent this follows the model's choice: log entries 52 and 122. -/
def Obligations.LayerRegisters : Prop :=
  let lost (s : State) : Bool := s.dev.down (regDomain Reg.LYR_FENCE_SIGNAL)
  (∀ (s : State) (c : Nat) (w : Word), s.mbx.pci.d3hot = true ∨ lost s = true →
    let away (i : Instr) : Prop := Gives i s (s.inD0 s.badAccess)
    away (.lyrFenceSignal w) ∧ away (.lyrFenceReset w) ∧ away (.lyrCurPos c w) ∧ away (.lyrCurQueue c w))
  ∧ (∀ (s : State) (c : Nat) (w : Word), s.mbx.pci.d3hot = false → lost s = false → tget s.chans c = none →
      Gives (.lyrCurPos c w) s s ∧ Gives (.lyrCurQueue c w) s s)
  ∧ (∀ (s : State) (c : Nat) (w : Word) (ch : Chan), s.mbx.pci.d3hot = false → lost s = false → tget s.chans c = some ch →
      Does (.lyrCurPos c w) s [.regs, .chans] (regIn [Reg.LYR_CUR_POS c]) (fun t =>
        t.rd (Reg.LYR_CUR_POS c) = (w &&& 0x3FFF3FFF)
          ∧ tget t.chans c = some { ch with layers := { ch.layers with curReg := some (curX w, curY w, ch.clock s.time.now) } }
          ∧ ∀ k, k ≠ c → tget t.chans k = tget s.chans k)
      ∧ (let ns := (s.rd (Reg.LYR_CUR_TIME_NS c)).toNat
         let at_ := nsTicks (resolveSec (s.rd (Reg.LYR_CUR_TIME_S c)).toNat s.time.sec * 1000000000 + ns)
         let order : Bool := decide (1000000000 ≤ ns) || (match ch.layers.lastPush with | some x => decide (at_ < x) | none => false)
         let full : Bool := decide (16 ≤ ch.layers.cursorQ.length)
         (order = false → full = false → Does (.lyrCurQueue c w) s [.chans] noReg fun t =>
            tget t.chans c = some { ch with layers := { ch.layers with
              cursorQ := ch.layers.cursorQ ++ [⟨at_, curX w, curY w, wbit w 14⟩], lastPush := some at_ } }
              ∧ ∀ k, k ≠ c → tget t.chans k = tget s.chans k)
         ∧ (order = true ∨ full = true → Does (.lyrCurQueue c w) s [.regs] (regIn [Reg.LYR_CUR_REJECTS c, Reg.LYR_STATUS c]) fun t =>
              t.rd (Reg.LYR_CUR_REJECTS c) = s.rd (Reg.LYR_CUR_REJECTS c) + 1
                ∧ t.rd (Reg.LYR_STATUS c) = (s.rd (Reg.LYR_STATUS c) ||| bitIf order 18 ||| bitIf full 19))))
  ∧ (∀ w : Word, -8192 ≤ curX w ∧ curX w ≤ 8190 ∧ curX w % 2 = 0 ∧ -8192 ≤ curY w ∧ curY w ≤ 8191)

/-- At the boundary of an active channel of a single unit the next picture is one further and the tier ceiling of the picture
two further is fixed. An ARMED channel starts at its start picture: RUNNING, the shadow configuration active, an IDR picture
without references, first. A coding channel takes a waiting commit, whose generation is then the one in force, and forms its
picture with the ceiling fixed before; before the start picture and from the stop picture on nothing else changes. At the
change of clock the channel has the new index, its held step is gone, its emission is moved by that step, and the first
picture is a discontinuity. A channel that is not active does nothing. Where the spec is silent this follows the model's
choice: log entries 8, 54, 87 and 92. -/
def Obligations.PictureBoundaries : Prop :=
  let cells (c : Nat) : List Nat := [Reg.PWR_CEILING_CUTS, Reg.PWR_STATUS, Reg.DEV_STATUS, Reg.LYR_FLIP_DEFERS c, Reg.LYR_STATUS c,
    Reg.LYR_FLIP_CANCELS c, Reg.LYR_FLIP_RESULT c, Reg.LYR_PROT_CRC_FAILS c, Reg.LYR_FLIPS c, Reg.REF_IDR_COUNT c, Reg.REF_STATUS c,
    Reg.REF_MARKS_CANCELLED c, Reg.REF_ANCHORS c]
  let flds : List Fld := [.regs, .log, .logSeq, .mbx, .pwr, .chans, .grp, .out]
  (∀ (s : State) (c : Nat) (k : ProtCheck),
    (tget s.chans c = none → Gives (.pictureBoundary c k) s s ∧ Gives (.channelClockChange ⟨c, k⟩) s s)
    ∧ (∀ ch, tget s.chans c = some ch → ch.st.active = false → Gives (.pictureBoundary c k) s s)
    ∧ (∀ ch, tget s.chans c = some ch → ch.stepPic = none → Gives (.channelClockChange ⟨c, k⟩) s s)
    ∧ (∀ ch, tget s.chans c = some ch → s.member = false → ch.st.coding = true → (ch.stepPic.any fun m => decide (m ≤ ch.nextPic)) = true →
        Gives (.pictureBoundary c k) s s)
    ∧ (∀ ch, tget s.chans c = some ch → s.member = false → ch.st.active = true → ch.stepPic = none →
        let n := ch.nextPic
        let armed : Bool := ch.st == .armed
        let idle : Bool := (armed && decide (n < ch.startPic)) || (ch.stopPic.any fun q => decide (q ≤ n))
        Does (.pictureBoundary c k) s flds (regIn (cells c)) fun t =>
          (∀ j, j ≠ c → tget t.chans j = tget s.chans j) ∧ (∀ j, j ≠ c → t.gch j = s.gch j) ∧ t.grp = { s.grp with chans := t.grp.chans }
            ∧ (t.gch c).gen = (s.gch c).gen ∧ ∃ ch', tget t.chans c = some ch' ∧ ch'.nextPic = n + 1 ∧ ch'.cfg = ch.cfg
            ∧ ch'.slots = ch.slots ∧ ch'.engines = ch.engines ∧ ch'.stopPic = ch.stopPic ∧ ch'.shadow = ch.shadow
            ∧ tget ch'.ceilings (n + 2) = some (s.tierFor c (s.availPower - 32), false)
            ∧ (idle = true → ch' = { ch with nextPic := n + 1, ceilings := ch'.ceilings })
            ∧ (idle = false → ch'.st = (if armed then .running else ch.st) ∧ ch'.commitDue = false ∧ (∃ p, tget ch'.pics n = some p
                ∧ p.num = ch.index n ∧ p.rows = [] ∧ p.cfg = ch'.active ∧ p.discontinuity = false ∧ p.first = armed
                ∧ (armed = true → p.kind = .idr ∧ p.refs = [] ∧ p.poc = 0 ∧ p.sweepPos = none)
                ∧ (p.sweepPos.isSome = false → p.ceiling = (tgetD ch.ceilings n (0, false)).1))
                ∧ (t.gch c).genNow = (if armed || ch.commitDue then (s.gch c).gen else (s.gch c).genNow)
                ∧ ch'.active = (if armed || ch.commitDue then ch.shadow else ch.active)))
    ∧ (∀ ch, tget s.chans c = some ch → s.member = false → ch.st.coding = true → (ch.stepPic.any fun m => decide (m ≤ ch.nextPic)) = true →
        ch.stopPic = none →
        Does (.channelClockChange ⟨c, k⟩) s (.tx :: .txc :: flds) (regIn (cells c)) fun t => (∀ j, j ≠ c → tget t.chans j = tget s.chans j)
          ∧ t.txc = tupd s.txc c (·.shift ch.stepHeld ch.cfg.rate.bitRate) ∧ (∀ j, j ≠ c → t.gch j = s.gch j)
          ∧ ∃ ch', tget t.chans c = some ch' ∧ ch'.stepPic = none ∧ ch'.stepHeld = 0 ∧ ch'.nextPic = ch.nextPic + 1
            ∧ ch'.base = (ch.newIndex ch.nextPic : Int) - ch.nextPic ∧ ch'.st = ch.st
            ∧ ch'.rate.origins = (ch.nextPic, ch.stepDrainOf ch.nextPic (ch.newIndex ch.nextPic)) :: ch.rate.origins
            ∧ ∃ p, tget ch'.pics ch.nextPic = some p ∧ p.discontinuity = true ∧ p.first = true))

/-- At the freeze a row takes the map of the lines it lacks. At the row deadline, once, it enters: on a single unit the lines
it still lacks are concealed, counted and flagged; the video layer keeps each received line, a concealed one taking the line
of the picture before. A row of a repeat picture enters without composition. The last row of a picture without any input sets
input_lost, which makes pictures repeats until input has come for row 0; until the first line since the start has come, it
does not. Where the spec is silent this follows the model's choice: log entries 6 and 71. -/
def Obligations.InputRows : Prop :=
  (∀ (s : State) (c n r : Nat), s.hasDu c n r = false → Gives (.lossMapFreeze c n r) s s ∧ Gives (.rowDeadline c n r) s s)
  ∧ (∀ (s : State) (c n r : Nat), (s.du c n r).entered = true → Gives (.rowDeadline c n r) s s)
  ∧ (∀ (s : State) (c n r : Nat) (ch : Chan), s.hasDu c n r = true → s.member = false → tget s.chans c = some ch →
      Does (.lossMapFreeze c n r) s [.chans] noReg fun t =>
        t.du c n r = { s.du c n r with lossMap := some (s.ownLoss c ch n r) } ∧ OtherDus c n r s t)
  ∧ (∀ (s : State) (c n r : Nat) (ch : Chan) (p : Pic), s.hasDu c n r = true → s.member = false → tget s.chans c = some ch →
      ch.pic? n = some p → (s.du c n r).entered = false →
      let lost := s.ownLoss c ch n r
      let came := decide (lost.length < ch.cfg.main.rowLines r)
      let rep : Bool := if r = 0 then p.isRepeat || (ch.inputLost && !came) else p.isRepeat
      Does (.rowDeadline c n r) s [.regs, .pmu, .chans] (regOrPmu [Reg.CHN_CONCEALED_LINES c, Reg.CHN_STATUS c, Reg.LYR_STF_ERRORS c,
          Reg.LYR_STATUS c, Reg.LYR_FLIPS c, Reg.LYR_FLIP_RESULT c]) fun t =>
        (t.du c n r).entered = true ∧ (t.du c n r).agreed = some lost ∧ (∀ j, j ≠ c → tget t.chans j = tget s.chans j)
          ∧ (∃ ch', tget t.chans c = some ch' ∧ ch'.nextPic = ch.nextPic ∧ ch'.st = ch.st ∧ ch'.pool_ = ch.pool_
            ∧ (rep = true → ch'.layers.video = ch.layers.video ∧ t.rd (Reg.CHN_CONCEALED_LINES c) = s.rd (Reg.CHN_CONCEALED_LINES c))
            ∧ (rep = false → (t.du c n r).concealed = lost
                ∧ t.rd (Reg.CHN_CONCEALED_LINES c) = s.rd (Reg.CHN_CONCEALED_LINES c) + BitVec.ofNat 32 lost.length
                ∧ (lost ≠ [] → wbit (t.rd (Reg.CHN_STATUS c)) 10 = true)
                ∧ (∀ i, i < ch.cfg.main.rowLines r → tget ch'.layers.video (r * ch.cfg.main.ctuSize + i) = some (if lost.contains i then
                    ch.videoLine (r * ch.cfg.main.ctuSize + i) else enterLine ch.cfg.main.inputDepth
                      (rawLine ch.cfg.main.format.width (lineSegs (s.rowInput c ch n r) i)))))
            ∧ (r + 1 = ch.cfg.main.rows → rep = false → p.input = false → came = false →
              if ch.layers.anyInput then ch'.inputLost = true ∧ wbit (t.rd (Reg.CHN_STATUS c)) 8 = true
              else ch'.inputLost = ch.inputLost))
          ∧ (r = 0 → ∃ p', tget t.chans c = some p' ∧ ∃ q, p'.pic? n = some q ∧ q.isRepeat = rep))

/-- A row that has entered and has no job gets one at its engine: ready, or abandoned, at its bare-pole size and marked where
the engine is marked failed, or ready and marked, counted once, when the row was composed from poisoned words. Of the jobs an
engine may work on, the first is the earliest by deadline, then channel, then row, and at every CTU boundary the engine goes
on with it. A ready job that is the first, of an engine that works and has no job in progress, with its reference rows final,
starts on a single unit with a plan: active, no CTU done, its overhead committed, at Tier 0 under a reef, a supply warning or
on a repeat picture, else at the ceiling. The CTU of the job that the engine serves is committed with what the search finds,
or bare-pole outside the refresh columns of a repeat picture or where the guard is met, which counts. Any other release, start
or commit changes nothing. A new ALF set is ready for a coding H.266 channel while the next picture has not begun. Where the
spec is silent this follows the model's choice: log entries 6, 7, 84, 88, 89, 93 and 117. -/
def Obligations.JobStart : Prop :=
  let served (t : State) (e : Nat) : Prop :=
    tget t.eng.current e = (t.edfJob e).bind fun j => if (t.du j.1 j.2.1 j.2.2).job = .active then some j else none
  (∀ (l : List JobKey), (firstJob l = none ↔ l = []) ∧ ∀ w, firstJob l = some w → w ∈ l ∧ l.all (fun v => !(v.before w)) = true)
  ∧ (∀ (s : State) (c n r b : Nat) (u : CtuTry) (f : CtuFilter), s.hasDu c n r = false → Gives (.rowJobRelease c n r) s s ∧ Gives (.rowJobStart c n r) s s
    ∧ Gives (.ctuCommit c n r u f b) s s)
  ∧ (∀ (s : State) (c n r : Nat) (ch : Chan) (p : Pic), s.hasDu c n r = true → tget s.chans c = some ch → ch.pic? n = some p →
      let x := s.du c n r
      let m := ch.cfg.main
      let e := ch.engines.getD (r % max 1 ch.k) 0
      let free : Bool := !s.dev.mediaOff && ch.refsFinal p r && !(s.eng.failed.contains x.engine) && !(s.pipeBusy x.engine)
        && s.edfJob x.engine == some (c, n, r)
      let runs : Bool := x.job == .active && !s.dev.mediaOff && !x.latched && decide (x.ctus < m.ctus) && s.eng.serves x.engine (c, n, r)
        && !(s.eng.failed.contains x.engine)
      (x.entered = false ∨ x.job ≠ .none → Gives (.rowJobRelease c n r) s s)
      ∧ (x.entered = true → x.job = .none → s.eng.failed.contains e = false → p.poisonRows.contains r = false →
          Does (.rowJobRelease c n r) s [.chans] noReg fun t => t.du c n r = { x with engine := e, job := .ready } ∧ OtherDus c n r s t)
      ∧ (x.entered = true → x.job = .none → x.marked = false → x.sent = false → x.substituted = false →
          (s.eng.failed.contains e = true → Does (.rowJobRelease c n r) s [.regs, .chans, .eng]
            (regIn [Reg.REF_SWEEPS_FAILED c, Reg.REF_STATUS c, Reg.GRP_CHN_STATUS c]) fun t => OtherDus c n r s t
              ∧ t.du c n r = { x with engine := e, job := .abandoned, unencoded := true, cap := m.beta r, marked := true, proof := .none })
          ∧ (s.eng.failed.contains e = false → p.poisonRows.contains r = true →
              Does (.rowJobRelease c n r) s [.regs, .chans, .eng] (regIn [Reg.ENG_POISON_READS e, Reg.ENG_STATUS e]) fun t =>
                OtherDus c n r s t ∧ t.du c n r = { x with engine := e, job := .ready, poisonRead := true, marked := true, proof := .none }
                  ∧ t.rd (Reg.ENG_POISON_READS e) = s.rd (Reg.ENG_POISON_READS e) + (if x.poisonRead then 0 else 1)))
      ∧ (x.job ≠ .ready ∨ free = false → Gives (.rowJobStart c n r) s s)
      ∧ (x.job = .ready → free = true → s.member = false →
          Does (.rowJobStart c n r) s [.regs, .chans, .eng]
            (regIn [Reg.RC_STATUS c, Reg.RC_REEF_PICTURES c, Reg.RC_BAREPOLE_ROWS c, Reg.RC_BAREPOLE_PICTURES c]) fun t =>
              let y := t.du c n r
              y.job = .active ∧ y.engine = x.engine ∧ y.ctus = 0 ∧ y.bits = 256 + (if r = 0 then m.oAu else 0) ∧ y.guarded = 0
                ∧ y.code = [] ∧ y.marked = x.marked
                ∧ y.tier = (if 0 < y.reef ∨ s.pwr.warn.isSome = true ∨ p.isRepeat = true then 0 else p.ceiling)
                ∧ (y.latched = true → y.cap = m.beta r) ∧ (0 < y.reef → wbit (t.rd (Reg.RC_STATUS c)) 8 = true)
                ∧ (y.latched = true → wbit (t.rd (Reg.RC_STATUS c)) 9 = true)
                ∧ (0 < r → OtherDus c n r s t) ∧ (∀ j, j ≠ c → tget t.chans j = tget s.chans j)
                ∧ t.eng = { s.eng with current := t.eng.current } ∧ served t x.engine)
      ∧ (runs = false → ∀ u f b, Gives (.ctuCommit c n r u f b) s s)
      ∧ (runs = true → ∀ u f b,
          let found := (ch.codeEnv s.dev.level n r x.ctus p x.tier).codeTree 0 0 m.ctuSize m.ctuSize 0 u.tree
          let cost := found.2 + u.extra
          let inSpan : Bool := decide ((p.refreshSpan m.ctus).1 ≤ x.ctus) && decide (x.ctus < (p.refreshSpan m.ctus).2)
          let outside : Bool := p.isRepeat && p.kind != .idr && !inSpan
          let over_ : Bool := decide ((x.cap : Int) - ((m.ctus - x.ctus - 1) * m.bBp : Nat) - 32 < ((x.bits + cost : Nat) : Int))
          Does (.ctuCommit c n r u f b) s [.regs, .pmu, .chans, .eng] (regOrPmu [Reg.RC_GUARD_CTUS c, Reg.RC_STATUS c]) fun t =>
            let y := t.du c n r
            y.ctus = x.ctus + 1 ∧ y.job = .active ∧ OtherDus c n r s t ∧ t.eng = { s.eng with current := t.eng.current } ∧ served t x.engine
              ∧ (outside = false → over_ = false → y.bits = x.bits + cost ∧ y.guarded = x.guarded ∧ y.bareCols = x.bareCols
                  ∧ (tget y.code x.ctus).map (·.cus) = some found.1
                  ∧ (tget y.code x.ctus).map (·.filter) = some (f.allowed m.codec s.dev.level))
              ∧ (outside = true ∨ over_ = true → y.bits = x.bits + min b m.bBp ∧ y.bareCols = x.bareCols ++ [x.ctus])
              ∧ (outside = true ∨ over_ = false → y.guarded = x.guarded ∧ t.rd (Reg.RC_GUARD_CTUS c) = s.rd (Reg.RC_GUARD_CTUS c))
              ∧ (outside = false → over_ = true → y.guarded = (x.guarded ||| 2 ^ x.ctus)
                  ∧ t.rd (Reg.RC_GUARD_CTUS c) = s.rd (Reg.RC_GUARD_CTUS c) + 1)))
  ∧ (∀ (s : State) (c n : Nat), Does (.alfDerivation ⟨c, n⟩) s [.chans] noReg fun t => t.chans = tupd s.chans c fun ch =>
      if ch.st.coding = true ∧ ch.cfg.main.codec = 1 ∧ (ch.pic? n).isSome = true ∧ (∀ p, ch.pic? (n + 1) = some p → (p.row 0).job = .none)
      then { ch with alfReady := some (n, (List.range (ch.cfg.main.rows - 2 * ch.k - 1)).filter fun r => !(ch.duRow (n, r)).substituted) }
      else ch)

/-- An active job that is latched or has all its CTUs ends: the size is its bits with the overhead it needed, a latched row
being that of the bare-pole generator within its bound; d_row is the digest of its lines; a residue mismatch marks the DU and
counts once, an unmarked DU waits for proof. At its deadline a job not ended is abandoned, counted and marked. The engine that
served the job goes on with the first in order. A local reset of an engine that holds a ready job restarts its active jobs
from their first CTU, counts and is logged; the third within a second marks the engine failed, its jobs staying queued. A
marked DU not yet sent is substituted, once, by what the generator forms, and counts; a row never encoded counts at its
bare-pole size. The trailing filter finishes a row after the row above once both DUs of its lower boundary are cleared; a
decoder row with another d_fin damages every column. Where the spec is silent this follows the model's choice: log entries 7,
82, 86, 94 and 115. -/
def Obligations.JobEnds : Prop :=
  let flds : List Fld := [.regs, .pmu, .chans, .eng]
  let served (t : State) (e : Nat) : Prop :=
    tget t.eng.current e = (t.edfJob e).bind fun j => if (t.du j.1 j.2.1 j.2.2).job = .active then some j else none
  (∀ (s : State) (c n r : Nat) (o l : Nat) (k : List StageCheck) (d : List SampleLine), s.hasDu c n r = false →
    Gives (.rowJobComplete c n r k o d l) s s ∧ Gives (.jobOverrun c n r) s s ∧ Gives (.duSubstitution c n r o l) s s
      ∧ Gives (.trailingFilter c n r k d) s s)
  ∧ (∀ (s : State) (c n r : Nat) (ch : Chan) (p : Pic), s.hasDu c n r = true → tget s.chans c = some ch → ch.pic? n = some p →
      let x := s.du c n r
      let m := ch.cfg.main
      let bound := 256 + if r = 0 then m.oAu else 0
      let bare := ch.bareLines p r (blankRow m r) (ch.bareCode p r)
      let ripe : Bool := x.job == .active && (x.latched || x.ctus == m.ctus)
      (ripe = false → ∀ k o d l, Gives (.rowJobComplete c n r k o d l) s s)
      ∧ (ripe = true → s.member = false → ∀ k o d l, Does (.rowJobComplete c n r k o d l) s flds anyReg fun t =>
          let y := t.du c n r
          let good := k.all (·.ok)
          y.job = .ended ∧ OtherDus c n r s t ∧ y.dRow = rowCrc y.lines
            ∧ (x.latched = false → y.size = x.bits - bound + min o bound ∧ y.lines = d)
            ∧ (x.latched = true → y.size = min o (m.beta r) ∧ y.lines = bare)
            ∧ t.rd (Reg.ENG_JOBS x.engine) = s.rd (Reg.ENG_JOBS x.engine) + (if x.latched then 0 else 1)
            ∧ t.rd (Reg.ENG_RESIDUE_FAULTS x.engine) = s.rd (Reg.ENG_RESIDUE_FAULTS x.engine) + (if good || x.residueBad then 0 else 1)
            ∧ (s.eng.serves x.engine (c, n, r) = true → served t x.engine)
            ∧ (good = true → x.marked = false → x.latched = false →
                y = { x with job := .ended, size := y.size, txBits := y.size, lines := d, dRow := y.dRow, proof := .waiting })
            ∧ (good = false → x.marked = false → x.sent = false → x.substituted = false → x.latched = false →
                y = { x with job := .ended, size := y.size, txBits := y.size, lines := d, dRow := y.dRow, residueBad := true
                             marked := true, proof := .none }))
      ∧ (x.job = .none ∨ x.job = .ended ∨ x.job = .abandoned → Gives (.jobOverrun c n r) s s)
      ∧ (x.job = .ready ∨ x.job = .active → s.member = false → Does (.jobOverrun c n r) s [.regs, .chans, .eng]
          (regIn [Reg.ENG_OVERRUNS x.engine, Reg.ENG_STATUS x.engine, Reg.ENG_PEAK_LOAD x.engine, Reg.REF_SWEEPS_FAILED c, Reg.REF_STATUS c
            , Reg.GRP_CHN_STATUS c]) fun t =>
            OtherDus c n r s t ∧ t.rd (Reg.ENG_OVERRUNS x.engine) = s.rd (Reg.ENG_OVERRUNS x.engine) + 1
              ∧ 1025 ≤ (t.rd (Reg.ENG_PEAK_LOAD x.engine)).toNat ∧ (s.eng.serves x.engine (c, n, r) = true → served t x.engine)
              ∧ (x.sent = false → x.substituted = false → x.marked = false → t.du c n r =
                  { x with job := .abandoned, cap := max x.cap (m.beta r), marked := true, proof := .none }))
      ∧ ((x.marked && !x.substituted && !x.sent) = false → ∀ k b, Gives (.duSubstitution c n r k b) s s)
      ∧ ((x.marked && !x.substituted && !x.sent) = true → s.member = false → ∀ k b,
          Does (.duSubstitution c n r k b) s [.regs, .log, .logSeq, .mbx, .pmu, .chans, .eng, .out] anyReg fun t =>
            let y := t.du c n r
            t.rd (Reg.ENG_SUBSTITUTIONS x.engine) = s.rd (Reg.ENG_SUBSTITUTIONS x.engine) + 1
              ∧ (0 < r → t.du c n (r - 1) = { s.du c n (r - 1) with final := false, proofFinal := false })
              ∧ (∀ c' n' r', ¬ (c' = c ∧ n' = n ∧ (r' = r ∨ r' + 1 = r)) → t.du c' n' r' = s.du c' n' r')
              ∧ y.lines = bare ∧ y.dRow = rowCrc bare ∧ y.code = ch.bareCode p r
              ∧ y.txBits = (if x.unencoded then m.beta r else min (k + b) (m.ctus * m.bBp + bound))
              ∧ y = { x with substituted := true, txBits := y.txBits, dRow := y.dRow, proof := .none, final := false, proofFinal := false
                             swept := [], qps := [], lines := y.lines, code := y.code, bareCols := List.range m.ctus })
      ∧ (x.final = true ∨ ch.boundaryReady p r = false ∨ p.aboveFinal r = false → ∀ k d, Gives (.trailingFilter c n r k d) s s)
      ∧ (x.final = false → ch.boundaryReady p r = true → p.aboveFinal r = true → s.member = false → ∀ k d, k.all (·.ok) = true →
          Does (.trailingFilter c n r k d) s [.regs, .chans] (regIn [Reg.PRF_FILTER_MISMATCH c, Reg.PRF_STATUS c]) fun t =>
            (t.du c n r).final = true ∧ (t.du c n r).fin = d ∧ (t.du c n r).dFin = rowCrc d ∧ OtherDus c n r s t
              ∧ (x.proofFinal = false ∨ x.pFin = rowCrc d → t.du c n r = { x with final := true, fin := d, dFin := rowCrc d } ∧ t.regs = s.regs)
              ∧ (x.proofFinal = true → x.pFin ≠ rowCrc d → t.rd (Reg.PRF_FILTER_MISMATCH c) = s.rd (Reg.PRF_FILTER_MISMATCH c) + 1
                  ∧ ∀ i, i < m.ctus → i ∈ (t.du c n r).damage ∧ i ∈ (t.du c n r).proofDamage)))
  ∧ (∀ (s : State) (e k : Nat), 15 < e ∨ s.eng.failed.contains e = true ∨ s.engineRows e = [] → Gives (.engineLocalReset e k) s s)
  ∧ (∀ (s : State) (e k : Nat), e ≤ 15 → s.eng.failed.contains e = false → s.engineRows e ≠ [] → s.member = false →
      let two : Bool := decide (2 ≤ ((tgetD s.eng.resets e []).filter fun i => decide (s.time.up < i + 1000000000)).length)
      Does (.engineLocalReset e k) s [.regs, .log, .logSeq, .mbx, .mem, .chans, .eng, .out]
        (regIn [Reg.ENG_LOCAL_RESETS e, Reg.ENG_STATUS e, Reg.MEM_MASTER_RESETS, Reg.DEV_STATUS]) fun t =>
          t.rd (Reg.ENG_LOCAL_RESETS e) = s.rd (Reg.ENG_LOCAL_RESETS e) + 1 ∧ t.mem.hbm = s.mem.hbm ∧ served t e
            ∧ (0 < k → tget t.mem.retiring e = some k ∧ t.rd Reg.MEM_MASTER_RESETS = s.rd Reg.MEM_MASTER_RESETS + 1)
            ∧ t.eng.failed.contains e = two
            ∧ (t.log.head?.map fun v => (v.code, v.object)) = some (if two then 0x0002 else 0x0001, e)
            ∧ (∀ c n r, tsorted s.chans = true → s.hasDu c n r = true → (s.du c n r).engine = e → (s.du c n r).job = .active →
                (thas ((((tget s.chans c).bind (·.pic? n)).getD {}).rows) r = true) →
                ∀ ch, tget s.chans c = some ch → (t.du c n r).job = .active ∧ (t.du c n r).ctus = 0
                  ∧ (t.du c n r).bits = 256 + (if r = 0 then ch.cfg.main.oAu else 0) ∧ (t.du c n r).code = []))

/-- With its domain on, the waiting DU earliest by verdict deadline, channel and row takes the lowest idle pipeline, or one
that decodes an external stream. A verdict passes, and counts, when the DU parses, its NAL unit count, slice address and slice
type are those expected and the digest of its lines is d_row; a DU that fails, or has no verdict at its deadline, is released
unchanged as a side fault when wholly bare-pole, else counted in PRF_FAILS or PRF_LATE and marked. A substitute decoded to
another d_row damages its row. The decoder filter finishes a row after the row above and compares d_fin. A pipeline at work is
reset with an event, and its third reset within a second marks it failed, its DU waiting again. Where the spec is silent this
follows the model's choice: log entries 7 and 82. -/
def Obligations.ProofVerdicts : Prop :=
  let failed (x : Row) (ch : Chan) (off bit c : Nat) (s t : State) (y : Row) : Prop :=
    (x.bare ch.cfg.main.ctus = true → y = { x with proof := .failed } ∧ t.rd (Reg.PRF_SIDE_FAULTS c) = s.rd (Reg.PRF_SIDE_FAULTS c) + 1
      ∧ wbit (t.rd (Reg.PRF_STATUS c)) 11 = true)
    ∧ (x.bare ch.cfg.main.ctus = false → x.sent = false → x.substituted = false → x.marked = false →
        y = { x with proof := .none, marked := true } ∧ t.rd off = s.rd off + 1 ∧ wbit (t.rd (Reg.PRF_STATUS c)) bit = true)
  (∀ (l : List WaitDu), (firstDu l = none ↔ l = []) ∧ ∀ w, firstDu l = some w → w ∈ l ∧ l.all (fun v => !(v.before w)) = true)
  ∧ (∀ (s : State), s.dev.mediaOff = true → Gives .proofDispatch s s ∧ (∀ q v, Gives (.proofVerdict q v) s s)
      ∧ ∀ c n r d, Gives (.substituteDecode c n r d) s s ∧ Gives (.proofTrailingFilter c n r d) s s)
  ∧ (∀ (s : State), s.dev.mediaOff = false → (∀ w p, firstDu s.waitingDus = some w → s.pipeFor = some p → Does .proofDispatch s [.chans, .eng] noReg fun t =>
        t.eng = { s.eng with pipes := tset s.eng.pipes p (.du w.c w.n w.r) }
          ∧ t.du w.c w.n w.r = { s.du w.c w.n w.r with proof := .proving p } ∧ OtherDus w.c w.n w.r s t)
      ∧ (∀ w, firstDu s.waitingDus = some w → s.pipeFor = none → Gives .proofDispatch s s)
      ∧ (∀ d p, firstDu s.waitingDus = none → s.extWaiting = some d →
          (s.goodPipes.find? fun k => !(thas s.eng.pipes k)) = some p →
          Gives .proofDispatch s { s with eng := { s.eng with pipes := tset s.eng.pipes p (.ext d) } })
      ∧ (firstDu s.waitingDus = none → s.extWaiting = none → Gives .proofDispatch s s))
  ∧ (∀ (s : State) (q : Nat) (v : VerdictIn), (∀ c n r, tget s.eng.pipes q ≠ some (.du c n r)) → Gives (.proofVerdict q v) s s)
  ∧ (∀ (s : State) (c n r : Nat) (ch : Chan) (p : Pic), s.hasDu c n r = true → tget s.chans c = some ch → ch.pic? n = some p →
      let x := s.du c n r
      let on := s.dev.mediaOff = false
      (∀ q v, on → tget s.eng.pipes q = some (.du c n r) → x.proof = .proving q →
        let good : Bool := v.parseOk && v.nals == ch.nalCount s.dev.level n r p && v.addr == r && v.type == p.sliceType && rowCrc v.lines == x.dRow
        Does (.proofVerdict q v) s [.regs, .pmu, .chans, .eng] (regOrPmu [Reg.PRF_DUS c, Reg.PRF_FAILS c, Reg.PRF_STATUS c, Reg.PRF_SIDE_FAULTS c])
          fun t => tget t.eng.pipes q = none ∧ OtherDus c n r s t
            ∧ (good = true → t.du c n r = { x with proof := .passed }
                ∧ t.rd (Reg.PRF_DUS c) = s.rd (Reg.PRF_DUS c) + 1)
            ∧ (good = false → failed x ch (Reg.PRF_FAILS c) 8 c s t (t.du c n r)))
      ∧ (x.proof = .none ∨ x.proof = .passed ∨ x.proof = .failed → Gives (.verdictDeadline c n r) s s)
      ∧ (x.proof ≠ .none → x.proof ≠ .passed → x.proof ≠ .failed →
          Does (.verdictDeadline c n r) s [.regs, .pmu, .chans, .eng] (regOrPmu [Reg.PRF_LATE c, Reg.PRF_STATUS c, Reg.PRF_SIDE_FAULTS c])
            fun t => OtherDus c n r s t ∧ failed x ch (Reg.PRF_LATE c) 9 c s t (t.du c n r))
      ∧ (∀ d, x.substituted = false ∨ rowCrc d = x.dRow → Gives (.substituteDecode c n r d) s s)
      ∧ (∀ d, on → x.substituted = true → rowCrc d ≠ x.dRow → s.member = false →
          Does (.substituteDecode c n r d) s [.regs, .chans] (regIn [Reg.PRF_SIDE_FAULTS c, Reg.PRF_STATUS c]) fun t =>
            t.rd (Reg.PRF_SIDE_FAULTS c) = s.rd (Reg.PRF_SIDE_FAULTS c) + 1 ∧ OtherDus c n r s t
              ∧ ∀ i, i < ch.cfg.main.ctus → i ∈ (t.du c n r).damage ∧ i ∈ (t.du c n r).proofDamage)
      ∧ (x.proofFinal = true ∨ ch.boundaryReady p r = false ∨ p.aboveProofFinal r = false → ∀ d, Gives (.proofTrailingFilter c n r d) s s)
      ∧ (on → x.proofFinal = false → ch.boundaryReady p r = true → p.aboveProofFinal r = true → s.member = false → ∀ d,
          Does (.proofTrailingFilter c n r d) s [.regs, .chans] (regIn [Reg.PRF_FILTER_MISMATCH c, Reg.PRF_STATUS c]) fun t =>
            (t.du c n r).proofFinal = true ∧ (t.du c n r).pFin = rowCrc d ∧ OtherDus c n r s t
              ∧ (x.final = false ∨ x.dFin = rowCrc d → t.regs = s.regs)
              ∧ (x.final = true → x.dFin ≠ rowCrc d → t.rd (Reg.PRF_FILTER_MISMATCH c) = s.rd (Reg.PRF_FILTER_MISMATCH c) + 1)))
  ∧ (∀ (s : State) (q : Nat), 3 < q ∨ s.eng.pipeFailed.contains q = true ∨ tget s.eng.pipes q = none → Gives (.proofPipeReset q) s s)
  ∧ (∀ (s : State) (q : Nat), q ≤ 3 → s.eng.pipeFailed.contains q = false → thas s.eng.pipes q = true →
      let two : Bool := decide (2 ≤ ((tgetD s.eng.pipeResets q []).filter fun i => decide (s.time.up < i + 1000000000)).length)
      Does (.proofPipeReset q) s [.regs, .log, .logSeq, .mbx, .chans, .eng, .out] (regIn [Reg.DEV_STATUS]) fun t =>
        t.eng.pipeFailed.contains q = two ∧ (two = false → Entered 0x0003 q 0 t ∧ t.chans = s.chans ∧ t.eng.pipes = s.eng.pipes)
          ∧ (two = true → Entered 0x0004 q 0 t ∧ tget t.eng.pipes q = none
              ∧ ∀ c n r, tget s.eng.pipes q = some (.du c n r) → s.hasDu c n r = true → (t.du c n r).proof = .waiting))

/-- The oldest AU under reception is frozen under its timestamp with the gap list of its packets, and a unit alone may decode
it at once. At the gap deadline the oldest frozen AU may be decoded. On a pipeline that the stream holds, with the domain on,
decoding takes the oldest such AU: an AU with an overflowed list is lost, parameter sets that do not parse end the decoding,
unsupported ones end it with an error count; before an IRAP or recovery start nothing else happens; else the picture is held,
its absent references, each with the nearest held picture as substitute, and its lost slices count, a picture after an absent
reference is concealed until an IRAP or a clean recovery, its lines join as they are decoded, and with the last part the AU
leaves and the pipeline is free. Where the spec is silent this follows the model's choice: log entries 7, 70, 95, 96, 97 and
98. -/
def Obligations.ExternalStreams : Prop :=
  (∀ (s : State) (d : Nat) (au : ExtAu), tget s.ext d = none →
    Gives (.extAuFreeze d) s s ∧ Gives (.extGapDeadline d) s { s with ext := tupd s.ext d id } ∧ Gives (.extAuDecode d au) s s)
  ∧ (∀ (s : State) (d : Nat) (e : ExtStream), tget s.ext d = some e →
      (e.heads = [] → Gives (.extAuFreeze d) s s)
      ∧ (∀ q a next, e.heads = (q, a) :: next → s.member = false → Does (.extAuFreeze d) s [.ext] noReg fun t =>
          (∀ k, k ≠ d → tget t.ext k = tget s.ext k) ∧ tget t.ext d = some { e with
            heads := next, frozen := (e.frozen ++ [(a, false)]).map fun x => (x.1, true)
            gaps := tset e.gaps (4 * a + s.grp.rank) (some (s.extGaps d q (next.head?.map (·.1)))) })
      ∧ Does (.extGapDeadline d) s [.ext] noReg fun t => (∀ k, k ≠ d → tget t.ext k = tget s.ext k) ∧ ∃ f, tget t.ext d = some f
          ∧ (∀ a b r, e.frozen = (a, b) :: r → f = { e with frozen := (a, true) :: r }) ∧ (e.frozen = [] → f = e))
  ∧ (∀ (s : State) (d : Nat) (e : ExtStream) (au : ExtAu), tget s.ext d = some e →
      let on : Bool := !s.dev.mediaOff && s.eng.pipes.any fun w => w.2 == .ext d
      (e.due = false ∨ on = false → Gives (.extAuDecode d au) s s)
      ∧ (∀ a rest, e.frozen = (a, true) :: rest → on = true →
          let pipes := tfilter s.eng.pipes fun _ w => w != .ext d
          let left (f : ExtStream) : ExtStream := { f with
            frozen := f.frozen.filter fun x => x.1 != a, inWork := none, subs := [], gaps := tfilter f.gaps fun k _ => k / 4 != a
            past := takeLast 16 (f.past ++ [a]) }
          let leaves (f : ExtStream) (t : State) : Prop := tget t.ext d = some (left f) ∧ t.eng = { s.eng with pipes := pipes }
            ∧ ∀ k, k ≠ d → tget t.ext k = tget s.ext k
          let absent := au.refs.filter fun r => !(e.held.any fun h => refNames r h.poc)
          let lost := au.slices.filter (e.sliceLost a)
          (e.auLost a = true → Does (.extAuDecode d au) s [.eng, .ext] noReg (leaves e))
          ∧ (e.auLost a = false → au.sets = none → Does (.extAuDecode d au) s [.eng, .ext] noReg (leaves { e with decoding := false }))
          ∧ (∀ q, e.auLost a = false → au.sets = some q → extSupported q e.arg = false → Does (.extAuDecode d au) s [.regs, .eng, .ext]
              (regIn [Reg.EXT_ERRORS d, Reg.EXT_STATE d]) fun t => t.rd (Reg.EXT_ERRORS d) = s.rd (Reg.EXT_ERRORS d) + 1
                ∧ leaves { e with unsupported := true, decoding := false } t)
          ∧ (∀ q, e.auLost a = false → au.sets = some q → extSupported q e.arg = true →
              (e.inWork ≠ some a → e.decoding = false → au.start = .no → Does (.extAuDecode d au) s [.eng, .ext] noReg (leaves e))
              ∧ (e.inWork = some a → au.outs = [] → Does (.extAuDecode d au) s [.eng, .ext] noReg fun t =>
                  let f : ExtStream := { e with held := e.held.map fun h => if h.poc == au.poc then h.add (e.conceal q lost au.line au.frame) else h }
                  (au.done = true → leaves f t) ∧ (au.done = false → tget t.ext d = some f ∧ t.eng = s.eng))
              ∧ (e.inWork ≠ some a → (e.decoding || au.start != .no) = true → au.outs = [] →
                  Does (.extAuDecode d au) s [.regs, .eng, .ext] (regIn [Reg.EXT_MISSING_REFS d, Reg.EXT_LOST_SLICES d, Reg.EXT_STATE d]) fun t =>
                    t.rd (Reg.EXT_LOST_SLICES d) = s.rd (Reg.EXT_LOST_SLICES d) + BitVec.ofNat 32 lost.length
                    ∧ t.rd (Reg.EXT_MISSING_REFS d) =
                      s.rd (Reg.EXT_MISSING_REFS d) + BitVec.ofNat 32 ((absent.filter fun r => !(e.missed.contains r)).length)
                    ∧ (∃ f, tget t.ext d = some f ∧ f.decoding = true ∧ f.unsupported = false ∧ f.count = e.count + 1
                      ∧ f.held.getLast?.map (fun h => (h.poc, h.concealed, h.shown)) = some (au.poc, (e.mark au lost.length).2, false)
                      ∧ (au.done = true → f.inWork = none ∧ f.frozen = e.frozen.filter fun x => x.1 != a)
                      ∧ (au.done = false → f.inWork = some a ∧ f.frozen = e.frozen
                          ∧ f.subs = absent.map fun r => (r, e.substitute (refPoc r au.poc))))
                    ∧ t.eng = { s.eng with pipes := if au.done then pipes else s.eng.pipes })
              ∧ Does (.extAuDecode d au) s [.regs, .chans, .eng, .ext] anyReg fun t => ∀ k, k ≠ d → tget t.ext k = tget s.ext k)))
  ∧ (∀ (e : ExtStream) (au : ExtAu) (lost : Nat),
      let absent := au.refs.filter fun r => !(e.held.any fun h => refNames r h.poc)
      (au.start = .irap → au.refs = [] → (e.mark au lost).1.concealing = false ∧ (e.mark au lost).2 = decide (0 < lost))
      ∧ (absent ≠ [] → au.start = .no → e.refresh = [] → (e.mark au lost).1.concealing = true ∧ (e.mark au lost).2 = true)
      ∧ (absent = [] → au.start = .no → e.refresh = [] → (e.mark au lost).1.concealing = e.concealing
          ∧ (e.mark au lost).2 = (e.concealing || decide (0 < lost))))
  ∧ (∀ (e : ExtStream) (p : Int), (e.substitute p = none ↔ e.held = []) ∧ ∀ b, e.substitute p = some b → e.held.any (fun h => h.poc == b) = true
      ∧ e.held.all (fun h => decide ((b - p).natAbs < (h.poc - p).natAbs) || ((b - p).natAbs == (h.poc - p).natAbs && decide (b ≤ h.poc))) = true)
  ∧ (∀ (e : ExtStream) (a : Nat) (x : ExtSlice), e.sliceLost a x = true ↔
      x.parses = false ∨ (List.range (x.last + 1)).any (fun q => decide (x.first ≤ q) && e.gone a q) = true)

/-- A released DU enters once: the ledger takes its size with filler and it is sent as its NAL units; the last DU of an AU
counts it. A waiting packet becomes eligible at its model instant, or is discarded and counted on an interface that is down or
has no MAC address. An interface that is up, before any fatal error, sends its next frame, which leaves its queue, is counted
and is on the wire with its header; with nothing to send it sends nothing. A slot of a transport stream joins the datagram,
the seventh of which is sent under the next sequence number. Where the spec is silent this follows the model's choice: log
entries 67, 68, 72, 100 and 116. -/
def Obligations.Emission : Prop :=
  (∀ (s : State) (c n r : Nat) (ch : Chan) (p : Pic), s.hasDu c n r = true → tget s.chans c = some ch → ch.pic? n = some p →
    let x := s.du c n r
    (x.sent = true ∨ x.cleared ch.cfg.main.ctus = false → Gives (.duTransmitEntry c n r) s s)
    ∧ (x.sent = false → x.cleared ch.cfg.main.ctus = true → s.member = false → s.grp.standDown = false → s.mbx.held = none →
        let e := ch.enter (n, r) x.released (ch.duAfter n r)
        Does (.duTransmitEntry c n r) s [.regs, .log, .logSeq, .mbx, .chans, .tx, .txc, .grp, .out, .fresh] anyReg fun t =>
          (s.grp.role = .none → t.grp = s.grp) ∧ .du c n r (ch.duNalUnits s.dev.level n r e.filler p) ∈ t.out
            ∧ (tgetD t.txc c {}).delivered = max ((ch.t0 n + nsTicks ch.dPipe + r * ch.cfg.main.tRow) * ch.cfg.rate.bitRate)
                (tgetD s.txc c {}).delivered + e.x * Config.ticksPerSec
            ∧ t.du c n r = { x with sent := true, txBits := e.x } ∧ OtherDus c n r s t
            ∧ (∀ j, j ≠ c → tget t.chans j = tget s.chans j)
            ∧ t.rd (Reg.RC_FILLER_BYTES c) = s.rd (Reg.RC_FILLER_BYTES c) + BitVec.ofNat 32 e.filler
            ∧ t.rd (Reg.RC_HRD_ALARMS c) = s.rd (Reg.RC_HRD_ALARMS c) + (if e.alarm then 1 else 0)
            ∧ ∃ ch', tget t.chans c = some ch' ∧ ch'.rate.w = e.w ∧ ch'.rate.last = some (n, r)
              ∧ ch'.auCount = (if r + 1 = ch.cfg.main.rows then (ch.auCount + 1) % 2 ^ 48 else ch.auCount)
              ∧ (r + 1 < ch.cfg.main.rows → ch'.st = ch.st)
              ∧ (r + 1 = ch.cfg.main.rows → ch.st = .stopping → (ch.stopPic.any fun q => decide (q ≤ n + 1)) = true → ch'.st = .stopped)))
  ∧ (∀ (s : State) (c n r : Nat), s.hasDu c n r = false → Gives (.duTransmitEntry c n r) s s)
  ∧ (∀ (ch : Chan) (d : DuId) (x : Nat) (nx : Option DuId), ch.rate.last = none → (ch.enter d x nx).w = (ch.enter d x nx).x
      ∧ (ch.enter d x nx).x = x + 8 * (ch.enter d x nx).filler ∧ (ch.enter d x nx).alarm = decide (ch.cfg.rate.fMax < x)
      ∧ (ch.cfg.rate.rcMode ≠ 0 → (ch.enter d x nx).filler = 0))
  ∧ (∀ (s : State) (i c q : Nat),
      let mine := fun w : TxPacket => w.pkt.chan == c && w.pkt.seq == q && !w.eligible
      ((s.txIf i).queued.find? mine = none → Gives (.packetModelInstant i c q) s s)
      ∧ (∀ w, (s.txIf i).queued.find? mine = some w →
          ((s.iface i).sends = true → Does (.packetModelInstant i c q) s [.tx] noReg fun t =>
            (t.txIf i).queued = (s.txIf i).queued.map fun v => if v = w then { v with eligible := true } else v)
          ∧ ((s.iface i).sends = false → Does (.packetModelInstant i c q) s [.regs, .tx, .txc]
              (regIn [Reg.NET_TX_LINK_DROPS i, Reg.NET_TX_STATUS i, Reg.EGR_PACKETS c]) fun t =>
                (t.txIf i).queued = (s.txIf i).queued.erase w
                  ∧ t.rd (Reg.NET_TX_LINK_DROPS i) = s.rd (Reg.NET_TX_LINK_DROPS i) + 1
                  ∧ t.rd (Reg.NET_TX_STATUS i) = (s.rd (Reg.NET_TX_STATUS i) ||| 0x20000))))
  ∧ (∀ (s : State) (i k : Nat),
      let u := (s.panicLevel 1 k).settleCredits i
      (((s.iface i).linkUp = false ∨ s.dev.fatal = true ∨ u.nextPacket i = none) → Gives (.packetTransmit i k) s u)
      ∧ (∀ f, u.nextPacket i = some (.ctl f) → (s.iface i).linkUp = true → s.dev.fatal = false →
          Does (.packetTransmit i k) s [.regs, .time, .pmu, .mem, .tx, .out] (regOrPmu [Reg.MEM_PANICS, Reg.NET_TX_FRAMES i]) fun t =>
            t.out = .reply i f.what :: s.out ∧ (t.txIf i).ctl = (s.txIf i).ctl.erase f ∧ (t.txIf i).queued = (s.txIf i).queued
              ∧ t.rd (Reg.NET_TX_FRAMES i) = s.rd (Reg.NET_TX_FRAMES i) + 1 ∧ t.mem.hbm = s.mem.hbm
              ∧ ∀ p q a m, f.what = .delayReq p q a m → (t.time.port p).delayReq = some (q, s.egressStamp i))
      ∧ (∀ w d j, u.nextPacket i = some (.media w d j) → (s.iface i).linkUp = true → s.dev.fatal = false → Does (.packetTransmit i k) s [.regs, .pmu, .mem, .tx, .txc, .out]
          (regOrPmu [Reg.MEM_PANICS, Reg.NET_TX_FRAMES i, Reg.EGR_LATE_MAX w.pkt.chan, Reg.EGR_PACKETS w.pkt.chan]) fun t =>
            t.out = (match tget s.chans w.pkt.chan with | some ch => [.packet i (s.pktHeader w.pkt.chan i ch.cfg.out) w.pkt] | none => []) ++ s.out
              ∧ (t.txIf i).queued = (s.txIf i).queued.erase w ∧ (t.txIf i).next = j
              ∧ t.rd (Reg.NET_TX_FRAMES i) = s.rd (Reg.NET_TX_FRAMES i) + 1 ∧ t.mem.hbm = s.mem.hbm ∧ t.chans = s.chans))
  ∧ (∀ (s : State) (c : Nat) (ch : Chan), tget s.chans c = some ch →
      let x := tgetD s.txc c {}
      (x.tsOrigin = none ∨ ch.cfg.out.encap ≠ 1 ∨ s.dev.fatal = true → Gives (.tsSlot c) s s)
      ∧ (ch.st.coding = false → x.tsVideo = [] → x.tsAudio = [] → x.tsAnc = [] → x.tsBuf = [] → Gives (.tsSlot c) s s)
      ∧ (∀ g, x.tsOrigin = some g → ch.cfg.out.encap = 1 → ch.st.coding = true → s.dev.fatal = false →
          (x.tsBuf.length < 6 → Does (.tsSlot c) s [.txc] noReg fun t =>
            (tgetD t.txc c {}).tsSlot = x.tsSlot + 1 ∧ (tgetD t.txc c {}).tsBuf = x.tsBuf ++ [(x.fillSlot ch (slotAt ch.cfg.out.tsRate g x.tsSlot)).1]
              ∧ (tgetD t.txc c {}).nextSeq = x.nextSeq ∧ ∀ k, k ≠ c → tget t.txc k = tget s.txc k)
          ∧ (6 ≤ x.tsBuf.length → Does (.tsSlot c) s [.regs, .tx, .txc, .grp] anyReg fun t =>
              (tgetD t.txc c {}).tsSlot = x.tsSlot + 1 ∧ (tgetD t.txc c {}).tsBuf = []
                ∧ (tgetD t.txc c {}).nextSeq = (x.nextSeq + 1) % 65536)))
  ∧ (∀ (s : State) (c : Nat), tget s.chans c = none → Gives (.tsSlot c) s s)

/-- A frame of a leg that is up counts when its CRC holds and it is the next in order; then it is acknowledged. One delivered
already is acknowledged again, a broken one counts as late, one ahead of a lost frame waits. Of a frame that counts: a record
that is not of this group or of another member, or on a leg whose hello has not passed, changes nothing more; a row, picture
or gap record after its deadline counts as late; one whose number has been taken counts as a duplicate. Any other counts: its
number is kept, the sender has its role, in a triad a direct one is relayed on the other leg, one for another member passed on
only, one of the ACTIVE names the active rank. Who sends none in its role: NONE, DETACHED and an UNVERIFIED member without a
link. Where the spec is silent this follows the model's choice: log entries 46, 103 and 106. -/
def Obligations.RecordLayer : Prop :=
  (∀ (s : State) (h : RecHdr) (m : StayMsg) (b : List Byte),
    let l := s.leg h.leg
    let on : Bool := s.member && s.portUp h.leg
    (on = false → s.linkIn h m b = (s, false))
    ∧ (on = true → h.crc ≠ crc32c (h.bytes m b) → s.linkIn h m b = (s.bump Reg.GRP_LATE_RECORDS, false))
    ∧ (on = true → h.crc = crc32c (h.bytes m b) →
        (h.link = l.rxLink → s.linkIn h m b = ((s.setLeg h.leg { l with rxLink := (l.rxLink + 1) % 256 }).emit (.ack h.leg h.link), true))
        ∧ (h.link ≠ l.rxLink → (l.rxLink + 256 - h.link) % 256 ≤ 16 → s.linkIn h m b = (s.emit (.ack h.leg h.link), false))
        ∧ (h.link ≠ l.rxLink → 16 < (l.rxLink + 256 - h.link) % 256 → s.linkIn h m b = (s, false))))
  ∧ (∀ (s : State) (h : RecHdr) (r : RowRec) (p : PicRec) (g : GapRec) (a b : Nat) (l : List Nat) (y : CopyRec) (x : RtpPacket)
      (pl : List (Nat × Nat × Option Nat)),
    let of_ (i : Instr) (m : StayMsg) (late : Bool) : Instr × StayMsg × List Byte × Bool := (i, m, StayMsg.body h m, late)
    let all : List (Instr × StayMsg × List Byte × Bool) :=
      [of_ (.rowRecord h r) (.row r) (s.rowLate r), of_ (.pictureRecord h p) (.pic p) (s.picLate p), of_ (.gapRecord h g) (.gap g) (s.gapLate g),
        of_ (.repairRequest h a b b) (.repairRequest a b b) false, of_ (.repairData h a ⟨b, x⟩ b) (.repairData a b x) false,
        of_ (.handover h a b l) (.handover a b l) false, of_ (.handoverAck h a) (.handoverAck a) false,
        of_ (.standDown h a) (.standDown a) false, of_ (.rejoinPlan h pl) (.rejoinPlan pl) false, of_ (.rejoinDone h l) (.rejoinDone l) false,
        (.copyRecord h y, .copy y.chan y.block y.copy y.slot, copyBody h y, false)]
    let mine : Bool := s.ours h && (s.leg h.leg).helloOk
    ∀ k ∈ all,
      let t := s.linkIn h k.2.1 k.2.2.1
      (t.2 = false → Gives k.1 s t.1)
      ∧ (t.2 = true → mine = false → Gives k.1 s t.1)
      ∧ (t.2 = true → mine = true → k.2.2.2 = true → Gives k.1 s (t.1.bump Reg.GRP_LATE_RECORDS))
      ∧ (t.2 = true → mine = true → k.2.2.2 = false → (s.peer h.rank).seen.contains h.recSeq = true →
          Gives k.1 s (t.1.bump Reg.GRP_DUP_RECORDS)))
  ∧ (∀ (s : State) (h : RecHdr) (m : StayMsg), s.ours h = true → (s.leg h.leg).helloOk = true →
      (s.peer h.rank).seen.contains h.recSeq = false → s.grp.role ≠ .active →
      let u := (s.enterRecord h false m).1
      (s.enterRecord h false m).2 = (!m.direct || h.dest == s.grp.rank) ∧ (u.peer h.rank).role = h.role
        ∧ (u.peer h.rank).seen.getLast? = some h.recSeq
        ∧ (h.role = 1 → u.grp.activeRank = h.rank ∧ u.grp.waiting = false)
        ∧ (h.role ≠ 1 → u.grp.activeRank = s.grp.activeRank ∧ u.grp.role = s.grp.role)
        ∧ (h.role = 1 → s.grp.role = .unverified → s.grp.forming = true → u.grp.role = .standby)
        ∧ (h.role = 1 → s.grp.role = .unverified → s.grp.forming = false → u.grp.role = .joining)
        ∧ (h.role ≠ 1 → s.grp.size ≠ 3 ∨ h.relayed = true ∨ (m.direct = true ∧ h.dest = s.grp.rank) → u.out = s.out)
        ∧ (s.grp.size = 3 → h.relayed = false → h.role ≠ 1 → m.direct = false ∨ h.dest ≠ s.grp.rank → s.portUp (1 - h.leg) = true →
            (s.leg (1 - h.leg)).helloOk = true →
            u.out = .stay (1 - h.leg) (s.leg (1 - h.leg)).nextLink ⟨h.recSeq, h.rank, true, m⟩ :: s.out)
        ∧ u.chans = s.chans ∧ u.net = s.net ∧ u.mem = s.mem)
  ∧ (∀ (s : State) (m : StayMsg), (s.grp.role = .none ∨ s.grp.role = .detached → s.sendAll m = s)
      ∧ (s.grp.role = .unverified → s.portUp 0 = false → s.portUp 1 = false → s.sendAll m = s)
      ∧ (s.grp.role = .active ∨ s.grp.role = .standby ∨ s.grp.role = .joining → s.portUp 0 = true → (s.leg 0).helloOk = true →
          s.portUp 1 = true → (s.leg 1).helloOk = true →
          (s.sendAll m).out = .stay 1 (s.leg 1).nextLink ⟨s.grp.recSeq, s.grp.rank, false, m⟩
            :: .stay 0 (s.leg 0).nextLink ⟨s.grp.recSeq, s.grp.rank, false, m⟩ :: s.out
            ∧ (s.sendAll m).grp.recSeq = (s.grp.recSeq + 1) % 2 ^ 32))

/-- After a record is taken: a row record of an ACTIVE, STANDBY or JOINING sender and a picture record are held for their
channel, a gap record for its AU; a repair request is answered with the packets of the last 4 ms it names, repair data enters
the merge of its entry and fills a hole; a STANDBY target acknowledges a handover, an ack of the notice marks it; the first
STANDBY takes over on a stand-down; a rejoin plan names s_c and s_r; rejoin_done ends the need; a copy block with a wrong CRC
is asked again, twice it restarts. A good direct hello opens its leg, a wrong one closes it with hello_bad. Where the spec is
silent this follows the model's choice: log entries 46, 73, 102, 106, 125 and 128. -/
def Obligations.RecordsTaken : Prop :=
  (∀ (s : State) (h : RecHdr) (r : RowRec) (p : PicRec) (g : GapRec),
    let u := (s.takeRecord h (s.rowLate r) (.row r)).1
    let v := (s.takeRecord h (s.picLate p) (.pic p)).1
    let w := (s.takeRecord h (s.gapLate g) (.gap g)).1
    ((s.takeRecord h (s.rowLate r) (.row r)).2 = true →
      (tget u.chans r.chan = none → exec (.rowRecord h r) s = .next u)
      ∧ (∀ ch, tget u.chans r.chan = some ch → u.grp.role ≠ .active → (u.gch r.chan).phase = .none →
          exec (.rowRecord h r) s = .next (if recordRole h.role then
            u.updGch r.chan fun g => { g with rows := tset g.rows (rowKey (ch.serial r.pic) r.row h.rank) r } else u)))
    ∧ ((s.takeRecord h (s.picLate p) (.pic p)).2 = true →
        (tget v.chans p.chan = none → exec (.pictureRecord h p) s = .next v)
        ∧ (∀ ch, tget v.chans p.chan = some ch → ∃ t, exec (.pictureRecord h p) s = .next t
            ∧ tget (t.gch p.chan).pics (ch.serial p.pic * 4 + h.rank) = some (h.role, p)))
    ∧ ((s.takeRecord h (s.gapLate g) (.gap g)).2 = true → ∃ t, exec (.gapRecord h g) s = .next t
        ∧ (∀ e, tget w.ext g.stream = some e → ∃ f, tget t.ext g.stream = some f
            ∧ tget f.gaps (4 * g.ts + h.rank) = some (if g.overflow then none else some g.gaps))))
  ∧ (∀ (s : State) (h : RecHdr) (m f n : Nat), (s.takeRecord h false (.repairRequest m f n)).2 = true →
      let u := (s.takeRecord h false (.repairRequest m f n)).1
      let held (q : Nat) : Bool := (tget (u.merge m).got q).any fun e => decide (u.time.now ≤ e.1 + stageTicks)
      exec (.repairRequest h m f n) s = .next (((u.merge m).stage.filter fun e => decide ((e.1 + 2 ^ 32 - f % 2 ^ 32) % 2 ^ 32 < min n 64)
        && held e.1).foldl (fun v e => v.sendRepair h.rank m (e.1 % 2 ^ 32) e.2) u))
  ∧ (∀ (s : State) (k m q : Nat) (p : RtpPacket),
      let l := s.leg (s.wayTo k)
      let done := max l.repairTo s.time.up + cdiv (8 * (40 + p.payload.length)) 40
      (done ≤ s.time.up + 10000 → s.sendRepair k m q p = (s.setLeg (s.wayTo k) { l with repairTo := done }).sendTo k (.repairData m q p))
        ∧ (s.time.up + 10000 < done → s.sendRepair k m q p = s))
  ∧ (∀ (s : State) (h : RecHdr) (m q i : Nat) (p : RtpPacket), (s.takeRecord h false (.repairData m q p)).2 = true →
      let u := (s.takeRecord h false (.repairData m q p)).1
      let entry := u.net.flows.find? fun e => e.2.arg.kind == 1 && mergeIndex e.2.arg.essence e.2.arg.target == m
        && u.targetTakes e.1 e.2.arg p i == some true
      (entry = none → exec (.repairData h m ⟨q, p⟩ i) s = .next u)
        ∧ (∀ x e, entry = some (x, e) →
            let r := u.intoMerge 32768 e.arg 2 none p i
            exec (.repairData h m ⟨q, p⟩ i) s = .next (if r.2 = true then r.1.bump Reg.GRP_REPAIR_FILLED else r.1)))
  ∧ (∀ (s : State) (h : RecHdr) (tH k : Nat) (d : List Nat),
      let m : StayMsg := .handover tH k d
      let u := (s.takeRecord h false m).1
      let n : State := { u with grp := { u.grp with notice := some { tH := tH, target := k, diverged := d } } }
      let a := (s.takeRecord h false (.handoverAck tH)).1
      ((s.takeRecord h false m).2 = true →
        (k = u.grp.rank → u.grp.role = .standby → exec (.handover h tH k d) s =
          .next (({ n with grp := { n.grp with targetOf := some tH } } : State).sendAll (.handoverAck tH)))
        ∧ (k ≠ u.grp.rank ∨ u.grp.role ≠ .standby → exec (.handover h tH k d) s = .next n))
      ∧ ((s.takeRecord h false (.handoverAck tH)).2 = true → ∃ t, exec (.handoverAck h tH) s = .next t
          ∧ (∀ o, a.grp.handover = some o → o.tH = tH → o.target = h.rank → o.retry = false → t.grp.handover = some { o with acked := true })
          ∧ (∀ o, a.grp.handover = some o → o.tH ≠ tH ∨ o.target ≠ h.rank → t.grp.handover = some o) ∧ t.grp.role = a.grp.role))
  ∧ (∀ (s : State) (h : RecHdr) (x : Nat), (s.takeRecord h false (.standDown x)).2 = true →
      let u := (s.takeRecord h false (.standDown x)).1
      let first := (takeoverOrder h.rank u.grp.size).find? fun k =>
        (k == u.grp.rank && u.grp.role == .standby) || ((u.peer k).role == 2 && u.reachable k)
      exec (.standDown h x) s = .next (if h.rank = u.grp.activeRank ∧ first = some u.grp.rank then u.takeOver else u))
  ∧ (∀ (s : State) (h : RecHdr) (c n r : Nat), h.role = 1 →
      let plan (x : Option Nat) : List (Nat × Nat × Option Nat) := [(c, n, x)]
      let u := (s.takeRecord h false (.rejoinPlan (plan none))).1
      let v := (s.takeRecord h false (.rejoinPlan (plan (some r)))).1
      ((s.takeRecord h false (.rejoinPlan (plan none))).2 = true → ∃ t, exec (.rejoinPlan h (plan none)) s = .next t
        ∧ (t.gch c).sC = some (match tget u.chans c with | some ch => ch.serial n | none => n) ∧ (t.gch c).sR = none)
      ∧ (∀ ch, tget v.chans c = some ch → (s.takeRecord h false (.rejoinPlan (plan (some r)))).2 = true →
          ∃ t, exec (.rejoinPlan h (plan (some r))) s = .next t ∧ (t.gch c).sR = some (ch.serial r)
            ∧ (t.gch c).rp = some (ch.serial r + ch.cfg.refs.rejoinG - 1)))
  ∧ (∀ (s : State) (h : RecHdr) (l : List Nat), (s.takeRecord h false (.rejoinDone l)).2 = true →
      let u := (s.takeRecord h false (.rejoinDone l)).1
      ∃ t, exec (.rejoinDone h l) s = .next t ∧ (t.peer h.rank).needs = (u.peer h.rank).needs.filter (fun c => !(l.contains c)))
  ∧ (∀ (s : State) (h : RecHdr) (y : CopyRec),
      let g := s.takeBytes h false (.copy y.chan y.block y.copy y.slot) (copyBody h y)
      let u := g.1
      let on : Bool := u.grp.role == .joining && (u.gch y.chan).phase == .copy && y.last
      g.2 = true →
      (on = false → exec (.copyRecord h y) s = .next u)
      ∧ (on = true → y.crcOk = false → (u.gch y.chan).failedBlocks.contains y.block = false → exec (.copyRecord h y) s =
          .next (u.updGch y.chan fun g => { g with failedBlocks := g.failedBlocks ++ [y.block] }))
      ∧ (on = true → y.crcOk = false → (u.gch y.chan).failedBlocks.contains y.block = true → exec (.copyRecord h y) s =
          .next ((u.updGch y.chan (·.resync)).sticky (Reg.GRP_CHN_STATUS y.chan) 0x20000))
      ∧ (on = true → y.crcOk = true → y.copy = none → y.slot = none → exec (.copyRecord h y) s = .next u)
      ∧ (∀ q, on = true → y.crcOk = true → y.copy = none → y.slot = some q → exec (.copyRecord h y) s =
          .next (u.updChan y.chan fun ch => { ch with pics := tset ch.pics q.pic (slotPic q) }))
      ∧ (∀ k, on = true → y.crcOk = true → y.copy = some k →
          (k.define.channel ≠ y.chan → exec (.copyRecord h y) s = .next u)
          ∧ (k.define.channel = y.chan → u.applyCopy k = none → exec (.copyRecord h y) s = .next
              ((u.updGch y.chan fun g => { g with phase := .none, inSync := false, refused := true }).sticky (Reg.GRP_CHN_STATUS y.chan) 0x40000))
          ∧ (∀ v, k.define.channel = y.chan → u.applyCopy k = some v → exec (.copyRecord h y) s = .next v)))
  ∧ (∀ (s : State) (h : RecHdr) (r : HelloRec),
      let g := s.linkIn h (.hello r) (StayMsg.body h (.hello r))
      let good : Bool := s.ours h && r.size == s.grp.size && r.level == s.dev.level && s.wired h.leg h.rank r.port
      let fld : List Fld := [.regs, .log, .logSeq, .mbx, .pmu, .tx, .grp, .out]
      (g.2 = false → Gives (.hello h r) s g.1)
      ∧ (g.2 = true → h.relayed = true → Does (.hello h r) s fld anyReg fun t => ∀ q, (t.leg q).helloOk = (s.leg q).helloOk)
      ∧ (g.2 = true → h.relayed = false → good = false → Gives (.hello h r) s
          ((g.1.setLeg h.leg { g.1.leg h.leg with helloOk := false }).sticky Reg.GRP_STATUS 0x800000))
      ∧ (g.2 = true → h.relayed = false → good = true → h.leg ≤ 1 →
          Does (.hello h r) s fld anyReg fun t =>
            (t.leg h.leg).helloOk = true ∧ (t.leg h.leg).peerRank = h.rank ∧ (s.portUp h.leg = true → (t.leg h.leg).outage = [])
              ∧ ((s.peer h.rank).seen.contains h.recSeq = false → (t.peer h.rank).macs = r.macs ∧ (t.peer h.rank).level = r.level)))

/-- A STANDBY, UNVERIFIED or JOINING member with a watch takes over when the active is silent and it is first candidate, else
it waits once more, then takes over: counted, logged with the former active and its own role, ACTIVE, every channel going on.
Silent records alone make it UNVERIFIED. A held packet that expires unseen counts. At t_h an acked active hands over, an
unacked one counts a failure and retries, the target becomes ACTIVE. A copy that failed goes again, failed twice it has a new
s_c. A leg replays, or fails after 50 us. Where the spec is silent this follows the model's choice: log entries 45, 102 and
103. -/
def Obligations.GroupTimers : Prop :=
  let moved : List Fld := [.regs, .log, .logSeq, .mbx, .pmu, .chans, .tx, .txc, .grp, .out]
  let taken (s t : State) : Prop :=
    t.grp.role = .active ∧ t.grp.activeRank = s.grp.rank ∧ t.grp.waiting = false ∧ t.grp.handover = none
      ∧ t.rd Reg.GRP_TAKEOVERS = (s.bump Reg.GRP_TAKEOVERS).rd Reg.GRP_TAKEOVERS
      ∧ Entered 0x0050 0xFF (s.grp.activeRank + s.grp.role.code * 256) t
      ∧ ∀ c ch, tget s.chans c = some ch → tsorted s.chans = true → (t.gch c).emitTo = none ∧ (t.gch c).emitFrom =
          (if s.grp.role = .unverified ∨ (s.grp.role = .joining ∧ (s.gch c).inSync = false) then some (ch.picAfter s.time.now) else none)
  (∀ (s : State),
      (s.mayTakeOver = false → Gives .takeoverTimer s s)
      ∧ (s.mayTakeOver = true → s.firstCandidate = false → Gives .takeoverTimer s { s with grp := { s.grp with waiting := true } })
      ∧ (s.mayTakeOver = true → s.firstCandidate = true → Does .takeoverTimer s moved anyReg (taken s))
      ∧ ((s.grp.waiting && s.mayTakeOver) = false → Gives .takeoverWaitTimer s s)
      ∧ ((s.grp.waiting && s.mayTakeOver) = true → Does .takeoverWaitTimer s moved anyReg (taken s)))
  ∧ (∀ (s : State),
      (s.grp.role = .standby ∨ s.grp.role = .joining → Does .recordSilenceTimeout s [.regs, .pmu, .tx, .grp, .out] anyReg fun t =>
        t.grp.role = .unverified ∧ t.grp.forming = false ∧ t.grp.targetOf = none ∧ t.grp.activeRank = s.grp.activeRank
          ∧ t.grp.chans = s.grp.chans)
      ∧ (¬ (s.grp.role = .standby ∨ s.grp.role = .joining) → Gives .recordSilenceTimeout s s)
      ∧ (s.member = false → Gives .helloTimer s s)
      ∧ (s.member = true → s.portUp 0 = false → s.portUp 1 = false → Gives .helloTimer s s)
      ∧ (s.member = true → s.portUp 0 = true ∨ s.portUp 1 = true → Does .helloTimer s [.regs, .mbx, .pmu, .grp, .rat, .out] anyReg fun t =>
          (s.mbx.held = none → t.mbx = s.mbx ∧ t.rat = s.rat) ∧ t.grp.recSeq = (s.grp.recSeq + (if s.portUp 0 then 1 else 0) + (if s.portUp 1 then 1 else 0)) % 2 ^ 32
            ∧ (s.portUp 0 = true → .stay 0 (s.leg 0).nextLink ⟨s.grp.recSeq, s.grp.rank, false, .hello (s.helloRec 0)⟩ ∈ t.out)
            ∧ (s.portUp 1 = true → s.portUp 0 = false →
                t.out = .stay 1 (s.leg 1).nextLink ⟨s.grp.recSeq, s.grp.rank, false, .hello (s.helloRec 1)⟩ :: s.out)))
  ∧ (∀ (s : State) (c q : Nat),
      let f := s.grp.heldPkts.find? fun p => p.chan == c && p.seq == q
      (f = none → Gives (.heldPacketExpiry c q) s s)
      ∧ (∀ p, f = some p → Does (.heldPacketExpiry c q) s [.regs, .grp] (regIn [Reg.GRP_HOLD_EXPIRED]) fun t =>
          t.grp.heldPkts = s.grp.heldPkts.erase p ∧ t.rd Reg.GRP_HOLD_EXPIRED =
            if (s.toResend c).contains p then (s.bump Reg.GRP_HOLD_EXPIRED).rd Reg.GRP_HOLD_EXPIRED else s.rd Reg.GRP_HOLD_EXPIRED))
  ∧ (∀ (s : State),
      let fld : List Fld := [.regs, .pmu, .chans, .tx, .grp, .out]
      let done (t : State) : Prop := t.rd Reg.GRP_HANDOVERS = (s.bump Reg.GRP_HANDOVERS).rd Reg.GRP_HANDOVERS
      let target (tH : Nat) : Prop := Does .handoverInstant s fld anyReg fun t =>
        t.grp.role = .active ∧ t.grp.targetOf = none ∧ t.grp.notice = none ∧ done t
          ∧ ∀ c ch, tget s.chans c = some ch → tsorted s.chans = true → (t.gch c).emitTo = none
              ∧ (t.gch c).emitFrom = some (ch.handoverPic tH)
      (∀ o, s.grp.handover = some o →
        (o.retry = true → Gives .handoverInstant s s)
        ∧ (o.retry = false → o.acked = false → Gives .handoverInstant s
            (({ s with grp := { s.grp with handover := some { o with retry := true } } } : State).bump Reg.GRP_HANDOVER_FAILS))
        ∧ (o.retry = false → o.acked = true → Does .handoverInstant s fld anyReg fun t =>
            t.grp.role = (if o.leave = true then .detached else if o.diverged = [] then .standby else .joining) ∧ t.grp.activeRank = o.target ∧ t.grp.handover = none ∧ done t
              ∧ ∀ c ch, tget s.chans c = some ch → tsorted s.chans = true → 0 < ch.handoverPic o.tH →
                  (t.gch c).emitTo = some (ch.handoverPic o.tH - 1) ∧ (c ∈ o.diverged → o.leave = false → (t.gch c).inSync = false ∧ (t.gch c).phase = .copy)))
      ∧ (s.grp.handover = none → ∀ tH, s.grp.targetOf = some tH → target tH)
      ∧ (s.grp.handover = none → s.grp.targetOf = none → s.grp.notice = none → Gives .handoverInstant s s)
      ∧ (s.grp.handover = none → s.grp.targetOf = none → ∀ o, s.grp.notice = some o → (o.acked = false ∨ (s.grp.role ≠ .standby ∧ s.grp.role ≠ .joining)) →
          Gives .handoverInstant s { s with grp := { s.grp with notice := none } })
      ∧ (s.grp.handover = none → s.grp.targetOf = none → ∀ o, s.grp.notice = some o → Does .handoverInstant s [.chans, .grp] noReg fun t =>
          t.grp = { s.grp with notice := none })
      ∧ (∀ o, s.grp.handover = some o → o.retry = true →
          let u : State := { s with grp := { s.grp with handover := none } }
          Gives .handoverRetry s (match (if u.standbys.contains o.target then some o.target else u.standbys.head?) with
            | some k => u.startHandover k o.diverged o.leave
            | none => u))
      ∧ ((s.grp.handover = none ∨ ∃ o, s.grp.handover = some o ∧ o.retry = false) → Gives .handoverRetry s s))
  ∧ (∀ (s : State) (c : Nat) (l : List Nat),
      let on : Bool := s.grp.role == .active && (s.gch c).sC.isSome && thas s.chans c
      let again : Bool := l.any (s.gch c).failedBlocks.contains
      (on = false → Gives (.rejoinCopyComplete c l) s s)
      ∧ (on = true → again = true → Does (.rejoinCopyComplete c l) s [.regs, .pmu, .grp, .out] anyReg fun t =>
          (t.gch c).sR = none ∧ (t.gch c).failedBlocks = [] ∧ ∀ ch, tget s.chans c = some ch →
            (t.gch c).sC = some (ch.picAt (s.time.now + 2 * ch.cfg.main.tp)))
      ∧ (on = true → again = false → l ≠ [] → Does (.rejoinCopyComplete c l) s [.regs, .pmu, .grp, .out] anyReg fun t =>
          (t.gch c).failedBlocks = (s.gch c).failedBlocks ++ l ∧ (t.gch c).sC = (s.gch c).sC)
      ∧ (on = true → l = [] → Does (.rejoinCopyComplete c l) s [.regs, .pmu, .chans, .grp, .out] anyReg fun t =>
          ∀ ch, tget s.chans c = some ch →
            let n := ch.rejoinStart 4096 (ch.picAt (s.time.now + 2 * ch.cfg.main.tp))
            (t.gch c).sR = some n ∧ (t.gch c).rp = some (n + ch.cfg.refs.rejoinG - 1))
      ∧ (s.grp.role = .joining → (s.gch c).refused = true → Gives (.copyRetryTimer c) s
          (s.updGch c fun g => { g.resync with refused := false }))
      ∧ (s.grp.role = .active → s.needed c = true → thas s.chans c = true → Gives (.copyRetryTimer c) s (s.planCopies [c]))
      ∧ (¬ (s.grp.role = .joining ∧ (s.gch c).refused = true) → ¬ (s.grp.role = .active ∧ s.needed c = true ∧ thas s.chans c = true) →
          Gives (.copyRetryTimer c) s s))
  ∧ (∀ (s : State) (q n : Nat),
      let l := s.leg q
      (1 < q ∨ l.replay = [] → Gives (.stayReplayTimeout q) s s)
      ∧ (∀ f r, q ≤ 1 → l.replay = f :: r → (4 ≤ f.replays ∨ 50000 < s.time.up - f.first) → 
          Does (.stayReplayTimeout q) s [.regs, .log, .logSeq, .mbx, .pmu, .grp, .lane, .rat, .out] anyReg fun t => t = s.failPort q 1
            ∧ s.portUp q = true → (t.leg q).replay = [] ∧ (t.leg q).outage = takeLast 512 (l.replay.map (·.msg) ++ l.outage))
      ∧ (∀ f r, q ≤ 1 → l.replay = f :: r → f.replays < 4 → s.time.up - f.first ≤ 50000 →
          Does (.stayReplayTimeout q) s [.regs, .pmu, .grp, .out] anyReg fun t =>
            t.out = (l.replay.map fun x => Out.stay q x.link x.msg).reverse ++ s.out
              ∧ (t.leg q).replay = l.replay.map fun x => { x with replays := x.replays + 1 })
      ∧ (q ≤ 1 → Gives (.linkAck q n) s (s.setLeg q { l with replay := l.replay.filter fun f => f.link != n }))
      ∧ (4 ≤ q → Gives (.linkAck q n) s s)
      ∧ (q ≤ 1 → Does (.linkAck (q + 2) n) s [.regs, .pmu, .rat, .out] anyReg fun t =>
          t.rat.seq = s.rat.seq ∧ ((tgetD s.rat.outQ q [] = [] ∨ s.ratUp q = false) →
            tgetD t.rat.replay q [] = (tgetD s.rat.replay q []).filter fun f => f.link != n)))

/-- A frame at a port that is UP counts when its length and CRC hold and it is the next in order; then it is acknowledged. One
delivered already is acknowledged again, a broken one counts in CHAIN_CRC_ERRORS, one ahead of a lost frame waits. A message
other than ENUM then goes on by the opposite port with one hop more, unless it is from or for this unit or has 15 hops; by a
port that is not UP it is dropped and counted. This unit takes it when it is for its address, for all, or an ASSIGN of its
unit_id: once; a second copy, or one below the window of 256, counts in CHAIN_DUPLICATES. One that firmware cannot take waits
in the ring of 64; a full ring counts in CHAIN_RX_OVERFLOWS. Where the spec is silent this follows the model's choice: log
entries 63 and 103. -/
def Obligations.RingMessages : Prop :=
  let msg : RatHdr → BitVec 64 → Nat → Nat → List Nat → Completion → List (Instr × RatMsg) := fun h id a b l c =>
    [(.announce h id, .announce id), (.assign h id a, .assign id a), (.ratlineCompletion h c, .completion c), (.ringCheck h, .ringCheck),
      (.budget h l, .budget l), (.testRequest h a b, .testRequest a b), (.testGrant h a b, .testGrant a b), (.testDone h a, .testDone a)]
  (∀ (s : State) (h : RatHdr) (m : RatMsg),
    let n := tgetD s.rat.rxLink h.port 0
    let up := s.ratUp h.port
    let good : Bool := decide (16 ≤ h.length) && decide (h.length ≤ 272) && h.crc == crc32c (h.bytes m)
    (up = false → s.ratLinkIn h m = (s, false))
    ∧ (up = true → good = false → s.ratLinkIn h m = (s.bump Reg.CHAIN_CRC_ERRORS, false))
    ∧ (up = true → good = true →
        (h.link = n → s.ratLinkIn h m = ({ s with
            rat := { s.rat with rxLink := tset s.rat.rxLink h.port ((n + 1) % 256) }, out := .ack (2 + h.port) h.link :: s.out }, true))
        ∧ (h.link ≠ n → (n + 256 - h.link) % 256 ≤ 8 → s.ratLinkIn h m = ({ s with out := .ack (2 + h.port) h.link :: s.out }, false))
        ∧ (h.link ≠ n → 8 < (n + 256 - h.link) % 256 → s.ratLinkIn h m = (s, false))))
  ∧ (∀ (s : State) (h : RatHdr) (id : BitVec 64) (a b : Nat) (l : List Nat) (c : Completion), ∀ e ∈ msg h id a b l c,
      let k := s.ratLinkIn h e.2
      let v := k.1.ratReceive h e.2
      (k.2 = false → Gives e.1 s k.1)
      ∧ (k.2 = true → v.taken = false → Gives e.1 s v.st)
      ∧ (k.2 = true → v.taken = true → s.fwAlive = false → s.rat.rxRing.length < 64 →
          Does e.1 s [.regs, .pmu, .rat, .out] anyReg fun t =>
            t.rat.rxRing = s.rat.rxRing ++ [⟨h.west, h.manager, h.src, h.dst, h.seq, h.hops, e.2⟩])
      ∧ (k.2 = true → v.taken = true → s.fwAlive = false → 64 ≤ s.rat.rxRing.length → Gives e.1 s (v.st.bump Reg.CHAIN_RX_OVERFLOWS)))
  ∧ (∀ (s : State) (h : RatHdr) (m : RatMsg),
      let own : Bool := s.rat.addr != 0 && (h.dst == s.rat.addr || h.src == s.rat.addr)
      let mine : Bool := (s.rat.addr != 0 && h.dst == s.rat.addr) || h.dst == 0xFF
        || (h.dst == 0 && (match m with | .assign id _ => id == s.dev.nvm.unitId | _ => false))
      let w := match m with | .assign _ a => (s.ratForward h m).clearWindow a | _ => s.ratForward h m
      let seen := tgetD w.rat.windows h.src []
      let dup : Bool := seen.contains h.seq || decide (h.seq + 256 < maxNat seen)
      ((own = true ∨ 15 ≤ h.hops) → s.ratForward h m = s)
      ∧ (own = false → h.hops < 15 → s.ratUp (1 - h.port) = false → s.ratForward h m = s.bump Reg.CHAIN_FWD_DROPS)
      ∧ (own = false → h.hops < 15 → s.ratUp (1 - h.port) = true →
          s.ratForward h m = s.ratOut (1 - h.port) ⟨h.west, h.manager, h.src, h.dst, h.seq, h.hops + 1, m⟩)
      ∧ (mine = false → (s.ratReceive h m).st = w ∧ (s.ratReceive h m).taken = false)
      ∧ (mine = true → dup = true → (s.ratReceive h m).st = w.bump Reg.CHAIN_DUPLICATES ∧ (s.ratReceive h m).taken = false)
      ∧ (mine = true → dup = false → (s.ratReceive h m).taken = true ∧ (s.ratReceive h m).st.rat.seq = s.rat.seq
          ∧ (s.ratReceive h m).st.rat.rxRing = s.rat.rxRing ∧ (s.ratReceive h m).st.rat.table = s.rat.table
          ∧ (tsorted w.rat.windows = true → ((s.ratReceive h m).st.ratReceive h .ringCheck).taken = false)))
  ∧ (∀ (s : State) (p : Nat) (f : RatFrame), p ≤ 1 →
      let q := tgetD s.rat.outQ p []
      let x := tgetD s.rat.nextLink p 0
      ((s.ratUp p = false ∨ 256 ≤ q.length) → s.ratOut p f = s)
      ∧ (s.ratUp p = true → q = [] → (tgetD s.rat.replay p []).length < 8 → (s.ratOut p f).out = .rat p x f :: s.out
          ∧ tgetD (s.ratOut p f).rat.replay p [] = tgetD s.rat.replay p [] ++ [⟨x, 0, s.time.up, f⟩]
          ∧ tgetD (s.ratOut p f).rat.nextLink p 0 = (x + 1) % 256)
      ∧ (s.ratUp p = true → q.length < 256 → 8 ≤ (tgetD s.rat.replay p []).length → (s.ratOut p f).out = s.out
          ∧ tgetD (s.ratOut p f).rat.outQ p [] = q ++ [f]))
  ∧ (∀ (s : State) (h : RatHdr) (ports d f : Nat),
      let k := s.ratLinkIn h (.ringReport ports d f)
      (k.2 = false → Gives (.ringReport h ports d f) s k.1)
      ∧ (k.2 = true → (s.rat.manager = false ∨ h.dst ≠ s.rat.addr) → (k.1.ratReceive h (.ringReport ports d f)).taken = false →
          Gives (.ringReport h ports d f) s (k.1.ratReceive h (.ringReport ports d f)).st))

/-- The manager answers an ANNOUNCE with ASSIGN of the address its table holds or the lowest free one, else the unit is left
unnumbered. A unit takes its address, answers a RING_CHECK with its states, demand and floor, applies a BUDGET of its manager;
reports, requests, grants and TEST_DONE are kept. ENUM: a worker takes the next address and passes the walk on, or back with
end. The check of the ring, a split, budgets, a budget time-out, expired grants and replays, which fail a port after 200 us.
Where the spec is silent this follows the model's choice: log entries 63, 65, 103 and 128. -/
def Obligations.RingFirmware : Prop :=
  let bits (s : State) : Nat :=
    let code (st : LinkState) : Nat := match st with | .down => 0 | .training => 1 | .up => 2 | .failed => 3
    code (tgetD s.lane.ports 2 {}).st + 4 * code (tgetD s.lane.ports 3 {}).st
  (∀ (s : State) (h : RatHdr) (id : BitVec 64) (a b : Nat) (l : List Nat), s.fwAlive = true →
      let lk (m : RatMsg) : State × Bool := s.ratLinkIn h m
      let rx (m : RatMsg) : State := ((lk m).1.ratReceive h m).st
      let ok (m : RatMsg) : Bool := (lk m).2 && ((lk m).1.ratReceive h m).taken
      let free := match s.rat.table.find? fun e => e.2 == id with
        | some (x, _) => some x
        | none => (rangeFrom 2 15).find? fun x => !(thas s.rat.table x)
      (ok (.announce id) = true → s.manages = false → Gives (.announce h id) s (rx (.announce id)))
      ∧ (ok (.announce id) = true → s.manages = true → ∀ x, free = some x →
          Does (.announce h id) s [.regs, .pmu, .rat, .out] anyReg fun t =>
            tget t.rat.table x = some id ∧ tget t.rat.windows x = none ∧ t.rat.seq = (s.rat.seq + 1) % 2 ^ 32
              ∧ (s.ratUp 0 = true → tgetD (rx (.announce id)).rat.outQ 0 [] = [] → (tgetD (rx (.announce id)).rat.replay 0 []).length < 8 →
                  ∃ k, Out.rat 0 k ⟨false, s.rat.manager, s.rat.addr, 0, s.rat.seq, 0, .assign id x⟩ ∈ t.out))
      ∧ (ok (.announce id) = true → s.manages = true → free = none → Does (.announce h id) s [.regs, .log, .logSeq, .mbx, .pmu, .rat, .out] anyReg fun t =>
          t.rat.table = s.rat.table ∧ t.rd Reg.CHAIN_UNNUMBERED = s.rd Reg.CHAIN_UNNUMBERED + 1 ∧ Entered 0x0061 0xFF id.toNat t)
      ∧ (ok (.assign id a) = true → Gives (.assign h id a) s { rx (.assign id a) with rat := { (rx (.assign id a)).rat with addr := a } })
      ∧ (ok .ringCheck = true → Gives (.ringCheck h) s ((rx .ringCheck).ratSend 1 (.ringReport (bits s) s.demandPower s.floorPower)))
      ∧ (ok (.testGrant a b) = true → Gives (.testGrant h a b) s (if h.manager = true ∧ h.src = 1 then
            { rx (.testGrant a b) with dev := { s.dev with test := { s.dev.test with granted := s.dev.test.granted ++ [a], asked := false } } }
          else rx (.testGrant a b)))
      ∧ (ok (.testRequest a b) = true → s.manages = false → Gives (.testRequest h a b) s (rx (.testRequest a b)))
      ∧ (ok (.testRequest a b) = true → s.manages = true → s.rat.waiting ≠ [] ∨ s.rat.grants.any (·.addr == h.src) = true →
          s.rat.waiting.head?.all (fun g => !(s.rat.grantFits g)) = true →
          Does (.testRequest h a b) s [.regs, .pmu, .rat, .out] anyReg fun t => t.rat.waiting = s.rat.waiting ++ [⟨h.src, a, b, s.time.up⟩]
            ∧ t.rat.grants = s.rat.grants)
      ∧ (ok (.testRequest a b) = true → s.manages = true → s.rat.waiting = [] →
          s.rat.grantFits ⟨h.src, a, b, s.time.up⟩ = true → s.rat.grants.any (·.addr == h.src) = false →
          let u : State := { rx (.testRequest a b) with rat := { (rx (.testRequest a b)).rat with grants := s.rat.grants ++ [⟨h.src, a, b, s.time.up⟩] } }
          Gives (.testRequest h a b) s (if h.src = s.rat.addr then u.granted a else u.ratSend h.src (.testGrant a b)))
      ∧ (ok (.testDone a) = true → s.manages = false → Gives (.testDone h a) s (rx (.testDone a)))
      ∧ (ok (.testDone a) = true → s.manages = true → s.rat.waiting = [] → Gives (.testDone h a) s { rx (.testDone a) with rat := { (rx (.testDone a)).rat with
            grants := s.rat.grants.filter fun g => !(g.addr == h.src && g.block == a) } })
      ∧ (ok (.budget l) = true → h.manager = true → h.src = 1 → s.rat.addr ≠ 0 → l.getD (s.rat.addr - 1) 0 ≠ 0 →
          Does (.budget h l) s [.regs, .pmu, .pwr, .rat, .out] anyReg fun t =>
            t.pwr.mgrBudget = some (l.getD (s.rat.addr - 1) 0) ∧ t.pwr.budgetStale = false)
      ∧ (ok (.budget l) = true → (h.manager = false ∨ h.src ≠ 1 ∨ s.rat.addr = 0 ∨ l.getD (s.rat.addr - 1) 0 = 0) → Gives (.budget h l) s (rx (.budget l)))
      ∧ (s.rat.manager = true → h.dst = s.rat.addr → ok (.ringReport a b 3) = true →
          Does (.ringReport h a b 3) s [.regs, .pmu, .rat, .out] anyReg fun t => tget t.rat.demand h.src = some (b, 3)
            ∧ (h.port = 0 → h.src ∈ t.rat.eastNow ∧ t.rat.westNow = s.rat.westNow)
            ∧ (h.port ≠ 0 → h.src ∈ t.rat.westNow ∧ t.rat.eastNow = s.rat.eastNow)))
  ∧ (∀ (s : State) (h : RatHdr) (n : Nat) (ids : List (BitVec 64)) (fin : Bool),
      let k := s.ratLinkIn h (.enum n ids fin)
      let worker : Bool := k.2 && s.fwAlive && !s.rat.manager
      (k.2 = false → Gives (.enum h n ids fin) s k.1)
      ∧ (k.2 = true → s.fwAlive = false → Gives (.enum h n ids fin) s (k.1.ratWait h (.enum n ids fin)))
      ∧ (worker = true → fin = false → ids.length < 16 → Does (.enum h n ids fin) s [.regs, .pmu, .rat, .out] anyReg fun t =>
          t.rat.addr = n ∧ (h.port ≤ 1 → tgetD s.rat.outQ (1 - h.port) [] = [] → (tgetD s.rat.replay (1 - h.port) []).length < 8 →
            s.ratUp (1 - h.port) = true → ∃ x, t.out = .rat (1 - h.port) x ⟨h.west, h.manager, h.src, h.dst, h.seq, h.hops + 1,
              .enum (if h.west then n - 1 else n + 1) (ids ++ [s.dev.nvm.unitId]) false⟩ :: k.1.out))
      ∧ (worker = true → fin = false → 16 ≤ ids.length → Does (.enum h n ids fin) s [.regs, .log, .logSeq, .mbx, .pmu, .rat, .out] anyReg fun t =>
          t.rat.addr = 0 ∧ t.rd Reg.CHAIN_UNNUMBERED = s.rd Reg.CHAIN_UNNUMBERED + 1 ∧ Entered 0x0061 0xFF s.dev.nvm.unitId.toNat t)
      ∧ (worker = true → fin = false → ids.length < 16 → s.ratUp (1 - h.port) = false → h.port ≤ 1 → s.ratUp h.port = true →
          tgetD s.rat.outQ h.port [] = [] → (tgetD s.rat.replay h.port []).length < 8 → Does (.enum h n ids fin) s [.regs, .pmu, .rat, .out] anyReg fun t =>
            ∃ x, t.out = .rat h.port x ⟨!h.west, h.manager, h.src, h.dst, h.seq, h.hops + 1,
              .enum (if h.west then n - 1 else n + 1) (ids ++ [s.dev.nvm.unitId]) true⟩ :: k.1.out)
      ∧ (worker = true → fin = true → s.ratUp (1 - h.port) = true → Gives (.enum h n ids fin) s
          (k.1.ratOut (1 - h.port) ⟨h.west, h.manager, h.src, h.dst, h.seq, h.hops + 1, .enum n ids true⟩))
      ∧ (worker = true → fin = true → s.ratUp (1 - h.port) = false → Gives (.enum h n ids fin) s (k.1.bump Reg.CHAIN_FWD_DROPS))
      ∧ (k.2 = true → s.fwAlive = true → s.rat.manager = true → ids.head? ≠ some s.dev.nvm.unitId →
          Does (.enum h n ids fin) s [.regs, .log, .logSeq, .mbx, .rat, .out] anyReg fun t =>
            t.rat = { k.1.rat with conflict := true } ∧ Entered 0x0060 0xFF (ids.headD 0).toNat t)
      ∧ (k.2 = true → s.fwAlive = true → s.rat.manager = true → s.rat.conflict = true → ids.head? = some s.dev.nvm.unitId →
          Gives (.enum h n ids fin) s k.1)
      ∧ (k.2 = true → s.fwAlive = true → s.manages = true → ids.head? = some s.dev.nvm.unitId → s.rat.westWalk = true →
          Does (.enum h n ids fin) s [.rat, .out] noReg fun t => t.rat.westWalk = false ∧ t.rat.ring = s.rat.ring
            ∧ ∀ i id, (ids.drop s.rat.table.length)[i]? = some id → i < 16 → tget t.rat.table (16 - i) = some id)
      ∧ (k.2 = true → s.fwAlive = true → s.manages = true → ids.head? = some s.dev.nvm.unitId → s.rat.westWalk = false → fin = false →
          h.port = 1 → Gives (.enum h n ids fin) s { k.1 with rat := { k.1.rat with table := walkTable ids 1 true, ring := 1, enumDone := true } })
      ∧ (k.2 = true → s.fwAlive = true → s.manages = true → ids.head? = some s.dev.nvm.unitId → s.rat.westWalk = false → fin = true →
          Does (.enum h n ids fin) s [.regs, .pmu, .rat, .out] anyReg fun t =>
            t.rat.table = walkTable ids 1 true ∧ t.rat.ring = 2 ∧ t.rat.westWalk = true ∧ t.rat.enumDone = true))
  ∧ (∀ (s : State),
      let units := (tkeys s.rat.table).filter (· != 1)
      let gone := units.filter fun a => !(s.rat.east.contains a) && !(s.rat.west.contains a)
      let on : Bool := s.manages && s.rat.enumDone && s.fwAlive
      let live : Bool := s.rat.addr == 0 && (s.ratUp 0 || s.ratUp 1) && s.fwAlive
      let e := s.rat.eastNow
      let w := s.rat.westNow
      (live = false → Gives .announceTimer s s)
      ∧ (live = true → Gives .announceTimer s (s.ratSend 1 (.announce s.dev.nvm.unitId)))
      ∧ (on = false → Gives .ringCheckTimer s s ∧ Gives .budgetTimer s s)
      ∧ (on = true → Does .ringCheckTimer s [.regs, .pmu, .rat, .out] anyReg fun t =>
          t.rat.east = e ∧ t.rat.west = w ∧ t.rat.eastNow = [] ∧ t.rat.westNow = [] ∧ t.rat.seq = (s.rat.seq + 1) % 2 ^ 32
            ∧ t.rat.ring = if units = [] then s.rat.ring else if units.all fun a => e.contains a && w.contains a then 1
                else if units.all fun a => e.contains a || w.contains a then 2 else s.rat.ring)
      ∧ (s.manages = true → s.rat.enumDone = true → gone ≠ [] → Does .ringSplitTimeout s [.regs, .log, .logSeq, .mbx, .rat, .out] anyReg fun t =>
          t.rat = { s.rat with ring := 3 } ∧ Entered 0x0062 0xFF (sumNat (gone.map fun a => 2 ^ (a - 1))) t)
      ∧ ((s.manages = false ∨ s.rat.enumDone = false ∨ gone = []) → Gives .ringSplitTimeout s s)
      ∧ (s.rat.limit = none → Gives .budgetTimer s s)
      ∧ (∀ x, on = true → s.rat.limit = some x → Does .budgetTimer s [.regs, .log, .logSeq, .mbx, .pmu, .pwr, .rat, .out] anyReg fun t =>
          t.rat.demand = tset s.rat.demand 1 (s.demandPower, s.floorPower)
            ∧ t.rat.budgets = budgetsOf x ((t.rat.demand.filter fun (e : Nat × Nat × Nat) => thas s.rat.table e.1).map
                fun (e : Nat × Nat × Nat) => (e.1, e.2.1, e.2.2))
            ∧ t.pwr.mgrBudget = some (tgetD t.rat.budgets 1 0) ∧ t.pwr.budgetStale = false)
      ∧ (s.numbered = false → Gives .budgetTimeout s s)
      ∧ (s.numbered = true → Does .budgetTimeout s [.regs, .pwr] anyReg fun t => t.pwr.budgetStale = true ∧ t.pwr.mgrBudget = s.pwr.mgrBudget))
  ∧ (∀ (l : Nat) (us : List (Nat × Nat × Nat)), (us.map (·.1)).Nodup →
      let f := sumNat (us.map fun u => u.2.2)
      let d := sumNat (us.map fun u => u.2.1 - u.2.2)
      ∀ u ∈ us, tget (budgetsOf l us) u.1 = some (if l ≤ f ∨ d = 0 then u.2.2 else min u.2.1 (u.2.2 + (l - f) * (u.2.1 - u.2.2) / d)))
  ∧ (∀ (s : State) (a : Nat),
      (s.rat.grants.any (·.addr == a) = false → Gives (.grantExpiry a) s s)
      ∧ (s.rat.grants.any (·.addr == a) = true → Does (.grantExpiry a) s [.regs, .dev, .pmu, .rat, .out] anyReg fun t =>
          (s.rat.conflict = true ∨ s.rat.waiting = [] → t.rat.grants = s.rat.grants.filter (·.addr != a))
            ∧ t.rd Reg.CHAIN_GRANT_EXPIRED = s.rd Reg.CHAIN_GRANT_EXPIRED + 1))
  ∧ (∀ (s : State) (p : Nat),
      let r := tgetD s.rat.replay p []
      (1 < p ∨ r = [] → Gives (.ratlineReplayTimeout p) s s)
      ∧ (∀ f y, p ≤ 1 → r = f :: y → (4 ≤ f.replays ∨ 200000 < s.time.up - f.first) →
          Does (.ratlineReplayTimeout p) s [.regs, .lane, .rat] (regIn [Reg.LINK_RETRAINS (2 + p), Reg.LINK_STATUS (2 + p)]) fun t =>
            ((tgetD s.lane.ports (2 + p) {}).st ≠ .failed → t.rd (Reg.LINK_RETRAINS (2 + p)) = s.rd (Reg.LINK_RETRAINS (2 + p)) + 1
              ∧ (tgetD t.lane.ports (2 + p) {}).st = .failed ∧ tgetD t.rat.replay p [] = [] ∧ tgetD t.rat.nextLink p 0 = 0
              ∧ tgetD t.rat.rxLink p 0 = 0))
      ∧ (∀ f y, p ≤ 1 → r = f :: y → f.replays < 4 → s.time.up - f.first ≤ 200000 → Gives (.ratlineReplayTimeout p) s
          { s with rat := { s.rat with replay := tset s.rat.replay p (r.map fun x => { x with replays := x.replays + 1 }) },
                   out := (r.map fun x => Out.rat p x.link x.msg).reverse ++ s.out }))

/-- A command with a non-local target goes unchanged in one COMMAND, or is refused: E_NOT_AUTHORISED for KEYS, E_STATE in
conflict, E_BAD_PARAM for a target not in the table. The worker takes COMMAND of its manager alone, executes it with the roles
of the session, journals it under source, slot and sequence and sends its COMPLETION; a duplicate sends the stored one again.
The manager puts the completion into the host block; each 10 ms it sends again with the same seq; after 2 s it answers
E_TIMEOUT. Where the spec is silent this follows the model's choice: log entries 28, 29, 30, 125 and 128. -/
def Obligations.ForwardedCommands : Prop :=
  (∀ (s : State) (h : CmdHdr) (p : Payload) (g b : Nat),
      let e := tgetD s.mbx.sessions h.pair ⟨0, 0⟩
      let j := tgetD s.mbx.journal e.slot []
      let keys : Bool := (opInfo p).roles == .oneOf 16
      let why : Option Nat := if keys then some eNotAuthorised else if s.rat.conflict then some eState
        else if s.rat.manager = false ∨ thas s.rat.table h.target = false then some eBadParam else none
      g < 4096 → b < 32 → tget s.mbx.h2d h.pair = some (mbxWord 1 g b) → s.mayRead h.pair = true → 1 ≤ h.pair →
      thas s.mbx.sessions h.pair = true → commandRefusal h e.roles p = none → 2 ≤ h.target →
        (why = none → (unjournaled p = true ∨ (h.seq ≠ 0 ∧ thas j h.seq = false)) →
          let u := s.runCommand h p
          let f : Forwarded := ⟨h.pair, g, b, h, e.slot, e.roles, p, s.rat.seq⟩
          Touches [.regs, .mbx, .pmu, .rat, .out] s u ∧ u.rat.forwarded = s.rat.forwarded ++ [f] ∧ u.rat.seq = (s.rat.seq + 1) % 2 ^ 32
            ∧ tget u.mbx.h2d h.pair = none ∧ u.mbx.blocks = s.mbx.blocks ∧ u.mbx.queue = s.mbx.queue ∧ u.mbx.journal = s.mbx.journal
            ∧ ∀ q, q ≤ 1 → s.ratUp q = true → tgetD s.rat.outQ q [] = [] → (tgetD s.rat.replay q []).length < 8 → ∃ k,
                Out.rat q k ⟨q == 1, s.rat.manager, s.rat.addr, h.target, s.rat.seq, 0, .command h e.slot e.roles p⟩ ∈ u.out)
        ∧ (∀ x, why = some x → unjournaled p = false → journalRule j h.seq = .fresh →
          let u := s.runCommand h p
          Touches [.mbx, .out] s u ∧ tget u.mbx.blocks (32 * h.pair + b) = some (completionOf h (opcodeOf p) x false [])
            ∧ (tsorted j = true → tget (tgetD u.mbx.journal e.slot []) h.seq = some (.done (completionOf h (opcodeOf p) x false []))))
        ∧ (∀ c, why = none → unjournaled p = false → h.seq ≠ 0 → tget j h.seq = some (.done c) →
          tget (s.runCommand h p).mbx.blocks (32 * h.pair + b) = some { c with duplicate := true }))
  ∧ (∀ (s : State) (h : RatHdr) (c : CmdHdr) (k roles : Nat) (p : Payload),
      let l := s.ratLinkIn h (.command c k roles p)
      let v : RatTake := if l.2 then l.1.ratReceive h (.command c k roles p) else ⟨l.1, false, false⟩
      let u := State.drainRing 64 v.st
      let mine : Bool := h.manager && h.src == 1
      (s.rat.rxRing = [] → u = v.st)
      ∧ (v.dup = false → v.taken = false → Gives (.ratlineCommand h c k roles p) s u)
      ∧ (v.taken = true → mine = false → Gives (.ratlineCommand h c k roles p) s (u.bump Reg.CHAIN_FWD_DROPS))
      ∧ (v.taken = true → mine = true → (u.fwAlive = false ∨ u.mbx.held ≠ none) → Gives (.ratlineCommand h c k roles p) s (u.ratWait h (.command c k roles p)))
      ∧ (v.dup = true → (mine = false ∨ u.fwAlive = false) → Gives (.ratlineCommand h c k roles p) s u)
      ∧ (v.dup = true → mine = true → u.fwAlive = true →
          (∀ d, tget (tgetD u.rat.stored (8 * h.src + k) []) c.seq = some (.done d) →
            Gives (.ratlineCommand h c k roles p) s (u.ratSend h.src (.completion { d with forwarded := true })))
          ∧ (tget (tgetD u.rat.stored (8 * h.src + k) []) c.seq = none → Gives (.ratlineCommand h c k roles p) s u))
      ∧ (v.taken = true → mine = true → u.fwAlive = true → u.mbx.held = none → unjournaled p = false →
          let j := tgetD u.rat.stored (8 * h.src + k) []
          let put (x : State) (y : JEntry) : State := { x with rat := { x.rat with
            stored := tset x.rat.stored (8 * h.src + k) (journalPut (tgetD x.rat.stored (8 * h.src + k) []) c.seq y) } }
          let a := (put u .inProgress).checkedBody c ⟨.ratline h.src, k, roles, c.seq⟩ p
          let d := completionOf c (opcodeOf p) a.status false a.data
          (∀ r, c.seq ≠ 0 → tget j c.seq = some (.done r) →
            Gives (.ratlineCommand h c k roles p) s (u.ratSend h.src (.completion { r with duplicate := true, forwarded := true })))
          ∧ (c.seq = 0 → Gives (.ratlineCommand h c k roles p) s (u.ratSend h.src (.completion { completionOf c (opcodeOf p) eBadParam false [] with forwarded := true })))
          ∧ (journalRule j c.seq = .fresh → u.dev.state = .ready → u.threadFree = true → a.hold = none → a.close = none → a.stored = none →
              thas (tgetD a.st.rat.stored (8 * h.src + k) []) c.seq = true →
              Gives (.ratlineCommand h c k roles p) s ((put a.st (.done d)).ratSend h.src (.completion { d with forwarded := true })))
          ∧ (∀ n, p = .cuAssign ⟨n, 1⟩ → n = 2 ∨ n = 3 ∨ n = 7 → c.reservedOk = true → c.length = 4 → journalRule j c.seq = .fresh → u.dev.state = .ready →
              u.threadFree = true → tsorted j = true → s.rat.rxRing = [] → Does (.ratlineCommand h c k roles p) s [.regs, .chk, .pmu, .rat, .out] anyReg fun t => (t.chkOf n).granted = true
                ∧ tget (tgetD t.rat.stored (8 * h.src + k) []) c.seq = some (.done (completionOf c 0x0A02 eOk false [])))))
  ∧ (∀ (s : State) (h : RatHdr) (c : Completion), s.fwAlive = true →
      let l := s.ratLinkIn h (.completion c)
      let v := l.1.ratReceive h (.completion c)
      let answers (f : Forwarded) : Bool := f.hdr.target == h.src && match f.body, c.fetched with
        | .completionFetch q, true => q == c.seq
        | b, _ => opcodeOf b == c.opcode && f.hdr.seq == c.seq && f.hdr.session == c.session
      l.2 = true → v.taken = true →
        (s.rat.forwarded.find? answers = none → Gives (.ratlineCompletion h c) s v.st)
        ∧ (∀ f, s.rat.forwarded.find? answers = some f → Does (.ratlineCompletion h c) s [.regs, .mbx, .pmu, .rat, .out] anyReg fun t =>
            t.rat.forwarded = s.rat.forwarded.erase f ∧ tget t.mbx.blocks (32 * f.pair + f.block) =
              some { c with session := if c.fetched then c.session else f.hdr.session, target := f.hdr.target, forwarded := true }
            ∧ (∃ a, tgetD t.mbx.queue f.pair [] = tgetD s.mbx.queue f.pair [] ++ [(mbxWord 1 f.tag f.block, a)])))
  ∧ (∀ (s : State),
      (s.fwAlive = false ∨ s.rat.conflict = true ∨ s.rat.forwarded = [] → Gives .commandResendTimer s s)
      ∧ (s.fwAlive = true → s.rat.conflict = false → s.rat.forwarded ≠ [] → Does .commandResendTimer s [.regs, .pmu, .rat, .out] anyReg fun t =>
          t.rat.forwarded = s.rat.forwarded ∧ t.rat.seq = s.rat.seq
            ∧ ∀ f r, s.rat.forwarded = f :: r → s.ratUp 0 = true → tgetD s.rat.outQ 0 [] = [] → (tgetD s.rat.replay 0 []).length < 8 → ∃ k,
                Out.rat 0 k ⟨false, s.rat.manager, s.rat.addr, f.hdr.target, f.seq, 0, .command f.hdr f.slot f.roles f.body⟩ ∈ t.out))
  ∧ (∀ (s : State) (pair q : Nat),
      let x := s.rat.forwarded.find? fun f => f.pair == pair && f.hdr.seq == q
      (x = none → Gives (.forwardTimeout pair q) s s)
      ∧ (∀ f, x = some f → Does (.forwardTimeout pair q) s [.mbx, .rat] noReg fun t =>
          t.rat.forwarded = s.rat.forwarded.erase f
            ∧ tget t.mbx.blocks (32 * f.pair + f.block) =
                some { completionOf f.hdr (opcodeOf f.body) eTimeout false [] with forwarded := true }
            ∧ (∃ a, tgetD t.mbx.queue f.pair [] = tgetD s.mbx.queue f.pair [] ++ [(mbxWord 1 f.tag f.block, a)])))

/-- SESSION_OPEN reserves a pair and answers with nonce, unit_id and pair. A good SESSION_PROVE opens the session, replaces
the slot session, whose pair gets CLOSED with reason 2, and answers with the device proof and high(k); a wrong one is refused
with E_NOT_AUTHORISED, uses up the nonce and counts toward the lock. SESSION_CLOSE posts its completion, then CLOSED with
reason 1. COMPLETION_FETCH answers with the stored block. KEY_WRITE puts or empties a slot, its journal and session.
DEVICE_INFO and EVENT_LOG_FETCH answer with data. Where the spec is silent this follows the model's choice: log entries 14,
15, 16, 32, 66, 109 and 110. -/
def Obligations.SessionCommands : Prop :=
  let blockOf (h : CmdHdr) (b : Nat) (t : State) : Option Completion := tget t.mbx.blocks (32 * h.pair + b)
  (∀ (s : State) (h : CmdHdr) (g b : Nat) (p : SessionOpenArg), s.serves h (.sessionOpen p) g b = true →
      p.keySlot ≤ 7 → p.roles ≤ 31 → p.pair ≤ 8 → thas s.dev.nvm.keys p.keySlot = true → s.mbx.locked.contains p.keySlot = false →
      ∀ x, s.pairFor p.keySlot p.pair = some x →
        Runs (.sessionOpen h p) s h (.sessionOpen p) g b (leBytes 16 (Config.nonce s.fresh).toNat ++ leBytes 8 s.dev.nvm.unitId.toNat ++ leBytes 4 x)
          [.fresh] noReg fun t => t.fresh = s.fresh + 1
            ∧ t.mbx.nonces = takeLast 8 (s.mbx.nonces ++ [⟨Config.nonce s.fresh, p.keySlot, p.roles, x⟩]))
  ∧ (∀ (s : State) (h : CmdHdr) (g b : Nat) (p : SessionProveArg), s.serves h (.sessionProve p) g b = true →
      (∀ n key roles, s.mbx.nonces.find? (·.nonce == p.nonce) = some n → tget s.dev.nvm.keys n.slot = some (key, roles) →
        let msg (label : Nat) : List Byte := [BitVec.ofNat 8 label] ++ leBytes 16 n.nonce.toNat ++ leBytes 8 s.dev.nvm.unitId.toNat
          ++ [BitVec.ofNat 8 n.slot, BitVec.ofNat 8 n.roles, BitVec.ofNat 8 n.pair]
        (Config.hmac key (msg 0x48) = p.proof → n.roles &&& roles = n.roles →
          Does (.sessionProve h p) s [.regs, .mbx, .out] (regIn ([Reg.MBX_LOST] ++ (List.range 9).map Reg.MBX_STATUS)) fun t =>
            tget t.mbx.sessions n.pair = some ⟨n.slot, n.roles⟩ ∧ t.mbx.nonces = s.mbx.nonces.filter (fun m => m.nonce != p.nonce)
              ∧ blockOf h b t = some (completionOf h 0x0102 eOk false (leBytes 16 (Config.hmac key (msg 0x44)).toNat
                  ++ leBytes 4 (journalHigh (tgetD s.mbx.journal n.slot []))))
              ∧ (s.slotPair n.slot = none → t.mbx.sessions = tset s.mbx.sessions n.pair ⟨n.slot, n.roles⟩)
              ∧ (∀ q, s.slotPair n.slot = some q → q ≠ h.pair → thas s.mbx.sessions q = true →
                  ∃ a, (tgetD t.mbx.queue q []).getLast? = some (mbxWord 6 0 2, a)))
        ∧ ((Config.hmac key (msg 0x48) ≠ p.proof ∨ n.roles &&& roles ≠ n.roles) → Does (.sessionProve h p) s [.mbx, .out] noReg fun t =>
            blockOf h b t = some (completionOf h 0x0102 eNotAuthorised false []) ∧ t.mbx.sessions = s.mbx.sessions
              ∧ t.mbx.nonces = s.mbx.nonces.filter (fun m => m.nonce != p.nonce)
              ∧ (tgetD s.mbx.fails n.slot [] = [] → tgetD t.mbx.fails n.slot [] = [s.time.up] ∧ t.mbx.locked = s.mbx.locked)
              ∧ (3 ≤ ((tgetD s.mbx.fails n.slot []).filter fun x => decide (s.time.up < x + 60000000000)).length → n.slot ∈ t.mbx.locked)))
      ∧ (s.mbx.nonces.find? (·.nonce == p.nonce) = none → Does (.sessionProve h p) s [.mbx, .out] noReg fun t =>
          blockOf h b t = some (completionOf h 0x0102 eNotAuthorised false []) ∧ t.mbx.sessions = s.mbx.sessions ∧ t.mbx.nonces = s.mbx.nonces
            ∧ t.mbx.fails = s.mbx.fails ∧ t.mbx.locked = s.mbx.locked))
  ∧ (∀ (s : State) (h : CmdHdr) (g b : Nat), s.serves h .sessionClose g b = true → 1 ≤ h.pair →
      Does (.sessionClose h) s [.regs, .mbx, .out] (regIn [Reg.MBX_STATUS h.pair]) fun t =>
        t.mbx.sessions = tdel s.mbx.sessions h.pair ∧ t.mbx.d2h = s.mbx.d2h ∧ tget t.mbx.h2d h.pair = none
          ∧ blockOf h b t = some (completionOf h 0x0103 eOk false [])
          ∧ (tgetD t.mbx.queue h.pair []).map (·.1) = ((tgetD s.mbx.queue h.pair []).map (·.1)).filter (fun w => wordType w != 1)
              ++ [mbxWord 1 g b, mbxWord 6 0 1])
  ∧ (∀ (s : State) (h : CmdHdr) (g b q : Nat), s.serves h (.completionFetch q) g b = true →
      let e := tget (tgetD s.mbx.journal (tgetD s.mbx.sessions h.pair ⟨0, 0⟩).slot []) q
      let answers (c : Completion) : Prop := Does (.completionFetch h q) s [.mbx, .out] noReg fun t =>
        blockOf h b t = some c ∧ t.mbx.sessions = s.mbx.sessions ∧ t.mbx.journal = s.mbx.journal ∧ t.mbx.d2h = s.mbx.d2h
      (∀ c, e = some (.done c) → answers { c with duplicate := true, fetched := true })
      ∧ (e = some .inProgress → answers (completionOf h 0x0104 eBusy false []))
      ∧ (e = some .damaged → answers (completionOf h 0x0104 eCrc false []))
      ∧ (e = none → answers (completionOf h 0x0104 eState false [])))
  ∧ (∀ (s : State) (h : CmdHdr) (g b : Nat) (p : KeyWriteArg), s.serves h (.keyWrite p) g b = true →
      let keys := if p.roles = 0 then tdel s.dev.nvm.keys p.keySlot else tset s.dev.nvm.keys p.keySlot (p.key, p.roles)
      p.keySlot ≤ 7 → p.roles ≤ 31 → (p.roles = 0 → p.key = 0) → keys.any (fun e => e.2.2.testBit 4) = true →
        (s.slotPair p.keySlot = none → Runs (.keyWrite h p) s h (.keyWrite p) g b [] [.dev] noReg fun t =>
          t.dev = { s.dev with nvm := { s.dev.nvm with keys := keys } } ∧ (∀ k, k ≠ p.keySlot →
            k ≠ (tgetD s.mbx.sessions h.pair ⟨0, 0⟩).slot → tget t.mbx.journal k = tget s.mbx.journal k))
        ∧ (∀ q, s.slotPair p.keySlot = some q → thas s.mbx.sessions q = true →
          Does (.keyWrite h p) s [.regs, .dev, .mbx, .out] (regIn [Reg.MBX_STATUS q, Reg.MBX_LOST]) fun t =>
            t.dev = { s.dev with nvm := { s.dev.nvm with keys := keys } } ∧ t.mbx.sessions = tdel s.mbx.sessions q
              ∧ blockOf h b t = some (completionOf h 0x0105 eOk false [])
              ∧ ((tgetD t.mbx.queue q []).getLast?.map (·.1)) = some (mbxWord 6 0 Config.keyWriteReason)
              ∧ (p.keySlot ≠ (tgetD s.mbx.sessions h.pair ⟨0, 0⟩).slot → tget t.mbx.journal p.keySlot = none)))
  ∧ (∀ (s : State) (h : CmdHdr) (g b : Nat), s.serves h .deviceInfo g b = true →
      let v := s.dev.nvm
      Runs (.deviceInfo h) s h .deviceInfo g b
        (leBytes 8 v.unitId.toNat ++ leBytes 2 v.dieRev.toNat ++ [3, 2] ++ leBytes 1 s.life ++ [0] ++ leBytes 1 s.dev.level ++ [1, 2]
          ++ leBytes 1 s.dev.booted ++ leBytes 1 s.rat.addr ++ leBytes 1 s.grp.role.code
          ++ leBytes 1 (sumNat ((tkeys v.keys).map fun k => 2 ^ k)) ++ [0, 0, 0] ++ leBytes 4 v.subsystem.toNat)
        [] noReg fun t => t.mbx.journal = s.mbx.journal)
  ∧ (∀ (s : State) (h : CmdHdr) (g b : Nat) (p : EventFetchArg), s.serves h (.eventLogFetch p) g b = true → 1 ≤ p.max → p.max ≤ 7 →
      let all := s.log.reverse
      let es := (all.filter fun (e : Event) => decide (p.fromSeq ≤ e.seq)).take p.max
      let oldest := match all with | e :: _ => e.seq | [] => s.logSeq
      Runs (.eventLogFetch h p) s h (.eventLogFetch p) g b
        (leBytes 1 es.length ++ leBytes 1 (if max p.fromSeq 1 < oldest then 1 else 0) ++ leBytes 2 0
          ++ leBytes 4 (match es.getLast? with | some e => e.seq + 1 | none => p.fromSeq) ++ es.flatMap Event.bytes)
        [] noReg fun t => t.log = s.log)

/-- The behaviour level with no channel; the host budget of a unit no manager has numbered; SHUTDOWN at once HALTED or
TESTING, or held until the channels stop; the calibration record read into a buffer or written from one that verifies; a flash
write that begins with an empty slot; a life-cycle transition of Table 21-2 with its entry action, a chip reset to follow; the
PTP configuration with its flow entries, the servo, the acceptance of a pending step, the PPS pin; a check unit granted or
returned. Where the spec is silent this follows the model's choice: log entries 7, 31, 42, 109 and 123. -/
def Obligations.DeviceCommands : Prop :=
  (∀ (s : State) (h : CmdHdr) (g b : Nat) (p : ChArg),
      (s.serves h (.deviceConfigure p) g b = true → 1 ≤ p.object → p.object ≤ 2 → p.item = 0 → s.chans = [] →
        (s.member = false ∨ p.object = s.dev.level) → Runs (.deviceConfigure h p) s h (.deviceConfigure p) g b [] [.dev] noReg fun t =>
          t.dev = { s.dev with level := p.object })
      ∧ (s.serves h (.shutdown p) g b = true → p.object ≤ 1 → p.item = 0 → s.member = false → s.allStopped = true →
        Runs (.shutdown h p) s h (.shutdown p) g b [] [.dev] noReg fun t =>
          t.dev = if p.object = 1 then { s.dev with state := .halted } else { s.dev with state := .testing, test := {} })
      ∧ (∀ c ch, s.serves h (.shutdown p) g b = true → p.object ≤ 1 → p.item = 0 → s.member = false → s.chans = [(c, ch)] → c ≤ 63 →
        ch.st = .running → Does (.shutdown h p) s [.dev, .mbx, .chans, .out] noReg fun t =>
          ((tget t.chans c).map (·.st)) = some .stopping ∧ (t.mbx.held.map (·.why)) = some .shutdown ∧ t.mbx.blocks = s.mbx.blocks
            ∧ t.mbx.queue = s.mbx.queue ∧ t.dev.state = if p.object = 0 then .testing else .ready)
      ∧ (s.serves h (.cuAssign p) g b = true → p.object = 2 ∨ p.object = 3 ∨ p.object = 7 → p.item ≤ 1 →
        Runs (.cuAssign h p) s h (.cuAssign p) g b [] [.regs, .chk] (fun off => Reg.CHK_CONFIG p.object ≤ off ∧ off < Reg.CHK_CONFIG (p.object + 1))
          fun t => (t.chkOf p.object).granted = (p.item == 1) ∧ (∀ k, k ≠ p.object → t.chkOf k = s.chkOf k)
            ∧ ((s.chkOf p.object).granted = (p.item == 1) → t.chk = s.chk ∧ t.regs = s.regs)
            ∧ ((s.chkOf p.object).granted = true → p.item = 0 → (t.chkOf p.object).busy = false ∧ (t.chkOf p.object).latched = none
                ∧ ((s.chkOf p.object).busy = true → t.rd (Reg.CHK_STATUS p.object) = (s.rd (Reg.CHK_STATUS p.object) ||| 0x800)))))
  ∧ (∀ (s : State) (h : CmdHdr) (g b n : Nat),
      (s.serves h (.powerBudget n) g b = true → n = 0 ∨ (1600 ≤ n ∧ n ≤ 5280) → s.numbered = false →
        Runs (.powerBudget h n) s h (.powerBudget n) g b [] [.pwr] noReg fun t =>
          t.pwr = { s.pwr with hostBudget := if n = 0 then none else some n })
      ∧ (∀ f, s.serves h (.calRead n) g b = true → s.deviceBuffer n 4096 = some f →
        Runs (.calRead h n) s h (.calRead n) g b (leBytes 4 (crc32c s.dev.nvm.calBytes).toNat ++ [s.dev.nvm.calBytes.getD 12 0, 0, 0, 0]) [.mem] noReg
          fun t => ∀ a, (a < f.addr ∨ f.addr + 4096 ≤ a) → Mem.read t.mem.hbm a 1 = Mem.read s.mem.hbm a 1))
  ∧ (∀ (s : State) (h : CmdHdr) (g b : Nat) (p : CalWriteArg) (f : Surface), s.serves h (.calWrite p) g b = true →
      s.deviceBuffer p.surface 4096 = some f →
      let r := Mem.read s.mem.hbm f.addr 4096
      let c := r.take 12 ++ [1] ++ (r.drop 13).take 4079
      calOk r s.dev.nvm.unitId = true → s.rangePoisoned f.addr 4096 = false → crc32c r = p.crc →
      crc32c (r.take 4092) = BitVec.ofNat 32 (leNat (r.drop 4092)) →
        Runs (.calWrite h p) s h (.calWrite p) g b [] [.dev] noReg fun t =>
          t.dev = { s.dev with nvm := { s.dev.nvm with cal := some (c ++ leBytes 4 (crc32c c).toNat) } })
  ∧ (∀ (s : State) (h : CmdHdr) (g b : Nat) (p : FirmwareWriteArg), s.serves h (.firmwareWrite p) g b = true → p.info.sigOk = true → p.image ≤ 1 →
      p.boot ≤ 1 → p.info.length ≤ 2 ^ 24 → (s.deviceBuffer p.surface p.info.length).isSome = true → s.dev.booted ≠ p.image → s.dev.fwWrite = none →
        Runs (.firmwareWrite h p) s h (.firmwareWrite p) g b [] [.dev] noReg fun t =>
          t.dev.fwWrite = some (p.image, p.surface, p.info, p.boot == 1) ∧ t.dev.nvm.slot p.image = {}
            ∧ t.dev.nvm.slot (1 - p.image) = s.dev.nvm.slot (1 - p.image) ∧ t.dev.state = s.dev.state)
  ∧ (∀ (s : State) (h : CmdHdr) (g b : Nat) (p : LifecycleSetArg), s.serves h (.lifecycleSet p) g b = true → s.chans = [] → s.grp.role = .none →
      p.target ≤ 3 → s.dev.nvm.fuses < 14 →
      let moved (a z : Nat) : Prop := s.life = a ∧ p.target = z
      let key : Prop := p.signed = some (leBytes 8 s.dev.nvm.unitId.toNat ++ leBytes 1 s.life ++ leBytes 1 p.target ++ leBytes 1 s.dev.nvm.fuses ++ leBytes 5 0) ∧ (if s.life = 2 then p.keyDigest = Config.serviceKeyDigest else s.dev.nvm.ownerDigest = some p.keyDigest)
      (moved 0 1 ∨ moved 1 2 ∨ moved 3 1 → key → Runs (.lifecycleSet h p) s h (.lifecycleSet p) g b [] [.dev] noReg fun t =>
        t.dev = { s.dev with lifeReset := true, nvm := { s.dev.nvm with
          fuses := s.dev.nvm.fuses + 1, keys := if s.life = 3 then [] else s.dev.nvm.keys } })
      ∧ (moved 2 3 → key → Does (.lifecycleSet h p) s [.regs, .dev, .mbx, .out]
          (regIn ([Reg.MBX_LOST] ++ (tkeys s.mbx.sessions).map Reg.MBX_STATUS)) fun t =>
            t.dev = { s.dev with lifeReset := true, nvm := { s.dev.nvm with fuses := s.dev.nvm.fuses + 1, keys := [] } }
              ∧ t.mbx.sessions = [] ∧ t.mbx.journal = [] ∧ tget t.mbx.blocks (32 * h.pair + b) = some (completionOf h 0x0208 eOk false [])))
  ∧ (∀ (s : State) (h : CmdHdr) (g b : Nat) (c : TimeConfigArg) (u : State), s.serves h (.timeConfig c) g b = true → s.timeConfigOk c = true →
      s.setPtpEntries c = some u →
        Runs (.timeConfig h c) s h (.timeConfig c) g b [] [.regs, .time, .chans, .ext, .aud, .net, .tx] anyReg fun t =>
          t.time.cfg = some c ∧ t.net = u.net ∧ t.time.flows = u.time.flows
            ∧ (s.time.cfg = none → t.time.port0.master = none ∧ t.time.port1.master = none)
            ∧ (s.time.cfg = some c → t.time = { u.time with cfg := some c }))
  ∧ (∀ (s : State) (h : CmdHdr) (g b : Nat) (p : TimeServoArg), s.serves h (.timeServoConfig p) g b = true →
      1 ≤ p.kp → p.kp ≤ 0x100000 → 1 ≤ p.ki → p.ki ≤ 0x100000 → 1000 ≤ p.slew → p.slew ≤ 500000 → 1000 ≤ p.thresh → p.thresh ≤ 1000000000 →
      p.autoStep ≤ 1 → Runs (.timeServoConfig h p) s h (.timeServoConfig p) g b [] [.time] noReg fun t =>
        t.time = { s.time with kp := p.kp, ki := p.ki, slew := p.slew, thresh := p.thresh, autoStep := p.autoStep == 1 })
  ∧ (∀ (s : State) (h : CmdHdr) (g b : Nat) (p : TimeField), s.serves h (.timeAcceptStep p) g b = true → p.ns < 1000000000 →
      s.time.pend.isSome = true → (p.zero = true ∨ s.time.nowNs ≤ timeNs p s.time) →
        Runs (.timeAcceptStep h p) s h (.timeAcceptStep p) g b [] [.time] noReg fun t =>
          t.time = { s.time with accept := some (if p.zero then s.time.nowNs else timeNs p s.time) })
  ∧ (∀ (s : State) (h : CmdHdr) (g b : Nat) (p : TimePpsArg), s.serves h (.timePpsConfig p) g b = true → 1000 ≤ p.width → p.width ≤ 500000000 →
      p.mode ≤ 1 → Runs (.timePpsConfig h p) s h (.timePpsConfig p) g b [] [.time] noReg fun t =>
        t.time = { s.time with ppsWidth := p.width, ppsAlways := p.mode == 1 })

/-- PORT_CONFIG enables and removes the interfaces of a port, unless an entry or an output uses one it would remove.
NET_ADDRESS sets every address of an interface. FLOW_ADD puts an entry where R182 finds a place, with its counters zero and
its bucket full, and answers with its index; with no place it is refused with E_NO_CAPACITY and counted, the table unchanged.
FLOW_DELETE removes one that nothing names; the memberships follow the entries. TX_QUEUE_CONFIG and GATE_LIST_SET keep the run
rule of R203. LANE_CONFIG sets a lane that nothing uses. Where the spec is silent this follows the model's choice: log entries
64 and 101. -/
def Obligations.NetCommands : Prop :=
  let groups (t : Tab Flow) : List (Nat × Addr × Addr) := (t.flatMap fun e => groupsOf e.2.arg).dedup
  (∀ (s : State) (h : CmdHdr) (g b : Nat) (p : PortConfigArg), s.serves h (.portConfig p) g b = true →
      let keep := ((List.range 4).filter fun k => p.enable.testBit k && (p.mode == 1 || k == 0)).map fun k => 4 * p.port + k
      let all := rangeFrom (4 * p.port) 4
      p.port ≤ 3 → p.mode ≤ 1 → p.enable ≤ 15 → (p.mode = 0 → p.enable ≤ 1) →
      (∀ i ∈ all, ((s.iface i).enabled = true ∧ i ∉ keep) ∨ (s.ifExists i = true ∧ p.mode = 0 ∧ i % 4 ≠ 0) → s.ifUsed i = false) →
        Runs (.portConfig h p) s h (.portConfig p) g b [] [.regs, .pmu, .time, .grp, .net, .tx, .txc, .lane] anyReg fun t =>
          (∀ i ∈ all, (t.iface i).enabled = keep.contains i)
            ∧ (∀ i, i < 16 → i ∉ all → t.iface i = s.iface i ∧ t.txIf i = s.txIf i)
            ∧ (t.net.breakout.contains p.port = (p.mode == 1)) ∧ t.net.flows = s.net.flows
            ∧ ((s.net.breakout.contains p.port ≠ (p.mode == 1)) → ∀ i ∈ all, (t.iface i).linkUp = false)
            ∧ (∀ l, 16 ≤ l → l < 26 → t.laneOf l = s.laneOf l))
  ∧ (∀ (s : State) (h : CmdHdr) (g b : Nat) (p : NetAddressArg), s.serves h (.netAddress p) g b = true → s.ifExists p.iface = true →
      p.mac.toNat.testBit 40 = false →
        (∀ c, s.time.cfg = some c → c.delayMode = 0 ∨ (c.portPrimary ≠ p.iface ∧ c.portSecondary ≠ p.iface)) →
        Runs (.netAddress h p) s h (.netAddress p) g b [] [.net] noReg fun t =>
          t.iface p.iface = { s.iface p.iface with mac := some p.mac, ipv4a := p.ipv4a, ipv4b := p.ipv4b, ipv6a := p.ipv6a, ipv6b := p.ipv6b }
            ∧ (∀ i, i ≠ p.iface → t.iface i = s.iface i) ∧ t.net.flows = s.net.flows)
  ∧ (∀ (s : State) (h : CmdHdr) (g b : Nat) (p : NetAddressArg) (c : TimeConfigArg), s.serves h (.netAddress p) g b = true → s.ifExists p.iface = true →
      p.mac.toNat.testBit 40 = false → s.time.cfg = some c → c.delayMode = 1 → (c.portPrimary = p.iface ∨ c.portSecondary = p.iface) →
        ∀ u, (s.updIface p.iface fun f => { f with
            mac := some p.mac, ipv4a := p.ipv4a, ipv4b := p.ipv4b, ipv6a := p.ipv6a, ipv6b := p.ipv6b }).setPtpEntries c = some u →
          Runs (.netAddress h p) s h (.netAddress p) g b [] [.regs, .time, .chans, .ext, .aud, .net, .tx] anyReg fun t =>
            t.net = u.net ∧ t.time.flows = u.time.flows ∧ (t.iface p.iface).mac = some p.mac)
  ∧ (∀ (s : State) (h : CmdHdr) (g b : Nat) (a : FlowArg), s.serves h (.flowAdd a) g b = true → s.flowArgOk a = true →
      findKey s.net.flows (keyOf a) = none →
      (∀ x, placement s.net.flows (keyOf a) = some ([], x) →
        Runs (.flowAdd h a) s h (.flowAdd a) g b (leBytes 4 x) [.regs, .net, .tx] anyReg fun t =>
          t.net.flows = tset s.net.flows x { arg := a, bucket := burstEff a * 1024, at_ := s.time.now } ∧ t.net.ifaces = s.net.ifaces
            ∧ t.net.members = groups t.net.flows ∧ (groupsOf a = [] → s.net.members = groups t.net.flows → t.regs = s.regs ∧ t.tx = s.tx))
      ∧ (∀ m x, placement s.net.flows (keyOf a) = some (m, x) → a.kind ≠ 4 →
        Runs (.flowAdd h a) s h (.flowAdd a) g b (leBytes 4 x) [.regs, .time, .chans, .ext, .aud, .net, .tx] anyReg fun t =>
          tget t.net.flows x = some { arg := a, bucket := burstEff a * 1024, at_ := s.time.now })
      ∧ (placement s.net.flows (keyOf a) = none → Does (.flowAdd h a) s [.regs, .mbx, .out] (regIn [Reg.NET_FLOW_REFUSALS, Reg.NET_FLOW_STATUS])
          fun t => t.rd Reg.NET_FLOW_REFUSALS = s.rd Reg.NET_FLOW_REFUSALS + 1
            ∧ t.rd Reg.NET_FLOW_STATUS = (s.rd Reg.NET_FLOW_STATUS ||| 0x10000)
            ∧ tget t.mbx.blocks (32 * h.pair + b) = some (completionOf h 0x0403 eNoCapacity false [])))
  ∧ (∀ (t : Tab Flow) (a : FlowArg),
      let way0 := freeSlot t ((keyOf a).bucket 0)
      let way1 := freeSlot t ((keyOf a).bucket 1)
      (∀ x, way0 = some x → placement t (keyOf a) = some ([], x)) ∧ (∀ x, way0 = none → way1 = some x → placement t (keyOf a) = some ([], x))
        ∧ (∀ m x, placement t (keyOf a) = some (m, x) → m.length ≤ 3
            ∧ ((keyOf a).bucket 0 ≤ x ∧ x < (keyOf a).bucket 0 + 4 ∨ (keyOf a).bucket 1 ≤ x ∧ x < (keyOf a).bucket 1 + 4)))
  ∧ (∀ (s : State) (h : CmdHdr) (g b x : Nat), s.serves h (.flowDelete x) g b = true → x ≤ 32767 → thas s.net.flows x = true →
      s.flowNamed x = false → Runs (.flowDelete h x) s h (.flowDelete x) g b [] [.regs, .net, .tx] anyReg fun t =>
        t.net.flows = tdel s.net.flows x ∧ t.net.ifaces = s.net.ifaces ∧ t.net.merges = s.net.merges
          ∧ t.net.members = groups t.net.flows ∧ (s.net.members = groups t.net.flows → t.regs = s.regs ∧ t.tx = s.tx))
  ∧ (∀ (s : State) (h : CmdHdr) (g b : Nat) (p : TxQueueArg), s.serves h (.txQueueConfig p) g b = true → s.ifExists p.iface = true → p.queue ≤ 15 →
      (if 4 ≤ p.queue then 1 ≤ p.weight ∧ p.weight ≤ 255 else p.weight = 0) → 64 ≤ p.maxFrame → p.maxFrame ≤ 9216 →
      let u := { s.txIf p.iface with
        weight := if 4 ≤ p.queue then tset (s.txIf p.iface).weight p.queue p.weight else (s.txIf p.iface).weight
        maxFrame := tset (s.txIf p.iface).maxFrame p.queue p.maxFrame }
      (∀ l, u.oper = some l → gateRuleOk u (s.ifRate p.iface) l = true) → (∀ l, u.pend = some l → gateRuleOk u (s.ifRate p.iface) l = true) →
        Runs (.txQueueConfig h p) s h (.txQueueConfig p) g b [] [.tx] noReg fun t => t.txIf p.iface = u ∧ ∀ i, i ≠ p.iface → t.txIf i = s.txIf i)
  ∧ (∀ (s : State) (h : CmdHdr) (g b : Nat) (p : GateListArg), s.serves h (.gateListSet p) g b = true → s.ifExists p.iface = true →
      p.base.ns < 1000000000 → 1000 ≤ p.cycle → p.cycle ≤ 1000000000 → p.count ≤ 256 →
      let set (es : List (BitVec 16 × Nat)) : Prop := gateRuleOk (s.txIf p.iface) (s.ifRate p.iface) ⟨timeNs p.base s.time, p.cycle, es, none⟩ = true →
        Runs (.gateListSet h p) s h (.gateListSet p) g b [] [.tx] noReg fun t =>
          t.txIf p.iface = { s.txIf p.iface with pend := some ⟨timeNs p.base s.time, p.cycle, es, none⟩, taken := false }
            ∧ ∀ i, i ≠ p.iface → t.txIf i = s.txIf i
      (p.count = 0 → set [])
      ∧ (∀ f, 0 < p.count → s.deviceBuffer p.surface (8 * p.count) = some f →
          let word (i k : Nat) : Nat := leNat (Mem.read s.mem.hbm (f.addr + 8 * i + k) 2)
          let es := (List.range p.count).map fun i => (BitVec.ofNat 16 (word i 0), leNat (Mem.read s.mem.hbm (f.addr + 8 * i + 4) 4))
          (∀ e ∈ es, 32 ≤ e.2 ∧ e.2 ≤ 1000000000) → (∀ i ∈ List.range p.count, word i 2 = 0) → set es))
  ∧ (∀ (s : State) (h : CmdHdr) (g b : Nat) (p : LaneConfigArg), s.serves h (.laneConfig p) g b = true → p.lane ≤ 25 → p.loopback ≤ 3 →
      p.pattern ≤ 1 → p.enable ≤ 1 → ¬ (p.pattern = 1 ∧ p.loopback = 3) → cursorsOk p = true → s.laneInUse p.lane = false →
        Runs (.laneConfig h p) s h (.laneConfig p) g b [] [.lane] noReg fun t =>
          (t.laneOf p.lane).loopback = p.loopback ∧ (t.laneOf p.lane).pattern = (p.pattern == 1) ∧ (t.laneOf p.lane).enabled = (p.enable == 1)
            ∧ (p.lane < 16 → (t.laneOf p.lane).pre = p.pre ∧ (t.laneOf p.lane).main = p.main ∧ (t.laneOf p.lane).post = p.post)
            ∧ (∀ l, l ≠ p.lane → lanePort l ≠ lanePort p.lane ∨ p.lane < 16 → t.laneOf l = s.laneOf l))

/-- CHANNEL_DEFINE takes slots, engines, pool and memory and answers with them; CHANNEL_DELETE frees a DEFINED or STOPPED
channel. CHANNEL_START arms it for the first picture at or after the time and t_exec + 2 Tp, and answers with its index;
CHANNEL_STOP lets an ARMED one go back and a RUNNING one stop at a picture, answering with the last. CHANNEL_SET writes shadow
fields, CHANNEL_COMMIT raises the generation, CHANNEL_REFRESH, LTR_MARK and LTR_RELEASE are noted for a picture. No other
channel changes. Where the spec is silent this follows the model's choice: log entries 13, 49, 50 and 108. -/
def Obligations.ChannelCommands : Prop :=
  let others (c : Nat) (s t : State) : Prop := ∀ k, k ≠ c → tget t.chans k = tget s.chans k
  let at_ (s : State) (ch : Chan) (f : TimeField) : Nat :=
    let n := ch.picAt (max (nsTicks (timeNs f s.time)) (ch.clock s.time.now + 2 * ch.cfg.main.tp))
    if ch.st = .armed then max n ch.startPic else n
  let timely (s : State) (ch : Chan) (f : TimeField) : Prop :=
    f.ns < 1000000000 ∧ (s.member = true → f.zero = false)
      ∧ (f.zero = true ∨ ch.clock s.time.now + 2 * ch.cfg.main.tp ≤ nsTicks (timeNs f s.time))
  (∀ (s : State) (h : CmdHdr) (g b : Nat) (p : ChannelDefineArg), s.serves h (.channelDefine p) g b = true → s.defineOk p = true →
      tget s.chans p.channel = none → s.resyncing p.channel = false → s.fits p = true →
      let k := kOf ((slotsOf p.main.format p.main.rateId).getD 1)
      let e := (s.placeEngines ((slotsOf p.main.format p.main.rateId).getD 1) k).getD []
      let c := chanOf p e s.time.now
      Runs (.channelDefine h p) s h (.channelDefine p) g b
        (leBytes 4 c.dPipe ++ leBytes 4 c.dPipeMin ++ leBytes 2 (sumNat (e.map fun x => 2 ^ x)) ++ leBytes 1 c.slots ++ leBytes 1 k ++ leBytes 4 c.hbm)
        [.regs, .chans, .surf, .tx, .txc, .grp] anyReg fun t =>
          tget t.chans p.channel = some c ∧ c.st = .defined ∧ c.engines = e ∧ others p.channel s t
            ∧ t.rd (Reg.CHN_STATUS p.channel) = 0 ∧ t.surf.surfs = s.surf.surfs ∧ (t.gch p.channel).gen = 0
            ∧ (tgetD t.txc p.channel {}).nextSeq = p.out.seqInit ∧ t.grp.role = s.grp.role)
  ∧ (∀ (s : State) (h : CmdHdr) (g b : Nat) (p : ChArg) (ch : Chan), s.serves h (.channelDelete p) g b = true → p.object ≤ 63 → p.item = 0 →
      tget s.chans p.object = some ch → ch.st = .defined ∨ ch.st = .stopped → s.resyncing p.object = false →
      (∀ e ∈ s.chans, e.2.cfg.main.renditionOf ≠ p.object) →
        Runs (.channelDelete h p) s h (.channelDelete p) g b [] [.regs, .chans, .surf, .tx, .txc, .grp] anyReg fun t =>
          tget t.chans p.object = none ∧ others p.object s t ∧ t.surf.surfs = s.surf.surfs
            ∧ (∀ a, ∀ n, tget t.surf.heap a = some (n, p.object) → False) ∧ t.rd (Reg.CHN_STATUS p.object) = 0
            ∧ ((tdel s.chans p.object = [] ∧ s.grp.role = .detached) → t.grp.role = .none))
  ∧ (∀ (s : State) (h : CmdHdr) (g b : Nat) (p : ChtArg) (ch : Chan), p.object ≤ 63 → tget s.chans p.object = some ch → s.resyncing p.object = false →
      (s.serves h (.channelStart p) g b = true → p.item = 0 → timely s ch p.time → s.dev.fatal = false → s.grp.role ≠ .detached →
        ch.st = .defined ∨ ch.st = .stopped → ch.tableMissing = false → let n := at_ s ch p.time
        Runs (.channelStart h p) s h (.channelStart p) g b (leBytes 8 (ch.index n)) [.chans] noReg fun t =>
          tget t.chans p.object = some { ch with st := .armed, prev := ch.st, startPic := n, startTime := timeNs p.time s.time, stopPic := none,
                                                 nextPic := ch.picAfter s.time.now } ∧ others p.object s t)
      ∧ (s.serves h (.channelStop p) g b = true → p.item = 0 → timely s ch p.time → ch.st = .armed →
        Runs (.channelStop h p) s h (.channelStop p) g b (leBytes 8 (2 ^ 64 - 1)) [.regs, .chans]
          (regIn [Reg.REF_MARKS_CANCELLED p.object, Reg.REF_STATUS p.object]) fun t =>
            ((tget t.chans p.object).map fun x => (x.st, x.refs.marks, x.pics)) = some (ch.prev, [], ch.pics) ∧ others p.object s t
              ∧ t.rd (Reg.REF_MARKS_CANCELLED p.object) = s.rd (Reg.REF_MARKS_CANCELLED p.object) + BitVec.ofNat 32 ch.refs.marks.length)
      ∧ (s.serves h (.channelStop p) g b = true → p.item = 0 → p.time.ns < 1000000000 → (s.member = true → p.time.zero = false) → ch.st = .running →
        let lim := ch.clock s.time.now + ch.cfg.main.tp
        (p.time.zero = true ∨ lim ≤ nsTicks (timeNs p.time s.time)) →
        let n := max ch.nextPic (ch.picAt (max (nsTicks (timeNs p.time s.time)) lim))
        Runs (.channelStop h p) s h (.channelStop p) g b (leBytes 8 (ch.index n - 1)) [.chans] noReg fun t =>
          tget t.chans p.object = some { ch with st := .stopping, stopPic := some n } ∧ others p.object s t)
      ∧ (s.serves h (.channelRefresh p) g b = true → p.item = 0 → timely s ch p.time → s.grp.role ≠ .detached → ch.st = .armed ∨ ch.st = .running →
        let n := at_ s ch p.time
        Runs (.channelRefresh h p) s h (.channelRefresh p) g b (leBytes 8 (ch.index n)) [.chans] noReg fun t =>
          tget t.chans p.object = some { ch with refs := { ch.refs with requests := insertNat n ch.refs.requests } } ∧ others p.object s t)
      ∧ (s.serves h (.ltrMark p) g b = true → timely s ch p.time → s.grp.role ≠ .detached → ch.st = .armed ∨ ch.st = .running →
        p.item < ch.cfg.refs.ltSlots - ch.cfg.refs.anchorSlots → thas ch.refs.marks p.item = false → let n := at_ s ch p.time
        (∀ e ∈ ch.refs.marks, e.2 ≠ n) →
        Runs (.ltrMark h p) s h (.ltrMark p) g b (leBytes 8 (ch.index n)) [.chans] noReg fun t =>
          tget t.chans p.object = some { ch with refs := { ch.refs with marks := tset ch.refs.marks p.item n } } ∧ others p.object s t)
      ∧ (s.serves h (.ltrRelease p) g b = true → timely s ch p.time → ch.st = .armed ∨ ch.st = .running → p.item < ch.cfg.refs.ltSlots →
        let n := at_ s ch p.time
        Runs (.ltrRelease h p) s h (.ltrRelease p) g b (leBytes 8 (ch.index n)) [.chans] noReg fun t =>
          tget t.chans p.object = some { ch with refs := { ch.refs with releases := ch.refs.releases ++ [(p.item, n)] } } ∧ others p.object s t))
  ∧ (∀ (s : State) (h : CmdHdr) (g b : Nat) (p : ChannelSetArg) (ch : Chan), s.serves h (.channelSet p) g b = true → p.channel ≤ 63 →
      tget s.chans p.channel = some ch → s.chanRefused p.channel = false → setZeros p = true → shadowOk ch.cfg (setFields ch.shadow p) = true →
      (wbit p.select 0 = true → ch.cfg.main.renditionOf = 0xFF ∧ s.videoFlowOk p.channel p.flowA p.flowB ch.cfg.main = true) →
        Runs (.channelSet h p) s h (.channelSet p) g b [] [.chans] noReg fun t =>
          others p.channel s t ∧ ∃ q, tget t.chans p.channel = some { ch with shadow := q }
            ∧ q.overshoot = (if wbit p.select 1 then p.overshoot else ch.shadow.overshoot)
            ∧ q.qpMax = (if wbit p.select 3 then p.qpMax else ch.shadow.qpMax)
            ∧ q.sweepG = (if wbit p.select 7 then p.sweepG else ch.shadow.sweepG)
            ∧ q.gainMax = (if wbit p.select 15 then p.gainMax else ch.shadow.gainMax) ∧ q.rois = ch.shadow.rois ∧ q.table = ch.shadow.table)
  ∧ (∀ (s : State) (h : CmdHdr) (g b : Nat) (p : ChArg) (ch : Chan), s.serves h (.channelCommit p) g b = true → p.object ≤ 63 → p.item = 0 →
      tget s.chans p.object = some ch → s.chanRefused p.object = false → s.commitFlowBad p.object ch = false → ch.tablesBad = false →
        let n := ((s.gch p.object).gen + 1) % 2 ^ 32
        Runs (.channelCommit h p) s h (.channelCommit p) g b (leBytes 4 n) [.chans, .grp] noReg fun t =>
          tget t.chans p.object = some { ch with commitDue := true } ∧ others p.object s t ∧ (t.gch p.object).gen = n
            ∧ (t.gch p.object).genNow = (s.gch p.object).genNow ∧ t.grp.role = s.grp.role)

/-- ROI_SET and ROI_CLEAR change the shadow copy. An external stream takes decode shares while its sum is at most 32.
SURFACE_ALLOC places a buffer and answers with handle, size and address; SURFACE_FREE frees one nothing uses. FLIP_SUBMIT
appends a group while fewer than four are pending. PROTECTED_LOAD copies a surface whose CRC matches into the cache and both
copies, each written again once where its check fails, from the picture it answers with; else E_CRC; PROTECTED_REMOVE names
the picture that ends it. TONEMAP_LOAD puts a table that verifies into the shadow copy. Where the spec is silent this follows
the model's choice: log entries 47, 48, 51 and 120. -/
def Obligations.LayerCommands : Prop :=
  let others (c : Nat) (s t : State) : Prop := ∀ k, k ≠ c → tget t.chans k = tget s.chans k
  let pic (s : State) (ch : Chan) (f : TimeField) : Option Nat := if ch.st.active = true then some (s.timedPic ch f) else none
  let timely (s : State) (ch : Chan) (f : TimeField) : Prop :=
    f.ns < 1000000000 ∧ (s.member = true → f.zero = false)
      ∧ (f.zero = true ∨ ch.clock s.time.now + 2 * ch.cfg.main.tp ≤ nsTicks (timeNs f s.time))
  let okTwice (p : ProtectedLoadArg) : Bool :=
    (p.checks.cacheOk || p.again.cacheOk) && (p.checks.copyAOk || p.again.copyAOk) && (p.checks.copyBOk || p.again.copyBOk)
  (∀ (s : State) (h : CmdHdr) (g b : Nat) (p : RoiSetArg) (ch : Chan), s.serves h (.roiSet p) g b = true → p.channel ≤ 63 → p.region ≤ 15 →
      p.kind ≤ 1 → 1 ≤ p.width → 1 ≤ p.height → tget s.chans p.channel = some ch → roiOk ch.cfg p = true → s.resyncing p.channel = false →
        Runs (.roiSet h p) s h (.roiSet p) g b [] [.chans] noReg fun t => others p.channel s t
          ∧ tget t.chans p.channel = some { ch with shadow := { ch.shadow with rois := tset ch.shadow.rois p.region p } })
  ∧ (∀ (s : State) (h : CmdHdr) (g b : Nat) (p : ChArg) (ch : Chan), s.serves h (.roiClear p) g b = true → p.object ≤ 63 → p.item ≤ 15 →
      tget s.chans p.object = some ch → s.resyncing p.object = false →
        Runs (.roiClear h p) s h (.roiClear p) g b [] [.chans] noReg fun t => others p.object s t
          ∧ tget t.chans p.object = some { ch with shadow := { ch.shadow with rois := tdel ch.shadow.rois p.item } })
  ∧ (∀ (s : State) (h : CmdHdr) (g b : Nat) (p : ExtStreamArg), s.serves h (.extStreamDefine p) g b = true → s.extArgOk p = true →
      thas s.ext p.stream = false → let n := (slotsOf p.format p.rateId).getD 0
      sumNat (s.ext.map fun e => e.2.shares) + n ≤ 32 →
        Runs (.extStreamDefine h p) s h (.extStreamDefine p) g b [] [.regs, .ext]
          (fun off => 0x00441000 + 0x40 * p.stream ≤ off ∧ off < 0x00441040 + 0x40 * p.stream
            ∨ Reg.NET_MERGE_STATUS (64 + p.stream) ≤ off ∧ off < Reg.NET_MERGE_MISSING (64 + p.stream) + 4) fun t =>
            t.ext = tset s.ext p.stream { arg := p, shares := n })
  ∧ (∀ (s : State) (h : CmdHdr) (g b : Nat) (p : ChArg) (e : ExtStream), s.serves h (.extStreamDelete p) g b = true → p.object ≤ 15 → p.item = 0 →
      tget s.ext p.object = some e → s.videoNamed e.arg.flowA = false →
        Runs (.extStreamDelete h p) s h (.extStreamDelete p) g b [] [.regs, .ext, .eng]
          (fun off => 0x00441000 + 0x40 * p.object ≤ off ∧ off < 0x00441040 + 0x40 * p.object) fun t =>
            t.ext = tdel s.ext p.object ∧ (∀ k, tget t.eng.pipes k ≠ some (PipeWork.ext p.object)) ∧ t.eng.failed = s.eng.failed)
  ∧ (∀ (s : State) (h : CmdHdr) (g b : Nat) (p : SurfaceAllocArg) (a : Nat), s.serves h (.surfaceAlloc p) g b = true → surfaceArgOk p = true →
      (p.owner ≠ 0xFF → s.chanRefused p.owner = false) →
      let bytes := if p.kind = 4 ∨ kindStf p.kind = true then p.bytes else 4 * p.width * p.height
      let n := roundUp bytes 4096
      placeIn s.surf.heap (if p.owner = 0xFF then 0 else p.owner % 2) n [0, 1, 2, 3] = some a →
        Runs (.surfaceAlloc h p) s h (.surfaceAlloc p) g b (leBytes 4 s.surf.nextHandle ++ leBytes 4 n ++ leBytes 8 a) [.surf] noReg fun t =>
          t.surf.surfs = tset s.surf.surfs s.surf.nextHandle ⟨p.owner, p.kind, p.width, p.height, n, bytes, a⟩
            ∧ t.surf.nextHandle = s.surf.nextHandle + 1 ∧ t.surf.heap = tset s.surf.heap a (n, 64 + s.surf.nextHandle) ∧ t.surf.fences = s.surf.fences)
  ∧ (∀ (s : State) (h : CmdHdr) (g b x : Nat) (f : Surface), s.serves h (.surfaceFree x) g b = true → tget s.surf.surfs x = some f →
      (f.owner ≠ 0xFF → s.chanRefused f.owner = false) → s.surfaceUsed x = false →
        Runs (.surfaceFree h x) s h (.surfaceFree x) g b [] [.surf] noReg fun t =>
          t.surf.surfs = tdel s.surf.surfs x ∧ t.surf.nextHandle = s.surf.nextHandle
            ∧ (∀ a, ∀ n, tget t.surf.heap a = some (n, 64 + x) → False))
  ∧ (∀ (s : State) (h : CmdHdr) (g b : Nat) (p : FlipSubmitArg) (ch : Chan), s.serves h (.flipSubmit p) g b = true → s.flipArgOk p = true →
      tget s.chans p.channel = some ch → s.resyncing p.channel = false →
      let now := ch.layers.flips.filter fun x => !x.told
      now.length < 4 → (∀ x ∈ now, x.arg.id ≠ p.id) → (∀ x ∈ now, ∀ u ∈ x.arg.updates, ∀ v ∈ p.updates, v.layer ≠ u.layer) →
        Runs (.flipSubmit h p) s h (.flipSubmit p) g b [] [.chans] noReg fun t => others p.channel s t
          ∧ tget t.chans p.channel = some { ch with layers := { ch.layers with
              flips := ch.layers.flips ++ [{ arg := p, tExec := ch.clock s.time.now, notBefore := nsTicks (timeNs p.notBefore s.time) }] } })
  ∧ (∀ (s : State) (h : CmdHdr) (g b : Nat) (p : ProtectedLoadArg) (ch : Chan) (f : Surface), s.serves h (.protectedLoad p) g b = true →
      (tgetD s.mbx.sessions h.pair ⟨0, 0⟩).roles.testBit 3 = true → p.channel ≤ 63 → positionOk p.x0 p.y0 = true → timely s ch p.time →
      tget s.surf.surfs p.surface = some f → f.owner = p.channel → f.kind ≠ 4 → tget s.chans p.channel = some ch →
      s.resyncing p.channel = false → ch.layers.prot = none → s.protBytes + f.size ≤ 1048576 → s.rangePoisoned f.addr f.size = false →
      crc32c (Mem.read s.mem.hbm f.addr f.size) = p.crc → okTwice p = true →
        Runs (.protectedLoad h p) s h (.protectedLoad p) g b (leBytes 8 (match pic s ch p.time with | some n => ch.index n | none => 0)) [.chans] noReg
          fun t => others p.channel s t ∧ ∃ l, tget t.chans p.channel = some { ch with layers := { ch.layers with prot := some l } }
            ∧ l.cache = Mem.read s.mem.hbm f.addr f.size ∧ l.copyA = l.cache ∧ l.copyB = l.cache ∧ l.width = f.width ∧ l.height = f.height ∧ l.x0 = p.x0 ∧ l.y0 = p.y0
            ∧ l.from_ = pic s ch p.time ∧ l.crc = p.crc ∧ l.remove = none)
  ∧ (∀ (s : State) (h : CmdHdr) (g b : Nat) (p : ProtectedLoadArg) (ch : Chan) (f : Surface), s.serves h (.protectedLoad p) g b = true →
      (tgetD s.mbx.sessions h.pair ⟨0, 0⟩).roles.testBit 3 = true → p.channel ≤ 63 → positionOk p.x0 p.y0 = true → timely s ch p.time →
      tget s.surf.surfs p.surface = some f → f.owner = p.channel → f.kind ≠ 4 → tget s.chans p.channel = some ch →
      s.resyncing p.channel = false → ch.layers.prot = none → s.protBytes + f.size ≤ 1048576 →
      (crc32c (Mem.read s.mem.hbm f.addr f.size) ≠ p.crc ∨ okTwice p = false) → Does (.protectedLoad h p) s [.mbx, .out] noReg fun t =>
        tget t.mbx.blocks (32 * h.pair + b) = some (completionOf h 0x0604 eCrc false []))
  ∧ (∀ (s : State) (h : CmdHdr) (g b : Nat) (p : ChtArg) (ch : Chan) (l : Protected), s.serves h (.protectedRemove p) g b = true →
      (tgetD s.mbx.sessions h.pair ⟨0, 0⟩).roles.testBit 3 = true → p.object ≤ 63 → p.item = 0 → timely s ch p.time →
      tget s.chans p.object = some ch → s.resyncing p.object = false → ch.layers.prot = some l → l.remove = none →
        Runs (.protectedRemove h p) s h (.protectedRemove p) g b (leBytes 8 (match pic s ch p.time with | some n => ch.index n | none => 0)) [.chans]
          noReg fun t => others p.object s t ∧ ∃ f, tget t.chans p.object =
            some { ch with layers := { ch.layers with prot := some { l with remove := some (pic s ch p.time, f) } } })
  ∧ (∀ (s : State) (h : CmdHdr) (g b : Nat) (p : TonemapLoadArg) (ch : Chan) (f : Surface), s.serves h (.tonemapLoad p) g b = true → p.channel ≤ 63 →
      tget s.surf.surfs p.surface = some f → f.owner = p.channel → f.kind = 4 → 312136 ≤ f.bytes → tget s.chans p.channel = some ch →
      s.resyncing p.channel = false → let d := Mem.read s.mem.hbm f.addr 312136
      tableFormOk d = true → s.rangePoisoned f.addr 312136 = false → (crc32c (d.drop 64)).toNat = leNat ((d.drop 4).take 4) →
        Runs (.tonemapLoad h p) s h (.tonemapLoad p) g b [] [.chans] noReg fun t => others p.channel s t
          ∧ tget t.chans p.channel = some { ch with shadow := { ch.shadow with table := some d } })

/-- AUDIO_PORT_CONFIG sets a STOPPED direction. AUDIO_PORT_START clears its counts and begins its start sequence;
AUDIO_PORT_STOP begins the stop sequence, during a start at the end of it. A stream takes up to 512 channels in all, with its
counts and merge counts cleared; AUDIO_STREAM_DELETE ends it and its merge. AUDIO_ROUTE notes a transmit sink for its frame
boundary and puts channel audio into the shadow copy. An align group is noted for the next tick; AUDIO_CLOCK sets the loop and
keeps its integrator. -/
def Obligations.AudioCommands : Prop :=
  (∀ (s : State) (h : CmdHdr) (g b : Nat) (p : AudioPortArg), s.serves h (.audioPortConfig p) g b = true → p.port ≤ 7 → p.dir ≤ 1 → p.mode ≤ 1 →
      p.slots ∈ [2, 4, 8, 16] → p.fsWidth ≤ 1 → p.fsDelay ≤ 1 → p.fsPolarity ≤ 1 → p.edge ≤ 1 → 128 ≤ p.target → p.target ≤ 383 →
      let k := 2 * p.port + p.dir
      (s.dir k).st = .stopped → Runs (.audioPortConfig h p) s h (.audioPortConfig p) g b [] [.aud] noReg fun t =>
        t.dir k = { s.dir k with fmt := p, locked := (s.dir k).locked && (s.dir k).fmt.slots == p.slots && (s.dir k).fmt.mode == p.mode, fifo := { (s.dir k).fifo with target := p.target } }
          ∧ (∀ j, j ≠ k → t.dir j = s.dir j) ∧ t.aud.streams = s.aud.streams ∧ t.aud.routes = s.aud.routes)
  ∧ (∀ (s : State) (h : CmdHdr) (g b : Nat) (p : ChArg), p.object ≤ 7 → p.item ≤ 1 → let k := 2 * p.object + p.item
      (s.serves h (.audioPortStart p) g b = true → (s.dir k).st = .stopped → Runs (.audioPortStart h p) s h (.audioPortStart p) g b [] [.regs, .aud]
        (fun off => Reg.AUD_DIR_STATE k ≤ off ∧ off < Reg.AUD_DIR_STATE (k + 1)) fun t =>
          (t.dir k).st = .starting ∧ (t.dir k).frame = 0 ∧ (t.dir k).stopDue = false ∧ (t.dir k).fmt = (s.dir k).fmt
            ∧ (t.dir k).fifo.frames = [] ∧ t.rd (Reg.AUD_UNDERRUNS k) = 0 ∧ t.rd (Reg.AUD_LOCK_LOSSES k) = 0 ∧ ∀ j, j ≠ k → t.dir j = s.dir j)
      ∧ (s.serves h (.audioPortStop p) g b = true → (s.dir k).st = .running ∨ (s.dir k).st = .starting →
        Runs (.audioPortStop h p) s h (.audioPortStop p) g b [] [.aud] noReg fun t =>
          ((s.dir k).st = .starting → t.dir k = { s.dir k with stopDue := true })
            ∧ ((s.dir k).st = .running → (t.dir k).st = .stopping ∧ (t.dir k).frame = 0 ∧ (t.dir k).fmt = (s.dir k).fmt)
            ∧ ∀ j, j ≠ k → t.dir j = s.dir j))
  ∧ (∀ (s : State) (h : CmdHdr) (g b : Nat) (p : AudioStreamArg), s.serves h (.audioStreamConfig p) g b = true → p.stream ≤ 63 → p.format ≤ 2 →
      1 ≤ p.channels → p.channels ≤ 64 → p.ptime ≤ 1 → 128 ≤ p.target → p.target ≤ 383 → s.audioFlow p.flowA p.stream p.format = true →
      (p.flowB ≠ 0xFFFF → s.audioFlow p.flowB p.stream p.format = true) → thas s.aud.streams p.stream = false →
      p.channels + sumNat (s.aud.streams.map fun e => e.2.arg.channels) ≤ 512 →
        Runs (.audioStreamConfig h p) s h (.audioStreamConfig p) g b [] [.regs, .aud]
          (fun off => (Reg.AUD_NS_LEVEL p.stream ≤ off ∧ off < Reg.AUD_NS_LEVEL (p.stream + 1)) ∨
            (Reg.NET_MERGE_STATUS (80 + p.stream) ≤ off ∧ off < Reg.NET_MERGE_STATUS (81 + p.stream))) fun t =>
            t.aud = { s.aud with streams := tset s.aud.streams p.stream { arg := p, fifo := { target := p.target } } }
              ∧ t.rd (Reg.AUD_NS_LOST_FRAMES p.stream) = 0 ∧ t.rd (Reg.NET_MERGE_MISSING (80 + p.stream)) = 0)
  ∧ (∀ (s : State) (h : CmdHdr) (g b : Nat) (p : ChArg), s.serves h (.audioStreamDelete p) g b = true → p.object ≤ 63 → p.item = 0 →
      thas s.aud.streams p.object = true → Runs (.audioStreamDelete h p) s h (.audioStreamDelete p) g b [] [.aud, .net] noReg fun t =>
        t.aud = { s.aud with streams := tdel s.aud.streams p.object } ∧ t.net = { s.net with merges := tdel s.net.merges (80 + p.object) })
  ∧ (∀ (s : State) (h : CmdHdr) (g b : Nat) (p : AudioRouteArg), s.serves h (.audioRoute p) g b = true → 1 ≤ p.entries.length → p.entries.length ≤ 16 →
      (∀ e ∈ p.entries, routeOk e = true) → (∀ e ∈ p.entries, e.sinkKind = 2 → thas s.chans e.sinkA = true ∧ (e.srcKind = 2 → s.member = false)
        ∧ s.resyncing e.sinkA = false) → Runs (.audioRoute h p) s h (.audioRoute p) g b [] [.chans, .aud] noReg fun t =>
          t.aud.routes = s.aud.routes ∧ t.aud.streams = s.aud.streams
            ∧ (∀ e, p.entries = [e] → e.sinkKind = 1 → t.chans = s.chans
                ∧ t.aud.newRoutes = tset s.aud.newRoutes (16 * e.sinkA + e.sinkB) (e.srcKind, e.srcA, e.srcB))
            ∧ (∀ e ch, p.entries = [e] → tget s.chans e.sinkA = some ch → e.sinkKind = 2 → t.aud = s.aud ∧ (∀ k, k ≠ e.sinkA → tget t.chans k = tget s.chans k)
                ∧ let n := if e.srcKind = 0 then tdel ch.shadow.audio e.sinkB else tset ch.shadow.audio e.sinkB (e.srcKind, e.srcA, e.srcB)
                  tget t.chans e.sinkA = some { ch with shadow := { ch.shadow with audio := n } }))
  ∧ (∀ (s : State) (h : CmdHdr) (g b : Nat) (p : AlignGroupArg), s.serves h (.audioAlignGroup p) g b = true → p.group ≤ 15 → p.members.length ≤ 16 →
      let ids := p.members.map fun m => 256 * m.1 + m.2
      (∀ m ∈ p.members, m.1 ≤ 2 ∧ m.2 ≤ (if m.1 = 0 then 63 else 7)) → ((∀ m ∈ p.members, m.1 ≠ 2) ∨ p.members.length ≤ 1) → ids.Nodup →
      (∀ e ∈ s.alignGroups, e.1 ≠ p.group → ∀ i ∈ e.2, i ∉ ids) →
        Runs (.audioAlignGroup h p) s h (.audioAlignGroup p) g b [] [.aud] noReg fun t =>
          t.aud = { s.aud with newGroups := tset s.aud.newGroups p.group ids })
  ∧ (∀ (s : State) (h : CmdHdr) (g b : Nat) (p : AudioClockArg), s.serves h (.audioClock p) g b = true → p.pilot ≤ 63 ∨ p.pilot = 0xFE ∨ p.pilot = 0xFF →
        Runs (.audioClock h p) s h (.audioClock p) g b [] [.aud] noReg fun t =>
          t.aud = { s.aud with pilotSel := p.pilot, kp := p.kp, ki := p.ki })

/-- GROUP_FORM begins a membership with the counts cleared: ACTIVE on the first active, else UNVERIFIED. GROUP_JOIN makes the
unit JOINING and completes when its first hello has been sent. GROUP_LEAVE detaches a member at once; on the ACTIVE it starts
a handover first. GROUP_HANDOVER sends the notice and completes with t_h, 5 ms ahead. CHAIN_ENUMERATE sends the first walk,
E_BUSY while a forwarded command waits; CHAIN_BUDGET sets L. On a worker or a manager in conflict both give E_STATE. Where the
spec is silent this follows the model's choice: log entry 126. -/
def Obligations.GroupChainCommands : Prop :=
  let fld : List Fld := [.regs, .pmu, .tx, .grp, .rat]
  let begun (p : GroupArg) (a : Nat) (r : Role) (t : State) : Prop :=
    t.grp.role = r ∧ t.grp.rank = p.rank ∧ t.grp.size = p.size ∧ t.grp.groupId = p.groupId ∧ t.grp.service = p.addrs ∧ t.grp.activeRank = a
      ∧ t.grp.peers = [] ∧ t.grp.heldPkts = [] ∧ t.rd Reg.GRP_TAKEOVERS = 0 ∧ t.rd Reg.GRP_RESYNCS = 0
  let common (s : State) (p : GroupArg) : Prop := 1 ≤ p.groupId ∧ p.groupId ≤ 255 ∧ (p.size = 2 ∨ p.size = 3) ∧ 1 ≤ p.rank ∧ p.rank ≤ p.size
    ∧ p.addrs.length ≤ 11 ∧ hasRepeat (p.addrs.map (·.1)) = false ∧ (∀ a ∈ p.addrs, s.ifExists a.1 = true)
  (∀ (s : State) (h : CmdHdr) (g b : Nat) (p : GroupArg), s.serves h (.groupForm p) g b = true → common s p → 1 ≤ p.firstActive →
      p.firstActive ≤ p.size → s.grp.role = .none → s.chans = [] → s.mbx.held = none →
        Runs (.groupForm h p) s h (.groupForm p) g b [] fld anyReg fun t =>
          begun p p.firstActive (if p.rank = p.firstActive then .active else .unverified) t)
  ∧ (∀ (s : State) (h : CmdHdr) (g b : Nat) (p : GroupArg), s.serves h (.groupJoin p) g b = true → common s p → p.firstActive = 0 →
      s.grp.role = .none ∨ s.grp.role = .detached → s.chans = [] → s.dev.fatal = false →
        (s.portUp 0 = true ∨ s.portUp 1 = true → Runs (.groupJoin h p) s h (.groupJoin p) g b [] fld anyReg (begun p 0 .joining))
        ∧ (s.portUp 0 = false → s.portUp 1 = false → Does (.groupJoin h p) s (.mbx :: .out :: fld) anyReg fun t =>
            begun p 0 .joining t ∧ (t.mbx.held.map (·.why)) = some .hello ∧ t.mbx.blocks = s.mbx.blocks ∧ t.mbx.queue = s.mbx.queue))
  ∧ (∀ (s : State) (h : CmdHdr) (g b : Nat), s.serves h .groupLeave g b = true → s.member = true →
      (s.grp.role ≠ .active → s.chans ≠ [] → Runs (.groupLeave h) s h .groupLeave g b [] fld anyReg fun t =>
        t.grp.role = .detached ∧ t.grp.handover = none ∧ t.grp.heldPkts = [])
      ∧ (s.grp.role ≠ .active → s.chans = [] → Runs (.groupLeave h) s h .groupLeave g b [] fld anyReg fun t => t.grp.role = .none)
      ∧ (∀ k r, s.standbys = k :: r → s.grp.role = .active → s.grp.handover = none → Runs (.groupLeave h) s h .groupLeave g b [] fld anyReg fun t =>
          t.grp.role = .active ∧ t.grp.handover = some { tH := s.time.nowNs + 5000000, target := k, diverged := [], leave := true })
      ∧ (∀ o, s.grp.handover = some o → s.grp.role = .active → s.standbys ≠ [] → Runs (.groupLeave h) s h .groupLeave g b [] [.grp] noReg fun t =>
          t.grp = { s.grp with handover := some { o with leave := true } }))
  ∧ (∀ (s : State) (h : CmdHdr) (g b n k : Nat), s.serves h (.groupHandover n) g b = true → n ≤ 3 → n ≤ s.grp.size → s.grp.role = .active →
      (n = 0 → s.standbys.head? = some k) → (n ≠ 0 → k = n) → k ∈ s.standbys → (s.peer k).needs = [] → s.grp.handover = none →
        let z := s.time.nowNs + 5000000
        Runs (.groupHandover h n) s h (.groupHandover n) g b (leBytes 4 (z % 1000000000) ++ leBytes 4 (z / 1000000000)) fld anyReg fun t =>
          t.grp.role = .active ∧ t.grp.handover = some { tH := z, target := k, diverged := [] }
            ∧ (s.portUp 0 = true → (s.leg 0).helloOk = true → Out.stay 0 (s.leg 0).nextLink ⟨s.grp.recSeq, s.grp.rank, false, .handover z k []⟩ ∈ t.out))
  ∧ (∀ (s : State) (h : CmdHdr) (g b n : Nat),
      let no (i : Instr) (op e : Nat) : Prop := Does i s [.mbx, .out] noReg fun t =>
        tget t.mbx.blocks (32 * h.pair + b) = some (completionOf h op e false []) ∧ t.mbx.sessions = s.mbx.sessions
      let boss : Bool := s.rat.manager && !s.rat.conflict
      (s.serves h .chainEnumerate g b = true →
        (boss = false → no (.chainEnumerate h) 0x0901 eState) ∧ (boss = true → s.rat.forwarded ≠ [] → no (.chainEnumerate h) 0x0901 eBusy)
        ∧ (boss = true → s.rat.forwarded = [] → Runs (.chainEnumerate h) s h .chainEnumerate g b [] fld anyReg fun t => t.rat.addr = 1
            ∧ (s.ratUp 0 = true → t.rat.table = [(1, s.dev.nvm.unitId)] ∧ t.rat.ring = 0 ∧
                (tgetD s.rat.outQ 0 [] = [] → (tgetD s.rat.replay 0 []).length < 8 → ∃ k, Out.rat 0 k
                  ⟨false, true, 1, 0xFF, s.rat.seq, 0, .enum 2 [s.dev.nvm.unitId] false⟩ ∈ t.out))
            ∧ (s.ratUp 0 = false → s.ratUp 1 = false → t.rat.enumDone = true ∧ t.rat.table = [(1, s.dev.nvm.unitId)] ∧ t.rat.seq = s.rat.seq)
            ∧ (s.ratUp 0 = false → s.ratUp 1 = true → t.rat.westWalk = true ∧ t.rat.ring = 2)))
      ∧ (s.serves h (.chainBudget n) g b = true →
        ((n < 1600 ∨ 84480 < n) → no (.chainBudget h n) 0x0902 eBadParam) ∧ (1600 ≤ n → n ≤ 84480 → boss = false → no (.chainBudget h n) 0x0902 eState)
        ∧ (1600 ≤ n → n ≤ 84480 → boss = true → Runs (.chainBudget h n) s h (.chainBudget n) g b [] [.rat] noReg fun t =>
            t.rat = { s.rat with limit := some n })))

/-- For a command of the host that passes steps 1 to 5 of R306: sequence 0 gives E_BAD_PARAM; one above high(k) is journaled
as in progress and executed, and high(k) is then that sequence; one completed returns the stored completion with DUPLICATE;
one in progress gives E_BUSY with DUPLICATE; one at or below high(k) that is not there gives E_STATE; of the last four none
executes. COMPLETION_FETCH returns the stored block. Forwarded commands are not journaled here. A refused command changes no
state but its answer, but for the nonce of SESSION_PROVE and the count of FLOW_ADD. The clauses on a worker and on refused
commands are the model's reading (log entries 29, 31 and 109). -/
def Obligations.JournalRule : Prop :=
  (∀ (s : State) (h : CmdHdr) (p : Payload) (g b : Nat),
      let e := tgetD s.mbx.sessions h.pair ⟨0, 0⟩
      let j := tgetD s.mbx.journal e.slot []
      let x : CmdCtx := ⟨.host h.pair g b, e.slot, e.roles, h.seq⟩
      let t := s.runCommand h p
      let answers (c : Completion) : Prop := Touches [.mbx, .out] s t ∧ t.mbx.journal = s.mbx.journal ∧ t.mbx.sessions = s.mbx.sessions
        ∧ tget t.mbx.blocks (32 * h.pair + b) = some c ∧ tget t.mbx.h2d h.pair = none
        ∧ ∃ a, tgetD t.mbx.queue h.pair [] = tgetD s.mbx.queue h.pair [] ++ [(mbxWord 1 g b, a)]
      g < 4096 → b < 32 → tget s.mbx.h2d h.pair = some (mbxWord 1 g b) → s.mayRead h.pair = true →
      (h.pair = 0 ∨ thas s.mbx.sessions h.pair = true) →
        (∀ r, commandRefusal h e.roles p = some r → answers (completionOf h h.opcode r false []))
        ∧ (commandRefusal h e.roles p = none → unjournaled p = false → h.target < 2 →
            (h.seq = 0 → answers (completionOf h (opcodeOf p) eBadParam false []))
            ∧ (∀ c, h.seq ≠ 0 → tget j h.seq = some (.done c) → answers { c with duplicate := true })
            ∧ (h.seq ≠ 0 → tget j h.seq = some .inProgress → answers (completionOf h (opcodeOf p) eBusy true []))
            ∧ (h.seq ≠ 0 → tget j h.seq = none → h.seq ≤ journalHigh j → answers (completionOf h (opcodeOf p) eState false []))
            ∧ (tsorted j = true → journalHigh j < h.seq →
                let w := (s.serveWord h.pair).setJournal x (journalPut j h.seq .inProgress)
                Touches [.mbx, .out] s w ∧ tget (tgetD w.mbx.journal e.slot []) h.seq = some .inProgress
                  ∧ journalHigh (tgetD w.mbx.journal e.slot []) = h.seq
                  ∧ t = HeldCmd.answer ⟨.service, x.from_, e.slot, e.roles, h, p, false⟩ (w.execute h x p)))
        ∧ (commandRefusal h e.roles p = none → 2 ≤ h.target → s.forwardRefusal h p = none →
            (unjournaled p = true ∨ (h.seq ≠ 0 ∧ tget j h.seq = none)) → t.mbx.journal = s.mbx.journal ∧ t.mbx.blocks = s.mbx.blocks)
        ∧ (∀ q c, p = .completionFetch q → commandRefusal h e.roles p = none → h.target < 2 → h.reservedOk = true → tget j q = some (.done c) →
            s.dev.state = .ready → s.threadFree = true → answers { c with duplicate := true, fetched := true }))
  ∧ (∀ (s : State) (h : CmdHdr) (p : Payload) (src k roles : Nat),
      let j := tgetD s.rat.stored (8 * src + k) []
      let x : CmdCtx := ⟨.ratline src, k, roles, h.seq⟩
      let w := s.setJournal x (journalPut j h.seq .inProgress)
      unjournaled p = false → tsorted j = true → journalHigh j < h.seq → Touches [.rat] s w
        ∧ tget (tgetD w.rat.stored (8 * src + k) []) h.seq = some .inProgress ∧ journalHigh (tgetD w.rat.stored (8 * src + k) []) = h.seq
        ∧ s.ratCommand src h k roles p = HeldCmd.answer ⟨.service, x.from_, k, roles, h, p, false⟩ (w.execute h x p))
  ∧ (∀ (s : State) (h : CmdHdr) (x : CmdCtx) (p : Payload),
      let a := s.execute h x p
      (s.dev.state = .ready → a.status ≠ eOk → opcodeOf p ≠ 0x0102 → ¬ (opcodeOf p = 0x0403 ∧ a.status = eNoCapacity) → a.st = s)
      ∧ (s.threadFree = false → a.status = eBusy ∧ a.st = s)
      ∧ (s.threadFree = true → s.dev.state = .testing → (opInfo p).cls = .r → a.status = eRejectedSelftest ∧ a.st = s)
      ∧ (s.threadFree = true → s.dev.state = .halted → (opInfo p).cls = .r → a.status = eState ∧ a.st = s)
      ∧ (s.dev.state = .halted → (opInfo p).cls = .s → s.tooHot = false → a.status ≠ eOk → a.st = s))

/-- A signal sets fence n with the local clock as its instant; signalling a set fence changes nothing; a reset clears it;
writes take effect in the order of their arrival, and do nothing to the fences where they do not reach the registers (R22,
R295). No picture boundary, at which groups flip, clears a fence. A fence that is not set gates every group that names it,
whatever its channel. Where the spec is silent this follows the model's choice: log entry 79. -/
def Obligations.Fences : Prop :=
  let open_ (s : State) : Prop := s.reaches Reg.LYR_FENCE_SIGNAL = true
  (∀ (s : State) (w : Word), open_ s →
      (tget s.surf.fences (w.toNat % 256) = none → Does (.lyrFenceSignal w) s [.surf] noReg fun t =>
        tget t.surf.fences (w.toNat % 256) = some s.time.now ∧ (∀ k, k ≠ w.toNat % 256 → tget t.surf.fences k = tget s.surf.fences k)
          ∧ t.surf.surfs = s.surf.surfs ∧ t.surf.heap = s.surf.heap ∧ t.surf.nextHandle = s.surf.nextHandle)
      ∧ (tget s.surf.fences (w.toNat % 256) ≠ none → Gives (.lyrFenceSignal w) s s)
      ∧ Does (.lyrFenceReset w) s [.surf] noReg fun t =>
          tget t.surf.fences (w.toNat % 256) = none ∧ (∀ k, k ≠ w.toNat % 256 → tget t.surf.fences k = tget s.surf.fences k)
            ∧ t.surf.surfs = s.surf.surfs ∧ t.surf.heap = s.surf.heap ∧ t.surf.nextHandle = s.surf.nextHandle)
  ∧ (∀ (s : State) (w : Word), ¬ open_ s →
      let t := if s.mbx.pci.d3hot = true then s.unsupported else s.badAccess
      Gives (.lyrFenceSignal w) s t ∧ Gives (.lyrFenceReset w) s t ∧ t.surf = s.surf)
  ∧ (∀ (s : State) (v w : Word) (r : List Instr), open_ s → v.toNat % 256 = w.toNat % 256 →
      (s.pending = .lyrFenceSignal v :: .lyrFenceReset w :: r →
        ∃ t u, step s = .next t ∧ step t = .next u ∧ tget u.surf.fences (w.toNat % 256) = none)
      ∧ (s.pending = .lyrFenceReset v :: .lyrFenceSignal w :: r →
        ∃ t u, step s = .next t ∧ step t = .next u ∧ tget u.surf.fences (w.toNat % 256) = some s.time.now))
  ∧ (∀ (s : State) (c : Nat) (k : ProtCheck), ∃ t, exec (.pictureBoundary c k) s = .next t ∧ t.surf.fences = s.surf.fences)
  ∧ (∀ (ch : Chan) (f : Tab Nat) (g : FlipGroup) (n k : Nat), k ∈ g.arg.fences → tget f k = none → flipEligible ch f g n = false)
end

