-- ==== Sys2Proof/Laws/Tab.lean ====
section
/-!
SUPPORT. Laws of sparse tables, of the byte memory and of the register bank: a read after a write, and the canonical form.
-/
namespace Sys2Proof.Machine

variable {α : Type}

/-! ## Reading after writing -/

@[simp] theorem tget_nil (k : Nat) : tget ([] : Tab α) k = none := rfl

theorem tget_cons (j k : Nat) (a : α) (r : Tab α) : tget ((j, a) :: r) k = if j = k then some a else tget r k := rfl

theorem tget_tset (t : Tab α) (k j : Nat) (a : α) : tget (tset t k a) j = if k = j then some a else tget t j := by
  induction t with
  | nil => rfl
  | cons e r ih =>
    obtain ⟨i, b⟩ := e
    simp only [tset]
    split
    · rfl
    · split
      · subst_vars
        simp only [tget_cons]
        split <;> simp_all
      · simp only [tget_cons, ih]
        split <;> split <;> simp_all

@[simp] theorem tget_tset_self (t : Tab α) (k : Nat) (a : α) : tget (tset t k a) k = some a := by simp [tget_tset]

theorem tget_tset_ne {k j : Nat} (h : k ≠ j) (t : Tab α) (a : α) : tget (tset t k a) j = tget t j := by simp [tget_tset, h]

theorem tget_tdel (t : Tab α) (k j : Nat) : tget (tdel t k) j = if k = j then none else tget t j := by
  induction t with
  | nil => simp [tdel]
  | cons e r ih =>
    obtain ⟨i, b⟩ := e
    simp only [tdel]
    by_cases hk : i = k <;> by_cases hj : k = j <;> simp_all [tget_cons]

@[simp] theorem tget_tdel_self (t : Tab α) (k : Nat) : tget (tdel t k) k = none := by simp [tget_tdel]

theorem tget_tdel_ne {k j : Nat} (h : k ≠ j) (t : Tab α) : tget (tdel t k) j = tget t j := by simp [tget_tdel, h]

theorem tget_tupd (t : Tab α) (k j : Nat) (f : α → α) :
    tget (tupd t k f) j = if k = j then (tget t j).map f else tget t j := by
  induction t with
  | nil => simp [tupd]
  | cons e r ih =>
    obtain ⟨i, b⟩ := e
    simp only [tupd]
    split
    · subst_vars
      simp only [tget_cons]
      split <;> simp_all
    · simp only [tget_cons, ih]
      split <;> split <;> simp_all

@[simp] theorem tget_tupd_self (t : Tab α) (k : Nat) (f : α → α) : tget (tupd t k f) k = (tget t k).map f := by simp [tget_tupd]

theorem tget_tupd_ne {k j : Nat} (h : k ≠ j) (t : Tab α) (f : α → α) : tget (tupd t k f) j = tget t j := by simp [tget_tupd, h]

theorem tget_tmap (t : Tab α) (f : Nat → α → α) (k : Nat) : tget (tmap t f) k = (tget t k).map (f k) := by
  induction t with
  | nil => rfl
  | cons e r ih =>
    obtain ⟨j, b⟩ := e
    simp only [tmap, List.map_cons] at *
    simp only [tget_cons, ih]
    split <;> simp_all

@[simp] theorem tgetD_tset_self (t : Tab α) (k : Nat) (a d : α) : tgetD (tset t k a) k d = a := by simp [tgetD]

theorem tgetD_tset_ne {k j : Nat} (h : k ≠ j) (t : Tab α) (a d : α) : tgetD (tset t k a) j d = tgetD t j d := by
  simp [tgetD, tget_tset_ne h]

@[simp] theorem tgetD_tdel_self (t : Tab α) (k : Nat) (d : α) : tgetD (tdel t k) k d = d := by simp [tgetD]

@[simp] theorem thas_tset_self (t : Tab α) (k : Nat) (a : α) : thas (tset t k a) k = true := by simp [thas]

@[simp] theorem thas_tdel_self (t : Tab α) (k : Nat) : thas (tdel t k) k = false := by simp [thas]

theorem thas_iff (t : Tab α) (k : Nat) : thas t k = true ↔ ∃ a, tget t k = some a := by simp [thas, Option.isSome_iff_exists]

/-! ## The canonical form of a table -/

/-- Every number listed is beyond `k`. -/
def tAbove (k : Nat) (t : Tab α) : Prop := ∀ e ∈ t, k < e.1

theorem tsorted_cons (j : Nat) (b : α) (r : Tab α) : tsorted ((j, b) :: r) = true ↔ tAbove j r ∧ tsorted r = true := by
  induction r generalizing j b with
  | nil => simp [tsorted, tAbove]
  | cons e r ih =>
    obtain ⟨i, c⟩ := e
    simp only [tsorted, Bool.and_eq_true, decide_eq_true_eq, tAbove, List.mem_cons, forall_eq_or_imp]
    constructor
    · rintro ⟨h, hs⟩
      have := (ih i c).1 hs
      exact ⟨⟨h, fun e he => lt_trans h (this.1 e he)⟩, hs⟩
    · rintro ⟨⟨h, -⟩, hs⟩
      exact ⟨h, hs⟩

theorem mem_tset {t : Tab α} {k : Nat} {a : α} {e : Nat × α} (h : e ∈ tset t k a) : e = (k, a) ∨ e ∈ t := by
  induction t with
  | nil => simp [tset] at h; simp [h]
  | cons x r ih =>
    obtain ⟨i, b⟩ := x
    simp only [tset] at h
    split at h
    · simp at h; rcases h with h | h | h <;> simp [h]
    · split at h
      · simp at h; rcases h with h | h <;> simp [h]
      · simp at h
        rcases h with h | h
        · simp [h]
        · rcases ih h with h | h <;> simp [h]

theorem mem_tdel {t : Tab α} {k : Nat} {e : Nat × α} (h : e ∈ tdel t k) : e ∈ t := by
  induction t with
  | nil => simp [tdel] at h
  | cons x r ih =>
    obtain ⟨i, b⟩ := x
    simp only [tdel] at h
    split at h
    · exact List.mem_cons_of_mem _ (ih h)
    · simp at h
      rcases h with h | h
      · simp [h]
      · exact List.mem_cons_of_mem _ (ih h)

theorem tsorted_tset (t : Tab α) (k : Nat) (a : α) (h : tsorted t = true) : tsorted (tset t k a) = true := by
  induction t with
  | nil => rfl
  | cons x r ih =>
    obtain ⟨i, b⟩ := x
    have hs := (tsorted_cons i b r).1 h
    simp only [tset]
    split
    · next hk =>
      refine (tsorted_cons _ _ _).2 ⟨fun e he => ?_, h⟩
      rcases List.mem_cons.1 he with rfl | he
      · exact hk
      · exact lt_trans hk (hs.1 e he)
    · split
      · next hk => subst hk; exact (tsorted_cons _ _ _).2 hs
      · next hk hk' =>
        refine (tsorted_cons _ _ _).2 ⟨fun e he => ?_, ih hs.2⟩
        rcases mem_tset he with rfl | he
        · show i < k; omega
        · exact hs.1 e he

theorem tsorted_tdel (t : Tab α) (k : Nat) (h : tsorted t = true) : tsorted (tdel t k) = true := by
  induction t with
  | nil => rfl
  | cons x r ih =>
    obtain ⟨i, b⟩ := x
    have hs := (tsorted_cons i b r).1 h
    simp only [tdel]
    split
    · exact ih hs.2
    · exact (tsorted_cons _ _ _).2 ⟨fun e he => hs.1 e (mem_tdel he), ih hs.2⟩

theorem tsorted_filter (t : Tab α) (p : Nat × α → Bool) (h : tsorted t = true) : tsorted (t.filter p : Tab α) = true := by
  induction t with
  | nil => rfl
  | cons x r ih =>
    obtain ⟨i, b⟩ := x
    have hs := (tsorted_cons i b r).1 h
    rw [List.filter_cons]
    split
    · exact (tsorted_cons _ _ _).2 ⟨fun e he => hs.1 e (List.mem_filter.1 he).1, ih hs.2⟩
    · exact ih hs.2

/-! ## The byte memory -/

@[simp] theorem Mem.byte_put_self (m : Mem) (a : Nat) (b : Byte) : Mem.byte (Mem.put m a b) a = b := by
  unfold Mem.byte Mem.put
  split <;> simp_all

theorem Mem.byte_put_ne {a c : Nat} (h : a ≠ c) (m : Mem) (b : Byte) : Mem.byte (Mem.put m a b) c = Mem.byte m c := by
  unfold Mem.byte Mem.put
  split <;> simp [tget_tset_ne h, tget_tdel_ne h]

theorem Mem.byte_write_out (m : Mem) (a : Nat) (l : List Byte) (c : Nat) (h : c < a ∨ a + l.length ≤ c) :
    Mem.byte (Mem.write m a l) c = Mem.byte m c := by
  induction l generalizing m a with
  | nil => rfl
  | cons b l ih =>
    simp only [List.length_cons] at h
    rw [Mem.write, ih _ _ (by omega), Mem.byte_put_ne (by omega)]

theorem Mem.byte_write_in (m : Mem) (a : Nat) (l : List Byte) (i : Nat) (h : i < l.length) :
    Mem.byte (Mem.write m a l) (a + i) = l[i] := by
  induction l generalizing m a i with
  | nil => simp at h
  | cons b l ih =>
    cases i with
    | zero => rw [Mem.write, Mem.byte_write_out _ _ _ _ (by omega)]; simp
    | succ i =>
      have := ih (Mem.put m a b) (a + 1) i (by simpa using h)
      rw [Mem.write, show a + (i + 1) = a + 1 + i by omega, this]
      rfl

theorem Memory.wf_iff (m : Mem) : Memory.wf m = true ↔ tsorted m = true ∧ ∀ e ∈ m, e.2 ≠ 0 := by
  simp [Memory.wf, List.all_eq_true]

theorem Memory.wf_nil : Memory.wf [] = true := rfl

/-- Every memory operation keeps the canonical form: one byte written. -/
theorem Memory.wf_put (m : Mem) (a : Nat) (b : Byte) (h : Memory.wf m = true) : Memory.wf (Mem.put m a b) = true := by
  rw [Memory.wf_iff] at *
  unfold Mem.put
  split
  · exact ⟨tsorted_tdel _ _ h.1, fun e he => h.2 e (mem_tdel he)⟩
  · next hb =>
    refine ⟨tsorted_tset _ _ _ h.1, fun e he => ?_⟩
    rcases mem_tset he with rfl | he
    · exact hb
    · exact h.2 e he

/-- Every memory operation keeps the canonical form: bytes written upward. -/
theorem Memory.wf_write (m : Mem) (a : Nat) (l : List Byte) (h : Memory.wf m = true) : Memory.wf (Mem.write m a l) = true := by
  induction l generalizing m a with
  | nil => exact h
  | cons b l ih => exact ih _ _ (Memory.wf_put _ _ _ h)

/-- Every memory operation keeps the canonical form: entries dropped. -/
theorem Memory.wf_filter (m : Mem) (p : Nat × Byte → Bool) (h : Memory.wf m = true) : Memory.wf (m.filter p : Mem) = true := by
  rw [Memory.wf_iff] at *
  exact ⟨tsorted_filter _ _ h.1, fun e he => h.2 e (List.mem_filter.1 he).1⟩

/-! ## The register bank -/

@[simp] theorem bget_bset_self (b : Tab Word) (off : Nat) (v : Word) : bget (bset b off v) off = v := by
  unfold bget bset
  split <;> simp_all

theorem bget_bset_ne {off c : Nat} (h : off ≠ c) (b : Tab Word) (v : Word) : bget (bset b off v) c = bget b c := by
  unfold bget bset
  split <;> simp [tget_tset_ne h, tget_tdel_ne h]

theorem bget_bset (b : Tab Word) (off c : Nat) (v : Word) : bget (bset b off v) c = if off = c then v else bget b c := by
  split
  · subst_vars; simp
  · next h => exact bget_bset_ne h b v

theorem bwf_iff (b : Tab Word) : bwf b = true ↔ tsorted b = true ∧ ∀ e ∈ b, e.2 ≠ Reg.reset e.1 := by
  simp [bwf, List.all_eq_true]

theorem bwf_bset (b : Tab Word) (off : Nat) (v : Word) (h : bwf b = true) : bwf (bset b off v) = true := by
  rw [bwf_iff] at *
  unfold bset
  split
  · exact ⟨tsorted_tdel _ _ h.1, fun e he => h.2 e (mem_tdel he)⟩
  · next hv =>
    refine ⟨tsorted_tset _ _ _ h.1, fun e he => ?_⟩
    rcases mem_tset he with rfl | he
    · exact hv
    · exact h.2 e he

theorem bwf_filter (b : Tab Word) (p : Nat × Word → Bool) (h : bwf b = true) : bwf (b.filter p : Tab Word) = true := by
  rw [bwf_iff] at *
  exact ⟨tsorted_filter _ _ h.1, fun e he => h.2 e (List.mem_filter.1 he).1⟩

theorem bwf_bclear (b : Tab Word) (lo hi : Nat) (h : bwf b = true) : bwf (bclear b lo hi) = true := bwf_filter b _ h

@[simp] theorem State.rd_wr_self (s : State) (off : Nat) (v : Word) : (s.wr off v).rd off = v := by simp [State.rd, State.wr]

theorem State.rd_wr_ne {off c : Nat} (h : off ≠ c) (s : State) (v : Word) : (s.wr off v).rd c = s.rd c := by
  simp [State.rd, State.wr, bget_bset_ne h]

theorem State.rd_wr (s : State) (off c : Nat) (v : Word) : (s.wr off v).rd c = if off = c then v else s.rd c := by
  simp [State.rd, State.wr, bget_bset]

/-- A read has the length asked for. -/
@[simp] theorem Mem.read_length (m : Mem) (a n : Nat) : (Mem.read m a n).length = n := by simp [Mem.read]

/-- The first bytes of a read are a shorter read. -/
theorem Mem.read_take (m : Mem) (a n k : Nat) (h : k ≤ n) : (Mem.read m a n).take k = Mem.read m a k := by
  simp [Mem.read, ← List.map_take, List.take_range, Nat.min_eq_left h]

/-- The later bytes of a read are a read further up. -/
theorem Mem.read_drop (m : Mem) (a n k : Nat) : (Mem.read m a n).drop k = Mem.read m (a + k) (n - k) := by
  apply List.ext_getElem <;> simp [Mem.read, Nat.add_assoc]

/-- Where nothing is listed, a read gives zeros. -/
theorem Mem.read_zero (m : Mem) (a n : Nat) (h : ∀ e ∈ m, e.1 < a ∨ a + n ≤ e.1) : Mem.read m a n = List.replicate n 0 := by
  apply List.ext_getElem
  · simp [Mem.read]
  · intro i h1 h2
    simp only [Mem.read, List.getElem_map, List.getElem_range, List.getElem_replicate, Mem.byte]
    have hi : i < n := by simpa [Mem.read] using h1
    suffices tget m (a + i) = none by simp [this]
    clear h1 h2
    induction m with
    | nil => rfl
    | cons e r ih =>
      have he := h e (by simp)
      have := ih fun x hx => h x (by simp [hx])
      simp only [tget]
      split
      · omega
      · assumption

end Sys2Proof.Machine
end

