-- ==== Sys2Proof/Laws/Frame.lean ====
section
/-!
SUPPORT. Frames: how `Touches` composes, and the record updates.
-/
namespace Sys2Proof.Machine

theorem Fld.same_refl (f : Fld) (s : State) : f.same s s := by cases f <;> rfl

theorem Fld.same_trans {f : Fld} {s t u : State} (a : f.same s t) (b : f.same t u) : f.same s u := by
  cases f <;> exact Eq.trans b a

theorem Fld.same_symm {f : Fld} {s t : State} (a : f.same s t) : f.same t s := by
  cases f <;> exact Eq.symm a

theorem Touches.refl (l : List Fld) (s : State) : Touches l s s := ⟨fun f _ => f.same_refl s⟩

theorem Touches.trans {l : List Fld} {s t u : State} (a : Touches l s t) (b : Touches l t u) : Touches l s u :=
  ⟨fun f h => Fld.same_trans (a.same f h) (b.same f h)⟩

theorem Touches.symm {l : List Fld} {s t : State} (a : Touches l s t) : Touches l t s :=
  ⟨fun f h => Fld.same_symm (a.same f h)⟩

/-- A list touches no more than a longer one. -/
theorem Touches.mono {l m : List Fld} {s t : State} (a : Touches l s t) (h : ∀ f ∈ l, f ∈ m) : Touches m s t :=
  ⟨fun f n => a.same f fun k => n (h f k)⟩

/-- A further operation, within the list. -/
theorem Touches.then {l m : List Fld} {s t u : State} (a : Touches l s t) (b : Touches m t u) (h : ∀ f ∈ m, f ∈ l) : Touches l s u :=
  a.trans (b.mono h)

/-- What is the same outside the list is touched alike. -/
theorem Touches.congr {l : List Fld} {s t u : State} (b : Touches l t u) : Touches l s u = Touches l s t :=
  propext ⟨fun a => a.trans b.symm, fun a => a.trans b⟩

/-- An operation within the list adds nothing to what is touched. -/
theorem Touches.via {l m : List Fld} {s t u : State} (b : Touches m t u) (h : ∀ f ∈ m, f ∈ l) : Touches l s u = Touches l s t :=
  (b.mono h).congr

/-- Folding an operation touches what one application does. -/
theorem Touches.foldl {β : Type} {l : List Fld} {f : State → β → State} (h : ∀ t x, Touches l t (f t x)) (xs : List β) (s : State) :
    Touches l s (xs.foldl f s) := by
  induction xs generalizing s with
  | nil => exact .refl l s
  | cons x xs ih => exact (h s x).trans (ih (f s x))

/-- The same after an operation. -/
theorem Touches.fold {β : Type} {l : List Fld} {f : State → β → State} {xs : List β} {s t : State} (a : Touches l s t)
    (h : ∀ t x, Touches l t (f t x)) : Touches l s (xs.foldl f t) := a.trans (.foldl h xs t)

/-- The same where the state is the first part of what is folded. -/
theorem Touches.fold1 {α β : Type} {l : List Fld} {f : State × α → β → State × α} {xs : List β} {s : State} {p : State × α}
    (a : Touches l s p.1) (h : ∀ p x, Touches l p.1 (f p x).1) : Touches l s (xs.foldl f p).1 := by
  induction xs generalizing p with
  | nil => exact a
  | cons x xs ih => exact ih (a.trans (h p x))

/-- The same where it is the second part. -/
theorem Touches.fold2 {α β : Type} {l : List Fld} {f : α × State → β → α × State} {xs : List β} {s : State} {p : α × State}
    (a : Touches l s p.2) (h : ∀ p x, Touches l p.2 (f p x).2) : Touches l s (xs.foldl f p).2 := by
  induction xs generalizing p with
  | nil => exact a
  | cons x xs ih => exact ih (a.trans (h p x))

end Sys2Proof.Machine
end

