-- ==== Sys2Proof/Laws/TouchBase.lean ====
section
/-!
SUPPORT. What the operations of Flags, Ops, Governor, GroupOps, Refs, Boundary touch: one frame for each.
-/
set_option linter.all false
namespace Sys2Proof.Machine
open Sys2Proof

theorem Touches.set_regs {l : List Fld} (h0 : .regs ∈ l) {s t : State} (v0 : Tab Word) :
    Touches l s { t with regs := v0 } = Touches l s t :=
  Touches.congr ⟨fun f hf => by cases f <;> first | rfl | exact absurd ‹_› hf⟩

theorem Touches.set_time {l : List Fld} (h0 : .time ∈ l) {s t : State} (v0 : TimeState) :
    Touches l s { t with time := v0 } = Touches l s t :=
  Touches.congr ⟨fun f hf => by cases f <;> first | rfl | exact absurd ‹_› hf⟩

theorem Touches.set_dev {l : List Fld} (h0 : .dev ∈ l) {s t : State} (v0 : DevBlock) :
    Touches l s { t with dev := v0 } = Touches l s t :=
  Touches.congr ⟨fun f hf => by cases f <;> first | rfl | exact absurd ‹_› hf⟩

theorem Touches.set_mbx {l : List Fld} (h0 : .mbx ∈ l) {s t : State} (v0 : MbxState) :
    Touches l s { t with mbx := v0 } = Touches l s t :=
  Touches.congr ⟨fun f hf => by cases f <;> first | rfl | exact absurd ‹_› hf⟩

theorem Touches.set_ctl {l : List Fld} (h0 : .ctl ∈ l) {s t : State} (v0 : CtlState) :
    Touches l s { t with ctl := v0 } = Touches l s t :=
  Touches.congr ⟨fun f hf => by cases f <;> first | rfl | exact absurd ‹_› hf⟩

theorem Touches.set_chk {l : List Fld} (h0 : .chk ∈ l) {s t : State} (v0 : Tab ChkUnit) :
    Touches l s { t with chk := v0 } = Touches l s t :=
  Touches.congr ⟨fun f hf => by cases f <;> first | rfl | exact absurd ‹_› hf⟩

theorem Touches.set_pmu {l : List Fld} (h0 : .pmu ∈ l) {s t : State} (v0 : PmuState) :
    Touches l s { t with pmu := v0 } = Touches l s t :=
  Touches.congr ⟨fun f hf => by cases f <;> first | rfl | exact absurd ‹_› hf⟩

theorem Touches.set_pwr {l : List Fld} (h0 : .pwr ∈ l) {s t : State} (v0 : PwrState) :
    Touches l s { t with pwr := v0 } = Touches l s t :=
  Touches.congr ⟨fun f hf => by cases f <;> first | rfl | exact absurd ‹_› hf⟩

theorem Touches.set_mem {l : List Fld} (h0 : .mem ∈ l) {s t : State} (v0 : MemState) :
    Touches l s { t with mem := v0 } = Touches l s t :=
  Touches.congr ⟨fun f hf => by cases f <;> first | rfl | exact absurd ‹_› hf⟩

theorem Touches.set_chans {l : List Fld} (h0 : .chans ∈ l) {s t : State} (v0 : Tab Chan) :
    Touches l s { t with chans := v0 } = Touches l s t :=
  Touches.congr ⟨fun f hf => by cases f <;> first | rfl | exact absurd ‹_› hf⟩

theorem Touches.set_eng {l : List Fld} (h0 : .eng ∈ l) {s t : State} (v0 : EngState) :
    Touches l s { t with eng := v0 } = Touches l s t :=
  Touches.congr ⟨fun f hf => by cases f <;> first | rfl | exact absurd ‹_› hf⟩

theorem Touches.set_ext {l : List Fld} (h0 : .ext ∈ l) {s t : State} (v0 : Tab ExtStream) :
    Touches l s { t with ext := v0 } = Touches l s t :=
  Touches.congr ⟨fun f hf => by cases f <;> first | rfl | exact absurd ‹_› hf⟩

theorem Touches.set_surf {l : List Fld} (h0 : .surf ∈ l) {s t : State} (v0 : SurfState) :
    Touches l s { t with surf := v0 } = Touches l s t :=
  Touches.congr ⟨fun f hf => by cases f <;> first | rfl | exact absurd ‹_› hf⟩

theorem Touches.set_aud {l : List Fld} (h0 : .aud ∈ l) {s t : State} (v0 : AudState) :
    Touches l s { t with aud := v0 } = Touches l s t :=
  Touches.congr ⟨fun f hf => by cases f <;> first | rfl | exact absurd ‹_› hf⟩

theorem Touches.set_net {l : List Fld} (h0 : .net ∈ l) {s t : State} (v0 : NetState) :
    Touches l s { t with net := v0 } = Touches l s t :=
  Touches.congr ⟨fun f hf => by cases f <;> first | rfl | exact absurd ‹_› hf⟩

theorem Touches.set_tx {l : List Fld} (h0 : .tx ∈ l) {s t : State} (v0 : Tab TxIface) :
    Touches l s { t with tx := v0 } = Touches l s t :=
  Touches.congr ⟨fun f hf => by cases f <;> first | rfl | exact absurd ‹_› hf⟩

theorem Touches.set_txc {l : List Fld} (h0 : .txc ∈ l) {s t : State} (v0 : Tab TxChan) :
    Touches l s { t with txc := v0 } = Touches l s t :=
  Touches.congr ⟨fun f hf => by cases f <;> first | rfl | exact absurd ‹_› hf⟩

theorem Touches.set_grp {l : List Fld} (h0 : .grp ∈ l) {s t : State} (v0 : GrpState) :
    Touches l s { t with grp := v0 } = Touches l s t :=
  Touches.congr ⟨fun f hf => by cases f <;> first | rfl | exact absurd ‹_› hf⟩

theorem Touches.set_lane {l : List Fld} (h0 : .lane ∈ l) {s t : State} (v0 : LaneState) :
    Touches l s { t with lane := v0 } = Touches l s t :=
  Touches.congr ⟨fun f hf => by cases f <;> first | rfl | exact absurd ‹_› hf⟩

theorem Touches.set_rat {l : List Fld} (h0 : .rat ∈ l) {s t : State} (v0 : RatState) :
    Touches l s { t with rat := v0 } = Touches l s t :=
  Touches.congr ⟨fun f hf => by cases f <;> first | rfl | exact absurd ‹_› hf⟩

theorem Touches.set_out {l : List Fld} (h0 : .out ∈ l) {s t : State} (v0 : List Out) :
    Touches l s { t with out := v0 } = Touches l s t :=
  Touches.congr ⟨fun f hf => by cases f <;> first | rfl | exact absurd ‹_› hf⟩

theorem Touches.set_fresh {l : List Fld} (h0 : .fresh ∈ l) {s t : State} (v0 : Nat) :
    Touches l s { t with fresh := v0 } = Touches l s t :=
  Touches.congr ⟨fun f hf => by cases f <;> first | rfl | exact absurd ‹_› hf⟩

theorem Touches.set_time_chans {l : List Fld} (h0 : .time ∈ l) (h1 : .chans ∈ l) {s t : State} (v0 : TimeState) (v1 : Tab Chan) :
    Touches l s { t with time := v0, chans := v1 } = Touches l s t :=
  Touches.congr ⟨fun f hf => by cases f <;> first | rfl | exact absurd ‹_› hf⟩

theorem Touches.set_dev_mbx {l : List Fld} (h0 : .dev ∈ l) (h1 : .mbx ∈ l) {s t : State} (v0 : DevBlock) (v1 : MbxState) :
    Touches l s { t with dev := v0, mbx := v1 } = Touches l s t :=
  Touches.congr ⟨fun f hf => by cases f <;> first | rfl | exact absurd ‹_› hf⟩

theorem Touches.set_dev_pwr {l : List Fld} (h0 : .dev ∈ l) (h1 : .pwr ∈ l) {s t : State} (v0 : DevBlock) (v1 : PwrState) :
    Touches l s { t with dev := v0, pwr := v1 } = Touches l s t :=
  Touches.congr ⟨fun f hf => by cases f <;> first | rfl | exact absurd ‹_› hf⟩

theorem Touches.set_dev_mem {l : List Fld} (h0 : .dev ∈ l) (h1 : .mem ∈ l) {s t : State} (v0 : DevBlock) (v1 : MemState) :
    Touches l s { t with dev := v0, mem := v1 } = Touches l s t :=
  Touches.congr ⟨fun f hf => by cases f <;> first | rfl | exact absurd ‹_› hf⟩

theorem Touches.set_dev_eng {l : List Fld} (h0 : .dev ∈ l) (h1 : .eng ∈ l) {s t : State} (v0 : DevBlock) (v1 : EngState) :
    Touches l s { t with dev := v0, eng := v1 } = Touches l s t :=
  Touches.congr ⟨fun f hf => by cases f <;> first | rfl | exact absurd ‹_› hf⟩

theorem Touches.set_dev_tx {l : List Fld} (h0 : .dev ∈ l) (h1 : .tx ∈ l) {s t : State} (v0 : DevBlock) (v1 : Tab TxIface) :
    Touches l s { t with dev := v0, tx := v1 } = Touches l s t :=
  Touches.congr ⟨fun f hf => by cases f <;> first | rfl | exact absurd ‹_› hf⟩

theorem Touches.set_dev_rat {l : List Fld} (h0 : .dev ∈ l) (h1 : .rat ∈ l) {s t : State} (v0 : DevBlock) (v1 : RatState) :
    Touches l s { t with dev := v0, rat := v1 } = Touches l s t :=
  Touches.congr ⟨fun f hf => by cases f <;> first | rfl | exact absurd ‹_› hf⟩

theorem Touches.set_log_logSeq {l : List Fld} (h0 : .log ∈ l) (h1 : .logSeq ∈ l) {s t : State} (v0 : List Event) (v1 : Nat) :
    Touches l s { t with log := v0, logSeq := v1 } = Touches l s t :=
  Touches.congr ⟨fun f hf => by cases f <;> first | rfl | exact absurd ‹_› hf⟩

theorem Touches.set_mbx_rat {l : List Fld} (h0 : .mbx ∈ l) (h1 : .rat ∈ l) {s t : State} (v0 : MbxState) (v1 : RatState) :
    Touches l s { t with mbx := v0, rat := v1 } = Touches l s t :=
  Touches.congr ⟨fun f hf => by cases f <;> first | rfl | exact absurd ‹_› hf⟩

theorem Touches.set_mbx_fresh {l : List Fld} (h0 : .mbx ∈ l) (h1 : .fresh ∈ l) {s t : State} (v0 : MbxState) (v1 : Nat) :
    Touches l s { t with mbx := v0, fresh := v1 } = Touches l s t :=
  Touches.congr ⟨fun f hf => by cases f <;> first | rfl | exact absurd ‹_› hf⟩

theorem Touches.set_pwr_mem {l : List Fld} (h0 : .pwr ∈ l) (h1 : .mem ∈ l) {s t : State} (v0 : PwrState) (v1 : MemState) :
    Touches l s { t with pwr := v0, mem := v1 } = Touches l s t :=
  Touches.congr ⟨fun f hf => by cases f <;> first | rfl | exact absurd ‹_› hf⟩

theorem Touches.set_eng_ext {l : List Fld} (h0 : .eng ∈ l) (h1 : .ext ∈ l) {s t : State} (v0 : EngState) (v1 : Tab ExtStream) :
    Touches l s { t with eng := v0, ext := v1 } = Touches l s t :=
  Touches.congr ⟨fun f hf => by cases f <;> first | rfl | exact absurd ‹_› hf⟩

theorem Touches.set_aud_net {l : List Fld} (h0 : .aud ∈ l) (h1 : .net ∈ l) {s t : State} (v0 : AudState) (v1 : NetState) :
    Touches l s { t with aud := v0, net := v1 } = Touches l s t :=
  Touches.congr ⟨fun f hf => by cases f <;> first | rfl | exact absurd ‹_› hf⟩

theorem Touches.set_net_tx {l : List Fld} (h0 : .net ∈ l) (h1 : .tx ∈ l) {s t : State} (v0 : NetState) (v1 : Tab TxIface) :
    Touches l s { t with net := v0, tx := v1 } = Touches l s t :=
  Touches.congr ⟨fun f hf => by cases f <;> first | rfl | exact absurd ‹_› hf⟩

theorem Touches.set_tx_grp {l : List Fld} (h0 : .tx ∈ l) (h1 : .grp ∈ l) {s t : State} (v0 : Tab TxIface) (v1 : GrpState) :
    Touches l s { t with tx := v0, grp := v1 } = Touches l s t :=
  Touches.congr ⟨fun f hf => by cases f <;> first | rfl | exact absurd ‹_› hf⟩

theorem Touches.set_dev_mbx_ctl {l : List Fld} (h0 : .dev ∈ l) (h1 : .mbx ∈ l) (h2 : .ctl ∈ l) {s t : State} (v0 : DevBlock) (v1 : MbxState) (v2 : CtlState) :
    Touches l s { t with dev := v0, mbx := v1, ctl := v2 } = Touches l s t :=
  Touches.congr ⟨fun f hf => by cases f <;> first | rfl | exact absurd ‹_› hf⟩

theorem Touches.set_dev_pwr_mem {l : List Fld} (h0 : .dev ∈ l) (h1 : .pwr ∈ l) (h2 : .mem ∈ l) {s t : State} (v0 : DevBlock) (v1 : PwrState) (v2 : MemState) :
    Touches l s { t with dev := v0, pwr := v1, mem := v2 } = Touches l s t :=
  Touches.congr ⟨fun f hf => by cases f <;> first | rfl | exact absurd ‹_› hf⟩

theorem Touches.set_dev_tx_grp {l : List Fld} (h0 : .dev ∈ l) (h1 : .tx ∈ l) (h2 : .grp ∈ l) {s t : State} (v0 : DevBlock) (v1 : Tab TxIface) (v2 : GrpState) :
    Touches l s { t with dev := v0, tx := v1, grp := v2 } = Touches l s t :=
  Touches.congr ⟨fun f hf => by cases f <;> first | rfl | exact absurd ‹_› hf⟩

theorem Touches.set_chans_surf_grp {l : List Fld} (h0 : .chans ∈ l) (h1 : .surf ∈ l) (h2 : .grp ∈ l) {s t : State} (v0 : Tab Chan) (v1 : SurfState) (v2 : GrpState) :
    Touches l s { t with chans := v0, surf := v1, grp := v2 } = Touches l s t :=
  Touches.congr ⟨fun f hf => by cases f <;> first | rfl | exact absurd ‹_› hf⟩

theorem Touches.set_surf_txc_grp {l : List Fld} (h0 : .surf ∈ l) (h1 : .txc ∈ l) (h2 : .grp ∈ l) {s t : State} (v0 : SurfState) (v1 : Tab TxChan) (v2 : GrpState) :
    Touches l s { t with surf := v0, txc := v1, grp := v2 } = Touches l s t :=
  Touches.congr ⟨fun f hf => by cases f <;> first | rfl | exact absurd ‹_› hf⟩

theorem Touches.set_tx_txc_grp {l : List Fld} (h0 : .tx ∈ l) (h1 : .txc ∈ l) (h2 : .grp ∈ l) {s t : State} (v0 : Tab TxIface) (v1 : Tab TxChan) (v2 : GrpState) :
    Touches l s { t with tx := v0, txc := v1, grp := v2 } = Touches l s t :=
  Touches.congr ⟨fun f hf => by cases f <;> first | rfl | exact absurd ‹_› hf⟩

theorem Touches.set_time_chans_ext_aud_net {l : List Fld} (h0 : .time ∈ l) (h1 : .chans ∈ l) (h2 : .ext ∈ l) (h3 : .aud ∈ l) (h4 : .net ∈ l) {s t : State} (v0 : TimeState) (v1 : Tab Chan) (v2 : Tab ExtStream) (v3 : AudState) (v4 : NetState) :
    Touches l s { t with time := v0, chans := v1, ext := v2, aud := v3, net := v4 } = Touches l s t :=
  Touches.congr ⟨fun f hf => by cases f <;> first | rfl | exact absurd ‹_› hf⟩

@[simp] theorem State.reply_st (s : State) (d : List Byte) : (s.reply d).st = s := rfl

@[simp] theorem State.done_st (s : State) : s.done.st = s := rfl

/-- A literal state that keeps what is outside the list. -/
theorem Touches.of {l : List Fld} {s t : State} (h : ∀ f, f ∈ l ∨ f.same s t) : Touches l s t :=
  ⟨fun f hf => (h f).resolve_left hf⟩

theorem State.when_touches {l : List Fld} {f : State → State} (h : ∀ t, Touches l t (f t)) (s : State) (b : Bool) :
    Touches l s (s.when b f) := by
  unfold State.when
  split
  · exact h s
  · exact .refl l s

theorem State.onChan_touches {l : List Fld} {f : Chan → State → State} (h : ∀ ch t, Touches l t (f ch t)) (s : State) (c : Nat) :
    Touches l s (s.onChan c f) := by
  unfold State.onChan
  split
  · exact .refl l s
  · exact h ..

theorem State.onRow_touches {l : List Fld} {f : Chan → Pic → Row → State → State} (h : ∀ ch p x t, Touches l t (f ch p x t)) (s : State)
    (c n r : Nat) : Touches l s (s.onRow c n r f) := by
  refine State.onChan_touches (fun ch t => ?_) s c
  repeat' split
  all_goals first | exact .refl _ _ | exact h ..

/-- The frame of the state a row answers. -/
theorem Touches.row {l : List Fld} {s t : State} {o : Host.Outcome State Fault Refusal} (a : Touches l s (outState s o)) (h : o = .next t) :
    Touches l s t := by
  subst h; exact a

theorem State.wr_touches (s : State) (off : Nat) (v : Word) : Touches [.regs] s (State.wr s off v) := by
  unfold State.wr
  repeat' first | simp (disch := decide) only [Touches.refl, Touches.set_regs] | split | dsimp only | refine .fold ?_ fun _ _ => ?_ | refine .fold1 ?_ fun _ _ => ?_ | refine .fold2 ?_ fun _ _ => ?_

theorem State.bumpBy_touches (s : State) (off n : Nat) : Touches [.regs] s (State.bumpBy s off n) := by
  unfold State.bumpBy
  repeat' first | simp (disch := decide) only [Touches.refl, Touches.via (State.wr_touches _ _ _)] | split | dsimp only | refine .fold ?_ fun _ _ => ?_ | refine .fold1 ?_ fun _ _ => ?_ | refine .fold2 ?_ fun _ _ => ?_

theorem State.bump_touches (s : State) (off : Nat) : Touches [.regs] s (State.bump s off) := by
  unfold State.bump
  repeat' first | simp (disch := decide) only [Touches.refl, Touches.via (State.bumpBy_touches _ _ _)] | split | dsimp only | refine .fold ?_ fun _ _ => ?_ | refine .fold1 ?_ fun _ _ => ?_ | refine .fold2 ?_ fun _ _ => ?_

theorem State.bumpSat_touches (s : State) (off : Nat) : Touches [.regs] s (State.bumpSat s off) := by
  unfold State.bumpSat
  repeat' first | simp (disch := decide) only [Touches.refl, Touches.via (State.bump_touches _ _)] | split | dsimp only | refine .fold ?_ fun _ _ => ?_ | refine .fold1 ?_ fun _ _ => ?_ | refine .fold2 ?_ fun _ _ => ?_

theorem State.sticky_touches (s : State) (off : Nat) (mask : Word) : Touches [.regs] s (State.sticky s off mask) := by
  unfold State.sticky
  repeat' first | simp (disch := decide) only [Touches.refl, Touches.via (State.wr_touches _ _ _)] | split | dsimp only | refine .fold ?_ fun _ _ => ?_ | refine .fold1 ?_ fun _ _ => ?_ | refine .fold2 ?_ fun _ _ => ?_

theorem State.unstick_touches (s : State) (off : Nat) (mask : Word) : Touches [.regs] s (State.unstick s off mask) := by
  unfold State.unstick
  repeat' first | simp (disch := decide) only [Touches.refl, Touches.via (State.wr_touches _ _ _)] | split | dsimp only | refine .fold ?_ fun _ _ => ?_ | refine .fold1 ?_ fun _ _ => ?_ | refine .fold2 ?_ fun _ _ => ?_

theorem State.recordMax_touches (s : State) (off hi v : Nat) : Touches [.regs] s (State.recordMax s off hi v) := by
  unfold State.recordMax
  repeat' first | simp (disch := decide) only [Touches.refl, Touches.via (State.wr_touches _ _ _)] | split | dsimp only | refine .fold ?_ fun _ _ => ?_ | refine .fold1 ?_ fun _ _ => ?_ | refine .fold2 ?_ fun _ _ => ?_

theorem State.clearRegs_touches (s : State) (lo hi : Nat) : Touches [.regs] s (State.clearRegs s lo hi) := by
  unfold State.clearRegs
  repeat' first | simp (disch := decide) only [Touches.refl, Touches.set_regs] | split | dsimp only | refine .fold ?_ fun _ _ => ?_ | refine .fold1 ?_ fun _ _ => ?_ | refine .fold2 ?_ fun _ _ => ?_

theorem State.clearMerge_touches (s : State) (m : Nat) : Touches [.regs] s (State.clearMerge s m) := by
  unfold State.clearMerge
  repeat' first | simp (disch := decide) only [Touches.refl, Touches.via (State.clearRegs_touches _ _ _)] | split | dsimp only | refine .fold ?_ fun _ _ => ?_ | refine .fold1 ?_ fun _ _ => ?_ | refine .fold2 ?_ fun _ _ => ?_

theorem State.emit_touches (s : State) (o : Out) : Touches [.out] s (State.emit s o) := by
  unfold State.emit
  repeat' first | simp (disch := decide) only [Touches.refl, Touches.set_out] | split | dsimp only | refine .fold ?_ fun _ _ => ?_ | refine .fold1 ?_ fun _ _ => ?_ | refine .fold2 ?_ fun _ _ => ?_

theorem State.signal_touches (s : State) (v : Nat) : Touches [.mbx, .out] s (State.signal s v) := by
  unfold State.signal
  repeat' first | simp (disch := decide) only [Touches.refl, Touches.set_mbx, Touches.via (State.emit_touches _ _)] | split | dsimp only | refine .fold ?_ fun _ _ => ?_ | refine .fold1 ?_ fun _ _ => ?_ | refine .fold2 ?_ fun _ _ => ?_

theorem State.msixRelease_touches (s : State) (v : Nat) : Touches [.mbx, .out] s (State.msixRelease s v) := by
  unfold State.msixRelease
  repeat' first | simp (disch := decide) only [Touches.refl, Touches.set_mbx, Touches.via (State.emit_touches _ _)] | split | dsimp only | refine .fold ?_ fun _ _ => ?_ | refine .fold1 ?_ fun _ _ => ?_ | refine .fold2 ?_ fun _ _ => ?_

theorem State.badAccess_touches (s : State) : Touches [.regs] s (State.badAccess s) := by
  unfold State.badAccess
  repeat' first | simp (disch := decide) only [Touches.refl, Touches.via (State.bump_touches _ _), Touches.via (State.sticky_touches _ _ _)] | split | dsimp only | refine .fold ?_ fun _ _ => ?_ | refine .fold1 ?_ fun _ _ => ?_ | refine .fold2 ?_ fun _ _ => ?_

theorem State.unsupported_touches (s : State) : Touches [.mbx, .out] s (State.unsupported s) := by
  unfold State.unsupported
  repeat' first | simp (disch := decide) only [Touches.refl, Touches.set_mbx, Touches.via (State.emit_touches _ _)] | split | dsimp only | refine .fold ?_ fun _ _ => ?_ | refine .fold1 ?_ fun _ _ => ?_ | refine .fold2 ?_ fun _ _ => ?_

theorem State.readClear_touches (s : State) (off : Nat) : Touches [.regs, .mbx, .out] s (State.readClear s off) := by
  unfold State.readClear
  repeat' first | simp (disch := decide) only [State.hostRead, State.barRead, Touches.refl, Touches.via (State.wr_touches _ _ _), Touches.via (State.emit_touches _ _), Touches.via (State.badAccess_touches _), Touches.via (State.unsupported_touches _)] | split | dsimp only | refine .fold ?_ fun _ _ => ?_ | refine .fold1 ?_ fun _ _ => ?_ | refine .fold2 ?_ fun _ _ => ?_

theorem State.readReserved_touches (s : State) : Touches [.mbx, .out] s (State.readReserved s) := by
  unfold State.readReserved
  repeat' first | simp (disch := decide) only [State.barRead, Touches.refl, Touches.via (State.emit_touches _ _), Touches.via (State.badAccess_touches _), Touches.via (State.unsupported_touches _)] | split | dsimp only | refine .fold ?_ fun _ _ => ?_ | refine .fold1 ?_ fun _ _ => ?_ | refine .fold2 ?_ fun _ _ => ?_

theorem State.updIface_touches (s : State) (i : Nat) (f : Iface → Iface) : Touches [.net] s (State.updIface s i f) := by
  unfold State.updIface
  repeat' first | simp (disch := decide) only [Touches.refl, Touches.set_net] | split | dsimp only | refine .fold ?_ fun _ _ => ?_ | refine .fold1 ?_ fun _ _ => ?_ | refine .fold2 ?_ fun _ _ => ?_

theorem State.updTx_touches (s : State) (i : Nat) (f : TxIface → TxIface) : Touches [.tx] s (State.updTx s i f) := by
  unfold State.updTx
  repeat' first | simp (disch := decide) only [Touches.refl, Touches.set_tx] | split | dsimp only | refine .fold ?_ fun _ _ => ?_ | refine .fold1 ?_ fun _ _ => ?_ | refine .fold2 ?_ fun _ _ => ?_

theorem State.sendCtl_touches (s : State) (i q : Nat) (what : CtlReply) : Touches [.regs, .tx] s (State.sendCtl s i q what) := by
  unfold State.sendCtl
  repeat' first | simp (disch := decide) only [Touches.refl, Touches.via (State.bump_touches _ _), Touches.via (State.updTx_touches _ _ _), Touches.via (State.sticky_touches _ _ _)] | split | dsimp only | refine .fold ?_ fun _ _ => ?_ | refine .fold1 ?_ fun _ _ => ?_ | refine .fold2 ?_ fun _ _ => ?_

theorem State.takePtp_touches (s : State) : Touches [.net] s (State.takePtp s) := by
  unfold State.takePtp
  repeat' first | simp (disch := decide) only [Touches.refl, Touches.set_net] | split | dsimp only | refine .fold ?_ fun _ _ => ?_ | refine .fold1 ?_ fun _ _ => ?_ | refine .fold2 ?_ fun _ _ => ?_

theorem State.histUnit_touches (s : State) (src item : Nat) (v : Int) (h : Nat) : Touches [.regs] s (State.histUnit s src item v h) := by
  unfold State.histUnit
  repeat' first | simp (disch := decide) only [Touches.refl, Touches.via (State.bump_touches _ _), Touches.via (State.sticky_touches _ _ _)] | split | dsimp only | refine .fold ?_ fun _ _ => ?_ | refine .fold1 ?_ fun _ _ => ?_ | refine .fold2 ?_ fun _ _ => ?_

theorem State.hist_touches (s : State) (src item : Nat) (v : Int) : Touches [.regs] s (State.hist s src item v) := by
  unfold State.hist
  repeat' first | simp (disch := decide) only [Touches.refl, Touches.via (State.histUnit_touches _ _ _ _ _)] | split | dsimp only | refine .fold ?_ fun _ _ => ?_ | refine .fold1 ?_ fun _ _ => ?_ | refine .fold2 ?_ fun _ _ => ?_

theorem State.pmuAdvance_touches (s : State) (i n : Nat) : Touches [.regs, .pmu] s (State.pmuAdvance s i n) := by
  unfold State.pmuAdvance
  repeat' first | simp (disch := decide) only [State.when, Touches.refl, Touches.set_pmu, Touches.via (State.sticky_touches _ _ _)] | split | dsimp only | refine .fold ?_ fun _ _ => ?_ | refine .fold1 ?_ fun _ _ => ?_ | refine .fold2 ?_ fun _ _ => ?_

theorem State.pmuCount_touches (s : State) (cls num n : Nat) (x : PmuSource) : Touches [.regs, .pmu] s (State.pmuCount s cls num n x) := by
  unfold State.pmuCount
  repeat' first | simp (disch := decide) only [Touches.refl, Touches.via (State.pmuAdvance_touches _ _ _)] | split | dsimp only | refine .fold ?_ fun _ _ => ?_ | refine .fold1 ?_ fun _ _ => ?_ | refine .fold2 ?_ fun _ _ => ?_

theorem State.pmuEvent_touches (s : State) (cls num : Nat) : Touches [.regs, .pmu] s (State.pmuEvent s cls num) := by
  unfold State.pmuEvent
  repeat' first | simp (disch := decide) only [Touches.refl, Touches.via (State.pmuCount_touches _ _ _ _ _)] | split | dsimp only | refine .fold ?_ fun _ _ => ?_ | refine .fold1 ?_ fun _ _ => ?_ | refine .fold2 ?_ fun _ _ => ?_

theorem State.raise_touches (s : State) (code sev obj detail : Nat) : Touches [.regs, .log, .logSeq, .mbx, .out] s (State.raise s code sev obj detail) := by
  unfold State.raise
  repeat' first | simp (disch := decide) only [Touches.refl, Touches.set_log_logSeq, Touches.via (State.signal_touches _ _), Touches.via (State.sticky_touches _ _ _)] | split | dsimp only | refine .fold ?_ fun _ _ => ?_ | refine .fold1 ?_ fun _ _ => ?_ | refine .fold2 ?_ fun _ _ => ?_

theorem State.updChan_touches (s : State) (c : Nat) (f : Chan → Chan) : Touches [.chans] s (State.updChan s c f) := by
  unfold State.updChan
  repeat' first | simp (disch := decide) only [Touches.refl, Touches.set_chans] | split | dsimp only | refine .fold ?_ fun _ _ => ?_ | refine .fold1 ?_ fun _ _ => ?_ | refine .fold2 ?_ fun _ _ => ?_

theorem State.setChan_touches (s : State) (c : Nat) (ch : Chan) : Touches [.chans] s (State.setChan s c ch) := by
  unfold State.setChan
  repeat' first | simp (disch := decide) only [Touches.refl, Touches.set_chans] | split | dsimp only | refine .fold ?_ fun _ _ => ?_ | refine .fold1 ?_ fun _ _ => ?_ | refine .fold2 ?_ fun _ _ => ?_

theorem State.hbmWrite_touches (s : State) (a : Nat) (d : List Byte) : Touches [.mem] s (State.hbmWrite s a d) := by
  unfold State.hbmWrite
  repeat' first | simp (disch := decide) only [Touches.refl, Touches.set_mem] | split | dsimp only | refine .fold ?_ fun _ _ => ?_ | refine .fold1 ?_ fun _ _ => ?_ | refine .fold2 ?_ fun _ _ => ?_

theorem State.endTest_touches (s : State) : Touches [.regs, .dev, .log, .logSeq, .mbx, .out] s (State.endTest s) := by
  unfold State.endTest
  repeat' first | simp (disch := decide) only [Touches.refl, Touches.set_dev, Touches.via (State.raise_touches _ _ _ _ _)] | split | dsimp only | refine .fold ?_ fun _ _ => ?_ | refine .fold1 ?_ fun _ _ => ?_ | refine .fold2 ?_ fun _ _ => ?_

theorem State.cancelMarks_touches (s : State) (c : Nat) (ch : Chan) : Touches [.regs] s (State.cancelMarks s c ch) := by
  unfold State.cancelMarks
  repeat' first | simp (disch := decide) only [Touches.refl, Touches.via (State.bumpBy_touches _ _ _), Touches.via (State.sticky_touches _ _ _)] | split | dsimp only | refine .fold ?_ fun _ _ => ?_ | refine .fold1 ?_ fun _ _ => ?_ | refine .fold2 ?_ fun _ _ => ?_

theorem State.countStop_touches (s : State) (c : Nat) (ch : Chan) : Touches [.regs] s (State.countStop s c ch) := by
  unfold State.countStop
  repeat' first | simp (disch := decide) only [Touches.refl, Touches.via (State.cancelMarks_touches _ _ _), Touches.via (State.sticky_touches _ _ _)] | split | dsimp only | refine .fold ?_ fun _ _ => ?_ | refine .fold1 ?_ fun _ _ => ?_ | refine .fold2 ?_ fun _ _ => ?_

theorem State.stopSticky_touches (s : State) : Touches [.regs] s (State.stopSticky s) := by
  unfold State.stopSticky
  repeat' first | simp (disch := decide) only [Touches.refl, Touches.via (State.countStop_touches _ _ _)] | split | dsimp only | refine .fold ?_ fun _ _ => ?_ | refine .fold1 ?_ fun _ _ => ?_ | refine .fold2 ?_ fun _ _ => ?_

theorem State.stopAll_touches (s : State) : Touches [.regs, .chans] s (State.stopAll s) := by
  unfold State.stopAll
  repeat' first | simp (disch := decide) only [Touches.refl, Touches.set_chans, Touches.via (State.stopSticky_touches _)] | split | dsimp only | refine .fold ?_ fun _ _ => ?_ | refine .fold1 ?_ fun _ _ => ?_ | refine .fold2 ?_ fun _ _ => ?_

theorem State.fatal_touches (s : State) (code obj detail : Nat) : Touches [.regs, .dev, .log, .logSeq, .mbx, .chans, .tx, .grp, .out] s (State.fatal s code obj detail) := by
  unfold State.fatal
  repeat' first | simp (disch := decide) only [Touches.refl, Touches.set_tx, Touches.set_grp, Touches.set_dev, Touches.set_tx_grp, Touches.set_dev_tx_grp, Touches.set_dev_tx, Touches.via (State.endTest_touches _), Touches.via (State.raise_touches _ _ _ _ _), Touches.via (State.stopAll_touches _), Touches.via (State.emit_touches _ _)] | split | dsimp only | refine .fold ?_ fun _ _ => ?_ | refine .fold1 ?_ fun _ _ => ?_ | refine .fold2 ?_ fun _ _ => ?_

theorem State.checkFloor_touches (s : State) : Touches [.regs, .pwr] s (State.checkFloor s) := by
  unfold State.checkFloor
  repeat' first | simp (disch := decide) only [State.when, Touches.refl, Touches.set_pwr, Touches.via (State.sticky_touches _ _ _)] | split | dsimp only | refine .fold ?_ fun _ _ => ?_ | refine .fold1 ?_ fun _ _ => ?_ | refine .fold2 ?_ fun _ _ => ?_

theorem State.decideTier_touches (s : State) (c avail group : Nat) : Touches [.regs, .pwr] s (State.decideTier s c avail group).1 := by
  unfold State.decideTier
  repeat' first | simp (disch := decide) only [State.when, Touches.refl, Touches.set_pwr, Touches.via (State.bump_touches _ _), Touches.via (State.checkFloor_touches _)] | split | dsimp only | refine .fold ?_ fun _ _ => ?_ | refine .fold1 ?_ fun _ _ => ?_ | refine .fold2 ?_ fun _ _ => ?_

theorem State.setLeg_touches (s : State) (i : Nat) (l : Leg) : Touches [.grp] s (State.setLeg s i l) := by
  unfold State.setLeg
  repeat' first | simp (disch := decide) only [Touches.refl, Touches.set_grp] | split | dsimp only | refine .fold ?_ fun _ _ => ?_ | refine .fold1 ?_ fun _ _ => ?_ | refine .fold2 ?_ fun _ _ => ?_

theorem State.frameOn_touches (s : State) (i : Nat) (r : StayRec) : Touches [.regs, .pmu, .grp, .out] s (State.frameOn s i r) := by
  unfold State.frameOn
  repeat' first | simp (disch := decide) only [Touches.refl, Touches.via (State.setLeg_touches _ _ _), Touches.via (State.pmuEvent_touches _ _ _), Touches.via (State.emit_touches _ _)] | split | dsimp only | refine .fold ?_ fun _ _ => ?_ | refine .fold1 ?_ fun _ _ => ?_ | refine .fold2 ?_ fun _ _ => ?_

theorem State.sendLeg_touches (s : State) (i : Nat) (r : StayRec) : Touches [.regs, .pmu, .grp, .out] s (State.sendLeg s i r) := by
  unfold State.sendLeg
  repeat' first | simp (disch := decide) only [Touches.refl, Touches.via (State.frameOn_touches _ _ _), Touches.via (State.setLeg_touches _ _ _)] | split | dsimp only | refine .fold ?_ fun _ _ => ?_ | refine .fold1 ?_ fun _ _ => ?_ | refine .fold2 ?_ fun _ _ => ?_

theorem State.flushLeg_touches (s : State) (i : Nat) : Touches [.regs, .pmu, .grp, .out] s (State.flushLeg s i) := by
  unfold State.flushLeg
  repeat' first | simp (disch := decide) only [Touches.refl, Touches.via (State.setLeg_touches _ _ _), Touches.via (State.sendLeg_touches _ _ _)] | split | dsimp only | refine .fold ?_ fun _ _ => ?_ | refine .fold1 ?_ fun _ _ => ?_ | refine .fold2 ?_ fun _ _ => ?_

theorem State.nextRec_touches (s : State) (m : StayMsg) : Touches [.grp] s (State.nextRec s m).1 := by
  unfold State.nextRec
  repeat' first | simp (disch := decide) only [Touches.refl, Touches.set_grp] | split | dsimp only | refine .fold ?_ fun _ _ => ?_ | refine .fold1 ?_ fun _ _ => ?_ | refine .fold2 ?_ fun _ _ => ?_

theorem State.sendAll_touches (s : State) (m : StayMsg) : Touches [.regs, .pmu, .grp, .out] s (State.sendAll s m) := by
  unfold State.sendAll
  repeat' first | simp (disch := decide) only [Touches.refl, Touches.via (State.sendLeg_touches _ _ _), Touches.via (State.nextRec_touches _ _)] | split | dsimp only | refine .fold ?_ fun _ _ => ?_ | refine .fold1 ?_ fun _ _ => ?_ | refine .fold2 ?_ fun _ _ => ?_

theorem State.sendBoth_touches (s : State) (m : StayMsg) : Touches [.regs, .pmu, .grp, .out] s (State.sendBoth s m) := by
  unfold State.sendBoth
  repeat' first | simp (disch := decide) only [Touches.refl, Touches.via (State.sendLeg_touches _ _ _), Touches.via (State.nextRec_touches _ _)] | split | dsimp only | refine .fold ?_ fun _ _ => ?_ | refine .fold1 ?_ fun _ _ => ?_ | refine .fold2 ?_ fun _ _ => ?_

theorem State.sendTo_touches (s : State) (rank : Nat) (m : StayMsg) : Touches [.regs, .pmu, .grp, .out] s (State.sendTo s rank m) := by
  unfold State.sendTo
  repeat' first | simp (disch := decide) only [Touches.refl, Touches.via (State.sendLeg_touches _ _ _), Touches.via (State.nextRec_touches _ _)] | split | dsimp only | refine .fold ?_ fun _ _ => ?_ | refine .fold1 ?_ fun _ _ => ?_ | refine .fold2 ?_ fun _ _ => ?_

theorem State.sendHello_touches (s : State) (leg : Nat) : Touches [.regs, .pmu, .grp, .out] s (State.sendHello s leg) := by
  unfold State.sendHello
  repeat' first | simp (disch := decide) only [Touches.refl, Touches.via (State.frameOn_touches _ _ _), Touches.via (State.nextRec_touches _ _)] | split | dsimp only | refine .fold ?_ fun _ _ => ?_ | refine .fold1 ?_ fun _ _ => ?_ | refine .fold2 ?_ fun _ _ => ?_

theorem State.updGch_touches (s : State) (c : Nat) (f : GrpChan → GrpChan) : Touches [.grp] s (State.updGch s c f) := by
  unfold State.updGch
  repeat' first | simp (disch := decide) only [Touches.refl, Touches.set_grp] | split | dsimp only | refine .fold ?_ fun _ _ => ?_ | refine .fold1 ?_ fun _ _ => ?_ | refine .fold2 ?_ fun _ _ => ?_

theorem State.setFault_touches (s : State) (c n bit : Nat) : Touches [.chans] s (State.setFault s c n bit) := by
  unfold State.setFault
  repeat' first | simp (disch := decide) only [Touches.refl, Touches.via (State.updChan_touches _ _ _)] | split | dsimp only | refine .fold ?_ fun _ _ => ?_ | refine .fold1 ?_ fun _ _ => ?_ | refine .fold2 ?_ fun _ _ => ?_

theorem State.localEvent_touches (s : State) (c n bit : Nat) : Touches [.chans, .grp] s (State.localEvent s c n bit) := by
  unfold State.localEvent
  repeat' first | simp (disch := decide) only [Touches.refl, Touches.via (State.updGch_touches _ _ _), Touches.via (State.setFault_touches _ _ _ _)] | split | dsimp only | refine .fold ?_ fun _ _ => ?_ | refine .fold1 ?_ fun _ _ => ?_ | refine .fold2 ?_ fun _ _ => ?_

theorem State.announceService_touches (s : State) : Touches [.regs, .tx] s (State.announceService s) := by
  unfold State.announceService
  repeat' first | simp (disch := decide) only [Touches.refl, Touches.via (State.sendCtl_touches _ _ _ _)] | split | dsimp only | refine .fold ?_ fun _ _ => ?_ | refine .fold1 ?_ fun _ _ => ?_ | refine .fold2 ?_ fun _ _ => ?_

theorem State.setRole_touches (s : State) (r : Role) : Touches [.regs, .pmu, .tx, .grp, .out] s (State.setRole s r) := by
  unfold State.setRole
  repeat' first | simp (disch := decide) only [Touches.refl, Touches.set_grp, Touches.via (State.sendBoth_touches _ _), Touches.via (State.announceService_touches _)] | split | dsimp only | refine .fold ?_ fun _ _ => ?_ | refine .fold1 ?_ fun _ _ => ?_ | refine .fold2 ?_ fun _ _ => ?_

theorem State.resyncChan_touches (s : State) (c : Nat) : Touches [.regs, .pmu, .tx, .grp, .out] s (State.resyncChan s c) := by
  unfold State.resyncChan
  repeat' first | simp (disch := decide) only [Touches.refl, Touches.via (State.updGch_touches _ _ _), Touches.via (State.setRole_touches _ _)] | split | dsimp only | refine .fold ?_ fun _ _ => ?_ | refine .fold1 ?_ fun _ _ => ?_ | refine .fold2 ?_ fun _ _ => ?_

theorem State.resyncAll_touches (s : State) : Touches [.grp] s (State.resyncAll s) := by
  unfold State.resyncAll
  repeat' first | simp (disch := decide) only [Touches.refl, Touches.via (State.updGch_touches _ _ _)] | split | dsimp only | refine .fold ?_ fun _ _ => ?_ | refine .fold1 ?_ fun _ _ => ?_ | refine .fold2 ?_ fun _ _ => ?_

theorem State.startHandover_touches (s : State) (target : Nat) (diverged : List Nat) (leave : Bool) : Touches [.regs, .pmu, .grp, .out] s (State.startHandover s target diverged leave) := by
  unfold State.startHandover
  repeat' first | simp (disch := decide) only [Touches.refl, Touches.set_grp, Touches.via (State.sendAll_touches _ _)] | split | dsimp only | refine .fold ?_ fun _ _ => ?_ | refine .fold1 ?_ fun _ _ => ?_ | refine .fold2 ?_ fun _ _ => ?_

theorem State.selfDemote_touches (s : State) (diverged : List Nat) : Touches [.regs, .pmu, .grp, .out] s (State.selfDemote s diverged) := by
  unfold State.selfDemote
  repeat' first | simp (disch := decide) only [Touches.refl, Touches.via (State.startHandover_touches _ _ _ _)] | split | dsimp only | refine .fold ?_ fun _ _ => ?_ | refine .fold1 ?_ fun _ _ => ?_ | refine .fold2 ?_ fun _ _ => ?_

theorem State.planCopies_touches (s : State) (cs : List Nat) : Touches [.regs, .pmu, .grp, .out] s (State.planCopies s cs) := by
  unfold State.planCopies
  repeat' first | simp (disch := decide) only [Touches.refl, Touches.via (State.updGch_touches _ _ _), Touches.via (State.sendAll_touches _ _)] | split | dsimp only | refine .fold ?_ fun _ _ => ?_ | refine .fold1 ?_ fun _ _ => ?_ | refine .fold2 ?_ fun _ _ => ?_

theorem State.sendCopy_touches (s : State) (c b : Nat) : Touches [.regs, .pmu, .grp, .out] s (State.sendCopy s c b) := by
  unfold State.sendCopy
  repeat' first | simp (disch := decide) only [Touches.refl, Touches.via (State.sendTo_touches _ _ _)] | split | dsimp only | refine .fold ?_ fun _ _ => ?_ | refine .fold1 ?_ fun _ _ => ?_ | refine .fold2 ?_ fun _ _ => ?_

theorem State.captureCopy_touches (s : State) (c n row : Nat) : Touches [.regs, .pmu, .grp, .out] s (State.captureCopy s c n row) := by
  unfold State.captureCopy
  repeat' first | simp (disch := decide) only [Touches.refl, Touches.via (State.sendCopy_touches _ _ _)] | split | dsimp only | refine .fold ?_ fun _ _ => ?_ | refine .fold1 ?_ fun _ _ => ?_ | refine .fold2 ?_ fun _ _ => ?_

theorem State.copySlots_touches (s : State) (c n : Nat) (before : Tab Nat) : Touches [.regs, .pmu, .grp, .out] s (State.copySlots s c n before) := by
  unfold State.copySlots
  repeat' first | simp (disch := decide) only [State.onChan, Touches.refl, Touches.via (State.sendCopy_touches _ _ _)] | split | dsimp only | refine .fold ?_ fun _ _ => ?_ | refine .fold1 ?_ fun _ _ => ?_ | refine .fold2 ?_ fun _ _ => ?_

theorem State.planNeeded_touches (s : State) : Touches [.regs, .pmu, .grp, .out] s (State.planNeeded s) := by
  unfold State.planNeeded
  repeat' first | simp (disch := decide) only [Touches.refl, Touches.via (State.planCopies_touches _ _)] | split | dsimp only | refine .fold ?_ fun _ _ => ?_ | refine .fold1 ?_ fun _ _ => ?_ | refine .fold2 ?_ fun _ _ => ?_

theorem State.setRefresh_touches (s : State) (c n : Nat) : Touches [.chans, .grp] s (State.setRefresh s c n) := by
  unfold State.setRefresh
  repeat' first | simp (disch := decide) only [State.onChan, Touches.refl, Touches.via (State.updGch_touches _ _ _), Touches.via (State.updChan_touches _ _ _)] | split | dsimp only | refine .fold ?_ fun _ _ => ?_ | refine .fold1 ?_ fun _ _ => ?_ | refine .fold2 ?_ fun _ _ => ?_

theorem State.nameRefresh_touches (s : State) (c : Nat) : Touches [.regs, .pmu, .chans, .grp, .out] s (State.nameRefresh s c) := by
  unfold State.nameRefresh
  repeat' first | simp (disch := decide) only [State.onChan, Touches.refl, Touches.via (State.setRefresh_touches _ _ _), Touches.via (State.sendAll_touches _ _)] | split | dsimp only | refine .fold ?_ fun _ _ => ?_ | refine .fold1 ?_ fun _ _ => ?_ | refine .fold2 ?_ fun _ _ => ?_

theorem State.restartRefresh_touches (s : State) (c : Nat) : Touches [.regs, .pmu, .chans, .grp, .out] s (State.restartRefresh s c) := by
  unfold State.restartRefresh
  repeat' first | simp (disch := decide) only [Touches.refl, Touches.via (State.updGch_touches _ _ _), Touches.via (State.nameRefresh_touches _ _), Touches.via (State.sticky_touches _ _ _)] | split | dsimp only | refine .fold ?_ fun _ _ => ?_ | refine .fold1 ?_ fun _ _ => ?_ | refine .fold2 ?_ fun _ _ => ?_

theorem State.outvoted_touches (s : State) (c : Nat) (bs : List Ballot) (right : BitVec 64 × Word) : Touches [.regs, .pmu, .tx, .grp, .out] s (State.outvoted s c bs right) := by
  unfold State.outvoted
  repeat' first | simp (disch := decide) only [Touches.refl, Touches.via (State.updGch_touches _ _ _), Touches.via (State.bump_touches _ _), Touches.via (State.resyncChan_touches _ _), Touches.via (State.startHandover_touches _ _ _ _), Touches.via (State.sticky_touches _ _ _)] | split | dsimp only | refine .fold ?_ fun _ _ => ?_ | refine .fold1 ?_ fun _ _ => ?_ | refine .fold2 ?_ fun _ _ => ?_

theorem State.confirmVote_touches (s : State) (c j : Nat) (matched : Bool) : Touches [.regs, .pmu, .chans, .grp, .out] s (State.confirmVote s c j matched) := by
  unfold State.confirmVote
  repeat' first | simp (disch := decide) only [Touches.refl, Touches.via (State.updGch_touches _ _ _), Touches.via (State.restartRefresh_touches _ _)] | split | dsimp only | refine .fold ?_ fun _ _ => ?_ | refine .fold1 ?_ fun _ _ => ?_ | refine .fold2 ?_ fun _ _ => ?_

theorem State.peerConfirm_touches (s : State) (c n j : Nat) (right : BitVec 64 × Word) : Touches [.regs, .pmu, .chans, .grp, .out] s (State.peerConfirm s c n j right) := by
  unfold State.peerConfirm
  repeat' first | simp (disch := decide) only [Touches.refl, Touches.via (State.restartRefresh_touches _ _)] | split | dsimp only | refine .fold ?_ fun _ _ => ?_ | refine .fold1 ?_ fun _ _ => ?_ | refine .fold2 ?_ fun _ _ => ?_

theorem State.finishResync_touches (s : State) : Touches [.regs, .pmu, .tx, .grp, .out] s (State.finishResync s) := by
  unfold State.finishResync
  repeat' first | simp (disch := decide) only [Touches.refl, Touches.via (State.bump_touches _ _), Touches.via (State.setRole_touches _ _), Touches.via (State.sendAll_touches _ _), Touches.via (State.sticky_touches _ _ _)] | split | dsimp only | refine .fold ?_ fun _ _ => ?_ | refine .fold1 ?_ fun _ _ => ?_ | refine .fold2 ?_ fun _ _ => ?_

theorem State.vote_touches (s : State) (c n j : Nat) : Touches [.regs, .pmu, .chans, .tx, .grp, .out] s (State.vote s c n j) := by
  unfold State.vote
  repeat' first | simp (disch := decide) only [Touches.refl, Touches.via (State.updGch_touches _ _ _), Touches.via (State.resyncChan_touches _ _), Touches.via (State.finishResync_touches _), Touches.via (State.peerConfirm_touches _ _ _ _ _), Touches.via (State.wr_touches _ _ _), Touches.via (State.confirmVote_touches _ _ _ _), Touches.via (State.outvoted_touches _ _ _ _)] | split | dsimp only | refine .fold ?_ fun _ _ => ?_ | refine .fold1 ?_ fun _ _ => ?_ | refine .fold2 ?_ fun _ _ => ?_

theorem State.sweepFailCount_touches (s : State) (c : Nat) : Touches [.regs] s (State.sweepFailCount s c) := by
  unfold State.sweepFailCount
  repeat' first | simp (disch := decide) only [Touches.refl, Touches.via (State.bump_touches _ _), Touches.via (State.sticky_touches _ _ _)] | split | dsimp only | refine .fold ?_ fun _ _ => ?_ | refine .fold1 ?_ fun _ _ => ?_ | refine .fold2 ?_ fun _ _ => ?_

theorem State.sweepAbandon_touches (s : State) (c n : Nat) (w : Sweep) : Touches [.regs, .chans] s (State.sweepAbandon s c n w) := by
  unfold State.sweepAbandon
  repeat' first | simp (disch := decide) only [State.onChan, Touches.refl, Touches.via (State.updChan_touches _ _ _), Touches.via (State.sweepFailCount_touches _ _), Touches.via (State.sticky_touches _ _ _)] | split | dsimp only | refine .fold ?_ fun _ _ => ?_ | refine .fold1 ?_ fun _ _ => ?_ | refine .fold2 ?_ fun _ _ => ?_

theorem State.sweepMissed_touches (s : State) (c n : Nat) : Touches [.regs, .chans] s (State.sweepMissed s c n) := by
  unfold State.sweepMissed
  repeat' first | simp (disch := decide) only [State.onChan, Touches.refl, Touches.via (State.updChan_touches _ _ _), Touches.via (State.sweepAbandon_touches _ _ _ _)] | split | dsimp only | refine .fold ?_ fun _ _ => ?_ | refine .fold1 ?_ fun _ _ => ?_ | refine .fold2 ?_ fun _ _ => ?_

theorem State.sweepEnd_touches (s : State) (c n : Nat) : Touches [.regs, .chans] s (State.sweepEnd s c n) := by
  unfold State.sweepEnd
  repeat' first | simp (disch := decide) only [State.onChan, Touches.refl, Touches.via (State.sweepAbandon_touches _ _ _ _)] | split | dsimp only | refine .fold ?_ fun _ _ => ?_ | refine .fold1 ?_ fun _ _ => ?_ | refine .fold2 ?_ fun _ _ => ?_

theorem State.sweepDone_touches (s : State) (c n : Nat) : Touches [.regs, .chans] s (State.sweepDone s c n) := by
  unfold State.sweepDone
  repeat' first | simp (disch := decide) only [State.onChan, Touches.refl, Touches.via (State.updChan_touches _ _ _), Touches.via (State.bump_touches _ _), Touches.via (State.sticky_touches _ _ _)] | split | dsimp only | refine .fold ?_ fun _ _ => ?_ | refine .fold1 ?_ fun _ _ => ?_ | refine .fold2 ?_ fun _ _ => ?_

theorem State.flipsAt_touches (s : State) (c n lag : Nat) (chosen : List Nat) : Touches [.regs, .log, .logSeq, .mbx, .chans, .out] s (State.flipsAt s c n lag chosen) := by
  unfold State.flipsAt
  repeat' first | simp (disch := decide) only [State.onChan, Touches.refl, Touches.via (State.updChan_touches _ _ _), Touches.via (State.bump_touches _ _), Touches.via (State.raise_touches _ _ _ _ _), Touches.via (State.sticky_touches _ _ _)] | split | dsimp only | refine .fold ?_ fun _ _ => ?_ | refine .fold1 ?_ fun _ _ => ?_ | refine .fold2 ?_ fun _ _ => ?_

theorem State.tellFlips_touches (s : State) (c : Nat) : Touches [.regs, .chans] s (State.tellFlips s c) := by
  unfold State.tellFlips
  repeat' first | simp (disch := decide) only [State.onChan, Touches.refl, Touches.via (State.updChan_touches _ _ _), Touches.via (State.bump_touches _ _), Touches.via (State.sticky_touches _ _ _)] | split | dsimp only | refine .fold ?_ fun _ _ => ?_ | refine .fold1 ?_ fun _ _ => ?_ | refine .fold2 ?_ fun _ _ => ?_

theorem State.protRun_touches (s : State) (c n : Nat) (k : ProtCheck) (p : Protected) : Touches [.regs, .log, .logSeq, .mbx, .pmu, .chans, .grp, .out] s (State.protRun s c n k p) := by
  unfold State.protRun
  repeat' first | simp (disch := decide) only [State.when, Touches.refl, Touches.via (State.updChan_touches _ _ _), Touches.via (State.bumpBy_touches _ _ _), Touches.via (State.raise_touches _ _ _ _ _), Touches.via (State.setFault_touches _ _ _ _), Touches.via (State.selfDemote_touches _ _), Touches.via (State.sticky_touches _ _ _)] | split | dsimp only | refine .fold ?_ fun _ _ => ?_ | refine .fold1 ?_ fun _ _ => ?_ | refine .fold2 ?_ fun _ _ => ?_

theorem State.protAt_touches (s : State) (c n : Nat) (k : ProtCheck) : Touches [.regs, .log, .logSeq, .mbx, .pmu, .chans, .grp, .out] s (State.protAt s c n k) := by
  unfold State.protAt
  repeat' first | simp (disch := decide) only [State.onChan, Touches.refl, Touches.via (State.updChan_touches _ _ _), Touches.via (State.protRun_touches _ _ _ _ _)] | split | dsimp only | refine .fold ?_ fun _ _ => ?_ | refine .fold1 ?_ fun _ _ => ?_ | refine .fold2 ?_ fun _ _ => ?_

theorem State.commitShadow_touches (s : State) (c n : Nat) (ch : Chan) : Touches [.chans, .grp] s (State.commitShadow s c n ch) := by
  unfold State.commitShadow
  repeat' first | simp (disch := decide) only [Touches.refl, Touches.via (State.updGch_touches _ _ _), Touches.via (State.updChan_touches _ _ _)] | split | dsimp only | refine .fold ?_ fun _ _ => ?_ | refine .fold1 ?_ fun _ _ => ?_ | refine .fold2 ?_ fun _ _ => ?_

theorem State.commitAt_touches (s : State) (c n : Nat) (start : Bool) : Touches [.regs, .chans, .grp] s (State.commitAt s c n start) := by
  unfold State.commitAt
  repeat' first | simp (disch := decide) only [State.onChan, Touches.refl, Touches.via (State.updGch_touches _ _ _), Touches.via (State.updChan_touches _ _ _), Touches.via (State.commitShadow_touches _ _ _ _), Touches.via (State.sticky_touches _ _ _)] | split | dsimp only | refine .fold ?_ fun _ _ => ?_ | refine .fold1 ?_ fun _ _ => ?_ | refine .fold2 ?_ fun _ _ => ?_

theorem State.formPic_touches (s : State) (c n ceiling : Nat) (start disc : Bool) : Touches [.regs, .chans] s (State.formPic s c n ceiling start disc) := by
  unfold State.formPic State.onChan
  split
  · exact .refl _ _
  · beta_reduce
    extract_lets
    have b : ∀ (t : State) o, Touches [.regs, .chans] t (t.bump o) := fun t o => (State.bump_touches t o).mono (by decide)
    have bb : ∀ (t : State) o k, Touches [.regs, .chans] t (t.bumpBy o k) := fun t o k => (State.bumpBy_touches t o k).mono (by decide)
    have k : ∀ (t : State) o w, Touches [.regs, .chans] t (t.sticky o w) := fun t o w => (State.sticky_touches t o w).mono (by decide)
    refine .trans ?_ (State.when_touches ?_ _ _); rotate_left
    · exact fun t => k ..
    refine .trans ?_ (State.when_touches ?_ _ _); rotate_left
    · exact fun t => (bb ..).trans (k ..)
    refine .trans ?_ (State.when_touches ?_ _ _); rotate_left
    · exact fun t => (bb ..).trans (k ..)
    refine .trans ?_ (State.when_touches ?_ _ _); rotate_left
    · exact fun t => (b ..).trans (k ..)
    exact (State.setChan_touches ..).mono (by decide)

theorem State.ceilingAt_touches (s : State) (c n : Nat) : Touches [.regs, .pwr, .chans] s (State.ceilingAt s c n).1 := by
  unfold State.ceilingAt
  repeat' first | simp (disch := decide) only [Touches.refl, Touches.via (State.updChan_touches _ _ _), Touches.via (State.decideTier_touches _ _ _ _)] | split | dsimp only | refine .fold ?_ fun _ _ => ?_ | refine .fold1 ?_ fun _ _ => ?_ | refine .fold2 ?_ fun _ _ => ?_

theorem State.decideAt_touches (s : State) (c n tier : Nat) : Touches [.chans, .grp] s (State.decideAt s c n tier) := by
  unfold State.decideAt
  repeat' first | simp (disch := decide) only [State.onChan, State.when, Touches.refl, Touches.via (State.updGch_touches _ _ _), Touches.via (State.updChan_touches _ _ _)] | split | dsimp only | refine .fold ?_ fun _ _ => ?_ | refine .fold1 ?_ fun _ _ => ?_ | refine .fold2 ?_ fun _ _ => ?_

theorem State.layersAt_touches (s : State) (c n : Nat) : Touches [.regs, .log, .logSeq, .mbx, .chans, .out] s (State.layersAt s c n) := by
  unfold State.layersAt
  repeat' first | simp (disch := decide) only [State.onChan, Touches.refl, Touches.via (State.updChan_touches _ _ _), Touches.via (State.flipsAt_touches _ _ _ _ _)] | split | dsimp only | refine .fold ?_ fun _ _ => ?_ | refine .fold1 ?_ fun _ _ => ?_ | refine .fold2 ?_ fun _ _ => ?_

theorem State.votesDue_touches (s : State) (c n : Nat) : Touches [.regs, .pmu, .chans, .tx, .grp, .out] s (State.votesDue s c n) := by
  unfold State.votesDue
  repeat' first | simp (disch := decide) only [State.onChan, Touches.refl, Touches.via (State.updGch_touches _ _ _), Touches.via (State.vote_touches _ _ _ _)] | split | dsimp only | refine .fold ?_ fun _ _ => ?_ | refine .fold1 ?_ fun _ _ => ?_ | refine .fold2 ?_ fun _ _ => ?_

theorem State.beginPic_touches (s : State) (c n : Nat) (k : ProtCheck) (start disc : Bool) : Touches [.regs, .log, .logSeq, .mbx, .pmu, .chans, .grp, .out] s (State.beginPic s c n k start disc) := by
  unfold State.beginPic
  repeat' first | simp (disch := decide) only [State.onChan, State.when, Touches.refl, Touches.via (State.commitAt_touches _ _ _ _), Touches.via (State.updChan_touches _ _ _), Touches.via (State.layersAt_touches _ _ _), Touches.via (State.tellFlips_touches _ _), Touches.via (State.protAt_touches _ _ _ _), Touches.via (State.copySlots_touches _ _ _ _), Touches.via (State.setFault_touches _ _ _ _), Touches.via (State.formPic_touches _ _ _ _ _ _)] | split | dsimp only | refine .fold ?_ fun _ _ => ?_ | refine .fold1 ?_ fun _ _ => ?_ | refine .fold2 ?_ fun _ _ => ?_

theorem State.boundaryRun_touches (s : State) (c n : Nat) (k : ProtCheck) (disc : Bool) : Touches [.regs, .log, .logSeq, .mbx, .pmu, .pwr, .chans, .tx, .grp, .out] s (State.boundaryRun s c n k disc) := by
  unfold State.boundaryRun
  repeat' first | simp (disch := decide) only [State.onChan, State.when, Touches.refl, Touches.via (State.updGch_touches _ _ _), Touches.via (State.updChan_touches _ _ _), Touches.via (State.decideAt_touches _ _ _ _), Touches.via (State.beginPic_touches _ _ _ _ _ _), Touches.via (State.ceilingAt_touches _ _ _), Touches.via (State.votesDue_touches _ _ _)] | split | dsimp only | refine .fold ?_ fun _ _ => ?_ | refine .fold1 ?_ fun _ _ => ?_ | refine .fold2 ?_ fun _ _ => ?_

theorem State.takeStepPic_touches (s : State) (c n : Nat) : Touches [.chans] s (State.takeStepPic s c n) := by
  unfold State.takeStepPic
  repeat' first | simp (disch := decide) only [Touches.refl, Touches.via (State.updChan_touches _ _ _)] | split | dsimp only | refine .fold ?_ fun _ _ => ?_ | refine .fold1 ?_ fun _ _ => ?_ | refine .fold2 ?_ fun _ _ => ?_

theorem State.boundary_touches (s : State) (c : Nat) (k : ProtCheck) : Touches [.regs, .log, .logSeq, .mbx, .pmu, .pwr, .chans, .tx, .grp, .out] s (State.boundary s c k) := by
  unfold State.boundary
  repeat' first | simp (disch := decide) only [State.onChan, Touches.refl, Touches.via (State.takeStepPic_touches _ _ _), Touches.via (State.boundaryRun_touches _ _ _ _ _)] | split | dsimp only | refine .fold ?_ fun _ _ => ?_ | refine .fold1 ?_ fun _ _ => ?_ | refine .fold2 ?_ fun _ _ => ?_

theorem execPictureBoundary_touches (c : Nat) (prot : ProtCheck) (s : State) : Touches [.regs, .log, .logSeq, .mbx, .pmu, .pwr, .chans, .tx, .grp, .out] s (outState s (execPictureBoundary c prot s)) := by
  unfold execPictureBoundary
  repeat' first | simp (disch := decide) only [outState, Touches.refl, Touches.via (State.boundary_touches _ _ _)] | split | dsimp only | refine .fold ?_ fun _ _ => ?_ | refine .fold1 ?_ fun _ _ => ?_ | refine .fold2 ?_ fun _ _ => ?_

end Sys2Proof.Machine
end

