-- ==== Sys2Proof/Laws/TouchLink.lean ====
section
/-!
SUPPORT. What the operations of RatOps, Mailbox, Clock, Shaper, FlowTable, Audio, Ingest touch: one frame for each.
-/
set_option linter.all false
namespace Sys2Proof.Machine
open Sys2Proof

theorem State.ratPump_touches (a0 : Nat) (a1 : State) (a2 : Nat) : Touches [.regs, .pmu, .rat, .out] a1 (State.ratPump a0 a1 a2) := by
  induction a0 generalizing a1 a2 with
  | zero => exact .refl _ _
  | succ k ih =>
    unfold State.ratPump
    repeat' first | simp (disch := decide) only [Touches.refl, Touches.via (ih _ _), Touches.set_rat, Touches.via (State.emit_touches _ _), Touches.via (State.pmuEvent_touches _ _ _)] | split | dsimp only | refine .fold ?_ fun _ _ => ?_ | refine .fold1 ?_ fun _ _ => ?_ | refine .fold2 ?_ fun _ _ => ?_

theorem State.ratOut_touches (s : State) (port : Nat) (f : RatFrame) : Touches [.regs, .pmu, .rat, .out] s (State.ratOut s port f) := by
  unfold State.ratOut
  repeat' first | simp (disch := decide) only [Touches.refl, Touches.set_rat, Touches.via (State.ratPump_touches _ _ _)] | split | dsimp only | refine .fold ?_ fun _ _ => ?_ | refine .fold1 ?_ fun _ _ => ?_ | refine .fold2 ?_ fun _ _ => ?_

theorem State.ratSendAs_touches (s : State) (dst seq : Nat) (m : RatMsg) : Touches [.regs, .pmu, .rat, .out] s (State.ratSendAs s dst seq m) := by
  unfold State.ratSendAs
  repeat' first | simp (disch := decide) only [Touches.refl, Touches.via (State.ratOut_touches _ _ _)] | split | dsimp only | refine .fold ?_ fun _ _ => ?_ | refine .fold1 ?_ fun _ _ => ?_ | refine .fold2 ?_ fun _ _ => ?_

theorem State.ratNext_touches (s : State) : Touches [.rat] s (State.ratNext s) := by
  unfold State.ratNext
  repeat' first | simp (disch := decide) only [Touches.refl, Touches.set_rat] | split | dsimp only | refine .fold ?_ fun _ _ => ?_ | refine .fold1 ?_ fun _ _ => ?_ | refine .fold2 ?_ fun _ _ => ?_

theorem State.ratSend_touches (s : State) (dst : Nat) (m : RatMsg) : Touches [.regs, .pmu, .rat, .out] s (State.ratSend s dst m) := by
  unfold State.ratSend
  repeat' first | simp (disch := decide) only [Touches.refl, Touches.via (State.ratNext_touches _), Touches.via (State.ratSendAs_touches _ _ _ _)] | split | dsimp only | refine .fold ?_ fun _ _ => ?_ | refine .fold1 ?_ fun _ _ => ?_ | refine .fold2 ?_ fun _ _ => ?_

theorem State.queueWord_touches (s : State) (p : Nat) (w : Word) : Touches [.mbx] s (State.queueWord s p w) := by
  unfold State.queueWord
  repeat' first | simp (disch := decide) only [Touches.refl, Touches.set_mbx] | split | dsimp only | refine .fold ?_ fun _ _ => ?_ | refine .fold1 ?_ fun _ _ => ?_ | refine .fold2 ?_ fun _ _ => ?_

theorem State.postWord_touches (s : State) (p : Nat) : Touches [.regs, .mbx, .out] s (State.postWord s p) := by
  unfold State.postWord
  repeat' first | simp (disch := decide) only [Touches.refl, Touches.set_mbx, Touches.via (State.hist_touches _ _ _ _), Touches.via (State.signal_touches _ _)] | split | dsimp only | refine .fold ?_ fun _ _ => ?_ | refine .fold1 ?_ fun _ _ => ?_ | refine .fold2 ?_ fun _ _ => ?_

theorem State.takeWord_touches (s : State) (p : Nat) : Touches [.mbx, .out] s (State.takeWord s p) := by
  unfold State.takeWord
  repeat' first | simp (disch := decide) only [Touches.refl, Touches.set_mbx, Touches.via (State.signal_touches _ _)] | split | dsimp only | refine .fold ?_ fun _ _ => ?_ | refine .fold1 ?_ fun _ _ => ?_ | refine .fold2 ?_ fun _ _ => ?_

theorem State.serveWord_touches (s : State) (p : Nat) : Touches [.mbx, .out] s (State.serveWord s p) := by
  unfold State.serveWord
  repeat' first | simp (disch := decide) only [Touches.refl, Touches.set_mbx, Touches.via (State.takeWord_touches _ _)] | split | dsimp only | refine .fold ?_ fun _ _ => ?_ | refine .fold1 ?_ fun _ _ => ?_ | refine .fold2 ?_ fun _ _ => ?_

theorem State.refuseWord_touches (s : State) (p tag status : Nat) : Touches [.mbx] s (State.refuseWord s p tag status) := by
  unfold State.refuseWord
  repeat' first | simp (disch := decide) only [Touches.refl, Touches.via (State.queueWord_touches _ _ _)] | split | dsimp only | refine .fold ?_ fun _ _ => ?_ | refine .fold1 ?_ fun _ _ => ?_ | refine .fold2 ?_ fun _ _ => ?_

theorem State.loseWord_touches (s : State) (p : Nat) (w : Word) : Touches [.regs, .mbx] s (State.loseWord s p w) := by
  unfold State.loseWord
  repeat' first | simp (disch := decide) only [Touches.refl, Touches.set_mbx, Touches.via (State.bump_touches _ _), Touches.via (State.queueWord_touches _ _ _)] | split | dsimp only | refine .fold ?_ fun _ _ => ?_ | refine .fold1 ?_ fun _ _ => ?_ | refine .fold2 ?_ fun _ _ => ?_

theorem State.complete_touches (s : State) (o : CmdOrigin) (c : Completion) (silent : Bool) : Touches [.regs, .mbx, .pmu, .rat, .out] s (State.complete s o c silent) := by
  unfold State.complete
  repeat' first | simp (disch := decide) only [Touches.refl, Touches.set_mbx, Touches.via (State.queueWord_touches _ _ _), Touches.via (State.ratSend_touches _ _ _)] | split | dsimp only | refine .fold ?_ fun _ _ => ?_ | refine .fold1 ?_ fun _ _ => ?_ | refine .fold2 ?_ fun _ _ => ?_

theorem State.windowRead_touches (s : State) (off len : Nat) : Touches [.out] s (State.windowRead s off len) := by
  unfold State.windowRead
  repeat' first | simp (disch := decide) only [Touches.refl, Touches.via (State.emit_touches _ _)] | split | dsimp only | refine .fold ?_ fun _ _ => ?_ | refine .fold1 ?_ fun _ _ => ?_ | refine .fold2 ?_ fun _ _ => ?_

theorem State.windowWrite_touches (s : State) (off : Nat) (d : List Byte) : Touches [.regs, .mbx] s (State.windowWrite s off d) := by
  unfold State.windowWrite
  repeat' first | simp (disch := decide) only [Touches.refl, Touches.set_mbx, Touches.via (State.badAccess_touches _)] | split | dsimp only | refine .fold ?_ fun _ _ => ?_ | refine .fold1 ?_ fun _ _ => ?_ | refine .fold2 ?_ fun _ _ => ?_

theorem State.setJournal_touches (s : State) (x : CmdCtx) (j : Tab JEntry) : Touches [.mbx, .rat] s (State.setJournal s x j) := by
  unfold State.setJournal
  repeat' first | simp (disch := decide) only [Touches.refl, Touches.set_mbx, Touches.set_rat] | split | dsimp only | refine .fold ?_ fun _ _ => ?_ | refine .fold1 ?_ fun _ _ => ?_ | refine .fold2 ?_ fun _ _ => ?_

theorem State.dropCompletions_touches (s : State) (p : Nat) : Touches [.mbx] s (State.dropCompletions s p) := by
  unfold State.dropCompletions
  repeat' first | simp (disch := decide) only [Touches.refl, Touches.set_mbx] | split | dsimp only | refine .fold ?_ fun _ _ => ?_ | refine .fold1 ?_ fun _ _ => ?_ | refine .fold2 ?_ fun _ _ => ?_

theorem State.shutSession_touches (s : State) (p : Nat) (reason : Option Nat) : Touches [.regs, .mbx, .out] s (State.shutSession s p reason) := by
  unfold State.shutSession
  repeat' first | simp (disch := decide) only [Touches.refl, Touches.set_mbx, Touches.via (State.takeWord_touches _ _), Touches.via (State.queueWord_touches _ _ _), Touches.via (State.sticky_touches _ _ _), Touches.via (State.loseWord_touches _ _ _)] | split | dsimp only | refine .fold ?_ fun _ _ => ?_ | refine .fold1 ?_ fun _ _ => ?_ | refine .fold2 ?_ fun _ _ => ?_

theorem State.closeSession_touches (s : State) (p : Nat) (reason : Option Nat) : Touches [.regs, .mbx, .out] s (State.closeSession s p reason) := by
  unfold State.closeSession
  repeat' first | simp (disch := decide) only [Touches.refl, Touches.via (State.shutSession_touches _ _ _), Touches.via (State.dropCompletions_touches _ _)] | split | dsimp only | refine .fold ?_ fun _ _ => ?_ | refine .fold1 ?_ fun _ _ => ?_ | refine .fold2 ?_ fun _ _ => ?_

theorem State.doSessionOpen_touches (s : State) (p : SessionOpenArg) : Touches [.mbx, .fresh] s (State.doSessionOpen s p).st := by
  unfold State.doSessionOpen
  repeat' first | simp (disch := decide) only [State.checked, Touches.refl, State.reply_st, Touches.set_mbx_fresh] | split | dsimp only | refine .fold ?_ fun _ _ => ?_ | refine .fold1 ?_ fun _ _ => ?_ | refine .fold2 ?_ fun _ _ => ?_

theorem State.failProof_touches (s : State) (slot : Nat) : Touches [.mbx] s (State.failProof s slot) := by
  unfold State.failProof
  repeat' first | simp (disch := decide) only [Touches.refl, Touches.set_mbx] | split | dsimp only | refine .fold ?_ fun _ _ => ?_ | refine .fold1 ?_ fun _ _ => ?_ | refine .fold2 ?_ fun _ _ => ?_

theorem State.doSessionProve_touches (s : State) (p : SessionProveArg) : Touches [.regs, .mbx, .out] s (State.doSessionProve s p).st := by
  unfold State.doSessionProve
  repeat' first | simp (disch := decide) only [Touches.refl, State.reply_st, Touches.set_mbx, Touches.via (State.failProof_touches _ _), Touches.via (State.closeSession_touches _ _ _)] | split | dsimp only | refine .fold ?_ fun _ _ => ?_ | refine .fold1 ?_ fun _ _ => ?_ | refine .fold2 ?_ fun _ _ => ?_

theorem State.doSessionClose_touches (s : State) (x : CmdCtx) : Touches [] s (State.doSessionClose s x).st := by
  unfold State.doSessionClose
  repeat' first | simp (disch := decide) only [Touches.refl] | split | dsimp only | refine .fold ?_ fun _ _ => ?_ | refine .fold1 ?_ fun _ _ => ?_ | refine .fold2 ?_ fun _ _ => ?_

theorem State.doCompletionFetch_touches (s : State) (x : CmdCtx) (q : Nat) : Touches [] s (State.doCompletionFetch s x q).st := by
  unfold State.doCompletionFetch
  repeat' first | simp (disch := decide) only [Touches.refl] | split | dsimp only | refine .fold ?_ fun _ _ => ?_ | refine .fold1 ?_ fun _ _ => ?_ | refine .fold2 ?_ fun _ _ => ?_

theorem State.doKeyWrite_touches (s : State) (p : KeyWriteArg) : Touches [.dev, .mbx] s (State.doKeyWrite s p).st := by
  unfold State.doKeyWrite
  repeat' first | simp (disch := decide) only [State.checked, Touches.refl, Touches.set_dev_mbx] | split | dsimp only | refine .fold ?_ fun _ _ => ?_ | refine .fold1 ?_ fun _ _ => ?_ | refine .fold2 ?_ fun _ _ => ?_

theorem State.finishHeld_touches (s : State) (h : HeldCmd) (op status : Nat) (d : List Byte) : Touches [.regs, .mbx, .pmu, .rat, .out] s (State.finishHeld s h op status d) := by
  unfold State.finishHeld
  repeat' first | simp (disch := decide) only [Touches.refl, Touches.set_mbx, Touches.via (State.setJournal_touches _ _ _), Touches.via (State.complete_touches _ _ _ _)] | split | dsimp only | refine .fold ?_ fun _ _ => ?_ | refine .fold1 ?_ fun _ _ => ?_ | refine .fold2 ?_ fun _ _ => ?_

theorem State.settleShutdown_touches (s : State) : Touches [.regs, .dev, .mbx, .pmu, .rat, .out] s (State.settleShutdown s) := by
  unfold State.settleShutdown
  repeat' first | simp (disch := decide) only [Touches.refl, Touches.set_dev, Touches.via (State.finishHeld_touches _ _ _ _ _)] | split | dsimp only | refine .fold ?_ fun _ _ => ?_ | refine .fold1 ?_ fun _ _ => ?_ | refine .fold2 ?_ fun _ _ => ?_

theorem State.settleJoin_touches (s : State) : Touches [.regs, .mbx, .pmu, .rat, .out] s (State.settleJoin s) := by
  unfold State.settleJoin
  repeat' first | simp (disch := decide) only [Touches.refl, Touches.via (State.finishHeld_touches _ _ _ _ _)] | split | dsimp only | refine .fold ?_ fun _ _ => ?_ | refine .fold1 ?_ fun _ _ => ?_ | refine .fold2 ?_ fun _ _ => ?_

theorem execMbxH2dWrite_touches (p : Nat) (w : Word) (s : State) : Touches [.regs, .mbx, .out] s (outState s (execMbxH2dWrite p w s)) := by
  unfold execMbxH2dWrite
  repeat' first | simp (disch := decide) only [State.barWrite, outState, Touches.refl, Touches.set_mbx, Touches.via (State.bump_touches _ _), Touches.via (State.signal_touches _ _), Touches.via (State.sticky_touches _ _ _), Touches.via (State.unsupported_touches _), Touches.via (State.badAccess_touches _), Touches.via (State.emit_touches _ _)] | split | dsimp only | refine .fold ?_ fun _ _ => ?_ | refine .fold1 ?_ fun _ _ => ?_ | refine .fold2 ?_ fun _ _ => ?_

theorem execMbxD2hRead_touches (p : Nat) (s : State) : Touches [.mbx, .out] s (outState s (execMbxD2hRead p s)) := by
  unfold execMbxD2hRead
  repeat' first | simp (disch := decide) only [State.barRead, outState, Touches.refl, Touches.set_mbx, Touches.via (State.emit_touches _ _), Touches.via (State.badAccess_touches _), Touches.via (State.unsupported_touches _)] | split | dsimp only | refine .fold ?_ fun _ _ => ?_ | refine .fold1 ?_ fun _ _ => ?_ | refine .fold2 ?_ fun _ _ => ?_

theorem execD2hQueuePost_touches (p : Nat) (s : State) : Touches [.regs, .mbx, .out] s (outState s (execD2hQueuePost p s)) := by
  unfold execD2hQueuePost
  repeat' first | simp (disch := decide) only [outState, Touches.refl, Touches.via (State.postWord_touches _ _)] | split | dsimp only | refine .fold ?_ fun _ _ => ?_ | refine .fold1 ?_ fun _ _ => ?_ | refine .fold2 ?_ fun _ _ => ?_

theorem execPing_touches (p : Nat) (s : State) : Touches [.mbx, .out] s (outState s (execPing p s)) := by
  unfold execPing
  repeat' first | simp (disch := decide) only [outState, Touches.refl, Touches.via (State.serveWord_touches _ _), Touches.via (State.refuseWord_touches _ _ _ _), Touches.via (State.queueWord_touches _ _ _)] | split | dsimp only | refine .fold ?_ fun _ _ => ?_ | refine .fold1 ?_ fun _ _ => ?_ | refine .fold2 ?_ fun _ _ => ?_

theorem execSessionIdleTimeout_touches (p : Nat) (s : State) : Touches [.regs, .mbx, .out] s (outState s (execSessionIdleTimeout p s)) := by
  unfold execSessionIdleTimeout
  repeat' first | simp (disch := decide) only [outState, Touches.refl, Touches.via (State.closeSession_touches _ _ _)] | split | dsimp only | refine .fold ?_ fun _ _ => ?_ | refine .fold1 ?_ fun _ _ => ?_ | refine .fold2 ?_ fun _ _ => ?_

theorem execNonceExpiry_touches (nonce : BitVec 128) (s : State) : Touches [.mbx] s (outState s (execNonceExpiry nonce s)) := by
  unfold execNonceExpiry
  repeat' first | simp (disch := decide) only [outState, Touches.refl, Touches.set_mbx] | split | dsimp only | refine .fold ?_ fun _ _ => ?_ | refine .fold1 ?_ fun _ _ => ?_ | refine .fold2 ?_ fun _ _ => ?_

theorem execSlotLockExpiry_touches (slot : Nat) (s : State) : Touches [.mbx] s (outState s (execSlotLockExpiry slot s)) := by
  unfold execSlotLockExpiry
  repeat' first | simp (disch := decide) only [outState, Touches.refl, Touches.set_mbx] | split | dsimp only | refine .fold ?_ fun _ _ => ?_ | refine .fold1 ?_ fun _ _ => ?_ | refine .fold2 ?_ fun _ _ => ?_

theorem State.idle_touches (s : State) : Touches [.time] s (State.idle s) := by
  unfold State.idle
  repeat' first | simp (disch := decide) only [Touches.refl, Touches.set_time] | split | dsimp only | refine .fold ?_ fun _ _ => ?_ | refine .fold1 ?_ fun _ _ => ?_ | refine .fold2 ?_ fun _ _ => ?_

theorem execTimeNowNsRead_touches (s : State) : Touches [.regs, .time, .mbx, .out] s (outState s (execTimeNowNsRead s)) := by
  unfold execTimeNowNsRead
  repeat' first | simp (disch := decide) only [State.hostRead, State.barRead, outState, Touches.refl, Touches.set_time, Touches.via (State.emit_touches _ _), Touches.via (State.badAccess_touches _), Touches.via (State.unsupported_touches _)] | split | dsimp only | refine .fold ?_ fun _ _ => ?_ | refine .fold1 ?_ fun _ _ => ?_ | refine .fold2 ?_ fun _ _ => ?_

theorem State.stepClock_touches (s : State) (o : Int) (a : Nat) : Touches [.regs, .time, .log, .logSeq, .mbx, .chans, .out] s (State.stepClock s o a) := by
  unfold State.stepClock
  repeat' first | simp (disch := decide) only [Touches.refl, Touches.set_time_chans, Touches.via (State.bump_touches _ _), Touches.via (State.raise_touches _ _ _ _ _), Touches.via (State.sticky_touches _ _ _)] | split | dsimp only | refine .fold ?_ fun _ _ => ?_ | refine .fold1 ?_ fun _ _ => ?_ | refine .fold2 ?_ fun _ _ => ?_

theorem State.offset_touches (s : State) (o : Int) (tag : Nat) : Touches [.regs, .time, .log, .logSeq, .mbx, .chans, .out] s (State.offset s o tag) := by
  unfold State.offset
  repeat' first | simp (disch := decide) only [Touches.refl, Touches.set_time, Touches.via (State.bump_touches _ _), Touches.via (State.stepClock_touches _ _ _), Touches.via (State.raise_touches _ _ _ _ _), Touches.via (State.sticky_touches _ _ _)] | split | dsimp only | refine .fold ?_ fun _ _ => ?_ | refine .fold1 ?_ fun _ _ => ?_ | refine .fold2 ?_ fun _ _ => ?_

theorem execServoOffset_touches (o : Int) (tag : Nat) (_logSync : Int) (s : State) : Touches [.regs, .time, .log, .logSeq, .mbx, .chans, .out] s (outState s (execServoOffset o tag _logSync s)) := by
  unfold execServoOffset
  repeat' first | simp (disch := decide) only [outState, Touches.refl, Touches.via (State.offset_touches _ _ _)] | split | dsimp only | refine .fold ?_ fun _ _ => ?_ | refine .fold1 ?_ fun _ _ => ?_ | refine .fold2 ?_ fun _ _ => ?_

theorem execServoCorrExpiry_touches (s : State) : Touches [.time] s (outState s (execServoCorrExpiry s)) := by
  unfold execServoCorrExpiry
  repeat' first | simp (disch := decide) only [outState, Touches.refl, Touches.set_time] | split | dsimp only | refine .fold ?_ fun _ _ => ?_ | refine .fold1 ?_ fun _ _ => ?_ | refine .fold2 ?_ fun _ _ => ?_

theorem State.enterHoldover_touches (s : State) : Touches [.regs, .time] s (State.enterHoldover s) := by
  unfold State.enterHoldover
  repeat' first | simp (disch := decide) only [Touches.refl, Touches.set_time, Touches.via (State.sticky_touches _ _ _)] | split | dsimp only | refine .fold ?_ fun _ _ => ?_ | refine .fold1 ?_ fun _ _ => ?_ | refine .fold2 ?_ fun _ _ => ?_

theorem execOffsetTimeout_touches (s : State) : Touches [.regs, .time] s (outState s (execOffsetTimeout s)) := by
  unfold execOffsetTimeout
  repeat' first | simp (disch := decide) only [outState, Touches.refl, Touches.via (State.enterHoldover_touches _)] | split | dsimp only | refine .fold ?_ fun _ _ => ?_ | refine .fold1 ?_ fun _ _ => ?_ | refine .fold2 ?_ fun _ _ => ?_

theorem execStepApply_touches (s : State) : Touches [.regs, .time, .log, .logSeq, .mbx, .chans, .out] s (outState s (execStepApply s)) := by
  unfold execStepApply
  repeat' first | simp (disch := decide) only [outState, Touches.refl, Touches.via (State.stepClock_touches _ _ _)] | split | dsimp only | refine .fold ?_ fun _ _ => ?_ | refine .fold1 ?_ fun _ _ => ?_ | refine .fold2 ?_ fun _ _ => ?_

theorem State.shiftEmission_touches (s : State) (c r : Nat) (o : Int) : Touches [.tx, .txc, .grp] s (State.shiftEmission s c r o) := by
  unfold State.shiftEmission
  repeat' first | simp (disch := decide) only [Touches.refl, Touches.set_tx_txc_grp] | split | dsimp only | refine .fold ?_ fun _ _ => ?_ | refine .fold1 ?_ fun _ _ => ?_ | refine .fold2 ?_ fun _ _ => ?_

theorem execChannelClockChange_touches (x : ClockChange) (s : State) : Touches [.regs, .time, .log, .logSeq, .mbx, .pmu, .pwr, .chans, .tx, .txc, .grp, .out] s (outState s (execChannelClockChange x s)) := by
  unfold execChannelClockChange
  repeat' first | simp (disch := decide) only [State.onChan, outState, Touches.refl, Touches.via (State.setChan_touches _ _ _), Touches.via (State.shiftEmission_touches _ _ _ _), Touches.via (State.stepClock_touches _ _ _), Touches.via (State.boundaryRun_touches _ _ _ _ _)] | split | dsimp only | refine .fold ?_ fun _ _ => ?_ | refine .fold1 ?_ fun _ _ => ?_ | refine .fold2 ?_ fun _ _ => ?_

theorem State.noteGm_touches (s : State) : Touches [.regs, .time, .log, .logSeq, .mbx, .out] s (State.noteGm s) := by
  unfold State.noteGm
  repeat' first | simp (disch := decide) only [Touches.refl, Touches.set_time, Touches.via (State.bump_touches _ _), Touches.via (State.raise_touches _ _ _ _ _), Touches.via (State.sticky_touches _ _ _)] | split | dsimp only | refine .fold ?_ fun _ _ => ?_ | refine .fold1 ?_ fun _ _ => ?_ | refine .fold2 ?_ fun _ _ => ?_

theorem State.failoverAt_touches (s : State) (p : Nat) : Touches [.regs, .time, .log, .logSeq, .mbx, .out] s (State.failoverAt s p) := by
  unfold State.failoverAt
  repeat' first | simp (disch := decide) only [Touches.refl, Touches.set_time, Touches.via (State.bump_touches _ _), Touches.via (State.noteGm_touches _), Touches.via (State.sticky_touches _ _ _)] | split | dsimp only | refine .fold ?_ fun _ _ => ?_ | refine .fold1 ?_ fun _ _ => ?_ | refine .fold2 ?_ fun _ _ => ?_

theorem execPtpSync_touches (port : Nat) (m : SyncMsg) (s : State) : Touches [.regs, .time, .log, .logSeq, .mbx, .net, .out] s (outState s (execPtpSync port m s)) := by
  unfold execPtpSync
  repeat' first | simp (disch := decide) only [outState, Touches.refl, Touches.set_time, Touches.via (State.failoverAt_touches _ _), Touches.via (State.takePtp_touches _)] | split | dsimp only | refine .fold ?_ fun _ _ => ?_ | refine .fold1 ?_ fun _ _ => ?_ | refine .fold2 ?_ fun _ _ => ?_

theorem execPtpFollowUp_touches (port : Nat) (m : FollowUpMsg) (s : State) : Touches [.time, .net] s (outState s (execPtpFollowUp port m s)) := by
  unfold execPtpFollowUp
  repeat' first | simp (disch := decide) only [outState, Touches.refl, Touches.set_time, Touches.via (State.takePtp_touches _)] | split | dsimp only | refine .fold ?_ fun _ _ => ?_ | refine .fold1 ?_ fun _ _ => ?_ | refine .fold2 ?_ fun _ _ => ?_

theorem execPtpAnnounce_touches (port : Nat) (m : AnnounceMsg) (s : State) : Touches [.regs, .time, .log, .logSeq, .mbx, .net, .out] s (outState s (execPtpAnnounce port m s)) := by
  unfold execPtpAnnounce
  repeat' first | simp (disch := decide) only [outState, Touches.refl, Touches.set_time, Touches.via (State.noteGm_touches _), Touches.via (State.takePtp_touches _)] | split | dsimp only | refine .fold ?_ fun _ _ => ?_ | refine .fold1 ?_ fun _ _ => ?_ | refine .fold2 ?_ fun _ _ => ?_

theorem State.loseMaster_touches (s : State) (p : Nat) : Touches [.regs, .time] s (State.loseMaster s p) := by
  unfold State.loseMaster
  repeat' first | simp (disch := decide) only [Touches.refl, Touches.set_time, Touches.via (State.enterHoldover_touches _)] | split | dsimp only | refine .fold ?_ fun _ _ => ?_ | refine .fold1 ?_ fun _ _ => ?_ | refine .fold2 ?_ fun _ _ => ?_

theorem execAnnounceTimeout_touches (port : Nat) (s : State) : Touches [.regs, .time] s (outState s (execAnnounceTimeout port s)) := by
  unfold execAnnounceTimeout
  repeat' first | simp (disch := decide) only [outState, Touches.refl, Touches.via (State.loseMaster_touches _ _)] | split | dsimp only | refine .fold ?_ fun _ _ => ?_ | refine .fold1 ?_ fun _ _ => ?_ | refine .fold2 ?_ fun _ _ => ?_

theorem State.ptpLinkDown_touches (s : State) (i : Nat) : Touches [.regs, .time] s (State.ptpLinkDown s i) := by
  unfold State.ptpLinkDown
  repeat' first | simp (disch := decide) only [Touches.refl, Touches.via (State.loseMaster_touches _ _)] | split | dsimp only | refine .fold ?_ fun _ _ => ?_ | refine .fold1 ?_ fun _ _ => ?_ | refine .fold2 ?_ fun _ _ => ?_

theorem execPtpDelayResp_touches (port : Nat) (m : DelayRespMsg) (s : State) : Touches [.time, .net] s (outState s (execPtpDelayResp port m s)) := by
  unfold execPtpDelayResp
  repeat' first | simp (disch := decide) only [outState, Touches.refl, Touches.set_time, Touches.via (State.takePtp_touches _)] | split | dsimp only | refine .fold ?_ fun _ _ => ?_ | refine .fold1 ?_ fun _ _ => ?_ | refine .fold2 ?_ fun _ _ => ?_

theorem execPpsOutPulse_touches (s : State) : Touches [.time] s (outState s (execPpsOutPulse s)) := by
  unfold execPpsOutPulse
  repeat' first | simp (disch := decide) only [outState, Touches.refl, Touches.set_time] | split | dsimp only | refine .fold ?_ fun _ _ => ?_ | refine .fold1 ?_ fun _ _ => ?_ | refine .fold2 ?_ fun _ _ => ?_

theorem execPpsOutFall_touches (s : State) : Touches [.time] s (outState s (execPpsOutFall s)) := by
  unfold execPpsOutFall
  repeat' first | simp (disch := decide) only [outState, Touches.refl, Touches.set_time] | split | dsimp only | refine .fold ?_ fun _ _ => ?_ | refine .fold1 ?_ fun _ _ => ?_ | refine .fold2 ?_ fun _ _ => ?_

theorem execPpsInEdge_touches (s : State) : Touches [.regs] s (outState s (execPpsInEdge s)) := by
  unfold execPpsInEdge
  repeat' first | simp (disch := decide) only [outState, Touches.refl, Touches.via (State.bump_touches _ _), Touches.via (State.wr_touches _ _ _)] | split | dsimp only | refine .fold ?_ fun _ _ => ?_ | refine .fold1 ?_ fun _ _ => ?_ | refine .fold2 ?_ fun _ _ => ?_

theorem State.doTimeServoConfig_touches (s : State) (p : TimeServoArg) : Touches [.time] s (State.doTimeServoConfig s p).st := by
  unfold State.doTimeServoConfig
  repeat' first | simp (disch := decide) only [State.checked, Touches.refl, State.done_st, Touches.set_time] | split | dsimp only | refine .fold ?_ fun _ _ => ?_ | refine .fold1 ?_ fun _ _ => ?_ | refine .fold2 ?_ fun _ _ => ?_

theorem State.doTimeAcceptStep_touches (s : State) (p : TimeField) : Touches [.time] s (State.doTimeAcceptStep s p).st := by
  unfold State.doTimeAcceptStep
  repeat' first | simp (disch := decide) only [State.checked, Touches.refl, State.done_st, Touches.set_time] | split | dsimp only | refine .fold ?_ fun _ _ => ?_ | refine .fold1 ?_ fun _ _ => ?_ | refine .fold2 ?_ fun _ _ => ?_

theorem State.doTimePpsConfig_touches (s : State) (p : TimePpsArg) : Touches [.time] s (State.doTimePpsConfig s p).st := by
  unfold State.doTimePpsConfig
  repeat' first | simp (disch := decide) only [State.checked, Touches.refl, State.done_st, Touches.set_time] | split | dsimp only | refine .fold ?_ fun _ _ => ?_ | refine .fold1 ?_ fun _ _ => ?_ | refine .fold2 ?_ fun _ _ => ?_

theorem State.settleCredit_touches (s : State) (i c : Nat) (ch : Chan) : Touches [.tx] s (State.settleCredit s i c ch) := by
  unfold State.settleCredit
  repeat' first | simp (disch := decide) only [Touches.refl, Touches.via (State.updTx_touches _ _ _)] | split | dsimp only | refine .fold ?_ fun _ _ => ?_ | refine .fold1 ?_ fun _ _ => ?_ | refine .fold2 ?_ fun _ _ => ?_

theorem State.settleCredits_touches (s : State) (i : Nat) : Touches [.tx] s (State.settleCredits s i) := by
  unfold State.settleCredits
  repeat' first | simp (disch := decide) only [Touches.refl, Touches.via (State.settleCredit_touches _ _ _ _)] | split | dsimp only | refine .fold ?_ fun _ _ => ?_ | refine .fold1 ?_ fun _ _ => ?_ | refine .fold2 ?_ fun _ _ => ?_

theorem State.moveFlow_touches (s : State) (a b : Nat) : Touches [.time, .chans, .ext, .aud, .net] s (State.moveFlow s a b) := by
  unfold State.moveFlow
  repeat' first | simp (disch := decide) only [Touches.refl, Touches.set_time_chans_ext_aud_net] | split | dsimp only | refine .fold ?_ fun _ _ => ?_ | refine .fold1 ?_ fun _ _ => ?_ | refine .fold2 ?_ fun _ _ => ?_

theorem State.insertFlow_touches (s : State) (a : FlowArg) (moves : List (Nat × Nat)) (x : Nat) : Touches [.time, .chans, .ext, .aud, .net] s (State.insertFlow s a moves x) := by
  unfold State.insertFlow
  repeat' first | simp (disch := decide) only [Touches.refl, Touches.set_net, Touches.via (State.moveFlow_touches _ _ _)] | split | dsimp only | refine .fold ?_ fun _ _ => ?_ | refine .fold1 ?_ fun _ _ => ?_ | refine .fold2 ?_ fun _ _ => ?_

theorem State.removeFlow_touches (s : State) (x : Nat) : Touches [.net] s (State.removeFlow s x) := by
  unfold State.removeFlow
  repeat' first | simp (disch := decide) only [Touches.refl, Touches.set_net] | split | dsimp only | refine .fold ?_ fun _ _ => ?_ | refine .fold1 ?_ fun _ _ => ?_ | refine .fold2 ?_ fun _ _ => ?_

theorem State.reportGroups_touches (s : State) (i : Nat) (gs : List Addr) : Touches [.regs, .tx] s (State.reportGroups s i gs) := by
  unfold State.reportGroups
  repeat' first | simp (disch := decide) only [Touches.refl, Touches.via (State.sendCtl_touches _ _ _ _)] | split | dsimp only | refine .fold ?_ fun _ _ => ?_ | refine .fold1 ?_ fun _ _ => ?_ | refine .fold2 ?_ fun _ _ => ?_

theorem State.reportLeave_touches (s : State) (i : Nat) (g : Addr) (gone : List Addr) : Touches [.regs, .tx] s (State.reportLeave s i g gone) := by
  unfold State.reportLeave
  repeat' first | simp (disch := decide) only [Touches.refl, Touches.via (State.sendCtl_touches _ _ _ _)] | split | dsimp only | refine .fold ?_ fun _ _ => ?_ | refine .fold1 ?_ fun _ _ => ?_ | refine .fold2 ?_ fun _ _ => ?_

theorem State.syncMembers_touches (s : State) (added : List FlowArg) : Touches [.regs, .net, .tx] s (State.syncMembers s added) := by
  unfold State.syncMembers
  repeat' first | simp (disch := decide) only [Touches.refl, Touches.set_net, Touches.via (State.reportLeave_touches _ _ _ _), Touches.via (State.reportGroups_touches _ _ _)] | split | dsimp only | refine .fold ?_ fun _ _ => ?_ | refine .fold1 ?_ fun _ _ => ?_ | refine .fold2 ?_ fun _ _ => ?_

theorem State.doFlowAdd_touches (s : State) (a : FlowArg) : Touches [.regs, .time, .chans, .ext, .aud, .net, .tx] s (State.doFlowAdd s a).st := by
  unfold State.doFlowAdd
  repeat' first | simp (disch := decide) only [Touches.refl, State.reply_st, Touches.via (State.bump_touches _ _), Touches.via (State.insertFlow_touches _ _ _ _), Touches.via (State.syncMembers_touches _ _), Touches.via (State.sticky_touches _ _ _)] | split | dsimp only | refine .fold ?_ fun _ _ => ?_ | refine .fold1 ?_ fun _ _ => ?_ | refine .fold2 ?_ fun _ _ => ?_

theorem State.doFlowDelete_touches (s : State) (x : Nat) : Touches [.regs, .net, .tx] s (State.doFlowDelete s x).st := by
  unfold State.doFlowDelete
  repeat' first | simp (disch := decide) only [State.checked, Touches.refl, State.done_st, Touches.via (State.removeFlow_touches _ _), Touches.via (State.syncMembers_touches _ _)] | split | dsimp only | refine .fold ?_ fun _ _ => ?_ | refine .fold1 ?_ fun _ _ => ?_ | refine .fold2 ?_ fun _ _ => ?_

theorem State.addAll_touches {s t : State} {l : List FlowArg} (h : s.addAll l = some t) : Touches [.time, .chans, .ext, .aud, .net] s t := by
  induction l generalizing s with
  | nil => cases h; exact .refl _ _
  | cons a r ih =>
    unfold State.addAll at h
    split at h
    · refine .trans ?_ (ih h)
      simp (disch := decide) only [Touches.refl, Touches.set_time, Touches.via (State.insertFlow_touches _ _ _ _)]
    · cases h

theorem State.setPtpEntries_touches {s t : State} {c : TimeConfigArg} (h : s.setPtpEntries c = some t) : Touches [.regs, .time, .chans, .ext, .aud, .net, .tx] s t := by
  unfold State.setPtpEntries at h
  dsimp only at h
  obtain ⟨u, hu, rfl⟩ := Option.map_eq_some_iff.1 h
  refine .then (.then ?_ (State.addAll_touches hu) (by decide)) (State.syncMembers_touches ..) (by decide)
  refine .fold ?_ fun _ _ => ?_
  · simp (disch := decide) only [Touches.refl, Touches.set_time]
  · simp (disch := decide) only [Touches.refl, Touches.via (State.removeFlow_touches _ _)]

theorem State.doTimeConfig_touches (s : State) (c : TimeConfigArg) : Touches [.regs, .time, .chans, .ext, .aud, .net, .tx] s (State.doTimeConfig s c).st := by
  unfold State.doTimeConfig
  repeat' first | simp (disch := decide) only [Touches.refl, State.done_st, Touches.set_time, Touches.via (State.loseMaster_touches _ _)] | split | refine .then ?_ (State.setPtpEntries_touches ‹_›) (by decide) | dsimp only | refine .fold ?_ fun _ _ => ?_ | refine .fold1 ?_ fun _ _ => ?_ | refine .fold2 ?_ fun _ _ => ?_

theorem State.doNetAddress_touches (s : State) (p : NetAddressArg) : Touches [.regs, .time, .chans, .ext, .aud, .net, .tx] s (State.doNetAddress s p).st := by
  unfold State.doNetAddress
  repeat' first | simp (disch := decide) only [Touches.refl, State.done_st, Touches.via (State.updIface_touches _ _ _)] | split | refine .then ?_ (State.setPtpEntries_touches ‹_›) (by decide) | dsimp only | refine .fold ?_ fun _ _ => ?_ | refine .fold1 ?_ fun _ _ => ?_ | refine .fold2 ?_ fun _ _ => ?_

theorem State.doTxQueueConfig_touches (s : State) (p : TxQueueArg) : Touches [.tx] s (State.doTxQueueConfig s p).st := by
  unfold State.doTxQueueConfig
  repeat' first | simp (disch := decide) only [State.checked, Touches.refl, State.done_st, Touches.via (State.updTx_touches _ _ _)] | split | dsimp only | refine .fold ?_ fun _ _ => ?_ | refine .fold1 ?_ fun _ _ => ?_ | refine .fold2 ?_ fun _ _ => ?_

theorem State.doGateListSet_touches (s : State) (p : GateListArg) : Touches [.tx] s (State.doGateListSet s p).st := by
  unfold State.doGateListSet
  repeat' first | simp (disch := decide) only [State.checked, Touches.refl, State.done_st, Touches.via (State.updTx_touches _ _ _)] | split | dsimp only | refine .fold ?_ fun _ _ => ?_ | refine .fold1 ?_ fun _ _ => ?_ | refine .fold2 ?_ fun _ _ => ?_

theorem execGateListTaken_touches (i : Nat) (s : State) : Touches [.regs, .log, .logSeq, .mbx, .tx, .out] s (outState s (execGateListTaken i s)) := by
  unfold execGateListTaken
  repeat' first | simp (disch := decide) only [outState, Touches.refl, Touches.via (State.raise_touches _ _ _ _ _), Touches.via (State.updTx_touches _ _ _), Touches.via (State.sticky_touches _ _ _)] | split | dsimp only | refine .fold ?_ fun _ _ => ?_ | refine .fold1 ?_ fun _ _ => ?_ | refine .fold2 ?_ fun _ _ => ?_

theorem execGateListStart_touches (i : Nat) (s : State) : Touches [.tx] s (outState s (execGateListStart i s)) := by
  unfold execGateListStart
  repeat' first | simp (disch := decide) only [outState, Touches.refl, Touches.via (State.settleCredits_touches _ _), Touches.via (State.updTx_touches _ _ _)] | split | dsimp only | refine .fold ?_ fun _ _ => ?_ | refine .fold1 ?_ fun _ _ => ?_ | refine .fold2 ?_ fun _ _ => ?_

theorem execGateEntryChange_touches (i : Nat) (s : State) : Touches [.tx] s (outState s (execGateEntryChange i s)) := by
  unfold execGateEntryChange
  repeat' first | simp (disch := decide) only [outState, Touches.refl, Touches.via (State.settleCredits_touches _ _), Touches.via (State.updTx_touches _ _ _)] | split | dsimp only | refine .fold ?_ fun _ _ => ?_ | refine .fold1 ?_ fun _ _ => ?_ | refine .fold2 ?_ fun _ _ => ?_

theorem State.answerCtl_touches (s : State) (i : Nat) (a2 : CtlPacket) : Touches [.regs, .tx] s (State.answerCtl s i a2) := by
  unfold State.answerCtl
  repeat' first | simp (disch := decide) only [Touches.refl, Touches.via (State.sendCtl_touches _ _ _ _), Touches.via (State.reportGroups_touches _ _ _)] | split | dsimp only | refine .fold ?_ fun _ _ => ?_ | refine .fold1 ?_ fun _ _ => ?_ | refine .fold2 ?_ fun _ _ => ?_

theorem execFirmwareControlPacket_touches (i k : Nat) (s : State) : Touches [.regs, .net, .tx] s (outState s (execFirmwareControlPacket i k s)) := by
  unfold execFirmwareControlPacket
  repeat' first | simp (disch := decide) only [outState, Touches.refl, Touches.set_net, Touches.via (State.answerCtl_touches _ _ _)] | split | dsimp only | refine .fold ?_ fun _ _ => ?_ | refine .fold1 ?_ fun _ _ => ?_ | refine .fold2 ?_ fun _ _ => ?_

theorem execMembershipReportTimer_touches (i : Nat) (s : State) : Touches [.regs, .tx] s (outState s (execMembershipReportTimer i s)) := by
  unfold execMembershipReportTimer
  repeat' first | simp (disch := decide) only [outState, Touches.refl, Touches.via (State.reportGroups_touches _ _ _)] | split | dsimp only | refine .fold ?_ fun _ _ => ?_ | refine .fold1 ?_ fun _ _ => ?_ | refine .fold2 ?_ fun _ _ => ?_

theorem execDelayReqTimer_touches (s : State) : Touches [.regs, .time, .tx] s (outState s (execDelayReqTimer s)) := by
  unfold execDelayReqTimer
  repeat' first | simp (disch := decide) only [outState, Touches.refl, Touches.set_time, Touches.via (State.sendCtl_touches _ _ _ _)] | split | dsimp only | refine .fold ?_ fun _ _ => ?_ | refine .fold1 ?_ fun _ _ => ?_ | refine .fold2 ?_ fun _ _ => ?_

theorem State.updFifo_touches (s : State) (id : Nat) (f : AudFifo → AudFifo) : Touches [.aud] s (State.updFifo s id f) := by
  unfold State.updFifo
  repeat' first | simp (disch := decide) only [Touches.refl, Touches.set_aud] | split | dsimp only | refine .fold ?_ fun _ _ => ?_ | refine .fold1 ?_ fun _ _ => ?_ | refine .fold2 ?_ fun _ _ => ?_

theorem State.slipSeen_touches (s : State) (id : Nat) : Touches [.regs] s (State.slipSeen s id) := by
  unfold State.slipSeen
  repeat' first | simp (disch := decide) only [Touches.refl, Touches.via (State.sticky_touches _ _ _)] | split | dsimp only | refine .fold ?_ fun _ _ => ?_ | refine .fold1 ?_ fun _ _ => ?_ | refine .fold2 ?_ fun _ _ => ?_

theorem State.beginSlip_touches (s : State) (id : Nat) (overrun : Bool) : Touches [.regs, .aud] s (State.beginSlip s id overrun) := by
  unfold State.beginSlip
  repeat' first | simp (disch := decide) only [Touches.refl, Touches.set_aud, Touches.via (State.bump_touches _ _), Touches.via (State.slipSeen_touches _ _), Touches.via (State.updFifo_touches _ _ _)] | split | dsimp only | refine .fold ?_ fun _ _ => ?_ | refine .fold1 ?_ fun _ _ => ?_ | refine .fold2 ?_ fun _ _ => ?_

theorem State.checkOverrun_touches (s : State) (id : Nat) : Touches [.regs, .aud] s (State.checkOverrun s id) := by
  unfold State.checkOverrun
  repeat' first | simp (disch := decide) only [Touches.refl, Touches.via (State.beginSlip_touches _ _ _)] | split | dsimp only | refine .fold ?_ fun _ _ => ?_ | refine .fold1 ?_ fun _ _ => ?_ | refine .fold2 ?_ fun _ _ => ?_

theorem State.checkUnderrun_touches (s : State) (id : Nat) : Touches [.regs, .aud] s (State.checkUnderrun s id) := by
  unfold State.checkUnderrun
  repeat' first | simp (disch := decide) only [Touches.refl, Touches.via (State.beginSlip_touches _ _ _)] | split | dsimp only | refine .fold ?_ fun _ _ => ?_ | refine .fold1 ?_ fun _ _ => ?_ | refine .fold2 ?_ fun _ _ => ?_

theorem State.dropSlip_touches (s : State) (l : Slip) (n : Nat) : Touches [.regs, .aud] s (State.dropSlip s l n) := by
  unfold State.dropSlip
  repeat' first | simp (disch := decide) only [Touches.refl, Touches.via (State.bumpBy_touches _ _ _), Touches.via (State.updFifo_touches _ _ _)] | split | dsimp only | refine .fold ?_ fun _ _ => ?_ | refine .fold1 ?_ fun _ _ => ?_ | refine .fold2 ?_ fun _ _ => ?_

theorem State.turnSlip_touches (s : State) (l : Slip) : Touches [.regs, .aud] s (State.turnSlip s l) := by
  unfold State.turnSlip
  repeat' first | simp (disch := decide) only [Touches.refl, Touches.set_aud, Touches.via (State.dropSlip_touches _ _ _), Touches.via (State.updFifo_touches _ _ _)] | split | dsimp only | refine .fold ?_ fun _ _ => ?_ | refine .fold1 ?_ fun _ _ => ?_ | refine .fold2 ?_ fun _ _ => ?_

theorem State.readFifos_touches (s : State) (ids : List Nat) : Touches [.regs, .aud] s (State.readFifos s ids).1 := by
  unfold State.readFifos
  repeat' first | simp (disch := decide) only [State.when, Touches.refl, Touches.via (State.bump_touches _ _), Touches.via (State.bumpBy_touches _ _ _), Touches.via (State.turnSlip_touches _ _), Touches.via (State.updFifo_touches _ _ _), Touches.via (State.checkUnderrun_touches _ _)] | split | dsimp only | refine .fold ?_ fun _ _ => ?_ | refine .fold1 ?_ fun _ _ => ?_ | refine .fold2 ?_ fun _ _ => ?_

theorem State.updDir_touches (s : State) (k : Nat) (f : AudDir → AudDir) : Touches [.aud] s (State.updDir s k f) := by
  unfold State.updDir
  repeat' first | simp (disch := decide) only [Touches.refl, Touches.set_aud] | split | dsimp only | refine .fold ?_ fun _ _ => ?_ | refine .fold1 ?_ fun _ _ => ?_ | refine .fold2 ?_ fun _ _ => ?_

theorem State.maskAt_touches (s : State) (k : Nat) : Touches [.regs, .aud] s (State.maskAt s k) := by
  unfold State.maskAt
  repeat' first | simp (disch := decide) only [Touches.refl, Touches.via (State.wr_touches _ _ _), Touches.via (State.updDir_touches _ _ _)] | split | dsimp only | refine .fold ?_ fun _ _ => ?_ | refine .fold1 ?_ fun _ _ => ?_ | refine .fold2 ?_ fun _ _ => ?_

theorem State.writeTdm_touches (s : State) (id : Nat) (frame : List Int) : Touches [.regs, .aud] s (State.writeTdm s id frame) := by
  unfold State.writeTdm
  repeat' first | simp (disch := decide) only [Touches.refl, Touches.via (State.bump_touches _ _), Touches.via (State.checkOverrun_touches _ _), Touches.via (State.updFifo_touches _ _ _)] | split | dsimp only | refine .fold ?_ fun _ _ => ?_ | refine .fold1 ?_ fun _ _ => ?_ | refine .fold2 ?_ fun _ _ => ?_

theorem execTdmRxFrame_touches (p : Nat) (slots : List Word) (s : State) : Touches [.regs, .aud] s (outState s (execTdmRxFrame p slots s)) := by
  unfold execTdmRxFrame
  repeat' first | simp (disch := decide) only [outState, Touches.refl, Touches.via (State.updDir_touches _ _ _), Touches.via (State.maskAt_touches _ _), Touches.via (State.writeTdm_touches _ _ _)] | split | dsimp only | refine .fold ?_ fun _ _ => ?_ | refine .fold1 ?_ fun _ _ => ?_ | refine .fold2 ?_ fun _ _ => ?_

theorem State.routesAt_touches (s : State) (p : Nat) : Touches [.aud] s (State.routesAt s p) := by
  unfold State.routesAt
  repeat' first | simp (disch := decide) only [Touches.refl, Touches.set_aud] | split | dsimp only | refine .fold ?_ fun _ _ => ?_ | refine .fold1 ?_ fun _ _ => ?_ | refine .fold2 ?_ fun _ _ => ?_

theorem State.sendTdm_touches (s : State) (p : Nat) (frame : List Word) : Touches [.aud, .out] s (State.sendTdm s p frame) := by
  unfold State.sendTdm
  repeat' first | simp (disch := decide) only [Touches.refl, Touches.via (State.updDir_touches _ _ _), Touches.via (State.emit_touches _ _)] | split | dsimp only | refine .fold ?_ fun _ _ => ?_ | refine .fold1 ?_ fun _ _ => ?_ | refine .fold2 ?_ fun _ _ => ?_

theorem execTdmTxFrame_touches (p : Nat) (s : State) : Touches [.regs, .aud, .out] s (outState s (execTdmTxFrame p s)) := by
  unfold execTdmTxFrame
  repeat' first | simp (disch := decide) only [outState, Touches.refl, Touches.via (State.readFifos_touches _ _), Touches.via (State.updDir_touches _ _ _), Touches.via (State.routesAt_touches _ _), Touches.via (State.maskAt_touches _ _), Touches.via (State.sendTdm_touches _ _ _)] | split | dsimp only | refine .fold ?_ fun _ _ => ?_ | refine .fold1 ?_ fun _ _ => ?_ | refine .fold2 ?_ fun _ _ => ?_

theorem State.dirLock_touches (s : State) (k : Nat) : Touches [.aud] s (State.dirLock s k) := by
  unfold State.dirLock
  repeat' first | simp (disch := decide) only [Touches.refl, Touches.via (State.updDir_touches _ _ _)] | split | dsimp only | refine .fold ?_ fun _ _ => ?_ | refine .fold1 ?_ fun _ _ => ?_ | refine .fold2 ?_ fun _ _ => ?_

theorem State.dirUnlock_touches (s : State) (k : Nat) : Touches [.regs, .aud] s (State.dirUnlock s k) := by
  unfold State.dirUnlock
  repeat' first | simp (disch := decide) only [Touches.refl, Touches.via (State.bump_touches _ _), Touches.via (State.updDir_touches _ _ _), Touches.via (State.sticky_touches _ _ _)] | split | dsimp only | refine .fold ?_ fun _ _ => ?_ | refine .fold1 ?_ fun _ _ => ?_ | refine .fold2 ?_ fun _ _ => ?_

theorem execTdmFrameSync_touches (p d spacing : Nat) (s : State) : Touches [.regs, .aud] s (outState s (execTdmFrameSync p d spacing s)) := by
  unfold execTdmFrameSync
  repeat' first | simp (disch := decide) only [outState, Touches.refl, Touches.via (State.dirLock_touches _ _), Touches.via (State.dirUnlock_touches _ _)] | split | dsimp only | refine .fold ?_ fun _ _ => ?_ | refine .fold1 ?_ fun _ _ => ?_ | refine .fold2 ?_ fun _ _ => ?_

theorem execTdmLockTimeout_touches (p d : Nat) (s : State) : Touches [.regs, .aud] s (outState s (execTdmLockTimeout p d s)) := by
  unfold execTdmLockTimeout
  repeat' first | simp (disch := decide) only [outState, Touches.refl, Touches.via (State.dirUnlock_touches _ _)] | split | dsimp only | refine .fold ?_ fun _ _ => ?_ | refine .fold1 ?_ fun _ _ => ?_ | refine .fold2 ?_ fun _ _ => ?_

theorem execAudSlotCommit_touches (p d : Nat) (s : State) : Touches [.regs, .mbx, .out] s (outState s (execAudSlotCommit p d s)) := by
  unfold execAudSlotCommit
  repeat' first | simp (disch := decide) only [State.hostWrite, State.barWrite, outState, Touches.refl, Touches.via (State.wr_touches _ _ _), Touches.via (State.badAccess_touches _), Touches.via (State.emit_touches _ _), Touches.via (State.unsupported_touches _)] | split | dsimp only | refine .fold ?_ fun _ _ => ?_ | refine .fold1 ?_ fun _ _ => ?_ | refine .fold2 ?_ fun _ _ => ?_

theorem State.routesMove_touches (s : State) : Touches [.aud] s (State.routesMove s) := by
  unfold State.routesMove
  repeat' first | simp (disch := decide) only [Touches.refl, Touches.set_aud] | split | dsimp only | refine .fold ?_ fun _ _ => ?_ | refine .fold1 ?_ fun _ _ => ?_ | refine .fold2 ?_ fun _ _ => ?_

theorem State.keepTdm_touches (s : State) (got : Tab (List Int × Nat)) : Touches [.aud] s (State.keepTdm s got) := by
  unfold State.keepTdm
  repeat' first | simp (disch := decide) only [Touches.refl, Touches.set_aud] | split | dsimp only | refine .fold ?_ fun _ _ => ?_ | refine .fold1 ?_ fun _ _ => ?_ | refine .fold2 ?_ fun _ _ => ?_

theorem execSampleTick_touches (s : State) : Touches [.regs, .aud] s (outState s (execSampleTick s)) := by
  unfold execSampleTick
  repeat' first | simp (disch := decide) only [outState, Touches.refl, Touches.set_aud, Touches.via (State.keepTdm_touches _ _), Touches.via (State.readFifos_touches _ _), Touches.via (State.writeTdm_touches _ _ _), Touches.via (State.routesMove_touches _)] | split | dsimp only | refine .fold ?_ fun _ _ => ?_ | refine .fold1 ?_ fun _ _ => ?_ | refine .fold2 ?_ fun _ _ => ?_

theorem State.writeStream_touches (s : State) (st k : Nat) (frame : List Int) : Touches [.regs, .aud] s (State.writeStream s st k frame) := by
  unfold State.writeStream
  repeat' first | simp (disch := decide) only [Touches.refl, Touches.via (State.bump_touches _ _), Touches.via (State.checkOverrun_touches _ _), Touches.via (State.updFifo_touches _ _ _)] | split | dsimp only | refine .fold ?_ fun _ _ => ?_ | refine .fold1 ?_ fun _ _ => ?_ | refine .fold2 ?_ fun _ _ => ?_

theorem State.audioIn_touches (s : State) (st q tMedia : Nat) (frames : List (List Int)) : Touches [.regs, .aud] s (State.audioIn s st q tMedia frames) := by
  unfold State.audioIn
  repeat' first | simp (disch := decide) only [Touches.refl, Touches.set_aud, Touches.via (State.writeStream_touches _ _ _ _)] | split | dsimp only | refine .fold ?_ fun _ _ => ?_ | refine .fold1 ?_ fun _ _ => ?_ | refine .fold2 ?_ fun _ _ => ?_

theorem State.audioAgain_touches (s : State) (st tMedia : Nat) (frames : List (List Int)) : Touches [.aud] s (State.audioAgain s st tMedia frames) := by
  unfold State.audioAgain
  repeat' first | simp (disch := decide) only [Touches.refl, Touches.set_aud] | split | dsimp only | refine .fold ?_ fun _ _ => ?_ | refine .fold1 ?_ fun _ _ => ?_ | refine .fold2 ?_ fun _ _ => ?_

theorem execAudioClockLoopUpdate_touches (s : State) : Touches [.aud] s (outState s (execAudioClockLoopUpdate s)) := by
  unfold execAudioClockLoopUpdate
  repeat' first | simp (disch := decide) only [outState, Touches.refl, Touches.set_aud] | split | dsimp only | refine .fold ?_ fun _ _ => ?_ | refine .fold1 ?_ fun _ _ => ?_ | refine .fold2 ?_ fun _ _ => ?_

theorem execPilotHoldover_touches (s : State) : Touches [.aud] s (outState s (execPilotHoldover s)) := by
  unfold execPilotHoldover
  repeat' first | simp (disch := decide) only [outState, Touches.refl, Touches.set_aud] | split | dsimp only | refine .fold ?_ fun _ _ => ?_ | refine .fold1 ?_ fun _ _ => ?_ | refine .fold2 ?_ fun _ _ => ?_

theorem State.pilotBack_touches (s : State) (st : Nat) : Touches [.aud] s (State.pilotBack s st) := by
  unfold State.pilotBack
  repeat' first | simp (disch := decide) only [Touches.refl, Touches.set_aud] | split | dsimp only | refine .fold ?_ fun _ _ => ?_ | refine .fold1 ?_ fun _ _ => ?_ | refine .fold2 ?_ fun _ _ => ?_

theorem State.doAudioPortConfig_touches (s : State) (p : AudioPortArg) : Touches [.aud] s (State.doAudioPortConfig s p).st := by
  unfold State.doAudioPortConfig
  repeat' first | simp (disch := decide) only [State.checked, Touches.refl, State.done_st, Touches.via (State.updDir_touches _ _ _)] | split | dsimp only | refine .fold ?_ fun _ _ => ?_ | refine .fold1 ?_ fun _ _ => ?_ | refine .fold2 ?_ fun _ _ => ?_

theorem State.doAudioPortStart_touches (s : State) (p : ChArg) : Touches [.regs, .aud] s (State.doAudioPortStart s p).st := by
  unfold State.doAudioPortStart
  repeat' first | simp (disch := decide) only [State.checked, Touches.refl, State.done_st, Touches.via (State.wr_touches _ _ _), Touches.via (State.updDir_touches _ _ _), Touches.via (State.clearRegs_touches _ _ _)] | split | dsimp only | refine .fold ?_ fun _ _ => ?_ | refine .fold1 ?_ fun _ _ => ?_ | refine .fold2 ?_ fun _ _ => ?_

theorem State.doAudioPortStop_touches (s : State) (p : ChArg) : Touches [.aud] s (State.doAudioPortStop s p).st := by
  unfold State.doAudioPortStop
  repeat' first | simp (disch := decide) only [State.checked, Touches.refl, State.done_st, Touches.via (State.updDir_touches _ _ _)] | split | dsimp only | refine .fold ?_ fun _ _ => ?_ | refine .fold1 ?_ fun _ _ => ?_ | refine .fold2 ?_ fun _ _ => ?_

theorem State.doAudioStreamConfig_touches (s : State) (p : AudioStreamArg) : Touches [.regs, .aud] s (State.doAudioStreamConfig s p).st := by
  unfold State.doAudioStreamConfig
  repeat' first | simp (disch := decide) only [State.checked, Touches.refl, State.done_st, Touches.set_aud, Touches.via (State.clearMerge_touches _ _), Touches.via (State.clearRegs_touches _ _ _)] | split | dsimp only | refine .fold ?_ fun _ _ => ?_ | refine .fold1 ?_ fun _ _ => ?_ | refine .fold2 ?_ fun _ _ => ?_

theorem State.doAudioStreamDelete_touches (s : State) (p : ChArg) : Touches [.aud, .net] s (State.doAudioStreamDelete s p).st := by
  unfold State.doAudioStreamDelete
  repeat' first | simp (disch := decide) only [State.checked, Touches.refl, State.done_st, Touches.set_aud_net] | split | dsimp only | refine .fold ?_ fun _ _ => ?_ | refine .fold1 ?_ fun _ _ => ?_ | refine .fold2 ?_ fun _ _ => ?_

theorem State.routeEntry_touches (t : State) (e : RouteEntry) : Touches [.chans, .aud] t (State.routeEntry t e) := by
  unfold State.routeEntry
  repeat' first | simp (disch := decide) only [Touches.refl, Touches.set_aud, Touches.via (State.updChan_touches _ _ _)] | split | dsimp only | refine .fold ?_ fun _ _ => ?_ | refine .fold1 ?_ fun _ _ => ?_ | refine .fold2 ?_ fun _ _ => ?_

theorem State.doAudioRoute_touches (s : State) (p : AudioRouteArg) : Touches [.chans, .aud] s (State.doAudioRoute s p).st := by
  unfold State.doAudioRoute
  repeat' first | simp (disch := decide) only [State.checked, Touches.refl, State.done_st, Touches.via (State.routeEntry_touches _ _)] | split | dsimp only | refine .fold ?_ fun _ _ => ?_ | refine .fold1 ?_ fun _ _ => ?_ | refine .fold2 ?_ fun _ _ => ?_

theorem State.doAudioAlignGroup_touches (s : State) (p : AlignGroupArg) : Touches [.aud] s (State.doAudioAlignGroup s p).st := by
  unfold State.doAudioAlignGroup
  repeat' first | simp (disch := decide) only [State.checked, Touches.refl, State.done_st, Touches.set_aud] | split | dsimp only | refine .fold ?_ fun _ _ => ?_ | refine .fold1 ?_ fun _ _ => ?_ | refine .fold2 ?_ fun _ _ => ?_

theorem State.doAudioClock_touches (s : State) (p : AudioClockArg) : Touches [.aud] s (State.doAudioClock s p).st := by
  unfold State.doAudioClock
  repeat' first | simp (disch := decide) only [State.checked, Touches.refl, State.done_st, Touches.set_aud] | split | dsimp only | refine .fold ?_ fun _ _ => ?_ | refine .fold1 ?_ fun _ _ => ?_ | refine .fold2 ?_ fun _ _ => ?_

theorem State.panicLevel_touches (s : State) (k level : Nat) : Touches [.regs, .mem] s (State.panicLevel s k level) := by
  unfold State.panicLevel
  repeat' first | simp (disch := decide) only [Touches.refl, Touches.set_mem, Touches.via (State.bump_touches _ _)] | split | dsimp only | refine .fold ?_ fun _ _ => ?_ | refine .fold1 ?_ fun _ _ => ?_ | refine .fold2 ?_ fun _ _ => ?_

theorem State.malformed_touches (s : State) (i : Nat) : Touches [.regs] s (State.malformed s i) := by
  unfold State.malformed
  repeat' first | simp (disch := decide) only [Touches.refl, Touches.via (State.bump_touches _ _), Touches.via (State.sticky_touches _ _ _)] | split | dsimp only | refine .fold ?_ fun _ _ => ?_ | refine .fold1 ?_ fun _ _ => ?_ | refine .fold2 ?_ fun _ _ => ?_

theorem State.unmatched_touches (s : State) (i : Nat) : Touches [.regs] s (State.unmatched s i) := by
  unfold State.unmatched
  repeat' first | simp (disch := decide) only [Touches.refl, Touches.via (State.bump_touches _ _), Touches.via (State.sticky_touches _ _ _)] | split | dsimp only | refine .fold ?_ fun _ _ => ?_ | refine .fold1 ?_ fun _ _ => ?_ | refine .fold2 ?_ fun _ _ => ?_

theorem State.malformedAt_touches (s : State) (i : Option Nat) : Touches [.regs] s (State.malformedAt s i) := by
  unfold State.malformedAt
  repeat' first | simp (disch := decide) only [Touches.refl, Touches.via (State.malformed_touches _ _)] | split | dsimp only | refine .fold ?_ fun _ _ => ?_ | refine .fold1 ?_ fun _ _ => ?_ | refine .fold2 ?_ fun _ _ => ?_

theorem State.toFirmware_touches (s : State) (i : Nat) (k : CtlPacket) : Touches [.net] s (State.toFirmware s i k) := by
  unfold State.toFirmware
  repeat' first | simp (disch := decide) only [Touches.refl, Touches.set_net] | split | dsimp only | refine .fold ?_ fun _ _ => ?_ | refine .fold1 ?_ fun _ _ => ?_ | refine .fold2 ?_ fun _ _ => ?_

theorem State.fixedTake_touches (s : State) (i at_ : Nat) (k : CtlPacket) : Touches [.regs, .net] s (State.fixedTake s i at_ k) := by
  unfold State.fixedTake
  repeat' first | simp (disch := decide) only [Touches.refl, Touches.via (State.bump_touches _ _), Touches.via (State.updIface_touches _ _ _), Touches.via (State.toFirmware_touches _ _ _)] | split | dsimp only | refine .fold ?_ fun _ _ => ?_ | refine .fold1 ?_ fun _ _ => ?_ | refine .fold2 ?_ fun _ _ => ?_

theorem State.updFlow_touches (s : State) (x : Nat) (f : Flow → Flow) : Touches [.net] s (State.updFlow s x f) := by
  unfold State.updFlow
  repeat' first | simp (disch := decide) only [Touches.refl, Touches.set_net] | split | dsimp only | refine .fold ?_ fun _ _ => ?_ | refine .fold1 ?_ fun _ _ => ?_ | refine .fold2 ?_ fun _ _ => ?_

theorem State.flowDrop_touches (s : State) (x : Nat) : Touches [.net] s (State.flowDrop s x) := by
  unfold State.flowDrop
  repeat' first | simp (disch := decide) only [Touches.refl, Touches.via (State.updFlow_touches _ _ _)] | split | dsimp only | refine .fold ?_ fun _ _ => ?_ | refine .fold1 ?_ fun _ _ => ?_ | refine .fold2 ?_ fun _ _ => ?_

theorem State.flowDup_touches (s : State) (x : Nat) : Touches [.regs, .pmu, .net] s (State.flowDup s x) := by
  unfold State.flowDup
  repeat' first | simp (disch := decide) only [Touches.refl, Touches.via (State.updFlow_touches _ _ _), Touches.via (State.pmuEvent_touches _ _ _)] | split | dsimp only | refine .fold ?_ fun _ _ => ?_ | refine .fold1 ?_ fun _ _ => ?_ | refine .fold2 ?_ fun _ _ => ?_

theorem State.requestRepair_touches (s : State) (m : Nat) (seqs : List Nat) : Touches [.regs, .pmu, .grp, .out] s (State.requestRepair s m seqs) := by
  unfold State.requestRepair
  repeat' first | simp (disch := decide) only [Touches.refl, Touches.via (State.bump_touches _ _), Touches.via (State.sendTo_touches _ _ _)] | split | dsimp only | refine .fold ?_ fun _ _ => ?_ | refine .fold1 ?_ fun _ _ => ?_ | refine .fold2 ?_ fun _ _ => ?_

theorem State.updMerge_touches (s : State) (m : Nat) (f : Merge → Merge) : Touches [.net] s (State.updMerge s m f) := by
  unfold State.updMerge
  repeat' first | simp (disch := decide) only [Touches.refl, Touches.set_net] | split | dsimp only | refine .fold ?_ fun _ _ => ?_ | refine .fold1 ?_ fun _ _ => ?_ | refine .fold2 ?_ fun _ _ => ?_

theorem State.mergeCopy_touches (s : State) (m x path q ingress : Nat) (p : RtpPacket) : Touches [.regs, .pmu, .net, .grp, .out] s (State.mergeCopy s m x path q ingress p).1 := by
  unfold State.mergeCopy
  repeat' first | simp (disch := decide) only [Touches.refl, Touches.via (State.bump_touches _ _), Touches.via (State.bumpBy_touches _ _ _), Touches.via (State.requestRepair_touches _ _ _), Touches.via (State.flowDup_touches _ _), Touches.via (State.sticky_touches _ _ _), Touches.via (State.recordMax_touches _ _ _ _), Touches.via (State.updMerge_touches _ _ _)] | split | dsimp only | refine .fold ?_ fun _ _ => ?_ | refine .fold1 ?_ fun _ _ => ?_ | refine .fold2 ?_ fun _ _ => ?_

theorem State.lateLine_touches (s : State) (c : Nat) : Touches [.regs] s (State.lateLine s c) := by
  unfold State.lateLine
  repeat' first | simp (disch := decide) only [Touches.refl, Touches.via (State.bump_touches _ _), Touches.via (State.sticky_touches _ _ _)] | split | dsimp only | refine .fold ?_ fun _ _ => ?_ | refine .fold1 ?_ fun _ _ => ?_ | refine .fold2 ?_ fun _ _ => ?_

theorem State.writeSeg_touches (s : State) (c n t : Nat) (i : Option Nat) (again : Bool) (g : SrdSeg) : Touches [.regs, .chans] s (State.writeSeg s c n t i again g) := by
  unfold State.writeSeg
  repeat' first | simp (disch := decide) only [State.onChan, Touches.refl, Touches.via (State.updChan_touches _ _ _), Touches.via (State.lateLine_touches _ _), Touches.via (State.malformedAt_touches _ _)] | split | dsimp only | refine .fold ?_ fun _ _ => ?_ | refine .fold1 ?_ fun _ _ => ?_ | refine .fold2 ?_ fun _ _ => ?_

theorem State.ancIn_touches (s : State) (c n q : Nat) (data : List Byte) : Touches [.regs, .txc] s (State.ancIn s c n q data) := by
  unfold State.ancIn
  repeat' first | simp (disch := decide) only [Touches.refl, Touches.set_txc, Touches.via (State.bumpBy_touches _ _ _)] | split | dsimp only | refine .fold ?_ fun _ _ => ?_ | refine .fold1 ?_ fun _ _ => ?_ | refine .fold2 ?_ fun _ _ => ?_

theorem State.deliver_touches (s : State) (target q t : Nat) (i : Option Nat) (p : RtpPacket) (d : Essence) (again : Bool) : Touches [.regs, .chans, .ext, .aud, .txc] s (State.deliver s target q t i p d again) := by
  unfold State.deliver
  repeat' first | simp (disch := decide) only [State.onChan, Touches.refl, Touches.set_ext, Touches.via (State.writeSeg_touches _ _ _ _ _ _ _), Touches.via (State.audioIn_touches _ _ _ _ _), Touches.via (State.pilotBack_touches _ _), Touches.via (State.audioAgain_touches _ _ _ _), Touches.via (State.ancIn_touches _ _ _ _ _)] | split | dsimp only | refine .fold ?_ fun _ _ => ?_ | refine .fold1 ?_ fun _ _ => ?_ | refine .fold2 ?_ fun _ _ => ?_

theorem State.intoMerge_touches (s : State) (x : Nat) (a : FlowArg) (path : Nat) (i : Option Nat) (p : RtpPacket) (at_ : Nat) : Touches [.regs, .pmu, .chans, .ext, .aud, .net, .txc, .grp, .out] s (State.intoMerge s x a path i p at_).1 := by
  unfold State.intoMerge
  repeat' first | simp (disch := decide) only [Touches.refl, Touches.via (State.mergeCopy_touches _ _ _ _ _ _ _), Touches.via (State.malformedAt_touches _ _), Touches.via (State.deliver_touches _ _ _ _ _ _ _ _)] | split | dsimp only | refine .fold ?_ fun _ _ => ?_ | refine .fold1 ?_ fun _ _ => ?_ | refine .fold2 ?_ fun _ _ => ?_

theorem State.essence_touches (s : State) (x : Nat) (a : FlowArg) (path : Nat) (i : Option Nat) (p : RtpPacket) (at_ : Nat) : Touches [.regs, .pmu, .chans, .ext, .aud, .net, .txc, .grp, .out] s (State.essence s x a path i p at_) := by
  unfold State.essence
  repeat' first | simp (disch := decide) only [Touches.refl, Touches.via (State.flowDrop_touches _ _), Touches.via (State.intoMerge_touches _ _ _ _ _ _ _)] | split | dsimp only | refine .fold ?_ fun _ _ => ?_ | refine .fold1 ?_ fun _ _ => ?_ | refine .fold2 ?_ fun _ _ => ?_

theorem State.settleStandDown_touches (s : State) : Touches [.regs, .pmu, .tx, .grp, .out] s (State.settleStandDown s) := by
  unfold State.settleStandDown
  repeat' first | simp (disch := decide) only [Touches.refl, Touches.set_grp, Touches.via (State.setRole_touches _ _)] | split | dsimp only | refine .fold ?_ fun _ _ => ?_ | refine .fold1 ?_ fun _ _ => ?_ | refine .fold2 ?_ fun _ _ => ?_

theorem State.overlap_touches (s : State) (k obj : Nat) : Touches [.regs, .log, .logSeq, .mbx, .pmu, .tx, .grp, .out] s (State.overlap s k obj) := by
  unfold State.overlap
  repeat' first | simp (disch := decide) only [Touches.refl, Touches.set_grp, Touches.via (State.updGch_touches _ _ _), Touches.via (State.bump_touches _ _), Touches.via (State.settleStandDown_touches _), Touches.via (State.raise_touches _ _ _ _ _), Touches.via (State.sticky_touches _ _ _)] | split | dsimp only | refine .fold ?_ fun _ _ => ?_ | refine .fold1 ?_ fun _ _ => ?_ | refine .fold2 ?_ fun _ _ => ?_

theorem State.watch_touches (s : State) (c : Nat) (mac : BitVec 48) (p : RtpPacket) : Touches [.regs, .log, .logSeq, .mbx, .pmu, .tx, .grp, .out] s (State.watch s c mac p) := by
  unfold State.watch
  repeat' first | simp (disch := decide) only [Touches.refl, Touches.via (State.updGch_touches _ _ _), Touches.via (State.bump_touches _ _), Touches.via (State.overlap_touches _ _ _)] | split | dsimp only | refine .fold ?_ fun _ _ => ?_ | refine .fold1 ?_ fun _ _ => ?_ | refine .fold2 ?_ fun _ _ => ?_

theorem State.rtpIn_touches (s : State) (i x : Nat) (f : RxFrame) (e : Flow) (p : RtpPacket) : Touches [.regs, .log, .logSeq, .mbx, .pmu, .chans, .ext, .aud, .net, .tx, .txc, .grp, .out] s (State.rtpIn s i x f e p) := by
  unfold State.rtpIn
  repeat' first | simp (disch := decide) only [Touches.refl, Touches.via (State.watch_touches _ _ _ _), Touches.via (State.malformed_touches _ _), Touches.via (State.essence_touches _ _ _ _ _ _ _)] | split | dsimp only | refine .fold ?_ fun _ _ => ?_ | refine .fold1 ?_ fun _ _ => ?_ | refine .fold2 ?_ fun _ _ => ?_

theorem State.byKind_touches (s : State) (i x : Nat) (f : RxFrame) (u : Datagram) (e : Flow) : Touches [.regs, .log, .logSeq, .mbx, .pmu, .chans, .ext, .aud, .net, .tx, .txc, .grp, .out] s (State.byKind s i x f u e) := by
  unfold State.byKind
  repeat' first | simp (disch := decide) only [Touches.refl, Touches.set_net, Touches.via (State.flowDrop_touches _ _), Touches.via (State.toFirmware_touches _ _ _), Touches.via (State.rtpIn_touches _ _ _ _ _ _), Touches.via (State.malformed_touches _ _)] | split | dsimp only | refine .fold ?_ fun _ _ => ?_ | refine .fold1 ?_ fun _ _ => ?_ | refine .fold2 ?_ fun _ _ => ?_

theorem State.udpIn_touches (s : State) (i : Nat) (f : RxFrame) (u : Datagram) : Touches [.regs, .log, .logSeq, .mbx, .pmu, .chans, .ext, .aud, .net, .tx, .txc, .grp, .out] s (State.udpIn s i f u) := by
  unfold State.udpIn
  repeat' first | simp (disch := decide) only [Touches.refl, Touches.via (State.updFlow_touches _ _ _), Touches.via (State.byKind_touches _ _ _ _ _ _), Touches.via (State.unmatched_touches _ _), Touches.via (State.pmuEvent_touches _ _ _)] | split | dsimp only | refine .fold ?_ fun _ _ => ?_ | refine .fold1 ?_ fun _ _ => ?_ | refine .fold2 ?_ fun _ _ => ?_

theorem execEthernetFrameRx_touches (i : Nat) (f : RxFrame) (free : Nat) (s : State) : Touches [.regs, .log, .logSeq, .mbx, .pmu, .mem, .chans, .ext, .aud, .net, .tx, .txc, .grp, .out] s (outState s (execEthernetFrameRx i f free s)) := by
  unfold execEthernetFrameRx
  repeat' first | simp (disch := decide) only [outState, Touches.refl, Touches.via (State.udpIn_touches _ _ _ _), Touches.via (State.bump_touches _ _), Touches.via (State.fixedTake_touches _ _ _ _), Touches.via (State.panicLevel_touches _ _ _), Touches.via (State.unmatched_touches _ _), Touches.via (State.malformed_touches _ _), Touches.via (State.pmuEvent_touches _ _ _), Touches.via (State.sticky_touches _ _ _)] | split | dsimp only | refine .fold ?_ fun _ _ => ?_ | refine .fold1 ?_ fun _ _ => ?_ | refine .fold2 ?_ fun _ _ => ?_

theorem execSeqMissingTimeout_touches (m seq : Nat) (s : State) : Touches [.regs, .pmu, .net, .grp, .out] s (outState s (execSeqMissingTimeout m seq s)) := by
  unfold execSeqMissingTimeout
  repeat' first | simp (disch := decide) only [outState, Touches.refl, Touches.via (State.requestRepair_touches _ _ _), Touches.via (State.updMerge_touches _ _ _)] | split | dsimp only | refine .fold ?_ fun _ _ => ?_ | refine .fold1 ?_ fun _ _ => ?_ | refine .fold2 ?_ fun _ _ => ?_

theorem execMergePathDown_touches (m path : Nat) (s : State) : Touches [.regs, .net] s (outState s (execMergePathDown m path s)) := by
  unfold execMergePathDown
  repeat' first | simp (disch := decide) only [outState, Touches.refl, Touches.via (State.sticky_touches _ _ _), Touches.via (State.updMerge_touches _ _ _)] | split | dsimp only | refine .fold ?_ fun _ _ => ?_ | refine .fold1 ?_ fun _ _ => ?_ | refine .fold2 ?_ fun _ _ => ?_

theorem execNetMergeSkewRead_touches (m : Nat) (s : State) : Touches [.regs, .mbx, .out] s (outState s (execNetMergeSkewRead m s)) := by
  unfold execNetMergeSkewRead
  repeat' first | simp (disch := decide) only [outState, Touches.refl, Touches.via (State.readReserved_touches _), Touches.via (State.readClear_touches _ _)] | split | dsimp only | refine .fold ?_ fun _ _ => ?_ | refine .fold1 ?_ fun _ _ => ?_ | refine .fold2 ?_ fun _ _ => ?_

end Sys2Proof.Machine
end

