-- ==== Sys2Proof/Laws/TouchPicture.lean ====
section
/-!
SUPPORT. What the operations of Rows, Jobs, Proof, Egress, Layers, Channel touch: one frame for each.
-/
set_option linter.all false
namespace Sys2Proof.Machine
open Sys2Proof

theorem execLossMapFreeze_touches (c pic row : Nat) (s : State) : Touches [.regs, .pmu, .chans, .tx, .grp, .out] s (outState s (execLossMapFreeze c pic row s)) := by
  unfold execLossMapFreeze
  repeat' first | simp (disch := decide) only [State.onRow, State.onChan, outState, Touches.refl, Touches.via (State.updGch_touches _ _ _), Touches.via (State.updChan_touches _ _ _), Touches.via (State.vote_touches _ _ _ _), Touches.via (State.sendAll_touches _ _)] | split | dsimp only | refine .fold ?_ fun _ _ => ?_ | refine .fold1 ?_ fun _ _ => ?_ | refine .fold2 ?_ fun _ _ => ?_

theorem State.agreeGaps_touches (s : State) (c n : Nat) : Touches [.grp] s (State.agreeGaps s c n) := by
  unfold State.agreeGaps
  repeat' first | simp (disch := decide) only [Touches.refl, Touches.via (State.updGch_touches _ _ _)] | split | dsimp only | refine .fold ?_ fun _ _ => ?_ | refine .fold1 ?_ fun _ _ => ?_ | refine .fold2 ?_ fun _ _ => ?_

theorem State.memberDeadline_touches (s : State) (c : Nat) (ch : Chan) (n r : Nat) : Touches [.regs, .chans, .grp] s (State.memberDeadline s c ch n r) := by
  unfold State.memberDeadline
  repeat' first | simp (disch := decide) only [Touches.refl, Touches.via (State.bump_touches _ _), Touches.via (State.setFault_touches _ _ _ _), Touches.via (State.agreeGaps_touches _ _ _)] | split | dsimp only | refine .fold ?_ fun _ _ => ?_ | refine .fold1 ?_ fun _ _ => ?_ | refine .fold2 ?_ fun _ _ => ?_

theorem State.latchFront_touches (s : State) (c n : Nat) : Touches [.chans] s (State.latchFront s c n) := by
  unfold State.latchFront
  repeat' first | simp (disch := decide) only [Touches.refl, Touches.via (State.updChan_touches _ _ _)] | split | dsimp only | refine .fold ?_ fun _ _ => ?_ | refine .fold1 ?_ fun _ _ => ?_ | refine .fold2 ?_ fun _ _ => ?_

theorem State.composeRow_touches (s : State) (c n r : Nat) (lost : List Nat) : Touches [.regs, .pmu, .chans] s (State.composeRow s c n r lost) := by
  unfold State.composeRow
  repeat' first | simp (disch := decide) only [State.onRow, State.onChan, Touches.refl, Touches.via (State.updChan_touches _ _ _), Touches.via (State.bumpBy_touches _ _ _), Touches.via (State.pmuEvent_touches _ _ _), Touches.via (State.sticky_touches _ _ _)] | split | dsimp only | refine .fold ?_ fun _ _ => ?_ | refine .fold1 ?_ fun _ _ => ?_ | refine .fold2 ?_ fun _ _ => ?_

theorem State.closePicture_touches (s : State) (c n : Nat) : Touches [.regs, .chans] s (State.closePicture s c n) := by
  unfold State.closePicture
  repeat' first | simp (disch := decide) only [State.onChan, Touches.refl, Touches.via (State.updChan_touches _ _ _), Touches.via (State.tellFlips_touches _ _), Touches.via (State.sticky_touches _ _ _)] | split | dsimp only | refine .fold ?_ fun _ _ => ?_ | refine .fold1 ?_ fun _ _ => ?_ | refine .fold2 ?_ fun _ _ => ?_

theorem State.repeatRow_touches (s : State) (c n r : Nat) : Touches [.chans] s (State.repeatRow s c n r) := by
  unfold State.repeatRow
  repeat' first | simp (disch := decide) only [Touches.refl, Touches.via (State.updChan_touches _ _ _)] | split | dsimp only | refine .fold ?_ fun _ _ => ?_ | refine .fold1 ?_ fun _ _ => ?_ | refine .fold2 ?_ fun _ _ => ?_

theorem State.comparePlan_touches (s : State) (c : Nat) (ch : Chan) (n r : Nat) : Touches [.regs, .pmu, .tx, .grp, .out] s (State.comparePlan s c ch n r) := by
  unfold State.comparePlan
  repeat' first | simp (disch := decide) only [Touches.refl, Touches.via (State.resyncChan_touches _ _), Touches.via (State.sticky_touches _ _ _)] | split | dsimp only | refine .fold ?_ fun _ _ => ?_ | refine .fold1 ?_ fun _ _ => ?_ | refine .fold2 ?_ fun _ _ => ?_

theorem execRowDeadline_touches (c pic row : Nat) (s : State) : Touches [.regs, .pmu, .chans, .tx, .grp, .out] s (outState s (execRowDeadline c pic row s)) := by
  unfold execRowDeadline
  repeat' first | simp (disch := decide) only [State.onRow, State.onChan, outState, Touches.refl, Touches.via (State.composeRow_touches _ _ _ _ _), Touches.via (State.updChan_touches _ _ _), Touches.via (State.comparePlan_touches _ _ _ _ _), Touches.via (State.closePicture_touches _ _ _), Touches.via (State.tellFlips_touches _ _), Touches.via (State.latchFront_touches _ _ _), Touches.via (State.memberDeadline_touches _ _ _ _ _), Touches.via (State.repeatRow_touches _ _ _ _)] | split | dsimp only | refine .fold ?_ fun _ _ => ?_ | refine .fold1 ?_ fun _ _ => ?_ | refine .fold2 ?_ fun _ _ => ?_

theorem State.markDu_touches (s : State) (c n r : Nat) : Touches [.chans, .eng] s (State.markDu s c n r) := by
  unfold State.markDu
  repeat' first | simp (disch := decide) only [State.onRow, State.onChan, Touches.refl, Touches.set_eng, Touches.via (State.updChan_touches _ _ _)] | split | dsimp only | refine .fold ?_ fun _ _ => ?_ | refine .fold1 ?_ fun _ _ => ?_ | refine .fold2 ?_ fun _ _ => ?_

theorem State.damageRow_touches (s : State) (c n r : Nat) (cols : List Nat) : Touches [.chans, .grp] s (State.damageRow s c n r cols) := by
  unfold State.damageRow
  repeat' first | simp (disch := decide) only [State.onRow, State.onChan, Touches.refl, Touches.via (State.updChan_touches _ _ _), Touches.via (State.localEvent_touches _ _ _ _)] | split | dsimp only | refine .fold ?_ fun _ _ => ?_ | refine .fold1 ?_ fun _ _ => ?_ | refine .fold2 ?_ fun _ _ => ?_

theorem State.engCount_touches (s : State) (e off bit : Nat) : Touches [.regs] s (State.engCount s e off bit) := by
  unfold State.engCount
  repeat' first | simp (disch := decide) only [Touches.refl, Touches.via (State.bump_touches _ _), Touches.via (State.sticky_touches _ _ _)] | split | dsimp only | refine .fold ?_ fun _ _ => ?_ | refine .fold1 ?_ fun _ _ => ?_ | refine .fold2 ?_ fun _ _ => ?_

theorem State.peakLoad_touches (s : State) (e v : Nat) : Touches [.regs] s (State.peakLoad s e v) := by
  unfold State.peakLoad
  repeat' first | simp (disch := decide) only [Touches.refl, Touches.via (State.wr_touches _ _ _)] | split | dsimp only | refine .fold ?_ fun _ _ => ?_ | refine .fold1 ?_ fun _ _ => ?_ | refine .fold2 ?_ fun _ _ => ?_

theorem State.takeAlf_touches (s : State) (c n : Nat) : Touches [.chans] s (State.takeAlf s c n) := by
  unfold State.takeAlf
  repeat' first | simp (disch := decide) only [Touches.refl, Touches.via (State.updChan_touches _ _ _)] | split | dsimp only | refine .fold ?_ fun _ _ => ?_ | refine .fold1 ?_ fun _ _ => ?_ | refine .fold2 ?_ fun _ _ => ?_

theorem State.poisonDu_touches (s : State) (c n r : Nat) : Touches [.regs, .chans, .eng] s (State.poisonDu s c n r) := by
  unfold State.poisonDu
  repeat' first | simp (disch := decide) only [State.onRow, State.onChan, Touches.refl, Touches.via (State.updChan_touches _ _ _), Touches.via (State.markDu_touches _ _ _ _), Touches.via (State.engCount_touches _ _ _ _)] | split | dsimp only | refine .fold ?_ fun _ _ => ?_ | refine .fold1 ?_ fun _ _ => ?_ | refine .fold2 ?_ fun _ _ => ?_

theorem State.residueFault_touches (s : State) (c n r : Nat) : Touches [.regs, .chans, .eng] s (State.residueFault s c n r) := by
  unfold State.residueFault
  repeat' first | simp (disch := decide) only [State.onRow, State.onChan, Touches.refl, Touches.via (State.updChan_touches _ _ _), Touches.via (State.markDu_touches _ _ _ _), Touches.via (State.engCount_touches _ _ _ _)] | split | dsimp only | refine .fold ?_ fun _ _ => ?_ | refine .fold1 ?_ fun _ _ => ?_ | refine .fold2 ?_ fun _ _ => ?_

theorem execRowJobRelease_touches (c pic row : Nat) (s : State) : Touches [.regs, .chans, .eng] s (outState s (execRowJobRelease c pic row s)) := by
  unfold execRowJobRelease
  repeat' first | simp (disch := decide) only [State.onRow, State.onChan, outState, Touches.refl, Touches.via (State.updChan_touches _ _ _), Touches.via (State.markDu_touches _ _ _ _), Touches.via (State.poisonDu_touches _ _ _ _), Touches.via (State.sweepEnd_touches _ _ _), Touches.via (State.takeAlf_touches _ _ _)] | split | dsimp only | refine .fold ?_ fun _ _ => ?_ | refine .fold1 ?_ fun _ _ => ?_ | refine .fold2 ?_ fun _ _ => ?_

theorem execAlfDerivation_touches (x : PicAt) (s : State) : Touches [.chans] s (outState s (execAlfDerivation x s)) := by
  unfold execAlfDerivation
  repeat' first | simp (disch := decide) only [outState, Touches.refl, Touches.via (State.updChan_touches _ _ _)] | split | dsimp only | refine .fold ?_ fun _ _ => ?_ | refine .fold1 ?_ fun _ _ => ?_ | refine .fold2 ?_ fun _ _ => ?_

theorem State.countPlan_touches (s : State) (c : Nat) (p : Pic) (pl : Plan) : Touches [.regs] s (State.countPlan s c p pl) := by
  unfold State.countPlan
  repeat' first | simp (disch := decide) only [Touches.refl, Touches.via (State.bump_touches _ _), Touches.via (State.sticky_touches _ _ _)] | split | dsimp only | refine .fold ?_ fun _ _ => ?_ | refine .fold1 ?_ fun _ _ => ?_ | refine .fold2 ?_ fun _ _ => ?_

theorem State.startJob_touches (s : State) (c n r : Nat) : Touches [.regs, .chans, .grp] s (State.startJob s c n r) := by
  unfold State.startJob
  repeat' first | simp (disch := decide) only [State.onChan, Touches.refl, Touches.via (State.setChan_touches _ _ _), Touches.via (State.countPlan_touches _ _ _ _), Touches.via (State.localEvent_touches _ _ _ _)] | split | dsimp only | refine .fold ?_ fun _ _ => ?_ | refine .fold1 ?_ fun _ _ => ?_ | refine .fold2 ?_ fun _ _ => ?_

theorem State.nextJob_touches (s : State) (e : Nat) : Touches [.eng] s (State.nextJob s e) := by
  unfold State.nextJob
  repeat' first | simp (disch := decide) only [Touches.refl, Touches.set_eng] | split | dsimp only | refine .fold ?_ fun _ _ => ?_ | refine .fold1 ?_ fun _ _ => ?_ | refine .fold2 ?_ fun _ _ => ?_

theorem State.leaveJob_touches (s : State) (e : Nat) (j : Nat × Nat × Nat) : Touches [.eng] s (State.leaveJob s e j) := by
  unfold State.leaveJob
  repeat' first | simp (disch := decide) only [Touches.refl, Touches.via (State.nextJob_touches _ _)] | split | dsimp only | refine .fold ?_ fun _ _ => ?_ | refine .fold1 ?_ fun _ _ => ?_ | refine .fold2 ?_ fun _ _ => ?_

theorem execRowJobStart_touches (c pic row : Nat) (s : State) : Touches [.regs, .pmu, .chans, .eng, .grp, .out] s (outState s (execRowJobStart c pic row s)) := by
  unfold execRowJobStart
  repeat' first | simp (disch := decide) only [State.onRow, State.onChan, outState, Touches.refl, Touches.via (State.nextJob_touches _ _), Touches.via (State.captureCopy_touches _ _ _ _), Touches.via (State.startJob_touches _ _ _ _)] | split | dsimp only | refine .fold ?_ fun _ _ => ?_ | refine .fold1 ?_ fun _ _ => ?_ | refine .fold2 ?_ fun _ _ => ?_

theorem execCtuCommit_touches (c pic row : Nat) (t : CtuTry) (filter : CtuFilter) (bp : Nat) (s : State) : Touches [.regs, .pmu, .chans, .eng] s (outState s (execCtuCommit c pic row t filter bp s)) := by
  unfold execCtuCommit
  repeat' first | simp (disch := decide) only [State.onRow, State.onChan, outState, Touches.refl, Touches.via (State.updChan_touches _ _ _), Touches.via (State.bump_touches _ _), Touches.via (State.nextJob_touches _ _), Touches.via (State.pmuEvent_touches _ _ _), Touches.via (State.sticky_touches _ _ _)] | split | dsimp only | refine .fold ?_ fun _ _ => ?_ | refine .fold1 ?_ fun _ _ => ?_ | refine .fold2 ?_ fun _ _ => ?_

theorem execRowJobComplete_touches (c pic row : Nat) (checks : List StageCheck) (overhead : Nat) (lines : List SampleLine) (load : Nat) (s : State) : Touches [.regs, .pmu, .chans, .eng] s (outState s (execRowJobComplete c pic row checks overhead lines load s)) := by
  unfold execRowJobComplete
  simp -zeta -zetaHave only [outState]
  refine State.onRow_touches (fun ch p x t => ?_) s c pic row
  extract_lets m s1 e s2 s3 s4 s5 s6
  by_cases hc : (x.job == .active && (x.latched || x.ctus == m.ctus)) = true
  · rw [if_pos hc]
    have h1 : Touches [.regs, .pmu, .chans, .eng] t s1 := (State.updChan_touches ..).mono (by decide)
    have h2 : Touches [.regs, .pmu, .chans, .eng] t s2 := by
      unfold s2; split
      · exact h1
      · exact h1.then (State.bump_touches ..) (by decide)
    have h3 : Touches [.regs, .pmu, .chans, .eng] t s3 := by
      unfold s3
      split
      · exact h2
      · split
        · exact (h2.then (State.bump_touches ..) (by decide)).then (State.pmuEvent_touches ..) (by decide)
        · split
          · exact (h2.then (State.bump_touches ..) (by decide)).then (State.pmuEvent_touches ..) (by decide)
          · exact h2
    have h4 : Touches [.regs, .pmu, .chans, .eng] t s4 := h3.then (State.peakLoad_touches ..) (by decide)
    have h5 : Touches [.regs, .pmu, .chans, .eng] t s5 := by
      unfold s5; split
      · exact h4.then (State.sweepMissed_touches ..) (by decide)
      · exact h4.then (State.sweepEnd_touches ..) (by decide)
    have h6 : Touches [.regs, .pmu, .chans, .eng] t s6 := h5.then (State.leaveJob_touches ..) (by decide)
    split
    · exact h6.then (State.residueFault_touches ..) (by decide)
    · split
      · exact h6
      · exact h6.then (State.updChan_touches ..) (by decide)
  · rw [if_neg hc]; exact .refl _ _

theorem execJobOverrun_touches (c pic row : Nat) (s : State) : Touches [.regs, .chans, .eng, .grp] s (outState s (execJobOverrun c pic row s)) := by
  unfold execJobOverrun
  repeat' first | simp (disch := decide) only [State.onRow, State.onChan, outState, Touches.refl, Touches.via (State.updChan_touches _ _ _), Touches.via (State.markDu_touches _ _ _ _), Touches.via (State.leaveJob_touches _ _ _), Touches.via (State.engCount_touches _ _ _ _), Touches.via (State.peakLoad_touches _ _ _), Touches.via (State.localEvent_touches _ _ _ _), Touches.via (State.sweepEnd_touches _ _ _)] | split | dsimp only | refine .fold ?_ fun _ _ => ?_ | refine .fold1 ?_ fun _ _ => ?_ | refine .fold2 ?_ fun _ _ => ?_

theorem State.failEngine_touches (s : State) (e : Nat) : Touches [.regs, .log, .logSeq, .mbx, .pmu, .eng, .grp, .out] s (State.failEngine s e) := by
  unfold State.failEngine
  repeat' first | simp (disch := decide) only [Touches.refl, Touches.set_eng, Touches.via (State.raise_touches _ _ _ _ _), Touches.via (State.selfDemote_touches _ _)] | split | dsimp only | refine .fold ?_ fun _ _ => ?_ | refine .fold1 ?_ fun _ _ => ?_ | refine .fold2 ?_ fun _ _ => ?_

theorem execEngineLocalReset_touches (e inFlight : Nat) (s : State) : Touches [.regs, .log, .logSeq, .mbx, .pmu, .mem, .chans, .eng, .grp, .out] s (outState s (execEngineLocalReset e inFlight s)) := by
  unfold execEngineLocalReset
  repeat' first | simp (disch := decide) only [outState, Touches.refl, Touches.set_mem, Touches.set_eng, Touches.via (State.updChan_touches _ _ _), Touches.via (State.bump_touches _ _), Touches.via (State.nextJob_touches _ _), Touches.via (State.engCount_touches _ _ _ _), Touches.via (State.raise_touches _ _ _ _ _), Touches.via (State.failEngine_touches _ _)] | split | dsimp only | refine .fold ?_ fun _ _ => ?_ | refine .fold1 ?_ fun _ _ => ?_ | refine .fold2 ?_ fun _ _ => ?_

theorem State.substRate_touches (s : State) (c : Nat) : Touches [.regs, .log, .logSeq, .mbx, .eng, .out] s (State.substRate s c) := by
  unfold State.substRate
  repeat' first | simp (disch := decide) only [Touches.refl, Touches.set_eng, Touches.via (State.raise_touches _ _ _ _ _)] | split | dsimp only | refine .fold ?_ fun _ _ => ?_ | refine .fold1 ?_ fun _ _ => ?_ | refine .fold2 ?_ fun _ _ => ?_

theorem execDuSubstitution_touches (c pic row overhead bits : Nat) (s : State) : Touches [.regs, .log, .logSeq, .mbx, .pmu, .chans, .eng, .grp, .out] s (outState s (execDuSubstitution c pic row overhead bits s)) := by
  unfold execDuSubstitution
  repeat' first | simp (disch := decide) only [State.onRow, State.onChan, outState, Touches.refl, Touches.set_eng, Touches.via (State.updChan_touches _ _ _), Touches.via (State.bump_touches _ _), Touches.via (State.substRate_touches _ _), Touches.via (State.sweepMissed_touches _ _ _), Touches.via (State.localEvent_touches _ _ _ _), Touches.via (State.pmuEvent_touches _ _ _)] | split | dsimp only | refine .fold ?_ fun _ _ => ?_ | refine .fold1 ?_ fun _ _ => ?_ | refine .fold2 ?_ fun _ _ => ?_

theorem State.compareFin_touches (s : State) (c n r : Nat) : Touches [.regs, .chans, .grp] s (State.compareFin s c n r) := by
  unfold State.compareFin
  repeat' first | simp (disch := decide) only [State.onRow, State.onChan, Touches.refl, Touches.via (State.bump_touches _ _), Touches.via (State.damageRow_touches _ _ _ _ _), Touches.via (State.sticky_touches _ _ _)] | split | dsimp only | refine .fold ?_ fun _ _ => ?_ | refine .fold1 ?_ fun _ _ => ?_ | refine .fold2 ?_ fun _ _ => ?_

theorem execTrailingFilter_touches (c pic row : Nat) (checks : List StageCheck) (fin : List SampleLine) (s : State) : Touches [.regs, .chans, .eng, .grp] s (outState s (execTrailingFilter c pic row checks fin s)) := by
  unfold execTrailingFilter
  repeat' first | simp (disch := decide) only [State.onRow, State.onChan, outState, Touches.refl, Touches.via (State.updChan_touches _ _ _), Touches.via (State.residueFault_touches _ _ _ _), Touches.via (State.compareFin_touches _ _ _ _)] | split | dsimp only | refine .fold ?_ fun _ _ => ?_ | refine .fold1 ?_ fun _ _ => ?_ | refine .fold2 ?_ fun _ _ => ?_

theorem execEngPeakLoadRead_touches (e : Nat) (s : State) : Touches [.regs, .mbx, .out] s (outState s (execEngPeakLoadRead e s)) := by
  unfold execEngPeakLoadRead
  repeat' first | simp (disch := decide) only [outState, Touches.refl, Touches.via (State.readReserved_touches _), Touches.via (State.readClear_touches _ _)] | split | dsimp only | refine .fold ?_ fun _ _ => ?_ | refine .fold1 ?_ fun _ _ => ?_ | refine .fold2 ?_ fun _ _ => ?_

theorem execProofDispatch_touches (s : State) : Touches [.chans, .eng] s (outState s (execProofDispatch s)) := by
  unfold execProofDispatch
  repeat' first | simp (disch := decide) only [outState, Touches.refl, Touches.set_eng, Touches.via (State.updChan_touches _ _ _)] | split | dsimp only | refine .fold ?_ fun _ _ => ?_ | refine .fold1 ?_ fun _ _ => ?_ | refine .fold2 ?_ fun _ _ => ?_

theorem State.sideFault_touches (s : State) (c : Nat) : Touches [.regs] s (State.sideFault s c) := by
  unfold State.sideFault
  repeat' first | simp (disch := decide) only [Touches.refl, Touches.via (State.bump_touches _ _), Touches.via (State.sticky_touches _ _ _)] | split | dsimp only | refine .fold ?_ fun _ _ => ?_ | refine .fold1 ?_ fun _ _ => ?_ | refine .fold2 ?_ fun _ _ => ?_

theorem State.failDu_touches (s : State) (c n r off : Nat) (bit : Word) : Touches [.regs, .chans, .eng] s (State.failDu s c n r off bit) := by
  unfold State.failDu
  repeat' first | simp (disch := decide) only [State.onRow, State.onChan, Touches.refl, Touches.set_eng, Touches.via (State.updChan_touches _ _ _), Touches.via (State.bump_touches _ _), Touches.via (State.markDu_touches _ _ _ _), Touches.via (State.sticky_touches _ _ _), Touches.via (State.sideFault_touches _ _)] | split | dsimp only | refine .fold ?_ fun _ _ => ?_ | refine .fold1 ?_ fun _ _ => ?_ | refine .fold2 ?_ fun _ _ => ?_

theorem State.freePipe_touches (s : State) (p : Nat) : Touches [.eng] s (State.freePipe s p) := by
  unfold State.freePipe
  repeat' first | simp (disch := decide) only [Touches.refl, Touches.set_eng] | split | dsimp only | refine .fold ?_ fun _ _ => ?_ | refine .fold1 ?_ fun _ _ => ?_ | refine .fold2 ?_ fun _ _ => ?_

theorem execProofVerdict_touches (p : Nat) (v : VerdictIn) (s : State) : Touches [.regs, .pmu, .chans, .eng] s (outState s (execProofVerdict p v s)) := by
  unfold execProofVerdict
  repeat' first | simp (disch := decide) only [State.onRow, State.onChan, outState, Touches.refl, Touches.via (State.updChan_touches _ _ _), Touches.via (State.bump_touches _ _), Touches.via (State.freePipe_touches _ _), Touches.via (State.failDu_touches _ _ _ _ _ _), Touches.via (State.pmuEvent_touches _ _ _), Touches.via (State.hist_touches _ _ _ _)] | split | dsimp only | refine .fold ?_ fun _ _ => ?_ | refine .fold1 ?_ fun _ _ => ?_ | refine .fold2 ?_ fun _ _ => ?_

theorem execVerdictDeadline_touches (c pic row : Nat) (s : State) : Touches [.regs, .pmu, .chans, .eng] s (outState s (execVerdictDeadline c pic row s)) := by
  unfold execVerdictDeadline
  repeat' first | simp (disch := decide) only [State.onRow, State.onChan, outState, Touches.refl, Touches.via (State.failDu_touches _ _ _ _ _ _), Touches.via (State.pmuEvent_touches _ _ _)] | split | dsimp only | refine .fold ?_ fun _ _ => ?_ | refine .fold1 ?_ fun _ _ => ?_ | refine .fold2 ?_ fun _ _ => ?_

theorem execSubstituteDecode_touches (c pic row : Nat) (lines : List SampleLine) (s : State) : Touches [.regs, .chans, .grp] s (outState s (execSubstituteDecode c pic row lines s)) := by
  unfold execSubstituteDecode
  repeat' first | simp (disch := decide) only [State.onRow, State.onChan, outState, Touches.refl, Touches.via (State.damageRow_touches _ _ _ _ _), Touches.via (State.sideFault_touches _ _)] | split | dsimp only | refine .fold ?_ fun _ _ => ?_ | refine .fold1 ?_ fun _ _ => ?_ | refine .fold2 ?_ fun _ _ => ?_

theorem execProofTrailingFilter_touches (c pic row : Nat) (fin : List SampleLine) (s : State) : Touches [.regs, .chans, .grp] s (outState s (execProofTrailingFilter c pic row fin s)) := by
  unfold execProofTrailingFilter
  repeat' first | simp (disch := decide) only [State.onRow, State.onChan, outState, Touches.refl, Touches.via (State.updChan_touches _ _ _), Touches.via (State.compareFin_touches _ _ _ _)] | split | dsimp only | refine .fold ?_ fun _ _ => ?_ | refine .fold1 ?_ fun _ _ => ?_ | refine .fold2 ?_ fun _ _ => ?_

theorem State.movePipe_touches (s : State) (p : Nat) : Touches [.chans, .eng] s (State.movePipe s p) := by
  unfold State.movePipe
  repeat' first | simp (disch := decide) only [Touches.refl, Touches.via (State.updChan_touches _ _ _), Touches.via (State.freePipe_touches _ _)] | split | dsimp only | refine .fold ?_ fun _ _ => ?_ | refine .fold1 ?_ fun _ _ => ?_ | refine .fold2 ?_ fun _ _ => ?_

theorem execProofPipeReset_touches (p : Nat) (s : State) : Touches [.regs, .log, .logSeq, .mbx, .chans, .eng, .out] s (outState s (execProofPipeReset p s)) := by
  unfold execProofPipeReset
  repeat' first | simp (disch := decide) only [outState, Touches.refl, Touches.set_eng, Touches.via (State.movePipe_touches _ _), Touches.via (State.raise_touches _ _ _ _ _)] | split | dsimp only | refine .fold ?_ fun _ _ => ?_ | refine .fold1 ?_ fun _ _ => ?_ | refine .fold2 ?_ fun _ _ => ?_

theorem State.extSettle_touches (s : State) (d : Nat) : Touches [.ext] s (State.extSettle s d) := by
  unfold State.extSettle
  repeat' first | simp (disch := decide) only [Touches.refl, Touches.set_ext] | split | dsimp only | refine .fold ?_ fun _ _ => ?_ | refine .fold1 ?_ fun _ _ => ?_ | refine .fold2 ?_ fun _ _ => ?_

theorem execExtAuFreeze_touches (d : Nat) (s : State) : Touches [.regs, .pmu, .ext, .grp, .out] s (outState s (execExtAuFreeze d s)) := by
  unfold execExtAuFreeze
  repeat' first | simp (disch := decide) only [outState, Touches.refl, Touches.set_ext, Touches.via (State.extSettle_touches _ _), Touches.via (State.sendAll_touches _ _)] | split | dsimp only | refine .fold ?_ fun _ _ => ?_ | refine .fold1 ?_ fun _ _ => ?_ | refine .fold2 ?_ fun _ _ => ?_

theorem execExtGapDeadline_touches (d : Nat) (s : State) : Touches [.ext] s (outState s (execExtGapDeadline d s)) := by
  unfold execExtGapDeadline
  repeat' first | simp (disch := decide) only [outState, Touches.refl, Touches.set_ext] | split | dsimp only | refine .fold ?_ fun _ _ => ?_ | refine .fold1 ?_ fun _ _ => ?_ | refine .fold2 ?_ fun _ _ => ?_

theorem State.extMargin_touches (s : State) (d : Nat) (m : Int) : Touches [.regs] s (State.extMargin s d m) := by
  unfold State.extMargin
  repeat' first | simp (disch := decide) only [Touches.refl, Touches.via (State.wr_touches _ _ _)] | split | dsimp only | refine .fold ?_ fun _ _ => ?_ | refine .fold1 ?_ fun _ _ => ?_ | refine .fold2 ?_ fun _ _ => ?_

theorem State.extWrite_touches (s : State) (d : Nat) (e : ExtStream) (c : Nat) (ch : Chan) (f : ExtFrame) (o : ExtOut) : Touches [.regs, .chans] s (State.extWrite s d e c ch f o) := by
  unfold State.extWrite
  repeat' first | simp (disch := decide) only [Touches.refl, Touches.via (State.writeSeg_touches _ _ _ _ _ _ _), Touches.via (State.extMargin_touches _ _ _)] | split | dsimp only | refine .fold ?_ fun _ _ => ?_ | refine .fold1 ?_ fun _ _ => ?_ | refine .fold2 ?_ fun _ _ => ?_

theorem State.extOutput_touches (s : State) (d : Nat) (o : ExtOut) : Touches [.regs, .chans, .ext] s (State.extOutput s d o) := by
  unfold State.extOutput
  repeat' first | simp (disch := decide) only [Touches.refl, Touches.set_ext, Touches.via (State.bump_touches _ _), Touches.via (State.extWrite_touches _ _ _ _ _ _ _)] | split | dsimp only | refine .fold ?_ fun _ _ => ?_ | refine .fold1 ?_ fun _ _ => ?_ | refine .fold2 ?_ fun _ _ => ?_

theorem State.extBegin_touches (s : State) (d a : Nat) (e : ExtStream) (au : ExtAu) : Touches [.regs, .ext] s (State.extBegin s d a e au) := by
  unfold State.extBegin
  repeat' first | simp (disch := decide) only [Touches.refl, Touches.set_ext, Touches.via (State.bumpBy_touches _ _ _), Touches.via (State.sticky_touches _ _ _)] | split | dsimp only | refine .fold ?_ fun _ _ => ?_ | refine .fold1 ?_ fun _ _ => ?_ | refine .fold2 ?_ fun _ _ => ?_

theorem State.extLeave_touches (s : State) (d a : Nat) : Touches [.eng, .ext] s (State.extLeave s d a) := by
  unfold State.extLeave
  repeat' first | simp (disch := decide) only [Touches.refl, Touches.set_eng_ext] | split | dsimp only | refine .fold ?_ fun _ _ => ?_ | refine .fold1 ?_ fun _ _ => ?_ | refine .fold2 ?_ fun _ _ => ?_

theorem State.extPart_touches (s : State) (d a : Nat) (q : ExtSets) (au : ExtAu) : Touches [.regs, .chans, .eng, .ext] s (State.extPart s d a q au) := by
  unfold State.extPart
  repeat' first | simp (disch := decide) only [Touches.refl, Touches.set_ext, Touches.via (State.extOutput_touches _ _ _), Touches.via (State.extLeave_touches _ _ _)] | split | dsimp only | refine .fold ?_ fun _ _ => ?_ | refine .fold1 ?_ fun _ _ => ?_ | refine .fold2 ?_ fun _ _ => ?_

theorem execExtAuDecode_touches (d : Nat) (au : ExtAu) (s : State) : Touches [.regs, .chans, .eng, .ext] s (outState s (execExtAuDecode d au s)) := by
  unfold execExtAuDecode
  repeat' first | simp (disch := decide) only [outState, Touches.refl, Touches.set_ext, Touches.via (State.extPart_touches _ _ _ _ _), Touches.via (State.bump_touches _ _), Touches.via (State.extBegin_touches _ _ _ _ _), Touches.via (State.extLeave_touches _ _ _), Touches.via (State.sticky_touches _ _ _)] | split | dsimp only | refine .fold ?_ fun _ _ => ?_ | refine .fold1 ?_ fun _ _ => ?_ | refine .fold2 ?_ fun _ _ => ?_

theorem execExtMarginMinRead_touches (e : Nat) (s : State) : Touches [.regs, .mbx, .out] s (outState s (execExtMarginMinRead e s)) := by
  unfold execExtMarginMinRead
  repeat' first | simp (disch := decide) only [outState, Touches.refl, Touches.via (State.readReserved_touches _), Touches.via (State.readClear_touches _ _)] | split | dsimp only | refine .fold ?_ fun _ _ => ?_ | refine .fold1 ?_ fun _ _ => ?_ | refine .fold2 ?_ fun _ _ => ?_

theorem State.packetDone_touches (s : State) (c seq : Nat) : Touches [.regs, .txc] s (State.packetDone s c seq) := by
  unfold State.packetDone
  repeat' first | simp (disch := decide) only [Touches.refl, Touches.set_txc, Touches.via (State.bump_touches _ _)] | split | dsimp only | refine .fold ?_ fun _ _ => ?_ | refine .fold1 ?_ fun _ _ => ?_ | refine .fold2 ?_ fun _ _ => ?_

theorem State.linkDrop_touches (s : State) (i c seq : Nat) : Touches [.regs, .txc] s (State.linkDrop s i c seq) := by
  unfold State.linkDrop
  repeat' first | simp (disch := decide) only [Touches.refl, Touches.via (State.bump_touches _ _), Touches.via (State.packetDone_touches _ _ _), Touches.via (State.sticky_touches _ _ _)] | split | dsimp only | refine .fold ?_ fun _ _ => ?_ | refine .fold1 ?_ fun _ _ => ?_ | refine .fold2 ?_ fun _ _ => ?_

theorem State.enqueue_touches (s : State) (i q : Nat) (p : Packet) (eligible : Bool) : Touches [.regs, .tx, .txc] s (State.enqueue s i q p eligible) := by
  unfold State.enqueue
  repeat' first | simp (disch := decide) only [Touches.refl, Touches.via (State.bump_touches _ _), Touches.via (State.settleCredits_touches _ _), Touches.via (State.packetDone_touches _ _ _), Touches.via (State.linkDrop_touches _ _ _ _), Touches.via (State.updTx_touches _ _ _), Touches.via (State.sticky_touches _ _ _)] | split | dsimp only | refine .fold ?_ fun _ _ => ?_ | refine .fold1 ?_ fun _ _ => ?_ | refine .fold2 ?_ fun _ _ => ?_

theorem State.dispatch_touches (s : State) (c : Nat) (o : DefOut) (p : Packet) (eligible : Bool) : Touches [.regs, .tx, .txc] s (State.dispatch s c o p eligible) := by
  unfold State.dispatch
  repeat' first | simp (disch := decide) only [Touches.refl, Touches.set_txc, Touches.via (State.enqueue_touches _ _ _ _ _)] | split | dsimp only | refine .fold ?_ fun _ _ => ?_ | refine .fold1 ?_ fun _ _ => ?_ | refine .fold2 ?_ fun _ _ => ?_

theorem State.sendPacket_touches (s : State) (c : Nat) (o : DefOut) (p : Packet) : Touches [.regs, .tx, .txc, .grp] s (State.sendPacket s c o p) := by
  unfold State.sendPacket
  repeat' first | simp (disch := decide) only [Touches.refl, Touches.set_grp, Touches.via (State.dispatch_touches _ _ _ _ _)] | split | dsimp only | refine .fold ?_ fun _ _ => ?_ | refine .fold1 ?_ fun _ _ => ?_ | refine .fold2 ?_ fun _ _ => ?_

theorem State.takeSeq_touches (s : State) (c : Nat) : Touches [.txc] s (State.takeSeq s c).1 := by
  unfold State.takeSeq
  repeat' first | simp (disch := decide) only [Touches.refl, Touches.set_txc] | split | dsimp only | refine .fold ?_ fun _ _ => ?_ | refine .fold1 ?_ fun _ _ => ?_ | refine .fold2 ?_ fun _ _ => ?_

theorem State.packetise_touches (s : State) (c n r : Nat) (ch : Chan) (head bytes fill start : Nat) : Touches [.regs, .tx, .txc, .grp, .fresh] s (State.packetise s c n r ch head bytes fill start) := by
  unfold State.packetise
  repeat' first | simp (disch := decide) only [Touches.refl, Touches.set_fresh, Touches.via (State.takeSeq_touches _ _), Touches.via (State.sendPacket_touches _ _ _ _)] | split | dsimp only | refine .fold ?_ fun _ _ => ?_ | refine .fold1 ?_ fun _ _ => ?_ | refine .fold2 ?_ fun _ _ => ?_

theorem State.countMissing_touches (s : State) (c n : Nat) (ch : Chan) (p : Pic) : Touches [.regs] s (State.countMissing s c n ch p) := by
  unfold State.countMissing
  repeat' first | simp (disch := decide) only [Touches.refl, Touches.via (State.bumpBy_touches _ _ _)] | split | dsimp only | refine .fold ?_ fun _ _ => ?_ | refine .fold1 ?_ fun _ _ => ?_ | refine .fold2 ?_ fun _ _ => ?_

theorem State.updTxc_touches (s : State) (c : Nat) (f : TxChan → TxChan) : Touches [.txc] s (State.updTxc s c f) := by
  unfold State.updTxc
  repeat' first | simp (disch := decide) only [Touches.refl, Touches.set_txc] | split | dsimp only | refine .fold ?_ fun _ _ => ?_ | refine .fold1 ?_ fun _ _ => ?_ | refine .fold2 ?_ fun _ _ => ?_

theorem State.tsData_touches (s : State) (c n : Nat) (ch : Chan) (p : Pic) : Touches [.regs, .txc, .out] s (State.tsData s c n ch p) := by
  unfold State.tsData
  repeat' first | simp (disch := decide) only [Touches.refl, Touches.via (State.updTxc_touches _ _ _), Touches.via (State.countMissing_touches _ _ _ _ _), Touches.via (State.emit_touches _ _)] | split | dsimp only | refine .fold ?_ fun _ _ => ?_ | refine .fold1 ?_ fun _ _ => ?_ | refine .fold2 ?_ fun _ _ => ?_

theorem State.tsPush_touches (s : State) (c n r : Nat) (ch : Chan) (p : Pic) (bytes start tTx : Nat) : Touches [.regs, .txc, .out] s (State.tsPush s c n r ch p bytes start tTx) := by
  unfold State.tsPush
  repeat' first | simp (disch := decide) only [Touches.refl, Touches.via (State.tsData_touches _ _ _ _ _), Touches.via (State.updTxc_touches _ _ _)] | split | dsimp only | refine .fold ?_ fun _ _ => ?_ | refine .fold1 ?_ fun _ _ => ?_ | refine .fold2 ?_ fun _ _ => ?_

theorem execTsSlot_touches (c : Nat) (s : State) : Touches [.regs, .tx, .txc, .grp] s (outState s (execTsSlot c s)) := by
  unfold execTsSlot
  repeat' first | simp (disch := decide) only [State.onChan, outState, Touches.refl, Touches.via (State.takeSeq_touches _ _), Touches.via (State.updTxc_touches _ _ _), Touches.via (State.sendPacket_touches _ _ _ _)] | split | dsimp only | refine .fold ?_ fun _ _ => ?_ | refine .fold1 ?_ fun _ _ => ?_ | refine .fold2 ?_ fun _ _ => ?_

theorem State.headroom_touches (s : State) (c : Nat) (v : Int) : Touches [.regs] s (State.headroom s c v) := by
  unfold State.headroom
  repeat' first | simp (disch := decide) only [Touches.refl, Touches.via (State.wr_touches _ _ _)] | split | dsimp only | refine .fold ?_ fun _ _ => ?_ | refine .fold1 ?_ fun _ _ => ?_ | refine .fold2 ?_ fun _ _ => ?_

theorem State.countEntry_touches (s : State) (c n r : Nat) (ch : Chan) (e : Entry) : Touches [.regs, .log, .logSeq, .mbx, .out] s (State.countEntry s c n r ch e) := by
  unfold State.countEntry
  repeat' first | simp (disch := decide) only [Touches.refl, Touches.via (State.bump_touches _ _), Touches.via (State.bumpBy_touches _ _ _), Touches.via (State.headroom_touches _ _ _), Touches.via (State.raise_touches _ _ _ _ _), Touches.via (State.sticky_touches _ _ _)] | split | dsimp only | refine .fold ?_ fun _ _ => ?_ | refine .fold1 ?_ fun _ _ => ?_ | refine .fold2 ?_ fun _ _ => ?_

theorem State.stopChan_touches (s : State) (c : Nat) : Touches [.regs, .chans] s (State.stopChan s c) := by
  unfold State.stopChan
  repeat' first | simp (disch := decide) only [State.onChan, Touches.refl, Touches.via (State.setChan_touches _ _ _), Touches.via (State.countStop_touches _ _ _)] | split | dsimp only | refine .fold ?_ fun _ _ => ?_ | refine .fold1 ?_ fun _ _ => ?_ | refine .fold2 ?_ fun _ _ => ?_

theorem State.auDone_touches (s : State) (c n : Nat) (p : Pic) : Touches [.regs, .dev, .mbx, .pmu, .chans, .tx, .grp, .rat, .out] s (State.auDone s c n p) := by
  unfold State.auDone
  repeat' first | simp (disch := decide) only [State.onChan, Touches.refl, Touches.via (State.updGch_touches _ _ _), Touches.via (State.updChan_touches _ _ _), Touches.via (State.bump_touches _ _), Touches.via (State.sweepDone_touches _ _ _), Touches.via (State.wr_touches _ _ _), Touches.via (State.settleShutdown_touches _), Touches.via (State.settleStandDown_touches _), Touches.via (State.stopChan_touches _ _)] | split | dsimp only | refine .fold ?_ fun _ _ => ?_ | refine .fold1 ?_ fun _ _ => ?_ | refine .fold2 ?_ fun _ _ => ?_

theorem execDuTransmitEntry_touches (c pic row : Nat) (s : State) : Touches [.regs, .dev, .log, .logSeq, .mbx, .pmu, .chans, .tx, .txc, .grp, .rat, .out, .fresh] s (outState s (execDuTransmitEntry c pic row s)) := by
  unfold execDuTransmitEntry
  simp -zeta -zetaHave only [outState]
  refine State.onRow_touches (fun ch p x t => ?_) s c pic row
  split
  · exact .refl _ _
  · extract_lets e tTx tc start r0 s1 s2 s3 s4 nals bytes s5 s6
    have h1 : Touches [.regs, .dev, .log, .logSeq, .mbx, .pmu, .chans, .tx, .txc, .grp, .rat, .out, .fresh] t s1 := (State.setChan_touches ..).mono (by decide)
    have h2 : Touches [.regs, .dev, .log, .logSeq, .mbx, .pmu, .chans, .tx, .txc, .grp, .rat, .out, .fresh] t s2 := h1.then (State.countEntry_touches ..) (by decide)
    have h3 : Touches [.regs, .dev, .log, .logSeq, .mbx, .pmu, .chans, .tx, .txc, .grp, .rat, .out, .fresh] t s3 := by
      unfold s3; split
      · split
        · exact h2.then (State.updTxc_touches ..) (by decide)
        · exact h2
      · exact h2
    have h4 : Touches [.regs, .dev, .log, .logSeq, .mbx, .pmu, .chans, .tx, .txc, .grp, .rat, .out, .fresh] t s4 := by
      unfold s4; split
      · exact h3.then (State.sticky_touches ..) (by decide)
      · exact h3
    have h5 : Touches [.regs, .dev, .log, .logSeq, .mbx, .pmu, .chans, .tx, .txc, .grp, .rat, .out, .fresh] t s5 := (h4.then (State.emit_touches ..) (by decide)).then (State.updTxc_touches ..) (by decide)
    have h6 : Touches [.regs, .dev, .log, .logSeq, .mbx, .pmu, .chans, .tx, .txc, .grp, .rat, .out, .fresh] t s6 := by
      unfold s6; split
      · exact h5.then (State.tsPush_touches ..) (by decide)
      · exact h5.then (State.packetise_touches ..) (by decide)
    split
    · exact h6.then (State.auDone_touches ..) (by decide)
    · exact h6

theorem State.dequeue_touches (s : State) (i : Nat) (w : TxPacket) : Touches [.tx] s (State.dequeue s i w) := by
  unfold State.dequeue
  repeat' first | simp (disch := decide) only [Touches.refl, Touches.via (State.settleCredits_touches _ _), Touches.via (State.updTx_touches _ _ _)] | split | dsimp only | refine .fold ?_ fun _ _ => ?_ | refine .fold1 ?_ fun _ _ => ?_ | refine .fold2 ?_ fun _ _ => ?_

theorem execPacketModelInstant_touches (i c seq : Nat) (s : State) : Touches [.regs, .tx, .txc] s (outState s (execPacketModelInstant i c seq s)) := by
  unfold execPacketModelInstant
  repeat' first | simp (disch := decide) only [outState, Touches.refl, Touches.via (State.dequeue_touches _ _ _), Touches.via (State.settleCredits_touches _ _), Touches.via (State.linkDrop_touches _ _ _ _), Touches.via (State.updTx_touches _ _ _)] | split | dsimp only | refine .fold ?_ fun _ _ => ?_ | refine .fold1 ?_ fun _ _ => ?_ | refine .fold2 ?_ fun _ _ => ?_

theorem State.catchupDone_touches (s : State) (i c : Nat) : Touches [.tx] s (State.catchupDone s i c) := by
  unfold State.catchupDone
  repeat' first | simp (disch := decide) only [Touches.refl, Touches.via (State.updTx_touches _ _ _)] | split | dsimp only | refine .fold ?_ fun _ _ => ?_ | refine .fold1 ?_ fun _ _ => ?_ | refine .fold2 ?_ fun _ _ => ?_

theorem State.noteLate_touches (s : State) (i : Nat) (p : Packet) : Touches [.regs] s (State.noteLate s i p) := by
  unfold State.noteLate
  repeat' first | simp (disch := decide) only [Touches.refl, Touches.via (State.hist_touches _ _ _ _), Touches.via (State.recordMax_touches _ _ _ _)] | split | dsimp only | refine .fold ?_ fun _ _ => ?_ | refine .fold1 ?_ fun _ _ => ?_ | refine .fold2 ?_ fun _ _ => ?_

theorem State.sendFrame_touches (s : State) (i : Nat) (f : CtlFrame) : Touches [.regs, .time, .pmu, .tx, .out] s (State.sendFrame s i f) := by
  unfold State.sendFrame
  repeat' first | simp (disch := decide) only [Touches.refl, Touches.set_time, Touches.via (State.bump_touches _ _), Touches.via (State.pmuEvent_touches _ _ _), Touches.via (State.updTx_touches _ _ _), Touches.via (State.emit_touches _ _)] | split | dsimp only | refine .fold ?_ fun _ _ => ?_ | refine .fold1 ?_ fun _ _ => ?_ | refine .fold2 ?_ fun _ _ => ?_

theorem State.sendMedia_touches (s : State) (i : Nat) (w : TxPacket) (def_ : Tab Int) (next : Nat) : Touches [.regs, .pmu, .tx, .txc, .out] s (State.sendMedia s i w def_ next) := by
  unfold State.sendMedia
  repeat' first | simp (disch := decide) only [Touches.refl, Touches.via (State.bump_touches _ _), Touches.via (State.dequeue_touches _ _ _), Touches.via (State.catchupDone_touches _ _ _), Touches.via (State.packetDone_touches _ _ _), Touches.via (State.pmuEvent_touches _ _ _), Touches.via (State.updTx_touches _ _ _), Touches.via (State.emit_touches _ _), Touches.via (State.noteLate_touches _ _ _)] | split | dsimp only | refine .fold ?_ fun _ _ => ?_ | refine .fold1 ?_ fun _ _ => ?_ | refine .fold2 ?_ fun _ _ => ?_

theorem execPacketTransmit_touches (i held : Nat) (s : State) : Touches [.regs, .time, .pmu, .mem, .tx, .txc, .out] s (outState s (execPacketTransmit i held s)) := by
  unfold execPacketTransmit
  repeat' first | simp (disch := decide) only [outState, Touches.refl, Touches.via (State.sendFrame_touches _ _ _), Touches.via (State.settleCredits_touches _ _), Touches.via (State.sendMedia_touches _ _ _ _ _), Touches.via (State.panicLevel_touches _ _ _)] | split | dsimp only | refine .fold ?_ fun _ _ => ?_ | refine .fold1 ?_ fun _ _ => ?_ | refine .fold2 ?_ fun _ _ => ?_

theorem execEgrLateMaxRead_touches (i : Nat) (s : State) : Touches [.regs, .mbx, .out] s (outState s (execEgrLateMaxRead i s)) := by
  unfold execEgrLateMaxRead
  repeat' first | simp (disch := decide) only [outState, Touches.refl, Touches.via (State.readReserved_touches _), Touches.via (State.readClear_touches _ _)] | split | dsimp only | refine .fold ?_ fun _ _ => ?_ | refine .fold1 ?_ fun _ _ => ?_ | refine .fold2 ?_ fun _ _ => ?_

theorem execRcHeadroomMinRead_touches (c : Nat) (s : State) : Touches [.regs, .mbx, .out] s (outState s (execRcHeadroomMinRead c s)) := by
  unfold execRcHeadroomMinRead
  repeat' first | simp (disch := decide) only [outState, Touches.refl, Touches.via (State.readReserved_touches _), Touches.via (State.readClear_touches _ _)] | split | dsimp only | refine .fold ?_ fun _ _ => ?_ | refine .fold1 ?_ fun _ _ => ?_ | refine .fold2 ?_ fun _ _ => ?_

theorem State.doSurfaceAlloc_touches (s : State) (p : SurfaceAllocArg) : Touches [.surf] s (State.doSurfaceAlloc s p).st := by
  unfold State.doSurfaceAlloc
  repeat' first | simp (disch := decide) only [State.checked, Touches.refl, State.reply_st, Touches.set_surf] | split | dsimp only | refine .fold ?_ fun _ _ => ?_ | refine .fold1 ?_ fun _ _ => ?_ | refine .fold2 ?_ fun _ _ => ?_

theorem State.doSurfaceFree_touches (s : State) (h : Nat) : Touches [.surf] s (State.doSurfaceFree s h).st := by
  unfold State.doSurfaceFree
  repeat' first | simp (disch := decide) only [State.checked, Touches.refl, State.done_st, Touches.set_surf] | split | dsimp only | refine .fold ?_ fun _ _ => ?_ | refine .fold1 ?_ fun _ _ => ?_ | refine .fold2 ?_ fun _ _ => ?_

theorem State.doFlipSubmit_touches (s : State) (p : FlipSubmitArg) : Touches [.chans] s (State.doFlipSubmit s p).st := by
  unfold State.doFlipSubmit
  repeat' first | simp (disch := decide) only [State.checked, Touches.refl, State.done_st, Touches.via (State.updChan_touches _ _ _)] | split | dsimp only | refine .fold ?_ fun _ _ => ?_ | refine .fold1 ?_ fun _ _ => ?_ | refine .fold2 ?_ fun _ _ => ?_

theorem execLyrFenceSignal_touches (w : Word) (s : State) : Touches [.regs, .mbx, .surf, .out] s (outState s (execLyrFenceSignal w s)) := by
  unfold execLyrFenceSignal
  repeat' first | simp (disch := decide) only [State.hostWrite, State.barWrite, outState, Touches.refl, Touches.set_surf, Touches.via (State.badAccess_touches _), Touches.via (State.emit_touches _ _), Touches.via (State.unsupported_touches _)] | split | dsimp only | refine .fold ?_ fun _ _ => ?_ | refine .fold1 ?_ fun _ _ => ?_ | refine .fold2 ?_ fun _ _ => ?_

theorem execLyrFenceReset_touches (w : Word) (s : State) : Touches [.regs, .mbx, .surf, .out] s (outState s (execLyrFenceReset w s)) := by
  unfold execLyrFenceReset
  repeat' first | simp (disch := decide) only [State.hostWrite, State.barWrite, outState, Touches.refl, Touches.set_surf, Touches.via (State.badAccess_touches _), Touches.via (State.emit_touches _ _), Touches.via (State.unsupported_touches _)] | split | dsimp only | refine .fold ?_ fun _ _ => ?_ | refine .fold1 ?_ fun _ _ => ?_ | refine .fold2 ?_ fun _ _ => ?_

theorem execLyrCurPos_touches (c : Nat) (w : Word) (s : State) : Touches [.regs, .mbx, .chans, .out] s (outState s (execLyrCurPos c w s)) := by
  unfold execLyrCurPos
  repeat' first | simp (disch := decide) only [State.onChan, State.hostWrite, State.barWrite, outState, Touches.refl, Touches.via (State.updChan_touches _ _ _), Touches.via (State.wr_touches _ _ _), Touches.via (State.badAccess_touches _), Touches.via (State.emit_touches _ _), Touches.via (State.unsupported_touches _)] | split | dsimp only | refine .fold ?_ fun _ _ => ?_ | refine .fold1 ?_ fun _ _ => ?_ | refine .fold2 ?_ fun _ _ => ?_

theorem State.rejectPush_touches (s : State) (c : Nat) (mask : Word) : Touches [.regs] s (State.rejectPush s c mask) := by
  unfold State.rejectPush
  repeat' first | simp (disch := decide) only [Touches.refl, Touches.via (State.bump_touches _ _), Touches.via (State.sticky_touches _ _ _)] | split | dsimp only | refine .fold ?_ fun _ _ => ?_ | refine .fold1 ?_ fun _ _ => ?_ | refine .fold2 ?_ fun _ _ => ?_

theorem execLyrCurQueue_touches (c : Nat) (w : Word) (s : State) : Touches [.regs, .mbx, .chans, .out] s (outState s (execLyrCurQueue c w s)) := by
  unfold execLyrCurQueue
  repeat' first | simp (disch := decide) only [State.onChan, State.hostWrite, State.barWrite, outState, Touches.refl, Touches.via (State.updChan_touches _ _ _), Touches.via (State.rejectPush_touches _ _ _), Touches.via (State.badAccess_touches _), Touches.via (State.emit_touches _ _), Touches.via (State.unsupported_touches _)] | split | dsimp only | refine .fold ?_ fun _ _ => ?_ | refine .fold1 ?_ fun _ _ => ?_ | refine .fold2 ?_ fun _ _ => ?_

theorem execLyrFlipResultRead_touches (c : Nat) (s : State) : Touches [.regs, .mbx, .out] s (outState s (execLyrFlipResultRead c s)) := by
  unfold execLyrFlipResultRead
  repeat' first | simp (disch := decide) only [outState, Touches.refl, Touches.via (State.readReserved_touches _), Touches.via (State.readClear_touches _ _)] | split | dsimp only | refine .fold ?_ fun _ _ => ?_ | refine .fold1 ?_ fun _ _ => ?_ | refine .fold2 ?_ fun _ _ => ?_

theorem State.doProtectedLoad_touches (s : State) (x : CmdCtx) (p : ProtectedLoadArg) : Touches [.chans] s (State.doProtectedLoad s x p).st := by
  unfold State.doProtectedLoad
  repeat' first | simp (disch := decide) only [State.checked, Touches.refl, State.reply_st, State.done_st, Touches.via (State.updChan_touches _ _ _)] | split | dsimp only | refine .fold ?_ fun _ _ => ?_ | refine .fold1 ?_ fun _ _ => ?_ | refine .fold2 ?_ fun _ _ => ?_

theorem State.doProtectedRemove_touches (s : State) (x : CmdCtx) (p : ChtArg) : Touches [.chans] s (State.doProtectedRemove s x p).st := by
  unfold State.doProtectedRemove
  repeat' first | simp (disch := decide) only [State.checked, Touches.refl, State.reply_st, State.done_st, Touches.via (State.updChan_touches _ _ _)] | split | dsimp only | refine .fold ?_ fun _ _ => ?_ | refine .fold1 ?_ fun _ _ => ?_ | refine .fold2 ?_ fun _ _ => ?_

theorem State.doTonemapLoad_touches (s : State) (p : TonemapLoadArg) : Touches [.chans] s (State.doTonemapLoad s p).st := by
  unfold State.doTonemapLoad
  repeat' first | simp (disch := decide) only [State.checked, Touches.refl, State.done_st, Touches.via (State.updChan_touches _ _ _)] | split | dsimp only | refine .fold ?_ fun _ _ => ?_ | refine .fold1 ?_ fun _ _ => ?_ | refine .fold2 ?_ fun _ _ => ?_

theorem State.clearChanRegs_touches (s : State) (c : Nat) : Touches [.regs] s (State.clearChanRegs s c) := by
  unfold State.clearChanRegs
  repeat' first | simp (disch := decide) only [Touches.refl, Touches.via (State.clearRegs_touches _ _ _)] | split | dsimp only | refine .fold ?_ fun _ _ => ?_ | refine .fold1 ?_ fun _ _ => ?_ | refine .fold2 ?_ fun _ _ => ?_

theorem State.dropEgress_touches (s : State) (c : Nat) : Touches [.tx, .txc, .grp] s (State.dropEgress s c) := by
  unfold State.dropEgress
  repeat' first | simp (disch := decide) only [Touches.refl, Touches.set_tx_txc_grp] | split | dsimp only | refine .fold ?_ fun _ _ => ?_ | refine .fold1 ?_ fun _ _ => ?_ | refine .fold2 ?_ fun _ _ => ?_

theorem State.doChannelDefine_touches (s : State) (p : ChannelDefineArg) : Touches [.regs, .chans, .surf, .tx, .txc, .grp] s (State.doChannelDefine s p).st := by
  unfold State.doChannelDefine
  repeat' first | simp (disch := decide) only [State.checked, Touches.refl, State.reply_st, Touches.set_surf_txc_grp, Touches.via (State.clearMerge_touches _ _), Touches.via (State.setChan_touches _ _ _), Touches.via (State.dropEgress_touches _ _), Touches.via (State.clearChanRegs_touches _ _)] | split | dsimp only | refine .fold ?_ fun _ _ => ?_ | refine .fold1 ?_ fun _ _ => ?_ | refine .fold2 ?_ fun _ _ => ?_

theorem State.settleFree_touches (s : State) : Touches [.grp] s (State.settleFree s) := by
  unfold State.settleFree
  repeat' first | simp (disch := decide) only [Touches.refl, Touches.set_grp] | split | dsimp only | refine .fold ?_ fun _ _ => ?_ | refine .fold1 ?_ fun _ _ => ?_ | refine .fold2 ?_ fun _ _ => ?_

theorem State.doChannelDelete_touches (s : State) (p : ChArg) : Touches [.regs, .chans, .surf, .tx, .txc, .grp] s (State.doChannelDelete s p).st := by
  unfold State.doChannelDelete
  repeat' first | simp (disch := decide) only [State.checked, Touches.refl, State.done_st, Touches.set_chans_surf_grp, Touches.via (State.settleFree_touches _), Touches.via (State.dropEgress_touches _ _), Touches.via (State.clearChanRegs_touches _ _)] | split | dsimp only | refine .fold ?_ fun _ _ => ?_ | refine .fold1 ?_ fun _ _ => ?_ | refine .fold2 ?_ fun _ _ => ?_

theorem State.doChannelStart_touches (s : State) (p : ChtArg) : Touches [.chans] s (State.doChannelStart s p).st := by
  unfold State.doChannelStart
  repeat' first | simp (disch := decide) only [State.checked, Touches.refl, State.reply_st, State.done_st, Touches.via (State.setChan_touches _ _ _)] | split | dsimp only | refine .fold ?_ fun _ _ => ?_ | refine .fold1 ?_ fun _ _ => ?_ | refine .fold2 ?_ fun _ _ => ?_

theorem State.doChannelStop_touches (s : State) (p : ChtArg) : Touches [.regs, .chans] s (State.doChannelStop s p).st := by
  unfold State.doChannelStop
  repeat' first | simp (disch := decide) only [State.checked, Touches.refl, State.reply_st, State.done_st, Touches.via (State.cancelMarks_touches _ _ _), Touches.via (State.setChan_touches _ _ _)] | split | dsimp only | refine .fold ?_ fun _ _ => ?_ | refine .fold1 ?_ fun _ _ => ?_ | refine .fold2 ?_ fun _ _ => ?_

theorem State.doChannelSet_touches (s : State) (p : ChannelSetArg) : Touches [.chans] s (State.doChannelSet s p).st := by
  unfold State.doChannelSet
  repeat' first | simp (disch := decide) only [State.checked, Touches.refl, State.done_st, Touches.via (State.updChan_touches _ _ _)] | split | dsimp only | refine .fold ?_ fun _ _ => ?_ | refine .fold1 ?_ fun _ _ => ?_ | refine .fold2 ?_ fun _ _ => ?_

theorem State.doChannelCommit_touches (s : State) (p : ChArg) : Touches [.chans, .grp] s (State.doChannelCommit s p).st := by
  unfold State.doChannelCommit
  repeat' first | simp (disch := decide) only [State.checked, Touches.refl, State.reply_st, State.done_st, Touches.via (State.updGch_touches _ _ _), Touches.via (State.setChan_touches _ _ _)] | split | dsimp only | refine .fold ?_ fun _ _ => ?_ | refine .fold1 ?_ fun _ _ => ?_ | refine .fold2 ?_ fun _ _ => ?_

theorem State.doChannelRefresh_touches (s : State) (p : ChtArg) : Touches [.chans] s (State.doChannelRefresh s p).st := by
  unfold State.doChannelRefresh
  repeat' first | simp (disch := decide) only [State.checked, Touches.refl, State.reply_st, State.done_st, Touches.via (State.setChan_touches _ _ _)] | split | dsimp only | refine .fold ?_ fun _ _ => ?_ | refine .fold1 ?_ fun _ _ => ?_ | refine .fold2 ?_ fun _ _ => ?_

theorem State.doLtrMark_touches (s : State) (p : ChtArg) : Touches [.chans] s (State.doLtrMark s p).st := by
  unfold State.doLtrMark
  repeat' first | simp (disch := decide) only [State.checked, Touches.refl, State.reply_st, State.done_st, Touches.via (State.setChan_touches _ _ _)] | split | dsimp only | refine .fold ?_ fun _ _ => ?_ | refine .fold1 ?_ fun _ _ => ?_ | refine .fold2 ?_ fun _ _ => ?_

theorem State.doLtrRelease_touches (s : State) (p : ChtArg) : Touches [.chans] s (State.doLtrRelease s p).st := by
  unfold State.doLtrRelease
  repeat' first | simp (disch := decide) only [State.checked, Touches.refl, State.reply_st, State.done_st, Touches.via (State.setChan_touches _ _ _)] | split | dsimp only | refine .fold ?_ fun _ _ => ?_ | refine .fold1 ?_ fun _ _ => ?_ | refine .fold2 ?_ fun _ _ => ?_

theorem State.doRoiSet_touches (s : State) (p : RoiSetArg) : Touches [.chans] s (State.doRoiSet s p).st := by
  unfold State.doRoiSet
  repeat' first | simp (disch := decide) only [State.checked, Touches.refl, State.done_st, Touches.via (State.updChan_touches _ _ _)] | split | dsimp only | refine .fold ?_ fun _ _ => ?_ | refine .fold1 ?_ fun _ _ => ?_ | refine .fold2 ?_ fun _ _ => ?_

theorem State.doRoiClear_touches (s : State) (p : ChArg) : Touches [.chans] s (State.doRoiClear s p).st := by
  unfold State.doRoiClear
  repeat' first | simp (disch := decide) only [State.checked, Touches.refl, State.done_st, Touches.via (State.updChan_touches _ _ _)] | split | dsimp only | refine .fold ?_ fun _ _ => ?_ | refine .fold1 ?_ fun _ _ => ?_ | refine .fold2 ?_ fun _ _ => ?_

theorem State.doExtStreamDefine_touches (s : State) (p : ExtStreamArg) : Touches [.regs, .ext] s (State.doExtStreamDefine s p).st := by
  unfold State.doExtStreamDefine
  repeat' first | simp (disch := decide) only [State.checked, Touches.refl, State.done_st, Touches.set_ext, Touches.via (State.clearMerge_touches _ _), Touches.via (State.clearRegs_touches _ _ _)] | split | dsimp only | refine .fold ?_ fun _ _ => ?_ | refine .fold1 ?_ fun _ _ => ?_ | refine .fold2 ?_ fun _ _ => ?_

theorem State.doExtStreamDelete_touches (s : State) (p : ChArg) : Touches [.regs, .eng, .ext] s (State.doExtStreamDelete s p).st := by
  unfold State.doExtStreamDelete
  repeat' first | simp (disch := decide) only [State.checked, Touches.refl, State.done_st, Touches.set_eng_ext, Touches.via (State.clearRegs_touches _ _ _)] | split | dsimp only | refine .fold ?_ fun _ _ => ?_ | refine .fold1 ?_ fun _ _ => ?_ | refine .fold2 ?_ fun _ _ => ?_

theorem execChnAuCountLoRead_touches (c : Nat) (s : State) : Touches [.regs, .mbx, .out] s (outState s (execChnAuCountLoRead c s)) := by
  unfold execChnAuCountLoRead
  repeat' first | simp (disch := decide) only [State.hostRead, State.barRead, outState, Touches.refl, Touches.via (State.wr_touches _ _ _), Touches.via (State.readReserved_touches _), Touches.via (State.emit_touches _ _), Touches.via (State.badAccess_touches _), Touches.via (State.unsupported_touches _)] | split | dsimp only | refine .fold ?_ fun _ _ => ?_ | refine .fold1 ?_ fun _ _ => ?_ | refine .fold2 ?_ fun _ _ => ?_

end Sys2Proof.Machine
end

