-- ==== Sys2Proof/Laws/TouchGroup.lean ====
section
/-!
SUPPORT. What the operations of Lanes, Group, Ratline, Selftest, Power, Memory touch: one frame for each.
-/
set_option linter.all false
namespace Sys2Proof.Machine
open Sys2Proof

theorem State.updLane_touches (s : State) (l : Nat) (f : Lane → Lane) : Touches [.lane] s (State.updLane s l f) := by
  unfold State.updLane
  repeat' first | simp (disch := decide) only [Touches.refl, Touches.set_lane] | split | dsimp only | refine .fold ?_ fun _ _ => ?_ | refine .fold1 ?_ fun _ _ => ?_ | refine .fold2 ?_ fun _ _ => ?_

theorem State.updPort_touches (s : State) (q : Nat) (f : Port → Port) : Touches [.lane] s (State.updPort s q f) := by
  unfold State.updPort
  repeat' first | simp (disch := decide) only [Touches.refl, Touches.set_lane] | split | dsimp only | refine .fold ?_ fun _ _ => ?_ | refine .fold1 ?_ fun _ _ => ?_ | refine .fold2 ?_ fun _ _ => ?_

theorem State.retrainLanes_touches (s : State) (q : Nat) : Touches [.lane] s (State.retrainLanes s q) := by
  unfold State.retrainLanes
  repeat' first | simp (disch := decide) only [Touches.refl, Touches.via (State.updLane_touches _ _ _)] | split | dsimp only | refine .fold ?_ fun _ _ => ?_ | refine .fold1 ?_ fun _ _ => ?_ | refine .fold2 ?_ fun _ _ => ?_

theorem State.linkRestart_touches (s : State) (q : Nat) : Touches [.grp, .rat] s (State.linkRestart s q) := by
  unfold State.linkRestart
  repeat' first | simp (disch := decide) only [Touches.refl, Touches.set_rat, Touches.via (State.setLeg_touches _ _ _)] | split | dsimp only | refine .fold ?_ fun _ _ => ?_ | refine .fold1 ?_ fun _ _ => ?_ | refine .fold2 ?_ fun _ _ => ?_

theorem State.legFailed_touches (s : State) (leg cause : Nat) : Touches [.regs, .log, .logSeq, .mbx, .out] s (State.legFailed s leg cause) := by
  unfold State.legFailed
  repeat' first | simp (disch := decide) only [Touches.refl, Touches.via (State.bump_touches _ _), Touches.via (State.raise_touches _ _ _ _ _), Touches.via (State.sticky_touches _ _ _)] | split | dsimp only | refine .fold ?_ fun _ _ => ?_ | refine .fold1 ?_ fun _ _ => ?_ | refine .fold2 ?_ fun _ _ => ?_

theorem State.failPort_touches (s : State) (q cause : Nat) : Touches [.regs, .log, .logSeq, .mbx, .grp, .lane, .rat, .out] s (State.failPort s q cause) := by
  unfold State.failPort
  repeat' first | simp (disch := decide) only [Touches.refl, Touches.via (State.bump_touches _ _), Touches.via (State.retrainLanes_touches _ _), Touches.via (State.linkRestart_touches _ _), Touches.via (State.legFailed_touches _ _ _), Touches.via (State.sticky_touches _ _ _), Touches.via (State.updPort_touches _ _ _)] | split | dsimp only | refine .fold ?_ fun _ _ => ?_ | refine .fold1 ?_ fun _ _ => ?_ | refine .fold2 ?_ fun _ _ => ?_

theorem State.trainFail_touches (s : State) (q : Nat) : Touches [.regs, .log, .logSeq, .mbx, .grp, .lane, .rat, .out] s (State.trainFail s q) := by
  unfold State.trainFail
  repeat' first | simp (disch := decide) only [Touches.refl, Touches.via (State.bump_touches _ _), Touches.via (State.failPort_touches _ _ _), Touches.via (State.sticky_touches _ _ _)] | split | dsimp only | refine .fold ?_ fun _ _ => ?_ | refine .fold1 ?_ fun _ _ => ?_ | refine .fold2 ?_ fun _ _ => ?_

theorem State.settlePort_touches (s : State) (q : Nat) : Touches [.lane] s (State.settlePort s q) := by
  unfold State.settlePort
  repeat' first | simp (disch := decide) only [Touches.refl, Touches.via (State.retrainLanes_touches _ _), Touches.via (State.updPort_touches _ _ _)] | split | dsimp only | refine .fold ?_ fun _ _ => ?_ | refine .fold1 ?_ fun _ _ => ?_ | refine .fold2 ?_ fun _ _ => ?_

theorem State.laneLost_touches (s : State) (l : Nat) : Touches [.regs, .log, .logSeq, .mbx, .grp, .lane, .rat, .out] s (State.laneLost s l) := by
  unfold State.laneLost
  repeat' first | simp (disch := decide) only [Touches.refl, Touches.via (State.failPort_touches _ _ _), Touches.via (State.settlePort_touches _ _)] | split | dsimp only | refine .fold ?_ fun _ _ => ?_ | refine .fold1 ?_ fun _ _ => ?_ | refine .fold2 ?_ fun _ _ => ?_

theorem execLaneLosSet_touches (l : Nat) (s : State) : Touches [.regs, .log, .logSeq, .mbx, .grp, .lane, .rat, .out] s (outState s (execLaneLosSet l s)) := by
  unfold execLaneLosSet
  repeat' first | simp (disch := decide) only [outState, Touches.refl, Touches.via (State.bump_touches _ _), Touches.via (State.updLane_touches _ _ _), Touches.via (State.laneLost_touches _ _), Touches.via (State.sticky_touches _ _ _)] | split | dsimp only | refine .fold ?_ fun _ _ => ?_ | refine .fold1 ?_ fun _ _ => ?_ | refine .fold2 ?_ fun _ _ => ?_

theorem execLaneLosClear_touches (l : Nat) (s : State) : Touches [.lane] s (outState s (execLaneLosClear l s)) := by
  unfold execLaneLosClear
  repeat' first | simp (disch := decide) only [outState, Touches.refl, Touches.via (State.updLane_touches _ _ _)] | split | dsimp only | refine .fold ?_ fun _ _ => ?_ | refine .fold1 ?_ fun _ _ => ?_ | refine .fold2 ?_ fun _ _ => ?_

theorem State.loseCdr_touches (s : State) (l : Nat) : Touches [.regs, .lane] s (State.loseCdr s l) := by
  unfold State.loseCdr
  repeat' first | simp (disch := decide) only [Touches.refl, Touches.via (State.bump_touches _ _), Touches.via (State.updLane_touches _ _ _), Touches.via (State.sticky_touches _ _ _)] | split | dsimp only | refine .fold ?_ fun _ _ => ?_ | refine .fold1 ?_ fun _ _ => ?_ | refine .fold2 ?_ fun _ _ => ?_

theorem execCdrLockChange_touches (l : Nat) (locked : Bool) (s : State) : Touches [.regs, .log, .logSeq, .mbx, .grp, .lane, .rat, .out] s (outState s (execCdrLockChange l locked s)) := by
  unfold execCdrLockChange
  repeat' first | simp (disch := decide) only [outState, Touches.refl, Touches.via (State.loseCdr_touches _ _), Touches.via (State.updLane_touches _ _ _), Touches.via (State.laneLost_touches _ _)] | split | dsimp only | refine .fold ?_ fun _ _ => ?_ | refine .fold1 ?_ fun _ _ => ?_ | refine .fold2 ?_ fun _ _ => ?_

theorem execSymbolLock_touches (l : Nat) (inverted : Bool) (s : State) : Touches [.lane] s (outState s (execSymbolLock l inverted s)) := by
  unfold execSymbolLock
  repeat' first | simp (disch := decide) only [outState, Touches.refl, Touches.via (State.updLane_touches _ _ _), Touches.via (State.retrainLanes_touches _ _), Touches.via (State.updPort_touches _ _ _)] | split | dsimp only | refine .fold ?_ fun _ _ => ?_ | refine .fold1 ?_ fun _ _ => ?_ | refine .fold2 ?_ fun _ _ => ?_

theorem execCodeError_touches (l symbol : Nat) (s : State) : Touches [.regs, .log, .logSeq, .mbx, .pmu, .grp, .lane, .rat, .out] s (outState s (execCodeError l symbol s)) := by
  unfold execCodeError
  repeat' first | simp (disch := decide) only [outState, Touches.refl, Touches.via (State.bump_touches _ _), Touches.via (State.updLane_touches _ _ _), Touches.via (State.laneLost_touches _ _), Touches.via (State.pmuEvent_touches _ _ _), Touches.via (State.sticky_touches _ _ _)] | split | dsimp only | refine .fold ?_ fun _ _ => ?_ | refine .fold1 ?_ fun _ _ => ?_ | refine .fold2 ?_ fun _ _ => ?_

theorem execLaneFomLow_touches (l fom : Nat) (s : State) : Touches [.regs, .lane] s (outState s (execLaneFomLow l fom s)) := by
  unfold execLaneFomLow
  repeat' first | simp (disch := decide) only [outState, Touches.refl, Touches.via (State.bump_touches _ _), Touches.via (State.updLane_touches _ _ _), Touches.via (State.sticky_touches _ _ _)] | split | dsimp only | refine .fold ?_ fun _ _ => ?_ | refine .fold1 ?_ fun _ _ => ?_ | refine .fold2 ?_ fun _ _ => ?_

theorem execLaneFomRead_touches (l : Nat) (s : State) : Touches [.regs, .mbx, .lane, .out] s (outState s (execLaneFomRead l s)) := by
  unfold execLaneFomRead
  repeat' first | simp (disch := decide) only [State.hostRead, State.barRead, outState, Touches.refl, Touches.via (State.updLane_touches _ _ _), Touches.via (State.readReserved_touches _), Touches.via (State.emit_touches _ _), Touches.via (State.badAccess_touches _), Touches.via (State.unsupported_touches _)] | split | dsimp only | refine .fold ?_ fun _ _ => ?_ | refine .fold1 ?_ fun _ _ => ?_ | refine .fold2 ?_ fun _ _ => ?_

theorem execElasticSlip_touches (q : Nat) (s : State) : Touches [.regs, .log, .logSeq, .mbx, .grp, .lane, .rat, .out] s (outState s (execElasticSlip q s)) := by
  unfold execElasticSlip
  repeat' first | simp (disch := decide) only [outState, Touches.refl, Touches.via (State.bump_touches _ _), Touches.via (State.failPort_touches _ _ _), Touches.via (State.sticky_touches _ _ _), Touches.via (State.updPort_touches _ _ _)] | split | dsimp only | refine .fold ?_ fun _ _ => ?_ | refine .fold1 ?_ fun _ _ => ?_ | refine .fold2 ?_ fun _ _ => ?_

theorem execAln_touches (q : Nat) (numbers : List Nat) (skew : Nat) (s : State) : Touches [.regs, .log, .logSeq, .mbx, .grp, .lane, .rat, .out] s (outState s (execAln q numbers skew s)) := by
  unfold execAln
  repeat' first | simp (disch := decide) only [outState, Touches.refl, Touches.via (State.updLane_touches _ _ _), Touches.via (State.retrainLanes_touches _ _), Touches.via (State.trainFail_touches _ _), Touches.via (State.updPort_touches _ _ _)] | split | dsimp only | refine .fold ?_ fun _ _ => ?_ | refine .fold1 ?_ fun _ _ => ?_ | refine .fold2 ?_ fun _ _ => ?_

theorem State.settleUp_touches (s : State) (q : Nat) : Touches [.regs, .mbx, .pmu, .grp, .lane, .rat, .out] s (State.settleUp s q) := by
  unfold State.settleUp
  repeat' first | simp (disch := decide) only [Touches.refl, Touches.via (State.sendHello_touches _ _), Touches.via (State.settleJoin_touches _), Touches.via (State.updPort_touches _ _ _)] | split | dsimp only | refine .fold ?_ fun _ _ => ?_ | refine .fold1 ?_ fun _ _ => ?_ | refine .fold2 ?_ fun _ _ => ?_

theorem execTrn_touches (q : Nat) (t : TrnSet) (s : State) : Touches [.regs, .mbx, .pmu, .grp, .lane, .rat, .out] s (outState s (execTrn q t s)) := by
  unfold execTrn
  repeat' first | simp (disch := decide) only [outState, Touches.refl, Touches.via (State.updLane_touches _ _ _), Touches.via (State.retrainLanes_touches _ _), Touches.via (State.linkRestart_touches _ _), Touches.via (State.settleUp_touches _ _), Touches.via (State.updPort_touches _ _ _)] | split | dsimp only | refine .fold ?_ fun _ _ => ?_ | refine .fold1 ?_ fun _ _ => ?_ | refine .fold2 ?_ fun _ _ => ?_

theorem execTrainingStepTimer_touches (l fom : Nat) (s : State) : Touches [.regs, .mbx, .pmu, .grp, .lane, .rat, .out] s (outState s (execTrainingStepTimer l fom s)) := by
  unfold execTrainingStepTimer
  repeat' first | simp (disch := decide) only [outState, Touches.refl, Touches.via (State.updLane_touches _ _ _), Touches.via (State.settleUp_touches _ _), Touches.via (State.emit_touches _ _)] | split | dsimp only | refine .fold ?_ fun _ _ => ?_ | refine .fold1 ?_ fun _ _ => ?_ | refine .fold2 ?_ fun _ _ => ?_

theorem execTrainingTimeout_touches (q : Nat) (foms : List Nat) (s : State) : Touches [.regs, .log, .logSeq, .mbx, .pmu, .grp, .lane, .rat, .out] s (outState s (execTrainingTimeout q foms s)) := by
  unfold execTrainingTimeout
  repeat' first | simp (disch := decide) only [outState, Touches.refl, Touches.via (State.updLane_touches _ _ _), Touches.via (State.trainFail_touches _ _), Touches.via (State.settleUp_touches _ _)] | split | dsimp only | refine .fold ?_ fun _ _ => ?_ | refine .fold1 ?_ fun _ _ => ?_ | refine .fold2 ?_ fun _ _ => ?_

theorem execFailedHoldExpiry_touches (q : Nat) (s : State) : Touches [.lane] s (outState s (execFailedHoldExpiry q s)) := by
  unfold execFailedHoldExpiry
  repeat' first | simp (disch := decide) only [outState, Touches.refl, Touches.via (State.updPort_touches _ _ _)] | split | dsimp only | refine .fold ?_ fun _ _ => ?_ | refine .fold1 ?_ fun _ _ => ?_ | refine .fold2 ?_ fun _ _ => ?_

theorem execRefclkLinkLoss_touches (s : State) : Touches [.regs, .dev, .log, .logSeq, .mbx, .grp, .lane, .rat, .out] s (outState s (execRefclkLinkLoss s)) := by
  unfold execRefclkLinkLoss
  repeat' first | simp (disch := decide) only [outState, Touches.refl, Touches.set_dev, Touches.via (State.updLane_touches _ _ _), Touches.via (State.failPort_touches _ _ _)] | split | dsimp only | refine .fold ?_ fun _ _ => ?_ | refine .fold1 ?_ fun _ _ => ?_ | refine .fold2 ?_ fun _ _ => ?_

theorem execRefclkLinkReturn_touches (s : State) : Touches [.dev, .lane] s (outState s (execRefclkLinkReturn s)) := by
  unfold execRefclkLinkReturn
  repeat' first | simp (disch := decide) only [outState, Touches.refl, Touches.set_dev, Touches.via (State.updPort_touches _ _ _)] | split | dsimp only | refine .fold ?_ fun _ _ => ?_ | refine .fold1 ?_ fun _ _ => ?_ | refine .fold2 ?_ fun _ _ => ?_

theorem State.standDownCheck_touches (s : State) : Touches [.regs, .pmu, .grp, .out] s (State.standDownCheck s) := by
  unfold State.standDownCheck
  repeat' first | simp (disch := decide) only [Touches.refl, Touches.via (State.sendAll_touches _ _)] | split | dsimp only | refine .fold ?_ fun _ _ => ?_ | refine .fold1 ?_ fun _ _ => ?_ | refine .fold2 ?_ fun _ _ => ?_

theorem State.dropEligible_touches (s : State) (i : Nat) : Touches [.regs, .tx, .txc] s (State.dropEligible s i) := by
  unfold State.dropEligible
  repeat' first | simp (disch := decide) only [Touches.refl, Touches.via (State.dequeue_touches _ _ _), Touches.via (State.bumpBy_touches _ _ _), Touches.via (State.linkDrop_touches _ _ _ _), Touches.via (State.updTx_touches _ _ _), Touches.via (State.sticky_touches _ _ _)] | split | dsimp only | refine .fold ?_ fun _ _ => ?_ | refine .fold1 ?_ fun _ _ => ?_ | refine .fold2 ?_ fun _ _ => ?_

theorem State.linkDown_touches (s : State) (i : Nat) : Touches [.regs, .time, .pmu, .net, .tx, .txc, .grp, .out] s (State.linkDown s i) := by
  unfold State.linkDown
  repeat' first | simp (disch := decide) only [Touches.refl, Touches.via (State.standDownCheck_touches _), Touches.via (State.updIface_touches _ _ _), Touches.via (State.ptpLinkDown_touches _ _), Touches.via (State.dropEligible_touches _ _), Touches.via (State.sticky_touches _ _ _)] | split | dsimp only | refine .fold ?_ fun _ _ => ?_ | refine .fold1 ?_ fun _ _ => ?_ | refine .fold2 ?_ fun _ _ => ?_

theorem execEthLinkDown_touches (i : Nat) (s : State) : Touches [.regs, .time, .pmu, .net, .tx, .txc, .grp, .out] s (outState s (execEthLinkDown i s)) := by
  unfold execEthLinkDown
  repeat' first | simp (disch := decide) only [outState, Touches.refl, Touches.via (State.linkDown_touches _ _)] | split | dsimp only | refine .fold ?_ fun _ _ => ?_ | refine .fold1 ?_ fun _ _ => ?_ | refine .fold2 ?_ fun _ _ => ?_

theorem execEthLinkUp_touches (i : Nat) (s : State) : Touches [.net, .lane] s (outState s (execEthLinkUp i s)) := by
  unfold execEthLinkUp
  repeat' first | simp (disch := decide) only [outState, Touches.refl, Touches.via (State.updLane_touches _ _ _), Touches.via (State.updIface_touches _ _ _)] | split | dsimp only | refine .fold ?_ fun _ _ => ?_ | refine .fold1 ?_ fun _ _ => ?_ | refine .fold2 ?_ fun _ _ => ?_

theorem State.clearIfRegs_touches (s : State) (i : Nat) : Touches [.regs] s (State.clearIfRegs s i) := by
  unfold State.clearIfRegs
  repeat' first | simp (disch := decide) only [Touches.refl, Touches.via (State.clearRegs_touches _ _ _)] | split | dsimp only | refine .fold ?_ fun _ _ => ?_ | refine .fold1 ?_ fun _ _ => ?_ | refine .fold2 ?_ fun _ _ => ?_

theorem State.removeIf_touches (s : State) (i : Nat) : Touches [.regs, .time, .pmu, .net, .tx, .txc, .grp, .out] s (State.removeIf s i) := by
  unfold State.removeIf
  repeat' first | simp (disch := decide) only [Touches.refl, Touches.set_net_tx, Touches.via (State.linkDown_touches _ _), Touches.via (State.clearIfRegs_touches _ _), Touches.via (State.clearRegs_touches _ _ _)] | split | dsimp only | refine .fold ?_ fun _ _ => ?_ | refine .fold1 ?_ fun _ _ => ?_ | refine .fold2 ?_ fun _ _ => ?_

theorem State.doPortConfig_touches (s : State) (p : PortConfigArg) : Touches [.regs, .time, .pmu, .net, .tx, .txc, .grp, .lane, .out] s (State.doPortConfig s p).st := by
  unfold State.doPortConfig
  repeat' first | simp (disch := decide) only [State.checked, Touches.refl, State.done_st, Touches.set_net, Touches.via (State.updLane_touches _ _ _), Touches.via (State.updIface_touches _ _ _), Touches.via (State.linkDown_touches _ _), Touches.via (State.removeIf_touches _ _), Touches.via (State.clearIfRegs_touches _ _)] | split | dsimp only | refine .fold ?_ fun _ _ => ?_ | refine .fold1 ?_ fun _ _ => ?_ | refine .fold2 ?_ fun _ _ => ?_

theorem State.doLaneConfig_touches (s : State) (p : LaneConfigArg) : Touches [.lane] s (State.doLaneConfig s p).st := by
  unfold State.doLaneConfig
  repeat' first | simp (disch := decide) only [State.checked, Touches.refl, State.done_st, Touches.via (State.updLane_touches _ _ _), Touches.via (State.retrainLanes_touches _ _), Touches.via (State.updPort_touches _ _ _)] | split | dsimp only | refine .fold ?_ fun _ _ => ?_ | refine .fold1 ?_ fun _ _ => ?_ | refine .fold2 ?_ fun _ _ => ?_

theorem State.detach_touches (s : State) : Touches [.regs, .pmu, .tx, .grp, .out] s (State.detach s) := by
  unfold State.detach
  repeat' first | simp (disch := decide) only [Touches.refl, Touches.set_grp, Touches.via (State.settleFree_touches _), Touches.via (State.setRole_touches _ _)] | split | dsimp only | refine .fold ?_ fun _ _ => ?_ | refine .fold1 ?_ fun _ _ => ?_ | refine .fold2 ?_ fun _ _ => ?_

theorem State.refreshAt_touches (s : State) (c n : Nat) : Touches [.chans] s (State.refreshAt s c n) := by
  unfold State.refreshAt
  repeat' first | simp (disch := decide) only [Touches.refl, Touches.via (State.updChan_touches _ _ _)] | split | dsimp only | refine .fold ?_ fun _ _ => ?_ | refine .fold1 ?_ fun _ _ => ?_ | refine .fold2 ?_ fun _ _ => ?_

theorem State.resumeChan_touches (s : State) (c : Nat) (ch : Chan) : Touches [.regs, .tx, .txc, .grp] s (State.resumeChan s c ch) := by
  unfold State.resumeChan
  repeat' first | simp (disch := decide) only [Touches.refl, Touches.set_grp, Touches.via (State.updGch_touches _ _ _), Touches.via (State.bump_touches _ _), Touches.via (State.settleCredits_touches _ _), Touches.via (State.dispatch_touches _ _ _ _ _), Touches.via (State.updTx_touches _ _ _)] | split | dsimp only | refine .fold ?_ fun _ _ => ?_ | refine .fold1 ?_ fun _ _ => ?_ | refine .fold2 ?_ fun _ _ => ?_

theorem State.rebaseChan_touches (s : State) (c : Nat) (ch : Chan) : Touches [.chans, .txc, .grp] s (State.rebaseChan s c ch) := by
  unfold State.rebaseChan
  repeat' first | simp (disch := decide) only [Touches.refl, Touches.set_grp, Touches.via (State.updGch_touches _ _ _), Touches.via (State.updTxc_touches _ _ _), Touches.via (State.refreshAt_touches _ _ _)] | split | dsimp only | refine .fold ?_ fun _ _ => ?_ | refine .fold1 ?_ fun _ _ => ?_ | refine .fold2 ?_ fun _ _ => ?_

theorem State.takeOver_touches (s : State) : Touches [.regs, .log, .logSeq, .mbx, .pmu, .chans, .tx, .txc, .grp, .out] s (State.takeOver s) := by
  unfold State.takeOver
  repeat' first | simp (disch := decide) only [Touches.refl, Touches.set_grp, Touches.via (State.resumeChan_touches _ _ _), Touches.via (State.bump_touches _ _), Touches.via (State.setRole_touches _ _), Touches.via (State.rebaseChan_touches _ _ _), Touches.via (State.raise_touches _ _ _ _ _), Touches.via (State.sticky_touches _ _ _)] | split | dsimp only | refine .fold ?_ fun _ _ => ?_ | refine .fold1 ?_ fun _ _ => ?_ | refine .fold2 ?_ fun _ _ => ?_

theorem execTakeoverTimer_touches (s : State) : Touches [.regs, .log, .logSeq, .mbx, .pmu, .chans, .tx, .txc, .grp, .out] s (outState s (execTakeoverTimer s)) := by
  unfold execTakeoverTimer
  repeat' first | simp (disch := decide) only [outState, Touches.refl, Touches.set_grp, Touches.via (State.takeOver_touches _)] | split | dsimp only | refine .fold ?_ fun _ _ => ?_ | refine .fold1 ?_ fun _ _ => ?_ | refine .fold2 ?_ fun _ _ => ?_

theorem execTakeoverWaitTimer_touches (s : State) : Touches [.regs, .log, .logSeq, .mbx, .pmu, .chans, .tx, .txc, .grp, .out] s (outState s (execTakeoverWaitTimer s)) := by
  unfold execTakeoverWaitTimer
  repeat' first | simp (disch := decide) only [outState, Touches.refl, Touches.via (State.takeOver_touches _)] | split | dsimp only | refine .fold ?_ fun _ _ => ?_ | refine .fold1 ?_ fun _ _ => ?_ | refine .fold2 ?_ fun _ _ => ?_

theorem execRecordSilenceTimeout_touches (s : State) : Touches [.regs, .pmu, .tx, .grp, .out] s (outState s (execRecordSilenceTimeout s)) := by
  unfold execRecordSilenceTimeout
  repeat' first | simp (disch := decide) only [outState, Touches.refl, Touches.set_grp, Touches.via (State.setRole_touches _ _)] | split | dsimp only | refine .fold ?_ fun _ _ => ?_ | refine .fold1 ?_ fun _ _ => ?_ | refine .fold2 ?_ fun _ _ => ?_

theorem execHeldPacketExpiry_touches (c seq : Nat) (s : State) : Touches [.regs, .grp] s (outState s (execHeldPacketExpiry c seq s)) := by
  unfold execHeldPacketExpiry
  repeat' first | simp (disch := decide) only [outState, Touches.refl, Touches.set_grp, Touches.via (State.bump_touches _ _)] | split | dsimp only | refine .fold ?_ fun _ _ => ?_ | refine .fold1 ?_ fun _ _ => ?_ | refine .fold2 ?_ fun _ _ => ?_

theorem State.notePeer_touches (s : State) (rank role recSeq : Nat) : Touches [.grp] s (State.notePeer s rank role recSeq) := by
  unfold State.notePeer
  repeat' first | simp (disch := decide) only [Touches.refl, Touches.set_grp] | split | dsimp only | refine .fold ?_ fun _ _ => ?_ | refine .fold1 ?_ fun _ _ => ?_ | refine .fold2 ?_ fun _ _ => ?_

theorem State.fromActive_touches (s : State) (rank : Nat) : Touches [.regs, .log, .logSeq, .mbx, .pmu, .tx, .grp, .out] s (State.fromActive s rank) := by
  unfold State.fromActive
  repeat' first | simp (disch := decide) only [Touches.refl, Touches.set_grp, Touches.via (State.overlap_touches _ _ _), Touches.via (State.setRole_touches _ _), Touches.via (State.resyncAll_touches _)] | split | dsimp only | refine .fold ?_ fun _ _ => ?_ | refine .fold1 ?_ fun _ _ => ?_ | refine .fold2 ?_ fun _ _ => ?_

theorem State.relay_touches (s : State) (h : RecHdr) (m : StayMsg) : Touches [.regs, .pmu, .grp, .out] s (State.relay s h m) := by
  unfold State.relay
  repeat' first | simp (disch := decide) only [Touches.refl, Touches.via (State.sendLeg_touches _ _ _)] | split | dsimp only | refine .fold ?_ fun _ _ => ?_ | refine .fold1 ?_ fun _ _ => ?_ | refine .fold2 ?_ fun _ _ => ?_

theorem State.linkIn_touches (s : State) (h : RecHdr) (m : StayMsg) (b : List Byte) : Touches [.regs, .grp, .out] s (State.linkIn s h m b).1 := by
  unfold State.linkIn
  repeat' first | simp (disch := decide) only [Touches.refl, Touches.via (State.bump_touches _ _), Touches.via (State.setLeg_touches _ _ _), Touches.via (State.emit_touches _ _)] | split | dsimp only | refine .fold ?_ fun _ _ => ?_ | refine .fold1 ?_ fun _ _ => ?_ | refine .fold2 ?_ fun _ _ => ?_

theorem State.enterRecord_touches (s : State) (h : RecHdr) (late : Bool) (m : StayMsg) : Touches [.regs, .log, .logSeq, .mbx, .pmu, .tx, .grp, .out] s (State.enterRecord s h late m).1 := by
  unfold State.enterRecord
  repeat' first | simp (disch := decide) only [State.when, Touches.refl, Touches.set_grp, Touches.via (State.bump_touches _ _), Touches.via (State.fromActive_touches _ _), Touches.via (State.notePeer_touches _ _ _ _), Touches.via (State.relay_touches _ _ _)] | split | dsimp only | refine .fold ?_ fun _ _ => ?_ | refine .fold1 ?_ fun _ _ => ?_ | refine .fold2 ?_ fun _ _ => ?_

theorem State.takeBytes_touches (s : State) (h : RecHdr) (late : Bool) (m : StayMsg) (b : List Byte) : Touches [.regs, .log, .logSeq, .mbx, .pmu, .tx, .grp, .out] s (State.takeBytes s h late m b).1 := by
  unfold State.takeBytes
  repeat' first | simp (disch := decide) only [Touches.refl, Touches.via (State.linkIn_touches _ _ _ _), Touches.via (State.enterRecord_touches _ _ _ _)] | split | dsimp only | refine .fold ?_ fun _ _ => ?_ | refine .fold1 ?_ fun _ _ => ?_ | refine .fold2 ?_ fun _ _ => ?_

theorem State.takeRecord_touches (s : State) (h : RecHdr) (late : Bool) (m : StayMsg) : Touches [.regs, .log, .logSeq, .mbx, .pmu, .tx, .grp, .out] s (State.takeRecord s h late m).1 := by
  unfold State.takeRecord
  repeat' first | simp (disch := decide) only [Touches.refl, Touches.via (State.takeBytes_touches _ _ _ _ _)] | split | dsimp only | refine .fold ?_ fun _ _ => ?_ | refine .fold1 ?_ fun _ _ => ?_ | refine .fold2 ?_ fun _ _ => ?_

theorem execStayReplayTimeout_touches (leg : Nat) (s : State) : Touches [.regs, .log, .logSeq, .mbx, .pmu, .grp, .lane, .rat, .out] s (outState s (execStayReplayTimeout leg s)) := by
  unfold execStayReplayTimeout
  repeat' first | simp (disch := decide) only [outState, Touches.refl, Touches.via (State.failPort_touches _ _ _), Touches.via (State.setLeg_touches _ _ _), Touches.via (State.pmuEvent_touches _ _ _), Touches.via (State.emit_touches _ _)] | split | dsimp only | refine .fold ?_ fun _ _ => ?_ | refine .fold1 ?_ fun _ _ => ?_ | refine .fold2 ?_ fun _ _ => ?_

theorem execLinkAck_touches (port link : Nat) (s : State) : Touches [.regs, .pmu, .grp, .rat, .out] s (outState s (execLinkAck port link s)) := by
  unfold execLinkAck
  repeat' first | simp (disch := decide) only [outState, Touches.refl, Touches.set_rat, Touches.via (State.setLeg_touches _ _ _), Touches.via (State.ratPump_touches _ _ _)] | split | dsimp only | refine .fold ?_ fun _ _ => ?_ | refine .fold1 ?_ fun _ _ => ?_ | refine .fold2 ?_ fun _ _ => ?_

theorem execHelloTimer_touches (s : State) : Touches [.regs, .mbx, .pmu, .grp, .rat, .out] s (outState s (execHelloTimer s)) := by
  unfold execHelloTimer
  repeat' first | simp (disch := decide) only [outState, Touches.refl, Touches.via (State.sendHello_touches _ _), Touches.via (State.settleJoin_touches _)] | split | dsimp only | refine .fold ?_ fun _ _ => ?_ | refine .fold1 ?_ fun _ _ => ?_ | refine .fold2 ?_ fun _ _ => ?_

theorem State.hailed_touches (s : State) (h : RecHdr) (r : HelloRec) (newPath : Bool) : Touches [.regs, .pmu, .grp, .out] s (State.hailed s h r newPath) := by
  unfold State.hailed
  repeat' first | simp (disch := decide) only [State.when, Touches.refl, Touches.set_grp, Touches.via (State.planCopies_touches _ _)] | split | dsimp only | refine .fold ?_ fun _ _ => ?_ | refine .fold1 ?_ fun _ _ => ?_ | refine .fold2 ?_ fun _ _ => ?_

theorem execHello_touches (h : RecHdr) (r : HelloRec) (s : State) : Touches [.regs, .log, .logSeq, .mbx, .pmu, .tx, .grp, .out] s (outState s (execHello h r s)) := by
  unfold execHello
  repeat' first | simp (disch := decide) only [outState, Touches.refl, Touches.via (State.flushLeg_touches _ _), Touches.via (State.hailed_touches _ _ _ _), Touches.via (State.linkIn_touches _ _ _ _), Touches.via (State.setLeg_touches _ _ _), Touches.via (State.planNeeded_touches _), Touches.via (State.enterRecord_touches _ _ _ _), Touches.via (State.sticky_touches _ _ _)] | split | dsimp only | refine .fold ?_ fun _ _ => ?_ | refine .fold1 ?_ fun _ _ => ?_ | refine .fold2 ?_ fun _ _ => ?_

theorem execRowRecord_touches (h : RecHdr) (r : RowRec) (s : State) : Touches [.regs, .log, .logSeq, .mbx, .pmu, .chans, .tx, .grp, .out] s (outState s (execRowRecord h r s)) := by
  unfold execRowRecord
  repeat' first | simp (disch := decide) only [State.onChan, outState, Touches.refl, Touches.via (State.updGch_touches _ _ _), Touches.via (State.updChan_touches _ _ _), Touches.via (State.restartRefresh_touches _ _), Touches.via (State.takeRecord_touches _ _ _ _)] | split | dsimp only | refine .fold ?_ fun _ _ => ?_ | refine .fold1 ?_ fun _ _ => ?_ | refine .fold2 ?_ fun _ _ => ?_

theorem State.noteResync_touches (s : State) (rank c : Nat) (bit : Bool) : Touches [.regs, .pmu, .grp, .out] s (State.noteResync s rank c bit) := by
  unfold State.noteResync
  repeat' first | simp (disch := decide) only [Touches.refl, Touches.set_grp, Touches.via (State.planNeeded_touches _)] | split | dsimp only | refine .fold ?_ fun _ _ => ?_ | refine .fold1 ?_ fun _ _ => ?_ | refine .fold2 ?_ fun _ _ => ?_

theorem execPictureRecord_touches (h : RecHdr) (r : PicRec) (s : State) : Touches [.regs, .log, .logSeq, .mbx, .pmu, .chans, .tx, .grp, .out] s (outState s (execPictureRecord h r s)) := by
  unfold execPictureRecord
  repeat' first | simp (disch := decide) only [State.onChan, outState, Touches.refl, Touches.via (State.updGch_touches _ _ _), Touches.via (State.vote_touches _ _ _ _), Touches.via (State.takeRecord_touches _ _ _ _), Touches.via (State.noteResync_touches _ _ _ _)] | split | dsimp only | refine .fold ?_ fun _ _ => ?_ | refine .fold1 ?_ fun _ _ => ?_ | refine .fold2 ?_ fun _ _ => ?_

theorem execGapRecord_touches (h : RecHdr) (r : GapRec) (s : State) : Touches [.regs, .log, .logSeq, .mbx, .pmu, .ext, .tx, .grp, .out] s (outState s (execGapRecord h r s)) := by
  unfold execGapRecord
  repeat' first | simp (disch := decide) only [outState, Touches.refl, Touches.set_ext, Touches.via (State.extSettle_touches _ _), Touches.via (State.takeRecord_touches _ _ _ _)] | split | dsimp only | refine .fold ?_ fun _ _ => ?_ | refine .fold1 ?_ fun _ _ => ?_ | refine .fold2 ?_ fun _ _ => ?_

theorem State.sendRepair_touches (s : State) (rank merge q : Nat) (p : RtpPacket) : Touches [.regs, .pmu, .grp, .out] s (State.sendRepair s rank merge q p) := by
  unfold State.sendRepair
  repeat' first | simp (disch := decide) only [Touches.refl, Touches.via (State.sendTo_touches _ _ _), Touches.via (State.setLeg_touches _ _ _)] | split | dsimp only | refine .fold ?_ fun _ _ => ?_ | refine .fold1 ?_ fun _ _ => ?_ | refine .fold2 ?_ fun _ _ => ?_

theorem execRepairRequest_touches (h : RecHdr) (merge first count : Nat) (s : State) : Touches [.regs, .log, .logSeq, .mbx, .pmu, .tx, .grp, .out] s (outState s (execRepairRequest h merge first count s)) := by
  unfold execRepairRequest
  repeat' first | simp (disch := decide) only [outState, Touches.refl, Touches.via (State.takeRecord_touches _ _ _ _), Touches.via (State.sendRepair_touches _ _ _ _ _)] | split | dsimp only | refine .fold ?_ fun _ _ => ?_ | refine .fold1 ?_ fun _ _ => ?_ | refine .fold2 ?_ fun _ _ => ?_

theorem execRepairData_touches (h : RecHdr) (merge : Nat) (x : RepairPkt) (ingress : Nat) (s : State) : Touches [.regs, .log, .logSeq, .mbx, .pmu, .chans, .ext, .aud, .net, .tx, .txc, .grp, .out] s (outState s (execRepairData h merge x ingress s)) := by
  unfold execRepairData
  repeat' first | simp (disch := decide) only [outState, Touches.refl, Touches.via (State.bump_touches _ _), Touches.via (State.takeRecord_touches _ _ _ _), Touches.via (State.intoMerge_touches _ _ _ _ _ _ _)] | split | dsimp only | refine .fold ?_ fun _ _ => ?_ | refine .fold1 ?_ fun _ _ => ?_ | refine .fold2 ?_ fun _ _ => ?_

theorem execHandover_touches (h : RecHdr) (tH target : Nat) (diverged : List Nat) (s : State) : Touches [.regs, .log, .logSeq, .mbx, .pmu, .tx, .grp, .out] s (outState s (execHandover h tH target diverged s)) := by
  unfold execHandover
  repeat' first | simp (disch := decide) only [outState, Touches.refl, Touches.set_grp, Touches.via (State.takeRecord_touches _ _ _ _), Touches.via (State.sendAll_touches _ _)] | split | dsimp only | refine .fold ?_ fun _ _ => ?_ | refine .fold1 ?_ fun _ _ => ?_ | refine .fold2 ?_ fun _ _ => ?_

theorem execHandoverAck_touches (h : RecHdr) (tH : Nat) (s : State) : Touches [.regs, .log, .logSeq, .mbx, .pmu, .tx, .grp, .out] s (outState s (execHandoverAck h tH s)) := by
  unfold execHandoverAck
  repeat' first | simp (disch := decide) only [outState, Touches.refl, Touches.set_grp, Touches.via (State.takeRecord_touches _ _ _ _)] | split | dsimp only | refine .fold ?_ fun _ _ => ?_ | refine .fold1 ?_ fun _ _ => ?_ | refine .fold2 ?_ fun _ _ => ?_

theorem State.handOff_touches (s : State) (o : Handover) : Touches [.regs, .pmu, .tx, .grp, .out] s (State.handOff s o) := by
  unfold State.handOff
  repeat' first | simp (disch := decide) only [Touches.refl, Touches.set_grp, Touches.via (State.updGch_touches _ _ _), Touches.via (State.bump_touches _ _), Touches.via (State.setRole_touches _ _), Touches.via (State.detach_touches _), Touches.via (State.sticky_touches _ _ _)] | split | dsimp only | refine .fold ?_ fun _ _ => ?_ | refine .fold1 ?_ fun _ _ => ?_ | refine .fold2 ?_ fun _ _ => ?_

theorem State.handIn_touches (s : State) (tH : Nat) (diverged : List Nat) : Touches [.regs, .pmu, .chans, .tx, .grp, .out] s (State.handIn s tH diverged) := by
  unfold State.handIn
  repeat' first | simp (disch := decide) only [State.onChan, Touches.refl, Touches.set_grp, Touches.via (State.updGch_touches _ _ _), Touches.via (State.bump_touches _ _), Touches.via (State.setRole_touches _ _), Touches.via (State.refreshAt_touches _ _ _), Touches.via (State.sticky_touches _ _ _)] | split | dsimp only | refine .fold ?_ fun _ _ => ?_ | refine .fold1 ?_ fun _ _ => ?_ | refine .fold2 ?_ fun _ _ => ?_

theorem execHandoverInstant_touches (s : State) : Touches [.regs, .pmu, .chans, .tx, .grp, .out] s (outState s (execHandoverInstant s)) := by
  unfold execHandoverInstant
  repeat' first | simp (disch := decide) only [State.onChan, outState, Touches.refl, Touches.set_grp, Touches.via (State.bump_touches _ _), Touches.via (State.handIn_touches _ _ _), Touches.via (State.refreshAt_touches _ _ _), Touches.via (State.handOff_touches _ _)] | split | dsimp only | refine .fold ?_ fun _ _ => ?_ | refine .fold1 ?_ fun _ _ => ?_ | refine .fold2 ?_ fun _ _ => ?_

theorem execHandoverRetry_touches (s : State) : Touches [.regs, .pmu, .grp, .out] s (outState s (execHandoverRetry s)) := by
  unfold execHandoverRetry
  repeat' first | simp (disch := decide) only [outState, Touches.refl, Touches.set_grp, Touches.via (State.startHandover_touches _ _ _ _)] | split | dsimp only | refine .fold ?_ fun _ _ => ?_ | refine .fold1 ?_ fun _ _ => ?_ | refine .fold2 ?_ fun _ _ => ?_

theorem execStandDown_touches (h : RecHdr) (reason : Nat) (s : State) : Touches [.regs, .log, .logSeq, .mbx, .pmu, .chans, .tx, .txc, .grp, .out] s (outState s (execStandDown h reason s)) := by
  unfold execStandDown
  repeat' first | simp (disch := decide) only [outState, Touches.refl, Touches.via (State.takeOver_touches _), Touches.via (State.takeRecord_touches _ _ _ _)] | split | dsimp only | refine .fold ?_ fun _ _ => ?_ | refine .fold1 ?_ fun _ _ => ?_ | refine .fold2 ?_ fun _ _ => ?_

theorem execRejoinPlan_touches (h : RecHdr) (plan : List (Nat × Nat × Option Nat)) (s : State) : Touches [.regs, .log, .logSeq, .mbx, .pmu, .chans, .tx, .grp, .out] s (outState s (execRejoinPlan h plan s)) := by
  unfold execRejoinPlan
  repeat' first | simp (disch := decide) only [outState, Touches.refl, Touches.via (State.updGch_touches _ _ _), Touches.via (State.finishResync_touches _), Touches.via (State.takeRecord_touches _ _ _ _), Touches.via (State.setRefresh_touches _ _ _)] | split | dsimp only | refine .fold ?_ fun _ _ => ?_ | refine .fold1 ?_ fun _ _ => ?_ | refine .fold2 ?_ fun _ _ => ?_

theorem execRejoinDone_touches (h : RecHdr) (chans : List Nat) (s : State) : Touches [.regs, .log, .logSeq, .mbx, .pmu, .tx, .grp, .out] s (outState s (execRejoinDone h chans s)) := by
  unfold execRejoinDone
  repeat' first | simp (disch := decide) only [outState, Touches.refl, Touches.set_grp, Touches.via (State.updGch_touches _ _ _), Touches.via (State.takeRecord_touches _ _ _ _)] | split | dsimp only | refine .fold ?_ fun _ _ => ?_ | refine .fold1 ?_ fun _ _ => ?_ | refine .fold2 ?_ fun _ _ => ?_

theorem State.restartCopy_touches (s : State) (c : Nat) : Touches [.regs, .grp] s (State.restartCopy s c) := by
  unfold State.restartCopy
  repeat' first | simp (disch := decide) only [Touches.refl, Touches.via (State.updGch_touches _ _ _), Touches.via (State.sticky_touches _ _ _)] | split | dsimp only | refine .fold ?_ fun _ _ => ?_ | refine .fold1 ?_ fun _ _ => ?_ | refine .fold2 ?_ fun _ _ => ?_

theorem execRejoinCopyComplete_touches (c : Nat) (failed : List Nat) (s : State) : Touches [.regs, .pmu, .chans, .grp, .out] s (outState s (execRejoinCopyComplete c failed s)) := by
  unfold execRejoinCopyComplete
  repeat' first | simp (disch := decide) only [outState, Touches.refl, Touches.via (State.updGch_touches _ _ _), Touches.via (State.sendCopy_touches _ _ _), Touches.via (State.nameRefresh_touches _ _), Touches.via (State.planCopies_touches _ _), Touches.via (State.sticky_touches _ _ _)] | split | dsimp only | refine .fold ?_ fun _ _ => ?_ | refine .fold1 ?_ fun _ _ => ?_ | refine .fold2 ?_ fun _ _ => ?_

theorem State.copyStreams_touches (s : State) (m : Tab Nat) (k : ChanCopy) : Touches [.ext, .aud] s (State.copyStreams s m k) := by
  unfold State.copyStreams
  repeat' first | simp (disch := decide) only [Touches.refl, Touches.set_ext, Touches.set_aud] | split | dsimp only | refine .fold ?_ fun _ _ => ?_ | refine .fold1 ?_ fun _ _ => ?_ | refine .fold2 ?_ fun _ _ => ?_

theorem State.copyFlows_touches {s t : State} {l : List (Nat × FlowArg)} (h : s.copyFlows l = some t) : Touches [.time, .chans, .ext, .aud, .net] s t := by
  induction l generalizing s with
  | nil => cases h; exact .refl _ _
  | cons a r ih =>
    unfold State.copyFlows at h
    split at h
    · exact ih h
    · split at h
      · exact .trans ((State.insertFlow_touches ..).mono (by decide)) (ih h)
      · cases h

theorem State.copySurfs_touches {s t : State} {l : List SurfCopy} (h : s.copySurfs l = some t) :
    Touches [.mem, .surf] s t := by
  induction l generalizing s with
  | nil => cases h; exact .refl _ _
  | cons a r ih =>
    unfold State.copySurfs at h
    split at h
    · exact ih h
    · dsimp only at h
      split at h
      · refine .trans ?_ (ih h)
        simp (disch := decide) only [Touches.refl, Touches.set_surf, Touches.via (State.hbmWrite_touches _ _ _)]
      · cases h

theorem State.applyCopy_touches {s t : State} {k : ChanCopy} (h : s.applyCopy k = some t) : Touches [.regs, .time, .mem, .chans, .ext, .surf, .aud, .net, .tx, .txc, .grp] s t := by
  unfold State.applyCopy at h
  dsimp only at h
  split at h
  · cases h
  · rename_i u hu
    obtain ⟨v, hv, hu⟩ := Option.bind_eq_some_iff.1 hu
    have hs : Touches [.regs, .time, .mem, .chans, .ext, .surf, .aud, .net, .tx, .txc, .grp] s u := ((State.copyFlows_touches hv).mono (by decide)).trans ((State.copySurfs_touches hu).mono (by decide))
    split at h
    · cases h
      refine hs.trans ?_
      simp (disch := decide) only [Touches.refl, Touches.set_surf, Touches.via (State.updGch_touches _ _ _),
        Touches.via (State.updTxc_touches _ _ _), Touches.via (State.setChan_touches _ _ _), Touches.via (State.syncMembers_touches _ _),
        Touches.via (State.copyStreams_touches _ _ _), Touches.via (State.clearChanRegs_touches _ _)]
    · split at h
      · cases h
        refine hs.trans ?_
        simp (disch := decide) only [Touches.refl, Touches.set_surf, Touches.via (State.updGch_touches _ _ _),
        Touches.via (State.updTxc_touches _ _ _), Touches.via (State.setChan_touches _ _ _), Touches.via (State.syncMembers_touches _ _),
        Touches.via (State.copyStreams_touches _ _ _), Touches.via (State.clearChanRegs_touches _ _)]
      · cases h

theorem execCopyRecord_touches (h : RecHdr) (r : CopyRec) (s : State) : Touches [.regs, .time, .log, .logSeq, .mbx, .pmu, .mem, .chans, .ext, .surf, .aud, .net, .tx, .txc, .grp, .out] s (outState s (execCopyRecord h r s)) := by
  unfold execCopyRecord
  repeat' first | simp (disch := decide) only [outState, Touches.refl, Touches.via (State.updGch_touches _ _ _), Touches.via (State.updChan_touches _ _ _), Touches.via (State.restartCopy_touches _ _), Touches.via (State.takeBytes_touches _ _ _ _ _), Touches.via (State.sticky_touches _ _ _)] | split | refine .then ?_ (State.applyCopy_touches ‹_›) (by decide) | dsimp only | refine .fold ?_ fun _ _ => ?_ | refine .fold1 ?_ fun _ _ => ?_ | refine .fold2 ?_ fun _ _ => ?_

theorem execCopyRetryTimer_touches (c : Nat) (s : State) : Touches [.regs, .pmu, .grp, .out] s (outState s (execCopyRetryTimer c s)) := by
  unfold execCopyRetryTimer
  repeat' first | simp (disch := decide) only [outState, Touches.refl, Touches.via (State.updGch_touches _ _ _), Touches.via (State.planCopies_touches _ _)] | split | dsimp only | refine .fold ?_ fun _ _ => ?_ | refine .fold1 ?_ fun _ _ => ?_ | refine .fold2 ?_ fun _ _ => ?_

theorem State.enterGroup_touches (s : State) (p : GroupArg) (forming : Bool) (active : Nat) : Touches [.regs, .grp] s (State.enterGroup s p forming active) := by
  unfold State.enterGroup
  repeat' first | simp (disch := decide) only [Touches.refl, Touches.set_grp, Touches.via (State.clearRegs_touches _ _ _)] | split | dsimp only | refine .fold ?_ fun _ _ => ?_ | refine .fold1 ?_ fun _ _ => ?_ | refine .fold2 ?_ fun _ _ => ?_

theorem State.doGroupForm_touches (s : State) (p : GroupArg) : Touches [.regs, .pmu, .tx, .grp, .out] s (State.doGroupForm s p).st := by
  unfold State.doGroupForm
  repeat' first | simp (disch := decide) only [State.checked, Touches.refl, State.done_st, Touches.via (State.enterGroup_touches _ _ _ _), Touches.via (State.sendHello_touches _ _), Touches.via (State.setRole_touches _ _)] | split | dsimp only | refine .fold ?_ fun _ _ => ?_ | refine .fold1 ?_ fun _ _ => ?_ | refine .fold2 ?_ fun _ _ => ?_

theorem State.doGroupJoin_touches (s : State) (p : GroupArg) : Touches [.regs, .pmu, .tx, .grp, .out] s (State.doGroupJoin s p).st := by
  unfold State.doGroupJoin
  repeat' first | simp (disch := decide) only [State.checked, Touches.refl, Touches.via (State.enterGroup_touches _ _ _ _), Touches.via (State.sendHello_touches _ _), Touches.via (State.setRole_touches _ _)] | split | dsimp only | refine .fold ?_ fun _ _ => ?_ | refine .fold1 ?_ fun _ _ => ?_ | refine .fold2 ?_ fun _ _ => ?_

theorem State.doGroupLeave_touches (s : State) : Touches [.regs, .pmu, .tx, .grp, .out] s (State.doGroupLeave s).st := by
  unfold State.doGroupLeave
  repeat' first | simp (disch := decide) only [State.checked, Touches.refl, State.done_st, Touches.set_grp, Touches.via (State.startHandover_touches _ _ _ _), Touches.via (State.detach_touches _)] | split | dsimp only | refine .fold ?_ fun _ _ => ?_ | refine .fold1 ?_ fun _ _ => ?_ | refine .fold2 ?_ fun _ _ => ?_

theorem State.doGroupHandover_touches (s : State) (target : Nat) : Touches [.regs, .pmu, .grp, .out] s (State.doGroupHandover s target).st := by
  unfold State.doGroupHandover
  repeat' first | simp (disch := decide) only [State.checked, Touches.refl, State.reply_st, State.done_st, Touches.via (State.startHandover_touches _ _ _ _)] | split | dsimp only | refine .fold ?_ fun _ _ => ?_ | refine .fold1 ?_ fun _ _ => ?_ | refine .fold2 ?_ fun _ _ => ?_

theorem State.clearWindow_touches (s : State) (a : Nat) : Touches [.rat] s (State.clearWindow s a) := by
  unfold State.clearWindow
  repeat' first | simp (disch := decide) only [Touches.refl, Touches.set_rat] | split | dsimp only | refine .fold ?_ fun _ _ => ?_ | refine .fold1 ?_ fun _ _ => ?_ | refine .fold2 ?_ fun _ _ => ?_

theorem State.ratTaken_touches (s : State) (src seq : Nat) : Touches [.rat] s (State.ratTaken s src seq) := by
  unfold State.ratTaken
  repeat' first | simp (disch := decide) only [Touches.refl, Touches.set_rat] | split | dsimp only | refine .fold ?_ fun _ _ => ?_ | refine .fold1 ?_ fun _ _ => ?_ | refine .fold2 ?_ fun _ _ => ?_

theorem State.ratForward_touches (s : State) (h : RatHdr) (m : RatMsg) : Touches [.regs, .pmu, .rat, .out] s (State.ratForward s h m) := by
  unfold State.ratForward
  repeat' first | simp (disch := decide) only [Touches.refl, Touches.via (State.bump_touches _ _), Touches.via (State.ratOut_touches _ _ _)] | split | dsimp only | refine .fold ?_ fun _ _ => ?_ | refine .fold1 ?_ fun _ _ => ?_ | refine .fold2 ?_ fun _ _ => ?_

theorem State.ratLinkIn_touches (s : State) (h : RatHdr) (m : RatMsg) : Touches [.regs, .rat, .out] s (State.ratLinkIn s h m).1 := by
  unfold State.ratLinkIn
  repeat' first | simp (disch := decide) only [Touches.refl, Touches.set_rat, Touches.via (State.bump_touches _ _), Touches.via (State.emit_touches _ _)] | split | dsimp only | refine .fold ?_ fun _ _ => ?_ | refine .fold1 ?_ fun _ _ => ?_ | refine .fold2 ?_ fun _ _ => ?_

theorem State.ratReceive_touches (s : State) (h : RatHdr) (m : RatMsg) : Touches [.regs, .pmu, .rat, .out] s (State.ratReceive s h m).st := by
  unfold State.ratReceive
  repeat' first | simp (disch := decide) only [Touches.refl, Touches.via (State.bump_touches _ _), Touches.via (State.ratForward_touches _ _ _), Touches.via (State.ratTaken_touches _ _ _), Touches.via (State.clearWindow_touches _ _)] | split | dsimp only | refine .fold ?_ fun _ _ => ?_ | refine .fold1 ?_ fun _ _ => ?_ | refine .fold2 ?_ fun _ _ => ?_

theorem State.ratWait_touches (s : State) (h : RatHdr) (m : RatMsg) : Touches [.regs, .rat] s (State.ratWait s h m) := by
  unfold State.ratWait
  repeat' first | simp (disch := decide) only [Touches.refl, Touches.set_rat, Touches.via (State.bump_touches _ _)] | split | dsimp only | refine .fold ?_ fun _ _ => ?_ | refine .fold1 ?_ fun _ _ => ?_ | refine .fold2 ?_ fun _ _ => ?_

theorem State.chainFull_touches (s : State) (id : BitVec 64) : Touches [.regs, .log, .logSeq, .mbx, .out] s (State.chainFull s id) := by
  unfold State.chainFull
  repeat' first | simp (disch := decide) only [Touches.refl, Touches.via (State.bump_touches _ _), Touches.via (State.raise_touches _ _ _ _ _), Touches.via (State.sticky_touches _ _ _)] | split | dsimp only | refine .fold ?_ fun _ _ => ?_ | refine .fold1 ?_ fun _ _ => ?_ | refine .fold2 ?_ fun _ _ => ?_

theorem State.sendEnum_touches (s : State) (port : Nat) (west : Bool) (next : Nat) (ids : List (BitVec 64)) (fin : Bool) : Touches [.regs, .pmu, .rat, .out] s (State.sendEnum s port west next ids fin) := by
  unfold State.sendEnum
  repeat' first | simp (disch := decide) only [Touches.refl, Touches.via (State.ratNext_touches _), Touches.via (State.ratOut_touches _ _ _)] | split | dsimp only | refine .fold ?_ fun _ _ => ?_ | refine .fold1 ?_ fun _ _ => ?_ | refine .fold2 ?_ fun _ _ => ?_

theorem State.walkWest_touches (s : State) : Touches [.regs, .pmu, .rat, .out] s (State.walkWest s) := by
  unfold State.walkWest
  repeat' first | simp (disch := decide) only [Touches.refl, Touches.set_rat, Touches.via (State.sendEnum_touches _ _ _ _ _ _), Touches.via (State.sticky_touches _ _ _)] | split | dsimp only | refine .fold ?_ fun _ _ => ?_ | refine .fold1 ?_ fun _ _ => ?_ | refine .fold2 ?_ fun _ _ => ?_

theorem State.enumerate_touches (s : State) : Touches [.regs, .pmu, .rat, .out] s (State.enumerate s) := by
  unfold State.enumerate
  repeat' first | simp (disch := decide) only [Touches.refl, Touches.set_rat, Touches.via (State.walkWest_touches _), Touches.via (State.sendEnum_touches _ _ _ _ _ _)] | split | dsimp only | refine .fold ?_ fun _ _ => ?_ | refine .fold1 ?_ fun _ _ => ?_ | refine .fold2 ?_ fun _ _ => ?_

theorem State.walkBack_touches (s : State) (port : Nat) (ids : List (BitVec 64)) (fin : Bool) : Touches [.regs, .pmu, .rat, .out] s (State.walkBack s port ids fin) := by
  unfold State.walkBack
  repeat' first | simp (disch := decide) only [Touches.refl, Touches.set_rat, Touches.via (State.walkWest_touches _)] | split | dsimp only | refine .fold ?_ fun _ _ => ?_ | refine .fold1 ?_ fun _ _ => ?_ | refine .fold2 ?_ fun _ _ => ?_

theorem State.walkOn_touches (s : State) (h : RatHdr) (next : Nat) (ids : List (BitVec 64)) : Touches [.regs, .log, .logSeq, .mbx, .pmu, .rat, .out] s (State.walkOn s h next ids) := by
  unfold State.walkOn
  repeat' first | simp (disch := decide) only [Touches.refl, Touches.set_rat, Touches.via (State.ratOut_touches _ _ _), Touches.via (State.chainFull_touches _ _)] | split | dsimp only | refine .fold ?_ fun _ _ => ?_ | refine .fold1 ?_ fun _ _ => ?_ | refine .fold2 ?_ fun _ _ => ?_

theorem State.takeEnum_touches (s : State) (h : RatHdr) (next : Nat) (ids : List (BitVec 64)) (fin : Bool) : Touches [.regs, .log, .logSeq, .mbx, .pmu, .rat, .out] s (State.takeEnum s h next ids fin) := by
  unfold State.takeEnum
  repeat' first | simp (disch := decide) only [Touches.refl, Touches.set_rat, Touches.via (State.bump_touches _ _), Touches.via (State.walkOn_touches _ _ _ _), Touches.via (State.walkBack_touches _ _ _ _), Touches.via (State.ratOut_touches _ _ _), Touches.via (State.raise_touches _ _ _ _ _)] | split | dsimp only | refine .fold ?_ fun _ _ => ?_ | refine .fold1 ?_ fun _ _ => ?_ | refine .fold2 ?_ fun _ _ => ?_

theorem execEnum_touches (h : RatHdr) (next : Nat) (ids : List (BitVec 64)) (fin : Bool) (s : State) : Touches [.regs, .log, .logSeq, .mbx, .pmu, .rat, .out] s (outState s (execEnum h next ids fin s)) := by
  unfold execEnum
  repeat' first | simp (disch := decide) only [outState, Touches.refl, Touches.via (State.ratLinkIn_touches _ _ _), Touches.via (State.ratWait_touches _ _ _), Touches.via (State.takeEnum_touches _ _ _ _ _)] | split | dsimp only | refine .fold ?_ fun _ _ => ?_ | refine .fold1 ?_ fun _ _ => ?_ | refine .fold2 ?_ fun _ _ => ?_

theorem State.takeAnnounce_touches (s : State) (id : BitVec 64) : Touches [.regs, .log, .logSeq, .mbx, .pmu, .rat, .out] s (State.takeAnnounce s id) := by
  unfold State.takeAnnounce
  repeat' first | simp (disch := decide) only [Touches.refl, Touches.set_rat, Touches.via (State.chainFull_touches _ _), Touches.via (State.ratSend_touches _ _ _), Touches.via (State.clearWindow_touches _ _)] | split | dsimp only | refine .fold ?_ fun _ _ => ?_ | refine .fold1 ?_ fun _ _ => ?_ | refine .fold2 ?_ fun _ _ => ?_

theorem State.takeAssign_touches (s : State) (a : Nat) : Touches [.rat] s (State.takeAssign s a) := by
  unfold State.takeAssign
  repeat' first | simp (disch := decide) only [Touches.refl, Touches.set_rat] | split | dsimp only | refine .fold ?_ fun _ _ => ?_ | refine .fold1 ?_ fun _ _ => ?_ | refine .fold2 ?_ fun _ _ => ?_

theorem execAnnounceTimer_touches (s : State) : Touches [.regs, .pmu, .rat, .out] s (outState s (execAnnounceTimer s)) := by
  unfold execAnnounceTimer
  repeat' first | simp (disch := decide) only [outState, Touches.refl, Touches.via (State.ratSend_touches _ _ _)] | split | dsimp only | refine .fold ?_ fun _ _ => ?_ | refine .fold1 ?_ fun _ _ => ?_ | refine .fold2 ?_ fun _ _ => ?_

theorem execRingCheckTimer_touches (s : State) : Touches [.regs, .pmu, .rat, .out] s (outState s (execRingCheckTimer s)) := by
  unfold execRingCheckTimer
  repeat' first | simp (disch := decide) only [outState, Touches.refl, Touches.set_rat, Touches.via (State.ratSend_touches _ _ _), Touches.via (State.sticky_touches _ _ _)] | split | dsimp only | refine .fold ?_ fun _ _ => ?_ | refine .fold1 ?_ fun _ _ => ?_ | refine .fold2 ?_ fun _ _ => ?_

theorem State.takeRingCheck_touches (s : State) : Touches [.regs, .pmu, .rat, .out] s (State.takeRingCheck s) := by
  unfold State.takeRingCheck
  repeat' first | simp (disch := decide) only [Touches.refl, Touches.via (State.ratSend_touches _ _ _)] | split | dsimp only | refine .fold ?_ fun _ _ => ?_ | refine .fold1 ?_ fun _ _ => ?_ | refine .fold2 ?_ fun _ _ => ?_

theorem State.noteReach_touches (s : State) (h : RatHdr) : Touches [.rat] s (State.noteReach s h) := by
  unfold State.noteReach
  repeat' first | simp (disch := decide) only [Touches.refl, Touches.set_rat] | split | dsimp only | refine .fold ?_ fun _ _ => ?_ | refine .fold1 ?_ fun _ _ => ?_ | refine .fold2 ?_ fun _ _ => ?_

theorem State.takeRingReport_touches (s : State) (src demand floor : Nat) : Touches [.rat] s (State.takeRingReport s src demand floor) := by
  unfold State.takeRingReport
  repeat' first | simp (disch := decide) only [Touches.refl, Touches.set_rat] | split | dsimp only | refine .fold ?_ fun _ _ => ?_ | refine .fold1 ?_ fun _ _ => ?_ | refine .fold2 ?_ fun _ _ => ?_

theorem execRingSplitTimeout_touches (s : State) : Touches [.regs, .log, .logSeq, .mbx, .rat, .out] s (outState s (execRingSplitTimeout s)) := by
  unfold execRingSplitTimeout
  repeat' first | simp (disch := decide) only [outState, Touches.refl, Touches.set_rat, Touches.via (State.raise_touches _ _ _ _ _), Touches.via (State.sticky_touches _ _ _)] | split | dsimp only | refine .fold ?_ fun _ _ => ?_ | refine .fold1 ?_ fun _ _ => ?_ | refine .fold2 ?_ fun _ _ => ?_

theorem State.applyBudget_touches (s : State) (b : Nat) : Touches [.regs, .pwr] s (State.applyBudget s b) := by
  unfold State.applyBudget
  repeat' first | simp (disch := decide) only [Touches.refl, Touches.set_pwr, Touches.via (State.checkFloor_touches _)] | split | dsimp only | refine .fold ?_ fun _ _ => ?_ | refine .fold1 ?_ fun _ _ => ?_ | refine .fold2 ?_ fun _ _ => ?_

theorem execBudgetTimer_touches (s : State) : Touches [.regs, .log, .logSeq, .mbx, .pmu, .pwr, .rat, .out] s (outState s (execBudgetTimer s)) := by
  unfold execBudgetTimer
  repeat' first | simp (disch := decide) only [outState, Touches.refl, Touches.set_rat, Touches.via (State.raise_touches _ _ _ _ _), Touches.via (State.applyBudget_touches _ _), Touches.via (State.ratSend_touches _ _ _), Touches.via (State.sticky_touches _ _ _)] | split | dsimp only | refine .fold ?_ fun _ _ => ?_ | refine .fold1 ?_ fun _ _ => ?_ | refine .fold2 ?_ fun _ _ => ?_

theorem State.takeBudget_touches (s : State) (h : RatHdr) (b : List Nat) : Touches [.regs, .pwr] s (State.takeBudget s h b) := by
  unfold State.takeBudget
  repeat' first | simp (disch := decide) only [Touches.refl, Touches.via (State.applyBudget_touches _ _)] | split | dsimp only | refine .fold ?_ fun _ _ => ?_ | refine .fold1 ?_ fun _ _ => ?_ | refine .fold2 ?_ fun _ _ => ?_

theorem execBudgetTimeout_touches (s : State) : Touches [.regs, .pwr] s (outState s (execBudgetTimeout s)) := by
  unfold execBudgetTimeout
  repeat' first | simp (disch := decide) only [outState, Touches.refl, Touches.set_pwr, Touches.via (State.checkFloor_touches _)] | split | dsimp only | refine .fold ?_ fun _ _ => ?_ | refine .fold1 ?_ fun _ _ => ?_ | refine .fold2 ?_ fun _ _ => ?_

theorem State.granted_touches (s : State) (block : Nat) : Touches [.dev] s (State.granted s block) := by
  unfold State.granted
  repeat' first | simp (disch := decide) only [Touches.refl, Touches.set_dev] | split | dsimp only | refine .fold ?_ fun _ _ => ?_ | refine .fold1 ?_ fun _ _ => ?_ | refine .fold2 ?_ fun _ _ => ?_

theorem State.grantPump_touches (a0 : Nat) (a1 : State) : Touches [.regs, .dev, .pmu, .rat, .out] a1 (State.grantPump a0 a1) := by
  induction a0 generalizing a1 with
  | zero => exact .refl _ _
  | succ k ih =>
    unfold State.grantPump
    repeat' first | simp (disch := decide) only [Touches.refl, Touches.via (ih _), Touches.set_rat, Touches.via (State.granted_touches _ _), Touches.via (State.ratSend_touches _ _ _)] | split | dsimp only | refine .fold ?_ fun _ _ => ?_ | refine .fold1 ?_ fun _ _ => ?_ | refine .fold2 ?_ fun _ _ => ?_

theorem State.takeTestRequest_touches (s : State) (src block power : Nat) : Touches [.regs, .dev, .pmu, .rat, .out] s (State.takeTestRequest s src block power) := by
  unfold State.takeTestRequest
  repeat' first | simp (disch := decide) only [Touches.refl, Touches.set_rat, Touches.via (State.grantPump_touches _ _)] | split | dsimp only | refine .fold ?_ fun _ _ => ?_ | refine .fold1 ?_ fun _ _ => ?_ | refine .fold2 ?_ fun _ _ => ?_

theorem State.takeTestDone_touches (s : State) (src block : Nat) : Touches [.regs, .dev, .pmu, .rat, .out] s (State.takeTestDone s src block) := by
  unfold State.takeTestDone
  repeat' first | simp (disch := decide) only [Touches.refl, Touches.set_rat, Touches.via (State.grantPump_touches _ _)] | split | dsimp only | refine .fold ?_ fun _ _ => ?_ | refine .fold1 ?_ fun _ _ => ?_ | refine .fold2 ?_ fun _ _ => ?_

theorem State.takeTestGrant_touches (s : State) (h : RatHdr) (block : Nat) : Touches [.dev] s (State.takeTestGrant s h block) := by
  unfold State.takeTestGrant
  repeat' first | simp (disch := decide) only [Touches.refl, Touches.via (State.granted_touches _ _)] | split | dsimp only | refine .fold ?_ fun _ _ => ?_ | refine .fold1 ?_ fun _ _ => ?_ | refine .fold2 ?_ fun _ _ => ?_

theorem execGrantExpiry_touches (addr : Nat) (s : State) : Touches [.regs, .dev, .pmu, .rat, .out] s (outState s (execGrantExpiry addr s)) := by
  unfold execGrantExpiry
  repeat' first | simp (disch := decide) only [outState, Touches.refl, Touches.set_rat, Touches.via (State.bump_touches _ _), Touches.via (State.grantPump_touches _ _)] | split | dsimp only | refine .fold ?_ fun _ _ => ?_ | refine .fold1 ?_ fun _ _ => ?_ | refine .fold2 ?_ fun _ _ => ?_

theorem State.finishForward_touches (s : State) (f : Forwarded) (c : Completion) : Touches [.regs, .mbx, .pmu, .rat, .out] s (State.finishForward s f c) := by
  unfold State.finishForward
  repeat' first | simp (disch := decide) only [Touches.refl, Touches.set_rat, Touches.via (State.complete_touches _ _ _ _)] | split | dsimp only | refine .fold ?_ fun _ _ => ?_ | refine .fold1 ?_ fun _ _ => ?_ | refine .fold2 ?_ fun _ _ => ?_

theorem State.takeCompletion_touches (s : State) (src : Nat) (c : Completion) : Touches [.regs, .mbx, .pmu, .rat, .out] s (State.takeCompletion s src c) := by
  unfold State.takeCompletion
  repeat' first | simp (disch := decide) only [Touches.refl, Touches.via (State.finishForward_touches _ _ _)] | split | dsimp only | refine .fold ?_ fun _ _ => ?_ | refine .fold1 ?_ fun _ _ => ?_ | refine .fold2 ?_ fun _ _ => ?_

theorem execCommandResendTimer_touches (s : State) : Touches [.regs, .pmu, .rat, .out] s (outState s (execCommandResendTimer s)) := by
  unfold execCommandResendTimer
  repeat' first | simp (disch := decide) only [outState, Touches.refl, Touches.via (State.ratSendAs_touches _ _ _ _)] | split | dsimp only | refine .fold ?_ fun _ _ => ?_ | refine .fold1 ?_ fun _ _ => ?_ | refine .fold2 ?_ fun _ _ => ?_

theorem execForwardTimeout_touches (pair seq : Nat) (s : State) : Touches [.regs, .mbx, .pmu, .rat, .out] s (outState s (execForwardTimeout pair seq s)) := by
  unfold execForwardTimeout
  repeat' first | simp (disch := decide) only [outState, Touches.refl, Touches.via (State.finishForward_touches _ _ _)] | split | dsimp only | refine .fold ?_ fun _ _ => ?_ | refine .fold1 ?_ fun _ _ => ?_ | refine .fold2 ?_ fun _ _ => ?_

theorem execRatlineReplayTimeout_touches (port : Nat) (s : State) : Touches [.regs, .log, .logSeq, .mbx, .grp, .lane, .rat, .out] s (outState s (execRatlineReplayTimeout port s)) := by
  unfold execRatlineReplayTimeout
  repeat' first | simp (disch := decide) only [outState, Touches.refl, Touches.set_rat, Touches.via (State.failPort_touches _ _ _), Touches.via (State.emit_touches _ _)] | split | dsimp only | refine .fold ?_ fun _ _ => ?_ | refine .fold1 ?_ fun _ _ => ?_ | refine .fold2 ?_ fun _ _ => ?_

theorem State.ratHandle_touches (s : State) (h : RatHdr) (m : RatMsg) : Touches [.regs, .dev, .log, .logSeq, .mbx, .pmu, .pwr, .rat, .out] s (State.ratHandle s h m) := by
  unfold State.ratHandle
  repeat' first | simp (disch := decide) only [Touches.refl, Touches.via (State.takeCompletion_touches _ _ _), Touches.via (State.takeTestRequest_touches _ _ _ _), Touches.via (State.takeTestDone_touches _ _ _), Touches.via (State.takeAssign_touches _ _), Touches.via (State.takeBudget_touches _ _ _), Touches.via (State.takeEnum_touches _ _ _ _ _), Touches.via (State.takeRingReport_touches _ _ _ _), Touches.via (State.takeTestGrant_touches _ _ _), Touches.via (State.takeAnnounce_touches _ _), Touches.via (State.takeRingCheck_touches _)] | split | dsimp only | refine .fold ?_ fun _ _ => ?_ | refine .fold1 ?_ fun _ _ => ?_ | refine .fold2 ?_ fun _ _ => ?_

theorem State.ratTake_touches (s : State) (h : RatHdr) (m : RatMsg) : Touches [.regs, .dev, .log, .logSeq, .mbx, .pmu, .pwr, .rat, .out] s (State.ratTake s h m) := by
  unfold State.ratTake
  repeat' first | simp (disch := decide) only [Touches.refl, Touches.via (State.ratReceive_touches _ _ _), Touches.via (State.ratHandle_touches _ _ _), Touches.via (State.ratWait_touches _ _ _)] | split | dsimp only | refine .fold ?_ fun _ _ => ?_ | refine .fold1 ?_ fun _ _ => ?_ | refine .fold2 ?_ fun _ _ => ?_

theorem State.ratArrive_touches (s : State) (h : RatHdr) (m : RatMsg) : Touches [.regs, .dev, .log, .logSeq, .mbx, .pmu, .pwr, .rat, .out] s (State.ratArrive s h m) := by
  unfold State.ratArrive
  repeat' first | simp (disch := decide) only [Touches.refl, Touches.via (State.ratLinkIn_touches _ _ _), Touches.via (State.ratTake_touches _ _ _)] | split | dsimp only | refine .fold ?_ fun _ _ => ?_ | refine .fold1 ?_ fun _ _ => ?_ | refine .fold2 ?_ fun _ _ => ?_

theorem execAnnounce_touches (h : RatHdr) (id : BitVec 64) (s : State) : Touches [.regs, .dev, .log, .logSeq, .mbx, .pmu, .pwr, .rat, .out] s (outState s (execAnnounce h id s)) := by
  unfold execAnnounce
  repeat' first | simp (disch := decide) only [outState, Touches.refl, Touches.via (State.ratArrive_touches _ _ _)] | split | dsimp only | refine .fold ?_ fun _ _ => ?_ | refine .fold1 ?_ fun _ _ => ?_ | refine .fold2 ?_ fun _ _ => ?_

theorem execAssign_touches (h : RatHdr) (id : BitVec 64) (addr : Nat) (s : State) : Touches [.regs, .dev, .log, .logSeq, .mbx, .pmu, .pwr, .rat, .out] s (outState s (execAssign h id addr s)) := by
  unfold execAssign
  repeat' first | simp (disch := decide) only [outState, Touches.refl, Touches.via (State.ratArrive_touches _ _ _)] | split | dsimp only | refine .fold ?_ fun _ _ => ?_ | refine .fold1 ?_ fun _ _ => ?_ | refine .fold2 ?_ fun _ _ => ?_

theorem execRatlineCompletion_touches (h : RatHdr) (c : Completion) (s : State) : Touches [.regs, .dev, .log, .logSeq, .mbx, .pmu, .pwr, .rat, .out] s (outState s (execRatlineCompletion h c s)) := by
  unfold execRatlineCompletion
  repeat' first | simp (disch := decide) only [outState, Touches.refl, Touches.via (State.ratArrive_touches _ _ _)] | split | dsimp only | refine .fold ?_ fun _ _ => ?_ | refine .fold1 ?_ fun _ _ => ?_ | refine .fold2 ?_ fun _ _ => ?_

theorem execRingCheck_touches (h : RatHdr) (s : State) : Touches [.regs, .dev, .log, .logSeq, .mbx, .pmu, .pwr, .rat, .out] s (outState s (execRingCheck h s)) := by
  unfold execRingCheck
  repeat' first | simp (disch := decide) only [outState, Touches.refl, Touches.via (State.ratArrive_touches _ _ _)] | split | dsimp only | refine .fold ?_ fun _ _ => ?_ | refine .fold1 ?_ fun _ _ => ?_ | refine .fold2 ?_ fun _ _ => ?_

theorem execRingReport_touches (h : RatHdr) (ports demand floor : Nat) (s : State) : Touches [.regs, .dev, .log, .logSeq, .mbx, .pmu, .pwr, .rat, .out] s (outState s (execRingReport h ports demand floor s)) := by
  unfold execRingReport
  repeat' first | simp (disch := decide) only [State.when, outState, Touches.refl, Touches.via (State.ratLinkIn_touches _ _ _), Touches.via (State.noteReach_touches _ _), Touches.via (State.ratTake_touches _ _ _)] | split | dsimp only | refine .fold ?_ fun _ _ => ?_ | refine .fold1 ?_ fun _ _ => ?_ | refine .fold2 ?_ fun _ _ => ?_

theorem execBudget_touches (h : RatHdr) (b : List Nat) (s : State) : Touches [.regs, .dev, .log, .logSeq, .mbx, .pmu, .pwr, .rat, .out] s (outState s (execBudget h b s)) := by
  unfold execBudget
  repeat' first | simp (disch := decide) only [outState, Touches.refl, Touches.via (State.ratArrive_touches _ _ _)] | split | dsimp only | refine .fold ?_ fun _ _ => ?_ | refine .fold1 ?_ fun _ _ => ?_ | refine .fold2 ?_ fun _ _ => ?_

theorem execTestRequest_touches (h : RatHdr) (block power : Nat) (s : State) : Touches [.regs, .dev, .log, .logSeq, .mbx, .pmu, .pwr, .rat, .out] s (outState s (execTestRequest h block power s)) := by
  unfold execTestRequest
  repeat' first | simp (disch := decide) only [outState, Touches.refl, Touches.via (State.ratArrive_touches _ _ _)] | split | dsimp only | refine .fold ?_ fun _ _ => ?_ | refine .fold1 ?_ fun _ _ => ?_ | refine .fold2 ?_ fun _ _ => ?_

theorem execTestGrant_touches (h : RatHdr) (block power : Nat) (s : State) : Touches [.regs, .dev, .log, .logSeq, .mbx, .pmu, .pwr, .rat, .out] s (outState s (execTestGrant h block power s)) := by
  unfold execTestGrant
  repeat' first | simp (disch := decide) only [outState, Touches.refl, Touches.via (State.ratArrive_touches _ _ _)] | split | dsimp only | refine .fold ?_ fun _ _ => ?_ | refine .fold1 ?_ fun _ _ => ?_ | refine .fold2 ?_ fun _ _ => ?_

theorem execTestDone_touches (h : RatHdr) (block : Nat) (s : State) : Touches [.regs, .dev, .log, .logSeq, .mbx, .pmu, .pwr, .rat, .out] s (outState s (execTestDone h block s)) := by
  unfold execTestDone
  repeat' first | simp (disch := decide) only [outState, Touches.refl, Touches.via (State.ratArrive_touches _ _ _)] | split | dsimp only | refine .fold ?_ fun _ _ => ?_ | refine .fold1 ?_ fun _ _ => ?_ | refine .fold2 ?_ fun _ _ => ?_

theorem State.doChainEnumerate_touches (s : State) : Touches [.regs, .pmu, .rat, .out] s (State.doChainEnumerate s).st := by
  unfold State.doChainEnumerate
  repeat' first | simp (disch := decide) only [State.checked, Touches.refl, State.done_st, Touches.via (State.enumerate_touches _)] | split | dsimp only | refine .fold ?_ fun _ _ => ?_ | refine .fold1 ?_ fun _ _ => ?_ | refine .fold2 ?_ fun _ _ => ?_

theorem State.doChainBudget_touches (s : State) (l : Nat) : Touches [.rat] s (State.doChainBudget s l).st := by
  unfold State.doChainBudget
  repeat' first | simp (disch := decide) only [State.checked, Touches.refl, State.done_st, Touches.set_rat] | split | dsimp only | refine .fold ?_ fun _ _ => ?_ | refine .fold1 ?_ fun _ _ => ?_ | refine .fold2 ?_ fun _ _ => ?_

theorem State.startBlock_touches (s : State) : Touches [.dev] s (State.startBlock s) := by
  unfold State.startBlock
  repeat' first | simp (disch := decide) only [Touches.refl, Touches.set_dev] | split | dsimp only | refine .fold ?_ fun _ _ => ?_ | refine .fold1 ?_ fun _ _ => ?_ | refine .fold2 ?_ fun _ _ => ?_

theorem State.askGrant_touches (s : State) : Touches [.regs, .dev, .pmu, .rat, .out] s (State.askGrant s) := by
  unfold State.askGrant
  repeat' first | simp (disch := decide) only [Touches.refl, Touches.set_dev, Touches.via (State.takeTestRequest_touches _ _ _ _), Touches.via (State.ratSend_touches _ _ _)] | split | dsimp only | refine .fold ?_ fun _ _ => ?_ | refine .fold1 ?_ fun _ _ => ?_ | refine .fold2 ?_ fun _ _ => ?_

theorem execSelftestBlockStart_touches (s : State) : Touches [.regs, .dev, .pmu, .rat, .out] s (outState s (execSelftestBlockStart s)) := by
  unfold execSelftestBlockStart
  repeat' first | simp (disch := decide) only [outState, Touches.refl, Touches.via (State.startBlock_touches _), Touches.via (State.askGrant_touches _)] | split | dsimp only | refine .fold ?_ fun _ _ => ?_ | refine .fold1 ?_ fun _ _ => ?_ | refine .fold2 ?_ fun _ _ => ?_

theorem State.releaseGrant_touches (s : State) (b : Nat) : Touches [.regs, .dev, .pmu, .rat, .out] s (State.releaseGrant s b) := by
  unfold State.releaseGrant
  repeat' first | simp (disch := decide) only [Touches.refl, Touches.set_dev, Touches.via (State.takeTestDone_touches _ _ _), Touches.via (State.ratSend_touches _ _ _)] | split | dsimp only | refine .fold ?_ fun _ _ => ?_ | refine .fold1 ?_ fun _ _ => ?_ | refine .fold2 ?_ fun _ _ => ?_

theorem State.settleTest_touches (s : State) : Touches [.regs, .dev, .log, .logSeq, .mbx, .pmu, .rat, .out] s (State.settleTest s) := by
  unfold State.settleTest
  repeat' first | simp (disch := decide) only [Touches.refl, Touches.via (State.endTest_touches _), Touches.via (State.releaseGrant_touches _ _)] | split | dsimp only | refine .fold ?_ fun _ _ => ?_ | refine .fold1 ?_ fun _ _ => ?_ | refine .fold2 ?_ fun _ _ => ?_

theorem State.blockEnd_touches (s : State) (b : Nat) (pass : Bool) : Touches [.regs, .dev, .log, .logSeq, .mbx, .pmu, .eng, .rat, .out] s (State.blockEnd s b pass) := by
  unfold State.blockEnd
  repeat' first | simp (disch := decide) only [Touches.refl, Touches.set_dev_eng, Touches.via (State.settleTest_touches _), Touches.via (State.releaseGrant_touches _ _)] | split | dsimp only | refine .fold ?_ fun _ _ => ?_ | refine .fold1 ?_ fun _ _ => ?_ | refine .fold2 ?_ fun _ _ => ?_

theorem State.grantTimeout_touches (s : State) : Touches [.regs, .dev, .log, .logSeq, .mbx, .pmu, .rat, .out] s (State.grantTimeout s) := by
  unfold State.grantTimeout
  repeat' first | simp (disch := decide) only [Touches.refl, Touches.set_dev, Touches.via (State.settleTest_touches _)] | split | dsimp only | refine .fold ?_ fun _ _ => ?_ | refine .fold1 ?_ fun _ _ => ?_ | refine .fold2 ?_ fun _ _ => ?_

theorem State.stopTest_touches (s : State) : Touches [.regs, .dev, .log, .logSeq, .mbx, .pmu, .rat, .out] s (State.stopTest s) := by
  unfold State.stopTest
  repeat' first | simp (disch := decide) only [Touches.refl, Touches.set_dev, Touches.via (State.settleTest_touches _)] | split | dsimp only | refine .fold ?_ fun _ _ => ?_ | refine .fold1 ?_ fun _ _ => ?_ | refine .fold2 ?_ fun _ _ => ?_

theorem State.toReady_touches (s : State) : Touches [.dev, .pwr, .mem] s (State.toReady s) := by
  unfold State.toReady
  repeat' first | simp (disch := decide) only [Touches.refl, Touches.set_dev_pwr_mem] | split | dsimp only | refine .fold ?_ fun _ _ => ?_ | refine .fold1 ?_ fun _ _ => ?_ | refine .fold2 ?_ fun _ _ => ?_

theorem State.beginTest_touches (s : State) : Touches [.dev] s (State.beginTest s) := by
  unfold State.beginTest
  repeat' first | simp (disch := decide) only [Touches.refl, Touches.set_dev] | split | dsimp only | refine .fold ?_ fun _ _ => ?_ | refine .fold1 ?_ fun _ _ => ?_ | refine .fold2 ?_ fun _ _ => ?_

theorem execTempSensorScan_touches (readings : List (Option Int)) (s : State) : Touches [.regs, .pwr] s (outState s (execTempSensorScan readings s)) := by
  unfold execTempSensorScan
  repeat' first | simp (disch := decide) only [State.when, outState, Touches.refl, Touches.set_pwr, Touches.via (State.sticky_touches _ _ _)] | split | dsimp only | refine .fold ?_ fun _ _ => ?_ | refine .fold1 ?_ fun _ _ => ?_ | refine .fold2 ?_ fun _ _ => ?_

theorem execPmbusPoll_touches (rails : List (Option (Nat × Nat))) (s : State) : Touches [.regs, .pwr] s (outState s (execPmbusPoll rails s)) := by
  unfold execPmbusPoll
  repeat' first | simp (disch := decide) only [State.when, outState, Touches.refl, Touches.set_pwr, Touches.via (State.checkFloor_touches _), Touches.via (State.sticky_touches _ _ _)] | split | dsimp only | refine .fold ?_ fun _ _ => ?_ | refine .fold1 ?_ fun _ _ => ?_ | refine .fold2 ?_ fun _ _ => ?_

theorem execThermalHigh_touches (s : State) : Touches [.regs, .log, .logSeq, .mbx, .out] s (outState s (execThermalHigh s)) := by
  unfold execThermalHigh
  repeat' first | simp (disch := decide) only [outState, Touches.refl, Touches.via (State.raise_touches _ _ _ _ _), Touches.via (State.sticky_touches _ _ _)] | split | dsimp only | refine .fold ?_ fun _ _ => ?_ | refine .fold1 ?_ fun _ _ => ?_ | refine .fold2 ?_ fun _ _ => ?_

theorem State.trip_touches (s : State) (code obj detail : Nat) : Touches [.regs, .dev, .log, .logSeq, .mbx, .pwr, .chans, .tx, .grp, .out] s (State.trip s code obj detail) := by
  unfold State.trip
  repeat' first | simp (disch := decide) only [Touches.refl, Touches.set_dev_pwr, Touches.via (State.fatal_touches _ _ _ _)] | split | dsimp only | refine .fold ?_ fun _ _ => ?_ | refine .fold1 ?_ fun _ _ => ?_ | refine .fold2 ?_ fun _ _ => ?_

theorem State.warnRole_touches (s : State) : Touches [.regs, .pmu, .tx, .grp, .out] s (State.warnRole s) := by
  unfold State.warnRole
  repeat' first | simp (disch := decide) only [Touches.refl, Touches.via (State.updGch_touches _ _ _), Touches.via (State.setRole_touches _ _), Touches.via (State.resyncAll_touches _), Touches.via (State.selfDemote_touches _ _)] | split | dsimp only | refine .fold ?_ fun _ _ => ?_ | refine .fold1 ?_ fun _ _ => ?_ | refine .fold2 ?_ fun _ _ => ?_

theorem execSupplyWarningCrossing_touches (src mv : Nat) (s : State) : Touches [.regs, .pmu, .pwr, .tx, .grp, .out] s (outState s (execSupplyWarningCrossing src mv s)) := by
  unfold execSupplyWarningCrossing
  repeat' first | simp (disch := decide) only [outState, Touches.refl, Touches.set_pwr, Touches.via (State.bump_touches _ _), Touches.via (State.sticky_touches _ _ _), Touches.via (State.warnRole_touches _)] | split | dsimp only | refine .fold ?_ fun _ _ => ?_ | refine .fold1 ?_ fun _ _ => ?_ | refine .fold2 ?_ fun _ _ => ?_

theorem State.raiseWarning_touches (s : State) (w : Warning) (detail : Nat) : Touches [.regs, .time, .log, .logSeq, .mbx, .out] s (State.raiseWarning s w detail) := by
  unfold State.raiseWarning
  repeat' first | simp (disch := decide) only [Touches.refl, Touches.set_time, Touches.via (State.raise_touches _ _ _ _ _)] | split | dsimp only | refine .fold ?_ fun _ _ => ?_ | refine .fold1 ?_ fun _ _ => ?_ | refine .fold2 ?_ fun _ _ => ?_

theorem execSupplyWarningRelease_touches (minMv us : Nat) (s : State) : Touches [.regs, .time, .log, .logSeq, .mbx, .pwr, .out] s (outState s (execSupplyWarningRelease minMv us s)) := by
  unfold execSupplyWarningRelease
  repeat' first | simp (disch := decide) only [outState, Touches.refl, Touches.set_pwr, Touches.via (State.raiseWarning_touches _ _ _), Touches.via (State.wr_touches _ _ _)] | split | dsimp only | refine .fold ?_ fun _ _ => ?_ | refine .fold1 ?_ fun _ _ => ?_ | refine .fold2 ?_ fun _ _ => ?_

theorem State.doPowerBudget_touches (s : State) (b : Nat) : Touches [.pwr] s (State.doPowerBudget s b).st := by
  unfold State.doPowerBudget
  repeat' first | simp (disch := decide) only [State.checked, Touches.refl, State.done_st, Touches.set_pwr] | split | dsimp only | refine .fold ?_ fun _ _ => ?_ | refine .fold1 ?_ fun _ _ => ?_ | refine .fold2 ?_ fun _ _ => ?_

theorem State.captureFault_touches (s : State) (master tag id kind a : Nat) (write : Bool) : Touches [.regs] s (State.captureFault s master tag id kind a write) := by
  unfold State.captureFault
  repeat' first | simp (disch := decide) only [Touches.refl, Touches.via (State.wr_touches _ _ _)] | split | dsimp only | refine .fold ?_ fun _ _ => ?_ | refine .fold1 ?_ fun _ _ => ?_ | refine .fold2 ?_ fun _ _ => ?_

theorem State.fwViolation_touches (s : State) (master tag a : Nat) (write : Bool) (origin : Option Nat) : Touches [.regs, .log, .logSeq, .mbx, .pmu, .out, .fresh] s (State.fwViolation s master tag a write origin) := by
  unfold State.fwViolation
  repeat' first | simp (disch := decide) only [Touches.refl, Touches.set_fresh, Touches.via (State.bump_touches _ _), Touches.via (State.captureFault_touches _ _ _ _ _ _ _), Touches.via (State.raise_touches _ _ _ _ _), Touches.via (State.pmuCount_touches _ _ _ _ _), Touches.via (State.sticky_touches _ _ _)] | split | dsimp only | refine .fold ?_ fun _ _ => ?_ | refine .fold1 ?_ fun _ _ => ?_ | refine .fold2 ?_ fun _ _ => ?_

theorem State.decodeError_touches (s : State) (master tag a : Nat) (write : Bool) : Touches [.regs, .log, .logSeq, .mbx, .out, .fresh] s (State.decodeError s master tag a write) := by
  unfold State.decodeError
  repeat' first | simp (disch := decide) only [Touches.refl, Touches.set_fresh, Touches.via (State.bump_touches _ _), Touches.via (State.captureFault_touches _ _ _ _ _ _ _), Touches.via (State.raise_touches _ _ _ _ _), Touches.via (State.sticky_touches _ _ _)] | split | dsimp only | refine .fold ?_ fun _ _ => ?_ | refine .fold1 ?_ fun _ _ => ?_ | refine .fold2 ?_ fun _ _ => ?_

theorem execHbmRefresh_touches (s : State) : Touches [.mem] s (outState s (execHbmRefresh s)) := by
  unfold execHbmRefresh
  repeat' first | simp (disch := decide) only [outState, Touches.refl, Touches.set_mem] | split | dsimp only | refine .fold ?_ fun _ _ => ?_ | refine .fold1 ?_ fun _ _ => ?_ | refine .fold2 ?_ fun _ _ => ?_

theorem State.readHbm_touches (s : State) (t0 t1 : Option Int) : Touches [.pwr, .mem] s (State.readHbm s t0 t1) := by
  unfold State.readHbm
  repeat' first | simp (disch := decide) only [Touches.refl, Touches.set_pwr_mem] | split | dsimp only | refine .fold ?_ fun _ _ => ?_ | refine .fold1 ?_ fun _ _ => ?_ | refine .fold2 ?_ fun _ _ => ?_

theorem State.overTemp_touches (s : State) : Touches [.regs, .dev, .log, .logSeq, .mbx, .pwr, .chans, .tx, .grp, .out] s (State.overTemp s) := by
  unfold State.overTemp
  repeat' first | simp (disch := decide) only [Touches.refl, Touches.via (State.trip_touches _ _ _ _), Touches.via (State.sticky_touches _ _ _)] | split | dsimp only | refine .fold ?_ fun _ _ => ?_ | refine .fold1 ?_ fun _ _ => ?_ | refine .fold2 ?_ fun _ _ => ?_

theorem execRowIdleClose_touches (g bank : Nat) (s : State) : Touches [.mem] s (outState s (execRowIdleClose g bank s)) := by
  unfold execRowIdleClose
  repeat' first | simp (disch := decide) only [outState, Touches.refl, Touches.set_mem] | split | dsimp only | refine .fold ?_ fun _ _ => ?_ | refine .fold1 ?_ fun _ _ => ?_ | refine .fold2 ?_ fun _ _ => ?_

theorem execPanicLongTimer_touches (port : Nat) (s : State) : Touches [.regs, .mem] s (outState s (execPanicLongTimer port s)) := by
  unfold execPanicLongTimer
  repeat' first | simp (disch := decide) only [outState, Touches.refl, Touches.set_mem, Touches.via (State.bump_touches _ _), Touches.via (State.sticky_touches _ _ _)] | split | dsimp only | refine .fold ?_ fun _ _ => ?_ | refine .fold1 ?_ fun _ _ => ?_ | refine .fold2 ?_ fun _ _ => ?_

theorem State.resetMaster_touches (s : State) (port n : Nat) : Touches [.regs, .mem] s (State.resetMaster s port n) := by
  unfold State.resetMaster
  repeat' first | simp (disch := decide) only [Touches.refl, Touches.set_mem, Touches.via (State.bump_touches _ _)] | split | dsimp only | refine .fold ?_ fun _ _ => ?_ | refine .fold1 ?_ fun _ _ => ?_ | refine .fold2 ?_ fun _ _ => ?_

theorem execMasterResetRetire_touches (port : Nat) (s : State) : Touches [.mem] s (outState s (execMasterResetRetire port s)) := by
  unfold execMasterResetRetire
  repeat' first | simp (disch := decide) only [outState, Touches.refl, Touches.set_mem] | split | dsimp only | refine .fold ?_ fun _ _ => ?_ | refine .fold1 ?_ fun _ _ => ?_ | refine .fold2 ?_ fun _ _ => ?_

theorem State.ceStorm_touches (s : State) (g : Nat) : Touches [.regs, .log, .logSeq, .mbx, .mem, .out] s (State.ceStorm s g) := by
  unfold State.ceStorm
  repeat' first | simp (disch := decide) only [Touches.refl, Touches.set_mem, Touches.via (State.raise_touches _ _ _ _ _), Touches.via (State.sticky_touches _ _ _)] | split | dsimp only | refine .fold ?_ fun _ _ => ?_ | refine .fold1 ?_ fun _ _ => ?_ | refine .fold2 ?_ fun _ _ => ?_

theorem State.corrected_touches (s : State) (a : Nat) (sram : Bool) : Touches [.regs, .log, .logSeq, .mbx, .pmu, .mem, .out] s (State.corrected s a sram) := by
  unfold State.corrected
  repeat' first | simp (disch := decide) only [Touches.refl, Touches.via (State.bump_touches _ _), Touches.via (State.ceStorm_touches _ _), Touches.via (State.pmuCount_touches _ _ _ _ _)] | split | dsimp only | refine .fold ?_ fun _ _ => ?_ | refine .fold1 ?_ fun _ _ => ?_ | refine .fold2 ?_ fun _ _ => ?_

theorem execEccCorrectedError_touches (a : Nat) (sram : Bool) (s : State) : Touches [.regs, .log, .logSeq, .mbx, .pmu, .mem, .out] s (outState s (execEccCorrectedError a sram s)) := by
  unfold execEccCorrectedError
  repeat' first | simp (disch := decide) only [outState, Touches.refl, Touches.via (State.corrected_touches _ _ _)] | split | dsimp only | refine .fold ?_ fun _ _ => ?_ | refine .fold1 ?_ fun _ _ => ?_ | refine .fold2 ?_ fun _ _ => ?_

theorem State.uncorrectable_touches (s : State) (a : Nat) (sram : Bool) (f : FaultSource) : Touches [.regs, .log, .logSeq, .mbx, .pmu, .mem, .out] s (State.uncorrectable s a sram f) := by
  unfold State.uncorrectable
  repeat' first | simp (disch := decide) only [Touches.refl, Touches.set_mem, Touches.via (State.bump_touches _ _), Touches.via (State.captureFault_touches _ _ _ _ _ _ _), Touches.via (State.raise_touches _ _ _ _ _), Touches.via (State.pmuCount_touches _ _ _ _ _), Touches.via (State.sticky_touches _ _ _)] | split | dsimp only | refine .fold ?_ fun _ _ => ?_ | refine .fold1 ?_ fun _ _ => ?_ | refine .fold2 ?_ fun _ _ => ?_

theorem State.stopChannel_touches (s : State) (c : Nat) : Touches [.regs, .chans] s (State.stopChannel s c) := by
  unfold State.stopChannel
  repeat' first | simp (disch := decide) only [State.onChan, Touches.refl, Touches.via (State.updChan_touches _ _ _), Touches.via (State.countStop_touches _ _ _)] | split | dsimp only | refine .fold ?_ fun _ _ => ?_ | refine .fold1 ?_ fun _ _ => ?_ | refine .fold2 ?_ fun _ _ => ?_

theorem State.consumePoison_touches (s : State) (u : PoisonUser) : Touches [.regs, .mbx, .chans, .eng, .grp] s (State.consumePoison s u) := by
  unfold State.consumePoison
  repeat' first | simp (disch := decide) only [State.onRow, State.onChan, Touches.refl, Touches.set_mbx, Touches.via (State.updChan_touches _ _ _), Touches.via (State.damageRow_touches _ _ _ _ _), Touches.via (State.stopChannel_touches _ _), Touches.via (State.localEvent_touches _ _ _ _), Touches.via (State.poisonDu_touches _ _ _ _), Touches.via (State.failDu_touches _ _ _ _ _ _)] | split | dsimp only | refine .fold ?_ fun _ _ => ?_ | refine .fold1 ?_ fun _ _ => ?_ | refine .fold2 ?_ fun _ _ => ?_

theorem execEccUncorrectableError_touches (a : Nat) (sram : Bool) (fault : FaultSource) (user : PoisonUser) (s : State) : Touches [.regs, .dev, .log, .logSeq, .mbx, .pmu, .mem, .chans, .eng, .grp, .rat, .out] s (outState s (execEccUncorrectableError a sram fault user s)) := by
  unfold execEccUncorrectableError
  repeat' first | simp (disch := decide) only [outState, Touches.refl, Touches.via (State.consumePoison_touches _ _), Touches.via (State.settleShutdown_touches _), Touches.via (State.uncorrectable_touches _ _ _ _)] | split | dsimp only | refine .fold ?_ fun _ _ => ?_ | refine .fold1 ?_ fun _ _ => ?_ | refine .fold2 ?_ fun _ _ => ?_

theorem execScrubRead_touches (a : Nat) (sram : Bool) (res : EccResult) (s : State) : Touches [.regs, .log, .logSeq, .mbx, .pmu, .mem, .out, .fresh] s (outState s (execScrubRead a sram res s)) := by
  unfold execScrubRead
  repeat' first | simp (disch := decide) only [State.when, outState, Touches.refl, Touches.set_fresh, Touches.set_mem, Touches.via (State.bump_touches _ _), Touches.via (State.corrected_touches _ _ _), Touches.via (State.uncorrectable_touches _ _ _ _)] | split | dsimp only | refine .fold ?_ fun _ _ => ?_ | refine .fold1 ?_ fun _ _ => ?_ | refine .fold2 ?_ fun _ _ => ?_

theorem execHostHbmAccess_touches (a len : Nat) (data : Option (List Byte)) (s : State) : Touches [.regs, .log, .logSeq, .mbx, .pmu, .mem, .out, .fresh] s (outState s (execHostHbmAccess a len data s)) := by
  unfold execHostHbmAccess
  repeat' first | simp (disch := decide) only [outState, Touches.refl, Touches.set_fresh, Touches.via (State.badAccess_touches _), Touches.via (State.hbmWrite_touches _ _ _), Touches.via (State.fwViolation_touches _ _ _ _ _ _), Touches.via (State.unsupported_touches _), Touches.via (State.emit_touches _ _)] | split | dsimp only | refine .fold ?_ fun _ _ => ?_ | refine .fold1 ?_ fun _ _ => ?_ | refine .fold2 ?_ fun _ _ => ?_

theorem execMooredEntry_touches (s : State) : Touches [.dev, .pwr, .mem] s (outState s (execMooredEntry s)) := by
  unfold execMooredEntry
  repeat' first | simp (disch := decide) only [outState, Touches.refl, Touches.set_dev_pwr_mem] | split | dsimp only | refine .fold ?_ fun _ _ => ?_ | refine .fold1 ?_ fun _ _ => ?_ | refine .fold2 ?_ fun _ _ => ?_

end Sys2Proof.Machine
end

