-- ==== Sys2Proof/Laws/TouchDevice.lean ====
section
/-!
SUPPORT. What the operations of Control, Device, Commands, Reset, Access, HostRead touch: one frame for each.
-/
set_option linter.all false
namespace Sys2Proof.Machine
open Sys2Proof

theorem State.bare_touches (s : State) (k : Nat) : Touches [.regs, .time, .dev, .log, .logSeq, .mbx, .ctl, .chk, .pmu, .pwr, .mem, .chans, .eng, .ext, .surf, .aud, .net, .tx, .txc, .grp, .lane, .rat] s (s.bare k) :=
  ⟨fun f hf => by cases f <;> first | rfl | exact absurd (by decide) hf⟩

theorem State.chipReset_touches (s : State) (k : Nat) : Touches [.regs, .time, .dev, .log, .logSeq, .mbx, .ctl, .chk, .pmu, .pwr, .mem, .chans, .eng, .ext, .surf, .aud, .net, .tx, .txc, .grp, .lane, .rat] s (s.chipReset k) :=
  ⟨fun f hf => by cases f <;> first | rfl | exact absurd (by decide) hf⟩

theorem HeldCmd.answer_touches (k : HeldCmd) (a : Answer) : Touches [.regs, .mbx, .pmu, .rat, .out] a.st (k.answer a) := by
  unfold HeldCmd.answer
  repeat' first | simp (disch := decide) only [Touches.refl, Touches.set_mbx, Touches.via (State.setJournal_touches _ _ _), Touches.via (State.complete_touches _ _ _ _), Touches.via (State.shutSession_touches _ _ _), Touches.via (State.dropCompletions_touches _ _)] | split | dsimp only

theorem State.runHere_touches {l : List Fld} {f : State → Answer} (s : State) (h : CmdHdr) (x : CmdCtx) (p : Payload)
    (hf : ∀ t, Touches l t (f t).st) (hl : ∀ f ∈ [.regs, .mbx, .pmu, .rat, .out], f ∈ l) : Touches l s (s.runHere h x p f) := by
  have hc : ∀ t o c b, Touches l t (State.complete t o c b) := fun t o c b => (State.complete_touches t o c b).mono (by simpa using hl)
  unfold State.runHere
  split
  · exact (hf s).trans ((HeldCmd.answer_touches ..).mono hl)
  · split
    · exact hc ..
    · exact hc ..
    · exact hc ..
    · exact hc ..
    · exact ((State.setJournal_touches ..).mono (by simp at hl ⊢; tauto)).trans ((hf _).trans ((HeldCmd.answer_touches ..).mono hl))

theorem State.updChk_touches (s : State) (u : Nat) (f : ChkUnit → ChkUnit) : Touches [.chk] s (State.updChk s u f) := by
  unfold State.updChk
  repeat' first | simp (disch := decide) only [Touches.refl, Touches.set_chk] | split | dsimp only | refine .fold ?_ fun _ _ => ?_ | refine .fold1 ?_ fun _ _ => ?_ | refine .fold2 ?_ fun _ _ => ?_

theorem State.wrPair_touches (s : State) (lo hi v : Nat) : Touches [.regs] s (State.wrPair s lo hi v) := by
  unfold State.wrPair
  repeat' first | simp (disch := decide) only [Touches.refl, Touches.via (State.wr_touches _ _ _)] | split | dsimp only | refine .fold ?_ fun _ _ => ?_ | refine .fold1 ?_ fun _ _ => ?_ | refine .fold2 ?_ fun _ _ => ?_

theorem execChkPreset_touches (u : Nat) (w : Word) (s : State) : Touches [.regs, .mbx, .out] s (outState s (execChkPreset u w s)) := by
  unfold execChkPreset
  repeat' first | simp (disch := decide) only [State.chkWrite, State.hostWrite, State.barWrite, outState, Touches.refl, Touches.via (State.wr_touches _ _ _), Touches.via (State.wrPair_touches _ _ _ _), Touches.via (State.sticky_touches _ _ _), Touches.via (State.badAccess_touches _), Touches.via (State.emit_touches _ _), Touches.via (State.unsupported_touches _)] | split | dsimp only | refine .fold ?_ fun _ _ => ?_ | refine .fold1 ?_ fun _ _ => ?_ | refine .fold2 ?_ fun _ _ => ?_

theorem execChkInit_touches (u : Nat) (s : State) : Touches [.regs, .mbx, .chk, .out] s (outState s (execChkInit u s)) := by
  unfold execChkInit
  repeat' first | simp (disch := decide) only [State.chkWrite, State.hostWrite, State.barWrite, outState, Touches.refl, Touches.via (State.updChk_touches _ _ _), Touches.via (State.sticky_touches _ _ _), Touches.via (State.badAccess_touches _), Touches.via (State.emit_touches _ _), Touches.via (State.unsupported_touches _)] | split | dsimp only | refine .fold ?_ fun _ _ => ?_ | refine .fold1 ?_ fun _ _ => ?_ | refine .fold2 ?_ fun _ _ => ?_

theorem State.chkFeed_touches (s : State) (u : Nat) (b : List Byte) : Touches [.regs, .mbx, .chk, .out] s (State.chkFeed s u b) := by
  unfold State.chkFeed
  repeat' first | simp (disch := decide) only [State.chkWrite, State.hostWrite, State.barWrite, Touches.refl, Touches.via (State.updChk_touches _ _ _), Touches.via (State.badAccess_touches _), Touches.via (State.emit_touches _ _), Touches.via (State.unsupported_touches _)] | split | dsimp only | refine .fold ?_ fun _ _ => ?_ | refine .fold1 ?_ fun _ _ => ?_ | refine .fold2 ?_ fun _ _ => ?_

theorem execChkFeed8_touches (u : Nat) (w : Word) (s : State) : Touches [.regs, .mbx, .chk, .out] s (outState s (execChkFeed8 u w s)) := by
  unfold execChkFeed8
  repeat' first | simp (disch := decide) only [outState, Touches.refl, Touches.via (State.chkFeed_touches _ _ _)] | split | dsimp only | refine .fold ?_ fun _ _ => ?_ | refine .fold1 ?_ fun _ _ => ?_ | refine .fold2 ?_ fun _ _ => ?_

theorem execChkFeed16_touches (u : Nat) (w : Word) (s : State) : Touches [.regs, .mbx, .chk, .out] s (outState s (execChkFeed16 u w s)) := by
  unfold execChkFeed16
  repeat' first | simp (disch := decide) only [outState, Touches.refl, Touches.via (State.chkFeed_touches _ _ _)] | split | dsimp only | refine .fold ?_ fun _ _ => ?_ | refine .fold1 ?_ fun _ _ => ?_ | refine .fold2 ?_ fun _ _ => ?_

theorem execChkFeed32_touches (u : Nat) (lo : Word) (hi : Option Word) (s : State) : Touches [.regs, .mbx, .chk, .out] s (outState s (execChkFeed32 u lo hi s)) := by
  unfold execChkFeed32
  repeat' first | simp (disch := decide) only [outState, Touches.refl, Touches.via (State.chkFeed_touches _ _ _)] | split | dsimp only | refine .fold ?_ fun _ _ => ?_ | refine .fold1 ?_ fun _ _ => ?_ | refine .fold2 ?_ fun _ _ => ?_

theorem execChkFinish_touches (u : Nat) (s : State) : Touches [.regs, .mbx, .chk, .out] s (outState s (execChkFinish u s)) := by
  unfold execChkFinish
  repeat' first | simp (disch := decide) only [State.chkWrite, State.hostWrite, State.barWrite, outState, Touches.refl, Touches.via (State.updChk_touches _ _ _), Touches.via (State.sticky_touches _ _ _), Touches.via (State.badAccess_touches _), Touches.via (State.emit_touches _ _), Touches.via (State.unsupported_touches _)] | split | dsimp only | refine .fold ?_ fun _ _ => ?_ | refine .fold1 ?_ fun _ _ => ?_ | refine .fold2 ?_ fun _ _ => ?_

theorem execChkStart_touches (u : Nat) (s : State) : Touches [.regs, .mbx, .chk, .out] s (outState s (execChkStart u s)) := by
  unfold execChkStart
  repeat' first | simp (disch := decide) only [State.chkWrite, State.hostWrite, State.barWrite, outState, Touches.refl, Touches.via (State.updChk_touches _ _ _), Touches.via (State.sticky_touches _ _ _), Touches.via (State.badAccess_touches _), Touches.via (State.emit_touches _ _), Touches.via (State.unsupported_touches _)] | split | dsimp only | refine .fold ?_ fun _ _ => ?_ | refine .fold1 ?_ fun _ _ => ?_ | refine .fold2 ?_ fun _ _ => ?_

theorem State.chkStop_touches (s : State) (u n : Nat) (bit : Word) : Touches [.regs, .chk, .fresh] s (State.chkStop s u n bit) := by
  unfold State.chkStop
  repeat' first | simp (disch := decide) only [Touches.refl, Touches.set_fresh, Touches.via (State.updChk_touches _ _ _), Touches.via (State.sticky_touches _ _ _)] | split | dsimp only | refine .fold ?_ fun _ _ => ?_ | refine .fold1 ?_ fun _ _ => ?_ | refine .fold2 ?_ fun _ _ => ?_

theorem execChkAbort_touches (u : Nat) (s : State) : Touches [.regs, .mbx, .chk, .out, .fresh] s (outState s (execChkAbort u s)) := by
  unfold execChkAbort
  repeat' first | simp (disch := decide) only [State.chkWrite, State.hostWrite, State.barWrite, outState, Touches.refl, Touches.via (State.chkStop_touches _ _ _ _), Touches.via (State.badAccess_touches _), Touches.via (State.emit_touches _ _), Touches.via (State.unsupported_touches _)] | split | dsimp only | refine .fold ?_ fun _ _ => ?_ | refine .fold1 ?_ fun _ _ => ?_ | refine .fold2 ?_ fun _ _ => ?_

theorem State.refusedRead_touches (s : State) (a : Nat) : Touches [.regs, .log, .logSeq, .mbx, .pmu, .out, .fresh] s (State.refusedRead s a) := by
  unfold State.refusedRead
  repeat' first | simp (disch := decide) only [Touches.refl, Touches.via (State.fwViolation_touches _ _ _ _ _ _), Touches.via (State.decodeError_touches _ _ _ _ _)] | split | dsimp only | refine .fold ?_ fun _ _ => ?_ | refine .fold1 ?_ fun _ _ => ?_ | refine .fold2 ?_ fun _ _ => ?_

theorem State.chkAppend_touches (s : State) (a : Nat) (b : List Byte) : Touches [.regs, .log, .logSeq, .mbx, .pmu, .mem, .out, .fresh] s (State.chkAppend s a b) := by
  unfold State.chkAppend
  repeat' first | simp (disch := decide) only [Touches.refl, Touches.via (State.hbmWrite_touches _ _ _), Touches.via (State.fwViolation_touches _ _ _ _ _ _), Touches.via (State.decodeError_touches _ _ _ _ _)] | split | dsimp only | refine .fold ?_ fun _ _ => ?_ | refine .fold1 ?_ fun _ _ => ?_ | refine .fold2 ?_ fun _ _ => ?_

theorem execChkScanEnd_touches (u : Nat) (early : Bool) (s : State) : Touches [.regs, .log, .logSeq, .mbx, .chk, .pmu, .mem, .out, .fresh] s (outState s (execChkScanEnd u early s)) := by
  unfold execChkScanEnd
  repeat' first | simp (disch := decide) only [outState, Touches.refl, Touches.set_fresh, Touches.via (State.updChk_touches _ _ _), Touches.via (State.chkAppend_touches _ _ _), Touches.via (State.chkStop_touches _ _ _ _), Touches.via (State.refusedRead_touches _ _)] | split | dsimp only | refine .fold ?_ fun _ _ => ?_ | refine .fold1 ?_ fun _ _ => ?_ | refine .fold2 ?_ fun _ _ => ?_

theorem State.chkReset_touches (s : State) (u : Nat) : Touches [.regs, .chk] s (State.chkReset s u) := by
  unfold State.chkReset
  repeat' first | simp (disch := decide) only [Touches.refl, Touches.via (State.updChk_touches _ _ _), Touches.via (State.clearRegs_touches _ _ _)] | split | dsimp only | refine .fold ?_ fun _ _ => ?_ | refine .fold1 ?_ fun _ _ => ?_ | refine .fold2 ?_ fun _ _ => ?_

theorem State.doCuAssign_touches (s : State) (p : ChArg) : Touches [.regs, .chk] s (State.doCuAssign s p).st := by
  unfold State.doCuAssign
  repeat' first | simp (disch := decide) only [State.checked, State.when, Touches.refl, State.done_st, Touches.via (State.updChk_touches _ _ _), Touches.via (State.chkReset_touches _ _), Touches.via (State.sticky_touches _ _ _)] | split | dsimp only | refine .fold ?_ fun _ _ => ?_ | refine .fold1 ?_ fun _ _ => ?_ | refine .fold2 ?_ fun _ _ => ?_

theorem execPmuCntLoRead_touches (i : Nat) (s : State) : Touches [.regs, .mbx, .out] s (outState s (execPmuCntLoRead i s)) := by
  unfold execPmuCntLoRead
  repeat' first | simp (disch := decide) only [State.hostRead, State.barRead, outState, Touches.refl, Touches.via (State.wr_touches _ _ _), Touches.via (State.readReserved_touches _), Touches.via (State.emit_touches _ _), Touches.via (State.badAccess_touches _), Touches.via (State.unsupported_touches _)] | split | dsimp only | refine .fold ?_ fun _ _ => ?_ | refine .fold1 ?_ fun _ _ => ?_ | refine .fold2 ?_ fun _ _ => ?_

theorem execPmuCounterEnable_touches (i : Nat) (w : Word) (s : State) : Touches [.regs, .mbx, .pmu, .out] s (outState s (execPmuCounterEnable i w s)) := by
  unfold execPmuCounterEnable
  repeat' first | simp (disch := decide) only [State.pmuWrite, State.hostWrite, State.barWrite, outState, Touches.refl, Touches.set_pmu, Touches.via (State.wr_touches _ _ _), Touches.via (State.unstick_touches _ _ _), Touches.via (State.badAccess_touches _), Touches.via (State.emit_touches _ _), Touches.via (State.unsupported_touches _)] | split | dsimp only | refine .fold ?_ fun _ _ => ?_ | refine .fold1 ?_ fun _ _ => ?_ | refine .fold2 ?_ fun _ _ => ?_

theorem execPmuSample_touches (i : Nat) (pc : Word) (core thread : Nat) (s : State) : Touches [.regs, .pmu] s (outState s (execPmuSample i pc core thread s)) := by
  unfold execPmuSample
  repeat' first | simp (disch := decide) only [outState, Touches.refl, Touches.set_pmu, Touches.via (State.pmuAdvance_touches _ _ _)] | split | dsimp only | refine .fold ?_ fun _ _ => ?_ | refine .fold1 ?_ fun _ _ => ?_ | refine .fold2 ?_ fun _ _ => ?_

theorem execPmuSamplePcRead_touches (s : State) : Touches [.regs, .mbx, .pmu, .out] s (outState s (execPmuSamplePcRead s)) := by
  unfold execPmuSamplePcRead
  repeat' first | simp (disch := decide) only [State.hostRead, State.barRead, outState, Touches.refl, Touches.set_pmu, Touches.via (State.wr_touches _ _ _), Touches.via (State.emit_touches _ _), Touches.via (State.badAccess_touches _), Touches.via (State.unsupported_touches _)] | split | dsimp only | refine .fold ?_ fun _ _ => ?_ | refine .fold1 ?_ fun _ _ => ?_ | refine .fold2 ?_ fun _ _ => ?_

theorem State.histConfig_touches (s : State) (h : Nat) (w : Word) : Touches [.regs] s (State.histConfig s h w) := by
  unfold State.histConfig
  repeat' first | simp (disch := decide) only [Touches.refl, Touches.via (State.wr_touches _ _ _)] | split | dsimp only | refine .fold ?_ fun _ _ => ?_ | refine .fold1 ?_ fun _ _ => ?_ | refine .fold2 ?_ fun _ _ => ?_

theorem execPmuHistClear_touches (h : Nat) (w : Word) (s : State) : Touches [.regs, .mbx, .out] s (outState s (execPmuHistClear h w s)) := by
  unfold execPmuHistClear
  repeat' first | simp (disch := decide) only [State.hostWrite, State.barWrite, outState, Touches.refl, Touches.via (State.histConfig_touches _ _ _), Touches.via (State.unstick_touches _ _ _), Touches.via (State.clearRegs_touches _ _ _), Touches.via (State.badAccess_touches _), Touches.via (State.emit_touches _ _), Touches.via (State.unsupported_touches _)] | split | dsimp only | refine .fold ?_ fun _ _ => ?_ | refine .fold1 ?_ fun _ _ => ?_ | refine .fold2 ?_ fun _ _ => ?_

theorem execPmuDumpConfigWrite_touches (off : Nat) (w : Word) (s : State) : Touches [.regs, .mbx, .pmu, .out] s (outState s (execPmuDumpConfigWrite off w s)) := by
  unfold execPmuDumpConfigWrite
  repeat' first | simp (disch := decide) only [State.hostWrite, State.barWrite, outState, Touches.refl, Touches.set_pmu, Touches.via (State.wr_touches _ _ _), Touches.via (State.badAccess_touches _), Touches.via (State.emit_touches _ _), Touches.via (State.unsupported_touches _)] | split | dsimp only | refine .fold ?_ fun _ _ => ?_ | refine .fold1 ?_ fun _ _ => ?_ | refine .fold2 ?_ fun _ _ => ?_

theorem State.dumpWrite_touches (s : State) (trigger pic len : Nat) (r : Nat × Nat) : Touches [.regs, .mbx, .pmu, .mem, .out] s (State.dumpWrite s trigger pic len r) := by
  unfold State.dumpWrite
  repeat' first | simp (disch := decide) only [Touches.refl, Touches.set_pmu, Touches.via (State.bump_touches _ _), Touches.via (State.hbmWrite_touches _ _ _), Touches.via (State.wr_touches _ _ _), Touches.via (State.signal_touches _ _)] | split | dsimp only | refine .fold ?_ fun _ _ => ?_ | refine .fold1 ?_ fun _ _ => ?_ | refine .fold2 ?_ fun _ _ => ?_

theorem State.dumpRestart_touches (s : State) : Touches [.regs, .pmu] s (State.dumpRestart s) := by
  unfold State.dumpRestart
  repeat' first | simp (disch := decide) only [Touches.refl, Touches.set_pmu, Touches.via (State.wr_touches _ _ _)] | split | dsimp only | refine .fold ?_ fun _ _ => ?_ | refine .fold1 ?_ fun _ _ => ?_ | refine .fold2 ?_ fun _ _ => ?_

theorem execPmuDumpTrigger_touches (trigger pic : Nat) (busy : Bool) (s : State) : Touches [.regs, .mbx, .pmu, .mem, .out] s (outState s (execPmuDumpTrigger trigger pic busy s)) := by
  unfold execPmuDumpTrigger
  repeat' first | simp (disch := decide) only [outState, Touches.refl, Touches.set_pmu, Touches.via (State.dumpRestart_touches _), Touches.via (State.bump_touches _ _), Touches.via (State.dumpWrite_touches _ _ _ _ _)] | split | dsimp only | refine .fold ?_ fun _ _ => ?_ | refine .fold1 ?_ fun _ _ => ?_ | refine .fold2 ?_ fun _ _ => ?_

theorem State.noteDispatch_touches (s : State) (ns : Nat) : Touches [.regs] s (State.noteDispatch s ns) := by
  unfold State.noteDispatch
  repeat' first | simp (disch := decide) only [Touches.refl, Touches.via (State.recordMax_touches _ _ _ _)] | split | dsimp only | refine .fold ?_ fun _ _ => ?_ | refine .fold1 ?_ fun _ _ => ?_ | refine .fold2 ?_ fun _ _ => ?_

theorem State.startThread_touches (s : State) (slot level ns : Nat) : Touches [.regs, .ctl, .pmu] s (State.startThread s slot level ns) := by
  unfold State.startThread
  repeat' first | simp (disch := decide) only [Touches.refl, Touches.set_ctl, Touches.via (State.bump_touches _ _), Touches.via (State.noteDispatch_touches _ _), Touches.via (State.pmuEvent_touches _ _ _)] | split | dsimp only | refine .fold ?_ fun _ _ => ?_ | refine .fold1 ?_ fun _ _ => ?_ | refine .fold2 ?_ fun _ _ => ?_

theorem execThreadReady_touches (slot level ns : Nat) (s : State) : Touches [.regs, .ctl, .pmu] s (outState s (execThreadReady slot level ns s)) := by
  unfold execThreadReady
  repeat' first | simp (disch := decide) only [outState, Touches.refl, Touches.set_ctl, Touches.via (State.bump_touches _ _), Touches.via (State.startThread_touches _ _ _ _), Touches.via (State.pmuEvent_touches _ _ _)] | split | dsimp only | refine .fold ?_ fun _ _ => ?_ | refine .fold1 ?_ fun _ _ => ?_ | refine .fold2 ?_ fun _ _ => ?_

theorem execHalDispatchMaxRead_touches (s : State) : Touches [.regs, .mbx, .out] s (outState s (execHalDispatchMaxRead s)) := by
  unfold execHalDispatchMaxRead
  repeat' first | simp (disch := decide) only [outState, Touches.refl, Touches.via (State.readClear_touches _ _)] | split | dsimp only | refine .fold ?_ fun _ _ => ?_ | refine .fold1 ?_ fun _ _ => ?_ | refine .fold2 ?_ fun _ _ => ?_

theorem execUnstableClear_touches (s : State) : Touches [.ctl] s (outState s (execUnstableClear s)) := by
  unfold execUnstableClear
  repeat' first | simp (disch := decide) only [outState, Touches.refl, Touches.set_ctl] | split | dsimp only | refine .fold ?_ fun _ _ => ?_ | refine .fold1 ?_ fun _ _ => ?_ | refine .fold2 ?_ fun _ _ => ?_

theorem State.doDeviceInfo_touches (s : State) : Touches [] s (State.doDeviceInfo s).st := by
  unfold State.doDeviceInfo
  repeat' first | simp (disch := decide) only [Touches.refl, State.reply_st] | split | dsimp only | refine .fold ?_ fun _ _ => ?_ | refine .fold1 ?_ fun _ _ => ?_ | refine .fold2 ?_ fun _ _ => ?_

theorem State.doDeviceConfigure_touches (s : State) (p : ChArg) : Touches [.dev] s (State.doDeviceConfigure s p).st := by
  unfold State.doDeviceConfigure
  repeat' first | simp (disch := decide) only [State.checked, Touches.refl, State.done_st, Touches.set_dev] | split | dsimp only | refine .fold ?_ fun _ _ => ?_ | refine .fold1 ?_ fun _ _ => ?_ | refine .fold2 ?_ fun _ _ => ?_

theorem State.stopForShutdown_touches (s : State) : Touches [.regs, .chans] s (State.stopForShutdown s) := by
  unfold State.stopForShutdown
  repeat' first | simp (disch := decide) only [Touches.refl, Touches.via (State.doChannelStop_touches _ _)] | split | dsimp only | refine .fold ?_ fun _ _ => ?_ | refine .fold1 ?_ fun _ _ => ?_ | refine .fold2 ?_ fun _ _ => ?_

theorem State.doShutdown_touches (s : State) (p : ChArg) : Touches [.regs, .dev, .chans] s (State.doShutdown s p).st := by
  unfold State.doShutdown
  repeat' first | simp (disch := decide) only [State.checked, Touches.refl, State.done_st, Touches.set_dev, Touches.via (State.beginTest_touches _), Touches.via (State.stopForShutdown_touches _)] | split | dsimp only | refine .fold ?_ fun _ _ => ?_ | refine .fold1 ?_ fun _ _ => ?_ | refine .fold2 ?_ fun _ _ => ?_

theorem State.doCalRead_touches (s : State) (surf : Nat) : Touches [.mem] s (State.doCalRead s surf).st := by
  unfold State.doCalRead
  repeat' first | simp (disch := decide) only [Touches.refl, State.reply_st, Touches.via (State.hbmWrite_touches _ _ _)] | split | dsimp only | refine .fold ?_ fun _ _ => ?_ | refine .fold1 ?_ fun _ _ => ?_ | refine .fold2 ?_ fun _ _ => ?_

theorem State.doCalWrite_touches (s : State) (p : CalWriteArg) : Touches [.dev] s (State.doCalWrite s p).st := by
  unfold State.doCalWrite
  repeat' first | simp (disch := decide) only [State.checked, Touches.refl, State.done_st, Touches.set_dev] | split | dsimp only | refine .fold ?_ fun _ _ => ?_ | refine .fold1 ?_ fun _ _ => ?_ | refine .fold2 ?_ fun _ _ => ?_

theorem State.doFirmwareWrite_touches (s : State) (p : FirmwareWriteArg) : Touches [.dev] s (State.doFirmwareWrite s p).st := by
  unfold State.doFirmwareWrite
  repeat' first | simp (disch := decide) only [State.checked, Touches.refl, State.done_st, Touches.set_dev] | split | dsimp only | refine .fold ?_ fun _ _ => ?_ | refine .fold1 ?_ fun _ _ => ?_ | refine .fold2 ?_ fun _ _ => ?_

theorem execFirmwareWriteDone_touches (status : Nat) (s : State) : Touches [.regs, .dev, .log, .logSeq, .mbx, .out] s (outState s (execFirmwareWriteDone status s)) := by
  unfold execFirmwareWriteDone
  repeat' first | simp (disch := decide) only [outState, Touches.refl, Touches.set_dev, Touches.via (State.raise_touches _ _ _ _ _)] | split | dsimp only | refine .fold ?_ fun _ _ => ?_ | refine .fold1 ?_ fun _ _ => ?_ | refine .fold2 ?_ fun _ _ => ?_

theorem State.closeAll_touches (s : State) (reason : Option Nat) : Touches [.regs, .mbx, .out] s (State.closeAll s reason) := by
  unfold State.closeAll
  repeat' first | simp (disch := decide) only [Touches.refl, Touches.via (State.closeSession_touches _ _ _)] | split | dsimp only | refine .fold ?_ fun _ _ => ?_ | refine .fold1 ?_ fun _ _ => ?_ | refine .fold2 ?_ fun _ _ => ?_

theorem State.lifeEntry_touches (s : State) : Touches [.regs, .dev, .mbx, .out] s (State.lifeEntry s) := by
  unfold State.lifeEntry
  repeat' first | simp (disch := decide) only [Touches.refl, Touches.set_dev, Touches.set_mbx, Touches.via (State.closeAll_touches _ _)] | split | dsimp only | refine .fold ?_ fun _ _ => ?_ | refine .fold1 ?_ fun _ _ => ?_ | refine .fold2 ?_ fun _ _ => ?_

theorem State.doLifecycleSet_touches (s : State) (p : LifecycleSetArg) : Touches [.regs, .dev, .mbx, .out] s (State.doLifecycleSet s p).st := by
  unfold State.doLifecycleSet
  repeat' first | simp (disch := decide) only [State.checked, Touches.refl, State.done_st, Touches.set_dev, Touches.via (State.lifeEntry_touches _)] | split | dsimp only | refine .fold ?_ fun _ _ => ?_ | refine .fold1 ?_ fun _ _ => ?_ | refine .fold2 ?_ fun _ _ => ?_

theorem State.doEventLogFetch_touches (s : State) (p : EventFetchArg) : Touches [] s (State.doEventLogFetch s p).st := by
  unfold State.doEventLogFetch
  repeat' first | simp (disch := decide) only [State.checked, Touches.refl, State.reply_st] | split | dsimp only | refine .fold ?_ fun _ _ => ?_ | refine .fold1 ?_ fun _ _ => ?_ | refine .fold2 ?_ fun _ _ => ?_

theorem State.body_touches (s : State) (x : CmdCtx) (a2 : Payload) : Touches [.regs, .time, .dev, .mbx, .chk, .pmu, .pwr, .mem, .chans, .eng, .ext, .surf, .aud, .net, .tx, .txc, .grp, .lane, .rat, .out, .fresh] s (State.body s x a2).st := by
  unfold State.body
  repeat' first | simp (disch := decide) only [Touches.refl, Touches.via (State.doTxQueueConfig_touches _ _), Touches.via (State.doGroupLeave_touches _), Touches.via (State.doAudioPortStop_touches _ _), Touches.via (State.doChannelCommit_touches _ _), Touches.via (State.doLaneConfig_touches _ _), Touches.via (State.doFlowAdd_touches _ _), Touches.via (State.doChainEnumerate_touches _), Touches.via (State.doGroupHandover_touches _ _), Touches.via (State.doTimeAcceptStep_touches _ _), Touches.via (State.doFirmwareWrite_touches _ _), Touches.via (State.doKeyWrite_touches _ _), Touches.via (State.doDeviceConfigure_touches _ _), Touches.via (State.doAudioClock_touches _ _), Touches.via (State.doProtectedLoad_touches _ _ _), Touches.via (State.doSessionProve_touches _ _), Touches.via (State.doCuAssign_touches _ _), Touches.via (State.doCalWrite_touches _ _), Touches.via (State.doProtectedRemove_touches _ _ _), Touches.via (State.doChainBudget_touches _ _), Touches.via (State.doCompletionFetch_touches _ _ _), Touches.via (State.doAudioPortConfig_touches _ _), Touches.via (State.doFlipSubmit_touches _ _), Touches.via (State.doRoiSet_touches _ _), Touches.via (State.doAudioPortStart_touches _ _), Touches.via (State.doChannelSet_touches _ _), Touches.via (State.doTimeServoConfig_touches _ _), Touches.via (State.doGroupForm_touches _ _), Touches.via (State.doAudioRoute_touches _ _), Touches.via (State.doChannelStart_touches _ _), Touches.via (State.doGateListSet_touches _ _), Touches.via (State.doSurfaceFree_touches _ _), Touches.via (State.doRoiClear_touches _ _), Touches.via (State.doEventLogFetch_touches _ _), Touches.via (State.doDeviceInfo_touches _), Touches.via (State.doSessionClose_touches _ _), Touches.via (State.doTimeConfig_touches _ _), Touches.via (State.doLtrMark_touches _ _), Touches.via (State.doLifecycleSet_touches _ _), Touches.via (State.doTimePpsConfig_touches _ _), Touches.via (State.doAudioStreamConfig_touches _ _), Touches.via (State.doChannelStop_touches _ _), Touches.via (State.doAudioStreamDelete_touches _ _), Touches.via (State.doSurfaceAlloc_touches _ _), Touches.via (State.doPowerBudget_touches _ _), Touches.via (State.doNetAddress_touches _ _), Touches.via (State.doSessionOpen_touches _ _), Touches.via (State.doCalRead_touches _ _), Touches.via (State.doExtStreamDelete_touches _ _), Touches.via (State.doShutdown_touches _ _), Touches.via (State.doChannelDelete_touches _ _), Touches.via (State.doExtStreamDefine_touches _ _), Touches.via (State.doTonemapLoad_touches _ _), Touches.via (State.doLtrRelease_touches _ _), Touches.via (State.doGroupJoin_touches _ _), Touches.via (State.doChannelRefresh_touches _ _), Touches.via (State.doChannelDefine_touches _ _), Touches.via (State.doFlowDelete_touches _ _), Touches.via (State.doAudioAlignGroup_touches _ _), Touches.via (State.doPortConfig_touches _ _)] | split | dsimp only | refine .fold ?_ fun _ _ => ?_ | refine .fold1 ?_ fun _ _ => ?_ | refine .fold2 ?_ fun _ _ => ?_

theorem State.checkedBody_touches (s : State) (h : CmdHdr) (x : CmdCtx) (p : Payload) : Touches [.regs, .time, .dev, .mbx, .chk, .pmu, .pwr, .mem, .chans, .eng, .ext, .surf, .aud, .net, .tx, .txc, .grp, .lane, .rat, .out, .fresh] s (State.checkedBody s h x p).st := by
  unfold State.checkedBody
  repeat' first | simp (disch := decide) only [Touches.refl, Touches.via (State.body_touches _ _ _)] | split | dsimp only | refine .fold ?_ fun _ _ => ?_ | refine .fold1 ?_ fun _ _ => ?_ | refine .fold2 ?_ fun _ _ => ?_

theorem State.bringReady_touches (s : State) (h : CmdHdr) (x : CmdCtx) (p : Payload) : Touches [.regs, .time, .dev, .mbx, .chk, .pmu, .pwr, .mem, .chans, .eng, .ext, .surf, .aud, .net, .tx, .txc, .grp, .lane, .rat, .out, .fresh] s (State.bringReady s h x p).st := by
  unfold State.bringReady
  repeat' first | simp (disch := decide) only [Touches.refl, Touches.via (State.checkedBody_touches _ _ _ _), Touches.via (State.toReady_touches _)] | split | dsimp only | refine .fold ?_ fun _ _ => ?_ | refine .fold1 ?_ fun _ _ => ?_ | refine .fold2 ?_ fun _ _ => ?_

theorem State.execute_touches (s : State) (h : CmdHdr) (x : CmdCtx) (p : Payload) : Touches [.regs, .time, .dev, .log, .logSeq, .mbx, .chk, .pmu, .pwr, .mem, .chans, .eng, .ext, .surf, .aud, .net, .tx, .txc, .grp, .lane, .rat, .out, .fresh] s (State.execute s h x p).st := by
  unfold State.execute
  repeat' first | simp (disch := decide) only [Touches.refl, Touches.via (State.checkedBody_touches _ _ _ _), Touches.via (State.stopTest_touches _), Touches.via (State.bringReady_touches _ _ _ _)] | split | dsimp only | refine .fold ?_ fun _ _ => ?_ | refine .fold1 ?_ fun _ _ => ?_ | refine .fold2 ?_ fun _ _ => ?_

theorem State.forward_touches (s : State) (h : CmdHdr) (x : CmdCtx) (tag block : Nat) (p : Payload) : Touches [.regs, .pmu, .rat, .out] s (State.forward s h x tag block p) := by
  unfold State.forward
  repeat' first | simp (disch := decide) only [Touches.refl, Touches.set_rat, Touches.via (State.ratSend_touches _ _ _)] | split | dsimp only | refine .fold ?_ fun _ _ => ?_ | refine .fold1 ?_ fun _ _ => ?_ | refine .fold2 ?_ fun _ _ => ?_

theorem State.runForward_touches (s : State) (h : CmdHdr) (x : CmdCtx) (tag block : Nat) (p : Payload) : Touches [.regs, .mbx, .pmu, .rat, .out] s (State.runForward s h x tag block p) := by
  unfold State.runForward
  split
  · exact State.runHere_touches _ _ _ _ (fun t => .refl _ _) (by decide)
  · split
    · exact State.runHere_touches _ _ _ _ (fun t => .refl _ _) (by decide)
    · exact (State.forward_touches ..).mono (by decide)

theorem State.runCommand_touches (s : State) (h : CmdHdr) (p : Payload) : Touches [.regs, .time, .dev, .log, .logSeq, .mbx, .chk, .pmu, .pwr, .mem, .chans, .eng, .ext, .surf, .aud, .net, .tx, .txc, .grp, .lane, .rat, .out, .fresh] s (State.runCommand s h p) := by
  unfold State.runCommand
  split
  · exact .refl _ _
  · split
    · exact .refl _ _
    · refine .trans ((State.serveWord_touches s h.pair).mono (by decide)) ?_
      dsimp only
      split
      · exact (State.refuseWord_touches ..).mono (by decide)
      · split
        · exact (State.complete_touches ..).mono (by decide)
        · split
          · exact (State.runForward_touches ..).mono (by decide)
          · exact State.runHere_touches _ _ _ _ (fun t => (State.execute_touches ..).mono (by decide)) (by decide)

theorem State.settleService_touches (s : State) : Touches [.regs, .time, .dev, .mbx, .chk, .pmu, .pwr, .mem, .chans, .eng, .ext, .surf, .aud, .net, .tx, .txc, .grp, .lane, .rat, .out, .fresh] s (State.settleService s) := by
  unfold State.settleService
  repeat' first | simp (disch := decide) only [Touches.refl, Touches.set_mbx, Touches.via (State.bringReady_touches _ _ _ _), Touches.via (HeldCmd.answer_touches _ _)] | split | dsimp only | refine .fold ?_ fun _ _ => ?_ | refine .fold1 ?_ fun _ _ => ?_ | refine .fold2 ?_ fun _ _ => ?_

theorem State.settle_touches (s : State) : Touches [.regs, .time, .dev, .mbx, .chk, .pmu, .pwr, .mem, .chans, .eng, .ext, .surf, .aud, .net, .tx, .txc, .grp, .lane, .rat, .out, .fresh] s (State.settle s) := by
  unfold State.settle
  repeat' first | simp (disch := decide) only [Touches.refl, Touches.via (State.settleService_touches _), Touches.via (State.settleShutdown_touches _)] | split | dsimp only | refine .fold ?_ fun _ _ => ?_ | refine .fold1 ?_ fun _ _ => ?_ | refine .fold2 ?_ fun _ _ => ?_

theorem State.ratCommand_touches (s : State) (src : Nat) (c : CmdHdr) (slot roles : Nat) (p : Payload) : Touches [.regs, .time, .dev, .log, .logSeq, .mbx, .chk, .pmu, .pwr, .mem, .chans, .eng, .ext, .surf, .aud, .net, .tx, .txc, .grp, .lane, .rat, .out, .fresh] s (State.ratCommand s src c slot roles p) := by
  exact State.runHere_touches _ _ _ _ (fun t => (State.execute_touches ..).mono (by decide)) (by decide)

theorem State.resendCompletion_touches (s : State) (src : Nat) (c : CmdHdr) (slot : Nat) : Touches [.regs, .mbx, .pmu, .rat, .out] s (State.resendCompletion s src c slot) := by
  unfold State.resendCompletion
  repeat' first | simp (disch := decide) only [Touches.refl, Touches.via (State.complete_touches _ _ _ _)] | split | dsimp only | refine .fold ?_ fun _ _ => ?_ | refine .fold1 ?_ fun _ _ => ?_ | refine .fold2 ?_ fun _ _ => ?_

theorem State.takeWaiting_touches (s : State) (f : RatFrame) : Touches [.regs, .time, .dev, .log, .logSeq, .mbx, .chk, .pmu, .pwr, .mem, .chans, .eng, .ext, .surf, .aud, .net, .tx, .txc, .grp, .lane, .rat, .out, .fresh] s (State.takeWaiting s f) := by
  unfold State.takeWaiting
  repeat' first | simp (disch := decide) only [Touches.refl, Touches.via (State.ratCommand_touches _ _ _ _ _ _), Touches.via (State.ratHandle_touches _ _ _)] | split | dsimp only | refine .fold ?_ fun _ _ => ?_ | refine .fold1 ?_ fun _ _ => ?_ | refine .fold2 ?_ fun _ _ => ?_

theorem State.drainRing_touches (a0 : Nat) (a1 : State) : Touches [.regs, .time, .dev, .log, .logSeq, .mbx, .chk, .pmu, .pwr, .mem, .chans, .eng, .ext, .surf, .aud, .net, .tx, .txc, .grp, .lane, .rat, .out, .fresh] a1 (State.drainRing a0 a1) := by
  induction a0 generalizing a1 with
  | zero => exact .refl _ _
  | succ k ih =>
    unfold State.drainRing
    repeat' first | simp (disch := decide) only [Touches.refl, Touches.via (ih _), Touches.set_rat, Touches.via (State.takeWaiting_touches _ _)] | split | dsimp only | refine .fold ?_ fun _ _ => ?_ | refine .fold1 ?_ fun _ _ => ?_ | refine .fold2 ?_ fun _ _ => ?_

theorem execRatlineCommand_touches (h : RatHdr) (c : CmdHdr) (slot roles : Nat) (p : Payload) (s : State) : Touches [.regs, .time, .dev, .log, .logSeq, .mbx, .chk, .pmu, .pwr, .mem, .chans, .eng, .ext, .surf, .aud, .net, .tx, .txc, .grp, .lane, .rat, .out, .fresh] s (outState s (execRatlineCommand h c slot roles p s)) := by
  unfold execRatlineCommand
  simp -zeta -zetaHave only [outState]
  extract_lets m l t s1
  have hl : Touches [.regs, .time, .dev, .log, .logSeq, .mbx, .chk, .pmu, .pwr, .mem, .chans, .eng, .ext, .surf, .aud, .net, .tx, .txc, .grp, .lane, .rat, .out, .fresh] s l.1 := (State.ratLinkIn_touches ..).mono (by decide)
  have ht : Touches [.regs, .time, .dev, .log, .logSeq, .mbx, .chk, .pmu, .pwr, .mem, .chans, .eng, .ext, .surf, .aud, .net, .tx, .txc, .grp, .lane, .rat, .out, .fresh] s t.st := by
    unfold t; split
    · exact hl.then (State.ratReceive_touches ..) (by decide)
    · exact hl
  have hs : Touches [.regs, .time, .dev, .log, .logSeq, .mbx, .chk, .pmu, .pwr, .mem, .chans, .eng, .ext, .surf, .aud, .net, .tx, .txc, .grp, .lane, .rat, .out, .fresh] s s1 := ht.then (State.drainRing_touches ..) (by decide)
  split
  · split
    · exact hs.then (State.resendCompletion_touches ..) (by decide)
    · exact hs
  · split
    · exact hs
    · split
      · exact hs.then (State.bump_touches ..) (by decide)
      · split
        · exact hs.then (State.ratCommand_touches ..) (by decide)
        · exact hs.then (State.ratWait_touches ..) (by decide)

theorem execSelftestBlockEnd_touches (block : Nat) (pass : Bool) (s : State) : Touches [.regs, .time, .dev, .log, .logSeq, .mbx, .chk, .pmu, .pwr, .mem, .chans, .eng, .ext, .surf, .aud, .net, .tx, .txc, .grp, .lane, .rat, .out, .fresh] s (outState s (execSelftestBlockEnd block pass s)) := by
  unfold execSelftestBlockEnd
  repeat' first | simp (disch := decide) only [outState, Touches.refl, Touches.via (State.settleService_touches _), Touches.via (State.blockEnd_touches _ _ _)] | split | dsimp only | refine .fold ?_ fun _ _ => ?_ | refine .fold1 ?_ fun _ _ => ?_ | refine .fold2 ?_ fun _ _ => ?_

theorem execTestGrantTimeout_touches (s : State) : Touches [.regs, .time, .dev, .log, .logSeq, .mbx, .chk, .pmu, .pwr, .mem, .chans, .eng, .ext, .surf, .aud, .net, .tx, .txc, .grp, .lane, .rat, .out, .fresh] s (outState s (execTestGrantTimeout s)) := by
  unfold execTestGrantTimeout
  repeat' first | simp (disch := decide) only [outState, Touches.refl, Touches.via (State.settleService_touches _), Touches.via (State.grantTimeout_touches _)] | split | dsimp only | refine .fold ?_ fun _ _ => ?_ | refine .fold1 ?_ fun _ _ => ?_ | refine .fold2 ?_ fun _ _ => ?_

theorem execThermalTrip_touches (sensor : Nat) (temp : Int) (s : State) : Touches [.regs, .time, .dev, .log, .logSeq, .mbx, .chk, .pmu, .pwr, .mem, .chans, .eng, .ext, .surf, .aud, .net, .tx, .txc, .grp, .lane, .rat, .out, .fresh] s (outState s (execThermalTrip sensor temp s)) := by
  unfold execThermalTrip
  repeat' first | simp (disch := decide) only [outState, Touches.refl, Touches.via (State.trip_touches _ _ _ _), Touches.via (State.settle_touches _)] | split | dsimp only | refine .fold ?_ fun _ _ => ?_ | refine .fold1 ?_ fun _ _ => ?_ | refine .fold2 ?_ fun _ _ => ?_

theorem execHbmTempRead_touches (t0 t1 : Option Int) (s : State) : Touches [.regs, .time, .dev, .log, .logSeq, .mbx, .chk, .pmu, .pwr, .mem, .chans, .eng, .ext, .surf, .aud, .net, .tx, .txc, .grp, .lane, .rat, .out, .fresh] s (outState s (execHbmTempRead t0 t1 s)) := by
  unfold execHbmTempRead
  repeat' first | simp (disch := decide) only [outState, Touches.refl, Touches.via (State.settle_touches _), Touches.via (State.readHbm_touches _ _ _), Touches.via (State.overTemp_touches _)] | split | dsimp only | refine .fold ?_ fun _ _ => ?_ | refine .fold1 ?_ fun _ _ => ?_ | refine .fold2 ?_ fun _ _ => ?_

theorem execSessionOpen_touches (h : CmdHdr) (p : SessionOpenArg) (s : State) : Touches [.regs, .time, .dev, .log, .logSeq, .mbx, .chk, .pmu, .pwr, .mem, .chans, .eng, .ext, .surf, .aud, .net, .tx, .txc, .grp, .lane, .rat, .out, .fresh] s (outState s (execSessionOpen h p s)) := by
  unfold execSessionOpen
  repeat' first | simp (disch := decide) only [outState, Touches.refl, Touches.via (State.runCommand_touches _ _ _)] | split | dsimp only | refine .fold ?_ fun _ _ => ?_ | refine .fold1 ?_ fun _ _ => ?_ | refine .fold2 ?_ fun _ _ => ?_

theorem execSessionProve_touches (h : CmdHdr) (p : SessionProveArg) (s : State) : Touches [.regs, .time, .dev, .log, .logSeq, .mbx, .chk, .pmu, .pwr, .mem, .chans, .eng, .ext, .surf, .aud, .net, .tx, .txc, .grp, .lane, .rat, .out, .fresh] s (outState s (execSessionProve h p s)) := by
  unfold execSessionProve
  repeat' first | simp (disch := decide) only [outState, Touches.refl, Touches.via (State.runCommand_touches _ _ _)] | split | dsimp only | refine .fold ?_ fun _ _ => ?_ | refine .fold1 ?_ fun _ _ => ?_ | refine .fold2 ?_ fun _ _ => ?_

theorem execSessionClose_touches (h : CmdHdr) (s : State) : Touches [.regs, .time, .dev, .log, .logSeq, .mbx, .chk, .pmu, .pwr, .mem, .chans, .eng, .ext, .surf, .aud, .net, .tx, .txc, .grp, .lane, .rat, .out, .fresh] s (outState s (execSessionClose h s)) := by
  unfold execSessionClose
  repeat' first | simp (disch := decide) only [outState, Touches.refl, Touches.via (State.runCommand_touches _ _ _)] | split | dsimp only | refine .fold ?_ fun _ _ => ?_ | refine .fold1 ?_ fun _ _ => ?_ | refine .fold2 ?_ fun _ _ => ?_

theorem execCompletionFetch_touches (h : CmdHdr) (p : Nat) (s : State) : Touches [.regs, .time, .dev, .log, .logSeq, .mbx, .chk, .pmu, .pwr, .mem, .chans, .eng, .ext, .surf, .aud, .net, .tx, .txc, .grp, .lane, .rat, .out, .fresh] s (outState s (execCompletionFetch h p s)) := by
  unfold execCompletionFetch
  repeat' first | simp (disch := decide) only [outState, Touches.refl, Touches.via (State.runCommand_touches _ _ _)] | split | dsimp only | refine .fold ?_ fun _ _ => ?_ | refine .fold1 ?_ fun _ _ => ?_ | refine .fold2 ?_ fun _ _ => ?_

theorem execKeyWrite_touches (h : CmdHdr) (p : KeyWriteArg) (s : State) : Touches [.regs, .time, .dev, .log, .logSeq, .mbx, .chk, .pmu, .pwr, .mem, .chans, .eng, .ext, .surf, .aud, .net, .tx, .txc, .grp, .lane, .rat, .out, .fresh] s (outState s (execKeyWrite h p s)) := by
  unfold execKeyWrite
  repeat' first | simp (disch := decide) only [outState, Touches.refl, Touches.via (State.runCommand_touches _ _ _)] | split | dsimp only | refine .fold ?_ fun _ _ => ?_ | refine .fold1 ?_ fun _ _ => ?_ | refine .fold2 ?_ fun _ _ => ?_

theorem execDeviceInfo_touches (h : CmdHdr) (s : State) : Touches [.regs, .time, .dev, .log, .logSeq, .mbx, .chk, .pmu, .pwr, .mem, .chans, .eng, .ext, .surf, .aud, .net, .tx, .txc, .grp, .lane, .rat, .out, .fresh] s (outState s (execDeviceInfo h s)) := by
  unfold execDeviceInfo
  repeat' first | simp (disch := decide) only [outState, Touches.refl, Touches.via (State.runCommand_touches _ _ _)] | split | dsimp only | refine .fold ?_ fun _ _ => ?_ | refine .fold1 ?_ fun _ _ => ?_ | refine .fold2 ?_ fun _ _ => ?_

theorem execDeviceConfigure_touches (h : CmdHdr) (p : ChArg) (s : State) : Touches [.regs, .time, .dev, .log, .logSeq, .mbx, .chk, .pmu, .pwr, .mem, .chans, .eng, .ext, .surf, .aud, .net, .tx, .txc, .grp, .lane, .rat, .out, .fresh] s (outState s (execDeviceConfigure h p s)) := by
  unfold execDeviceConfigure
  repeat' first | simp (disch := decide) only [outState, Touches.refl, Touches.via (State.runCommand_touches _ _ _)] | split | dsimp only | refine .fold ?_ fun _ _ => ?_ | refine .fold1 ?_ fun _ _ => ?_ | refine .fold2 ?_ fun _ _ => ?_

theorem execPowerBudget_touches (h : CmdHdr) (p : Nat) (s : State) : Touches [.regs, .time, .dev, .log, .logSeq, .mbx, .chk, .pmu, .pwr, .mem, .chans, .eng, .ext, .surf, .aud, .net, .tx, .txc, .grp, .lane, .rat, .out, .fresh] s (outState s (execPowerBudget h p s)) := by
  unfold execPowerBudget
  repeat' first | simp (disch := decide) only [outState, Touches.refl, Touches.via (State.runCommand_touches _ _ _)] | split | dsimp only | refine .fold ?_ fun _ _ => ?_ | refine .fold1 ?_ fun _ _ => ?_ | refine .fold2 ?_ fun _ _ => ?_

theorem execShutdown_touches (h : CmdHdr) (p : ChArg) (s : State) : Touches [.regs, .time, .dev, .log, .logSeq, .mbx, .chk, .pmu, .pwr, .mem, .chans, .eng, .ext, .surf, .aud, .net, .tx, .txc, .grp, .lane, .rat, .out, .fresh] s (outState s (execShutdown h p s)) := by
  unfold execShutdown
  repeat' first | simp (disch := decide) only [outState, Touches.refl, Touches.via (State.runCommand_touches _ _ _)] | split | dsimp only | refine .fold ?_ fun _ _ => ?_ | refine .fold1 ?_ fun _ _ => ?_ | refine .fold2 ?_ fun _ _ => ?_

theorem execCalRead_touches (h : CmdHdr) (p : Nat) (s : State) : Touches [.regs, .time, .dev, .log, .logSeq, .mbx, .chk, .pmu, .pwr, .mem, .chans, .eng, .ext, .surf, .aud, .net, .tx, .txc, .grp, .lane, .rat, .out, .fresh] s (outState s (execCalRead h p s)) := by
  unfold execCalRead
  repeat' first | simp (disch := decide) only [outState, Touches.refl, Touches.via (State.runCommand_touches _ _ _)] | split | dsimp only | refine .fold ?_ fun _ _ => ?_ | refine .fold1 ?_ fun _ _ => ?_ | refine .fold2 ?_ fun _ _ => ?_

theorem execCalWrite_touches (h : CmdHdr) (p : CalWriteArg) (s : State) : Touches [.regs, .time, .dev, .log, .logSeq, .mbx, .chk, .pmu, .pwr, .mem, .chans, .eng, .ext, .surf, .aud, .net, .tx, .txc, .grp, .lane, .rat, .out, .fresh] s (outState s (execCalWrite h p s)) := by
  unfold execCalWrite
  repeat' first | simp (disch := decide) only [outState, Touches.refl, Touches.via (State.runCommand_touches _ _ _)] | split | dsimp only | refine .fold ?_ fun _ _ => ?_ | refine .fold1 ?_ fun _ _ => ?_ | refine .fold2 ?_ fun _ _ => ?_

theorem execFirmwareWrite_touches (h : CmdHdr) (p : FirmwareWriteArg) (s : State) : Touches [.regs, .time, .dev, .log, .logSeq, .mbx, .chk, .pmu, .pwr, .mem, .chans, .eng, .ext, .surf, .aud, .net, .tx, .txc, .grp, .lane, .rat, .out, .fresh] s (outState s (execFirmwareWrite h p s)) := by
  unfold execFirmwareWrite
  repeat' first | simp (disch := decide) only [outState, Touches.refl, Touches.via (State.runCommand_touches _ _ _)] | split | dsimp only | refine .fold ?_ fun _ _ => ?_ | refine .fold1 ?_ fun _ _ => ?_ | refine .fold2 ?_ fun _ _ => ?_

theorem execLifecycleSet_touches (h : CmdHdr) (p : LifecycleSetArg) (s : State) : Touches [.regs, .time, .dev, .log, .logSeq, .mbx, .chk, .pmu, .pwr, .mem, .chans, .eng, .ext, .surf, .aud, .net, .tx, .txc, .grp, .lane, .rat, .out, .fresh] s (outState s (execLifecycleSet h p s)) := by
  unfold execLifecycleSet
  repeat' first | simp (disch := decide) only [outState, Touches.refl, Touches.via (State.runCommand_touches _ _ _)] | split | dsimp only | refine .fold ?_ fun _ _ => ?_ | refine .fold1 ?_ fun _ _ => ?_ | refine .fold2 ?_ fun _ _ => ?_

theorem execTimeConfig_touches (h : CmdHdr) (p : TimeConfigArg) (s : State) : Touches [.regs, .time, .dev, .log, .logSeq, .mbx, .chk, .pmu, .pwr, .mem, .chans, .eng, .ext, .surf, .aud, .net, .tx, .txc, .grp, .lane, .rat, .out, .fresh] s (outState s (execTimeConfig h p s)) := by
  unfold execTimeConfig
  repeat' first | simp (disch := decide) only [outState, Touches.refl, Touches.via (State.runCommand_touches _ _ _)] | split | dsimp only | refine .fold ?_ fun _ _ => ?_ | refine .fold1 ?_ fun _ _ => ?_ | refine .fold2 ?_ fun _ _ => ?_

theorem execTimeServoConfig_touches (h : CmdHdr) (p : TimeServoArg) (s : State) : Touches [.regs, .time, .dev, .log, .logSeq, .mbx, .chk, .pmu, .pwr, .mem, .chans, .eng, .ext, .surf, .aud, .net, .tx, .txc, .grp, .lane, .rat, .out, .fresh] s (outState s (execTimeServoConfig h p s)) := by
  unfold execTimeServoConfig
  repeat' first | simp (disch := decide) only [outState, Touches.refl, Touches.via (State.runCommand_touches _ _ _)] | split | dsimp only | refine .fold ?_ fun _ _ => ?_ | refine .fold1 ?_ fun _ _ => ?_ | refine .fold2 ?_ fun _ _ => ?_

theorem execTimeAcceptStep_touches (h : CmdHdr) (p : TimeField) (s : State) : Touches [.regs, .time, .dev, .log, .logSeq, .mbx, .chk, .pmu, .pwr, .mem, .chans, .eng, .ext, .surf, .aud, .net, .tx, .txc, .grp, .lane, .rat, .out, .fresh] s (outState s (execTimeAcceptStep h p s)) := by
  unfold execTimeAcceptStep
  repeat' first | simp (disch := decide) only [outState, Touches.refl, Touches.via (State.runCommand_touches _ _ _)] | split | dsimp only | refine .fold ?_ fun _ _ => ?_ | refine .fold1 ?_ fun _ _ => ?_ | refine .fold2 ?_ fun _ _ => ?_

theorem execTimePpsConfig_touches (h : CmdHdr) (p : TimePpsArg) (s : State) : Touches [.regs, .time, .dev, .log, .logSeq, .mbx, .chk, .pmu, .pwr, .mem, .chans, .eng, .ext, .surf, .aud, .net, .tx, .txc, .grp, .lane, .rat, .out, .fresh] s (outState s (execTimePpsConfig h p s)) := by
  unfold execTimePpsConfig
  repeat' first | simp (disch := decide) only [outState, Touches.refl, Touches.via (State.runCommand_touches _ _ _)] | split | dsimp only | refine .fold ?_ fun _ _ => ?_ | refine .fold1 ?_ fun _ _ => ?_ | refine .fold2 ?_ fun _ _ => ?_

theorem execPortConfig_touches (h : CmdHdr) (p : PortConfigArg) (s : State) : Touches [.regs, .time, .dev, .log, .logSeq, .mbx, .chk, .pmu, .pwr, .mem, .chans, .eng, .ext, .surf, .aud, .net, .tx, .txc, .grp, .lane, .rat, .out, .fresh] s (outState s (execPortConfig h p s)) := by
  unfold execPortConfig
  repeat' first | simp (disch := decide) only [outState, Touches.refl, Touches.via (State.runCommand_touches _ _ _)] | split | dsimp only | refine .fold ?_ fun _ _ => ?_ | refine .fold1 ?_ fun _ _ => ?_ | refine .fold2 ?_ fun _ _ => ?_

theorem execNetAddress_touches (h : CmdHdr) (p : NetAddressArg) (s : State) : Touches [.regs, .time, .dev, .log, .logSeq, .mbx, .chk, .pmu, .pwr, .mem, .chans, .eng, .ext, .surf, .aud, .net, .tx, .txc, .grp, .lane, .rat, .out, .fresh] s (outState s (execNetAddress h p s)) := by
  unfold execNetAddress
  repeat' first | simp (disch := decide) only [outState, Touches.refl, Touches.via (State.runCommand_touches _ _ _)] | split | dsimp only | refine .fold ?_ fun _ _ => ?_ | refine .fold1 ?_ fun _ _ => ?_ | refine .fold2 ?_ fun _ _ => ?_

theorem execFlowAdd_touches (h : CmdHdr) (p : FlowArg) (s : State) : Touches [.regs, .time, .dev, .log, .logSeq, .mbx, .chk, .pmu, .pwr, .mem, .chans, .eng, .ext, .surf, .aud, .net, .tx, .txc, .grp, .lane, .rat, .out, .fresh] s (outState s (execFlowAdd h p s)) := by
  unfold execFlowAdd
  repeat' first | simp (disch := decide) only [outState, Touches.refl, Touches.via (State.runCommand_touches _ _ _)] | split | dsimp only | refine .fold ?_ fun _ _ => ?_ | refine .fold1 ?_ fun _ _ => ?_ | refine .fold2 ?_ fun _ _ => ?_

theorem execFlowDelete_touches (h : CmdHdr) (p : Nat) (s : State) : Touches [.regs, .time, .dev, .log, .logSeq, .mbx, .chk, .pmu, .pwr, .mem, .chans, .eng, .ext, .surf, .aud, .net, .tx, .txc, .grp, .lane, .rat, .out, .fresh] s (outState s (execFlowDelete h p s)) := by
  unfold execFlowDelete
  repeat' first | simp (disch := decide) only [outState, Touches.refl, Touches.via (State.runCommand_touches _ _ _)] | split | dsimp only | refine .fold ?_ fun _ _ => ?_ | refine .fold1 ?_ fun _ _ => ?_ | refine .fold2 ?_ fun _ _ => ?_

theorem execTxQueueConfig_touches (h : CmdHdr) (p : TxQueueArg) (s : State) : Touches [.regs, .time, .dev, .log, .logSeq, .mbx, .chk, .pmu, .pwr, .mem, .chans, .eng, .ext, .surf, .aud, .net, .tx, .txc, .grp, .lane, .rat, .out, .fresh] s (outState s (execTxQueueConfig h p s)) := by
  unfold execTxQueueConfig
  repeat' first | simp (disch := decide) only [outState, Touches.refl, Touches.via (State.runCommand_touches _ _ _)] | split | dsimp only | refine .fold ?_ fun _ _ => ?_ | refine .fold1 ?_ fun _ _ => ?_ | refine .fold2 ?_ fun _ _ => ?_

theorem execGateListSet_touches (h : CmdHdr) (p : GateListArg) (s : State) : Touches [.regs, .time, .dev, .log, .logSeq, .mbx, .chk, .pmu, .pwr, .mem, .chans, .eng, .ext, .surf, .aud, .net, .tx, .txc, .grp, .lane, .rat, .out, .fresh] s (outState s (execGateListSet h p s)) := by
  unfold execGateListSet
  repeat' first | simp (disch := decide) only [outState, Touches.refl, Touches.via (State.runCommand_touches _ _ _)] | split | dsimp only | refine .fold ?_ fun _ _ => ?_ | refine .fold1 ?_ fun _ _ => ?_ | refine .fold2 ?_ fun _ _ => ?_

theorem execLaneConfig_touches (h : CmdHdr) (p : LaneConfigArg) (s : State) : Touches [.regs, .time, .dev, .log, .logSeq, .mbx, .chk, .pmu, .pwr, .mem, .chans, .eng, .ext, .surf, .aud, .net, .tx, .txc, .grp, .lane, .rat, .out, .fresh] s (outState s (execLaneConfig h p s)) := by
  unfold execLaneConfig
  repeat' first | simp (disch := decide) only [outState, Touches.refl, Touches.via (State.runCommand_touches _ _ _)] | split | dsimp only | refine .fold ?_ fun _ _ => ?_ | refine .fold1 ?_ fun _ _ => ?_ | refine .fold2 ?_ fun _ _ => ?_

theorem execChannelDefine_touches (h : CmdHdr) (p : ChannelDefineArg) (s : State) : Touches [.regs, .time, .dev, .log, .logSeq, .mbx, .chk, .pmu, .pwr, .mem, .chans, .eng, .ext, .surf, .aud, .net, .tx, .txc, .grp, .lane, .rat, .out, .fresh] s (outState s (execChannelDefine h p s)) := by
  unfold execChannelDefine
  repeat' first | simp (disch := decide) only [outState, Touches.refl, Touches.via (State.runCommand_touches _ _ _)] | split | dsimp only | refine .fold ?_ fun _ _ => ?_ | refine .fold1 ?_ fun _ _ => ?_ | refine .fold2 ?_ fun _ _ => ?_

theorem execChannelDelete_touches (h : CmdHdr) (p : ChArg) (s : State) : Touches [.regs, .time, .dev, .log, .logSeq, .mbx, .chk, .pmu, .pwr, .mem, .chans, .eng, .ext, .surf, .aud, .net, .tx, .txc, .grp, .lane, .rat, .out, .fresh] s (outState s (execChannelDelete h p s)) := by
  unfold execChannelDelete
  repeat' first | simp (disch := decide) only [outState, Touches.refl, Touches.via (State.runCommand_touches _ _ _)] | split | dsimp only | refine .fold ?_ fun _ _ => ?_ | refine .fold1 ?_ fun _ _ => ?_ | refine .fold2 ?_ fun _ _ => ?_

theorem execChannelStart_touches (h : CmdHdr) (p : ChtArg) (s : State) : Touches [.regs, .time, .dev, .log, .logSeq, .mbx, .chk, .pmu, .pwr, .mem, .chans, .eng, .ext, .surf, .aud, .net, .tx, .txc, .grp, .lane, .rat, .out, .fresh] s (outState s (execChannelStart h p s)) := by
  unfold execChannelStart
  repeat' first | simp (disch := decide) only [outState, Touches.refl, Touches.via (State.runCommand_touches _ _ _)] | split | dsimp only | refine .fold ?_ fun _ _ => ?_ | refine .fold1 ?_ fun _ _ => ?_ | refine .fold2 ?_ fun _ _ => ?_

theorem execChannelStop_touches (h : CmdHdr) (p : ChtArg) (s : State) : Touches [.regs, .time, .dev, .log, .logSeq, .mbx, .chk, .pmu, .pwr, .mem, .chans, .eng, .ext, .surf, .aud, .net, .tx, .txc, .grp, .lane, .rat, .out, .fresh] s (outState s (execChannelStop h p s)) := by
  unfold execChannelStop
  repeat' first | simp (disch := decide) only [outState, Touches.refl, Touches.via (State.runCommand_touches _ _ _)] | split | dsimp only | refine .fold ?_ fun _ _ => ?_ | refine .fold1 ?_ fun _ _ => ?_ | refine .fold2 ?_ fun _ _ => ?_

theorem execChannelSet_touches (h : CmdHdr) (p : ChannelSetArg) (s : State) : Touches [.regs, .time, .dev, .log, .logSeq, .mbx, .chk, .pmu, .pwr, .mem, .chans, .eng, .ext, .surf, .aud, .net, .tx, .txc, .grp, .lane, .rat, .out, .fresh] s (outState s (execChannelSet h p s)) := by
  unfold execChannelSet
  repeat' first | simp (disch := decide) only [outState, Touches.refl, Touches.via (State.runCommand_touches _ _ _)] | split | dsimp only | refine .fold ?_ fun _ _ => ?_ | refine .fold1 ?_ fun _ _ => ?_ | refine .fold2 ?_ fun _ _ => ?_

theorem execChannelCommit_touches (h : CmdHdr) (p : ChArg) (s : State) : Touches [.regs, .time, .dev, .log, .logSeq, .mbx, .chk, .pmu, .pwr, .mem, .chans, .eng, .ext, .surf, .aud, .net, .tx, .txc, .grp, .lane, .rat, .out, .fresh] s (outState s (execChannelCommit h p s)) := by
  unfold execChannelCommit
  repeat' first | simp (disch := decide) only [outState, Touches.refl, Touches.via (State.runCommand_touches _ _ _)] | split | dsimp only | refine .fold ?_ fun _ _ => ?_ | refine .fold1 ?_ fun _ _ => ?_ | refine .fold2 ?_ fun _ _ => ?_

theorem execChannelRefresh_touches (h : CmdHdr) (p : ChtArg) (s : State) : Touches [.regs, .time, .dev, .log, .logSeq, .mbx, .chk, .pmu, .pwr, .mem, .chans, .eng, .ext, .surf, .aud, .net, .tx, .txc, .grp, .lane, .rat, .out, .fresh] s (outState s (execChannelRefresh h p s)) := by
  unfold execChannelRefresh
  repeat' first | simp (disch := decide) only [outState, Touches.refl, Touches.via (State.runCommand_touches _ _ _)] | split | dsimp only | refine .fold ?_ fun _ _ => ?_ | refine .fold1 ?_ fun _ _ => ?_ | refine .fold2 ?_ fun _ _ => ?_

theorem execLtrMark_touches (h : CmdHdr) (p : ChtArg) (s : State) : Touches [.regs, .time, .dev, .log, .logSeq, .mbx, .chk, .pmu, .pwr, .mem, .chans, .eng, .ext, .surf, .aud, .net, .tx, .txc, .grp, .lane, .rat, .out, .fresh] s (outState s (execLtrMark h p s)) := by
  unfold execLtrMark
  repeat' first | simp (disch := decide) only [outState, Touches.refl, Touches.via (State.runCommand_touches _ _ _)] | split | dsimp only | refine .fold ?_ fun _ _ => ?_ | refine .fold1 ?_ fun _ _ => ?_ | refine .fold2 ?_ fun _ _ => ?_

theorem execLtrRelease_touches (h : CmdHdr) (p : ChtArg) (s : State) : Touches [.regs, .time, .dev, .log, .logSeq, .mbx, .chk, .pmu, .pwr, .mem, .chans, .eng, .ext, .surf, .aud, .net, .tx, .txc, .grp, .lane, .rat, .out, .fresh] s (outState s (execLtrRelease h p s)) := by
  unfold execLtrRelease
  repeat' first | simp (disch := decide) only [outState, Touches.refl, Touches.via (State.runCommand_touches _ _ _)] | split | dsimp only | refine .fold ?_ fun _ _ => ?_ | refine .fold1 ?_ fun _ _ => ?_ | refine .fold2 ?_ fun _ _ => ?_

theorem execRoiSet_touches (h : CmdHdr) (p : RoiSetArg) (s : State) : Touches [.regs, .time, .dev, .log, .logSeq, .mbx, .chk, .pmu, .pwr, .mem, .chans, .eng, .ext, .surf, .aud, .net, .tx, .txc, .grp, .lane, .rat, .out, .fresh] s (outState s (execRoiSet h p s)) := by
  unfold execRoiSet
  repeat' first | simp (disch := decide) only [outState, Touches.refl, Touches.via (State.runCommand_touches _ _ _)] | split | dsimp only | refine .fold ?_ fun _ _ => ?_ | refine .fold1 ?_ fun _ _ => ?_ | refine .fold2 ?_ fun _ _ => ?_

theorem execRoiClear_touches (h : CmdHdr) (p : ChArg) (s : State) : Touches [.regs, .time, .dev, .log, .logSeq, .mbx, .chk, .pmu, .pwr, .mem, .chans, .eng, .ext, .surf, .aud, .net, .tx, .txc, .grp, .lane, .rat, .out, .fresh] s (outState s (execRoiClear h p s)) := by
  unfold execRoiClear
  repeat' first | simp (disch := decide) only [outState, Touches.refl, Touches.via (State.runCommand_touches _ _ _)] | split | dsimp only | refine .fold ?_ fun _ _ => ?_ | refine .fold1 ?_ fun _ _ => ?_ | refine .fold2 ?_ fun _ _ => ?_

theorem execExtStreamDefine_touches (h : CmdHdr) (p : ExtStreamArg) (s : State) : Touches [.regs, .time, .dev, .log, .logSeq, .mbx, .chk, .pmu, .pwr, .mem, .chans, .eng, .ext, .surf, .aud, .net, .tx, .txc, .grp, .lane, .rat, .out, .fresh] s (outState s (execExtStreamDefine h p s)) := by
  unfold execExtStreamDefine
  repeat' first | simp (disch := decide) only [outState, Touches.refl, Touches.via (State.runCommand_touches _ _ _)] | split | dsimp only | refine .fold ?_ fun _ _ => ?_ | refine .fold1 ?_ fun _ _ => ?_ | refine .fold2 ?_ fun _ _ => ?_

theorem execExtStreamDelete_touches (h : CmdHdr) (p : ChArg) (s : State) : Touches [.regs, .time, .dev, .log, .logSeq, .mbx, .chk, .pmu, .pwr, .mem, .chans, .eng, .ext, .surf, .aud, .net, .tx, .txc, .grp, .lane, .rat, .out, .fresh] s (outState s (execExtStreamDelete h p s)) := by
  unfold execExtStreamDelete
  repeat' first | simp (disch := decide) only [outState, Touches.refl, Touches.via (State.runCommand_touches _ _ _)] | split | dsimp only | refine .fold ?_ fun _ _ => ?_ | refine .fold1 ?_ fun _ _ => ?_ | refine .fold2 ?_ fun _ _ => ?_

theorem execSurfaceAlloc_touches (h : CmdHdr) (p : SurfaceAllocArg) (s : State) : Touches [.regs, .time, .dev, .log, .logSeq, .mbx, .chk, .pmu, .pwr, .mem, .chans, .eng, .ext, .surf, .aud, .net, .tx, .txc, .grp, .lane, .rat, .out, .fresh] s (outState s (execSurfaceAlloc h p s)) := by
  unfold execSurfaceAlloc
  repeat' first | simp (disch := decide) only [outState, Touches.refl, Touches.via (State.runCommand_touches _ _ _)] | split | dsimp only | refine .fold ?_ fun _ _ => ?_ | refine .fold1 ?_ fun _ _ => ?_ | refine .fold2 ?_ fun _ _ => ?_

theorem execSurfaceFree_touches (h : CmdHdr) (p : Nat) (s : State) : Touches [.regs, .time, .dev, .log, .logSeq, .mbx, .chk, .pmu, .pwr, .mem, .chans, .eng, .ext, .surf, .aud, .net, .tx, .txc, .grp, .lane, .rat, .out, .fresh] s (outState s (execSurfaceFree h p s)) := by
  unfold execSurfaceFree
  repeat' first | simp (disch := decide) only [outState, Touches.refl, Touches.via (State.runCommand_touches _ _ _)] | split | dsimp only | refine .fold ?_ fun _ _ => ?_ | refine .fold1 ?_ fun _ _ => ?_ | refine .fold2 ?_ fun _ _ => ?_

theorem execFlipSubmit_touches (h : CmdHdr) (p : FlipSubmitArg) (s : State) : Touches [.regs, .time, .dev, .log, .logSeq, .mbx, .chk, .pmu, .pwr, .mem, .chans, .eng, .ext, .surf, .aud, .net, .tx, .txc, .grp, .lane, .rat, .out, .fresh] s (outState s (execFlipSubmit h p s)) := by
  unfold execFlipSubmit
  repeat' first | simp (disch := decide) only [outState, Touches.refl, Touches.via (State.runCommand_touches _ _ _)] | split | dsimp only | refine .fold ?_ fun _ _ => ?_ | refine .fold1 ?_ fun _ _ => ?_ | refine .fold2 ?_ fun _ _ => ?_

theorem execProtectedLoad_touches (h : CmdHdr) (p : ProtectedLoadArg) (s : State) : Touches [.regs, .time, .dev, .log, .logSeq, .mbx, .chk, .pmu, .pwr, .mem, .chans, .eng, .ext, .surf, .aud, .net, .tx, .txc, .grp, .lane, .rat, .out, .fresh] s (outState s (execProtectedLoad h p s)) := by
  unfold execProtectedLoad
  repeat' first | simp (disch := decide) only [outState, Touches.refl, Touches.via (State.runCommand_touches _ _ _)] | split | dsimp only | refine .fold ?_ fun _ _ => ?_ | refine .fold1 ?_ fun _ _ => ?_ | refine .fold2 ?_ fun _ _ => ?_

theorem execProtectedRemove_touches (h : CmdHdr) (p : ChtArg) (s : State) : Touches [.regs, .time, .dev, .log, .logSeq, .mbx, .chk, .pmu, .pwr, .mem, .chans, .eng, .ext, .surf, .aud, .net, .tx, .txc, .grp, .lane, .rat, .out, .fresh] s (outState s (execProtectedRemove h p s)) := by
  unfold execProtectedRemove
  repeat' first | simp (disch := decide) only [outState, Touches.refl, Touches.via (State.runCommand_touches _ _ _)] | split | dsimp only | refine .fold ?_ fun _ _ => ?_ | refine .fold1 ?_ fun _ _ => ?_ | refine .fold2 ?_ fun _ _ => ?_

theorem execTonemapLoad_touches (h : CmdHdr) (p : TonemapLoadArg) (s : State) : Touches [.regs, .time, .dev, .log, .logSeq, .mbx, .chk, .pmu, .pwr, .mem, .chans, .eng, .ext, .surf, .aud, .net, .tx, .txc, .grp, .lane, .rat, .out, .fresh] s (outState s (execTonemapLoad h p s)) := by
  unfold execTonemapLoad
  repeat' first | simp (disch := decide) only [outState, Touches.refl, Touches.via (State.runCommand_touches _ _ _)] | split | dsimp only | refine .fold ?_ fun _ _ => ?_ | refine .fold1 ?_ fun _ _ => ?_ | refine .fold2 ?_ fun _ _ => ?_

theorem execAudioPortConfig_touches (h : CmdHdr) (p : AudioPortArg) (s : State) : Touches [.regs, .time, .dev, .log, .logSeq, .mbx, .chk, .pmu, .pwr, .mem, .chans, .eng, .ext, .surf, .aud, .net, .tx, .txc, .grp, .lane, .rat, .out, .fresh] s (outState s (execAudioPortConfig h p s)) := by
  unfold execAudioPortConfig
  repeat' first | simp (disch := decide) only [outState, Touches.refl, Touches.via (State.runCommand_touches _ _ _)] | split | dsimp only | refine .fold ?_ fun _ _ => ?_ | refine .fold1 ?_ fun _ _ => ?_ | refine .fold2 ?_ fun _ _ => ?_

theorem execAudioPortStart_touches (h : CmdHdr) (p : ChArg) (s : State) : Touches [.regs, .time, .dev, .log, .logSeq, .mbx, .chk, .pmu, .pwr, .mem, .chans, .eng, .ext, .surf, .aud, .net, .tx, .txc, .grp, .lane, .rat, .out, .fresh] s (outState s (execAudioPortStart h p s)) := by
  unfold execAudioPortStart
  repeat' first | simp (disch := decide) only [outState, Touches.refl, Touches.via (State.runCommand_touches _ _ _)] | split | dsimp only | refine .fold ?_ fun _ _ => ?_ | refine .fold1 ?_ fun _ _ => ?_ | refine .fold2 ?_ fun _ _ => ?_

theorem execAudioPortStop_touches (h : CmdHdr) (p : ChArg) (s : State) : Touches [.regs, .time, .dev, .log, .logSeq, .mbx, .chk, .pmu, .pwr, .mem, .chans, .eng, .ext, .surf, .aud, .net, .tx, .txc, .grp, .lane, .rat, .out, .fresh] s (outState s (execAudioPortStop h p s)) := by
  unfold execAudioPortStop
  repeat' first | simp (disch := decide) only [outState, Touches.refl, Touches.via (State.runCommand_touches _ _ _)] | split | dsimp only | refine .fold ?_ fun _ _ => ?_ | refine .fold1 ?_ fun _ _ => ?_ | refine .fold2 ?_ fun _ _ => ?_

theorem execAudioStreamConfig_touches (h : CmdHdr) (p : AudioStreamArg) (s : State) : Touches [.regs, .time, .dev, .log, .logSeq, .mbx, .chk, .pmu, .pwr, .mem, .chans, .eng, .ext, .surf, .aud, .net, .tx, .txc, .grp, .lane, .rat, .out, .fresh] s (outState s (execAudioStreamConfig h p s)) := by
  unfold execAudioStreamConfig
  repeat' first | simp (disch := decide) only [outState, Touches.refl, Touches.via (State.runCommand_touches _ _ _)] | split | dsimp only | refine .fold ?_ fun _ _ => ?_ | refine .fold1 ?_ fun _ _ => ?_ | refine .fold2 ?_ fun _ _ => ?_

theorem execAudioStreamDelete_touches (h : CmdHdr) (p : ChArg) (s : State) : Touches [.regs, .time, .dev, .log, .logSeq, .mbx, .chk, .pmu, .pwr, .mem, .chans, .eng, .ext, .surf, .aud, .net, .tx, .txc, .grp, .lane, .rat, .out, .fresh] s (outState s (execAudioStreamDelete h p s)) := by
  unfold execAudioStreamDelete
  repeat' first | simp (disch := decide) only [outState, Touches.refl, Touches.via (State.runCommand_touches _ _ _)] | split | dsimp only | refine .fold ?_ fun _ _ => ?_ | refine .fold1 ?_ fun _ _ => ?_ | refine .fold2 ?_ fun _ _ => ?_

theorem execAudioRoute_touches (h : CmdHdr) (p : AudioRouteArg) (s : State) : Touches [.regs, .time, .dev, .log, .logSeq, .mbx, .chk, .pmu, .pwr, .mem, .chans, .eng, .ext, .surf, .aud, .net, .tx, .txc, .grp, .lane, .rat, .out, .fresh] s (outState s (execAudioRoute h p s)) := by
  unfold execAudioRoute
  repeat' first | simp (disch := decide) only [outState, Touches.refl, Touches.via (State.runCommand_touches _ _ _)] | split | dsimp only | refine .fold ?_ fun _ _ => ?_ | refine .fold1 ?_ fun _ _ => ?_ | refine .fold2 ?_ fun _ _ => ?_

theorem execAudioAlignGroup_touches (h : CmdHdr) (p : AlignGroupArg) (s : State) : Touches [.regs, .time, .dev, .log, .logSeq, .mbx, .chk, .pmu, .pwr, .mem, .chans, .eng, .ext, .surf, .aud, .net, .tx, .txc, .grp, .lane, .rat, .out, .fresh] s (outState s (execAudioAlignGroup h p s)) := by
  unfold execAudioAlignGroup
  repeat' first | simp (disch := decide) only [outState, Touches.refl, Touches.via (State.runCommand_touches _ _ _)] | split | dsimp only | refine .fold ?_ fun _ _ => ?_ | refine .fold1 ?_ fun _ _ => ?_ | refine .fold2 ?_ fun _ _ => ?_

theorem execAudioClock_touches (h : CmdHdr) (p : AudioClockArg) (s : State) : Touches [.regs, .time, .dev, .log, .logSeq, .mbx, .chk, .pmu, .pwr, .mem, .chans, .eng, .ext, .surf, .aud, .net, .tx, .txc, .grp, .lane, .rat, .out, .fresh] s (outState s (execAudioClock h p s)) := by
  unfold execAudioClock
  repeat' first | simp (disch := decide) only [outState, Touches.refl, Touches.via (State.runCommand_touches _ _ _)] | split | dsimp only | refine .fold ?_ fun _ _ => ?_ | refine .fold1 ?_ fun _ _ => ?_ | refine .fold2 ?_ fun _ _ => ?_

theorem execGroupForm_touches (h : CmdHdr) (p : GroupArg) (s : State) : Touches [.regs, .time, .dev, .log, .logSeq, .mbx, .chk, .pmu, .pwr, .mem, .chans, .eng, .ext, .surf, .aud, .net, .tx, .txc, .grp, .lane, .rat, .out, .fresh] s (outState s (execGroupForm h p s)) := by
  unfold execGroupForm
  repeat' first | simp (disch := decide) only [outState, Touches.refl, Touches.via (State.runCommand_touches _ _ _)] | split | dsimp only | refine .fold ?_ fun _ _ => ?_ | refine .fold1 ?_ fun _ _ => ?_ | refine .fold2 ?_ fun _ _ => ?_

theorem execGroupJoin_touches (h : CmdHdr) (p : GroupArg) (s : State) : Touches [.regs, .time, .dev, .log, .logSeq, .mbx, .chk, .pmu, .pwr, .mem, .chans, .eng, .ext, .surf, .aud, .net, .tx, .txc, .grp, .lane, .rat, .out, .fresh] s (outState s (execGroupJoin h p s)) := by
  unfold execGroupJoin
  repeat' first | simp (disch := decide) only [outState, Touches.refl, Touches.via (State.runCommand_touches _ _ _)] | split | dsimp only | refine .fold ?_ fun _ _ => ?_ | refine .fold1 ?_ fun _ _ => ?_ | refine .fold2 ?_ fun _ _ => ?_

theorem execGroupLeave_touches (h : CmdHdr) (s : State) : Touches [.regs, .time, .dev, .log, .logSeq, .mbx, .chk, .pmu, .pwr, .mem, .chans, .eng, .ext, .surf, .aud, .net, .tx, .txc, .grp, .lane, .rat, .out, .fresh] s (outState s (execGroupLeave h s)) := by
  unfold execGroupLeave
  repeat' first | simp (disch := decide) only [outState, Touches.refl, Touches.via (State.runCommand_touches _ _ _)] | split | dsimp only | refine .fold ?_ fun _ _ => ?_ | refine .fold1 ?_ fun _ _ => ?_ | refine .fold2 ?_ fun _ _ => ?_

theorem execGroupHandover_touches (h : CmdHdr) (p : Nat) (s : State) : Touches [.regs, .time, .dev, .log, .logSeq, .mbx, .chk, .pmu, .pwr, .mem, .chans, .eng, .ext, .surf, .aud, .net, .tx, .txc, .grp, .lane, .rat, .out, .fresh] s (outState s (execGroupHandover h p s)) := by
  unfold execGroupHandover
  repeat' first | simp (disch := decide) only [outState, Touches.refl, Touches.via (State.runCommand_touches _ _ _)] | split | dsimp only | refine .fold ?_ fun _ _ => ?_ | refine .fold1 ?_ fun _ _ => ?_ | refine .fold2 ?_ fun _ _ => ?_

theorem execChainEnumerate_touches (h : CmdHdr) (s : State) : Touches [.regs, .time, .dev, .log, .logSeq, .mbx, .chk, .pmu, .pwr, .mem, .chans, .eng, .ext, .surf, .aud, .net, .tx, .txc, .grp, .lane, .rat, .out, .fresh] s (outState s (execChainEnumerate h s)) := by
  unfold execChainEnumerate
  repeat' first | simp (disch := decide) only [outState, Touches.refl, Touches.via (State.runCommand_touches _ _ _)] | split | dsimp only | refine .fold ?_ fun _ _ => ?_ | refine .fold1 ?_ fun _ _ => ?_ | refine .fold2 ?_ fun _ _ => ?_

theorem execChainBudget_touches (h : CmdHdr) (p : Nat) (s : State) : Touches [.regs, .time, .dev, .log, .logSeq, .mbx, .chk, .pmu, .pwr, .mem, .chans, .eng, .ext, .surf, .aud, .net, .tx, .txc, .grp, .lane, .rat, .out, .fresh] s (outState s (execChainBudget h p s)) := by
  unfold execChainBudget
  repeat' first | simp (disch := decide) only [outState, Touches.refl, Touches.via (State.runCommand_touches _ _ _)] | split | dsimp only | refine .fold ?_ fun _ _ => ?_ | refine .fold1 ?_ fun _ _ => ?_ | refine .fold2 ?_ fun _ _ => ?_

theorem execEventLogFetch_touches (h : CmdHdr) (p : EventFetchArg) (s : State) : Touches [.regs, .time, .dev, .log, .logSeq, .mbx, .chk, .pmu, .pwr, .mem, .chans, .eng, .ext, .surf, .aud, .net, .tx, .txc, .grp, .lane, .rat, .out, .fresh] s (outState s (execEventLogFetch h p s)) := by
  unfold execEventLogFetch
  repeat' first | simp (disch := decide) only [outState, Touches.refl, Touches.via (State.runCommand_touches _ _ _)] | split | dsimp only | refine .fold ?_ fun _ _ => ?_ | refine .fold1 ?_ fun _ _ => ?_ | refine .fold2 ?_ fun _ _ => ?_

theorem execCuAssign_touches (h : CmdHdr) (p : ChArg) (s : State) : Touches [.regs, .time, .dev, .log, .logSeq, .mbx, .chk, .pmu, .pwr, .mem, .chans, .eng, .ext, .surf, .aud, .net, .tx, .txc, .grp, .lane, .rat, .out, .fresh] s (outState s (execCuAssign h p s)) := by
  unfold execCuAssign
  repeat' first | simp (disch := decide) only [outState, Touches.refl, Touches.via (State.runCommand_touches _ _ _)] | split | dsimp only | refine .fold ?_ fun _ _ => ?_ | refine .fold1 ?_ fun _ _ => ?_ | refine .fold2 ?_ fun _ _ => ?_

theorem execPowerOn_touches (s : State) : Touches [.regs, .time, .dev, .log, .logSeq, .mbx, .ctl, .chk, .pmu, .pwr, .mem, .chans, .eng, .ext, .surf, .aud, .net, .tx, .txc, .grp, .lane, .rat, .out, .fresh] s (outState s (execPowerOn s)) := by
  unfold execPowerOn
  repeat' first | simp (disch := decide) only [outState, Touches.refl, Touches.set_dev, Touches.via (State.bare_touches _ _)] | split | dsimp only | refine .fold ?_ fun _ _ => ?_ | refine .fold1 ?_ fun _ _ => ?_ | refine .fold2 ?_ fun _ _ => ?_

theorem execChipReset_touches (s : State) : Touches [.regs, .time, .dev, .log, .logSeq, .mbx, .ctl, .chk, .pmu, .pwr, .mem, .chans, .eng, .ext, .surf, .aud, .net, .tx, .txc, .grp, .lane, .rat, .out, .fresh] s (outState s (execChipReset s)) := by
  unfold execChipReset
  repeat' first | simp (disch := decide) only [outState, Touches.refl, Touches.via (State.chipReset_touches _ _)] | split | dsimp only | refine .fold ?_ fun _ _ => ?_ | refine .fold1 ?_ fun _ _ => ?_ | refine .fold2 ?_ fun _ _ => ?_

theorem execSupplyResetCrossing_touches (rail mv : Nat) (s : State) : Touches [.regs, .time, .dev, .log, .logSeq, .mbx, .ctl, .chk, .pmu, .pwr, .mem, .chans, .eng, .ext, .surf, .aud, .net, .tx, .txc, .grp, .lane, .rat, .out, .fresh] s (outState s (execSupplyResetCrossing rail mv s)) := by
  unfold execSupplyResetCrossing
  repeat' first | simp (disch := decide) only [outState, Touches.refl, Touches.via (State.wr_touches _ _ _), Touches.via (State.chipReset_touches _ _)] | split | dsimp only | refine .fold ?_ fun _ _ => ?_ | refine .fold1 ?_ fun _ _ => ?_ | refine .fold2 ?_ fun _ _ => ?_

theorem State.bootTest_touches (s : State) (failed : List Nat) (coreFail : Bool) : Touches [.regs, .dev, .log, .logSeq, .mbx, .eng, .out] s (State.bootTest s failed coreFail) := by
  unfold State.bootTest
  repeat' first | simp (disch := decide) only [Touches.refl, Touches.set_eng, Touches.set_dev, Touches.via (State.raise_touches _ _ _ _ _)] | split | dsimp only | refine .fold ?_ fun _ _ => ?_ | refine .fold1 ?_ fun _ _ => ?_ | refine .fold2 ?_ fun _ _ => ?_

theorem execResetRelease_touches (mgrSel : Bool) (failed : List Nat) (coreFail : Bool) (s : State) : Touches [.regs, .dev, .log, .logSeq, .mbx, .mem, .eng, .lane, .rat, .out] s (outState s (execResetRelease mgrSel failed coreFail s)) := by
  unfold execResetRelease
  repeat' first | simp (disch := decide) only [outState, Touches.refl, Touches.set_dev_rat, Touches.set_dev, Touches.set_dev_mem, Touches.via (State.updLane_touches _ _ _), Touches.via (State.bootTest_touches _ _ _), Touches.via (State.emit_touches _ _)] | split | dsimp only | refine .fold ?_ fun _ _ => ?_ | refine .fold1 ?_ fun _ _ => ?_ | refine .fold2 ?_ fun _ _ => ?_

theorem execDevRecovery_touches (w : Word) (info : ImageInfo) (s : State) : Touches [.regs, .dev, .log, .logSeq, .mbx, .eng, .out] s (outState s (execDevRecovery w info s)) := by
  unfold execDevRecovery
  repeat' first | simp (disch := decide) only [outState, Touches.refl, Touches.set_dev, Touches.via (State.bootTest_touches _ _ _), Touches.via (State.emit_touches _ _)] | split | dsimp only | refine .fold ?_ fun _ _ => ?_ | refine .fold1 ?_ fun _ _ => ?_ | refine .fold2 ?_ fun _ _ => ?_

theorem execTrialTimeout_touches (s : State) : Touches [.regs, .time, .dev, .log, .logSeq, .mbx, .ctl, .chk, .pmu, .pwr, .mem, .chans, .eng, .ext, .surf, .aud, .net, .tx, .txc, .grp, .lane, .rat, .out, .fresh] s (outState s (execTrialTimeout s)) := by
  unfold execTrialTimeout
  repeat' first | simp (disch := decide) only [outState, Touches.refl, Touches.set_dev, Touches.via (State.sticky_touches _ _ _), Touches.via (State.chipReset_touches _ _)] | split | dsimp only | refine .fold ?_ fun _ _ => ?_ | refine .fold1 ?_ fun _ _ => ?_ | refine .fold2 ?_ fun _ _ => ?_

theorem execHourCounterTick_touches (s : State) : Touches [.dev] s (outState s (execHourCounterTick s)) := by
  unfold execHourCounterTick
  repeat' first | simp (disch := decide) only [outState, Touches.refl, Touches.set_dev] | split | dsimp only | refine .fold ?_ fun _ _ => ?_ | refine .fold1 ?_ fun _ _ => ?_ | refine .fold2 ?_ fun _ _ => ?_

theorem execLifecycleResetTimer_touches (s : State) : Touches [.regs, .time, .dev, .log, .logSeq, .mbx, .ctl, .chk, .pmu, .pwr, .mem, .chans, .eng, .ext, .surf, .aud, .net, .tx, .txc, .grp, .lane, .rat, .out, .fresh] s (outState s (execLifecycleResetTimer s)) := by
  unfold execLifecycleResetTimer
  repeat' first | simp (disch := decide) only [outState, Touches.refl, Touches.via (State.chipReset_touches _ _)] | split | dsimp only | refine .fold ?_ fun _ _ => ?_ | refine .fold1 ?_ fun _ _ => ?_ | refine .fold2 ?_ fun _ _ => ?_

theorem State.cutHeld_touches (s : State) : Touches [.mbx, .grp, .rat] s (State.cutHeld s) := by
  unfold State.cutHeld
  repeat' first | simp (disch := decide) only [Touches.refl, Touches.set_mbx, Touches.set_grp, Touches.via (State.setJournal_touches _ _ _), Touches.via (State.settleFree_touches _)] | split | dsimp only | refine .fold ?_ fun _ _ => ?_ | refine .fold1 ?_ fun _ _ => ?_ | refine .fold2 ?_ fun _ _ => ?_

theorem State.cutForwarded_touches (s : State) : Touches [.mbx, .rat] s (State.cutForwarded s) := by
  unfold State.cutForwarded
  repeat' first | simp (disch := decide) only [Touches.refl, Touches.set_mbx_rat] | split | dsimp only | refine .fold ?_ fun _ _ => ?_ | refine .fold1 ?_ fun _ _ => ?_ | refine .fold2 ?_ fun _ _ => ?_

theorem State.cutSessions_touches (s : State) : Touches [.regs, .mbx] s (State.cutSessions s) := by
  unfold State.cutSessions
  repeat' first | simp (disch := decide) only [Touches.refl, Touches.set_mbx, Touches.via (State.sticky_touches _ _ _), Touches.via (State.dropCompletions_touches _ _)] | split | dsimp only | refine .fold ?_ fun _ _ => ?_ | refine .fold1 ?_ fun _ _ => ?_ | refine .fold2 ?_ fun _ _ => ?_

theorem State.dropUncommitted_touches (s : State) : Touches [.chans] s (State.dropUncommitted s) := by
  unfold State.dropUncommitted
  repeat' first | simp (disch := decide) only [Touches.refl, Touches.set_chans] | split | dsimp only | refine .fold ?_ fun _ _ => ?_ | refine .fold1 ?_ fun _ _ => ?_ | refine .fold2 ?_ fun _ _ => ?_

theorem State.ctlReset_touches (s : State) (cause core : Nat) : Touches [.regs, .dev, .mbx, .ctl, .mem, .chans, .grp, .rat, .fresh] s (State.ctlReset s cause core) := by
  unfold State.ctlReset
  repeat' first | simp (disch := decide) only [Touches.refl, Touches.set_dev_mbx_ctl, Touches.set_fresh, Touches.via (State.bump_touches _ _), Touches.via (State.cutHeld_touches _), Touches.via (State.cutForwarded_touches _), Touches.via (State.resetMaster_touches _ _ _), Touches.via (State.dropUncommitted_touches _), Touches.via (State.cutSessions_touches _)] | split | dsimp only | refine .fold ?_ fun _ _ => ?_ | refine .fold1 ?_ fun _ _ => ?_ | refine .fold2 ?_ fun _ _ => ?_

theorem execControlComplexReset_touches (s : State) : Touches [.regs, .dev, .mbx, .ctl, .mem, .chans, .grp, .rat, .fresh] s (outState s (execControlComplexReset s)) := by
  unfold execControlComplexReset
  repeat' first | simp (disch := decide) only [outState, Touches.refl, Touches.via (State.ctlReset_touches _ _ _)] | split | dsimp only | refine .fold ?_ fun _ _ => ?_ | refine .fold1 ?_ fun _ _ => ?_ | refine .fold2 ?_ fun _ _ => ?_

theorem execWatchdogExpiry_touches (core : Nat) (s : State) : Touches [.regs, .dev, .mbx, .ctl, .mem, .chans, .grp, .rat, .fresh] s (outState s (execWatchdogExpiry core s)) := by
  unfold execWatchdogExpiry
  repeat' first | simp (disch := decide) only [outState, Touches.refl, Touches.via (State.bump_touches _ _), Touches.via (State.ctlReset_touches _ _ _)] | split | dsimp only | refine .fold ?_ fun _ _ => ?_ | refine .fold1 ?_ fun _ _ => ?_ | refine .fold2 ?_ fun _ _ => ?_

theorem execRestartHoldExpiry_touches (s : State) : Touches [.ctl] s (outState s (execRestartHoldExpiry s)) := by
  unfold execRestartHoldExpiry
  repeat' first | simp (disch := decide) only [outState, Touches.refl, Touches.set_ctl] | split | dsimp only | refine .fold ?_ fun _ _ => ?_ | refine .fold1 ?_ fun _ _ => ?_ | refine .fold2 ?_ fun _ _ => ?_

theorem State.postLost_touches (s : State) : Touches [.regs, .mbx, .out] s (State.postLost s) := by
  unfold State.postLost
  repeat' first | simp (disch := decide) only [Touches.refl, Touches.set_mbx, Touches.via (State.takeWord_touches _ _), Touches.via (State.queueWord_touches _ _ _), Touches.via (State.loseWord_touches _ _ _)] | split | dsimp only | refine .fold ?_ fun _ _ => ?_ | refine .fold1 ?_ fun _ _ => ?_ | refine .fold2 ?_ fun _ _ => ?_

theorem State.restarted_touches (s : State) (ms : Nat) (reread : Bool) : Touches [.regs, .log, .logSeq, .mbx, .ctl, .out] s (State.restarted s ms reread) := by
  unfold State.restarted
  repeat' first | simp (disch := decide) only [Touches.refl, Touches.set_ctl, Touches.via (State.postLost_touches _), Touches.via (State.raise_touches _ _ _ _ _)] | split | dsimp only | refine .fold ?_ fun _ _ => ?_ | refine .fold1 ?_ fun _ _ => ?_ | refine .fold2 ?_ fun _ _ => ?_

theorem State.firstReady_touches (s : State) : Touches [.regs, .dev, .pmu, .rat, .out] s (State.firstReady s) := by
  unfold State.firstReady
  repeat' first | simp (disch := decide) only [Touches.refl, Touches.set_dev, Touches.via (State.enumerate_touches _)] | split | dsimp only | refine .fold ?_ fun _ _ => ?_ | refine .fold1 ?_ fun _ _ => ?_ | refine .fold2 ?_ fun _ _ => ?_

theorem execFirmwareReady_touches (ms : Nat) (reread : Bool) (s : State) : Touches [.regs, .time, .dev, .log, .logSeq, .mbx, .ctl, .chk, .pmu, .pwr, .mem, .chans, .eng, .ext, .surf, .aud, .net, .tx, .txc, .grp, .lane, .rat, .out, .fresh] s (outState s (execFirmwareReady ms reread s)) := by
  unfold execFirmwareReady
  repeat' first | simp (disch := decide) only [outState, Touches.refl, Touches.set_dev_mbx_ctl, Touches.via (State.restarted_touches _ _ _), Touches.via (State.settleTest_touches _), Touches.via (State.drainRing_touches _ _), Touches.via (State.firstReady_touches _)] | split | dsimp only | refine .fold ?_ fun _ _ => ?_ | refine .fold1 ?_ fun _ _ => ?_ | refine .fold2 ?_ fun _ _ => ?_

theorem State.flr_touches (s : State) : Touches [.regs, .dev, .mbx, .chk, .mem, .rat, .out, .fresh] s (State.flr s) := by
  unfold State.flr
  repeat' first | simp (disch := decide) only [Touches.refl, Touches.set_dev, Touches.set_mbx_rat, Touches.set_fresh, Touches.via (State.bumpBy_touches _ _ _), Touches.via (State.resetMaster_touches _ _ _), Touches.via (State.chkReset_touches _ _), Touches.via (State.shutSession_touches _ _ _), Touches.via (State.clearRegs_touches _ _ _)] | split | dsimp only | refine .fold ?_ fun _ _ => ?_ | refine .fold1 ?_ fun _ _ => ?_ | refine .fold2 ?_ fun _ _ => ?_

theorem execFunctionLevelReset_touches (s : State) : Touches [.regs, .dev, .mbx, .chk, .mem, .rat, .out, .fresh] s (outState s (execFunctionLevelReset s)) := by
  unfold execFunctionLevelReset
  repeat' first | simp (disch := decide) only [outState, Touches.refl, Touches.via (State.flr_touches _)] | split | dsimp only | refine .fold ?_ fun _ _ => ?_ | refine .fold1 ?_ fun _ _ => ?_ | refine .fold2 ?_ fun _ _ => ?_

theorem State.unlock_touches (s : State) (ds : List Domain) : Touches [.dev] s (State.unlock s ds) := by
  unfold State.unlock
  repeat' first | simp (disch := decide) only [Touches.refl, Touches.set_dev] | split | dsimp only | refine .fold ?_ fun _ _ => ?_ | refine .fold1 ?_ fun _ _ => ?_ | refine .fold2 ?_ fun _ _ => ?_

theorem State.noteUnlock_touches (s : State) (d : Domain) : Touches [.regs, .log, .logSeq, .mbx, .out] s (State.noteUnlock s d) := by
  unfold State.noteUnlock
  repeat' first | simp (disch := decide) only [Touches.refl, Touches.via (State.raise_touches _ _ _ _ _)] | split | dsimp only | refine .fold ?_ fun _ _ => ?_ | refine .fold1 ?_ fun _ _ => ?_ | refine .fold2 ?_ fun _ _ => ?_

theorem State.ethLost_touches (s : State) : Touches [.regs, .time, .pmu, .net, .tx, .txc, .grp, .lane, .out] s (State.ethLost s) := by
  unfold State.ethLost
  repeat' first | simp (disch := decide) only [Touches.refl, Touches.via (State.loseCdr_touches _ _), Touches.via (State.linkDown_touches _ _)] | split | dsimp only | refine .fold ?_ fun _ _ => ?_ | refine .fold1 ?_ fun _ _ => ?_ | refine .fold2 ?_ fun _ _ => ?_

theorem State.portClockLost_touches (s : State) (q : Nat) : Touches [.regs, .log, .logSeq, .mbx, .grp, .lane, .rat, .out] s (State.portClockLost s q) := by
  unfold State.portClockLost
  repeat' first | simp (disch := decide) only [Touches.refl, Touches.via (State.updLane_touches _ _ _), Touches.via (State.failPort_touches _ _ _)] | split | dsimp only | refine .fold ?_ fun _ _ => ?_ | refine .fold1 ?_ fun _ _ => ?_ | refine .fold2 ?_ fun _ _ => ?_

theorem State.audmLost_touches (s : State) : Touches [.regs, .dev, .log, .logSeq, .mbx, .out] s (State.audmLost s) := by
  unfold State.audmLost
  repeat' first | simp (disch := decide) only [Touches.refl, Touches.set_dev, Touches.via (State.noteUnlock_touches _ _)] | split | dsimp only | refine .fold ?_ fun _ _ => ?_ | refine .fold1 ?_ fun _ _ => ?_ | refine .fold2 ?_ fun _ _ => ?_

theorem execPllUnlock_touches (d : Domain) (s : State) : Touches [.regs, .time, .dev, .log, .logSeq, .mbx, .ctl, .chk, .pmu, .pwr, .mem, .chans, .eng, .ext, .surf, .aud, .net, .tx, .txc, .grp, .lane, .rat, .out, .fresh] s (outState s (execPllUnlock d s)) := by
  unfold execPllUnlock
  repeat' first | simp (disch := decide) only [outState, Touches.refl, Touches.via (State.fatal_touches _ _ _ _), Touches.via (State.portClockLost_touches _ _), Touches.via (State.settle_touches _), Touches.via (State.ctlReset_touches _ _ _), Touches.via (State.flr_touches _), Touches.via (State.ethLost_touches _), Touches.via (State.audmLost_touches _), Touches.via (State.unlock_touches _ _), Touches.via (State.noteUnlock_touches _ _)] | split | dsimp only | refine .fold ?_ fun _ _ => ?_ | refine .fold1 ?_ fun _ _ => ?_ | refine .fold2 ?_ fun _ _ => ?_

theorem State.refLost_touches (s : State) : Touches [.regs, .time, .dev, .log, .logSeq, .mbx, .chk, .pmu, .pwr, .mem, .chans, .eng, .ext, .surf, .aud, .net, .tx, .txc, .grp, .lane, .rat, .out, .fresh] s (State.refLost s) := by
  unfold State.refLost
  repeat' first | simp (disch := decide) only [Touches.refl, Touches.via (State.fatal_touches _ _ _ _), Touches.via (State.settle_touches _), Touches.via (State.ethLost_touches _), Touches.via (State.unlock_touches _ _)] | split | dsimp only | refine .fold ?_ fun _ _ => ?_ | refine .fold1 ?_ fun _ _ => ?_ | refine .fold2 ?_ fun _ _ => ?_

theorem State.refReset_touches (s : State) : Touches [.regs, .time, .dev, .log, .logSeq, .mbx, .ctl, .chk, .pmu, .pwr, .mem, .chans, .eng, .ext, .surf, .aud, .net, .tx, .txc, .grp, .lane, .rat, .out, .fresh] s (State.refReset s) := by
  unfold State.refReset
  repeat' first | simp (disch := decide) only [Touches.refl, Touches.via (State.ctlReset_touches _ _ _), Touches.via (State.refLost_touches _)] | split | dsimp only | refine .fold ?_ fun _ _ => ?_ | refine .fold1 ?_ fun _ _ => ?_ | refine .fold2 ?_ fun _ _ => ?_

theorem execRefclkEthLoss_touches (s : State) : Touches [.regs, .time, .dev, .log, .logSeq, .mbx, .ctl, .chk, .pmu, .pwr, .mem, .chans, .eng, .ext, .surf, .aud, .net, .tx, .txc, .grp, .lane, .rat, .out, .fresh] s (outState s (execRefclkEthLoss s)) := by
  unfold execRefclkEthLoss
  repeat' first | simp (disch := decide) only [outState, Touches.refl, Touches.via (State.refReset_touches _)] | split | dsimp only | refine .fold ?_ fun _ _ => ?_ | refine .fold1 ?_ fun _ _ => ?_ | refine .fold2 ?_ fun _ _ => ?_

theorem execAudmOscUnlock_touches (s : State) : Touches [.regs, .dev, .log, .logSeq, .mbx, .out] s (outState s (execAudmOscUnlock s)) := by
  unfold execAudmOscUnlock
  repeat' first | simp (disch := decide) only [outState, Touches.refl, Touches.via (State.audmLost_touches _)] | split | dsimp only | refine .fold ?_ fun _ _ => ?_ | refine .fold1 ?_ fun _ _ => ?_ | refine .fold2 ?_ fun _ _ => ?_

theorem State.bistRunFields_touches (s : State) (w : Word) : Touches [.regs] s (State.bistRunFields s w) := by
  unfold State.bistRunFields
  repeat' first | simp (disch := decide) only [Touches.refl, Touches.via (State.wr_touches _ _ _)] | split | dsimp only | refine .fold ?_ fun _ _ => ?_ | refine .fold1 ?_ fun _ _ => ?_ | refine .fold2 ?_ fun _ _ => ?_

theorem execBistRunStart_touches (w : Word) (pass : Bool) (s : State) : Touches [.regs, .dev, .mbx, .eng, .out] s (outState s (execBistRunStart w pass s)) := by
  unfold execBistRunStart
  repeat' first | simp (disch := decide) only [State.bistWrite, State.hostWrite, State.barWrite, outState, Touches.refl, Touches.set_dev_eng, Touches.via (State.bistRunFields_touches _ _), Touches.via (State.badAccess_touches _), Touches.via (State.emit_touches _ _), Touches.via (State.unsupported_touches _)] | split | dsimp only | refine .fold ?_ fun _ _ => ?_ | refine .fold1 ?_ fun _ _ => ?_ | refine .fold2 ?_ fun _ _ => ?_

theorem execBistOtpBurn_touches (s : State) : Touches [.regs, .dev, .mbx, .out] s (outState s (execBistOtpBurn s)) := by
  unfold execBistOtpBurn
  repeat' first | simp (disch := decide) only [State.bistWrite, State.hostWrite, State.barWrite, outState, Touches.refl, Touches.set_dev, Touches.via (State.sticky_touches _ _ _), Touches.via (State.badAccess_touches _), Touches.via (State.emit_touches _ _), Touches.via (State.unsupported_touches _)] | split | dsimp only | refine .fold ?_ fun _ _ => ?_ | refine .fold1 ?_ fun _ _ => ?_ | refine .fold2 ?_ fun _ _ => ?_

theorem execBistKeySlotWrite_touches (s : State) : Touches [.regs, .dev, .mbx, .out] s (outState s (execBistKeySlotWrite s)) := by
  unfold execBistKeySlotWrite
  repeat' first | simp (disch := decide) only [State.bistWrite, State.hostWrite, State.barWrite, outState, Touches.refl, Touches.set_dev, Touches.via (State.badAccess_touches _), Touches.via (State.emit_touches _ _), Touches.via (State.unsupported_touches _)] | split | dsimp only | refine .fold ?_ fun _ _ => ?_ | refine .fold1 ?_ fun _ _ => ?_ | refine .fold2 ?_ fun _ _ => ?_

theorem State.plainWrite_touches (s : State) (off : Nat) (w : Word) : Touches [.regs] s (State.plainWrite s off w) := by
  unfold State.plainWrite
  repeat' first | simp (disch := decide) only [Touches.refl, Touches.via (State.wr_touches _ _ _)] | split | dsimp only | refine .fold ?_ fun _ _ => ?_ | refine .fold1 ?_ fun _ _ => ?_ | refine .fold2 ?_ fun _ _ => ?_

theorem State.writeDev_touches (s : State) (off : Nat) (w : Word) : Touches [.regs, .mbx, .out] s (State.writeDev s off w) := by
  unfold State.writeDev
  repeat' first | simp (disch := decide) only [State.hostWrite, State.barWrite, Touches.refl, Touches.via (State.plainWrite_touches _ _ _), Touches.via (State.msixRelease_touches _ _), Touches.via (State.badAccess_touches _), Touches.via (State.emit_touches _ _), Touches.via (State.unsupported_touches _)] | split | dsimp only | refine .fold ?_ fun _ _ => ?_ | refine .fold1 ?_ fun _ _ => ?_ | refine .fold2 ?_ fun _ _ => ?_

theorem State.writeMbx_touches (s : State) (off : Nat) (w : Word) : Touches [.regs, .mbx, .out] s (State.writeMbx s off w) := by
  unfold State.writeMbx
  repeat' first | simp (disch := decide) only [State.hostWrite, State.barWrite, Touches.refl, Touches.via (State.plainWrite_touches _ _ _), Touches.via (execMbxH2dWrite_touches _ _ _), Touches.via (State.badAccess_touches _), Touches.via (State.emit_touches _ _), Touches.via (State.unsupported_touches _)] | split | dsimp only | refine .fold ?_ fun _ _ => ?_ | refine .fold1 ?_ fun _ _ => ?_ | refine .fold2 ?_ fun _ _ => ?_

theorem State.writeLyr_touches (s : State) (off : Nat) (w : Word) : Touches [.regs, .mbx, .chans, .surf, .out] s (State.writeLyr s off w) := by
  unfold State.writeLyr
  repeat' first | simp (disch := decide) only [State.hostWrite, State.barWrite, Touches.refl, Touches.via (execLyrCurQueue_touches _ _ _), Touches.via (execLyrFenceSignal_touches _ _), Touches.via (State.plainWrite_touches _ _ _), Touches.via (execLyrCurPos_touches _ _ _), Touches.via (execLyrFenceReset_touches _ _), Touches.via (State.badAccess_touches _), Touches.via (State.emit_touches _ _), Touches.via (State.unsupported_touches _)] | split | dsimp only | refine .fold ?_ fun _ _ => ?_ | refine .fold1 ?_ fun _ _ => ?_ | refine .fold2 ?_ fun _ _ => ?_

theorem State.writeAud_touches (s : State) (off : Nat) (w : Word) : Touches [.regs, .mbx, .out] s (State.writeAud s off w) := by
  unfold State.writeAud
  repeat' first | simp (disch := decide) only [State.hostWrite, State.barWrite, Touches.refl, Touches.via (State.plainWrite_touches _ _ _), Touches.via (execAudSlotCommit_touches _ _ _), Touches.via (State.badAccess_touches _), Touches.via (State.emit_touches _ _), Touches.via (State.unsupported_touches _)] | split | dsimp only | refine .fold ?_ fun _ _ => ?_ | refine .fold1 ?_ fun _ _ => ?_ | refine .fold2 ?_ fun _ _ => ?_

theorem State.chkControl_touches (s : State) (u : Nat) (w : Word) : Touches [.regs, .mbx, .chk, .out, .fresh] s (State.chkControl s u w) := by
  unfold State.chkControl
  repeat' first | simp (disch := decide) only [Touches.refl, Touches.via (execChkFinish_touches _ _), Touches.via (execChkAbort_touches _ _), Touches.via (execChkStart_touches _ _), Touches.via (execChkInit_touches _ _)] | split | dsimp only | refine .fold ?_ fun _ _ => ?_ | refine .fold1 ?_ fun _ _ => ?_ | refine .fold2 ?_ fun _ _ => ?_

theorem State.writeChk_touches (s : State) (off : Nat) (w : Word) : Touches [.regs, .mbx, .chk, .out, .fresh] s (State.writeChk s off w) := by
  unfold State.writeChk
  repeat' first | simp (disch := decide) only [State.chkWrite, State.hostWrite, State.barWrite, Touches.refl, Touches.via (execChkFeed16_touches _ _ _), Touches.via (execChkFeed32_touches _ _ _ _), Touches.via (State.chkControl_touches _ _ _), Touches.via (execChkFeed8_touches _ _ _), Touches.via (State.plainWrite_touches _ _ _), Touches.via (execChkPreset_touches _ _ _), Touches.via (State.badAccess_touches _), Touches.via (State.emit_touches _ _), Touches.via (State.unsupported_touches _)] | split | dsimp only | refine .fold ?_ fun _ _ => ?_ | refine .fold1 ?_ fun _ _ => ?_ | refine .fold2 ?_ fun _ _ => ?_

theorem State.writePmu_touches (s : State) (off : Nat) (w : Word) : Touches [.regs, .mbx, .pmu, .out] s (State.writePmu s off w) := by
  unfold State.writePmu
  repeat' first | simp (disch := decide) only [State.hostWrite, State.pmuWrite, State.barWrite, Touches.refl, Touches.via (execPmuDumpConfigWrite_touches _ _ _), Touches.via (execPmuHistClear_touches _ _ _), Touches.via (State.plainWrite_touches _ _ _), Touches.via (execPmuCounterEnable_touches _ _ _), Touches.via (State.badAccess_touches _), Touches.via (State.emit_touches _ _), Touches.via (State.unsupported_touches _)] | split | dsimp only | refine .fold ?_ fun _ _ => ?_ | refine .fold1 ?_ fun _ _ => ?_ | refine .fold2 ?_ fun _ _ => ?_

theorem State.writeBist_touches (s : State) (off : Nat) (w : Word) : Touches [.regs, .dev, .mbx, .out] s (State.writeBist s off w) := by
  unfold State.writeBist
  repeat' first | simp (disch := decide) only [State.bistWrite, State.hostWrite, State.barWrite, Touches.refl, Touches.set_dev, Touches.via (execBistOtpBurn_touches _), Touches.via (State.plainWrite_touches _ _ _), Touches.via (execBistKeySlotWrite_touches _), Touches.via (State.bistRunFields_touches _ _), Touches.via (State.badAccess_touches _), Touches.via (State.emit_touches _ _), Touches.via (State.unsupported_touches _), id] | split | dsimp only | refine .fold ?_ fun _ _ => ?_ | refine .fold1 ?_ fun _ _ => ?_ | refine .fold2 ?_ fun _ _ => ?_

theorem State.writeReg_touches (s : State) (off : Nat) (w : Word) : Touches [.regs, .dev, .mbx, .chk, .pmu, .chans, .surf, .out, .fresh] s (State.writeReg s off w) := by
  unfold State.writeReg
  repeat' first | simp (disch := decide) only [State.hostWrite, State.barWrite, Touches.refl, Touches.via (State.writeDev_touches _ _ _), Touches.via (State.badAccess_touches _), Touches.via (State.writePmu_touches _ _ _), Touches.via (State.writeLyr_touches _ _ _), Touches.via (State.writeChk_touches _ _ _), Touches.via (State.writeBist_touches _ _ _), Touches.via (State.plainWrite_touches _ _ _), Touches.via (State.writeAud_touches _ _ _), Touches.via (State.writeMbx_touches _ _ _), Touches.via (State.emit_touches _ _), Touches.via (State.unsupported_touches _)] | split | dsimp only | refine .fold ?_ fun _ _ => ?_ | refine .fold1 ?_ fun _ _ => ?_ | refine .fold2 ?_ fun _ _ => ?_

theorem State.bar0Write_touches (s : State) (off : Nat) (lo : Word) (hi : Option Word) : Touches [.regs, .dev, .mbx, .chk, .pmu, .chans, .surf, .out, .fresh] s (State.bar0Write s off lo hi) := by
  unfold State.bar0Write
  repeat' first | simp (disch := decide) only [State.barWrite, Touches.refl, Touches.via (State.badAccess_touches _), Touches.via (State.writeReg_touches _ _ _), Touches.via (State.emit_touches _ _), Touches.via (State.unsupported_touches _)] | split | dsimp only | refine .fold ?_ fun _ _ => ?_ | refine .fold1 ?_ fun _ _ => ?_ | refine .fold2 ?_ fun _ _ => ?_

theorem State.pciWrite_touches (s : State) (c : PciConfig) : Touches [.mbx, .out] s (State.pciWrite s c) := by
  unfold State.pciWrite
  repeat' first | simp (disch := decide) only [Touches.refl, Touches.set_mbx, Touches.via (State.msixRelease_touches _ _)] | split | dsimp only | refine .fold ?_ fun _ _ => ?_ | refine .fold1 ?_ fun _ _ => ?_ | refine .fold2 ?_ fun _ _ => ?_

theorem execRegisterWrite_touches (w : WriteAt) (lo : Word) (hi : Option Word) (s : State) : Touches [.regs, .dev, .mbx, .chk, .pmu, .chans, .surf, .out, .fresh] s (outState s (execRegisterWrite w lo hi s)) := by
  unfold execRegisterWrite
  repeat' first | simp (disch := decide) only [outState, Touches.refl, Touches.via (State.bar0Write_touches _ _ _ _), Touches.via (State.pciWrite_touches _ _)] | split | dsimp only | refine .fold ?_ fun _ _ => ?_ | refine .fold1 ?_ fun _ _ => ?_ | refine .fold2 ?_ fun _ _ => ?_

theorem orElse_some {α : Type} {a b : Option α} {f : α} : (a <|> b) = some f ↔ a = some f ∨ a = none ∧ b = some f := by
  cases a <;> simp

theorem readAct_touches {off : Nat} {f : State → Host.Outcome State Fault Refusal} (h : readAct off = some f) (s : State) :
    Touches [.regs, .time, .mbx, .pmu, .lane, .out] s (outState s (f s)) := by
  unfold readAct at h
  split at h
  · cases h; exact (execTimeNowNsRead_touches s).mono (by decide)
  · split at h
    · cases h; exact (execHalDispatchMaxRead_touches s).mono (by decide)
    · split at h
      · cases h; exact (execPmuSamplePcRead_touches s).mono (by decide)
      · simp only [orElse_some, Option.map_eq_some_iff] at h
        obtain ⟨i, -, rfl⟩ | ⟨-, (⟨i, -, rfl⟩ | ⟨-, (⟨i, -, rfl⟩ | ⟨-, (⟨i, -, rfl⟩ | ⟨-, (⟨i, -, rfl⟩ | ⟨-, (⟨i, -, rfl⟩ | ⟨-, (⟨i, -, rfl⟩ | ⟨-, (⟨i, -, rfl⟩ | ⟨-, (⟨i, -, rfl⟩ | ⟨-, ⟨i, -, rfl⟩⟩)⟩)⟩)⟩)⟩)⟩)⟩)⟩)⟩ := h
        · exact (execMbxD2hRead_touches i s).mono (by decide)
        · exact (execChnAuCountLoRead_touches i s).mono (by decide)
        · exact (execRcHeadroomMinRead_touches i s).mono (by decide)
        · exact (execLyrFlipResultRead_touches i s).mono (by decide)
        · exact (execExtMarginMinRead_touches i s).mono (by decide)
        · exact (execEngPeakLoadRead_touches i s).mono (by decide)
        · exact (execNetMergeSkewRead_touches i s).mono (by decide)
        · exact (execEgrLateMaxRead_touches i s).mono (by decide)
        · exact (execLaneFomRead_touches i s).mono (by decide)
        · exact (execPmuCntLoRead_touches i s).mono (by decide)

theorem State.readAt_touches (s : State) (off : Nat) : Touches [.regs, .time, .mbx, .pmu, .lane, .out] s (State.readAt s off) := by
  unfold State.readAt State.hostRead State.barRead
  split
  · exact readAct_touches ‹_› s
  · repeat' first | simp (disch := decide) only [Touches.refl, Touches.via (State.emit_touches _ _), Touches.via (State.badAccess_touches _), Touches.via (State.unsupported_touches _)] | split

theorem State.bar0Read_touches (s : State) (off len : Nat) : Touches [.regs, .time, .mbx, .pmu, .lane, .out] s (State.bar0Read s off len) := by
  unfold State.bar0Read
  repeat' first | simp (disch := decide) only [State.barRead, Touches.refl, Touches.via (State.readAt_touches _ _), Touches.via (State.emit_touches _ _), Touches.via (State.badAccess_touches _), Touches.via (State.unsupported_touches _)] | split | dsimp only | refine .fold ?_ fun _ _ => ?_ | refine .fold1 ?_ fun _ _ => ?_ | refine .fold2 ?_ fun _ _ => ?_

theorem execBar0BadAccess_touches (a : BarAccess) (s : State) : Touches [.regs, .time, .dev, .mbx, .chk, .pmu, .chans, .surf, .lane, .out, .fresh] s (outState s (execBar0BadAccess a s)) := by
  unfold execBar0BadAccess
  repeat' first | simp (disch := decide) only [State.barWrite, State.barRead, outState, Touches.refl, Touches.via (State.windowRead_touches _ _ _), Touches.via (State.bar0Write_touches _ _ _ _), Touches.via (State.badAccess_touches _), Touches.via (State.windowWrite_touches _ _ _), Touches.via (State.bar0Read_touches _ _ _), Touches.via (State.emit_touches _ _), Touches.via (State.unsupported_touches _)] | split | dsimp only | refine .fold ?_ fun _ _ => ?_ | refine .fold1 ?_ fun _ _ => ?_ | refine .fold2 ?_ fun _ _ => ?_

end Sys2Proof.Machine
end

