-- ==== Sys2Proof/Laws/Commands.lean ====
section
/-!
SUPPORT. What a command that is served leaves: its completion, its journal entry and the COMPLETION word (R306, R313, R314).
-/
namespace Sys2Proof.Machine
open Sys2Proof

/-- An interrupt changes the MSI-X pending bits or the outputs only. -/
theorem State.signal_eq (s : State) (v : Nat) :
    ∃ k o, s.signal v = { s with mbx := { s.mbx with msixPend := k }, out := o } := by
  unfold State.signal
  split
  · exact ⟨s.mbx.msixPend, s.out, rfl⟩
  · split
    · exact ⟨s.mbx.msixPend, _, rfl⟩
    · exact ⟨_, s.out, rfl⟩

/-- The mailboxes after the firmware has read a command of key slot `slot` from the mailbox of pair `p`. -/
structure Taken (p : Nat) (s : State) (m : MbxState) : Prop where
  h2d : m.h2d = tdel s.mbx.h2d p
  d2h : m.d2h = s.mbx.d2h
  blocks : m.blocks = s.mbx.blocks
  queue : m.queue = s.mbx.queue
  lost : m.lost = s.mbx.lost
  sessions : m.sessions = s.mbx.sessions
  nonces : m.nonces = s.mbx.nonces
  fails : m.fails = s.mbx.fails
  locked : m.locked = s.mbx.locked
  held : m.held = s.mbx.held
  fwReady : m.fwReady = s.mbx.fwReady
  win : m.win = s.mbx.win
  lastPair : m.lastPair = p

theorem State.serveWord_eq (s : State) (p : Nat) :
    ∃ m o, s.serveWord p = { s with mbx := m, out := o } ∧ Taken p s m ∧ m.journal = s.mbx.journal := by
  unfold State.serveWord State.takeWord
  obtain ⟨k, o, h⟩ := State.signal_eq { s with mbx := { s.mbx with
      lastPair := p, h2d := tdel s.mbx.h2d p, h2dAt := tdel s.mbx.h2dAt p
      asking := match tget s.mbx.h2dAt p with
        | some t => tset s.mbx.asking p t
        | none => tdel s.mbx.asking p } } (11 + p)
  exact ⟨_, o, h, ⟨rfl, rfl, rfl, rfl, rfl, rfl, rfl, rfl, rfl, rfl, rfl, rfl, rfl⟩, rfl⟩

theorem wordType_mbxWord {t g b : Nat} (ht : t < 16) : wordType (mbxWord t g b) = t := by
  simp only [wordType, wfield, mbxWord, BitVec.toNat_ofNat, Nat.shiftRight_eq_div_pow]
  omega

theorem wordTag_mbxWord {t g b : Nat} (hg : g < 4096) : wordTag (mbxWord t g b) = g := by
  simp only [wordTag, wfield, mbxWord, BitVec.toNat_ofNat, Nat.shiftRight_eq_div_pow]
  omega

theorem wordParam_mbxWord {t g b : Nat} (hb : b < 65536) : wordParam (mbxWord t g b) = b := by
  simp only [wordParam, wfield, mbxWord, BitVec.toNat_ofNat, Nat.shiftRight_eq_div_pow]
  omega

/-- The command in execution, as R306 takes it from the session of its pair. -/
def State.heldOf (s : State) (h : CmdHdr) (p : Payload) (g b : Nat) : HeldCmd :=
  let e := tgetD s.mbx.sessions h.pair ⟨0, 0⟩
  ⟨.service, .host h.pair g b, e.slot, e.roles, h, p, false⟩

/-- The entry that a command makes in a table of journals when it begins (R312). -/
def beginJournal (t : Tab (Tab JEntry)) (slot q : Nat) : Tab (Tab JEntry) :=
  let j := journalPut (tgetD t slot []) q .inProgress
  if j.isEmpty then tdel t slot else tset t slot j

/-- A command that is served executes on the state in which its word has been read and its journal entry made, and is answered. -/
theorem State.runCommand_served {s : State} {h : CmdHdr} {p : Payload} {g b : Nat} (hs : s.serves h p g b = true) :
    ∃ m o, Taken h.pair s m
      ∧ m.journal = (if unjournaled p then s.mbx.journal
          else beginJournal s.mbx.journal (tgetD s.mbx.sessions h.pair ⟨0, 0⟩).slot h.seq)
      ∧ s.runCommand h p = (s.heldOf h p g b).answer
          (State.body { s with mbx := m, out := o } ⟨.host h.pair g b, (tgetD s.mbx.sessions h.pair ⟨0, 0⟩).slot,
            (tgetD s.mbx.sessions h.pair ⟨0, 0⟩).roles, h.seq⟩ p) := by
  unfold State.serves at hs
  simp only [Bool.and_eq_true, decide_eq_true_eq, beq_iff_eq, Bool.or_eq_true] at hs
  obtain ⟨⟨⟨⟨⟨⟨⟨⟨⟨⟨⟨hg, hb⟩, hw⟩, hm⟩, ho⟩, hc⟩, ht⟩, hr⟩, hl⟩, hd⟩, hf⟩, hj⟩ := hs
  have wt := wordType_mbxWord (t := 1) (g := g) (b := b) (by decide)
  have wg := wordTag_mbxWord (t := 1) (b := b) hg
  have wp := wordParam_mbxWord (t := 1) (g := g) (b := b) (by omega)
  have wr : s.wordRefusal h.pair (mbxWord 1 g b) = none := by
    unfold State.wordRefusal
    rw [wt, wp]
    rw [if_neg (by decide), if_neg (by omega), if_neg]
    intro ⟨h1, h2⟩
    rcases ho with ho | ho
    · exact h1 ho
    · simp [ho] at h2
  obtain ⟨m, o, hq, hk, hjn⟩ := State.serveWord_eq s h.pair
  have ck : ∀ (t : State) (x : CmdCtx), t.dev.state = .ready → t.threadFree = true → t.execute h x p = t.body x p := by
    intro t x e k
    have e1 : t.execute h x p = t.checkedBody h x p := by
      unfold State.execute; rw [k, e]; rfl
    rw [e1]
    unfold State.checkedBody
    revert hl
    cases impliedLength p with
    | none => intro _; simp [hr]
    | some n => intro hl; simp at hl; simp [hr, hl]
  have hn : ¬ 2 ≤ h.target := by omega
  unfold State.runCommand
  rw [hw]
  simp only [hm, wt, wr, hq, wg, wp, hk.sessions, hc, if_neg hn]
  unfold State.runHere
  by_cases hu : unjournaled p = true
  · refine ⟨m, o, hk, ?_, ?_⟩
    · rw [if_pos hu]; exact hjn
    · rw [← ck { s with mbx := m, out := o } ⟨.host h.pair g b, (tgetD s.mbx.sessions h.pair ⟨0, 0⟩).slot,
        (tgetD s.mbx.sessions h.pair ⟨0, 0⟩).roles, h.seq⟩ hd hf]
      simp [hu, State.heldOf]
  · have hj' : journalRule (tgetD s.mbx.journal (tgetD s.mbx.sessions h.pair ⟨0, 0⟩).slot []) h.seq = .fresh := by
      rcases hj with hj | hj
      · exact absurd hj hu
      · exact hj
    refine ⟨{ m with journal := beginJournal s.mbx.journal (tgetD s.mbx.sessions h.pair ⟨0, 0⟩).slot h.seq }, o, ?_, ?_, ?_⟩
    · exact ⟨hk.1, hk.2, hk.3, hk.4, hk.5, hk.6, hk.7, hk.8, hk.9, hk.10, hk.11, hk.12, hk.13⟩
    · rw [if_neg hu]
    · simp only [hu, State.journalOf, hjn, hj', State.setJournal, Bool.false_eq_true, if_false]
      rw [ck _ _ (by exact hd) (by exact hf)]
      rfl

theorem journalPut_ne (j : Tab JEntry) (q : Nat) (e : JEntry) : (journalPut j q e).isEmpty = false := by
  unfold journalPut
  have h : 0 < (tset j q e).length := by
    cases j with
    | nil => simp [tset]
    | cons a r => obtain ⟨k, b⟩ := a; simp only [tset]; split <;> (try split) <;> simp
  rw [List.isEmpty_eq_false_iff, ne_eq, List.drop_eq_nil_iff]
  omega

/-- Every number of a table lies below `q`. -/
def Below (q : Nat) (j : Tab JEntry) : Prop := ∀ e ∈ j, e.1 < q

theorem below_of_high {j : Tab JEntry} {q : Nat} (hs : tsorted j = true) (h : journalHigh j < q) : Below q j := by
  induction j with
  | nil => intro e he; cases he
  | cons a r ih =>
    obtain ⟨k, b⟩ := a
    obtain ⟨ha, hr⟩ := (tsorted_cons k b r).1 hs
    cases r with
    | nil =>
      intro e he
      simp only [List.mem_singleton] at he
      subst he
      simpa [journalHigh] using h
    | cons c r =>
      have hq : Below q (c :: r) := ih hr (by simpa [journalHigh, List.getLast?_cons_cons] using h)
      intro e he
      rcases List.mem_cons.1 he with he | he
      · subst he
        exact lt_trans (ha _ (List.mem_cons_self ..)) (hq _ (List.mem_cons_self ..))
      · exact hq e he

theorem tset_below {j : Tab JEntry} {q : Nat} (h : Below q j) (e : JEntry) : tset j q e = j ++ [(q, e)] := by
  induction j with
  | nil => rfl
  | cons a r ih =>
    obtain ⟨k, b⟩ := a
    have hk : k < q := h (k, b) (List.mem_cons_self ..)
    rw [tset, if_neg (by omega), if_neg (by omega), ih fun x hx => h x (List.mem_cons_of_mem _ hx)]
    rfl

theorem tset_last {j : Tab JEntry} {q : Nat} (h : Below q j) (e f : JEntry) : tset (j ++ [(q, e)]) q f = j ++ [(q, f)] := by
  induction j with
  | nil => simp [tset]
  | cons a r ih =>
    obtain ⟨k, b⟩ := a
    have hk : k < q := h (k, b) (List.mem_cons_self ..)
    rw [List.cons_append, tset, if_neg (by omega), if_neg (by omega), ih fun x hx => h x (List.mem_cons_of_mem _ hx)]
    rfl

theorem tget_last {j : Tab JEntry} {q : Nat} (h : Below q j) (e : JEntry) : tget (j ++ [(q, e)]) q = some e := by
  induction j with
  | nil => simp [tget]
  | cons a r ih =>
    obtain ⟨k, b⟩ := a
    have hk : k < q := h (k, b) (List.mem_cons_self ..)
    rw [List.cons_append, tget_cons, if_neg (by omega)]
    exact ih fun x hx => h x (List.mem_cons_of_mem _ hx)

theorem journalPut_twice {j : Tab JEntry} {q : Nat} (hs : tsorted j = true) (h : journalHigh j < q) (e f : JEntry) :
    tget (journalPut (journalPut j q e) q f) q = some f := by
  have hb := below_of_high hs h
  have h1 : journalPut j q e = j.drop (j.length + 1 - 32768) ++ [(q, e)] := by
    unfold journalPut
    rw [tset_below hb]
    simp only [List.length_append, List.length_singleton]
    exact List.drop_append_of_le_length (by omega)
  have hd : Below q (j.drop (j.length + 1 - 32768)) := fun x hx => hb x (List.mem_of_mem_drop hx)
  rw [h1]
  unfold journalPut
  rw [tset_last hd]
  have hl : (j.drop (j.length + 1 - 32768) ++ [(q, f)]).length - 32768 = 0 := by
    simp only [List.length_append, List.length_singleton, List.length_drop]
    omega
  simp only [hl, List.drop_zero]
  exact tget_last hd f

theorem journalPut_has {j : Tab JEntry} {q : Nat} (hs : tsorted j = true) (h : journalHigh j < q) (e : JEntry) :
    thas (journalPut j q e) q = true := by
  have hb := below_of_high hs h
  unfold journalPut
  rw [tset_below hb]
  simp only [List.length_append, List.length_singleton]
  rw [List.drop_append_of_le_length (by omega), thas, tget_last fun x hx => hb x (List.mem_of_mem_drop hx)]
  rfl

theorem tgetD_beginJournal (t : Tab (Tab JEntry)) (slot q : Nat) :
    tgetD (beginJournal t slot q) slot [] = journalPut (tgetD t slot []) q .inProgress := by
  have h := journalPut_ne (tgetD t slot []) q .inProgress
  unfold beginJournal
  generalize journalPut (tgetD t slot []) q .inProgress = j at h ⊢
  simp only [h, Bool.false_eq_true, if_false]
  rw [tgetD, tget_tset, if_pos rfl, Option.getD_some]

theorem fresh_iff {j : Tab JEntry} {q : Nat} (h : journalRule j q = .fresh) : tget j q = none ∧ journalHigh j < q := by
  unfold journalRule at h
  split at h
  · cases h
  · split at h
    all_goals try cases h
    split at h
    · exact ⟨by assumption, by assumption⟩
    · cases h

/-- Answering a journaled command, with the journal `J` it has made and `K` with its completion. -/
theorem answer_journaled (u : State) (x : CmdCtx) (pr g b slot q : Nat) (c : Completion) (J K : Tab JEntry) (o : Prop)
    (hx : x.from_ = .host pr g b) (hxs : x.slot = slot) (hE : K.isEmpty = false) (hH : o → thas J q = true)
    (hT : o → tget K q = some (.done c)) :
    ∃ m', (if thas J q = true then u.setJournal x K else u).complete (.host pr g b) c false = { u with mbx := m' }
      ∧ m'.blocks = tset u.mbx.blocks (32 * pr + b) c ∧ (∃ q a, tgetD m'.queue pr [] = q ++ [(mbxWord 1 g b, a)])
      ∧ m'.h2d = u.mbx.h2d ∧ m'.d2h = u.mbx.d2h ∧ m'.sessions = u.mbx.sessions
      ∧ (o → tget (tgetD m'.journal slot []) q = some (.done c)) := by
  by_cases hth : thas J q = true
  · rw [if_pos hth]
    simp only [State.complete, State.queueWord, State.setJournal, hx, hxs, hE, Bool.false_eq_true, if_false]
    refine ⟨_, rfl, rfl, ?_, rfl, rfl, rfl, fun ho => ?_⟩
    · exact ⟨_, _, by simp only [tgetD, tget_tset, if_pos, Option.getD_some]; rfl⟩
    · show tget (tgetD (tset _ slot K) slot []) q = _
      rw [tgetD, tget_tset, if_pos rfl, Option.getD_some]
      exact hT ho
  · rw [if_neg hth]
    simp only [State.complete, State.queueWord, Bool.false_eq_true, if_false]
    refine ⟨_, rfl, rfl, ?_, rfl, rfl, rfl, fun ho => absurd (hH ho) hth⟩
    exact ⟨_, _, by simp only [tgetD, tget_tset, if_pos, Option.getD_some]; rfl⟩

/-- How the statements of the host commands are met: the body answers OK with `d` at once, and changes no mailbox but for the
interrupts it raises. -/
theorem Runs.of_body {i : Instr} {s : State} {h : CmdHdr} {p : Payload} {g b : Nat} {d : List Byte} {l : List Fld} {r : Nat → Prop}
    {P : State → Prop} (hx : exec i s = .next (s.runCommand h p)) (hs : s.serves h p g b = true)
    (hb : ∀ m o, Taken h.pair s m → ∀ x : CmdCtx, x.slot = (tgetD s.mbx.sessions h.pair ⟨0, 0⟩).slot →
      x.roles = (tgetD s.mbx.sessions h.pair ⟨0, 0⟩).roles → x.pair = h.pair → 
      ∃ u k, State.body { s with mbx := m, out := o } x p = { st := u, data := d } ∧ u.mbx = { m with msixPend := k }
        ∧ Touches (.mbx :: .out :: l) s u ∧ (∀ off, ¬ r off → u.rd off = s.rd off) ∧ ∀ m', P { u with mbx := m' }) :
    Runs i s h p g b d l r P := by
  obtain ⟨m, o, hk, hj, hr⟩ := State.runCommand_served hs
  obtain ⟨u, k, hu, hm, ht, hg, hp⟩ := hb m o hk ⟨.host h.pair g b, _, _, h.seq⟩ rfl rfl rfl
  rw [hu] at hr
  have hf : unjournaled p = true ∨ journalRule (tgetD s.mbx.journal (tgetD s.mbx.sessions h.pair ⟨0, 0⟩).slot []) h.seq = .fresh := by
    unfold State.serves at hs
    simp only [Bool.and_eq_true, Bool.or_eq_true, beq_iff_eq] at hs
    exact hs.2
  generalize hsl : (tgetD s.mbx.sessions h.pair ⟨0, 0⟩).slot = slot at *
  -- the state after the answer
  have hkey : ∃ m', s.runCommand h p = { u with mbx := m' }
      ∧ m'.blocks = tset m.blocks (32 * h.pair + b) (completionOf h (opcodeOf p) eOk false d)
      ∧ (∃ q a, tgetD m'.queue h.pair [] = q ++ [(mbxWord 1 g b, a)]) ∧ m'.h2d = m.h2d ∧ m'.d2h = m.d2h ∧ m'.sessions = m.sessions
      ∧ (unjournaled p = false → tsorted (tgetD s.mbx.journal slot []) = true →
          tget (tgetD m'.journal slot []) h.seq = some (.done (completionOf h (opcodeOf p) eOk false d))) := by
    rw [hr]
    unfold HeldCmd.answer
    simp only [State.heldOf, State.journalOf, hm, hj, Option.getD_none, hsl]
    by_cases hun : unjournaled p = true
    · simp only [hun, Bool.not_true, Bool.and_false, Bool.false_eq_true, if_false, State.complete, State.queueWord]
      refine ⟨_, rfl, by rw [hm], ?_, by rw [hm], by rw [hm], by rw [hm], fun e => by simp at e⟩
      exact ⟨_, _, by simp only [tgetD, tget_tset, if_pos, Option.getD_some]; rfl⟩
    · rcases hf with hf | hf
      · exact absurd hf hun
      · obtain ⟨hn, hh⟩ := fresh_iff hf
        have hun' : unjournaled p = false := by simpa using hun
        have hE := journalPut_ne (journalPut (tgetD s.mbx.journal slot []) h.seq .inProgress) h.seq
          (.done (completionOf h (opcodeOf p) eOk false d))
        have hH : tsorted (tgetD s.mbx.journal slot []) = true →
            thas (journalPut (tgetD s.mbx.journal slot []) h.seq .inProgress) h.seq = true := fun hso => journalPut_has hso hh _
        have hT : tsorted (tgetD s.mbx.journal slot []) = true → tget (journalPut (journalPut (tgetD s.mbx.journal slot []) h.seq .inProgress)
            h.seq (.done (completionOf h (opcodeOf p) eOk false d))) h.seq = some (.done (completionOf h (opcodeOf p) eOk false d)) :=
          fun hso => journalPut_twice hso hh _ _
        simp only [hun', Bool.not_false, Bool.and_true, Bool.false_eq_true, if_false, tgetD_beginJournal]
        obtain ⟨m', e1, e2, e3, e4, e5, e6, e7⟩ := answer_journaled u ⟨.host h.pair g b, slot, (tgetD s.mbx.sessions h.pair ⟨0, 0⟩).roles, h.seq⟩
          h.pair g b slot h.seq (completionOf h (opcodeOf p) eOk false d) _ _ (tsorted (tgetD s.mbx.journal slot []) = true) rfl rfl
          hE hH hT
        exact ⟨m', e1, by rw [e2, hm], e3, by rw [e4, hm], by rw [e5, hm], by rw [e6, hm], fun _ => e7⟩
  obtain ⟨m', he, h1, h2, h3, h4, h5, h6⟩ := hkey
  refine ⟨{ u with mbx := m' }, by rw [hx, he], ?_, ?_, ⟨?_, h2, ?_, ?_⟩, ⟨?_, ?_, ?_, ?_⟩, hp m'⟩
  · exact ht.trans ⟨fun f hf => by cases f <;> first | rfl | exact absurd (by simp) hf⟩
  · intro off ho; exact hg off ho
  · show tget m'.blocks _ = _
    rw [h1, tget_tset, if_pos rfl]
  · rw [hsl]; exact h6
  · show tget m'.h2d _ = none
    rw [h3, hk.h2d, tget_tdel, if_pos rfl]
  · intro q hq
    show tget m'.h2d q = _
    rw [h3, hk.h2d, tget_tdel, if_neg (fun e => hq e.symm)]
  · show m'.d2h = _
    rw [h4, hk.d2h]
  · intro q hq
    show tget m'.blocks q = _
    rw [h1, tget_tset, if_neg (fun e => hq e.symm), hk.blocks]
  · show m'.sessions = _
    rw [h5, hk.sessions]

end Sys2Proof.Machine
end

