-- ==== Sys2Proof/Laws/MemOk.lean ====
section
/-!
SUPPORT. Every operation keeps the canonical form of the HBM image.
-/
set_option linter.all false
namespace Sys2Proof.Machine
open Sys2Proof

/-- `t` holds HBM in canonical form where `s` does. -/
structure MemOk (s t : State) : Prop where
  of :: keeps : Memory.wf s.mem.hbm = true → Memory.wf t.mem.hbm = true

theorem MemOk.refl (s : State) : MemOk s s := .of id

theorem MemOk.trans {s t u : State} (a : MemOk s t) (b : MemOk t u) : MemOk s u := .of fun h => b.keeps (a.keeps h)

theorem MemOk.eq {s t u : State} (h : u.mem.hbm = t.mem.hbm) : MemOk s u = MemOk s t :=
  propext ⟨fun a => .of fun k => h ▸ a.keeps k, fun a => .of fun k => h ▸ a.keeps k⟩

/-- An operation with a frame without `mem` adds nothing. -/
theorem MemOk.frame {l : List Fld} {s t u : State} (b : Touches l t u) (h : .mem ∉ l) : MemOk s u = MemOk s t :=
  MemOk.eq (congrArg MemState.hbm (b.same .mem h))

theorem MemOk.foldl {β : Type} {f : State → β → State} (h : ∀ t x, MemOk t (f t x)) (xs : List β) (s : State) :
    MemOk s (xs.foldl f s) := by
  induction xs generalizing s with
  | nil => exact .refl s
  | cons x xs ih => exact (h s x).trans (ih (f s x))

theorem MemOk.fold {β : Type} {f : State → β → State} {xs : List β} {s t : State} (a : MemOk s t)
    (h : ∀ t x, MemOk t (f t x)) : MemOk s (xs.foldl f t) := a.trans (.foldl h xs t)

/-- The same where the state is the second part of what is folded. -/
theorem MemOk.fold2 {α β : Type} {f : α × State → β → α × State} {xs : List β} {s : State} {p : α × State}
    (a : MemOk s p.2) (h : ∀ p x, MemOk p.2 (f p x).2) : MemOk s (xs.foldl f p).2 := by
  induction xs generalizing p with
  | nil => exact a
  | cons x xs ih => exact ih (a.trans (h p x))

theorem MemOk.set_dev {s t : State} (v0 : DevBlock) : MemOk s { t with dev := v0 } = MemOk s t := MemOk.eq rfl

theorem MemOk.set_mbx {s t : State} (v0 : MbxState) : MemOk s { t with mbx := v0 } = MemOk s t := MemOk.eq rfl

theorem MemOk.set_pmu {s t : State} (v0 : PmuState) : MemOk s { t with pmu := v0 } = MemOk s t := MemOk.eq rfl

theorem MemOk.set_mem {s t : State} (v0 : MemState) (h : MemOk s t) (k : Memory.wf t.mem.hbm = true → Memory.wf v0.hbm = true) :
    MemOk s { t with mem := v0 } := .of fun a => k (h.keeps a)

theorem MemOk.set_eng {s t : State} (v0 : EngState) : MemOk s { t with eng := v0 } = MemOk s t := MemOk.eq rfl

theorem MemOk.set_fresh {s t : State} (v0 : Nat) : MemOk s { t with fresh := v0 } = MemOk s t := MemOk.eq rfl

theorem MemOk.set_dev_mem {s t : State} (v0 : DevBlock) (v1 : MemState) (h : MemOk s t) (k : Memory.wf t.mem.hbm = true → Memory.wf v1.hbm = true) :
    MemOk s { t with dev := v0, mem := v1 } := .of fun a => k (h.keeps a)

theorem MemOk.set_dev_rat {s t : State} (v0 : DevBlock) (v1 : RatState) : MemOk s { t with dev := v0, rat := v1 } = MemOk s t := MemOk.eq rfl

theorem MemOk.set_mbx_rat {s t : State} (v0 : MbxState) (v1 : RatState) : MemOk s { t with mbx := v0, rat := v1 } = MemOk s t := MemOk.eq rfl

theorem MemOk.set_pwr_mem {s t : State} (v0 : PwrState) (v1 : MemState) (h : MemOk s t) (k : Memory.wf t.mem.hbm = true → Memory.wf v1.hbm = true) :
    MemOk s { t with pwr := v0, mem := v1 } := .of fun a => k (h.keeps a)

theorem MemOk.set_dev_mbx_ctl {s t : State} (v0 : DevBlock) (v1 : MbxState) (v2 : CtlState) : MemOk s { t with dev := v0, mbx := v1, ctl := v2 } = MemOk s t := MemOk.eq rfl

theorem MemOk.set_dev_pwr_mem {s t : State} (v0 : DevBlock) (v1 : PwrState) (v2 : MemState) (h : MemOk s t) (k : Memory.wf t.mem.hbm = true → Memory.wf v2.hbm = true) :
    MemOk s { t with dev := v0, pwr := v1, mem := v2 } := .of fun a => k (h.keeps a)

theorem MemOk.set_rat {s t : State} (v0 : RatState) : MemOk s { t with rat := v0 } = MemOk s t := MemOk.eq rfl

theorem State.chipReset_memOk (s : State) (k : Nat) : MemOk s (s.chipReset k) := .of id

theorem State.runHere_memOk {f : State → Answer} (s : State) (h : CmdHdr) (x : CmdCtx) (p : Payload)
    (hf : ∀ t, MemOk t (f t).st) : MemOk s (s.runHere h x p f) := by
  have hc : ∀ t o c b, MemOk t (State.complete t o c b) := fun t o c b =>
    (MemOk.frame (State.complete_touches t o c b) (by decide)).mpr (.refl t)
  have ha : ∀ k (a : Answer), MemOk a.st (HeldCmd.answer k a) := fun k a =>
    (MemOk.frame (HeldCmd.answer_touches k a) (by decide)).mpr (.refl _)
  unfold State.runHere
  split
  · exact (hf s).trans (ha ..)
  · split
    · exact hc ..
    · exact hc ..
    · exact hc ..
    · exact hc ..
    · exact .trans ((MemOk.frame (State.setJournal_touches s x _) (by decide)).mpr (.refl _)) ((hf _).trans (ha ..))

/-- The same of the state a row answers. -/
theorem MemOk.row {s t : State} {o : Host.Outcome State Fault Refusal} (a : MemOk s (outState s o)) (h : o = .next t) : MemOk s t := by
  subst h; exact a

theorem State.hbmWrite_memOk (s : State) (a : Nat) (d : List Byte) : MemOk s (State.hbmWrite s a d) := by
  unfold State.hbmWrite
  repeat' first | simp only [MemOk.refl] | split | exact .of id | exact id | exact .of (Memory.wf_filter _ _) | exact .of (Memory.wf_write _ _ _) | dsimp only | refine .fold ?_ fun _ _ => ?_ | refine .fold1 ?_ fun _ _ => ?_ | refine .fold2 ?_ fun _ _ => ?_ | with_reducible refine MemOk.set_mem _ ?_ ?_

theorem State.panicLevel_memOk (s : State) (k level : Nat) : MemOk s (State.panicLevel s k level) := by
  unfold State.panicLevel
  repeat' first | simp only [MemOk.refl, MemOk.frame (State.bump_touches _ _) (by decide)] | split | exact .of id | exact id | exact .of (Memory.wf_filter _ _) | exact .of (Memory.wf_write _ _ _) | dsimp only | refine .fold ?_ fun _ _ => ?_ | refine .fold1 ?_ fun _ _ => ?_ | refine .fold2 ?_ fun _ _ => ?_ | with_reducible refine MemOk.set_mem _ ?_ ?_ | with_reducible refine MemOk.set_mem _ ?_ ?_

theorem execEthernetFrameRx_memOk (i : Nat) (f : RxFrame) (free : Nat) (s : State) : MemOk s (outState s (execEthernetFrameRx i f free s)) := by
  unfold execEthernetFrameRx
  repeat' first | simp only [outState, MemOk.refl, MemOk.frame (State.udpIn_touches _ _ _ _) (by decide), MemOk.frame (State.bump_touches _ _) (by decide), MemOk.frame (State.fixedTake_touches _ _ _ _) (by decide), MemOk.frame (State.unmatched_touches _ _) (by decide), MemOk.frame (State.malformed_touches _ _) (by decide), MemOk.frame (State.pmuEvent_touches _ _ _) (by decide), MemOk.frame (State.sticky_touches _ _ _) (by decide)] | split | exact .of id | exact id | exact .of (Memory.wf_filter _ _) | exact .of (Memory.wf_write _ _ _) | dsimp only | refine .fold ?_ fun _ _ => ?_ | refine .fold1 ?_ fun _ _ => ?_ | refine .fold2 ?_ fun _ _ => ?_ | with_reducible refine .trans ?_ (State.panicLevel_memOk ..)

theorem execEngineLocalReset_memOk (e inFlight : Nat) (s : State) : MemOk s (outState s (execEngineLocalReset e inFlight s)) := by
  unfold execEngineLocalReset
  repeat' first | simp only [outState, MemOk.refl, MemOk.set_eng, MemOk.frame (State.updChan_touches _ _ _) (by decide), MemOk.frame (State.bump_touches _ _) (by decide), MemOk.frame (State.nextJob_touches _ _) (by decide), MemOk.frame (State.engCount_touches _ _ _ _) (by decide), MemOk.frame (State.raise_touches _ _ _ _ _) (by decide), MemOk.frame (State.failEngine_touches _ _) (by decide)] | split | exact .of id | exact id | exact .of (Memory.wf_filter _ _) | exact .of (Memory.wf_write _ _ _) | dsimp only | refine .fold ?_ fun _ _ => ?_ | refine .fold1 ?_ fun _ _ => ?_ | refine .fold2 ?_ fun _ _ => ?_ | with_reducible refine MemOk.set_mem _ ?_ ?_

theorem execPacketTransmit_memOk (i held : Nat) (s : State) : MemOk s (outState s (execPacketTransmit i held s)) := by
  unfold execPacketTransmit
  repeat' first | simp only [outState, MemOk.refl, MemOk.frame (State.sendFrame_touches _ _ _) (by decide), MemOk.frame (State.settleCredits_touches _ _) (by decide), MemOk.frame (State.sendMedia_touches _ _ _ _ _) (by decide)] | split | exact .of id | exact id | exact .of (Memory.wf_filter _ _) | exact .of (Memory.wf_write _ _ _) | dsimp only | refine .fold ?_ fun _ _ => ?_ | refine .fold1 ?_ fun _ _ => ?_ | refine .fold2 ?_ fun _ _ => ?_ | with_reducible refine .trans ?_ (State.panicLevel_memOk ..)

theorem State.copyFlows_memOk {s t : State} {l : List (Nat × FlowArg)} (h : s.copyFlows l = some t) : MemOk s t :=
  (MemOk.frame (State.copyFlows_touches h) (by decide)).mpr (.refl s)

theorem State.copySurfs_memOk {s t : State} {l : List SurfCopy} (h : s.copySurfs l = some t) : MemOk s t := by
  induction l generalizing s with
  | nil => cases h; exact .refl _
  | cons a r ih =>
    unfold State.copySurfs at h
    split at h
    · exact ih h
    · dsimp only at h
      split at h
      · refine .trans (.trans ?_ (State.hbmWrite_memOk ..)) (ih h)
        exact .of id
      · cases h

theorem State.applyCopy_memOk {s t : State} {k : ChanCopy} (h : s.applyCopy k = some t) : MemOk s t := by
  unfold State.applyCopy at h
  dsimp only at h
  split at h
  · cases h
  · rename_i u hu
    obtain ⟨v, hv, hu⟩ := Option.bind_eq_some_iff.1 hu
    have hs : MemOk s u := (State.copyFlows_memOk hv).trans (State.copySurfs_memOk hu)
    have fr : ∀ {t w : State}, Touches [.regs, .chans, .ext, .surf, .aud, .net, .tx, .txc, .grp] t w → MemOk t w :=
      fun h => (MemOk.frame h (by decide)).mpr (.refl _)
    split at h
    · cases h
      refine hs.trans (fr ?_)
      simp (disch := decide) only [Touches.refl, Touches.set_surf, Touches.via (State.updGch_touches _ _ _),
        Touches.via (State.updTxc_touches _ _ _), Touches.via (State.setChan_touches _ _ _), Touches.via (State.syncMembers_touches _ _),
        Touches.via (State.copyStreams_touches _ _ _), Touches.via (State.clearChanRegs_touches _ _)]
    · split at h
      · cases h
        refine hs.trans (fr ?_)
        simp (disch := decide) only [Touches.refl, Touches.set_surf, Touches.via (State.updGch_touches _ _ _),
          Touches.via (State.updTxc_touches _ _ _), Touches.via (State.setChan_touches _ _ _), Touches.via (State.syncMembers_touches _ _),
          Touches.via (State.copyStreams_touches _ _ _), Touches.via (State.clearChanRegs_touches _ _)]
      · cases h

theorem execCopyRecord_memOk (h : RecHdr) (r : CopyRec) (s : State) : MemOk s (outState s (execCopyRecord h r s)) := by
  have fr : ∀ {l : List Fld} {t w : State}, Touches l t w → .mem ∉ l → MemOk t w := fun h k => (MemOk.frame h k).mpr (.refl _)
  have ht := fr (State.takeBytes_touches s h false (.copy r.chan r.block r.copy r.slot) (copyBody h r)) (by decide)
  unfold execCopyRecord
  simp only [outState]
  refine ht.trans ?_
  repeat' split
  · exact .refl _
  · exact fr (State.restartCopy_touches ..) (by decide)
  · exact fr (State.updGch_touches ..) (by decide)
  · exact .refl _
  · exact State.applyCopy_memOk ‹_›
  · exact (fr (State.updGch_touches ..) (by decide)).trans (fr (State.sticky_touches ..) (by decide))
  · exact fr (State.updChan_touches ..) (by decide)
  · exact .refl _

theorem State.toReady_memOk (s : State) : MemOk s (State.toReady s) := by
  unfold State.toReady
  repeat' first | simp only [MemOk.refl] | split | exact .of id | exact id | exact .of (Memory.wf_filter _ _) | exact .of (Memory.wf_write _ _ _) | dsimp only | refine .fold ?_ fun _ _ => ?_ | refine .fold1 ?_ fun _ _ => ?_ | refine .fold2 ?_ fun _ _ => ?_ | with_reducible refine MemOk.set_dev_pwr_mem _ _ _ ?_ ?_

theorem execHbmRefresh_memOk (s : State) : MemOk s (outState s (execHbmRefresh s)) := by
  unfold execHbmRefresh
  repeat' first | simp only [outState, MemOk.refl] | split | exact .of id | exact id | exact .of (Memory.wf_filter _ _) | exact .of (Memory.wf_write _ _ _) | dsimp only | refine .fold ?_ fun _ _ => ?_ | refine .fold1 ?_ fun _ _ => ?_ | refine .fold2 ?_ fun _ _ => ?_ | with_reducible refine MemOk.set_mem _ ?_ ?_

theorem MemState.readTemps_hbm (m : MemState) (t0 t1 : Option Int) : (m.readTemps t0 t1).hbm = m.hbm := by
  simp only [MemState.readTemps]
  repeat' split
  all_goals rfl

theorem State.readHbm_memOk (s : State) (t0 t1 : Option Int) : MemOk s (State.readHbm s t0 t1) := by
  refine .of fun h => ?_
  show Memory.wf (s.mem.readTemps t0 t1).hbm = true
  rw [MemState.readTemps_hbm]; exact h

theorem execRowIdleClose_memOk (g bank : Nat) (s : State) : MemOk s (outState s (execRowIdleClose g bank s)) := by
  unfold execRowIdleClose
  repeat' first | simp only [outState, MemOk.refl] | split | exact .of id | exact id | exact .of (Memory.wf_filter _ _) | exact .of (Memory.wf_write _ _ _) | dsimp only | refine .fold ?_ fun _ _ => ?_ | refine .fold1 ?_ fun _ _ => ?_ | refine .fold2 ?_ fun _ _ => ?_ | with_reducible refine MemOk.set_mem _ ?_ ?_

theorem execPanicLongTimer_memOk (port : Nat) (s : State) : MemOk s (outState s (execPanicLongTimer port s)) := by
  unfold execPanicLongTimer
  repeat' first | simp only [outState, MemOk.refl, MemOk.frame (State.bump_touches _ _) (by decide), MemOk.frame (State.sticky_touches _ _ _) (by decide)] | split | exact .of id | exact id | exact .of (Memory.wf_filter _ _) | exact .of (Memory.wf_write _ _ _) | dsimp only | refine .fold ?_ fun _ _ => ?_ | refine .fold1 ?_ fun _ _ => ?_ | refine .fold2 ?_ fun _ _ => ?_ | with_reducible refine MemOk.set_mem _ ?_ ?_ | with_reducible refine MemOk.set_mem _ ?_ ?_

theorem State.resetMaster_memOk (s : State) (port n : Nat) : MemOk s (State.resetMaster s port n) := by
  unfold State.resetMaster
  repeat' first | simp only [MemOk.refl, MemOk.frame (State.bump_touches _ _) (by decide)] | split | exact .of id | exact id | exact .of (Memory.wf_filter _ _) | exact .of (Memory.wf_write _ _ _) | dsimp only | refine .fold ?_ fun _ _ => ?_ | refine .fold1 ?_ fun _ _ => ?_ | refine .fold2 ?_ fun _ _ => ?_ | with_reducible refine MemOk.set_mem _ ?_ ?_

theorem execMasterResetRetire_memOk (port : Nat) (s : State) : MemOk s (outState s (execMasterResetRetire port s)) := by
  unfold execMasterResetRetire
  repeat' first | simp only [outState, MemOk.refl] | split | exact .of id | exact id | exact .of (Memory.wf_filter _ _) | exact .of (Memory.wf_write _ _ _) | dsimp only | refine .fold ?_ fun _ _ => ?_ | refine .fold1 ?_ fun _ _ => ?_ | refine .fold2 ?_ fun _ _ => ?_ | with_reducible refine MemOk.set_mem _ ?_ ?_

theorem State.ceStorm_memOk (s : State) (g : Nat) : MemOk s (State.ceStorm s g) := by
  unfold State.ceStorm
  repeat' first | simp only [MemOk.refl, MemOk.frame (State.raise_touches _ _ _ _ _) (by decide), MemOk.frame (State.sticky_touches _ _ _) (by decide)] | split | exact .of id | exact id | exact .of (Memory.wf_filter _ _) | exact .of (Memory.wf_write _ _ _) | dsimp only | refine .fold ?_ fun _ _ => ?_ | refine .fold1 ?_ fun _ _ => ?_ | refine .fold2 ?_ fun _ _ => ?_ | with_reducible refine MemOk.set_mem _ ?_ ?_

theorem State.corrected_memOk (s : State) (a : Nat) (sram : Bool) : MemOk s (State.corrected s a sram) := by
  unfold State.corrected
  repeat' first | simp only [MemOk.refl, MemOk.frame (State.bump_touches _ _) (by decide), MemOk.frame (State.pmuCount_touches _ _ _ _ _) (by decide)] | split | exact .of id | exact id | exact .of (Memory.wf_filter _ _) | exact .of (Memory.wf_write _ _ _) | dsimp only | refine .fold ?_ fun _ _ => ?_ | refine .fold1 ?_ fun _ _ => ?_ | refine .fold2 ?_ fun _ _ => ?_ | with_reducible refine .trans ?_ (State.ceStorm_memOk ..)

theorem execEccCorrectedError_memOk (a : Nat) (sram : Bool) (s : State) : MemOk s (outState s (execEccCorrectedError a sram s)) := by
  unfold execEccCorrectedError
  repeat' first | simp only [outState, MemOk.refl] | split | exact .of id | exact id | exact .of (Memory.wf_filter _ _) | exact .of (Memory.wf_write _ _ _) | dsimp only | refine .fold ?_ fun _ _ => ?_ | refine .fold1 ?_ fun _ _ => ?_ | refine .fold2 ?_ fun _ _ => ?_ | with_reducible refine .trans ?_ (State.corrected_memOk ..)

theorem State.uncorrectable_memOk (s : State) (a : Nat) (sram : Bool) (f : FaultSource) : MemOk s (State.uncorrectable s a sram f) := by
  unfold State.uncorrectable
  repeat' first | simp only [MemOk.refl, MemOk.frame (State.bump_touches _ _) (by decide), MemOk.frame (State.captureFault_touches _ _ _ _ _ _ _) (by decide), MemOk.frame (State.raise_touches _ _ _ _ _) (by decide), MemOk.frame (State.pmuCount_touches _ _ _ _ _) (by decide), MemOk.frame (State.sticky_touches _ _ _) (by decide)] | split | exact .of id | exact id | exact .of (Memory.wf_filter _ _) | exact .of (Memory.wf_write _ _ _) | dsimp only | refine .fold ?_ fun _ _ => ?_ | refine .fold1 ?_ fun _ _ => ?_ | refine .fold2 ?_ fun _ _ => ?_ | with_reducible refine MemOk.set_mem _ ?_ ?_

theorem execEccUncorrectableError_memOk (a : Nat) (sram : Bool) (fault : FaultSource) (user : PoisonUser) (s : State) : MemOk s (outState s (execEccUncorrectableError a sram fault user s)) := by
  unfold execEccUncorrectableError
  repeat' first | simp only [outState, MemOk.refl, MemOk.frame (State.consumePoison_touches _ _) (by decide), MemOk.frame (State.settleShutdown_touches _) (by decide)] | split | exact .of id | exact id | exact .of (Memory.wf_filter _ _) | exact .of (Memory.wf_write _ _ _) | dsimp only | refine .fold ?_ fun _ _ => ?_ | refine .fold1 ?_ fun _ _ => ?_ | refine .fold2 ?_ fun _ _ => ?_ | with_reducible refine .trans ?_ (State.uncorrectable_memOk ..)

theorem execScrubRead_memOk (a : Nat) (sram : Bool) (res : EccResult) (s : State) : MemOk s (outState s (execScrubRead a sram res s)) := by
  unfold execScrubRead
  simp -zeta -zetaHave only [outState]
  extract_lets f s1 b m s2
  have h1 : MemOk s s1 := by
    unfold s1
    split
    · exact .refl s
    · exact .refl s
    · exact State.corrected_memOk ..
    · exact .trans (t := { s with fresh := s.fresh + 1 }) (.of id) (State.uncorrectable_memOk _ a sram _)
  split
  · exact h1
  · refine h1.trans (.trans (t := s2) (.of id) ?_)
    exact (MemOk.frame (State.when_touches (l := [.regs]) (fun t => State.bump_touches t _) s2 _) (by decide)).mpr (.refl _)

theorem execHostHbmAccess_memOk (a len : Nat) (data : Option (List Byte)) (s : State) : MemOk s (outState s (execHostHbmAccess a len data s)) := by
  unfold execHostHbmAccess
  repeat' first | simp only [outState, MemOk.refl, MemOk.set_fresh, MemOk.frame (State.badAccess_touches _) (by decide), MemOk.frame (State.fwViolation_touches _ _ _ _ _ _) (by decide), MemOk.frame (State.unsupported_touches _) (by decide), MemOk.frame (State.emit_touches _ _) (by decide)] | split | exact .of id | exact id | exact .of (Memory.wf_filter _ _) | exact .of (Memory.wf_write _ _ _) | dsimp only | refine .fold ?_ fun _ _ => ?_ | refine .fold1 ?_ fun _ _ => ?_ | refine .fold2 ?_ fun _ _ => ?_ | with_reducible refine .trans ?_ (State.hbmWrite_memOk ..)

theorem execMooredEntry_memOk (s : State) : MemOk s (outState s (execMooredEntry s)) := by
  unfold execMooredEntry
  repeat' first | simp only [outState, MemOk.refl] | split | exact .of id | exact id | exact .of (Memory.wf_filter _ _) | exact .of (Memory.wf_write _ _ _) | dsimp only | refine .fold ?_ fun _ _ => ?_ | refine .fold1 ?_ fun _ _ => ?_ | refine .fold2 ?_ fun _ _ => ?_ | with_reducible refine MemOk.set_dev_pwr_mem _ _ _ ?_ ?_

theorem State.chkAppend_memOk (s : State) (a : Nat) (b : List Byte) : MemOk s (State.chkAppend s a b) := by
  unfold State.chkAppend
  repeat' first | simp only [MemOk.refl, MemOk.frame (State.fwViolation_touches _ _ _ _ _ _) (by decide), MemOk.frame (State.decodeError_touches _ _ _ _ _) (by decide)] | split | exact .of id | exact id | exact .of (Memory.wf_filter _ _) | exact .of (Memory.wf_write _ _ _) | dsimp only | refine .fold ?_ fun _ _ => ?_ | refine .fold1 ?_ fun _ _ => ?_ | refine .fold2 ?_ fun _ _ => ?_ | with_reducible refine .trans ?_ (State.hbmWrite_memOk ..)

theorem execChkScanEnd_memOk (u : Nat) (early : Bool) (s : State) : MemOk s (outState s (execChkScanEnd u early s)) := by
  unfold execChkScanEnd
  repeat' first | simp only [outState, MemOk.refl, MemOk.set_fresh, MemOk.frame (State.updChk_touches _ _ _) (by decide), MemOk.frame (State.chkStop_touches _ _ _ _) (by decide), MemOk.frame (State.refusedRead_touches _ _) (by decide)] | split | exact .of id | exact id | exact .of (Memory.wf_filter _ _) | exact .of (Memory.wf_write _ _ _) | dsimp only | refine .fold ?_ fun _ _ => ?_ | refine .fold1 ?_ fun _ _ => ?_ | refine .fold2 ?_ fun _ _ => ?_ | with_reducible refine .trans ?_ (State.chkAppend_memOk ..)

theorem State.dumpWrite_memOk (s : State) (trigger pic len : Nat) (r : Nat × Nat) : MemOk s (State.dumpWrite s trigger pic len r) := by
  unfold State.dumpWrite
  repeat' first | simp only [MemOk.refl, MemOk.set_pmu, MemOk.frame (State.bump_touches _ _) (by decide), MemOk.frame (State.wr_touches _ _ _) (by decide), MemOk.frame (State.signal_touches _ _) (by decide)] | split | exact .of id | exact id | exact .of (Memory.wf_filter _ _) | exact .of (Memory.wf_write _ _ _) | dsimp only | refine .fold ?_ fun _ _ => ?_ | refine .fold1 ?_ fun _ _ => ?_ | refine .fold2 ?_ fun _ _ => ?_ | with_reducible refine .trans ?_ (State.hbmWrite_memOk ..)

theorem execPmuDumpTrigger_memOk (trigger pic : Nat) (busy : Bool) (s : State) : MemOk s (outState s (execPmuDumpTrigger trigger pic busy s)) := by
  unfold execPmuDumpTrigger
  repeat' first | simp only [outState, MemOk.refl, MemOk.set_pmu, MemOk.frame (State.dumpRestart_touches _) (by decide), MemOk.frame (State.bump_touches _ _) (by decide)] | split | exact .of id | exact id | exact .of (Memory.wf_filter _ _) | exact .of (Memory.wf_write _ _ _) | dsimp only | refine .fold ?_ fun _ _ => ?_ | refine .fold1 ?_ fun _ _ => ?_ | refine .fold2 ?_ fun _ _ => ?_ | with_reducible refine .trans ?_ (State.dumpWrite_memOk ..)

theorem State.doCalRead_memOk (s : State) (surf : Nat) : MemOk s (State.doCalRead s surf).st := by
  unfold State.doCalRead
  repeat' first | simp only [MemOk.refl, State.reply_st] | split | exact .of id | exact id | exact .of (Memory.wf_filter _ _) | exact .of (Memory.wf_write _ _ _) | dsimp only | refine .fold ?_ fun _ _ => ?_ | refine .fold1 ?_ fun _ _ => ?_ | refine .fold2 ?_ fun _ _ => ?_ | with_reducible refine .trans ?_ (State.hbmWrite_memOk ..)

theorem State.body_memOk (s : State) (x : CmdCtx) (a2 : Payload) : MemOk s (State.body s x a2).st := by
  unfold State.body
  repeat' first | simp only [MemOk.refl, MemOk.frame (State.doTxQueueConfig_touches _ _) (by decide), MemOk.frame (State.doGroupLeave_touches _) (by decide), MemOk.frame (State.doAudioPortStop_touches _ _) (by decide), MemOk.frame (State.doChannelCommit_touches _ _) (by decide), MemOk.frame (State.doLaneConfig_touches _ _) (by decide), MemOk.frame (State.doFlowAdd_touches _ _) (by decide), MemOk.frame (State.doChainEnumerate_touches _) (by decide), MemOk.frame (State.doGroupHandover_touches _ _) (by decide), MemOk.frame (State.doTimeAcceptStep_touches _ _) (by decide), MemOk.frame (State.doFirmwareWrite_touches _ _) (by decide), MemOk.frame (State.doKeyWrite_touches _ _) (by decide), MemOk.frame (State.doDeviceConfigure_touches _ _) (by decide), MemOk.frame (State.doAudioClock_touches _ _) (by decide), MemOk.frame (State.doProtectedLoad_touches _ _ _) (by decide), MemOk.frame (State.doSessionProve_touches _ _) (by decide), MemOk.frame (State.doCuAssign_touches _ _) (by decide), MemOk.frame (State.doCalWrite_touches _ _) (by decide), MemOk.frame (State.doProtectedRemove_touches _ _ _) (by decide), MemOk.frame (State.doChainBudget_touches _ _) (by decide), MemOk.frame (State.doCompletionFetch_touches _ _ _) (by decide), MemOk.frame (State.doAudioPortConfig_touches _ _) (by decide), MemOk.frame (State.doFlipSubmit_touches _ _) (by decide), MemOk.frame (State.doRoiSet_touches _ _) (by decide), MemOk.frame (State.doAudioPortStart_touches _ _) (by decide), MemOk.frame (State.doChannelSet_touches _ _) (by decide), MemOk.frame (State.doTimeServoConfig_touches _ _) (by decide), MemOk.frame (State.doGroupForm_touches _ _) (by decide), MemOk.frame (State.doAudioRoute_touches _ _) (by decide), MemOk.frame (State.doChannelStart_touches _ _) (by decide), MemOk.frame (State.doGateListSet_touches _ _) (by decide), MemOk.frame (State.doSurfaceFree_touches _ _) (by decide), MemOk.frame (State.doRoiClear_touches _ _) (by decide), MemOk.frame (State.doEventLogFetch_touches _ _) (by decide), MemOk.frame (State.doDeviceInfo_touches _) (by decide), MemOk.frame (State.doSessionClose_touches _ _) (by decide), MemOk.frame (State.doTimeConfig_touches _ _) (by decide), MemOk.frame (State.doLtrMark_touches _ _) (by decide), MemOk.frame (State.doLifecycleSet_touches _ _) (by decide), MemOk.frame (State.doTimePpsConfig_touches _ _) (by decide), MemOk.frame (State.doAudioStreamConfig_touches _ _) (by decide), MemOk.frame (State.doChannelStop_touches _ _) (by decide), MemOk.frame (State.doAudioStreamDelete_touches _ _) (by decide), MemOk.frame (State.doSurfaceAlloc_touches _ _) (by decide), MemOk.frame (State.doPowerBudget_touches _ _) (by decide), MemOk.frame (State.doNetAddress_touches _ _) (by decide), MemOk.frame (State.doSessionOpen_touches _ _) (by decide), MemOk.frame (State.doExtStreamDelete_touches _ _) (by decide), MemOk.frame (State.doShutdown_touches _ _) (by decide), MemOk.frame (State.doChannelDelete_touches _ _) (by decide), MemOk.frame (State.doExtStreamDefine_touches _ _) (by decide), MemOk.frame (State.doTonemapLoad_touches _ _) (by decide), MemOk.frame (State.doLtrRelease_touches _ _) (by decide), MemOk.frame (State.doGroupJoin_touches _ _) (by decide), MemOk.frame (State.doChannelRefresh_touches _ _) (by decide), MemOk.frame (State.doChannelDefine_touches _ _) (by decide), MemOk.frame (State.doFlowDelete_touches _ _) (by decide), MemOk.frame (State.doAudioAlignGroup_touches _ _) (by decide), MemOk.frame (State.doPortConfig_touches _ _) (by decide)] | split | exact .of id | exact id | exact .of (Memory.wf_filter _ _) | exact .of (Memory.wf_write _ _ _) | dsimp only | refine .fold ?_ fun _ _ => ?_ | refine .fold1 ?_ fun _ _ => ?_ | refine .fold2 ?_ fun _ _ => ?_ | with_reducible refine .trans ?_ (State.doCalRead_memOk ..)

theorem State.checkedBody_memOk (s : State) (h : CmdHdr) (x : CmdCtx) (p : Payload) : MemOk s (State.checkedBody s h x p).st := by
  unfold State.checkedBody
  repeat' first | simp only [MemOk.refl] | split | exact .of id | exact id | exact .of (Memory.wf_filter _ _) | exact .of (Memory.wf_write _ _ _) | dsimp only | refine .fold ?_ fun _ _ => ?_ | refine .fold1 ?_ fun _ _ => ?_ | refine .fold2 ?_ fun _ _ => ?_ | with_reducible refine .trans ?_ (State.body_memOk ..)

theorem State.bringReady_memOk (s : State) (h : CmdHdr) (x : CmdCtx) (p : Payload) : MemOk s (State.bringReady s h x p).st := by
  unfold State.bringReady
  repeat' first | simp only [MemOk.refl] | split | exact .of id | exact id | exact .of (Memory.wf_filter _ _) | exact .of (Memory.wf_write _ _ _) | dsimp only | refine .fold ?_ fun _ _ => ?_ | refine .fold1 ?_ fun _ _ => ?_ | refine .fold2 ?_ fun _ _ => ?_ | with_reducible refine .trans ?_ (State.checkedBody_memOk ..) | with_reducible refine .trans ?_ (State.toReady_memOk ..)

theorem State.execute_memOk (s : State) (h : CmdHdr) (x : CmdCtx) (p : Payload) : MemOk s (State.execute s h x p).st := by
  unfold State.execute
  repeat' first | simp only [MemOk.refl, MemOk.frame (State.stopTest_touches _) (by decide)] | split | exact .of id | exact id | exact .of (Memory.wf_filter _ _) | exact .of (Memory.wf_write _ _ _) | dsimp only | refine .fold ?_ fun _ _ => ?_ | refine .fold1 ?_ fun _ _ => ?_ | refine .fold2 ?_ fun _ _ => ?_ | with_reducible refine .trans ?_ (State.checkedBody_memOk ..) | with_reducible refine .trans ?_ (State.bringReady_memOk ..)

theorem State.runCommand_memOk (s : State) (h : CmdHdr) (p : Payload) : MemOk s (State.runCommand s h p) := by
  unfold State.runCommand
  split
  · exact .refl _
  · split
    · exact .refl _
    · refine .trans ((MemOk.frame (State.serveWord_touches s h.pair) (by decide)).mpr (.refl _)) ?_
      dsimp only
      split
      · exact (MemOk.frame (State.refuseWord_touches _ _ _ _) (by decide)).mpr (.refl _)
      · split
        · exact (MemOk.frame (State.complete_touches _ _ _ _) (by decide)).mpr (.refl _)
        · split
          · exact (MemOk.frame (State.runForward_touches _ _ _ _ _ _) (by decide)).mpr (.refl _)
          · exact State.runHere_memOk _ _ _ _ fun t => State.execute_memOk ..

theorem State.settleService_memOk (s : State) : MemOk s (State.settleService s) := by
  unfold State.settleService
  repeat' first | simp only [MemOk.refl, MemOk.set_mbx, MemOk.frame (HeldCmd.answer_touches _ _) (by decide)] | split | exact .of id | exact id | exact .of (Memory.wf_filter _ _) | exact .of (Memory.wf_write _ _ _) | dsimp only | refine .fold ?_ fun _ _ => ?_ | refine .fold1 ?_ fun _ _ => ?_ | refine .fold2 ?_ fun _ _ => ?_ | with_reducible refine .trans ?_ (State.bringReady_memOk ..)

theorem State.settle_memOk (s : State) : MemOk s (State.settle s) := by
  unfold State.settle
  repeat' first | simp only [MemOk.refl, MemOk.frame (State.settleShutdown_touches _) (by decide)] | split | exact .of id | exact id | exact .of (Memory.wf_filter _ _) | exact .of (Memory.wf_write _ _ _) | dsimp only | refine .fold ?_ fun _ _ => ?_ | refine .fold1 ?_ fun _ _ => ?_ | refine .fold2 ?_ fun _ _ => ?_ | with_reducible refine .trans ?_ (State.settleService_memOk ..)

theorem State.ratCommand_memOk (s : State) (src : Nat) (c : CmdHdr) (slot roles : Nat) (p : Payload) : MemOk s (State.ratCommand s src c slot roles p) := by
  exact State.runHere_memOk _ _ _ _ fun t => State.execute_memOk ..

theorem State.takeWaiting_memOk (s : State) (f : RatFrame) : MemOk s (State.takeWaiting s f) := by
  unfold State.takeWaiting
  repeat' first | simp only [MemOk.refl, MemOk.frame (State.ratHandle_touches _ _ _) (by decide)] | split | exact .of id | exact id | exact .of (Memory.wf_filter _ _) | exact .of (Memory.wf_write _ _ _) | dsimp only | refine .fold ?_ fun _ _ => ?_ | refine .fold1 ?_ fun _ _ => ?_ | refine .fold2 ?_ fun _ _ => ?_ | with_reducible refine .trans ?_ (State.ratCommand_memOk ..)

theorem State.drainRing_memOk (a0 : Nat) (a1 : State) : MemOk a1 (State.drainRing a0 a1) := by
  induction a0 generalizing a1 with
  | zero => exact .of id
  | succ k ih =>
    unfold State.drainRing
    repeat' first | simp only [MemOk.refl, MemOk.set_rat] | split | exact .of id | exact id | exact .of (Memory.wf_filter _ _) | exact .of (Memory.wf_write _ _ _) | dsimp only | refine .fold ?_ fun _ _ => ?_ | refine .fold1 ?_ fun _ _ => ?_ | refine .fold2 ?_ fun _ _ => ?_ | with_reducible refine .trans ?_ (ih ..) | with_reducible refine .trans ?_ (State.takeWaiting_memOk ..)

theorem execRatlineCommand_memOk (h : RatHdr) (c : CmdHdr) (slot roles : Nat) (p : Payload) (s : State) : MemOk s (outState s (execRatlineCommand h c slot roles p s)) := by
  have fr : ∀ {l : List Fld} {t w : State}, Touches l t w → .mem ∉ l → MemOk t w := fun h k => (MemOk.frame h k).mpr (.refl _)
  unfold execRatlineCommand
  simp -zeta -zetaHave only [outState]
  extract_lets m l t s1
  have hl : MemOk s l.1 := fr (State.ratLinkIn_touches ..) (by decide)
  have ht : MemOk s t.st := by
    unfold t; split
    · exact hl.trans (fr (State.ratReceive_touches ..) (by decide))
    · exact hl
  have hs : MemOk s s1 := ht.trans (State.drainRing_memOk ..)
  split
  · split
    · exact hs.trans (fr (State.resendCompletion_touches ..) (by decide))
    · exact hs
  · split
    · exact hs
    · split
      · exact hs.trans (fr (State.bump_touches ..) (by decide))
      · split
        · exact hs.trans (State.ratCommand_memOk ..)
        · exact hs.trans (fr (State.ratWait_touches ..) (by decide))

theorem execSelftestBlockEnd_memOk (block : Nat) (pass : Bool) (s : State) : MemOk s (outState s (execSelftestBlockEnd block pass s)) := by
  unfold execSelftestBlockEnd
  repeat' first | simp only [outState, MemOk.refl, MemOk.frame (State.blockEnd_touches _ _ _) (by decide)] | split | exact .of id | exact id | exact .of (Memory.wf_filter _ _) | exact .of (Memory.wf_write _ _ _) | dsimp only | refine .fold ?_ fun _ _ => ?_ | refine .fold1 ?_ fun _ _ => ?_ | refine .fold2 ?_ fun _ _ => ?_ | with_reducible refine .trans ?_ (State.settleService_memOk ..)

theorem execTestGrantTimeout_memOk (s : State) : MemOk s (outState s (execTestGrantTimeout s)) := by
  unfold execTestGrantTimeout
  repeat' first | simp only [outState, MemOk.refl, MemOk.frame (State.grantTimeout_touches _) (by decide)] | split | exact .of id | exact id | exact .of (Memory.wf_filter _ _) | exact .of (Memory.wf_write _ _ _) | dsimp only | refine .fold ?_ fun _ _ => ?_ | refine .fold1 ?_ fun _ _ => ?_ | refine .fold2 ?_ fun _ _ => ?_ | with_reducible refine .trans ?_ (State.settleService_memOk ..)

theorem execThermalTrip_memOk (sensor : Nat) (temp : Int) (s : State) : MemOk s (outState s (execThermalTrip sensor temp s)) := by
  unfold execThermalTrip
  repeat' first | simp only [outState, MemOk.refl, MemOk.frame (State.trip_touches _ _ _ _) (by decide)] | split | exact .of id | exact id | exact .of (Memory.wf_filter _ _) | exact .of (Memory.wf_write _ _ _) | dsimp only | refine .fold ?_ fun _ _ => ?_ | refine .fold1 ?_ fun _ _ => ?_ | refine .fold2 ?_ fun _ _ => ?_ | with_reducible refine .trans ?_ (State.settle_memOk ..)

theorem execHbmTempRead_memOk (t0 t1 : Option Int) (s : State) : MemOk s (outState s (execHbmTempRead t0 t1 s)) := by
  unfold execHbmTempRead
  repeat' first | simp only [outState, MemOk.refl, MemOk.frame (State.overTemp_touches _) (by decide)] | split | exact .of id | exact id | exact .of (Memory.wf_filter _ _) | exact .of (Memory.wf_write _ _ _) | dsimp only | refine .fold ?_ fun _ _ => ?_ | refine .fold1 ?_ fun _ _ => ?_ | refine .fold2 ?_ fun _ _ => ?_ | with_reducible refine .trans ?_ (State.settle_memOk ..) | with_reducible refine .trans ?_ (State.readHbm_memOk ..)

theorem execSessionOpen_memOk (h : CmdHdr) (p : SessionOpenArg) (s : State) : MemOk s (outState s (execSessionOpen h p s)) := by
  unfold execSessionOpen
  repeat' first | simp only [outState, MemOk.refl] | split | exact .of id | exact id | exact .of (Memory.wf_filter _ _) | exact .of (Memory.wf_write _ _ _) | dsimp only | refine .fold ?_ fun _ _ => ?_ | refine .fold1 ?_ fun _ _ => ?_ | refine .fold2 ?_ fun _ _ => ?_ | with_reducible refine .trans ?_ (State.runCommand_memOk ..)

theorem execSessionProve_memOk (h : CmdHdr) (p : SessionProveArg) (s : State) : MemOk s (outState s (execSessionProve h p s)) := by
  unfold execSessionProve
  repeat' first | simp only [outState, MemOk.refl] | split | exact .of id | exact id | exact .of (Memory.wf_filter _ _) | exact .of (Memory.wf_write _ _ _) | dsimp only | refine .fold ?_ fun _ _ => ?_ | refine .fold1 ?_ fun _ _ => ?_ | refine .fold2 ?_ fun _ _ => ?_ | with_reducible refine .trans ?_ (State.runCommand_memOk ..)

theorem execSessionClose_memOk (h : CmdHdr) (s : State) : MemOk s (outState s (execSessionClose h s)) := by
  unfold execSessionClose
  repeat' first | simp only [outState, MemOk.refl] | split | exact .of id | exact id | exact .of (Memory.wf_filter _ _) | exact .of (Memory.wf_write _ _ _) | dsimp only | refine .fold ?_ fun _ _ => ?_ | refine .fold1 ?_ fun _ _ => ?_ | refine .fold2 ?_ fun _ _ => ?_ | with_reducible refine .trans ?_ (State.runCommand_memOk ..)

theorem execCompletionFetch_memOk (h : CmdHdr) (p : Nat) (s : State) : MemOk s (outState s (execCompletionFetch h p s)) := by
  unfold execCompletionFetch
  repeat' first | simp only [outState, MemOk.refl] | split | exact .of id | exact id | exact .of (Memory.wf_filter _ _) | exact .of (Memory.wf_write _ _ _) | dsimp only | refine .fold ?_ fun _ _ => ?_ | refine .fold1 ?_ fun _ _ => ?_ | refine .fold2 ?_ fun _ _ => ?_ | with_reducible refine .trans ?_ (State.runCommand_memOk ..)

theorem execKeyWrite_memOk (h : CmdHdr) (p : KeyWriteArg) (s : State) : MemOk s (outState s (execKeyWrite h p s)) := by
  unfold execKeyWrite
  repeat' first | simp only [outState, MemOk.refl] | split | exact .of id | exact id | exact .of (Memory.wf_filter _ _) | exact .of (Memory.wf_write _ _ _) | dsimp only | refine .fold ?_ fun _ _ => ?_ | refine .fold1 ?_ fun _ _ => ?_ | refine .fold2 ?_ fun _ _ => ?_ | with_reducible refine .trans ?_ (State.runCommand_memOk ..)

theorem execDeviceInfo_memOk (h : CmdHdr) (s : State) : MemOk s (outState s (execDeviceInfo h s)) := by
  unfold execDeviceInfo
  repeat' first | simp only [outState, MemOk.refl] | split | exact .of id | exact id | exact .of (Memory.wf_filter _ _) | exact .of (Memory.wf_write _ _ _) | dsimp only | refine .fold ?_ fun _ _ => ?_ | refine .fold1 ?_ fun _ _ => ?_ | refine .fold2 ?_ fun _ _ => ?_ | with_reducible refine .trans ?_ (State.runCommand_memOk ..)

theorem execDeviceConfigure_memOk (h : CmdHdr) (p : ChArg) (s : State) : MemOk s (outState s (execDeviceConfigure h p s)) := by
  unfold execDeviceConfigure
  repeat' first | simp only [outState, MemOk.refl] | split | exact .of id | exact id | exact .of (Memory.wf_filter _ _) | exact .of (Memory.wf_write _ _ _) | dsimp only | refine .fold ?_ fun _ _ => ?_ | refine .fold1 ?_ fun _ _ => ?_ | refine .fold2 ?_ fun _ _ => ?_ | with_reducible refine .trans ?_ (State.runCommand_memOk ..)

theorem execPowerBudget_memOk (h : CmdHdr) (p : Nat) (s : State) : MemOk s (outState s (execPowerBudget h p s)) := by
  unfold execPowerBudget
  repeat' first | simp only [outState, MemOk.refl] | split | exact .of id | exact id | exact .of (Memory.wf_filter _ _) | exact .of (Memory.wf_write _ _ _) | dsimp only | refine .fold ?_ fun _ _ => ?_ | refine .fold1 ?_ fun _ _ => ?_ | refine .fold2 ?_ fun _ _ => ?_ | with_reducible refine .trans ?_ (State.runCommand_memOk ..)

theorem execShutdown_memOk (h : CmdHdr) (p : ChArg) (s : State) : MemOk s (outState s (execShutdown h p s)) := by
  unfold execShutdown
  repeat' first | simp only [outState, MemOk.refl] | split | exact .of id | exact id | exact .of (Memory.wf_filter _ _) | exact .of (Memory.wf_write _ _ _) | dsimp only | refine .fold ?_ fun _ _ => ?_ | refine .fold1 ?_ fun _ _ => ?_ | refine .fold2 ?_ fun _ _ => ?_ | with_reducible refine .trans ?_ (State.runCommand_memOk ..)

theorem execCalRead_memOk (h : CmdHdr) (p : Nat) (s : State) : MemOk s (outState s (execCalRead h p s)) := by
  unfold execCalRead
  repeat' first | simp only [outState, MemOk.refl] | split | exact .of id | exact id | exact .of (Memory.wf_filter _ _) | exact .of (Memory.wf_write _ _ _) | dsimp only | refine .fold ?_ fun _ _ => ?_ | refine .fold1 ?_ fun _ _ => ?_ | refine .fold2 ?_ fun _ _ => ?_ | with_reducible refine .trans ?_ (State.runCommand_memOk ..)

theorem execCalWrite_memOk (h : CmdHdr) (p : CalWriteArg) (s : State) : MemOk s (outState s (execCalWrite h p s)) := by
  unfold execCalWrite
  repeat' first | simp only [outState, MemOk.refl] | split | exact .of id | exact id | exact .of (Memory.wf_filter _ _) | exact .of (Memory.wf_write _ _ _) | dsimp only | refine .fold ?_ fun _ _ => ?_ | refine .fold1 ?_ fun _ _ => ?_ | refine .fold2 ?_ fun _ _ => ?_ | with_reducible refine .trans ?_ (State.runCommand_memOk ..)

theorem execFirmwareWrite_memOk (h : CmdHdr) (p : FirmwareWriteArg) (s : State) : MemOk s (outState s (execFirmwareWrite h p s)) := by
  unfold execFirmwareWrite
  repeat' first | simp only [outState, MemOk.refl] | split | exact .of id | exact id | exact .of (Memory.wf_filter _ _) | exact .of (Memory.wf_write _ _ _) | dsimp only | refine .fold ?_ fun _ _ => ?_ | refine .fold1 ?_ fun _ _ => ?_ | refine .fold2 ?_ fun _ _ => ?_ | with_reducible refine .trans ?_ (State.runCommand_memOk ..)

theorem execLifecycleSet_memOk (h : CmdHdr) (p : LifecycleSetArg) (s : State) : MemOk s (outState s (execLifecycleSet h p s)) := by
  unfold execLifecycleSet
  repeat' first | simp only [outState, MemOk.refl] | split | exact .of id | exact id | exact .of (Memory.wf_filter _ _) | exact .of (Memory.wf_write _ _ _) | dsimp only | refine .fold ?_ fun _ _ => ?_ | refine .fold1 ?_ fun _ _ => ?_ | refine .fold2 ?_ fun _ _ => ?_ | with_reducible refine .trans ?_ (State.runCommand_memOk ..)

theorem execTimeConfig_memOk (h : CmdHdr) (p : TimeConfigArg) (s : State) : MemOk s (outState s (execTimeConfig h p s)) := by
  unfold execTimeConfig
  repeat' first | simp only [outState, MemOk.refl] | split | exact .of id | exact id | exact .of (Memory.wf_filter _ _) | exact .of (Memory.wf_write _ _ _) | dsimp only | refine .fold ?_ fun _ _ => ?_ | refine .fold1 ?_ fun _ _ => ?_ | refine .fold2 ?_ fun _ _ => ?_ | with_reducible refine .trans ?_ (State.runCommand_memOk ..)

theorem execTimeServoConfig_memOk (h : CmdHdr) (p : TimeServoArg) (s : State) : MemOk s (outState s (execTimeServoConfig h p s)) := by
  unfold execTimeServoConfig
  repeat' first | simp only [outState, MemOk.refl] | split | exact .of id | exact id | exact .of (Memory.wf_filter _ _) | exact .of (Memory.wf_write _ _ _) | dsimp only | refine .fold ?_ fun _ _ => ?_ | refine .fold1 ?_ fun _ _ => ?_ | refine .fold2 ?_ fun _ _ => ?_ | with_reducible refine .trans ?_ (State.runCommand_memOk ..)

theorem execTimeAcceptStep_memOk (h : CmdHdr) (p : TimeField) (s : State) : MemOk s (outState s (execTimeAcceptStep h p s)) := by
  unfold execTimeAcceptStep
  repeat' first | simp only [outState, MemOk.refl] | split | exact .of id | exact id | exact .of (Memory.wf_filter _ _) | exact .of (Memory.wf_write _ _ _) | dsimp only | refine .fold ?_ fun _ _ => ?_ | refine .fold1 ?_ fun _ _ => ?_ | refine .fold2 ?_ fun _ _ => ?_ | with_reducible refine .trans ?_ (State.runCommand_memOk ..)

theorem execTimePpsConfig_memOk (h : CmdHdr) (p : TimePpsArg) (s : State) : MemOk s (outState s (execTimePpsConfig h p s)) := by
  unfold execTimePpsConfig
  repeat' first | simp only [outState, MemOk.refl] | split | exact .of id | exact id | exact .of (Memory.wf_filter _ _) | exact .of (Memory.wf_write _ _ _) | dsimp only | refine .fold ?_ fun _ _ => ?_ | refine .fold1 ?_ fun _ _ => ?_ | refine .fold2 ?_ fun _ _ => ?_ | with_reducible refine .trans ?_ (State.runCommand_memOk ..)

theorem execPortConfig_memOk (h : CmdHdr) (p : PortConfigArg) (s : State) : MemOk s (outState s (execPortConfig h p s)) := by
  unfold execPortConfig
  repeat' first | simp only [outState, MemOk.refl] | split | exact .of id | exact id | exact .of (Memory.wf_filter _ _) | exact .of (Memory.wf_write _ _ _) | dsimp only | refine .fold ?_ fun _ _ => ?_ | refine .fold1 ?_ fun _ _ => ?_ | refine .fold2 ?_ fun _ _ => ?_ | with_reducible refine .trans ?_ (State.runCommand_memOk ..)

theorem execNetAddress_memOk (h : CmdHdr) (p : NetAddressArg) (s : State) : MemOk s (outState s (execNetAddress h p s)) := by
  unfold execNetAddress
  repeat' first | simp only [outState, MemOk.refl] | split | exact .of id | exact id | exact .of (Memory.wf_filter _ _) | exact .of (Memory.wf_write _ _ _) | dsimp only | refine .fold ?_ fun _ _ => ?_ | refine .fold1 ?_ fun _ _ => ?_ | refine .fold2 ?_ fun _ _ => ?_ | with_reducible refine .trans ?_ (State.runCommand_memOk ..)

theorem execFlowAdd_memOk (h : CmdHdr) (p : FlowArg) (s : State) : MemOk s (outState s (execFlowAdd h p s)) := by
  unfold execFlowAdd
  repeat' first | simp only [outState, MemOk.refl] | split | exact .of id | exact id | exact .of (Memory.wf_filter _ _) | exact .of (Memory.wf_write _ _ _) | dsimp only | refine .fold ?_ fun _ _ => ?_ | refine .fold1 ?_ fun _ _ => ?_ | refine .fold2 ?_ fun _ _ => ?_ | with_reducible refine .trans ?_ (State.runCommand_memOk ..)

theorem execFlowDelete_memOk (h : CmdHdr) (p : Nat) (s : State) : MemOk s (outState s (execFlowDelete h p s)) := by
  unfold execFlowDelete
  repeat' first | simp only [outState, MemOk.refl] | split | exact .of id | exact id | exact .of (Memory.wf_filter _ _) | exact .of (Memory.wf_write _ _ _) | dsimp only | refine .fold ?_ fun _ _ => ?_ | refine .fold1 ?_ fun _ _ => ?_ | refine .fold2 ?_ fun _ _ => ?_ | with_reducible refine .trans ?_ (State.runCommand_memOk ..)

theorem execTxQueueConfig_memOk (h : CmdHdr) (p : TxQueueArg) (s : State) : MemOk s (outState s (execTxQueueConfig h p s)) := by
  unfold execTxQueueConfig
  repeat' first | simp only [outState, MemOk.refl] | split | exact .of id | exact id | exact .of (Memory.wf_filter _ _) | exact .of (Memory.wf_write _ _ _) | dsimp only | refine .fold ?_ fun _ _ => ?_ | refine .fold1 ?_ fun _ _ => ?_ | refine .fold2 ?_ fun _ _ => ?_ | with_reducible refine .trans ?_ (State.runCommand_memOk ..)

theorem execGateListSet_memOk (h : CmdHdr) (p : GateListArg) (s : State) : MemOk s (outState s (execGateListSet h p s)) := by
  unfold execGateListSet
  repeat' first | simp only [outState, MemOk.refl] | split | exact .of id | exact id | exact .of (Memory.wf_filter _ _) | exact .of (Memory.wf_write _ _ _) | dsimp only | refine .fold ?_ fun _ _ => ?_ | refine .fold1 ?_ fun _ _ => ?_ | refine .fold2 ?_ fun _ _ => ?_ | with_reducible refine .trans ?_ (State.runCommand_memOk ..)

theorem execLaneConfig_memOk (h : CmdHdr) (p : LaneConfigArg) (s : State) : MemOk s (outState s (execLaneConfig h p s)) := by
  unfold execLaneConfig
  repeat' first | simp only [outState, MemOk.refl] | split | exact .of id | exact id | exact .of (Memory.wf_filter _ _) | exact .of (Memory.wf_write _ _ _) | dsimp only | refine .fold ?_ fun _ _ => ?_ | refine .fold1 ?_ fun _ _ => ?_ | refine .fold2 ?_ fun _ _ => ?_ | with_reducible refine .trans ?_ (State.runCommand_memOk ..)

theorem execChannelDefine_memOk (h : CmdHdr) (p : ChannelDefineArg) (s : State) : MemOk s (outState s (execChannelDefine h p s)) := by
  unfold execChannelDefine
  repeat' first | simp only [outState, MemOk.refl] | split | exact .of id | exact id | exact .of (Memory.wf_filter _ _) | exact .of (Memory.wf_write _ _ _) | dsimp only | refine .fold ?_ fun _ _ => ?_ | refine .fold1 ?_ fun _ _ => ?_ | refine .fold2 ?_ fun _ _ => ?_ | with_reducible refine .trans ?_ (State.runCommand_memOk ..)

theorem execChannelDelete_memOk (h : CmdHdr) (p : ChArg) (s : State) : MemOk s (outState s (execChannelDelete h p s)) := by
  unfold execChannelDelete
  repeat' first | simp only [outState, MemOk.refl] | split | exact .of id | exact id | exact .of (Memory.wf_filter _ _) | exact .of (Memory.wf_write _ _ _) | dsimp only | refine .fold ?_ fun _ _ => ?_ | refine .fold1 ?_ fun _ _ => ?_ | refine .fold2 ?_ fun _ _ => ?_ | with_reducible refine .trans ?_ (State.runCommand_memOk ..)

theorem execChannelStart_memOk (h : CmdHdr) (p : ChtArg) (s : State) : MemOk s (outState s (execChannelStart h p s)) := by
  unfold execChannelStart
  repeat' first | simp only [outState, MemOk.refl] | split | exact .of id | exact id | exact .of (Memory.wf_filter _ _) | exact .of (Memory.wf_write _ _ _) | dsimp only | refine .fold ?_ fun _ _ => ?_ | refine .fold1 ?_ fun _ _ => ?_ | refine .fold2 ?_ fun _ _ => ?_ | with_reducible refine .trans ?_ (State.runCommand_memOk ..)

theorem execChannelStop_memOk (h : CmdHdr) (p : ChtArg) (s : State) : MemOk s (outState s (execChannelStop h p s)) := by
  unfold execChannelStop
  repeat' first | simp only [outState, MemOk.refl] | split | exact .of id | exact id | exact .of (Memory.wf_filter _ _) | exact .of (Memory.wf_write _ _ _) | dsimp only | refine .fold ?_ fun _ _ => ?_ | refine .fold1 ?_ fun _ _ => ?_ | refine .fold2 ?_ fun _ _ => ?_ | with_reducible refine .trans ?_ (State.runCommand_memOk ..)

theorem execChannelSet_memOk (h : CmdHdr) (p : ChannelSetArg) (s : State) : MemOk s (outState s (execChannelSet h p s)) := by
  unfold execChannelSet
  repeat' first | simp only [outState, MemOk.refl] | split | exact .of id | exact id | exact .of (Memory.wf_filter _ _) | exact .of (Memory.wf_write _ _ _) | dsimp only | refine .fold ?_ fun _ _ => ?_ | refine .fold1 ?_ fun _ _ => ?_ | refine .fold2 ?_ fun _ _ => ?_ | with_reducible refine .trans ?_ (State.runCommand_memOk ..)

theorem execChannelCommit_memOk (h : CmdHdr) (p : ChArg) (s : State) : MemOk s (outState s (execChannelCommit h p s)) := by
  unfold execChannelCommit
  repeat' first | simp only [outState, MemOk.refl] | split | exact .of id | exact id | exact .of (Memory.wf_filter _ _) | exact .of (Memory.wf_write _ _ _) | dsimp only | refine .fold ?_ fun _ _ => ?_ | refine .fold1 ?_ fun _ _ => ?_ | refine .fold2 ?_ fun _ _ => ?_ | with_reducible refine .trans ?_ (State.runCommand_memOk ..)

theorem execChannelRefresh_memOk (h : CmdHdr) (p : ChtArg) (s : State) : MemOk s (outState s (execChannelRefresh h p s)) := by
  unfold execChannelRefresh
  repeat' first | simp only [outState, MemOk.refl] | split | exact .of id | exact id | exact .of (Memory.wf_filter _ _) | exact .of (Memory.wf_write _ _ _) | dsimp only | refine .fold ?_ fun _ _ => ?_ | refine .fold1 ?_ fun _ _ => ?_ | refine .fold2 ?_ fun _ _ => ?_ | with_reducible refine .trans ?_ (State.runCommand_memOk ..)

theorem execLtrMark_memOk (h : CmdHdr) (p : ChtArg) (s : State) : MemOk s (outState s (execLtrMark h p s)) := by
  unfold execLtrMark
  repeat' first | simp only [outState, MemOk.refl] | split | exact .of id | exact id | exact .of (Memory.wf_filter _ _) | exact .of (Memory.wf_write _ _ _) | dsimp only | refine .fold ?_ fun _ _ => ?_ | refine .fold1 ?_ fun _ _ => ?_ | refine .fold2 ?_ fun _ _ => ?_ | with_reducible refine .trans ?_ (State.runCommand_memOk ..)

theorem execLtrRelease_memOk (h : CmdHdr) (p : ChtArg) (s : State) : MemOk s (outState s (execLtrRelease h p s)) := by
  unfold execLtrRelease
  repeat' first | simp only [outState, MemOk.refl] | split | exact .of id | exact id | exact .of (Memory.wf_filter _ _) | exact .of (Memory.wf_write _ _ _) | dsimp only | refine .fold ?_ fun _ _ => ?_ | refine .fold1 ?_ fun _ _ => ?_ | refine .fold2 ?_ fun _ _ => ?_ | with_reducible refine .trans ?_ (State.runCommand_memOk ..)

theorem execRoiSet_memOk (h : CmdHdr) (p : RoiSetArg) (s : State) : MemOk s (outState s (execRoiSet h p s)) := by
  unfold execRoiSet
  repeat' first | simp only [outState, MemOk.refl] | split | exact .of id | exact id | exact .of (Memory.wf_filter _ _) | exact .of (Memory.wf_write _ _ _) | dsimp only | refine .fold ?_ fun _ _ => ?_ | refine .fold1 ?_ fun _ _ => ?_ | refine .fold2 ?_ fun _ _ => ?_ | with_reducible refine .trans ?_ (State.runCommand_memOk ..)

theorem execRoiClear_memOk (h : CmdHdr) (p : ChArg) (s : State) : MemOk s (outState s (execRoiClear h p s)) := by
  unfold execRoiClear
  repeat' first | simp only [outState, MemOk.refl] | split | exact .of id | exact id | exact .of (Memory.wf_filter _ _) | exact .of (Memory.wf_write _ _ _) | dsimp only | refine .fold ?_ fun _ _ => ?_ | refine .fold1 ?_ fun _ _ => ?_ | refine .fold2 ?_ fun _ _ => ?_ | with_reducible refine .trans ?_ (State.runCommand_memOk ..)

theorem execExtStreamDefine_memOk (h : CmdHdr) (p : ExtStreamArg) (s : State) : MemOk s (outState s (execExtStreamDefine h p s)) := by
  unfold execExtStreamDefine
  repeat' first | simp only [outState, MemOk.refl] | split | exact .of id | exact id | exact .of (Memory.wf_filter _ _) | exact .of (Memory.wf_write _ _ _) | dsimp only | refine .fold ?_ fun _ _ => ?_ | refine .fold1 ?_ fun _ _ => ?_ | refine .fold2 ?_ fun _ _ => ?_ | with_reducible refine .trans ?_ (State.runCommand_memOk ..)

theorem execExtStreamDelete_memOk (h : CmdHdr) (p : ChArg) (s : State) : MemOk s (outState s (execExtStreamDelete h p s)) := by
  unfold execExtStreamDelete
  repeat' first | simp only [outState, MemOk.refl] | split | exact .of id | exact id | exact .of (Memory.wf_filter _ _) | exact .of (Memory.wf_write _ _ _) | dsimp only | refine .fold ?_ fun _ _ => ?_ | refine .fold1 ?_ fun _ _ => ?_ | refine .fold2 ?_ fun _ _ => ?_ | with_reducible refine .trans ?_ (State.runCommand_memOk ..)

theorem execSurfaceAlloc_memOk (h : CmdHdr) (p : SurfaceAllocArg) (s : State) : MemOk s (outState s (execSurfaceAlloc h p s)) := by
  unfold execSurfaceAlloc
  repeat' first | simp only [outState, MemOk.refl] | split | exact .of id | exact id | exact .of (Memory.wf_filter _ _) | exact .of (Memory.wf_write _ _ _) | dsimp only | refine .fold ?_ fun _ _ => ?_ | refine .fold1 ?_ fun _ _ => ?_ | refine .fold2 ?_ fun _ _ => ?_ | with_reducible refine .trans ?_ (State.runCommand_memOk ..)

theorem execSurfaceFree_memOk (h : CmdHdr) (p : Nat) (s : State) : MemOk s (outState s (execSurfaceFree h p s)) := by
  unfold execSurfaceFree
  repeat' first | simp only [outState, MemOk.refl] | split | exact .of id | exact id | exact .of (Memory.wf_filter _ _) | exact .of (Memory.wf_write _ _ _) | dsimp only | refine .fold ?_ fun _ _ => ?_ | refine .fold1 ?_ fun _ _ => ?_ | refine .fold2 ?_ fun _ _ => ?_ | with_reducible refine .trans ?_ (State.runCommand_memOk ..)

theorem execFlipSubmit_memOk (h : CmdHdr) (p : FlipSubmitArg) (s : State) : MemOk s (outState s (execFlipSubmit h p s)) := by
  unfold execFlipSubmit
  repeat' first | simp only [outState, MemOk.refl] | split | exact .of id | exact id | exact .of (Memory.wf_filter _ _) | exact .of (Memory.wf_write _ _ _) | dsimp only | refine .fold ?_ fun _ _ => ?_ | refine .fold1 ?_ fun _ _ => ?_ | refine .fold2 ?_ fun _ _ => ?_ | with_reducible refine .trans ?_ (State.runCommand_memOk ..)

theorem execProtectedLoad_memOk (h : CmdHdr) (p : ProtectedLoadArg) (s : State) : MemOk s (outState s (execProtectedLoad h p s)) := by
  unfold execProtectedLoad
  repeat' first | simp only [outState, MemOk.refl] | split | exact .of id | exact id | exact .of (Memory.wf_filter _ _) | exact .of (Memory.wf_write _ _ _) | dsimp only | refine .fold ?_ fun _ _ => ?_ | refine .fold1 ?_ fun _ _ => ?_ | refine .fold2 ?_ fun _ _ => ?_ | with_reducible refine .trans ?_ (State.runCommand_memOk ..)

theorem execProtectedRemove_memOk (h : CmdHdr) (p : ChtArg) (s : State) : MemOk s (outState s (execProtectedRemove h p s)) := by
  unfold execProtectedRemove
  repeat' first | simp only [outState, MemOk.refl] | split | exact .of id | exact id | exact .of (Memory.wf_filter _ _) | exact .of (Memory.wf_write _ _ _) | dsimp only | refine .fold ?_ fun _ _ => ?_ | refine .fold1 ?_ fun _ _ => ?_ | refine .fold2 ?_ fun _ _ => ?_ | with_reducible refine .trans ?_ (State.runCommand_memOk ..)

theorem execTonemapLoad_memOk (h : CmdHdr) (p : TonemapLoadArg) (s : State) : MemOk s (outState s (execTonemapLoad h p s)) := by
  unfold execTonemapLoad
  repeat' first | simp only [outState, MemOk.refl] | split | exact .of id | exact id | exact .of (Memory.wf_filter _ _) | exact .of (Memory.wf_write _ _ _) | dsimp only | refine .fold ?_ fun _ _ => ?_ | refine .fold1 ?_ fun _ _ => ?_ | refine .fold2 ?_ fun _ _ => ?_ | with_reducible refine .trans ?_ (State.runCommand_memOk ..)

theorem execAudioPortConfig_memOk (h : CmdHdr) (p : AudioPortArg) (s : State) : MemOk s (outState s (execAudioPortConfig h p s)) := by
  unfold execAudioPortConfig
  repeat' first | simp only [outState, MemOk.refl] | split | exact .of id | exact id | exact .of (Memory.wf_filter _ _) | exact .of (Memory.wf_write _ _ _) | dsimp only | refine .fold ?_ fun _ _ => ?_ | refine .fold1 ?_ fun _ _ => ?_ | refine .fold2 ?_ fun _ _ => ?_ | with_reducible refine .trans ?_ (State.runCommand_memOk ..)

theorem execAudioPortStart_memOk (h : CmdHdr) (p : ChArg) (s : State) : MemOk s (outState s (execAudioPortStart h p s)) := by
  unfold execAudioPortStart
  repeat' first | simp only [outState, MemOk.refl] | split | exact .of id | exact id | exact .of (Memory.wf_filter _ _) | exact .of (Memory.wf_write _ _ _) | dsimp only | refine .fold ?_ fun _ _ => ?_ | refine .fold1 ?_ fun _ _ => ?_ | refine .fold2 ?_ fun _ _ => ?_ | with_reducible refine .trans ?_ (State.runCommand_memOk ..)

theorem execAudioPortStop_memOk (h : CmdHdr) (p : ChArg) (s : State) : MemOk s (outState s (execAudioPortStop h p s)) := by
  unfold execAudioPortStop
  repeat' first | simp only [outState, MemOk.refl] | split | exact .of id | exact id | exact .of (Memory.wf_filter _ _) | exact .of (Memory.wf_write _ _ _) | dsimp only | refine .fold ?_ fun _ _ => ?_ | refine .fold1 ?_ fun _ _ => ?_ | refine .fold2 ?_ fun _ _ => ?_ | with_reducible refine .trans ?_ (State.runCommand_memOk ..)

theorem execAudioStreamConfig_memOk (h : CmdHdr) (p : AudioStreamArg) (s : State) : MemOk s (outState s (execAudioStreamConfig h p s)) := by
  unfold execAudioStreamConfig
  repeat' first | simp only [outState, MemOk.refl] | split | exact .of id | exact id | exact .of (Memory.wf_filter _ _) | exact .of (Memory.wf_write _ _ _) | dsimp only | refine .fold ?_ fun _ _ => ?_ | refine .fold1 ?_ fun _ _ => ?_ | refine .fold2 ?_ fun _ _ => ?_ | with_reducible refine .trans ?_ (State.runCommand_memOk ..)

theorem execAudioStreamDelete_memOk (h : CmdHdr) (p : ChArg) (s : State) : MemOk s (outState s (execAudioStreamDelete h p s)) := by
  unfold execAudioStreamDelete
  repeat' first | simp only [outState, MemOk.refl] | split | exact .of id | exact id | exact .of (Memory.wf_filter _ _) | exact .of (Memory.wf_write _ _ _) | dsimp only | refine .fold ?_ fun _ _ => ?_ | refine .fold1 ?_ fun _ _ => ?_ | refine .fold2 ?_ fun _ _ => ?_ | with_reducible refine .trans ?_ (State.runCommand_memOk ..)

theorem execAudioRoute_memOk (h : CmdHdr) (p : AudioRouteArg) (s : State) : MemOk s (outState s (execAudioRoute h p s)) := by
  unfold execAudioRoute
  repeat' first | simp only [outState, MemOk.refl] | split | exact .of id | exact id | exact .of (Memory.wf_filter _ _) | exact .of (Memory.wf_write _ _ _) | dsimp only | refine .fold ?_ fun _ _ => ?_ | refine .fold1 ?_ fun _ _ => ?_ | refine .fold2 ?_ fun _ _ => ?_ | with_reducible refine .trans ?_ (State.runCommand_memOk ..)

theorem execAudioAlignGroup_memOk (h : CmdHdr) (p : AlignGroupArg) (s : State) : MemOk s (outState s (execAudioAlignGroup h p s)) := by
  unfold execAudioAlignGroup
  repeat' first | simp only [outState, MemOk.refl] | split | exact .of id | exact id | exact .of (Memory.wf_filter _ _) | exact .of (Memory.wf_write _ _ _) | dsimp only | refine .fold ?_ fun _ _ => ?_ | refine .fold1 ?_ fun _ _ => ?_ | refine .fold2 ?_ fun _ _ => ?_ | with_reducible refine .trans ?_ (State.runCommand_memOk ..)

theorem execAudioClock_memOk (h : CmdHdr) (p : AudioClockArg) (s : State) : MemOk s (outState s (execAudioClock h p s)) := by
  unfold execAudioClock
  repeat' first | simp only [outState, MemOk.refl] | split | exact .of id | exact id | exact .of (Memory.wf_filter _ _) | exact .of (Memory.wf_write _ _ _) | dsimp only | refine .fold ?_ fun _ _ => ?_ | refine .fold1 ?_ fun _ _ => ?_ | refine .fold2 ?_ fun _ _ => ?_ | with_reducible refine .trans ?_ (State.runCommand_memOk ..)

theorem execGroupForm_memOk (h : CmdHdr) (p : GroupArg) (s : State) : MemOk s (outState s (execGroupForm h p s)) := by
  unfold execGroupForm
  repeat' first | simp only [outState, MemOk.refl] | split | exact .of id | exact id | exact .of (Memory.wf_filter _ _) | exact .of (Memory.wf_write _ _ _) | dsimp only | refine .fold ?_ fun _ _ => ?_ | refine .fold1 ?_ fun _ _ => ?_ | refine .fold2 ?_ fun _ _ => ?_ | with_reducible refine .trans ?_ (State.runCommand_memOk ..)

theorem execGroupJoin_memOk (h : CmdHdr) (p : GroupArg) (s : State) : MemOk s (outState s (execGroupJoin h p s)) := by
  unfold execGroupJoin
  repeat' first | simp only [outState, MemOk.refl] | split | exact .of id | exact id | exact .of (Memory.wf_filter _ _) | exact .of (Memory.wf_write _ _ _) | dsimp only | refine .fold ?_ fun _ _ => ?_ | refine .fold1 ?_ fun _ _ => ?_ | refine .fold2 ?_ fun _ _ => ?_ | with_reducible refine .trans ?_ (State.runCommand_memOk ..)

theorem execGroupLeave_memOk (h : CmdHdr) (s : State) : MemOk s (outState s (execGroupLeave h s)) := by
  unfold execGroupLeave
  repeat' first | simp only [outState, MemOk.refl] | split | exact .of id | exact id | exact .of (Memory.wf_filter _ _) | exact .of (Memory.wf_write _ _ _) | dsimp only | refine .fold ?_ fun _ _ => ?_ | refine .fold1 ?_ fun _ _ => ?_ | refine .fold2 ?_ fun _ _ => ?_ | with_reducible refine .trans ?_ (State.runCommand_memOk ..)

theorem execGroupHandover_memOk (h : CmdHdr) (p : Nat) (s : State) : MemOk s (outState s (execGroupHandover h p s)) := by
  unfold execGroupHandover
  repeat' first | simp only [outState, MemOk.refl] | split | exact .of id | exact id | exact .of (Memory.wf_filter _ _) | exact .of (Memory.wf_write _ _ _) | dsimp only | refine .fold ?_ fun _ _ => ?_ | refine .fold1 ?_ fun _ _ => ?_ | refine .fold2 ?_ fun _ _ => ?_ | with_reducible refine .trans ?_ (State.runCommand_memOk ..)

theorem execChainEnumerate_memOk (h : CmdHdr) (s : State) : MemOk s (outState s (execChainEnumerate h s)) := by
  unfold execChainEnumerate
  repeat' first | simp only [outState, MemOk.refl] | split | exact .of id | exact id | exact .of (Memory.wf_filter _ _) | exact .of (Memory.wf_write _ _ _) | dsimp only | refine .fold ?_ fun _ _ => ?_ | refine .fold1 ?_ fun _ _ => ?_ | refine .fold2 ?_ fun _ _ => ?_ | with_reducible refine .trans ?_ (State.runCommand_memOk ..)

theorem execChainBudget_memOk (h : CmdHdr) (p : Nat) (s : State) : MemOk s (outState s (execChainBudget h p s)) := by
  unfold execChainBudget
  repeat' first | simp only [outState, MemOk.refl] | split | exact .of id | exact id | exact .of (Memory.wf_filter _ _) | exact .of (Memory.wf_write _ _ _) | dsimp only | refine .fold ?_ fun _ _ => ?_ | refine .fold1 ?_ fun _ _ => ?_ | refine .fold2 ?_ fun _ _ => ?_ | with_reducible refine .trans ?_ (State.runCommand_memOk ..)

theorem execEventLogFetch_memOk (h : CmdHdr) (p : EventFetchArg) (s : State) : MemOk s (outState s (execEventLogFetch h p s)) := by
  unfold execEventLogFetch
  repeat' first | simp only [outState, MemOk.refl] | split | exact .of id | exact id | exact .of (Memory.wf_filter _ _) | exact .of (Memory.wf_write _ _ _) | dsimp only | refine .fold ?_ fun _ _ => ?_ | refine .fold1 ?_ fun _ _ => ?_ | refine .fold2 ?_ fun _ _ => ?_ | with_reducible refine .trans ?_ (State.runCommand_memOk ..)

theorem execCuAssign_memOk (h : CmdHdr) (p : ChArg) (s : State) : MemOk s (outState s (execCuAssign h p s)) := by
  unfold execCuAssign
  repeat' first | simp only [outState, MemOk.refl] | split | exact .of id | exact id | exact .of (Memory.wf_filter _ _) | exact .of (Memory.wf_write _ _ _) | dsimp only | refine .fold ?_ fun _ _ => ?_ | refine .fold1 ?_ fun _ _ => ?_ | refine .fold2 ?_ fun _ _ => ?_ | with_reducible refine .trans ?_ (State.runCommand_memOk ..)

theorem execPowerOn_memOk (s : State) : MemOk s (outState s (execPowerOn s)) := by
  unfold execPowerOn
  repeat' first | simp only [outState, MemOk.refl, MemOk.set_dev] | split | exact .of id | exact id | exact .of (Memory.wf_filter _ _) | exact .of (Memory.wf_write _ _ _) | dsimp only | refine .fold ?_ fun _ _ => ?_ | refine .fold1 ?_ fun _ _ => ?_ | refine .fold2 ?_ fun _ _ => ?_ | exact .of fun _ => rfl

theorem execChipReset_memOk (s : State) : MemOk s (outState s (execChipReset s)) := by
  unfold execChipReset
  repeat' first | simp only [outState, MemOk.refl] | split | exact .of id | exact id | exact .of (Memory.wf_filter _ _) | exact .of (Memory.wf_write _ _ _) | dsimp only | refine .fold ?_ fun _ _ => ?_ | refine .fold1 ?_ fun _ _ => ?_ | refine .fold2 ?_ fun _ _ => ?_ | with_reducible refine .trans ?_ (State.chipReset_memOk ..)

theorem execSupplyResetCrossing_memOk (rail mv : Nat) (s : State) : MemOk s (outState s (execSupplyResetCrossing rail mv s)) := by
  unfold execSupplyResetCrossing
  repeat' first | simp only [outState, MemOk.refl, MemOk.frame (State.wr_touches _ _ _) (by decide)] | split | exact .of id | exact id | exact .of (Memory.wf_filter _ _) | exact .of (Memory.wf_write _ _ _) | dsimp only | refine .fold ?_ fun _ _ => ?_ | refine .fold1 ?_ fun _ _ => ?_ | refine .fold2 ?_ fun _ _ => ?_ | with_reducible refine .trans ?_ (State.chipReset_memOk ..)

theorem execResetRelease_memOk (mgrSel : Bool) (failed : List Nat) (coreFail : Bool) (s : State) : MemOk s (outState s (execResetRelease mgrSel failed coreFail s)) := by
  unfold execResetRelease
  repeat' first | simp only [outState, MemOk.refl, MemOk.set_dev_rat, MemOk.set_dev, MemOk.frame (State.updLane_touches _ _ _) (by decide), MemOk.frame (State.bootTest_touches _ _ _) (by decide), MemOk.frame (State.emit_touches _ _) (by decide)] | split | exact .of id | exact id | exact .of (Memory.wf_filter _ _) | exact .of (Memory.wf_write _ _ _) | dsimp only | refine .fold ?_ fun _ _ => ?_ | refine .fold1 ?_ fun _ _ => ?_ | refine .fold2 ?_ fun _ _ => ?_ | with_reducible refine MemOk.set_dev_mem _ _ ?_ ?_

theorem execTrialTimeout_memOk (s : State) : MemOk s (outState s (execTrialTimeout s)) := by
  unfold execTrialTimeout
  repeat' first | simp only [outState, MemOk.refl, MemOk.set_dev, MemOk.frame (State.sticky_touches _ _ _) (by decide)] | split | exact .of id | exact id | exact .of (Memory.wf_filter _ _) | exact .of (Memory.wf_write _ _ _) | dsimp only | refine .fold ?_ fun _ _ => ?_ | refine .fold1 ?_ fun _ _ => ?_ | refine .fold2 ?_ fun _ _ => ?_ | with_reducible refine .trans ?_ (State.chipReset_memOk ..)

theorem execLifecycleResetTimer_memOk (s : State) : MemOk s (outState s (execLifecycleResetTimer s)) := by
  unfold execLifecycleResetTimer
  repeat' first | simp only [outState, MemOk.refl] | split | exact .of id | exact id | exact .of (Memory.wf_filter _ _) | exact .of (Memory.wf_write _ _ _) | dsimp only | refine .fold ?_ fun _ _ => ?_ | refine .fold1 ?_ fun _ _ => ?_ | refine .fold2 ?_ fun _ _ => ?_ | with_reducible refine .trans ?_ (State.chipReset_memOk ..)

theorem State.ctlReset_memOk (s : State) (cause core : Nat) : MemOk s (State.ctlReset s cause core) := by
  unfold State.ctlReset
  repeat' first | simp only [MemOk.refl, MemOk.set_dev_mbx_ctl, MemOk.set_fresh, MemOk.frame (State.bump_touches _ _) (by decide), MemOk.frame (State.cutHeld_touches _) (by decide), MemOk.frame (State.cutForwarded_touches _) (by decide), MemOk.frame (State.dropUncommitted_touches _) (by decide), MemOk.frame (State.cutSessions_touches _) (by decide)] | split | exact .of id | exact id | exact .of (Memory.wf_filter _ _) | exact .of (Memory.wf_write _ _ _) | dsimp only | refine .fold ?_ fun _ _ => ?_ | refine .fold1 ?_ fun _ _ => ?_ | refine .fold2 ?_ fun _ _ => ?_ | with_reducible refine .trans ?_ (State.resetMaster_memOk ..)

theorem execControlComplexReset_memOk (s : State) : MemOk s (outState s (execControlComplexReset s)) := by
  unfold execControlComplexReset
  repeat' first | simp only [outState, MemOk.refl] | split | exact .of id | exact id | exact .of (Memory.wf_filter _ _) | exact .of (Memory.wf_write _ _ _) | dsimp only | refine .fold ?_ fun _ _ => ?_ | refine .fold1 ?_ fun _ _ => ?_ | refine .fold2 ?_ fun _ _ => ?_ | with_reducible refine .trans ?_ (State.ctlReset_memOk ..)

theorem execWatchdogExpiry_memOk (core : Nat) (s : State) : MemOk s (outState s (execWatchdogExpiry core s)) := by
  unfold execWatchdogExpiry
  repeat' first | simp only [outState, MemOk.refl, MemOk.frame (State.bump_touches _ _) (by decide)] | split | exact .of id | exact id | exact .of (Memory.wf_filter _ _) | exact .of (Memory.wf_write _ _ _) | dsimp only | refine .fold ?_ fun _ _ => ?_ | refine .fold1 ?_ fun _ _ => ?_ | refine .fold2 ?_ fun _ _ => ?_ | with_reducible refine .trans ?_ (State.ctlReset_memOk ..)

theorem execFirmwareReady_memOk (ms : Nat) (reread : Bool) (s : State) : MemOk s (outState s (execFirmwareReady ms reread s)) := by
  unfold execFirmwareReady
  simp -zeta -zetaHave only [outState]
  extract_lets m c d s1 s2
  split
  · exact .refl s
  · have h2 : MemOk s s2 := by
      unfold s2
      split
      · exact .trans (t := s1) (.of id) ((MemOk.frame (State.restarted_touches ..) (by decide)).mpr (.refl _))
      · exact .of id
    refine h2.trans (.trans ?_ (State.drainRing_memOk ..))
    exact .trans ((MemOk.frame (State.firstReady_touches _) (by decide)).mpr (.refl _))
      ((MemOk.frame (State.settleTest_touches _) (by decide)).mpr (.refl _))

theorem State.flr_memOk (s : State) : MemOk s (State.flr s) := by
  unfold State.flr
  repeat' first | simp only [MemOk.refl, MemOk.set_dev, MemOk.set_mbx_rat, MemOk.set_fresh, MemOk.frame (State.bumpBy_touches _ _ _) (by decide), MemOk.frame (State.chkReset_touches _ _) (by decide), MemOk.frame (State.shutSession_touches _ _ _) (by decide), MemOk.frame (State.clearRegs_touches _ _ _) (by decide)] | split | exact .of id | exact id | exact .of (Memory.wf_filter _ _) | exact .of (Memory.wf_write _ _ _) | dsimp only | refine .fold ?_ fun _ _ => ?_ | refine .fold1 ?_ fun _ _ => ?_ | refine .fold2 ?_ fun _ _ => ?_ | with_reducible refine .trans ?_ (State.resetMaster_memOk ..)

theorem execFunctionLevelReset_memOk (s : State) : MemOk s (outState s (execFunctionLevelReset s)) := by
  unfold execFunctionLevelReset
  repeat' first | simp only [outState, MemOk.refl] | split | exact .of id | exact id | exact .of (Memory.wf_filter _ _) | exact .of (Memory.wf_write _ _ _) | dsimp only | refine .fold ?_ fun _ _ => ?_ | refine .fold1 ?_ fun _ _ => ?_ | refine .fold2 ?_ fun _ _ => ?_ | with_reducible refine .trans ?_ (State.flr_memOk ..)

theorem execPllUnlock_memOk (d : Domain) (s : State) : MemOk s (outState s (execPllUnlock d s)) := by
  have n : ∀ t d, MemOk t (State.noteUnlock t d) := fun t d => (MemOk.frame (State.noteUnlock_touches t d) (by decide)).mpr (.refl t)
  have u : ∀ t d, MemOk t (State.unlock t d) := fun t d => (MemOk.frame (State.unlock_touches t d) (by decide)).mpr (.refl t)
  have p : ∀ t q, MemOk t (State.portClockLost t q) := fun t q =>
    (MemOk.frame (State.portClockLost_touches t q) (by decide)).mpr (.refl t)
  unfold execPllUnlock
  simp only [outState]
  split
  · split
    · exact ((n s _).trans (u _ _)).trans (State.ctlReset_memOk ..)
    · exact (n s _).trans (u _ _)
  · exact (n s _).trans (State.flr_memOk _)
  · exact (n s _).trans ((MemOk.frame (State.ethLost_touches _) (by decide)).mpr (.refl _))
  · exact ((n s _).trans (p _ 0)).trans (p _ 1)
  · exact ((n s _).trans (p _ 2)).trans (p _ 3)
  · exact (MemOk.frame (State.audmLost_touches s) (by decide)).mpr (.refl _)
  · split
    · exact ((u s _).trans ((MemOk.frame (State.fatal_touches _ _ _ _) (by decide)).mpr (.refl _))).trans (State.settle_memOk _)
    · exact .refl s

theorem State.refLost_memOk (s : State) : MemOk s (State.refLost s) := by
  unfold State.refLost
  refine .trans (.trans ?_ (State.settle_memOk _)) ((MemOk.frame (State.ethLost_touches _) (by decide)).mpr (.refl _))
  exact .trans ((MemOk.frame (State.unlock_touches ..) (by decide)).mpr (.refl _))
    ((MemOk.frame (State.fatal_touches ..) (by decide)).mpr (.refl _))

theorem State.refReset_memOk (s : State) : MemOk s (State.refReset s) := by
  unfold State.refReset
  have h := State.refLost_memOk s
  generalize s.refLost = t at h ⊢
  split
  · exact h.trans (State.ctlReset_memOk ..)
  · exact h

theorem execRefclkEthLoss_memOk (s : State) : MemOk s (outState s (execRefclkEthLoss s)) := by
  unfold execRefclkEthLoss
  simp only [outState]
  exact State.refReset_memOk s

end Sys2Proof.Machine
end

