-- ==== Sys2Proof/Laws/State.lean ====
section
/-!
SUPPORT. What each basic operation leaves of each field of the state, and what it leaves of the register bank.
-/
set_option linter.all false
namespace Sys2Proof.Machine
open Sys2Proof

/-! ## Fields -/

@[simp] theorem State.bump_time (s : State) (off : Nat) : (State.bump s off).time = s.time := (State.bump_touches s off).same .time (by decide)
@[simp] theorem State.bump_dev (s : State) (off : Nat) : (State.bump s off).dev = s.dev := (State.bump_touches s off).same .dev (by decide)
@[simp] theorem State.bump_log (s : State) (off : Nat) : (State.bump s off).log = s.log := (State.bump_touches s off).same .log (by decide)
@[simp] theorem State.bump_logSeq (s : State) (off : Nat) : (State.bump s off).logSeq = s.logSeq := (State.bump_touches s off).same .logSeq (by decide)
@[simp] theorem State.bump_mbx (s : State) (off : Nat) : (State.bump s off).mbx = s.mbx := (State.bump_touches s off).same .mbx (by decide)
@[simp] theorem State.bump_ctl (s : State) (off : Nat) : (State.bump s off).ctl = s.ctl := (State.bump_touches s off).same .ctl (by decide)
@[simp] theorem State.bump_chk (s : State) (off : Nat) : (State.bump s off).chk = s.chk := (State.bump_touches s off).same .chk (by decide)
@[simp] theorem State.bump_pmu (s : State) (off : Nat) : (State.bump s off).pmu = s.pmu := (State.bump_touches s off).same .pmu (by decide)
@[simp] theorem State.bump_pwr (s : State) (off : Nat) : (State.bump s off).pwr = s.pwr := (State.bump_touches s off).same .pwr (by decide)
@[simp] theorem State.bump_mem (s : State) (off : Nat) : (State.bump s off).mem = s.mem := (State.bump_touches s off).same .mem (by decide)
@[simp] theorem State.bump_chans (s : State) (off : Nat) : (State.bump s off).chans = s.chans := (State.bump_touches s off).same .chans (by decide)
@[simp] theorem State.bump_eng (s : State) (off : Nat) : (State.bump s off).eng = s.eng := (State.bump_touches s off).same .eng (by decide)
@[simp] theorem State.bump_ext (s : State) (off : Nat) : (State.bump s off).ext = s.ext := (State.bump_touches s off).same .ext (by decide)
@[simp] theorem State.bump_surf (s : State) (off : Nat) : (State.bump s off).surf = s.surf := (State.bump_touches s off).same .surf (by decide)
@[simp] theorem State.bump_aud (s : State) (off : Nat) : (State.bump s off).aud = s.aud := (State.bump_touches s off).same .aud (by decide)
@[simp] theorem State.bump_net (s : State) (off : Nat) : (State.bump s off).net = s.net := (State.bump_touches s off).same .net (by decide)
@[simp] theorem State.bump_tx (s : State) (off : Nat) : (State.bump s off).tx = s.tx := (State.bump_touches s off).same .tx (by decide)
@[simp] theorem State.bump_txc (s : State) (off : Nat) : (State.bump s off).txc = s.txc := (State.bump_touches s off).same .txc (by decide)
@[simp] theorem State.bump_grp (s : State) (off : Nat) : (State.bump s off).grp = s.grp := (State.bump_touches s off).same .grp (by decide)
@[simp] theorem State.bump_lane (s : State) (off : Nat) : (State.bump s off).lane = s.lane := (State.bump_touches s off).same .lane (by decide)
@[simp] theorem State.bump_rat (s : State) (off : Nat) : (State.bump s off).rat = s.rat := (State.bump_touches s off).same .rat (by decide)
@[simp] theorem State.bump_out (s : State) (off : Nat) : (State.bump s off).out = s.out := (State.bump_touches s off).same .out (by decide)
@[simp] theorem State.bump_fresh (s : State) (off : Nat) : (State.bump s off).fresh = s.fresh := (State.bump_touches s off).same .fresh (by decide)
@[simp] theorem State.bump_pending (s : State) (off : Nat) : (State.bump s off).pending = s.pending := (State.bump_touches s off).same .pending (by decide)
@[simp] theorem State.pmuCount_time (s : State) (cls : Nat) (num : Nat) (n : Nat) (x : PmuSource) : (State.pmuCount s cls num n x).time = s.time := (State.pmuCount_touches s cls num n x).same .time (by decide)
@[simp] theorem State.pmuCount_dev (s : State) (cls : Nat) (num : Nat) (n : Nat) (x : PmuSource) : (State.pmuCount s cls num n x).dev = s.dev := (State.pmuCount_touches s cls num n x).same .dev (by decide)
@[simp] theorem State.pmuCount_log (s : State) (cls : Nat) (num : Nat) (n : Nat) (x : PmuSource) : (State.pmuCount s cls num n x).log = s.log := (State.pmuCount_touches s cls num n x).same .log (by decide)
@[simp] theorem State.pmuCount_logSeq (s : State) (cls : Nat) (num : Nat) (n : Nat) (x : PmuSource) : (State.pmuCount s cls num n x).logSeq = s.logSeq := (State.pmuCount_touches s cls num n x).same .logSeq (by decide)
@[simp] theorem State.pmuCount_mbx (s : State) (cls : Nat) (num : Nat) (n : Nat) (x : PmuSource) : (State.pmuCount s cls num n x).mbx = s.mbx := (State.pmuCount_touches s cls num n x).same .mbx (by decide)
@[simp] theorem State.pmuCount_ctl (s : State) (cls : Nat) (num : Nat) (n : Nat) (x : PmuSource) : (State.pmuCount s cls num n x).ctl = s.ctl := (State.pmuCount_touches s cls num n x).same .ctl (by decide)
@[simp] theorem State.pmuCount_chk (s : State) (cls : Nat) (num : Nat) (n : Nat) (x : PmuSource) : (State.pmuCount s cls num n x).chk = s.chk := (State.pmuCount_touches s cls num n x).same .chk (by decide)
@[simp] theorem State.pmuCount_pwr (s : State) (cls : Nat) (num : Nat) (n : Nat) (x : PmuSource) : (State.pmuCount s cls num n x).pwr = s.pwr := (State.pmuCount_touches s cls num n x).same .pwr (by decide)
@[simp] theorem State.pmuCount_mem (s : State) (cls : Nat) (num : Nat) (n : Nat) (x : PmuSource) : (State.pmuCount s cls num n x).mem = s.mem := (State.pmuCount_touches s cls num n x).same .mem (by decide)
@[simp] theorem State.pmuCount_chans (s : State) (cls : Nat) (num : Nat) (n : Nat) (x : PmuSource) : (State.pmuCount s cls num n x).chans = s.chans := (State.pmuCount_touches s cls num n x).same .chans (by decide)
@[simp] theorem State.pmuCount_eng (s : State) (cls : Nat) (num : Nat) (n : Nat) (x : PmuSource) : (State.pmuCount s cls num n x).eng = s.eng := (State.pmuCount_touches s cls num n x).same .eng (by decide)
@[simp] theorem State.pmuCount_ext (s : State) (cls : Nat) (num : Nat) (n : Nat) (x : PmuSource) : (State.pmuCount s cls num n x).ext = s.ext := (State.pmuCount_touches s cls num n x).same .ext (by decide)
@[simp] theorem State.pmuCount_surf (s : State) (cls : Nat) (num : Nat) (n : Nat) (x : PmuSource) : (State.pmuCount s cls num n x).surf = s.surf := (State.pmuCount_touches s cls num n x).same .surf (by decide)
@[simp] theorem State.pmuCount_aud (s : State) (cls : Nat) (num : Nat) (n : Nat) (x : PmuSource) : (State.pmuCount s cls num n x).aud = s.aud := (State.pmuCount_touches s cls num n x).same .aud (by decide)
@[simp] theorem State.pmuCount_net (s : State) (cls : Nat) (num : Nat) (n : Nat) (x : PmuSource) : (State.pmuCount s cls num n x).net = s.net := (State.pmuCount_touches s cls num n x).same .net (by decide)
@[simp] theorem State.pmuCount_tx (s : State) (cls : Nat) (num : Nat) (n : Nat) (x : PmuSource) : (State.pmuCount s cls num n x).tx = s.tx := (State.pmuCount_touches s cls num n x).same .tx (by decide)
@[simp] theorem State.pmuCount_txc (s : State) (cls : Nat) (num : Nat) (n : Nat) (x : PmuSource) : (State.pmuCount s cls num n x).txc = s.txc := (State.pmuCount_touches s cls num n x).same .txc (by decide)
@[simp] theorem State.pmuCount_grp (s : State) (cls : Nat) (num : Nat) (n : Nat) (x : PmuSource) : (State.pmuCount s cls num n x).grp = s.grp := (State.pmuCount_touches s cls num n x).same .grp (by decide)
@[simp] theorem State.pmuCount_lane (s : State) (cls : Nat) (num : Nat) (n : Nat) (x : PmuSource) : (State.pmuCount s cls num n x).lane = s.lane := (State.pmuCount_touches s cls num n x).same .lane (by decide)
@[simp] theorem State.pmuCount_rat (s : State) (cls : Nat) (num : Nat) (n : Nat) (x : PmuSource) : (State.pmuCount s cls num n x).rat = s.rat := (State.pmuCount_touches s cls num n x).same .rat (by decide)
@[simp] theorem State.pmuCount_out (s : State) (cls : Nat) (num : Nat) (n : Nat) (x : PmuSource) : (State.pmuCount s cls num n x).out = s.out := (State.pmuCount_touches s cls num n x).same .out (by decide)
@[simp] theorem State.pmuCount_fresh (s : State) (cls : Nat) (num : Nat) (n : Nat) (x : PmuSource) : (State.pmuCount s cls num n x).fresh = s.fresh := (State.pmuCount_touches s cls num n x).same .fresh (by decide)
@[simp] theorem State.pmuCount_pending (s : State) (cls : Nat) (num : Nat) (n : Nat) (x : PmuSource) : (State.pmuCount s cls num n x).pending = s.pending := (State.pmuCount_touches s cls num n x).same .pending (by decide)
@[simp] theorem State.unstick_time (s : State) (off : Nat) (mask : Word) : (State.unstick s off mask).time = s.time := (State.unstick_touches s off mask).same .time (by decide)
@[simp] theorem State.unstick_dev (s : State) (off : Nat) (mask : Word) : (State.unstick s off mask).dev = s.dev := (State.unstick_touches s off mask).same .dev (by decide)
@[simp] theorem State.unstick_log (s : State) (off : Nat) (mask : Word) : (State.unstick s off mask).log = s.log := (State.unstick_touches s off mask).same .log (by decide)
@[simp] theorem State.unstick_logSeq (s : State) (off : Nat) (mask : Word) : (State.unstick s off mask).logSeq = s.logSeq := (State.unstick_touches s off mask).same .logSeq (by decide)
@[simp] theorem State.unstick_mbx (s : State) (off : Nat) (mask : Word) : (State.unstick s off mask).mbx = s.mbx := (State.unstick_touches s off mask).same .mbx (by decide)
@[simp] theorem State.unstick_ctl (s : State) (off : Nat) (mask : Word) : (State.unstick s off mask).ctl = s.ctl := (State.unstick_touches s off mask).same .ctl (by decide)
@[simp] theorem State.unstick_chk (s : State) (off : Nat) (mask : Word) : (State.unstick s off mask).chk = s.chk := (State.unstick_touches s off mask).same .chk (by decide)
@[simp] theorem State.unstick_pmu (s : State) (off : Nat) (mask : Word) : (State.unstick s off mask).pmu = s.pmu := (State.unstick_touches s off mask).same .pmu (by decide)
@[simp] theorem State.unstick_pwr (s : State) (off : Nat) (mask : Word) : (State.unstick s off mask).pwr = s.pwr := (State.unstick_touches s off mask).same .pwr (by decide)
@[simp] theorem State.unstick_mem (s : State) (off : Nat) (mask : Word) : (State.unstick s off mask).mem = s.mem := (State.unstick_touches s off mask).same .mem (by decide)
@[simp] theorem State.unstick_chans (s : State) (off : Nat) (mask : Word) : (State.unstick s off mask).chans = s.chans := (State.unstick_touches s off mask).same .chans (by decide)
@[simp] theorem State.unstick_eng (s : State) (off : Nat) (mask : Word) : (State.unstick s off mask).eng = s.eng := (State.unstick_touches s off mask).same .eng (by decide)
@[simp] theorem State.unstick_ext (s : State) (off : Nat) (mask : Word) : (State.unstick s off mask).ext = s.ext := (State.unstick_touches s off mask).same .ext (by decide)
@[simp] theorem State.unstick_surf (s : State) (off : Nat) (mask : Word) : (State.unstick s off mask).surf = s.surf := (State.unstick_touches s off mask).same .surf (by decide)
@[simp] theorem State.unstick_aud (s : State) (off : Nat) (mask : Word) : (State.unstick s off mask).aud = s.aud := (State.unstick_touches s off mask).same .aud (by decide)
@[simp] theorem State.unstick_net (s : State) (off : Nat) (mask : Word) : (State.unstick s off mask).net = s.net := (State.unstick_touches s off mask).same .net (by decide)
@[simp] theorem State.unstick_tx (s : State) (off : Nat) (mask : Word) : (State.unstick s off mask).tx = s.tx := (State.unstick_touches s off mask).same .tx (by decide)
@[simp] theorem State.unstick_txc (s : State) (off : Nat) (mask : Word) : (State.unstick s off mask).txc = s.txc := (State.unstick_touches s off mask).same .txc (by decide)
@[simp] theorem State.unstick_grp (s : State) (off : Nat) (mask : Word) : (State.unstick s off mask).grp = s.grp := (State.unstick_touches s off mask).same .grp (by decide)
@[simp] theorem State.unstick_lane (s : State) (off : Nat) (mask : Word) : (State.unstick s off mask).lane = s.lane := (State.unstick_touches s off mask).same .lane (by decide)
@[simp] theorem State.unstick_rat (s : State) (off : Nat) (mask : Word) : (State.unstick s off mask).rat = s.rat := (State.unstick_touches s off mask).same .rat (by decide)
@[simp] theorem State.unstick_out (s : State) (off : Nat) (mask : Word) : (State.unstick s off mask).out = s.out := (State.unstick_touches s off mask).same .out (by decide)
@[simp] theorem State.unstick_fresh (s : State) (off : Nat) (mask : Word) : (State.unstick s off mask).fresh = s.fresh := (State.unstick_touches s off mask).same .fresh (by decide)
@[simp] theorem State.unstick_pending (s : State) (off : Nat) (mask : Word) : (State.unstick s off mask).pending = s.pending := (State.unstick_touches s off mask).same .pending (by decide)
@[simp] theorem State.setChan_regs (s : State) (c : Nat) (ch : Chan) : (State.setChan s c ch).regs = s.regs := (State.setChan_touches s c ch).same .regs (by decide)
@[simp] theorem State.setChan_time (s : State) (c : Nat) (ch : Chan) : (State.setChan s c ch).time = s.time := (State.setChan_touches s c ch).same .time (by decide)
@[simp] theorem State.setChan_dev (s : State) (c : Nat) (ch : Chan) : (State.setChan s c ch).dev = s.dev := (State.setChan_touches s c ch).same .dev (by decide)
@[simp] theorem State.setChan_log (s : State) (c : Nat) (ch : Chan) : (State.setChan s c ch).log = s.log := (State.setChan_touches s c ch).same .log (by decide)
@[simp] theorem State.setChan_logSeq (s : State) (c : Nat) (ch : Chan) : (State.setChan s c ch).logSeq = s.logSeq := (State.setChan_touches s c ch).same .logSeq (by decide)
@[simp] theorem State.setChan_mbx (s : State) (c : Nat) (ch : Chan) : (State.setChan s c ch).mbx = s.mbx := (State.setChan_touches s c ch).same .mbx (by decide)
@[simp] theorem State.setChan_ctl (s : State) (c : Nat) (ch : Chan) : (State.setChan s c ch).ctl = s.ctl := (State.setChan_touches s c ch).same .ctl (by decide)
@[simp] theorem State.setChan_chk (s : State) (c : Nat) (ch : Chan) : (State.setChan s c ch).chk = s.chk := (State.setChan_touches s c ch).same .chk (by decide)
@[simp] theorem State.setChan_pmu (s : State) (c : Nat) (ch : Chan) : (State.setChan s c ch).pmu = s.pmu := (State.setChan_touches s c ch).same .pmu (by decide)
@[simp] theorem State.setChan_pwr (s : State) (c : Nat) (ch : Chan) : (State.setChan s c ch).pwr = s.pwr := (State.setChan_touches s c ch).same .pwr (by decide)
@[simp] theorem State.setChan_mem (s : State) (c : Nat) (ch : Chan) : (State.setChan s c ch).mem = s.mem := (State.setChan_touches s c ch).same .mem (by decide)
@[simp] theorem State.setChan_eng (s : State) (c : Nat) (ch : Chan) : (State.setChan s c ch).eng = s.eng := (State.setChan_touches s c ch).same .eng (by decide)
@[simp] theorem State.setChan_ext (s : State) (c : Nat) (ch : Chan) : (State.setChan s c ch).ext = s.ext := (State.setChan_touches s c ch).same .ext (by decide)
@[simp] theorem State.setChan_surf (s : State) (c : Nat) (ch : Chan) : (State.setChan s c ch).surf = s.surf := (State.setChan_touches s c ch).same .surf (by decide)
@[simp] theorem State.setChan_aud (s : State) (c : Nat) (ch : Chan) : (State.setChan s c ch).aud = s.aud := (State.setChan_touches s c ch).same .aud (by decide)
@[simp] theorem State.setChan_net (s : State) (c : Nat) (ch : Chan) : (State.setChan s c ch).net = s.net := (State.setChan_touches s c ch).same .net (by decide)
@[simp] theorem State.setChan_tx (s : State) (c : Nat) (ch : Chan) : (State.setChan s c ch).tx = s.tx := (State.setChan_touches s c ch).same .tx (by decide)
@[simp] theorem State.setChan_txc (s : State) (c : Nat) (ch : Chan) : (State.setChan s c ch).txc = s.txc := (State.setChan_touches s c ch).same .txc (by decide)
@[simp] theorem State.setChan_grp (s : State) (c : Nat) (ch : Chan) : (State.setChan s c ch).grp = s.grp := (State.setChan_touches s c ch).same .grp (by decide)
@[simp] theorem State.setChan_lane (s : State) (c : Nat) (ch : Chan) : (State.setChan s c ch).lane = s.lane := (State.setChan_touches s c ch).same .lane (by decide)
@[simp] theorem State.setChan_rat (s : State) (c : Nat) (ch : Chan) : (State.setChan s c ch).rat = s.rat := (State.setChan_touches s c ch).same .rat (by decide)
@[simp] theorem State.setChan_out (s : State) (c : Nat) (ch : Chan) : (State.setChan s c ch).out = s.out := (State.setChan_touches s c ch).same .out (by decide)
@[simp] theorem State.setChan_fresh (s : State) (c : Nat) (ch : Chan) : (State.setChan s c ch).fresh = s.fresh := (State.setChan_touches s c ch).same .fresh (by decide)
@[simp] theorem State.setChan_pending (s : State) (c : Nat) (ch : Chan) : (State.setChan s c ch).pending = s.pending := (State.setChan_touches s c ch).same .pending (by decide)
@[simp] theorem State.hist_time (s : State) (src : Nat) (item : Nat) (v : ℤ) : (State.hist s src item v).time = s.time := (State.hist_touches s src item v).same .time (by decide)
@[simp] theorem State.hist_dev (s : State) (src : Nat) (item : Nat) (v : ℤ) : (State.hist s src item v).dev = s.dev := (State.hist_touches s src item v).same .dev (by decide)
@[simp] theorem State.hist_log (s : State) (src : Nat) (item : Nat) (v : ℤ) : (State.hist s src item v).log = s.log := (State.hist_touches s src item v).same .log (by decide)
@[simp] theorem State.hist_logSeq (s : State) (src : Nat) (item : Nat) (v : ℤ) : (State.hist s src item v).logSeq = s.logSeq := (State.hist_touches s src item v).same .logSeq (by decide)
@[simp] theorem State.hist_mbx (s : State) (src : Nat) (item : Nat) (v : ℤ) : (State.hist s src item v).mbx = s.mbx := (State.hist_touches s src item v).same .mbx (by decide)
@[simp] theorem State.hist_ctl (s : State) (src : Nat) (item : Nat) (v : ℤ) : (State.hist s src item v).ctl = s.ctl := (State.hist_touches s src item v).same .ctl (by decide)
@[simp] theorem State.hist_chk (s : State) (src : Nat) (item : Nat) (v : ℤ) : (State.hist s src item v).chk = s.chk := (State.hist_touches s src item v).same .chk (by decide)
@[simp] theorem State.hist_pmu (s : State) (src : Nat) (item : Nat) (v : ℤ) : (State.hist s src item v).pmu = s.pmu := (State.hist_touches s src item v).same .pmu (by decide)
@[simp] theorem State.hist_pwr (s : State) (src : Nat) (item : Nat) (v : ℤ) : (State.hist s src item v).pwr = s.pwr := (State.hist_touches s src item v).same .pwr (by decide)
@[simp] theorem State.hist_mem (s : State) (src : Nat) (item : Nat) (v : ℤ) : (State.hist s src item v).mem = s.mem := (State.hist_touches s src item v).same .mem (by decide)
@[simp] theorem State.hist_chans (s : State) (src : Nat) (item : Nat) (v : ℤ) : (State.hist s src item v).chans = s.chans := (State.hist_touches s src item v).same .chans (by decide)
@[simp] theorem State.hist_eng (s : State) (src : Nat) (item : Nat) (v : ℤ) : (State.hist s src item v).eng = s.eng := (State.hist_touches s src item v).same .eng (by decide)
@[simp] theorem State.hist_ext (s : State) (src : Nat) (item : Nat) (v : ℤ) : (State.hist s src item v).ext = s.ext := (State.hist_touches s src item v).same .ext (by decide)
@[simp] theorem State.hist_surf (s : State) (src : Nat) (item : Nat) (v : ℤ) : (State.hist s src item v).surf = s.surf := (State.hist_touches s src item v).same .surf (by decide)
@[simp] theorem State.hist_aud (s : State) (src : Nat) (item : Nat) (v : ℤ) : (State.hist s src item v).aud = s.aud := (State.hist_touches s src item v).same .aud (by decide)
@[simp] theorem State.hist_net (s : State) (src : Nat) (item : Nat) (v : ℤ) : (State.hist s src item v).net = s.net := (State.hist_touches s src item v).same .net (by decide)
@[simp] theorem State.hist_tx (s : State) (src : Nat) (item : Nat) (v : ℤ) : (State.hist s src item v).tx = s.tx := (State.hist_touches s src item v).same .tx (by decide)
@[simp] theorem State.hist_txc (s : State) (src : Nat) (item : Nat) (v : ℤ) : (State.hist s src item v).txc = s.txc := (State.hist_touches s src item v).same .txc (by decide)
@[simp] theorem State.hist_grp (s : State) (src : Nat) (item : Nat) (v : ℤ) : (State.hist s src item v).grp = s.grp := (State.hist_touches s src item v).same .grp (by decide)
@[simp] theorem State.hist_lane (s : State) (src : Nat) (item : Nat) (v : ℤ) : (State.hist s src item v).lane = s.lane := (State.hist_touches s src item v).same .lane (by decide)
@[simp] theorem State.hist_rat (s : State) (src : Nat) (item : Nat) (v : ℤ) : (State.hist s src item v).rat = s.rat := (State.hist_touches s src item v).same .rat (by decide)
@[simp] theorem State.hist_out (s : State) (src : Nat) (item : Nat) (v : ℤ) : (State.hist s src item v).out = s.out := (State.hist_touches s src item v).same .out (by decide)
@[simp] theorem State.hist_fresh (s : State) (src : Nat) (item : Nat) (v : ℤ) : (State.hist s src item v).fresh = s.fresh := (State.hist_touches s src item v).same .fresh (by decide)
@[simp] theorem State.hist_pending (s : State) (src : Nat) (item : Nat) (v : ℤ) : (State.hist s src item v).pending = s.pending := (State.hist_touches s src item v).same .pending (by decide)
@[simp] theorem State.bumpBy_time (s : State) (off : Nat) (n : Nat) : (State.bumpBy s off n).time = s.time := (State.bumpBy_touches s off n).same .time (by decide)
@[simp] theorem State.bumpBy_dev (s : State) (off : Nat) (n : Nat) : (State.bumpBy s off n).dev = s.dev := (State.bumpBy_touches s off n).same .dev (by decide)
@[simp] theorem State.bumpBy_log (s : State) (off : Nat) (n : Nat) : (State.bumpBy s off n).log = s.log := (State.bumpBy_touches s off n).same .log (by decide)
@[simp] theorem State.bumpBy_logSeq (s : State) (off : Nat) (n : Nat) : (State.bumpBy s off n).logSeq = s.logSeq := (State.bumpBy_touches s off n).same .logSeq (by decide)
@[simp] theorem State.bumpBy_mbx (s : State) (off : Nat) (n : Nat) : (State.bumpBy s off n).mbx = s.mbx := (State.bumpBy_touches s off n).same .mbx (by decide)
@[simp] theorem State.bumpBy_ctl (s : State) (off : Nat) (n : Nat) : (State.bumpBy s off n).ctl = s.ctl := (State.bumpBy_touches s off n).same .ctl (by decide)
@[simp] theorem State.bumpBy_chk (s : State) (off : Nat) (n : Nat) : (State.bumpBy s off n).chk = s.chk := (State.bumpBy_touches s off n).same .chk (by decide)
@[simp] theorem State.bumpBy_pmu (s : State) (off : Nat) (n : Nat) : (State.bumpBy s off n).pmu = s.pmu := (State.bumpBy_touches s off n).same .pmu (by decide)
@[simp] theorem State.bumpBy_pwr (s : State) (off : Nat) (n : Nat) : (State.bumpBy s off n).pwr = s.pwr := (State.bumpBy_touches s off n).same .pwr (by decide)
@[simp] theorem State.bumpBy_mem (s : State) (off : Nat) (n : Nat) : (State.bumpBy s off n).mem = s.mem := (State.bumpBy_touches s off n).same .mem (by decide)
@[simp] theorem State.bumpBy_chans (s : State) (off : Nat) (n : Nat) : (State.bumpBy s off n).chans = s.chans := (State.bumpBy_touches s off n).same .chans (by decide)
@[simp] theorem State.bumpBy_eng (s : State) (off : Nat) (n : Nat) : (State.bumpBy s off n).eng = s.eng := (State.bumpBy_touches s off n).same .eng (by decide)
@[simp] theorem State.bumpBy_ext (s : State) (off : Nat) (n : Nat) : (State.bumpBy s off n).ext = s.ext := (State.bumpBy_touches s off n).same .ext (by decide)
@[simp] theorem State.bumpBy_surf (s : State) (off : Nat) (n : Nat) : (State.bumpBy s off n).surf = s.surf := (State.bumpBy_touches s off n).same .surf (by decide)
@[simp] theorem State.bumpBy_aud (s : State) (off : Nat) (n : Nat) : (State.bumpBy s off n).aud = s.aud := (State.bumpBy_touches s off n).same .aud (by decide)
@[simp] theorem State.bumpBy_net (s : State) (off : Nat) (n : Nat) : (State.bumpBy s off n).net = s.net := (State.bumpBy_touches s off n).same .net (by decide)
@[simp] theorem State.bumpBy_tx (s : State) (off : Nat) (n : Nat) : (State.bumpBy s off n).tx = s.tx := (State.bumpBy_touches s off n).same .tx (by decide)
@[simp] theorem State.bumpBy_txc (s : State) (off : Nat) (n : Nat) : (State.bumpBy s off n).txc = s.txc := (State.bumpBy_touches s off n).same .txc (by decide)
@[simp] theorem State.bumpBy_grp (s : State) (off : Nat) (n : Nat) : (State.bumpBy s off n).grp = s.grp := (State.bumpBy_touches s off n).same .grp (by decide)
@[simp] theorem State.bumpBy_lane (s : State) (off : Nat) (n : Nat) : (State.bumpBy s off n).lane = s.lane := (State.bumpBy_touches s off n).same .lane (by decide)
@[simp] theorem State.bumpBy_rat (s : State) (off : Nat) (n : Nat) : (State.bumpBy s off n).rat = s.rat := (State.bumpBy_touches s off n).same .rat (by decide)
@[simp] theorem State.bumpBy_out (s : State) (off : Nat) (n : Nat) : (State.bumpBy s off n).out = s.out := (State.bumpBy_touches s off n).same .out (by decide)
@[simp] theorem State.bumpBy_fresh (s : State) (off : Nat) (n : Nat) : (State.bumpBy s off n).fresh = s.fresh := (State.bumpBy_touches s off n).same .fresh (by decide)
@[simp] theorem State.bumpBy_pending (s : State) (off : Nat) (n : Nat) : (State.bumpBy s off n).pending = s.pending := (State.bumpBy_touches s off n).same .pending (by decide)
@[simp] theorem State.bumpSat_time (s : State) (off : Nat) : (State.bumpSat s off).time = s.time := (State.bumpSat_touches s off).same .time (by decide)
@[simp] theorem State.bumpSat_dev (s : State) (off : Nat) : (State.bumpSat s off).dev = s.dev := (State.bumpSat_touches s off).same .dev (by decide)
@[simp] theorem State.bumpSat_log (s : State) (off : Nat) : (State.bumpSat s off).log = s.log := (State.bumpSat_touches s off).same .log (by decide)
@[simp] theorem State.bumpSat_logSeq (s : State) (off : Nat) : (State.bumpSat s off).logSeq = s.logSeq := (State.bumpSat_touches s off).same .logSeq (by decide)
@[simp] theorem State.bumpSat_mbx (s : State) (off : Nat) : (State.bumpSat s off).mbx = s.mbx := (State.bumpSat_touches s off).same .mbx (by decide)
@[simp] theorem State.bumpSat_ctl (s : State) (off : Nat) : (State.bumpSat s off).ctl = s.ctl := (State.bumpSat_touches s off).same .ctl (by decide)
@[simp] theorem State.bumpSat_chk (s : State) (off : Nat) : (State.bumpSat s off).chk = s.chk := (State.bumpSat_touches s off).same .chk (by decide)
@[simp] theorem State.bumpSat_pmu (s : State) (off : Nat) : (State.bumpSat s off).pmu = s.pmu := (State.bumpSat_touches s off).same .pmu (by decide)
@[simp] theorem State.bumpSat_pwr (s : State) (off : Nat) : (State.bumpSat s off).pwr = s.pwr := (State.bumpSat_touches s off).same .pwr (by decide)
@[simp] theorem State.bumpSat_mem (s : State) (off : Nat) : (State.bumpSat s off).mem = s.mem := (State.bumpSat_touches s off).same .mem (by decide)
@[simp] theorem State.bumpSat_chans (s : State) (off : Nat) : (State.bumpSat s off).chans = s.chans := (State.bumpSat_touches s off).same .chans (by decide)
@[simp] theorem State.bumpSat_eng (s : State) (off : Nat) : (State.bumpSat s off).eng = s.eng := (State.bumpSat_touches s off).same .eng (by decide)
@[simp] theorem State.bumpSat_ext (s : State) (off : Nat) : (State.bumpSat s off).ext = s.ext := (State.bumpSat_touches s off).same .ext (by decide)
@[simp] theorem State.bumpSat_surf (s : State) (off : Nat) : (State.bumpSat s off).surf = s.surf := (State.bumpSat_touches s off).same .surf (by decide)
@[simp] theorem State.bumpSat_aud (s : State) (off : Nat) : (State.bumpSat s off).aud = s.aud := (State.bumpSat_touches s off).same .aud (by decide)
@[simp] theorem State.bumpSat_net (s : State) (off : Nat) : (State.bumpSat s off).net = s.net := (State.bumpSat_touches s off).same .net (by decide)
@[simp] theorem State.bumpSat_tx (s : State) (off : Nat) : (State.bumpSat s off).tx = s.tx := (State.bumpSat_touches s off).same .tx (by decide)
@[simp] theorem State.bumpSat_txc (s : State) (off : Nat) : (State.bumpSat s off).txc = s.txc := (State.bumpSat_touches s off).same .txc (by decide)
@[simp] theorem State.bumpSat_grp (s : State) (off : Nat) : (State.bumpSat s off).grp = s.grp := (State.bumpSat_touches s off).same .grp (by decide)
@[simp] theorem State.bumpSat_lane (s : State) (off : Nat) : (State.bumpSat s off).lane = s.lane := (State.bumpSat_touches s off).same .lane (by decide)
@[simp] theorem State.bumpSat_rat (s : State) (off : Nat) : (State.bumpSat s off).rat = s.rat := (State.bumpSat_touches s off).same .rat (by decide)
@[simp] theorem State.bumpSat_out (s : State) (off : Nat) : (State.bumpSat s off).out = s.out := (State.bumpSat_touches s off).same .out (by decide)
@[simp] theorem State.bumpSat_fresh (s : State) (off : Nat) : (State.bumpSat s off).fresh = s.fresh := (State.bumpSat_touches s off).same .fresh (by decide)
@[simp] theorem State.bumpSat_pending (s : State) (off : Nat) : (State.bumpSat s off).pending = s.pending := (State.bumpSat_touches s off).same .pending (by decide)
@[simp] theorem State.readClear_time (s : State) (off : Nat) : (State.readClear s off).time = s.time := (State.readClear_touches s off).same .time (by decide)
@[simp] theorem State.readClear_dev (s : State) (off : Nat) : (State.readClear s off).dev = s.dev := (State.readClear_touches s off).same .dev (by decide)
@[simp] theorem State.readClear_log (s : State) (off : Nat) : (State.readClear s off).log = s.log := (State.readClear_touches s off).same .log (by decide)
@[simp] theorem State.readClear_logSeq (s : State) (off : Nat) : (State.readClear s off).logSeq = s.logSeq := (State.readClear_touches s off).same .logSeq (by decide)
@[simp] theorem State.readClear_ctl (s : State) (off : Nat) : (State.readClear s off).ctl = s.ctl := (State.readClear_touches s off).same .ctl (by decide)
@[simp] theorem State.readClear_chk (s : State) (off : Nat) : (State.readClear s off).chk = s.chk := (State.readClear_touches s off).same .chk (by decide)
@[simp] theorem State.readClear_pmu (s : State) (off : Nat) : (State.readClear s off).pmu = s.pmu := (State.readClear_touches s off).same .pmu (by decide)
@[simp] theorem State.readClear_pwr (s : State) (off : Nat) : (State.readClear s off).pwr = s.pwr := (State.readClear_touches s off).same .pwr (by decide)
@[simp] theorem State.readClear_mem (s : State) (off : Nat) : (State.readClear s off).mem = s.mem := (State.readClear_touches s off).same .mem (by decide)
@[simp] theorem State.readClear_chans (s : State) (off : Nat) : (State.readClear s off).chans = s.chans := (State.readClear_touches s off).same .chans (by decide)
@[simp] theorem State.readClear_eng (s : State) (off : Nat) : (State.readClear s off).eng = s.eng := (State.readClear_touches s off).same .eng (by decide)
@[simp] theorem State.readClear_ext (s : State) (off : Nat) : (State.readClear s off).ext = s.ext := (State.readClear_touches s off).same .ext (by decide)
@[simp] theorem State.readClear_surf (s : State) (off : Nat) : (State.readClear s off).surf = s.surf := (State.readClear_touches s off).same .surf (by decide)
@[simp] theorem State.readClear_aud (s : State) (off : Nat) : (State.readClear s off).aud = s.aud := (State.readClear_touches s off).same .aud (by decide)
@[simp] theorem State.readClear_net (s : State) (off : Nat) : (State.readClear s off).net = s.net := (State.readClear_touches s off).same .net (by decide)
@[simp] theorem State.readClear_tx (s : State) (off : Nat) : (State.readClear s off).tx = s.tx := (State.readClear_touches s off).same .tx (by decide)
@[simp] theorem State.readClear_txc (s : State) (off : Nat) : (State.readClear s off).txc = s.txc := (State.readClear_touches s off).same .txc (by decide)
@[simp] theorem State.readClear_grp (s : State) (off : Nat) : (State.readClear s off).grp = s.grp := (State.readClear_touches s off).same .grp (by decide)
@[simp] theorem State.readClear_lane (s : State) (off : Nat) : (State.readClear s off).lane = s.lane := (State.readClear_touches s off).same .lane (by decide)
@[simp] theorem State.readClear_rat (s : State) (off : Nat) : (State.readClear s off).rat = s.rat := (State.readClear_touches s off).same .rat (by decide)
@[simp] theorem State.readClear_fresh (s : State) (off : Nat) : (State.readClear s off).fresh = s.fresh := (State.readClear_touches s off).same .fresh (by decide)
@[simp] theorem State.readClear_pending (s : State) (off : Nat) : (State.readClear s off).pending = s.pending := (State.readClear_touches s off).same .pending (by decide)
@[simp] theorem State.readReserved_regs (s : State) : (State.readReserved s).regs = s.regs := (State.readReserved_touches s).same .regs (by decide)
@[simp] theorem State.readReserved_time (s : State) : (State.readReserved s).time = s.time := (State.readReserved_touches s).same .time (by decide)
@[simp] theorem State.readReserved_dev (s : State) : (State.readReserved s).dev = s.dev := (State.readReserved_touches s).same .dev (by decide)
@[simp] theorem State.readReserved_log (s : State) : (State.readReserved s).log = s.log := (State.readReserved_touches s).same .log (by decide)
@[simp] theorem State.readReserved_logSeq (s : State) : (State.readReserved s).logSeq = s.logSeq := (State.readReserved_touches s).same .logSeq (by decide)
@[simp] theorem State.readReserved_ctl (s : State) : (State.readReserved s).ctl = s.ctl := (State.readReserved_touches s).same .ctl (by decide)
@[simp] theorem State.readReserved_chk (s : State) : (State.readReserved s).chk = s.chk := (State.readReserved_touches s).same .chk (by decide)
@[simp] theorem State.readReserved_pmu (s : State) : (State.readReserved s).pmu = s.pmu := (State.readReserved_touches s).same .pmu (by decide)
@[simp] theorem State.readReserved_pwr (s : State) : (State.readReserved s).pwr = s.pwr := (State.readReserved_touches s).same .pwr (by decide)
@[simp] theorem State.readReserved_mem (s : State) : (State.readReserved s).mem = s.mem := (State.readReserved_touches s).same .mem (by decide)
@[simp] theorem State.readReserved_chans (s : State) : (State.readReserved s).chans = s.chans := (State.readReserved_touches s).same .chans (by decide)
@[simp] theorem State.readReserved_eng (s : State) : (State.readReserved s).eng = s.eng := (State.readReserved_touches s).same .eng (by decide)
@[simp] theorem State.readReserved_ext (s : State) : (State.readReserved s).ext = s.ext := (State.readReserved_touches s).same .ext (by decide)
@[simp] theorem State.readReserved_surf (s : State) : (State.readReserved s).surf = s.surf := (State.readReserved_touches s).same .surf (by decide)
@[simp] theorem State.readReserved_aud (s : State) : (State.readReserved s).aud = s.aud := (State.readReserved_touches s).same .aud (by decide)
@[simp] theorem State.readReserved_net (s : State) : (State.readReserved s).net = s.net := (State.readReserved_touches s).same .net (by decide)
@[simp] theorem State.readReserved_tx (s : State) : (State.readReserved s).tx = s.tx := (State.readReserved_touches s).same .tx (by decide)
@[simp] theorem State.readReserved_txc (s : State) : (State.readReserved s).txc = s.txc := (State.readReserved_touches s).same .txc (by decide)
@[simp] theorem State.readReserved_grp (s : State) : (State.readReserved s).grp = s.grp := (State.readReserved_touches s).same .grp (by decide)
@[simp] theorem State.readReserved_lane (s : State) : (State.readReserved s).lane = s.lane := (State.readReserved_touches s).same .lane (by decide)
@[simp] theorem State.readReserved_rat (s : State) : (State.readReserved s).rat = s.rat := (State.readReserved_touches s).same .rat (by decide)
@[simp] theorem State.readReserved_fresh (s : State) : (State.readReserved s).fresh = s.fresh := (State.readReserved_touches s).same .fresh (by decide)
@[simp] theorem State.readReserved_pending (s : State) : (State.readReserved s).pending = s.pending := (State.readReserved_touches s).same .pending (by decide)
@[simp] theorem State.recordMax_time (s : State) (off : Nat) (hi : Nat) (v : Nat) : (State.recordMax s off hi v).time = s.time := (State.recordMax_touches s off hi v).same .time (by decide)
@[simp] theorem State.recordMax_dev (s : State) (off : Nat) (hi : Nat) (v : Nat) : (State.recordMax s off hi v).dev = s.dev := (State.recordMax_touches s off hi v).same .dev (by decide)
@[simp] theorem State.recordMax_log (s : State) (off : Nat) (hi : Nat) (v : Nat) : (State.recordMax s off hi v).log = s.log := (State.recordMax_touches s off hi v).same .log (by decide)
@[simp] theorem State.recordMax_logSeq (s : State) (off : Nat) (hi : Nat) (v : Nat) : (State.recordMax s off hi v).logSeq = s.logSeq := (State.recordMax_touches s off hi v).same .logSeq (by decide)
@[simp] theorem State.recordMax_mbx (s : State) (off : Nat) (hi : Nat) (v : Nat) : (State.recordMax s off hi v).mbx = s.mbx := (State.recordMax_touches s off hi v).same .mbx (by decide)
@[simp] theorem State.recordMax_ctl (s : State) (off : Nat) (hi : Nat) (v : Nat) : (State.recordMax s off hi v).ctl = s.ctl := (State.recordMax_touches s off hi v).same .ctl (by decide)
@[simp] theorem State.recordMax_chk (s : State) (off : Nat) (hi : Nat) (v : Nat) : (State.recordMax s off hi v).chk = s.chk := (State.recordMax_touches s off hi v).same .chk (by decide)
@[simp] theorem State.recordMax_pmu (s : State) (off : Nat) (hi : Nat) (v : Nat) : (State.recordMax s off hi v).pmu = s.pmu := (State.recordMax_touches s off hi v).same .pmu (by decide)
@[simp] theorem State.recordMax_pwr (s : State) (off : Nat) (hi : Nat) (v : Nat) : (State.recordMax s off hi v).pwr = s.pwr := (State.recordMax_touches s off hi v).same .pwr (by decide)
@[simp] theorem State.recordMax_mem (s : State) (off : Nat) (hi : Nat) (v : Nat) : (State.recordMax s off hi v).mem = s.mem := (State.recordMax_touches s off hi v).same .mem (by decide)
@[simp] theorem State.recordMax_chans (s : State) (off : Nat) (hi : Nat) (v : Nat) : (State.recordMax s off hi v).chans = s.chans := (State.recordMax_touches s off hi v).same .chans (by decide)
@[simp] theorem State.recordMax_eng (s : State) (off : Nat) (hi : Nat) (v : Nat) : (State.recordMax s off hi v).eng = s.eng := (State.recordMax_touches s off hi v).same .eng (by decide)
@[simp] theorem State.recordMax_ext (s : State) (off : Nat) (hi : Nat) (v : Nat) : (State.recordMax s off hi v).ext = s.ext := (State.recordMax_touches s off hi v).same .ext (by decide)
@[simp] theorem State.recordMax_surf (s : State) (off : Nat) (hi : Nat) (v : Nat) : (State.recordMax s off hi v).surf = s.surf := (State.recordMax_touches s off hi v).same .surf (by decide)
@[simp] theorem State.recordMax_aud (s : State) (off : Nat) (hi : Nat) (v : Nat) : (State.recordMax s off hi v).aud = s.aud := (State.recordMax_touches s off hi v).same .aud (by decide)
@[simp] theorem State.recordMax_net (s : State) (off : Nat) (hi : Nat) (v : Nat) : (State.recordMax s off hi v).net = s.net := (State.recordMax_touches s off hi v).same .net (by decide)
@[simp] theorem State.recordMax_tx (s : State) (off : Nat) (hi : Nat) (v : Nat) : (State.recordMax s off hi v).tx = s.tx := (State.recordMax_touches s off hi v).same .tx (by decide)
@[simp] theorem State.recordMax_txc (s : State) (off : Nat) (hi : Nat) (v : Nat) : (State.recordMax s off hi v).txc = s.txc := (State.recordMax_touches s off hi v).same .txc (by decide)
@[simp] theorem State.recordMax_grp (s : State) (off : Nat) (hi : Nat) (v : Nat) : (State.recordMax s off hi v).grp = s.grp := (State.recordMax_touches s off hi v).same .grp (by decide)
@[simp] theorem State.recordMax_lane (s : State) (off : Nat) (hi : Nat) (v : Nat) : (State.recordMax s off hi v).lane = s.lane := (State.recordMax_touches s off hi v).same .lane (by decide)
@[simp] theorem State.recordMax_rat (s : State) (off : Nat) (hi : Nat) (v : Nat) : (State.recordMax s off hi v).rat = s.rat := (State.recordMax_touches s off hi v).same .rat (by decide)
@[simp] theorem State.recordMax_out (s : State) (off : Nat) (hi : Nat) (v : Nat) : (State.recordMax s off hi v).out = s.out := (State.recordMax_touches s off hi v).same .out (by decide)
@[simp] theorem State.recordMax_fresh (s : State) (off : Nat) (hi : Nat) (v : Nat) : (State.recordMax s off hi v).fresh = s.fresh := (State.recordMax_touches s off hi v).same .fresh (by decide)
@[simp] theorem State.recordMax_pending (s : State) (off : Nat) (hi : Nat) (v : Nat) : (State.recordMax s off hi v).pending = s.pending := (State.recordMax_touches s off hi v).same .pending (by decide)
@[simp] theorem State.msixRelease_regs (s : State) (v : Nat) : (State.msixRelease s v).regs = s.regs := (State.msixRelease_touches s v).same .regs (by decide)
@[simp] theorem State.msixRelease_time (s : State) (v : Nat) : (State.msixRelease s v).time = s.time := (State.msixRelease_touches s v).same .time (by decide)
@[simp] theorem State.msixRelease_dev (s : State) (v : Nat) : (State.msixRelease s v).dev = s.dev := (State.msixRelease_touches s v).same .dev (by decide)
@[simp] theorem State.msixRelease_log (s : State) (v : Nat) : (State.msixRelease s v).log = s.log := (State.msixRelease_touches s v).same .log (by decide)
@[simp] theorem State.msixRelease_logSeq (s : State) (v : Nat) : (State.msixRelease s v).logSeq = s.logSeq := (State.msixRelease_touches s v).same .logSeq (by decide)
@[simp] theorem State.msixRelease_ctl (s : State) (v : Nat) : (State.msixRelease s v).ctl = s.ctl := (State.msixRelease_touches s v).same .ctl (by decide)
@[simp] theorem State.msixRelease_chk (s : State) (v : Nat) : (State.msixRelease s v).chk = s.chk := (State.msixRelease_touches s v).same .chk (by decide)
@[simp] theorem State.msixRelease_pmu (s : State) (v : Nat) : (State.msixRelease s v).pmu = s.pmu := (State.msixRelease_touches s v).same .pmu (by decide)
@[simp] theorem State.msixRelease_pwr (s : State) (v : Nat) : (State.msixRelease s v).pwr = s.pwr := (State.msixRelease_touches s v).same .pwr (by decide)
@[simp] theorem State.msixRelease_mem (s : State) (v : Nat) : (State.msixRelease s v).mem = s.mem := (State.msixRelease_touches s v).same .mem (by decide)
@[simp] theorem State.msixRelease_chans (s : State) (v : Nat) : (State.msixRelease s v).chans = s.chans := (State.msixRelease_touches s v).same .chans (by decide)
@[simp] theorem State.msixRelease_eng (s : State) (v : Nat) : (State.msixRelease s v).eng = s.eng := (State.msixRelease_touches s v).same .eng (by decide)
@[simp] theorem State.msixRelease_ext (s : State) (v : Nat) : (State.msixRelease s v).ext = s.ext := (State.msixRelease_touches s v).same .ext (by decide)
@[simp] theorem State.msixRelease_surf (s : State) (v : Nat) : (State.msixRelease s v).surf = s.surf := (State.msixRelease_touches s v).same .surf (by decide)
@[simp] theorem State.msixRelease_aud (s : State) (v : Nat) : (State.msixRelease s v).aud = s.aud := (State.msixRelease_touches s v).same .aud (by decide)
@[simp] theorem State.msixRelease_net (s : State) (v : Nat) : (State.msixRelease s v).net = s.net := (State.msixRelease_touches s v).same .net (by decide)
@[simp] theorem State.msixRelease_tx (s : State) (v : Nat) : (State.msixRelease s v).tx = s.tx := (State.msixRelease_touches s v).same .tx (by decide)
@[simp] theorem State.msixRelease_txc (s : State) (v : Nat) : (State.msixRelease s v).txc = s.txc := (State.msixRelease_touches s v).same .txc (by decide)
@[simp] theorem State.msixRelease_grp (s : State) (v : Nat) : (State.msixRelease s v).grp = s.grp := (State.msixRelease_touches s v).same .grp (by decide)
@[simp] theorem State.msixRelease_lane (s : State) (v : Nat) : (State.msixRelease s v).lane = s.lane := (State.msixRelease_touches s v).same .lane (by decide)
@[simp] theorem State.msixRelease_rat (s : State) (v : Nat) : (State.msixRelease s v).rat = s.rat := (State.msixRelease_touches s v).same .rat (by decide)
@[simp] theorem State.msixRelease_fresh (s : State) (v : Nat) : (State.msixRelease s v).fresh = s.fresh := (State.msixRelease_touches s v).same .fresh (by decide)
@[simp] theorem State.msixRelease_pending (s : State) (v : Nat) : (State.msixRelease s v).pending = s.pending := (State.msixRelease_touches s v).same .pending (by decide)
@[simp] theorem State.pmuAdvance_time (s : State) (i : Nat) (n : Nat) : (State.pmuAdvance s i n).time = s.time := (State.pmuAdvance_touches s i n).same .time (by decide)
@[simp] theorem State.pmuAdvance_dev (s : State) (i : Nat) (n : Nat) : (State.pmuAdvance s i n).dev = s.dev := (State.pmuAdvance_touches s i n).same .dev (by decide)
@[simp] theorem State.pmuAdvance_log (s : State) (i : Nat) (n : Nat) : (State.pmuAdvance s i n).log = s.log := (State.pmuAdvance_touches s i n).same .log (by decide)
@[simp] theorem State.pmuAdvance_logSeq (s : State) (i : Nat) (n : Nat) : (State.pmuAdvance s i n).logSeq = s.logSeq := (State.pmuAdvance_touches s i n).same .logSeq (by decide)
@[simp] theorem State.pmuAdvance_mbx (s : State) (i : Nat) (n : Nat) : (State.pmuAdvance s i n).mbx = s.mbx := (State.pmuAdvance_touches s i n).same .mbx (by decide)
@[simp] theorem State.pmuAdvance_ctl (s : State) (i : Nat) (n : Nat) : (State.pmuAdvance s i n).ctl = s.ctl := (State.pmuAdvance_touches s i n).same .ctl (by decide)
@[simp] theorem State.pmuAdvance_chk (s : State) (i : Nat) (n : Nat) : (State.pmuAdvance s i n).chk = s.chk := (State.pmuAdvance_touches s i n).same .chk (by decide)
@[simp] theorem State.pmuAdvance_pwr (s : State) (i : Nat) (n : Nat) : (State.pmuAdvance s i n).pwr = s.pwr := (State.pmuAdvance_touches s i n).same .pwr (by decide)
@[simp] theorem State.pmuAdvance_mem (s : State) (i : Nat) (n : Nat) : (State.pmuAdvance s i n).mem = s.mem := (State.pmuAdvance_touches s i n).same .mem (by decide)
@[simp] theorem State.pmuAdvance_chans (s : State) (i : Nat) (n : Nat) : (State.pmuAdvance s i n).chans = s.chans := (State.pmuAdvance_touches s i n).same .chans (by decide)
@[simp] theorem State.pmuAdvance_eng (s : State) (i : Nat) (n : Nat) : (State.pmuAdvance s i n).eng = s.eng := (State.pmuAdvance_touches s i n).same .eng (by decide)
@[simp] theorem State.pmuAdvance_ext (s : State) (i : Nat) (n : Nat) : (State.pmuAdvance s i n).ext = s.ext := (State.pmuAdvance_touches s i n).same .ext (by decide)
@[simp] theorem State.pmuAdvance_surf (s : State) (i : Nat) (n : Nat) : (State.pmuAdvance s i n).surf = s.surf := (State.pmuAdvance_touches s i n).same .surf (by decide)
@[simp] theorem State.pmuAdvance_aud (s : State) (i : Nat) (n : Nat) : (State.pmuAdvance s i n).aud = s.aud := (State.pmuAdvance_touches s i n).same .aud (by decide)
@[simp] theorem State.pmuAdvance_net (s : State) (i : Nat) (n : Nat) : (State.pmuAdvance s i n).net = s.net := (State.pmuAdvance_touches s i n).same .net (by decide)
@[simp] theorem State.pmuAdvance_tx (s : State) (i : Nat) (n : Nat) : (State.pmuAdvance s i n).tx = s.tx := (State.pmuAdvance_touches s i n).same .tx (by decide)
@[simp] theorem State.pmuAdvance_txc (s : State) (i : Nat) (n : Nat) : (State.pmuAdvance s i n).txc = s.txc := (State.pmuAdvance_touches s i n).same .txc (by decide)
@[simp] theorem State.pmuAdvance_grp (s : State) (i : Nat) (n : Nat) : (State.pmuAdvance s i n).grp = s.grp := (State.pmuAdvance_touches s i n).same .grp (by decide)
@[simp] theorem State.pmuAdvance_lane (s : State) (i : Nat) (n : Nat) : (State.pmuAdvance s i n).lane = s.lane := (State.pmuAdvance_touches s i n).same .lane (by decide)
@[simp] theorem State.pmuAdvance_rat (s : State) (i : Nat) (n : Nat) : (State.pmuAdvance s i n).rat = s.rat := (State.pmuAdvance_touches s i n).same .rat (by decide)
@[simp] theorem State.pmuAdvance_out (s : State) (i : Nat) (n : Nat) : (State.pmuAdvance s i n).out = s.out := (State.pmuAdvance_touches s i n).same .out (by decide)
@[simp] theorem State.pmuAdvance_fresh (s : State) (i : Nat) (n : Nat) : (State.pmuAdvance s i n).fresh = s.fresh := (State.pmuAdvance_touches s i n).same .fresh (by decide)
@[simp] theorem State.pmuAdvance_pending (s : State) (i : Nat) (n : Nat) : (State.pmuAdvance s i n).pending = s.pending := (State.pmuAdvance_touches s i n).same .pending (by decide)
@[simp] theorem State.unsupported_regs (s : State) : (State.unsupported s).regs = s.regs := (State.unsupported_touches s).same .regs (by decide)
@[simp] theorem State.unsupported_time (s : State) : (State.unsupported s).time = s.time := (State.unsupported_touches s).same .time (by decide)
@[simp] theorem State.unsupported_dev (s : State) : (State.unsupported s).dev = s.dev := (State.unsupported_touches s).same .dev (by decide)
@[simp] theorem State.unsupported_log (s : State) : (State.unsupported s).log = s.log := (State.unsupported_touches s).same .log (by decide)
@[simp] theorem State.unsupported_logSeq (s : State) : (State.unsupported s).logSeq = s.logSeq := (State.unsupported_touches s).same .logSeq (by decide)
@[simp] theorem State.unsupported_ctl (s : State) : (State.unsupported s).ctl = s.ctl := (State.unsupported_touches s).same .ctl (by decide)
@[simp] theorem State.unsupported_chk (s : State) : (State.unsupported s).chk = s.chk := (State.unsupported_touches s).same .chk (by decide)
@[simp] theorem State.unsupported_pmu (s : State) : (State.unsupported s).pmu = s.pmu := (State.unsupported_touches s).same .pmu (by decide)
@[simp] theorem State.unsupported_pwr (s : State) : (State.unsupported s).pwr = s.pwr := (State.unsupported_touches s).same .pwr (by decide)
@[simp] theorem State.unsupported_mem (s : State) : (State.unsupported s).mem = s.mem := (State.unsupported_touches s).same .mem (by decide)
@[simp] theorem State.unsupported_chans (s : State) : (State.unsupported s).chans = s.chans := (State.unsupported_touches s).same .chans (by decide)
@[simp] theorem State.unsupported_eng (s : State) : (State.unsupported s).eng = s.eng := (State.unsupported_touches s).same .eng (by decide)
@[simp] theorem State.unsupported_ext (s : State) : (State.unsupported s).ext = s.ext := (State.unsupported_touches s).same .ext (by decide)
@[simp] theorem State.unsupported_surf (s : State) : (State.unsupported s).surf = s.surf := (State.unsupported_touches s).same .surf (by decide)
@[simp] theorem State.unsupported_aud (s : State) : (State.unsupported s).aud = s.aud := (State.unsupported_touches s).same .aud (by decide)
@[simp] theorem State.unsupported_net (s : State) : (State.unsupported s).net = s.net := (State.unsupported_touches s).same .net (by decide)
@[simp] theorem State.unsupported_tx (s : State) : (State.unsupported s).tx = s.tx := (State.unsupported_touches s).same .tx (by decide)
@[simp] theorem State.unsupported_txc (s : State) : (State.unsupported s).txc = s.txc := (State.unsupported_touches s).same .txc (by decide)
@[simp] theorem State.unsupported_grp (s : State) : (State.unsupported s).grp = s.grp := (State.unsupported_touches s).same .grp (by decide)
@[simp] theorem State.unsupported_lane (s : State) : (State.unsupported s).lane = s.lane := (State.unsupported_touches s).same .lane (by decide)
@[simp] theorem State.unsupported_rat (s : State) : (State.unsupported s).rat = s.rat := (State.unsupported_touches s).same .rat (by decide)
@[simp] theorem State.unsupported_fresh (s : State) : (State.unsupported s).fresh = s.fresh := (State.unsupported_touches s).same .fresh (by decide)
@[simp] theorem State.unsupported_pending (s : State) : (State.unsupported s).pending = s.pending := (State.unsupported_touches s).same .pending (by decide)
@[simp] theorem State.signal_regs (s : State) (v : Nat) : (State.signal s v).regs = s.regs := (State.signal_touches s v).same .regs (by decide)
@[simp] theorem State.signal_time (s : State) (v : Nat) : (State.signal s v).time = s.time := (State.signal_touches s v).same .time (by decide)
@[simp] theorem State.signal_dev (s : State) (v : Nat) : (State.signal s v).dev = s.dev := (State.signal_touches s v).same .dev (by decide)
@[simp] theorem State.signal_log (s : State) (v : Nat) : (State.signal s v).log = s.log := (State.signal_touches s v).same .log (by decide)
@[simp] theorem State.signal_logSeq (s : State) (v : Nat) : (State.signal s v).logSeq = s.logSeq := (State.signal_touches s v).same .logSeq (by decide)
@[simp] theorem State.signal_ctl (s : State) (v : Nat) : (State.signal s v).ctl = s.ctl := (State.signal_touches s v).same .ctl (by decide)
@[simp] theorem State.signal_chk (s : State) (v : Nat) : (State.signal s v).chk = s.chk := (State.signal_touches s v).same .chk (by decide)
@[simp] theorem State.signal_pmu (s : State) (v : Nat) : (State.signal s v).pmu = s.pmu := (State.signal_touches s v).same .pmu (by decide)
@[simp] theorem State.signal_pwr (s : State) (v : Nat) : (State.signal s v).pwr = s.pwr := (State.signal_touches s v).same .pwr (by decide)
@[simp] theorem State.signal_mem (s : State) (v : Nat) : (State.signal s v).mem = s.mem := (State.signal_touches s v).same .mem (by decide)
@[simp] theorem State.signal_chans (s : State) (v : Nat) : (State.signal s v).chans = s.chans := (State.signal_touches s v).same .chans (by decide)
@[simp] theorem State.signal_eng (s : State) (v : Nat) : (State.signal s v).eng = s.eng := (State.signal_touches s v).same .eng (by decide)
@[simp] theorem State.signal_ext (s : State) (v : Nat) : (State.signal s v).ext = s.ext := (State.signal_touches s v).same .ext (by decide)
@[simp] theorem State.signal_surf (s : State) (v : Nat) : (State.signal s v).surf = s.surf := (State.signal_touches s v).same .surf (by decide)
@[simp] theorem State.signal_aud (s : State) (v : Nat) : (State.signal s v).aud = s.aud := (State.signal_touches s v).same .aud (by decide)
@[simp] theorem State.signal_net (s : State) (v : Nat) : (State.signal s v).net = s.net := (State.signal_touches s v).same .net (by decide)
@[simp] theorem State.signal_tx (s : State) (v : Nat) : (State.signal s v).tx = s.tx := (State.signal_touches s v).same .tx (by decide)
@[simp] theorem State.signal_txc (s : State) (v : Nat) : (State.signal s v).txc = s.txc := (State.signal_touches s v).same .txc (by decide)
@[simp] theorem State.signal_grp (s : State) (v : Nat) : (State.signal s v).grp = s.grp := (State.signal_touches s v).same .grp (by decide)
@[simp] theorem State.signal_lane (s : State) (v : Nat) : (State.signal s v).lane = s.lane := (State.signal_touches s v).same .lane (by decide)
@[simp] theorem State.signal_rat (s : State) (v : Nat) : (State.signal s v).rat = s.rat := (State.signal_touches s v).same .rat (by decide)
@[simp] theorem State.signal_fresh (s : State) (v : Nat) : (State.signal s v).fresh = s.fresh := (State.signal_touches s v).same .fresh (by decide)
@[simp] theorem State.signal_pending (s : State) (v : Nat) : (State.signal s v).pending = s.pending := (State.signal_touches s v).same .pending (by decide)
@[simp] theorem State.histUnit_time (s : State) (src : Nat) (item : Nat) (v : ℤ) (h : Nat) : (State.histUnit s src item v h).time = s.time := (State.histUnit_touches s src item v h).same .time (by decide)
@[simp] theorem State.histUnit_dev (s : State) (src : Nat) (item : Nat) (v : ℤ) (h : Nat) : (State.histUnit s src item v h).dev = s.dev := (State.histUnit_touches s src item v h).same .dev (by decide)
@[simp] theorem State.histUnit_log (s : State) (src : Nat) (item : Nat) (v : ℤ) (h : Nat) : (State.histUnit s src item v h).log = s.log := (State.histUnit_touches s src item v h).same .log (by decide)
@[simp] theorem State.histUnit_logSeq (s : State) (src : Nat) (item : Nat) (v : ℤ) (h : Nat) : (State.histUnit s src item v h).logSeq = s.logSeq := (State.histUnit_touches s src item v h).same .logSeq (by decide)
@[simp] theorem State.histUnit_mbx (s : State) (src : Nat) (item : Nat) (v : ℤ) (h : Nat) : (State.histUnit s src item v h).mbx = s.mbx := (State.histUnit_touches s src item v h).same .mbx (by decide)
@[simp] theorem State.histUnit_ctl (s : State) (src : Nat) (item : Nat) (v : ℤ) (h : Nat) : (State.histUnit s src item v h).ctl = s.ctl := (State.histUnit_touches s src item v h).same .ctl (by decide)
@[simp] theorem State.histUnit_chk (s : State) (src : Nat) (item : Nat) (v : ℤ) (h : Nat) : (State.histUnit s src item v h).chk = s.chk := (State.histUnit_touches s src item v h).same .chk (by decide)
@[simp] theorem State.histUnit_pmu (s : State) (src : Nat) (item : Nat) (v : ℤ) (h : Nat) : (State.histUnit s src item v h).pmu = s.pmu := (State.histUnit_touches s src item v h).same .pmu (by decide)
@[simp] theorem State.histUnit_pwr (s : State) (src : Nat) (item : Nat) (v : ℤ) (h : Nat) : (State.histUnit s src item v h).pwr = s.pwr := (State.histUnit_touches s src item v h).same .pwr (by decide)
@[simp] theorem State.histUnit_mem (s : State) (src : Nat) (item : Nat) (v : ℤ) (h : Nat) : (State.histUnit s src item v h).mem = s.mem := (State.histUnit_touches s src item v h).same .mem (by decide)
@[simp] theorem State.histUnit_chans (s : State) (src : Nat) (item : Nat) (v : ℤ) (h : Nat) : (State.histUnit s src item v h).chans = s.chans := (State.histUnit_touches s src item v h).same .chans (by decide)
@[simp] theorem State.histUnit_eng (s : State) (src : Nat) (item : Nat) (v : ℤ) (h : Nat) : (State.histUnit s src item v h).eng = s.eng := (State.histUnit_touches s src item v h).same .eng (by decide)
@[simp] theorem State.histUnit_ext (s : State) (src : Nat) (item : Nat) (v : ℤ) (h : Nat) : (State.histUnit s src item v h).ext = s.ext := (State.histUnit_touches s src item v h).same .ext (by decide)
@[simp] theorem State.histUnit_surf (s : State) (src : Nat) (item : Nat) (v : ℤ) (h : Nat) : (State.histUnit s src item v h).surf = s.surf := (State.histUnit_touches s src item v h).same .surf (by decide)
@[simp] theorem State.histUnit_aud (s : State) (src : Nat) (item : Nat) (v : ℤ) (h : Nat) : (State.histUnit s src item v h).aud = s.aud := (State.histUnit_touches s src item v h).same .aud (by decide)
@[simp] theorem State.histUnit_net (s : State) (src : Nat) (item : Nat) (v : ℤ) (h : Nat) : (State.histUnit s src item v h).net = s.net := (State.histUnit_touches s src item v h).same .net (by decide)
@[simp] theorem State.histUnit_tx (s : State) (src : Nat) (item : Nat) (v : ℤ) (h : Nat) : (State.histUnit s src item v h).tx = s.tx := (State.histUnit_touches s src item v h).same .tx (by decide)
@[simp] theorem State.histUnit_txc (s : State) (src : Nat) (item : Nat) (v : ℤ) (h : Nat) : (State.histUnit s src item v h).txc = s.txc := (State.histUnit_touches s src item v h).same .txc (by decide)
@[simp] theorem State.histUnit_grp (s : State) (src : Nat) (item : Nat) (v : ℤ) (h : Nat) : (State.histUnit s src item v h).grp = s.grp := (State.histUnit_touches s src item v h).same .grp (by decide)
@[simp] theorem State.histUnit_lane (s : State) (src : Nat) (item : Nat) (v : ℤ) (h : Nat) : (State.histUnit s src item v h).lane = s.lane := (State.histUnit_touches s src item v h).same .lane (by decide)
@[simp] theorem State.histUnit_rat (s : State) (src : Nat) (item : Nat) (v : ℤ) (h : Nat) : (State.histUnit s src item v h).rat = s.rat := (State.histUnit_touches s src item v h).same .rat (by decide)
@[simp] theorem State.histUnit_out (s : State) (src : Nat) (item : Nat) (v : ℤ) (h : Nat) : (State.histUnit s src item v h).out = s.out := (State.histUnit_touches s src item v h).same .out (by decide)
@[simp] theorem State.histUnit_fresh (s : State) (src : Nat) (item : Nat) (v : ℤ) (h : Nat) : (State.histUnit s src item v h).fresh = s.fresh := (State.histUnit_touches s src item v h).same .fresh (by decide)
@[simp] theorem State.histUnit_pending (s : State) (src : Nat) (item : Nat) (v : ℤ) (h : Nat) : (State.histUnit s src item v h).pending = s.pending := (State.histUnit_touches s src item v h).same .pending (by decide)
@[simp] theorem State.stopAll_time (s : State) : (State.stopAll s).time = s.time := (State.stopAll_touches s).same .time (by decide)
@[simp] theorem State.stopAll_dev (s : State) : (State.stopAll s).dev = s.dev := (State.stopAll_touches s).same .dev (by decide)
@[simp] theorem State.stopAll_log (s : State) : (State.stopAll s).log = s.log := (State.stopAll_touches s).same .log (by decide)
@[simp] theorem State.stopAll_logSeq (s : State) : (State.stopAll s).logSeq = s.logSeq := (State.stopAll_touches s).same .logSeq (by decide)
@[simp] theorem State.stopAll_mbx (s : State) : (State.stopAll s).mbx = s.mbx := (State.stopAll_touches s).same .mbx (by decide)
@[simp] theorem State.stopAll_ctl (s : State) : (State.stopAll s).ctl = s.ctl := (State.stopAll_touches s).same .ctl (by decide)
@[simp] theorem State.stopAll_chk (s : State) : (State.stopAll s).chk = s.chk := (State.stopAll_touches s).same .chk (by decide)
@[simp] theorem State.stopAll_pmu (s : State) : (State.stopAll s).pmu = s.pmu := (State.stopAll_touches s).same .pmu (by decide)
@[simp] theorem State.stopAll_pwr (s : State) : (State.stopAll s).pwr = s.pwr := (State.stopAll_touches s).same .pwr (by decide)
@[simp] theorem State.stopAll_mem (s : State) : (State.stopAll s).mem = s.mem := (State.stopAll_touches s).same .mem (by decide)
@[simp] theorem State.stopAll_eng (s : State) : (State.stopAll s).eng = s.eng := (State.stopAll_touches s).same .eng (by decide)
@[simp] theorem State.stopAll_ext (s : State) : (State.stopAll s).ext = s.ext := (State.stopAll_touches s).same .ext (by decide)
@[simp] theorem State.stopAll_surf (s : State) : (State.stopAll s).surf = s.surf := (State.stopAll_touches s).same .surf (by decide)
@[simp] theorem State.stopAll_aud (s : State) : (State.stopAll s).aud = s.aud := (State.stopAll_touches s).same .aud (by decide)
@[simp] theorem State.stopAll_net (s : State) : (State.stopAll s).net = s.net := (State.stopAll_touches s).same .net (by decide)
@[simp] theorem State.stopAll_tx (s : State) : (State.stopAll s).tx = s.tx := (State.stopAll_touches s).same .tx (by decide)
@[simp] theorem State.stopAll_txc (s : State) : (State.stopAll s).txc = s.txc := (State.stopAll_touches s).same .txc (by decide)
@[simp] theorem State.stopAll_grp (s : State) : (State.stopAll s).grp = s.grp := (State.stopAll_touches s).same .grp (by decide)
@[simp] theorem State.stopAll_lane (s : State) : (State.stopAll s).lane = s.lane := (State.stopAll_touches s).same .lane (by decide)
@[simp] theorem State.stopAll_rat (s : State) : (State.stopAll s).rat = s.rat := (State.stopAll_touches s).same .rat (by decide)
@[simp] theorem State.stopAll_out (s : State) : (State.stopAll s).out = s.out := (State.stopAll_touches s).same .out (by decide)
@[simp] theorem State.stopAll_fresh (s : State) : (State.stopAll s).fresh = s.fresh := (State.stopAll_touches s).same .fresh (by decide)
@[simp] theorem State.stopAll_pending (s : State) : (State.stopAll s).pending = s.pending := (State.stopAll_touches s).same .pending (by decide)
@[simp] theorem State.pmuEvent_time (s : State) (cls : Nat) (num : Nat) : (State.pmuEvent s cls num).time = s.time := (State.pmuEvent_touches s cls num).same .time (by decide)
@[simp] theorem State.pmuEvent_dev (s : State) (cls : Nat) (num : Nat) : (State.pmuEvent s cls num).dev = s.dev := (State.pmuEvent_touches s cls num).same .dev (by decide)
@[simp] theorem State.pmuEvent_log (s : State) (cls : Nat) (num : Nat) : (State.pmuEvent s cls num).log = s.log := (State.pmuEvent_touches s cls num).same .log (by decide)
@[simp] theorem State.pmuEvent_logSeq (s : State) (cls : Nat) (num : Nat) : (State.pmuEvent s cls num).logSeq = s.logSeq := (State.pmuEvent_touches s cls num).same .logSeq (by decide)
@[simp] theorem State.pmuEvent_mbx (s : State) (cls : Nat) (num : Nat) : (State.pmuEvent s cls num).mbx = s.mbx := (State.pmuEvent_touches s cls num).same .mbx (by decide)
@[simp] theorem State.pmuEvent_ctl (s : State) (cls : Nat) (num : Nat) : (State.pmuEvent s cls num).ctl = s.ctl := (State.pmuEvent_touches s cls num).same .ctl (by decide)
@[simp] theorem State.pmuEvent_chk (s : State) (cls : Nat) (num : Nat) : (State.pmuEvent s cls num).chk = s.chk := (State.pmuEvent_touches s cls num).same .chk (by decide)
@[simp] theorem State.pmuEvent_pwr (s : State) (cls : Nat) (num : Nat) : (State.pmuEvent s cls num).pwr = s.pwr := (State.pmuEvent_touches s cls num).same .pwr (by decide)
@[simp] theorem State.pmuEvent_mem (s : State) (cls : Nat) (num : Nat) : (State.pmuEvent s cls num).mem = s.mem := (State.pmuEvent_touches s cls num).same .mem (by decide)
@[simp] theorem State.pmuEvent_chans (s : State) (cls : Nat) (num : Nat) : (State.pmuEvent s cls num).chans = s.chans := (State.pmuEvent_touches s cls num).same .chans (by decide)
@[simp] theorem State.pmuEvent_eng (s : State) (cls : Nat) (num : Nat) : (State.pmuEvent s cls num).eng = s.eng := (State.pmuEvent_touches s cls num).same .eng (by decide)
@[simp] theorem State.pmuEvent_ext (s : State) (cls : Nat) (num : Nat) : (State.pmuEvent s cls num).ext = s.ext := (State.pmuEvent_touches s cls num).same .ext (by decide)
@[simp] theorem State.pmuEvent_surf (s : State) (cls : Nat) (num : Nat) : (State.pmuEvent s cls num).surf = s.surf := (State.pmuEvent_touches s cls num).same .surf (by decide)
@[simp] theorem State.pmuEvent_aud (s : State) (cls : Nat) (num : Nat) : (State.pmuEvent s cls num).aud = s.aud := (State.pmuEvent_touches s cls num).same .aud (by decide)
@[simp] theorem State.pmuEvent_net (s : State) (cls : Nat) (num : Nat) : (State.pmuEvent s cls num).net = s.net := (State.pmuEvent_touches s cls num).same .net (by decide)
@[simp] theorem State.pmuEvent_tx (s : State) (cls : Nat) (num : Nat) : (State.pmuEvent s cls num).tx = s.tx := (State.pmuEvent_touches s cls num).same .tx (by decide)
@[simp] theorem State.pmuEvent_txc (s : State) (cls : Nat) (num : Nat) : (State.pmuEvent s cls num).txc = s.txc := (State.pmuEvent_touches s cls num).same .txc (by decide)
@[simp] theorem State.pmuEvent_grp (s : State) (cls : Nat) (num : Nat) : (State.pmuEvent s cls num).grp = s.grp := (State.pmuEvent_touches s cls num).same .grp (by decide)
@[simp] theorem State.pmuEvent_lane (s : State) (cls : Nat) (num : Nat) : (State.pmuEvent s cls num).lane = s.lane := (State.pmuEvent_touches s cls num).same .lane (by decide)
@[simp] theorem State.pmuEvent_rat (s : State) (cls : Nat) (num : Nat) : (State.pmuEvent s cls num).rat = s.rat := (State.pmuEvent_touches s cls num).same .rat (by decide)
@[simp] theorem State.pmuEvent_out (s : State) (cls : Nat) (num : Nat) : (State.pmuEvent s cls num).out = s.out := (State.pmuEvent_touches s cls num).same .out (by decide)
@[simp] theorem State.pmuEvent_fresh (s : State) (cls : Nat) (num : Nat) : (State.pmuEvent s cls num).fresh = s.fresh := (State.pmuEvent_touches s cls num).same .fresh (by decide)
@[simp] theorem State.pmuEvent_pending (s : State) (cls : Nat) (num : Nat) : (State.pmuEvent s cls num).pending = s.pending := (State.pmuEvent_touches s cls num).same .pending (by decide)
@[simp] theorem State.emit_regs (s : State) (o : Out) : (State.emit s o).regs = s.regs := (State.emit_touches s o).same .regs (by decide)
@[simp] theorem State.emit_time (s : State) (o : Out) : (State.emit s o).time = s.time := (State.emit_touches s o).same .time (by decide)
@[simp] theorem State.emit_dev (s : State) (o : Out) : (State.emit s o).dev = s.dev := (State.emit_touches s o).same .dev (by decide)
@[simp] theorem State.emit_log (s : State) (o : Out) : (State.emit s o).log = s.log := (State.emit_touches s o).same .log (by decide)
@[simp] theorem State.emit_logSeq (s : State) (o : Out) : (State.emit s o).logSeq = s.logSeq := (State.emit_touches s o).same .logSeq (by decide)
@[simp] theorem State.emit_mbx (s : State) (o : Out) : (State.emit s o).mbx = s.mbx := (State.emit_touches s o).same .mbx (by decide)
@[simp] theorem State.emit_ctl (s : State) (o : Out) : (State.emit s o).ctl = s.ctl := (State.emit_touches s o).same .ctl (by decide)
@[simp] theorem State.emit_chk (s : State) (o : Out) : (State.emit s o).chk = s.chk := (State.emit_touches s o).same .chk (by decide)
@[simp] theorem State.emit_pmu (s : State) (o : Out) : (State.emit s o).pmu = s.pmu := (State.emit_touches s o).same .pmu (by decide)
@[simp] theorem State.emit_pwr (s : State) (o : Out) : (State.emit s o).pwr = s.pwr := (State.emit_touches s o).same .pwr (by decide)
@[simp] theorem State.emit_mem (s : State) (o : Out) : (State.emit s o).mem = s.mem := (State.emit_touches s o).same .mem (by decide)
@[simp] theorem State.emit_chans (s : State) (o : Out) : (State.emit s o).chans = s.chans := (State.emit_touches s o).same .chans (by decide)
@[simp] theorem State.emit_eng (s : State) (o : Out) : (State.emit s o).eng = s.eng := (State.emit_touches s o).same .eng (by decide)
@[simp] theorem State.emit_ext (s : State) (o : Out) : (State.emit s o).ext = s.ext := (State.emit_touches s o).same .ext (by decide)
@[simp] theorem State.emit_surf (s : State) (o : Out) : (State.emit s o).surf = s.surf := (State.emit_touches s o).same .surf (by decide)
@[simp] theorem State.emit_aud (s : State) (o : Out) : (State.emit s o).aud = s.aud := (State.emit_touches s o).same .aud (by decide)
@[simp] theorem State.emit_net (s : State) (o : Out) : (State.emit s o).net = s.net := (State.emit_touches s o).same .net (by decide)
@[simp] theorem State.emit_tx (s : State) (o : Out) : (State.emit s o).tx = s.tx := (State.emit_touches s o).same .tx (by decide)
@[simp] theorem State.emit_txc (s : State) (o : Out) : (State.emit s o).txc = s.txc := (State.emit_touches s o).same .txc (by decide)
@[simp] theorem State.emit_grp (s : State) (o : Out) : (State.emit s o).grp = s.grp := (State.emit_touches s o).same .grp (by decide)
@[simp] theorem State.emit_lane (s : State) (o : Out) : (State.emit s o).lane = s.lane := (State.emit_touches s o).same .lane (by decide)
@[simp] theorem State.emit_rat (s : State) (o : Out) : (State.emit s o).rat = s.rat := (State.emit_touches s o).same .rat (by decide)
@[simp] theorem State.emit_fresh (s : State) (o : Out) : (State.emit s o).fresh = s.fresh := (State.emit_touches s o).same .fresh (by decide)
@[simp] theorem State.emit_pending (s : State) (o : Out) : (State.emit s o).pending = s.pending := (State.emit_touches s o).same .pending (by decide)
@[simp] theorem State.clearRegs_time (s : State) (lo : Nat) (hi : Nat) : (State.clearRegs s lo hi).time = s.time := (State.clearRegs_touches s lo hi).same .time (by decide)
@[simp] theorem State.clearRegs_dev (s : State) (lo : Nat) (hi : Nat) : (State.clearRegs s lo hi).dev = s.dev := (State.clearRegs_touches s lo hi).same .dev (by decide)
@[simp] theorem State.clearRegs_log (s : State) (lo : Nat) (hi : Nat) : (State.clearRegs s lo hi).log = s.log := (State.clearRegs_touches s lo hi).same .log (by decide)
@[simp] theorem State.clearRegs_logSeq (s : State) (lo : Nat) (hi : Nat) : (State.clearRegs s lo hi).logSeq = s.logSeq := (State.clearRegs_touches s lo hi).same .logSeq (by decide)
@[simp] theorem State.clearRegs_mbx (s : State) (lo : Nat) (hi : Nat) : (State.clearRegs s lo hi).mbx = s.mbx := (State.clearRegs_touches s lo hi).same .mbx (by decide)
@[simp] theorem State.clearRegs_ctl (s : State) (lo : Nat) (hi : Nat) : (State.clearRegs s lo hi).ctl = s.ctl := (State.clearRegs_touches s lo hi).same .ctl (by decide)
@[simp] theorem State.clearRegs_chk (s : State) (lo : Nat) (hi : Nat) : (State.clearRegs s lo hi).chk = s.chk := (State.clearRegs_touches s lo hi).same .chk (by decide)
@[simp] theorem State.clearRegs_pmu (s : State) (lo : Nat) (hi : Nat) : (State.clearRegs s lo hi).pmu = s.pmu := (State.clearRegs_touches s lo hi).same .pmu (by decide)
@[simp] theorem State.clearRegs_pwr (s : State) (lo : Nat) (hi : Nat) : (State.clearRegs s lo hi).pwr = s.pwr := (State.clearRegs_touches s lo hi).same .pwr (by decide)
@[simp] theorem State.clearRegs_mem (s : State) (lo : Nat) (hi : Nat) : (State.clearRegs s lo hi).mem = s.mem := (State.clearRegs_touches s lo hi).same .mem (by decide)
@[simp] theorem State.clearRegs_chans (s : State) (lo : Nat) (hi : Nat) : (State.clearRegs s lo hi).chans = s.chans := (State.clearRegs_touches s lo hi).same .chans (by decide)
@[simp] theorem State.clearRegs_eng (s : State) (lo : Nat) (hi : Nat) : (State.clearRegs s lo hi).eng = s.eng := (State.clearRegs_touches s lo hi).same .eng (by decide)
@[simp] theorem State.clearRegs_ext (s : State) (lo : Nat) (hi : Nat) : (State.clearRegs s lo hi).ext = s.ext := (State.clearRegs_touches s lo hi).same .ext (by decide)
@[simp] theorem State.clearRegs_surf (s : State) (lo : Nat) (hi : Nat) : (State.clearRegs s lo hi).surf = s.surf := (State.clearRegs_touches s lo hi).same .surf (by decide)
@[simp] theorem State.clearRegs_aud (s : State) (lo : Nat) (hi : Nat) : (State.clearRegs s lo hi).aud = s.aud := (State.clearRegs_touches s lo hi).same .aud (by decide)
@[simp] theorem State.clearRegs_net (s : State) (lo : Nat) (hi : Nat) : (State.clearRegs s lo hi).net = s.net := (State.clearRegs_touches s lo hi).same .net (by decide)
@[simp] theorem State.clearRegs_tx (s : State) (lo : Nat) (hi : Nat) : (State.clearRegs s lo hi).tx = s.tx := (State.clearRegs_touches s lo hi).same .tx (by decide)
@[simp] theorem State.clearRegs_txc (s : State) (lo : Nat) (hi : Nat) : (State.clearRegs s lo hi).txc = s.txc := (State.clearRegs_touches s lo hi).same .txc (by decide)
@[simp] theorem State.clearRegs_grp (s : State) (lo : Nat) (hi : Nat) : (State.clearRegs s lo hi).grp = s.grp := (State.clearRegs_touches s lo hi).same .grp (by decide)
@[simp] theorem State.clearRegs_lane (s : State) (lo : Nat) (hi : Nat) : (State.clearRegs s lo hi).lane = s.lane := (State.clearRegs_touches s lo hi).same .lane (by decide)
@[simp] theorem State.clearRegs_rat (s : State) (lo : Nat) (hi : Nat) : (State.clearRegs s lo hi).rat = s.rat := (State.clearRegs_touches s lo hi).same .rat (by decide)
@[simp] theorem State.clearRegs_out (s : State) (lo : Nat) (hi : Nat) : (State.clearRegs s lo hi).out = s.out := (State.clearRegs_touches s lo hi).same .out (by decide)
@[simp] theorem State.clearRegs_fresh (s : State) (lo : Nat) (hi : Nat) : (State.clearRegs s lo hi).fresh = s.fresh := (State.clearRegs_touches s lo hi).same .fresh (by decide)
@[simp] theorem State.clearRegs_pending (s : State) (lo : Nat) (hi : Nat) : (State.clearRegs s lo hi).pending = s.pending := (State.clearRegs_touches s lo hi).same .pending (by decide)
@[simp] theorem State.raise_time (s : State) (code : Nat) (sev : Nat) (obj : Nat) (detail : Nat) : (State.raise s code sev obj detail).time = s.time := (State.raise_touches s code sev obj detail).same .time (by decide)
@[simp] theorem State.raise_dev (s : State) (code : Nat) (sev : Nat) (obj : Nat) (detail : Nat) : (State.raise s code sev obj detail).dev = s.dev := (State.raise_touches s code sev obj detail).same .dev (by decide)
@[simp] theorem State.raise_ctl (s : State) (code : Nat) (sev : Nat) (obj : Nat) (detail : Nat) : (State.raise s code sev obj detail).ctl = s.ctl := (State.raise_touches s code sev obj detail).same .ctl (by decide)
@[simp] theorem State.raise_chk (s : State) (code : Nat) (sev : Nat) (obj : Nat) (detail : Nat) : (State.raise s code sev obj detail).chk = s.chk := (State.raise_touches s code sev obj detail).same .chk (by decide)
@[simp] theorem State.raise_pmu (s : State) (code : Nat) (sev : Nat) (obj : Nat) (detail : Nat) : (State.raise s code sev obj detail).pmu = s.pmu := (State.raise_touches s code sev obj detail).same .pmu (by decide)
@[simp] theorem State.raise_pwr (s : State) (code : Nat) (sev : Nat) (obj : Nat) (detail : Nat) : (State.raise s code sev obj detail).pwr = s.pwr := (State.raise_touches s code sev obj detail).same .pwr (by decide)
@[simp] theorem State.raise_mem (s : State) (code : Nat) (sev : Nat) (obj : Nat) (detail : Nat) : (State.raise s code sev obj detail).mem = s.mem := (State.raise_touches s code sev obj detail).same .mem (by decide)
@[simp] theorem State.raise_chans (s : State) (code : Nat) (sev : Nat) (obj : Nat) (detail : Nat) : (State.raise s code sev obj detail).chans = s.chans := (State.raise_touches s code sev obj detail).same .chans (by decide)
@[simp] theorem State.raise_eng (s : State) (code : Nat) (sev : Nat) (obj : Nat) (detail : Nat) : (State.raise s code sev obj detail).eng = s.eng := (State.raise_touches s code sev obj detail).same .eng (by decide)
@[simp] theorem State.raise_ext (s : State) (code : Nat) (sev : Nat) (obj : Nat) (detail : Nat) : (State.raise s code sev obj detail).ext = s.ext := (State.raise_touches s code sev obj detail).same .ext (by decide)
@[simp] theorem State.raise_surf (s : State) (code : Nat) (sev : Nat) (obj : Nat) (detail : Nat) : (State.raise s code sev obj detail).surf = s.surf := (State.raise_touches s code sev obj detail).same .surf (by decide)
@[simp] theorem State.raise_aud (s : State) (code : Nat) (sev : Nat) (obj : Nat) (detail : Nat) : (State.raise s code sev obj detail).aud = s.aud := (State.raise_touches s code sev obj detail).same .aud (by decide)
@[simp] theorem State.raise_net (s : State) (code : Nat) (sev : Nat) (obj : Nat) (detail : Nat) : (State.raise s code sev obj detail).net = s.net := (State.raise_touches s code sev obj detail).same .net (by decide)
@[simp] theorem State.raise_tx (s : State) (code : Nat) (sev : Nat) (obj : Nat) (detail : Nat) : (State.raise s code sev obj detail).tx = s.tx := (State.raise_touches s code sev obj detail).same .tx (by decide)
@[simp] theorem State.raise_txc (s : State) (code : Nat) (sev : Nat) (obj : Nat) (detail : Nat) : (State.raise s code sev obj detail).txc = s.txc := (State.raise_touches s code sev obj detail).same .txc (by decide)
@[simp] theorem State.raise_grp (s : State) (code : Nat) (sev : Nat) (obj : Nat) (detail : Nat) : (State.raise s code sev obj detail).grp = s.grp := (State.raise_touches s code sev obj detail).same .grp (by decide)
@[simp] theorem State.raise_lane (s : State) (code : Nat) (sev : Nat) (obj : Nat) (detail : Nat) : (State.raise s code sev obj detail).lane = s.lane := (State.raise_touches s code sev obj detail).same .lane (by decide)
@[simp] theorem State.raise_rat (s : State) (code : Nat) (sev : Nat) (obj : Nat) (detail : Nat) : (State.raise s code sev obj detail).rat = s.rat := (State.raise_touches s code sev obj detail).same .rat (by decide)
@[simp] theorem State.raise_fresh (s : State) (code : Nat) (sev : Nat) (obj : Nat) (detail : Nat) : (State.raise s code sev obj detail).fresh = s.fresh := (State.raise_touches s code sev obj detail).same .fresh (by decide)
@[simp] theorem State.raise_pending (s : State) (code : Nat) (sev : Nat) (obj : Nat) (detail : Nat) : (State.raise s code sev obj detail).pending = s.pending := (State.raise_touches s code sev obj detail).same .pending (by decide)
@[simp] theorem State.badAccess_time (s : State) : (State.badAccess s).time = s.time := (State.badAccess_touches s).same .time (by decide)
@[simp] theorem State.badAccess_dev (s : State) : (State.badAccess s).dev = s.dev := (State.badAccess_touches s).same .dev (by decide)
@[simp] theorem State.badAccess_log (s : State) : (State.badAccess s).log = s.log := (State.badAccess_touches s).same .log (by decide)
@[simp] theorem State.badAccess_logSeq (s : State) : (State.badAccess s).logSeq = s.logSeq := (State.badAccess_touches s).same .logSeq (by decide)
@[simp] theorem State.badAccess_mbx (s : State) : (State.badAccess s).mbx = s.mbx := (State.badAccess_touches s).same .mbx (by decide)
@[simp] theorem State.badAccess_ctl (s : State) : (State.badAccess s).ctl = s.ctl := (State.badAccess_touches s).same .ctl (by decide)
@[simp] theorem State.badAccess_chk (s : State) : (State.badAccess s).chk = s.chk := (State.badAccess_touches s).same .chk (by decide)
@[simp] theorem State.badAccess_pmu (s : State) : (State.badAccess s).pmu = s.pmu := (State.badAccess_touches s).same .pmu (by decide)
@[simp] theorem State.badAccess_pwr (s : State) : (State.badAccess s).pwr = s.pwr := (State.badAccess_touches s).same .pwr (by decide)
@[simp] theorem State.badAccess_mem (s : State) : (State.badAccess s).mem = s.mem := (State.badAccess_touches s).same .mem (by decide)
@[simp] theorem State.badAccess_chans (s : State) : (State.badAccess s).chans = s.chans := (State.badAccess_touches s).same .chans (by decide)
@[simp] theorem State.badAccess_eng (s : State) : (State.badAccess s).eng = s.eng := (State.badAccess_touches s).same .eng (by decide)
@[simp] theorem State.badAccess_ext (s : State) : (State.badAccess s).ext = s.ext := (State.badAccess_touches s).same .ext (by decide)
@[simp] theorem State.badAccess_surf (s : State) : (State.badAccess s).surf = s.surf := (State.badAccess_touches s).same .surf (by decide)
@[simp] theorem State.badAccess_aud (s : State) : (State.badAccess s).aud = s.aud := (State.badAccess_touches s).same .aud (by decide)
@[simp] theorem State.badAccess_net (s : State) : (State.badAccess s).net = s.net := (State.badAccess_touches s).same .net (by decide)
@[simp] theorem State.badAccess_tx (s : State) : (State.badAccess s).tx = s.tx := (State.badAccess_touches s).same .tx (by decide)
@[simp] theorem State.badAccess_txc (s : State) : (State.badAccess s).txc = s.txc := (State.badAccess_touches s).same .txc (by decide)
@[simp] theorem State.badAccess_grp (s : State) : (State.badAccess s).grp = s.grp := (State.badAccess_touches s).same .grp (by decide)
@[simp] theorem State.badAccess_lane (s : State) : (State.badAccess s).lane = s.lane := (State.badAccess_touches s).same .lane (by decide)
@[simp] theorem State.badAccess_rat (s : State) : (State.badAccess s).rat = s.rat := (State.badAccess_touches s).same .rat (by decide)
@[simp] theorem State.badAccess_out (s : State) : (State.badAccess s).out = s.out := (State.badAccess_touches s).same .out (by decide)
@[simp] theorem State.badAccess_fresh (s : State) : (State.badAccess s).fresh = s.fresh := (State.badAccess_touches s).same .fresh (by decide)
@[simp] theorem State.badAccess_pending (s : State) : (State.badAccess s).pending = s.pending := (State.badAccess_touches s).same .pending (by decide)
@[simp] theorem State.sticky_time (s : State) (off : Nat) (mask : Word) : (State.sticky s off mask).time = s.time := (State.sticky_touches s off mask).same .time (by decide)
@[simp] theorem State.sticky_dev (s : State) (off : Nat) (mask : Word) : (State.sticky s off mask).dev = s.dev := (State.sticky_touches s off mask).same .dev (by decide)
@[simp] theorem State.sticky_log (s : State) (off : Nat) (mask : Word) : (State.sticky s off mask).log = s.log := (State.sticky_touches s off mask).same .log (by decide)
@[simp] theorem State.sticky_logSeq (s : State) (off : Nat) (mask : Word) : (State.sticky s off mask).logSeq = s.logSeq := (State.sticky_touches s off mask).same .logSeq (by decide)
@[simp] theorem State.sticky_mbx (s : State) (off : Nat) (mask : Word) : (State.sticky s off mask).mbx = s.mbx := (State.sticky_touches s off mask).same .mbx (by decide)
@[simp] theorem State.sticky_ctl (s : State) (off : Nat) (mask : Word) : (State.sticky s off mask).ctl = s.ctl := (State.sticky_touches s off mask).same .ctl (by decide)
@[simp] theorem State.sticky_chk (s : State) (off : Nat) (mask : Word) : (State.sticky s off mask).chk = s.chk := (State.sticky_touches s off mask).same .chk (by decide)
@[simp] theorem State.sticky_pmu (s : State) (off : Nat) (mask : Word) : (State.sticky s off mask).pmu = s.pmu := (State.sticky_touches s off mask).same .pmu (by decide)
@[simp] theorem State.sticky_pwr (s : State) (off : Nat) (mask : Word) : (State.sticky s off mask).pwr = s.pwr := (State.sticky_touches s off mask).same .pwr (by decide)
@[simp] theorem State.sticky_mem (s : State) (off : Nat) (mask : Word) : (State.sticky s off mask).mem = s.mem := (State.sticky_touches s off mask).same .mem (by decide)
@[simp] theorem State.sticky_chans (s : State) (off : Nat) (mask : Word) : (State.sticky s off mask).chans = s.chans := (State.sticky_touches s off mask).same .chans (by decide)
@[simp] theorem State.sticky_eng (s : State) (off : Nat) (mask : Word) : (State.sticky s off mask).eng = s.eng := (State.sticky_touches s off mask).same .eng (by decide)
@[simp] theorem State.sticky_ext (s : State) (off : Nat) (mask : Word) : (State.sticky s off mask).ext = s.ext := (State.sticky_touches s off mask).same .ext (by decide)
@[simp] theorem State.sticky_surf (s : State) (off : Nat) (mask : Word) : (State.sticky s off mask).surf = s.surf := (State.sticky_touches s off mask).same .surf (by decide)
@[simp] theorem State.sticky_aud (s : State) (off : Nat) (mask : Word) : (State.sticky s off mask).aud = s.aud := (State.sticky_touches s off mask).same .aud (by decide)
@[simp] theorem State.sticky_net (s : State) (off : Nat) (mask : Word) : (State.sticky s off mask).net = s.net := (State.sticky_touches s off mask).same .net (by decide)
@[simp] theorem State.sticky_tx (s : State) (off : Nat) (mask : Word) : (State.sticky s off mask).tx = s.tx := (State.sticky_touches s off mask).same .tx (by decide)
@[simp] theorem State.sticky_txc (s : State) (off : Nat) (mask : Word) : (State.sticky s off mask).txc = s.txc := (State.sticky_touches s off mask).same .txc (by decide)
@[simp] theorem State.sticky_grp (s : State) (off : Nat) (mask : Word) : (State.sticky s off mask).grp = s.grp := (State.sticky_touches s off mask).same .grp (by decide)
@[simp] theorem State.sticky_lane (s : State) (off : Nat) (mask : Word) : (State.sticky s off mask).lane = s.lane := (State.sticky_touches s off mask).same .lane (by decide)
@[simp] theorem State.sticky_rat (s : State) (off : Nat) (mask : Word) : (State.sticky s off mask).rat = s.rat := (State.sticky_touches s off mask).same .rat (by decide)
@[simp] theorem State.sticky_out (s : State) (off : Nat) (mask : Word) : (State.sticky s off mask).out = s.out := (State.sticky_touches s off mask).same .out (by decide)
@[simp] theorem State.sticky_fresh (s : State) (off : Nat) (mask : Word) : (State.sticky s off mask).fresh = s.fresh := (State.sticky_touches s off mask).same .fresh (by decide)
@[simp] theorem State.sticky_pending (s : State) (off : Nat) (mask : Word) : (State.sticky s off mask).pending = s.pending := (State.sticky_touches s off mask).same .pending (by decide)
@[simp] theorem State.countStop_time (s : State) (c : Nat) (ch : Chan) : (State.countStop s c ch).time = s.time := (State.countStop_touches s c ch).same .time (by decide)
@[simp] theorem State.countStop_dev (s : State) (c : Nat) (ch : Chan) : (State.countStop s c ch).dev = s.dev := (State.countStop_touches s c ch).same .dev (by decide)
@[simp] theorem State.countStop_log (s : State) (c : Nat) (ch : Chan) : (State.countStop s c ch).log = s.log := (State.countStop_touches s c ch).same .log (by decide)
@[simp] theorem State.countStop_logSeq (s : State) (c : Nat) (ch : Chan) : (State.countStop s c ch).logSeq = s.logSeq := (State.countStop_touches s c ch).same .logSeq (by decide)
@[simp] theorem State.countStop_mbx (s : State) (c : Nat) (ch : Chan) : (State.countStop s c ch).mbx = s.mbx := (State.countStop_touches s c ch).same .mbx (by decide)
@[simp] theorem State.countStop_ctl (s : State) (c : Nat) (ch : Chan) : (State.countStop s c ch).ctl = s.ctl := (State.countStop_touches s c ch).same .ctl (by decide)
@[simp] theorem State.countStop_chk (s : State) (c : Nat) (ch : Chan) : (State.countStop s c ch).chk = s.chk := (State.countStop_touches s c ch).same .chk (by decide)
@[simp] theorem State.countStop_pmu (s : State) (c : Nat) (ch : Chan) : (State.countStop s c ch).pmu = s.pmu := (State.countStop_touches s c ch).same .pmu (by decide)
@[simp] theorem State.countStop_pwr (s : State) (c : Nat) (ch : Chan) : (State.countStop s c ch).pwr = s.pwr := (State.countStop_touches s c ch).same .pwr (by decide)
@[simp] theorem State.countStop_mem (s : State) (c : Nat) (ch : Chan) : (State.countStop s c ch).mem = s.mem := (State.countStop_touches s c ch).same .mem (by decide)
@[simp] theorem State.countStop_chans (s : State) (c : Nat) (ch : Chan) : (State.countStop s c ch).chans = s.chans := (State.countStop_touches s c ch).same .chans (by decide)
@[simp] theorem State.countStop_eng (s : State) (c : Nat) (ch : Chan) : (State.countStop s c ch).eng = s.eng := (State.countStop_touches s c ch).same .eng (by decide)
@[simp] theorem State.countStop_ext (s : State) (c : Nat) (ch : Chan) : (State.countStop s c ch).ext = s.ext := (State.countStop_touches s c ch).same .ext (by decide)
@[simp] theorem State.countStop_surf (s : State) (c : Nat) (ch : Chan) : (State.countStop s c ch).surf = s.surf := (State.countStop_touches s c ch).same .surf (by decide)
@[simp] theorem State.countStop_aud (s : State) (c : Nat) (ch : Chan) : (State.countStop s c ch).aud = s.aud := (State.countStop_touches s c ch).same .aud (by decide)
@[simp] theorem State.countStop_net (s : State) (c : Nat) (ch : Chan) : (State.countStop s c ch).net = s.net := (State.countStop_touches s c ch).same .net (by decide)
@[simp] theorem State.countStop_tx (s : State) (c : Nat) (ch : Chan) : (State.countStop s c ch).tx = s.tx := (State.countStop_touches s c ch).same .tx (by decide)
@[simp] theorem State.countStop_txc (s : State) (c : Nat) (ch : Chan) : (State.countStop s c ch).txc = s.txc := (State.countStop_touches s c ch).same .txc (by decide)
@[simp] theorem State.countStop_grp (s : State) (c : Nat) (ch : Chan) : (State.countStop s c ch).grp = s.grp := (State.countStop_touches s c ch).same .grp (by decide)
@[simp] theorem State.countStop_lane (s : State) (c : Nat) (ch : Chan) : (State.countStop s c ch).lane = s.lane := (State.countStop_touches s c ch).same .lane (by decide)
@[simp] theorem State.countStop_rat (s : State) (c : Nat) (ch : Chan) : (State.countStop s c ch).rat = s.rat := (State.countStop_touches s c ch).same .rat (by decide)
@[simp] theorem State.countStop_out (s : State) (c : Nat) (ch : Chan) : (State.countStop s c ch).out = s.out := (State.countStop_touches s c ch).same .out (by decide)
@[simp] theorem State.countStop_fresh (s : State) (c : Nat) (ch : Chan) : (State.countStop s c ch).fresh = s.fresh := (State.countStop_touches s c ch).same .fresh (by decide)
@[simp] theorem State.countStop_pending (s : State) (c : Nat) (ch : Chan) : (State.countStop s c ch).pending = s.pending := (State.countStop_touches s c ch).same .pending (by decide)

/-! ## The register bank -/

theorem State.rd_eq (s : State) (off : Nat) : s.rd off = bget s.regs off := rfl

@[simp] theorem State.wr_regs (s : State) (off : Nat) (v : Word) : (s.wr off v).regs = bset s.regs off v := rfl

@[simp] theorem State.sticky_regs (s : State) (off : Nat) (m : Word) :
    (s.sticky off m).regs = bset s.regs off (bget s.regs off ||| m) := rfl

@[simp] theorem State.unstick_regs (s : State) (off : Nat) (m : Word) :
    (s.unstick off m).regs = bset s.regs off (bget s.regs off &&& ~~~m) := rfl

@[simp] theorem State.bumpBy_regs (s : State) (off n : Nat) :
    (s.bumpBy off n).regs = bset s.regs off (bget s.regs off + BitVec.ofNat 32 n) := rfl

@[simp] theorem State.bump_regs (s : State) (off : Nat) : (s.bump off).regs = bset s.regs off (bget s.regs off + 1) := rfl

@[simp] theorem State.badAccess_regs (s : State) : s.badAccess.regs =
    bset (bset s.regs Reg.DEV_BAD_ACCESS (bget s.regs Reg.DEV_BAD_ACCESS + 1)) Reg.DEV_STATUS
      (bget (bset s.regs Reg.DEV_BAD_ACCESS (bget s.regs Reg.DEV_BAD_ACCESS + 1)) Reg.DEV_STATUS ||| 0x200) := rfl

/-- Raising an event sets DEV_STATUS.event_seen and changes no other register (R423). -/
@[simp] theorem State.raise_regs (s : State) (code sev obj detail : Nat) :
    (s.raise code sev obj detail).regs = bset s.regs Reg.DEV_STATUS (bget s.regs Reg.DEV_STATUS ||| 0x100) := by
  unfold State.raise; simp

/-- Counting an event changes PMU_OVF only (R410). -/
theorem State.pmuCount_rd (s : State) (c k n : Nat) (x : PmuSource) (off : Nat) (h : off < 0x00C02100 ∨ 0x00C02120 ≤ off) :
    bget (s.pmuCount c k n x).regs off = bget s.regs off := by
  have g : ∀ (q : Nat × Word → Bool) (l : List (Nat × Word)) (t : State), (∀ e ∈ l, e.1 < 256) →
      bget (l.foldl (fun (t : State) (e : Nat × Word) => if q e then t.pmuAdvance e.1 n else t) t).regs off = bget t.regs off := by
    intro q l
    induction l with
    | nil => intro t _; rfl
    | cons e l ih =>
      intro t hl
      have he : Reg.PMU_OVF (e.1 / 32) ≠ off := by
        have := hl e (List.mem_cons_self ..)
        unfold Reg.PMU_OVF; omega
      rw [List.foldl_cons, ih _ fun y hy => hl y (List.mem_cons_of_mem _ hy)]
      split
      · unfold State.pmuAdvance State.when
        dsimp only
        split
        · rw [State.sticky_regs, bget_bset_ne he]
        · rfl
      · rfl
  unfold State.pmuCount
  refine g (fun e => wfield e.2 11 0 == c * 256 + k && s.pmuPasses e.2 x) _ s fun e he => ?_
  unfold pmuEnabled at he
  simp only [List.mem_filterMap] at he
  obtain ⟨a, _, ha⟩ := he
  split at ha
  · rename_i hc
    simp only [Bool.and_eq_true, decide_eq_true_eq] at hc
    cases ha
    omega
  · cases ha

theorem State.pmuEvent_rd (s : State) (c k : Nat) (off : Nat) (h : off < 0x00C02100 ∨ 0x00C02120 ≤ off) :
    bget (s.pmuEvent c k).regs off = bget s.regs off := State.pmuCount_rd s c k 1 {} off h

/-- A histogram value changes registers of the histogram units only (R412). -/
theorem State.hist_rd (s : State) (src item : Nat) (v : Int) (off : Nat) (h : off < 0x00C04000 ∨ 0x00C06000 ≤ off) :
    bget (s.hist src item v).regs off = bget s.regs off := by
  have one : ∀ (t : State) (k : Nat), k < 16 → bget (t.histUnit src item v k).regs off = bget t.regs off := by
    intro t k hk
    have h1 : Reg.PMU_HIST_CFG k ≠ off := by unfold Reg.PMU_HIST_CFG; omega
    have h2 : ∀ b, b < 64 → Reg.PMU_HIST_BIN k b ≠ off := by intro b hb; unfold Reg.PMU_HIST_BIN; omega
    have h3 : ∀ z : Int, (min (max z 0) 63).toNat < 64 := by intro z; omega
    have h4 : ∀ (q : Prop) [Decidable q] (j : Nat), j < 64 →
        bget (if q then (t.bump (Reg.PMU_HIST_BIN k j)).sticky (Reg.PMU_HIST_CFG k) 0x40000
          else t.bump (Reg.PMU_HIST_BIN k j)).regs off = bget t.regs off := by
      intro q _ j hj
      split
      · rw [State.sticky_regs, bget_bset_ne h1, State.bump_regs, bget_bset_ne (h2 _ hj)]
      · rw [State.bump_regs, bget_bset_ne (h2 _ hj)]
    unfold State.histUnit
    by_cases hk3 : k ≤ 3
    · simp only [if_pos hk3]
      split
      · exact h4 _ _ (h3 _)
      · rfl
    · simp only [if_neg hk3]
      split
      · exact h4 _ _ (h3 _)
      · rfl
  unfold State.hist
  have g : ∀ (l : List Nat) (t : State), (∀ k ∈ l, k < 16) →
      bget (l.foldl (fun (t : State) k => t.histUnit src item v k) t).regs off = bget t.regs off := by
    intro l
    induction l with
    | nil => intro t _; rfl
    | cons k l ih =>
      intro t hl
      rw [List.foldl_cons, ih _ (fun x hx => hl x (List.mem_cons_of_mem _ hx)), one _ _ (hl k (List.mem_cons_self ..))]
  exact g _ s (fun k hk => List.mem_range.1 hk)

theorem bget_bclear (b : Tab Word) (lo hi off : Nat) :
    bget (bclear b lo hi) off = if lo ≤ off ∧ off < hi then Reg.reset off else bget b off := by
  unfold bget bclear
  induction b with
  | nil => simp
  | cons e b ih =>
    obtain ⟨k, v⟩ := e
    rw [List.filter_cons]
    by_cases hc : lo ≤ k ∧ k < hi
    · have hd : (!(decide (lo ≤ k) && decide (k < hi))) = false := by simp [hc.1, hc.2]
      simp only [hd, Bool.false_eq_true, if_false]
      rw [ih, tget_cons]
      by_cases hk : k = off
      · subst hk; simp [hc]
      · simp [hk]
    · have hd : (!(decide (lo ≤ k) && decide (k < hi))) = true := by
        simp only [Bool.not_eq_true', Bool.and_eq_false_iff, decide_eq_false_iff_not]; omega
      simp only [hd, if_true]
      rw [tget_cons, tget_cons]
      by_cases hk : k = off
      · subst hk; simp [hc]
      · simp only [if_neg hk]; exact ih

@[simp] theorem State.clearRegs_regs (s : State) (lo hi : Nat) : (s.clearRegs lo hi).regs = bclear s.regs lo hi := rfl

/-- What is newest in the log after an event. -/
theorem State.raise_entered (s : State) (code sev obj detail : Nat) :
    ∃ e r, (s.raise code sev obj detail).log = e :: r ∧ e.code = code ∧ e.object = obj ∧ e.detail = detail % 2 ^ 64 := by
  have hl : (s.raise code sev obj detail).log = (match s.log with
      | [] => ((s.eventOf code sev obj detail :: s.log).take 4096, s.logSeq + 1)
      | e :: rest =>
        if mergesInto e code sev obj s.time.up then
          ({ e with rep := min 65535 (e.rep + 1), detail := detail % 2 ^ 64 } :: rest, s.logSeq)
        else ((s.eventOf code sev obj detail :: s.log).take 4096, s.logSeq + 1)).1 := by
    unfold State.raise; dsimp only; rewrite [State.signal_log, State.sticky_log]
    cases s.log <;> rfl
  generalize s.log = l at hl
  cases l with
  | nil => exact ⟨_, _, hl, rfl, rfl, rfl⟩
  | cons e rest =>
    by_cases h : mergesInto e code sev obj s.time.up = true
    · have hm := hl.trans (congrArg Prod.fst (if_pos h))
      unfold mergesInto at h
      simp only [Bool.and_eq_true, beq_iff_eq] at h
      exact ⟨_, _, hm, h.1.1.1, h.1.1.2, rfl⟩
    · exact ⟨_, _, hl.trans (congrArg Prod.fst (if_neg h)), rfl, rfl, rfl⟩

/-- What every step of a fold keeps, the fold keeps. -/
theorem foldl_keep {σ β γ : Type} (g : σ → γ) {f : σ → β → σ} (h : ∀ t x, g (f t x) = g t) (xs : List β) (s : σ) :
    g (xs.foldl f s) = g s := by
  induction xs generalizing s with
  | nil => rfl
  | cons x xs ih => exact (ih (f s x)).trans (h s x)

end Sys2Proof.Machine
end

