-- ==== Sys2Proof/Tests/Slice0.lean ====
section
/-!
SUPPORT. The author's own tests: values the spec works out, ill-formed commands and events, and for each statement a state and operands
that meet its hypotheses.
-/
namespace Sys2Proof.Tests
open Sys2Proof Sys2Proof.Machine
set_option maxRecDepth 100000

/-! ## Values the spec works out -/

/-- "123456789". -/
def nineBytes : List Byte := [0x31, 0x32, 0x33, 0x34, 0x35, 0x36, 0x37, 0x38, 0x39]

/-- The check values of Table 19-5, in its order. -/
theorem test_chk_presets :
    (List.range 11).map (fun k => (chkPreset k).map fun (w, p, i, r, x) => crcOut w r x (crcRun w p r i nineBytes))
      = [some 0xE3069283, some 0xCBF43926, some 0x0376E6E7, some 0x6C40DF5F0B497347, some 0x995DC9BBDF1939FA, some 0x29B1, some 0x31C3,
         some 0xBB3D, some 0xF4, some 0x21CF02, none] := by decide

/-- The CRC-32C of every block, image and table. -/
theorem test_crc32c : crc32c nineBytes = 0xE3069283 := by decide

/-- The 8K120 channel of chapters 2, 4 and 16 (Table 16-11). -/
def main8k : DefMain :=
  { (default : DefMain) with rateId := 10, inputDepth := 10, ctuSize := 64, renditionOf := 0xFF, flowA := 0x0123, flowB := 0x4123 }
def rate8k : DefRate := { (default : DefRate) with dCpb := 1500, bitRate := 486000000, cpbSize := 8100000, overshoot := 24 }
def refs8k : DefRefs := { (default : DefRefs) with stRefs := 2, ltSlots := 2 }

/-- Worked example of chapter 2 and the completion of chapter 16: 32 slots, k 4, D_pipe_min 767,284 ns, the pool, N_dpb 5, 2,343 MiB. -/
theorem test_define_8k120 :
    slotsOf main8k.format main8k.rateId = some 32 ∧ mainK main8k = 4 ∧ dPipeMinOf main8k 4 = 767284 ∧ dPipeOf main8k 4 = 767284
      ∧ poolOf main8k = 2490368 ∧ refs8k.nDpb = 5 ∧ hbmOf main8k refs8k = 2343
      ∧ rowsHeld { main8k with tTol := 250000 } = 5 ∧ poolOf { main8k with tTol := 250000 } = 6160384
      ∧ dPipeOf { main8k with tTol := 250000 } 4 = 1017284 := by decide

/-- Table 2-6: the last row's deadline, and row 0's, in ns. -/
theorem test_deadlines_8k120 :
    main8k.tDl 3 0 / 12960 - main8k.t0 3 / 12960 = 123456 ∧ main8k.tDl 3 67 = main8k.t0 4 ∧ main8k.rows = 68 ∧ main8k.rowLines 67 = 32 := by
  decide

/-- The constants of the worked example of chapter 4: P_bp, beta, the floor of row 52, f_max. -/
theorem test_rate_constants_8k120 :
    main8k.pBp = 84736 ∧ main8k.beta 1 = 1216 ∧ main8k.qRest 52 = 18240 ∧ rate8k.fMax = 8100000 ∧ bitsIn 486000000 main8k.tp = 4050000
      ∧ (rate8k.fMax + main8k.pBp) / 2 = 4092368 := by decide

/-- T_pic and B_pic of that example from h0 = 4,172,368. -/
theorem test_targets_8k120 :
    ({ (default : Chan) with cfg := { (default : ChannelDefineArg) with main := main8k, rate := rate8k } } : Chan).picTargets
      { (default : RunCfg) with overshoot := 24 } 4172368 0 = (4060000, 6090000) := by decide

/-- Table 11-2: the first two offsets of the grandmaster change, in ns; I, corr and y in ppb (the second offset is -11,203.125). -/
theorem test_servo_change :
    let a := ({ (default : TimeState) with kp := 0x8000, ki := 0x0800, slew := 10000, i := -2000 * 2 ^ 32 } : TimeState).steer (-12000 * 65536)
    let b := a.steer (-734208000)
    a.i = -1625 * 2 ^ 32 ∧ a.corr = 6000 * 2 ^ 32 ∧ b.i * 10000 / 2 ^ 32 = -12749024 ∧ b.corr * 10000 / 2 ^ 32 = 56015625 := by decide

/-- The base time already passed of chapter 10: n = 4,001, and the start 125,000 ns after S + 1 s (S = 5). -/
theorem test_gate_list_taken :
    let s := (({ State.reset with time := { State.reset.time with sec := 6, ns := 40000 } } : State).updTx 0 fun t =>
      { t with pend := some { (default : GateList) with base := 5500000000, cycle := 125000, entries := [(0x0007, 100000), (0xFFF9, 25000)] } })
    (match execGateListTaken 0 s with
      | .next t => (((t.txIf 0).pend.bind (·.start)), (t.log.head?).map (·.detail))
      | _ => (none, none)) = (some 6000125000, some 4001) := by decide

/-- The envelope of chapter 9: the bucket fills at 46,085,760 kb/s to a depth of 21,336 bytes. -/
theorem test_envelope :
    let a : FlowArg := { (default : FlowArg) with kind := 1, tol := 5, rate := 43891200, burst := 20320 }
    rateEff a = 46085760 ∧ burstEff a = 21336 := by decide

/-- Four 8K120 channels under 36 W and under 20.4 W (chapter 17), powers in 1/16 W. -/
theorem test_tiers :
    (admission [(0, 32), (1, 32), (2, 32), (3, 32)] 576).map (·.2.2) = [2, 2, 1, 1]
      ∧ (admission [(0, 32), (1, 32), (2, 32), (3, 32)] 326).map (·.2.2) = [1, 1, 1, 0] := by decide

/-- The mailbox words of chapter 15's session: tags 0x0A7 and 0x0A8, blocks 5 and 6. -/
theorem test_mailbox_words : mbxWord 1 0x0A7 5 = 0x10A70005 ∧ mbxWord 1 0x0A8 6 = 0x10A80006 ∧ wordType 0x10A70005 = 1 := by decide

/-- The block right after power-on: no command waits, no channel is defined, memory lists nothing and the unit is in no group. -/
theorem test_reset : State.reset.pending = [] ∧ State.reset.chans = [] ∧ State.reset.mem.hbm = [] ∧ State.reset.grp.role = .none := by decide

/-- Table 2-3: where each definition of the admission example goes. -/
theorem test_admission :
    let c (n : Nat) (l : List Nat) : Chan := { (default : Chan) with slots := n, k := kOf n, engines := l }
    let at_ (l : Tab Chan) (n : Nat) : Option (List Nat) := ({ State.reset with chans := l } : State).placeEngines n (kOf n)
    let a : Tab Chan := [(0, c 32 [0, 1, 2, 3])]
    let b : Tab Chan := a ++ [(1, c 32 [4, 5, 6, 7])]
    let d : Tab Chan := b ++ [(2, c 4 [8]), (3, c 4 [8])]
    let f : Tab Chan := d ++ [(4, c 4 [9]), (5, c 4 [9])]
    let g : Tab Chan := f ++ [(6, c 32 [10, 11, 12, 13])]
    let h : Tab Chan := g ++ [(7, c 16 [14, 15])]
    at_ [] 32 = some [0, 1, 2, 3] ∧ at_ a 32 = some [4, 5, 6, 7] ∧ at_ b 4 = some [8] ∧ at_ (b ++ [(2, c 4 [8])]) 4 = some [8]
      ∧ at_ d 4 = some [9] ∧ at_ f 32 = some [10, 11, 12, 13] ∧ at_ g 16 = some [14, 15] ∧ at_ h 1 = none := by decide

/-- The decoding example of chapter 7: headers of Table 7-4a, and pixel (5, 11) of the palette tile. -/
theorem test_stf_pixel :
    let m : Mem := [(4100, 1), (4103, 0x40), (4104, 2), (4107, 0x80), (4108, 5), (4111, 0xC0), (4224, 1), (4232, 255), (4233, 255), (4234, 255),
      (4235, 255), (4286, 0x10), (4820, 0x77)]
    (surfPixel m 4096 2 64 16 4096 5 11).1 = .word 0xFFFFFFFF ∧ (surfPixel m 4096 2 64 16 4096 37 11) = (.word 0x77, [4108, 4820])
      ∧ (surfPixel m 4096 2 64 16 4096 0 0).1 = .clear := by decide

/-- Its colour under BT.709 and the values coded from it (R61), with the rounding example of R60. -/
theorem test_stf_colour :
    pxConvert 0 2 0xFFFFFFFF 0 = 962559 ∧ roundOut 10 962559 = 940 ∧ roundOut 10 524288 = 512 ∧ roundOut 10 0x80200 = 513
      ∧ roundOut 12 0x80200 = 2050 := by decide


/-- R442: the message of a life-cycle signature is 16 bytes: unit_id, present state, target, t and five zero bytes. -/
theorem test_life_message : ((State.reset.lifeMessage 2).length, (State.reset.lifeMessage 2).drop 8) = (16, [0, 2, 0, 0, 0, 0, 0, 0]) := by decide
/-! ## Ill-formed commands and events -/

/-- A record header and a ring message header out of range. -/
def badRec : RecHdr := { (default : RecHdr) with leg := 2 }
def badRat : RatHdr := { (default : RatHdr) with hops := 256 }

theorem test_ill_formed_events_1 : ([
    .resetRelease true [64] false, .firmwareReady (2 ^ 40) default, .watchdogExpiry 8, .pictureBoundary 64 default,
    .channelClockChange ⟨64, default⟩, .lossMapFreeze default default 135, .rowDeadline default default 135,
    .rowJobRelease default default 135, .rowJobStart default default 135, .ctuCommit default default 135 default default default,
    .rowJobComplete default default 135 default default default default, .jobOverrun default default 135,
    .engineLocalReset 16 default, .duSubstitution default default 135 default default,
    .trailingFilter default default 135 default default, .alfDerivation ⟨64, default⟩, .proofVerdict 4 default,
    .verdictDeadline default default 135, .substituteDecode default default 135 default,
    .proofTrailingFilter default default 135 default, .proofPipeReset 4, .extAuFreeze 16, .extGapDeadline 16,
    .extAuDecode 16 default, .duTransmitEntry default default 135,
    .ethernetFrameRx 16 default 0,
    .seqMissingTimeout 208 default, .mergePathDown 208 default, .firmwareControlPacket 16 default, .membershipReportTimer 16,
    .ethLinkUp 16, .ethLinkDown 16, .packetModelInstant 16 default default, .packetTransmit 16 default, .tsSlot 64,
    .gateListTaken 16, .gateListStart 16, .gateEntryChange 16, .tdmRxFrame 8 default, .tdmTxFrame 8,
    .tdmFrameSync 8 default default, .tdmLockTimeout 8 default, .ptpSync 2 default, .ptpFollowUp 2 default,
    .ptpAnnounce 2 default, .ptpDelayResp 2 default, .announceTimeout 2, .servoOffset 0 0 200, .rowRecord badRec default,
    .pictureRecord badRec default, .gapRecord badRec default, .repairRequest badRec default default default,
    .repairData badRec default default default, .copyRecord badRec default, .hello badRec default,
    .handover badRec default default default, .handoverAck badRec default, .standDown badRec default, .rejoinPlan badRec default,
    .rejoinDone badRec default] : List Instr).all (fun x => !x.wf) = true := by decide

theorem test_ill_formed_events_2 : ([
    .heldPacketExpiry 64 default, .rejoinCopyComplete 64 default, .copyRetryTimer 64, .stayReplayTimeout 2, .linkAck 4 default,
    .trn 0 { (default : TrnSet) with lane := 4 }, .aln 0 [4] default, .symbolLock 15 default, .trainingStepTimer 15 default,
    .trainingTimeout 4 default, .laneLosSet 26, .laneLosClear 26, .cdrLockChange 26 default, .elasticSlip 4, .failedHoldExpiry 4,
    .enum badRat default default default, .announce badRat default, .assign badRat default default,
    .ratlineCommand badRat default default default default, .ratlineCompletion badRat default, .forwardTimeout 9 default,
    .ringCheck badRat, .ringReport badRat default default default, .budget badRat default, .testRequest badRat default default,
    .testGrant badRat default default, .testDone badRat default, .grantExpiry 17, .ratlineReplayTimeout 2, .mbxH2dWrite 9 default,
    .mbxD2hRead 9, .d2hQueuePost 9, .ping 9, .sessionIdleTimeout 9, .slotLockExpiry 8, .firmwareWriteDone (2 ^ 40),
    .selftestBlockEnd 50 default, .tempSensorScan (List.replicate 33 none), .thermalTrip 32 default,
    .pmbusPoll (List.replicate 33 none), .supplyWarningCrossing 3 default, .supplyWarningRelease (2 ^ 40) default,
    .supplyResetCrossing 2 default, .panicLongTimer 2, .rowIdleClose 64 default, .scrubRead (2 ^ 40) default default,
    .eccCorrectedError (2 ^ 40) default, .eccUncorrectableError 0 default { (default : FaultSource) with master := 26 } default,
    .masterResetRetire 26, .hostHbmAccess 0 0 default, .registerWrite (.bar0 2) 0 none, .registerWrite (.bar0 0x34) 7 none, .registerWrite (.bar0 0x30) 0 (some 7), .registerWrite (.config default) 1 none,
    .registerWrite (.bar0 0xF00000) 0x100 none, .bar0BadAccess (.write 8 [1, 2, 3, 4]), .bar0BadAccess (.read (2 ^ 26) 4), .chnAuCountLoRead 64, .pmuCntLoRead 256,
    .engPeakLoadRead 16, .rcHeadroomMinRead 64, .lyrFlipResultRead 64, .extMarginMinRead 16, .netMergeSkewRead 208,
    .egrLateMaxRead 64, .laneFomRead 26] : List Instr).all (fun x => !x.wf) = true := by decide

theorem test_ill_formed_events_3 : ([
    .lyrCurPos 64 default, .lyrCurQueue 64 default, .audSlotCommit 8 default, .chkPreset 8 default, .chkInit 8, .chkFinish 8,
    .chkStart 8, .chkAbort 8, .chkFeed8 8 default, .chkFeed16 8 default, .chkFeed32 8 default default, .chkScanEnd 8 default,
    .pmuCounterEnable 256 default, .pmuSample 256 default default default, .pmuHistClear 16 default,
    .pmuDumpConfigWrite (2 ^ 40) default, .pmuDumpTrigger (2 ^ 40) default default, .threadReady default 64 default,
    .devRecovery default { (default : ImageInfo) with length := 2 ^ 32 }, .codeError 26 default, .laneFomLow 26 default] : List Instr).all (fun x => !x.wf) = true := by decide

theorem test_ill_formed_payloads : ([
    .sessionOpen { (default : SessionOpenArg) with keySlot := 2 ^ 32 }, .completionFetch (2 ^ 32),
    .keyWrite { (default : KeyWriteArg) with keySlot := 2 ^ 32 }, .deviceConfigure { (default : ChArg) with object := 2 ^ 32 },
    .powerBudget (2 ^ 32), .shutdown { (default : ChArg) with object := 2 ^ 32 }, .calRead (2 ^ 32),
    .calWrite { (default : CalWriteArg) with surface := 2 ^ 32 },
    .firmwareWrite { (default : FirmwareWriteArg) with surface := 2 ^ 32 },
    .lifecycleSet { (default : LifecycleSetArg) with target := 2 ^ 32 },
    .timeConfig { (default : TimeConfigArg) with domain := 2 ^ 32 },
    .timeServoConfig { (default : TimeServoArg) with kp := 2 ^ 32 }, .timeAcceptStep { (default : TimeField) with ns := 2 ^ 32 },
    .timePpsConfig { (default : TimePpsArg) with width := 2 ^ 32 }, .portConfig { (default : PortConfigArg) with port := 2 ^ 32 },
    .netAddress { (default : NetAddressArg) with iface := 2 ^ 32 }, .flowAdd { (default : FlowArg) with kind := 2 ^ 32 },
    .flowDelete (2 ^ 32), .txQueueConfig { (default : TxQueueArg) with iface := 2 ^ 32 },
    .gateListSet { (default : GateListArg) with iface := 2 ^ 32 }, .laneConfig { (default : LaneConfigArg) with lane := 2 ^ 32 },
    .channelDefine default, .channelDefine { (default : ChannelDefineArg) with channel := 2 ^ 32 },
    .channelDelete { (default : ChArg) with object := 2 ^ 32 }, .channelStart { (default : ChtArg) with object := 2 ^ 32 },
    .channelStop { (default : ChtArg) with object := 2 ^ 32 }, .channelSet { (default : ChannelSetArg) with channel := 2 ^ 32 },
    .channelCommit { (default : ChArg) with object := 2 ^ 32 }, .channelRefresh { (default : ChtArg) with object := 2 ^ 32 },
    .ltrMark { (default : ChtArg) with object := 2 ^ 32 }, .ltrRelease { (default : ChtArg) with object := 2 ^ 32 },
    .roiSet { (default : RoiSetArg) with channel := 2 ^ 32 }, .roiClear { (default : ChArg) with object := 2 ^ 32 },
    .extStreamDefine { (default : ExtStreamArg) with stream := 2 ^ 32 },
    .extStreamDelete { (default : ChArg) with object := 2 ^ 32 },
    .surfaceAlloc { (default : SurfaceAllocArg) with owner := 2 ^ 32 }, .surfaceFree (2 ^ 32),
    .flipSubmit { (default : FlipSubmitArg) with channel := 2 ^ 32 },
    .protectedLoad { (default : ProtectedLoadArg) with channel := 2 ^ 32 },
    .protectedRemove { (default : ChtArg) with object := 2 ^ 32 },
    .tonemapLoad { (default : TonemapLoadArg) with channel := 2 ^ 32 },
    .audioPortConfig { (default : AudioPortArg) with port := 2 ^ 32 },
    .audioPortStart { (default : ChArg) with object := 2 ^ 32 }, .audioPortStop { (default : ChArg) with object := 2 ^ 32 },
    .audioStreamConfig { (default : AudioStreamArg) with stream := 2 ^ 32 },
    .audioStreamDelete { (default : ChArg) with object := 2 ^ 32 }, .audioRoute ⟨[⟨256, 0, 0, 0, 0, 0⟩]⟩,
    .audioRoute ⟨List.replicate 256 default⟩, .audioAlignGroup { (default : AlignGroupArg) with group := 2 ^ 32 },
    .audioClock { (default : AudioClockArg) with pilot := 2 ^ 32 }, .groupForm { (default : GroupArg) with groupId := 2 ^ 32 },
    .groupJoin { (default : GroupArg) with groupId := 2 ^ 32 }, .groupHandover (2 ^ 32), .chainBudget (2 ^ 32),
    .eventLogFetch { (default : EventFetchArg) with fromSeq := 2 ^ 32 }, .cuAssign { (default : ChArg) with object := 2 ^ 32 },
    .channelStart { (default : ChtArg) with time := ⟨2 ^ 32, 0⟩ },
    .flipSubmit { (default : FlipSubmitArg) with fences := [0, 0, 0, 0, 0, 0, 0, 0, 0] },
    .roiSet { (default : RoiSetArg) with value := -129 }] : List Payload).all (fun x => !x.wf) = true := by decide

/-- A command is refused for its header and for its payload. -/
theorem test_ill_formed_commands :
    (Instr.deviceInfo { (default : CmdHdr) with pair := 9 }).wf = false ∧ (Instr.deviceInfo { (default : CmdHdr) with length := 65536 }).wf = false
      ∧ (Instr.groupHandover default 256).wf = false ∧ (Instr.groupHandover default 3).wf = true := by decide

/-! ## Witnesses of the statements' hypotheses -/

-- StepTakesFront
theorem witness_StepTakesFront : ({ State.reset with pending := [.powerOn, .helloTimer] } : State).pending = .powerOn :: [.helloTimer] := by
  decide

-- EmptyQueueTicks
theorem witness_EmptyQueueTicks : State.reset.pending = [] ∧ State.reset.time.ns < 1000000000 ∧ State.reset.time.frac < 2 ^ 40
    ∧ State.reset.time.incr ≤ 2 ^ 41 ∧ State.reset.time.sec < 2 ^ 48 := by decide



-- MemoryStaysCanonical
theorem witness_MemoryStaysCanonical : Memory.wf State.reset.mem.hbm = true
    ∧ (∃ t, step { State.reset with pending := [.hourCounterTick] } = .next t) := ⟨by decide, _, rfl⟩


-- ChipResets
theorem witness_ChipResets : ({ State.reset with dev := { lifeReset := true } } : State).dev.lifeReset = true
    ∧ ({ State.reset with dev := { trial := true } } : State).dev.trial = true ∧ State.reset.mbx.fwReady = false := by decide

-- BootFromFlash
theorem witness_BootFromFlash : State.reset.dev.phase = .held
    ∧ ({ State.reset with dev := { phase := .recovery } } : State).dev.phase = .recovery
    ∧ (slotOf { (default : ImageInfo) with sigOk := true, digestOk := true, length := wfield 16 24 0 }).valid 0 = true := by decide

-- FirmwareComesUp
theorem witness_FirmwareComesUp : ({ State.reset with dev := { phase := .booted } } : State).dev.phase = .booted
    ∧ State.reset.mbx.fwReady = false ∧ (State.reset.ctl.restarting && State.reset.ctl.hold) = false
    ∧ ({ State.reset with ctl := { restarting := true } } : State).ctl.restarting = true := by decide

-- ControlReset
theorem witness_ControlReset : ({ State.reset with dev := { phase := .booted } } : State).dev.phase = .booted ∧ 7 < 8 := by decide
theorem witness_UnstableComplex :
    let s : State := { State.reset with dev := { phase := .booted }, ctl := { resets := [3, 2, 1] }, time := { up := 60000000001 } }
    s.dev.phase = .booted ∧ s.ctl.resets.take 3 = [3, 2, 1] ∧ s.time.up ≤ 1 + 60000000000 := by decide



-- Servo
theorem witness_Servo : (1 : Nat) ≠ State.reset.time.tag
    ∧ State.reset.ctl.restarting = false ∧ (1310720000 : Int).natAbs ≤ State.reset.time.thresh * 65536
    ∧ State.reset.time.thresh * 65536 < (-1310720001 : Int).natAbs ∧ State.reset.time.autoStep = true ∧ State.reset.noneActive = true
    ∧ (({ State.reset with time := { autoStep := false } } : State).time.autoStep && State.reset.noneActive) = false
    ∧ ({ State.reset with time := { pend := some 5, accept := some 7 } } : State).time.accept = some 7
    ∧ ({ State.reset with time := { st := .locked } } : State).time.st = .locked := by decide

-- PtpExchange
theorem witness_PtpExchange :
    let s : State := { State.reset with time := { cfg := some default, port0 := { master := some 7, sync := some { (default : SyncMsg) with seqId := 65535 }, delayReq := some (65535, 3) } } }
    s.ctl.restarting = false ∧ s.time.cfg.isSome = true ∧ (1 ≤ 1 ∧ 1 < 2) ∧ (s.time.port 0).sync = some { (default : SyncMsg) with seqId := 65535 }
      ∧ (s.time.port s.time.active).master.isSome = true ∧ (s.time.port 0).delayReq = some (65535, 3) := by decide


theorem witness_ReadsThatAct :
    let s : State := { State.reset with chans := [(63, default)], pmu := { fifo := [⟨5, 7, 511, 223⟩] } }
    (15 < 16 ∧ 63 < 64 ∧ 207 < 208 ∧ 25 < 26 ∧ 255 < 256) ∧ tget s.chans 63 = some default ∧ tget s.chans 0 = none
      ∧ s.reaches (Reg.ENG_PEAK_LOAD 15) = true ∧ s.reaches (Reg.EGR_LATE_MAX 63) = true ∧ s.reaches (Reg.LANE_FOM 25) = true
      ∧ s.reaches Reg.PMU_SAMPLE_PC = true ∧ s.pmu.fifo = ⟨5, 7, 511, 223⟩ :: [] ∧ State.reset.pmu.fifo = []
      ∧ ({ s with mbx := { pci := { d3hot := true } } } : State).mbx.pci.d3hot = true
      ∧ ({ s with dev := { unlocked := [.time] } } : State).dev.down (regDomain Reg.TIME_NOW_NS) = true := by decide

-- RegisterWrites
theorem witness_RegisterWrites : (0x0020000C % 4 = 0 ∧ 0x0020000C / 0x100000 = 2) ∧ State.reset.reaches 0x0020000C = true
    ∧ (regRow? 0x00B00000).isSome = true ∧ regRow? 0x00DFFFFC = none ∧ wfield 1 1 0 = 1 ∧ wfield 2 1 0 = 2 ∧ wbit 1 0 = true
    ∧ State.reset.mbx.pci.d3hot = false ∧ ({ State.reset with mbx := { pci := { d3hot := true } } } : State).mbx.pci.d3hot = true
    ∧ inBlock 0x11FFC 4 = true ∧ inBlock 0x11FFC 8 = false
    ∧ ({ State.reset with dev := { unlocked := [.time] } } : State).dev.down (regDomain 0x0020000C) = true := by decide
theorem witness_RegisterWrites_read : readAct 0x11FFFC = none := by decide

-- BistRows
theorem witness_BistRows : State.reset.bistOpen = true ∧ State.reset.mbx.pci.d3hot = false ∧ State.reset.chans = [] ∧ wbit 0x100 8 = true
    ∧ (State.reset.rd Reg.BIST_PROV_INDEX).toNat ≤ 13
    ∧ thas ({ State.reset with dev := { nvm := { words := [(0, 5)] } } } : State).dev.nvm.words 0 = true
    ∧ ({ State.reset with dev := { nvm := { fuses := 1 } } } : State).bistOpen = false := by decide

-- CheckUnits
theorem witness_CheckUnits :
    let c : ChkCfg := ⟨32, true, true, 2, 0x1EDC6F41, 0xFFFFFFFF, 0xFFFFFFFF⟩
    let s : State := { State.reset with chk := [(2, { granted := true, latched := some c, bytes := [1, 2, 3, 4] }), (3, { granted := true, latched := some { c with mode := 0 } })] }
    (s.chkOf 2).granted = true ∧ (s.chkOf 3).granted = true ∧ s.reaches (Reg.CHK_CONFIG 2) = true ∧ s.reaches (Reg.CHK_CONFIG 3) = true ∧ (s.chkOf 2).latched = some c
      ∧ (s.chkOf 2).done = false ∧ c.mode = 2 ∧ c.width / 8 ≤ (s.chkOf 2).bytes.length ∧ (chkPreset 9).isSome = true ∧ 9 < wfield 10 3 0
      ∧ (s.chkConfig 2).bad false 0 = false ∧ ({ s with regs := [(Reg.CHK_CONFIG 2, 7)] }.chkConfig 2).bad false 0 = true
      ∧ (s.chkOf 7).granted = false := by decide

-- ScanUnit
theorem witness_ScanUnit :
    let c : ChkCfg := ⟨32, true, true, 1, 0x1EDC6F41, 0xFFFFFFFF, 0xFFFFFFFF⟩
    let s : State := { State.reset with chk := [(7, { granted := true, latched := some c, busy := true, scanAt := hbmSize - 12, scanLen := 8 })] }
    let r : State := { State.reset with chk := [(7, { granted := true })], regs := [(Reg.CHK_SCAN_LEN 7, 1)] }
    (r.chkOf 7).granted = true ∧ r.reaches (Reg.CHK_CONFIG 7) = true ∧ (r.chkOf 7).busy = false
      ∧ (r.chkConfig 7).bad true 1 = false ∧ (r.chkConfig 7).bad true 0 = true ∧ (s.chkOf 7).latched = some c ∧ (s.chkOf 7).busy = true
      ∧ (s.chkOf 7).granted = true ∧ c.mode = 1 ∧ (s.chkOf 7).scanAt + 8 + 4 ≤ hbmSize
      ∧ firewalled.any (touches ((s.chkOf 7).scanAt + 8) 4) = false ∧ s.scanEnd (hbmSize - 12) 8 = none
      ∧ s.scanEnd hbmSize 8 = some (0, true)
      ∧ ({ State.reset with mem := { poison := [(0xA800004, ())] } } : State).scanEnd 0x150000000 256 = some (128, false) := by decide

-- PmuRows
theorem witness_PmuRows :
    let s : State := { State.reset with regs := [(Reg.PMU_CNT_CFG 223, 0x4001500), (Reg.PMU_CNT_PERIOD 223, 5), (Reg.PMU_DUMP_CFG, 0x01000001), (Reg.PMU_DUMP_SIZE, 128)] }
    s.reaches (Reg.PMU_CNT_CFG 0) = true ∧ s.reaches (Reg.PMU_HIST_CFG 15) = true ∧ s.reaches Reg.PMU_DUMP_CFG = true
      ∧ s.rd (Reg.PMU_CNT_PERIOD 223) ≠ 0
      ∧ wbit (s.rd (Reg.PMU_CNT_CFG 223)) 12 = true ∧ wbit (s.rd (Reg.PMU_CNT_CFG 223)) 26 = true ∧ wfield (s.rd (Reg.PMU_CNT_CFG 223)) 11 8 = 5
      ∧ wbit 0x20000 17 = true
      ∧ (224 ≤ 255 ∧ 255 < 256) ∧ (s.dumpRange).isSome = true ∧ s.dumpLength = some 64 ∧ s.dumpArmed 1 = true ∧ s.dumpError = false
      ∧ s.pmu.dumpReset = false ∧ ringFull 0 0 128 64 = false ∧ ringFull 0 64 128 64 = true := by decide

-- ThreadScheduling
theorem witness_ThreadScheduling :
    let s : State := { State.reset with ctl := { cores := 1 } }
    let t : State := { State.reset with ctl := { cores := 1, running := [(0, 9)], slots := [(9, 5)] } }
    s.ctl.restarting = false ∧ s.ctl.cores ≠ 0 ∧ 63 ≤ 63 ∧ thas s.ctl.slots 511 = false ∧ s.ctl.idle = 0 :: [] ∧ s.ctl.waits 511 = false
      ∧ thas s.ctl.slots 512 = false ∧ t.ctl.idle = [] ∧ ({ t.ctl with slots := tset t.ctl.slots 511 4 } : CtlState).lowest = some (0, 5)
      ∧ t.ctl.running = [(0, 9)] := by decide

-- MailboxWords
theorem witness_MailboxWords :
    let s : State := { State.reset with mbx := { fwReady := true, h2d := [(8, mbxWord 2 4095 65535)], sessions := [(8, ⟨7, 31⟩)], queue := [(8, [(5, none)])] } }
    let f : State := { State.reset with mbx := { fwReady := true, h2d := [(0, mbxWord 1 4095 32)] } }
    thas s.mbx.h2d 0 = false ∧ thas s.mbx.h2d 8 = true ∧ s.mayRead 8 = true ∧ s.wordRefusal 8 (mbxWord 2 4095 65535) = none
      ∧ wordType (mbxWord 2 4095 65535) = 2 ∧ tgetD s.mbx.queue 8 [] = (5, none) :: [] ∧ thas s.mbx.d2h 8 = false
      ∧ f.mayRead 0 = true ∧ f.wordRefusal 0 (mbxWord 1 4095 32) = some eBadParam
      ∧ s.mbx.pci.d3hot = false ∧ s.turn = some 8
      ∧ ({ s with mbx := { s.mbx with pci := { d3hot := true } } } : State).mbx.pci.d3hot = true := by decide

-- SessionTimers
theorem witness_SessionTimers :
    thas ({ State.reset with mbx := { sessions := [(8, ⟨7, 31⟩)] } } : State).mbx.sessions 8 = true ∧ thas State.reset.mbx.sessions 1 = false := by decide

-- PowerReadings
theorem witness_PowerReadings : 500 ≤ ({ State.reset with pwr := { tMax := 500 } } : State).pwr.tMax
    ∧ ({ State.reset with pwr := { tMax := 499 } } : State).pwr.tMax < 500 ∧ State.reset.dev.calInvalid = false := by decide

-- ThermalTrips
theorem witness_ThermalTrips :
    let s : State := { State.reset with mem := { hotRun0 := 9, badRun0 := 9, coolRun := 99 } }
    s.pwr.tripped = false ∧ ({ s with pwr := { tripped := true } } : State).pwr.tripped = true
      ∧ 10 ≤ (s.readHbm (some 420) (some 0)).mem.hotRun0 ∧ (s.readHbm (some 419) none).mem.hotRun0 < 10
      ∧ 10 ≤ (({ s with mem := { hotRun1 := 9 } } : State).readHbm none (some 420)).mem.hotRun1 := by decide

-- SupplyWarnings
theorem witness_SupplyWarnings : State.reset.pwr.warn = none
    ∧ ({ State.reset with pwr := { warn := some ⟨2, 5, 6⟩ } } : State).pwr.warn = some ⟨2, 5, 6⟩
    ∧ ({ State.reset with grp := { role := .standby } } : State).grp.role = .standby
    ∧ ({ State.reset with dev := { state := .halted } } : State).dev.state = .halted ∧ State.reset.allStopped = true
    ∧ State.reset.pwr.moored = false := by decide

-- HbmErrors
theorem witness_HbmErrors : tget ({ State.reset with mem := { ceSec := [(pseudoOf 0, (0, 1000))] } } : State).mem.ceSec (pseudoOf 0) = some (0, 1000)
    ∧ State.reset.time.up < 0 + 1000000000 ∧ Gives (.eccCorrectedError 0 true) State.reset ((State.reset.pmuCount 1 2 1 { addr := some 0 }).bump Reg.MEM_SRAM_CE) := by
  exact ⟨by decide, by decide, rfl⟩

-- HbmAccess
theorem witness_HbmAccess : State.reset.bar4Reaches (hbmSize - 3) 3 = true ∧ firewalled.any (touches (hbmSize - 3) 3) = false
    ∧ State.reset.bar4Reaches (hbmSize - 2) 3 = false ∧ firewalled.any (touches 0x3FFFFFFF 1) = true ∧ State.reset.bar4Reaches 0x3FFFFFFF 1 = true
    ∧ ({ State.reset with mem := { panic0 := true, panic1 := true } } : State).mem.panic1 = true ∧ State.reset.mem.long0 = false ∧ State.reset.mbx.pci.d3hot = false
    ∧ ({ State.reset with mbx := { pci := { d3hot := true } } } : State).mbx.pci.d3hot = true := by decide

-- SelftestBlocks
theorem witness_SelftestBlocks :
    let s : State := { State.reset with dev := { state := .testing } }
    State.reset.blockDue = false ∧ s.blockDue = true ∧ s.numbered = false ∧ s.blockFits = true ∧ s.pwr.tMax ≤ 460 ∧ s.pwr.warn = none
      ∧ ({ s with pwr := { tMax := 461 } } : State).blockDue = true
      ∧ (let t : State := { s with rat := { addr := 2 } }; t.blockDue = true ∧ t.numbered = true ∧ t.rat.manager = false)
      ∧ (let t : State := { s with dev := { state := .testing, test := { running := [⟨3, 0⟩], stopping := true } } }
         t.testRuns = true ∧ t.dev.test.running.any (·.block == 3) = true ∧ t.dev.test.running.filter (·.block != 3) = []
           ∧ t.ctl.restarting = false)
      ∧ (let t : State := { s with dev := { state := .testing, test := { asked := true } } }; t.testRuns = true ∧ t.dev.test.asked = true)
      ∧ ({ s with dev := { fwWrite := some (0, 1, ⟨true, true, 0, 9, true⟩, true) } } : State).dev.fwWrite =
          some (0, 1, ⟨true, true, 0, 9, true⟩, true) := by decide

-- LaneDetectors
theorem witness_LaneDetectors :
    let x : Lane := { los := false, lol := false, enabled := true, errAt := [5, 6, 7], symLock := true }
    let s : State := { State.reset with lane := { lanes := [(16, x)], ports := [(0, { st := .up, slips := [0, 0, 0] }), (1, { st := .failed })] } }
    lanePort 16 = some 0 ∧ lanePort 25 = some 3 ∧ (s.laneOf 16).los = false ∧ (s.laneOf 16).lol = false ∧ (s.laneOf 16).testMode = false
      ∧ (s.laneOf 25).los = true ∧ s.portUp 0 = true ∧ (s.portOf 1).st = .failed ∧ s.dev.linkRefLost = false
      ∧ 3 ≤ ((s.portOf 0).slips.filter fun e => decide (s.time.up < e + 1000000)).length
      ∧ 3 ≤ ((s.laneOf 16).errAt.filter fun e => decide (9 < e + 64)).length := by decide

-- LinkTraining
theorem witness_LinkTraining :
    let x : Lane := { los := false, lol := false, enabled := true, symLock := true, trained := true, readyRun := 16, number := some 2, lastStep := some (1, 60) }
    let s (st : LinkState) (y : Lane) : State := { State.reset with lane := { lanes := (portLanes 0).map fun l => (l, y), ports := [(0, { st := st })] } }
    ((portLanes 0).all fun l => ((s .down x).laneOf l).symLock) = true ∧ ((s .down x).portOf 0).deskewed = false ∧ ((s .up x).portOf 0).st = .up
      ∧ (s .training x).laneBy 0 2 = some 16 ∧ hasRepeat [0, 1, 2, 3] = false ∧ hasRepeat [0, 1, 1, 3] = true
      ∧ ((s .training { x with trained := false }).laneOf 16).trained = false ∧ x.lastStep = some (1, 60) ∧ State.reset.ifExists 0 = true
      ∧ ((State.reset.updIface 0 fun f => { f with enabled := true }).iface 0).enabled = true
      ∧ ((State.reset.ifLanes 0).any fun l => (State.reset.laneOf l).testMode) = false
      ∧ ((State.reset.updIface 0 fun f => { f with linkUp := true }).iface 0).linkUp = true ∧ State.reset.grp.role ≠ .active := by decide

-- FramesIn
def witFcs (l : List Byte) : List Byte :=
  l ++ leBytes 4 (crcOut 32 true 0xFFFFFFFF (crcRun 32 0x04C11DB7 true 0xFFFFFFFF l))
def witFrame (type : Nat) (body : List Byte) : RxFrame := ⟨witFcs (beBytes 6 7 ++ beBytes 6 9 ++ beBytes 2 type ++ padTo 46 body), 0, 0⟩
def witUdp : List Byte :=
  beBytes 12 0x4500002800000000401166C4 ++ beBytes 8 0x0A0000010A000001 ++ beBytes 8 0x0009138C00140000
    ++ beBytes 12 0x806000050000000000000001
def witFlow : FlowArg := ⟨true, 2, 0, 0, 0, 0, 5004, 1, 0xFFFF0A000001, 0, 3, 96, 0, 1000, 2000⟩
def witNet : State := (State.reset.insertFlow witFlow [] ((keyOf witFlow).bucket 0)).updIface 0 fun f => { f with enabled := true, linkUp := true, mac := some 7 }
theorem witness_FramesIn : (witNet.ifExists 0 && (witNet.iface 0).enabled && (witNet.iface 0).linkUp) = true
    ∧ findKey witNet.net.flows (keyOf witFlow) = some ((keyOf witFlow).bucket 0)
    ∧ (tget witNet.net.flows ((keyOf witFlow).bucket 0)).isSome = true ∧ findKey witNet.net.flows ⟨1, 2, 3, 4⟩ = none
    ∧ ((tgetD witNet.net.flows ((keyOf witFlow).bucket 0) default).level 0 < 9216 * 1024) := by decide
theorem witness_FramesIn_good : (witFrame 0x0800 witUdp).bytes.length = 64 ∧ fcsOk (witFrame 0x0800 witUdp).bytes = true := by decide
theorem witness_FramesIn_parse (f : Iface) : parseFrame f (witFrame 0x8808 [0, 1]).bytes = .flowControl
    ∧ parseFrame f (witFrame 0x0800 []).bytes = .malformed ∧ parseFrame f (witFrame 0x88B5 []).bytes = .other
    ∧ (∃ c, parseFrame f (witFrame 0x0806 []).bytes = .fixed c) := ⟨rfl, rfl, rfl, _, rfl⟩
theorem witness_FramesIn_udp : ∃ u, parseFrame {} (witFrame 0x0800 witUdp).bytes = .udp u
    ∧ (⟨u.dst, 0, u.port, u.vid⟩ : FlowKey) = keyOf witFlow ∧ payloadType u.payload = 96 ∧ (parseRtp u.payload).isSome = true := by
  refine ⟨⟨0xFFFF0A000001, 0xFFFF0A000001, 5004, 0, beBytes 12 0x806000050000000000000001⟩, ?_⟩; decide

-- Merging
theorem witness_Merging :
    let g : Merge := { got := [(5, (7, 0))], newest := 7, newestSeq := some 5, floor := some 1, missing := [(3, 7)], upA := true, upB := true }
    let a : FlowArg := { witFlow with kind := 1 }
    let s : State := { witNet with net := { witNet.net with merges := [(3, g)], flows := [((keyOf a).bucket 0, { arg := a, bucket := 3000000, at_ := 0 }), (9, { arg := { a with path := 1 }, bucket := 0, at_ := 0 })] } }
    tget (s.merge 3).got 6 = none ∧ (s.merge 3).stale 6 = false ∧ (s.merge 3).stale 1 = true ∧ tget (s.merge 3).got 1 = none ∧ tget (s.merge 3).got 5 = some (7, 0)
      ∧ thas (s.merge 3).missing 3 = true ∧ s.paired 3 = true ∧ s.grp.role = .none ∧ findKey s.net.flows (keyOf a) = some ((keyOf a).bucket 0)
      ∧ ((tgetD s.net.flows ((keyOf a).bucket 0) default).police 64 0).2 = true ∧ (s.iface 0).mac.isSome = true := by decide
theorem witness_Merging_packet : restoreRtp ⟨96, 5, 0, 1, false, [0, 7]⟩ = some ⟨96, 7, 0, 1, false, []⟩
    ∧ ({ State.reset with chans := [(0, default)] } : State).noRepair 0 = true
    ∧ (videoSegs 10 (beBytes 8 0x0000000500030000 ++ beBytes 5 0x4020080200)).isSome = true := by decide

-- ControlAndGates
theorem witness_ControlAndGates :
    let g : GateList := { base := 10, cycle := 1000, entries := [(1, 1000)] }
    let s : State := { State.reset.updIface 0 (fun f => { f with mac := some 7, linkUp := true, ipv6a := 5 }) with tx := [(0, { pend := some g, oper := some g }), (1, { pend := some g, taken := true }), (2, { pend := some { g with base := 5000 } })] }
    let v : State := { s with net := { s.net with toFw := [(0, .resolve 5), (1, .echo 64)] } }
    (s.net.toFw.filter fun e => e.1 == 0).length ≤ 0 ∧ (v.net.toFw.filter fun e => e.1 == 0)[0]? = some (0, .resolve 5)
      ∧ v.ctl.restarting = false ∧ v.dev.fatal = false ∧ (v.iface 0).linkUp = true ∧ (v.iface 0).mac.isSome = true
      ∧ (CtlReply.resolved 5).frame ≤ (v.txIf 0).maxF 3 ∧ tgetD (v.txIf 0).held 3 0 + (CtlReply.resolved 5).frame ≤ 262144
      ∧ (v.iface 1).mac = none ∧ v.answersFor 0 6 = false
      ∧ s.answersFor 0 5 = true ∧ s.answersFor 0 6 = false ∧ (s.txIf 0).pend = some g ∧ (s.txIf 0).taken = false ∧ g.base < s.time.nowNs + 2000
      ∧ 0 < g.cycle ∧ (s.txIf 1).taken = true ∧ (s.txIf 0).oper = some g ∧ s.time.nowNs + 2000 ≤ 5000 ∧ (s.txIf 3).oper = none := by decide

-- AudioClocks
theorem witness_AudioClocks :
    let e : AudStream := { arg := ⟨0, 0, 2, 0, 1, 2, 192⟩, fifo := { rd := some 100, newest := 400 } }
    let s : State := { State.reset with aud := { dirs := [(0, { locked := true }), (1, { fmt := { (default : AudDir).fmt with mode := 1 } })], streams := [(0, e)], pilotSel := 0 } }
    (s.dir 0).fmt.mode = 0 ∧ (s.dir 0).locked = true ∧ (s.dir 2).locked = false ∧ (s.dir 2).fmt.mode = 0 ∧ (s.dir 1).fmt.mode = 1
      ∧ s.dev.oscUnlocked = false ∧ s.pilot = some 0 ∧ s.aud.holdover = false ∧ tget s.aud.streams 0 = some e ∧ e.fifo.rd = some 100
      ∧ State.reset.pilot = none := by decide

-- AudioFrames
theorem witness_AudioFrames :
    let f : AudFifo := { frames := List.replicate 101 [1, 2], phase := .normal }
    let d : AudDir := { (default : AudDir) with fmt := { (default : AudDir).fmt with slots := 2 }, locked := true, st := .running, mask := 3, fifo := f }
    let s : State := { State.reset with aud := { dirs := [(0, d), (1, d), (2, { d with st := .starting }), (3, { d with st := .starting, frame := 63 }), (4, { d with st := .stopping, frame := 159 }), (5, { d with st := .stopping, frame := 159 })] } }
    let e : AudStream := { arg := ⟨0, 0, 2, 0, 1, 2, 192⟩, fifo := { rd := some 100, newest := 400, phase := .normal } }
    (s.dir 0).clocked = true ∧ (s.dir 0).fadePos = [] ∧ (s.dir 0).rampPos = [] ∧ (s.dir 0).fmt.slots ≤ 16
      ∧ wbit (s.rd (Reg.AUD_SLOT_COMMIT 0)) 0 = false ∧ (s.dir 0).fifo.frames.length = 101 ∧ thas s.aud.dirs 1 = true ∧ s.aud.slips = []
      ∧ s.aud.newRoutes = [] ∧ tsorted [(3, e)] = true ∧ e.fifo.phase = .normal ∧ (100 : Nat) + 100 < e.fifo.newest := by decide

-- LayerRegisters
theorem witness_LayerRegisters :
    let s : State := { State.reset with chans := [(3, default)] }
    s.dev.down (regDomain Reg.LYR_FENCE_SIGNAL) = false ∧ s.mbx.pci.d3hot = false ∧ (tget s.chans 3).isSome = true ∧ tget s.chans 4 = none
      ∧ ({ s with dev := { unlocked := [.pix] } } : State).dev.down (regDomain Reg.LYR_FENCE_SIGNAL) = true
      ∧ (s.rd (Reg.LYR_CUR_TIME_NS 3)).toNat < 1000000000 ∧ (default : Chan).layers.lastPush = none
      ∧ (default : Chan).layers.cursorQ.length < 16 := by decide

-- PictureBoundaries
def witChan (st : ChanState) : Chan := { (default : Chan) with st := st, cfg := { (default : ChannelDefineArg) with main := { (default : DefMain) with ctuSize := 64, format := ⟨2, false, 0⟩, rateId := 8 } } }
def withChan (ch : Chan) : State := { State.reset with chans := [(0, ch)] }
theorem witness_PictureBoundaries : (witChan .armed).st.active = true ∧ (witChan .stopped).st.active = false ∧ (witChan .armed).stepPic = none
    ∧ (withChan (witChan .armed)).member = false ∧ (witChan .running).st.coding = true ∧ (witChan .running).stopPic = none
    ∧ (({ witChan .running with stepPic := some 0 } : Chan).stepPic.any fun m => decide (m ≤ 0)) = true
    ∧ tget (withChan (witChan .armed)).chans 0 = some (witChan .armed) ∧ tget (withChan (witChan .armed)).chans 1 = none := by decide

-- InputRows
def witRows : State := withChan { witChan .running with pics := [(4, {})], nextPic := 5 }
theorem witness_InputRows : witRows.hasDu 0 4 0 = true ∧ witRows.hasDu 0 4 16 = true ∧ witRows.hasDu 0 5 0 = false ∧ witRows.member = false
    ∧ (witRows.du 0 4 0).entered = false ∧ (tget witRows.chans 0).isSome = true
    ∧ ((witRows.updChan 0 fun ch => ch.updRow 4 1 fun x => { x with entered := true }).du 0 4 1).entered = true := by decide

-- JobStart
def witRow (x : Row) : State := withChan { witChan .running with pics := [(4, { rows := [(0, x)] })], nextPic := 5, engines := [3], k := 1 }
def witServed (x : Row) : State := { witRow x with eng := { current := [(3, (0, 4, 0))] } }
theorem witness_JobStart :
    let s := witRow { entered := true }
    s.hasDu 0 4 0 = true ∧ s.hasDu 0 4 99 = false ∧ (s.du 0 4 0).job = .none ∧ s.eng.failed.contains 3 = false ∧ s.member = false
      ∧ ({ s with eng := { failed := [3] } } : State).eng.failed.contains 3 = true ∧ ({ poisonRows := [0] } : Pic).poisonRows.contains 0 = true
      ∧ ((witRow { job := .ready, engine := 3 }).du 0 4 0).job = .ready
      ∧ (witRow { job := .ready, engine := 3 }).edfJob 3 = some (0, 4, 0) ∧ (witRow { job := .ready, engine := 3 }).pipeBusy 3 = false
      ∧ (witChan .running).refsFinal {} 0 = true
      ∧ (witServed { job := .active, engine := 3 }).eng.serves 3 (0, 4, 0) = true ∧ (witServed { job := .active, engine := 3 }).dev.mediaOff = false
      ∧ ((witServed { job := .active, engine := 3 }).du 0 4 0).ctus < (witChan .running).cfg.main.ctus
      ∧ ((witServed { job := .active, cap := 100000 }).du 0 4 0).latched = false := by decide

-- JobEnds
theorem witness_JobEnds :
    let a : Row := { entered := true, job := .active, latched := true, engine := 3 }
    ((witRow a).du 0 4 0).job = .active ∧ (witRow a).hasDu 0 4 0 = true ∧ (witRow a).member = false ∧ (witRow a).engineRows 3 ≠ []
      ∧ ((witRow { marked := true }).du 0 4 0).marked = true ∧ State.reset.engineRows 3 = []
      ∧ ((witChan .running).boundaryReady { rows := [(0, { substituted := true }), (1, { substituted := true })] } 0) = true
      ∧ ((witChan .running).boundaryReady {} 0) = false ∧ ({} : Pic).aboveFinal 0 = true ∧ ({} : Pic).aboveFinal 1 = false
      ∧ (let s : State := { witRow a with eng := { resets := [(3, [0, 0])] } }
         2 ≤ ((tgetD s.eng.resets 3 []).filter fun i => decide (s.time.up < i + 1000000000)).length) := by decide

-- ProofVerdicts
theorem witness_ProofVerdicts :
    let s : State := { witRow { proof := .waiting } with eng := { pipes := [(1, .du 0 4 0)], pipeResets := [(1, [0, 0])] } }
    ((firstDu s.waitingDus).map fun w => (w.c, w.n, w.r)) = some (0, 4, 0) ∧ s.pipeFor = some 0 ∧ thas s.eng.pipes 1 = true
      ∧ firstDu State.reset.waitingDus = none ∧ State.reset.extWaiting = none ∧ s.eng.pipeFailed.contains 1 = false
      ∧ ({ State.reset with ext := [(3, { arg := default, shares := 1, frozen := [(5, true)] })] } : State).extWaiting = some 3
      ∧ (let u : State := { witRow { proof := .proving 1, substituted := true } with eng := { pipes := [(1, .du 0 4 0)] } }
         tget u.eng.pipes 1 = some (.du 0 4 0) ∧ (u.du 0 4 0).proof = .proving 1 ∧ (u.du 0 4 0).substituted = true)
      ∧ ((witRow {}).du 0 4 0).proof = .none ∧ (witRow {}).member = false := by decide

-- ExternalStreams
def witExt (f : ExtStream → ExtStream) : State :=
  { State.reset with eng := { pipes := [(1, .ext 3)] }, ext := [(3, f { arg := default, shares := 1, frozen := [(4, true)], heads := [(7, 90)] })] }
theorem witness_ExternalStreams :
    let s := witExt id
    let e : ExtStream := { arg := default, shares := 1, frozen := [(4, true)], heads := [(7, 90)] }
    tget s.ext 3 = some e ∧ tget s.ext 4 = none ∧ e.due = true ∧ s.member = false ∧ s.dev.mediaOff = false
      ∧ (s.eng.pipes.any fun w => w.2 == .ext 3) = true ∧ e.auLost 4 = false
      ∧ ({ e with gaps := [(17, none)] } : ExtStream).auLost 4 = true ∧ e.inWork ≠ some 4 ∧ e.decoding = false ∧ e.refresh = []
      ∧ extSupported ⟨default, default, 40, 1, (default : ExtStreamArg).codedDepth, (default : ExtStreamArg).format.width,
          (default : ExtStreamArg).format.lines, 64⟩ default = true
      ∧ extSupported ⟨9, 0, 40, 1, 8, 8, 8, 64⟩ default = false
      ∧ ([ExtRef.poc 9].filter fun r => !(e.held.any fun h => refNames r h.poc)) ≠ []
      ∧ ({ e with held := [⟨8, false, false, {}⟩] } : ExtStream).substitute 9 = some 8 := by decide

-- Emission
theorem witness_Emission :
    let w : TxPacket := { pkt := { chan := 0, seq := 9, pic := 4, row := 0, ts := 0, marker := true, bytes := 100, frame := 150, ej := 0 }, queue := 1 }
    let s : State := { (State.reset.updIface 8 fun f => { f with linkUp := true, mac := some 7 }) with tx := [(8, { queued := [w] }), (12, { queued := [{ w with eligible := true }] })] }
    (witRow { proof := .passed }).hasDu 0 4 0 = true ∧ ((witRow { proof := .passed }).du 0 4 0).cleared 30 = true ∧ (witRow {}).member = false
      ∧ (witRow {}).grp.standDown = false ∧ (witRow {}).mbx.held = none ∧ (default : Chan).rate.last = none
      ∧ ((s.txIf 8).queued.find? fun v => v.pkt.chan == 0 && v.pkt.seq == 9 && !v.eligible) = some w
      ∧ (s.iface 8).sends = true ∧ (s.iface 4).sends = false ∧ s.dev.fatal = false
      ∧ (s.nextPacket 12).isSome = true ∧ s.nextPacket 8 = none
      ∧ (let u : State := { withChan { witChan .running with cfg := { (default : ChannelDefineArg) with out := { (default : DefOut) with encap := 1 } } } with txc := [(0, { tsOrigin := some 5 })] }
         (tgetD u.txc 0 {}).tsOrigin = some 5 ∧ (tgetD u.txc 0 {}).tsBuf.length < 6) := by decide

-- RecordLayer
def witGroup (r : Role) : State :=
  { State.reset with
    lane := { ports := [(0, { st := .up }), (1, { st := .up })] }
    grp := { role := r, rank := 1, size := 2, groupId := 5, activeRank := 2, legA := { peerRank := 2, helloOk := true }
             legB := { peerRank := 2, helloOk := true }, peers := [(2, { role := 2, seen := [7] })] } }
/-- A header of a record of content `m` from rank 2, with its CRC. -/
def witHdr (role seq : Nat) (m : StayMsg) : RecHdr :=
  let h : RecHdr := { leg := 0, link := 0, crc := 0, dest := 1, relayed := false, rank := 2, role := role, recSeq := seq, groupId := 5 }
  { h with crc := crc32c (h.bytes m (StayMsg.body h m)) }
theorem witness_RecordLayer : (witGroup .standby).ours (witHdr 1 9 (.standDown 0)) = true ∧ ((witGroup .standby).leg 0).helloOk = true
    ∧ ((witGroup .standby).peer 2).seen.contains 9 = false ∧ ((witGroup .standby).peer 2).seen.contains 7 = true
    ∧ (witGroup .standby).ours { witHdr 1 9 (.standDown 0) with groupId := 6 } = false ∧ (witGroup .unverified).grp.forming = false
    ∧ ((witGroup .standby).linkIn (witHdr 1 9 (.standDown 0)) (.standDown 0) (StayMsg.body (witHdr 1 9 (.standDown 0)) (.standDown 0))).2 = true
    ∧ ((witGroup .standby).linkIn { witHdr 1 9 (.standDown 0) with link := 1 } (.standDown 0) []).2 = false
    ∧ (witGroup .standby).portUp 0 = true ∧ (witGroup .standby).portUp 1 = true := by decide

-- RecordsTaken
theorem witness_RecordsTaken :
    ((witGroup .joining).takeRecord (witHdr 1 9 (.rejoinDone [])) false (.rejoinDone [])).2 = true
    ∧ ((witGroup .standby).takeRecord (witHdr 1 9 (.repairRequest 0 1 1)) false (.repairRequest 0 1 1)).2 = true
    ∧ ((witGroup .standby).takeRecord (witHdr 1 9 (.standDown 0)) false (.standDown 0)).1.grp.role = .standby
    ∧ (witGroup .standby).member = true ∧ (witGroup .standby).wired 0 2 1 = true
    ∧ (let r : HelloRec := ⟨1, 2, 1, 2, []⟩
       ((witGroup .standby).linkIn (witHdr 2 9 (.hello r)) (.hello r) (StayMsg.body (witHdr 2 9 (.hello r)) (.hello r))).2 = true)
    ∧ (let s : State := { witGroup .joining with grp := { (witGroup .joining).grp with chans := [(0, { phase := .copy, failedBlocks := [7] })] } }
       let y : CopyRec := { chan := 0, block := 7, offset := 0, data := [1], last := true, blockCrc := 0, crcOk := false, copy := none, slot := none }
       let h : RecHdr := { leg := 0, link := 0, crc := 0, dest := 1, relayed := false, rank := 2, role := 1, recSeq := 9, groupId := 5 }
       let m : StayMsg := .copy y.chan y.block y.copy y.slot
       let g := s.takeBytes { h with crc := crc32c (h.bytes m (copyBody h y)) } false m (copyBody h y)
       g.2 = true ∧ (g.1.gch 0).failedBlocks.contains 7 = true ∧ (g.1.gch 0).phase = .copy ∧ y.crcOk = false) := by decide

-- GroupTimers
theorem witness_GroupTimers :
    (let s : State := { witGroup .standby with net := { State.reset.net with flows := [(9, { arg := { (default : FlowArg) with kind := 2, target := 0 }, bucket := 0, at_ := 0 })] }, chans := (withChan (witChan .running)).chans }
     s.mayTakeOver = true ∧ s.firstCandidate = true)
    ∧ (witGroup .none).mayTakeOver = false
    ∧ ({ witGroup .standby with grp := { (witGroup .standby).grp with peers := [(2, { role := 2 })], activeRank := 3, size := 3, rank := 1 } } : State).standbys = [2]
    ∧ (witGroup .active).member = true ∧ (witGroup .active).portUp 0 = true ∧ (witGroup .active).mbx.held = none
    ∧ (({ (witGroup .active).grp with handover := some ⟨5, 2, [], true, false, false⟩ } : GrpState).handover.isSome) = true
    ∧ (withChan (witChan .running)).chans.length = 1 ∧ tsorted (withChan (witChan .running)).chans = true := by decide

-- RingMessages
def witRat (a : Nat) : State :=
  { State.reset with mbx := { fwReady := true }, lane := { ports := [(2, { st := .up })] }, rat := { State.reset.rat with addr := a } }
def witRatHdr (src dst seq : Nat) : RatHdr :=
  { port := 0, link := 0, crc := 0, length := 32, west := true, manager := true, src := src, dst := dst, seq := seq, hops := 3 }
/-- A header with the CRC of its message. -/
def sealRat (h : RatHdr) (m : RatMsg) : RatHdr := { h with crc := crc32c (h.bytes m) }
theorem ratLinkIn_ok (s : State) (h : RatHdr) (x : Word) (m : RatMsg) (ho : ({ h with crc := x } : RatHdr).ok m = true)
    (hu : s.ratUp h.port = true) (hn : h.link = tgetD s.rat.rxLink h.port 0) : (s.ratLinkIn { h with crc := x } m).2 = true := by
  unfold State.ratLinkIn
  simp only [ho, hu, ← hn, Bool.not_true, Bool.false_eq_true, if_false, if_true]
theorem ok_sealRat (h : RatHdr) (m : RatMsg) (hl : 16 ≤ h.length ∧ h.length ≤ 272) : (sealRat h m).ok m = true := by
  have hb (x : Word) : ({ h with crc := x } : RatHdr).bytes m = h.bytes m := rfl
  have hn (x : Word) : ({ h with crc := x } : RatHdr).length = h.length := rfl
  have h1 : (sealRat h m).bytes m = h.bytes m := hb _
  have h2 : (sealRat h m).length = h.length := hn _
  unfold RatHdr.ok
  rw [h1, h2]
  exact Bool.and_eq_true_iff.2 ⟨Bool.and_eq_true_iff.2 ⟨decide_eq_true hl.1, decide_eq_true hl.2⟩, beq_iff_eq.2 rfl⟩
theorem witness_RingMessages :
    ((witRat 3).ratLinkIn (sealRat (witRatHdr 1 3 5) .ringCheck) .ringCheck).2 = true ∧ ((witRat 3).ratLinkIn (witRatHdr 1 3 5) .ringCheck).2 = false
    ∧ ((witRat 3).ratReceive (witRatHdr 1 3 5) .ringCheck).taken = true ∧ ((witRat 3).ratReceive (witRatHdr 1 4 5) .ringCheck).taken = false
    ∧ ({ witRat 3 with mbx := {} } : State).fwAlive = false ∧ (witRat 3).rat.rxRing.length < 64
    ∧ ({ witRat 3 with rat := { (witRat 3).rat with rxRing := List.replicate 64 ⟨true, true, 1, 3, 5, 3, .ringCheck⟩ } } : State).rat.rxRing.length = 64
    ∧ (witRat 3).ratUp 0 = true ∧ (witRat 3).ratUp 1 = false ∧ tgetD (witRat 3).rat.outQ 0 [] = [] ∧ (tgetD (witRat 3).rat.replay 0 []).length < 8
    ∧ tsorted (witRat 3).rat.windows = true ∧ (witRat 3).rat.manager = false := by decide

-- RingFirmware
theorem witness_RingFirmware :
    let m : State := { witRat 1 with rat := { (witRat 1).rat with manager := true, enumDone := true, table := [(1, 0), (5, 9)], limit := some 3000, grants := [⟨5, 7, 100, 0⟩] } }
    (witRat 3).fwAlive = true ∧ m.manages = true ∧ (m.ratReceive (witRatHdr 9 1 5) (.announce 9)).taken = true
      ∧ (m.ratLinkIn (sealRat (witRatHdr 9 1 5) (.announce 9)) (.announce 9)).2 = true
      ∧ (m.ratReceive (witRatHdr 9 1 5) (.testRequest 3 7)).taken = true ∧ m.rat.grants.any (·.addr == 5) = true
      ∧ ((witRat 3).ratReceive (witRatHdr 1 3 5) (.budget [0, 0, 1500])).taken = true ∧ [0, 0, 1500].getD ((witRat 3).rat.addr - 1) 0 ≠ 0
      ∧ ((tkeys m.rat.table).filter (· != 1)).filter (fun a => !(m.rat.east.contains a) && !(m.rat.west.contains a)) ≠ []
      ∧ (witRat 3).numbered = true ∧ (witRat 0).numbered = false ∧ (witRat 0).rat.addr = 0 ∧ ((witRat 0).ratUp 0 || (witRat 0).ratUp 1) = true
      ∧ (List.replicate 16 (0 : BitVec 64)).length = 16 ∧ m.rat.westWalk = false := by decide

-- ForwardedCommands
def witCmd (tgt seq : Nat) : CmdHdr :=
  let h : CmdHdr := { pair := 1, opcode := 0x0A02, extra := [], crc := 0, session := 1, seq := seq, target := tgt, length := 4 }
  { h with crc := crc32c (blockBytes h (.cuAssign ⟨7, 1⟩)) }
def witManager : State :=
  { witRat 1 with rat := { (witRat 1).rat with manager := true, enumDone := true, table := [(1, 0), (5, 9)] },
                  mbx := { fwReady := true, sessions := [(1, ⟨1, 31⟩)], h2d := [(1, mbxWord 1 5 3)] } }
theorem witness_ForwardedCommands_refusal : commandRefusal (witCmd 5 7) 31 (.cuAssign ⟨7, 1⟩) = none := by decide
theorem witness_ForwardedCommands_link :
    let m : RatMsg := .command (witCmd 3 7) 1 31 (.cuAssign ⟨7, 1⟩)
    ((witRat 3).ratLinkIn (sealRat (witRatHdr 1 3 5) m) m).2 = true :=
  ratLinkIn_ok _ (witRatHdr 1 3 5) _ _ (ok_sealRat _ _ (by decide)) (by decide) rfl
theorem witness_ForwardedCommands :
    witManager.mayRead 1 = true ∧ thas witManager.rat.table 5 = true
    ∧ journalRule (tgetD witManager.mbx.journal 1 []) 7 = .fresh ∧ ((opInfo (.cuAssign ⟨7, 1⟩)).roles == .oneOf 16) = false
    ∧ ((witRat 3).ratReceive (witRatHdr 1 3 5) (.command (witCmd 3 7) 1 31 (.cuAssign ⟨7, 1⟩))).taken = true
    ∧ (State.drainRing 64 ((witRat 3).ratReceive (witRatHdr 1 3 5) (.command (witCmd 3 7) 1 31 (.cuAssign ⟨7, 1⟩))).st).fwAlive = true
    ∧ journalRule (tgetD (witRat 3).rat.stored 9 []) 7 = .fresh ∧ (witRat 3).dev.state = .ready ∧ (witRat 3).rat.rxRing = []
    ∧ (witRat 3).threadFree = true ∧ (witCmd 5 7).reservedOk = true
    ∧ (let s : State := { witManager with rat := { witManager.rat with forwarded := [⟨1, 5, 3, witCmd 5 7, 1, 31, .cuAssign ⟨7, 1⟩, 3⟩] } }
       (s.ratReceive (witRatHdr 5 1 5) (.completion (completionOf (witCmd 5 7) 0x0A02 0 false []))).taken = true
         ∧ (s.rat.forwarded.find? fun f => f.pair == 1 && f.hdr.seq == 7).isSome = true) := by decide

-- SessionCommands
def witSession (w : Word) (p : Nat) : State :=
  { State.reset with
    mbx := { fwReady := true, sessions := [(1, ⟨1, 31⟩)], h2d := [(p, w)], nonces := [⟨6, 2, 3, 2⟩] }
    dev := { State.reset.dev with nvm := { State.reset.dev.nvm with keys := [(1, (7, 31)), (2, (9, 3))] } } }
/-- The header with the CRC of its block, and what is left of the conditions of `State.serves` once the CRC holds. -/
def sealCmd (h : CmdHdr) (p : Payload) : CmdHdr := { h with crc := crc32c (blockBytes h p) }
def servesSealed (s : State) (h : CmdHdr) (p : Payload) (g b : Nat) : Bool :=
  let e := tgetD s.mbx.sessions h.pair ⟨0, 0⟩
  let o := (opInfo p).roles
  decide (g < 4096) && decide (b < 32) && tget s.mbx.h2d h.pair == some (mbxWord 1 g b) && s.mayRead h.pair
    && (h.pair == 0 || thas s.mbx.sessions h.pair)
    && !(h.session != h.pair || badLength h p || !(h.known p) || ((h.pair == 0) != (o == .lobby)) || (h.pair != 0 && !(o.permits e.roles)))
    && decide (h.target < 2) && h.reservedOk
    && (match impliedLength p with | some n => h.length == n | none => true)
    && s.dev.state == .ready && s.threadFree
    && (unjournaled p || journalRule (tgetD s.mbx.journal e.slot []) h.seq == .fresh)
theorem crcOk_sealCmd (h : CmdHdr) (p : Payload) : (sealCmd h p).crcOk p = true := by
  have hb (c : Word) : blockBytes { h with crc := c } p = blockBytes h p := by simp only [blockBytes]
  have : blockBytes (sealCmd h p) p = blockBytes h p := hb _
  unfold CmdHdr.crcOk
  rw [this]
  exact beq_iff_eq.2 rfl
theorem commandRefusal_crcOk (h : CmdHdr) (x : Word) (r : Nat) (p : Payload) (hc : ({ h with crc := x } : CmdHdr).crcOk p = true) :
    (commandRefusal { h with crc := x } r p == none) =
      !(h.session != h.pair || badLength h p || !(h.known p) || ((h.pair == 0) != ((opInfo p).roles == .lobby))
        || (h.pair != 0 && !((opInfo p).roles.permits r))) := by
  have hk : ({ h with crc := x } : CmdHdr).known p = h.known p := rfl
  have hb : badLength { h with crc := x } p = badLength h p := rfl
  simp only [commandRefusal, hc, hb, hk]
  generalize (h.session != h.pair) = a, badLength h p = b, h.known p = c, ((h.pair == 0) != ((opInfo p).roles == .lobby)) = d,
    (h.pair != 0 && !((opInfo p).roles.permits r)) = e
  revert a b c d e
  decide
theorem serves_crcOk (s : State) (h : CmdHdr) (x : Word) (p : Payload) (g b : Nat) (hc : ({ h with crc := x } : CmdHdr).crcOk p = true) :
    s.serves { h with crc := x } p g b = servesSealed s h p g b := by
  have hr : ({ h with crc := x } : CmdHdr).reservedOk = h.reservedOk := rfl
  simp only [State.serves, servesSealed, commandRefusal_crcOk h x _ p hc, hr] <;> rfl
theorem commandRefusal_none (h : CmdHdr) (r : Nat) (p : Payload)
    (hr : (!(h.session != h.pair || badLength h p || !(h.known p) || ((h.pair == 0) != ((opInfo p).roles == .lobby))
      || (h.pair != 0 && !((opInfo p).roles.permits r)))) = true) : commandRefusal (sealCmd h p) r p = none :=
  eq_of_beq ((commandRefusal_crcOk h _ r p (crcOk_sealCmd h p)).trans hr)
theorem commandRefusal_session (h : CmdHdr) (r : Nat) (p : Payload) (hs : (h.session != h.pair) = true) :
    ∃ e, commandRefusal h r p = some e := by
  simp only [commandRefusal, hs, firstBad]
  split <;> exact ⟨_, rfl⟩
def rawHead (q : Nat) (p : Payload) : CmdHdr :=
  { pair := q, opcode := opcodeOf p, extra := [], crc := 0, session := q, seq := 9, target := 0,
    length := ((opInfo p).length).getD ((impliedLength p).getD 0) }
def witHead (q : Nat) (p : Payload) : CmdHdr := sealCmd (rawHead q p) p
theorem serves_witHead (s : State) (q : Nat) (p : Payload) (g b : Nat) :
    s.serves (witHead q p) p g b = servesSealed s (rawHead q p) p g b :=
  serves_crcOk s (rawHead q p) _ p g b (crcOk_sealCmd (rawHead q p) p)
/-- Served in the state of `witSession`. -/
def witServe (p : Payload) : Bool := (witSession (mbxWord 1 5 3) 1).serves (witHead 1 p) p 5 3
theorem witness_SessionCommands :
    (witSession (mbxWord 1 5 3) 0).serves (witHead 0 (.sessionOpen ⟨2, 3, 2⟩)) (.sessionOpen ⟨2, 3, 2⟩) 5 3 = true ∧ (witSession 0 0).pairFor 2 5 = some 5
    ∧ (witSession (mbxWord 1 5 3) 0).serves (witHead 0 (.sessionProve ⟨6, 0⟩)) (.sessionProve ⟨6, 0⟩) 5 3 = true
    ∧ (witSession (mbxWord 1 5 3) 1).serves (witHead 1 .sessionClose) .sessionClose 5 3 = true
    ∧ (witSession (mbxWord 1 5 3) 1).serves (witHead 1 (.completionFetch 3)) (.completionFetch 3) 5 3 = true
    ∧ (witSession (mbxWord 1 5 3) 1).serves (witHead 1 (.keyWrite ⟨5, 1, 9⟩)) (.keyWrite ⟨5, 1, 9⟩) 5 3 = true ∧ (witSession 0 0).slotPair 5 = none
    ∧ (witSession 0 0).slotPair 1 = some 1
    ∧ (witSession (mbxWord 1 5 3) 1).serves (witHead 1 .deviceInfo) .deviceInfo 5 3 = true
    ∧ (witSession (mbxWord 1 5 3) 1).serves (witHead 1 (.eventLogFetch ⟨1, 7⟩)) (.eventLogFetch ⟨1, 7⟩) 5 3 = true := by simp only [serves_witHead]; decide

-- DeviceCommands
theorem witness_DeviceCommands :
    witServe (.deviceConfigure ⟨2, 0⟩) = true ∧ witServe (.shutdown ⟨1, 0⟩) = true ∧ (witSession 0 0).allStopped = true
    ∧ ({ witSession (mbxWord 1 5 3) 1 with chans := [(7, witChan .running)] } : State).serves (witHead 1 (.shutdown ⟨0, 0⟩)) (.shutdown ⟨0, 0⟩) 5 3 = true
    ∧ witServe (.cuAssign ⟨7, 1⟩) = true ∧ witServe (.powerBudget 1600) = true ∧ (witSession 0 0).numbered = false
    ∧ witServe (.calRead 3) = true ∧ witServe (.calWrite ⟨3, 0⟩) = true
    ∧ (({ State.reset with surf := { surfs := [(3, ⟨0xFF, 0, 0, 0, 8192, 8192, 4096⟩)] } } : State).deviceBuffer 3 4096).isSome = true
    ∧ witServe (.firmwareWrite ⟨3, 1, 1, ⟨true, true, 4096, 5, false⟩⟩) = true ∧ (witSession 0 0).dev.fwWrite = none ∧ (witSession 0 0).dev.booted = 0
    ∧ witServe (.lifecycleSet ⟨1, 5, 6, 7, none⟩) = true ∧ (witSession 0 0).life = 0 ∧ (witSession 0 0).dev.nvm.fuses < 14
    ∧ lifeCycle 2 = 2 ∧ lifeCycle 3 = 3 ∧ lifeCycle 1 = 1 ∧ witServe (.timeConfig default) = true
    ∧ witServe (.timeServoConfig ⟨1, 0x100000, 1000, 1000000000, 1⟩) = true ∧ witServe (.timeAcceptStep ⟨0, 0⟩) = true
    ∧ witServe (.timePpsConfig ⟨500000000, 1⟩) = true := by simp only [witServe, serves_witHead]; decide
/-- A stored record that verifies, and a configuration whose entries find places. -/
theorem witness_DeviceCommands2 :
    (let s : State := { State.reset with net := { State.reset.net with ifaces := [(0, { enabled := true })] } }
     let c : TimeConfigArg := { (default : TimeConfigArg) with portPrimary := 0, portSecondary := 0xFF, announceTimeout := 2 }
     s.timeConfigOk c = true ∧ (s.setPtpEntries c).isSome = true) := by decide

-- NetCommands
theorem witness_NetCommands :
    witServe (.portConfig ⟨0, 1, 15⟩) = true ∧ (witSession 0 0).ifUsed 0 = false ∧ witServe (.netAddress ⟨12, 5, 0, 0, 0, 0⟩) = true
    ∧ (witSession 0 0).ifExists 12 = true ∧ (witSession 0 0).time.cfg = none
    ∧ (let c : TimeConfigArg := { (default : TimeConfigArg) with delayMode := 1, portPrimary := 12, portSecondary := 0xFF }
       ((witSession 0 0).updIface 12 fun f => { f with ipv4a := 5 }).setPtpEntries c |>.isSome) = true
    ∧ witServe (.flowDelete 0) = true ∧ witServe (.txQueueConfig ⟨0, 15, 255, 9216⟩) = true
    ∧ witServe (.gateListSet ⟨0, ⟨0, 0⟩, 1000, 0, 0⟩) = true ∧ gateRuleOk (State.reset.txIf 0) 400 ⟨0, 1000, [], none⟩ = true
    ∧ witServe (.laneConfig ⟨25, 3, 0, 1, 0, 0, 0⟩) = true ∧ cursorsOk ⟨15, 3, 0, 1, 0, 64, 0⟩ = true ∧ (witSession 0 0).laneInUse 25 = false := by simp only [witServe, serves_witHead]; decide
theorem witness_NetCommands2 :
    let a : FlowArg := { (default : FlowArg) with valid := true, kind := 1, pt := 255 }
    witServe (.flowAdd a) = true ∧ State.reset.flowArgOk a = true ∧ (placement [] (keyOf a)).isSome = true ∧ findKey [] (keyOf a) = none
      ∧ thas [(5, ({ arg := a, bucket := 0, at_ := 0 } : Flow))] 5 = true := by simp only [witServe, serves_witHead]; decide

-- ChannelCommands
def witDefine (a : Nat) : ChannelDefineArg :=
  { channel := 0
    main := { format := ⟨2, false, 0⟩, rateId := 8, inputDepth := 10, ctuSize := 64, codec := 0, profile := 1, renditionOf := 0xFF
              flowA := a, flowB := 0xFFFF, inputOffset := 0, tTol := 0, dPipe := 0 }
    rate := { rcMode := 0, avgWindow := 0, dCpb := 0, bitRate := 64000000, avgRate := 0, cpbSize := 0, takeoverSlack := 0, overshoot := 32
              qpMin := 0, qpMax := 51, initQp := 30 }
    refs := { stRefs := 2, ltSlots := 2, anchorSlots := 1, anchorDelta := 16, anchorShare := 128, anchorHold := 4, refreshMode := 2
              refreshInterval := 60, sweepG := 8, rejoinG := 8, protectedFloor := 22 }
    tone := { inSystem := 0, outSystem := 0, tmMode := 0, adapt := 0, adaptTarget := 1000, adaptSpeed := 16, gainMin := 256, gainMax := 65535 }
    out := { encap := 0, srcMode := 0, outIfA := 8, outIfB := 0xFF, dstA := 0xFFFFE0000101, dstB := 0, udpDst := 6000, vidA := 0, vidB := 0
             dscp := 34, hopLimit := 16, ssrc := 0x1234, seqInit := 65530, pt := 96, queue := 1, maxPayload := 1400, tsRate := 0, pidPmt := 0
             pidVideo := 0, pidAudio := [0, 0, 0, 0, 0, 0, 0, 0], pidAnc := 0, programmes := 0, progChannels := [0, 0, 0, 0, 0, 0, 0, 0] } }
def witDefState : State :=
  let a : FlowArg := { (default : FlowArg) with valid := true, kind := 1, essence := 0, target := 0, pt := 96 }
  let s := witSession (mbxWord 1 5 3) 1
  { s with net := { s.net with flows := [(5, { arg := a, bucket := 0, at_ := 0 })], ifaces := [(8, { enabled := true })] } }
theorem witness_ChannelDefine : witDefState.serves (witHead 1 (.channelDefine (witDefine 5))) (.channelDefine (witDefine 5)) 5 3 = true
    ∧ witDefState.defineOk (witDefine 5) = true ∧ witDefState.resyncing 0 = false ∧ witDefState.fits (witDefine 5) = true := by simp only [serves_witHead]; decide
def witStop (st : ChanState) : State :=
  { witSession (mbxWord 1 5 3) 1 with chans := [(0, { chanOf (witDefine 5) [0, 1, 2, 3] 0 with st := st })] }
theorem witness_ChannelCommands :
    (witStop .stopped).serves (witHead 1 (.channelDelete ⟨0, 0⟩)) (.channelDelete ⟨0, 0⟩) 5 3 = true ∧ (witStop .stopped).resyncing 0 = false
    ∧ (witStop .defined).serves (witHead 1 (.channelStart ⟨0, 0, ⟨0, 0⟩⟩)) (.channelStart ⟨0, 0, ⟨0, 0⟩⟩) 5 3 = true
    ∧ (chanOf (witDefine 5) [0, 1, 2, 3] 0).tableMissing = false ∧ (witStop .armed).serves (witHead 1 (.channelStop ⟨0, 0, ⟨0, 0⟩⟩)) (.channelStop ⟨0, 0, ⟨0, 0⟩⟩) 5 3 = true
    ∧ (witStop .running).serves (witHead 1 (.channelStop ⟨0, 0, ⟨0, 0⟩⟩)) (.channelStop ⟨0, 0, ⟨0, 0⟩⟩) 5 3 = true
    ∧ (witStop .running).serves (witHead 1 (.channelRefresh ⟨0, 0, ⟨0, 0⟩⟩)) (.channelRefresh ⟨0, 0, ⟨0, 0⟩⟩) 5 3 = true
    ∧ (witStop .running).serves (witHead 1 (.ltrMark ⟨0, 0, ⟨0, 0⟩⟩)) (.ltrMark ⟨0, 0, ⟨0, 0⟩⟩) 5 3 = true ∧ 0 < (witDefine 5).refs.ltSlots - (witDefine 5).refs.anchorSlots
    ∧ (witStop .running).serves (witHead 1 (.ltrRelease ⟨0, 1, ⟨0, 0⟩⟩)) (.ltrRelease ⟨0, 1, ⟨0, 0⟩⟩) 5 3 = true
    ∧ (witStop .running).serves (witHead 1 (.channelSet { (default : ChannelSetArg) with select := 2, overshoot := 64 })) (.channelSet { (default : ChannelSetArg) with select := 2, overshoot := 64 }) 5 3 = true
    ∧ (witStop .running).chanRefused 0 = false ∧ setZeros { (default : ChannelSetArg) with select := 2, overshoot := 64 } = true
    ∧ shadowOk (witDefine 5) (setFields (runCfgOf (witDefine 5)) { (default : ChannelSetArg) with select := 2, overshoot := 64 }) = true
    ∧ (witStop .running).serves (witHead 1 (.channelCommit ⟨0, 0⟩)) (.channelCommit ⟨0, 0⟩) 5 3 = true
    ∧ (witStop .running).commitFlowBad 0 (chanOf (witDefine 5) [0, 1, 2, 3] 0) = false
    ∧ (chanOf (witDefine 5) [0, 1, 2, 3] 0).tablesBad = false := by simp only [serves_witHead]; decide

-- LayerCommands
def witLayer (st : ChanState) (f : Surface) (m : Mem) (p : Option Protected) : State :=
  let c := chanOf (witDefine 5) [0, 1, 2, 3] 0
  { witSession (mbxWord 1 5 3) 1 with chans := [(0, { c with st := st, layers := { c.layers with prot := p } })], surf := { surfs := [(8, f)] }, mem := { State.reset.mem with hbm := m } }
theorem witness_LayerCommands :
    let f : Surface := ⟨0, 0, 4, 1, 4096, 16, 0x40000000⟩
    let s := witLayer .running f [(0x40000003, 7)] none
    let l : Protected := { x0 := 0, y0 := 0, width := 4, height := 1, kind := 0, cache := [1], copyA := [1], copyB := [1], crc := 5, size := 16, from_ := none, time := ⟨0, 0⟩ }
    let u : FlipSubmitArg := ⟨0, 15, 1, ⟨0, 0⟩, [255], [⟨1, 0, 0, 0, 0, 5⟩]⟩
    let r : RoiSetArg := ⟨0, 15, 0, -12, -8, 0, 32, 8⟩
    s.serves (witHead 1 (.roiSet r)) (.roiSet r) 5 3 = true ∧ roiOk (witDefine 5) r = true ∧ s.resyncing 0 = false
    ∧ s.serves (witHead 1 (.roiClear ⟨0, 15⟩)) (.roiClear ⟨0, 15⟩) 5 3 = true ∧ s.serves (witHead 1 (.extStreamDelete ⟨15, 0⟩)) (.extStreamDelete ⟨15, 0⟩) 5 3 = true
    ∧ s.serves (witHead 1 (.surfaceAlloc ⟨0xFF, 4, 0, 0, 1⟩)) (.surfaceAlloc ⟨0xFF, 4, 0, 0, 1⟩) 5 3 = true ∧ surfaceArgOk ⟨0xFF, 4, 0, 0, 1⟩ = true
    ∧ (placeIn s.surf.heap 0 4096 [0, 1, 2, 3]).isSome = true ∧ s.serves (witHead 1 (.surfaceFree 8)) (.surfaceFree 8) 5 3 = true ∧ s.surfaceUsed 8 = false
    ∧ s.serves (witHead 1 (.flipSubmit u)) (.flipSubmit u) 5 3 = true ∧ s.flipArgOk u = true
    ∧ s.serves (witHead 1 (.protectedLoad ⟨0, -8192, 8191, 8, 0, ⟨0, 0⟩, ⟨true, true, true⟩, ⟨true, true, true⟩⟩)) (.protectedLoad ⟨0, -8192, 8191, 8, 0, ⟨0, 0⟩, ⟨true, true, true⟩, ⟨true, true, true⟩⟩) 5 3 = true ∧ positionOk (-8192) 8191 = true
    ∧ protCopied ⟨0, -8192, 8191, 8, 0, ⟨0, 0⟩, ⟨true, false, true⟩, ⟨true, true, true⟩⟩ = true ∧ protCopied ⟨0, 0, 0, 8, 0, ⟨0, 0⟩, ⟨true, false, true⟩, ⟨true, false, true⟩⟩ = false
    ∧ s.rangePoisoned f.addr f.size = false ∧ s.protBytes + f.size ≤ 1048576
    ∧ (witLayer .stopped f [] (some l)).serves (witHead 1 (.protectedRemove ⟨0, 0, ⟨0, 0⟩⟩)) (.protectedRemove ⟨0, 0, ⟨0, 0⟩⟩) 5 3 = true
    ∧ s.serves (witHead 1 (.tonemapLoad ⟨0, 9⟩)) (.tonemapLoad ⟨0, 9⟩) 5 3 = true ∧ s.rangePoisoned 0x50000000 312136 = false := by simp only [serves_witHead]; decide
theorem witness_ExtStream :
    let a : FlowArg := { (default : FlowArg) with valid := true, kind := 1, essence := 1, target := 3 }
    let p : ExtStreamArg := { stream := 3, payload := 0, codec := 0, profile := 1, format := ⟨2, false, 0⟩, rateId := 8, codedDepth := 10, flowA := 9, flowB := 0xFFFF }
    let s : State := { witSession (mbxWord 1 5 3) 1 with net := { State.reset.net with flows := [(9, { arg := a, bucket := 0, at_ := 0 })] } }
    s.serves (witHead 1 (.extStreamDefine p)) (.extStreamDefine p) 5 3 = true ∧ s.extArgOk p = true ∧ thas s.ext 3 = false ∧ s.videoNamed 9 = false := by simp only [serves_witHead]; decide

-- AudioCommands
def witDir (st : DirState) : State :=
  let s := witSession (mbxWord 1 5 3) 1
  { s with aud := { s.aud with dirs := [(15, { (s.dir 15) with st := st })] } }
theorem witness_AudioCommands :
    witServe (.audioPortConfig { port := 7, dir := 1, mode := 0, slots := 16, fsWidth := 0, fsDelay := 1, fsPolarity := 0, edge := 0, target := 383 }) = true
    ∧ (witDir .stopped).serves (witHead 1 (.audioPortStart ⟨7, 1⟩)) (.audioPortStart ⟨7, 1⟩) 5 3 = true ∧ (witDir .stopped).dir 15 = { (witSession 0 0).dir 15 with st := .stopped }
    ∧ (witDir .starting).serves (witHead 1 (.audioPortStop ⟨7, 1⟩)) (.audioPortStop ⟨7, 1⟩) 5 3 = true ∧ ((witDir .running).dir 15).st = .running
    ∧ (let f : FlowArg := { (default : FlowArg) with valid := true, kind := 1, essence := 2, target := 63 }
       let s : State := { witSession (mbxWord 1 5 3) 1 with net := { State.reset.net with flows := [(9, { arg := f, bucket := 0, at_ := 0 })] } }
       s.serves (witHead 1 (.audioStreamConfig ⟨63, 0, 64, 1, 9, 0xFFFF, 128⟩)) (.audioStreamConfig ⟨63, 0, 64, 1, 9, 0xFFFF, 128⟩) 5 3 = true ∧ s.audioFlow 9 63 0 = true)
    ∧ witServe (.audioStreamDelete ⟨63, 0⟩) = true
    ∧ witServe (.audioRoute ⟨[⟨1, 7, 15, 1, 63, 63⟩]⟩) = true ∧ routeOk ⟨1, 7, 15, 1, 63, 63⟩ = true ∧ routeOk ⟨2, 63, 63, 2, 7, 15⟩ = true
    ∧ witServe (.audioAlignGroup ⟨15, [(0, 63)]⟩) = true ∧ (witSession 0 0).alignGroups = []
    ∧ witServe (.audioClock ⟨63, 5, 6⟩) = true := by simp only [witServe, serves_witHead]; decide

-- GroupChainCommands
theorem witness_GroupChainCommands :
    let at_ (r : Role) : State := { witGroup r with mbx := (witSession (mbxWord 1 5 3) 1).mbx }
    let on : State := { at_ .active with grp := { (at_ .active).grp with peers := [(2, { role := 2 })] } }
    let m : State := { witSession (mbxWord 1 5 3) 1 with rat := { State.reset.rat with manager := true } }
    witServe (.groupForm ⟨255, 3, 3, 1, [(12, 7)]⟩) = true ∧ hasRepeat ([12]) = false ∧ (witSession 0 0).ifExists 12 = true
    ∧ witServe (.groupJoin ⟨1, 2, 2, 0, []⟩) = true ∧ (witSession 0 0).portUp 0 = false ∧ (at_ .none).portUp 0 = true
    ∧ ({ at_ .standby with chans := (withChan (witChan .running)).chans } : State).serves (witHead 1 .groupLeave) .groupLeave 5 3 = true ∧ (at_ .standby).member = true
    ∧ on.serves (witHead 1 .groupLeave) .groupLeave 5 3 = true ∧ on.standbys = 2 :: [] ∧ on.serves (witHead 1 (.groupHandover 2)) (.groupHandover 2) 5 3 = true
    ∧ (on.peer 2).needs = [] ∧ (on.leg 0).helloOk = true ∧ m.serves (witHead 1 .chainEnumerate) .chainEnumerate 5 3 = true ∧ m.rat.forwarded = []
    ∧ m.serves (witHead 1 (.chainBudget 84480)) (.chainBudget 84480) 5 3 = true ∧ witServe (.chainBudget 84480) = true := by simp only [witServe, serves_witHead]; decide

-- JournalRule
theorem witness_JournalRule :
    let k (q : Nat) : CmdHdr := sealCmd { rawHead 1 (.powerBudget 3) with seq := q } (.powerBudget 3)
    let s : State := { witSession (mbxWord 1 4095 31) 1 with mbx := { (witSession (mbxWord 1 4095 31) 1).mbx with
      journal := [(1, [(3, .done (completionOf (rawHead 1 (.powerBudget 3)) 5 0 false [1])), (5, .inProgress)])] } }
    commandRefusal (k 3) 31 (.powerBudget 3) = none
    ∧ (∃ e, commandRefusal { rawHead 1 (.powerBudget 3) with session := 2 } 31 (.powerBudget 3) = some e)
    ∧ s.mayRead 1 = true ∧ s.threadFree = true
    ∧ journalHigh (tgetD s.mbx.journal 1 []) = 5 ∧ tsorted (tgetD s.mbx.journal 1 []) = true ∧ tget (tgetD s.mbx.journal 1 []) 4 = none
    ∧ (s.execute (rawHead 1 (.powerBudget 3)) ⟨.host 1 5 3, 1, 31, 9⟩ (.powerBudget 3)).status = eBadParam
    ∧ (opInfo (.shutdown ⟨1, 0⟩)).cls = .r ∧ (opInfo (.groupLeave)).cls = .s
    ∧ (({ s with rat := { s.rat with manager := true, table := [(5, 9)] } } : State).forwardRefusal { rawHead 1 (.powerBudget 3) with target := 5 }
        (.powerBudget 3)) = none :=
  ⟨commandRefusal_none _ _ _ (by decide), commandRefusal_session _ _ _ (by decide), by decide⟩

-- Fences
theorem witness_Fences :
    let s : State := { State.reset with surf := { fences := [(255, 7)] } }
    s.reaches Reg.LYR_FENCE_SIGNAL = true ∧ ({ s with dev := { s.dev with unlocked := [regDomain Reg.LYR_FENCE_SIGNAL] } } : State).reaches Reg.LYR_FENCE_SIGNAL = false ∧ tget s.surf.fences ((0x5FF : Word).toNat % 256) = some 7
      ∧ tget s.surf.fences ((0x100 : Word).toNat % 256) = none ∧ (0x1FF : Word).toNat % 256 = (0xFF : Word).toNat % 256
      ∧ ({ s with pending := [.lyrFenceSignal 3, .lyrFenceReset 3] } : State).pending = .lyrFenceSignal 3 :: .lyrFenceReset 3 :: []
      ∧ ({ s with pending := [.lyrFenceReset 3, .lyrFenceSignal 3] } : State).pending = .lyrFenceReset 3 :: .lyrFenceSignal 3 :: []
      ∧ 9 ∈ ({ (default : FlipGroup) with arg := { (default : FlipSubmitArg) with fences := [9] } } : FlipGroup).arg.fences := by decide

/-! ## Records and tables with right check values -/

theorem pointsOk_zero : ∀ n, pointsOk (List.replicate n 0) = true
  | 0 | 1 | 2 | 3 => rfl
  | n + 4 => by simpa [List.replicate_succ, pointsOk] using pointsOk_zero n
theorem nodesOk_zero : ∀ n, nodesOk (List.replicate n 0) = true
  | 0 | 1 | 2 | 3 | 4 | 5 | 6 | 7 => rfl
  | n + 8 => by simpa [List.replicate_succ, nodesOk] using nodesOk_zero n
theorem leNat_word (w : Word) : leNat (leBytes 4 w.toNat) = w.toNat := by
  have := w.isLt
  simp [leBytes, List.range_succ, leNat, Nat.shiftRight_eq_div_pow]
  omega
/-- Four bytes `w` at offset 4 after the length 312,136, and zeros. -/
def tableMem (w : List Byte) : Mem :=
  [(4096, 0x48), (4097, 0xC3), (4098, 0x04), (4100, w.getD 0 0), (4101, w.getD 1 0), (4102, w.getD 2 0), (4103, w.getD 3 0)]
def witTable : Mem := tableMem (leBytes 4 (crc32c (List.replicate 312072 0)).toNat)
theorem tableMem_crc (v : Nat) : Mem.read (tableMem (leBytes 4 v)) 4100 4 = leBytes 4 v := rfl
theorem tableMem_zero (w : List Byte) (a n : Nat) (h : 4104 ≤ a) : Mem.read (tableMem w) a n = List.replicate n 0 :=
  Mem.read_zero _ _ _ (by
    simp only [tableMem, List.mem_cons, List.not_mem_nil]
    rintro e (rfl|rfl|rfl|rfl|rfl|rfl|rfl|⟨⟨⟩⟩) <;> simp only <;> omega)
theorem witness_Tonemap : let d := Mem.read witTable 4096 312136
    tableFormOk d = true ∧ (crc32c (d.drop 64)).toNat = leNat ((d.drop 4).take 4) := by
  have hd (k : Nat) (hk : 8 ≤ k) : (Mem.read witTable 4096 312136).drop k = List.replicate (312136 - k) 0 := by
    rw [Mem.read_drop, witTable, tableMem_zero _ _ _ (by omega)]
  refine ⟨?_, ?_⟩
  · rw [tableFormOk, hd 8 (by omega), hd 64 (by omega), hd 24640 (by omega), Mem.read_take _ _ _ _ (by omega)]
    simp only [List.take_replicate, pointsOk_zero, nodesOk_zero, Bool.and_true, Bool.and_eq_true]
    exact ⟨rfl, by decide⟩
  · rw [hd 64 (by omega), Mem.read_drop, Mem.read_take _ _ _ _ (by omega), witTable, tableMem_crc, leNat_word]
/-- A record whose first byte is 1, with four bytes `w` as its trailer. -/
def calMem (w : List Byte) : Mem := [(4096, 1), (8188, w.getD 0 0), (8189, w.getD 1 0), (8190, w.getD 2 0), (8191, w.getD 3 0)]
def witRecord : List Byte := [1] ++ List.replicate 4091 0
def witCal : Mem := calMem (leBytes 4 (crc32c witRecord).toNat)
theorem calMem_crc (v : Nat) : Mem.read (calMem (leBytes 4 v)) 8188 4 = leBytes 4 v := rfl
theorem calMem_body (w : List Byte) : Mem.read (calMem w) 4096 4092 = witRecord := by
  have h : Mem.read (calMem w) 4096 4092 = (Mem.read (calMem w) 4096 4092).take 1 ++ (Mem.read (calMem w) 4096 4092).drop 1 :=
    (List.take_append_drop _ _).symm
  rw [h, Mem.read_take _ _ _ _ (by omega), Mem.read_drop, Mem.read_zero _ (4096 + 1) _ (by
    simp only [calMem, List.mem_cons, List.not_mem_nil]
    rintro e (rfl|rfl|rfl|rfl|rfl|⟨⟨⟩⟩) <;> simp only <;> omega)]
  rfl
theorem calReserved_bytes (n : Nat) (t : List Byte) (e : Byte × Nat) (h : e ∈ ([1] ++ List.replicate n 0 ++ t).zipIdx) :
    e.1 = 0 ∨ e.2 = 0 ∨ n + 1 ≤ e.2 := by
  obtain ⟨b, i⟩ := e
  have h := List.mem_zipIdx' h
  match i with
  | 0 => simp
  | i + 1 =>
    by_cases hi : i < n
    · left; simp only [h.2, List.cons_append, List.nil_append, List.getElem_cons_succ]
      rw [List.getElem_append_left (by simpa using hi), List.getElem_replicate]
    · right; right; simp; omega
theorem calOk_record (n : Nat) (h : 12 ≤ n) (hn : n = 4091) (t : List Byte) : calOk ([1] ++ List.replicate n 0 ++ t) 0 = true := by
  obtain ⟨m, rfl⟩ : ∃ m, n = m + 12 := ⟨n - 12, by omega⟩
  rw [calOk]
  simp only [Bool.and_eq_true, List.all_eq_true]
  refine ⟨⟨⟨?_, ?_⟩, ?_⟩, ?_⟩
  · simp [List.replicate_succ, leNat]
  · simp [List.replicate_succ, leNat]
  · simp [List.replicate_succ]
  · intro e he
    have := calReserved_bytes _ _ _ he
    simp only [Bool.or_eq_true, Bool.not_eq_true', beq_iff_eq]
    rcases this with h1 | h1 | h1
    · exact .inr h1
    · left; rw [h1]; rfl
    · left; simp only [calReserved]; simp; omega
theorem witness_Cal : let r := Mem.read witCal 4096 4096
    calOk r 0 = true ∧ crc32c (r.take 4092) = BitVec.ofNat 32 (leNat (r.drop 4092)) := by
  have h1 : (Mem.read witCal 4096 4096).take 4092 = witRecord := by
    rw [Mem.read_take _ _ _ _ (by omega), witCal, calMem_body]
  have h2 : (Mem.read witCal 4096 4096).drop 4092 = leBytes 4 (crc32c witRecord).toNat := by
    rw [Mem.read_drop, witCal, calMem_crc]
  have h3 : Mem.read witCal 4096 4096 = witRecord ++ leBytes 4 (crc32c witRecord).toNat := by
    have := List.take_append_drop 4092 (Mem.read witCal 4096 4096)
    rw [h1, h2] at this; exact this.symm
  refine ⟨?_, ?_⟩
  · rw [h3]; exact calOk_record 4091 (by omega) rfl _
  · rw [h1, h2, leNat_word, BitVec.ofNat_toNat, BitVec.setWidth_eq]

-- FunctionReset, LossOfLock, ReadsThatAct
theorem witness_FunctionReset : tsorted (witSession 0 1).mbx.sessions = true ∧ (witSession 0 1).mbx.sessions ≠ [] := by decide
theorem witness_LossOfLock : Domain.time ∈ stoppingDomains ∧ Domain.fab ∈ stoppingDomains ∧ (witGroup .standby).member = true
    ∧ ({ State.reset with dev := { State.reset.dev with phase := .booted } } : State).dev.phase = .booted := by decide
-- SessionCommands: a proof that the key answers
def witProve : State :=
  { witSession (mbxWord 1 5 3) 0 with dev := { State.reset.dev with nvm := { State.reset.dev.nvm with keys := [(1, (7, 31)), (2, (9, 3))] } } }
def proveMsg (label : Nat) : List Byte :=
  [BitVec.ofNat 8 label] ++ leBytes 16 (6 : BitVec 128).toNat ++ leBytes 8 witProve.dev.nvm.unitId.toNat ++ [2, 3, 2]
theorem witness_SessionProve : witProve.mbx.nonces.find? (·.nonce == (6 : BitVec 128)) = some ⟨6, 2, 3, 2⟩
    ∧ tget witProve.dev.nvm.keys 2 = some (9, 3) ∧ (3 : Nat) &&& 3 = 3
    ∧ witProve.serves (witHead 0 (.sessionProve ⟨6, Config.hmac 9 (proveMsg 0x48)⟩)) (.sessionProve ⟨6, Config.hmac 9 (proveMsg 0x48)⟩)
      5 3 = true :=
  ⟨by decide, by decide, rfl, (serves_witHead ..).trans rfl⟩

-- DeviceCommands: a record in a buffer; LayerCommands: an image and a table in their surfaces
def witRecordState : State :=
  { witSession (mbxWord 1 5 3) 1 with surf := { surfs := [(3, ⟨0xFF, 4, 0, 0, 4096, 4096, 4096⟩)] }, mem := { State.reset.mem with hbm := witCal } }
theorem witness_CalWrite :
    let r := Mem.read witRecordState.mem.hbm 4096 4096
    witRecordState.deviceBuffer 3 4096 = some ⟨0xFF, 4, 0, 0, 4096, 4096, 4096⟩
      ∧ witRecordState.serves (witHead 1 (.calWrite ⟨3, crc32c r⟩)) (.calWrite ⟨3, crc32c r⟩) 5 3 = true ∧ witRecordState.rangePoisoned 4096 4096 = false
      ∧ calOk r witRecordState.dev.nvm.unitId = true ∧ crc32c (r.take 4092) = BitVec.ofNat 32 (leNat (r.drop 4092)) :=
  ⟨rfl, (serves_witHead ..).trans rfl, rfl, witness_Cal.1, witness_Cal.2⟩
def witTableState : State :=
  { witLayer .running ⟨0, 4, 0, 0, 315392, 312136, 4096⟩ [] none with mem := { State.reset.mem with hbm := witTable } }
theorem witness_TonemapLoad :
    let d := Mem.read witTableState.mem.hbm 4096 312136
    tget witTableState.surf.surfs 8 = some ⟨0, 4, 0, 0, 315392, 312136, 4096⟩ ∧ (tget witTableState.chans 0).isSome = true
      ∧ witTableState.serves (witHead 1 (.tonemapLoad ⟨0, 8⟩)) (.tonemapLoad ⟨0, 8⟩) 5 3 = true ∧ witTableState.resyncing 0 = false
      ∧ witTableState.rangePoisoned 4096 312136 = false ∧ tableFormOk d = true
      ∧ (crc32c (d.drop 64)).toNat = leNat ((d.drop 4).take 4) :=
  ⟨rfl, rfl, (serves_witHead ..).trans rfl, rfl, rfl, witness_Tonemap.1, witness_Tonemap.2⟩
def witImage : State := witLayer .running ⟨0, 0, 4, 1, 4096, 16, 0x40000000⟩ [(0x40000003, 7)] none
theorem witness_ProtectedLoad :
    let f : Surface := ⟨0, 0, 4, 1, 4096, 16, 0x40000000⟩
    let p : ProtectedLoadArg := ⟨0, -8192, 8191, 8, crc32c (Mem.read witImage.mem.hbm f.addr f.size), ⟨0, 0⟩, ⟨true, false, true⟩, ⟨true, true, true⟩⟩
    tget witImage.surf.surfs 8 = some f ∧ witImage.rangePoisoned f.addr f.size = false ∧ witImage.protBytes + f.size ≤ 1048576
      ∧ witImage.serves (witHead 1 (.protectedLoad p)) (.protectedLoad p) 5 3 = true
      ∧ (tgetD witImage.mbx.sessions 1 ⟨0, 0⟩).roles.testBit 3 = true ∧ witImage.member = false :=
  ⟨rfl, rfl, by decide, (serves_witHead ..).trans rfl, rfl, rfl⟩

/-- The completion payload of Table 16-11's command: D_pipe and D_pipe_min 767,284 ns, engines 0x000F, 32 slots, k 4, 2,343 MiB. -/
theorem test_channel_define_8k120 :
    let q := { (witDefine 5).rate with dCpb := 1500, bitRate := 486000000, cpbSize := 8100000 }
    let p := { witDefine 5 with main := { main8k with flowA := 5, flowB := 0xFFFF }, rate := q }
    let a := witDefState.doChannelDefine p
    a.status = 0 ∧ a.data = [0x34, 0xB5, 0x0B, 0, 0x34, 0xB5, 0x0B, 0, 0x0F, 0, 32, 4, 0x27, 0x09, 0, 0] := by decide

end Sys2Proof.Tests
end

section
/-!
PROOFS. What a host access does (R5, R6, R20 to R22, R295, R297): a write or read that reaches the function, one that has a row of its own,
one that the function refuses.
-/
namespace Sys2Proof.Machine
open Sys2Proof

/-! ## Accesses in D3hot and in D0 (R295) -/

section power
variable {s : State} {f : State → State}

@[simp] theorem State.barWrite_d3hot (h : s.mbx.pci.d3hot = true) : s.barWrite f = s.unsupported := if_pos h

theorem State.barWrite_d0 (h : s.mbx.pci.d3hot = false) : s.barWrite f = f s := by simp [State.barWrite, h]

theorem State.barRead_d3hot (h : s.mbx.pci.d3hot = true) : s.barRead f = s.unsupported.emit .unsupported := if_pos h

theorem State.barRead_d0 (h : s.mbx.pci.d3hot = false) : s.barRead f = f s := by simp [State.barRead, h]

variable {off : Nat}

theorem State.reaches_iff : s.reaches off = true ↔ s.mbx.pci.d3hot = false ∧ s.dev.down (regDomain off) = false := by
  simp [State.reaches]

theorem State.hostWrite_d3hot (h : s.mbx.pci.d3hot = true) : s.hostWrite off f = s.unsupported := State.barWrite_d3hot h

theorem State.hostWrite_down (h : s.mbx.pci.d3hot = false) (hd : s.dev.down (regDomain off) = true) :
    s.hostWrite off f = s.badAccess := (State.barWrite_d0 h).trans (if_pos hd)

theorem State.hostWrite_reaches (h : s.reaches off = true) : s.hostWrite off f = f s := by
  obtain ⟨h0, hd⟩ := State.reaches_iff.1 h
  exact (State.barWrite_d0 h0).trans (by simp [hd])

theorem State.hostRead_d3hot (h : s.mbx.pci.d3hot = true) : s.hostRead off f = s.unsupported.emit .unsupported := State.barRead_d3hot h

theorem State.hostRead_down (h : s.mbx.pci.d3hot = false) (hd : s.dev.down (regDomain off) = true) :
    s.hostRead off f = s.badAccess.emit (.readData 0xFFFFFFFF) := (State.barRead_d0 h).trans (if_pos hd)

theorem State.hostRead_reaches (h : s.reaches off = true) : s.hostRead off f = f s := by
  obtain ⟨h0, hd⟩ := State.reaches_iff.1 h
  exact (State.barRead_d0 h0).trans (by simp [hd])

end power

/-! ## Frames of a row -/

/-- A frame that leaves the register bank alone keeps every register. -/
theorem Touches.rd_eq {l : List Fld} {s t : State} (a : Touches l s t) (h : .regs ∉ l) (off : Nat) : t.rd off = s.rd off :=
  congrArg (bget · off) (a.same .regs h)

theorem does_of_touches {i : Instr} {s t : State} {l : List Fld} {P : State → Prop} (h : exec i s = .next t) (ht : Touches l s t)
    (hl : .regs ∉ l) (hp : P t) : Does i s l noReg P :=
  ⟨t, h, ht, fun off _ => ht.rd_eq hl off, hp⟩

/-- In D0 the command is a bad access: DEV_BAD_ACCESS counts it and DEV_STATUS shows it (R5, R430). -/
def CountsBad (i : Instr) (s : State) : Prop := s.mbx.pci.d3hot = false →
  Does i s [.regs] (regIn [Reg.DEV_BAD_ACCESS, Reg.DEV_STATUS]) fun t =>
    t.rd Reg.DEV_BAD_ACCESS = s.rd Reg.DEV_BAD_ACCESS + 1 ∧ t.rd Reg.DEV_STATUS = (s.rd Reg.DEV_STATUS ||| 0x200)

theorem State.badAccess_rd_ne {s : State} {off : Nat} (h : off ∉ [Reg.DEV_BAD_ACCESS, Reg.DEV_STATUS]) :
    s.badAccess.rd off = s.rd off := by
  simp only [List.mem_cons, List.not_mem_nil, or_false, not_or] at h
  obtain ⟨hc, hs⟩ := h
  rw [State.rd_eq, State.badAccess_regs, bget_bset_ne (Ne.symm hs), bget_bset_ne (Ne.symm hc), State.rd_eq]

theorem State.badAccess_rd_count (s : State) : s.badAccess.rd Reg.DEV_BAD_ACCESS = s.rd Reg.DEV_BAD_ACCESS + 1 := by
  rw [State.rd_eq, State.badAccess_regs, bget_bset_ne (by decide), bget_bset_self, State.rd_eq]

theorem State.badAccess_rd_status (s : State) : s.badAccess.rd Reg.DEV_STATUS = (s.rd Reg.DEV_STATUS ||| 0x200) := by
  rw [State.rd_eq, State.badAccess_regs, bget_bset_self, bget_bset_ne (by decide), State.rd_eq]

theorem countsBad_of_exec {i : Instr} {s : State} (h : s.mbx.pci.d3hot = false → exec i s = .next s.badAccess) : CountsBad i s :=
  fun h0 => ⟨s.badAccess, h h0, s.badAccess_touches, fun _ hr => State.badAccess_rd_ne hr, s.badAccess_rd_count, s.badAccess_rd_status⟩

/-! ## Writes by block (Table 1-9) -/

/-- The blocks in which no write acts by itself and every register is in one domain: TIME, NET, CHN, GRP, LANE, CHAIN, MEM, PWR. -/
def PlainBlock (off : Nat) : Prop := off / 0x100000 = 2 ∨ off / 0x100000 = 3 ∨ off / 0x100000 = 4 ∨ off / 0x100000 = 7
  ∨ off / 0x100000 = 8 ∨ off / 0x100000 = 9 ∨ off / 0x100000 = 10 ∨ off / 0x100000 = 13

theorem PlainBlock.lt {off : Nat} (h : PlainBlock off) : off < 0x4000000 := by unfold PlainBlock at h; omega

section blocks
variable {off : Nat} (s : State) (w : Word)

theorem State.writeReg_plain (h : PlainBlock off) : s.writeReg off w = s.hostWrite off (·.plainWrite off w) := by
  have hw : s.writeReg off w = s.barWrite fun s => s.hostWrite off (·.plainWrite off w) := by
    unfold PlainBlock at h
    rcases h with h | h | h | h | h | h | h | h <;> simp only [State.writeReg, h]
  rw [hw]
  cases h0 : s.mbx.pci.d3hot with
  | false => exact State.barWrite_d0 h0
  | true => rw [State.barWrite_d3hot h0, State.hostWrite_d3hot h0]

theorem State.writeReg_mbx (h : off / 0x100000 = 1) : s.writeReg off w = s.barWrite (·.writeMbx off w) := by
  simp only [State.writeReg, h]

theorem State.writeReg_lyr (h : off / 0x100000 = 5) : s.writeReg off w = s.barWrite (·.writeLyr off w) := by
  simp only [State.writeReg, h]

theorem State.writeReg_aud (h : off / 0x100000 = 6) : s.writeReg off w = s.barWrite (·.writeAud off w) := by
  simp only [State.writeReg, h]

theorem State.writeReg_chk (h : off / 0x100000 = 11) : s.writeReg off w = s.barWrite (·.writeChk off w) := by
  simp only [State.writeReg, h]

theorem State.writeReg_pmu (h : off / 0x100000 = 12) : s.writeReg off w = s.barWrite (·.writePmu off w) := by
  simp only [State.writeReg, h]

theorem State.writeReg_bist (h : off / 0x100000 = 15) : s.writeReg off w = s.barWrite (·.writeBist off w) := by
  simp only [State.writeReg, h]

/-- HAL and FLOW are read-only blocks. -/
theorem State.writeReg_readOnly (h : off / 0x100000 = 14 ∨ off / 0x100000 = 16 ∨ off / 0x100000 = 17) :
    s.writeReg off w = s.barWrite (·.badAccess) := by
  rcases h with h | h | h <;> simp only [State.writeReg, h]

@[simp] theorem State.writeReg_d3hot {s : State} (h : s.mbx.pci.d3hot = true) : s.writeReg off w = s.unsupported :=
  State.barWrite_d3hot h

end blocks

/-! ## REGISTER_WRITE of one word, of two, and what refuses it -/

theorem exec_write {off : Nat} (ha : off % 4 = 0) (hl : off < 0x4000000) (s : State) (w : Word) :
    exec (.registerWrite (.bar0 off) w none) s = .next (s.writeReg off w) :=
  congrArg Host.Outcome.next (if_pos ⟨ha, hl⟩)

theorem exec_write_outside {off : Nat} (h : off % 4 ≠ 0 ∨ 0x4000000 ≤ off) (s : State) (w : Word) :
    exec (.registerWrite (.bar0 off) w none) s = .next (s.barWrite (·.badAccess)) :=
  congrArg Host.Outcome.next (if_neg (by omega))

theorem exec_write64 {off : Nat} (ha : off % 8 = 0) (hl : off < 0x4000000) (s : State) (lo hi : Word) :
    exec (.registerWrite (.bar0 off) lo (some hi)) s = .next (s.barWrite fun s => (s.writeReg off lo).writeReg (off + 4) hi) :=
  congrArg Host.Outcome.next (if_pos ⟨ha, hl⟩)

theorem exec_write64_outside {off : Nat} (h : off % 8 ≠ 0 ∨ 0x4000000 ≤ off) (s : State) (lo hi : Word) :
    exec (.registerWrite (.bar0 off) lo (some hi)) s = .next (s.barWrite (·.badAccess)) :=
  congrArg Host.Outcome.next (if_neg (by omega))

/-- R6: the RW bits of a register take the value, its W1C bits written 1 clear, the rest stay. -/
theorem write_reaches_row {s : State} {off : Nat} {r : RegRow} (w : Word) (ha : off % 4 = 0) (hp : PlainBlock off)
    (h : s.reaches off = true) (hr : regRow? off = some r) :
    Does (.registerWrite (.bar0 off) w none) s [.regs] (regIn [off]) fun t =>
      t.rd off = ((s.rd off &&& ~~~r.rw &&& ~~~(r.w1c &&& w)) ||| (w &&& r.rw)) := by
  have hw : s.plainWrite off w = s.wr off ((s.rd off &&& ~~~r.rw &&& ~~~(r.w1c &&& w)) ||| (w &&& r.rw)) := by
    simp only [State.plainWrite, hr]
  refine ⟨s.plainWrite off w, ?_, s.plainWrite_touches off w, fun o ho => ?_, ?_⟩
  · rw [exec_write ha hp.lt, State.writeReg_plain s w hp, State.hostWrite_reaches h]
  · have hne : off ≠ o := fun e => ho (List.mem_singleton.2 e.symm)
    rw [hw, State.rd_wr_ne hne]
  · exact hw ▸ State.rd_wr_self s off _

theorem write_reaches_reserved {s : State} {off : Nat} (w : Word) (ha : off % 4 = 0) (hp : PlainBlock off)
    (h : s.reaches off = true) (hr : regRow? off = none) : Gives (.registerWrite (.bar0 off) w none) s s := by
  have hw : s.plainWrite off w = s := by simp only [State.plainWrite, hr]
  rw [Gives, exec_write ha hp.lt, State.writeReg_plain s w hp, State.hostWrite_reaches h, hw]

theorem write_down_countsBad {s : State} {off : Nat} (w : Word) (ha : off % 4 = 0) (hp : PlainBlock off)
    (hd : s.dev.down (regDomain off) = true) : CountsBad (.registerWrite (.bar0 off) w none) s :=
  countsBad_of_exec fun h0 => by rw [exec_write ha hp.lt, State.writeReg_plain s w hp, State.hostWrite_down h0 hd]

theorem write_refused_countsBad (s : State) {off : Nat} (w : Word)
    (h : off % 4 ≠ 0 ∨ 0x4000000 ≤ off ∨ off / 0x100000 = 14 ∨ off / 0x100000 = 16 ∨ off / 0x100000 = 17) :
    CountsBad (.registerWrite (.bar0 off) w none) s :=
  countsBad_of_exec fun h0 => by
    by_cases ho : off % 4 ≠ 0 ∨ 0x4000000 ≤ off
    · rw [exec_write_outside ho, State.barWrite_d0 h0]
    · rw [exec_write (by omega) (by omega), State.writeReg_readOnly s w (by omega), State.barWrite_d0 h0]

theorem write64_eq_second {s t : State} {off : Nat} {lo : Word} (hi : Word) (ha : off % 8 = 0) (hl : off < 0x4000000)
    (h0 : s.mbx.pci.d3hot = false) (h : Gives (.registerWrite (.bar0 off) lo none) s t) :
    exec (.registerWrite (.bar0 off) lo (some hi)) s = exec (.registerWrite (.bar0 (off + 4)) hi none) t := by
  rw [Gives, exec_write (by omega) hl] at h
  cases h
  rw [exec_write64 ha hl, State.barWrite_d0 h0, exec_write (by omega) (by omega)]

theorem write64_outside_countsBad (s : State) {off : Nat} (lo hi : Word) (h : off % 8 ≠ 0 ∨ 0x4000000 ≤ off) :
    CountsBad (.registerWrite (.bar0 off) lo (some hi)) s :=
  countsBad_of_exec fun h0 => by rw [exec_write64_outside h, State.barWrite_d0 h0]

theorem write_d3hot {s : State} (off : Nat) (lo : Word) (hi : Option Word) (h : s.mbx.pci.d3hot = true) :
    Gives (.registerWrite (.bar0 off) lo hi) s s.unsupported := by
  have hw : s.bar0Write off lo hi = s.unsupported := by cases hi <;> simp [State.bar0Write, h]
  exact congrArg Host.Outcome.next hw

/-! ## Writes that have a row of their own -/

/-- A word written to a register whose block hands it to the row of `i` does what `i` does; in D3hot both are Unsupported Requests. -/
theorem exec_write_eq_row {i : Instr} {s : State} {off : Nat} {w : Word} {f : State → State} (ha : off % 4 = 0) (hl : off < 0x4000000)
    (hw : s.writeReg off w = s.barWrite f) (hi : exec i s = .next (f s))
    (hd : s.mbx.pci.d3hot = true → exec i s = .next s.unsupported) :
    exec (.registerWrite (.bar0 off) w none) s = exec i s := by
  rw [exec_write ha hl, hw]
  cases h : s.mbx.pci.d3hot with
  | false => rw [State.barWrite_d0 h, hi]
  | true => rw [State.barWrite_d3hot h, hd h]

section rows
variable (s : State) (w : Word)

theorem exec_write_mbxH2d {p : Nat} (hp : p < 9) :
    exec (.registerWrite (.bar0 (0x100000 + 0x40 * p)) w none) s = exec (.mbxH2dWrite p w) s := by
  have hr : s.writeMbx (0x100000 + 0x40 * p) w = outState s (execMbxH2dWrite p w s) := by
    have hk : (0x100000 + 0x40 * p - 0x100000) / 0x40 = p := by omega
    simp only [State.writeMbx, hk]
    exact if_pos (by omega)
  refine exec_write_eq_row (by omega) (by omega) (State.writeReg_mbx s w (by omega)) ?_ fun h => ?_
  · rw [hr]; rfl
  · exact congrArg Host.Outcome.next ((if_neg (by omega)).trans (State.barWrite_d3hot h))

theorem exec_write_fenceSignal : exec (.registerWrite (.bar0 Reg.LYR_FENCE_SIGNAL) w none) s = exec (.lyrFenceSignal w) s :=
  exec_write_eq_row (by decide) (by decide) (State.writeReg_lyr s w (by decide)) rfl
    fun h => congrArg Host.Outcome.next (State.hostWrite_d3hot h)

theorem exec_write_fenceReset : exec (.registerWrite (.bar0 Reg.LYR_FENCE_RESET) w none) s = exec (.lyrFenceReset w) s :=
  exec_write_eq_row (by decide) (by decide) (State.writeReg_lyr s w (by decide)) rfl
    fun h => congrArg Host.Outcome.next (State.hostWrite_d3hot h)

theorem exec_write_curPos {c : Nat} (hc : c < 64) :
    exec (.registerWrite (.bar0 (0x501000 + 0x40 * c)) w none) s = exec (.lyrCurPos c w) s := by
  have hr : s.writeLyr (0x501000 + 0x40 * c) w = outState s (execLyrCurPos c w s) := by
    have hk : (0x501000 + 0x40 * c - 0x501000) / 0x40 = c := by omega
    simp only [State.writeLyr, Reg.LYR_FENCE_SIGNAL, Reg.LYR_FENCE_RESET, hk]
    rw [if_neg (by omega), if_neg (by omega), if_pos (by omega)]
  refine exec_write_eq_row (by omega) (by omega) (State.writeReg_lyr s w (by omega)) ?_ fun h => ?_
  · rw [hr]; rfl
  · exact congrArg Host.Outcome.next (State.hostWrite_d3hot h)

theorem exec_write_curQueue {c : Nat} (hc : c < 64) :
    exec (.registerWrite (.bar0 (0x50100C + 0x40 * c)) w none) s = exec (.lyrCurQueue c w) s := by
  have hr : s.writeLyr (0x50100C + 0x40 * c) w = outState s (execLyrCurQueue c w s) := by
    have hk : (0x50100C + 0x40 * c - 0x501000) / 0x40 = c := by omega
    simp only [State.writeLyr, Reg.LYR_FENCE_SIGNAL, Reg.LYR_FENCE_RESET, hk]
    rw [if_neg (by omega), if_neg (by omega), if_neg (by omega), if_pos (by omega)]
  refine exec_write_eq_row (by omega) (by omega) (State.writeReg_lyr s w (by omega)) ?_ fun h => ?_
  · rw [hr]; rfl
  · exact congrArg Host.Outcome.next (State.hostWrite_d3hot h)

theorem exec_write_slotCommit {p d : Nat} (hp : p < 8) (hd : d < 2) (hw : wbit w 0 = true) :
    exec (.registerWrite (.bar0 (0x60000C + 0x80 * (2 * p + d))) w none) s = exec (.audSlotCommit p d) s := by
  have hr : s.writeAud (0x60000C + 0x80 * (2 * p + d)) w = outState s (execAudSlotCommit p d s) := by
    have hport : (0x60000C + 0x80 * (2 * p + d) - 0x600000) / 0x80 / 2 = p := by omega
    have hdir : (0x60000C + 0x80 * (2 * p + d) - 0x600000) / 0x80 % 2 = d := by omega
    simp only [State.writeAud, hport, hdir]
    rw [if_pos (by omega), if_pos hw]
  refine exec_write_eq_row (by omega) (by omega) (State.writeReg_aud s w (by omega)) ?_ fun h => ?_
  · rw [hr]; rfl
  · exact congrArg Host.Outcome.next ((if_neg (by omega)).trans (State.hostWrite_d3hot h))

/-! ### Check units -/

theorem State.chkWrite_d3hot {s : State} {u : Nat} {f : State → State} (hu : chkHost u = true) (h : s.mbx.pci.d3hot = true) :
    s.chkWrite u f = s.unsupported := by simp [State.chkWrite, hu, State.hostWrite_d3hot h]

theorem chkHost_lt {u : Nat} (hu : chkHost u = true) : u < 8 := by
  simp only [chkHost, Bool.or_eq_true, beq_iff_eq] at hu; omega

/-- A write of a word at offset `r` of a host's check unit, which the block hands to the row of `i`. -/
theorem exec_write_chk {i : Instr} {u : Nat} (r : Nat) {g : State → State} (hu : chkHost u = true) (hr : r % 4 = 0) (hr' : r < 0x100)
    (hw : s.writeChk (0xB00000 + r + 0x100 * u) w = s.chkWrite u g) (hi : exec i s = .next (s.chkWrite u g)) :
    exec (.registerWrite (.bar0 (0xB00000 + r + 0x100 * u)) w none) s = exec i s := by
  have := chkHost_lt hu
  exact exec_write_eq_row (by omega) (by omega) (State.writeReg_chk s w (by omega)) (by rw [hi, hw])
    fun h => by rw [hi, State.chkWrite_d3hot hu h]

/-- What a write of the register at offset `r` of check unit `u` does. -/
theorem State.writeChk_register {u r : Nat} (hu : u < 8) (hr : r < 0x100) : s.writeChk (0xB00000 + r + 0x100 * u) w =
    if r = 0x04 then outState s (execChkPreset u w s)
    else if r = 0x20 then s.chkControl u w
    else if r = 0x40 ∧ !(chkScan u) then outState s (execChkFeed8 u w s)
    else if r = 0x44 ∧ !(chkScan u) then outState s (execChkFeed16 u w s)
    else if (r = 0x48 ∨ r = 0x4C) ∧ !(chkScan u) then outState s (execChkFeed32 u w none s)
    else s.chkWrite u fun s => s.plainWrite (0xB00000 + r + 0x100 * u) w := by
  have hk : (0xB00000 + r + 0x100 * u - 0xB00000) / 0x100 = u := by omega
  have hm : (0xB00000 + r + 0x100 * u) % 0x100 = r := by omega
  simp only [State.writeChk, hk, hm]
  exact if_neg (by omega)

theorem exec_write_chkPreset {u : Nat} (hu : chkHost u = true) :
    exec (.registerWrite (.bar0 (Reg.CHK_PRESET u)) w none) s = exec (.chkPreset u w) s := by
  refine exec_write_chk s w 0x04 hu (by decide) (by decide) ?_ rfl
  rw [State.writeChk_register s w (chkHost_lt hu) (by decide)]
  rfl

/-- A write of CHK_CONTROL with one bit set is that bit's row. -/
theorem exec_write_chkControl {i : Instr} {u : Nat} {g : State → State} (hu : chkHost u = true)
    (hw : s.chkControl u w = s.chkWrite u g) (hi : exec i s = .next (s.chkWrite u g)) :
    exec (.registerWrite (.bar0 (Reg.CHK_CONTROL u)) w none) s = exec i s := by
  refine exec_write_chk s w 0x20 hu (by decide) (by decide) ?_ hi
  rw [State.writeChk_register s w (chkHost_lt hu) (by decide), ← hw]
  rfl

theorem exec_write_chkInit {u : Nat} (hu : chkHost u = true) :
    exec (.registerWrite (.bar0 (Reg.CHK_CONTROL u)) 1 none) s = exec (.chkInit u) s :=
  exec_write_chkControl s 1 hu rfl rfl

theorem exec_write_chkFinish {u : Nat} (hu : chkHost u = true) :
    exec (.registerWrite (.bar0 (Reg.CHK_CONTROL u)) 2 none) s = exec (.chkFinish u) s :=
  exec_write_chkControl s 2 hu rfl rfl

theorem exec_write_chkStart {u : Nat} (hu : chkHost u = true) :
    exec (.registerWrite (.bar0 (Reg.CHK_CONTROL u)) 4 none) s = exec (.chkStart u) s :=
  exec_write_chkControl s 4 hu rfl rfl

theorem exec_write_chkAbort {u : Nat} (hu : chkHost u = true) :
    exec (.registerWrite (.bar0 (Reg.CHK_CONTROL u)) 8 none) s = exec (.chkAbort u) s :=
  exec_write_chkControl s 8 hu rfl rfl

section feeds
variable {u : Nat} (hu : chkHost u = true) (hs : chkScan u = false)
include hu hs

theorem exec_write_chkFeed8 : exec (.registerWrite (.bar0 (Reg.CHK_FEED8 u)) w none) s = exec (.chkFeed8 u w) s := by
  refine exec_write_chk s w 0x40 hu (by decide) (by decide) ?_ rfl
  rw [State.writeChk_register s w (chkHost_lt hu) (by decide), if_neg (by decide), if_neg (by decide),
    if_pos (by simp [hs])]
  rfl

theorem exec_write_chkFeed16 : exec (.registerWrite (.bar0 (Reg.CHK_FEED16 u)) w none) s = exec (.chkFeed16 u w) s := by
  refine exec_write_chk s w 0x44 hu (by decide) (by decide) ?_ rfl
  rw [State.writeChk_register s w (chkHost_lt hu) (by decide), if_neg (by decide), if_neg (by decide), if_neg (by simp),
    if_pos (by simp [hs])]
  rfl

theorem exec_write_chkFeed32 : exec (.registerWrite (.bar0 (Reg.CHK_FEED32 u)) w none) s = exec (.chkFeed32 u w none) s := by
  refine exec_write_chk s w 0x48 hu (by decide) (by decide) ?_ rfl
  rw [State.writeChk_register s w (chkHost_lt hu) (by decide), if_neg (by decide), if_neg (by decide), if_neg (by simp), if_neg (by simp),
    if_pos (by simp [hs])]
  rfl

end feeds

/-! ### Performance counters, histograms and dumps -/

theorem exec_write_counterEnable {i : Nat} (hi : i < 256) :
    exec (.registerWrite (.bar0 (Reg.PMU_CNT_CFG i)) w none) s = exec (.pmuCounterEnable i w) s := by
  unfold Reg.PMU_CNT_CFG
  have hr : s.writePmu (0xC00000 + 0x10 * i) w = outState s (execPmuCounterEnable i w s) := by
    have hk : (0xC00000 + 0x10 * i - 0xC00000) / 16 = i := by omega
    simp only [State.writePmu, hk]
    rw [if_pos (by omega), if_pos (by omega)]
  refine exec_write_eq_row (by omega) (by omega) (State.writeReg_pmu s w (by omega)) ?_ fun h => ?_
  · rw [hr]; rfl
  · exact congrArg Host.Outcome.next (State.hostWrite_d3hot h)

theorem exec_write_histConfig {h : Nat} (hh : h < 16) :
    exec (.registerWrite (.bar0 (Reg.PMU_HIST_CFG h)) w none) s = exec (.pmuHistClear h w) s := by
  unfold Reg.PMU_HIST_CFG
  have hr : s.writePmu (0xC04000 + 0x200 * h) w = outState s (execPmuHistClear h w s) := by
    have hk : (0xC04000 + 0x200 * h - 0xC04000) / 0x200 = h := by omega
    simp only [State.writePmu, hk]
    rw [if_neg (by omega), if_pos (by omega)]
  refine exec_write_eq_row (by omega) (by omega) (State.writeReg_pmu s w (by omega)) ?_ fun h0 => ?_
  · rw [hr]; rfl
  · exact congrArg Host.Outcome.next ((if_neg (by omega)).trans (State.hostWrite_d3hot h0))

theorem exec_write_dumpSize :
    exec (.registerWrite (.bar0 Reg.PMU_DUMP_SIZE) w none) s = exec (.pmuDumpConfigWrite Reg.PMU_DUMP_SIZE w) s :=
  exec_write_eq_row (by decide) (by decide) (State.writeReg_pmu s w (by decide)) rfl
    fun h => congrArg Host.Outcome.next (State.hostWrite_d3hot h)

/-! ### Provisioning -/

section bist
variable {w : Word}

theorem exec_write_otpBurn (hw : wfield w 1 0 = 1) :
    exec (.registerWrite (.bar0 Reg.BIST_PROV_COMMIT) w none) s = exec .bistOtpBurn s := by
  have hr : s.writeBist Reg.BIST_PROV_COMMIT w = outState s (execBistOtpBurn s) := by simp only [State.writeBist, if_pos, hw]
  refine exec_write_eq_row (by decide) (by decide) (State.writeReg_bist s w (by decide)) ?_ fun h => ?_
  · rw [hr]; rfl
  · exact congrArg Host.Outcome.next (State.barWrite_d3hot h)

theorem exec_write_keySlotWrite (hw : wfield w 1 0 = 2) :
    exec (.registerWrite (.bar0 Reg.BIST_PROV_COMMIT) w none) s = exec .bistKeySlotWrite s := by
  have hr : s.writeBist Reg.BIST_PROV_COMMIT w = outState s (execBistKeySlotWrite s) := by
    simp only [State.writeBist, if_pos, hw]
    rfl
  refine exec_write_eq_row (by decide) (by decide) (State.writeReg_bist s w (by decide)) ?_ fun h => ?_
  · rw [hr]; rfl
  · exact congrArg Host.Outcome.next (State.barWrite_d3hot h)

end bist

end rows

/-! ## The write of configuration space (R295, R296) -/

/-- A release moves the pending bits and the outputs only. -/
theorem State.msixRelease_mbx (s : State) (v : Nat) :
    ({ (s.msixRelease v).mbx with msixPend := 0 } : MbxState) = { s.mbx with msixPend := 0 } := by
  unfold State.msixRelease
  split <;> rfl

/-- While the function may send no message nothing is released. -/
theorem State.msixRelease_closed {s : State} (h : s.mbx.pci.mayWrite = false) (v : Nat) : s.msixRelease v = s := by
  simp [State.msixRelease, State.msixOpen, h]

/-- The bits of configuration space after a write, before the messages that it lets leave. -/
def State.pciSet (s : State) (c : PciConfig) : State :=
  { s with mbx := { s.mbx with pci :=
    { bme := c.bme, d3hot := c.d3hot, urMask := c.urMask, urFatal := c.urFatal, urReport := c.urReport
      urStatus := s.mbx.pci.urStatus && !c.urClear } } }

theorem State.pciWrite_eq (s : State) (c : PciConfig) :
    s.pciWrite c = (List.range 64).foldl (fun (t : State) v => t.msixRelease v) (s.pciSet c) := rfl

theorem State.pciWrite_mbx (s : State) (c : PciConfig) :
    ({ (s.pciWrite c).mbx with msixPend := 0 } : MbxState) = { (s.pciSet c).mbx with msixPend := 0 } :=
  foldl_keep (fun t => ({ t.mbx with msixPend := 0 } : MbxState)) State.msixRelease_mbx (List.range 64) (s.pciSet c)

theorem State.pciWrite_closed (s : State) {c : PciConfig} (h : c.bme = false ∨ c.d3hot = true) : s.pciWrite c = s.pciSet c := by
  have hc : (s.pciSet c).mbx.pci.mayWrite = false := by rcases h with h | h <;> simp [State.pciSet, PciState.mayWrite, h]
  exact List.foldl_fixed' (State.msixRelease_closed hc) _

theorem write_config (s : State) (c : PciConfig) (lo : Word) (hi : Option Word) :
    Does (.registerWrite (.config c) lo hi) s [.mbx, .out] noReg fun t =>
      t.mbx.pci = { bme := c.bme, d3hot := c.d3hot, urMask := c.urMask, urFatal := c.urFatal, urReport := c.urReport,
                    urStatus := s.mbx.pci.urStatus && !c.urClear }
        ∧ t.mbx.win = s.mbx.win ∧ t.mbx.h2d = s.mbx.h2d ∧ t.mbx.sessions = s.mbx.sessions
        ∧ (c.bme = false ∨ c.d3hot = true → t.out = s.out ∧ t.mbx.msixPend = s.mbx.msixPend) := by
  have hm := s.pciWrite_mbx c
  refine does_of_touches (t := s.pciWrite c) rfl (s.pciWrite_touches c) (by decide) ⟨?_, ?_, ?_, ?_, fun h => ?_⟩
  · exact (congrArg MbxState.pci hm :)
  · exact (congrArg MbxState.win hm :)
  · exact (congrArg MbxState.h2d hm :)
  · exact (congrArg MbxState.sessions hm :)
  · rw [s.pciWrite_closed h]
    exact ⟨rfl, rfl⟩

/-! ## Registers whose read acts -/

theorem regIndex_eq_some {f : Nat → Nat} {n i off : Nat} (hi : i < n) (h : f i = off) (hf : ∀ j, j < i → f j ≠ off) :
    regIndex f n off = some i :=
  List.find?_range_eq_some.2 ⟨by simpa using h, List.mem_range.2 hi, fun j hj => by simpa using hf j hj⟩

theorem regIndex_eq_none {f : Nat → Nat} {n off : Nat} (h : ∀ i, i < n → f i ≠ off) : regIndex f n off = none :=
  List.find?_eq_none.2 fun i hi => by simpa using h i (List.mem_range.1 hi)

theorem readAct_timeNowNs : readAct Reg.TIME_NOW_NS = some execTimeNowNsRead := if_pos rfl

theorem readAct_samplePc : readAct Reg.PMU_SAMPLE_PC = some execPmuSamplePcRead :=
  (if_neg (by decide)).trans ((if_neg (by decide)).trans (if_pos rfl))

/-- Beyond the three single registers the register groups are searched in turn. -/
theorem readAct_grouped {off : Nat} (ht : off ≠ Reg.TIME_NOW_NS) (hh : off ≠ Reg.HAL_DISPATCH_MAX) (hp : off ≠ Reg.PMU_SAMPLE_PC) :
    readAct off = ((regIndex Reg.MBX_D2H 9 off).map execMbxD2hRead
      <|> (regIndex Reg.CHN_AU_COUNT_LO 64 off).map execChnAuCountLoRead
      <|> (regIndex Reg.RC_HEADROOM_MIN 64 off).map execRcHeadroomMinRead
      <|> (regIndex Reg.LYR_FLIP_RESULT 64 off).map execLyrFlipResultRead
      <|> (regIndex Reg.EXT_MARGIN_MIN 16 off).map execExtMarginMinRead
      <|> (regIndex Reg.ENG_PEAK_LOAD 16 off).map execEngPeakLoadRead
      <|> (regIndex Reg.NET_MERGE_SKEW 208 off).map execNetMergeSkewRead
      <|> (regIndex Reg.EGR_LATE_MAX 64 off).map execEgrLateMaxRead
      <|> (regIndex Reg.LANE_FOM 26 off).map execLaneFomRead
      <|> (regIndex Reg.PMU_CNT_LO 256 off).map execPmuCntLoRead) := by
  unfold readAct
  rw [if_neg ht, if_neg hh, if_neg hp]

theorem readAct_mbxD2h {p : Nat} (hp : p < 9) : readAct (Reg.MBX_D2H p) = some (execMbxD2hRead p) := by
  rw [readAct_grouped (by unfold Reg.MBX_D2H Reg.TIME_NOW_NS; omega) (by unfold Reg.MBX_D2H Reg.HAL_DISPATCH_MAX; omega)
    (by unfold Reg.MBX_D2H Reg.PMU_SAMPLE_PC; omega),
    regIndex_eq_some (f := Reg.MBX_D2H) hp rfl fun j hj => by unfold Reg.MBX_D2H; omega]
  rfl

theorem readAct_auCountLo {c : Nat} (hc : c < 64) : readAct (Reg.CHN_AU_COUNT_LO c) = some (execChnAuCountLoRead c) := by
  rw [readAct_grouped (by unfold Reg.CHN_AU_COUNT_LO Reg.TIME_NOW_NS; omega) (by unfold Reg.CHN_AU_COUNT_LO Reg.HAL_DISPATCH_MAX; omega)
    (by unfold Reg.CHN_AU_COUNT_LO Reg.PMU_SAMPLE_PC; omega),
    regIndex_eq_none (f := Reg.MBX_D2H) fun j hj => by unfold Reg.MBX_D2H Reg.CHN_AU_COUNT_LO; omega,
    regIndex_eq_some (f := Reg.CHN_AU_COUNT_LO) hc rfl fun j hj => by unfold Reg.CHN_AU_COUNT_LO; omega]
  rfl

theorem readAct_laneFom {l : Nat} (hl : l < 26) : readAct (Reg.LANE_FOM l) = some (execLaneFomRead l) := by
  rw [readAct_grouped (by unfold Reg.LANE_FOM Reg.TIME_NOW_NS; omega) (by unfold Reg.LANE_FOM Reg.HAL_DISPATCH_MAX; omega)
    (by unfold Reg.LANE_FOM Reg.PMU_SAMPLE_PC; omega),
    regIndex_eq_none (f := Reg.MBX_D2H) fun j hj => by unfold Reg.MBX_D2H Reg.LANE_FOM; omega,
    regIndex_eq_none (f := Reg.CHN_AU_COUNT_LO) fun j hj => by unfold Reg.CHN_AU_COUNT_LO Reg.LANE_FOM; omega,
    regIndex_eq_none (f := Reg.RC_HEADROOM_MIN) fun j hj => by unfold Reg.RC_HEADROOM_MIN Reg.LANE_FOM; omega,
    regIndex_eq_none (f := Reg.LYR_FLIP_RESULT) fun j hj => by unfold Reg.LYR_FLIP_RESULT Reg.LANE_FOM; omega,
    regIndex_eq_none (f := Reg.EXT_MARGIN_MIN) fun j hj => by unfold Reg.EXT_MARGIN_MIN Reg.LANE_FOM; omega,
    regIndex_eq_none (f := Reg.ENG_PEAK_LOAD) fun j hj => by unfold Reg.ENG_PEAK_LOAD Reg.LANE_FOM; omega,
    regIndex_eq_none (f := Reg.NET_MERGE_SKEW) fun j hj => by unfold Reg.NET_MERGE_SKEW Reg.LANE_FOM; omega,
    regIndex_eq_none (f := Reg.EGR_LATE_MAX) fun j hj => by unfold Reg.EGR_LATE_MAX Reg.LANE_FOM; omega,
    regIndex_eq_some (f := Reg.LANE_FOM) hl rfl fun j hj => by unfold Reg.LANE_FOM; omega]
  rfl

/-! ## Reads of BAR0 as they arrive (R5) -/

theorem exec_read {off : Nat} (ha : off % 4 = 0) (hl : off < 0x4000000) (s : State) :
    exec (.bar0BadAccess (.read off 4)) s = .next (s.readAt off) :=
  congrArg Host.Outcome.next (if_pos ⟨rfl, ha, hl⟩)

theorem exec_read64 {off : Nat} (ha : off % 8 = 0) (hl : off < 0x4000000) (s : State) :
    exec (.bar0BadAccess (.read off 8)) s = .next (s.barRead fun s => (s.readAt off).readAt (off + 4)) :=
  congrArg Host.Outcome.next ((if_neg (by omega)).trans (if_pos ⟨rfl, ha, hl⟩))

theorem read_answers (s : State) {off : Nat} (ha : off % 4 = 0) (hl : off < 0x4000000) (hr : readAct off = none) :
    Reads (.bar0BadAccess (.read off 4)) off s [] noReg (s.readBlock off) fun _ => True := by
  have he : exec (.bar0BadAccess (.read off 4)) s = .next (s.hostRead off fun s => s.emit (.readData (s.readBlock off))) := by
    simp only [exec_read ha hl, State.readAt, hr]
  unfold Reads Gives
  split
  · next h3 => rw [he, State.hostRead_d3hot h3]
  · next h0 =>
    rw [Bool.not_eq_true] at h0
    split
    · next hd => rw [he, State.hostRead_down h0 hd]
    · next hd =>
      rw [Bool.not_eq_true] at hd
      rw [State.hostRead_reaches (State.reaches_iff.2 ⟨h0, hd⟩)] at he
      exact does_of_touches he (State.emit_touches ..) (by decide) ⟨rfl, trivial⟩

/-- A read of a register whose read acts is that read's row. -/
theorem exec_read_eq_row {i : Instr} {s t : State} {off : Nat} {f : State → Host.Outcome State Fault Refusal} (ha : off % 4 = 0)
    (hl : off < 0x4000000) (hr : readAct off = some f) (hi : exec i s = f s) (hf : f s = .next t) :
    exec (.bar0BadAccess (.read off 4)) s = exec i s := by
  simp only [exec_read ha hl, State.readAt, hr, hi, hf, outState]

theorem read64_eq_second {s t : State} {off : Nat} (ha : off % 8 = 0) (hl : off < 0x4000000) (h0 : s.mbx.pci.d3hot = false)
    (h : Gives (.bar0BadAccess (.read off 4)) s t) :
    exec (.bar0BadAccess (.read off 8)) s = exec (.bar0BadAccess (.read (off + 4) 4)) t := by
  rw [Gives, exec_read (by omega) hl] at h
  cases h
  rw [exec_read64 ha hl, State.barRead_d0 h0, exec_read (by omega) (by omega)]

theorem read_aborts (s : State) {off len : Nat} (h4 : ¬ (len = 4 ∧ off % 4 = 0)) (h8 : ¬ (len = 8 ∧ off % 8 = 0) ∨ 0x4000000 ≤ off) :
    Gives (.bar0BadAccess (.read off len)) s
      (if s.mbx.pci.d3hot = true then s.unsupported.emit .unsupported else s.emit .abort) :=
  congrArg Host.Outcome.next ((if_neg (by tauto)).trans (if_neg (by omega)))

/-! ## Writes of BAR0 as they arrive (R5) -/

section arrivingWrites
variable (s : State) (off : Nat) {d : List Byte}

theorem arriving_write_word (h : d.length = 4) :
    exec (.bar0BadAccess (.write off d)) s = exec (.registerWrite (.bar0 off) (w32 (leNat d)) none) s :=
  congrArg Host.Outcome.next (if_pos h)

theorem arriving_write_pair (h : d.length = 8) : exec (.bar0BadAccess (.write off d)) s =
    exec (.registerWrite (.bar0 off) (w32 (leNat (d.take 4))) (some (w32 (leNat (d.drop 4))))) s :=
  congrArg Host.Outcome.next ((if_neg (by omega)).trans (if_pos h))

theorem arriving_write_countsBad (h4 : d.length ≠ 4) (h8 : d.length ≠ 8) : CountsBad (.bar0BadAccess (.write off d)) s :=
  countsBad_of_exec fun h0 => congrArg Host.Outcome.next ((if_neg h4).trans ((if_neg h8).trans (State.barWrite_d0 h0)))

end arrivingWrites

/-! ## Command windows (R297) -/

/-- A block that no LOST answer marks reads what the host has written. -/
theorem State.window_written {s : State} {k : Nat} {b : List Byte} (hb : tget s.mbx.win k = some b)
    (hl : s.mbx.lost.contains k = false) : s.window k = b := by
  simp only [State.window, hb, hl, Bool.false_eq_true, if_false]

section windows
variable {s : State} {off : Nat} (h0 : s.mbx.pci.d3hot = false)
include h0

theorem winWrite_within {d : List Byte} (hl : off < 0x12000) (hb : inBlock off d.length = true) :
    Does (.bar0BadAccess (.winWrite off d)) s [.mbx] noReg fun t => t.window (off / 256)
      = (s.window (off / 256)).take (off % 256) ++ d ++ (s.window (off / 256)).drop (off % 256 + d.length) := by
  have hw : s.windowWrite off d = { s with mbx := { s.mbx with
      win := tset s.mbx.win (off / 256)
        ((s.window (off / 256)).take (off % 256) ++ d ++ (s.window (off / 256)).drop (off % 256 + d.length))
      lost := s.mbx.lost.filter (· != off / 256) } } := by
    unfold State.windowWrite
    rw [if_neg (by simp [hb]), if_neg (by omega)]
  have he : exec (.bar0BadAccess (.winWrite off d)) s = .next (s.windowWrite off d) :=
    congrArg Host.Outcome.next (State.barWrite_d0 h0)
  rw [hw] at he
  refine does_of_touches he ((Touches.set_mbx (by decide) _).mpr (.refl _ s)) (by decide) (State.window_written ?_ ?_)
  · exact tget_tset_self ..
  · simp

theorem winRead_within {n : Nat} (hl : off < 0x12000) (hb : inBlock off n = true) :
    Gives (.bar0BadAccess (.winRead off n)) s (s.emit (.windowData (((s.window (off / 256)).drop (off % 256)).take n))) := by
  have hr : s.windowRead off n = s.emit (.windowData (((s.window (off / 256)).drop (off % 256)).take n)) := by
    unfold State.windowRead
    rw [if_neg (by simp [hb]), if_neg (by omega)]
  exact congrArg Host.Outcome.next ((State.barRead_d0 h0).trans hr)

theorem winRead_across {n : Nat} (hb : inBlock off n = false) : Gives (.bar0BadAccess (.winRead off n)) s (s.emit .abort) :=
  congrArg Host.Outcome.next ((State.barRead_d0 h0).trans (if_pos (by simp [hb])))

end windows

theorem winWrite_across_countsBad {s : State} {off : Nat} {d : List Byte} (hb : inBlock off d.length = false) :
    CountsBad (.bar0BadAccess (.winWrite off d)) s :=
  countsBad_of_exec fun h0 => congrArg Host.Outcome.next ((State.barWrite_d0 h0).trans (if_pos (by simp [hb])))

/-! ## Every host access -/

theorem chkHost_of_mem {u : Nat} (h : u = 2 ∨ u = 3 ∨ u = 7) : chkHost u = true := by rcases h with rfl | rfl | rfl <;> rfl

theorem chkFeed_unit {u : Nat} (h : u = 2 ∨ u = 3) : chkHost u = true ∧ chkScan u = false := by
  rcases h with rfl | rfl <;> exact ⟨rfl, rfl⟩

/-- Settles O17: each form of access by its own lemma, those that have a row of their own by the block that hands them to it. -/
theorem registerWrites : Obligations.RegisterWrites := by
  unfold Obligations.RegisterWrites
  refine ⟨fun s off w ha hp h => ⟨fun r hr => write_reaches_row w ha hp h hr, write_reaches_reserved w ha hp h⟩,
    fun s off w ha hp hd => write_down_countsBad w ha hp hd, fun s off w h => write_refused_countsBad s w h,
    fun s t off lo hi ha hl h0 h => write64_eq_second hi ha hl h0 h, fun s off lo hi h => write64_outside_countsBad s lo hi h,
    fun s off lo hi h => write_d3hot off lo hi h, fun s w => ?rows, write_config,
    fun s off ha hl hr => read_answers s ha hl hr, fun s => ?reads, fun s t off ha hl h0 h => read64_eq_second ha hl h0 h,
    fun s off len h4 h8 => read_aborts s h4 h8,
    fun s off d => ⟨arriving_write_word s off, arriving_write_pair s off, arriving_write_countsBad s off⟩, ?windows⟩
  case rows =>
    refine ⟨fun p hp => exec_write_mbxH2d s w hp, exec_write_fenceSignal s w, exec_write_fenceReset s w,
      fun c hc => ⟨exec_write_curPos s w hc, exec_write_curQueue s w hc⟩, fun p d hp hd hw => exec_write_slotCommit s w hp hd hw,
      fun u hu => ?_, fun u hu => ?_, fun i hi => exec_write_counterEnable s w hi, fun h hh => exec_write_histConfig s w hh,
      exec_write_dumpSize s w, exec_write_otpBurn s, exec_write_keySlotWrite s⟩
    · have hu := chkHost_of_mem hu
      refine ⟨exec_write_chkPreset s w hu, ?_, ?_, ?_, ?_⟩ <;> rintro rfl
      · exact exec_write_chkInit s hu
      · exact exec_write_chkFinish s hu
      · exact exec_write_chkStart s hu
      · exact exec_write_chkAbort s hu
    · obtain ⟨hu, hs⟩ := chkFeed_unit hu
      exact ⟨exec_write_chkFeed8 s w hu hs, exec_write_chkFeed16 s w hu hs, exec_write_chkFeed32 s w hu hs⟩
  case reads =>
    refine ⟨exec_read_eq_row (by decide) (by decide) readAct_timeNowNs rfl rfl,
      exec_read_eq_row (by decide) (by decide) readAct_samplePc rfl rfl, fun p hp => ?_, fun c hc => ?_, fun l hl => ?_⟩
    · exact exec_read_eq_row (by unfold Reg.MBX_D2H; omega) (by unfold Reg.MBX_D2H; omega) (readAct_mbxD2h hp) rfl rfl
    · exact exec_read_eq_row (by unfold Reg.CHN_AU_COUNT_LO; omega) (by unfold Reg.CHN_AU_COUNT_LO; omega) (readAct_auCountLo hc) rfl rfl
    · exact exec_read_eq_row (by unfold Reg.LANE_FOM; omega) (by unfold Reg.LANE_FOM; omega) (readAct_laneFom hl) rfl rfl
  case windows =>
    intro s off d h0 hl
    refine ⟨fun hb => ?_, winRead_within h0 hl, fun hb => ⟨winWrite_across_countsBad hb, winRead_across h0 hb⟩⟩
    obtain ⟨t, ht, htouch, hrd, hwin⟩ := winWrite_within h0 hl hb
    exact ⟨t, ht, htouch, hrd, .inl hwin⟩

end Sys2Proof.Machine
end

section
/-!
PROOFS. Reads that act (R5, R22, R40, R75, R210, R271, R295, R410, R411): registers that a read clears, registers whose read latches another.
-/
namespace Sys2Proof.Machine
open Sys2Proof

/-- The row at `off` answers an Unsupported Request in D3hot and all ones where the PLL of its domain has lost lock (R22, R295). -/
def TurnedAway (i : Instr) (off : Nat) (s : State) : Prop :=
  (s.mbx.pci.d3hot = true → exec i s = .next (s.unsupported.emit .unsupported))
    ∧ (s.mbx.pci.d3hot = false → s.dev.down (regDomain off) = true → exec i s = .next (s.badAccess.emit (.readData 0xFFFFFFFF)))

/-- A read answers with the word at `off` and clears it; every other register stays. -/
def ReadCleared (off : Nat) (s t : State) : Prop :=
  Touches [.regs, .out] s t ∧ t.out = .readData (s.rd off) :: s.out ∧ t.rd off = 0 ∧ ∀ o, o ≠ off → t.rd o = s.rd o

/-! ## The shapes of the rows -/

section shapes
variable {i : Instr} {s : State} {off : Nat} {f : State → State}

theorem turnedAway_of_hostRead (h : exec i s = .next (s.hostRead off f)) : TurnedAway i off s :=
  ⟨fun h3 => by rw [h, State.hostRead_d3hot h3], fun h0 hd => by rw [h, State.hostRead_down h0 hd]⟩

theorem exec_hostRead_reaches (h : exec i s = .next (s.hostRead off f)) (hr : s.reaches off = true) : exec i s = .next (f s) := by
  rw [h, State.hostRead_reaches hr]

theorem State.readReserved_d0 (h : s.mbx.pci.d3hot = false) : s.readReserved = s.emit (.readData 0) := State.barRead_d0 h

theorem readCleared_wr_emit (off : Nat) (s : State) : ReadCleared off s ((s.wr off 0).emit (.readData (s.rd off))) :=
  ⟨((s.wr_touches off 0).mono (by decide)).then (State.emit_touches ..) (by decide), rfl, State.rd_wr_self s off 0,
    fun _ ho => State.rd_wr_ne (Ne.symm ho) s 0⟩

theorem readClear_reaches (h : exec i s = .next (s.readClear off)) (hr : s.reaches off = true) :
    ∃ t, exec i s = .next t ∧ ReadCleared off s t :=
  ⟨_, exec_hostRead_reaches h hr, readCleared_wr_emit off s⟩

/-- Item `k` of an array of `n` registers that a read clears; beyond the array the read returns 0. -/
theorem readClear_array {n k : Nat} (h : exec i s = .next (if k < n then s.readClear off else s.readReserved)) :
    (k < n → TurnedAway i off s ∧ (s.reaches off = true → ∃ t, exec i s = .next t ∧ ReadCleared off s t))
      ∧ (n ≤ k → s.mbx.pci.d3hot = false → exec i s = .next (s.emit (.readData 0))) := by
  refine ⟨fun hk => ?_, fun hk h0 => ?_⟩
  · rw [if_pos hk] at h
    exact ⟨turnedAway_of_hostRead h, readClear_reaches h⟩
  · rw [h, if_neg (by omega), State.readReserved_d0 h0]

/-- The register `off` takes the word `v` and nothing else of the bank moves. -/
theorem rd_latched (s : State) (off : Nat) (v : Word) (o : Out) :
    ((s.wr off v).emit o).rd off = v ∧ ∀ c, c ≠ off → ((s.wr off v).emit o).rd c = s.rd c :=
  ⟨State.rd_wr_self s off v, fun _ hc => State.rd_wr_ne (Ne.symm hc) s v⟩

theorem touches_wr_emit (s : State) (off : Nat) (v : Word) (o : Out) : Touches [.regs, .out] s ((s.wr off v).emit o) :=
  ((s.wr_touches off v).mono (by decide)).then (State.emit_touches ..) (by decide)

end shapes

/-! ## Rows that do more than clear -/

section rows
variable (s : State)

theorem exec_laneFom {l : Nat} (hl : l < 26) : exec (.laneFomRead l) s = .next (s.hostRead (Reg.LANE_FOM l) fun s =>
    (s.emit (.readData (wnat (s.laneOf l).fom 7 0 ||| wnat (s.laneOf l).fomMin 15 8 ||| bitIf (s.laneOf l).fomValid 16))).updLane l
      fun x => { x with fomMin := 0, fomValid := false }) :=
  congrArg Host.Outcome.next (if_neg (by omega))

theorem laneFom_reaches {l : Nat} (hl : l < 26) (hr : s.reaches (Reg.LANE_FOM l) = true) :
    ∃ t, exec (.laneFomRead l) s = .next t ∧ Touches [.lane, .out] s t
      ∧ t.out = .readData (wnat (s.laneOf l).fom 7 0 ||| wnat (s.laneOf l).fomMin 15 8 ||| bitIf (s.laneOf l).fomValid 16) :: s.out
      ∧ t.laneOf l = { s.laneOf l with fomMin := 0, fomValid := false } ∧ (∀ k, k ≠ l → t.laneOf k = s.laneOf k)
      ∧ t.lane.ports = s.lane.ports := by
  refine ⟨_, exec_hostRead_reaches (exec_laneFom s hl) hr, ?_, rfl, ?_, fun k hk => ?_, rfl⟩
  · exact ((s.emit_touches _).mono (by decide)).then ((Touches.set_lane (l := [.lane]) (by decide) _).mpr (.refl ..)) (by decide)
  · exact tgetD_tset_self ..
  · exact tgetD_tset_ne (Ne.symm hk) ..

theorem timeNowNs_reaches (hr : s.reaches Reg.TIME_NOW_NS = true) : ∃ t, exec .timeNowNsRead s = .next t ∧ Touches [.time, .out] s t
    ∧ t.out = .readData (BitVec.ofNat 32 s.time.ns) :: s.out
    ∧ t.time = { s.time with latchS := s.time.sec, latchF := s.time.frac / 2 ^ 24 } :=
  ⟨_, exec_hostRead_reaches rfl hr,
    ((Touches.set_time (l := [.time, .out]) (by decide) _).mpr (.refl ..)).then (State.emit_touches ..) (by decide), rfl, rfl⟩

theorem exec_auCountLo_reaches {c : Nat} (hr : s.reaches (Reg.CHN_AU_COUNT_LO 0) = true) :
    exec (.chnAuCountLoRead c) s = .next (match tget s.chans c with
      | some ch => (s.wr (Reg.CHN_AU_COUNT_HI c) (BitVec.ofNat 32 (ch.auCount / 2 ^ 32))).emit (.readData (BitVec.ofNat 32 ch.auCount))
      | none => s.readReserved) :=
  (exec_hostRead_reaches rfl hr).trans rfl

theorem exec_pmuCntLo {k : Nat} (hk : k < 256) : exec (.pmuCntLoRead k) s = .next (s.hostRead (Reg.PMU_CNT_LO k) fun s =>
    (s.wr (Reg.PMU_CNT_HI k) (wnat (tgetD s.pmu.cnt k 0 / 2 ^ 32) 15 0)).emit (.readData (BitVec.ofNat 32 (tgetD s.pmu.cnt k 0)))) :=
  congrArg Host.Outcome.next (if_neg (by omega))

theorem exec_pmuSamplePc_reaches (hr : s.reaches Reg.PMU_SAMPLE_PC = true) : exec .pmuSamplePcRead s = .next (match s.pmu.fifo with
    | [] => (s.wr Reg.PMU_SAMPLE_INFO 0).emit (.readData 0)
    | x :: rest => ({ s with pmu := { s.pmu with fifo := rest, lost := false } }.wr Reg.PMU_SAMPLE_INFO
        (wnat x.core 2 0 ||| wnat x.thread 11 3 ||| wnat x.counter 19 12 ||| bitIf s.pmu.lost 30 ||| bit1 31)).emit (.readData x.pc)) :=
  (exec_hostRead_reaches rfl hr).trans rfl

theorem auCountLo_defined {c : Nat} {ch : Chan} (hc : tget s.chans c = some ch) (hr : s.reaches (Reg.CHN_AU_COUNT_LO 0) = true) :
    ∃ t, exec (.chnAuCountLoRead c) s = .next t ∧ Touches [.regs, .out] s t ∧ t.out = .readData (BitVec.ofNat 32 ch.auCount) :: s.out
      ∧ t.rd (Reg.CHN_AU_COUNT_HI c) = BitVec.ofNat 32 (ch.auCount / 2 ^ 32)
      ∧ ∀ o, o ≠ Reg.CHN_AU_COUNT_HI c → t.rd o = s.rd o := by
  refine ⟨_, exec_auCountLo_reaches s hr, ?_⟩
  rw [hc]
  exact ⟨touches_wr_emit .., rfl, rd_latched ..⟩

theorem pmuCntLo_reaches {k : Nat} (hk : k < 256) (hr : s.reaches (Reg.PMU_CNT_LO k) = true) :
    ∃ t, exec (.pmuCntLoRead k) s = .next t ∧ Touches [.regs, .out] s t
      ∧ t.out = .readData (BitVec.ofNat 32 (tgetD s.pmu.cnt k 0)) :: s.out
      ∧ t.rd (Reg.PMU_CNT_HI k) = wnat (tgetD s.pmu.cnt k 0 / 2 ^ 32) 15 0 ∧ ∀ o, o ≠ Reg.PMU_CNT_HI k → t.rd o = s.rd o :=
  ⟨_, exec_hostRead_reaches (exec_pmuCntLo s hk) hr, touches_wr_emit .., rfl, rd_latched ..⟩

theorem pmuSamplePc_empty (hr : s.reaches Reg.PMU_SAMPLE_PC = true) (hf : s.pmu.fifo = []) :
    ∃ t, exec .pmuSamplePcRead s = .next t ∧ Touches [.regs, .out] s t
      ∧ t.out = .readData 0 :: s.out ∧ t.rd Reg.PMU_SAMPLE_INFO = 0 ∧ ∀ o, o ≠ Reg.PMU_SAMPLE_INFO → t.rd o = s.rd o := by
  refine ⟨_, exec_pmuSamplePc_reaches s hr, ?_⟩
  rw [hf]
  exact ⟨touches_wr_emit .., rfl, rd_latched ..⟩

theorem pmuSamplePc_oldest {x : Sample} {rest : List Sample} (hf : s.pmu.fifo = x :: rest)
    (hr : s.reaches Reg.PMU_SAMPLE_PC = true) : ∃ t, exec .pmuSamplePcRead s = .next t ∧ Touches [.regs, .pmu, .out] s t
      ∧ t.out = .readData x.pc :: s.out ∧ t.pmu = { s.pmu with fifo := rest, lost := false }
      ∧ t.rd Reg.PMU_SAMPLE_INFO = (wnat x.core 2 0 ||| wnat x.thread 11 3 ||| wnat x.counter 19 12
          ||| bitIf s.pmu.lost 30 ||| bit1 31) ∧ ∀ o, o ≠ Reg.PMU_SAMPLE_INFO → t.rd o = s.rd o := by
  refine ⟨_, exec_pmuSamplePc_reaches s hr, ?_⟩
  rw [hf]
  refine ⟨?_, rfl, rfl, rd_latched ..⟩
  exact ((Touches.set_pmu (l := [.regs, .pmu, .out]) (by decide) _).mpr (.refl ..)).then (touches_wr_emit ..) (by decide)

end rows

/-- Settles O16: six arrays and one register that a read clears, then each row that latches another register. -/
theorem readsThatAct : Obligations.ReadsThatAct := by
  unfold Obligations.ReadsThatAct
  intro turnedAway cleared s
  refine ⟨fun e => readClear_array rfl, fun c => readClear_array rfl, fun c => readClear_array rfl, fun e => readClear_array rfl,
    fun m => readClear_array rfl, fun i => readClear_array rfl, turnedAway_of_hostRead rfl, readClear_reaches rfl,
    fun l hl => ⟨turnedAway_of_hostRead (exec_laneFom s hl), laneFom_reaches s hl⟩, fun l hl h0 => ?fomBeyond,
    turnedAway_of_hostRead rfl, timeNowNs_reaches s, fun c => turnedAway_of_hostRead rfl, fun c ch => auCountLo_defined s,
    fun c hc hr h0 => ?free, fun k hk => ⟨turnedAway_of_hostRead (exec_pmuCntLo s hk), pmuCntLo_reaches s hk⟩,
    fun k hk h0 => ?cntBeyond, turnedAway_of_hostRead rfl, pmuSamplePc_empty s, fun x rest => pmuSamplePc_oldest s⟩
  case fomBeyond => exact congrArg Host.Outcome.next ((if_pos (by omega)).trans (State.readReserved_d0 h0))
  case free => rw [exec_auCountLo_reaches s hr, hc, State.readReserved_d0 h0]
  case cntBeyond => exact congrArg Host.Outcome.next ((if_pos (by omega)).trans (State.readReserved_d0 h0))

end Sys2Proof.Machine
end

section
/-!
PROOFS. External streams (R17, R121, R124, R127 to R129, R237): freezing, the gap deadline, and the parts of one decoding.
-/
namespace Sys2Proof.Machine
open Sys2Proof

theorem tupd_of_none {α : Type} {t : Tab α} {k : Nat} (h : tget t k = none) (f : α → α) : tupd t k f = t := by
  induction t with
  | nil => rfl
  | cons e r ih =>
    obtain ⟨j, b⟩ := e
    rw [tget_cons] at h
    split at h
    · exact absurd h nofun
    · next hj => simp only [tupd, if_neg hj, ih h]

/-- Every stream but `d` is as it was. -/
def OtherStreams (d : Nat) (s t : State) : Prop := ∀ k, k ≠ d → tget t.ext k = tget s.ext k

theorem OtherStreams.refl (d : Nat) (s : State) : OtherStreams d s s := fun _ _ => rfl

theorem OtherStreams.trans {d : Nat} {s t u : State} (a : OtherStreams d s t) (b : OtherStreams d t u) : OtherStreams d s u :=
  fun k hk => (b k hk).trans (a k hk)

theorem OtherStreams.of_ext {d : Nat} {s t : State} (h : t.ext = s.ext) : OtherStreams d s t := fun k _ => by rw [h]

theorem otherStreams_tupd (d : Nat) (s : State) (f : ExtStream → ExtStream) : OtherStreams d s { s with ext := tupd s.ext d f } :=
  fun _ hk => tget_tupd_ne (Ne.symm hk) ..

theorem otherStreams_tset (d : Nat) (s : State) (e : ExtStream) : OtherStreams d s { s with ext := tset s.ext d e } :=
  fun _ hk => tget_tset_ne (Ne.symm hk) ..

/-! ## The freeze and the gap deadline (R237) -/

/-- A unit alone waits for no gap records. -/
theorem State.extReady_single {s : State} (h : s.member = false) (e : ExtStream) (a : Nat) : s.extReady e a = true := by
  simp [State.extReady, State.gapPeers, h]

/-- A stream whose oldest AU in reception is frozen with its gap list `l` at rank `k`, every frozen AU free to be decoded. -/
def ExtStream.frozenAlone (e : ExtStream) (k a : Nat) (next : List (Nat × Nat)) (l : List GapRange) : ExtStream :=
  { e with
    heads := next, frozen := (e.frozen ++ [(a, false)]).map fun x => (x.1, true), gaps := tset e.gaps (4 * a + k) (some l) }

section freeze
variable {s : State} {d : Nat} {e : ExtStream}

theorem exec_extAuFreeze_none (h : tget s.ext d = none) : Gives (.extAuFreeze d) s s := by
  show execExtAuFreeze d s = _
  simp only [execExtAuFreeze, h]

theorem exec_extAuFreeze_empty (h : tget s.ext d = some e) (hh : e.heads = []) : Gives (.extAuFreeze d) s s := by
  show execExtAuFreeze d s = _
  simp only [execExtAuFreeze, h, hh]

theorem exec_extAuFreeze_single {q a : Nat} {next : List (Nat × Nat)} (h : tget s.ext d = some e) (hh : e.heads = (q, a) :: next)
    (hm : s.member = false) :
    ∃ t, exec (.extAuFreeze d) s = .next t ∧ Touches [.ext] s t ∧ OtherStreams d s t
      ∧ tget t.ext d = some (e.frozenAlone s.grp.rank a next (s.extGaps d q (next.head?.map (·.1)))) := by
  let e' : ExtStream := { e with
    heads := next, frozen := e.frozen ++ [(a, false)]
    gaps := tset e.gaps (4 * a + s.grp.rank) (some (s.extGaps d q (next.head?.map (·.1)))) }
  let u : State := { s with ext := tset s.ext d e' }
  have hu : execExtAuFreeze d s = .next (u.extSettle d) := by
    have hum : (u.member) = false := hm
    simp only [execExtAuFreeze, h, hh, hm, Bool.false_eq_true, false_and, if_false]
    rw [if_neg (Bool.eq_false_iff.1 hum)]
  refine ⟨u.extSettle d, hu, ?_, (otherStreams_tset d s e').trans (otherStreams_tupd d u _), ?_⟩
  · exact ((Touches.set_ext (by decide) _).mpr (.refl _ s)).then (u.extSettle_touches d) (by decide)
  · have hum : u.member = false := hm
    have hd : tget u.ext d = some e' := tget_tset_self ..
    simp only [State.extSettle, tget_tupd_self, hd, Option.map_some, State.extReady_single hum, Bool.or_true]
    rfl

end freeze

/-! ## What the steps of a decoding make of the stream (R126 to R128, R237) -/

/-- The stream once AU `a` has left. -/
def ExtStream.left (a : Nat) (e : ExtStream) : ExtStream :=
  { e with
    frozen := e.frozen.filter fun x => x.1 != a, inWork := none, subs := [], gaps := tfilter e.gaps fun k _ => k / 4 != a
    past := takeLast 16 (e.past ++ [a]) }

/-- The stream once the lines of a part have joined its picture. -/
def ExtStream.joined (a : Nat) (q : ExtSets) (au : ExtAu) (e : ExtStream) : ExtStream :=
  { e with held := e.held.map fun h =>
      if h.poc == au.poc then h.add (e.conceal q (au.slices.filter (e.sliceLost a)) au.line au.frame) else h }

section steps
variable (s : State) (d a : Nat)

theorem State.extLeave_eq : s.extLeave d a = { s with
    ext := tupd s.ext d (ExtStream.left a)
    eng := { s.eng with pipes := tfilter s.eng.pipes fun _ w => w != .ext d } } := rfl

theorem State.extLeave_other : OtherStreams d s (s.extLeave d a) := fun _ hk => tget_tupd_ne (Ne.symm hk) ..

variable {s d}

theorem State.extLeave_ext {e : ExtStream} (h : tget s.ext d = some e) : tget (s.extLeave d a).ext d = some (e.left a) := by
  rw [s.extLeave_eq d a, tget_tupd_self, h, Option.map_some]

variable (s d) {a}

theorem State.extOutput_other (o : ExtOut) : OtherStreams d s (s.extOutput d o) := by
  have hw : ∀ (t : State) e c ch f, OtherStreams d t (t.extWrite d e c ch f o) := fun t e c ch f =>
    .of_ext ((t.extWrite_touches d e c ch f o).same .ext (by decide))
  have hb : ∀ (t : State) (b : Bool) off, OtherStreams d t (if b = true then t.bump off else t) := fun t b off => by
    split
    · exact .of_ext (t.bump_ext off)
    · exact .refl d t
  unfold State.extOutput
  split
  · exact .refl d s
  · next e he =>
    split
    · exact .refl d s
    · next h hh =>
      extract_lets whole show_ u v
      have hu : OtherStreams d s u := by
        unfold u
        split
        · exact otherStreams_tset d s _
        · exact .refl d s
      have hv : OtherStreams d s v := hu.trans (hb u _ _)
      split
      · exact (hv.trans (hb v _ _)).trans (hw _ _ _ _ _)
      · exact hv

theorem State.extPart_other (q : ExtSets) (au : ExtAu) : OtherStreams d s (s.extPart d a q au) := by
  have hf : ∀ t : State, OtherStreams d t (au.outs.foldl (fun (t : State) o => t.extOutput d o) t) := fun t k hk =>
    foldl_keep (fun t => tget t.ext k) (fun t o => t.extOutput_other d o k hk) au.outs t
  unfold State.extPart
  extract_lets add u v
  have hv : OtherStreams d s v := (otherStreams_tupd d s add).trans (hf u)
  split
  · exact hv.trans (v.extLeave_other d a)
  · exact hv

variable {d}

/-- A part without output lines. -/
theorem State.extPart_silent (q : ExtSets) {au : ExtAu} (h : au.outs = []) :
    s.extPart d a q au = if au.done = true then State.extLeave { s with ext := tupd s.ext d (ExtStream.joined a q au) } d a
      else { s with ext := tupd s.ext d (ExtStream.joined a q au) } := by
  simp only [State.extPart, h, List.foldl_nil]
  rfl

end steps

/-! ## The beginning of a decoding (R127, R128) -/

/-- The stream once the decoding of AU `a` has begun. -/
def ExtStream.begun (a : Nat) (au : ExtAu) (e : ExtStream) : ExtStream :=
  let m := e.mark au (au.slices.filter (e.sliceLost a)).length
  { m.1 with
    decoding := true, unsupported := false, count := m.1.count + 1
    missed := m.1.missed ++ (e.absent au).filter fun r => !(e.missed.contains r), inWork := some a
    subs := (e.absent au).map fun r => (r, e.substitute (refPoc r au.poc))
    held := (m.1.held.filter fun h => !h.shown || au.refs.any fun r => refNames r h.poc)
      ++ [{ poc := au.poc, concealed := m.2, shown := false }] }

/-- `n` items count at `off` and set a sticky bit, none where there are none. -/
def State.countSticky (s : State) (off st : Nat) (m : Word) (n : Nat) : State :=
  if n = 0 then s else (s.bumpBy off n).sticky st m

section countSticky
variable (s : State) {off st : Nat} (m : Word) (n : Nat)

theorem State.countSticky_touches : Touches [.regs] s (s.countSticky off st m n) := by
  unfold State.countSticky
  split
  · exact .refl _ s
  · exact (s.bumpBy_touches off n).trans (State.sticky_touches ..)

theorem State.countSticky_rd_self (h : st ≠ off) : (s.countSticky off st m n).rd off = s.rd off + BitVec.ofNat 32 n := by
  unfold State.countSticky
  split
  · next hn => rw [hn]; exact (BitVec.add_zero _).symm
  · rw [State.rd_eq, State.sticky_regs, bget_bset_ne h, State.bumpBy_regs, bget_bset_self, State.rd_eq]

theorem State.countSticky_rd_ne {c : Nat} (ho : off ≠ c) (hs : st ≠ c) : (s.countSticky off st m n).rd c = s.rd c := by
  unfold State.countSticky
  split
  · rfl
  · rw [State.rd_eq, State.sticky_regs, bget_bset_ne hs, State.bumpBy_regs, bget_bset_ne ho, State.rd_eq]

end countSticky

theorem State.extBegin_eq (s : State) (d a : Nat) (e : ExtStream) (au : ExtAu) :
    s.extBegin d a e au = (State.countSticky { s with ext := tset s.ext d (e.begun a au) } (Reg.EXT_MISSING_REFS d) (Reg.EXT_STATE d) 0x20000
        ((e.absent au).filter fun r => !(e.missed.contains r)).length).countSticky (Reg.EXT_LOST_SLICES d) (Reg.EXT_STATE d) 0x10000
      (au.slices.filter (e.sliceLost a)).length := by
  simp only [State.extBegin, State.countSticky, List.isEmpty_iff, List.length_eq_zero_iff]
  rfl

/-! ## Marking (R128) -/

section mark
variable (e : ExtStream) (au : ExtAu) (lost : Nat)

theorem ExtStream.mark_count : (e.mark au lost).1.count = e.count := by
  unfold ExtStream.mark
  dsimp only
  repeat' split
  all_goals rfl

theorem ExtStream.mark_frozen : (e.mark au lost).1.frozen = e.frozen := by
  unfold ExtStream.mark
  dsimp only
  repeat' split
  all_goals rfl

/-- With no refresh under way the marking ends at an IRAP picture alone. -/
theorem ExtStream.mark_irap (hs : au.start = .irap) (hr : au.refs = []) :
    (e.mark au lost).1.concealing = false ∧ (e.mark au lost).2 = decide (0 < lost) := by
  have ha : e.absent au = [] := by simp [ExtStream.absent, hr]
  simp [ExtStream.mark, hs, ha]

theorem ExtStream.mark_absent (ha : e.absent au ≠ []) (hs : au.start = .no) (hf : e.refresh = []) :
    (e.mark au lost).1.concealing = true ∧ (e.mark au lost).2 = true := by
  simp [ExtStream.mark, hs, ha, hf]

theorem ExtStream.mark_complete (ha : e.absent au = []) (hs : au.start = .no) (hf : e.refresh = []) :
    (e.mark au lost).1.concealing = e.concealing ∧ (e.mark au lost).2 = (e.concealing || decide (0 < lost)) := by
  simp [ExtStream.mark, hs, ha, hf]

end mark

end Sys2Proof.Machine
end

section
/-!
PROOFS. External streams: one decoding case by case (R17, R121, R127, R128), substitutes (R128) and lost slices (R129).
-/
namespace Sys2Proof.Machine
open Sys2Proof

/-! ## Cases of EXT_AU_DECODE -/

/-- A pipeline with its domain on holds the stream (R17, R121). -/
def State.extOn (s : State) (d : Nat) : Bool := !s.dev.mediaOff && s.eng.pipes.any fun w => w.2 == .ext d

theorem State.not_extOn (s : State) (d : Nat) : (s.dev.mediaOff || !(s.eng.pipes.any fun w => w.2 == .ext d)) = !s.extOn d := by
  simp only [State.extOn, Bool.not_and, Bool.not_not]

/-- What decoding a part of AU `a` of stream `e` makes of the machine. -/
def State.extTake (s : State) (d a : Nat) (e : ExtStream) (au : ExtAu) : State :=
  if e.auLost a = true then s.extLeave d a
  else match au.sets with
    | none => State.extLeave { s with ext := tupd s.ext d fun e => { e with decoding := false } } d a
    | some q =>
      if extSupported q e.arg = false then
        ((State.bump { s with ext := tupd s.ext d fun e => { e with unsupported := true, decoding := false } } (Reg.EXT_ERRORS d)).sticky
          (Reg.EXT_STATE d) 0x40000).extLeave d a
      else if e.inWork = some a then s.extPart d a q au
      else if e.decoding = false ∧ au.start = .no then s.extLeave d a
      else (s.extBegin d a e au).extPart d a q au

section decode
variable {s : State} {d : Nat} {e : ExtStream} {au : ExtAu}

theorem exec_extAuDecode_absent (h : tget s.ext d = none) : Gives (.extAuDecode d au) s s := by
  show execExtAuDecode d au s = _
  simp only [execExtAuDecode, h, ite_self]

theorem exec_extAuDecode_idle (h : tget s.ext d = some e) (hi : e.due = false ∨ s.extOn d = false) : Gives (.extAuDecode d au) s s := by
  show execExtAuDecode d au s = _
  rw [execExtAuDecode, State.not_extOn]
  rcases hi with hi | hi
  · unfold ExtStream.due at hi
    rw [h]
    split
    · rfl
    · dsimp only
      split
      · next hf => simp [hf] at hi
      · rfl
  · rw [hi]; rfl

variable {a : Nat} {rest : List (Nat × Bool)}

theorem exec_extAuDecode_take (h : tget s.ext d = some e) (hf : e.frozen = (a, true) :: rest) (hon : s.extOn d = true) :
    exec (.extAuDecode d au) s = .next (s.extTake d a e au) := by
  show execExtAuDecode d au s = _
  rw [execExtAuDecode, State.not_extOn, hon, h, State.extTake]
  simp only [hf]
  cases au.sets <;> simp

/-- AU `a` has left the machine, its stream being `f` before; the pipeline is free (R121, R237). -/
def ExtLeft (d a : Nat) (f : ExtStream) (s t : State) : Prop :=
  tget t.ext d = some (f.left a) ∧ t.eng = { s.eng with pipes := tfilter s.eng.pipes fun _ w => w != .ext d } ∧ OtherStreams d s t

theorem extLeft_extLeave {u : State} {f : ExtStream} (hf : tget u.ext d = some f) (he : u.eng = s.eng) (ho : OtherStreams d s u) :
    ExtLeft d a f s (u.extLeave d a) :=
  ⟨State.extLeave_ext a hf, by rw [State.extLeave_eq, he], ho.trans (u.extLeave_other d a)⟩

theorem tget_ext_tupd (h : tget s.ext d = some e) (f : ExtStream → ExtStream) : tget (tupd s.ext d f) d = some (f e) := by
  rw [tget_tupd_self, h, Option.map_some]

/-! ### An AU that leaves undecoded -/

theorem extTake_lost (h : tget s.ext d = some e) (hl : e.auLost a = true) :
    Touches [.eng, .ext] s (s.extTake d a e au) ∧ ExtLeft d a e s (s.extTake d a e au) := by
  rw [State.extTake, if_pos hl]
  exact ⟨s.extLeave_touches d a, extLeft_extLeave h rfl (.refl d s)⟩

theorem extTake_noSets (h : tget s.ext d = some e) (hl : e.auLost a = false) (hs : au.sets = none) :
    Touches [.eng, .ext] s (s.extTake d a e au) ∧ ExtLeft d a { e with decoding := false } s (s.extTake d a e au) := by
  rw [State.extTake, if_neg (by simp [hl]), hs]
  exact ⟨((Touches.set_ext (by decide) _).mpr (.refl _ s)).trans (State.extLeave_touches ..),
    extLeft_extLeave (tget_ext_tupd h _) rfl (otherStreams_tupd d s _)⟩

variable {q : ExtSets}

theorem extTake_unsupported (h : tget s.ext d = some e) (hl : e.auLost a = false) (hs : au.sets = some q)
    (hq : extSupported q e.arg = false) :
    Touches [.regs, .eng, .ext] s (s.extTake d a e au)
      ∧ ExtLeft d a { e with unsupported := true, decoding := false } s (s.extTake d a e au)
      ∧ (s.extTake d a e au).regs = ((s.bump (Reg.EXT_ERRORS d)).sticky (Reg.EXT_STATE d) 0x40000).regs := by
  rw [State.extTake, if_neg (by simp [hl]), hs]
  dsimp only
  rw [if_pos hq]
  refine ⟨?_, ?_, rfl⟩
  · exact ((((Touches.set_ext (by decide) _).mpr (.refl _ s)).then (State.bump_touches ..) (by decide)).then
      (State.sticky_touches ..) (by decide)).then (State.extLeave_touches ..) (by decide)
  · exact extLeft_extLeave (tget_ext_tupd h _) rfl (otherStreams_tupd d s _)

section supported
variable (hl : e.auLost a = false) (hs : au.sets = some q) (hq : extSupported q e.arg = true)
include hl hs hq

theorem extTake_supported : s.extTake d a e au = if e.inWork = some a then s.extPart d a q au
    else if e.decoding = false ∧ au.start = .no then s.extLeave d a else (s.extBegin d a e au).extPart d a q au := by
  rw [State.extTake, if_neg (by simp [hl]), hs]
  exact if_neg (by simp [hq])

theorem extTake_passedOver (h : tget s.ext d = some e) (hw : e.inWork ≠ some a) (hd : e.decoding = false) (hn : au.start = .no) :
    Touches [.eng, .ext] s (s.extTake d a e au) ∧ ExtLeft d a e s (s.extTake d a e au) := by
  rw [extTake_supported hl hs hq, if_neg hw, if_pos ⟨hd, hn⟩]
  exact ⟨s.extLeave_touches d a, extLeft_extLeave h rfl (.refl d s)⟩

/-! ### A part of an AU in decoding -/

omit hl hs hq in
theorem extPart_silent_does {f : ExtStream} (ho : au.outs = []) (h : tget s.ext d = some f) :
    Touches [.eng, .ext] s (s.extPart d a q au) ∧ (au.done = true → ExtLeft d a (f.joined a q au) s (s.extPart d a q au))
      ∧ (au.done = false → tget (s.extPart d a q au).ext d = some (f.joined a q au) ∧ (s.extPart d a q au).eng = s.eng) := by
  have hj : Touches [.eng, .ext] s { s with ext := tupd s.ext d (ExtStream.joined a q au) } :=
    (Touches.set_ext (by decide) _).mpr (.refl _ s)
  rw [s.extPart_silent q ho]
  cases hd : au.done with
  | true => exact ⟨hj.trans (State.extLeave_touches ..), fun _ => extLeft_extLeave (tget_ext_tupd h _) rfl (otherStreams_tupd d s _), nofun⟩
  | false => exact ⟨hj, nofun, fun _ => ⟨tget_ext_tupd h _, rfl⟩⟩

theorem extTake_inWork (hw : e.inWork = some a) : s.extTake d a e au = s.extPart d a q au := by
  rw [extTake_supported hl hs hq, if_pos hw]

theorem extTake_begin (hw : e.inWork ≠ some a) (hb : (e.decoding || au.start != .no) = true) :
    s.extTake d a e au = (s.extBegin d a e au).extPart d a q au := by
  rw [extTake_supported hl hs hq, if_neg hw, if_neg]
  rintro ⟨hd, hn⟩
  simp [hd, hn] at hb

end supported

/-! ### The beginning of a decoding -/

theorem extBegin_stream : tget (s.extBegin d a e au).ext d = some (e.begun a au) := by
  rw [State.extBegin_eq, (State.countSticky_touches ..).same .ext (by decide), (State.countSticky_touches ..).same .ext (by decide)]
  exact tget_tset_self ..

theorem extBegin_other : OtherStreams d s (s.extBegin d a e au) := by
  rw [State.extBegin_eq]
  exact (otherStreams_tset d s _).trans (.of_ext
    (((State.countSticky_touches ..).trans (State.countSticky_touches ..)).same .ext (by decide)))

theorem extBegin_lostSlices : (s.extBegin d a e au).rd (Reg.EXT_LOST_SLICES d)
    = s.rd (Reg.EXT_LOST_SLICES d) + BitVec.ofNat 32 (au.slices.filter (e.sliceLost a)).length := by
  rw [State.extBegin_eq, State.countSticky_rd_self _ _ _ (by unfold Reg.EXT_STATE Reg.EXT_LOST_SLICES; omega),
    State.countSticky_rd_ne _ _ _ (by unfold Reg.EXT_MISSING_REFS Reg.EXT_LOST_SLICES; omega)
      (by unfold Reg.EXT_STATE Reg.EXT_LOST_SLICES; omega)]
  rfl

theorem extBegin_missingRefs : (s.extBegin d a e au).rd (Reg.EXT_MISSING_REFS d)
    = s.rd (Reg.EXT_MISSING_REFS d) + BitVec.ofNat 32 ((e.absent au).filter fun r => !(e.missed.contains r)).length := by
  rw [State.extBegin_eq, State.countSticky_rd_ne _ _ _ (by unfold Reg.EXT_MISSING_REFS Reg.EXT_LOST_SLICES; omega)
      (by unfold Reg.EXT_STATE Reg.EXT_MISSING_REFS; omega),
    State.countSticky_rd_self _ _ _ (by unfold Reg.EXT_STATE Reg.EXT_MISSING_REFS; omega)]
  rfl

theorem extBegin_rd_ne {off : Nat} (h : off ∉ [Reg.EXT_MISSING_REFS d, Reg.EXT_LOST_SLICES d, Reg.EXT_STATE d]) :
    (s.extBegin d a e au).rd off = s.rd off := by
  simp only [List.mem_cons, List.not_mem_nil, or_false, not_or] at h
  obtain ⟨hm, hl, hs⟩ := h
  rw [State.extBegin_eq, State.countSticky_rd_ne _ _ _ (Ne.symm hl) (Ne.symm hs), State.countSticky_rd_ne _ _ _ (Ne.symm hm) (Ne.symm hs)]
  rfl

/-- The picture just begun is held last, as it is marked, and not yet shown. -/
theorem ExtStream.begun_joined_last (e : ExtStream) (a : Nat) (q : ExtSets) (au : ExtAu) :
    ((e.begun a au).joined a q au).held.getLast?.map (fun h => (h.poc, h.concealed, h.shown))
      = some (au.poc, (e.mark au (au.slices.filter (e.sliceLost a)).length).2, false) := by
  simp [ExtStream.joined, ExtStream.begun, ExtPic.add]

end decode

/-! ## Substitutes (R128) -/

/-- POC `b` lies nearer to `p` than `c`, or as near and not above it. -/
def nearestPoc (p b c : Int) : Bool :=
  decide ((b - p).natAbs < (c - p).natAbs) || ((b - p).natAbs == (c - p).natAbs && decide (b ≤ c))

theorem nearestPoc_iff {p b c : Int} : nearestPoc p b c = true ↔
    (b - p).natAbs < (c - p).natAbs ∨ (b - p).natAbs = (c - p).natAbs ∧ b ≤ c := by simp [nearestPoc]

theorem nearestPoc_trans {p b c x : Int} (h : nearestPoc p b c = true) (g : nearestPoc p c x = true) : nearestPoc p b x = true := by
  rw [nearestPoc_iff] at *
  omega

/-- The nearer of the nearest so far and one more held picture. -/
def nearerPoc (p : Int) (a : Option Int) (h : ExtPic) : Option Int :=
  match a with
  | none => some h.poc
  | some b => if (h.poc - p).natAbs < (b - p).natAbs ∨ ((h.poc - p).natAbs = (b - p).natAbs ∧ h.poc < b) then some h.poc else some b

theorem ExtStream.substitute_eq (e : ExtStream) (p : Int) : e.substitute p = e.held.foldl (nearerPoc p) none := rfl

theorem nearerPoc_some (p b : Int) (h : ExtPic) : ∃ c, nearerPoc p (some b) h = some c ∧ (c = b ∨ c = h.poc) ∧ nearestPoc p c b = true
    ∧ nearestPoc p c h.poc = true := by
  simp only [nearestPoc_iff]
  by_cases hn : (h.poc - p).natAbs < (b - p).natAbs ∨ ((h.poc - p).natAbs = (b - p).natAbs ∧ h.poc < b)
  · exact ⟨h.poc, if_pos hn, .inr rfl, by omega, by omega⟩
  · exact ⟨b, if_neg hn, .inl rfl, by omega, by omega⟩

theorem foldl_nearerPoc (p : Int) (l : List ExtPic) (b : Int) : ∃ c, l.foldl (nearerPoc p) (some b) = some c
    ∧ (c = b ∨ ∃ h ∈ l, h.poc = c) ∧ nearestPoc p c b = true ∧ ∀ h ∈ l, nearestPoc p c h.poc = true := by
  induction l generalizing b with
  | nil => exact ⟨b, rfl, .inl rfl, by rw [nearestPoc_iff]; omega, nofun⟩
  | cons h l ih =>
    obtain ⟨c, hc, hm, hb, hh⟩ := nearerPoc_some p b h
    obtain ⟨x, hx, hxm, hxc, hxl⟩ := ih c
    refine ⟨x, by rw [List.foldl_cons, hc, hx], ?_, nearestPoc_trans hxc hb, ?_⟩
    · rcases hxm with rfl | ⟨y, hy, hyx⟩
      · exact hm.imp id fun hp => ⟨h, List.mem_cons_self .., hp.symm⟩
      · exact .inr ⟨y, List.mem_cons_of_mem _ hy, hyx⟩
    · exact List.forall_mem_cons.2 ⟨nearestPoc_trans hxc hh, hxl⟩

theorem ExtStream.substitute_nearest (e : ExtStream) (p : Int) : (e.substitute p = none ↔ e.held = [])
    ∧ ∀ b, e.substitute p = some b → e.held.any (fun h => h.poc == b) = true ∧ e.held.all (fun h => nearestPoc p b h.poc) = true := by
  rw [e.substitute_eq]
  cases e.held with
  | nil => exact ⟨⟨fun _ => rfl, fun _ => rfl⟩, nofun⟩
  | cons h l =>
    obtain ⟨c, hc, hm, hb, hl⟩ := foldl_nearerPoc p l h.poc
    rw [List.foldl_cons, nearerPoc, hc]
    refine ⟨⟨nofun, nofun⟩, fun b hcb => ?_⟩
    obtain rfl := Option.some.inj hcb
    refine ⟨List.any_eq_true.2 ?_, List.all_eq_true.2 (List.forall_mem_cons.2 ⟨hb, hl⟩)⟩
    rcases hm with rfl | ⟨y, hy, hyc⟩
    · exact ⟨h, List.mem_cons_self .., beq_self_eq_true _⟩
    · exact ⟨y, List.mem_cons_of_mem _ hy, beq_iff_eq.2 hyc⟩

/-! ## Lost slices (R127, R129) -/

theorem mem_rangeFrom {a n k : Nat} : k ∈ rangeFrom a n ↔ a ≤ k ∧ k < a + n := by
  simp only [rangeFrom, List.mem_map, List.mem_range]
  exact ⟨fun ⟨i, hi, hk⟩ => by omega, fun ⟨h, hk⟩ => ⟨k - a, by omega, by omega⟩⟩

theorem ExtStream.sliceLost_iff (e : ExtStream) (a : Nat) (x : ExtSlice) : e.sliceLost a x = true ↔
    x.parses = false ∨ (List.range (x.last + 1)).any (fun q => decide (x.first ≤ q) && e.gone a q) = true := by
  have hr : (rangeFrom x.first (x.last + 1 - x.first)).any (e.gone a) = true ↔
      (List.range (x.last + 1)).any (fun q => decide (x.first ≤ q) && e.gone a q) = true := by
    simp only [List.any_eq_true, mem_rangeFrom, List.mem_range, Bool.and_eq_true, decide_eq_true_eq]
    exact exists_congr fun q => by constructor <;> rintro ⟨h, g⟩ <;> grind
  rw [ExtStream.sliceLost, Bool.or_eq_true, hr, Bool.not_eq_true']

/-! ## The statement -/

section settle
variable {s : State} {d a : Nat} {e : ExtStream} {au : ExtAu} {rest : List (Nat × Bool)}

theorem does_extAuDecode {l : List Fld} {r : Nat → Prop} {P : State → Prop} (h : tget s.ext d = some e)
    (hf : e.frozen = (a, true) :: rest) (hon : s.extOn d = true) (ht : Touches l s (s.extTake d a e au))
    (hr : ∀ off, ¬ r off → (s.extTake d a e au).rd off = s.rd off) (hp : P (s.extTake d a e au)) : Does (.extAuDecode d au) s l r P :=
  ⟨_, exec_extAuDecode_take h hf hon, ht, hr, hp⟩

theorem extTake_other : OtherStreams d s (s.extTake d a e au) := by
  unfold State.extTake
  split
  · exact s.extLeave_other d a
  · split
    · exact (otherStreams_tupd d s _).trans (State.extLeave_other _ d a)
    · split
      · exact (otherStreams_tupd d s _).trans (State.extLeave_other _ d a)
      · split
        · exact s.extPart_other d _ au
        · split
          · exact s.extLeave_other d a
          · exact extBegin_other.trans (State.extPart_other _ d _ au)

/-- The frame of EXT_AU_DECODE, whatever it finds. -/
theorem does_extAuDecode_others (h : tget s.ext d = some e) (hf : e.frozen = (a, true) :: rest) (hon : s.extOn d = true) :
    Does (.extAuDecode d au) s [.regs, .chans, .eng, .ext] anyReg (OtherStreams d s) :=
  ⟨_, exec_extAuDecode_take h hf hon, (execExtAuDecode_touches d au s).row (exec_extAuDecode_take h hf hon),
    fun _ hr => absurd trivial hr, extTake_other⟩

theorem does_extAuDecode_left {f : ExtStream} (h : tget s.ext d = some e) (hf : e.frozen = (a, true) :: rest) (hon : s.extOn d = true)
    (ht : Touches [.eng, .ext] s (s.extTake d a e au) ∧ ExtLeft d a f s (s.extTake d a e au)) :
    Does (.extAuDecode d au) s [.eng, .ext] noReg (ExtLeft d a f s) :=
  does_of_touches (exec_extAuDecode_take h hf hon) ht.1 (by decide) ht.2

variable {q : ExtSets} (h : tget s.ext d = some e) (hf : e.frozen = (a, true) :: rest) (hon : s.extOn d = true)
  (hl : e.auLost a = false) (hs : au.sets = some q)
include h hf hon hl hs

theorem does_extAuDecode_unsupported (hq : extSupported q e.arg = false) : Does (.extAuDecode d au) s [.regs, .eng, .ext]
    (regIn [Reg.EXT_ERRORS d, Reg.EXT_STATE d]) fun t => t.rd (Reg.EXT_ERRORS d) = s.rd (Reg.EXT_ERRORS d) + 1
      ∧ ExtLeft d a { e with unsupported := true, decoding := false } s t := by
  obtain ⟨ht, hleft, hregs⟩ := extTake_unsupported h hl hs hq (au := au)
  have hrd (off : Nat) : (s.extTake d a e au).rd off = bget ((s.bump (Reg.EXT_ERRORS d)).sticky (Reg.EXT_STATE d) 0x40000).regs off :=
    congrArg (bget · off) hregs
  refine ⟨_, exec_extAuDecode_take h hf hon, ht, fun off ho => ?_, ?_, hleft⟩
  · simp only [regIn, List.mem_cons, List.not_mem_nil, or_false, not_or] at ho
    obtain ⟨he, hst⟩ := ho
    rw [hrd, State.sticky_regs, bget_bset_ne (Ne.symm hst), State.bump_regs, bget_bset_ne (Ne.symm he), State.rd_eq]
  · rw [hrd, State.sticky_regs, bget_bset_ne (by unfold Reg.EXT_STATE Reg.EXT_ERRORS; omega), State.bump_regs, bget_bset_self,
      State.rd_eq]

variable (hq : extSupported q e.arg = true) (ho : au.outs = [])
include hq ho

theorem does_extAuDecode_inWork (hw : e.inWork = some a) : Does (.extAuDecode d au) s [.eng, .ext] noReg fun t =>
    (au.done = true → ExtLeft d a (e.joined a q au) s t) ∧ (au.done = false → tget t.ext d = some (e.joined a q au) ∧ t.eng = s.eng) := by
  obtain ⟨ht, hp⟩ := extPart_silent_does (a := a) (q := q) ho h
  rw [← extTake_inWork hl hs hq hw] at ht hp
  exact does_of_touches (exec_extAuDecode_take h hf hon) ht (by decide) hp

theorem does_extAuDecode_begin (hw : e.inWork ≠ some a) (hb : (e.decoding || au.start != .no) = true) :
    Does (.extAuDecode d au) s [.regs, .eng, .ext] (regIn [Reg.EXT_MISSING_REFS d, Reg.EXT_LOST_SLICES d, Reg.EXT_STATE d]) fun t =>
      let lost := au.slices.filter (e.sliceLost a)
      t.rd (Reg.EXT_LOST_SLICES d) = s.rd (Reg.EXT_LOST_SLICES d) + BitVec.ofNat 32 lost.length
      ∧ t.rd (Reg.EXT_MISSING_REFS d) =
        s.rd (Reg.EXT_MISSING_REFS d) + BitVec.ofNat 32 (((e.absent au).filter fun r => !(e.missed.contains r)).length)
      ∧ (∃ f, tget t.ext d = some f ∧ f.decoding = true ∧ f.unsupported = false ∧ f.count = e.count + 1
        ∧ f.held.getLast?.map (fun h => (h.poc, h.concealed, h.shown)) = some (au.poc, (e.mark au lost.length).2, false)
        ∧ (au.done = true → f.inWork = none ∧ f.frozen = e.frozen.filter fun x => x.1 != a)
        ∧ (au.done = false → f.inWork = some a ∧ f.frozen = e.frozen
            ∧ f.subs = (e.absent au).map fun r => (r, e.substitute (refPoc r au.poc))))
      ∧ t.eng = { s.eng with pipes := if au.done then tfilter s.eng.pipes fun _ w => w != .ext d else s.eng.pipes } := by
  have heng : (s.extBegin d a e au).eng = s.eng := (s.extBegin_touches d a e au).same .eng (by decide)
  obtain ⟨ht, hdone, hmore⟩ := extPart_silent_does (a := a) (q := q) ho (extBegin_stream (s := s) (d := d) (a := a) (e := e) (au := au))
  have hrd (off : Nat) : ((s.extBegin d a e au).extPart d a q au).rd off = (s.extBegin d a e au).rd off := ht.rd_eq (by decide) off
  rw [heng] at hmore
  refine ⟨_, (exec_extAuDecode_take h hf hon).trans (congrArg _ (extTake_begin hl hs hq hw hb)), ?_, fun off hr => ?_, ?_, ?_, ?_, ?_⟩
  · exact ((s.extBegin_touches d a e au).mono (by decide)).then ht (by decide)
  · rw [hrd, extBegin_rd_ne hr]
  · rw [hrd, extBegin_lostSlices]
  · rw [hrd, extBegin_missingRefs]
  · have hcount : ((e.begun a au).joined a q au).count = e.count + 1 := congrArg (· + 1) (e.mark_count au _)
    have hfrozen : ((e.begun a au).joined a q au).frozen = e.frozen := e.mark_frozen au _
    have hlast := e.begun_joined_last a q au
    cases hd : au.done with
    | true => exact ⟨_, (hdone hd).1, rfl, rfl, hcount, hlast, fun _ => ⟨rfl, by rw [← hfrozen]; rfl⟩, nofun⟩
    | false => exact ⟨_, (hmore hd).1, rfl, rfl, hcount, hlast, nofun, fun _ => ⟨rfl, hfrozen, rfl⟩⟩
  · cases hd : au.done with
    | true => rw [(hdone hd).2.1, heng]; rfl
    | false => exact (hmore hd).2

end settle

/-- Settles O44: the freeze, the gap deadline, each case of a decoding, then marking, substitutes and lost slices for themselves. -/
theorem externalStreams : Obligations.ExternalStreams := by
  unfold Obligations.ExternalStreams
  refine ⟨fun s d au h => ⟨exec_extAuFreeze_none h, ?gapNone, exec_extAuDecode_absent h⟩,
    fun s d e h => ⟨exec_extAuFreeze_empty h, fun q a next hh hm => ?freeze, ?gap⟩,
    fun s d e au h => ⟨exec_extAuDecode_idle h, fun a rest hf hon => ⟨fun hl => ?_, fun hl hs => ?_, fun q hl hs hq => ?_,
      fun q hl hs hq => ⟨fun hw hd hn => ?_, fun hw ho => ?_, fun hw hb ho => ?_, does_extAuDecode_others h hf hon⟩⟩⟩,
    fun e au lost => ⟨fun hs hr => e.mark_irap au lost hs hr, e.mark_absent au lost, e.mark_complete au lost⟩,
    ExtStream.substitute_nearest, ExtStream.sliceLost_iff⟩
  case gapNone =>
    show execExtGapDeadline d s = _
    rw [execExtGapDeadline, tupd_of_none h, tupd_of_none h]
  case freeze =>
    obtain ⟨t, ht, htouch, hother, hd⟩ := exec_extAuFreeze_single h hh hm
    exact does_of_touches ht htouch (by decide) ⟨hother, hd⟩
  case gap =>
    refine does_of_touches rfl ((Touches.set_ext (by decide) _).mpr (.refl _ s)) (by decide)
      ⟨otherStreams_tupd d s _, _, tget_ext_tupd h _, fun a b r hf => ?_, fun hf => ?_⟩ <;> rw [hf]
  · exact does_extAuDecode_left h hf hon (extTake_lost h hl)
  · exact does_extAuDecode_left h hf hon (extTake_noSets h hl hs)
  · exact does_extAuDecode_unsupported h hf hon hl hs hq
  · exact does_extAuDecode_left h hf hon (extTake_passedOver hl hs hq h hw hd hn)
  · exact does_extAuDecode_inWork h hf hon hl hs hq ho hw
  · exact does_extAuDecode_begin h hf hon hl hs hq ho hw hb

end Sys2Proof.Machine
end

section
/-!
PROOFS. Loss of lock and of reference clocks (R12, R22, R275, R420): what a fatal error stops, what becomes of links and ports, and each
clock's loss.
-/
namespace Sys2Proof.Machine
open Sys2Proof

/-! ## The log and the mailboxes after an event -/

theorem State.raise_enters (s : State) (code sev obj detail : Nat) : Entered code obj detail (s.raise code sev obj detail) :=
  s.raise_entered code sev obj detail

theorem Entered.of_log {code obj detail : Nat} {s t : State} (h : Entered code obj detail s) (hl : t.log = s.log) :
    Entered code obj detail t := by
  obtain ⟨e, r, he, hc⟩ := h
  exact ⟨e, r, hl.trans he, hc⟩

/-- A cause of an interrupt moves the pending bits alone. -/
theorem State.signal_mbx (s : State) (v : Nat) :
    ({ (s.signal v).mbx with msixPend := 0 } : MbxState) = { s.mbx with msixPend := 0 } := by
  unfold State.signal
  split
  · rfl
  · split <;> rfl

theorem State.raise_mbx (s : State) (code sev obj detail : Nat) :
    ({ (s.raise code sev obj detail).mbx with msixPend := 0 } : MbxState) = { s.mbx with msixPend := 0 } := State.signal_mbx ..

theorem State.raise_sessions (s : State) (code sev obj detail : Nat) : (s.raise code sev obj detail).mbx.sessions = s.mbx.sessions :=
  (congrArg MbxState.sessions (s.raise_mbx code sev obj detail) :)

theorem State.raise_journal (s : State) (code sev obj detail : Nat) : (s.raise code sev obj detail).mbx.journal = s.mbx.journal :=
  (congrArg MbxState.journal (s.raise_mbx code sev obj detail) :)

/-! ## A fatal error (R420) -/

/-- A shutdown self-test under way ends (R446). -/
def State.testEnded (s : State) : State := if s.dev.state == .testing then s.endTest else s

/-- No transmitter has anything left to send (R12). -/
def State.sendersEmptied (s : State) : State :=
  { s with tx := tmap s.tx fun _ t => { t with queued := [], ctl := [], held := [], catchup := [] } }

/-- A group member is DETACHED (R420). -/
def State.groupDetached (s : State) : State :=
  if s.member then { s with grp := { s.grp with role := .detached, handover := none, targetOf := none } } else s

/-- The machine once a fatal error has stopped it, before it is recorded. -/
def State.stoppedFatal (s : State) : State := (s.testEnded.stopAll.emit .idles).sendersEmptied.groupDetached

/-- The device's record of a fatal error in DEV_LAST_FATAL. -/
def State.fatalDev (s : State) (code obj : Nat) : DevBlock :=
  { s.dev with
    fatal := true, lastCode := code, lastObj := obj, lastS := s.time.sec % 2 ^ 32, lastNs := s.time.ns
    nvm := { s.dev.nvm with fatalAfterRecord := true } }

theorem State.fatal_eq (s : State) (code obj detail : Nat) : s.fatal code obj detail
    = State.raise { s.stoppedFatal with dev := s.stoppedFatal.fatalDev code obj } code 3 obj detail := rfl

section fatal
variable (s : State) (code obj detail : Nat)

theorem State.testEnded_unlocked : s.testEnded.dev.unlocked = s.dev.unlocked := by
  unfold State.testEnded State.endTest
  split
  · simp only [State.raise_dev]
    split <;> rfl
  · rfl

theorem State.testEnded_sessions : s.testEnded.mbx.sessions = s.mbx.sessions := by
  unfold State.testEnded
  split
  · exact State.raise_sessions ..
  · rfl

theorem State.testEnded_grp : s.testEnded.grp = s.grp := by
  unfold State.testEnded
  split
  · exact (s.endTest_touches).same .grp (by decide)
  · rfl

theorem State.groupDetached_touches : Touches [.grp] s s.groupDetached := by
  unfold State.groupDetached
  split
  · exact (Touches.set_grp (by decide) _).mpr (.refl ..)
  · exact .refl ..

theorem State.stoppedFatal_unlocked : s.stoppedFatal.dev.unlocked = s.dev.unlocked := by
  rw [State.stoppedFatal, (State.groupDetached_touches _).same .dev (by decide)]
  show s.testEnded.stopAll.dev.unlocked = _
  rw [State.stopAll_dev, State.testEnded_unlocked]

theorem State.stoppedFatal_sessions : s.stoppedFatal.mbx.sessions = s.mbx.sessions := by
  rw [State.stoppedFatal, (State.groupDetached_touches _).same .mbx (by decide)]
  show s.testEnded.stopAll.mbx.sessions = _
  rw [State.stopAll_mbx, State.testEnded_sessions]

theorem Chan.fatalStop_inactive (ch : Chan) : ch.fatalStop.st.active = false := by
  unfold Chan.fatalStop
  split
  · rfl
  · next h => simpa using h

theorem State.stoppedFatal_inactive {c : Nat} {ch : Chan} (h : tget s.stoppedFatal.chans c = some ch) : ch.st.active = false := by
  rw [State.stoppedFatal, (State.groupDetached_touches _).same .chans (by decide)] at h
  have hm : tget (tmap s.testEnded.stopSticky.chans fun _ ch => ch.fatalStop) c = some ch := h
  rw [tget_tmap, Option.map_eq_some_iff] at hm
  obtain ⟨x, -, rfl⟩ := hm
  exact x.fatalStop_inactive

theorem State.stoppedFatal_idle {i : Nat} {x : TxIface} (h : tget s.stoppedFatal.tx i = some x) : x.queued = [] ∧ x.ctl = [] := by
  rw [State.stoppedFatal, (State.groupDetached_touches _).same .tx (by decide), State.sendersEmptied, tget_tmap,
    Option.map_eq_some_iff] at h
  obtain ⟨y, -, rfl⟩ := h
  exact ⟨rfl, rfl⟩

theorem State.stoppedFatal_role (h : s.member = true) : s.stoppedFatal.grp.role = .detached := by
  have hg : (s.testEnded.stopAll.emit .idles).sendersEmptied.grp = s.grp := by
    show s.testEnded.stopAll.grp = _
    rw [State.stopAll_grp, State.testEnded_grp]
  have hm : (s.testEnded.stopAll.emit .idles).sendersEmptied.member = true := by
    rw [State.member, hg]
    exact h
  rw [State.stoppedFatal, State.groupDetached, if_pos hm]

/-- What a fatal error leaves, whatever its cause: `d` is its object (R12, R420). -/
def Stopped (s u : State) (d : Domain) : Prop :=
  u.dev.fatal = true ∧ u.dev.lastCode = 0x0073 ∧ u.dev.lastObj = domainCode d
    ∧ Entered 0x0073 (domainCode d) 0 u ∧ (∀ c ch, tget u.chans c = some ch → ch.st.active = false)
    ∧ (∀ i x, tget u.tx i = some x → x.queued = [] ∧ x.ctl = [])
    ∧ (s.member = true → u.grp.role = .detached) ∧ u.mbx.sessions = s.mbx.sessions ∧ u.time = s.time
    ∧ Touches [.regs, .dev, .log, .logSeq, .mbx, .chans, .tx, .grp, .out] s u

theorem State.fatal_unlocked : (s.fatal code obj detail).dev.unlocked = s.dev.unlocked := by
  rw [State.fatal_eq, State.raise_dev]
  exact s.stoppedFatal_unlocked

variable {s} in
theorem stopped_fatal (ds : List Domain) (d : Domain) : Stopped s ((s.unlock ds).fatal 0x0073 (domainCode d) 0) d := by
  have ht : Touches [.regs, .dev, .log, .logSeq, .mbx, .chans, .tx, .grp, .out] s ((s.unlock ds).fatal 0x0073 (domainCode d) 0) :=
    ((s.unlock_touches ds).mono (by decide)).trans (State.fatal_touches ..)
  refine ⟨?_, ?_, ?_, ?_, fun c ch h => ?_, fun i x h => ?_, fun h => ?_, ?_, ht.same .time (by decide), ht⟩
  · rw [State.fatal_eq, State.raise_dev]; rfl
  · rw [State.fatal_eq, State.raise_dev]; rfl
  · rw [State.fatal_eq, State.raise_dev]; rfl
  · exact State.raise_enters ..
  · rw [State.fatal_eq, State.raise_chans] at h
    exact State.stoppedFatal_inactive _ h
  · rw [State.fatal_eq, State.raise_tx] at h
    exact State.stoppedFatal_idle _ h
  · rw [State.fatal_eq, State.raise_grp]
    exact State.stoppedFatal_role (s.unlock ds) h
  · rw [State.fatal_eq, State.raise_sessions]
    exact State.stoppedFatal_sessions (s.unlock ds)

theorem State.mem_unlock {ds : List Domain} {d : Domain} (h : d ∈ ds) : d ∈ (s.unlock ds).dev.unlocked := by
  simp only [State.unlock, List.mem_append, List.mem_filter, List.contains_eq_mem]
  by_cases hd : d ∈ s.dev.unlocked <;> simp [h, hd]

theorem State.mem_unlock_fatal {ds : List Domain} {d : Domain} (h : d ∈ ds) : d ∈ ((s.unlock ds).fatal code obj detail).dev.unlocked := by
  rw [State.fatal_unlocked]
  exact s.mem_unlock h

theorem exec_pllUnlock_stopping {d : Domain} (h : d ∈ stoppingDomains) :
    exec (.pllUnlock d) s = .next ((s.unlock [d]).fatal 0x0073 (domainCode d) 0).settle := by
  simp only [stoppingDomains, List.mem_cons, List.not_mem_nil, or_false] at h
  rcases h with rfl | rfl | rfl | rfl | rfl | rfl | rfl | rfl <;> rfl

end fatal

/-! ## Interfaces (R176, R274, R275) -/

section interfaces
variable (s : State)

theorem State.linkDown_linkUp (i j : Nat) : ((s.linkDown i).iface j).linkUp = (decide (i ≠ j) && (s.iface j).linkUp) := by
  unfold State.linkDown
  split
  · have hn : ∀ t : State, (((t.dropEligible i).ptpLinkDown i).standDownCheck).iface j = t.iface j := fun t =>
      congrArg (fun n : NetState => tgetD n.ifaces j {}) ((((State.dropEligible_touches t i).same .net (by decide)).symm.trans
        (((State.ptpLinkDown_touches _ i).same .net (by decide)).symm.trans
          ((State.standDownCheck_touches _).same .net (by decide)).symm)).symm)
    rw [hn]
    by_cases hij : i = j
    · subst hij
      simp [State.iface, State.updIface]
    · simp [State.iface, State.updIface, hij, tgetD_tset_ne]
  · next hu =>
    by_cases hij : i = j
    · subst hij; simpa using hu
    · simp [hij]

theorem foldl_linkDown_linkUp (l : List Nat) (j : Nat) :
    ((l.foldl (fun (t : State) i => t.linkDown i) s).iface j).linkUp = (decide (j ∉ l) && (s.iface j).linkUp) := by
  induction l generalizing s with
  | nil => simp
  | cons i l ih =>
    rw [List.foldl_cons, ih, State.linkDown_linkUp]
    by_cases hij : i = j
    · simp [hij]
    · simp [hij, Ne.symm hij]

/-- With the reference of the Ethernet lanes gone every interface is down. -/
theorem State.ethLost_linkUp {i : Nat} (hi : i < 16) : (s.ethLost.iface i).linkUp = false := by
  unfold State.ethLost
  dsimp only
  rw [foldl_linkDown_linkUp]
  simp [hi]

end interfaces

/-! ## Ports (R272, R273, R275) -/

section ports
variable (s : State)

theorem State.retrainLanes_ports (q : Nat) : (s.retrainLanes q).lane.ports = s.lane.ports := by
  unfold State.retrainLanes
  refine foldl_keep (fun t : State => t.lane.ports) (fun _ _ => ?_) _ _
  rfl

theorem State.updPort_st (q k : Nat) (f : Port → Port) :
    ((s.updPort q f).portOf k).st = if q = k then (f (s.portOf k)).st else (s.portOf k).st := by
  simp only [State.portOf, State.updPort, tgetD, tget_tset]
  split
  · next h => rw [h]; rfl
  · rfl

theorem State.portOf_congr {s t : State} (h : t.lane.ports = s.lane.ports) (k : Nat) : t.portOf k = s.portOf k :=
  congrArg (fun l : Tab Port => tgetD l k {}) h

/-- A port that fails is FAILED; the others stay. -/
theorem State.failPort_st (q cause k : Nat) : ((s.failPort q cause).portOf k).st = if q = k then .failed else (s.portOf k).st := by
  unfold State.failPort
  split
  · next h =>
    split
    · next hk => exact hk ▸ beq_iff_eq.1 h
    · rfl
  · extract_lets u v w
    have hw : w.lane.ports = u.lane.ports := by
      show (State.linkRestart _ q).lane.ports = _
      rw [(State.linkRestart_touches _ q).same .lane (by decide), State.retrainLanes_ports]
    have hl : (if q < 2 then w.legFailed q cause else w).lane = w.lane := by
      split
      · exact (w.legFailed_touches q cause).same .lane (by decide)
      · rfl
    rw [State.portOf_congr ((congrArg LaneState.ports hl).trans hw) k]
    exact s.updPort_st q k _

theorem foldl_failPort_st (l : List Nat) (cause k : Nat) :
    ((l.foldl (fun (t : State) q => t.failPort q cause) s).portOf k).st = if k ∈ l then .failed else (s.portOf k).st := by
  induction l generalizing s with
  | nil => simp
  | cons q l ih =>
    rw [List.foldl_cons, ih, State.failPort_st]
    by_cases hk : k ∈ l
    · simp [hk]
    · simp [hk, @eq_comm _ k q]

theorem State.portClockLost_st (q k : Nat) : ((s.portClockLost q).portOf k).st = if q = k then .failed else (s.portOf k).st := by
  unfold State.portClockLost
  rw [State.failPort_st, State.portOf_congr (s := s)]
  refine foldl_keep (fun t : State => t.lane.ports) (fun _ _ => ?_) _ _
  rfl

/-- A port that was FAILED brings up again. -/
theorem foldl_bringUp_st (l : List Nat) {k : Nat} (h : k ∈ l ∨ (s.portOf k).st ≠ .failed) :
    ((l.foldl (fun (t : State) q => if (t.portOf q).st == .failed then t.updPort q fun p => { p with st := .down } else t) s).portOf k).st
      ≠ .failed := by
  induction l generalizing s with
  | nil => exact h.resolve_left List.not_mem_nil
  | cons q l ih =>
    rw [List.foldl_cons]
    refine ih _ ?_
    by_cases hk : k ∈ l
    · exact .inl hk
    · right
      split
      · rw [State.updPort_st]
        split
        · exact nofun
        · next hq => exact h.resolve_left (by simp [hk, Ne.symm hq])
      · next hf =>
        rcases h with h | h
        · obtain rfl : k = q := by simpa [hk] using h
          simpa using hf
        · exact h

end ports

/-! ## Resets that a loss of lock brings (R12, R315, R397) -/

section resets
variable (s : State)

theorem State.setJournal_fwReady (x : CmdCtx) (j : Tab JEntry) : (s.setJournal x j).mbx.fwReady = s.mbx.fwReady := by
  unfold State.setJournal
  split <;> rfl

theorem State.cutHeld_fwReady : s.cutHeld.mbx.fwReady = s.mbx.fwReady := by
  have hfree : ∀ (t : State) (k : HeldCmd),
      (if k.why == .hello then State.settleFree { t with grp := { t.grp with role := .detached } } else t).mbx = t.mbx := fun t k => by
    split
    · exact (State.settleFree_touches _).same .mbx (by decide)
    · rfl
  unfold State.cutHeld
  split
  · rfl
  · dsimp only
    rw [hfree]
    split
    · split
      · exact State.setJournal_fwReady ..
      · rfl
    · split
      · exact State.setJournal_fwReady ..
      · rfl

theorem State.cutSessions_fwReady : s.cutSessions.mbx.fwReady = s.mbx.fwReady := by
  unfold State.cutSessions
  dsimp only
  refine (foldl_keep (fun t : State => t.mbx.fwReady) (fun _ _ => ?_) _ _).trans ?_ <;> rfl

/-- The machine as a control-complex reset finds it, its cause recorded and firmware no longer ready. -/
def State.ctlHalted (s : State) (cause core : Nat) : State :=
  { s with
    ctl := { s.ctl.noteReset s.time.up with
      cores := 0, restarting := true, lastCause := cause, lastCore := core, slots := [], running := [], ready := [], spill := [] }
    mbx := { s.mbx with fwReady := false }
    dev := { s.dev with
      resetKind := 3, test := if s.dev.state == DevState.testing then { s.dev.test with stopping := true } else s.dev.test } }

/-- Everything that ends with the control complex has ended (R315). -/
def State.ctlCut (s : State) : State := (s.bump Reg.HAL_CTRL_RESETS).cutHeld.cutForwarded.cutSessions.dropUncommitted

theorem State.ctlReset_eq (cause core : Nat) : s.ctlReset cause core
    = State.resetMaster { (s.ctlHalted cause core).ctlCut with fresh := (s.ctlHalted cause core).ctlCut.fresh + 1 } 23
      (Config.inFlight (s.ctlHalted cause core).ctlCut.fresh) := rfl

theorem State.ctlCut_touches : Touches [.regs, .mbx, .grp, .rat, .chans] s s.ctlCut :=
  (((((s.bump_touches _).mono (by decide)).then (State.cutHeld_touches _) (by decide)).then (State.cutForwarded_touches _) (by decide)).then
    (State.cutSessions_touches _) (by decide)).then (State.dropUncommitted_touches _) (by decide)

theorem State.ctlCut_mbx : s.ctlCut.mbx.sessions = [] ∧ s.ctlCut.mbx.fwReady = s.mbx.fwReady := by
  rw [State.ctlCut, (State.dropUncommitted_touches _).same .mbx (by decide)]
  refine ⟨rfl, ?_⟩
  rw [State.cutSessions_fwReady]
  exact (State.cutHeld_fwReady _).trans (by rw [State.bump_mbx])

/-- What a control-complex reset leaves (R396, R397). -/
theorem State.ctlReset_leaves (cause core : Nat) : (s.ctlReset cause core).mbx.fwReady = false ∧ (s.ctlReset cause core).ctl.lastCause = cause
    ∧ (s.ctlReset cause core).ctl.restarting = true ∧ (s.ctlReset cause core).mbx.sessions = []
    ∧ (s.ctlReset cause core).dev.unlocked = s.dev.unlocked := by
  obtain ⟨hs, hf⟩ := (s.ctlHalted cause core).ctlCut_mbx
  have ht := (s.ctlHalted cause core).ctlCut_touches
  have hctl : (s.ctlReset cause core).ctl = (s.ctlHalted cause core).ctl := by
    rw [State.ctlReset_eq, (State.resetMaster_touches ..).same .ctl (by decide)]
    exact ht.same .ctl (by decide)
  have hdev : (s.ctlReset cause core).dev = (s.ctlHalted cause core).dev := by
    rw [State.ctlReset_eq, (State.resetMaster_touches ..).same .dev (by decide)]
    exact ht.same .dev (by decide)
  have hmbx : (s.ctlReset cause core).mbx = (s.ctlHalted cause core).ctlCut.mbx := by
    rw [State.ctlReset_eq, (State.resetMaster_touches ..).same .mbx (by decide)]
  rw [hctl, hdev, hmbx]
  exact ⟨hf, rfl, rfl, hs, rfl⟩

/-- What a function-level reset leaves (R315, R316). -/
theorem State.flr_leaves : s.flr.mbx.h2d = [] ∧ s.flr.mbx.d2h = [] ∧ s.flr.mbx.journal = s.mbx.journal := by
  have hshut : ∀ (t : State) p, (t.shutSession p none).mbx.journal = t.mbx.journal := fun t p => by
    unfold State.shutSession
    split <;> rfl
  have hchk : ∀ t : State, ([2, 3, 7].foldl (fun (t : State) u => if (t.chkOf u).granted then t.chkReset u else t) t).mbx = t.mbx := fun t => by
    refine foldl_keep (fun t : State => t.mbx) (fun t u => ?_) _ _
    split
    · exact (t.chkReset_touches u).same .mbx (by decide)
    · rfl
  unfold State.flr
  dsimp only
  rw [(State.resetMaster_touches ..).same .mbx (by decide)]
  dsimp only
  rw [hchk]
  refine ⟨rfl, rfl, ?_⟩
  exact foldl_keep (fun t : State => t.mbx.journal) hshut _ _

end resets

/-! ## The statement -/

section clauses
variable (s : State)

theorem State.noteUnlock_enters (d : Domain) : Entered 0x0073 (domainCode d) 0 (s.noteUnlock d) := s.raise_enters ..

theorem exec_pllUnlock_ctrl_booted (h : s.dev.phase = .booted) :
    exec (.pllUnlock .ctrl) s = .next (((s.noteUnlock .ctrl).unlock [.ctrl]).ctlReset 2 0) :=
  congrArg Host.Outcome.next (if_pos (beq_iff_eq.2 h))

theorem exec_pllUnlock_ctrl_unbooted (h : s.dev.phase ≠ .booted) :
    exec (.pllUnlock .ctrl) s = .next ((s.noteUnlock .ctrl).unlock [.ctrl]) :=
  congrArg Host.Outcome.next (if_neg fun g => h (beq_iff_eq.1 g))

theorem ctrlLoss_booted (h : s.dev.phase = .booted) : ∃ t, exec (.pllUnlock .ctrl) s = .next t ∧ t.mbx.fwReady = false
    ∧ t.ctl.lastCause = 2 ∧ t.ctl.restarting = true ∧ .ctrl ∈ t.dev.unlocked ∧ t.mbx.sessions = [] ∧ t.time = s.time ∧ t.lane = s.lane
    ∧ Entered 0x0073 (domainCode .ctrl) 0 t := by
  let u := (s.noteUnlock .ctrl).unlock [.ctrl]
  have hu : Touches [.regs, .log, .logSeq, .mbx, .out, .dev] s u :=
    ((s.noteUnlock_touches _).mono (by decide)).then (State.unlock_touches ..) (by decide)
  have ht := u.ctlReset_touches 2 0
  obtain ⟨hfw, hcause, hre, hses, hun⟩ := u.ctlReset_leaves 2 0
  refine ⟨_, exec_pllUnlock_ctrl_booted s h, hfw, hcause, hre, ?_, hses, ?_, ?_, ?_⟩
  · rw [hun]
    exact State.mem_unlock _ (List.mem_singleton_self _)
  · exact (ht.same .time (by decide)).trans (hu.same .time (by decide))
  · exact (ht.same .lane (by decide)).trans (hu.same .lane (by decide))
  · exact (s.noteUnlock_enters .ctrl).of_log (ht.same .log (by decide))

theorem ctrlLoss_unbooted (h : s.dev.phase ≠ .booted) : ∃ t, exec (.pllUnlock .ctrl) s = .next t ∧ .ctrl ∈ t.dev.unlocked
    ∧ Entered 0x0073 (domainCode .ctrl) 0 t ∧ Touches [.regs, .dev, .log, .logSeq, .mbx, .out] s t :=
  ⟨_, exec_pllUnlock_ctrl_unbooted s h, State.mem_unlock _ (List.mem_singleton_self _), s.noteUnlock_enters .ctrl,
    ((s.noteUnlock_touches _).mono (by decide)).then (State.unlock_touches ..) (by decide)⟩

theorem pcieLoss : ∃ t, exec (.pllUnlock .pcie) s = .next t ∧ t.mbx.h2d = [] ∧ t.mbx.d2h = [] ∧ t.mbx.journal = s.mbx.journal
    ∧ t.chans = s.chans ∧ Entered 0x0073 (domainCode .pcie) 0 t := by
  obtain ⟨hh, hd, hj⟩ := (s.noteUnlock .pcie).flr_leaves
  have ht := (s.noteUnlock .pcie).flr_touches
  exact ⟨(s.noteUnlock .pcie).flr, rfl, hh, hd, hj.trans (s.raise_journal ..),
    (ht.same .chans (by decide)).trans ((s.noteUnlock_touches _).same .chans (by decide)),
    (s.noteUnlock_enters .pcie).of_log (ht.same .log (by decide))⟩

/-- The lanes of two ports of the same kind lose their clock. -/
theorem portClocksLost {d : Domain} {a b : Nat}
    (h : exec (.pllUnlock d) s = .next (((s.noteUnlock d).portClockLost a).portClockLost b)) :
    ∃ t, exec (.pllUnlock d) s = .next t ∧ (t.portOf a).st = .failed ∧ (t.portOf b).st = .failed
      ∧ Touches [.regs, .log, .logSeq, .mbx, .pmu, .grp, .lane, .rat, .out] s t := by
  refine ⟨_, h, ?_, ?_, ?_⟩
  · rw [State.portClockLost_st, State.portClockLost_st, if_pos rfl, ite_self]
  · rw [State.portClockLost_st, if_pos rfl]
  · exact (((s.noteUnlock_touches d).mono (by decide)).then (State.portClockLost_touches ..) (by decide)).then
      (State.portClockLost_touches ..) (by decide)

theorem audmLoss : ∃ t, exec .audmOscUnlock s = .next t ∧ exec (.pllUnlock .audm) s = .next t
    ∧ t.dev = { s.dev with oscUnlocked := true } ∧ Entered 0x0073 (domainCode .audm) 0 t
    ∧ Touches [.regs, .dev, .log, .logSeq, .mbx, .out] s t ∧ ∀ off, off ≠ Reg.DEV_STATUS → t.rd off = s.rd off := by
  refine ⟨s.audmLost, rfl, rfl, ?_, State.noteUnlock_enters _ _, s.audmLost_touches, fun off ho => ?_⟩
  · exact State.raise_dev ..
  · rw [State.rd_eq, State.audmLost, State.noteUnlock, State.raise_regs, bget_bset_ne (Ne.symm ho)]
    rfl

/-- REFCLK_LINK is gone: no lane of a stay or ratline port has symbol lock (R275). -/
def State.linkRefOff (s : State) : State :=
  (rangeFrom 16 10).foldl (fun (t : State) l => t.updLane l fun x => { x with symLock := false, errAt := [] })
    { s with dev := { s.dev with linkRefLost := true } }

theorem State.linkRefOff_dev : s.linkRefOff.dev = { s.dev with linkRefLost := true } := by
  unfold State.linkRefOff
  refine (foldl_keep (fun t : State => t.dev) (fun _ _ => ?_) _ _).trans ?_ <;> rfl

theorem exec_refclkLinkLoss :
    exec .refclkLinkLoss s = .next ((List.range 4).foldl (fun (t : State) q => t.failPort q 2) s.linkRefOff) := rfl

theorem linkRefLoss : ∃ t, exec .refclkLinkLoss s = .next t ∧ t.dev = { s.dev with linkRefLost := true }
    ∧ (∀ q < 4, (t.portOf q).st = .failed)
    ∧ Touches [.regs, .dev, .log, .logSeq, .mbx, .pmu, .grp, .lane, .rat, .out] s t := by
  refine ⟨_, exec_refclkLinkLoss s, ?_, fun q hq => ?_, ((execRefclkLinkLoss_touches s).row (exec_refclkLinkLoss s)).mono (by decide)⟩
  · exact (foldl_keep State.dev (fun t q => (t.failPort_touches q 2).same .dev (by decide)) _ _).trans s.linkRefOff_dev
  · rw [foldl_failPort_st, if_pos (List.mem_range.2 hq)]

theorem exec_refclkLinkReturn : exec .refclkLinkReturn s = .next ((List.range 4).foldl
    (fun (t : State) q => if (t.portOf q).st == .failed then t.updPort q fun p => { p with st := .down } else t)
    { s with dev := { s.dev with linkRefLost := false } }) := rfl

theorem linkRefReturn : ∃ t, exec .refclkLinkReturn s = .next t ∧ t.dev = { s.dev with linkRefLost := false }
    ∧ (∀ q < 4, (t.portOf q).st ≠ .failed) ∧ Touches [.dev, .lane] s t := by
  refine ⟨_, exec_refclkLinkReturn s, ?_, fun q hq => ?_, (execRefclkLinkReturn_touches s).row (exec_refclkLinkReturn s)⟩
  · have hstep (t : State) (q : Nat) :
        (if (t.portOf q).st == .failed then t.updPort q fun p => { p with st := .down } else t).dev = t.dev := by
      split <;> rfl
    exact foldl_keep State.dev hstep _ _
  · exact foldl_bringUp_st _ _ (.inl (List.mem_range.2 hq))

end clauses

/-- Settles O12: the fatal losses by what a fatal error leaves, every other clock by what its loss does to its reset, links or ports. -/
theorem lossOfLock : Obligations.LossOfLock := by
  unfold Obligations.LossOfLock
  intro stopped
  refine ⟨fun s d hd => ⟨exec_pllUnlock_stopping s hd, stopped_fatal [d] d, State.mem_unlock_fatal _ _ _ _ (List.mem_singleton_self d)⟩,
    fun s => ⟨rfl, stopped_fatal _ .ref, fun d hd => State.mem_unlock_fatal _ _ _ _ (List.mem_cons_of_mem _ hd),
      State.mem_unlock_fatal _ _ _ _ (List.mem_cons_self ..), fun i hi => State.ethLost_linkUp _ hi⟩,
    ctrlLoss_booted, ctrlLoss_unbooted, pcieLoss, fun s => ⟨_, rfl, ?epcs, fun i hi => State.ethLost_linkUp _ hi⟩,
    fun s => portClocksLost s rfl, fun s => portClocksLost s rfl, audmLoss, fun s d hd => ?none, linkRefLoss, linkRefReturn⟩
  case epcs => exact ((s.noteUnlock_touches _).mono (by decide)).then (State.ethLost_touches _) (by decide)
  case none =>
    simp only [List.mem_cons, List.not_mem_nil, or_false] at hd
    rcases hd with rfl | rfl | rfl | rfl <;> rfl

end Sys2Proof.Machine
end

section
/-!
PROOFS. The frame of a picture boundary on a single unit (R10, R34): what its steps leave alone, and the steps that move the layers only.
-/
namespace Sys2Proof.Machine
open Sys2Proof

/-! ## The frame -/

/-- The counts and sticky bits that a boundary of channel `c` may move. -/
def boundaryCells (c : Nat) : List Nat := [Reg.PWR_CEILING_CUTS, Reg.PWR_STATUS, Reg.DEV_STATUS, Reg.LYR_FLIP_DEFERS c, Reg.LYR_STATUS c,
  Reg.LYR_FLIP_CANCELS c, Reg.LYR_FLIP_RESULT c, Reg.LYR_PROT_CRC_FAILS c, Reg.LYR_FLIPS c, Reg.REF_IDR_COUNT c, Reg.REF_STATUS c,
  Reg.REF_MARKS_CANCELLED c, Reg.REF_ANCHORS c]

/-- The fields of the state that a boundary of a single unit may move. -/
def boundaryFlds : List Fld := [.regs, .log, .logSeq, .mbx, .pwr, .chans, .grp, .out]

/-- `t` comes from `s` by what a boundary of channel `c` may do: no other channel and no other group state has moved. -/
structure AtChan (c : Nat) (s t : State) : Prop where
  touches : Touches boundaryFlds s t
  regs : ∀ off, off ∉ boundaryCells c → t.rd off = s.rd off
  chans : ∀ j, j ≠ c → tget t.chans j = tget s.chans j
  grp : t.grp = { s.grp with chans := t.grp.chans }
  gch : ∀ j, j ≠ c → t.gch j = s.gch j

namespace AtChan
variable {c : Nat} {s t u : State}

theorem refl (c : Nat) (s : State) : AtChan c s s := ⟨.refl _ s, fun _ _ => rfl, fun _ _ => rfl, rfl, fun _ _ => rfl⟩

theorem trans (a : AtChan c s t) (b : AtChan c t u) : AtChan c s u where
  touches := a.touches.trans b.touches
  regs off h := (b.regs off h).trans (a.regs off h)
  chans j h := (b.chans j h).trans (a.chans j h)
  grp := by rw [b.grp, a.grp]
  gch j h := (b.gch j h).trans (a.gch j h)

theorem role (a : AtChan c s t) : t.grp.role = s.grp.role := by rw [a.grp]

theorem member (a : AtChan c s t) : t.member = s.member := by rw [State.member, State.member, a.role]

/-- A step that moves neither channels nor the group. -/
theorem of_touches {l : List Fld} (ht : Touches l s t) (hl : ∀ f ∈ l, f ∈ [Fld.regs, .log, .logSeq, .mbx, .pwr, .out])
    (hr : ∀ off, off ∉ boundaryCells c → t.rd off = s.rd off) : AtChan c s t := by
  have h : Touches [.regs, .log, .logSeq, .mbx, .pwr, .out] s t := ht.mono hl
  have hg : t.grp = s.grp := h.same .grp (by decide)
  have hc : t.chans = s.chans := h.same .chans (by decide)
  exact ⟨h.mono (by decide), hr, fun j _ => by rw [hc], by rw [hg], fun j _ => by rw [State.gch, hg, State.gch]⟩

theorem updChan (c : Nat) (s : State) (f : Chan → Chan) : AtChan c s (s.updChan c f) :=
  ⟨(s.updChan_touches c f).mono (by decide), fun _ _ => rfl, fun _ h => tget_tupd_ne (Ne.symm h) .., rfl, fun _ _ => rfl⟩

theorem setChan (c : Nat) (s : State) (ch : Chan) : AtChan c s (s.setChan c ch) :=
  ⟨(s.setChan_touches c ch).mono (by decide), fun _ _ => rfl, fun _ h => tget_tset_ne (Ne.symm h) .., rfl, fun _ _ => rfl⟩

theorem updGch (c : Nat) (s : State) (f : GrpChan → GrpChan) : AtChan c s (s.updGch c f) :=
  ⟨(s.updGch_touches c f).mono (by decide), fun _ _ => rfl, fun _ _ => rfl, rfl, fun _ h => tgetD_tset_ne (Ne.symm h) ..⟩

end AtChan

theorem State.updChan_self {s : State} {c : Nat} {ch : Chan} (h : tget s.chans c = some ch) (f : Chan → Chan) :
    tget (s.updChan c f).chans c = some (f ch) := by
  rw [State.updChan, tget_tupd_self, h, Option.map_some]

theorem State.onChan_some {s : State} {c : Nat} {ch : Chan} (h : tget s.chans c = some ch) (f : Chan → State → State) :
    s.onChan c f = f ch s := by
  simp only [State.onChan, h]

/-- A single unit is not the active one of a group. -/
theorem State.role_of_single {s : State} (hm : s.member = false) : (s.grp.role == .active) = false := by
  refine Bool.eq_false_iff.2 fun ha => ?_
  rw [State.member, eq_of_beq ha] at hm
  exact absurd hm (by decide)

/-! ## Steps that move the layers only (R142 to R150) -/

/-- A picture but for its faults and the protected layer of its time. -/
def Pic.core (p : Pic) : Pic := { p with faults := 0, prot := none }

/-- The channel has moved in its layers and in what its pictures say of them. -/
structure LayerStep (a b : Chan) : Prop where
  eq : b = { a with layers := b.layers, pics := b.pics }
  pics : ∀ k, (tget b.pics k).map Pic.core = (tget a.pics k).map Pic.core

theorem LayerStep.refl (a : Chan) : LayerStep a a := ⟨rfl, fun _ => rfl⟩

theorem LayerStep.trans {a b d : Chan} (x : LayerStep a b) (y : LayerStep b d) : LayerStep a d :=
  ⟨by rw [y.eq, x.eq], fun k => (y.pics k).trans (x.pics k)⟩

theorem LayerStep.layers (a : Chan) (l : LayerState) : LayerStep a { a with layers := l } := ⟨rfl, fun _ => rfl⟩

theorem LayerStep.updPic (a : Chan) (n : Nat) (f : Pic → Pic) (h : ∀ p, (f p).core = p.core) : LayerStep a (a.updPic n f) := by
  refine ⟨rfl, fun k => ?_⟩
  show (tget (tupd a.pics n f) k).map Pic.core = _
  rw [tget_tupd]
  split
  · rw [Option.map_map, funext h (f := Pic.core ∘ f)]
  · rfl

/-- `t` comes from `s` by steps within the frame that move the layers of channel `c` only. -/
structure LayerOp (c : Nat) (s t : State) : Prop where
  frame : AtChan c s t
  grp : t.grp = s.grp
  chan : ∀ a, tget s.chans c = some a → ∃ b, tget t.chans c = some b ∧ LayerStep a b

namespace LayerOp
variable {c : Nat} {s t u : State}

theorem refl (c : Nat) (s : State) : LayerOp c s s := ⟨.refl c s, rfl, fun a h => ⟨a, h, .refl a⟩⟩

theorem trans (x : LayerOp c s t) (y : LayerOp c t u) : LayerOp c s u := by
  refine ⟨x.frame.trans y.frame, y.grp.trans x.grp, fun a h => ?_⟩
  obtain ⟨b, hb, hab⟩ := x.chan a h
  obtain ⟨d, hd, hbd⟩ := y.chan b hb
  exact ⟨d, hd, hab.trans hbd⟩

theorem of_touches {l : List Fld} (ht : Touches l s t) (hl : ∀ f ∈ l, f ∈ [Fld.regs, .log, .logSeq, .mbx, .pwr, .out])
    (hr : ∀ off, off ∉ boundaryCells c → t.rd off = s.rd off) : LayerOp c s t := by
  have h : Touches [.regs, .log, .logSeq, .mbx, .pwr, .out] s t := ht.mono hl
  have hc : t.chans = s.chans := h.same .chans (by decide)
  exact ⟨.of_touches ht hl hr, h.same .grp (by decide), fun a ha => ⟨a, by rw [hc, ha], .refl a⟩⟩

theorem updChan (c : Nat) (s : State) {f : Chan → Chan} (h : ∀ a, LayerStep a (f a)) : LayerOp c s (s.updChan c f) :=
  ⟨.updChan c s f, rfl, fun a ha => ⟨f a, State.updChan_self ha f, h a⟩⟩

theorem wr {off : Nat} (h : off ∈ boundaryCells c) (s : State) (v : Word) : LayerOp c s (s.wr off v) :=
  .of_touches (s.wr_touches off v) (by decide) fun k ho => State.rd_wr_ne (fun e : off = k => ho (e ▸ h)) s v

theorem raise (c : Nat) (s : State) (code sev obj detail : Nat) : LayerOp c s (s.raise code sev obj detail) := by
  refine .of_touches (s.raise_touches code sev obj detail) (by decide) fun off ho => ?_
  rw [State.rd_eq, State.raise_regs, bget_bset_ne, State.rd_eq]
  rintro rfl
  simp [boundaryCells] at ho

theorem when (b : Bool) (f : State → State) (h : ∀ t, LayerOp c t (f t)) (s : State) : LayerOp c s (s.when b f) := by
  cases b
  · exact .refl c s
  · exact h s

theorem foldl {β : Type} {f : State → β → State} (h : ∀ t x, LayerOp c t (f t x)) (xs : List β) (s : State) :
    LayerOp c s (xs.foldl f s) := by
  induction xs generalizing s with
  | nil => exact .refl c s
  | cons x xs ih => exact (h s x).trans (ih (f s x))

theorem onChan {f : Chan → State → State} (h : ∀ a t, LayerOp c t (f a t)) (s : State) : LayerOp c s (s.onChan c f) := by
  unfold State.onChan
  split
  · exact .refl c s
  · exact h ..

/-- A count and a sticky bit of the layers. -/
theorem countSticky {off st : Nat} (ho : off ∈ boundaryCells c) (hs : st ∈ boundaryCells c) (s : State) (n : Nat) (m : Word) :
    LayerOp c s ((s.bumpBy off n).sticky st m) := (wr ho s _).trans (wr hs _ _)

end LayerOp

section steps
variable (s : State) (c n : Nat)

theorem layerOp_flipsAt (lag : Nat) (chosen : List Nat) : LayerOp c s (s.flipsAt c n lag chosen) := by
  refine LayerOp.onChan (fun ch t => ?_) s
  refine ((LayerOp.updChan c t fun a => .layers a _).trans (.foldl (fun u x => ?_) _ _)).trans (.foldl (fun u x => ?_) _ _)
  · split
    · exact .countSticky (by simp [boundaryCells]) (by simp [boundaryCells]) ..
    · exact .refl c u
  · exact ((LayerOp.countSticky (by simp [boundaryCells]) (by simp [boundaryCells]) ..).trans
      (.wr (off := Reg.LYR_FLIP_RESULT c) (by simp [boundaryCells]) ..)).trans (.raise ..)

theorem layerOp_tellFlips : LayerOp c s (s.tellFlips c) := by
  refine LayerOp.onChan (fun ch t => (LayerOp.updChan c t fun a => .layers a _).trans (.foldl (fun u x => ?_) _ _)) s
  exact .countSticky (by simp [boundaryCells]) (by simp [boundaryCells]) ..

theorem layerOp_setFault (bit : Nat) : LayerOp c s (s.setFault c n bit) := .updChan c s fun a => .updPic a n _ fun _ => rfl

/-- On a single unit no layer that is dropped moves the group (R150). -/
theorem layerOp_protRun (hm : s.member = false) (k : ProtCheck) (p : Protected) : LayerOp c s (s.protRun c n k p) := by
  unfold State.protRun
  split
  · exact .refl c s
  · extract_lets k r u v w x
    have hv : LayerOp c s v := (LayerOp.updChan c s fun a => .layers a _).trans
      (.when _ _ (fun t => .countSticky (by simp [boundaryCells]) (by simp [boundaryCells]) ..) u)
    have hx : LayerOp c s x := (hv.trans (.raise ..)).trans (layerOp_setFault ..)
    have hrole : (x.grp.role == .active) = false := State.role_of_single (hx.frame.member.trans hm)
    split
    · rw [if_neg (by simp [hrole])]
      exact hx
    · exact hv

theorem layerOp_protAt (hm : s.member = false) (k : ProtCheck) : LayerOp c s (s.protAt c n k) := by
  unfold State.protAt State.onChan
  split
  · exact .refl c s
  · dsimp only
    split
    · exact .refl c s
    · split
      · split
        · exact .updChan c s fun a => .layers a _
        · exact layerOp_protRun s c n hm k _
      · exact layerOp_protRun s c n hm k _

theorem layerOp_layersAt (hm : s.member = false) : LayerOp c s (s.layersAt c n) := by
  unfold State.layersAt State.onChan
  split
  · exact .refl c s
  · dsimp only
    rw [if_neg (by simp [show State.member (s.updChan c _) = false from hm])]
    exact ((LayerOp.updChan c s fun a => .layers a _).trans (layerOp_flipsAt ..)).trans (.updChan c _ fun a => .layers a _)

end steps

end Sys2Proof.Machine
end

section
/-!
PROOFS. The picture of a boundary (R10, R99 to R114, R360): the ceiling that a single unit fixes, the commit, and the picture formed.
-/
namespace Sys2Proof.Machine
open Sys2Proof

/-! ## Tables -/

theorem tget_tfilter_of {α : Type} {p : Nat → α → Bool} {k : Nat} (h : ∀ a, p k a = true) (t : Tab α) :
    tget (tfilter t p) k = tget t k := by
  induction t with
  | nil => rfl
  | cons e r ih =>
    obtain ⟨j, a⟩ := e
    have ih' : tget (List.filter (fun e => p e.1 e.2) r) k = tget r k := ih
    unfold tfilter
    rw [List.filter_cons, tget_cons]
    split
    · rw [tget_cons, ih']
    · next hp =>
      rw [ih', if_neg]
      rintro rfl
      exact hp (h a)

/-- A change that a projection of the items does not see leaves the projected list, filtered by what it does not see either. -/
theorem filter_map_tupd {α β : Type} (t : Tab α) (k : Nat) {f : α → α} {p : Nat × α → Bool} {g : Nat × α → β}
    (hp : ∀ j a, p (j, f a) = p (j, a)) (hg : ∀ j a, g (j, f a) = g (j, a)) :
    ((tupd t k f).filter p).map g = (t.filter p).map g := by
  induction t with
  | nil => rfl
  | cons e r ih =>
    obtain ⟨j, a⟩ := e
    simp only [tupd]
    split
    · simp only [List.filter_cons, hp]
      split
      · simp only [List.map_cons, hg]
      · rfl
    · simp only [List.filter_cons]
      split
      · simp only [List.map_cons, ih]
      · exact ih

/-! ## The ceiling (R360) -/

/-- The channel with `m` as its next picture. -/
def Chan.withNext (m : Nat) (ch : Chan) : Chan := { ch with nextPic := m }

/-- The channel with the ceiling that boundary `n` fixes, that of the picture two further. -/
def Chan.withCeiling (n tier : Nat) (ch : Chan) : Chan :=
  { ch with ceilings := tset (tfilter ch.ceilings fun k _ => decide (n ≤ k)) (n + 2) (tier, false) }

/-- The channel as the governor and the numbering of boundary `n` leave it. -/
def Chan.reached (n tier : Nat) (ch : Chan) : Chan := (ch.withNext (n + 1)).withCeiling n tier

theorem Chan.reached_ceiling (n tier : Nat) (ch : Chan) : tget (ch.reached n tier).ceilings (n + 2) = some (tier, false) :=
  tget_tset_self ..

/-- The ceiling of picture `n` itself stands. -/
theorem Chan.reached_ceiling_now (n tier : Nat) (ch : Chan) (x : Nat × Bool) :
    tgetD (ch.reached n tier).ceilings n x = tgetD ch.ceilings n x := by
  show tgetD (tset (tfilter ch.ceilings _) (n + 2) _) n x = _
  rw [tgetD_tset_ne (by omega), tgetD, tget_tfilter_of (fun _ => by simp), tgetD]

section ceiling
variable (s : State) (c n : Nat)

theorem State.runningChans_updChan {β : Type} {f : Chan → Chan} {g : Nat × Chan → β} (hst : ∀ a, (f a).st = a.st)
    (hg : ∀ j a, g (j, f a) = g (j, a)) : (s.updChan c f).runningChans.map g = s.runningChans.map g :=
  filter_map_tupd s.chans c (fun _ a => by simp only [hst]) hg

/-- The number of its next picture is nothing that the governor reads. -/
theorem State.availPower_nextPic (m : Nat) : (s.updChan c (Chan.withNext m)).availPower = s.availPower := by
  have hopt : (s.updChan c (Chan.withNext m)).pOpt = s.pOpt := by
    unfold State.pOpt
    rw [State.runningChans_updChan s c (f := Chan.withNext m) (fun _ => rfl) fun _ _ => rfl]
  have hidle : (s.updChan c (Chan.withNext m)).idleSlots = s.idleSlots := by
    unfold State.idleSlots
    have h := filter_map_tupd s.chans c (f := Chan.withNext m) (p := fun _ => true)
      (g := fun e => if e.2.st.active then 0 else e.2.slots) (fun _ _ => rfl) fun _ _ => rfl
    rw [List.filter_true, List.filter_true] at h
    exact congrArg sumNat h
  have ht0 : (s.updChan c (Chan.withNext m)).pT0 = s.pT0 := by
    unfold State.pT0
    rw [hopt]
    rfl
  have hbud : (s.updChan c (Chan.withNext m)).budgetInForce = s.budgetInForce := by
    unfold State.budgetInForce State.floorPower
    rw [ht0, hidle]
    rfl
  unfold State.availPower
  rw [hbud, ht0]
  rfl

theorem State.tierFor_nextPic (m a : Nat) : (s.updChan c (Chan.withNext m)).tierFor c a = s.tierFor c a := by
  unfold State.tierFor
  rw [State.runningChans_updChan s c (f := Chan.withNext m) (fun _ => rfl) fun _ _ => rfl]

theorem layerOp_decideTier (avail group : Nat) : LayerOp c s (s.decideTier c avail group).1 := by
  have hcells : Reg.PWR_STATUS ∈ boundaryCells c ∧ Reg.PWR_CEILING_CUTS ∈ boundaryCells c := by simp [boundaryCells]
  have hpwr : ∀ (t : State) v, LayerOp c t { t with pwr := v } := fun t v =>
    .of_touches (l := [.pwr]) ((Touches.set_pwr (by decide) _).mpr (.refl ..)) (by decide) fun _ _ => rfl
  unfold State.decideTier State.checkFloor
  exact (((hpwr ..).trans (hpwr ..)).trans (.when _ _ (fun t => .wr hcells.1 t _) _)).trans (.when _ _ (fun t => .wr hcells.2 t _) _)

/-- The machine with the boundary's picture number and the ceiling it fixes. -/
def State.fixCeiling : State := ((s.updChan c (Chan.withNext (n + 1))).ceilingAt c n).1

theorem State.fixCeiling_single (hm : s.member = false) : AtChan c s (s.fixCeiling c n) ∧ (s.fixCeiling c n).grp = s.grp
    ∧ ∀ ch, tget s.chans c = some ch →
      tget (s.fixCeiling c n).chans c = some (ch.reached n (s.tierFor c (s.availPower - 32))) := by
  let u := s.updChan c (Chan.withNext (n + 1))
  let v := (u.decideTier c u.availPower 0).1
  have hum : ¬ u.member = true := Bool.eq_false_iff.1 hm
  have htier : (u.decideTier c u.availPower 0).2 = s.tierFor c (s.availPower - 32) := by
    show u.tierFor c (u.availPower - 32) = _
    rw [State.availPower_nextPic, State.tierFor_nextPic]
  have heq : s.fixCeiling c n = v.updChan c (Chan.withCeiling n (s.tierFor c (s.availPower - 32))) := by
    rw [← htier]
    exact congrArg Prod.fst (if_neg hum)
  have hd : LayerOp c u v := layerOp_decideTier u c u.availPower 0
  have hchans : v.chans = u.chans := (u.decideTier_touches c u.availPower 0).same .chans (by decide)
  rw [heq]
  refine ⟨((AtChan.updChan c s _).trans hd.frame).trans (.updChan c _ _), hd.grp, fun ch h => ?_⟩
  have hv : tget v.chans c = some (ch.withNext (n + 1)) := by rw [hchans]; exact State.updChan_self h _
  exact State.updChan_self hv _

end ceiling

/-! ## The commit (R10) -/

/-- The configuration that the boundary makes active. -/
def Chan.commits (ch : Chan) (n : Nat) (start : Bool) : Chan := if start || ch.commitDue then ch.activate n ch.shadow else ch

/-- The group's note of the generation in force, after the commit. -/
theorem State.commitAt_single {s : State} {c : Nat} {ch : Chan} (hm : s.member = false) (h : tget s.chans c = some ch) (n : Nat)
    (start : Bool) :
    AtChan c s (s.commitAt c n start) ∧ tget (s.commitAt c n start).chans c = some (ch.commits n start)
      ∧ ((s.commitAt c n start).gch c).gen = (s.gch c).gen
      ∧ ((s.commitAt c n start).gch c).genNow = if start || ch.commitDue then (s.gch c).gen else (s.gch c).genNow := by
  have heq : s.commitAt c n start = if start || ch.commitDue then s.commitShadow c n ch else s := by
    rw [State.commitAt, State.onChan_some h]
    cases start <;> simp [hm]
  have hgch : (s.commitShadow c n ch).gch c = { s.gch c with
      genNow := (s.gch c).gen, held := tset (s.gch c).held (s.gch c).gen ch.shadow } := tgetD_tset_self ..
  rw [heq, Chan.commits]
  split
  · exact ⟨(AtChan.updChan c s _).trans (.updGch c _ _), State.updChan_self h _, by rw [hgch], by rw [hgch]⟩
  · exact ⟨.refl c s, h, rfl, rfl⟩

/-! ## The picture (R50, R99 to R114) -/

theorem Chan.takeInterval_eq (ch : Chan) (n : Nat) : (ch.takeInterval n).1 = { ch with refs := (ch.takeInterval n).1.refs } := by
  unfold Chan.takeInterval
  split <;> rfl

theorem Chan.takeSurplus_eq (ch : Chan) (n : Nat) :
    ch.takeSurplus n = { ch with rate := (ch.takeSurplus n).rate } ∧ (ch.takeSurplus n).rate.origins = ch.rate.origins := by
  have hf : ∀ (l : List (Nat × Pic)) (a : Chan),
      let b := l.foldl (fun a e => ({ a.surplus e.2.auSize with rate := { (a.surplus e.2.auSize).rate with lastAu := e.1 + 1 } } : Chan)) a
      b = { a with rate := b.rate } ∧ b.rate.origins = a.rate.origins := by
    intro l
    induction l with
    | nil => exact fun a => ⟨rfl, rfl⟩
    | cons e l ih =>
      intro a
      obtain ⟨h, ho⟩ := ih { a.surplus e.2.auSize with rate := { (a.surplus e.2.auSize).rate with lastAu := e.1 + 1 } }
      rw [List.foldl_cons]
      exact ⟨h, ho⟩
  unfold Chan.takeSurplus
  split
  · exact ⟨rfl, rfl⟩
  · exact hf ..

/-- A rejoin refresh in progress gives the picture a sweep position (R110, R114). -/
theorem RefState.inRejoin_false {f : RefState} {n : Nat} (h : (f.pos n).isSome = false) : f.inRejoin n = false := by
  unfold RefState.pos at h
  unfold RefState.inRejoin
  split
  · next w hw =>
    rw [hw] at h
    by_cases hc : w.covers n = true
    · simp [hc] at h
    · simp [hc]
  · rfl

/-- What the picture `p` formed for channel `ch` at boundary `n` is. -/
structure Chan.Formed (ch : Chan) (n ceiling : Nat) (start disc : Bool) (p : Pic) : Prop where
  num : p.num = ch.index n
  rows : p.rows = []
  cfg : p.cfg = ch.active
  discontinuity : p.discontinuity = disc
  first : p.first = (start || disc)
  idr : start = true → p.kind = .idr ∧ p.refs = [] ∧ p.poc = 0 ∧ p.sweepPos = none
  ceiling : p.sweepPos.isSome = false → p.ceiling = ceiling

/-- The channel `b` has come from `a` by the picture formed at boundary `n`, its layers perhaps moved besides. -/
structure Chan.FormedStep (a b : Chan) (n ceiling : Nat) (start disc : Bool) : Prop where
  eq : b = { a with refs := b.refs, rate := b.rate, layers := b.layers, pics := b.pics }
  origins : b.rate.origins = a.rate.origins
  pic : ∃ p, tget b.pics n = some p ∧ a.Formed n ceiling start disc p

theorem Chan.Formed.of_core {ch : Chan} {n ceiling : Nat} {start disc : Bool} {p q : Pic} (h : ch.Formed n ceiling start disc p)
    (hc : q.core = p.core) : ch.Formed n ceiling start disc q where
  num := (congrArg Pic.num hc :).trans h.num
  rows := (congrArg Pic.rows hc :).trans h.rows
  cfg := (congrArg Pic.cfg hc :).trans h.cfg
  discontinuity := (congrArg Pic.discontinuity hc :).trans h.discontinuity
  first := (congrArg Pic.first hc :).trans h.first
  idr hs := by
    obtain ⟨hk, hr, hp, hw⟩ := h.idr hs
    exact ⟨(congrArg Pic.kind hc :).trans hk, (congrArg Pic.refs hc :).trans hr, (congrArg Pic.poc hc :).trans hp,
      (congrArg Pic.sweepPos hc :).trans hw⟩
  ceiling hw := by
    have hs : q.sweepPos = p.sweepPos := (congrArg Pic.sweepPos hc :)
    exact (congrArg Pic.ceiling hc :).trans (h.ceiling (hs ▸ hw))

theorem Chan.FormedStep.layers {a b d : Chan} {n ceiling : Nat} {start disc : Bool} (h : a.FormedStep b n ceiling start disc)
    (hl : LayerStep b d) : a.FormedStep d n ceiling start disc := by
  refine ⟨by rw [hl.eq, h.eq], by rw [hl.eq]; exact h.origins, ?_⟩
  obtain ⟨p, hp, hf⟩ := h.pic
  have hq := hl.pics n
  rw [hp, Option.map_some, Option.map_eq_some_iff] at hq
  obtain ⟨q, hq, hqp⟩ := hq
  exact ⟨q, hq, hf.of_core hqp⟩

theorem Chan.FormedStep.after_layers {a b d : Chan} {n ceiling : Nat} {start disc : Bool} (hl : LayerStep a b)
    (h : b.FormedStep d n ceiling start disc) : a.FormedStep d n ceiling start disc := by
  obtain ⟨p, hp, hf⟩ := h.pic
  refine ⟨by rw [h.eq, hl.eq], by rw [h.origins, hl.eq], p, hp, ?_⟩
  exact { hf with num := by rw [hf.num, hl.eq]; rfl, cfg := by rw [hf.cfg, hl.eq] }

theorem State.formPic_forms {s : State} {c : Nat} {ch : Chan} (h : tget s.chans c = some ch) (n ceiling : Nat) (start disc : Bool) :
    AtChan c s (s.formPic c n ceiling start disc) ∧ (s.formPic c n ceiling start disc).grp = s.grp
      ∧ ∃ b, tget (s.formPic c n ceiling start disc).chans c = some b ∧ ch.FormedStep b n ceiling start disc := by
  unfold State.formPic
  rw [State.onChan_some h]
  extract_lets m d ti ch1 f rf f1 idr isRep cancelled hadLt r news f2 refs pos rejoin clean kind p f3 ch2 s1 s2 s3 s4
  have hch1 : ch1 = { ch with refs := ch1.refs } := ch.takeInterval_eq n
  have hp : ch.Formed n ceiling start disc p := by
    refine ⟨?_, rfl, ?_, rfl, rfl, fun hs => ?_, fun hw => ?_⟩
    · show ch1.index n = _
      rw [hch1]; rfl
    · show ch1.active = _
      rw [hch1]
    · have hidr : idr = true := by simp only [idr, rf, hs, if_true]; rfl
      have hf2 : f2 = f1.idr n := by simp only [f2, r, hidr, if_true]
      have hsweep : f1.sweep = none := by simp only [f1, rf, hs, if_true]; rfl
      have hpos : pos = none := by
        show f2.pos n = none
        rw [hf2, RefState.pos]
        show (match f1.sweep with | some w => _ | none => none) = _
        rw [hsweep]
      have hpoc : n - f2.lastIdr = 0 := by rw [hf2]; exact Nat.sub_self n
      exact ⟨if_pos hidr, if_pos hidr, hpoc, hpos⟩
    · have hr : rejoin = false := RefState.inRejoin_false hw
      exact if_neg (by simp [hr])
  obtain ⟨hsur, hor⟩ := ch1.takeSurplus_eq n
  have hform : ch.FormedStep { ch2 with refs := { f3 with st := (n :: f3.st).take 16 }, pics := tset ch2.pics n p }
      n ceiling start disc := by
    refine ⟨?_, ?_, p, tget_tset_self .., hp⟩
    · simp only [ch2, Chan.keepPics]
      rw [hsur, hch1]
    · refine Eq.trans ?_ (hor.trans (by rw [hch1]))
      rfl
  have hregs : LayerOp c s1 (s4.when news.released fun t => t.sticky (Reg.REF_STATUS c) 0x2000) := by
    refine ((LayerOp.when _ _ (fun t => ?_) s1).trans (.when _ _ (fun t => ?_) s2)).trans
      ((LayerOp.when _ _ (fun t => ?_) s3).trans (.when _ _ (fun t => ?_) s4))
    · exact .countSticky (by simp [boundaryCells]) (by simp [boundaryCells]) t 1 _
    · exact .countSticky (by simp [boundaryCells]) (by simp [boundaryCells]) ..
    · exact .countSticky (by simp [boundaryCells]) (by simp [boundaryCells]) ..
    · exact .wr (by simp [boundaryCells]) ..
  obtain ⟨b, hb, hl⟩ := hregs.chan _ (tget_tset_self ..)
  exact ⟨(AtChan.setChan c s _).trans hregs.frame, hregs.grp, b, hb, hform.layers hl⟩

end Sys2Proof.Machine
end

section
/-!
PROOFS. The picture boundary of a single unit (R10, R34, R360) and the change of clock (R215).
-/
namespace Sys2Proof.Machine
open Sys2Proof

/-! ## A picture begins (R10) -/

/-- A single unit copies no slots to another member. -/
theorem State.copySlots_single {s : State} (hm : s.member = false) (c n : Nat) (before : Tab Nat) : s.copySlots c n before = s := by
  unfold State.copySlots State.onChan
  split
  · rfl
  · dsimp only
    rw [if_neg (by simp [State.role_of_single hm])]

theorem State.cfgLag_single {s : State} (hm : s.member = false) (c n : Nat) (start : Bool) : s.cfgLag c n start = false := by
  simp [State.cfgLag, hm]

/-- What of channel `c` and its group state a boundary makes: the commit, then the picture formed. -/
structure Began (c n : Nat) (start disc : Bool) (ch : Chan) (s t : State) : Prop where
  frame : AtChan c s t
  gen : (t.gch c).gen = (s.gch c).gen
  genNow : (t.gch c).genNow = if start || ch.commitDue then (s.gch c).gen else (s.gch c).genNow
  chan : ∃ b, tget t.chans c = some b ∧ (ch.commits n start).FormedStep b n (tgetD ch.ceilings n (0, false)).1 start disc

theorem Chan.commits_ceilings (ch : Chan) (n : Nat) (start : Bool) : (ch.commits n start).ceilings = ch.ceilings := by
  unfold Chan.commits
  split <;> rfl

theorem Began.layers {c n : Nat} {start disc : Bool} {ch : Chan} {s t u : State} (h : Began c n start disc ch s t) (l : LayerOp c t u) :
    Began c n start disc ch s u := by
  obtain ⟨b, hb, hf⟩ := h.chan
  obtain ⟨d, hd, hbd⟩ := l.chan b hb
  have hg : u.gch c = t.gch c := by rw [State.gch, l.grp, State.gch]
  exact ⟨h.frame.trans l.frame, by rw [hg, h.gen], by rw [hg, h.genNow], d, hd, hf.layers hbd⟩

theorem State.beginPic_single {s : State} {c : Nat} {ch : Chan} (hm : s.member = false) (h : tget s.chans c = some ch) (n : Nat)
    (k : ProtCheck) (start disc : Bool) : Began c n start disc ch s (s.beginPic c n k start disc) := by
  unfold State.beginPic
  extract_lets lag u v before w x y z
  obtain ⟨hu, huc, hgen, hnow⟩ := State.commitAt_single hm h n start
  have hv : LayerOp c u v := layerOp_layersAt u c n (hu.member.trans hm)
  obtain ⟨a, ha, hla⟩ := hv.chan _ huc
  have hvm : v.member = false := (hv.frame.member.trans hu.member).trans hm
  have hceil : v.ceilingOf c n = (tgetD ch.ceilings n (0, false)).1 := by
    rw [State.ceilingOf, if_neg (by simp [hvm]), ha, hla.eq]
    exact congrArg (fun t : Tab (Nat × Bool) => (tgetD t n (0, false)).1) (ch.commits_ceilings n start)
  obtain ⟨hf, hfg, b, hb, hstep⟩ := State.formPic_forms ha n (v.ceilingOf c n) start disc
  have hw : w = v.formPic c n (v.ceilingOf c n) start disc := State.copySlots_single (hf.member.trans hvm) ..
  have hwg : w.gch c = u.gch c := by rw [hw, State.gch, hfg, hv.grp, State.gch]
  have hbegan : Began c n start disc ch s w := by
    refine ⟨?_, by rw [hwg, hgen], by rw [hwg, hnow], b, by rw [hw, hb], ?_⟩
    · rw [hw]
      exact (hu.trans hv.frame).trans hf
    · rw [hceil] at hstep
      exact hstep.after_layers hla
  have hwm : w.member = false := (hbegan.frame.member).trans hm
  have hx : x = w := by
    show w.when lag _ = w
    rw [show lag = false from State.cfgLag_single hm ..]
    rfl
  refine hbegan.layers ?_
  have hz : LayerOp c w z := by
    refine LayerOp.trans ?_ (.updChan c y fun a => .updPic a n _ fun _ => rfl)
    show LayerOp c w (x.protAt c n k)
    rw [hx]
    exact layerOp_protAt w c n hwm k
  have htell : ∀ (b : Bool) (t : State), LayerOp c t (if b = true then t.tellFlips c else t) := fun b t => by
    cases b
    · exact .refl c t
    · exact layerOp_tellFlips t c
  exact hz.trans (.onChan (fun a t => htell _ t) z)

/-! ## The boundary (R10, R34, R36, R360) -/

/-- The boundary codes no picture: the channel waits for its start picture, or has reached its stop picture (R34, R36). -/
def Chan.idleAt (ch : Chan) (n : Nat) : Bool :=
  (ch.st == .armed && decide (n < ch.startPic)) || (ch.stopPic.any fun q => decide (q ≤ n))

/-- The channel enters the picture: an ARMED one starts. -/
def Chan.enters (ch : Chan) (n : Nat) : Chan := if ch.st == .armed then ch.start n else ch

theorem State.enters_chan {s : State} {c : Nat} {ch : Chan} (h : tget s.chans c = some ch) (n : Nat) :
    let t := s.when (ch.st == .armed) (·.updChan c (·.start n))
    AtChan c s t ∧ t.grp = s.grp ∧ tget t.chans c = some (ch.enters n) := by
  intro t
  unfold Chan.enters t
  cases ch.st == .armed
  · exact ⟨.refl c s, rfl, h⟩
  · exact ⟨.updChan c s _, rfl, State.updChan_self h _⟩

/-- A channel that enters a picture changes in its state and in what starts afresh, an origin included where it was ARMED. -/
theorem Chan.enters_eq (ch : Chan) (n : Nat) :
    let b := ch.enters n
    b = { ch with
          st := if ch.st == .armed then .running else ch.st, inputLost := b.inputLost, layers := b.layers, rate := b.rate
          idleStep := b.idleStep, refs := b.refs }
      ∧ ((ch.st == .armed) = false → b = ch) := by
  intro b
  unfold b Chan.enters
  cases hst : ch.st == .armed
  · exact ⟨rfl, fun _ => rfl⟩
  · exact ⟨rfl, nofun⟩

theorem Chan.commits_eq (ch : Chan) (n : Nat) (start : Bool) :
    let b := ch.commits n start
    b = { ch with
      active := if start || ch.commitDue then ch.shadow else ch.active, commitDue := false, feedOld := b.feedOld
      feedFrom := b.feedFrom } := by
  intro b
  unfold b Chan.commits
  cases h : start || ch.commitDue
  · have hdue : ch.commitDue = false := (Bool.or_eq_false_iff.1 h).2
    exact (show ch = { ch with commitDue := false } by rw [← hdue])
  · rfl

/-- A single unit has no votes due (R244) and no decision of a group to make (R238). -/
theorem State.votesDue_single {s : State} (hm : s.member = false) (c n : Nat) : s.votesDue c n = s := by
  unfold State.votesDue State.onChan
  split
  · rfl
  · simp [hm]

theorem State.decideAt_single {s : State} (hm : s.member = false) (c n tier : Nat) : s.decideAt c n tier = s := by
  unfold State.decideAt State.onChan
  split
  · rfl
  · simp [hm]

/-- The two courses of a boundary: an idle one fixes the ceiling alone, any other begins the picture. -/
theorem State.boundaryRun_single {s : State} {c : Nat} {ch : Chan} (hm : s.member = false) (h : tget s.chans c = some ch) (n : Nat)
    (k : ProtCheck) (disc : Bool) : s.boundaryRun c n k disc = if ch.idleAt n then s.fixCeiling c n
      else ((s.fixCeiling c n).when (ch.st == .armed) (·.updChan c (·.start n))).beginPic c n k (ch.st == .armed) disc := by
  obtain ⟨hf, -, hc⟩ := s.fixCeiling_single c n hm
  obtain ⟨h2f, -, h2c⟩ := State.enters_chan (hc ch h) n
  have hidle : ((ch.st == .armed && !(ch.st == .armed && decide (ch.startPic ≤ n))) ||
      (match ch.stopPic with | some q => decide (q ≤ n) | none => false)) = ch.idleAt n := by
    unfold Chan.idleAt
    congr 1
    · rw [show decide (n < ch.startPic) = !decide (ch.startPic ≤ n) by rw [← decide_not, decide_eq_decide, not_le]]
      cases ch.st == .armed <;> rfl
    · cases ch.stopPic <;> rfl
  unfold State.boundaryRun
  rw [State.onChan_some h]
  extract_lets u ct s1 start ended s2 s3 s4 s5
  rw [show (ch.st == .armed && !start || ended) = ch.idleAt n from hidle]
  split
  · rfl
  · next hi =>
    have hstart : start = (ch.st == .armed) := by
      simp only [Chan.idleAt, Bool.or_eq_true, not_or, Bool.not_eq_true, Bool.and_eq_false_iff, decide_eq_false_iff_not, not_lt] at hi
      obtain ⟨ha | ha, -⟩ := hi <;> simp [start, ha]
    have h2 : s2 = (s.fixCeiling c n).when (ch.st == .armed) (·.updChan c (·.start n)) := by
      rw [← hstart]
      rfl
    have h2m : s2.member = false := by
      rw [h2]
      exact (hf.trans h2f).member.trans hm
    have h4 : s4 = s2 := by
      have h3 : s3 = s2 := State.votesDue_single h2m c n
      show s3.when s3.member _ = s2
      rw [h3, h2m]
      rfl
    have h5 : s5.member = false := by
      show (s4.beginPic c n k start disc).member = false
      rw [h4]
      have hch : tget s2.chans c = some _ := h2 ▸ h2c
      exact (State.beginPic_single h2m hch n k start disc).frame.member.trans h2m
    rw [State.decideAt_single h5]
    show s4.beginPic c n k start disc = _
    rw [h4, h2, hstart]

theorem Began.from {c n : Nat} {start disc : Bool} {ch : Chan} {s t u : State} (hf : AtChan c s t) (hg : t.grp = s.grp)
    (h : Began c n start disc ch t u) : Began c n start disc ch s u := by
  have hgch : t.gch c = s.gch c := by rw [State.gch, hg, State.gch]
  exact ⟨hf.trans h.frame, by rw [h.gen, hgch], by rw [h.genNow, hgch], h.chan⟩

/-- A boundary that is not idle begins the picture of the channel, entered and with the new ceiling. -/
theorem State.boundaryRun_began {s : State} {c : Nat} {ch : Chan} (hm : s.member = false) (h : tget s.chans c = some ch) (n : Nat)
    (k : ProtCheck) (disc : Bool) (hi : ch.idleAt n = false) :
    Began c n (ch.st == .armed) disc ((ch.reached n (s.tierFor c (s.availPower - 32))).enters n) s (s.boundaryRun c n k disc) := by
  obtain ⟨hf, hg, hc⟩ := s.fixCeiling_single c n hm
  obtain ⟨h2f, h2g, h2c⟩ := State.enters_chan (hc ch h) n
  rw [State.boundaryRun_single hm h, hi]
  exact (State.beginPic_single ((hf.trans h2f).member.trans hm) h2c n k _ disc).from (hf.trans h2f) (h2g.trans hg)

/-! ## What the channel is after the boundary -/

/-- The channel `b` after a boundary `n` that has coded a picture of `ch`. -/
structure Chan.Coded (ch b : Chan) (n : Nat) (disc : Bool) : Prop where
  eq : b = { ch with
    nextPic := n + 1, st := if ch.st == .armed then .running else ch.st
    active := if ch.st == .armed || ch.commitDue then ch.shadow else ch.active, commitDue := false, ceilings := b.ceilings
    feedOld := b.feedOld, feedFrom := b.feedFrom, inputLost := b.inputLost, idleStep := b.idleStep, layers := b.layers, rate := b.rate
    refs := b.refs, pics := b.pics }
  origins : (ch.st == .armed) = false → b.rate.origins = ch.rate.origins
  pic : ∃ p, tget b.pics n = some p ∧ b.Formed n (tgetD ch.ceilings n (0, false)).1 (ch.st == .armed) disc p

theorem State.boundaryRun_coded {s : State} {c : Nat} {ch : Chan} (hm : s.member = false) (h : tget s.chans c = some ch) (n : Nat)
    (k : ProtCheck) (disc : Bool) (hi : ch.idleAt n = false) : ∃ b, tget (s.boundaryRun c n k disc).chans c = some b
      ∧ tget b.ceilings (n + 2) = some (s.tierFor c (s.availPower - 32), false) ∧ ch.Coded b n disc := by
  obtain ⟨b, hb, hstep⟩ := (State.boundaryRun_began hm h n k disc hi).chan
  let a := ch.reached n (s.tierFor c (s.availPower - 32))
  obtain ⟨hent, hsame⟩ := a.enters_eq n
  have hcom := (a.enters n).commits_eq n (ch.st == .armed)
  have hceil : (a.enters n).ceilings = a.ceilings := by rw [hent]
  refine ⟨b, hb, ?_, ?_, fun ha => ?_, ?_⟩
  · rw [hstep.eq, Chan.commits_ceilings, hceil]
    exact ch.reached_ceiling n _
  · rw [hstep.eq, hcom, hent]
    rfl
  · rw [hstep.origins, hcom, hsame ha]
    rfl
  · obtain ⟨p, hp, hf⟩ := hstep.pic
    refine ⟨p, hp, ?_⟩
    rw [hceil, ch.reached_ceiling_now] at hf
    exact { hf with num := by rw [hf.num, hstep.eq]; rfl, cfg := by rw [hf.cfg, hstep.eq] }

end Sys2Proof.Machine
end

section
/-!
PROOFS. PICTURE_BOUNDARY and CHANNEL_CLOCK_CHANGE of a single unit (R10, R34, R215).
-/
namespace Sys2Proof.Machine
open Sys2Proof

/-! ## The boundary as an instruction (R10) -/

theorem State.onChan_none {s : State} {c : Nat} (h : tget s.chans c = none) (f : Chan → State → State) : s.onChan c f = s := by
  simp only [State.onChan, h]

theorem State.takeStepPic_single {s : State} (hm : s.member = false) (c n : Nat) : s.takeStepPic c n = s := by
  simp [State.takeStepPic, hm]

theorem ChanState.coding_active {x : ChanState} (h : x.coding = true) : x.active = true := by
  rw [ChanState.coding] at h
  rw [ChanState.active, Bool.or_assoc, h, Bool.or_true]

theorem State.boundary_inactive {s : State} {c : Nat} {ch : Chan} (h : tget s.chans c = some ch) (hst : ch.st.active = false)
    (k : ProtCheck) : s.boundary c k = s := by
  rw [State.boundary, State.onChan_some h, if_neg (by simp [hst])]

theorem State.boundary_single {s : State} {c : Nat} {ch : Chan} (hm : s.member = false) (h : tget s.chans c = some ch)
    (hst : ch.st.active = true) (hs : ch.stepPic = none) (k : ProtCheck) : s.boundary c k = s.boundaryRun c ch.nextPic k false := by
  rw [State.boundary, State.onChan_some h, if_pos hst]
  dsimp only
  rw [State.takeStepPic_single hm, State.onChan_some h, hs]

/-- The boundary at which a channel changes clock is its CHANNEL_CLOCK_CHANGE (R215). -/
theorem State.boundary_clockDue {s : State} {c m : Nat} {ch : Chan} (hm : s.member = false) (h : tget s.chans c = some ch)
    (hst : ch.st.coding = true) (hs : ch.stepPic = some m) (hle : m ≤ ch.nextPic) (k : ProtCheck) : s.boundary c k = s := by
  rw [State.boundary, State.onChan_some h, if_pos (ChanState.coding_active hst)]
  dsimp only
  rw [State.takeStepPic_single hm, State.onChan_some h, hs]
  exact if_pos ⟨hle, hst⟩

theorem ChanState.coding_not_armed {x : ChanState} (h : x.coding = true) : (x == .armed) = false := by
  refine Bool.eq_false_iff.2 fun ha => ?_
  rw [eq_of_beq ha] at h
  exact absurd h (by decide)

theorem State.boundaryRun_atChan {s : State} {c : Nat} {ch : Chan} (hm : s.member = false) (h : tget s.chans c = some ch) (n : Nat)
    (k : ProtCheck) (disc : Bool) : AtChan c s (s.boundaryRun c n k disc) ∧ ((s.boundaryRun c n k disc).gch c).gen = (s.gch c).gen := by
  cases hi : ch.idleAt n
  · have hb := State.boundaryRun_began hm h n k disc hi
    exact ⟨hb.frame, hb.gen⟩
  · obtain ⟨hf, hg, -⟩ := s.fixCeiling_single c n hm
    rw [State.boundaryRun_single hm h, hi]
    exact ⟨hf, congrArg (fun g : GrpState => (tgetD g.chans c {}).gen) hg⟩

theorem State.boundaryRun_genNow {s : State} {c : Nat} {ch : Chan} (hm : s.member = false) (h : tget s.chans c = some ch) (n : Nat)
    (k : ProtCheck) (disc : Bool) (hi : ch.idleAt n = false) : ((s.boundaryRun c n k disc).gch c).genNow =
      if ch.st == .armed || ch.commitDue then (s.gch c).gen else (s.gch c).genNow := by
  have hdue : ((ch.reached n (s.tierFor c (s.availPower - 32))).enters n).commitDue = ch.commitDue := by
    rw [(Chan.enters_eq _ n).1]
    rfl
  rw [(State.boundaryRun_began hm h n k disc hi).genNow, hdue]

theorem State.boundaryRun_idle {s : State} {c : Nat} {ch : Chan} (hm : s.member = false) (h : tget s.chans c = some ch) (n : Nat)
    (k : ProtCheck) (disc : Bool) (hi : ch.idleAt n = true) :
    tget (s.boundaryRun c n k disc).chans c = some (ch.reached n (s.tierFor c (s.availPower - 32))) := by
  rw [State.boundaryRun_single hm h, hi]
  exact (s.fixCeiling_single c n hm).2.2 ch h

/-- The picture is numbered on the clock of the boundary. -/
theorem Chan.Coded.num {ch b : Chan} {n x : Nat} {start disc d : Bool} {p : Pic} (h : ch.Coded b n d) (hp : b.Formed n x start disc p) :
    p.num = ch.index n := by
  rw [hp.num, h.eq]
  rfl

/-! ## The change of clock (R215) -/

/-- The channel on its new clock, at its first picture there. -/
def Chan.onNewClock (ch : Chan) : Chan :=
  let n := ch.nextPic
  let idx := ch.newIndex n
  let a := ch.shiftWork n ((idx : Int) - n)
  { a with
    stepPic := none, stepHeld := 0, before := some (n, ch.base, ch.stepHeld)
    rate := { a.rate with origins := (n, ch.stepDrainOf n idx) :: a.rate.origins } }

/-- The machine with channel `ch` on its new clock, its emission moved by the held step. -/
def State.clockChanged (s : State) (c : Nat) (ch : Chan) : State :=
  (s.setChan c ch.onNewClock).shiftEmission c ch.cfg.rate.bitRate ch.stepHeld

theorem State.clockChanged_touches (s : State) (c : Nat) (ch : Chan) : Touches [.tx, .txc, .grp, .chans] s (s.clockChanged c ch) :=
  ((s.setChan_touches c _).mono (by decide)).then (State.shiftEmission_touches ..) (by decide)

/-- A coding channel without a stop codes its first picture on the new clock. -/
theorem Chan.onNewClock_idleAt {ch : Chan} (hst : ch.st.coding = true) (hq : ch.stopPic = none) :
    ch.onNewClock.idleAt ch.nextPic = false := by
  have ha : (ch.onNewClock.st == .armed) = false := ChanState.coding_not_armed hst
  have hs : ch.onNewClock.stopPic = none := congrArg (Option.map _) hq
  rw [Chan.idleAt, ha, hs]
  rfl

theorem State.clockChanged_chan (s : State) (c : Nat) (ch : Chan) : tget (s.clockChanged c ch).chans c = some ch.onNewClock :=
  tget_tset_self ..

theorem State.clockChanged_chans_ne {c j : Nat} (h : j ≠ c) (s : State) (ch : Chan) :
    tget (s.clockChanged c ch).chans j = tget s.chans j :=
  tget_tset_ne (Ne.symm h) ..

/-- A channel that no step awaits does not change clock. -/
theorem exec_channelClockChange_same {s : State} {c : Nat} (h : ∀ ch, tget s.chans c = some ch → ch.stepPic = none) (k : ProtCheck) :
    exec (.channelClockChange ⟨c, k⟩) s = .next s := by
  show execChannelClockChange ⟨c, k⟩ s = _
  unfold execChannelClockChange
  cases hc : tget s.chans c with
  | none =>
    dsimp only
    rw [State.onChan_none hc, State.onChan_none hc]
  | some ch =>
    dsimp only
    rw [State.onChan_some hc, h ch hc, State.onChan_some hc, h ch hc]

theorem exec_channelClockChange_single {s : State} {c m : Nat} {ch : Chan} (hm : s.member = false) (h : tget s.chans c = some ch)
    (hst : ch.st.coding = true) (hs : ch.stepPic = some m) (hle : m ≤ ch.nextPic) (k : ProtCheck) :
    exec (.channelClockChange ⟨c, k⟩) s = .next ((s.clockChanged c ch).boundaryRun c ch.nextPic k true) := by
  refine congrArg Host.Outcome.next (Eq.trans (congrArg (fun u => State.onChan u c _) (?first : _ = s)) ?_)
  case first =>
    rw [State.onChan_some h, hs]
    split
    · rw [hm]; rfl
    · rfl
  rw [State.onChan_some h, hs]
  exact if_pos (by rw [hst, Bool.true_and, decide_eq_true hle])

/-- Settles O39: the cases without effect, then the boundary by its two courses, and the change of clock as a boundary on the new clock. -/
theorem pictureBoundaries : Obligations.PictureBoundaries := by
  unfold Obligations.PictureBoundaries
  refine fun s c k => ⟨fun h => ⟨?_, ?_⟩, fun ch h hst => ?_, fun ch h hs => ?_, fun ch h hm hst hs => ?_,
    fun ch h hm hst hs => ?boundary, fun ch h hm hst hs hq => ?clock⟩
  · exact congrArg Host.Outcome.next (State.onChan_none h _)
  · exact exec_channelClockChange_same (fun ch hc => absurd (h.symm.trans hc) nofun) k
  · exact congrArg Host.Outcome.next (State.boundary_inactive h hst k)
  · exact exec_channelClockChange_same (fun d hd => Option.some.inj (h.symm.trans hd) ▸ hs) k
  · obtain ⟨m, hm', hle⟩ := (Option.any_eq_true _ _).1 hs
    exact congrArg Host.Outcome.next (State.boundary_clockDue hm h hst hm' (of_decide_eq_true hle) k)
  case boundary =>
    intro n armed idle
    obtain ⟨hf, hgen⟩ := State.boundaryRun_atChan hm h n k false
    refine ⟨s.boundaryRun c n k false, congrArg Host.Outcome.next (State.boundary_single hm h hst hs k), hf.touches, hf.regs, hf.chans,
      hf.gch, hf.grp, hgen, ?_⟩
    show ∃ ch', _ ∧ _ ∧ _ ∧ _ ∧ _ ∧ _ ∧ _ ∧ _ ∧ (ch.idleAt n = true → _) ∧ (ch.idleAt n = false → _)
    cases hi : ch.idleAt n
    · obtain ⟨b, hb, hceil, hcoded⟩ := State.boundaryRun_coded hm h n k false hi
      obtain ⟨p, hp, hform⟩ := hcoded.pic
      have hfld {α : Type} (f : Chan → α) : f b = f _ := congrArg f hcoded.eq
      exact ⟨b, hb, hfld Chan.nextPic, hfld Chan.cfg, hfld Chan.slots,
        hfld Chan.engines, hfld Chan.stopPic, hfld Chan.shadow, hceil, nofun, fun _ =>
          ⟨hfld Chan.st, hfld Chan.commitDue, ⟨p, hp, hcoded.num hform, hform.rows, hform.cfg,
            hform.discontinuity, hform.first.trans (Bool.or_false _), hform.idr, hform.ceiling⟩,
            State.boundaryRun_genNow hm h n k false hi, hfld Chan.active⟩⟩
    · exact ⟨ch.reached n _, State.boundaryRun_idle hm h n k false hi, rfl, rfl, rfl, rfl, rfl, rfl, ch.reached_ceiling n _,
        fun _ => rfl, nofun⟩
  case clock =>
    obtain ⟨m, hm', hle⟩ := (Option.any_eq_true _ _).1 hs
    have hcm : (s.clockChanged c ch).member = false := hm
    have harm : (ch.onNewClock.st == .armed) = false := ChanState.coding_not_armed hst
    have hi : ch.onNewClock.idleAt ch.nextPic = false := ch.onNewClock_idleAt hst hq
    obtain ⟨hf, -⟩ := State.boundaryRun_atChan hcm (s.clockChanged_chan c ch) ch.nextPic k true
    obtain ⟨b, hb, -, hcoded⟩ := State.boundaryRun_coded hcm (s.clockChanged_chan c ch) ch.nextPic k true hi
    obtain ⟨p, hp, hform⟩ := hcoded.pic
    refine ⟨_, exec_channelClockChange_single hm h hst hm' (of_decide_eq_true hle) k, ?_, hf.regs,
      fun j hj => (hf.chans j hj).trans (s.clockChanged_chans_ne hj ch), hf.touches.same .txc (by decide), hf.gch,
      b, hb, congrArg Chan.stepPic hcoded.eq, congrArg Chan.stepHeld hcoded.eq, congrArg Chan.nextPic hcoded.eq,
      congrArg Chan.base hcoded.eq, ?_, hcoded.origins harm, p, hp, hform.discontinuity, hform.first.trans (Bool.or_true _)⟩
    · exact ((s.clockChanged_touches c ch).mono (by decide)).trans (hf.touches.mono (by decide))
    · exact (congrArg Chan.st hcoded.eq).trans (if_neg (Bool.eq_false_iff.1 harm))

end Sys2Proof.Machine
end

section
/-!
PROOFS. Emission (R199, R206): the count of an interface's frames, beyond the interfaces that the device has.
-/
namespace Sys2Proof.Machine
open Sys2Proof

/-- A packet of channel 0, sent again after a takeover, that waits eligible in queue 1. -/
def strayPacket : TxPacket where
  pkt := { chan := 0, seq := 0, pic := 0, row := 0, ts := 0, marker := false, bytes := 512, frame := 600, ej := 0, resent := true }
  queue := 1
  eligible := true

/-- Interface 64, which no device has, is up and is the last that owes the packet. -/
def strayInterface : State :=
  { State.reset with
    net := { State.reset.net with ifaces := [(64, { linkUp := true })] }
    tx := [(64, { queued := [strayPacket] })]
    txc := [(0, { pendingIfs := [(0, 1)] })] }

/-- Past the sixteen interfaces the rows of NET_TX run into those of EGR: this cell is EGR_PACKETS of channel 0 too, and the packet that
leaves counts in it as a frame and as a packet. -/
theorem strayInterface_counts_twice :
    (outState strayInterface (exec (.packetTransmit 64 32768) strayInterface)).rd (Reg.NET_TX_FRAMES 64) = 2 := by
  decide

/-- Refutes O45: PACKET_TRANSMIT is stated for every interface number, not for the sixteen that exist (R174), to which
`Instr.wf` keeps its operand. On `strayInterface` the cell that should count one frame of interface 64 goes from 0 to 2. -/
theorem not_emission : ¬ Obligations.Emission := by
  unfold Obligations.Emission
  rintro ⟨-, -, -, -, htransmit, -⟩
  obtain ⟨-, -, hmedia⟩ := htransmit strayInterface 64 32768
  obtain ⟨t, ht, -, -, -, -, -, hframes, -⟩ := hmedia strayPacket [] 4 (by decide) (by decide) (by decide)
  have htwice : t.rd (Reg.NET_TX_FRAMES 64) = 2 := by
    have h := strayInterface_counts_twice
    rwa [ht] at h
  exact absurd (hframes.symm.trans htwice) (by decide)

end Sys2Proof.Machine
end

section
/-!
PROOFS. What a served command needs of its body when the body leaves the mailboxes alone (R306, R321).
-/
namespace Sys2Proof.Machine
open Sys2Proof

theorem firstBad_eq_none {l : List (Bool × Nat)} (h : ∀ e ∈ l, e.1 = false) : firstBad l = none := by
  induction l with
  | nil => rfl
  | cons e l ih =>
    obtain ⟨hb, hl⟩ := List.forall_mem_cons.1 h
    rw [firstBad, if_neg (by simp [hb]), ih hl]

/-- A command that no check refuses does its work (R321). -/
theorem State.checked_pass {s : State} {l : List (Bool × Nat)} (h : ∀ e ∈ l, e.1 = false) (f : State → Answer) :
    s.checked l f = f s := by
  rw [State.checked, firstBad_eq_none h]

section runs
variable {i : Instr} {s : State} {h : CmdHdr} {p : Payload} {g b : Nat} {d : List Byte} {l : List Fld} {r : Nat → Prop}
  {P : State → Prop}

/-- The machine as the body of a command finds it: the firmware has read the word from its mailbox. -/
abbrev State.atBody (s : State) (m : MbxState) (o : List Out) : State := { s with mbx := m, out := o }

theorem State.atBody_touches (s : State) (m : MbxState) (o : List Out) : Touches [.mbx, .out] s (s.atBody m o) :=
  (Touches.set_out (t := { s with mbx := m }) (by decide) o).mpr ((Touches.set_mbx (by decide) m).mpr (.refl _ s))

/-- The body answers at once with `d` and leaves the machine as `f` makes it, the mailboxes as they were. -/
theorem Runs.of_answer {f : State → State} (hx : exec i s = .next (s.runCommand h p)) (hs : s.serves h p g b = true) (hl : .mbx ∉ l)
    (hb : ∀ m o x, (s.atBody m o).body x p = (f (s.atBody m o)).reply d) (ht : ∀ m o, Touches l (s.atBody m o) (f (s.atBody m o)))
    (hr : ∀ m o off, ¬ r off → (f (s.atBody m o)).rd off = s.rd off) (hp : ∀ m o k, P { f (s.atBody m o) with mbx := k }) :
    Runs i s h p g b d l r P := by
  refine .of_body hx hs fun m o _ x _ _ _ => ⟨f (s.atBody m o), m.msixPend, hb m o x, (ht m o).same .mbx hl, ?_, hr m o, hp m o⟩
  have hread := (s.atBody_touches m o).mono fun f hf => List.mem_append_left l hf
  exact hread.then (ht m o) fun f hf => List.mem_cons_of_mem _ (List.mem_cons_of_mem _ hf)

/-- The body does no more than write channel `c`. -/
theorem Runs.of_setChan {c : Nat} {ch : Chan} (hx : exec i s = .next (s.runCommand h p)) (hs : s.serves h p g b = true)
    (hb : ∀ m o x, (s.atBody m o).body x p = ((s.atBody m o).setChan c ch).reply d) :
    Runs i s h p g b d [.chans] noReg fun t => tget t.chans c = some ch ∧ ∀ k, k ≠ c → tget t.chans k = tget s.chans k :=
  .of_answer (f := (·.setChan c ch)) hx hs (by decide) hb (fun _ _ => State.setChan_touches ..) (fun _ _ _ _ => rfl)
    fun _ _ _ => ⟨tget_tset_self .., fun _ hk => tget_tset_ne (Ne.symm hk) ..⟩

end runs

end Sys2Proof.Machine
end

section
/-!
PROOFS. The commands of a channel (R34 to R36, R104, R105, R108, R241, R342 to R344).
-/
namespace Sys2Proof.Machine
open Sys2Proof

/-! ## The time rule (R104) -/

section time
variable {s : State} {f : TimeField}

theorem State.timeOk_of (hn : f.ns < 1000000000) (hz : s.member = true → f.zero = false) : s.timeOk f = true := by
  have hmz : (s.member && f.zero) = false := by
    cases hm : s.member with
    | false => rfl
    | true => exact hz hm
  simp [State.timeOk, TimeField.ok, hn, hmz]

theorem not_before_of_le {z : Bool} {t limit : Nat} (h : z = true ∨ limit ≤ t) : (!z && decide (t < limit)) = false := by
  rcases h with h | h
  · simp [h]
  · simp [Nat.not_lt.2 h]

theorem State.tooEarly_of {ch : Chan} (h : f.zero = true ∨ s.timeLimit ch ≤ s.fieldTicks f) : s.tooEarly ch f = false :=
  not_before_of_le h

theorem State.timedPic_eq (s : State) (ch : Chan) (f : TimeField) : s.timedPic ch f =
    if ch.st = .armed then max (ch.picAt (max (s.fieldTicks f) (s.timeLimit ch))) ch.startPic
    else ch.picAt (max (s.fieldTicks f) (s.timeLimit ch)) := by
  simp [State.timedPic]

end time

/-! ## Timed commands on a channel that exists -/

section timed
variable {s : State} {p : ChtArg} {ch : Chan} (hc : p.object ≤ 63) (h : tget s.chans p.object = some ch)
  (hj : s.resyncing p.object = false) (ht : s.timeOk p.time = true)
include hc h hj ht

theorem State.doChannelStart_arms (hi : p.item = 0) (he : s.tooEarly ch p.time = false) (hf : s.dev.fatal = false)
    (hd : s.grp.role ≠ .detached) (hst : ch.st = .defined ∨ ch.st = .stopped) (htab : ch.tableMissing = false) :
    s.doChannelStart p = (s.setChan p.object { ch with
      st := .armed, prev := ch.st, startPic := s.timedPic ch p.time, startTime := timeNs p.time s.time, stopPic := none
      nextPic := ch.picAfter s.time.now }).reply (leBytes 8 (ch.index (s.timedPic ch p.time))) := by
  rw [State.doChannelStart, State.checked_pass, h]
  simp [State.chanIn, State.chanIs, h, hj, ht, hi, he, hf, hd, hst, htab, hc]

theorem State.doChannelStop_armed (hi : p.item = 0) (hst : ch.st = .armed)
    (he : p.time.zero = true ∨ s.stopLimit ch ≤ s.fieldTicks p.time) :
    s.doChannelStop p = ((s.setChan p.object { ch with st := ch.prev, refs := ch.refs.stopped }).cancelMarks p.object ch).reply
      (leBytes 8 (2 ^ 64 - 1)) := by
  rw [State.doChannelStop, State.checked_pass, h]
  · simp [hst]
  · simp [State.chanIn, State.chanIs, h, hj, ht, hi, hst, hc, not_before_of_le he, -Bool.and_eq_false_imp]

theorem State.doChannelStop_running (hi : p.item = 0) (hst : ch.st = .running)
    (he : p.time.zero = true ∨ s.stopLimit ch ≤ s.fieldTicks p.time) :
    let n := max ch.nextPic (ch.picAt (max (s.fieldTicks p.time) (s.stopLimit ch)))
    s.doChannelStop p = (s.setChan p.object { ch with st := .stopping, stopPic := some n }).reply (leBytes 8 (ch.index n - 1)) := by
  intro n
  rw [State.doChannelStop, State.checked_pass, h]
  · simp [hst, n]
  · simp [State.chanIn, State.chanIs, h, hj, ht, hi, hst, hc, not_before_of_le he, -Bool.and_eq_false_imp]

theorem State.doChannelRefresh_notes (hi : p.item = 0) (he : s.tooEarly ch p.time = false) (hd : s.grp.role ≠ .detached)
    (hst : ch.st = .armed ∨ ch.st = .running) :
    s.doChannelRefresh p = (s.setChan p.object
      { ch with refs := { ch.refs with requests := insertNat (s.timedPic ch p.time) ch.refs.requests } }).reply
        (leBytes 8 (ch.index (s.timedPic ch p.time))) := by
  rw [State.doChannelRefresh, State.checked_pass, h]
  simp [State.chanIn, State.chanIs, h, hj, ht, hi, he, hd, hst, hc]

theorem State.doLtrMark_notes (he : s.tooEarly ch p.time = false) (hd : s.grp.role ≠ .detached)
    (hst : ch.st = .armed ∨ ch.st = .running) (hi : p.item < ch.cfg.refs.ltSlots - ch.cfg.refs.anchorSlots)
    (hfree : thas ch.refs.marks p.item = false) (hn : ∀ e ∈ ch.refs.marks, e.2 ≠ s.timedPic ch p.time) :
    s.doLtrMark p = (s.setChan p.object
      { ch with refs := { ch.refs with marks := tset ch.refs.marks p.item (s.timedPic ch p.time) } }).reply
        (leBytes 8 (ch.index (s.timedPic ch p.time))) := by
  have hsum : p.item + ch.cfg.refs.anchorSlots < ch.cfg.refs.ltSlots := by omega
  have hnone : (ch.refs.marks.any fun e => e.2 == s.timedPic ch p.time) = false := by simpa using hn
  rw [State.doLtrMark, State.checked_pass, h]
  simp [State.chanIn, State.chanIs, h, hj, ht, he, hd, hst, hc, hfree, hnone, hsum]

theorem State.doLtrRelease_notes (he : s.tooEarly ch p.time = false) (hst : ch.st = .armed ∨ ch.st = .running)
    (hi : p.item < ch.cfg.refs.ltSlots) :
    s.doLtrRelease p = (s.setChan p.object
      { ch with refs := { ch.refs with releases := ch.refs.releases ++ [(p.item, s.timedPic ch p.time)] } }).reply
        (leBytes 8 (ch.index (s.timedPic ch p.time))) := by
  rw [State.doLtrRelease, State.checked_pass, h]
  simp [State.chanIn, State.chanIs, h, hj, ht, hi, he, hst, hc]

end timed

/-! ## CHANNEL_STOP of an ARMED channel (R34, R36, R105) -/

theorem State.cancelMarks_eq (s : State) (c : Nat) (ch : Chan) :
    s.cancelMarks c ch = s.countSticky (Reg.REF_MARKS_CANCELLED c) (Reg.REF_STATUS c) 0x1000 ch.refs.marks.length := by
  simp only [State.cancelMarks, State.countSticky, List.isEmpty_iff, List.length_eq_zero_iff]

theorem State.cancelMarks_rd_count (s : State) (c : Nat) (ch : Chan) : (s.cancelMarks c ch).rd (Reg.REF_MARKS_CANCELLED c)
    = s.rd (Reg.REF_MARKS_CANCELLED c) + BitVec.ofNat 32 ch.refs.marks.length := by
  rw [State.cancelMarks_eq, State.countSticky_rd_self]
  unfold Reg.REF_STATUS Reg.REF_MARKS_CANCELLED
  omega

theorem State.cancelMarks_rd_ne (s : State) {c off : Nat} (ch : Chan)
    (h : ¬ regIn [Reg.REF_MARKS_CANCELLED c, Reg.REF_STATUS c] off) : (s.cancelMarks c ch).rd off = s.rd off := by
  simp only [regIn, List.mem_cons, List.not_mem_nil, or_false, not_or] at h
  obtain ⟨hm, hs⟩ := h
  rw [State.cancelMarks_eq, State.countSticky_rd_ne _ _ _ (Ne.symm hm) (Ne.symm hs)]

/-- The machine in which an ARMED channel has gone back. -/
def State.disarm (s : State) (c : Nat) (ch : Chan) : State :=
  (s.setChan c { ch with st := ch.prev, refs := ch.refs.stopped }).cancelMarks c ch

theorem State.disarm_touches (s : State) (c : Nat) (ch : Chan) : Touches [.regs, .chans] s (s.disarm c ch) :=
  ((s.setChan_touches c _).mono (by decide)).then (State.cancelMarks_touches ..) (by decide)

theorem State.disarm_chans (s : State) (c : Nat) (ch : Chan) :
    (s.disarm c ch).chans = tset s.chans c { ch with st := ch.prev, refs := ch.refs.stopped } :=
  (State.cancelMarks_touches ..).same .chans (by decide)

/-! ## CHANNEL_SET and CHANNEL_COMMIT (R10, R241, R344) -/

theorem State.doChannelSet_writes {s : State} {p : ChannelSetArg} {ch : Chan} (hc : p.channel ≤ 63) (h : tget s.chans p.channel = some ch)
    (hr : s.chanRefused p.channel = false) (hz : setZeros p = true) (hok : shadowOk ch.cfg (setFields ch.shadow p) = true)
    (hv : wbit p.select 0 = true → ch.cfg.main.renditionOf = 0xFF ∧ s.videoFlowOk p.channel p.flowA p.flowB ch.cfg.main = true) :
    s.doChannelSet p = (s.updChan p.channel fun ch => { ch with shadow := setFields ch.shadow p }).done := by
  rw [State.doChannelSet, State.checked_pass]
  simpa [State.chanIs, h, hr, hz, hok, hc] using hv

/-- The machine in which a commit of channel `c` is due. -/
def State.commitNext (s : State) (c : Nat) (ch : Chan) : State :=
  (s.updGch c fun g => g.commit ch.shadow).setChan c { ch with commitDue := true }

theorem State.commitNext_touches (s : State) (c : Nat) (ch : Chan) : Touches [.chans, .grp] s (s.commitNext c ch) :=
  ((s.updGch_touches c _).mono (by decide)).then (State.setChan_touches ..) (by decide)

theorem State.commitNext_gch (s : State) (c : Nat) (ch : Chan) : (s.commitNext c ch).gch c = (s.gch c).commit ch.shadow :=
  tgetD_tset_self ..

theorem State.doChannelCommit_raises {s : State} {p : ChArg} {ch : Chan} (hc : p.object ≤ 63) (hi : p.item = 0)
    (h : tget s.chans p.object = some ch) (hr : s.chanRefused p.object = false) (hf : s.commitFlowBad p.object ch = false)
    (ht : ch.tablesBad = false) :
    s.doChannelCommit p = (s.commitNext p.object ch).reply (leBytes 4 (((s.gch p.object).gen + 1) % 2 ^ 32)) := by
  rw [State.doChannelCommit, State.checked_pass, h]
  · exact congrArg (fun g : GrpChan => (s.commitNext p.object ch).reply (leBytes 4 g.gen)) (s.commitNext_gch p.object ch)
  · simp [State.chanIs, h, hr, hf, ht, hi, hc]

/-! ## Counts of a channel that is defined or deleted (R40) -/

theorem State.rd_congr {s t : State} (h : t.regs = s.regs) (off : Nat) : t.rd off = s.rd off := congrArg (bget · off) h

theorem State.rd_mbx (s : State) (m : MbxState) (off : Nat) : State.rd { s with mbx := m } off = s.rd off := rfl

/-- A cell at 0 whose reset value is 0 stays so when registers are cleared. -/
theorem State.clearRegs_rd_zero {s : State} {off : Nat} (hs : s.rd off = 0) (hr : Reg.reset off = 0) (lo hi : Nat) :
    (s.clearRegs lo hi).rd off = 0 := by
  rw [State.rd_eq, State.clearRegs_regs, bget_bclear]
  split
  · exact hr
  · exact hs

theorem reset_CHN_STATUS {c : Nat} (hc : c ≤ 63) : Reg.reset (Reg.CHN_STATUS c) = 0 := by
  unfold Reg.CHN_STATUS Reg.reset
  rw [if_neg (by omega), if_neg (by omega), if_pos (by omega)]

theorem State.clearChanRegs_rd_status (s : State) {c : Nat} (hc : c ≤ 63) : (s.clearChanRegs c).rd (Reg.CHN_STATUS c) = 0 := by
  have hr := reset_CHN_STATUS hc
  have hblock : (s.clearRegs (0x00400000 + 0x1000 * c) (0x00401000 + 0x1000 * c)).rd (Reg.CHN_STATUS c) = 0 := by
    rw [State.rd_eq, State.clearRegs_regs, bget_bclear, if_pos (by unfold Reg.CHN_STATUS; omega), hr]
  exact State.clearRegs_rd_zero (State.clearRegs_rd_zero (State.clearRegs_rd_zero hblock hr ..) hr ..) hr ..

/-! ## CHANNEL_DEFINE (R23, R24, R342) -/

/-- The channel that a definition makes on the engines that R26 places it on. -/
def State.newChan (s : State) (p : ChannelDefineArg) : Chan :=
  chanOf p ((s.placeEngines ((slotsOf p.main.format p.main.rateId).getD 1) (mainK p.main)).getD []) s.time.now

/-- The machine in which every count and packet of an earlier channel is gone. -/
def State.freshChan (s : State) (c : Nat) : State := (((s.clearChanRegs c).clearMerge c).clearMerge (144 + c)).dropEgress c

/-- The machine with the channel of a definition. -/
def State.withChan (s : State) (p : ChannelDefineArg) : State :=
  let t := s.freshChan p.channel
  State.setChan { t with
    surf := { t.surf with heap := (placeChannel t.surf.heap p.channel p.main p.refs).getD t.surf.heap }
    txc := tset t.txc p.channel { nextSeq := p.out.seqInit }
    grp := { t.grp with chans := tset t.grp.chans p.channel { inSync := true, held := [(0, (s.newChan p).shadow)] } } }
    p.channel (s.newChan p)

section define
variable {s : State} {p : ChannelDefineArg} (hok : s.defineOk p = true) (h : tget s.chans p.channel = none)
  (hj : s.resyncing p.channel = false) (hfit : s.fits p = true)
include hok h hj hfit

theorem State.doChannelDefine_defines : s.doChannelDefine p = (s.withChan p).reply
    (leBytes 4 (s.newChan p).dPipe ++ leBytes 4 (s.newChan p).dPipeMin ++ leBytes 2 (engineMask (s.newChan p).engines)
      ++ leBytes 1 (s.newChan p).slots ++ leBytes 1 (s.newChan p).k ++ leBytes 4 (s.newChan p).hbm) := by
  rw [State.doChannelDefine, State.checked_pass]
  · rfl
  · simp [thas, hok, h, hj, hfit]

theorem State.withChan_touches : Touches [.regs, .chans, .surf, .tx, .txc, .grp] s (s.withChan p) := by
  have ht := s.doChannelDefine_touches p
  rwa [State.doChannelDefine_defines hok h hj hfit] at ht

end define

section withChan
variable (s : State) (p : ChannelDefineArg)

theorem State.withChan_chans : (s.withChan p).chans = tset s.chans p.channel (s.newChan p) := rfl

theorem State.withChan_rd (off : Nat) :
    (s.withChan p).rd off = (((s.clearChanRegs p.channel).clearMerge p.channel).clearMerge (144 + p.channel)).rd off :=
  State.rd_congr rfl off

theorem State.withChan_surfs : (s.withChan p).surf.surfs = s.surf.surfs := rfl

theorem State.withChan_role : (s.withChan p).grp.role = s.grp.role := rfl

theorem State.withChan_gch : (s.withChan p).gch p.channel = { inSync := true, held := [(0, (s.newChan p).shadow)] } := tgetD_tset_self ..

theorem State.withChan_txc : tgetD (s.withChan p).txc p.channel {} = { nextSeq := p.out.seqInit } := tgetD_tset_self ..

end withChan

theorem State.withChan_rd_status (s : State) {p : ChannelDefineArg} (hc : p.channel ≤ 63) :
    (s.withChan p).rd (Reg.CHN_STATUS p.channel) = 0 := by
  have hr := reset_CHN_STATUS hc
  rw [s.withChan_rd]
  exact State.clearRegs_rd_zero (State.clearRegs_rd_zero (s.clearChanRegs_rd_status hc) hr ..) hr ..

theorem State.defineOk_channel {s : State} {p : ChannelDefineArg} (h : s.defineOk p = true) : p.channel ≤ 63 := by
  simp only [State.defineOk, Bool.and_eq_true, decide_eq_true_eq] at h
  omega

/-! ## CHANNEL_DELETE (R28, R34, R374) -/

/-- The machine without channel `c`; with the last one a unit that is not a member settles. -/
def State.deleteChan (s : State) (c : Nat) : State :=
  let t := (s.clearChanRegs c).dropEgress c
  State.settleFree { t with
    chans := tdel t.chans c
    surf := { t.surf with heap := freeOwner t.surf.heap c }
    grp := { t.grp with chans := tdel t.grp.chans c } }

section delete
variable (s : State) (c : Nat)

theorem State.deleteChan_chans : (s.deleteChan c).chans = tdel s.chans c := (State.settleFree_touches _).same .chans (by decide)

theorem State.deleteChan_surf : (s.deleteChan c).surf = { s.surf with heap := freeOwner s.surf.heap c } :=
  (State.settleFree_touches _).same .surf (by decide)

variable {c}

theorem State.deleteChan_rd_status (hc : c ≤ 63) : (s.deleteChan c).rd (Reg.CHN_STATUS c) = 0 :=
  ((State.settleFree_touches _).rd_eq (by decide) _).trans
    ((State.rd_congr (s := s.clearChanRegs c) rfl _).trans (s.clearChanRegs_rd_status hc))

theorem State.settleFree_role {s : State} (hc : s.chans = []) (hr : s.grp.role = .detached) : s.settleFree.grp.role = .none := by
  have hm : s.member = false := by rw [State.member, hr]; rfl
  rw [State.settleFree, if_pos (by rw [hc, hm]; rfl)]

theorem State.deleteChan_role (hc : tdel s.chans c = []) (hr : s.grp.role = .detached) : (s.deleteChan c).grp.role = .none :=
  State.settleFree_role hc hr

end delete

section frees
variable {s : State} {p : ChArg} {ch : Chan} (hc : p.object ≤ 63) (hi : p.item = 0) (h : tget s.chans p.object = some ch)
  (hst : ch.st = .defined ∨ ch.st = .stopped) (hj : s.resyncing p.object = false)
  (hn : ∀ e ∈ s.chans, e.2.cfg.main.renditionOf ≠ p.object)
include hc hi h hst hj hn

theorem State.doChannelDelete_frees : s.doChannelDelete p = (s.deleteChan p.object).done := by
  have hnone : (s.chans.any fun e => e.2.cfg.main.renditionOf == p.object) = false := by simpa using hn
  rw [State.doChannelDelete, State.checked_pass]
  · rfl
  · simp [State.chanIn, h, hj, hst, hi, hc, hnone]

theorem State.deleteChan_touches : Touches [.regs, .chans, .surf, .tx, .txc, .grp] s (s.deleteChan p.object) := by
  have ht := s.doChannelDelete_touches p
  rwa [State.doChannelDelete_frees hc hi h hst hj hn] at ht

end frees

theorem mem_of_tget {α : Type} {t : Tab α} {k : Nat} {a : α} (h : tget t k = some a) : (k, a) ∈ t := by
  induction t with
  | nil => exact absurd h nofun
  | cons e r ih =>
    obtain ⟨j, b⟩ := e
    rw [tget_cons] at h
    split at h
    · next hj => exact List.mem_cons.2 (.inl (by rw [hj, Option.some.inj h]))
    · exact List.mem_cons_of_mem _ (ih h)

/-- No buffer of an owner is left once its buffers are freed. -/
theorem tget_freeOwner_ne {heap : Tab (Nat × Nat)} {c a n : Nat} : tget (freeOwner heap c) a ≠ some (n, c) := by
  intro h
  have hkept := (List.mem_filter.1 (mem_of_tget h)).2
  simp at hkept

/-! ## The statement -/

/-- Settles O55: each command by what its body does when no check refuses it. -/
theorem channelCommands : Obligations.ChannelCommands := by
  unfold Obligations.ChannelCommands
  intro others at_ timely
  have hat : at_ = State.timedPic := by
    funext s ch f
    exact (s.timedPic_eq ch f).symm
  clear_value at_
  subst hat
  have passes {s : State} {ch : Chan} {f : TimeField} (ht : timely s ch f) : s.timeOk f = true ∧ s.tooEarly ch f = false :=
    ⟨State.timeOk_of ht.1 ht.2.1, State.tooEarly_of ht.2.2⟩
  refine ⟨fun s h g b p hs hok hfree hj hfit => ?define, fun s h g b p ch hs hc hi hch hst hj hn => ?delete,
    fun s h g b p ch hc hch hj => ⟨fun hs hi ht hf hd hst htab => ?start, fun hs hi ht hst => ?disarm, fun hs hi hns hz hst he => ?stop,
      fun hs hi ht hd hst => ?refresh, fun hs ht hd hst hi hfree hn => ?mark, fun hs ht hst hi => ?release⟩,
    fun s h g b p ch hs hc hch hr hz hok hv => ?set, fun s h g b p ch hs hc hi hch hr hf htab => ?commit⟩
  case define =>
    refine .of_answer (f := (·.withChan p)) rfl hs (by decide) (fun m o _ => State.doChannelDefine_defines hok hfree hj hfit)
      (fun m o => State.withChan_touches hok hfree hj hfit) (fun _ _ _ hr => absurd trivial hr) fun m o k => ?_
    have hchans : ((s.atBody m o).withChan p).chans = tset s.chans p.channel (s.newChan p) := State.withChan_chans ..
    have hstatus := (((s.atBody m o).withChan p).rd_mbx k _).trans
      ((s.atBody m o).withChan_rd_status (State.defineOk_channel hok))
    exact ⟨(congrArg (tget · p.channel) hchans).trans (tget_tset_self ..), rfl, rfl,
      fun j hj => (congrArg (tget · j) hchans).trans (tget_tset_ne (Ne.symm hj) ..), hstatus,
      State.withChan_surfs (s.atBody m o) p, (congrArg GrpChan.gen ((s.atBody m o).withChan_gch p) :),
      (congrArg TxChan.nextSeq ((s.atBody m o).withChan_txc p) :), State.withChan_role (s.atBody m o) p⟩
  case delete =>
    refine .of_answer (f := (·.deleteChan p.object)) rfl hs (by decide)
      (fun m o _ => State.doChannelDelete_frees (s := s.atBody m o) hc hi hch hst hj hn)
      (fun m o => State.deleteChan_touches (s := s.atBody m o) hc hi hch hst hj hn) (fun _ _ _ hr => absurd trivial hr) fun m o k => ?_
    have hchans := (s.atBody m o).deleteChan_chans p.object
    have hsurf := (s.atBody m o).deleteChan_surf p.object
    have hstatus := (((s.atBody m o).deleteChan p.object).rd_mbx k _).trans ((s.atBody m o).deleteChan_rd_status hc)
    exact ⟨(congrArg (tget · p.object) hchans).trans (tget_tdel_self ..),
      fun j hj => (congrArg (tget · j) hchans).trans (tget_tdel_ne (Ne.symm hj) _), (congrArg SurfState.surfs hsurf :),
      fun a n ha => tget_freeOwner_ne ((congrArg (fun f : SurfState => tget f.heap a) hsurf).symm.trans ha),
      hstatus, fun ⟨hnil, hrole⟩ => (s.atBody m o).deleteChan_role hnil hrole⟩
  case start =>
    obtain ⟨hto, hte⟩ := passes ht
    exact .of_setChan rfl hs fun m o _ => State.doChannelStart_arms hc hch hj hto hi hte hf hd hst htab
  case disarm =>
    have hlim : p.time.zero = true ∨ s.stopLimit ch ≤ s.fieldTicks p.time := by
      refine ht.2.2.imp_right fun hle => ?_
      show ch.clock s.time.now + ch.cfg.main.tp ≤ nsTicks (timeNs p.time s.time)
      omega
    refine .of_answer (f := (·.disarm p.object ch)) rfl hs (by decide)
      (fun m o _ => State.doChannelStop_armed hc hch hj (passes ht).1 hi hst hlim) (fun m o => State.disarm_touches ..)
      (fun m o off hr => State.cancelMarks_rd_ne _ ch hr) fun m o k => ?_
    have hchans := State.disarm_chans (s.atBody m o) p.object ch
    exact ⟨congrArg (Option.map _) ((congrArg (tget · p.object) hchans).trans (tget_tset_self ..)),
      fun j hj => (congrArg (tget · j) hchans).trans (tget_tset_ne (Ne.symm hj) ..), State.cancelMarks_rd_count ..⟩
  case stop =>
    exact .of_setChan rfl hs fun m o _ => State.doChannelStop_running hc hch hj (State.timeOk_of hns hz) hi hst he
  case refresh =>
    obtain ⟨hto, hte⟩ := passes ht
    exact .of_setChan rfl hs fun m o _ => State.doChannelRefresh_notes hc hch hj hto hi hte hd hst
  case mark =>
    obtain ⟨hto, hte⟩ := passes ht
    exact .of_setChan rfl hs fun m o _ => State.doLtrMark_notes hc hch hj hto hte hd hst hi hfree hn
  case release =>
    obtain ⟨hto, hte⟩ := passes ht
    exact .of_setChan rfl hs fun m o _ => State.doLtrRelease_notes hc hch hj hto hte hst hi
  case set =>
    exact .of_answer (f := (·.updChan p.channel fun ch => { ch with shadow := setFields ch.shadow p })) rfl hs (by decide)
      (fun m o _ => State.doChannelSet_writes (s := s.atBody m o) hc hch hr hz hok hv) (fun m o => State.updChan_touches ..)
      (fun _ _ _ _ => rfl) fun m o k =>
        ⟨fun k hk => tget_tupd_ne (Ne.symm hk) .., _, State.updChan_self (s := s) hch _, rfl, rfl, rfl, rfl, rfl, rfl⟩
  case commit =>
    refine .of_answer (f := (·.commitNext p.object ch)) rfl hs (by decide)
      (fun m o _ => State.doChannelCommit_raises hc hi hch hr hf htab) (fun m o => State.commitNext_touches ..) (fun _ _ _ _ => rfl)
      fun m o k => ?_
    have hg := State.commitNext_gch (s.atBody m o) p.object ch
    exact ⟨tget_tset_self .., fun j hj => tget_tset_ne (Ne.symm hj) .., (congrArg GrpChan.gen hg :),
      (congrArg GrpChan.genNow hg :), rfl⟩

end Sys2Proof.Machine
end

section
/-!
PROOFS. Rows of pictures: what a change of one row makes of the others, and which steps leave the rows alone (R44, R66, R112).
-/
namespace Sys2Proof.Machine
open Sys2Proof

/-! ## Reading a row -/

section rows
variable {s : State} {c n r : Nat} {ch : Chan} {p : Pic}

theorem Chan.duRow_eq (ch : Chan) (n r : Nat) : ch.duRow (n, r) = (ch.pic? n).elim {} (·.row r) := by
  cases h : ch.pic? n <;> simp only [Chan.duRow, h, Option.elim]

theorem State.du_eq_duRow (s : State) (c n r : Nat) : s.du c n r = (tget s.chans c).elim {} (·.duRow (n, r)) := by
  cases h : tget s.chans c <;> simp only [State.du, h, Option.elim, Option.bind, Chan.duRow_eq]

theorem State.du_of_chan (h : tget s.chans c = some ch) : s.du c n r = ch.duRow (n, r) := by
  rw [State.du_eq_duRow, h]; rfl

theorem State.du_of_pic (h : tget s.chans c = some ch) (hp : ch.pic? n = some p) : s.du c n r = p.row r := by
  rw [State.du_of_chan h, Chan.duRow_eq, hp]; rfl

theorem State.hasDu_iff : s.hasDu c n r = true ↔ ∃ ch p, tget s.chans c = some ch ∧ ch.pic? n = some p ∧ r < ch.cfg.main.rows := by
  unfold State.hasDu
  cases h : tget s.chans c with
  | none => simp
  | some ch => simp [Option.isSome_iff_exists]

theorem State.onRow_of_not_hasDu (h : s.hasDu c n r = false) (f : Chan → Pic → Row → State → State) : s.onRow c n r f = s := by
  unfold State.onRow State.onChan
  split
  · rfl
  · next ch hc =>
    dsimp only
    split
    · rfl
    · next p hp =>
      exact if_neg fun hr => absurd (State.hasDu_iff.2 ⟨ch, p, hc, hp, hr⟩) (by simp [h])

theorem State.onRow_some (hd : s.hasDu c n r = true) (h : tget s.chans c = some ch) (hp : ch.pic? n = some p)
    (f : Chan → Pic → Row → State → State) : s.onRow c n r f = f ch p (s.du c n r) s := by
  obtain ⟨ch', p', h', hp', hr⟩ := State.hasDu_iff.1 hd
  obtain rfl : ch = ch' := Option.some.inj (h.symm.trans h')
  rw [State.onRow, State.onChan_some h, State.du_of_pic h hp]
  simp only [hp, if_pos hr]

end rows

theorem Pic.row_updRow (p : Pic) (r q : Nat) (f : Row → Row) : (p.updRow r f).row q = if q = r then f (p.row r) else p.row q := by
  unfold Pic.row Pic.updRow tgetD
  rw [tget_tset]
  by_cases h : q = r
  · rw [if_pos h, if_pos h.symm]; rfl
  · rw [if_neg h, if_neg (Ne.symm h)]

theorem Chan.pic?_updPic (ch : Chan) (n m : Nat) (f : Pic → Pic) :
    (ch.updPic n f).pic? m = if m = n then (ch.pic? n).map f else ch.pic? m := by
  rw [Chan.pic?, Chan.updPic, tget_tupd]
  by_cases h : m = n
  · subst h; rw [if_pos rfl, if_pos rfl]; rfl
  · rw [if_neg (Ne.symm h), if_neg h]; rfl

theorem Chan.pic?_updPic_isSome (ch : Chan) (n m : Nat) (f : Pic → Pic) : ((ch.updPic n f).pic? m).isSome = (ch.pic? m).isSome := by
  rw [Chan.pic?_updPic]
  split
  · next h => rw [h, Option.isSome_map]
  · rfl

/-- A change of a picture that leaves its rows alone leaves every row of the channel alone. -/
theorem Chan.duRow_updPic (ch : Chan) {n : Nat} {f : Pic → Pic} (hf : ∀ p, (f p).rows = p.rows) (m q : Nat) :
    (ch.updPic n f).duRow (m, q) = ch.duRow (m, q) := by
  rw [Chan.duRow_eq, Chan.duRow_eq, Chan.pic?_updPic]
  split
  · next h =>
    subst h
    cases ch.pic? m with
    | none => rfl
    | some p => exact congrArg (fun t : Tab Row => tgetD t q {}) (hf p)
  · rfl

theorem Chan.duRow_updRow_self {ch : Chan} {n : Nat} (h : (ch.pic? n).isSome = true) (r : Nat) (f : Row → Row) :
    (ch.updRow n r f).duRow (n, r) = f (ch.duRow (n, r)) := by
  obtain ⟨p, hp⟩ := Option.isSome_iff_exists.1 h
  rw [Chan.duRow_eq, Chan.duRow_eq, Chan.updRow, Chan.pic?_updPic, if_pos rfl, hp]
  exact (p.row_updRow r r f).trans (if_pos rfl)

theorem Chan.duRow_updRow_ne (ch : Chan) {n r m q : Nat} (h : ¬ (m = n ∧ q = r)) (f : Row → Row) :
    (ch.updRow n r f).duRow (m, q) = ch.duRow (m, q) := by
  rw [Chan.duRow_eq, Chan.duRow_eq, Chan.updRow, Chan.pic?_updPic]
  split
  · next hm =>
    subst hm
    cases ch.pic? m with
    | none => rfl
    | some p => exact (p.row_updRow r q f).trans (if_neg fun hq => h ⟨rfl, hq⟩)
  · rfl

/-- `b` comes from `a` by a step that leaves the configuration and every row alone. -/
structure Chan.SameRows (a b : Chan) : Prop where
  cfg : b.cfg = a.cfg
  pic : ∀ m, (b.pic? m).isSome = (a.pic? m).isSome
  row : ∀ m q, b.duRow (m, q) = a.duRow (m, q)

theorem Chan.SameRows.of_pics {a b : Chan} (hc : b.cfg = a.cfg) (hp : b.pics = a.pics) : a.SameRows b := by
  refine ⟨hc, fun m => ?_, fun m q => ?_⟩
  · rw [Chan.pic?, Chan.pic?, hp]
  · rw [Chan.duRow_eq, Chan.duRow_eq, Chan.pic?, Chan.pic?, hp]

theorem Chan.SameRows.updPic {a b : Chan} (h : a.SameRows b) (n : Nat) {f : Pic → Pic} (hf : ∀ p, (f p).rows = p.rows) :
    a.SameRows (b.updPic n f) :=
  ⟨h.cfg, fun m => (b.pic?_updPic_isSome n m f).trans (h.pic m), fun m q => (b.duRow_updPic hf m q).trans (h.row m q)⟩

/-! ## Steps that change one row -/

/-- The channels of `t` are those of `s`, with the same configurations and the same pictures, and but for row `r` of picture `n` of channel
`c`, which `f` has changed where it exists, with the same rows. -/
structure RowStep (c n r : Nat) (f : Row → Row) (s t : State) : Prop where
  row : s.hasDu c n r = true → t.du c n r = f (s.du c n r)
  other : OtherDus c n r s t
  has : ∀ a b d, t.hasDu a b d = s.hasDu a b d
  cfg : ∀ j, (tget t.chans j).map (·.cfg) = (tget s.chans j).map (·.cfg)

namespace RowStep
variable {c n r : Nat} {f g : Row → Row} {s t u : State}

theorem trans (x : RowStep c n r f s t) (y : RowStep c n r g t u) : RowStep c n r (g ∘ f) s u where
  row h := (y.row (by rw [x.has, h])).trans (congrArg g (x.row h))
  other a b d h := (y.other a b d h).trans (x.other a b d h)
  has a b d := (y.has a b d).trans (x.has a b d)
  cfg j := (y.cfg j).trans (x.cfg j)

theorem of_chans (h : t.chans = s.chans) : RowStep c n r id s t := by
  refine ⟨fun _ => ?_, fun a b d _ => ?_, fun a b d => ?_, fun j => ?_⟩
  all_goals simp only [State.du, State.hasDu, h, id]

theorem refl (c n r : Nat) (s : State) : RowStep c n r id s s := .of_chans rfl

theorem of_touches {l : List Fld} (h : Touches l s t) (hl : .chans ∉ l) : RowStep c n r id s t := .of_chans (h.same .chans hl)

/-- A further operation that leaves the channels alone. -/
theorem thenTouches {l : List Fld} (x : RowStep c n r f s t) (h : Touches l t u) (hl : .chans ∉ l) : RowStep c n r f s u :=
  x.trans (.of_touches h hl)

/-- A further operation that leaves every row alone. -/
theorem thenId (x : RowStep c n r f s t) (y : RowStep c n r id t u) : RowStep c n r f s u := x.trans y

theorem chan (x : RowStep c n r f s t) {j : Nat} {ch : Chan} (h : tget s.chans j = some ch) :
    ∃ a, tget t.chans j = some a ∧ a.cfg = ch.cfg := by
  have hc := x.cfg j
  rw [h] at hc
  obtain ⟨a, ha, hac⟩ := Option.map_eq_some_iff.1 hc
  exact ⟨a, ha, hac⟩

/-- What is done to a row is said by what it makes of the row as it stands. -/
theorem congr (x : RowStep c n r f s t) (h : g (s.du c n r) = f (s.du c n r)) : RowStep c n r g s t :=
  ⟨fun hd => (x.row hd).trans h.symm, x.other, x.has, x.cfg⟩

/-- An operation on the row, by what it does where the row exists. -/
theorem onRow {k : Chan → Pic → Row → State → State} (h : ∀ ch p, tget s.chans c = some ch → ch.pic? n = some p →
    s.hasDu c n r = true → RowStep c n r f s (k ch p (s.du c n r) s)) : RowStep c n r f s (s.onRow c n r k) := by
  cases hd : s.hasDu c n r with
  | false =>
    rw [State.onRow_of_not_hasDu hd]
    exact ⟨fun ht => absurd ht (by simp [hd]), fun _ _ _ _ => rfl, fun _ _ _ => rfl, fun _ => rfl⟩
  | true =>
    obtain ⟨ch, p, hc, hp, -⟩ := State.hasDu_iff.1 hd
    rw [State.onRow_some hd hc hp]
    exact h ch p hc hp hd

/-- An operation on the channel that leaves its rows alone. -/
theorem onChanId {k : Chan → State → State} (h : ∀ ch, RowStep c n r id s (k ch s)) : RowStep c n r id s (s.onChan c k) := by
  unfold State.onChan
  split
  · exact .refl ..
  · exact h _

/-- A change of the channel that keeps its configuration and its pictures, and of its rows all but the one named. -/
theorem updChan {h : Chan → Chan} (s : State) (hcfg : ∀ a, (h a).cfg = a.cfg) (hpic : ∀ a m, ((h a).pic? m).isSome = (a.pic? m).isSome)
    (hrow : ∀ a, tget s.chans c = some a → (a.pic? n).isSome = true → (h a).duRow (n, r) = f (a.duRow (n, r)))
    (hne : ∀ a m q, ¬ (m = n ∧ q = r) → (h a).duRow (m, q) = a.duRow (m, q)) : RowStep c n r f s (s.updChan c h) := by
  have hself : tget (s.updChan c h).chans c = (tget s.chans c).map h := tget_tupd_self ..
  have hget {j : Nat} (hj : j ≠ c) : tget (s.updChan c h).chans j = tget s.chans j := tget_tupd_ne (Ne.symm hj) ..
  refine ⟨fun hd => ?_, fun a b d hk => ?_, fun a b d => ?_, fun j => ?_⟩
  · obtain ⟨ch, p, hc, hp, -⟩ := State.hasDu_iff.1 hd
    rw [State.du_eq_duRow, hself, hc, State.du_of_chan hc]
    exact hrow ch hc (by rw [hp]; rfl)
  · rw [State.du_eq_duRow, State.du_eq_duRow]
    by_cases ha : a = c
    · subst ha
      rw [hself]
      cases tget s.chans a with
      | none => rfl
      | some x => exact hne x b d fun hm => hk ⟨rfl, hm⟩
    · rw [hget ha]
  · rw [State.hasDu, State.hasDu]
    by_cases ha : a = c
    · subst ha
      rw [hself]
      cases tget s.chans a <;> simp [hcfg, hpic]
    · rw [hget ha]
  · by_cases hj : j = c
    · subst hj
      rw [hself]
      cases tget s.chans j <;> simp [hcfg]
    · rw [hget hj]

/-- A change of the channel that leaves its rows alone. -/
theorem updChanId {h : Chan → Chan} (s : State) (hs : ∀ a, Chan.SameRows a (h a)) : RowStep c n r id s (s.updChan c h) :=
  updChan s (fun a => (hs a).cfg) (fun a => (hs a).pic) (fun a _ _ => (hs a).row n r) fun a m q _ => (hs a).row m q

/-- A change of the row itself, by what `h` makes of the channel it stands in. -/
theorem updRow {h : Chan → Row → Row} {ch : Chan} (hc : tget s.chans c = some ch) :
    RowStep c n r (h ch) s (s.updChan c fun a => a.updRow n r (h a)) :=
  updChan s (fun _ => rfl) (fun a m => a.pic?_updPic_isSome n m _)
    (fun a ha hs => by rw [Chan.duRow_updRow_self hs, Option.some.inj (hc.symm.trans ha)])
    fun a m q hk => a.duRow_updRow_ne hk _

end RowStep

/-! ## Marks and sweeps (R66, R112) -/

/-- A DU that is not sent and not substituted is marked, its proof abandoned (R66). -/
def Row.mark (x : Row) : Row := if x.sent || x.substituted || x.marked then x else { x with marked := true, proof := .none }

theorem Row.mark_eq {x : Row} (hm : x.marked = false) (hs : x.sent = false) (hu : x.substituted = false) :
    x.mark = { x with marked := true, proof := .none } := by simp [Row.mark, hm, hs, hu]

theorem rowStep_markDu (s : State) (c n r : Nat) : RowStep c n r Row.mark s (s.markDu c n r) := by
  refine .onRow fun ch p hc hp hd => ?_
  split
  · next h => exact (RowStep.refl c n r s).congr (if_pos h)
  · next h =>
    exact ((RowStep.of_chans rfl : RowStep c n r id s { s with eng := s.eng.drop c n r }).trans (.updRow hc)).congr (if_neg h)

theorem rowStep_sweepAbandon (s : State) (c n : Nat) (w : Sweep) (m r : Nat) : RowStep c m r id s (s.sweepAbandon c n w) := by
  unfold State.sweepAbandon
  extract_lets s1 s2 s3
  have h1 : RowStep c m r id s s1 := .of_touches (s.sweepFailCount_touches c) (by decide)
  have h2 : RowStep c m r id s s2 := h1.thenId (.updChanId _ fun _ => .of_pics rfl rfl)
  have h3 : RowStep c m r id s s3 := by
    unfold s3
    split
    · exact h2.thenTouches (State.sticky_touches ..) (by decide)
    · exact h2
  refine h3.thenId (.onChanId fun ch => ?_)
  dsimp only
  split
  · split
    · exact .refl ..
    · refine .updChanId _ fun a => Chan.SameRows.updPic (.of_pics ?_ ?_) _ fun _ => ?_ <;> rfl
  · exact .refl ..

theorem rowStep_sweepEnd (s : State) (c n m r : Nat) : RowStep c m r id s (s.sweepEnd c n) := by
  refine .onChanId fun ch => ?_
  split
  · split
    · exact rowStep_sweepAbandon ..
    · exact .refl ..
  · exact .refl ..

/-- What the end of a sweep counts (R112). -/
theorem State.sweepEnd_rd (s : State) {c n off : Nat} (h : off ∉ [Reg.REF_SWEEPS_FAILED c, Reg.REF_STATUS c, Reg.GRP_CHN_STATUS c]) :
    (s.sweepEnd c n).rd off = s.rd off := by
  simp only [List.mem_cons, List.not_mem_nil, or_false, not_or] at h
  obtain ⟨hf, hs, hg⟩ := h
  have habandon (w : Sweep) : (s.sweepAbandon c n w).rd off = s.rd off := by
    unfold State.sweepAbandon
    extract_lets s1 s2 s3
    have h2 : s2.rd off = s.rd off := (State.rd_wr_ne (Ne.symm hs) ..).trans (State.rd_wr_ne (Ne.symm hf) ..)
    have h3 : s3.rd off = s.rd off := by
      unfold s3
      split
      · exact (State.rd_wr_ne (Ne.symm hg) ..).trans h2
      · exact h2
    unfold State.onChan
    split
    · exact h3
    · dsimp only
      split
      · split <;> exact h3
      · exact h3
  unfold State.sweepEnd State.onChan
  split
  · rfl
  · dsimp only
    split
    · split
      · exact habandon _
      · rfl
    · rfl

/-! ## Releases (R48, R63, R66) -/

theorem rowStep_takeAlf (s : State) (c n m r : Nat) : RowStep c m r id s (s.takeAlf c n) := by
  refine .updChanId s fun a => ?_
  dsimp only
  split
  · split
    · refine Chan.SameRows.updPic (.of_pics ?_ ?_) n fun _ => ?_ <;> rfl
    · exact .of_pics rfl rfl
  · exact .of_pics rfl rfl

/-- A poisoned read counts once in a DU's engine and marks it (R66, R75). -/
theorem rowStep_poisonDu (s : State) (c n r : Nat) :
    RowStep c n r (fun x => Row.mark { x with poisonRead := true }) s (s.poisonDu c n r) := by
  refine .onRow fun ch p hc hp hd => ?_
  dsimp only
  split
  · next h => exact (rowStep_markDu s c n r).congr (by simp only [← h])
  · have hcount : RowStep c n r id s (s.engCount (s.du c n r).engine (Reg.ENG_POISON_READS (s.du c n r).engine) 10) :=
      .of_touches (State.engCount_touches ..) (by decide)
    obtain ⟨a, ha, -⟩ := hcount.chan hc
    exact (hcount.trans (.updRow (h := fun _ x => { x with poisonRead := true }) ha)).trans (rowStep_markDu ..)

end Sys2Proof.Machine
end

section
/-!
PROOFS. Release of a row job (R44, R48, R66), the order in which an engine takes its jobs (R46), and the ALF derivation (R63).
-/
namespace Sys2Proof.Machine
open Sys2Proof

/-! ## The first of some jobs (R46) -/

theorem JobKey.before_iff {a b : JobKey} : a.before b = true ↔ a.due < b.due ∨ a.due = b.due ∧ (a.c < b.c ∨ a.c = b.c ∧ a.r < b.r) := by
  simp [JobKey.before]

theorem JobKey.not_before_iff {a b : JobKey} :
    (!(a.before b)) = true ↔ ¬ (a.due < b.due ∨ a.due = b.due ∧ (a.c < b.c ∨ a.c = b.c ∧ a.r < b.r)) := by
  rw [← JobKey.before_iff, Bool.not_eq_true', Bool.not_eq_true]

theorem firstJob_cons (a : JobKey) (l : List JobKey) :
    firstJob (a :: l) = some (match firstJob l with | some b => if b.before a then b else a | none => a) := by
  rw [firstJob]
  cases firstJob l with
  | none => rfl
  | some b => dsimp only; split <;> rfl

theorem firstJob_none_iff (l : List JobKey) : firstJob l = none ↔ l = [] := by
  cases l with
  | nil => exact ⟨fun _ => rfl, fun _ => rfl⟩
  | cons a l => rw [firstJob_cons]; exact ⟨nofun, nofun⟩

theorem firstJob_first (l : List JobKey) {w : JobKey} (h : firstJob l = some w) : w ∈ l ∧ ∀ v ∈ l, (!(v.before w)) = true := by
  induction l generalizing w with
  | nil => exact absurd h nofun
  | cons a l ih =>
    rw [firstJob_cons] at h
    obtain rfl := Option.some.inj h
    have hself : (!(a.before a)) = true := JobKey.not_before_iff.2 (by omega)
    cases hb : firstJob l with
    | none =>
      obtain rfl := (firstJob_none_iff l).1 hb
      exact ⟨List.mem_singleton_self a, List.forall_mem_singleton.2 hself⟩
    | some b =>
      obtain ⟨hm, hle⟩ := ih hb
      dsimp only
      split
      · next hba =>
        rw [JobKey.before_iff] at hba
        exact ⟨List.mem_cons_of_mem _ hm, List.forall_mem_cons.2 ⟨JobKey.not_before_iff.2 (by omega), hle⟩⟩
      · next hba =>
        rw [JobKey.before_iff] at hba
        refine ⟨List.mem_cons_self .., List.forall_mem_cons.2 ⟨hself, fun v hv => JobKey.not_before_iff.2 ?_⟩⟩
        have hvb := JobKey.not_before_iff.1 (hle v hv)
        omega

/-! ## The job that an engine goes on with (R46) -/

/-- Engine `e` is at the first of its jobs in order where that one has started, and at none otherwise. -/
def Served (t : State) (e : Nat) : Prop :=
  tget t.eng.current e = (t.edfJob e).bind fun j => if (t.du j.1 j.2.1 j.2.2).job = .active then some j else none

theorem State.edfJob_congr {s t : State} (h : t.chans = s.chans) (e : Nat) : t.edfJob e = s.edfJob e := by
  have hw : t.mayWork = s.mayWork := by
    funext w
    rw [State.mayWork, State.mayWork, h]
  rw [State.edfJob, State.edfJob, State.engineRows, State.engineRows, h, hw]

theorem State.nextJob_current (s : State) (e : Nat) : tget (s.nextJob e).eng.current e =
    (s.edfJob e).bind fun j => if (s.du j.1 j.2.1 j.2.2).job = .active then some j else none := by
  unfold State.nextJob
  dsimp only
  cases s.edfJob e with
  | none => exact tget_tdel_self ..
  | some j =>
    have hcur {x : Row} (hx : x = s.du j.1 j.2.1 j.2.2) : tget (if x.job == .active then tset s.eng.current e j else tdel s.eng.current e) e =
        if (s.du j.1 j.2.1 j.2.2).job = .active then some j else none := by
      by_cases ha : x.job = .active
      · rw [if_pos (beq_iff_eq.2 ha), if_pos (hx ▸ ha), tget_tset_self]
      · rw [if_neg fun hb => ha (beq_iff_eq.1 hb), if_neg (hx ▸ ha), tget_tdel_self]
    refine hcur ?_
    rw [State.du_eq_duRow]
    cases tget s.chans j.1 <;> rfl

theorem State.nextJob_served (s : State) (e : Nat) : Served (s.nextJob e) e := by
  rw [Served, State.nextJob_current, State.edfJob_congr (s := s) rfl]
  rfl

theorem State.nextJob_eng (s : State) (e : Nat) : (s.nextJob e).eng = { s.eng with current := (s.nextJob e).eng.current } := rfl

/-! ## Release (R44, R45, R48, R93, R132) -/

/-- With the first row of a picture goes the ALF set that is ready for it (R63). -/
def State.withAlf (s : State) (c n r : Nat) : State := if r = 0 then s.takeAlf c n else s

/-- The engine that a row of a channel is dispatched to (R45). -/
def Chan.engineOf (ch : Chan) (r : Nat) : Nat := ch.engines.getD (r % max 1 ch.k) 0

/-- A job that a marked engine gets is over at once (R48, R93). -/
def Row.unworked (e cap : Nat) (x : Row) : Row := { x with engine := e, job := .abandoned, unencoded := true, cap := cap }

/-- A job in the queue of engine `e` (R44). -/
def Row.queued (e : Nat) (x : Row) : Row := { x with engine := e, job := .ready }

/-- The machine once the job of a row waits at engine `e` (R44). -/
def State.queueRow (s : State) (c n r e : Nat) : State := (s.withAlf c n r).updChan c fun a => a.updRow n r (Row.queued e)

/-- What a count of an engine makes of the registers. -/
theorem State.engCount_rd (s : State) {e off bit : Nat} (h : Reg.ENG_STATUS e ≠ off) : (s.engCount e off bit).rd off = s.rd off + 1 :=
  (State.rd_wr_ne h ..).trans (State.rd_wr_self ..)

theorem State.engCount_rd_ne (s : State) {e off bit k : Nat} (h : k ∉ [off, Reg.ENG_STATUS e]) : (s.engCount e off bit).rd k = s.rd k := by
  simp only [List.mem_cons, List.not_mem_nil, or_false, not_or] at h
  exact (State.rd_wr_ne (Ne.symm h.2) ..).trans (State.rd_wr_ne (Ne.symm h.1) ..)

theorem State.poisonDu_rd {s : State} {c n r : Nat} (hd : s.hasDu c n r = true) {x : Row} (hx : s.du c n r = x) (off : Nat) :
    (s.poisonDu c n r).rd off =
      if x.poisonRead then s.rd off else (s.engCount x.engine (Reg.ENG_POISON_READS x.engine) 10).rd off := by
  obtain ⟨ch, p, h, hp, -⟩ := State.hasDu_iff.1 hd
  rw [State.poisonDu, State.onRow_some hd h hp, hx]
  refine ((State.markDu_touches ..).rd_eq (by decide) off).trans ?_
  split <;> rfl

section release
variable {s : State} {c n r : Nat} {ch : Chan} {p : Pic}

theorem rowStep_withAlf (s : State) (c n r : Nat) : RowStep c n r id s (s.withAlf c n r) := by
  unfold State.withAlf
  split
  · exact rowStep_takeAlf ..
  · exact .refl ..

theorem State.withAlf_touches (s : State) (c n r : Nat) : Touches [.chans] s (s.withAlf c n r) := by
  unfold State.withAlf
  split
  · exact s.takeAlf_touches c n
  · exact .refl ..

theorem State.queueRow_touches (s : State) (c n r e : Nat) : Touches [.chans] s (s.queueRow c n r e) :=
  (s.withAlf_touches c n r).trans (State.updChan_touches ..)

theorem rowStep_queueRow (h : tget s.chans c = some ch) (e : Nat) : RowStep c n r (Row.queued e) s (s.queueRow c n r e) := by
  obtain ⟨a, ha, -⟩ := (rowStep_withAlf s c n r).chan h
  exact (rowStep_withAlf s c n r).trans (.updRow (h := fun _ => Row.queued e) ha)

variable (hd : s.hasDu c n r = true) (h : tget s.chans c = some ch) (hp : ch.pic? n = some p)
include hd h hp

theorem exec_rowJobRelease_none (hx : (s.du c n r).entered = false ∨ (s.du c n r).job ≠ .none) : Gives (.rowJobRelease c n r) s s := by
  show execRowJobRelease c n r s = _
  rw [execRowJobRelease, State.onRow_some hd h hp]
  refine congrArg Host.Outcome.next (if_pos ?_)
  rcases hx with hx | hx <;> simp [hx]

variable (he : (s.du c n r).entered = true) (hj : (s.du c n r).job = .none)
include he hj

theorem exec_rowJobRelease_some : exec (.rowJobRelease c n r) s = .next
    (if s.eng.failed.contains (ch.engineOf r) then
      (((s.withAlf c n r).updChan c fun a => a.updRow n r (Row.unworked (ch.engineOf r) (a.cfg.main.beta r))).markDu c n r).sweepEnd c n
    else if p.poisonRows.contains r then
      (s.queueRow c n r (ch.engineOf r)).poisonDu c n r
    else s.queueRow c n r (ch.engineOf r)) := by
  show execRowJobRelease c n r s = _
  rw [execRowJobRelease, State.onRow_some hd h hp, ← (s.withAlf_touches c n r).same .eng (by decide)]
  exact congrArg Host.Outcome.next (if_neg (by simp [he, hj]))

theorem does_rowJobRelease_ready (hf : s.eng.failed.contains (ch.engineOf r) = false) (hq : p.poisonRows.contains r = false) :
    Does (.rowJobRelease c n r) s [.chans] noReg fun t => t.du c n r = (s.du c n r).queued (ch.engineOf r) ∧ OtherDus c n r s t := by
  have hx := exec_rowJobRelease_some hd h hp he hj
  rw [if_neg (Bool.eq_false_iff.1 hf), if_neg (Bool.eq_false_iff.1 hq)] at hx
  have hstep := rowStep_queueRow (n := n) (r := r) h (ch.engineOf r)
  exact does_of_touches hx (s.queueRow_touches ..) (by decide) ⟨hstep.row hd, hstep.other⟩

variable (hm : (s.du c n r).marked = false) (hs : (s.du c n r).sent = false) (hu : (s.du c n r).substituted = false)
include hm hs hu

theorem does_rowJobRelease_failed (hf : s.eng.failed.contains (ch.engineOf r) = true) : Does (.rowJobRelease c n r) s [.regs, .chans, .eng]
    (regIn [Reg.REF_SWEEPS_FAILED c, Reg.REF_STATUS c, Reg.GRP_CHN_STATUS c]) fun t => OtherDus c n r s t
      ∧ t.du c n r = { (s.du c n r).unworked (ch.engineOf r) (ch.cfg.main.beta r) with marked := true, proof := .none } := by
  have hx := exec_rowJobRelease_some hd h hp he hj
  rw [if_pos hf] at hx
  obtain ⟨a, ha, hcfg⟩ := (rowStep_withAlf s c n r).chan h
  have hstep := (((rowStep_withAlf s c n r).trans (.updRow (h := fun b => Row.unworked (ch.engineOf r) (b.cfg.main.beta r)) ha)).trans
    (rowStep_markDu ..)).thenId (rowStep_sweepEnd _ c n n r)
  have hkeep : Touches [.chans, .eng] s (((s.withAlf c n r).updChan c fun a =>
      a.updRow n r (Row.unworked (ch.engineOf r) (a.cfg.main.beta r))).markDu c n r) :=
    (((s.withAlf_touches c n r).mono (by decide)).then (State.updChan_touches ..) (by decide)).then (State.markDu_touches ..) (by decide)
  refine ⟨_, hx, (hkeep.mono (by decide)).then (State.sweepEnd_touches ..) (by decide), fun off ho => ?_, hstep.other, ?_⟩
  · exact (State.sweepEnd_rd _ ho).trans (hkeep.rd_eq (by decide) off)
  · rw [hstep.row hd, ← hcfg]
    exact Row.mark_eq hm hs hu

theorem does_rowJobRelease_poisoned (hf : s.eng.failed.contains (ch.engineOf r) = false) (hq : p.poisonRows.contains r = true) :
    Does (.rowJobRelease c n r) s [.regs, .chans, .eng] (regIn [Reg.ENG_POISON_READS (ch.engineOf r), Reg.ENG_STATUS (ch.engineOf r)]) fun t =>
      OtherDus c n r s t
        ∧ t.du c n r = { (s.du c n r).queued (ch.engineOf r) with poisonRead := true, marked := true, proof := .none }
        ∧ t.rd (Reg.ENG_POISON_READS (ch.engineOf r)) =
          s.rd (Reg.ENG_POISON_READS (ch.engineOf r)) + (if (s.du c n r).poisonRead then 0 else 1) := by
  have hx := exec_rowJobRelease_some hd h hp he hj
  rw [if_neg (Bool.eq_false_iff.1 hf), if_pos hq] at hx
  have hqueue := rowStep_queueRow (n := n) (r := r) h (ch.engineOf r)
  have hstep := hqueue.trans (rowStep_poisonDu _ c n r)
  have htouch := s.queueRow_touches c n r (ch.engineOf r)
  have hrd := State.poisonDu_rd ((hqueue.has c n r).trans hd) (hqueue.row hd)
  refine ⟨_, hx, (htouch.mono (by decide)).then (State.poisonDu_touches ..) (by decide), fun off ho => ?_, hstep.other,
    (hstep.row hd).trans (Row.mark_eq hm hs hu), ?_⟩
  · rw [hrd, ← htouch.rd_eq (by decide) off]
    split
    · rfl
    · exact State.engCount_rd_ne _ ho
  · rw [hrd, ← htouch.rd_eq (by decide) (Reg.ENG_POISON_READS (ch.engineOf r))]
    show (if (s.du c n r).poisonRead then _ else _) = _
    split
    · exact (BitVec.add_zero _).symm
    · exact State.engCount_rd _ (by unfold Reg.ENG_STATUS Reg.ENG_POISON_READS; omega)

end release

/-! ## The ALF derivation (R63) -/

theorem does_alfDerivation (s : State) (c n : Nat) : Does (.alfDerivation ⟨c, n⟩) s [.chans] noReg fun t => t.chans = tupd s.chans c fun ch =>
    if ch.st.coding = true ∧ ch.cfg.main.codec = 1 ∧ (ch.pic? n).isSome = true ∧ (∀ p, ch.pic? (n + 1) = some p → (p.row 0).job = .none)
    then { ch with alfReady := some (n, (List.range (ch.cfg.main.rows - 2 * ch.k - 1)).filter fun r => !(ch.duRow (n, r)).substituted) }
    else ch := by
  refine does_of_touches rfl (s.updChan_touches c _) (by decide) (congrArg (tupd s.chans c) (funext fun ch => ?_))
  refine if_congr ?_ rfl rfl
  simp only [Bool.and_eq_true, beq_iff_eq, Bool.not_eq_true']
  cases ch.pic? (n + 1) with
  | none => simp [and_assoc]
  | some p => simp [and_assoc]

end Sys2Proof.Machine
end

section
/-!
PROOFS. The start of a row job (R46, R47, R49, R85 to R92) on a single unit: the planning ledger, the plan, and what it counts.
-/
namespace Sys2Proof.Machine
open Sys2Proof

/-! ## The channel at the planning of a row (R85, R87) -/

/-- A row but for its columns counted as intra. -/
def Row.sansIntra (x : Row) : Row := { x with intra := [] }

/-- A picture but for its rows. -/
def Pic.sansRows (p : Pic) : Pic := { p with rows := [] }

/-- `b` comes from `a` by a step that moves nothing of picture `n` but its columns counted as intra (R87). -/
structure Chan.IntraStep (n : Nat) (a b : Chan) : Prop where
  cfg : b.cfg = a.cfg
  pic : ∀ p, a.pic? n = some p → ∃ q, b.pic? n = some q ∧ q.sansRows = p.sansRows ∧ ∀ i, (q.row i).sansIntra = (p.row i).sansIntra

theorem Chan.IntraStep.refl (n : Nat) (a : Chan) : Chan.IntraStep n a a := ⟨rfl, fun p h => ⟨p, h, rfl, fun _ => rfl⟩⟩

theorem Chan.IntraStep.trans {n : Nat} {a b d : Chan} (x : Chan.IntraStep n a b) (y : Chan.IntraStep n b d) : Chan.IntraStep n a d := by
  refine ⟨y.cfg.trans x.cfg, fun p h => ?_⟩
  obtain ⟨q, hq, hpic, hrow⟩ := x.pic p h
  obtain ⟨u, hu, hpic', hrow'⟩ := y.pic q hq
  exact ⟨u, hu, hpic'.trans hpic, fun i => (hrow' i).trans (hrow i)⟩

theorem Chan.intraStep_updRow (a : Chan) (n r : Nat) (l : List Nat) : a.IntraStep n (a.updRow n r fun x => { x with intra := l }) := by
  refine ⟨rfl, fun p h => ⟨p.updRow r fun x => { x with intra := l }, ?_, rfl, fun i => ?_⟩⟩
  · rw [Chan.updRow, Chan.pic?_updPic, if_pos rfl, h]; rfl
  · rw [Pic.row_updRow]
    split
    · next hi => subst hi; rfl
    · rfl

theorem Chan.intraStep_setIntra (a : Chan) (n : Nat) : a.IntraStep n (a.setIntra n) := by
  have hfold (g : Nat → List Nat) (l : List Nat) (b : Chan) :
      b.IntraStep n (l.foldl (fun (a : Chan) r => a.updRow n r fun x => { x with intra := g r }) b) := by
    induction l generalizing b with
    | nil => exact .refl n b
    | cons r l ih => exact (b.intraStep_updRow n r (g r)).trans (ih _)
  unfold Chan.setIntra
  split
  · exact hfold ..
  · exact .refl n a

/-- The planning ledger moves the state of the rate control alone (R85). -/
theorem Chan.advanceTo_eq (fuel : Nat) (ch : Chan) (lag : Nat) (e : DuId) :
    Chan.advanceTo fuel ch lag e = { ch with rate := (Chan.advanceTo fuel ch lag e).rate } := by
  induction fuel generalizing ch with
  | zero => rfl
  | succ fuel ih =>
    unfold Chan.advanceTo
    split
    · rfl
    · split
      · rw [ih]; rfl
      · rfl

/-- The channel whose ledger has run up to the planning of a row (R85). -/
def State.planned (s : State) (ch : Chan) (n r : Nat) : Chan :=
  let a := if r = 0 then ch.setIntra n else ch
  Chan.advanceTo (4 * a.cfg.main.rows + 4) a (if s.grp.planLag then a.k + 1 else a.k) (n, r)

theorem State.planned_pics (s : State) (ch : Chan) (n r : Nat) : (s.planned ch n r).cfg = ch.cfg
    ∧ (s.planned ch n r).pics = (if r = 0 then ch.setIntra n else ch).pics := by
  rw [State.planned, Chan.advanceTo_eq]
  refine ⟨?_, rfl⟩
  split
  · exact (ch.intraStep_setIntra n).cfg
  · rfl

theorem State.intraStep_planned (s : State) (ch : Chan) (n r : Nat) : ch.IntraStep n (s.planned ch n r) := by
  obtain ⟨hcfg, hpics⟩ := s.planned_pics ch n r
  refine ⟨hcfg, fun p h => ?_⟩
  rw [Chan.pic?, hpics]
  split
  · exact (ch.intraStep_setIntra n).pic p h
  · exact ⟨p, h, rfl, fun _ => rfl⟩

/-- After the first row of a picture the planning moves no row (R87). -/
theorem State.planned_duRow (s : State) (ch : Chan) (n : Nat) {r : Nat} (hr : 0 < r) (m q : Nat) :
    (s.planned ch n r).duRow (m, q) = ch.duRow (m, q) := by
  have hpics := (s.planned_pics ch n r).2
  rw [if_neg (Nat.pos_iff_ne_zero.1 hr)] at hpics
  rw [Chan.duRow_eq, Chan.duRow_eq, Chan.pic?, Chan.pic?, hpics]

/-! ## The plan (R85 to R92) -/

/-- A latched row has the cap of the bare-pole generator (R92). -/
theorem Chan.plan_cap {ch : Chan} {n r : Nat} {p : Pic} (h : (ch.plan n r p).latched = true) :
    (ch.plan n r p).cap = ch.cfg.main.beta r := if_pos h

/-- Tier 0 in a reef, under a supply warning and on a repeat picture, else the ceiling (R49, R113). -/
theorem State.rowTier_eq (s : State) (p : Pic) (reef : Nat) :
    s.rowTier p reef = if 0 < reef ∨ s.pwr.warn.isSome = true ∨ p.isRepeat = true then 0 else p.ceiling := by
  refine if_congr ?_ rfl rfl
  simp [State.supplyWarned, or_assoc]

/-- An active row with its plan, its CTUs all to come and `start` bits of overhead committed (R85). -/
def Row.started (start tier : Nat) (pl : Plan) (x : Row) : Row :=
  { x with
    job := .active, tier := tier, reef := pl.reef, latched := pl.latched, cap := pl.cap, tau := pl.tau, wt := pl.wt
    qp := pl.qp, ctus := 0, bits := start, guarded := 0, swept := [], qps := [], code := [], bareCols := [] }

/-- The channel once a row has started. -/
def Chan.starts (ch : Chan) (n r : Nat) (pl : Plan) (tier : Nat) : Chan := (ch.takePlan n r pl tier).sumTiers n r

/-- A picture whose targets and latch are those of a plan (R87, R92). -/
def Pic.takes (pl : Plan) (p : Pic) : Pic :=
  { p with
    tPic := pl.tPic, bPic := pl.bPic, planned := true
    latched := p.latched || pl.latched, reefed := p.reefed || decide (0 < pl.reef) }

theorem Chan.starts_pic? (ch : Chan) (n r : Nat) (pl : Plan) (tier m : Nat) : (ch.starts n r pl tier).pic? m = (ch.updPic n fun p =>
    (p.takes pl).updRow r (Row.started (256 + if r = 0 then ch.cfg.main.oAu else 0) tier pl)).pic? m := by
  unfold Chan.starts Chan.sumTiers
  split
  · split <;> rfl
  · rfl

theorem Chan.starts_duRow_self {ch : Chan} {n : Nat} {q : Pic} (h : ch.pic? n = some q) (r : Nat) (pl : Plan) (tier : Nat) :
    (ch.starts n r pl tier).duRow (n, r) = (q.row r).started (256 + if r = 0 then ch.cfg.main.oAu else 0) tier pl := by
  rw [Chan.duRow_eq, Chan.starts_pic?, Chan.pic?_updPic, if_pos rfl, h]
  exact (Pic.row_updRow ..).trans (if_pos rfl)

theorem Chan.starts_duRow_ne (ch : Chan) {n r m i : Nat} (h : ¬ (m = n ∧ i = r)) (pl : Plan) (tier : Nat) :
    (ch.starts n r pl tier).duRow (m, i) = ch.duRow (m, i) := by
  rw [Chan.duRow_eq, Chan.duRow_eq, Chan.starts_pic?, Chan.pic?_updPic]
  split
  · next hm =>
    subst hm
    cases ch.pic? m with
    | none => rfl
    | some q => exact (Pic.row_updRow ..).trans (if_neg fun hi => h ⟨rfl, hi⟩)
  · rfl

/-! ## What a plan counts (R90, R92, R98) -/

section countPlan
variable (s : State) (c : Nat) (p : Pic) (pl : Plan)

/-- The counts and sticky bits of a plan. -/
def planCells (c : Nat) : List Nat := [Reg.RC_STATUS c, Reg.RC_REEF_PICTURES c, Reg.RC_BAREPOLE_ROWS c, Reg.RC_BAREPOLE_PICTURES c]

theorem State.countPlan_rd_ne {off : Nat} (h : off ∉ planCells c) : (s.countPlan c p pl).rd off = s.rd off := by
  simp only [planCells, List.mem_cons, List.not_mem_nil, or_false, not_or] at h
  obtain ⟨hs, hr, hb, hl⟩ := h
  have hst (t : State) (m : Word) : (t.sticky (Reg.RC_STATUS c) m).rd off = t.rd off := State.rd_wr_ne (Ne.symm hs) ..
  have hbump (t : State) {o : Nat} (ho : off ≠ o) : (t.bump o).rd off = t.rd off := State.rd_wr_ne (Ne.symm ho) ..
  unfold State.countPlan
  dsimp only
  repeat' split
  all_goals simp only [hst, hbump _ hr, hbump _ hb, hbump _ hl]

/-- RC_STATUS shows a reef and a latch (R98). -/
theorem State.countPlan_rd_status : (s.countPlan c p pl).rd (Reg.RC_STATUS c)
    = (s.rd (Reg.RC_STATUS c) ||| if 0 < pl.reef then 0x100 else 0) ||| if pl.latched then 0x200 else 0 := by
  have hst (t : State) (m : Word) : (t.sticky (Reg.RC_STATUS c) m).rd (Reg.RC_STATUS c) = t.rd (Reg.RC_STATUS c) ||| m :=
    State.rd_wr_self ..
  have hreef (t : State) : (t.bump (Reg.RC_REEF_PICTURES c)).rd (Reg.RC_STATUS c) = t.rd (Reg.RC_STATUS c) :=
    State.rd_wr_ne (by unfold Reg.RC_REEF_PICTURES Reg.RC_STATUS; omega) ..
  have hrows (t : State) : (t.bump (Reg.RC_BAREPOLE_ROWS c)).rd (Reg.RC_STATUS c) = t.rd (Reg.RC_STATUS c) :=
    State.rd_wr_ne (by unfold Reg.RC_BAREPOLE_ROWS Reg.RC_STATUS; omega) ..
  have hpics (t : State) : (t.bump (Reg.RC_BAREPOLE_PICTURES c)).rd (Reg.RC_STATUS c) = t.rd (Reg.RC_STATUS c) :=
    State.rd_wr_ne (by unfold Reg.RC_BAREPOLE_PICTURES Reg.RC_STATUS; omega) ..
  unfold State.countPlan
  extract_lets sunk u v w
  have hu : u.rd (Reg.RC_STATUS c) = s.rd (Reg.RC_STATUS c) ||| if 0 < pl.reef then 0x100 else 0 := by
    unfold u
    split
    · split
      · exact hst s _
      · exact (hreef sunk).trans (hst s _)
    · exact BitVec.or_zero.symm
  have hv : v.rd (Reg.RC_STATUS c) = u.rd (Reg.RC_STATUS c) ||| if pl.latched then 0x200 else 0 := by
    unfold v
    split
    · exact hst u _
    · exact BitVec.or_zero.symm
  rw [← hu, ← hv]
  split
  · split
    · exact hrows v
    · exact (hpics w).trans (hrows v)
  · rfl

end countPlan

theorem wbit_or (v w : Word) (i : Nat) : wbit (v ||| w) i = (wbit v i || wbit w i) := by
  rw [wbit, BitVec.toNat_or, Nat.testBit_or]; rfl

/-! ## The start (R46, R47, R49) -/

/-- The machine with a row started on the channel that has been planned for it (R85). -/
def State.startOn (s : State) (c n r : Nat) (a : Chan) (q : Pic) : State :=
  (s.setChan c (a.starts n r (a.plan n r q) (s.rowTier q (a.plan n r q).reef))).countPlan c q (a.plan n r q)

/-- A supply warning alone holds the row at Tier 0 (R49, R72). -/
def State.forcedTier (s : State) (q : Pic) (reef : Nat) : Bool :=
  decide (reef = 0) && s.supplyWarned && !q.isRepeat && decide (0 < q.ceiling)

theorem State.startJob_eq {s : State} {c n r : Nat} {ch : Chan} {q : Pic} (h : tget s.chans c = some ch)
    (hq : (s.planned ch n r).pic? n = some q) : s.startJob c n r = (s.startOn c n r (s.planned ch n r) q).when
      (s.forcedTier q ((s.planned ch n r).plan n r q).reef) (·.localEvent c n 3) := by
  rw [State.startJob, State.onChan_some h]
  simp only [State.planned] at hq ⊢
  rw [hq]
  rfl

section startOn
variable (s : State) (c n r : Nat) (a : Chan) (q : Pic)

theorem State.startOn_chans : (s.startOn c n r a q).chans = tset s.chans c (a.starts n r (a.plan n r q) (s.rowTier q (a.plan n r q).reef)) :=
  (State.countPlan_touches ..).same .chans (by decide)

theorem State.startOn_touches : Touches [.regs, .chans] s (s.startOn c n r a q) :=
  ((s.setChan_touches c _).mono (by decide)).then (State.countPlan_touches ..) (by decide)

theorem State.startOn_du_self (hq : a.pic? n = some q) : (s.startOn c n r a q).du c n r =
    (q.row r).started (256 + if r = 0 then a.cfg.main.oAu else 0) (s.rowTier q (a.plan n r q).reef) (a.plan n r q) := by
  rw [State.du_of_chan ((congrArg (tget · c) (s.startOn_chans c n r a q)).trans (tget_tset_self ..)), Chan.starts_duRow_self hq]

theorem State.startOn_chans_ne {j : Nat} (hj : j ≠ c) : tget (s.startOn c n r a q).chans j = tget s.chans j := by
  rw [State.startOn_chans, tget_tset_ne (Ne.symm hj)]

theorem State.startOn_otherDus {ch : Chan} (h : tget s.chans c = some ch) (ha : ∀ m i, a.duRow (m, i) = ch.duRow (m, i)) :
    OtherDus c n r s (s.startOn c n r a q) := by
  intro c' m i hne
  by_cases hc : c' = c
  · subst hc
    rw [State.du_of_chan ((congrArg (tget · c') (s.startOn_chans c' n r a q)).trans (tget_tset_self ..)), State.du_of_chan h,
      Chan.starts_duRow_ne _ fun hm => hne ⟨rfl, hm⟩, ha]
  · rw [State.du_eq_duRow, State.startOn_chans_ne s c n r a q hc, State.du_eq_duRow]

theorem State.startOn_rd_ne {off : Nat} (ho : off ∉ planCells c) : (s.startOn c n r a q).rd off = s.rd off :=
  State.countPlan_rd_ne _ c q _ ho

theorem State.startOn_reef (hr : 0 < (a.plan n r q).reef) : wbit ((s.startOn c n r a q).rd (Reg.RC_STATUS c)) 8 = true := by
  rw [State.startOn, State.countPlan_rd_status, if_pos hr, wbit_or, wbit_or, show wbit 0x100 8 = true by decide]
  simp

theorem State.startOn_latched (hl : (a.plan n r q).latched = true) : wbit ((s.startOn c n r a q).rd (Reg.RC_STATUS c)) 9 = true := by
  rw [State.startOn, State.countPlan_rd_status, if_pos hl, wbit_or, show wbit 0x200 9 = true by decide]
  simp

end startOn

/-- `t` comes from `s` by what the record of a fault in a picture of channel `c` changes (R418). -/
structure FaultNoted (c : Nat) (s t : State) : Prop where
  touches : Touches [.chans] s t
  du : ∀ a m i, t.du a m i = s.du a m i
  chans : ∀ j, j ≠ c → tget t.chans j = tget s.chans j

/-- On a single unit an event of R72 is a fault of its picture. -/
theorem faultNoted_localEvent {s : State} (hm : s.member = false) (c n bit : Nat) : FaultNoted c s (s.localEvent c n bit) := by
  have hs : s.localEvent c n bit = s.setFault c n bit := if_neg (by rw [show (s.setFault c n bit).member = false from hm]; exact nofun)
  rw [hs]
  refine ⟨s.setFault_touches c n bit, fun a m i => ?_, fun j hj => tget_tupd_ne (Ne.symm hj) ..⟩
  rw [State.du_eq_duRow, State.du_eq_duRow, State.setFault, State.updChan, tget_tupd]
  split
  · next hc =>
    subst hc
    cases tget s.chans c with
    | none => rfl
    | some ch => exact Chan.duRow_updPic ch (f := fun p => { p with faults := p.faults ||| 2 ^ bit }) (fun _ => rfl) m i
  · rfl

section start
variable {s : State} {c n r : Nat} {ch : Chan} {p : Pic}

/-- An engine that works and is free of jobs, with row `r` of picture `n` its first and the row's reference rows final (R46, R47). -/
def State.mayStart (s : State) (c n r : Nat) (ch : Chan) (p : Pic) : Bool :=
  !s.dev.mediaOff && ch.refsFinal p r && !(s.eng.failed.contains (s.du c n r).engine) && !(s.pipeBusy (s.du c n r).engine)
    && s.edfJob (s.du c n r).engine == some (c, n, r)

variable (hd : s.hasDu c n r = true) (h : tget s.chans c = some ch) (hp : ch.pic? n = some p)
include hd h hp

theorem exec_rowJobStart : exec (.rowJobStart c n r) s = .next (if (s.du c n r).job == .ready && s.mayStart c n r ch p then
    ((s.captureCopy c n r).startJob c n r).nextJob (s.du c n r).engine else s) := by
  show execRowJobStart c n r s = _
  rw [execRowJobStart, State.onRow_some hd h hp]
  simp only [State.mayStart, Bool.and_assoc]

theorem exec_rowJobStart_none (hx : (s.du c n r).job ≠ .ready ∨ s.mayStart c n r ch p = false) : Gives (.rowJobStart c n r) s s := by
  rw [Gives, exec_rowJobStart hd h hp, if_neg]
  rcases hx with hx | hx <;> simp [hx]

theorem does_rowJobStart (hj : (s.du c n r).job = .ready) (hx : s.mayStart c n r ch p = true) (hm : s.member = false) :
    Does (.rowJobStart c n r) s [.regs, .chans, .eng] (regIn (planCells c)) fun t =>
      let y := t.du c n r
      y.job = .active ∧ y.engine = (s.du c n r).engine ∧ y.ctus = 0 ∧ y.bits = 256 + (if r = 0 then ch.cfg.main.oAu else 0) ∧ y.guarded = 0
        ∧ y.code = [] ∧ y.marked = (s.du c n r).marked
        ∧ y.tier = (if 0 < y.reef ∨ s.pwr.warn.isSome = true ∨ p.isRepeat = true then 0 else p.ceiling)
        ∧ (y.latched = true → y.cap = ch.cfg.main.beta r) ∧ (0 < y.reef → wbit (t.rd (Reg.RC_STATUS c)) 8 = true)
        ∧ (y.latched = true → wbit (t.rd (Reg.RC_STATUS c)) 9 = true)
        ∧ (0 < r → OtherDus c n r s t) ∧ (∀ j, j ≠ c → tget t.chans j = tget s.chans j)
        ∧ t.eng = { s.eng with current := t.eng.current } ∧ Served t (s.du c n r).engine := by
  obtain ⟨q, hq, hpic, hrow⟩ := (s.intraStep_planned ch n r).pic p hp
  have hcfg := (s.planned_pics ch n r).1
  let a := s.planned ch n r
  let u := s.startOn c n r a q
  let v := u.when (s.forcedTier q (a.plan n r q).reef) (·.localEvent c n 3)
  have hu : Touches [.regs, .chans] s u := s.startOn_touches c n r a q
  have hv : FaultNoted c u v := by
    have hum : u.member = false := by rw [State.member, hu.same .grp (by decide)]; exact hm
    unfold v State.when
    split
    · exact faultNoted_localEvent hum c n 3
    · exact ⟨.refl .., fun _ _ _ => rfl, fun _ _ => rfl⟩
  have hexec : exec (.rowJobStart c n r) s = .next (v.nextJob (s.du c n r).engine) := by
    have hcopy : s.captureCopy c n r = s := if_neg (by simp [State.role_of_single hm])
    rw [exec_rowJobStart hd h hp, if_pos (by simp [hj, hx]), hcopy, State.startJob_eq h hq]
  have hdu (b m i : Nat) : (v.nextJob (s.du c n r).engine).du b m i = u.du b m i := hv.du b m i
  have hy : u.du c n r = _ := s.startOn_du_self c n r a q hq
  have hrd (off : Nat) : (v.nextJob (s.du c n r).engine).rd off = u.rd off := hv.touches.rd_eq (by decide) off
  have hrow := hrow r
  rw [← State.du_of_pic h hp] at hrow
  refine ⟨_, hexec, (hu.mono (by decide)).trans ((hv.touches.mono (by decide)).then (State.nextJob_touches ..) (by decide)), fun off ho =>
    (hrd off).trans (s.startOn_rd_ne c n r a q ho), ?_⟩
  dsimp only
  rw [hdu, hrd, hy]
  refine ⟨rfl, (congrArg Row.engine hrow :), rfl, congrArg (fun m : ChannelDefineArg => 256 + if r = 0 then m.main.oAu else 0) hcfg, rfl, rfl,
    (congrArg Row.marked hrow :), ?_, fun hl => (Chan.plan_cap hl).trans (congrArg (fun m : ChannelDefineArg => m.main.beta r) hcfg),
    s.startOn_reef c n r a q, s.startOn_latched c n r a q,
    fun hr b m i hne => (hdu b m i).trans (s.startOn_otherDus c n r a q h (s.planned_duRow ch n hr) b m i hne),
    fun j hj => (hv.chans j hj).trans (s.startOn_chans_ne c n r a q hj), ?_, v.nextJob_served _⟩
  · have hrep : q.isRepeat = p.isRepeat := (congrArg Pic.isRepeat hpic :)
    have hceil : q.ceiling = p.ceiling := (congrArg Pic.ceiling hpic :)
    rw [← hrep, ← hceil]
    exact s.rowTier_eq q (a.plan n r q).reef
  · have heng : v.eng = s.eng := (hv.touches.same .eng (by decide)).trans (hu.same .eng (by decide))
    rw [v.nextJob_eng, heng]

end start

end Sys2Proof.Machine
end

section
/-!
PROOFS. The CTUs of a row job (R46, R56 to R58, R86, R113): what is committed, and what the guard counts.
-/
namespace Sys2Proof.Machine
open Sys2Proof

/-! ## What a commit makes of the row (R86, R113) -/

section commit
variable (ch : Chan) (level n r : Nat) (u : CtuTry) (f : CtuFilter) (b : Nat) (p : Pic) (x : Row)

/-- What the search finds for the next CTU of a row (R56 to R58). -/
def Chan.found (ch : Chan) (level n r : Nat) (u : CtuTry) (p : Pic) (x : Row) : List Cu × Nat :=
  (ch.codeEnv level n r x.ctus p x.tier).codeTree 0 0 ch.cfg.main.ctuSize ch.cfg.main.ctuSize 0 u.tree

/-- The next CTU of a repeat picture's row lies outside its refresh columns (R113). -/
def Chan.outside (ch : Chan) (p : Pic) (x : Row) : Bool :=
  p.isRepeat && p.kind != .idr
    && !(decide ((p.refreshSpan ch.cfg.main.ctus).1 ≤ x.ctus) && decide (x.ctus < (p.refreshSpan ch.cfg.main.ctus).2))

/-- The next CTU as found would meet the guard (R86). -/
def Chan.overCap (ch : Chan) (level n r : Nat) (u : CtuTry) (p : Pic) (x : Row) : Bool :=
  guardBreaks ch.cfg.main x ((ch.found level n r u p x).2 + u.extra)

theorem Chan.commitCtu_next : (ch.commitCtu level n r u f b p x).1.ctus = x.ctus + 1 ∧ (ch.commitCtu level n r u f b p x).1.job = x.job :=
  ⟨rfl, rfl⟩

theorem Chan.commitCtu_guarded : (ch.commitCtu level n r u f b p x).1.guarded =
    if (ch.commitCtu level n r u f b p x).2 then x.guarded ||| 2 ^ x.ctus else x.guarded := rfl

variable {ch level n r u p x}

theorem Chan.commitCtu_meetsGuard (ho : ch.outside p x = false) (hg : ch.overCap level n r u p x = true) :
    (ch.commitCtu level n r u f b p x).2 = true := by
  show (!ch.outside p x && ch.overCap level n r u p x) = true
  rw [ho, hg]; rfl

theorem Chan.commitCtu_clearsGuard (h : ch.outside p x = true ∨ ch.overCap level n r u p x = false) :
    (ch.commitCtu level n r u f b p x).2 = false := by
  show (!ch.outside p x && ch.overCap level n r u p x) = false
  rcases h with h | h <;> simp [h]

theorem Chan.commitCtu_coded (ho : ch.outside p x = false) (hg : ch.overCap level n r u p x = false) :
    let y := (ch.commitCtu level n r u f b p x).1
    y.bits = x.bits + ((ch.found level n r u p x).2 + u.extra) ∧ y.bareCols = x.bareCols
      ∧ (tget y.code x.ctus).map (·.cus) = some (ch.found level n r u p x).1
      ∧ (tget y.code x.ctus).map (·.filter) = some (f.allowed ch.cfg.main.codec level) := by
  have hbare : (ch.outside p x || (!ch.outside p x && ch.overCap level n r u p x)) = false := by rw [ho, hg]; rfl
  refine ⟨?_, if_neg (Bool.eq_false_iff.1 hbare), ?_, ?_⟩
  · exact congrArg (x.bits + ·) (if_neg (Bool.eq_false_iff.1 hbare))
  all_goals
    refine (congrArg (Option.map _) (tget_tset_self ..)).trans ?_
    exact congrArg (fun k : CtuSyntax => some _) (if_neg (Bool.eq_false_iff.1 hbare))

theorem Chan.commitCtu_bare (h : ch.outside p x = true ∨ ch.overCap level n r u p x = true) :
    let y := (ch.commitCtu level n r u f b p x).1
    y.bits = x.bits + min b ch.cfg.main.bBp ∧ y.bareCols = x.bareCols ++ [x.ctus] := by
  have hbare : (ch.outside p x || (!ch.outside p x && ch.overCap level n r u p x)) = true := by
    rcases h with h | h <;> simp [h]
  exact ⟨congrArg (x.bits + ·) (if_pos hbare), if_pos hbare⟩

end commit

/-! ## The count of the guard (R86, R98) -/

/-- A guarded CTU counts (R86, R98). -/
def State.countGuard (s : State) (c : Nat) : State := ((s.bump (Reg.RC_GUARD_CTUS c)).sticky (Reg.RC_STATUS c) 0x400).pmuEvent 2 3

/-- The events of PMU counters move no register but overflow bits (R410). -/
theorem State.pmuEvent_rd_ne (s : State) (k i : Nat) {off : Nat} (h : ¬ (0x00C00000 ≤ off ∧ off < 0x00D00000)) :
    (s.pmuEvent k i).rd off = s.rd off := s.pmuEvent_rd k i off (by omega)

theorem State.countGuard_rd_ne (s : State) {c off : Nat} (h : ¬ regOrPmu [Reg.RC_GUARD_CTUS c, Reg.RC_STATUS c] off) :
    (s.countGuard c).rd off = s.rd off := by
  simp only [regOrPmu, List.mem_cons, List.not_mem_nil, or_false, not_or] at h
  obtain ⟨⟨hg, hs⟩, hpmu⟩ := h
  exact (State.pmuEvent_rd_ne _ 2 3 hpmu).trans ((State.rd_wr_ne (Ne.symm hs) ..).trans (State.rd_wr_ne (Ne.symm hg) ..))

/-- RC_GUARD_CTUS of no channel is an overflow register. -/
theorem State.pmuEvent_rd_guard (s : State) (k i c : Nat) : (s.pmuEvent k i).rd (Reg.RC_GUARD_CTUS c) = s.rd (Reg.RC_GUARD_CTUS c) :=
  s.pmuEvent_rd k i _ (by unfold Reg.RC_GUARD_CTUS; omega)

theorem State.countGuard_rd (s : State) (c : Nat) : (s.countGuard c).rd (Reg.RC_GUARD_CTUS c) = s.rd (Reg.RC_GUARD_CTUS c) + 1 :=
  (State.pmuEvent_rd_guard ..).trans
    ((State.rd_wr_ne (by unfold Reg.RC_GUARD_CTUS Reg.RC_STATUS; omega) ..).trans (State.rd_wr_self ..))

theorem State.countGuard_touches (s : State) (c : Nat) : Touches [.regs, .pmu] s (s.countGuard c) :=
  (((s.bump_touches _).mono (by decide)).then (State.sticky_touches ..) (by decide)).then (State.pmuEvent_touches ..) (by decide)

/-! ## CTU_COMMIT -/

section exec
variable {s : State} {c n r : Nat} {ch : Chan} {p : Pic}

/-- The engine serves the row's job, which has CTUs left to search (R46). -/
def State.mayCommit (s : State) (c n r : Nat) (ch : Chan) : Bool :=
  (s.du c n r).job == .active && !s.dev.mediaOff && !(s.du c n r).latched && decide ((s.du c n r).ctus < ch.cfg.main.ctus)
    && s.eng.serves (s.du c n r).engine (c, n, r) && !(s.eng.failed.contains (s.du c n r).engine)

theorem State.mayCommit_active (h : s.mayCommit c n r ch = true) : (s.du c n r).job = .active := by
  simp only [State.mayCommit, Bool.and_eq_true, beq_iff_eq, and_assoc] at h
  exact h.1

/-- The machine with a row as a commit makes it (R46, R409). -/
def State.commitRow (s : State) (c n r : Nat) (y : Row) : State := (s.updChan c fun a => a.updRow n r fun _ => y).pmuEvent 2 0

variable (hd : s.hasDu c n r = true) (h : tget s.chans c = some ch) (hp : ch.pic? n = some p) (u : CtuTry) (f : CtuFilter) (b : Nat)
include hd h hp

theorem exec_ctuCommit : exec (.ctuCommit c n r u f b) s = .next (if s.mayCommit c n r ch then
    let y := ch.commitCtu s.dev.level n r u f b p (s.du c n r)
    ((s.commitRow c n r y.1).when y.2 (·.countGuard c)).nextJob (s.du c n r).engine else s) := by
  show execCtuCommit c n r u f b s = _
  rw [execCtuCommit, State.onRow_some hd h hp]
  rfl

theorem exec_ctuCommit_none (hx : s.mayCommit c n r ch = false) : Gives (.ctuCommit c n r u f b) s s := by
  rw [Gives, exec_ctuCommit hd h hp, if_neg (Bool.eq_false_iff.1 hx)]

theorem does_ctuCommit (hx : s.mayCommit c n r ch = true) :
    let z := ch.commitCtu s.dev.level n r u f b p (s.du c n r)
    Does (.ctuCommit c n r u f b) s [.regs, .pmu, .chans, .eng] (regOrPmu [Reg.RC_GUARD_CTUS c, Reg.RC_STATUS c]) fun t =>
      t.du c n r = z.1 ∧ OtherDus c n r s t ∧ t.eng = { s.eng with current := t.eng.current } ∧ Served t (s.du c n r).engine
        ∧ t.rd (Reg.RC_GUARD_CTUS c) = s.rd (Reg.RC_GUARD_CTUS c) + if z.2 then 1 else 0 := by
  intro z
  let v := s.commitRow c n r z.1
  let w := v.when z.2 (·.countGuard c)
  have hexec : exec (.ctuCommit c n r u f b) s = .next (w.nextJob (s.du c n r).engine) := by
    rw [exec_ctuCommit hd h hp, if_pos hx]
  have hv : Touches [.regs, .pmu, .chans] s v := ((s.updChan_touches c _).mono (by decide)).then (State.pmuEvent_touches ..) (by decide)
  have hw : Touches [.regs, .pmu] v w := v.when_touches (fun t => t.countGuard_touches c) z.2
  have hstep : RowStep c n r (fun _ => z.1) s (w.nextJob (s.du c n r).engine) :=
    (((RowStep.updRow (h := fun _ _ => z.1) h).thenTouches (State.pmuEvent_touches _ 2 0) (by decide)).thenTouches hw (by decide)).thenTouches
      (State.nextJob_touches ..) (by decide)
  refine ⟨_, hexec, ?_, fun off ho => ?_, hstep.row hd, hstep.other, ?_, w.nextJob_served _, ?_⟩
  · exact ((hv.mono (by decide)).then hw (by decide)).then (State.nextJob_touches ..) (by decide)
  · have hvr : v.rd off = s.rd off := State.pmuEvent_rd_ne _ 2 0 fun hpmu => ho (.inr hpmu)
    show (v.when z.2 (·.countGuard c)).rd off = _
    unfold State.when
    split
    · exact (v.countGuard_rd_ne ho).trans hvr
    · exact hvr
  · have heng : w.eng = s.eng := (hw.same .eng (by decide)).trans (hv.same .eng (by decide))
    rw [w.nextJob_eng, heng]
  · have hvr : v.rd (Reg.RC_GUARD_CTUS c) = s.rd (Reg.RC_GUARD_CTUS c) := State.pmuEvent_rd_guard ..
    show (v.when z.2 (·.countGuard c)).rd _ = _
    unfold State.when
    split
    · rw [v.countGuard_rd, hvr]
    · exact hvr.trans (BitVec.add_zero _).symm

end exec

/-! ## The statement -/

/-- Settles O41: each instruction by what it does to its row, the engine going on with its first job last. -/
theorem jobStart : Obligations.JobStart := by
  unfold Obligations.JobStart
  intro served
  refine ⟨fun l => ⟨firstJob_none_iff l, fun w hw => ?first⟩, fun s c n r b u f hd => ⟨?relNone, ?startNone, ?ctuNone⟩,
    fun s c n r ch p hd h hp => ?row, does_alfDerivation⟩
  case first =>
    obtain ⟨hm, hle⟩ := firstJob_first l hw
    exact ⟨hm, List.all_eq_true.2 hle⟩
  case relNone => exact congrArg Host.Outcome.next (State.onRow_of_not_hasDu hd _)
  case startNone => exact congrArg Host.Outcome.next (State.onRow_of_not_hasDu hd _)
  case ctuNone => exact congrArg Host.Outcome.next (State.onRow_of_not_hasDu hd _)
  case row =>
    refine ⟨exec_rowJobRelease_none hd h hp, does_rowJobRelease_ready hd h hp, fun he hj hm hs hu =>
      ⟨does_rowJobRelease_failed hd h hp he hj hm hs hu, does_rowJobRelease_poisoned hd h hp he hj hm hs hu⟩,
      exec_rowJobStart_none hd h hp, does_rowJobStart hd h hp, fun hx u f b => exec_ctuCommit_none hd h hp u f b hx, fun hx u f b => ?_⟩
    intro found cost inSpan outside over_
    obtain ⟨t, ht, htouch, hrd, hdu, hother, heng, hserved, hcount⟩ := does_ctuCommit hd h hp u f b hx
    obtain ⟨hctus, hjob⟩ := ch.commitCtu_next s.dev.level n r u f b p (s.du c n r)
    have hguarded := ch.commitCtu_guarded s.dev.level n r u f b p (s.du c n r)
    refine ⟨t, ht, htouch, hrd, ?_⟩
    dsimp only
    rw [hdu, hcount, hguarded]
    refine ⟨hctus, hjob.trans (State.mayCommit_active hx), hother, heng, hserved, fun ho hg => ?coded, Chan.commitCtu_bare f b,
      fun hfree => ?free, fun ho hg => ?guarded⟩
    case coded =>
      obtain ⟨hbits, hcols, hcus, hfilter⟩ := Chan.commitCtu_coded f b ho hg
      exact ⟨hbits, if_neg (Bool.eq_false_iff.1 (Chan.commitCtu_clearsGuard f b (.inr hg))), hcols, hcus, hfilter⟩
    case free =>
      have hz := Bool.eq_false_iff.1 (Chan.commitCtu_clearsGuard f b hfree)
      exact ⟨if_neg hz, by rw [if_neg hz]; exact BitVec.add_zero _⟩
    case guarded =>
      have hz := Chan.commitCtu_meetsGuard f b ho hg
      exact ⟨if_pos hz, by rw [if_pos hz]⟩

end Sys2Proof.Machine
end

section
/-!
PROOFS. The ends of row jobs (R66, R75, R112): what the count of substitutions reads beyond the channels that the device has.
-/
namespace Sys2Proof.Machine
open Sys2Proof

/-- A picture that is the whole of a sweep: no row was ever encoded, and the first, of engine 2, is marked for substitution. -/
def strayPic : Pic where
  sweepPos := some (0, 1)
  rows := (List.range 17).map fun r => (r, { job := .abandoned, engine := 2, marked := r == 0 })

/-- A channel of 17 rows that has coded this picture, its sweep still open. -/
def strayChan : Chan :=
  { (default : Chan) with
    st := .running, nextPic := 5, refs := { sweep := some ⟨4, 1, .periodic, false⟩ }, pics := [(4, strayPic)]
    cfg := { (default : ChannelDefineArg) with main := { (default : DefMain) with ctuSize := 64, format := ⟨2, false, 0⟩, rateId := 8 } } }

/-- The channel is number 64, which no device has. -/
def strayUnit : State := { State.reset with chans := [(64, strayChan)] }

/-- Past the 64 channels the rows of REF run into those of ENG: this cell is REF_STATUS of channel 64 too, and the substitution, which fails
the sweep, both counts in it and sets sweep_fail_seen (bit 10). -/
theorem strayUnit_counts_sweep :
    (outState strayUnit (exec (.duSubstitution 64 4 0 0 0) strayUnit)).rd (Reg.ENG_SUBSTITUTIONS 2) = 0x401 := by
  decide

/-- Refutes O42: DU_SUBSTITUTION is stated for every channel number, not for the 64 that exist (R23), to which `Instr.wf` keeps its operand.
On `strayUnit` the cell that should count one substitution of engine 2 goes from 0 to 0x401. -/
theorem not_jobEnds : ¬ Obligations.JobEnds := by
  unfold Obligations.JobEnds
  rintro ⟨-, hrow, -⟩
  obtain ⟨-, -, -, -, -, hsubst, -⟩ := hrow strayUnit 64 4 0 strayChan strayPic (by decide) rfl rfl
  obtain ⟨t, ht, -, -, hcount, -⟩ := hsubst (by decide) (by decide) 0 0
  have hstray := strayUnit_counts_sweep
  rw [ht] at hstray
  exact absurd (hcount.symm.trans hstray) (by decide)

end Sys2Proof.Machine
end

section
/-!
PROOFS. Served commands that change one channel or that a check of their body refuses (R306, R320, R321).
-/
namespace Sys2Proof.Machine
open Sys2Proof

/-- A channel that exists and does not resync takes a layer or configuration command (R326, R327). -/
theorem State.chanRefused_of {s : State} {c : Nat} {ch : Chan} (h : tget s.chans c = some ch) (hj : s.resyncing c = false) :
    s.chanRefused c = false := by
  simp [State.chanRefused, thas, h, hj]

theorem firstBad_append {l r : List (Bool × Nat)} (h : ∀ x ∈ l, x.1 = false) : firstBad (l ++ r) = firstBad r := by
  induction l with
  | nil => rfl
  | cons x l ih =>
    obtain ⟨hx, hl⟩ := List.forall_mem_cons.1 h
    rw [List.cons_append, firstBad, if_neg (by simp [hx]), ih hl]

/-- A command that only the last check refuses completes with the status of that check (R320, R321). -/
theorem State.checked_last {s : State} {l : List (Bool × Nat)} {bad : Bool} {e : Nat} (h : ∀ x ∈ l, x.1 = false) (hb : bad = true)
    (f : State → Answer) : s.checked (l ++ [(bad, e)]) f = { st := s, status := e } := by
  rw [State.checked, firstBad_append h, hb]
  rfl

theorem State.setJournal_host {x : CmdCtx} {pair g b : Nat} (hx : x.from_ = .host pair g b) (s : State) (j : Tab JEntry) :
    ∃ m, s.setJournal x j = { s with mbx := m } := by
  rw [State.setJournal, hx]
  exact ⟨_, rfl⟩

theorem State.complete_host (s : State) (pair g b : Nat) (c : Completion) : ∃ m,
    s.complete (.host pair g b) c false = { s with mbx := m } ∧ tget m.blocks (32 * pair + b) = some c :=
  ⟨_, rfl, tget_tset_self s.mbx.blocks _ c⟩

/-- The answer to a command of the host touches the mailboxes only, and its block holds the completion. -/
theorem HeldCmd.answer_host {k : HeldCmd} {pair g b : Nat} (hf : k.from_ = .host pair g b) (hn : k.silent = false) (s : State)
    (status : Nat) (d : List Byte) : ∃ m, k.answer { st := s, status := status, data := d } = { s with mbx := m }
      ∧ tget m.blocks (32 * pair + b) = some (completionOf k.hdr (opcodeOf k.body) status false d) := by
  simp only [HeldCmd.answer, hf, hn]
  split
  case isTrue =>
    obtain ⟨m, hm⟩ := State.setJournal_host (x := ⟨.host pair g b, k.slot, k.roles, k.hdr.seq⟩) rfl s
      (journalPut (s.journalOf ⟨.host pair g b, k.slot, k.roles, k.hdr.seq⟩) k.hdr.seq
        (.done (completionOf k.hdr (opcodeOf k.body) status false d)))
    rw [Option.getD_none, hm]
    exact State.complete_host { s with mbx := m } pair g b _
  case isFalse => exact State.complete_host s pair g b _

section runs
variable {i : Instr} {s : State} {h : CmdHdr} {p : Payload} {g b : Nat} {d : List Byte}

theorem Runs.imp {l : List Fld} {r : Nat → Prop} {P Q : State → Prop} (hr : Runs i s h p g b d l r P) (hpq : ∀ t, P t → Q t) :
    Runs i s h p g b d l r Q := by
  obtain ⟨t, hx, ht, hregs, ha, hk, hp⟩ := hr
  exact ⟨t, hx, ht, hregs, ha, hk, hpq t hp⟩

/-- The body, which may ask for the roles of the session, changes channel `c` and no more. -/
theorem Runs.of_updChan {c : Nat} {ch : Chan} {f : Chan → Chan} (hx : exec i s = .next (s.runCommand h p))
    (hs : s.serves h p g b = true) (hch : tget s.chans c = some ch)
    (hb : ∀ m o (x : CmdCtx), x.roles = (tgetD s.mbx.sessions h.pair ⟨0, 0⟩).roles →
      (s.atBody m o).body x p = ((s.atBody m o).updChan c f).reply d) :
    Runs i s h p g b d [.chans] noReg fun t =>
      (∀ k, k ≠ c → tget t.chans k = tget s.chans k) ∧ tget t.chans c = some (f ch) := by
  refine .of_body hx hs fun m o _ x _ hroles _ => ⟨(s.atBody m o).updChan c f, m.msixPend, hb m o x hroles, rfl, ?_,
    fun _ _ => rfl, fun _ => ⟨fun _ hk => tget_tupd_ne (Ne.symm hk) .., State.updChan_self (s := s) hch f⟩⟩
  exact ((s.atBody_touches m o).mono (by decide)).then (State.updChan_touches ..) (by decide)

/-- A check of the body refuses the command with status `e`: its block says so, and nothing changes outside the mailboxes (R320). -/
theorem Does.of_refusal {e : Nat} (hx : exec i s = .next (s.runCommand h p)) (hs : s.serves h p g b = true)
    (hb : ∀ m o (x : CmdCtx), x.roles = (tgetD s.mbx.sessions h.pair ⟨0, 0⟩).roles →
      (s.atBody m o).body x p = { st := s.atBody m o, status := e }) :
    Does i s [.mbx, .out] noReg fun t =>
      tget t.mbx.blocks (32 * h.pair + b) = some (completionOf h (opcodeOf p) e false []) := by
  obtain ⟨m, o, -, -, hrun⟩ := State.runCommand_served hs
  obtain ⟨n, hanswer, hblock⟩ := HeldCmd.answer_host (k := s.heldOf h p g b) rfl rfl (s.atBody m o) e []
  rw [hb m o _ rfl, hanswer] at hrun
  exact ⟨_, hx.trans (congrArg _ hrun), s.atBody_touches n o, fun _ _ => rfl, hblock⟩

end runs

end Sys2Proof.Machine
end

section
/-!
PROOFS. The commands of regions, external streams, surfaces, flip groups, protected layers and tables (R115, R125, R135, R142, R148, R149,
R153, R345 to R348).
-/
namespace Sys2Proof.Machine
open Sys2Proof

/-! ## ROI_SET and ROI_CLEAR (R115) -/

theorem State.doRoiSet_writes {s : State} {p : RoiSetArg} {ch : Chan} (hc : p.channel ≤ 63) (hr : p.region ≤ 15) (hk : p.kind ≤ 1)
    (hw : 1 ≤ p.width) (hh : 1 ≤ p.height) (hch : tget s.chans p.channel = some ch) (hok : roiOk ch.cfg p = true)
    (hj : s.resyncing p.channel = false) :
    s.doRoiSet p =
      (s.updChan p.channel fun ch => { ch with shadow := { ch.shadow with rois := tset ch.shadow.rois p.region p } }).done := by
  rw [State.doRoiSet, State.checked_pass]
  simp [State.chanIs, State.chanRefused_of hch hj, hch, hok, hc, hr, hk, Nat.ne_of_gt hw, Nat.ne_of_gt hh]

theorem State.doRoiClear_deletes {s : State} {p : ChArg} {ch : Chan} (hc : p.object ≤ 63) (hi : p.item ≤ 15)
    (hch : tget s.chans p.object = some ch) (hj : s.resyncing p.object = false) :
    s.doRoiClear p =
      (s.updChan p.object fun ch => { ch with shadow := { ch.shadow with rois := tdel ch.shadow.rois p.item } }).done := by
  rw [State.doRoiClear, State.checked_pass]
  simp [State.chanRefused_of hch hj, hc, hi]

/-! ## External streams (R125, R345) -/

theorem State.clearRegs_rd_outside (s : State) {lo hi off : Nat} (h : ¬ (lo ≤ off ∧ off < hi)) : (s.clearRegs lo hi).rd off = s.rd off := by
  rw [State.rd_eq, State.clearRegs_regs, bget_bclear, if_neg h, State.rd_eq]

/-- The machine in which an external stream is defined, with its counts and merge counts cleared. -/
def State.withExt (s : State) (p : ExtStreamArg) : State :=
  { (s.clearRegs (0x00441000 + 0x40 * p.stream) (0x00441040 + 0x40 * p.stream)).clearMerge (64 + p.stream) with
    ext := tset s.ext p.stream { arg := p, shares := (slotsOf p.format p.rateId).getD 0 } }

theorem State.withExt_touches (s : State) (p : ExtStreamArg) : Touches [.regs, .ext] s (s.withExt p) := by
  have hcleared := ((s.clearRegs_touches (0x00441000 + 0x40 * p.stream) (0x00441040 + 0x40 * p.stream)).trans
    (State.clearMerge_touches _ (64 + p.stream))).mono (m := [.regs, .ext]) (by decide)
  exact (Touches.set_ext (by decide) _).mpr hcleared

theorem State.withExt_rd (s : State) {p : ExtStreamArg} {off : Nat}
    (h : ¬ (0x00441000 + 0x40 * p.stream ≤ off ∧ off < 0x00441040 + 0x40 * p.stream
      ∨ Reg.NET_MERGE_STATUS (64 + p.stream) ≤ off ∧ off < Reg.NET_MERGE_MISSING (64 + p.stream) + 4)) :
    (s.withExt p).rd off = s.rd off := by
  obtain ⟨hstream, hmerge⟩ := not_or.1 h
  exact (State.clearRegs_rd_outside _ hmerge).trans (State.clearRegs_rd_outside _ hstream)

theorem State.doExtStreamDefine_defines {s : State} {p : ExtStreamArg} (hok : s.extArgOk p = true) (hfree : thas s.ext p.stream = false)
    (hfit : sumNat (s.ext.map fun e => e.2.shares) + (slotsOf p.format p.rateId).getD 0 ≤ 32) :
    s.doExtStreamDefine p = (s.withExt p).done := by
  rw [State.doExtStreamDefine, State.checked_pass]
  · rfl
  · simp [hok, hfree, hfit]

/-- The machine without external stream `d`: no pipe of the proof decoder works for it. -/
def State.withoutExt (s : State) (d : Nat) : State :=
  { s.clearRegs (0x00441000 + 0x40 * d) (0x00441040 + 0x40 * d) with
    ext := tdel s.ext d
    eng := { s.eng with pipes := tfilter s.eng.pipes fun _ w => w != PipeWork.ext d } }

theorem State.withoutExt_touches (s : State) (d : Nat) : Touches [.regs, .ext, .eng] s (s.withoutExt d) := by
  have hcleared := (s.clearRegs_touches (0x00441000 + 0x40 * d) (0x00441040 + 0x40 * d)).mono (m := [.regs, .ext, .eng]) (by decide)
  exact (Touches.set_eng (by decide)
    (t := { s.clearRegs (0x00441000 + 0x40 * d) (0x00441040 + 0x40 * d) with ext := tdel s.ext d }) _).mpr ((Touches.set_ext (by decide) _).mpr hcleared)

theorem State.withoutExt_pipes (s : State) (d k : Nat) : tget (s.withoutExt d).eng.pipes k ≠ some (PipeWork.ext d) := by
  intro h
  have hkept := (List.mem_filter.1 (mem_of_tget h)).2
  simp at hkept

theorem State.doExtStreamDelete_deletes {s : State} {p : ChArg} {e : ExtStream} (hd : p.object ≤ 15) (hi : p.item = 0)
    (he : tget s.ext p.object = some e) (hv : s.videoNamed e.arg.flowA = false) :
    s.doExtStreamDelete p = (s.withoutExt p.object).done := by
  rw [State.doExtStreamDelete, State.checked_pass]
  · rfl
  · simp [hd, hi, he, hv]

/-! ## Surfaces (R135, R346) -/

/-- The machine in which the surface of an allocation lies at `a`. -/
def State.withSurface (s : State) (p : SurfaceAllocArg) (a : Nat) : State :=
  let n := roundUp (surfaceSize p) 4096
  let h := s.surf.nextHandle
  { s with surf := { s.surf with
      surfs := tset s.surf.surfs h ⟨p.owner, p.kind, p.width, p.height, n, surfaceSize p, a⟩, nextHandle := h + 1
      heap := tset s.surf.heap a (n, 64 + h) } }

theorem State.doSurfaceAlloc_places {s : State} {p : SurfaceAllocArg} {a : Nat} (hok : surfaceArgOk p = true)
    (ho : p.owner ≠ 0xFF → s.chanRefused p.owner = false)
    (ha : placeIn s.surf.heap (surfaceStack p.owner) (roundUp (surfaceSize p) 4096) [0, 1, 2, 3] = some a) :
    s.doSurfaceAlloc p = (s.withSurface p a).reply
      (leBytes 4 s.surf.nextHandle ++ leBytes 4 (roundUp (surfaceSize p) 4096) ++ leBytes 8 a) := by
  have hplace : placeIn s.surf.heap (surfaceStack p.owner) (roundUp (surfaceSize p) 4096) (octetsFrom 0) = some a := ha
  rw [State.doSurfaceAlloc, hplace, State.checked_pass]
  · rfl
  · simpa [hok] using ho

/-- The machine without surface `x`. -/
def State.withoutSurface (s : State) (x : Nat) : State :=
  { s with surf := { s.surf with surfs := tdel s.surf.surfs x, heap := freeOwner s.surf.heap (64 + x) } }

theorem State.doSurfaceFree_frees {s : State} {x : Nat} {f : Surface} (hf : tget s.surf.surfs x = some f)
    (ho : f.owner ≠ 0xFF → s.chanRefused f.owner = false) (hu : s.surfaceUsed x = false) :
    s.doSurfaceFree x = (s.withoutSurface x).done := by
  rw [State.doSurfaceFree, hf, State.checked_pass]
  · rfl
  · simpa [thas, hf, hu] using ho

/-! ## FLIP_SUBMIT (R142, R144) -/

theorem Chan.flipBusy_eq_false {ch : Chan} {p : FlipSubmitArg} (hroom : ch.pendingFlips.length < 4)
    (hid : ∀ x ∈ ch.pendingFlips, x.arg.id ≠ p.id)
    (hlayer : ∀ x ∈ ch.pendingFlips, ∀ u ∈ x.arg.updates, ∀ v ∈ p.updates, v.layer ≠ u.layer) : ch.flipBusy p = false := by
  have hany : (ch.pendingFlips.any fun x => x.arg.updates.any fun u => p.updates.any fun v => v.layer == u.layer) = false := by
    simpa using hlayer
  have hnoId : (ch.pendingFlips.any fun x => x.arg.id == p.id) = false := by simpa using hid
  simp only [Chan.flipBusy, hany, hnoId, decide_eq_false (Nat.not_le.2 hroom), Bool.or_false]

/-- The channel with one more group on its way. -/
def Chan.withFlip (ch : Chan) (g : FlipGroup) : Chan := { ch with layers := { ch.layers with flips := ch.layers.flips ++ [g] } }

/-- The group that a submission makes. -/
def State.flipGroup (s : State) (p : FlipSubmitArg) (ch : Chan) : FlipGroup :=
  { arg := p, tExec := ch.clock s.time.now, notBefore := s.fieldTicks p.notBefore }

theorem State.doFlipSubmit_appends {s : State} {p : FlipSubmitArg} {ch : Chan} (hok : s.flipArgOk p = true)
    (hch : tget s.chans p.channel = some ch) (hj : s.resyncing p.channel = false) (hbusy : ch.flipBusy p = false) :
    s.doFlipSubmit p = (s.updChan p.channel fun a => a.withFlip (s.flipGroup p a)).done := by
  rw [State.doFlipSubmit, State.checked_pass]
  · rfl
  · simp [hok, State.chanRefused_of hch hj, hch, hbusy]

/-! ## Protected layers (R148, R149, R327, R348) -/

/-- The channel with a protected layer. -/
def Chan.withLayer (ch : Chan) (l : Protected) : Chan := { ch with layers := { ch.layers with prot := some l } }

/-- The channel whose protected layer, where it has one, goes at the picture or the time given. -/
def Chan.withRemoval (ch : Chan) (r : Option Nat × TimeField) : Chan :=
  { ch with layers := { ch.layers with prot := ch.layers.prot.map fun l => { l with remove := some r } } }

theorem Chan.withRemoval_of_prot {ch : Chan} {l : Protected} (h : ch.layers.prot = some l) (r : Option Nat × TimeField) :
    ch.withRemoval r = ch.withLayer { l with remove := some r } := by
  rw [Chan.withRemoval, h]
  rfl

/-- The layer that a load makes of surface `f`: the cache and both copies are its bytes. -/
def State.loadedLayer (s : State) (p : ProtectedLoadArg) (ch : Chan) (f : Surface) : Protected :=
  let b := Mem.read s.mem.hbm f.addr f.size
  { x0 := p.x0, y0 := p.y0, width := f.width, height := f.height, kind := f.kind, cache := b, copyA := b, copyB := b, crc := p.crc
    size := f.size, from_ := s.layerCmdPic ch p.time, time := s.keepTime ch p.time }

theorem State.protSource_of {s : State} {c h : Nat} {f : Surface} (hf : tget s.surf.surfs h = some f) (ho : f.owner = c)
    (hk : f.kind ≠ 4) : s.protSource c h = some f := by
  simp [State.protSource, hf, ho, hk]

section protectedLayer
variable {s : State} {x : CmdCtx} {ch : Chan} (hrole : x.roles.testBit 3 = true)
include hrole

/-- A load that no other check refuses depends on the CRC of its source and on the checks of the copies alone. -/
theorem State.doProtectedLoad_checks {p : ProtectedLoadArg} {f : Surface} (hc : p.channel ≤ 63) (hpos : positionOk p.x0 p.y0 = true)
    (ht : s.timeOk p.time = true) (he : s.tooEarly ch p.time = false) (hsrc : s.protSource p.channel p.surface = some f)
    (hch : tget s.chans p.channel = some ch) (hj : s.resyncing p.channel = false) (hnone : ch.layers.prot = none)
    (hcap : s.protBytes + f.size ≤ 1048576) :
    s.doProtectedLoad x p = if (s.crcMatches f.addr f.size p.crc && protCopied p) = true
      then (s.updChan p.channel fun a => a.withLayer (s.loadedLayer p ch f)).reply (reportPic ch (s.layerCmdPic ch p.time))
      else { st := s, status := eCrc } := by
  split
  case isTrue hcrc =>
    obtain ⟨hmatch, hcopied⟩ := Bool.and_eq_true_iff.1 hcrc
    rw [State.doProtectedLoad, hsrc, State.checked_pass, hch]
    · rfl
    · simp [hrole, hc, hpos, ht, he, hch, State.chanRefused_of hch hj, hnone, hcap, hmatch, hcopied]
  case isFalse hcrc =>
    have hbad : (!(s.crcMatches f.addr f.size p.crc) || !(protCopied p)) = true := by
      rwa [← Bool.not_and, Bool.not_eq_true', ← Bool.not_eq_true]
    rw [State.doProtectedLoad, hsrc]
    refine State.checked_last (l := [_, _, _, _, _]) ?_ hbad _
    simp [hrole, hc, hpos, ht, he, hch, State.chanRefused_of hch hj, hnone, hcap]

theorem State.doProtectedRemove_marks {p : ChtArg} {l : Protected} (hc : p.object ≤ 63) (hi : p.item = 0) (ht : s.timeOk p.time = true)
    (he : s.tooEarly ch p.time = false) (hch : tget s.chans p.object = some ch) (hj : s.resyncing p.object = false)
    (hl : ch.layers.prot = some l) (hr : l.remove = none) :
    s.doProtectedRemove x p =
      (s.updChan p.object fun a => a.withRemoval (s.layerCmdPic ch p.time, s.keepTime ch p.time)).reply
        (reportPic ch (s.layerCmdPic ch p.time)) := by
  rw [State.doProtectedRemove, State.checked_pass, hch]
  · rfl
  · simp [hrole, hc, hi, ht, he, hch, State.chanRefused_of hch hj, Chan.removable, hl, hr]

end protectedLayer

/-! ## TONEMAP_LOAD (R153, R348) -/

/-- The channel with a table in its shadow copy. -/
def Chan.withTable (ch : Chan) (d : List Byte) : Chan := { ch with shadow := { ch.shadow with table := some d } }

theorem State.doTonemapLoad_writes {s : State} {p : TonemapLoadArg} {ch : Chan} {f : Surface} (hc : p.channel ≤ 63)
    (hf : tget s.surf.surfs p.surface = some f) (ho : f.owner = p.channel) (hk : f.kind = 4) (hlen : tableLength ≤ f.bytes)
    (hch : tget s.chans p.channel = some ch) (hj : s.resyncing p.channel = false)
    (hform : tableFormOk (Mem.read s.mem.hbm f.addr tableLength) = true) (hpoison : s.rangePoisoned f.addr tableLength = false)
    (hcrc : (crc32c ((Mem.read s.mem.hbm f.addr tableLength).drop 64)).toNat
      = leNat (((Mem.read s.mem.hbm f.addr tableLength).drop 4).take 4)) :
    s.doTonemapLoad p = (s.updChan p.channel fun a => a.withTable (Mem.read s.mem.hbm f.addr tableLength)).done := by
  have hsrc : s.tableSource p.channel p.surface = some f := by simp [State.tableSource, hf, ho, hk, hlen]
  rw [State.doTonemapLoad, hsrc, State.checked_pass]
  · rfl
  · simp [hc, State.chanRefused_of hch hj, hform, hpoison, hcrc]

/-! ## The statement -/

/-- Settles O56: each command by what its body does when no check refuses it; PROTECTED_LOAD by its last check, which decides between the
layer and E_CRC. -/
theorem layerCommands : Obligations.LayerCommands := by
  unfold Obligations.LayerCommands
  intro others pic timely okTwice
  have passes {s : State} {ch : Chan} {f : TimeField} (ht : timely s ch f) : s.timeOk f = true ∧ s.tooEarly ch f = false :=
    ⟨State.timeOk_of ht.1 ht.2.1, State.tooEarly_of ht.2.2⟩
  refine ⟨fun s h g b p ch hs hc hr hk hw hh hch hok hj => ?roiSet, fun s h g b p ch hs hc hi hch hj => ?roiClear,
    fun s h g b p hs hok hfree hfit => ?extDefine, fun s h g b p e hs hd hi he hv => ?extDelete,
    fun s h g b p a hs hok ho ha => ?alloc, fun s h g b x f hs hf ho hu => ?free,
    fun s h g b p ch hs hok hch hj hroom hid hlayer => ?flip,
    fun s h g b p ch f hs hrole hc hpos ht hf ho hk hch hj hnone hcap hpoison hcrc hcopied => ?load,
    fun s h g b p ch f hs hrole hc hpos ht hf ho hk hch hj hnone hcap hbad => ?loadRefused,
    fun s h g b p ch l hs hrole hc hi ht hch hj hl hr => ?remove,
    fun s h g b p ch f hs hc hf ho hk hlen hch hj hform hpoison hcrc => ?table⟩
  case roiSet => exact .of_updChan rfl hs hch fun m o _ _ => State.doRoiSet_writes (s := s.atBody m o) hc hr hk hw hh hch hok hj
  case roiClear => exact .of_updChan rfl hs hch fun m o _ _ => State.doRoiClear_deletes (s := s.atBody m o) hc hi hch hj
  case extDefine =>
    exact .of_answer (f := (·.withExt p)) rfl hs (by decide)
      (fun m o _ => State.doExtStreamDefine_defines (s := s.atBody m o) hok hfree hfit) (fun _ _ => State.withExt_touches ..)
      (fun m o _ hr => State.withExt_rd (s.atBody m o) hr) fun _ _ _ => rfl
  case extDelete =>
    exact .of_answer (f := (·.withoutExt p.object)) rfl hs (by decide)
      (fun m o _ => State.doExtStreamDelete_deletes (s := s.atBody m o) hd hi he hv) (fun _ _ => State.withoutExt_touches ..)
      (fun m o _ hr => State.clearRegs_rd_outside (s.atBody m o) hr)
      fun m o _ => ⟨rfl, State.withoutExt_pipes (s.atBody m o) p.object, rfl⟩
  case alloc =>
    exact .of_answer (f := (·.withSurface p a)) rfl hs (by decide)
      (fun m o _ => State.doSurfaceAlloc_places (s := s.atBody m o) hok ho ha)
      (fun _ _ => (Touches.set_surf (by decide) _).mpr (.refl ..)) (fun _ _ _ _ => rfl) fun _ _ _ => ⟨rfl, rfl, rfl, rfl⟩
  case free =>
    exact .of_answer (f := (·.withoutSurface x)) rfl hs (by decide)
      (fun m o _ => State.doSurfaceFree_frees (s := s.atBody m o) hf ho hu)
      (fun _ _ => (Touches.set_surf (by decide) _).mpr (.refl ..)) (fun _ _ _ _ => rfl)
      fun _ _ _ => ⟨rfl, rfl, fun _ _ => tget_freeOwner_ne⟩
  case flip =>
    exact .of_updChan (f := fun a => a.withFlip (s.flipGroup p a)) rfl hs hch fun m o _ _ =>
      State.doFlipSubmit_appends (s := s.atBody m o) hok hch hj (Chan.flipBusy_eq_false hroom hid hlayer)
  case load =>
    obtain ⟨hto, hte⟩ := passes ht
    have hverified : (s.crcMatches f.addr f.size p.crc && protCopied p) = true := by
      rw [State.crcMatches, hpoison, hcrc, show protCopied p = true from hcopied, BEq.rfl]
      rfl
    refine .imp (.of_updChan (f := (·.withLayer (s.loadedLayer p ch f))) rfl hs hch fun m o x hx => ?_)
      fun t ⟨hothers, hlayer⟩ => ⟨hothers, _, hlayer, rfl, rfl, rfl, rfl, rfl, rfl, rfl, rfl, rfl, rfl⟩
    exact (State.doProtectedLoad_checks (s := s.atBody m o) (hx ▸ hrole) hc hpos hto hte (State.protSource_of hf ho hk) hch hj hnone
        hcap).trans (if_pos hverified)
  case loadRefused =>
    obtain ⟨hto, hte⟩ := passes ht
    have hfails : ¬ (s.crcMatches f.addr f.size p.crc && protCopied p) = true := by
      intro hpass
      obtain ⟨hmatch, hcopied⟩ := Bool.and_eq_true_iff.1 hpass
      obtain ⟨-, hcrc⟩ := Bool.and_eq_true_iff.1 hmatch
      exact hbad.elim (· (eq_of_beq hcrc)) fun hnot => Bool.false_ne_true (hnot.symm.trans hcopied)
    exact .of_refusal rfl hs fun m o x hx =>
      (State.doProtectedLoad_checks (s := s.atBody m o) (hx ▸ hrole) hc hpos hto hte (State.protSource_of hf ho hk) hch hj hnone
        hcap).trans (if_neg hfails)
  case remove =>
    obtain ⟨hto, hte⟩ := passes ht
    refine .imp (.of_updChan (f := (·.withRemoval (s.layerCmdPic ch p.time, s.keepTime ch p.time))) rfl hs hch fun m o x hx => ?_)
      fun t ⟨hothers, hmarked⟩ => ⟨hothers, _, hmarked.trans (congrArg some (Chan.withRemoval_of_prot hl _))⟩
    exact State.doProtectedRemove_marks (s := s.atBody m o) (hx ▸ hrole) hc hi hto hte hch hj hl hr
  case table =>
    exact .of_updChan (f := (·.withTable (Mem.read s.mem.hbm f.addr tableLength))) rfl hs hch fun m o _ _ =>
      State.doTonemapLoad_writes (s := s.atBody m o) hc hf ho hk hlen hch hj hform hpoison hcrc

end Sys2Proof.Machine
end

section
/-!
PROOFS. The dispatch of the proof decoder (R121): what it takes from a channel table that lists one number twice.
-/
namespace Sys2Proof.Machine
open Sys2Proof

/-- A channel whose picture 4 has a DU that waits for proof. -/
def waitingChan : Chan := { (default : Chan) with pics := [(4, { rows := [(0, { proof := .waiting })] })] }

/-- Channel 0 is listed twice, first without pictures: no canonical table (`tsorted`), and no unit has two channels of one number (R23). -/
def doubledUnit : State := { State.reset with chans := [(0, { (default : Chan) with pics := [] }), (0, waitingChan)] }

/-- `State.waitingDus` goes through every entry of the table, so the DU of the second one is found. -/
theorem doubledUnit_firstDu : firstDu doubledUnit.waitingDus = some ⟨waitingChan.verdictAt 4 0, 0, 0, 4⟩ := rfl

/-- The dispatch changes the row in the first entry of channel 0, which has no picture 4: the DU does not become one that is proved. -/
theorem doubledUnit_dispatch_lost :
    ((outState doubledUnit (exec .proofDispatch doubledUnit)).du 0 4 0).proof = .none := by
  decide

/-- Refutes O43: PROOF_DISPATCH is stated for every channel table, not for the canonical ones. On `doubledUnit` the waiting DU is given
pipeline 0, and its row is not `.proving 0` after it. -/
theorem not_proofVerdicts : ¬ Obligations.ProofVerdicts := by
  unfold Obligations.ProofVerdicts
  rintro ⟨-, -, hdispatch, -⟩
  obtain ⟨htakes, -⟩ := hdispatch doubledUnit rfl
  obtain ⟨t, ht, -, -, -, hproving, -⟩ := htakes _ 0 doubledUnit_firstDu (by decide)
  have hlost := doubledUnit_dispatch_lost
  rw [ht] at hlost
  exact absurd (hlost.symm.trans (congrArg Row.proof hproving)) nofun

end Sys2Proof.Machine
end

section
/-!
PROOFS. The registers of the composition block (R143, R147): the fences, which are the device's, and the position and queue of a channel's
cursor.
-/
namespace Sys2Proof.Machine
open Sys2Proof

/-! ## Writes to the block (R22, R295) -/

/-- A write that does not reach its register is an Unsupported Request in D3hot and a bad access in D0. -/
theorem State.hostWrite_away {s : State} {off : Nat} (h : s.reaches off = false) (f : State → State) :
    s.hostWrite off f = s.inD0 s.badAccess := by
  cases h0 : s.mbx.pci.d3hot with
  | true => rw [State.hostWrite_d3hot h0, State.inD0, if_pos h0]
  | false =>
    have hd : s.dev.down (regDomain off) = true := by simpa [State.reaches, h0] using h
    rw [State.hostWrite_down h0 hd, State.inD0, if_neg (by simp [h0])]

/-- No access that is turned away moves a fence or a surface. -/
theorem State.inD0_badAccess_surf (s : State) : (s.inD0 s.badAccess).surf = s.surf := by
  unfold State.inD0
  split
  · exact s.unsupported_surf
  · exact s.badAccess_surf

theorem State.reaches_eq_false {s : State} {off : Nat} (h : s.mbx.pci.d3hot = true ∨ s.dev.down (regDomain off) = true) :
    s.reaches off = false := by
  simp only [State.reaches, Bool.and_eq_false_iff, Bool.not_eq_false']
  exact h

theorem exec_hostWrite_away {i : Instr} {s : State} {off : Nat} {f : State → State} (hi : exec i s = .next (s.hostWrite off f))
    (h : s.reaches off = false) : exec i s = .next (s.inD0 s.badAccess) := hi.trans (congrArg _ (State.hostWrite_away h f))

theorem exec_hostWrite_reaches {i : Instr} {s : State} {off : Nat} {f : State → State} (hi : exec i s = .next (s.hostWrite off f))
    (h : s.reaches off = true) : exec i s = .next (f s) := hi.trans (congrArg _ (State.hostWrite_reaches h))

/-- Every register of the block is in the domain of LYR_FENCE_SIGNAL (Table 1-9), so a write to any of them is turned away with one to it. -/
theorem layerRows_away {s : State} (h : s.reaches Reg.LYR_FENCE_SIGNAL = false) (c : Nat) (w : Word) :
    Gives (.lyrFenceSignal w) s (s.inD0 s.badAccess) ∧ Gives (.lyrFenceReset w) s (s.inD0 s.badAccess)
      ∧ Gives (.lyrCurPos c w) s (s.inD0 s.badAccess) ∧ Gives (.lyrCurQueue c w) s (s.inD0 s.badAccess) :=
  ⟨exec_hostWrite_away rfl h, exec_hostWrite_away (off := Reg.LYR_FENCE_RESET) rfl h,
    exec_hostWrite_away (off := Reg.LYR_CUR_POS 0) rfl h, exec_hostWrite_away (off := Reg.LYR_CUR_QUEUE 0) rfl h⟩

/-! ## Fences (R143) -/

/-- Fence `n` set, at the instant of the local clock. -/
def State.withFence (s : State) (n : Nat) : State := { s with surf := { s.surf with fences := tset s.surf.fences n s.time.now } }

/-- Fence `n` cleared. -/
def State.withoutFence (s : State) (n : Nat) : State := { s with surf := { s.surf with fences := tdel s.surf.fences n } }

section fences
variable {s : State} {w : Word}

theorem State.withFence_touches (s : State) (n : Nat) : Touches [.surf] s (s.withFence n) :=
  (Touches.set_surf (by decide) _).mpr (.refl ..)

theorem State.withoutFence_touches (s : State) (n : Nat) : Touches [.surf] s (s.withoutFence n) :=
  (Touches.set_surf (by decide) _).mpr (.refl ..)

theorem exec_fenceSignal (hr : s.reaches Reg.LYR_FENCE_SIGNAL = true) : exec (.lyrFenceSignal w) s =
    .next (if thas s.surf.fences (w.toNat % 256) then s else s.withFence (w.toNat % 256)) := (exec_hostWrite_reaches rfl hr).trans rfl

theorem exec_fenceSignal_new (hr : s.reaches Reg.LYR_FENCE_SIGNAL = true) (hn : tget s.surf.fences (w.toNat % 256) = none) :
    exec (.lyrFenceSignal w) s = .next (s.withFence (w.toNat % 256)) :=
  (exec_fenceSignal hr).trans (congrArg _ (if_neg (by simp [thas, hn])))

theorem exec_fenceSignal_again (hr : s.reaches Reg.LYR_FENCE_SIGNAL = true) (hn : tget s.surf.fences (w.toNat % 256) ≠ none) :
    exec (.lyrFenceSignal w) s = .next s :=
  (exec_fenceSignal hr).trans (congrArg _ (if_pos (Option.isSome_iff_ne_none.2 hn)))

theorem exec_fenceReset (hr : s.reaches Reg.LYR_FENCE_SIGNAL = true) :
    exec (.lyrFenceReset w) s = .next (s.withoutFence (w.toNat % 256)) :=
  (exec_hostWrite_reaches (off := Reg.LYR_FENCE_RESET) rfl hr).trans rfl

/-- A signal moves at most the fences. -/
theorem exec_fenceSignal_touches (hr : s.reaches Reg.LYR_FENCE_SIGNAL = true) :
    ∃ t, exec (.lyrFenceSignal w) s = .next t ∧ Touches [.surf] s t := by
  by_cases hn : tget s.surf.fences (w.toNat % 256) = none
  · exact ⟨_, exec_fenceSignal_new hr hn, s.withFence_touches _⟩
  · exact ⟨s, exec_fenceSignal_again hr hn, .refl ..⟩

theorem does_fenceSignal (hr : s.reaches Reg.LYR_FENCE_SIGNAL = true) (hn : tget s.surf.fences (w.toNat % 256) = none) :
    Does (.lyrFenceSignal w) s [.surf] noReg fun t =>
      tget t.surf.fences (w.toNat % 256) = some s.time.now ∧ (∀ k, k ≠ w.toNat % 256 → tget t.surf.fences k = tget s.surf.fences k)
        ∧ t.surf.surfs = s.surf.surfs ∧ t.surf.heap = s.surf.heap ∧ t.surf.nextHandle = s.surf.nextHandle :=
  does_of_touches (exec_fenceSignal_new hr hn) (s.withFence_touches _) (by decide)
    ⟨tget_tset_self .., fun _ hk => tget_tset_ne (Ne.symm hk) .., rfl, rfl, rfl⟩

theorem does_fenceReset (hr : s.reaches Reg.LYR_FENCE_SIGNAL = true) : Does (.lyrFenceReset w) s [.surf] noReg fun t =>
      tget t.surf.fences (w.toNat % 256) = none ∧ (∀ k, k ≠ w.toNat % 256 → tget t.surf.fences k = tget s.surf.fences k)
        ∧ t.surf.surfs = s.surf.surfs ∧ t.surf.heap = s.surf.heap ∧ t.surf.nextHandle = s.surf.nextHandle :=
  does_of_touches (exec_fenceReset hr) (s.withoutFence_touches _) (by decide)
    ⟨tget_tdel_self .., fun _ hk => tget_tdel_ne (Ne.symm hk) .., rfl, rfl, rfl⟩

end fences

/-! ### Fence writes that follow one another in the queue -/

theorem step_of_pending {s : State} {i : Instr} {r : List Instr} (h : s.pending = i :: r) : step s = exec i { s with pending := r } := by
  simp only [step, h]

/-- What moves the fences only moves neither the clock nor what decides whether a write arrives. -/
theorem Touches.reaches_eq {s t : State} (h : Touches [.surf] s t) (off : Nat) : t.reaches off = s.reaches off := by
  have hmbx : t.mbx = s.mbx := h.same .mbx (by decide)
  have hdev : t.dev = s.dev := h.same .dev (by decide)
  rw [State.reaches, hmbx, hdev, State.reaches]

section order
variable {s : State} {v w : Word} {r : List Instr}

/-- A reset after a signal leaves the fence clear. -/
theorem steps_signal_reset (hr : s.reaches Reg.LYR_FENCE_SIGNAL = true) (hp : s.pending = .lyrFenceSignal v :: .lyrFenceReset w :: r) :
    ∃ t u, step s = .next t ∧ step t = .next u ∧ tget u.surf.fences (w.toNat % 256) = none := by
  obtain ⟨t, ht, htouch⟩ := exec_fenceSignal_touches (s := { s with pending := .lyrFenceReset w :: r }) (w := v) hr
  have hpt : t.pending = .lyrFenceReset w :: r := htouch.same .pending (by decide)
  have hrt : t.reaches Reg.LYR_FENCE_SIGNAL = true := (htouch.reaches_eq _).trans hr
  exact ⟨t, _, (step_of_pending hp).trans ht, (step_of_pending hpt).trans (exec_fenceReset hrt), tget_tdel_self ..⟩

/-- A signal after a reset of the same fence sets it anew: an older instant is gone. -/
theorem steps_reset_signal (hr : s.reaches Reg.LYR_FENCE_SIGNAL = true) (hn : v.toNat % 256 = w.toNat % 256)
    (hp : s.pending = .lyrFenceReset v :: .lyrFenceSignal w :: r) :
    ∃ t u, step s = .next t ∧ step t = .next u ∧ tget u.surf.fences (w.toNat % 256) = some s.time.now := by
  have hclear : tget (tdel s.surf.fences (v.toNat % 256)) (w.toNat % 256) = none := hn ▸ tget_tdel_self ..
  exact ⟨_, _, (step_of_pending hp).trans (exec_fenceReset hr), (step_of_pending rfl).trans (exec_fenceSignal_new hr hclear),
    tget_tset_self ..⟩

end order

/-- No unit, alone or in a group, moves a fence at a boundary. -/
theorem State.boundary_surf (s : State) (c : Nat) (k : ProtCheck) : (s.boundary c k).surf = s.surf :=
  (s.boundary_touches c k).same .surf (by decide)

/-- A fence that is not set holds every group that names it (R144). -/
theorem fencesReady_eq_false {f : Tab Nat} {g : FlipGroup} {k : Nat} (hk : k ∈ g.arg.fences) (hn : tget f k = none) (limit : Int) :
    fencesReady f g limit = false := by
  refine List.all_eq_false.2 ⟨k, hk, ?_⟩
  rw [hn]
  exact Bool.false_ne_true

/-- Settles O60: the three clauses of a write that arrives, then a write that does not, two writes in the queue, and what the fences
are to a boundary and to a group. -/
theorem fences : Obligations.Fences := by
  unfold Obligations.Fences
  intro open_
  refine ⟨fun s w hr => ⟨does_fenceSignal hr, exec_fenceSignal_again hr, does_fenceReset hr⟩, fun s w hr => ?away,
    fun s v w r hr hn => ⟨steps_signal_reset hr, steps_reset_signal hr hn⟩, fun s c k => ⟨_, rfl, congrArg SurfState.fences (s.boundary_surf c k)⟩,
    fun ch f g n k hk hn => ?gates⟩
  case away =>
    obtain ⟨hsignal, hreset, -, -⟩ := layerRows_away (Bool.eq_false_iff.2 hr) 0 w
    exact ⟨hsignal, hreset, s.inD0_badAccess_surf⟩
  case gates => rw [flipEligible, fencesReady_eq_false hk hn, Bool.and_false]

/-! ## The cursor (R147) -/

/-- The channel whose cursor has been given a position, at instant `now`. -/
def Chan.withCurReg (ch : Chan) (w : Word) (now : Nat) : Chan :=
  { ch with layers := { ch.layers with curReg := some (curX w, curY w, ch.clock now) } }

/-- The channel whose cursor queue has taken an entry for instant `t`. -/
def Chan.withCursor (ch : Chan) (w : Word) (t : Nat) : Chan :=
  { ch with layers := { ch.layers with cursorQ := ch.layers.cursorQ ++ [⟨t, curX w, curY w, wbit w 14⟩], lastPush := some t } }

/-- The instant that LYR_CUR_TIME_S and LYR_CUR_TIME_NS name. -/
def State.curTime (s : State) (c : Nat) : Nat :=
  nsTicks (resolveSec (s.rd (Reg.LYR_CUR_TIME_S c)).toNat s.time.sec * 1000000000 + (s.rd (Reg.LYR_CUR_TIME_NS c)).toNat)

/-- The time of a push is out of range or before that of the last push. -/
def State.curDisordered (s : State) (c : Nat) (ch : Chan) : Bool :=
  decide (1000000000 ≤ (s.rd (Reg.LYR_CUR_TIME_NS c)).toNat)
    || (match ch.layers.lastPush with | some x => decide (s.curTime c < x) | none => false)

/-- The cursor queue holds its sixteen entries. -/
def Chan.curFull (ch : Chan) : Bool := decide (16 ≤ ch.layers.cursorQ.length)

section cursor
variable {s : State} {c : Nat} {w : Word} {ch : Chan}

/-- A FREE channel takes neither write. -/
theorem cursorRows_free (hr : s.reaches Reg.LYR_FENCE_SIGNAL = true) (hc : tget s.chans c = none) :
    Gives (.lyrCurPos c w) s s ∧ Gives (.lyrCurQueue c w) s s :=
  ⟨(exec_hostWrite_reaches (off := Reg.LYR_CUR_POS 0) rfl hr).trans (congrArg _ (State.onChan_none hc _)),
    (exec_hostWrite_reaches (off := Reg.LYR_CUR_QUEUE 0) rfl hr).trans (congrArg _ (State.onChan_none hc _))⟩

theorem exec_curPos (hr : s.reaches Reg.LYR_FENCE_SIGNAL = true) (hc : tget s.chans c = some ch) : exec (.lyrCurPos c w) s =
    .next ((s.wr (Reg.LYR_CUR_POS c) (w &&& 0x3FFF3FFF)).updChan c fun _ => ch.withCurReg w s.time.now) :=
  (exec_hostWrite_reaches (off := Reg.LYR_CUR_POS 0) rfl hr).trans (congrArg _ (State.onChan_some hc _))

theorem exec_curQueue (hr : s.reaches Reg.LYR_FENCE_SIGNAL = true) (hc : tget s.chans c = some ch) : exec (.lyrCurQueue c w) s =
    .next (if s.curDisordered c ch || ch.curFull then
        s.rejectPush c ((if s.curDisordered c ch then 0x40000 else 0) ||| (if ch.curFull then 0x80000 else 0))
      else s.updChan c fun _ => ch.withCursor w (s.curTime c)) :=
  (exec_hostWrite_reaches (off := Reg.LYR_CUR_QUEUE 0) rfl hr).trans (congrArg _ (State.onChan_some hc _))

theorem does_curPos (hr : s.reaches Reg.LYR_FENCE_SIGNAL = true) (hc : tget s.chans c = some ch) :
    Does (.lyrCurPos c w) s [.regs, .chans] (regIn [Reg.LYR_CUR_POS c]) fun t =>
      t.rd (Reg.LYR_CUR_POS c) = (w &&& 0x3FFF3FFF) ∧ tget t.chans c = some (ch.withCurReg w s.time.now)
        ∧ ∀ k, k ≠ c → tget t.chans k = tget s.chans k := by
  refine ⟨_, exec_curPos hr hc, ?_, fun off ho => ?_, ?_, State.updChan_self hc _, fun k hk => tget_tupd_ne (Ne.symm hk) ..⟩
  · exact ((s.wr_touches _ _).mono (by decide)).then (State.updChan_touches ..) (by decide)
  · exact State.rd_wr_ne (fun e => ho (List.mem_singleton.2 e.symm)) s _
  · exact State.rd_wr_self s _ _

theorem does_curQueue (hr : s.reaches Reg.LYR_FENCE_SIGNAL = true) (hc : tget s.chans c = some ch)
    (ho : s.curDisordered c ch = false) (hf : ch.curFull = false) :
    Does (.lyrCurQueue c w) s [.chans] noReg fun t => tget t.chans c = some (ch.withCursor w (s.curTime c))
      ∧ ∀ k, k ≠ c → tget t.chans k = tget s.chans k := by
  refine does_of_touches ((exec_curQueue hr hc).trans (congrArg _ (if_neg ?_))) (s.updChan_touches ..) (by decide)
    ⟨State.updChan_self hc _, fun k hk => tget_tupd_ne (Ne.symm hk) ..⟩
  simp [ho, hf]

/-! ### A push that is discarded -/

theorem State.rejectPush_rd_count (s : State) (c : Nat) (m : Word) :
    (s.rejectPush c m).rd (Reg.LYR_CUR_REJECTS c) = s.rd (Reg.LYR_CUR_REJECTS c) + 1 := by
  rw [State.rejectPush, State.sticky, State.rd_wr_ne (by unfold Reg.LYR_STATUS Reg.LYR_CUR_REJECTS; omega)]
  exact State.rd_wr_self ..

theorem State.rejectPush_rd_status (s : State) (c : Nat) (m : Word) :
    (s.rejectPush c m).rd (Reg.LYR_STATUS c) = (s.rd (Reg.LYR_STATUS c) ||| m) := by
  rw [State.rejectPush, State.sticky, State.rd_wr_self, State.bump, State.bumpBy,
    State.rd_wr_ne (by unfold Reg.LYR_STATUS Reg.LYR_CUR_REJECTS; omega)]

theorem State.rejectPush_rd_ne {off : Nat} (h : off ∉ [Reg.LYR_CUR_REJECTS c, Reg.LYR_STATUS c]) (m : Word) :
    (s.rejectPush c m).rd off = s.rd off := by
  simp only [List.mem_cons, List.not_mem_nil, or_false, not_or] at h
  obtain ⟨hcount, hstatus⟩ := h
  exact (State.rd_wr_ne (Ne.symm hstatus) ..).trans (State.rd_wr_ne (Ne.symm hcount) ..)

theorem does_curQueue_rejected (hr : s.reaches Reg.LYR_FENCE_SIGNAL = true) (hc : tget s.chans c = some ch)
    (hbad : s.curDisordered c ch = true ∨ ch.curFull = true) :
    Does (.lyrCurQueue c w) s [.regs] (regIn [Reg.LYR_CUR_REJECTS c, Reg.LYR_STATUS c]) fun t =>
      t.rd (Reg.LYR_CUR_REJECTS c) = s.rd (Reg.LYR_CUR_REJECTS c) + 1
        ∧ t.rd (Reg.LYR_STATUS c) = (s.rd (Reg.LYR_STATUS c) ||| bitIf (s.curDisordered c ch) 18 ||| bitIf ch.curFull 19) := by
  refine ⟨_, (exec_curQueue hr hc).trans (congrArg _ (if_pos (Bool.or_eq_true_iff.2 hbad))), s.rejectPush_touches .., fun off ho =>
    State.rejectPush_rd_ne ho _, s.rejectPush_rd_count .., ?_⟩
  rw [State.rejectPush_rd_status, BitVec.or_assoc]
  rfl

end cursor

/-! ### The coordinates -/

/-- A field of 14 bits as a signed number. -/
theorem signed14_mem {v : Nat} (h : v < 16384) : -8192 ≤ signed14 v ∧ signed14 v ≤ 8191 := by
  unfold signed14
  split <;> omega

theorem signed14_even {v : Nat} (h : v % 2 = 0) : signed14 v % 2 = 0 := by
  unfold signed14
  split <;> omega

/-- x has 13 bits above a bit 0 that is ignored. -/
theorem curX_mem (w : Word) : -8192 ≤ curX w ∧ curX w ≤ 8190 ∧ curX w % 2 = 0 := by
  have hfield : wfield w 13 1 < 8192 := Nat.mod_lt _ (by decide)
  obtain ⟨hlo, hhi⟩ := signed14_mem (v := wfield w 13 1 * 2) (by omega)
  have heven : curX w % 2 = 0 := signed14_even (Nat.mul_mod_left ..)
  unfold curX at *
  omega

theorem curY_mem (w : Word) : -8192 ≤ curY w ∧ curY w ≤ 8191 := signed14_mem (Nat.mod_lt _ (by decide))

/-- Settles O38: a write that is turned away, one for a FREE channel, then each row on a defined channel, and the ranges of the
coordinates. -/
theorem layerRegisters : Obligations.LayerRegisters := by
  unfold Obligations.LayerRegisters
  intro lost
  have arrives {s : State} (h0 : s.mbx.pci.d3hot = false) (hl : lost s = false) : s.reaches Reg.LYR_FENCE_SIGNAL = true :=
    State.reaches_iff.2 ⟨h0, hl⟩
  refine ⟨fun s c w h => layerRows_away (State.reaches_eq_false h) c w, fun s c w h0 hl hc => cursorRows_free (arrives h0 hl) hc,
    fun s c w ch h0 hl hc => ⟨does_curPos (arrives h0 hl) hc, ?queue⟩, fun w => ?range⟩
  case queue => exact ⟨does_curQueue (arrives h0 hl) hc, does_curQueue_rejected (arrives h0 hl) hc⟩
  case range =>
    obtain ⟨hlo, hhi, heven⟩ := curX_mem w
    exact ⟨hlo, hhi, heven, curY_mem w⟩

end Sys2Proof.Machine
end

section
/-!
PROOFS. Audio directions and the registers of their block (R163 to R167).
-/
namespace Sys2Proof.Machine
open Sys2Proof

/-! ## A direction read after a write -/

section dirs
variable (s : State) (k : Nat) (f : AudDir → AudDir)

@[simp] theorem State.dir_updDir_self : (s.updDir k f).dir k = f (s.dir k) := tgetD_tset_self ..

variable {k}

theorem State.dir_updDir_ne {j : Nat} (h : j ≠ k) : (s.updDir k f).dir j = s.dir j := tgetD_tset_ne (Ne.symm h) ..

variable {s}

theorem State.dir_congr {t : State} (h : t.aud = s.aud) (j : Nat) : t.dir j = s.dir j := congrArg (fun a : AudState => tgetD a.dirs j {}) h

end dirs

end Sys2Proof.Machine
end

section
/-!
PROOFS. The lock of a TDM direction, its slot commit, and the audio clock loop (R165, R167 to R169).
-/
namespace Sys2Proof.Machine
open Sys2Proof

/-! ## Lock (R165) -/

/-- The machine in which direction `k` has lost its lock. -/
def State.lockLost (s : State) (k : Nat) : State :=
  (s.updDir k fun d => { d with locked := false }).countSticky (Reg.AUD_LOCK_LOSSES k) (Reg.AUD_DIR_STATE k) 0x100 1

section lock
variable {s : State} {k : Nat}

theorem State.lockLost_touches (s : State) (k : Nat) : Touches [.regs, .aud] s (s.lockLost k) :=
  ((s.updDir_touches k _).mono (by decide)).then (State.countSticky_touches ..) (by decide)

theorem State.lockLost_aud (s : State) (k : Nat) : (s.lockLost k).aud = (s.updDir k fun d => { d with locked := false }).aud :=
  (State.countSticky_touches ..).same .aud (by decide)

theorem State.dirUnlock_locked (hm : (s.dir k).fmt.mode = 0) (hl : (s.dir k).locked = true) : s.dirUnlock k = s.lockLost k :=
  if_pos (by simp [hl, hm])

theorem State.dirUnlock_unlocked (hl : (s.dir k).locked = false) : s.dirUnlock k = s := if_neg (by simp [hl])

/-- A loss of lock is counted, lock_lost_seen is set, and the direction is unlocked. -/
theorem does_lockLost {i : Instr} (h : exec i s = .next (s.lockLost k)) :
    Does i s [.regs, .aud] (regIn [Reg.AUD_LOCK_LOSSES k, Reg.AUD_DIR_STATE k]) fun t =>
      t.dir k = { s.dir k with locked := false } ∧ (∀ j, j ≠ k → t.dir j = s.dir j)
        ∧ t.rd (Reg.AUD_LOCK_LOSSES k) = s.rd (Reg.AUD_LOCK_LOSSES k) + 1
        ∧ t.rd (Reg.AUD_DIR_STATE k) = (s.rd (Reg.AUD_DIR_STATE k) ||| 0x100) := by
  have hcells : Reg.AUD_DIR_STATE k ≠ Reg.AUD_LOCK_LOSSES k := by unfold Reg.AUD_DIR_STATE Reg.AUD_LOCK_LOSSES; omega
  refine ⟨_, h, s.lockLost_touches k, fun off ho => ?frame, ?self, fun j hj => ?other, ?count, ?sticky⟩
  case frame =>
    simp only [regIn, List.mem_cons, List.not_mem_nil, or_false, not_or] at ho
    obtain ⟨hcount, hstate⟩ := ho
    exact State.countSticky_rd_ne _ _ _ (Ne.symm hcount) (Ne.symm hstate)
  case self => exact (State.dir_congr (s.lockLost_aud k) k).trans (State.dir_updDir_self ..)
  case other => exact (State.dir_congr (s.lockLost_aud k) j).trans (State.dir_updDir_ne _ _ hj)
  case count => exact State.countSticky_rd_self _ _ _ hcells
  case sticky =>
    rw [State.lockLost, State.countSticky, if_neg (by decide), State.rd_eq, State.sticky_regs, bget_bset_self, State.bumpBy_regs,
      bget_bset_ne hcells.symm]
    rfl

theorem State.dirLock_locked (hl : (s.dir k).locked = true) : (s.dirLock k).dir k = s.dir k :=
  (State.dir_updDir_self ..).trans (if_pos hl)

theorem State.dirLock_atRest (hl : (s.dir k).locked = false) (hst : (s.dir k).st = .stopped ∨ (s.dir k).st = .stopping) :
    (s.dirLock k).dir k = { s.dir k with locked := true } := by
  refine (State.dir_updDir_self ..).trans ((if_neg (by simp [hl])).trans (if_pos ?_))
  rcases hst with h | h <;> simp [h]

theorem State.dirLock_started (hl : (s.dir k).locked = false) (hst : (s.dir k).st = .starting ∨ (s.dir k).st = .running) :
    (s.dirLock k).dir k = { (s.dir k).begin with locked := true } := by
  refine (State.dir_updDir_self ..).trans ((if_neg (by simp [hl])).trans (if_neg ?_))
  rcases hst with h | h <;> simp [h]

end lock

section sync
variable {s : State} {p d : Nat} (hp : p ≤ 7) (hd : d ≤ 1)
include hp hd

theorem exec_tdmFrameSync (hm : (s.dir (2 * p + d)).fmt.mode = 0) (n : Nat) : exec (.tdmFrameSync p d n) s =
    .next (if n = (s.dir (2 * p + d)).fmt.slots * 32 then s.dirLock (2 * p + d) else s.dirUnlock (2 * p + d)) :=
  congrArg Host.Outcome.next (if_neg (by omega))

theorem exec_tdmLockTimeout : exec (.tdmLockTimeout p d) s = .next (s.dirUnlock (2 * p + d)) :=
  congrArg Host.Outcome.next (if_neg (by omega))

/-- A frame sync at the right spacing touches its direction only. -/
theorem does_tdmFrameSync_onTime (hm : (s.dir (2 * p + d)).fmt.mode = 0) {P : State → Prop} (h : P (s.dirLock (2 * p + d))) :
    Does (.tdmFrameSync p d ((s.dir (2 * p + d)).fmt.slots * 32)) s [.aud] noReg fun t =>
      (∀ k, k ≠ 2 * p + d → t.dir k = s.dir k) ∧ P t :=
  does_of_touches ((exec_tdmFrameSync hp hd hm _).trans (congrArg _ (if_pos rfl))) (State.dirLock_touches ..) (by decide)
    ⟨fun _ hk => State.dir_updDir_ne _ _ hk, h⟩

end sync

/-! ## The slot commit (R167) -/

section commit
variable {s : State} {p d : Nat} (hp : p ≤ 7) (hd : d ≤ 1)
include hp hd

theorem regDomain_AUD_SLOT_COMMIT : regDomain (Reg.AUD_SLOT_COMMIT (2 * p + d)) = .audm := by
  have hblock : Reg.AUD_SLOT_COMMIT (2 * p + d) / 0x100000 = 6 := by unfold Reg.AUD_SLOT_COMMIT; omega
  rw [regDomain, hblock]
  rfl

theorem exec_audSlotCommit : exec (.audSlotCommit p d) s = .next (s.inD0
    (if s.dev.down .audm = true then s.badAccess else s.wr (Reg.AUD_SLOT_COMMIT (2 * p + d)) 1)) := by
  have hdomain := regDomain_AUD_SLOT_COMMIT hp hd
  refine (congrArg Host.Outcome.next (if_neg (by omega))).trans (congrArg _ ?_)
  rw [State.hostWrite, State.barWrite, hdomain]
  rfl

end commit

/-! ## The audio clock loop (R168, R169) -/

/-- The difference of the pilot's level from its target, in 1/256 frame. -/
def AudStream.pilotError (e : AudStream) (rd : Nat) : Int :=
  ((e.fifo.newest * 256 + e.newestFrac : Nat) : Int) - ((rd * 256 : Nat) : Int) - ((e.fifo.target * 256 : Nat) : Int)

/-- The integrator after an update: it stands still at the limit. -/
def AudState.nextInteg (a : AudState) (err : Int) : Int :=
  if a.atLimit then a.integ else clampI (a.integ + a.ki * err) (-steerLimit) steerLimit

/-- Proportion and integral within the limit. -/
def AudState.rawSteer (a : AudState) (err : Int) : Int := clampI (a.kp * err + a.nextInteg err) (-steerLimit) steerLimit

/-- The steer within 1 ppm of the last one. -/
def AudState.slewed (a : AudState) (err : Int) : Int := clampI (a.rawSteer err) (a.steer - 2 ^ 24) (a.steer + 2 ^ 24)

/-- The block after an update of the loop. -/
def AudState.looped (a : AudState) (err : Int) : AudState :=
  let steer := if a.resume then a.slewed err else a.rawSteer err
  { a with integ := a.nextInteg err, steer := steer, atLimit := decide (steer.natAbs = steerLimit.natAbs)
           resume := a.resume && a.slewed err != a.rawSteer err }

theorem AudState.looped_atLimit (a : AudState) (err : Int) : (a.looped err).atLimit = true ↔
    (a.looped err).steer = 100 * 2 ^ 24 ∨ (a.looped err).steer = -(100 * 2 ^ 24) :=
  decide_eq_true_iff.trans Int.natAbs_eq_natAbs_iff

theorem AudState.looped_free {a : AudState} (h : a.resume = false) (err : Int) : (a.looped err).steer = a.rawSteer err :=
  if_neg (by simp [h])

/-- On the way out of holdover the slew ends with the update that reaches the loop's own value. -/
theorem AudState.looped_resuming {a : AudState} (h : a.resume = true) (err : Int) : (a.looped err).steer = a.slewed err
    ∧ ((a.looped err).steer = a.rawSteer err ↔ (a.looped err).resume = false) := by
  have hsteer : (a.looped err).steer = a.slewed err := if_pos h
  refine ⟨hsteer, ?_⟩
  rw [hsteer]
  simp [AudState.looped, h]

section loop
variable {s : State}

theorem exec_loop_unlocked (h : s.dev.oscUnlocked = true) : exec .audioClockLoopUpdate s = .next s :=
  congrArg Host.Outcome.next (if_pos h)

variable (ho : s.dev.oscUnlocked = false)
include ho

theorem exec_loop_noPilot (hp : s.pilot = none) : exec .audioClockLoopUpdate s =
    .next { s with aud := { s.aud with steer := 0, atLimit := false, holdover := false, resume := false } } := by
  refine congrArg Host.Outcome.next ((if_neg (by simp [ho])).trans ?_)
  rw [hp]

theorem exec_loop_holdover (hp : s.pilot.isSome = true) (hh : s.aud.holdover = true) : exec .audioClockLoopUpdate s = .next s := by
  obtain ⟨p, hp⟩ := Option.isSome_iff_exists.1 hp
  refine congrArg Host.Outcome.next ((if_neg (by simp [ho])).trans ?_)
  rw [hp]
  exact if_pos hh

theorem exec_loop_steers {p rd : Nat} {e : AudStream} (hp : s.pilot = some p) (hh : s.aud.holdover = false)
    (he : tget s.aud.streams p = some e) (hr : e.fifo.rd = some rd) :
    exec .audioClockLoopUpdate s = .next { s with aud := s.aud.looped (e.pilotError rd) } := by
  refine congrArg Host.Outcome.next ((if_neg (by simp [ho])).trans ?_)
  rw [hp]
  refine (if_neg (by simp [hh])).trans ?_
  rw [he]
  dsimp only
  rw [hr]
  rfl

end loop

theorem exec_pilotHoldover (s : State) : exec .pilotHoldover s =
    .next (if s.pilot.isSome then { s with aud := { s.aud with holdover := true } } else s) := rfl

/-! ## The statement -/

/-- Settles O36: a frame sync by its spacing and by where the direction stands, the slot commit by the domain of its register, and each
update of the loop by the pilot and the holdover. -/
theorem audioClocks : Obligations.AudioClocks := by
  unfold Obligations.AudioClocks
  refine ⟨fun s p d n hp hd hm => ?lock, fun s p d n hp hd hm => ?master, fun s p d hp hd => exec_audSlotCommit hp hd,
    fun s => exec_loop_unlocked, fun s => exec_loop_noPilot, fun s => exec_loop_holdover,
    fun s p e rd ho hp hh he hr => ?steers, fun s => ?holdover⟩
  case lock =>
    intro v only loses
    have hsync := exec_tdmFrameSync hp hd hm
    refine ⟨?onTime, fun hn hl => does_lockLost ?early, fun hn hl => (hsync n).trans ?earlyUnlocked, fun hl => does_lockLost ?timeout,
      fun hl => (exec_tdmLockTimeout hp hd).trans (congrArg _ (State.dirUnlock_unlocked hl))⟩
    case onTime =>
      rintro rfl
      exact does_tdmFrameSync_onTime hp hd hm ⟨State.dirLock_locked, State.dirLock_atRest, fun hl hst =>
        have hbegun := State.dirLock_started hl hst
        ⟨hbegun, congrArg AudDir.st hbegun, congrArg AudDir.frame hbegun⟩⟩
    case early => exact (hsync n).trans (congrArg _ ((if_neg hn).trans (State.dirUnlock_locked hm hl)))
    case earlyUnlocked => exact congrArg _ ((if_neg hn).trans (State.dirUnlock_unlocked hl))
    case timeout => exact (exec_tdmLockTimeout hp hd).trans (congrArg _ (State.dirUnlock_locked hm hl))
  case master => exact congrArg Host.Outcome.next (if_pos (.inr (.inr hm)))
  case steers =>
    exact does_of_touches (exec_loop_steers ho hp hh he hr) ((Touches.set_aud (by decide) _).mpr (.refl ..)) (by decide)
      ⟨rfl, fun h => AudState.looped_free h _, fun h => AudState.looped_resuming h _, AudState.looped_atLimit .., rfl, rfl, rfl⟩
  case holdover =>
    exact ⟨fun hp => (exec_pilotHoldover s).trans (congrArg _ (if_pos hp)),
      fun hp => (exec_pilotHoldover s).trans (congrArg _ (if_neg (by simp [hp])))⟩

end Sys2Proof.Machine
end

section
/-!
PROOFS. A frame of a receive direction (R166, R167): what it makes of a slot that is to start again after its drop.
-/
namespace Sys2Proof.Machine
open Sys2Proof

/-- A running receive direction of port 0 whose slot 0 was removed and, before its fade had ended, added again (R167): its last frame has
dropped the slot, which starts again at the next boundary. -/
def readdDir : AudDir :=
  { locked := true, st := .running, frame := 1, readd := 1, fifo := { phase := .normal, frames := [[0, 0, 0, 0, 0, 0, 0, 0]] } }

/-- The direction one frame earlier: the fade of slot 0 has ended. -/
def fadedDir : AudDir :=
  { readdDir with frame := 0, mask := 1, fading := 1, fadePos := [(0, 96)], fifo := { phase := .normal } }

/-- A unit right after power-on but for receive direction 0. -/
def oneDirUnit (d : AudDir) : State := { State.reset with aud := { dirs := [(0, d)] } }

/-- The model itself leaves the direction so: it is the one after the boundary at which the faded slot is dropped. -/
theorem fadedDir_leaves_readdDir : exec (.tdmRxFrame 0 []) (oneDirUnit fadedDir) = .next (oneDirUnit readdDir) := rfl

/-- At its next frame boundary the slot is added to the mask, as R167 has it. -/
theorem readdDir_adds_slot : ((outState (oneDirUnit readdDir) (exec (.tdmRxFrame 0 []) (oneDirUnit readdDir))).dir 0).mask = 1 := by
  decide

/-- Refutes O37: TDM_RX_FRAME of a running direction is stated to keep the mask where no slot fades or ramps and no commit waits, but a slot
that waits to start again (`AudDir.readd`) is none of these. On `oneDirUnit readdDir` the mask goes from 0 to 1. -/
theorem not_audioFrames : ¬ Obligations.AudioFrames := by
  unfold Obligations.AudioFrames
  rintro ⟨-, -, hreceive, -⟩
  obtain ⟨-, hclocked⟩ := hreceive (oneDirUnit readdDir) 0 [] (by decide)
  obtain ⟨-, -, hrunning, -⟩ := hclocked rfl ⟨rfl, rfl, by decide⟩ (by decide)
  obtain ⟨t, ht, -, -, hkept, -⟩ := hrunning rfl rfl (by decide)
  have hadded := readdDir_adds_slot
  rw [ht] at hadded
  exact absurd (hadded.symm.trans (congrArg AudDir.mask hkept)) (by decide)

end Sys2Proof.Machine
end

section
/-!
PROOFS. The audio commands (R156, R157, R161, R163, R166, R168, R171, R349 to R351).
-/
namespace Sys2Proof.Machine
open Sys2Proof

/-! ## Commands that change the block of audio alone -/

section runs
variable {i : Instr} {s : State} {h : CmdHdr} {p : Payload} {g b : Nat} {d : List Byte} (hx : exec i s = .next (s.runCommand h p))
  (hs : s.serves h p g b = true)
include hx hs

theorem Runs.of_setAud {a : AudState} (hb : ∀ m o x, (s.atBody m o).body x p = State.reply { s.atBody m o with aud := a } d) :
    Runs i s h p g b d [.aud] noReg fun t => t.aud = a :=
  .of_answer (f := fun t => { t with aud := a }) hx hs (by decide) hb
    (fun _ _ => (Touches.set_aud (by decide) _).mpr (.refl ..)) (fun _ _ _ _ => rfl) fun _ _ _ => rfl

theorem Runs.of_updDir {k : Nat} {f : AudDir → AudDir} (hb : ∀ m o x, (s.atBody m o).body x p = ((s.atBody m o).updDir k f).reply d) :
    Runs i s h p g b d [.aud] noReg fun t =>
      t.dir k = f (s.dir k) ∧ (∀ j, j ≠ k → t.dir j = s.dir j) ∧ t.aud.streams = s.aud.streams ∧ t.aud.routes = s.aud.routes :=
  .imp (.of_setAud (a := (s.updDir k f).aud) hx hs hb) fun _ ht => ⟨(State.dir_congr ht k).trans (State.dir_updDir_self ..),
    fun j hj => (State.dir_congr ht j).trans (State.dir_updDir_ne _ _ hj), (congrArg AudState.streams ht).trans rfl,
    (congrArg AudState.routes ht).trans rfl⟩

end runs

/-! ## Counts that a start or a definition clears (R157, R173, R193) -/

/-- Between the MSI-X table and the check units every cell has reset value 0 (R6). -/
theorem reset_eq_zero {off : Nat} (hlo : 0x00010400 ≤ off) (hhi : off < 0x00B00000) : Reg.reset off = 0 := by
  rw [Reg.reset, if_neg (by omega), if_neg (by omega), if_pos (by omega)]

theorem State.clearRegs_rd_inside (s : State) {lo hi off : Nat} (h : lo ≤ off ∧ off < hi) (hr : Reg.reset off = 0) :
    (s.clearRegs lo hi).rd off = 0 := by
  rw [State.rd_eq, State.clearRegs_regs, bget_bclear, if_pos h, hr]

/-! ## Directions (R163, R166) -/

/-- A direction under a new configuration. -/
def AudDir.configured (d : AudDir) (p : AudioPortArg) : AudDir :=
  { d with
    fmt := p, locked := d.locked && d.fmt.slots == p.slots && d.fmt.mode == p.mode
    fifo := { d.fifo with target := p.target } }

/-- A direction whose start has been commanded: its FIFO is empty. -/
def AudDir.startCommanded (d : AudDir) : AudDir := { d.begin with fifo := { d.fifo with frames := [], phase := .start }, stopDue := false }

/-- A direction whose stop has been commanded: a start goes on to the end of its sequence first. -/
def AudDir.stopCommanded (d : AudDir) : AudDir := if d.st == .starting then { d with stopDue := true } else d.halt

theorem AudDir.stopCommanded_starting {d : AudDir} (h : d.st = .starting) : d.stopCommanded = { d with stopDue := true } := if_pos (by simp [h])

theorem AudDir.stopCommanded_running {d : AudDir} (h : d.st = .running) : d.stopCommanded = d.halt := if_neg (by simp [h])

section dirs
variable {s : State}

theorem State.doAudioPortConfig_sets {p : AudioPortArg} (hp : p.port ≤ 7) (hd : p.dir ≤ 1) (hm : p.mode ≤ 1) (hn : p.slots ∈ [2, 4, 8, 16])
    (hw : p.fsWidth ≤ 1) (hy : p.fsDelay ≤ 1) (hl : p.fsPolarity ≤ 1) (he : p.edge ≤ 1) (hlo : 128 ≤ p.target) (hhi : p.target ≤ 383)
    (hst : (s.dir (2 * p.port + p.dir)).st = .stopped) :
    s.doAudioPortConfig p = (s.updDir (2 * p.port + p.dir) (·.configured p)).done := by
  rw [State.doAudioPortConfig, State.checked_pass]
  · rfl
  · simp only [List.mem_cons, List.not_mem_nil, or_false] at hn
    simp [hst, hn, hp, hd, hm, hw, hy, hl, he, hlo, hhi]

/-- The machine in which the counts and sticky bits of direction `k` are cleared and its start has been commanded. -/
def State.startDir (s : State) (k : Nat) : State :=
  ((s.clearRegs (Reg.AUD_UNDERRUNS k) (Reg.AUD_LOCK_LOSSES k + 4)).wr (Reg.AUD_DIR_STATE k) 0).updDir k AudDir.startCommanded

theorem State.startDir_touches (s : State) (k : Nat) : Touches [.regs, .aud] s (s.startDir k) :=
  (((s.clearRegs_touches ..).trans (State.wr_touches ..)).mono (by decide)).then (State.updDir_touches ..) (by decide)

theorem State.startDir_rd (s : State) (k off : Nat) : (s.startDir k).rd off =
    if Reg.AUD_DIR_STATE k = off then 0 else (s.clearRegs (Reg.AUD_UNDERRUNS k) (Reg.AUD_LOCK_LOSSES k + 4)).rd off :=
  State.rd_wr ..

/-- Only cells of the direction's own row change. -/
theorem State.startDir_rd_outside (s : State) {k off : Nat} (h : ¬ (Reg.AUD_DIR_STATE k ≤ off ∧ off < Reg.AUD_DIR_STATE (k + 1))) :
    (s.startDir k).rd off = s.rd off := by
  have hrow : Reg.AUD_DIR_STATE k ≤ Reg.AUD_UNDERRUNS k ∧ Reg.AUD_LOCK_LOSSES k + 4 ≤ Reg.AUD_DIR_STATE (k + 1)
      ∧ Reg.AUD_DIR_STATE k < Reg.AUD_DIR_STATE (k + 1) := by
    unfold Reg.AUD_DIR_STATE Reg.AUD_UNDERRUNS Reg.AUD_LOCK_LOSSES
    omega
  rw [State.startDir_rd, if_neg (by omega), State.clearRegs_rd_outside _ (by omega)]

/-- A count of a direction reads 0 after its start. -/
theorem State.startDir_rd_count (s : State) {k off : Nat} (hk : k ≤ 15) (hlo : Reg.AUD_UNDERRUNS k ≤ off) (hhi : off ≤ Reg.AUD_LOCK_LOSSES k) :
    (s.startDir k).rd off = 0 := by
  have hstate : Reg.AUD_DIR_STATE k < Reg.AUD_UNDERRUNS k := by unfold Reg.AUD_DIR_STATE Reg.AUD_UNDERRUNS; omega
  have hreset : Reg.reset off = 0 := by
    unfold Reg.AUD_UNDERRUNS at hlo
    unfold Reg.AUD_LOCK_LOSSES at hhi
    exact reset_eq_zero (by omega) (by omega)
  rw [State.startDir_rd, if_neg (by omega), State.clearRegs_rd_inside _ ⟨hlo, by omega⟩ hreset]

variable {p : ChArg} (hp : p.object ≤ 7) (hi : p.item ≤ 1)
include hp hi

theorem State.doAudioPortStart_starts (hst : (s.dir (2 * p.object + p.item)).st = .stopped) :
    s.doAudioPortStart p = (s.startDir (2 * p.object + p.item)).done := by
  rw [State.doAudioPortStart, State.checked_pass]
  · rfl
  · simp [hst, hp, hi]

theorem State.doAudioPortStop_stops (hst : (s.dir (2 * p.object + p.item)).st = .running ∨ (s.dir (2 * p.object + p.item)).st = .starting) :
    s.doAudioPortStop p = (s.updDir (2 * p.object + p.item) AudDir.stopCommanded).done := by
  rw [State.doAudioPortStop, State.checked_pass]
  · rfl
  · rcases hst with h | h <;> simp [h, hp, hi]

end dirs

/-! ## Streams (R157, R193) -/

section streams
variable {s : State}

/-- The machine in which a stream is defined, with its counts and merge counts cleared. -/
def State.withStream (s : State) (p : AudioStreamArg) : State :=
  let t := (s.clearRegs (Reg.AUD_NS_LEVEL p.stream) (Reg.AUD_NS_LOST_FRAMES p.stream + 4)).clearMerge (80 + p.stream)
  { t with aud := { t.aud with streams := tset t.aud.streams p.stream { arg := p, fifo := { target := p.target } } } }

theorem State.withStream_touches (s : State) (p : AudioStreamArg) : Touches [.regs, .aud] s (s.withStream p) :=
  (Touches.set_aud (by decide) _).mpr (((s.clearRegs_touches ..).trans (State.clearMerge_touches ..)).mono (by decide))

theorem State.withStream_rd (s : State) {p : AudioStreamArg} {off : Nat}
    (h : ¬ (Reg.AUD_NS_LEVEL p.stream ≤ off ∧ off < Reg.AUD_NS_LEVEL (p.stream + 1)
      ∨ Reg.NET_MERGE_STATUS (80 + p.stream) ≤ off ∧ off < Reg.NET_MERGE_STATUS (81 + p.stream))) :
    (s.withStream p).rd off = s.rd off := by
  obtain ⟨hstream, hmerge⟩ := not_or.1 h
  have hown : Reg.AUD_NS_LOST_FRAMES p.stream + 4 ≤ Reg.AUD_NS_LEVEL (p.stream + 1) := by
    unfold Reg.AUD_NS_LOST_FRAMES Reg.AUD_NS_LEVEL
    omega
  have hits : Reg.NET_MERGE_MISSING (80 + p.stream) + 4 = Reg.NET_MERGE_STATUS (81 + p.stream) := by
    unfold Reg.NET_MERGE_MISSING Reg.NET_MERGE_STATUS
    omega
  exact (State.clearRegs_rd_outside _ (hits ▸ hmerge)).trans (State.clearRegs_rd_outside _ (by omega))

/-- The counts of the stream and of its merge read 0 after its definition. -/
theorem State.withStream_rd_zero (s : State) {p : AudioStreamArg} (hs : p.stream ≤ 63) :
    (s.withStream p).rd (Reg.AUD_NS_LOST_FRAMES p.stream) = 0 ∧ (s.withStream p).rd (Reg.NET_MERGE_MISSING (80 + p.stream)) = 0 := by
  obtain ⟨hstream, hcount⟩ : Reg.AUD_NS_LEVEL p.stream ≤ Reg.AUD_NS_LOST_FRAMES p.stream ∧ Reg.reset (Reg.AUD_NS_LOST_FRAMES p.stream) = 0 := by
    unfold Reg.AUD_NS_LEVEL Reg.AUD_NS_LOST_FRAMES
    exact ⟨by omega, reset_eq_zero (by omega) (by omega)⟩
  obtain ⟨hmerge, hmissing⟩ : Reg.NET_MERGE_STATUS (80 + p.stream) ≤ Reg.NET_MERGE_MISSING (80 + p.stream)
      ∧ Reg.reset (Reg.NET_MERGE_MISSING (80 + p.stream)) = 0 := by
    unfold Reg.NET_MERGE_STATUS Reg.NET_MERGE_MISSING
    exact ⟨by omega, reset_eq_zero (by omega) (by omega)⟩
  exact ⟨State.clearRegs_rd_zero (State.clearRegs_rd_inside _ ⟨hstream, by omega⟩ hcount) hcount ..,
    State.clearRegs_rd_inside _ ⟨hmerge, by omega⟩ hmissing⟩

theorem State.doAudioStreamConfig_defines {p : AudioStreamArg} (hs : p.stream ≤ 63) (hf : p.format ≤ 2) (hc : 1 ≤ p.channels)
    (hc' : p.channels ≤ 64) (hp : p.ptime ≤ 1) (hlo : 128 ≤ p.target) (hhi : p.target ≤ 383)
    (ha : s.audioFlow p.flowA p.stream p.format = true) (hb : p.flowB ≠ 0xFFFF → s.audioFlow p.flowB p.stream p.format = true)
    (hfree : thas s.aud.streams p.stream = false)
    (hfit : p.channels + sumNat (s.aud.streams.map fun e => e.2.arg.channels) ≤ 512) :
    s.doAudioStreamConfig p = (s.withStream p).done := by
  rw [State.doAudioStreamConfig, State.checked_pass]
  · rfl
  · simp only [List.mem_cons, List.not_mem_nil, or_false, forall_eq_or_imp, forall_eq]
    refine ⟨?_, hfree, decide_eq_false (by omega)⟩
    simpa [hs, hf, Nat.ne_of_gt hc, hc', hp, hlo, hhi, ha] using hb

/-- The machine without stream `k` and its merge. -/
def State.withoutStream (s : State) (k : Nat) : State :=
  { s with aud := { s.aud with streams := tdel s.aud.streams k }, net := { s.net with merges := tdel s.net.merges (80 + k) } }

theorem State.doAudioStreamDelete_deletes {p : ChArg} (hs : p.object ≤ 63) (hi : p.item = 0) (h : thas s.aud.streams p.object = true) :
    s.doAudioStreamDelete p = (s.withoutStream p.object).done := by
  rw [State.doAudioStreamDelete, State.checked_pass]
  · rfl
  · simp [hs, hi, h]

end streams

/-! ## Routes (R156, R171, R350) -/

section routes
variable (s : State) {e : RouteEntry}

/-- A channel with an audio route in its shadow copy, a source of kind 0 taking the route away. -/
def Chan.withAudio (ch : Chan) (e : RouteEntry) : Chan :=
  let n := if e.srcKind = 0 then tdel ch.shadow.audio e.sinkB else tset ch.shadow.audio e.sinkB (e.srcKind, e.srcA, e.srcB)
  { ch with shadow := { ch.shadow with audio := n } }

theorem State.routeEntry_transmit (h : e.sinkKind = 1) : s.routeEntry e =
    { s with aud := { s.aud with newRoutes := tset s.aud.newRoutes (16 * e.sinkA + e.sinkB) (e.srcKind, e.srcA, e.srcB) } } := if_pos h

theorem State.routeEntry_channel (h : e.sinkKind ≠ 1) : s.routeEntry e = s.updChan e.sinkA (·.withAudio e) := if_neg h

/-- The routes in force and the streams are as before: a transmit sink waits for its frame boundary. -/
theorem State.routeEntry_keeps (e : RouteEntry) :
    ((s.routeEntry e).aud.routes, (s.routeEntry e).aud.streams) = (s.aud.routes, s.aud.streams) := by
  by_cases h : e.sinkKind = 1
  · rw [State.routeEntry_transmit s h]
  · rw [State.routeEntry_channel s h]
    rfl

theorem State.routeEntries_keep (l : List RouteEntry) :
    (l.foldl State.routeEntry s).aud.routes = s.aud.routes ∧ (l.foldl State.routeEntry s).aud.streams = s.aud.streams :=
  Prod.mk.inj (foldl_keep (fun t : State => (t.aud.routes, t.aud.streams)) State.routeEntry_keeps l s)

theorem State.routeEntries_touches (l : List RouteEntry) : Touches [.chans, .aud] s (l.foldl State.routeEntry s) :=
  .foldl State.routeEntry_touches l s

variable {s}

theorem State.doAudioRoute_routes {p : AudioRouteArg} (h1 : 1 ≤ p.entries.length) (h16 : p.entries.length ≤ 16)
    (hok : ∀ e ∈ p.entries, routeOk e = true)
    (hch : ∀ e ∈ p.entries, e.sinkKind = 2 →
      thas s.chans e.sinkA = true ∧ (e.srcKind = 2 → s.member = false) ∧ s.resyncing e.sinkA = false) :
    s.doAudioRoute p = (p.entries.foldl State.routeEntry s).done := by
  have hne : p.entries ≠ [] := List.ne_nil_of_length_pos h1
  rw [State.doAudioRoute, State.checked_pass]
  simp only [List.mem_cons, List.not_mem_nil, or_false, forall_eq_or_imp, forall_eq]
  constructor
  · simpa [hne, h16] using hok
  · refine List.any_eq_false.2 fun e he => ?_
    by_cases hk : e.sinkKind = 2
    · obtain ⟨hhas, hsingle, hsync⟩ := hch e he hk
      simpa [hk, hhas, hsync] using hsingle
    · simp [hk]

end routes

/-! ## Alignment groups and the clock (R161, R168, R351) -/

section groups
variable {s : State}

theorem State.doAudioAlignGroup_notes {p : AlignGroupArg} (hg : p.group ≤ 15) (hl : p.members.length ≤ 16)
    (hm : ∀ m ∈ p.members, m.1 ≤ 2 ∧ m.2 ≤ (if m.1 = 0 then 63 else 7)) (hx : (∀ m ∈ p.members, m.1 ≠ 2) ∨ p.members.length ≤ 1)
    (hn : (p.members.map fun m => 256 * m.1 + m.2).Nodup)
    (ho : ∀ e ∈ s.alignGroups, e.1 ≠ p.group → ∀ i ∈ e.2, i ∉ p.members.map fun m => 256 * m.1 + m.2) :
    s.doAudioAlignGroup p =
      State.done { s with aud := { s.aud with newGroups := tset s.aud.newGroups p.group (p.members.map fun m => 256 * m.1 + m.2) } } := by
  rw [State.doAudioAlignGroup, State.checked_pass]
  simp only [List.mem_singleton, forall_eq, Bool.or_eq_false_iff, hn.dedup, decide_eq_false_iff_not, Nat.not_lt]
  refine ⟨⟨⟨⟨⟨hg, hl⟩, ?ranges⟩, ?transmit⟩, le_rfl⟩, ?others⟩
  case ranges =>
    refine List.any_eq_false.2 fun m h => ?_
    obtain ⟨hkind, hnum⟩ := hm m h
    simpa [hkind] using hnum
  case transmit => simpa [or_iff_not_imp_left] using hx
  case others =>
    refine List.any_eq_false.2 fun i hi hin => ?_
    obtain ⟨e, he, hie⟩ := List.mem_flatMap.1 (List.contains_iff_mem.1 hin)
    obtain ⟨hmem, hne⟩ := List.mem_filter.1 he
    exact ho e hmem (by simpa using hne) i hie hi

theorem State.doAudioClock_sets {p : AudioClockArg} (h : p.pilot ≤ 63 ∨ p.pilot = 0xFE ∨ p.pilot = 0xFF) :
    s.doAudioClock p = State.done { s with aud := { s.aud with pilotSel := p.pilot, kp := p.kp, ki := p.ki } } := by
  rw [State.doAudioClock, State.checked_pass]
  rcases h with h | h | h <;> simp [h]

end groups

/-! ## The statement -/

/-- Settles O57: each command by what its body does when no check refuses it. -/
theorem audioCommands : Obligations.AudioCommands := by
  unfold Obligations.AudioCommands
  refine ⟨fun s h g b p hs hp hd hm hn hw hy hl he hlo hhi => ?config, fun s h g b p hp hi => ?port,
    fun s h g b p hs hk hf hc hc' hp hlo hhi hfa hfb hfree hfit => ?define, fun s h g b p hs hk hi hhas => ?delete,
    fun s h g b p hs h1 h16 hok hch => ?route, fun s h g b p hs hg hl => ?group, fun s h g b p hs hp => ?clock⟩
  case config =>
    intro k hst
    exact .of_updDir (f := (·.configured p)) rfl hs fun m o _ =>
      State.doAudioPortConfig_sets (s := s.atBody m o) hp hd hm hn hw hy hl he hlo hhi hst
  case port =>
    intro k
    refine ⟨fun hs hst => ?start, fun hs hst => ?stop⟩
    case start =>
      have hk : k ≤ 15 := by omega
      have hcounts : Reg.AUD_UNDERRUNS k ≤ Reg.AUD_LOCK_LOSSES k := by unfold Reg.AUD_UNDERRUNS Reg.AUD_LOCK_LOSSES; omega
      refine .of_answer (f := (·.startDir k)) rfl hs (by decide)
        (fun m o _ => State.doAudioPortStart_starts (s := s.atBody m o) hp hi hst) (fun _ _ => State.startDir_touches ..)
        (fun m o _ hr => State.startDir_rd_outside (s.atBody m o) hr) fun m o q => ?_
      have hdir : (s.atBody m o |>.startDir k).dir k = (s.dir k).startCommanded := State.dir_updDir_self ..
      exact ⟨congrArg AudDir.st hdir, congrArg AudDir.frame hdir, congrArg AudDir.stopDue hdir, (congrArg AudDir.fmt hdir).trans rfl,
        congrArg (·.fifo.frames) hdir, State.startDir_rd_count _ hk le_rfl hcounts, State.startDir_rd_count _ hk hcounts le_rfl,
        fun _ hj => State.dir_updDir_ne _ _ hj⟩
    case stop =>
      refine .imp (.of_updDir (f := AudDir.stopCommanded) rfl hs fun m o _ => State.doAudioPortStop_stops (s := s.atBody m o) hp hi hst)
        fun t ⟨hdir, hothers, _, _⟩ => ⟨fun h => hdir.trans (AudDir.stopCommanded_starting h), fun h => ?_, hothers⟩
      have hhalt := hdir.trans (AudDir.stopCommanded_running h)
      exact ⟨congrArg AudDir.st hhalt, congrArg AudDir.frame hhalt, (congrArg AudDir.fmt hhalt).trans rfl⟩
  case define =>
    exact .of_answer (f := (·.withStream p)) rfl hs (by decide)
      (fun m o _ => State.doAudioStreamConfig_defines (s := s.atBody m o) hk hf hc hc' hp hlo hhi hfa hfb hfree hfit)
      (fun _ _ => State.withStream_touches ..) (fun m o _ hr => State.withStream_rd (s.atBody m o) hr)
      fun m o _ => ⟨rfl, State.withStream_rd_zero (s.atBody m o) hk⟩
  case delete =>
    exact .of_answer (f := (·.withoutStream p.object)) rfl hs (by decide)
      (fun m o _ => State.doAudioStreamDelete_deletes (s := s.atBody m o) hk hi hhas)
      (fun _ _ => (Touches.set_aud_net (by decide) (by decide) _ _).mpr (.refl ..)) (fun _ _ _ _ => rfl) fun _ _ _ => ⟨rfl, rfl⟩
  case route =>
    refine .of_answer (f := p.entries.foldl State.routeEntry) rfl hs (by decide)
      (fun m o _ => State.doAudioRoute_routes (s := s.atBody m o) h1 h16 hok hch) (fun _ _ => State.routeEntries_touches ..)
      (fun m o off _ => (State.routeEntries_touches (s.atBody m o) p.entries).rd_eq (by decide) off) fun m o q => ?_
    obtain ⟨hroutes, hstreams⟩ := (s.atBody m o).routeEntries_keep p.entries
    refine ⟨hroutes, hstreams, fun e hone hk => ?transmit, fun e ch hone hc hk => ?channel⟩
    case transmit =>
      rw [hone, List.foldl_cons, List.foldl_nil, State.routeEntry_transmit _ hk]
      exact ⟨rfl, rfl⟩
    case channel =>
      rw [hone, List.foldl_cons, List.foldl_nil, State.routeEntry_channel _ (by omega)]
      exact ⟨rfl, fun _ hj => tget_tupd_ne (Ne.symm hj) .., State.updChan_self (s := s.atBody m o) hc _⟩
  case group =>
    intro ids hm hx hn ho
    exact .of_setAud rfl hs fun m o _ => State.doAudioAlignGroup_notes (s := s.atBody m o) hg hl hm hx hn ho
  case clock => exact .of_setAud rfl hs fun m o _ => State.doAudioClock_sets (s := s.atBody m o) hp

end Sys2Proof.Machine
end

section
/-!
PROOFS. Registers after a count or a sticky bit (R6, R193), and what a row does, weakened.
-/
namespace Sys2Proof.Machine
open Sys2Proof

section registers
variable (s : State) {off c : Nat}

@[simp] theorem State.bump_rd_self (off : Nat) : (s.bump off).rd off = s.rd off + 1 := State.rd_wr_self ..

theorem State.bump_rd_ne (h : off ≠ c) : (s.bump off).rd c = s.rd c := State.rd_wr_ne h ..

@[simp] theorem State.sticky_rd_self (off : Nat) (m : Word) : (s.sticky off m).rd off = s.rd off ||| m := State.rd_wr_self ..

theorem State.sticky_rd_ne (h : off ≠ c) (m : Word) : (s.sticky off m).rd c = s.rd c := State.rd_wr_ne h ..

end registers

theorem Does.imp {i : Instr} {s : State} {l : List Fld} {r : Nat → Prop} {P Q : State → Prop} (h : Does i s l r P)
    (hpq : ∀ t, P t → Q t) : Does i s l r Q := by
  obtain ⟨t, hx, ht, hr, hp⟩ := h
  exact ⟨t, hx, ht, hr, hpq t hp⟩

end Sys2Proof.Machine
end

section
/-!
PROOFS. What becomes of a received frame (R176 to R184, R382).
-/
namespace Sys2Proof.Machine
open Sys2Proof

/-! ## The frame before it is parsed (R177, R382) -/

/-- The interface exists, is enabled and up: it takes frames (R175, R176). -/
def State.takesFrames (s : State) (i : Nat) : Bool := s.ifExists i && (s.iface i).enabled && (s.iface i).linkUp

/-- A frame of 64 to 9,216 bytes with a right FCS (R177). -/
def goodFrame (f : RxFrame) : Bool := decide (64 ≤ f.bytes.length) && decide (f.bytes.length ≤ 9216) && fcsOk f.bytes

/-- The interface has a MAC address, or the frame goes to a group address (R176). -/
def Iface.mine (n : Iface) (f : RxFrame) : Bool := n.mac.isSome || groupMac (BitVec.ofNat 48 (beNat f.bytes 0 6))

/-- The state that a frame finds which the interface counts as received. -/
def State.frameCounted (s : State) (i k : Nat) : State := ((s.panicLevel 0 k).bump (Reg.NET_RX_FRAMES i)).pmuEvent 7 0

/-- A counted frame by what parsing it gives. -/
def State.handle (s : State) (i : Nat) (f : RxFrame) : Parsed → State
  | .flowControl => s.bump (Reg.NET_FIXED_DROPS i)
  | .malformed => s.malformed i
  | .fixed k => s.fixedTake i (s.ingressOf i f) k
  | .udp u => s.udpIn i f u
  | .other => s.unmatched i

/-- The register cells of an interface that a frame counts in, and MEM_PANICS. -/
def frameCells (i : Nat) : List Nat := [Reg.MEM_PANICS, Reg.NET_RX_FCS_ERRORS i, Reg.NET_RX_FRAMES i, Reg.NET_PORT_STATUS i,
  Reg.NET_FIXED_DROPS i, Reg.NET_MALFORMED i, Reg.NET_UNMATCHED i]

theorem State.takesFrames_lt {s : State} {i : Nat} (h : s.takesFrames i = true) : i < 16 := by
  simp only [State.takesFrames, State.ifExists, Bool.and_eq_true, decide_eq_true_eq] at h
  exact h.1.1.1

section exec
variable {s : State} {i : Nat} {f : RxFrame} (k : Nat)

theorem exec_ethernetFrameRx : exec (.ethernetFrameRx i f k) s = .next (if s.takesFrames i = false then s
    else if goodFrame f = false then ((s.panicLevel 0 k).bump (Reg.NET_RX_FCS_ERRORS i)).sticky (Reg.NET_PORT_STATUS i) 0x800
    else if (s.iface i).mine f = false then s.panicLevel 0 k
    else (s.frameCounted i k).handle i f (parseFrame (s.iface i) f.bytes)) := by
  have htakes : (!(s.ifExists i) || !(s.iface i).enabled || !(s.iface i).linkUp) = !s.takesFrames i := by simp [State.takesFrames]
  have hgood : (decide (f.bytes.length < 64) || decide (9216 < f.bytes.length) || !(fcsOk f.bytes)) = !(goodFrame f) := by
    simp only [goodFrame, Bool.not_and, ← decide_not, Nat.not_le]
  have hmine : ((s.iface i).mac.isNone && !(groupMac (BitVec.ofNat 48 (beNat f.bytes 0 6)))) = !(s.iface i).mine f := by
    cases h : (s.iface i).mac <;> simp [Iface.mine, h]
  show Host.Outcome.next (if (!(s.ifExists i) || !(s.iface i).enabled || !(s.iface i).linkUp) = true then s
    else if (decide (f.bytes.length < 64) || decide (9216 < f.bytes.length) || !(fcsOk f.bytes)) = true then _
    else if ((s.iface i).mac.isNone && !(groupMac (BitVec.ofNat 48 (beNat f.bytes 0 6)))) = true then _ else _) = _
  rw [htakes, hgood, hmine]
  simp only [Bool.not_eq_true']
  cases parseFrame (s.iface i) f.bytes <;> rfl

theorem exec_ethernetFrameRx_parsed (ht : s.takesFrames i = true) (hg : goodFrame f = true) (hm : (s.iface i).mine f = true) :
    exec (.ethernetFrameRx i f k) s = .next ((s.frameCounted i k).handle i f (parseFrame (s.iface i) f.bytes)) := by
  simp [exec_ethernetFrameRx, ht, hg, hm]

end exec

/-! ## The panic level and the count (R382) -/

section counted
variable (s : State) (k : Nat)

theorem State.panicLevel_rd_ne {off : Nat} (h : off ≠ Reg.MEM_PANICS) : (s.panicLevel 0 k).rd off = s.rd off := by
  simp only [State.panicLevel, ↓reduceIte]
  split
  · exact State.bump_rd_ne _ (Ne.symm h)
  · split <;> rfl

theorem State.panicLevel_hbm : (s.panicLevel 0 k).mem.hbm = s.mem.hbm := by
  simp only [State.panicLevel, ↓reduceIte]
  split
  · rfl
  · split <;> rfl

variable (i : Nat)

theorem State.frameCounted_touches : Touches [.regs, .mem, .pmu] s (s.frameCounted i k) :=
  (((s.panicLevel_touches 0 k).mono (m := [.regs, .mem, .pmu]) (by decide)).then (State.bump_touches ..) (by decide)).then
    (State.pmuEvent_touches ..) (by decide)

theorem State.frameCounted_net : (s.frameCounted i k).net = s.net := (s.frameCounted_touches k i).same .net (by decide)

theorem State.frameCounted_hbm : (s.frameCounted i k).mem.hbm = s.mem.hbm := by
  rw [State.frameCounted, State.pmuEvent_mem, State.bump_mem, State.panicLevel_hbm]

theorem State.frameCounted_rd_ne {off : Nat} (hp : off ≠ Reg.MEM_PANICS) (hf : off ≠ Reg.NET_RX_FRAMES i)
    (hpmu : ¬ (0x00C00000 ≤ off ∧ off < 0x00D00000)) : (s.frameCounted i k).rd off = s.rd off := by
  rw [State.frameCounted, State.pmuEvent_rd_ne _ 7 0 hpmu, State.bump_rd_ne _ (Ne.symm hf), State.panicLevel_rd_ne _ _ hp]

variable {i} (hi : i < 16)
include hi

theorem State.frameCounted_rd_frames : (s.frameCounted i k).rd (Reg.NET_RX_FRAMES i) = s.rd (Reg.NET_RX_FRAMES i) + 1 := by
  have hne : Reg.NET_RX_FRAMES i < 0x00302000 := by unfold Reg.NET_RX_FRAMES; omega
  rw [State.frameCounted, State.pmuEvent_rd_ne _ 7 0 (by omega), State.bump_rd_self,
    State.panicLevel_rd_ne _ _ (by unfold Reg.MEM_PANICS; omega)]

end counted

/-! ## What handling a counted frame may change -/

/-- From `v` to `u` a frame of interface `i` changes counts, the performance counters and the block of interfaces only; not the count
of frames received, nor a merge. -/
structure Handled (i : Nat) (v u : State) : Prop where
  touches : Touches [.regs, .pmu, .net] v u
  other : ∀ off, ¬ regOrPmu (frameCells i) off → u.rd off = v.rd off
  frames : u.rd (Reg.NET_RX_FRAMES i) = v.rd (Reg.NET_RX_FRAMES i)
  merges : u.net.merges = v.net.merges

namespace Handled
variable {i : Nat} {v u w : State}

theorem trans (a : Handled i v u) (b : Handled i u w) : Handled i v w where
  touches := a.touches.trans b.touches
  other off h := (b.other off h).trans (a.other off h)
  frames := b.frames.trans a.frames
  merges := b.merges.trans a.merges

theorem of_net (h : Touches [.net] v u) (hm : u.net.merges = v.net.merges) : Handled i v u where
  touches := h.mono (by decide)
  other off _ := h.rd_eq (by decide) off
  frames := h.rd_eq (by decide) _
  merges := hm

theorem wr {off : Nat} (h : off ∈ frameCells i) (hf : off ≠ Reg.NET_RX_FRAMES i) (x : Word) : Handled i v (v.wr off x) where
  touches := (State.wr_touches ..).mono (by decide)
  other _ h' := State.rd_wr_ne (fun e => h' (.inl (by rwa [← e]))) ..
  frames := State.rd_wr_ne hf ..
  merges := rfl

theorem pmuEvent (hi : i < 16) (c n : Nat) : Handled i v (v.pmuEvent c n) where
  touches := (State.pmuEvent_touches ..).mono (by decide)
  other _ h := State.pmuEvent_rd_ne _ c n fun hp => h (.inr hp)
  frames := State.pmuEvent_rd_ne _ c n (by unfold Reg.NET_RX_FRAMES; omega)
  merges := by rw [State.pmuEvent_net]

end Handled

/-- A counted frame: `exec` answers a state in which NET_RX_FRAMES has counted it and which meets `P`. -/
def Counted (i : Nat) (f : RxFrame) (k : Nat) (s : State) (P : State → Prop) : Prop :=
  Does (.ethernetFrameRx i f k) s [.regs, .mem, .pmu, .net] (regOrPmu (frameCells i)) fun t =>
    t.rd (Reg.NET_RX_FRAMES i) = s.rd (Reg.NET_RX_FRAMES i) + 1 ∧ t.mem.hbm = s.mem.hbm ∧ t.net.merges = s.net.merges ∧ P t

theorem Counted.imp {i k : Nat} {f : RxFrame} {s : State} {P Q : State → Prop} (h : Counted i f k s P) (hpq : ∀ t, P t → Q t) :
    Counted i f k s Q := Does.imp h fun t ⟨hframes, hmem, hmerges, hp⟩ => ⟨hframes, hmem, hmerges, hpq t hp⟩

theorem counted_of_handled {i k : Nat} {f : RxFrame} {s u : State} {P : State → Prop} (hi : i < 16)
    (hx : exec (.ethernetFrameRx i f k) s = .next u) (hh : Handled i (s.frameCounted i k) u) (hp : P u) : Counted i f k s P := by
  refine ⟨u, hx, ((s.frameCounted_touches k i).mono (by decide)).then hh.touches (by decide), fun off ho => (hh.other off ho).trans ?_,
    hh.frames.trans (s.frameCounted_rd_frames k hi), ?_, hh.merges.trans (by rw [State.frameCounted_net]), hp⟩
  · simp only [regOrPmu, frameCells, List.mem_cons, not_or] at ho
    obtain ⟨⟨hpanics, -, hframes, -⟩, hpmu⟩ := ho
    exact s.frameCounted_rd_ne k i hpanics hframes hpmu
  · rw [hh.touches.same .mem (by decide), State.frameCounted_hbm]

/-! ## Drops (R177, R178, R180) -/

section drops
variable (s : State) {i : Nat}

theorem handled_bump {off : Nat} (h : off ∈ frameCells i) (hf : off ≠ Reg.NET_RX_FRAMES i) : Handled i s (s.bump off) := .wr h hf _

theorem handled_fixedDrop : Handled i s (s.bump (Reg.NET_FIXED_DROPS i)) :=
  handled_bump s (by simp [frameCells]) (by unfold Reg.NET_FIXED_DROPS Reg.NET_RX_FRAMES; omega)

theorem handled_status (m : Word) : Handled i s (s.sticky (Reg.NET_PORT_STATUS i) m) :=
  .wr (by simp [frameCells]) (by unfold Reg.NET_PORT_STATUS Reg.NET_RX_FRAMES; omega) _

theorem handled_malformed : Handled i s (s.malformed i) :=
  (handled_bump s (by simp [frameCells]) (by unfold Reg.NET_MALFORMED Reg.NET_RX_FRAMES; omega)).trans (handled_status _ _)

theorem handled_unmatched : Handled i s (s.unmatched i) :=
  (handled_bump s (by simp [frameCells]) (by unfold Reg.NET_UNMATCHED Reg.NET_RX_FRAMES; omega)).trans (handled_status _ _)

variable (i)

theorem State.malformed_rd : (s.malformed i).rd (Reg.NET_MALFORMED i) = s.rd (Reg.NET_MALFORMED i) + 1
    ∧ (s.malformed i).rd (Reg.NET_PORT_STATUS i) = (s.rd (Reg.NET_PORT_STATUS i) ||| 0x400) := by
  have hne : Reg.NET_MALFORMED i ≠ Reg.NET_PORT_STATUS i := by unfold Reg.NET_MALFORMED Reg.NET_PORT_STATUS; omega
  exact ⟨by rw [State.malformed, State.sticky_rd_ne _ (Ne.symm hne), State.bump_rd_self],
    by rw [State.malformed, State.sticky_rd_self, State.bump_rd_ne _ hne]⟩

theorem State.unmatched_rd : (s.unmatched i).rd (Reg.NET_UNMATCHED i) = s.rd (Reg.NET_UNMATCHED i) + 1
    ∧ (s.unmatched i).rd (Reg.NET_PORT_STATUS i) = (s.rd (Reg.NET_PORT_STATUS i) ||| 0x200) := by
  have hne : Reg.NET_UNMATCHED i ≠ Reg.NET_PORT_STATUS i := by unfold Reg.NET_UNMATCHED Reg.NET_PORT_STATUS; omega
  exact ⟨by rw [State.unmatched, State.sticky_rd_ne _ (Ne.symm hne), State.bump_rd_self],
    by rw [State.unmatched, State.sticky_rd_self, State.bump_rd_ne _ hne]⟩

end drops

/-- The counts that a drop of a parsed frame moves stand as they did before the frame was counted. -/
theorem State.frameCounted_rd (s : State) {i off : Nat} (k : Nat) (hi : i < 16)
    (h : off ∈ [Reg.NET_PORT_STATUS i, Reg.NET_FIXED_DROPS i, Reg.NET_MALFORMED i, Reg.NET_UNMATCHED i]) :
    (s.frameCounted i k).rd off = s.rd off := by
  have hoff : off ≠ Reg.NET_RX_FRAMES i ∧ off < 0x00302000 := by
    simp only [List.mem_cons, List.not_mem_nil, or_false] at h
    unfold Reg.NET_RX_FRAMES
    rcases h with rfl | rfl | rfl | rfl
    · unfold Reg.NET_PORT_STATUS; omega
    · unfold Reg.NET_FIXED_DROPS; omega
    · unfold Reg.NET_MALFORMED; omega
    · unfold Reg.NET_UNMATCHED; omega
  obtain ⟨hne, hlt⟩ := hoff
  exact s.frameCounted_rd_ne k i (by unfold Reg.MEM_PANICS; omega) hne (by omega)

theorem State.ingressOf_congr {s t : State} (h : t.net = s.net) (i : Nat) (f : RxFrame) : t.ingressOf i f = s.ingressOf i f := by
  rw [State.ingressOf, State.ingressOf, State.ifRate, State.ifRate, h]

theorem State.iface_congr {s t : State} (h : t.net = s.net) (i : Nat) : t.iface i = s.iface i := by simp only [State.iface, h]

@[simp] theorem State.iface_updIface_self (s : State) (i : Nat) (f : Iface → Iface) : (s.updIface i f).iface i = f (s.iface i) :=
  tgetD_tset_self ..

theorem State.iface_updIface_ne (s : State) {i j : Nat} (h : j ≠ i) (f : Iface → Iface) : (s.updIface i f).iface j = s.iface j :=
  tgetD_tset_ne (Ne.symm h) ..

/-! ## The fixed bucket (R178) -/

section fixed
variable (s : State) (i at_ : Nat) (c : CtlPacket)

/-- The level of the fixed bucket of an interface at an instant, in 2^-20 packets. -/
def State.fixedLevel : Nat := min (64 * 2 ^ 20) ((s.iface i).fixed +
  (10000 * 2 ^ 20 * at_ / Config.ticksPerSec - 10000 * 2 ^ 20 * (s.iface i).fixedAt / Config.ticksPerSec))

theorem State.fixedTake_passes (h : 2 ^ 20 ≤ s.fixedLevel i at_) : s.fixedTake i at_ c =
    (s.updIface i fun f => { f with fixed := s.fixedLevel i at_ - 2 ^ 20, fixedAt := at_ }).toFirmware i c := if_pos h

theorem State.fixedTake_drops (h : s.fixedLevel i at_ < 2 ^ 20) : s.fixedTake i at_ c =
    (s.updIface i fun f => { f with fixed := s.fixedLevel i at_, fixedAt := at_ }).bump (Reg.NET_FIXED_DROPS i) :=
  if_neg (Nat.not_le.2 h)

theorem handled_fixedTake : Handled i s (s.fixedTake i at_ c) := by
  rcases Nat.lt_or_ge (s.fixedLevel i at_) (2 ^ 20) with h | h
  · rw [State.fixedTake_drops s i at_ c h]
    exact (Handled.of_net (State.updIface_touches ..) rfl).trans (handled_fixedDrop _)
  · rw [State.fixedTake_passes s i at_ c h]
    exact (Handled.of_net (State.updIface_touches ..) rfl).trans (.of_net (State.toFirmware_touches ..) rfl)

theorem State.fixedTake_flows : (s.fixedTake i at_ c).net.flows = s.net.flows := by
  rcases Nat.lt_or_ge (s.fixedLevel i at_) (2 ^ 20) with h | h
  · rw [State.fixedTake_drops s i at_ c h]
    rfl
  · rw [State.fixedTake_passes s i at_ c h]
    rfl

variable {s i at_}

theorem State.fixedTake_full (h : 2 ^ 20 ≤ s.fixedLevel i at_) :
    ((s.fixedTake i at_ c).iface i).fixed = s.fixedLevel i at_ - 2 ^ 20
      ∧ (s.fixedTake i at_ c).rd (Reg.NET_FIXED_DROPS i) = s.rd (Reg.NET_FIXED_DROPS i)
      ∧ (s.fixedTake i at_ c).net.toFw = s.net.toFw ++ [(i, c)] := by
  rw [State.fixedTake_passes s i at_ c h]
  generalize s.fixedLevel i at_ - 2 ^ 20 = left
  exact ⟨congrArg Iface.fixed (State.iface_updIface_self s i fun f => { f with fixed := left, fixedAt := at_ }), rfl, rfl⟩

theorem State.fixedTake_empty (h : s.fixedLevel i at_ < 2 ^ 20) :
    ((s.fixedTake i at_ c).iface i).fixed = s.fixedLevel i at_
      ∧ (s.fixedTake i at_ c).rd (Reg.NET_FIXED_DROPS i) = s.rd (Reg.NET_FIXED_DROPS i) + 1
      ∧ (s.fixedTake i at_ c).net.toFw = s.net.toFw := by
  rw [State.fixedTake_drops s i at_ c h]
  generalize s.fixedLevel i at_ = left
  exact ⟨congrArg Iface.fixed (State.iface_updIface_self s i fun f => { f with fixed := left, fixedAt := at_ }), State.bump_rd_self ..,
    rfl⟩

end fixed

/-! ## The flow table (R180, R183, R184) -/

/-- The entry that a datagram's key finds: with its source, or the wildcard's (R180). -/
def State.entryOf (s : State) (u : Datagram) : Option Nat := (findKey s.net.flows ⟨u.dst, u.src, u.port, u.vid⟩).orElse
  fun _ => findKey s.net.flows ⟨u.dst, 0, u.port, u.vid⟩

section flows
variable {s : State} {i : Nat} {f : RxFrame} {u : Datagram}

theorem State.udpIn_missed (h : s.entryOf u = none) : s.udpIn i f u = s.unmatched i := by
  unfold State.entryOf at h
  unfold State.udpIn
  cases hk : findKey s.net.flows ⟨u.dst, u.src, u.port, u.vid⟩ <;> simp_all

variable {x : Nat} {e : Flow} (h : s.entryOf u = some x) (he : tget s.net.flows x = some e)
include h he

theorem State.udpIn_found : s.udpIn i f u = if e.arg.ifMask.toNat.testBit i = false then s.unmatched i
    else if (e.police f.bytes.length (s.ingressOf i f)).2 = true then
      (s.updFlow x fun _ => (e.police f.bytes.length (s.ingressOf i f)).1).byKind i x f u e
    else (s.updFlow x fun _ => (e.police f.bytes.length (s.ingressOf i f)).1).pmuEvent 7 2 := by
  unfold State.entryOf at h
  unfold State.udpIn
  cases hk : findKey s.net.flows ⟨u.dst, u.src, u.port, u.vid⟩ <;> simp_all

end flows

section policed
variable (s : State) (i x : Nat) (f : RxFrame) (u : Datagram) (e : Flow)

/-- A packet of an entry has the payload type that the entry asks for (R183). -/
def Flow.suits (e : Flow) (u : Datagram) : Prop := e.arg.pt = 255 ∨ payloadType u.payload = e.arg.pt

variable {u e}

/-- A datagram passed to the PTP ports. -/
def State.toPtpPort (s : State) (i : Nat) (f : RxFrame) (u : Datagram) : State :=
  { s with net := { s.net with toPtp := s.net.toPtp ++ [(i, s.ingressOf i f, u.payload)] } }

theorem State.byKind_ptp (hk : e.arg.kind = 3) (hr : e.suits u) : s.byKind i x f u e = s.toPtpPort i f u := by
  rcases hr with hr | hr <;> simp [State.byKind, State.toPtpPort, hk, hr]

theorem State.byKind_management (hk : e.arg.kind = 5) (hr : e.suits u) : s.byKind i x f u e = s.toFirmware i .other := by
  rcases hr with hr | hr <;> simp [State.byKind, hk, hr]

theorem State.byKind_unsuited (hk : e.arg.kind = 3 ∨ e.arg.kind = 5) (hr : ¬ e.suits u) : s.byKind i x f u e = s.flowDrop x := by
  simp only [Flow.suits, not_or] at hr
  rcases hk with hk | hk <;> simp [State.byKind, hk, hr]

theorem State.byKind_passes (hk : e.arg.kind = 3 ∨ e.arg.kind = 5) (hr : e.suits u) : Handled i s (s.byKind i x f u e)
    ∧ (s.byKind i x f u e).net.flows = s.net.flows
    ∧ (s.byKind i x f u e).net.toPtp = s.net.toPtp ++ (if e.arg.kind = 3 then [(i, s.ingressOf i f, u.payload)] else [])
    ∧ (s.byKind i x f u e).net.toFw = s.net.toFw ++ (if e.arg.kind = 5 then [(i, .other)] else []) := by
  rcases hk with hk | hk
  · rw [State.byKind_ptp s i x f hk hr, if_pos hk, if_neg (by omega), List.append_nil]
    exact ⟨.of_net ((Touches.set_net (by decide) _).mpr (.refl ..)) rfl, rfl, rfl, rfl⟩
  · rw [State.byKind_management s i x f hk hr, if_pos hk, if_neg (by omega), List.append_nil]
    exact ⟨.of_net (State.toFirmware_touches ..) rfl, rfl, rfl, rfl⟩

end policed

theorem handled_updFlow {i : Nat} (s : State) (x : Nat) (g : Flow → Flow) : Handled i s (s.updFlow x g) :=
  .of_net (State.updFlow_touches ..) rfl

theorem State.updFlow_get {s : State} {x : Nat} {e : Flow} (he : tget s.net.flows x = some e) (g : Flow → Flow) :
    tget (s.updFlow x g).net.flows x = some (g e) := by
  rw [State.updFlow, tget_tupd_self, he]
  rfl

theorem State.updFlow_get_ne (s : State) {x y : Nat} (h : y ≠ x) (g : Flow → Flow) :
    tget (s.updFlow x g).net.flows y = tget s.net.flows y := tget_tupd_ne (Ne.symm h) ..

section updFlow
variable (s : State) (x : Nat) (g : Flow → Flow)

theorem State.updFlow_toPtp : (s.updFlow x g).net.toPtp = s.net.toPtp := rfl

theorem State.updFlow_toFw : (s.updFlow x g).net.toFw = s.net.toFw := rfl

theorem State.ingressOf_updFlow (i : Nat) (f : RxFrame) : (s.updFlow x g).ingressOf i f = s.ingressOf i f := rfl

end updFlow

/-! ## Policing (R184) -/

section police
variable (e : Flow) (cost at_ : Nat)

theorem Flow.level_le : e.level at_ ≤ burstEff e.arg * 1024 := Nat.min_le_left ..

variable {e cost at_}

theorem Flow.police_unlimited (h : e.arg.rate = 0) : e.police cost at_ = ({ e with pkts := e.pkts + 1 }, true) := if_pos h

theorem Flow.police_accepts (h : e.arg.rate ≠ 0) (hl : cost * 1024 ≤ e.level at_) : e.police cost at_ =
    ({ e with bucket := e.level at_ - cost * 1024, at_ := at_, pkts := e.pkts + 1 }, true) := (if_neg h).trans (if_pos hl)

theorem Flow.police_drops (h : e.arg.rate ≠ 0) (hl : e.level at_ < cost * 1024) : e.police cost at_ =
    ({ e with bucket := e.level at_, at_ := at_, drops := e.drops + 1 }, false) := (if_neg h).trans (if_neg (Nat.not_le.2 hl))

theorem Flow.police_refused (h : (e.police cost at_).2 = false) :
    (e.police cost at_).1 = { e with bucket := e.level at_, at_ := at_, drops := e.drops + 1 } := by
  by_cases hr : e.arg.rate = 0
  · simp [Flow.police_unlimited hr] at h
  · rcases Nat.lt_or_ge (e.level at_) (cost * 1024) with hl | hl
    · rw [Flow.police_drops hr hl]
    · simp [Flow.police_accepts hr hl] at h

end police

/-! ## The statement -/

section clauses
variable {s : State} {i k : Nat} {f : RxFrame}

theorem gives_untakenFrame (ht : s.takesFrames i = false) : Gives (.ethernetFrameRx i f k) s s :=
  (exec_ethernetFrameRx k).trans (by rw [if_pos ht])

theorem does_badFrame (ht : s.takesFrames i = true) (hg : goodFrame f = false) :
    Does (.ethernetFrameRx i f k) s [.regs, .mem] (regIn (frameCells i)) fun t =>
      t.rd (Reg.NET_RX_FCS_ERRORS i) = s.rd (Reg.NET_RX_FCS_ERRORS i) + 1 ∧ t.rd (Reg.NET_RX_FRAMES i) = s.rd (Reg.NET_RX_FRAMES i)
        ∧ t.rd (Reg.NET_PORT_STATUS i) = (s.rd (Reg.NET_PORT_STATUS i) ||| 0x800) ∧ t.mem.hbm = s.mem.hbm := by
  have hi := State.takesFrames_lt ht
  have hx : exec (.ethernetFrameRx i f k) s =
      .next (((s.panicLevel 0 k).bump (Reg.NET_RX_FCS_ERRORS i)).sticky (Reg.NET_PORT_STATUS i) 0x800) := by
    simp [exec_ethernetFrameRx, ht, hg]
  have herr : Reg.NET_RX_FCS_ERRORS i ≠ Reg.NET_PORT_STATUS i := by unfold Reg.NET_RX_FCS_ERRORS Reg.NET_PORT_STATUS; omega
  refine ⟨_, hx, ((s.panicLevel_touches 0 k).then (State.bump_touches ..) (by decide)).then (State.sticky_touches ..) (by decide),
    fun off ho => ?_, ?_, ?_, ?_, s.panicLevel_hbm k⟩
  · simp only [regIn, frameCells, List.mem_cons, not_or] at ho
    obtain ⟨hpanics, herrors, -, hstatus, -⟩ := ho
    rw [State.sticky_rd_ne _ (Ne.symm hstatus), State.bump_rd_ne _ (Ne.symm herrors), State.panicLevel_rd_ne _ _ hpanics]
  · rw [State.sticky_rd_ne _ (Ne.symm herr), State.bump_rd_self,
      State.panicLevel_rd_ne _ _ (by unfold Reg.NET_RX_FCS_ERRORS Reg.MEM_PANICS; omega)]
  · rw [State.sticky_rd_ne _ (by unfold Reg.NET_PORT_STATUS Reg.NET_RX_FRAMES; omega),
      State.bump_rd_ne _ (by unfold Reg.NET_RX_FCS_ERRORS Reg.NET_RX_FRAMES; omega),
      State.panicLevel_rd_ne _ _ (by unfold Reg.NET_RX_FRAMES Reg.MEM_PANICS; omega)]
  · rw [State.sticky_rd_self, State.bump_rd_ne _ herr,
      State.panicLevel_rd_ne _ _ (by unfold Reg.NET_PORT_STATUS Reg.MEM_PANICS; omega)]

theorem does_foreignFrame (ht : s.takesFrames i = true) (hg : goodFrame f = true) (hm : (s.iface i).mine f = false) :
    Does (.ethernetFrameRx i f k) s [.regs, .mem] (regIn [Reg.MEM_PANICS]) fun t => t.mem.hbm = s.mem.hbm :=
  ⟨_, by simp [exec_ethernetFrameRx, ht, hg, hm], s.panicLevel_touches 0 k,
    fun _ ho => s.panicLevel_rd_ne k fun h => ho (List.mem_singleton.2 h), s.panicLevel_hbm k⟩

variable (ht : s.takesFrames i = true) (hg : goodFrame f = true) (hm : (s.iface i).mine f = true)
include ht hg hm

/-- A parsed frame by what handling it makes of the counted state. -/
theorem counted_of_parsed {a : Parsed} {u : State} {P : State → Prop} (hp : parseFrame (s.iface i) f.bytes = a)
    (hu : (s.frameCounted i k).handle i f a = u) (hh : Handled i (s.frameCounted i k) u) (h : P u) : Counted i f k s P := by
  have hx := exec_ethernetFrameRx_parsed k ht hg hm
  rw [hp, hu] at hx
  exact counted_of_handled (State.takesFrames_lt ht) hx hh h

theorem counted_flowControl (hp : parseFrame (s.iface i) f.bytes = .flowControl) : Counted i f k s fun t =>
    t.rd (Reg.NET_FIXED_DROPS i) = s.rd (Reg.NET_FIXED_DROPS i) + 1 ∧ t.net = s.net := by
  refine counted_of_parsed (u := (s.frameCounted i k).bump (Reg.NET_FIXED_DROPS i)) ht hg hm hp rfl (handled_fixedDrop _) ⟨?_, ?_⟩
  · rw [State.bump_rd_self, s.frameCounted_rd k (State.takesFrames_lt ht) (by simp)]
  · rw [State.bump_net, State.frameCounted_net]

theorem counted_malformed (hp : parseFrame (s.iface i) f.bytes = .malformed) : Counted i f k s fun t =>
    t.rd (Reg.NET_MALFORMED i) = s.rd (Reg.NET_MALFORMED i) + 1 ∧ t.net = s.net
      ∧ t.rd (Reg.NET_PORT_STATUS i) = (s.rd (Reg.NET_PORT_STATUS i) ||| 0x400) := by
  have hi := State.takesFrames_lt ht
  obtain ⟨hcount, hstatus⟩ := (s.frameCounted i k).malformed_rd i
  rw [s.frameCounted_rd k hi (by simp)] at hcount hstatus
  exact counted_of_parsed ht hg hm hp rfl (handled_malformed _)
    ⟨hcount, ((State.malformed_touches ..).same .net (by decide)).trans (State.frameCounted_net ..), hstatus⟩

/-- The frame is unmatched, by whatever way (R178, R180). -/
theorem counted_unmatched {a : Parsed} (hp : parseFrame (s.iface i) f.bytes = a)
    (hu : (s.frameCounted i k).handle i f a = (s.frameCounted i k).unmatched i) : Counted i f k s fun t =>
      t.rd (Reg.NET_UNMATCHED i) = s.rd (Reg.NET_UNMATCHED i) + 1 ∧ t.net = s.net
        ∧ t.rd (Reg.NET_PORT_STATUS i) = (s.rd (Reg.NET_PORT_STATUS i) ||| 0x200) := by
  have hi := State.takesFrames_lt ht
  obtain ⟨hcount, hstatus⟩ := (s.frameCounted i k).unmatched_rd i
  rw [s.frameCounted_rd k hi (by simp)] at hcount hstatus
  exact counted_of_parsed ht hg hm hp hu (handled_unmatched _)
    ⟨hcount, ((State.unmatched_touches ..).same .net (by decide)).trans (State.frameCounted_net ..), hstatus⟩

theorem counted_fixed {c : CtlPacket} (hp : parseFrame (s.iface i) f.bytes = .fixed c) : Counted i f k s fun t =>
    t.net.flows = s.net.flows
      ∧ (2 ^ 20 ≤ s.fixedLevel i (s.ingressOf i f) → (t.iface i).fixed = s.fixedLevel i (s.ingressOf i f) - 2 ^ 20
          ∧ t.rd (Reg.NET_FIXED_DROPS i) = s.rd (Reg.NET_FIXED_DROPS i) ∧ t.net.toFw = s.net.toFw ++ [(i, c)])
      ∧ (s.fixedLevel i (s.ingressOf i f) < 2 ^ 20 → (t.iface i).fixed = s.fixedLevel i (s.ingressOf i f)
          ∧ t.rd (Reg.NET_FIXED_DROPS i) = s.rd (Reg.NET_FIXED_DROPS i) + 1 ∧ t.net.toFw = s.net.toFw) := by
  have hnet := s.frameCounted_net k i
  have hlevel : (s.frameCounted i k).fixedLevel i (s.ingressOf i f) = s.fixedLevel i (s.ingressOf i f) := by
    rw [State.fixedLevel, State.iface_congr hnet, State.fixedLevel]
  have hdrops := s.frameCounted_rd k (State.takesFrames_lt ht) (off := Reg.NET_FIXED_DROPS i) (by simp)
  have hu : (s.frameCounted i k).handle i f (.fixed c) = (s.frameCounted i k).fixedTake i (s.ingressOf i f) c := by
    rw [State.handle, State.ingressOf_congr hnet]
  rw [← hlevel, ← hdrops, ← hnet]
  exact counted_of_parsed ht hg hm hp hu (handled_fixedTake ..)
    ⟨State.fixedTake_flows .., State.fixedTake_full c, State.fixedTake_empty c⟩

section udp
variable {u : Datagram} (hp : parseFrame (s.iface i) f.bytes = .udp u)
include hp

theorem counted_udp_missed (h : s.entryOf u = none) : Counted i f k s fun t =>
    t.rd (Reg.NET_UNMATCHED i) = s.rd (Reg.NET_UNMATCHED i) + 1 ∧ t.net = s.net
      ∧ t.rd (Reg.NET_PORT_STATUS i) = (s.rd (Reg.NET_PORT_STATUS i) ||| 0x200) :=
  counted_unmatched ht hg hm hp (State.udpIn_missed (by rwa [State.entryOf, State.frameCounted_net]))

variable {x : Nat} {e : Flow} (h : s.entryOf u = some x) (he : tget s.net.flows x = some e)
include h he

omit ht hg hm hp in
theorem State.frameCounted_udpIn : (s.frameCounted i k).udpIn i f u = if e.arg.ifMask.toNat.testBit i = false
    then (s.frameCounted i k).unmatched i
    else if (e.police f.bytes.length (s.ingressOf i f)).2 = true then
      ((s.frameCounted i k).updFlow x fun _ => (e.police f.bytes.length (s.ingressOf i f)).1).byKind i x f u e
    else ((s.frameCounted i k).updFlow x fun _ => (e.police f.bytes.length (s.ingressOf i f)).1).pmuEvent 7 2 := by
  have hnet := s.frameCounted_net k i
  rw [State.udpIn_found (x := x) (e := e) (by rwa [State.entryOf, hnet]) (by rwa [hnet]), State.ingressOf_congr hnet]

theorem counted_udp_otherInterface (hi : e.arg.ifMask.toNat.testBit i = false) : Counted i f k s fun t =>
    t.rd (Reg.NET_UNMATCHED i) = s.rd (Reg.NET_UNMATCHED i) + 1 ∧ t.net = s.net
      ∧ t.rd (Reg.NET_PORT_STATUS i) = (s.rd (Reg.NET_PORT_STATUS i) ||| 0x200) :=
  counted_unmatched ht hg hm hp ((State.frameCounted_udpIn h he).trans (if_pos hi))

variable (hi : e.arg.ifMask.toNat.testBit i = true)
include hi

theorem counted_udp_refused (hr : (e.police f.bytes.length (s.ingressOf i f)).2 = false) : Counted i f k s fun t =>
    tget t.net.flows x = some { e with bucket := e.level (s.ingressOf i f), at_ := s.ingressOf i f, drops := e.drops + 1 }
      ∧ ∀ y, y ≠ x → tget t.net.flows y = tget s.net.flows y := by
  have hnet := s.frameCounted_net k i
  refine counted_of_parsed ht hg hm hp ((State.frameCounted_udpIn h he).trans (by rw [if_neg (by simp [hi]), if_neg (by simp [hr])]))
    ((handled_updFlow ..).trans (.pmuEvent (State.takesFrames_lt ht) ..)) ⟨?_, fun y hy => ?_⟩
  · rw [State.pmuEvent_net, State.updFlow_get (by rwa [hnet]), Flow.police_refused hr]
  · rw [State.pmuEvent_net, State.updFlow_get_ne _ hy, hnet]

/-- An accepted packet by what its entry makes of the policed state. -/
theorem counted_udp_accepted {w : State} {P : State → Prop} (hr : (e.police f.bytes.length (s.ingressOf i f)).2 = true)
    (hw : ((s.frameCounted i k).updFlow x fun _ => (e.police f.bytes.length (s.ingressOf i f)).1).byKind i x f u e = w)
    (hh : Handled i ((s.frameCounted i k).updFlow x fun _ => (e.police f.bytes.length (s.ingressOf i f)).1) w) (hP : P w) :
    Counted i f k s P :=
  counted_of_parsed ht hg hm hp
    ((State.frameCounted_udpIn h he).trans (by rw [if_neg (by simp [hi]), if_pos hr, hw])) ((handled_updFlow ..).trans hh) hP

theorem counted_udp_suited (hr : (e.police f.bytes.length (s.ingressOf i f)).2 = true) (hk : e.arg.kind = 3 ∨ e.arg.kind = 5)
    (hs : e.suits u) : Counted i f k s fun t => tget t.net.flows x = some (e.police f.bytes.length (s.ingressOf i f)).1
      ∧ t.net.toPtp = s.net.toPtp ++ (if e.arg.kind = 3 then [(i, s.ingressOf i f, u.payload)] else [])
      ∧ t.net.toFw = s.net.toFw ++ (if e.arg.kind = 5 then [(i, .other)] else []) := by
  have hnet := s.frameCounted_net k i
  obtain ⟨hh, hflows, hptp, hfw⟩ := ((s.frameCounted i k).updFlow x
    fun _ => (e.police f.bytes.length (s.ingressOf i f)).1).byKind_passes i x f hk hs
  refine counted_udp_accepted ht hg hm hp h he hi hr rfl hh ⟨?_, ?_, ?_⟩
  · rw [hflows]
    exact State.updFlow_get (by rwa [hnet]) _
  · rw [hptp, State.ingressOf_updFlow, State.ingressOf_congr hnet, State.updFlow_toPtp, hnet]
  · rw [hfw, State.updFlow_toFw, hnet]

theorem counted_udp_unsuited (hr : (e.police f.bytes.length (s.ingressOf i f)).2 = true) (hk : e.arg.kind = 3 ∨ e.arg.kind = 5)
    (hs : ¬ e.suits u) : Counted i f k s fun t =>
      tget t.net.flows x = some { (e.police f.bytes.length (s.ingressOf i f)).1 with
        drops := (e.police f.bytes.length (s.ingressOf i f)).1.drops + 1 }
      ∧ t.net.toPtp = s.net.toPtp ∧ t.net.toFw = s.net.toFw := by
  have hnet := s.frameCounted_net k i
  refine counted_udp_accepted ht hg hm hp h he hi hr (State.byKind_unsuited _ i x f hk hs) (handled_updFlow ..) ⟨?_, ?_, ?_⟩
  · exact State.updFlow_get (State.updFlow_get (by rwa [hnet]) _) _
  · rw [State.flowDrop, State.updFlow_toPtp, State.updFlow_toPtp, hnet]
  · rw [State.flowDrop, State.updFlow_toFw, State.updFlow_toFw, hnet]

end udp

end clauses

/-- Settles O33: a frame that is not taken, a bad one and a foreign one, then each way of parsing a counted one, and the policer. -/
theorem framesIn : Obligations.FramesIn := by
  unfold Obligations.FramesIn
  refine ⟨fun s i k f => ⟨gives_untakenFrame, does_badFrame, does_foreignFrame, fun ht hg hm => ⟨counted_flowControl ht hg hm,
      counted_malformed ht hg hm, fun hp => counted_unmatched ht hg hm hp rfl, fun c hp => counted_fixed ht hg hm hp,
      fun u hp => ⟨fun h => ?missed, fun x h e he => ⟨fun hi => ?otherInterface, counted_udp_refused ht hg hm hp h he,
        fun hi hr hk => ?toFirmware⟩⟩⟩⟩,
    fun e cost at_ => ⟨Flow.police_unlimited, Flow.police_accepts, fun h hl => ?drops, e.level_le at_⟩⟩
  case missed => exact (counted_udp_missed ht hg hm hp h).imp fun t ⟨hcount, hnet, _⟩ => ⟨hcount, hnet⟩
  case otherInterface => exact (counted_udp_otherInterface ht hg hm hp h he hi).imp fun t ⟨hcount, hnet, _⟩ => ⟨hcount, hnet⟩
  case toFirmware =>
    by_cases hs : e.suits u
    · exact (counted_udp_suited ht hg hm hp h he hi hr hk hs).imp fun t ht => (if_pos hs).mpr ht
    · exact (counted_udp_unsuited ht hg hm hp h he hi hr hk hs).imp fun t ht => (if_neg hs).mpr ht
  case drops => rw [Flow.police_drops h hl]; exact ⟨rfl, rfl⟩

end Sys2Proof.Machine
end

section
/-!
PROOFS. Merging (R186): the count of stale copies, beyond the merges that the device has.
-/
namespace Sys2Proof.Machine
open Sys2Proof

/-- The number of the merge, far beyond the 208 that exist (R193), whose count of stale copies would stand at the offset of the third
overflow register of the performance counters. -/
def strayMerge : Nat := 0x8FE10

/-- Number 5 has left the window of that merge. Performance counter 64 counts duplicates and stale copies and stands at its last value. -/
def strayCounter : State :=
  { State.reset with
    regs := [(Reg.PMU_CNT_CFG 64, 0x1703)], pmu := { cnt := [(64, 2 ^ 48 - 1)] }, net := { merges := [(strayMerge, { floor := some 5 })] } }

/-- Beyond the 208 merges the rows of NET run into those of PMU: this cell is the overflow register of counters 64 to 95 too, and the stale
copy, which wraps counter 64, both sets the counter's bit and counts in it. -/
theorem strayCounter_counts_overflow :
    (strayCounter.mergeCopy strayMerge 0 2 5 0 default).1.rd (Reg.NET_MERGE_STALE strayMerge) = 2 := by
  decide

/-- Refutes O34: a copy that reaches a merge is stated for every merge number, not for the 208 that exist (R193), which `mergeIndex` gives.
On `strayCounter` the cell that should count one stale copy goes from 0 to 2. -/
theorem not_merging : ¬ Obligations.Merging := by
  unfold Obligations.Merging
  rintro ⟨hcopy, -⟩
  obtain ⟨-, hstale, -⟩ := hcopy strayCounter strayMerge 0 2 5 0 default (by decide)
  obtain ⟨-, -, hcount, -⟩ := hstale (by decide) (by decide)
  exact absurd (hcount.symm.trans strayCounter_counts_overflow) (by decide)

end Sys2Proof.Machine
end

section
/-!
PROOFS. What firmware answers (R176, R178, R191, R192): the frames that it gives to queue 3, and what becomes of them while an interface is
dark.
-/
namespace Sys2Proof.Machine
open Sys2Proof

theorem sumNat_cons (a : Nat) (l : List Nat) : sumNat (a :: l) = a + sumNat l := by
  simp only [sumNat, ← List.sum_eq_foldl_nat, List.sum_cons]

/-! ## An interface's egress read after a write -/

section egress
variable (s : State) (i : Nat) (f : TxIface → TxIface)

@[simp] theorem State.txIf_updTx_self : (s.updTx i f).txIf i = f (s.txIf i) := tgetD_tset_self ..

variable {i}

theorem State.txIf_updTx_ne {k : Nat} (h : k ≠ i) : (s.updTx i f).txIf k = s.txIf k := tgetD_tset_ne (Ne.symm h) ..

end egress

/-! ## Frames for queue 3 (R199, R205) -/

/-- Firmware gives frames to queue 3 of an interface, one after another. -/
def State.sendReplies (s : State) (i : Nat) (l : List CtlReply) : State := l.foldl (fun (t : State) x => t.sendCtl i 3 x) s

/-- The interface takes the frames: it is up and has a MAC address, no frame is over max_frame, and queue 3 has room for all. -/
def State.takesReplies (s : State) (i : Nat) (l : List CtlReply) : Prop := s.dev.fatal = false ∧ (s.iface i).linkUp = true
  ∧ (s.iface i).mac.isSome = true ∧ (∀ x ∈ l, x.frame ≤ (s.txIf i).maxF 3)
  ∧ tgetD (s.txIf i).held 3 0 + sumNat (l.map CtlReply.frame) ≤ 262144

/-- The interface is down or has no MAC address (R176). -/
def State.darkFor (s : State) (i : Nat) : Prop := s.dev.fatal = false ∧ ((s.iface i).linkUp = false ∨ (s.iface i).mac = none)

/-- From `s` to `t` the frames joined the others of interface `i` that wait for queues 0 and 3. -/
def CtlQueued (s t : State) (i : Nat) (l : List CtlReply) : Prop :=
  (t.txIf i).ctl = (s.txIf i).ctl ++ l.map (fun x => ⟨3, x.frame, x⟩) ∧ (t.txIf i).queued = (s.txIf i).queued
    ∧ ∀ k, k ≠ i → t.txIf k = s.txIf k

/-- The egress of an interface with one frame more for queue 3. -/
def TxIface.withReply (t : TxIface) (x : CtlReply) : TxIface :=
  { t with ctl := t.ctl ++ [⟨3, x.frame, x⟩], held := tset t.held 3 (tgetD t.held 3 0 + x.frame) }

section replies
variable {s : State} {i : Nat} {x : CtlReply} {l : List CtlReply}

theorem State.sendCtl_taken (h : s.takesReplies i (x :: l)) : s.sendCtl i 3 x = s.updTx i (·.withReply x) := by
  obtain ⟨hfatal, hup, hmac, hframe, hroom⟩ := h
  have hx := hframe x (List.mem_cons_self ..)
  rw [List.map_cons, sumNat_cons] at hroom
  have hmac : (s.iface i).mac.isNone = false := by rw [Option.isNone_eq_false_iff]; exact hmac
  have hfits : ¬ ((s.txIf i).maxF 3 < x.frame ∨ 262144 < tgetD (s.txIf i).held 3 0 + x.frame) := by omega
  simp [State.sendCtl, hfatal, hup, hmac, hfits]
  rfl

theorem State.takesReplies_next (h : s.takesReplies i (x :: l)) : (s.sendCtl i 3 x).takesReplies i l := by
  rw [State.sendCtl_taken h]
  obtain ⟨hfatal, hup, hmac, hframe, hroom⟩ := h
  rw [List.map_cons, sumNat_cons] at hroom
  refine ⟨hfatal, hup, hmac, fun y hy => ?_, ?_⟩
  · rw [State.txIf_updTx_self]
    exact hframe y (List.mem_cons_of_mem _ hy)
  · rw [State.txIf_updTx_self, TxIface.withReply, tgetD_tset_self]
    omega

theorem State.sendReplies_taken (h : s.takesReplies i l) : Touches [.tx] s (s.sendReplies i l) ∧ CtlQueued s (s.sendReplies i l) i l := by
  induction l generalizing s with
  | nil => exact ⟨.refl .., (List.append_nil _).symm, rfl, fun _ _ => rfl⟩
  | cons x l ih =>
    obtain ⟨ht, hctl, hqueued, hothers⟩ := ih (State.takesReplies_next h)
    have hstep := State.sendCtl_taken h
    refine ⟨.trans (by rw [hstep]; exact State.updTx_touches ..) ht, ?_, ?_, fun k hk => ?_⟩
    · rw [State.sendReplies, List.foldl_cons, ← State.sendReplies, hctl, hstep, State.txIf_updTx_self]
      simp [TxIface.withReply]
    · rw [State.sendReplies, List.foldl_cons, ← State.sendReplies, hqueued, hstep, State.txIf_updTx_self]
      rfl
    · exact (hothers k hk).trans (by rw [hstep, State.txIf_updTx_ne _ _ hk])

theorem State.sendCtl_dark (h : s.darkFor i) (x : CtlReply) :
    s.sendCtl i 3 x = (s.bump (Reg.NET_TX_LINK_DROPS i)).sticky (Reg.NET_TX_STATUS i) 0x20000 := by
  obtain ⟨hfatal, hdark | hdark⟩ := h <;> simp [State.sendCtl, hfatal, hdark]

theorem State.sendReplies_dark (h : s.darkFor i) (l : List CtlReply) : Touches [.regs] s (s.sendReplies i l)
    ∧ (∀ off, ¬ regIn [Reg.NET_TX_LINK_DROPS i, Reg.NET_TX_STATUS i] off → (s.sendReplies i l).rd off = s.rd off)
    ∧ (s.sendReplies i l).rd (Reg.NET_TX_LINK_DROPS i) = s.rd (Reg.NET_TX_LINK_DROPS i) + BitVec.ofNat 32 l.length := by
  induction l generalizing s with
  | nil => exact ⟨.refl .., fun _ _ => rfl, (BitVec.add_zero _).symm⟩
  | cons x l ih =>
    have hstep := State.sendCtl_dark h x
    obtain ⟨ht, hothers, hcount⟩ := ih (s := s.sendCtl i 3 x) (by rw [hstep]; exact h)
    rw [hstep] at ht hothers hcount
    have hne : Reg.NET_TX_STATUS i ≠ Reg.NET_TX_LINK_DROPS i := by unfold Reg.NET_TX_STATUS Reg.NET_TX_LINK_DROPS; omega
    rw [State.sendReplies, List.foldl_cons, ← State.sendReplies, hstep]
    refine ⟨((State.bump_touches ..).trans (State.sticky_touches ..)).trans ht, fun off ho => (hothers off ho).trans ?_, hcount.trans ?_⟩
    · simp only [regIn, List.mem_cons, List.not_mem_nil, or_false, not_or] at ho
      rw [State.sticky_rd_ne _ (Ne.symm ho.2), State.bump_rd_ne _ (Ne.symm ho.1)]
    · rw [State.sticky_rd_ne _ hne, State.bump_rd_self, List.length_cons, Nat.add_comm, BitVec.ofNat_add, BitVec.add_assoc]
      rfl

end replies

/-! ## Control packets and reports (R178, R191, R192, R254) -/

/-- A report of each of the groups that interface `i` holds (R191). -/
def State.reportsOf (s : State) (i : Nat) (gs : List Addr) : List CtlReply := (gs.filterMap (groupRec s.net.members i)).map .membership

/-- What firmware answers to a packet. -/
def State.answersTo (s : State) (i : Nat) : CtlPacket → List CtlReply
  | .resolve a => if s.answersFor i a then [.resolved a] else []
  | .query g => s.reportsOf i (if g = 0 then s.groupsAt i else [g])
  | .echo n => [.echo n]
  | .other => []

/-- The state in which firmware has taken a packet. -/
def State.fwTaken (s : State) (e : Nat × CtlPacket) : State := { s with net := { s.net with toFw := s.net.toFw.erase e } }

theorem State.reportGroups_eq (s : State) (i : Nat) (gs : List Addr) : s.reportGroups i gs = s.sendReplies i (s.reportsOf i gs) := by
  rw [State.reportGroups, State.sendReplies, State.reportsOf, List.foldl_map]

theorem State.answerCtl_eq (s : State) (i : Nat) (c : CtlPacket) : s.answerCtl i c = s.sendReplies i (s.answersTo i c) := by
  cases c with
  | resolve a => simp only [State.answerCtl, State.answersTo]; split <;> rfl
  | query g => exact s.reportGroups_eq i _
  | echo n => rfl
  | other => rfl

section control
variable {s : State} {i k : Nat}

theorem gives_controlPacket_none (h : (s.net.toFw.filter fun e => e.1 == i).length ≤ k) : Gives (.firmwareControlPacket i k) s s := by
  have hnone : (s.net.toFw.filter fun e => e.1 == i)[k]? = none := List.getElem?_eq_none h
  show Host.Outcome.next _ = _
  rw [hnone]

variable {e : Nat × CtlPacket} (he : (s.net.toFw.filter fun e => e.1 == i)[k]? = some e)
include he

theorem exec_controlPacket : exec (.firmwareControlPacket i k) s =
    .next (if s.ctl.restarting = true then s.fwTaken e else (s.fwTaken e).sendReplies i (s.answersTo i e.2)) := by
  have hanswer : (s.fwTaken e).answerCtl i e.2 = (s.fwTaken e).sendReplies i (s.answersTo i e.2) := by
    rw [State.answerCtl_eq]
    rfl
  rw [← hanswer]
  show Host.Outcome.next _ = _
  rw [he]
  rfl

theorem gives_controlPacket_restarting (hr : s.ctl.restarting = true) : Gives (.firmwareControlPacket i k) s (s.fwTaken e) :=
  (exec_controlPacket he).trans (by rw [if_pos hr])

variable (hr : s.ctl.restarting = false)
include hr

theorem exec_controlPacket_running : exec (.firmwareControlPacket i k) s =
    .next ((s.fwTaken e).sendReplies i (s.answersTo i e.2)) := (exec_controlPacket he).trans (by rw [if_neg (by simp [hr])])

omit he hr in
theorem State.fwTaken_touches (s : State) (e : Nat × CtlPacket) : Touches [.net] s (s.fwTaken e) :=
  (Touches.set_net (by decide) _).mpr (.refl ..)

theorem gives_controlPacket_silent (ha : s.answersTo i e.2 = []) : Gives (.firmwareControlPacket i k) s (s.fwTaken e) :=
  (exec_controlPacket_running he hr).trans (by rw [ha]; rfl)

theorem does_controlPacket_answered (hs : s.takesReplies i (s.answersTo i e.2)) :
    Does (.firmwareControlPacket i k) s [.net, .tx] noReg fun t =>
      t.net = (s.fwTaken e).net ∧ CtlQueued s t i (s.answersTo i e.2) := by
  obtain ⟨ht, hq⟩ := State.sendReplies_taken (s := s.fwTaken e) hs
  exact does_of_touches (exec_controlPacket_running he hr) (((s.fwTaken_touches e).mono (by decide)).then ht (by decide)) (by decide)
    ⟨ht.same .net (by decide), hq⟩

theorem does_controlPacket_dark (hd : s.darkFor i) : Does (.firmwareControlPacket i k) s [.net, .regs]
    (regIn [Reg.NET_TX_LINK_DROPS i, Reg.NET_TX_STATUS i]) fun t => t.net = (s.fwTaken e).net
      ∧ t.rd (Reg.NET_TX_LINK_DROPS i) = s.rd (Reg.NET_TX_LINK_DROPS i) + BitVec.ofNat 32 (s.answersTo i e.2).length := by
  obtain ⟨ht, hothers, hcount⟩ := State.sendReplies_dark (s := s.fwTaken e) hd (s.answersTo i e.2)
  exact ⟨_, exec_controlPacket_running he hr, ((s.fwTaken_touches e).mono (by decide)).then ht (by decide), hothers,
    ht.same .net (by decide), hcount⟩

end control

section reports
variable {s : State} {i : Nat}

theorem gives_reportTimer_restarting (hr : s.ctl.restarting = true) : Gives (.membershipReportTimer i) s s := by
  show Host.Outcome.next _ = _
  rw [if_pos hr]

variable (hr : s.ctl.restarting = false)
include hr

theorem exec_reportTimer : exec (.membershipReportTimer i) s = .next (s.sendReplies i (s.reportsOf i (s.groupsAt i))) := by
  rw [← State.reportGroups_eq]
  show Host.Outcome.next _ = _
  rw [if_neg (by simp [hr])]

theorem does_reportTimer_taken (hs : s.takesReplies i (s.reportsOf i (s.groupsAt i))) :
    Does (.membershipReportTimer i) s [.tx] noReg fun t => CtlQueued s t i (s.reportsOf i (s.groupsAt i)) := by
  obtain ⟨ht, hq⟩ := State.sendReplies_taken hs
  exact does_of_touches (exec_reportTimer hr) ht (by decide) hq

theorem does_reportTimer_dark (hd : s.darkFor i) : Does (.membershipReportTimer i) s [.regs]
    (regIn [Reg.NET_TX_LINK_DROPS i, Reg.NET_TX_STATUS i]) fun t =>
      t.rd (Reg.NET_TX_LINK_DROPS i) = s.rd (Reg.NET_TX_LINK_DROPS i) + BitVec.ofNat 32 (s.reportsOf i (s.groupsAt i)).length := by
  obtain ⟨ht, hothers, hcount⟩ := State.sendReplies_dark hd (s.reportsOf i (s.groupsAt i))
  exact ⟨_, exec_reportTimer hr, ht, hothers, hcount⟩

end reports

end Sys2Proof.Machine
end

section
/-!
PROOFS. Gate lists (R203, R204): a pending list is taken, starts and operates, and its entries change.
-/
namespace Sys2Proof.Machine
open Sys2Proof

/-! ## Credits brought up to now (R201) -/

/-- From `s` to `t` only the credits of interface `i` moved. -/
def OnlyCredits (i : Nat) (s t : State) : Prop :=
  (∃ c, t.txIf i = { s.txIf i with credit := c }) ∧ ∀ k, k ≠ i → t.txIf k = s.txIf k

theorem onlyCredits_settleCredit {i : Nat} {s t : State} (h : OnlyCredits i s t) (c : Nat) (ch : Chan) :
    OnlyCredits i s (t.settleCredit i c ch) := by
  obtain ⟨⟨cr, hi⟩, hothers⟩ := h
  unfold State.settleCredit
  dsimp only
  split
  · exact ⟨⟨_, by rw [State.txIf_updTx_self, hi]⟩, fun k hk => (State.txIf_updTx_ne _ _ hk).trans (hothers k hk)⟩
  · exact ⟨⟨cr, hi⟩, hothers⟩

theorem onlyCredits_settleCredits (s : State) (i : Nat) : OnlyCredits i s (s.settleCredits i) := by
  unfold State.settleCredits
  refine List.foldlRecOn (motive := OnlyCredits i s) s.chans _ ⟨⟨(s.txIf i).credit, rfl⟩, fun _ _ => rfl⟩ fun t ht e _ => ?_
  split
  · exact onlyCredits_settleCredit ht e.1 e.2
  · exact ht

/-! ## Rounding up to a whole number of cycles (R204) -/

theorem cdiv_mul_bounds {a b : Nat} (ha : 0 < a) (hb : 0 < b) : a ≤ cdiv a b * b ∧ cdiv a b * b < a + b := by
  have hdiv := Nat.div_add_mod (a + b - 1) b
  have hmod := Nat.mod_lt (a + b - 1) hb
  rw [Nat.mul_comm b] at hdiv
  unfold cdiv
  omega

/-! ## The rows -/

section gates
variable {s : State} {i : Nat}

theorem gives_gateListTaken_idle (h : ((s.txIf i).pend.isNone || (s.txIf i).taken) = true) : Gives (.gateListTaken i) s s := by
  show Host.Outcome.next _ = _
  cases hp : (s.txIf i).pend with
  | none => rfl
  | some g =>
    have ht : (s.txIf i).taken = true := by simpa [hp] using h
    exact congrArg Host.Outcome.next (if_pos ht)

theorem gives_gateListStart_idle (h : ((s.txIf i).pend.isNone || !(s.txIf i).taken) = true) : Gives (.gateListStart i) s s := by
  show Host.Outcome.next _ = _
  cases hp : (s.txIf i).pend with
  | none => rfl
  | some g =>
    have ht : ¬ (s.txIf i).taken = true := by simpa [hp] using h
    exact congrArg Host.Outcome.next (if_neg ht)

theorem gives_gateEntryChange_idle (h : (s.txIf i).oper = none) : Gives (.gateEntryChange i) s s := by
  show Host.Outcome.next _ = _
  rw [h]

/-- The egress of an interface whose pending list has been taken, to start at an instant. -/
def TxIface.taking (t : TxIface) (g : GateList) (start : Nat) : TxIface := { t with pend := some { g with start := some start }, taken := true }

/-- The egress of an interface on which a list starts; one without entries removes the list. -/
def TxIface.starting (t : TxIface) (g : GateList) : TxIface :=
  { t with
    oper := if g.entries.isEmpty then none else some g, pend := none, taken := false
    openMask := if g.entries.isEmpty then 0xFFFF else (gateAt g.entries 0 0).2, entry := 0 }

variable {g : GateList}

section taken
variable (hp : (s.txIf i).pend = some g) (ht : (s.txIf i).taken = false)
include hp ht

theorem does_gateListTaken_inTime (hb : s.time.nowNs + 2000 ≤ g.base) : Does (.gateListTaken i) s [.tx] noReg fun t =>
    t.txIf i = (s.txIf i).taking g g.base ∧ ∀ k, k ≠ i → t.txIf k = s.txIf k := by
  have hx : exec (.gateListTaken i) s = .next (s.updTx i (·.taking g g.base)) := by
    show Host.Outcome.next _ = _
    rw [hp]
    simp only [ht, Bool.false_eq_true, if_false, if_pos hb]
    rfl
  exact does_of_touches hx (State.updTx_touches ..) (by decide) ⟨State.txIf_updTx_self .., fun k hk => State.txIf_updTx_ne _ _ hk⟩

/-- The state in which interface `i` has taken its list late, to start `n` cycles after its base time (R204). -/
def State.takenLate (s : State) (i : Nat) (g : GateList) (n : Nat) : State :=
  ((s.updTx i (·.taking g (g.base + n * g.cycle))).sticky (Reg.NET_GATE_STATUS i) 0x4000000).raise 0x0030 0 i n

theorem exec_gateListTaken_late (hb : g.base < s.time.nowNs + 2000) (hc : 0 < g.cycle) :
    exec (.gateListTaken i) s = .next (s.takenLate i g (cdiv (s.time.nowNs + 2000 - g.base) g.cycle)) := by
  have hmax : max 1 g.cycle = g.cycle := by omega
  show Host.Outcome.next _ = _
  rw [hp]
  simp only [ht, Bool.false_eq_true, if_false, if_neg (Nat.not_le.2 hb), hmax]
  rfl

omit hp ht in
theorem State.takenLate_touches (s : State) (i : Nat) (g : GateList) (n : Nat) :
    Touches [.regs, .log, .logSeq, .mbx, .tx, .out] s (s.takenLate i g n) :=
  (((State.updTx_touches ..).mono (m := [.regs, .log, .logSeq, .mbx, .tx, .out]) (by decide)).then (State.sticky_touches ..)
    (by decide)).then (State.raise_touches ..) (by decide)

omit hp ht in
theorem State.takenLate_tx (s : State) (i : Nat) (g : GateList) (n : Nat) :
    (s.takenLate i g n).tx = (s.updTx i (·.taking g (g.base + n * g.cycle))).tx := by
  rw [State.takenLate, (State.raise_touches ..).same .tx (by decide), State.sticky_tx]

omit hp ht in
theorem State.takenLate_rd (s : State) (i : Nat) (g : GateList) (n : Nat) :
    (s.takenLate i g n).rd (Reg.NET_GATE_STATUS i) = (s.rd (Reg.NET_GATE_STATUS i) ||| 0x4000000)
      ∧ ∀ off, ¬ regIn [Reg.NET_GATE_STATUS i, Reg.DEV_STATUS] off → (s.takenLate i g n).rd off = s.rd off := by
  have hne : Reg.DEV_STATUS ≠ Reg.NET_GATE_STATUS i := by unfold Reg.DEV_STATUS Reg.NET_GATE_STATUS; omega
  refine ⟨?_, fun off ho => ?_⟩
  · rw [State.takenLate, State.rd_eq, State.raise_regs, bget_bset_ne hne]
    exact State.sticky_rd_self ..
  · simp only [regIn, List.mem_cons, List.not_mem_nil, or_false, not_or] at ho
    rw [State.takenLate, State.rd_eq, State.raise_regs, bget_bset_ne (Ne.symm ho.2)]
    exact State.sticky_rd_ne _ (Ne.symm ho.1) _

theorem does_gateListTaken_late (hb : g.base < s.time.nowNs + 2000) (hc : 0 < g.cycle) :
    let n := cdiv (s.time.nowNs + 2000 - g.base) g.cycle
    Does (.gateListTaken i) s [.regs, .log, .logSeq, .mbx, .tx, .out] (regIn [Reg.NET_GATE_STATUS i, Reg.DEV_STATUS]) fun t =>
      s.time.nowNs + 2000 ≤ g.base + n * g.cycle ∧ g.base + n * g.cycle < s.time.nowNs + 2000 + g.cycle
        ∧ t.txIf i = (s.txIf i).taking g (g.base + n * g.cycle) ∧ (∀ k, k ≠ i → t.txIf k = s.txIf k)
        ∧ Entered 0x0030 i n t ∧ t.rd (Reg.NET_GATE_STATUS i) = (s.rd (Reg.NET_GATE_STATUS i) ||| 0x4000000) := by
  intro n
  have hpos : 0 < s.time.nowNs + 2000 - g.base := by omega
  obtain ⟨hle, hlt⟩ : _ ≤ n * g.cycle ∧ n * g.cycle < _ := cdiv_mul_bounds hpos hc
  obtain ⟨hstatus, hothers⟩ := s.takenLate_rd i g n
  refine ⟨_, exec_gateListTaken_late hp ht hb hc, s.takenLate_touches i g n, hothers, by omega, by omega, ?_, fun k hk => ?_,
    State.raise_enters .., hstatus⟩
  · rw [State.txIf, s.takenLate_tx]
    exact State.txIf_updTx_self ..
  · rw [State.txIf, s.takenLate_tx]
    exact State.txIf_updTx_ne _ _ hk

end taken

theorem does_gateListStart (hp : (s.txIf i).pend = some g) (ht : (s.txIf i).taken = true) :
    Does (.gateListStart i) s [.tx] noReg fun t =>
      (∃ c, t.txIf i = { (s.txIf i).starting g with credit := c }) ∧ ∀ k, k ≠ i → t.txIf k = s.txIf k := by
  have hx : exec (.gateListStart i) s = .next ((s.settleCredits i).updTx i (·.starting g)) := by
    show Host.Outcome.next _ = _
    rw [hp]
    simp only [ht, if_true]
    rfl
  obtain ⟨⟨c, hi⟩, hothers⟩ := onlyCredits_settleCredits s i
  exact does_of_touches hx ((State.settleCredits_touches ..).trans (State.updTx_touches ..)) (by decide)
    ⟨⟨c, by rw [State.txIf_updTx_self, hi]; rfl⟩, fun k hk => (State.txIf_updTx_ne _ _ hk).trans (hothers k hk)⟩

/-- The number and the mask of the entry in force at the clock's position in the cycle of a list (R203). -/
def State.entryNow (s : State) (g : GateList) : Nat × BitVec 16 :=
  gateAt g.entries (((s.time.nowNs : Int) - g.base) % ((max 1 g.cycle : Nat) : Int)).toNat 0

theorem does_gateEntryChange (ho : (s.txIf i).oper = some g) : Does (.gateEntryChange i) s [.tx] noReg fun t =>
    (∃ c, t.txIf i = { s.txIf i with openMask := (s.entryNow g).2, entry := (s.entryNow g).1, credit := c })
      ∧ ∀ k, k ≠ i → t.txIf k = s.txIf k := by
  have hx : exec (.gateEntryChange i) s = .next ((s.settleCredits i).updTx i fun t =>
      { t with openMask := (s.entryNow g).2, entry := (s.entryNow g).1 }) := by
    show Host.Outcome.next _ = _
    rw [ho]
    rfl
  obtain ⟨⟨c, hi⟩, hothers⟩ := onlyCredits_settleCredits s i
  exact does_of_touches hx ((State.settleCredits_touches ..).trans (State.updTx_touches ..)) (by decide)
    ⟨⟨c, by rw [State.txIf_updTx_self, hi]⟩, fun k hk => (State.txIf_updTx_ne _ _ hk).trans (hothers k hk)⟩

end gates

/-! ## The statement -/

/-- Settles O35: a packet that firmware takes by its answer, the report timer, then the four rows of a gate list. -/
theorem controlAndGates : Obligations.ControlAndGates := by
  unfold Obligations.ControlAndGates
  refine ⟨fun s i k => gives_controlPacket_none, fun s i k e he => ⟨gives_controlPacket_restarting he,
      fun hr ha => gives_controlPacket_silent he hr (by rw [← ha]; rfl), ?_, ?_⟩,
    fun s i => ⟨gives_reportTimer_restarting, does_reportTimer_taken, does_reportTimer_dark⟩,
    fun s i => ⟨gives_gateListTaken_idle, gives_gateListStart_idle, gives_gateEntryChange_idle,
      fun g hp ht => ⟨does_gateListTaken_inTime hp ht, does_gateListTaken_late hp ht⟩, fun g hp ht => ?start, fun g ho => ?change⟩⟩
  · exact does_controlPacket_answered he
  · exact does_controlPacket_dark he
  case start =>
    refine .imp (does_gateListStart hp ht) fun t ⟨⟨c, hi⟩, hothers⟩ => ?_
    rw [hi]
    refine ⟨?_, rfl, rfl, rfl, ?_, rfl, rfl, rfl, hothers⟩ <;> simp [TxIface.starting, List.isEmpty_iff]
  case change =>
    refine .imp (does_gateEntryChange ho) fun t ⟨⟨c, hi⟩, hothers⟩ => ?_
    rw [hi]
    exact ⟨rfl, rfl, rfl, rfl, ho, hothers⟩

end Sys2Proof.Machine
end

section
/-!
PROOFS. The flow table (R182): where a new entry finds its place.
-/
namespace Sys2Proof.Machine
open Sys2Proof

section placement
variable {t : Tab Flow}

theorem freeSlot_mem {base x : Nat} (h : freeSlot t base = some x) : base ≤ x ∧ x < base + 4 :=
  mem_rangeFrom.1 (List.mem_of_find?_eq_some h)

theorem placement_way0 {k : FlowKey} {x : Nat} (h : freeSlot t (k.bucket 0) = some x) : placement t k = some ([], x) := by
  rw [placement, h]

theorem placement_way1 {k : FlowKey} {x : Nat} (h0 : freeSlot t (k.bucket 0) = none) (h1 : freeSlot t (k.bucket 1) = some x) :
    placement t k = some ([], x) := by
  rw [placement, h0, h1]

/-- A chain of `d` residents, the first in one of the slots of `l`. -/
def ChainFrom (l : List Nat) (d : Nat) (p : List Nat) : Prop := p.length = d ∧ ∃ a ∈ l, p.head? = some a

theorem mem_of_closeChain {ps : List (List Nat)} {r : List Nat × Nat} (h : closeChain t ps = some r) : r.1 ∈ ps := by
  induction ps with
  | nil => cases h
  | cons p ps ih =>
    rw [closeChain] at h
    split at h
    · split at h
      · cases h
        exact List.mem_cons_self ..
      · exact List.mem_cons_of_mem _ (ih h)
    · exact List.mem_cons_of_mem _ (ih h)

theorem chainFrom_growChains {l : List Nat} {d : Nat} {ps : List (List Nat)} (h : ∀ p ∈ ps, ChainFrom l d p) :
    ∀ p ∈ growChains t ps, ChainFrom l (d + 1) p := by
  intro q hq
  obtain ⟨p, hp, hq⟩ := List.mem_flatMap.1 hq
  obtain ⟨hlen, a, ha, hhead⟩ := h p hp
  split at hq
  · obtain ⟨y, -, rfl⟩ := List.mem_map.1 hq
    exact ⟨by rw [List.length_append, List.length_singleton, hlen], a, ha, by rw [List.head?_append, hhead]; rfl⟩
  · cases hq

theorem chainFrom_findChain {l : List Nat} {n d : Nat} {ps : List (List Nat)} {r : List Nat × Nat} (h : ∀ p ∈ ps, ChainFrom l d p)
    (hr : findChain t n ps = some r) : ∃ e, e < d + n ∧ ChainFrom l e r.1 := by
  induction n generalizing d ps with
  | zero => cases hr
  | succ n ih =>
    rw [findChain] at hr
    split at hr
    · next hc =>
      cases hr
      exact ⟨d, by omega, h _ (mem_of_closeChain hc)⟩
    · obtain ⟨e, he, hchain⟩ := ih (chainFrom_growChains h) hr
      exact ⟨e, by omega, hchain⟩

/-- At most three residents move, and the new entry goes to a slot of one of its two buckets (R182). -/
theorem placement_bounds {k : FlowKey} {m : List (Nat × Nat)} {x : Nat} (h : placement t k = some (m, x)) : m.length ≤ 3
    ∧ (k.bucket 0 ≤ x ∧ x < k.bucket 0 + 4 ∨ k.bucket 1 ≤ x ∧ x < k.bucket 1 + 4) := by
  rw [placement] at h
  split at h
  · next hfree =>
    cases h
    exact ⟨by decide, .inl (freeSlot_mem hfree)⟩
  · split at h
    · next hfree =>
      cases h
      exact ⟨by decide, .inr (freeSlot_mem hfree)⟩
    · split at h
      · next p f hfind =>
        have hstart : ∀ q ∈ (rangeFrom (k.bucket 0) 4 ++ rangeFrom (k.bucket 1) 4).map fun x => [x],
            ChainFrom (rangeFrom (k.bucket 0) 4 ++ rangeFrom (k.bucket 1) 4) 1 q := by
          intro q hq
          obtain ⟨a, ha, rfl⟩ := List.mem_map.1 hq
          exact ⟨rfl, a, ha, rfl⟩
        obtain ⟨e, he, hlen, a, ha, hhead⟩ := chainFrom_findChain hstart hfind
        cases h
        refine ⟨?_, ?_⟩
        · change p.length = e at hlen
          rw [List.length_reverse, List.length_zip]
          omega
        · rw [List.headD_eq_head?_getD, hhead, Option.getD_some]
          rcases List.mem_append.1 ha with ha | ha
          · exact .inl (mem_rangeFrom.1 ha)
          · exact .inr (mem_rangeFrom.1 ha)
      · cases h

end placement

end Sys2Proof.Machine
end

section
/-!
PROOFS. Flow entries and memberships (R181, R182, R191): what an entry added or removed leaves of the block of interfaces.
-/
namespace Sys2Proof.Machine
open Sys2Proof

/-- The memberships that the entries of a table ask for (R191). -/
def wantedGroups (t : Tab Flow) : List (Nat × Addr × Addr) := (t.flatMap fun e => groupsOf e.2.arg).dedup

section members
variable (s : State) (l : List FlowArg)

theorem State.syncMembers_net : (s.syncMembers l).net = { s.net with members := wantedGroups s.net.flows } := by
  unfold State.syncMembers
  dsimp only
  rw [foldl_keep State.net fun t m => (State.reportLeave_touches ..).same .net (by decide),
    foldl_keep State.net fun t m => (State.reportGroups_touches ..).same .net (by decide)]
  rfl

variable {s l}

/-- Where the memberships held are those asked for and no added entry names a group, nothing is reported. -/
theorem State.syncMembers_quiet (hl : l.flatMap groupsOf = []) (hm : s.net.members = wantedGroups s.net.flows) : s.syncMembers l = s := by
  have hnone : s.net.members.filter (fun m => !(s.net.members.contains m)) = [] :=
    List.filter_eq_nil_iff.2 fun m hmem => by simpa using hmem
  unfold wantedGroups at hm
  simp only [State.syncMembers, hl, ← hm, hnone, List.map_nil, List.dedup_nil, List.foldl_nil]

end members

/-! ## An entry added or removed -/

section entries
variable (s : State)

theorem State.insertFlow_unmoved (a : FlowArg) (x : Nat) : s.insertFlow a [] x =
    { s with net := { s.net with flows := tset s.net.flows x { arg := a, bucket := burstEff a * 1024, at_ := s.time.now } } } := by
  have ha : (if a.kind = 4 then { a with target := a.target } else a) = a := by split <;> rfl
  simp only [State.insertFlow, List.foldl_nil, ha]

theorem State.moveFlow_now (a b : Nat) : (s.moveFlow a b).time.now = s.time.now := by
  unfold State.moveFlow
  split <;> rfl

theorem State.moveFlow_ifaces (a b : Nat) : (s.moveFlow a b).net.ifaces = s.net.ifaces := by
  unfold State.moveFlow
  split <;> rfl

/-- A new entry stands in its slot with its counters zero and its bucket full (R181, R184). -/
theorem State.insertFlow_get {a : FlowArg} (hk : a.kind ≠ 4) (m : List (Nat × Nat)) (x : Nat) :
    tget (s.insertFlow a m x).net.flows x = some { arg := a, bucket := burstEff a * 1024, at_ := s.time.now } := by
  simp only [State.insertFlow, if_neg hk, tget_tset_self,
    foldl_keep (fun t : State => t.time.now) fun (t : State) (e : Nat × Nat) => t.moveFlow_now e.1 e.2]

theorem State.insertFlow_ifaces (a : FlowArg) (m : List (Nat × Nat)) (x : Nat) : (s.insertFlow a m x).net.ifaces = s.net.ifaces :=
  foldl_keep (fun t : State => t.net.ifaces) (fun (t : State) (e : Nat × Nat) => t.moveFlow_ifaces e.1 e.2) m s

theorem State.addAll_ifaces {s u : State} {l : List FlowArg} (h : s.addAll l = some u) : u.net.ifaces = s.net.ifaces := by
  induction l generalizing s with
  | nil => cases h; rfl
  | cons a l ih =>
    rw [State.addAll] at h
    split at h
    · exact (ih h).trans (s.insertFlow_ifaces ..)
    · cases h

end entries

/-! ## The PTP entries (R471) -/

section ptp
variable (s : State) (c : TimeConfigArg)

/-- An entry of the PTP ports that the configuration needs too stays where it is. -/
def State.ptpStays (x : Nat) : Bool := match tget s.net.flows x with
  | some f => (s.ptpEntries c).contains f.arg
  | none => false

/-- The state without the PTP entries that do not stay. -/
def State.ptpKept : State := (s.time.flows.filter fun x => !(s.ptpStays c x)).foldl (fun (t : State) x => t.removeFlow x)
  { s with time := { s.time with flows := s.time.flows.filter (s.ptpStays c) } }

/-- The entries that a configuration adds. -/
def State.ptpNew : List FlowArg := (s.ptpEntries c).filter fun a =>
  !(((s.time.flows.filter (s.ptpStays c)).filterMap fun x => (tget s.net.flows x).map (·.arg)).contains a)

theorem State.setPtpEntries_eq :
    s.setPtpEntries c = ((s.ptpKept c).addAll (s.ptpNew c)).map fun u => u.syncMembers (s.ptpNew c) := rfl

theorem State.ptpKept_ifaces : (s.ptpKept c).net.ifaces = s.net.ifaces :=
  foldl_keep (fun t : State => t.net.ifaces) (f := fun t x => t.removeFlow x) (fun _ _ => rfl) _ _

variable {s c} {u : State}

theorem State.setPtpEntries_ifaces (h : s.setPtpEntries c = some u) : u.net.ifaces = s.net.ifaces := by
  rw [State.setPtpEntries_eq] at h
  obtain ⟨v, hv, rfl⟩ := Option.map_eq_some_iff.1 h
  rw [State.syncMembers_net]
  exact (State.addAll_ifaces hv).trans (s.ptpKept_ifaces c)

end ptp

/-! ### The entries do not depend on the mailboxes -/

section atBody
variable (s : State) (m : MbxState) (o : List Out)

theorem State.sendCtl_atBody (i q : Nat) (w : CtlReply) : (s.atBody m o).sendCtl i q w = (s.sendCtl i q w).atBody m o := by
  have hi : (s.atBody m o).iface i = s.iface i := rfl
  have ht : (s.atBody m o).txIf i = s.txIf i := rfl
  unfold State.sendCtl
  rw [hi, ht]
  dsimp only
  split
  · rfl
  · split
    · rfl
    · split <;> rfl

theorem State.reportGroups_atBody (i : Nat) (gs : List Addr) : (s.atBody m o).reportGroups i gs = (s.reportGroups i gs).atBody m o :=
  List.foldl_hom (State.atBody · m o) fun t r => t.sendCtl_atBody m o i 3 (.membership r)

theorem State.reportLeave_atBody (i : Nat) (g : Addr) (gone : List Addr) :
    (s.atBody m o).reportLeave i g gone = (s.reportLeave i g gone).atBody m o := by
  unfold State.reportLeave
  dsimp only
  split
  · exact s.sendCtl_atBody ..
  · split
    · rfl
    · exact s.sendCtl_atBody ..

variable {m o} in
theorem foldl_atBody {β : Type} {g : State → β → State} (h : ∀ t e, g (t.atBody m o) e = (g t e).atBody m o) (l : List β) (s : State) :
    l.foldl g (s.atBody m o) = (l.foldl g s).atBody m o := List.foldl_hom (State.atBody · m o) h

theorem State.syncMembers_atBody (l : List FlowArg) : (s.atBody m o).syncMembers l = (s.syncMembers l).atBody m o :=
  (congrArg (List.foldl _ · _) (foldl_atBody (fun t e => t.reportGroups_atBody m o e.1 [e.2]) _
    { s with net := { s.net with members := wantedGroups s.net.flows } })).trans
    (foldl_atBody (fun t e => t.reportLeave_atBody m o e.1 e.2 _) _ _)

theorem State.moveFlow_atBody (a b : Nat) : (s.atBody m o).moveFlow a b = (s.moveFlow a b).atBody m o := by
  unfold State.moveFlow
  dsimp only
  split <;> rfl

theorem State.insertFlow_atBody (a : FlowArg) (l : List (Nat × Nat)) (x : Nat) :
    (s.atBody m o).insertFlow a l x = (s.insertFlow a l x).atBody m o := by
  unfold State.insertFlow
  dsimp only
  rw [foldl_atBody fun t e => t.moveFlow_atBody m o e.1 e.2]

/-- A PTP entry is noted in the block of the timebase (R471). -/
def State.withPtpFlow (s : State) (x : Nat) : State := { s with time := { s.time with flows := s.time.flows ++ [x] } }

theorem State.addAll_atBody (l : List FlowArg) : (s.atBody m o).addAll l = (s.addAll l).map (·.atBody m o) := by
  induction l generalizing s with
  | nil => rfl
  | cons a l ih =>
    have hplace : placement (s.atBody m o).net.flows (keyOf a) = placement s.net.flows (keyOf a) := rfl
    rw [State.addAll, State.addAll, hplace]
    cases placement s.net.flows (keyOf a) with
    | none => rfl
    | some r =>
      obtain ⟨moves, x⟩ := r
      simp only [State.insertFlow_atBody]
      exact ih ((s.insertFlow a moves x).withPtpFlow x)

theorem State.setPtpEntries_atBody (c : TimeConfigArg) :
    (s.atBody m o).setPtpEntries c = (s.setPtpEntries c).map (·.atBody m o) := by
  have hkept : (s.atBody m o).ptpKept c = (s.ptpKept c).atBody m o :=
    foldl_atBody (g := fun t x => t.removeFlow x) (fun _ _ => rfl) _
      { s with time := { s.time with flows := s.time.flows.filter (s.ptpStays c) } }
  have hnew : (s.atBody m o).ptpNew c = s.ptpNew c := rfl
  rw [State.setPtpEntries_eq, hkept, hnew, State.addAll_atBody, Option.map_map, State.setPtpEntries_eq, Option.map_map]
  exact congrArg (Option.map · _) (funext fun u => u.syncMembers_atBody m o _)

end atBody

end Sys2Proof.Machine
end

section
/-!
PROOFS. The commands of addresses, entries, queues, gate lists and lanes (R176, R181, R203, R204, R276, R338 to R341): what each body does
when no check refuses it.
-/
namespace Sys2Proof.Machine
open Sys2Proof

/-! ## A command refused by a body that counts it (R320) -/

/-- The body refuses the command with status `e`, leaving the machine as `f` makes it, the mailboxes as they were. -/
theorem Does.of_counted_refusal {i : Instr} {s : State} {h : CmdHdr} {p : Payload} {g b e : Nat} {f : State → State} {l : List Fld}
    {r : Nat → Prop} {P : State → Prop} (hx : exec i s = .next (s.runCommand h p)) (hs : s.serves h p g b = true)
    (hb : ∀ m o x, (s.atBody m o).body x p = { st := f (s.atBody m o), status := e })
    (ht : ∀ m o, Touches l (s.atBody m o) (f (s.atBody m o))) (hr : ∀ m o off, ¬ r off → (f (s.atBody m o)).rd off = s.rd off)
    (hp : ∀ m o k, P { f (s.atBody m o) with mbx := k }) :
    Does i s (.mbx :: .out :: l) r fun t =>
      P t ∧ tget t.mbx.blocks (32 * h.pair + b) = some (completionOf h (opcodeOf p) e false []) := by
  obtain ⟨m, o, -, -, hrun⟩ := State.runCommand_served hs
  obtain ⟨k, hanswer, hblock⟩ := HeldCmd.answer_host (k := s.heldOf h p g b) rfl rfl (f (s.atBody m o)) e []
  rw [hb m o _, hanswer] at hrun
  have hread := (s.atBody_touches m o).mono fun f hf => List.mem_append_left l hf
  refine ⟨_, hx.trans (congrArg _ hrun), ?_, hr m o, hp m o k, hblock⟩
  exact (Touches.set_mbx (List.mem_cons_self ..) k).mpr
    (hread.then (ht m o) fun f hf => List.mem_cons_of_mem _ (List.mem_cons_of_mem _ hf))

/-! ## NET_ADDRESS (R176, R338) -/

section address
variable {s : State} {p : NetAddressArg}

/-- The interface with the addresses of NET_ADDRESS. -/
def Iface.withAddresses (p : NetAddressArg) (f : Iface) : Iface :=
  { f with mac := some p.mac, ipv4a := p.ipv4a, ipv4b := p.ipv4b, ipv6a := p.ipv6a, ipv6b := p.ipv6b }

variable (hi : s.ifExists p.iface = true) (hm : p.mac.toNat.testBit 40 = false)
include hi hm

theorem State.doNetAddress_sets
    (hc : ∀ c, s.time.cfg = some c → c.delayMode = 0 ∨ (c.portPrimary ≠ p.iface ∧ c.portSecondary ≠ p.iface)) :
    s.doNetAddress p = (s.updIface p.iface (Iface.withAddresses p)).done := by
  unfold State.doNetAddress
  rw [if_neg (by simp [hi, hm])]
  cases h : s.time.cfg with
  | none => rfl
  | some c =>
    have hports : ¬ (c.delayMode = 1 ∧ (ptpPorts c).contains p.iface = true) := by
      rintro ⟨hmode, hport⟩
      rcases hc c h with h0 | ⟨h1, h2⟩
      · omega
      · simp only [ptpPorts, List.contains_iff_mem] at hport
        split at hport
        · exact h1 (List.mem_singleton.1 hport).symm
        · rcases List.mem_cons.1 hport with hport | hport
          · exact h1 hport.symm
          · exact h2 (List.mem_singleton.1 hport).symm
    exact if_neg hports

theorem State.doNetAddress_follows {c : TimeConfigArg} {u : State} (hc : s.time.cfg = some c) (hmode : c.delayMode = 1)
    (hp : c.portPrimary = p.iface ∨ c.portSecondary = p.iface)
    (hu : (s.updIface p.iface (Iface.withAddresses p)).setPtpEntries c = some u) : s.doNetAddress p = u.done := by
  have hlt : p.iface < 16 := by
    simp only [State.ifExists, Bool.and_eq_true, decide_eq_true_eq] at hi
    exact hi.1
  have hport : (ptpPorts c).contains p.iface = true := by
    rw [List.contains_iff_mem, ptpPorts]
    rcases hp with h | h
    · exact h ▸ List.mem_cons_self ..
    · rw [if_neg (by omega), h]
      simp
  unfold State.doNetAddress
  rw [if_neg (by simp [hi, hm]), hc]
  dsimp only
  rw [if_pos ⟨hmode, hport⟩]
  exact (congrArg (fun r : Option State => match r with
    | some u => u.done
    | none => { st := s, status := eNoCapacity }) hu)

end address

/-! ## FLOW_ADD and FLOW_DELETE (R181, R182, R339) -/

section flows
variable {s : State} {a : FlowArg} (hok : s.flowArgOk a = true) (hnew : findKey s.net.flows (keyOf a) = none)
include hok hnew

theorem State.doFlowAdd_places {m : List (Nat × Nat)} {x : Nat} (hp : placement s.net.flows (keyOf a) = some (m, x)) :
    s.doFlowAdd a = ((s.insertFlow a m x).syncMembers [a]).reply (leBytes 4 x) := by
  simp [State.doFlowAdd, firstBad, hok, hnew, hp]

theorem State.doFlowAdd_refuses (hp : placement s.net.flows (keyOf a) = none) : s.doFlowAdd a =
    { st := (s.bump Reg.NET_FLOW_REFUSALS).sticky Reg.NET_FLOW_STATUS 0x10000, status := eNoCapacity } := by
  simp [State.doFlowAdd, firstBad, hok, hnew, hp]

omit hok hnew

theorem State.doFlowDelete_removes {x : Nat} (hx : x ≤ 32767) (hhas : thas s.net.flows x = true) (hn : s.flowNamed x = false) :
    s.doFlowDelete x = ((s.removeFlow x).syncMembers []).done := by
  rw [State.doFlowDelete, State.checked_pass]
  simp [hhas, hn, Nat.not_lt.2 hx]

end flows

/-! ## TX_QUEUE_CONFIG and GATE_LIST_SET (R203, R204, R340) -/

/-- The egress of an interface with a queue set. -/
def TxIface.withQueue (t : TxIface) (p : TxQueueArg) : TxIface :=
  { t with
    weight := if 4 ≤ p.queue then tset t.weight p.queue p.weight else t.weight
    maxFrame := tset t.maxFrame p.queue p.maxFrame }

theorem State.doTxQueueConfig_sets {s : State} {p : TxQueueArg} (hi : s.ifExists p.iface = true) (hq : p.queue ≤ 15)
    (hw : if 4 ≤ p.queue then 1 ≤ p.weight ∧ p.weight ≤ 255 else p.weight = 0) (h64 : 64 ≤ p.maxFrame) (h9216 : p.maxFrame ≤ 9216)
    (ho : ∀ l, (s.txIf p.iface).oper = some l → gateRuleOk ((s.txIf p.iface).withQueue p) (s.ifRate p.iface) l = true)
    (hp : ∀ l, (s.txIf p.iface).pend = some l → gateRuleOk ((s.txIf p.iface).withQueue p) (s.ifRate p.iface) l = true) :
    s.doTxQueueConfig p = (s.updTx p.iface (·.withQueue p)).done := by
  rw [State.doTxQueueConfig, State.checked_pass]
  · rfl
  · have hwt : (if 4 ≤ p.queue then p.weight == 0 || decide (255 < p.weight) else p.weight != 0) = false := by
      split at hw
      · next h4 => simpa [h4] using And.intro (Nat.pos_iff_ne_zero.1 hw.1) hw.2
      · next h4 => simp [h4, hw]
    have hoper : (match (s.txIf p.iface).oper with
        | some l => gateRuleOk ((s.txIf p.iface).withQueue p) (s.ifRate p.iface) l
        | none => true) = true := by
      split
      · next l hl => exact ho l hl
      · rfl
    have hpend : (match (s.txIf p.iface).pend with
        | some l => gateRuleOk ((s.txIf p.iface).withQueue p) (s.ifRate p.iface) l
        | none => true) = true := by
      split
      · next l hl => exact hp l hl
      · rfl
    refine List.forall_mem_cons.2 ⟨?_, List.forall_mem_cons.2 ⟨?_, List.forall_mem_nil _⟩⟩
    · simp [hi, hwt, Nat.not_lt.2 hq, Nat.not_lt.2 h64, Nat.not_lt.2 h9216]
    · exact Bool.or_eq_false_iff.2 ⟨congrArg not hoper, congrArg not hpend⟩

/-- The egress of an interface with a gate list pending. -/
def TxIface.withPending (t : TxIface) (g : GateList) : TxIface := { t with pend := some g, taken := false }

section gates
variable {s : State} {p : GateListArg} (hi : s.ifExists p.iface = true) (hb : p.base.ns < 1000000000) (hlo : 1000 ≤ p.cycle)
  (hhi : p.cycle ≤ 1000000000) (hn : p.count ≤ 256)
include hi hb hlo hhi hn

/-- The list of GATE_LIST_SET with its entries. -/
def State.gateListOf (s : State) (p : GateListArg) (es : List (BitVec 16 × Nat)) : GateList := ⟨timeNs p.base s.time, p.cycle, es, none⟩

omit hn in
theorem State.doGateListSet_empty (hc : p.count = 0)
    (hg : gateRuleOk (s.txIf p.iface) (s.ifRate p.iface) (s.gateListOf p []) = true) :
    s.doGateListSet p = (s.updTx p.iface (·.withPending (s.gateListOf p []))).done := by
  rw [State.doGateListSet, State.checked_pass]
  · simp only [hc, if_true]
    rfl
  · refine List.forall_mem_singleton.2 ?_
    have hg' : gateRuleOk (s.txIf p.iface) (s.ifRate p.iface) { base := timeNs p.base s.time, cycle := p.cycle, entries := [] } = true := hg
    simp [hc, hi, hb, TimeField.ok, Nat.not_lt.2 hlo, Nat.not_lt.2 hhi, hg']

theorem State.doGateListSet_filled {f : Surface} (hc : 0 < p.count) (hf : s.deviceBuffer p.surface (8 * p.count) = some f)
    (he : ∀ e ∈ gateEntries s.mem.hbm f.addr p.count, 32 ≤ e.2 ∧ e.2 ≤ 1000000000)
    (hz : ∀ i ∈ List.range p.count, leNat (Mem.read s.mem.hbm (f.addr + 8 * i + 2) 2) = 0)
    (hg : gateRuleOk (s.txIf p.iface) (s.ifRate p.iface) (s.gateListOf p (gateEntries s.mem.hbm f.addr p.count)) = true) :
    s.doGateListSet p = (s.updTx p.iface (·.withPending (s.gateListOf p (gateEntries s.mem.hbm f.addr p.count)))).done := by
  have hc0 : p.count ≠ 0 := by omega
  have hspan : ((gateEntries s.mem.hbm f.addr p.count).any fun e => decide (e.2 < 32) || decide (1000000000 < e.2)) = false :=
    List.any_eq_false.2 fun e hm => by
      obtain ⟨h1, h2⟩ := he e hm
      simp [Nat.not_lt.2 h1, Nat.not_lt.2 h2]
  have hzero : ((List.range p.count).any fun i => leNat (Mem.read s.mem.hbm (f.addr + 8 * i + 2) 2) != 0) = false :=
    List.any_eq_false.2 fun i hm => by simp [hz i hm]
  rw [State.doGateListSet, State.checked_pass]
  · simp only [hc0, if_false, hf]
    rfl
  · refine List.forall_mem_singleton.2 ?_
    have hg' : gateRuleOk (s.txIf p.iface) (s.ifRate p.iface)
        { base := timeNs p.base s.time, cycle := p.cycle, entries := gateEntries s.mem.hbm f.addr p.count } = true := hg
    simp only [hf, hc0, if_false, hspan, hzero, hg']
    simp [hi, hb, TimeField.ok, Nat.not_lt.2 hlo, Nat.not_lt.2 hhi, Nat.not_lt.2 hn]

end gates

/-! ## LANE_CONFIG (R276, R341) -/

section lanes
variable {s : State}

theorem State.laneOf_updLane (l k : Nat) (f : Lane → Lane) :
    (s.updLane l f).laneOf k = if l = k then f (s.laneOf k) else s.laneOf k := by
  simp only [State.laneOf, State.updLane, tgetD, tget_tset]
  split
  · next h => rw [h]; rfl
  · rfl

theorem foldl_updLane_notMem {f : State → Nat → Lane → Lane} {l : List Nat} {k : Nat} (h : k ∉ l) (s : State) :
    (l.foldl (fun (t : State) j => t.updLane j (f t j)) s).laneOf k = s.laneOf k := by
  induction l generalizing s with
  | nil => rfl
  | cons j l ih =>
    obtain ⟨hj, hl⟩ := not_or.1 (fun ho => h (List.mem_cons.2 ho))
    rw [List.foldl_cons, ih hl, State.laneOf_updLane, if_neg (Ne.symm hj)]

theorem lanePort_of_mem {q l : Nat} (hq : q < 4) (h : l ∈ portLanes q) : lanePort l = some q := by
  have hq' : q = 0 ∨ q = 1 ∨ q = 2 ∨ q = 3 := by omega
  have hl : l < 26 := by
    rcases hq' with rfl | rfl | rfl | rfl <;> simp [portLanes, mem_rangeFrom] at h <;> omega
  revert h
  rcases hq' with rfl | rfl | rfl | rfl <;> revert l <;> decide

theorem lanePort_lt {l q : Nat} (h : lanePort l = some q) : q < 4 := by
  unfold lanePort at h
  split_ifs at h <;> simp_all <;> omega

/-- What a restart of its training keeps of a lane. -/
def Lane.setting (l : Lane) : Nat × Bool × Bool × Int × Int × Int := (l.loopback, l.pattern, l.enabled, l.pre, l.main, l.post)

theorem State.retrainLanes_setting (q k : Nat) : ((s.retrainLanes q).laneOf k).setting = (s.laneOf k).setting := by
  refine foldl_keep (fun t : State => (t.laneOf k).setting) (fun t j => ?_) _ _
  rw [State.laneOf_updLane]
  split <;> rfl

theorem State.retrainLanes_other {q k : Nat} (h : k ∉ portLanes q) : (s.retrainLanes q).laneOf k = s.laneOf k :=
  foldl_updLane_notMem (f := fun _ _ => Lane.retrain) h s

/-- The lane with the modes of LANE_CONFIG, and on an Ethernet lane its cursors. -/
def Lane.withConfig (p : LaneConfigArg) (x : Lane) : Lane :=
  let x := { x with loopback := p.loopback, pattern := p.pattern == 1, enabled := p.enable == 1 }
  if p.lane < 16 then { x with pre := p.pre, main := p.main, post := p.post }
  else { x with symLock := x.symLock && !x.testMode && x.enabled, errAt := [] }

theorem Lane.setting_withConfig (p : LaneConfigArg) (x : Lane) {y : Lane} (h : y.setting = (x.withConfig p).setting) :
    y.loopback = p.loopback ∧ y.pattern = (p.pattern == 1) ∧ y.enabled = (p.enable == 1)
      ∧ (p.lane < 16 → y.pre = p.pre ∧ y.main = p.main ∧ y.post = p.post) := by
  simp only [Lane.setting, Lane.withConfig, Prod.mk.injEq] at h
  split at h
  · exact ⟨h.1, h.2.1, h.2.2.1, fun _ => h.2.2.2⟩
  · next hl => exact ⟨h.1, h.2.1, h.2.2.1, fun hlt => absurd hlt hl⟩

/-- What LANE_CONFIG makes of the machine: the lane's modes, and the training of a dark port begins again. -/
def State.withLaneConfig (s : State) (p : LaneConfigArg) : State :=
  let t := s.updLane p.lane (·.withConfig p)
  match lanePort p.lane with
  | some q => if t.portDark q && (t.portOf q).st != .failed then (t.updPort q fun r => { r with st := .down, deskewed := false }).retrainLanes q
    else t
  | none => t

theorem State.doLaneConfig_sets {p : LaneConfigArg} (hl : p.lane ≤ 25) (hlb : p.loopback ≤ 3) (hpt : p.pattern ≤ 1) (he : p.enable ≤ 1)
    (hx : ¬ (p.pattern = 1 ∧ p.loopback = 3)) (hc : cursorsOk p = true) (hu : s.laneInUse p.lane = false) :
    s.doLaneConfig p = (s.withLaneConfig p).done := by
  rw [State.doLaneConfig, State.checked_pass]
  · simp only [State.withLaneConfig]
    cases hq : lanePort p.lane with
    | none => rfl
    | some q =>
      dsimp only
      exact (apply_ite State.done _ _ _).symm
  · refine List.forall_mem_cons.2 ⟨?_, List.forall_mem_singleton.2 ?_⟩
    · have hboth : (p.pattern == 1 && p.loopback == 3) = false := by simpa using hx
      simp [hc, hboth, Nat.not_lt.2 hl, Nat.not_lt.2 hlb, Nat.not_lt.2 hpt, Nat.not_lt.2 he]
    · simp [hu]

theorem State.withLaneConfig_touches (p : LaneConfigArg) : Touches [.lane] s (s.withLaneConfig p) := by
  have ht := State.updLane_touches s p.lane (·.withConfig p)
  unfold State.withLaneConfig
  dsimp only
  split
  · split
    · exact (ht.trans (State.updPort_touches ..)).trans (State.retrainLanes_touches ..)
    · exact ht
  · exact ht

theorem State.withLaneConfig_setting (p : LaneConfigArg) (k : Nat) :
    ((s.withLaneConfig p).laneOf k).setting = ((s.updLane p.lane (·.withConfig p)).laneOf k).setting := by
  unfold State.withLaneConfig
  dsimp only
  split
  · split
    · exact State.retrainLanes_setting ..
    · rfl
  · rfl

theorem State.withLaneConfig_other (p : LaneConfigArg) {k : Nat} (hk : k ≠ p.lane) (ho : lanePort k ≠ lanePort p.lane ∨ p.lane < 16) :
    (s.withLaneConfig p).laneOf k = s.laneOf k := by
  have hset : (s.updLane p.lane (·.withConfig p)).laneOf k = s.laneOf k := by rw [State.laneOf_updLane, if_neg (Ne.symm hk)]
  unfold State.withLaneConfig
  dsimp only
  split
  · next q hq =>
    have hnot : k ∉ portLanes q := fun hm => by
      rcases ho with ho | ho
      · exact ho ((lanePort_of_mem (lanePort_lt hq) hm).trans hq.symm)
      · simp [lanePort, ho] at hq
    split
    · exact (State.retrainLanes_other hnot).trans hset
    · exact hset
  · exact hset

end lanes

end Sys2Proof.Machine
end

section
/-!
PROOFS. PORT_CONFIG (R174, R175, R338): taking links down and removing interfaces only ever disables the interfaces of the port, the
mode follows, and the interfaces of the mask are enabled.
-/
namespace Sys2Proof.Machine
open Sys2Proof

/-! ## Steps that only take interfaces out of service -/

theorem State.txIf_congr {s t : State} (h : t.tx = s.tx) (i : Nat) : t.txIf i = s.txIf i := by simp only [State.txIf, h]

/-- The step from `s` to `t` leaves every interface and egress outside `l`, the flow table and every lane alone,
and enables no interface and brings no link up. -/
structure Withdraws (l : List Nat) (s t : State) : Prop where
  elsewhere : ∀ i, i ∉ l → t.iface i = s.iface i ∧ t.txIf i = s.txIf i
  flows : t.net.flows = s.net.flows
  lane : t.lane = s.lane
  enabled : ∀ i, (t.iface i).enabled = true → (s.iface i).enabled = true
  linkUp : ∀ i, (t.iface i).linkUp = true → (s.iface i).linkUp = true

namespace Withdraws

theorem refl (l : List Nat) (s : State) : Withdraws l s s := ⟨fun _ _ => ⟨rfl, rfl⟩, rfl, rfl, fun _ => id, fun _ => id⟩

variable {l : List Nat} {s t u : State}

theorem trans (a : Withdraws l s t) (b : Withdraws l t u) : Withdraws l s u where
  elsewhere i hi := ⟨(b.elsewhere i hi).1.trans (a.elsewhere i hi).1, (b.elsewhere i hi).2.trans (a.elsewhere i hi).2⟩
  flows := b.flows.trans a.flows
  lane := b.lane.trans a.lane
  enabled i h := a.enabled i (b.enabled i h)
  linkUp i h := a.linkUp i (b.linkUp i h)

theorem foldl {f : State → Nat → State} {xs : List Nat} (h : ∀ t, ∀ i ∈ xs, Withdraws l t (f t i)) (s : State) :
    Withdraws l s (xs.foldl f s) :=
  List.foldlRecOn (motive := Withdraws l s) xs f (.refl l s) fun t ht i hi => ht.trans (h t i hi)

/-- A step that leaves the interfaces, their egress and the lanes alone. -/
theorem of_touches {fs : List Fld} (ht : Touches fs s t) (hn : .net ∉ fs) (hx : .tx ∉ fs) (hl : .lane ∉ fs) : Withdraws l s t := by
  have hnet := ht.same .net hn
  have hi (i : Nat) : t.iface i = s.iface i := State.iface_congr hnet i
  exact ⟨fun i _ => ⟨hi i, State.txIf_congr (ht.same .tx hx) i⟩, congrArg (·.flows) hnet, ht.same .lane hl,
    fun i h => hi i ▸ h, fun i h => hi i ▸ h⟩

/-- A step that changes the egress of `i` only. -/
theorem of_tx {i : Nat} (ht : Touches [.tx] s t) (hx : ∀ k, k ≠ i → t.txIf k = s.txIf k) (hi : i ∈ l) : Withdraws l s t := by
  have hnet := ht.same .net (by decide)
  have hif (k : Nat) : t.iface k = s.iface k := State.iface_congr hnet k
  exact ⟨fun k hk => ⟨hif k, hx k fun h => hk (h ▸ hi)⟩, congrArg (·.flows) hnet, ht.same .lane (by decide),
    fun k h => hif k ▸ h, fun k h => hif k ▸ h⟩

end Withdraws

section withdraw
variable {l : List Nat} {i : Nat} (hi : i ∈ l) (s : State)
include hi

theorem withdraws_updTx (f : TxIface → TxIface) : Withdraws l s (s.updTx i f) :=
  .of_tx (State.updTx_touches ..) (fun _ hk => State.txIf_updTx_ne _ _ hk) hi

theorem withdraws_dequeue (w : TxPacket) : Withdraws l s (s.dequeue i w) :=
  .of_tx (State.dequeue_touches ..) (fun k hk => (State.txIf_updTx_ne _ _ hk).trans ((onlyCredits_settleCredits s i).2 k hk)) hi

theorem withdraws_dropEligible : Withdraws l s (s.dropEligible i) := by
  have hqueue : Withdraws l s (((s.txIf i).queued.filter (·.eligible)).foldl
      (fun (u : State) w => (u.dequeue i w).linkDrop i w.pkt.chan w.pkt.seq) s) :=
    List.foldlRecOn (motive := Withdraws l s) _ _ (.refl l s) fun t ht w _ =>
      (ht.trans (withdraws_dequeue hi t w)).trans (.of_touches (State.linkDrop_touches ..) (by decide) (by decide) (by decide))
  have hctl := hqueue.trans (withdraws_updTx hi _ fun t => { t with ctl := [], held := tdel (tdel t.held 0) 3 })
  unfold State.dropEligible
  dsimp only
  split
  · exact hctl
  · exact hctl.trans (.of_touches ((State.bumpBy_touches ..).trans (State.sticky_touches ..)) (by decide) (by decide) (by decide))

theorem withdraws_markedDown : Withdraws l s (s.updIface i fun f => { f with linkUp := false }) where
  elsewhere k hk := ⟨State.iface_updIface_ne s (ne_of_mem_of_not_mem hi hk).symm _, rfl⟩
  flows := rfl
  lane := rfl
  enabled k h := by
    by_cases hk : k = i
    · subst hk
      rwa [State.iface_updIface_self] at h
    · rwa [State.iface_updIface_ne s hk] at h
  linkUp k h := by
    by_cases hk : k = i
    · subst hk
      simp at h
    · rwa [State.iface_updIface_ne s hk] at h

theorem withdraws_linkDown : Withdraws l s (s.linkDown i) := by
  unfold State.linkDown
  split
  · exact ((((withdraws_markedDown hi s).trans (.of_touches (State.sticky_touches ..) (by decide) (by decide) (by decide))).trans
      (withdraws_dropEligible hi _)).trans (.of_touches (State.ptpLinkDown_touches ..) (by decide) (by decide) (by decide))).trans
      (.of_touches (State.standDownCheck_touches _) (by decide) (by decide) (by decide))
  · exact .refl l s

end withdraw

/-! ## Removing an interface -/

section remove
variable (s : State)

/-- The interface, its queues and its addresses are gone. -/
def State.dropIf (s : State) (i : Nat) : State := { s with net := { s.net with ifaces := tdel s.net.ifaces i }, tx := tdel s.tx i }

theorem State.dropIf_iface (i k : Nat) : (s.dropIf i).iface k = if i = k then {} else s.iface k := by
  simp only [State.iface, State.dropIf, tgetD, tget_tdel]
  split <;> rfl

theorem withdraws_dropIf {l : List Nat} {i : Nat} (hi : i ∈ l) : Withdraws l s (s.dropIf i) where
  elsewhere k hk := by
    have hne : i ≠ k := fun h => hk (h ▸ hi)
    exact ⟨by rw [State.dropIf_iface, if_neg hne], by simp [State.txIf, State.dropIf, tgetD, tget_tdel_ne hne]⟩
  flows := rfl
  lane := rfl
  enabled k h := by
    rw [State.dropIf_iface] at h
    split at h
    · exact absurd h (by decide)
    · exact h
  linkUp k h := by
    rw [State.dropIf_iface] at h
    split at h
    · exact absurd h (by decide)
    · exact h

theorem State.removeIf_eq (i : Nat) : s.removeIf i =
    (((s.linkDown i).clearIfRegs i).clearRegs (0x00308000 + 0x100 * i) (0x00308100 + 0x100 * i)).dropIf i := rfl

theorem withdraws_removeIf {l : List Nat} {i : Nat} (hi : i ∈ l) : Withdraws l s (s.removeIf i) :=
  ((withdraws_linkDown hi s).trans
    (.of_touches ((State.clearIfRegs_touches ..).trans (State.clearRegs_touches ..)) (by decide) (by decide) (by decide))).trans
    (withdraws_dropIf _ hi)

theorem State.removeIf_disabled (i : Nat) : ((s.removeIf i).iface i).enabled = false := by
  rw [State.removeIf_eq, State.dropIf_iface, if_pos rfl]

theorem foldl_removeIf_disabled {xs : List Nat} {i : Nat} (hi : i ∈ xs) :
    ((xs.foldl (fun (t : State) k => t.removeIf k) s).iface i).enabled = false := by
  induction xs generalizing s with
  | nil => cases hi
  | cons k xs ih =>
    rw [List.foldl_cons]
    rcases List.mem_cons.1 hi with rfl | hi
    · have hw : Withdraws xs (s.removeIf i) (xs.foldl (fun (t : State) k => t.removeIf k) (s.removeIf i)) :=
        .foldl (fun t j hj => withdraws_removeIf t hj) _
      exact Bool.eq_false_iff.2 fun h => absurd (hw.enabled i h) (by rw [State.removeIf_disabled]; decide)
    · exact ih _ hi

end remove

theorem State.linkDown_breakout (s : State) (i : Nat) : (s.linkDown i).net.breakout = s.net.breakout := by
  unfold State.linkDown
  split
  · have hnet := (((State.dropEligible_touches ((s.updIface i fun f => { f with linkUp := false }).sticky (Reg.NET_PORT_STATUS i) 0x100) i).mono
      (by decide)).trans ((State.ptpLinkDown_touches _ i).mono (by decide))).trans
      (l := [.regs, .time, .pmu, .tx, .txc, .grp, .out]) ((State.standDownCheck_touches _).mono (by decide))
    exact congrArg (·.breakout) (hnet.same .net (by decide))
  · rfl

theorem State.removeIf_breakout (s : State) (i : Nat) : (s.removeIf i).net.breakout = s.net.breakout := s.linkDown_breakout i

/-! ## The mode of the port -/

theorem mem_insertNat (k : Nat) (l : List Nat) : k ∈ insertNat k l := by
  induction l with
  | nil => exact List.mem_singleton_self k
  | cons j l ih =>
    rw [insertNat]
    split
    · exact List.mem_cons_self ..
    · split
      · next h => exact h ▸ List.mem_cons_self ..
      · exact List.mem_cons_of_mem _ ih

/-- The ports in breakout mode once port `q` is set to `mode`. -/
def modesWith (q mode : Nat) (l : List Nat) : List Nat := if mode = 1 then insertNat q l else l.filter (· != q)

theorem modesWith_contains {q mode : Nat} (l : List Nat) : (modesWith q mode l).contains q = (mode == 1) := by
  unfold modesWith
  split
  · next h => simp [h, mem_insertNat]
  · next h => simp [h]

section mode

/-- The interfaces of the port. -/
def portIfs (p : PortConfigArg) : List Nat := rangeFrom (4 * p.port) 4

/-- The interfaces that PORT_CONFIG removes. -/
def State.goneIfs (s : State) (p : PortConfigArg) : List Nat :=
  (portIfs p).filter fun i => (s.ifExists i && !(i % 4 == 0 || p.mode == 1)) || ((s.iface i).enabled && !((keptIfs p).contains i))

/-- The interfaces of the port that PORT_CONFIG removes are gone. -/
def State.withoutGone (s : State) (p : PortConfigArg) : State := (s.goneIfs p).foldl (fun (t : State) i => t.removeIf i) s

/-- The mode of the port is set. -/
def State.setMode (s : State) (p : PortConfigArg) : State := { s with net := { s.net with breakout := modesWith p.port p.mode s.net.breakout } }

/-- The port in the mode of PORT_CONFIG; a change takes its links down. -/
def State.inMode (s : State) (p : PortConfigArg) : State :=
  if s.net.breakout.contains p.port != (p.mode == 1) then
    let t := ((portIfs p).foldl (fun (t : State) i => t.linkDown i) s).setMode p
    if p.mode = 0 then ((portIfs p).drop 1).foldl (fun (t : State) i => t.removeIf i) t else t
  else s

/-- An interface of the mask is enabled. -/
def State.enableIf (s : State) (i : Nat) : State :=
  if (s.iface i).enabled then s else (s.clearIfRegs i).updIface i fun f => { f with enabled := true }

/-- The interfaces of the mask are enabled. -/
def State.withKept (s : State) (p : PortConfigArg) : State := (keptIfs p).foldl (fun (t : State) i => t.enableIf i) s

/-- The lanes of the port follow their interfaces. -/
def State.withLanes (s : State) (p : PortConfigArg) : State :=
  (portIfs p).foldl (fun (t : State) l => t.updLane l fun x => { x with enabled := (keptIfs p).contains (t.laneIf l) }) s

/-- What PORT_CONFIG makes of the machine. -/
def State.withPort (s : State) (p : PortConfigArg) : State := (((s.withoutGone p).inMode p).withKept p).withLanes p

variable (s : State) (p : PortConfigArg)

theorem State.doPortConfig_sets (hport : p.port ≤ 3) (hmode : p.mode ≤ 1) (hen : p.enable ≤ 15) (hone : p.mode = 0 → p.enable ≤ 1)
    (hfree : ∀ i ∈ s.goneIfs p, s.ifUsed i = false) : s.doPortConfig p = (s.withPort p).done := by
  rw [State.doPortConfig, State.checked_pass]
  · rfl
  · refine List.forall_mem_cons.2 ⟨?_, List.forall_mem_singleton.2 ?_⟩
    · have hmask : (p.mode == 0 && decide (1 < p.enable)) = false := by
        by_cases h0 : p.mode = 0
        · simp [Nat.not_lt.2 (hone h0)]
        · simp [h0]
      simp only [hmask]
      simp [Nat.not_lt.2 hport, Nat.not_lt.2 hmode, Nat.not_lt.2 hen]
    · exact List.any_eq_false.2 fun i hi => by simp [hfree i hi]

theorem withdraws_withoutGone : Withdraws (portIfs p) s (s.withoutGone p) :=
  .foldl (fun t _ hi => withdraws_removeIf t (List.mem_of_mem_filter hi)) s

/-- Whatever of the port is still enabled is to stay so. -/
theorem State.withoutGone_enabled {i : Nat} (hi : i ∈ portIfs p) (h : ((s.withoutGone p).iface i).enabled = true) : i ∈ keptIfs p := by
  have hwas := (withdraws_withoutGone s p).enabled i h
  by_contra hk
  have hgone : i ∈ s.goneIfs p := List.mem_filter.2 ⟨hi, by simp [hwas, hk]⟩
  rw [State.withoutGone, foldl_removeIf_disabled s hgone] at h
  cases h

theorem withdraws_linksDown (t : State) : Withdraws (portIfs p) t ((portIfs p).foldl (fun (t : State) i => t.linkDown i) t) :=
  .foldl (fun t _ hi => withdraws_linkDown hi t) t

theorem withdraws_subPorts (t : State) : Withdraws (portIfs p) t (((portIfs p).drop 1).foldl (fun (t : State) i => t.removeIf i) t) :=
  .foldl (fun t _ hi => withdraws_removeIf t (List.mem_of_mem_drop hi)) t

theorem withdraws_setMode (t : State) : Withdraws (portIfs p) t (t.setMode p) :=
  ⟨fun _ _ => ⟨rfl, rfl⟩, rfl, rfl, fun _ => id, fun _ => id⟩

/-- But for the mode, setting it only takes interfaces of the port out of service. -/
theorem withdraws_inMode : Withdraws (portIfs p) s (s.inMode p) := by
  have hmoded : Withdraws (portIfs p) s (((portIfs p).foldl (fun (t : State) i => t.linkDown i) s).setMode p) :=
    (withdraws_linksDown p s).trans (withdraws_setMode p _)
  unfold State.inMode
  split
  · dsimp only
    split
    · exact hmoded.trans (withdraws_subPorts p _)
    · exact hmoded
  · exact .refl _ s

theorem State.inMode_breakout : (s.inMode p).net.breakout.contains p.port = (p.mode == 1) := by
  unfold State.inMode
  split
  · dsimp only
    split
    · rw [foldl_keep (fun t : State => t.net.breakout) fun t i => t.removeIf_breakout i]
      exact modesWith_contains ..
    · exact modesWith_contains ..
  · next h => simpa using h

theorem State.inMode_linkUp (h : s.net.breakout.contains p.port ≠ (p.mode == 1)) {i : Nat} (hi : i ∈ portIfs p) :
    ((s.inMode p).iface i).linkUp = false := by
  have hdown : ((((portIfs p).foldl (fun (t : State) i => t.linkDown i) s).setMode p).iface i).linkUp = false :=
    (foldl_linkDown_linkUp s (portIfs p) i).trans (by simp [hi])
  rw [State.inMode, if_pos (by simpa using h)]
  dsimp only
  split
  · exact Bool.eq_false_iff.2 fun hu => absurd ((withdraws_subPorts p _).linkUp i hu) (by simp [hdown])
  · exact hdown

/-! ## Enabling the interfaces of the mask -/

theorem State.enableIf_net (i : Nat) : (s.enableIf i).net.flows = s.net.flows ∧ (s.enableIf i).net.breakout = s.net.breakout
    ∧ (s.enableIf i).tx = s.tx ∧ (s.enableIf i).lane = s.lane := by
  unfold State.enableIf
  split
  · exact ⟨rfl, rfl, rfl, rfl⟩
  · exact ⟨rfl, rfl, rfl, rfl⟩

theorem State.enableIf_iface (i k : Nat) : (s.enableIf i).iface k = if k = i then { s.iface k with enabled := true } else s.iface k := by
  unfold State.enableIf
  split
  · next h =>
    split
    · next hk => subst hk; rw [← h]
    · rfl
  · split
    · next h => subst h; exact State.iface_updIface_self ..
    · next h => exact State.iface_updIface_ne _ h _

theorem foldl_enableIf_iface (l : List Nat) (k : Nat) : (l.foldl (fun (t : State) i => t.enableIf i) s).iface k =
    if k ∈ l then { s.iface k with enabled := true } else s.iface k := by
  induction l generalizing s with
  | nil => rfl
  | cons i l ih =>
    rw [List.foldl_cons, ih, State.enableIf_iface]
    by_cases hk : k = i <;> by_cases hl : k ∈ l <;> simp [hk, hl]

theorem State.withKept_iface (k : Nat) : (s.withKept p).iface k =
    if k ∈ keptIfs p then { s.iface k with enabled := true } else s.iface k := foldl_enableIf_iface s (keptIfs p) k

theorem State.withKept_flows : (s.withKept p).net.flows = s.net.flows :=
  foldl_keep (fun t : State => t.net.flows) (fun t i => (t.enableIf_net i).1) _ s

theorem State.withKept_breakout : (s.withKept p).net.breakout = s.net.breakout :=
  foldl_keep (fun t : State => t.net.breakout) (fun t i => (t.enableIf_net i).2.1) _ s

theorem State.withKept_tx : (s.withKept p).tx = s.tx := foldl_keep State.tx (fun t i => (t.enableIf_net i).2.2.1) _ s

theorem State.withKept_lane : (s.withKept p).lane = s.lane := foldl_keep State.lane (fun t i => (t.enableIf_net i).2.2.2) _ s

theorem State.withLanes_touches : Touches [.lane] s (s.withLanes p) := .foldl (fun _ _ => State.updLane_touches ..) _ s

theorem mem_portIfs_of_kept {i : Nat} (h : i ∈ keptIfs p) : i ∈ portIfs p := by
  obtain ⟨k, hk, rfl⟩ := List.mem_map.1 h
  have hlt := List.mem_range.1 (List.mem_of_mem_filter hk)
  exact mem_rangeFrom.2 (by omega)

/-! ## What PORT_CONFIG leaves -/

/-- What the machine `t` is after PORT_CONFIG on `s`. -/
structure PortSet (s t : State) : Prop where
  enabled : ∀ i ∈ portIfs p, (t.iface i).enabled = (keptIfs p).contains i
  elsewhere : ∀ i, i ∉ portIfs p → t.iface i = s.iface i ∧ t.txIf i = s.txIf i
  mode : t.net.breakout.contains p.port = (p.mode == 1)
  flows : t.net.flows = s.net.flows
  down : s.net.breakout.contains p.port ≠ (p.mode == 1) → ∀ i ∈ portIfs p, (t.iface i).linkUp = false
  lanes : p.port ≤ 3 → ∀ l, 16 ≤ l → t.laneOf l = s.laneOf l

theorem portSet_withPort : PortSet p s (s.withPort p) := by
  have hgone := withdraws_withoutGone s p
  have hall := hgone.trans (withdraws_inMode (s.withoutGone p) p)
  have hlane := State.withLanes_touches (((s.withoutGone p).inMode p).withKept p) p
  have hmode : (s.withoutGone p).net.breakout = s.net.breakout :=
    foldl_keep (fun t : State => t.net.breakout) (fun t i => t.removeIf_breakout i) _ s
  have hnet : (s.withPort p).net = (((s.withoutGone p).inMode p).withKept p).net := hlane.same .net (by decide)
  have hif (i : Nat) : (s.withPort p).iface i =
      if i ∈ keptIfs p then { ((s.withoutGone p).inMode p).iface i with enabled := true } else ((s.withoutGone p).inMode p).iface i :=
    (State.iface_congr hnet i).trans (State.withKept_iface ..)
  constructor
  case enabled =>
    intro i hi
    rw [hif]
    split
    · next h => simp [h]
    · next h =>
      have hoff := fun he => h (s.withoutGone_enabled p hi ((withdraws_inMode _ p).enabled i he))
      simp [h, Bool.eq_false_iff.2 hoff]
  case elsewhere =>
    intro i hi
    obtain ⟨h1, h2⟩ := hall.elsewhere i hi
    refine ⟨?_, (State.txIf_congr ((hlane.same .tx (by decide)).trans (State.withKept_tx ..)) i).trans h2⟩
    rw [hif, if_neg fun h => hi (mem_portIfs_of_kept p h), h1]
  case mode =>
    rw [hnet, State.withKept_breakout]
    exact State.inMode_breakout ..
  case flows =>
    rw [hnet, State.withKept_flows]
    exact hall.flows
  case down =>
    intro h i hi
    have hdown := State.inMode_linkUp (s.withoutGone p) p (hmode ▸ h) hi
    rw [hif]
    split
    · exact hdown
    · exact hdown
  case lanes =>
    intro hport l hl
    have hnot : l ∉ portIfs p := fun h => by
      have := mem_rangeFrom.1 h
      omega
    refine (foldl_updLane_notMem (f := fun t j x => { x with enabled := (keptIfs p).contains (t.laneIf j) }) hnot _).trans ?_
    simp only [State.laneOf, State.withKept_lane, hall.lane]

end mode

end Sys2Proof.Machine
end

section
/-!
PROOFS. The commands of ports, addresses, the flow table, queues, gate lists and lanes (R174 to R176, R181, R182, R203, R204, R276, R338 to
R341): each runs when nothing refuses it.
-/
namespace Sys2Proof.Machine
open Sys2Proof

section commands
variable {s : State} {h : CmdHdr} {g b : Nat}

theorem runs_portConfig {p : PortConfigArg} (hs : s.serves h (.portConfig p) g b = true) (hport : p.port ≤ 3) (hmode : p.mode ≤ 1)
    (hen : p.enable ≤ 15) (hone : p.mode = 0 → p.enable ≤ 1) (hfree : ∀ i ∈ s.goneIfs p, s.ifUsed i = false) :
    Runs (.portConfig h p) s h (.portConfig p) g b [] [.regs, .pmu, .time, .grp, .net, .tx, .txc, .lane] anyReg (PortSet p s) := by
  refine .of_body rfl hs fun m o _ x _ _ _ => ?_
  have hdone : (s.atBody m o).doPortConfig p = ((s.atBody m o).withPort p).done :=
    State.doPortConfig_sets _ p hport hmode hen hone hfree
  have ht := State.doPortConfig_touches (s.atBody m o) p
  rw [hdone] at ht
  have hset := portSet_withPort (s.atBody m o) p
  refine ⟨(s.atBody m o).withPort p, m.msixPend, hdone, ht.same .mbx (by decide), ?_, fun _ hr => (hr trivial).elim, fun k => ?_⟩
  · exact ((s.atBody_touches m o).mono (by decide)).then ht (by decide)
  · obtain ⟨henabled, helse, hm, hf, hdown, hlanes⟩ := hset
    exact ⟨henabled, helse, hm, hf, hdown, hlanes⟩

theorem runs_netAddress {p : NetAddressArg} (hs : s.serves h (.netAddress p) g b = true) (hi : s.ifExists p.iface = true)
    (hm : p.mac.toNat.testBit 40 = false)
    (hc : ∀ c, s.time.cfg = some c → c.delayMode = 0 ∨ (c.portPrimary ≠ p.iface ∧ c.portSecondary ≠ p.iface)) :
    Runs (.netAddress h p) s h (.netAddress p) g b [] [.net] noReg fun t =>
      t.iface p.iface = (s.iface p.iface).withAddresses p ∧ (∀ i, i ≠ p.iface → t.iface i = s.iface i) ∧ t.net.flows = s.net.flows :=
  .of_answer (f := (·.updIface p.iface (Iface.withAddresses p))) rfl hs (by decide)
    (fun _ _ _ => State.doNetAddress_sets (s := s.atBody _ _) hi hm hc) (fun _ _ => State.updIface_touches ..) (fun _ _ _ _ => rfl)
    fun m o _ => ⟨State.iface_updIface_self (s.atBody m o) .., fun _ hne => State.iface_updIface_ne (s.atBody m o) hne _, rfl⟩

theorem runs_netAddress_ptp {p : NetAddressArg} {c : TimeConfigArg} {u : State} (hs : s.serves h (.netAddress p) g b = true)
    (hi : s.ifExists p.iface = true) (hm : p.mac.toNat.testBit 40 = false) (hc : s.time.cfg = some c) (hmode : c.delayMode = 1)
    (hp : c.portPrimary = p.iface ∨ c.portSecondary = p.iface)
    (hu : (s.updIface p.iface (Iface.withAddresses p)).setPtpEntries c = some u) :
    Runs (.netAddress h p) s h (.netAddress p) g b [] [.regs, .time, .chans, .ext, .aud, .net, .tx] anyReg fun t =>
      t.net = u.net ∧ t.time.flows = u.time.flows ∧ (t.iface p.iface).mac = some p.mac := by
  have hat (m : MbxState) (o : List Out) :
      ((s.atBody m o).updIface p.iface (Iface.withAddresses p)).setPtpEntries c = some (u.atBody m o) :=
    (State.setPtpEntries_atBody (s.updIface p.iface (Iface.withAddresses p)) m o c).trans (congrArg (Option.map _) hu)
  have hmac : (u.iface p.iface).mac = some p.mac := by
    rw [State.iface, State.setPtpEntries_ifaces hu]
    exact congrArg Iface.mac (State.iface_updIface_self ..)
  exact .of_answer (f := fun t => u.atBody t.mbx t.out) rfl hs (by decide)
    (fun m o _ => State.doNetAddress_follows (s := s.atBody m o) hi hm hc hmode hp (hat m o))
    (fun m o => ((State.updIface_touches ..).mono (by decide)).trans (State.setPtpEntries_touches (hat m o)))
    (fun _ _ _ hr => (hr trivial).elim) fun _ _ _ => ⟨rfl, rfl, hmac⟩

/-! ## The flow table -/

section add
variable {a : FlowArg} (hs : s.serves h (.flowAdd a) g b = true) (hok : s.flowArgOk a = true)
  (hnew : findKey s.net.flows (keyOf a) = none)
include hs hok hnew

theorem runs_flowAdd_unmoved {x : Nat} (hp : placement s.net.flows (keyOf a) = some ([], x)) :
    Runs (.flowAdd h a) s h (.flowAdd a) g b (leBytes 4 x) [.regs, .net, .tx] anyReg fun t =>
      t.net.flows = tset s.net.flows x { arg := a, bucket := burstEff a * 1024, at_ := s.time.now } ∧ t.net.ifaces = s.net.ifaces
        ∧ t.net.members = wantedGroups t.net.flows
        ∧ (groupsOf a = [] → s.net.members = wantedGroups t.net.flows → t.regs = s.regs ∧ t.tx = s.tx) := by
  refine .of_answer (f := fun t => (t.insertFlow a [] x).syncMembers [a]) rfl hs (by decide)
    (fun m o _ => State.doFlowAdd_places (s := s.atBody m o) hok hnew hp) (fun m o => ?_) (fun _ _ _ hr => (hr trivial).elim) fun m o _ => ?_
  · rw [State.insertFlow_unmoved]
    exact (Touches.set_net (by decide) _).mpr (.refl _ _) |>.trans (State.syncMembers_touches ..)
  · dsimp only
    rw [State.syncMembers_net, State.insertFlow_unmoved]
    refine ⟨rfl, rfl, rfl, fun hnone hheld => ?_⟩
    rw [State.syncMembers_quiet (by simp [hnone]) hheld]
    exact ⟨rfl, rfl⟩

theorem runs_flowAdd_moved {m : List (Nat × Nat)} {x : Nat} (hp : placement s.net.flows (keyOf a) = some (m, x)) (hk : a.kind ≠ 4) :
    Runs (.flowAdd h a) s h (.flowAdd a) g b (leBytes 4 x) [.regs, .time, .chans, .ext, .aud, .net, .tx] anyReg fun t =>
      tget t.net.flows x = some { arg := a, bucket := burstEff a * 1024, at_ := s.time.now } := by
  refine .of_answer (f := fun t => (t.insertFlow a m x).syncMembers [a]) rfl hs (by decide)
    (fun m o _ => State.doFlowAdd_places (s := s.atBody m o) hok hnew hp) (fun _ _ => ?_) (fun _ _ _ hr => (hr trivial).elim) fun k o _ => ?_
  · exact ((State.insertFlow_touches ..).mono (by decide)).trans ((State.syncMembers_touches ..).mono (by decide))
  · dsimp only
    rw [State.syncMembers_net]
    exact State.insertFlow_get (s.atBody k o) hk m x

theorem does_flowAdd_full (hp : placement s.net.flows (keyOf a) = none) :
    Does (.flowAdd h a) s [.regs, .mbx, .out] (regIn [Reg.NET_FLOW_REFUSALS, Reg.NET_FLOW_STATUS]) fun t =>
      t.rd Reg.NET_FLOW_REFUSALS = s.rd Reg.NET_FLOW_REFUSALS + 1 ∧ t.rd Reg.NET_FLOW_STATUS = (s.rd Reg.NET_FLOW_STATUS ||| 0x10000)
        ∧ tget t.mbx.blocks (32 * h.pair + b) = some (completionOf h 0x0403 eNoCapacity false []) := by
  have hne : Reg.NET_FLOW_REFUSALS ≠ Reg.NET_FLOW_STATUS := by decide
  obtain ⟨t, hx, ht, hr, ⟨hcount, hsticky⟩, hblock⟩ := Does.of_counted_refusal (i := .flowAdd h a) (p := .flowAdd a) (l := [.regs])
    (f := fun t => (t.bump Reg.NET_FLOW_REFUSALS).sticky Reg.NET_FLOW_STATUS 0x10000)
    (r := regIn [Reg.NET_FLOW_REFUSALS, Reg.NET_FLOW_STATUS])
    (P := fun t => t.rd Reg.NET_FLOW_REFUSALS = s.rd Reg.NET_FLOW_REFUSALS + 1
      ∧ t.rd Reg.NET_FLOW_STATUS = (s.rd Reg.NET_FLOW_STATUS ||| 0x10000)) rfl hs
    (fun m o _ => State.doFlowAdd_refuses (s := s.atBody m o) hok hnew hp)
    (fun _ _ => (State.bump_touches ..).trans (State.sticky_touches ..))
    (fun m o off hoff => by
      simp only [regIn, List.mem_cons, List.not_mem_nil, or_false, not_or] at hoff
      exact (State.sticky_rd_ne _ (Ne.symm hoff.2) _).trans (State.bump_rd_ne (s.atBody m o) (Ne.symm hoff.1)))
    fun m o _ => ⟨(State.sticky_rd_ne _ (Ne.symm hne) _).trans (State.bump_rd_self (s.atBody m o) _),
      (State.sticky_rd_self ..).trans (congrArg (· ||| 0x10000) (State.bump_rd_ne (s.atBody m o) hne))⟩
  exact ⟨t, hx, ht.mono (by decide), hr, hcount, hsticky, hblock⟩

end add

theorem runs_flowDelete {x : Nat} (hs : s.serves h (.flowDelete x) g b = true) (hx : x ≤ 32767) (hhas : thas s.net.flows x = true)
    (hn : s.flowNamed x = false) : Runs (.flowDelete h x) s h (.flowDelete x) g b [] [.regs, .net, .tx] anyReg fun t =>
      t.net.flows = tdel s.net.flows x ∧ t.net.ifaces = s.net.ifaces ∧ t.net.merges = s.net.merges
        ∧ t.net.members = wantedGroups t.net.flows ∧ (s.net.members = wantedGroups t.net.flows → t.regs = s.regs ∧ t.tx = s.tx) := by
  refine .of_answer (f := fun t => (t.removeFlow x).syncMembers []) rfl hs (by decide)
    (fun m o _ => State.doFlowDelete_removes (s := s.atBody m o) hx hhas hn) (fun _ _ => ?_) (fun _ _ _ hr => (hr trivial).elim) fun m o _ => ?_
  · exact ((State.removeFlow_touches ..).mono (by decide)).trans (State.syncMembers_touches ..)
  · dsimp only
    rw [State.syncMembers_net]
    refine ⟨rfl, rfl, rfl, rfl, fun hheld => ?_⟩
    rw [State.syncMembers_quiet rfl hheld]
    exact ⟨rfl, rfl⟩

/-! ## Queues, gate lists and lanes -/

/-- A command whose work is a change of the egress of one interface. -/
theorem Runs.of_updTx {i : Instr} {p : Payload} {k : Nat} {f : TxIface → TxIface} (hx : exec i s = .next (s.runCommand h p))
    (hs : s.serves h p g b = true) (hb : ∀ m o x, (s.atBody m o).body x p = ((s.atBody m o).updTx k f).done) :
    Runs i s h p g b [] [.tx] noReg fun t => t.txIf k = f (s.txIf k) ∧ ∀ j, j ≠ k → t.txIf j = s.txIf j :=
  .of_answer (f := (·.updTx k f)) hx hs (by decide) hb (fun _ _ => State.updTx_touches ..) (fun _ _ _ _ => rfl) fun m o _ =>
    ⟨State.txIf_updTx_self (s.atBody m o) .., fun _ hj => State.txIf_updTx_ne (s.atBody m o) _ hj⟩

theorem runs_gateListSet {p : GateListArg} {es : List (BitVec 16 × Nat)} (hs : s.serves h (.gateListSet p) g b = true)
    (hb : ∀ m o, (s.atBody m o).doGateListSet p = ((s.atBody m o).updTx p.iface (·.withPending (s.gateListOf p es))).done) :
    Runs (.gateListSet h p) s h (.gateListSet p) g b [] [.tx] noReg fun t =>
      t.txIf p.iface = (s.txIf p.iface).withPending (s.gateListOf p es) ∧ ∀ i, i ≠ p.iface → t.txIf i = s.txIf i :=
  .of_updTx rfl hs fun m o _ => hb m o

theorem runs_laneConfig {p : LaneConfigArg} (hs : s.serves h (.laneConfig p) g b = true) (hl : p.lane ≤ 25) (hlb : p.loopback ≤ 3)
    (hpt : p.pattern ≤ 1) (he : p.enable ≤ 1) (hx : ¬ (p.pattern = 1 ∧ p.loopback = 3)) (hc : cursorsOk p = true)
    (hu : s.laneInUse p.lane = false) : Runs (.laneConfig h p) s h (.laneConfig p) g b [] [.lane] noReg fun t =>
      (t.laneOf p.lane).loopback = p.loopback ∧ (t.laneOf p.lane).pattern = (p.pattern == 1) ∧ (t.laneOf p.lane).enabled = (p.enable == 1)
        ∧ (p.lane < 16 → (t.laneOf p.lane).pre = p.pre ∧ (t.laneOf p.lane).main = p.main ∧ (t.laneOf p.lane).post = p.post)
        ∧ (∀ l, l ≠ p.lane → lanePort l ≠ lanePort p.lane ∨ p.lane < 16 → t.laneOf l = s.laneOf l) := by
  refine .of_answer (f := (·.withLaneConfig p)) rfl hs (by decide)
    (fun m o _ => State.doLaneConfig_sets (s := s.atBody m o) hl hlb hpt he hx hc hu) (fun _ _ => State.withLaneConfig_touches p)
    (fun m o _ _ => congrArg (bget · _) ((State.withLaneConfig_touches (s := s.atBody m o) p).same .regs (by decide))) fun m o k => ?_
  have hset := State.withLaneConfig_setting (s := s.atBody m o) p p.lane
  rw [State.laneOf_updLane, if_pos rfl] at hset
  obtain ⟨hloop, hpat, hen, hcur⟩ := Lane.setting_withConfig p _ hset
  exact ⟨hloop, hpat, hen, hcur, fun _ hne ho => State.withLaneConfig_other (s := s.atBody m o) p hne ho⟩

end commands

/-- Settles O54: every body passes its checks and does its work, on a machine that the mailboxes do not concern. -/
theorem netCommands : Obligations.NetCommands := by
  unfold Obligations.NetCommands
  refine ⟨?ports, ?addresses, ?ptpAddresses, ?flowAdd, ?places, ?flowDelete, ?queues, ?gates, ?lanes⟩
  case ports =>
    intro s h g b p hs keep all hport hmode hen hone hfree
    have hgone : ∀ i ∈ s.goneIfs p, s.ifUsed i = false := fun i hi => by
      obtain ⟨hall, hwhy⟩ := List.mem_filter.1 hi
      refine hfree i hall ?_
      simp only [Bool.or_eq_true, Bool.and_eq_true, Bool.not_eq_true', List.contains_eq_mem, decide_eq_false_iff_not, Bool.or_eq_false_iff,
        beq_eq_false_iff_ne] at hwhy
      rcases hwhy with ⟨hex, hsub, hm⟩ | hkept
      · exact .inr ⟨hex, by omega, hsub⟩
      · exact .inl hkept
    exact (runs_portConfig hs hport hmode hen hone hgone).imp fun t ⟨henabled, helse, hm, hf, hdown, hlanes⟩ =>
      ⟨henabled, fun i _ => helse i, hm, hf, hdown, fun l hl _ => hlanes hport l hl⟩
  case addresses => exact fun s h g b p hs hi hm hc => runs_netAddress hs hi hm hc
  case ptpAddresses => exact fun s h g b p c hs hi hm hc hmode hp u hu => runs_netAddress_ptp hs hi hm hc hmode hp hu
  case flowAdd =>
    exact fun s h g b a hs hok hnew => ⟨fun x hp => runs_flowAdd_unmoved hs hok hnew hp,
      fun m x hp hk => runs_flowAdd_moved hs hok hnew hp hk, does_flowAdd_full hs hok hnew⟩
  case places => exact fun t a => ⟨fun x => placement_way0, fun x => placement_way1, fun m x => placement_bounds⟩
  case flowDelete => exact fun s h g b x hs hx hhas hn => runs_flowDelete hs hx hhas hn
  case queues =>
    intro s h g b p hs hi hq hw h64 h9216 u ho hp
    exact .of_updTx rfl hs fun m o _ => State.doTxQueueConfig_sets (s := s.atBody m o) hi hq hw h64 h9216 ho hp
  case gates =>
    intro s h g b p hs hi hb hlo hhi hn set
    refine ⟨?_, ?_⟩
    · intro hc hg
      exact runs_gateListSet hs fun m o => State.doGateListSet_empty (s := s.atBody m o) hi hb hlo hhi hc hg
    · intro f hc hf word es he hz hg
      exact runs_gateListSet hs fun m o => State.doGateListSet_filled (s := s.atBody m o) hi hb hlo hhi hn hc hf he hz hg
  case lanes => exact fun s h g b p hs hl hlb hpt he hx hc hu => runs_laneConfig hs hl hlb hpt he hx hc hu

end Sys2Proof.Machine
end

section
/-!
PROOFS. From the lines received to a row of the source (R31, R37 to R39, R189): the steps of a row deadline, each by what it makes of the
view that the statement has of the row, its picture and its channel.
-/
namespace Sys2Proof.Machine
open Sys2Proof

/-! ## What a row deadline changes -/

/-- What a row deadline may change of a row, of its picture and of its channel, beside the layers, the references and the other rows; and
the rest of the channel. -/
structure RowView where
  rest : Chan
  video : Tab PxLine
  anyInput : Bool
  inputLost : Bool
  isRepeat : Bool
  input : Bool
  entered : Bool
  agreed : Option (List Nat)
  concealed : List Nat

/-- The view with what an operation on the row makes of it. -/
def RowView.withRow (v : RowView) (x : Row) : RowView := { v with entered := x.entered, agreed := x.agreed, concealed := x.concealed }

/-- The view of row `r` of a picture of the channel. -/
def Chan.rowView (ch : Chan) (p : Pic) (r : Nat) : RowView :=
  { rest := { ch with pics := [], layers := {}, refs := default, inputLost := false }
    video := ch.layers.video, anyInput := ch.layers.anyInput, inputLost := ch.inputLost, isRepeat := p.isRepeat, input := p.input
    entered := (p.row r).entered, agreed := (p.row r).agreed, concealed := (p.row r).concealed }

/-- Row `r` of picture `n` of the channel is there, and this is the view of it. -/
def Chan.Shows (ch : Chan) (n r : Nat) (v : RowView) : Prop := ∃ p, ch.pic? n = some p ∧ ch.rowView p r = v

namespace Chan.Shows
variable {ch : Chan} {n r : Nat} {v : RowView}

theorem updPic {f : Pic → Pic} {g : RowView → RowView} (h : ch.Shows n r v)
    (hf : ∀ p, ch.pic? n = some p → ch.rowView (f p) r = g (ch.rowView p r)) : (ch.updPic n f).Shows n r (g v) := by
  obtain ⟨p, hp, rfl⟩ := h
  exact ⟨f p, by rw [Chan.pic?_updPic, if_pos rfl, hp]; rfl, hf p hp⟩

theorem updRow {f : Row → Row} {g : RowView → RowView} (h : ch.Shows n r v)
    (hf : ∀ p : Pic, (ch.rowView p r).withRow (f (p.row r)) = g (ch.rowView p r)) : (ch.updRow n r f).Shows n r (g v) := by
  refine h.updPic fun p _ => ?_
  rw [← hf p, Chan.rowView, Pic.row_updRow, if_pos rfl]
  rfl

/-- The coded source of a row is not in view. -/
theorem putCoded (h : ch.Shows n r v) (from_ q : Nat) : (ch.putCoded n from_ q).Shows n r v := by
  unfold Chan.putCoded
  split
  · refine h.updPic (g := id) fun p _ => ?_
    simp only [Chan.rowView, Pic.row_updRow, id]
    split
    · next hq => subst hq; rfl
    · rfl
  · exact h

/-- A change of the layers that leaves the video layer alone. -/
theorem layers {l : LayerState} (h : ch.Shows n r v) (hv : l.video = ch.layers.video) (ha : l.anyInput = ch.layers.anyInput) :
    Chan.Shows { ch with layers := l } n r v := by
  obtain ⟨p, hp, rfl⟩ := h
  exact ⟨p, hp, by simp only [Chan.rowView, hv, ha]⟩

theorem takeCut (h : ch.Shows n r v) (q : RunCfg) (k : Nat) : (ch.takeCut q k).Shows n r v := by
  unfold Chan.takeCut
  split
  · exact h
  · exact h

theorem closeStats (h : ch.Shows n r v) (q : RunCfg) (k : Nat) : (ch.closeStats q k).Shows n r v := (h.takeCut q k).layers rfl rfl

/-- Row 0 makes the picture a repeat while input is lost, or ends the loss (R38). -/
theorem rowZero (h : ch.Shows n r v) (came : Bool) :
    (ch.rowZero n came).Shows n r (if v.inputLost && !came then { v with isRepeat := true } else { v with inputLost := false }) := by
  have hlost : v.inputLost = ch.inputLost := by
    obtain ⟨p, -, rfl⟩ := h
    rfl
  by_cases hl : (v.inputLost && !came) = true
  · rw [if_pos hl, Chan.rowZero, if_pos (hlost ▸ hl)]
    refine h.updPic (g := fun v => { v with isRepeat := true }) fun p _ => ?_
    rfl
  · rw [if_neg hl, Chan.rowZero, if_neg (hlost ▸ hl)]
    have hend : Chan.Shows { ch with inputLost := false } n r { v with inputLost := false } := by
      obtain ⟨p, hp, rfl⟩ := h
      exact ⟨p, hp, rfl⟩
    refine hend.updPic (g := id) fun p _ => ?_
    rfl

end Chan.Shows

/-- Row `r` of picture `n` of channel `c` is there, and this is the view of it. -/
def State.Shows (s : State) (c n r : Nat) (v : RowView) : Prop := ∃ ch, tget s.chans c = some ch ∧ ch.Shows n r v

/-! ## The frame of a row deadline -/

/-- The registers of a row deadline (R141, R146, R407). -/
def rowCells (c : Nat) : List Nat :=
  [Reg.CHN_CONCEALED_LINES c, Reg.CHN_STATUS c, Reg.LYR_STF_ERRORS c, Reg.LYR_STATUS c, Reg.LYR_FLIPS c, Reg.LYR_FLIP_RESULT c]

/-- The step from `s` to `t` is within what a row deadline of channel `c` touches. -/
structure RowFrame (c : Nat) (s t : State) : Prop where
  touches : Touches [.regs, .pmu, .chans] s t
  regs : ∀ off, ¬ regOrPmu (rowCells c) off → t.rd off = s.rd off
  others : ∀ j, j ≠ c → tget t.chans j = tget s.chans j

namespace RowFrame
variable {c : Nat} {s t u : State}

theorem refl (c : Nat) (s : State) : RowFrame c s s := ⟨.refl _ s, fun _ _ => rfl, fun _ _ => rfl⟩

theorem trans (a : RowFrame c s t) (b : RowFrame c t u) : RowFrame c s u :=
  ⟨a.touches.trans b.touches, fun off h => (b.regs off h).trans (a.regs off h), fun j h => (b.others j h).trans (a.others j h)⟩

theorem updChan (s : State) (f : Chan → Chan) : RowFrame c s (s.updChan c f) :=
  ⟨(State.updChan_touches ..).mono (by decide), fun _ _ => rfl, fun _ h => tget_tupd_ne (Ne.symm h) ..⟩

theorem sticky {k : Nat} (hk : k ∈ rowCells c) (s : State) (m : Word) : RowFrame c s (s.sticky k m) :=
  ⟨(State.sticky_touches ..).mono (by decide), fun _ h => State.sticky_rd_ne s (fun e => h (.inl (by rwa [← e]))) m,
    fun j _ => congrArg (tget · j) ((State.sticky_touches ..).same .chans (by decide))⟩

theorem countSticky {o k : Nat} (ho : o ∈ rowCells c) (hk : k ∈ rowCells c) (s : State) (n : Nat) (m : Word) :
    RowFrame c s ((s.bumpBy o n).sticky k m) := by
  have ht : Touches [.regs] s ((s.bumpBy o n).sticky k m) := (State.bumpBy_touches ..).trans (State.sticky_touches ..)
  refine ⟨ht.mono (by decide), fun off h => ?_, fun j _ => congrArg (tget · j) (ht.same .chans (by decide))⟩
  have hne : ∀ x ∈ rowCells c, x ≠ off := fun x hx e => h (.inl (e ▸ hx))
  exact (State.sticky_rd_ne _ (hne k hk) m).trans (State.rd_wr_ne (hne o ho) ..)

theorem pmuEvent (s : State) (k i : Nat) : RowFrame c s (s.pmuEvent k i) :=
  ⟨(State.pmuEvent_touches ..).mono (by decide), fun _ h => State.pmuEvent_rd_ne s k i fun hp => h (.inr hp),
    fun j _ => congrArg (tget · j) ((State.pmuEvent_touches s k i).same .chans (by decide))⟩

end RowFrame

/-- A step within the frame of the deadline after which the row shows `v`. -/
structure RowStage (c n r : Nat) (s t : State) (v : RowView) : Prop where
  frame : RowFrame c s t
  shows : t.Shows c n r v

namespace RowStage
variable {c n r : Nat} {s t u : State} {v w : RowView}

theorem trans (a : RowStage c n r s t v) (b : t.Shows c n r v → RowStage c n r t u w) : RowStage c n r s u w :=
  ⟨a.frame.trans (b a.shows).frame, (b a.shows).shows⟩

theorem updChan {f : Chan → Chan} (h : s.Shows c n r v) (hf : ∀ ch, ch.Shows n r v → (f ch).Shows n r w) :
    RowStage c n r s (s.updChan c f) w := by
  obtain ⟨ch, hc, hs⟩ := h
  exact ⟨.updChan s f, f ch, State.updChan_self hc f, hf ch hs⟩

/-- A step that leaves the channels alone. -/
theorem of_chans (h : s.Shows c n r v) (hf : RowFrame c s t) (hc : t.chans = s.chans) : RowStage c n r s t v :=
  ⟨hf, by obtain ⟨ch, hch, hs⟩ := h; exact ⟨ch, hc ▸ hch, hs⟩⟩

theorem onChan {f : Chan → State → State} (h : s.Shows c n r v)
    (hf : ∀ ch, tget s.chans c = some ch → ch.Shows n r v → RowStage c n r s (f ch s) w) : RowStage c n r s (s.onChan c f) w := by
  obtain ⟨ch, hc, hs⟩ := h
  rw [State.onChan_some hc]
  exact hf ch hc hs

end RowStage

/-! ## Flips told and the front state latched (R146, R147) -/

section stages
variable {s : State} {c n r : Nat} {v : RowView}

theorem rowStage_tellFlips (h : s.Shows c n r v) : RowStage c n r s (s.tellFlips c) v := by
  refine .onChan h fun ch _ _ => ?_
  refine List.foldlRecOn (motive := fun t => RowStage c n r s t v) _ _ (.updChan h fun a ha => ha.layers rfl rfl)
    fun t ht g _ => ht.trans fun h => ?_
  exact .of_chans h (.countSticky (by simp [rowCells]) (by simp [rowCells]) t 1 _) rfl

theorem State.tellFlips_rd {off : Nat} (h : Reg.LYR_FLIPS c ≠ off) (h' : Reg.LYR_FLIP_RESULT c ≠ off) : (s.tellFlips c).rd off = s.rd off := by
  unfold State.tellFlips State.onChan
  split
  · rfl
  · exact foldl_keep (fun t : State => t.rd off) (fun t g => (State.sticky_rd_ne _ h' _).trans (State.bump_rd_ne t h)) _ _

theorem rowStage_latchFront (h : s.Shows c n r v) : RowStage c n r s (s.latchFront c n) v :=
  .updChan h fun _ ha => ha.layers rfl rfl

/-! ## A row of a repeat picture (R38) -/

theorem rowStage_repeatRow (h : s.Shows c n r v) : RowStage c n r s (s.repeatRow c n r) { v with entered := true } := by
  refine .updChan h fun ch hs => ?_
  have hin : (ch.updRow n r fun x => { x with entered := true }).Shows n r { v with entered := true } :=
    hs.updRow (g := fun v => { v with entered := true }) fun _ => rfl
  dsimp only
  split
  · split
    · exact hin.putCoded _ _
    · exact hin
  · exact hin

end stages

/-! ## The row composed (R37, R132) -/

/-- Something noted, where there is any: its number in a count, and a sticky bit. -/
def State.noted (s : State) (o k : Nat) (m : Word) (l : List Nat) : State :=
  if l.isEmpty then s else (s.bumpBy o l.length).sticky k m

section noted
variable (s : State) {o k off : Nat} (m : Word) (l : List Nat)

theorem State.noted_touches : Touches [.regs] s (s.noted o k m l) := by
  unfold State.noted
  split
  · exact .refl _ s
  · exact (State.bumpBy_touches ..).trans (State.sticky_touches ..)

theorem State.noted_rd_ne (ho : o ≠ off) (hk : k ≠ off) : (s.noted o k m l).rd off = s.rd off := by
  unfold State.noted
  split
  · rfl
  · exact (State.sticky_rd_ne _ hk m).trans (State.rd_wr_ne ho ..)

theorem State.noted_rd_count (h : k ≠ o) : (s.noted o k m l).rd o = s.rd o + BitVec.ofNat 32 l.length := by
  unfold State.noted
  split
  · next he => rw [List.isEmpty_iff.1 he]; exact (BitVec.add_zero _).symm
  · exact (State.sticky_rd_ne _ h m).trans (State.rd_wr_self ..)

theorem State.noted_rd_bits (h : o ≠ k) : (s.noted o k m l).rd k = if l.isEmpty then s.rd k else s.rd k ||| m := by
  unfold State.noted
  split
  · rfl
  · exact (State.sticky_rd_self ..).trans (congrArg (· ||| m) (State.rd_wr_ne h ..))

variable {s} in
theorem rowStage_noted {c n r : Nat} {v : RowView} (h : s.Shows c n r v) (ho : o ∈ rowCells c) (hk : k ∈ rowCells c) :
    RowStage c n r s (s.noted o k m l) v := by
  refine .of_chans h ?_ ((s.noted_touches m l).same .chans (by decide))
  unfold State.noted
  split
  · exact .refl c s
  · exact .countSticky ho hk s _ m

end noted

/-- Lines put in place from line `first` on. -/
def putLines (first : Nat) (l : List PxLine) (t : Tab PxLine) : Tab PxLine := l.zipIdx.foldl (fun t e => tset t (first + e.2) e.1) t

/-- The view of a row once it is composed of `lines`, `lost` of them concealed. -/
def RowView.composed (v : RowView) (first : Nat) (lines : List PxLine) (lost : List Nat) : RowView :=
  { v with
    video := putLines first lines v.video, anyInput := v.anyInput || decide (lost.length < lines.length)
    input := v.input || decide (lost.length < lines.length), entered := true, concealed := lost }

section compose
variable {s : State} {c n r : Nat} {ch : Chan} {p : Pic}

/-- Composition: the channel takes the row, what was concealed and what was malformed is noted, and rows of the coded source follow. -/
theorem Chan.shows_of_layers_pic_row {l : LayerState} {f : Pic → Pic} {g : Row → Row} {v : RowView} (hp : ch.pic? n = some p)
    (hv : Chan.rowView { ch with layers := l } ((f p).updRow r g) r = v) :
    Chan.Shows ((Chan.updPic { ch with layers := l } n f).updRow n r g) n r v := by
  refine ⟨(f p).updRow r g, ?_, hv⟩
  have hf : (Chan.updPic { ch with layers := l } n f).pic? n = some (f p) := by
    rw [Chan.pic?_updPic, if_pos rfl]
    exact congrArg (Option.map f) hp
  rw [Chan.updRow, Chan.pic?_updPic, if_pos rfl, hf]
  rfl

theorem State.composeRow_eq (hc : tget s.chans c = some ch) (hp : ch.pic? n = some p) (hr : r < ch.cfg.main.rows) (lost : List Nat) :
    ∃ f g new, s.composeRow c n r lost = (((((s.updChan c f).pmuEvent 4 0).noted (Reg.CHN_CONCEALED_LINES c) (Reg.CHN_STATUS c) 0x400 lost).noted
        (Reg.LYR_STF_ERRORS c) (Reg.LYR_STATUS c) 0x200000 new).updChan c g)
      ∧ (f ch).Shows n r ((ch.rowView p r).composed (r * ch.cfg.main.ctuSize) (s.rowVideo c ch n r lost) lost)
      ∧ ∀ a v, a.Shows n r v → (g a).Shows n r v := by
  rw [State.composeRow, State.onRow_some (State.hasDu_iff.2 ⟨ch, p, hc, hp, hr⟩) hc hp]
  refine ⟨_, _, _, rfl, ?_, fun a v h => ?_⟩
  · refine Chan.shows_of_layers_pic_row hp ?_
    simp only [Chan.rowView, Pic.row_updRow, if_pos, RowView.composed, List.length_map]
    rfl
  · dsimp only
    split
    · split
      · exact (h.putCoded _ _).putCoded _ _
      · exact h.putCoded _ _
    · split
      · exact h.putCoded _ _
      · exact h

theorem rowStage_composeRow (hc : tget s.chans c = some ch) (hp : ch.pic? n = some p) (hr : r < ch.cfg.main.rows) (lost : List Nat) :
    RowStage c n r s (s.composeRow c n r lost)
      ((ch.rowView p r).composed (r * ch.cfg.main.ctuSize) (s.rowVideo c ch n r lost) lost) := by
  obtain ⟨f, g, new, heq, hf, hg⟩ := State.composeRow_eq hc hp hr lost
  rw [heq]
  have htaken : RowStage c n r s (s.updChan c f) _ := ⟨.updChan s f, f ch, State.updChan_self hc f, hf⟩
  refine RowStage.trans ?_ fun h => .updChan h fun a ha => hg a _ ha
  refine RowStage.trans ?_ fun h => rowStage_noted _ _ h (by simp [rowCells]) (by simp [rowCells])
  refine RowStage.trans ?_ fun h => rowStage_noted _ _ h (by simp [rowCells]) (by simp [rowCells])
  exact htaken.trans fun h => .of_chans h (.pmuEvent _ 4 0) ((State.pmuEvent_touches ..).same .chans (by decide))

/-- What composition counts of the lines concealed (R37). -/
theorem State.composeRow_rd (hc : tget s.chans c = some ch) (hp : ch.pic? n = some p) (hr : r < ch.cfg.main.rows) (lost : List Nat) :
    (s.composeRow c n r lost).rd (Reg.CHN_CONCEALED_LINES c) = s.rd (Reg.CHN_CONCEALED_LINES c) + BitVec.ofNat 32 lost.length
      ∧ (lost ≠ [] → wbit ((s.composeRow c n r lost).rd (Reg.CHN_STATUS c)) 10 = true) := by
  obtain ⟨f, g, new, heq, -, -⟩ := State.composeRow_eq hc hp hr lost
  have hmix : Reg.CHN_STATUS c ≠ Reg.CHN_CONCEALED_LINES c := by unfold Reg.CHN_STATUS Reg.CHN_CONCEALED_LINES; omega
  rw [heq]
  constructor
  · refine (State.noted_rd_ne _ _ new ?_ ?_).trans ((State.noted_rd_count _ _ lost hmix).trans
      (congrArg (· + BitVec.ofNat 32 lost.length) (State.pmuEvent_rd (s.updChan c f) 4 0 _ ?_)))
    all_goals unfold Reg.CHN_CONCEALED_LINES
    · unfold Reg.LYR_STF_ERRORS; omega
    · unfold Reg.LYR_STATUS; omega
    · omega
  · intro hl
    have hbit : ∀ w : Word, wbit (w ||| 0x400) 10 = true := fun w => by rw [wbit_or]; exact Bool.or_true _
    refine (congrArg (wbit · 10) ((State.noted_rd_ne _ _ new ?_ ?_).trans (State.noted_rd_bits _ _ lost (Ne.symm hmix)))).trans ?_
    · unfold Reg.LYR_STF_ERRORS Reg.CHN_STATUS; omega
    · unfold Reg.LYR_STATUS Reg.CHN_STATUS; omega
    · rw [if_neg (by simpa using hl)]
      exact hbit _

end compose

/-! ## The end of a composed picture (R38, R39) -/

section close
variable {s : State} {c n r : Nat} {v : RowView}

/-- Whether the picture ends with input lost: no line of it has come, of a channel that has had input before. -/
def RowView.dark (v : RowView) : Bool := !v.input && v.anyInput

theorem RowView.composed_dark {first : Nat} {lines : List PxLine} {lost : List Nat} (h : ¬ lost.length < lines.length) :
    (v.composed first lines lost).dark = v.dark := by
  simp [RowView.dark, RowView.composed, h]

/-- The statistics close; then flips are told, or the loss is noted. -/
theorem rowStage_closePicture (h : s.Shows c n r v) :
    RowStage c n r s (s.closePicture c n) (if v.dark then { v with inputLost := true } else v) := by
  refine .onChan h fun ch hc hs => ?_
  obtain ⟨p, hp, hv⟩ := id hs
  have hdark : v.dark = (!p.input && ch.layers.anyInput) := by rw [← hv]; rfl
  have hclosed : RowStage c n r s (s.updChan c fun ch => ch.closeStats p.cfg n) v := .updChan h fun a ha => ha.closeStats _ _
  rw [hp]
  cases hd : v.dark with
  | false =>
    rw [if_neg Bool.false_ne_true, if_pos (by rw [hd] at hdark; cases hi : p.input <;> simp_all)]
    exact hclosed.trans rowStage_tellFlips
  | true =>
    rw [if_pos rfl, if_neg (by rw [hd] at hdark; simp_all)]
    refine RowStage.trans ?_ fun h => .of_chans h (.sticky (by simp [rowCells]) _ 0x100) rfl
    refine hclosed.trans fun h => .updChan h fun a ha => ?_
    obtain ⟨q, hq, rfl⟩ := ha
    refine Chan.Shows.updPic (ch := { a with inputLost := true }) (g := id) ⟨q, hq, rfl⟩ fun p _ => ?_
    rfl

/-- No register of a channel's flips is one of its counts of input. -/
theorem flipCells_ne (c : Nat) : (Reg.LYR_FLIPS c ≠ Reg.CHN_CONCEALED_LINES c ∧ Reg.LYR_FLIP_RESULT c ≠ Reg.CHN_CONCEALED_LINES c)
    ∧ Reg.LYR_FLIPS c ≠ Reg.CHN_STATUS c ∧ Reg.LYR_FLIP_RESULT c ≠ Reg.CHN_STATUS c := by
  unfold Reg.LYR_FLIPS Reg.LYR_FLIP_RESULT Reg.CHN_CONCEALED_LINES Reg.CHN_STATUS
  omega

/-- What the end of a picture writes: the flips told, or the loss of input in CHN_STATUS. -/
theorem State.closePicture_rd (h : s.Shows c n r v) :
    (s.closePicture c n).rd (Reg.CHN_CONCEALED_LINES c) = s.rd (Reg.CHN_CONCEALED_LINES c)
      ∧ (s.closePicture c n).rd (Reg.CHN_STATUS c) = if v.dark then s.rd (Reg.CHN_STATUS c) ||| 0x100 else s.rd (Reg.CHN_STATUS c) := by
  obtain ⟨ch, hc, p, hp, hv⟩ := h
  have hdark : v.dark = (!p.input && ch.layers.anyInput) := by rw [← hv]; rfl
  have hmix : Reg.CHN_STATUS c ≠ Reg.CHN_CONCEALED_LINES c := by unfold Reg.CHN_STATUS Reg.CHN_CONCEALED_LINES; omega
  rw [State.closePicture, State.onChan_some hc, hp]
  cases hd : v.dark with
  | false =>
    dsimp only
    rw [if_neg Bool.false_ne_true, if_pos (by rw [hd] at hdark; cases hi : p.input <;> simp_all)]
    obtain ⟨⟨h1, h2⟩, h3, h4⟩ := flipCells_ne c
    exact ⟨State.tellFlips_rd h1 h2, State.tellFlips_rd h3 h4⟩
  | true =>
    dsimp only
    rw [if_pos rfl, if_neg (by rw [hd] at hdark; simp_all)]
    exact ⟨State.sticky_rd_ne _ hmix _, State.sticky_rd_self ..⟩

end close

/-! ## The lines of a row, before and after steps of its deadline -/

section lines
variable {s t : State} {c n r : Nat} {a b : Chan} {p q : Pic}

/-- The lines received of a row do not depend on what a row deadline changes. -/
theorem State.rowInput_eq (ha : tget s.chans c = some a) (hb : tget t.chans c = some b) (ho : ∀ j, j ≠ c → tget t.chans j = tget s.chans j)
    (hrest : (b.rowView q r).rest = (a.rowView p r).rest) (k : Nat) : t.rowInput c b n k = s.rowInput c a n k := by
  have hcfg : b.cfg = a.cfg := (congrArg Chan.cfg hrest :)
  have hpool : b.pool_ = a.pool_ := (congrArg Chan.pool_ hrest :)
  have hindex : b.index n = a.index n := (congrArg (Chan.index · n) hrest :)
  have howner : b.poolOwner c = a.poolOwner c := by simp only [Chan.poolOwner, hcfg]
  simp only [State.rowInput, howner, hindex]
  by_cases hj : a.poolOwner c = c
  · simp only [hj, ha, hb, Chan.poolRow, hcfg, hpool]
  · rw [ho _ hj]

theorem State.rowVideo_eq (ha : tget s.chans c = some a) (hb : tget t.chans c = some b) (ho : ∀ j, j ≠ c → tget t.chans j = tget s.chans j)
    (hrest : (b.rowView q r).rest = (a.rowView p r).rest) (hvideo : b.layers.video = a.layers.video) (lost : List Nat) :
    t.rowVideo c b n r lost = s.rowVideo c a n r lost := by
  have hcfg : b.cfg = a.cfg := (congrArg Chan.cfg hrest :)
  simp only [State.rowVideo, State.rowInput_eq ha hb ho hrest, hcfg, Chan.videoLine, hvideo]

theorem tget_putLines_from (first j : Nat) (l : List PxLine) (k : Nat) (u : Tab PxLine) :
    tget ((l.zipIdx k).foldl (fun t e => tset t (first + e.2) e.1) u) (first + j) =
      if k ≤ j ∧ j < k + l.length then l[j - k]? else tget u (first + j) := by
  induction l generalizing k u with
  | nil => rw [if_neg (by simp)]; rfl
  | cons x l ih =>
    rw [List.zipIdx_cons, List.foldl_cons, ih, tget_tset]
    by_cases hj : j = k
    · subst hj
      simp
    · have hne : first + k ≠ first + j := by omega
      rw [if_neg hne]
      by_cases hin : k + 1 ≤ j ∧ j < k + 1 + l.length
      · rw [if_pos hin, if_pos (by simp only [List.length_cons]; omega), show j - k = (j - (k + 1)) + 1 by omega]
        rfl
      · rw [if_neg hin, if_neg (by simp only [List.length_cons]; omega)]

theorem tget_putLines {first i : Nat} {l : List PxLine} (h : i < l.length) (u : Tab PxLine) : tget (putLines first l u) (first + i) = l[i]? := by
  rw [putLines, tget_putLines_from, if_pos ⟨Nat.zero_le i, by omega⟩, Nat.sub_zero]

theorem State.rowVideo_length (lost : List Nat) : (s.rowVideo c a n r lost).length = a.cfg.main.rowLines r := by simp [State.rowVideo]

end lines

/-! ## The row deadline of a single unit -/

/-- The view once row 0, where it is row 0, has decided whether the picture is a repeat (R38). -/
def RowView.decided (v : RowView) (r : Nat) (came : Bool) : RowView :=
  if r = 0 then if v.inputLost && !came then { v with isRepeat := true } else { v with inputLost := false } else v

theorem RowView.decided_isRepeat (v : RowView) (r : Nat) (came : Bool) :
    (v.decided r came).isRepeat = if r = 0 then v.isRepeat || (v.inputLost && !came) else v.isRepeat := by
  unfold RowView.decided
  by_cases hr : r = 0
  · rw [if_pos hr, if_pos hr]
    cases v.inputLost && !came <;> simp
  · rw [if_neg hr, if_neg hr]

section deadline
variable {s : State} {c n r : Nat} {ch : Chan} {p : Pic}

theorem State.memberDeadline_single (hm : s.member = false) (ch : Chan) : s.memberDeadline c ch n r = s := by
  simp [State.memberDeadline, hm]

theorem State.comparePlan_single (hm : s.member = false) (ch : Chan) : s.comparePlan c ch n r = s := by
  have hj : (s.grp.role == .joining) = false := by
    cases hr : s.grp.role <;> simp_all [State.member]
  simp [State.comparePlan, hj]

/-- The row's agreed map is noted, and row 0 has decided. -/
def State.agreed (s : State) (c n r : Nat) (lost : List Nat) (came : Bool) : State :=
  let t := s.updChan c fun ch => ch.updRow n r fun x => { x with agreed := some lost }
  if r = 0 then t.updChan c (·.rowZero n came) else t

theorem State.agreed_touches (lost : List Nat) (came : Bool) : Touches [.chans] s (s.agreed c n r lost came) := by
  unfold State.agreed
  dsimp only
  split
  · exact (State.updChan_touches ..).trans (State.updChan_touches ..)
  · exact State.updChan_touches ..

theorem rowStage_agreed {v : RowView} (h : s.Shows c n r v) (lost : List Nat) (came : Bool) :
    RowStage c n r s (s.agreed c n r lost came) (RowView.decided { v with agreed := some lost } r came) := by
  have hnoted : RowStage c n r s (s.updChan c fun ch => ch.updRow n r fun x => { x with agreed := some lost }) { v with agreed := some lost } :=
    .updChan h fun a ha => ha.updRow (g := fun v => { v with agreed := some lost }) fun _ => rfl
  unfold State.agreed RowView.decided
  dsimp only
  split
  · exact hnoted.trans fun h => .updChan h fun a ha => ha.rowZero came
  · exact hnoted

/-- The flips of a picture that begins are told and its front state latches. -/
def State.begun (s : State) (c n r : Nat) : State := if r = 0 then (s.tellFlips c).latchFront c n else s

theorem rowStage_begun {v : RowView} (h : s.Shows c n r v) : RowStage c n r s (s.begun c n r) v := by
  unfold State.begun
  split
  · exact (rowStage_tellFlips h).trans rowStage_latchFront
  · exact ⟨.refl c s, h⟩

theorem State.begun_rd : (s.begun c n r).rd (Reg.CHN_CONCEALED_LINES c) = s.rd (Reg.CHN_CONCEALED_LINES c) := by
  unfold State.begun
  split
  · exact State.tellFlips_rd (flipCells_ne c).1.1 (flipCells_ne c).1.2
  · rfl

/-- The last of `rows` rows closes the picture. -/
def State.ended (s : State) (c n r rows : Nat) : State := if r + 1 = rows then s.closePicture c n else s

/-- The row enters, its agreed map noted: a row of a repeat picture as it is, any other composed. -/
def State.rowIn (s : State) (c n r rows : Nat) (lost : List Nat) : State :=
  match (match tget s.chans c with | some ch => ch.pic? n | none => none) with
  | none => s
  | some q => if q.isRepeat then s.repeatRow c n r else ((s.begun c n r).composeRow c n r lost).ended c n r rows

/-- The map from which the agreed one is formed: on a member the one frozen, where there is one. -/
def State.heldLoss (s : State) (c : Nat) (ch : Chan) (n r : Nat) : List Nat :=
  match (s.du c n r).lossMap with
  | some l => if s.member then l else s.ownLoss c ch n r
  | none => s.ownLoss c ch n r

theorem State.heldLoss_single (hm : s.member = false) (ch : Chan) : s.heldLoss c ch n r = s.ownLoss c ch n r := by
  unfold State.heldLoss
  split
  · exact if_neg (by simp [hm])
  · rfl

theorem State.agreedLoss_single (hm : s.member = false) (l : List Nat) : s.agreedLoss c n r l = l := if_neg (by simp [hm])

/-- A row that has not entered does so at its deadline, with the agreed map. -/
theorem exec_rowDeadline (hd : s.hasDu c n r = true) (hc : tget s.chans c = some ch) (hp : ch.pic? n = some p)
    (he : (s.du c n r).entered = false) :
    exec (.rowDeadline c n r) s = .next ((((s.memberDeadline c ch n r).comparePlan c ch n r).agreed c n r
      (s.agreedLoss c n r (s.heldLoss c ch n r)) (decide ((s.agreedLoss c n r (s.heldLoss c ch n r)).length < ch.cfg.main.rowLines r))).rowIn
        c n r ch.cfg.main.rows (s.agreedLoss c n r (s.heldLoss c ch n r))) := by
  refine congrArg Host.Outcome.next ?_
  rw [State.onRow_some hd hc hp]
  have hnot : ¬ (s.du c n r).entered = true := by simp [he]
  exact (if_neg hnot).trans rfl

theorem State.rowIn_eq {rows : Nat} {lost : List Nat} (hc : tget s.chans c = some ch) (hp : ch.pic? n = some p) : s.rowIn c n r rows lost =
    if p.isRepeat then s.repeatRow c n r else ((s.begun c n r).composeRow c n r lost).ended c n r rows := by
  simp only [State.rowIn, hc, hp]

end deadline

/-- The view of a row once its picture, where the row is the last, has closed. -/
def RowView.closed (v : RowView) (r rows : Nat) : RowView := if r + 1 = rows ∧ v.dark = true then { v with inputLost := true } else v

theorem RowView.closed_eq (v : RowView) (r rows : Nat) : v.closed r rows = { v with inputLost := (v.closed r rows).inputLost } := by
  unfold RowView.closed
  split_ifs <;> rfl

section ended
variable {s : State} {c n r rows : Nat} {v : RowView}

theorem rowStage_ended (h : s.Shows c n r v) : RowStage c n r s (s.ended c n r rows) (v.closed r rows) := by
  unfold State.ended RowView.closed
  by_cases hl : r + 1 = rows
  · simpa only [hl, true_and, if_true] using rowStage_closePicture h
  · simpa only [hl, false_and, if_false] using ⟨.refl c s, h⟩

theorem State.ended_rd (h : s.Shows c n r v) :
    (s.ended c n r rows).rd (Reg.CHN_CONCEALED_LINES c) = s.rd (Reg.CHN_CONCEALED_LINES c)
      ∧ (s.ended c n r rows).rd (Reg.CHN_STATUS c) =
        if r + 1 = rows ∧ v.dark = true then s.rd (Reg.CHN_STATUS c) ||| 0x100 else s.rd (Reg.CHN_STATUS c) := by
  unfold State.ended
  by_cases hl : r + 1 = rows
  · simpa only [hl, true_and, if_true] using State.closePicture_rd h
  · simp only [hl, false_and, if_false, and_self]

end ended

/-- What a row composed to the view `v` leaves, its picture closed with the last row: the view, and what CHN_CONCEALED_LINES and CHN_STATUS
read. -/
structure Composed (c n r rows : Nat) (v : RowView) (lost : List Nat) (s t : State) : Prop where
  stage : RowStage c n r s t (v.closed r rows)
  count : t.rd (Reg.CHN_CONCEALED_LINES c) = s.rd (Reg.CHN_CONCEALED_LINES c) + BitVec.ofNat 32 lost.length
  concealed : lost ≠ [] → wbit (t.rd (Reg.CHN_STATUS c)) 10 = true
  lost : r + 1 = rows → v.dark = true → wbit (t.rd (Reg.CHN_STATUS c)) 8 = true

section rowIn
variable {s : State} {c n r : Nat} {a : Chan} {q : Pic} {lost : List Nat} (ha : tget s.chans c = some a) (hq : a.pic? n = some q)
include ha hq

theorem rowStage_rowIn_repeat {rows : Nat} (hrep : q.isRepeat = true) :
    RowStage c n r s (s.rowIn c n r rows lost) { a.rowView q r with entered := true }
      ∧ (s.rowIn c n r rows lost).rd (Reg.CHN_CONCEALED_LINES c) = s.rd (Reg.CHN_CONCEALED_LINES c) := by
  rw [State.rowIn_eq ha hq, if_pos hrep]
  exact ⟨rowStage_repeatRow ⟨a, ha, q, hq, rfl⟩, (State.repeatRow_touches ..).rd_eq (by decide) _⟩

theorem composed_rowIn (hrep : q.isRepeat = false) (hr : r < a.cfg.main.rows) :
    Composed c n r a.cfg.main.rows ((a.rowView q r).composed (r * a.cfg.main.ctuSize) (s.rowVideo c a n r lost) lost) lost s
      (s.rowIn c n r a.cfg.main.rows lost) := by
  have hbegun : RowStage c n r s (s.begun c n r) (a.rowView q r) := rowStage_begun ⟨a, ha, q, hq, rfl⟩
  obtain ⟨b, hb, p, hp, hv⟩ := hbegun.shows
  have hrest : (b.rowView p r).rest = (a.rowView q r).rest := congrArg RowView.rest hv
  have hvideo : b.layers.video = a.layers.video := (congrArg RowView.video hv :)
  have hcfg : b.cfg = a.cfg := (congrArg Chan.cfg hrest :)
  have hstage := rowStage_composeRow hb hp (hcfg ▸ hr) lost
  obtain ⟨hcount, hbit⟩ := State.composeRow_rd hb hp (hcfg ▸ hr) lost
  rw [hv, hcfg, State.rowVideo_eq ha hb hbegun.frame.others hrest hvideo] at hstage
  obtain ⟨hcount', hstatus⟩ := State.ended_rd (rows := a.cfg.main.rows) hstage.shows
  rw [State.rowIn_eq ha hq, if_neg (by simp [hrep])]
  refine ⟨(hbegun.trans fun _ => hstage).trans rowStage_ended, hcount'.trans (hcount.trans (congrArg (· + _) State.begun_rd)),
    fun hl => ?_, fun hlast hdark => ?_⟩
  · rw [hstatus]
    split
    · rw [wbit_or, hbit hl]; rfl
    · exact hbit hl
  · rw [hstatus, if_pos ⟨hlast, hdark⟩, wbit_or]
    exact Bool.or_true _

end rowIn

/-! ## The statement -/

theorem RowView.decided_eq (v : RowView) (r : Nat) (came : Bool) :
    v.decided r came = { v with isRepeat := (v.decided r came).isRepeat, inputLost := (v.decided r came).inputLost } := by
  unfold RowView.decided
  split_ifs <;> rfl

/-- A picture that is no repeat although no line has come has not lost its input. -/
theorem RowView.decided_inputLost {v : RowView} {r : Nat} (h : (v.decided r false).isRepeat = false) :
    (v.decided r false).inputLost = v.inputLost := by
  rw [RowView.decided_isRepeat] at h
  unfold RowView.decided
  by_cases hr : r = 0
  · simp_all
  · rw [if_neg hr]

/-- The row with its loss map frozen (R189). -/
def Row.withLoss (l : List Nat) (x : Row) : Row := { x with lossMap := some l }

theorem does_lossMapFreeze {s : State} {c n r : Nat} {ch : Chan} (hd : s.hasDu c n r = true) (hm : s.member = false)
    (hc : tget s.chans c = some ch) : Does (.lossMapFreeze c n r) s [.chans] noReg fun t =>
      t.du c n r = { s.du c n r with lossMap := some (s.ownLoss c ch n r) } ∧ OtherDus c n r s t := by
  obtain ⟨ch', p, hc', hp, -⟩ := State.hasDu_iff.1 hd
  obtain rfl : ch = ch' := Option.some.inj (hc.symm.trans hc')
  have hstep : RowStep c n r (Row.withLoss (s.ownLoss c ch n r)) s (s.updChan c (·.updRow n r (Row.withLoss (s.ownLoss c ch n r)))) :=
    .updRow (h := fun _ => Row.withLoss (s.ownLoss c ch n r)) hc
  refine does_of_touches (congrArg Host.Outcome.next ?_) (State.updChan_touches ..) (by decide) ⟨hstep.row hd, hstep.other⟩
  rw [State.onRow_some hd hc hp]
  have hsingle : ¬ (s.updChan c (·.updRow n r (Row.withLoss (s.ownLoss c ch n r)))).member = true := by
    rw [show (s.updChan c (·.updRow n r (Row.withLoss (s.ownLoss c ch n r)))).member = s.member from rfl, hm]
    decide
  exact (if_neg hsingle).trans rfl

section single
variable {s : State} {c n r : Nat} {ch : Chan} {p : Pic} (hd : s.hasDu c n r = true) (hm : s.member = false)
  (hc : tget s.chans c = some ch) (hp : ch.pic? n = some p) (he : (s.du c n r).entered = false)
include hd hm hc hp he

/-- On a single unit the agreed map is the unit's own. -/
theorem exec_rowDeadline_single {lost : List Nat} {came : Bool} (hl : lost = s.ownLoss c ch n r)
    (hcame : came = decide (lost.length < ch.cfg.main.rowLines r)) :
    exec (.rowDeadline c n r) s = .next ((s.agreed c n r lost came).rowIn c n r ch.cfg.main.rows lost) := by
  subst hcame hl
  rw [exec_rowDeadline hd hc hp he, State.memberDeadline_single hm, State.comparePlan_single hm, State.heldLoss_single hm,
    State.agreedLoss_single hm]

omit hd hm hc hp he in
theorem State.Shows.du {t : State} {v : RowView} (h : t.Shows c n r v) :
    (t.du c n r).entered = v.entered ∧ (t.du c n r).agreed = v.agreed ∧ (t.du c n r).concealed = v.concealed := by
  obtain ⟨a, ha, q, hq, rfl⟩ := h
  rw [State.du_of_pic ha hq]
  exact ⟨rfl, rfl, rfl⟩

/-- The row deadline of a single unit: what it leaves of the row, by the view of the row before it. -/
theorem does_rowDeadline_single {lost : List Nat} {came rep : Bool} (hl : lost = s.ownLoss c ch n r)
    (hcame : came = decide (lost.length < ch.cfg.main.rowLines r))
    (hrep : rep = if r = 0 then p.isRepeat || (ch.inputLost && !came) else p.isRepeat) :
    ∃ t v, exec (.rowDeadline c n r) s = .next t ∧ RowStage c n r s t v ∧ v.entered = true ∧ v.agreed = some lost
      ∧ v.rest = (ch.rowView p r).rest ∧ v.isRepeat = rep
      ∧ (rep = true → v.video = ch.layers.video ∧ t.rd (Reg.CHN_CONCEALED_LINES c) = s.rd (Reg.CHN_CONCEALED_LINES c))
      ∧ (rep = false → v.concealed = lost
        ∧ t.rd (Reg.CHN_CONCEALED_LINES c) = s.rd (Reg.CHN_CONCEALED_LINES c) + BitVec.ofNat 32 lost.length
        ∧ (lost ≠ [] → wbit (t.rd (Reg.CHN_STATUS c)) 10 = true)
        ∧ v.video = putLines (r * ch.cfg.main.ctuSize) (s.rowVideo c ch n r lost) ch.layers.video)
      ∧ (r + 1 = ch.cfg.main.rows → rep = false → p.input = false → came = false →
        if ch.layers.anyInput then v.inputLost = true ∧ wbit (t.rd (Reg.CHN_STATUS c)) 8 = true else v.inputLost = ch.inputLost) := by
  have hagreed : RowStage c n r s (s.agreed c n r lost came) _ := rowStage_agreed ⟨ch, hc, p, hp, rfl⟩ lost came
  have hregs (off : Nat) : (s.agreed c n r lost came).rd off = s.rd off := (State.agreed_touches lost came).rd_eq (by decide) off
  obtain ⟨a, ha, q, hq, hv⟩ := hagreed.shows
  have hrepeat : q.isRepeat = rep := by
    rw [hrep]
    exact (congrArg RowView.isRepeat hv).trans (RowView.decided_isRepeat ..)
  have hview : a.rowView q r = { ch.rowView p r with
      agreed := some lost, isRepeat := (a.rowView q r).isRepeat, inputLost := (a.rowView q r).inputLost } := by
    rw [hv]
    exact RowView.decided_eq ..
  have hrest : (a.rowView q r).rest = (ch.rowView p r).rest := (congrArg RowView.rest hview :)
  have hvideo : a.layers.video = ch.layers.video := (congrArg RowView.video hview :)
  have hany : a.layers.anyInput = ch.layers.anyInput := (congrArg RowView.anyInput hview :)
  have hinput : q.input = p.input := (congrArg RowView.input hview :)
  have hmap : (q.row r).agreed = some lost := (congrArg RowView.agreed hview :)
  have hcfg : a.cfg = ch.cfg := (congrArg Chan.cfg hrest :)
  have hr : r < ch.cfg.main.rows := by
    obtain ⟨ch', p', hc', -, hlt⟩ := State.hasDu_iff.1 hd
    exact Option.some.inj (hc'.symm.trans hc) ▸ hlt
  have hx := exec_rowDeadline_single hd hm hc hp he hl hcame
  cases rep with
  | true =>
    obtain ⟨hstage, hcount⟩ := rowStage_rowIn_repeat (rows := ch.cfg.main.rows) (lost := lost) ha hq hrepeat
    exact ⟨_, _, hx, hagreed.trans fun _ => hstage, rfl, hmap, hrest, hrepeat, fun _ => ⟨hvideo, hcount.trans (hregs _)⟩, nofun, nofun⟩
  | false =>
    have hin := composed_rowIn (lost := lost) ha hq hrepeat (hcfg ▸ hr)
    rw [hcfg, State.rowVideo_eq hc ha hagreed.frame.others hrest hvideo] at hin
    obtain ⟨hstage, hcount, hbit, hlost⟩ := hin
    have hclosed := RowView.closed_eq ((a.rowView q r).composed (r * ch.cfg.main.ctuSize) (s.rowVideo c ch n r lost) lost) r ch.cfg.main.rows
    refine ⟨_, _, hx, hagreed.trans fun _ => hstage, congrArg RowView.entered hclosed, (congrArg RowView.agreed hclosed).trans hmap,
      (congrArg RowView.rest hclosed).trans hrest, (congrArg RowView.isRepeat hclosed).trans hrepeat, nofun,
      fun _ => ⟨congrArg RowView.concealed hclosed, hcount.trans (congrArg (· + _) (hregs _)), hbit,
        (congrArg RowView.video hclosed).trans (congrArg (putLines _ _) hvideo)⟩, fun hlast _ hpi hno => ?_⟩
    have hnone : ¬ lost.length < (s.rowVideo c ch n r lost).length := by
      rw [State.rowVideo_length]
      exact of_decide_eq_false (hcame ▸ hno)
    have hdark : ((a.rowView q r).composed (r * ch.cfg.main.ctuSize) (s.rowVideo c ch n r lost) lost).dark = ch.layers.anyInput :=
      (RowView.composed_dark hnone).trans (by simp [RowView.dark, Chan.rowView, hinput, hpi, hany])
    cases hin : ch.layers.anyInput with
    | true =>
      rw [hin] at hdark
      exact ⟨by rw [RowView.closed, if_pos ⟨hlast, hdark⟩], hlost hlast hdark⟩
    | false =>
      rw [hin] at hdark
      rw [if_neg Bool.false_ne_true, RowView.closed, if_neg fun h => by simp [hdark] at h]
      subst hno
      have hdecided := (congrArg RowView.isRepeat hv).symm.trans hrepeat
      exact (congrArg RowView.inputLost hv).trans (RowView.decided_inputLost hdecided)

end single

/-- Settles O40: the steps of the row deadline one after the other, by what each makes of the view of the row. -/
theorem inputRows : Obligations.InputRows := by
  unfold Obligations.InputRows
  refine ⟨fun s c n r hd => ⟨?_, ?_⟩, fun s c n r he => ?_, fun s c n r ch hd hm hc => does_lossMapFreeze hd hm hc, ?deadline⟩
  · exact congrArg Host.Outcome.next (State.onRow_of_not_hasDu hd _)
  · exact congrArg Host.Outcome.next (State.onRow_of_not_hasDu hd _)
  · refine congrArg Host.Outcome.next ?_
    cases hd : s.hasDu c n r with
    | false => exact State.onRow_of_not_hasDu hd _
    | true =>
      obtain ⟨ch, p, hc, hp, -⟩ := State.hasDu_iff.1 hd
      rw [State.onRow_some hd hc hp]
      exact if_pos he
  case deadline =>
    intro s c n r ch p hd hm hc hp he lost came rep
    obtain ⟨t, v, hx, ⟨hframe, hshows⟩, hentered, hagreed, hrest, hrepeat, hrep, hcomposed, hlast⟩ :=
      does_rowDeadline_single (lost := lost) (came := came) (rep := rep) hd hm hc hp he rfl rfl rfl
    obtain ⟨hde, hda, hdc⟩ := hshows.du
    obtain ⟨a, ha, q, hq, rfl⟩ := hshows
    have hcfg : a.cfg = ch.cfg := (congrArg Chan.cfg hrest :)
    refine ⟨t, hx, hframe.touches, hframe.regs, hde.trans hentered, hda.trans hagreed, hframe.others,
      ⟨a, ha, (congrArg Chan.nextPic hrest :), (congrArg Chan.st hrest :), (congrArg Chan.pool_ hrest :), ?_, fun h => ?_, hlast⟩,
      fun h => ⟨a, ha, q, hq, hrepeat⟩⟩
    · exact hrep
    · obtain ⟨hconcealed, hcount, hbit, hvideo⟩ := hcomposed h
      refine ⟨hdc.trans hconcealed, hcount, hbit, fun i hi => ?_⟩
      have hline : tget a.layers.video (r * ch.cfg.main.ctuSize + i) = (s.rowVideo c ch n r lost)[i]? :=
        (congrArg (tget · _) hvideo).trans (tget_putLines (by rwa [State.rowVideo_length]) _)
      rw [hline, State.rowVideo, List.getElem?_map, List.getElem?_range hi]
      rfl



end Sys2Proof.Machine
end

section
/-!
PROOFS. Events of the timebase (R212, R213) and the pulses (R220, R437).
-/
namespace Sys2Proof.Machine
open Sys2Proof

/-! ## Events of the timebase (R212, R213) -/

theorem State.raise_rd_ne (s : State) (code sev obj detail : Nat) {k : Nat} (h : k ≠ Reg.DEV_STATUS) :
    (s.raise code sev obj detail).rd k = s.rd k := by
  rw [State.rd_eq, State.raise_regs, bget_bset_ne (Ne.symm h), State.rd_eq]

/-- An event of the timebase is counted, shown by a sticky bit of TIME_STATUS and raised for the device as a whole. -/
def State.timeEvent (s : State) (off : Nat) (bit : Word) (code sev detail : Nat) : State :=
  ((s.bump off).sticky Reg.TIME_STATUS bit).raise code sev 0xFF detail

section timeEvent
variable (s : State) (off : Nat) (bit : Word) (code sev detail : Nat)

theorem State.timeEvent_touches : Touches [.regs, .log, .logSeq, .mbx, .out] s (s.timeEvent off bit code sev detail) :=
  (((s.bump_touches off).mono (by decide)).then (State.sticky_touches ..) (by decide)).trans (State.raise_touches ..)

@[simp] theorem State.timeEvent_time : (s.timeEvent off bit code sev detail).time = s.time :=
  (s.timeEvent_touches off bit code sev detail).same .time (by decide)

theorem State.timeEvent_enters : Entered code 0xFF detail (s.timeEvent off bit code sev detail) := State.raise_enters ..

variable {off}

theorem State.timeEvent_rd_ne {k : Nat} (h : k ∉ [off, Reg.TIME_STATUS, Reg.DEV_STATUS]) :
    (s.timeEvent off bit code sev detail).rd k = s.rd k := by
  simp only [List.mem_cons, List.not_mem_nil, or_false, not_or] at h
  obtain ⟨hoff, htime, hdev⟩ := h
  exact (State.raise_rd_ne _ _ _ _ _ hdev).trans ((State.sticky_rd_ne _ (Ne.symm htime) _).trans (State.bump_rd_ne _ (Ne.symm hoff)))

theorem State.timeEvent_rd_count (h : off ∉ [Reg.TIME_STATUS, Reg.DEV_STATUS]) :
    (s.timeEvent off bit code sev detail).rd off = s.rd off + 1 := by
  simp only [List.mem_cons, List.not_mem_nil, or_false, not_or] at h
  obtain ⟨htime, hdev⟩ := h
  exact (State.raise_rd_ne _ _ _ _ _ hdev).trans ((State.sticky_rd_ne _ (Ne.symm htime) _).trans (State.bump_rd_self ..))

end timeEvent

/-! ## Pulses (R220) -/

theorem does_ppsInEdge (s : State) :
    Does .ppsInEdge s [.regs] (regIn [Reg.TIME_PPS_IN_NS, Reg.TIME_PPS_IN_S, Reg.TIME_PPS_IN_COUNT]) fun t =>
      t.rd Reg.TIME_PPS_IN_NS = BitVec.ofNat 32 s.time.ns ∧ t.rd Reg.TIME_PPS_IN_S = BitVec.ofNat 32 s.time.sec
        ∧ t.rd Reg.TIME_PPS_IN_COUNT = s.rd Reg.TIME_PPS_IN_COUNT + 1 := by
  refine ⟨_, rfl, ((s.wr_touches ..).trans (State.wr_touches ..)).trans (State.bump_touches ..), fun off ho => ?_, ?_, ?_, ?_⟩
  · simp only [regIn, List.mem_cons, List.not_mem_nil, or_false, not_or] at ho
    obtain ⟨hns, hs, hcount⟩ := ho
    rw [State.bump_rd_ne _ (Ne.symm hcount), State.rd_wr_ne (Ne.symm hs), State.rd_wr_ne (Ne.symm hns)]
  · rw [State.bump_rd_ne _ (by decide), State.rd_wr_ne (by decide), State.rd_wr_self]
  · rw [State.bump_rd_ne _ (by decide), State.rd_wr_self]
  · rw [State.bump_rd_self, State.rd_wr_ne (by decide), State.rd_wr_ne (by decide)]

/-- Settles O15: the output pin and the hour counter move one field each; an edge writes two registers and counts in a third. -/
theorem pulses : Obligations.Pulses := by
  unfold Obligations.Pulses
  exact ⟨fun _ => rfl, fun _ => rfl, does_ppsInEdge, fun _ => rfl⟩

end Sys2Proof.Machine
end

section
/-!
PROOFS. The servo (R211 to R214): what an offset, a step and a time-out make of the clock.
-/
namespace Sys2Proof.Machine
open Sys2Proof

/-! ## The clock's value (R209, R212) -/

/-- The clock's value in 2^-16 ns, without the hidden bits of the fraction. -/
def TimeState.value (t : TimeState) : Nat := (t.sec * 1000000000 + t.ns) * 65536 + t.frac / 2 ^ 24

/-- One whole run of the clock in 2^-16 ns: 2^48 seconds. -/
def clockSpan : Nat := 2 ^ 48 * 1000000000 * 65536

theorem TimeState.moved_value (t : TimeState) (o : Int) : ((t.moved o).value : Int) = ((t.value : Int) - o) % (clockSpan : Int) := by
  have hnonneg : 0 ≤ ((t.value : Int) - o) % (clockSpan : Int) := Int.emod_nonneg _ (by decide)
  have hparts (v h : Nat) (hh : h < 2 ^ 24) :
      (v / 65536 / 1000000000 * 1000000000 + v / 65536 % 1000000000) * 65536 + (v % 65536 * 2 ^ 24 + h) / 2 ^ 24 = v := by omega
  calc ((t.moved o).value : Int) = (((t.value : Int) - o) % (clockSpan : Int)).toNat :=
        congrArg Nat.cast (hparts _ _ (Nat.mod_lt _ (by decide)))
    _ = _ := Int.toNat_of_nonneg hnonneg

/-! ## A step (R212, R214) -/

/-- The timebase after a step by `-o`. -/
def TimeState.stepped (t : TimeState) (o : Int) : TimeState :=
  { t.moved o with
    tag := t.tag + 1, st := .acquiring, goodRun := 0, badRun := 0, pend := none, accept := none, corr := 0 }.retune

/-- From `s` to `t` the clock has been stepped by `-o`: the servo keeps I and acquires anew, and the step is counted and logged. -/
def ClockStepped (o : Int) (s t : State) : Prop :=
  t.time.tag = s.time.tag + 1 ∧ t.time.st = .acquiring ∧ t.time.i = s.time.i ∧ t.time.corr = 0
    ∧ t.time.incr = incrementOf s.time.i ∧ t.time.pend = none ∧ t.time.accept = none
    ∧ (t.time.value : Int) = ((s.time.value : Int) - o) % (clockSpan : Int)
    ∧ t.rd Reg.TIME_STEPS = s.rd Reg.TIME_STEPS + 1 ∧ Entered 0x0041 0xFF (detailNs (-o)) t

/-- The cells that a step of the clock writes. -/
def stepCells : List Nat := [Reg.TIME_STEPS, Reg.TIME_STATUS, Reg.DEV_STATUS]

section step
variable (s : State) (o : Int) (a : Nat)

theorem State.stepClock_time : (s.stepClock o a).time = s.time.stepped o := State.timeEvent_time ..

theorem State.stepClock_rd_ne {off : Nat} (h : off ∉ stepCells) : (s.stepClock o a).rd off = s.rd off :=
  State.timeEvent_rd_ne _ _ _ _ _ h

theorem State.stepClock_stepped : ClockStepped o s (s.stepClock o a) := by
  rw [ClockStepped, State.stepClock_time]
  exact ⟨rfl, rfl, rfl, rfl, congrArg incrementOf (Int.add_zero _), rfl, rfl, TimeState.moved_value ..,
    State.timeEvent_rd_count _ _ _ _ _ (by decide), State.timeEvent_enters ..⟩

variable {s o a}

theorem does_stepClock {i : Instr} (hx : exec i s = .next (s.stepClock o a)) :
    Does i s [.regs, .time, .chans, .log, .logSeq, .mbx, .out] (regIn stepCells) (ClockStepped o s) :=
  ⟨_, hx, (s.stepClock_touches o a).mono (by decide), fun _ ho => s.stepClock_rd_ne o a ho, s.stepClock_stepped o a⟩

theorem exec_stepApply (hp : s.time.pend = some o) (ha : s.time.accept = some a) :
    exec .stepApply s = .next (s.stepClock o (nsTicks a)) := by
  change execStepApply s = _
  rw [execStepApply, hp, ha]

end step

/-! ## Offsets (R211, R212) -/

section offset
variable {s : State} {o l : Int} {tag : Nat}

/-- The offset is noted as the last one. -/
def State.noteOffset (s : State) (o : Int) : State := { s with time := { s.time with offsetLast := o } }

/-- The timebase after an accepted offset. -/
def TimeState.accepted (t : TimeState) (o : Int) : TimeState :=
  ({ t with offsetLast := o, pend := none, accept := none }.acceptOffset o).steer o

/-- The timebase with an offset refused and held as the pending step. -/
def TimeState.refused (t : TimeState) (o : Int) : TimeState :=
  { t with offsetLast := o, pend := some o, st := .stepHeld, goodRun := 0, badRun := 0 }

theorem exec_servoOffset_stale (h : tag ≠ s.time.tag) : Gives (.servoOffset o tag l) s s := by
  refine congrArg Host.Outcome.next (?_ : (if s.ctl.restarting then s else s.offset o tag) = s)
  rw [State.offset, if_pos h, ite_self]

theorem exec_servoOffset (hr : s.ctl.restarting = false) : exec (.servoOffset o tag l) s = .next (s.offset o tag) :=
  congrArg Host.Outcome.next (if_neg (Bool.eq_false_iff.1 hr))

theorem State.offset_accepted (h : o.natAbs ≤ s.time.thresh * 65536) :
    s.offset o s.time.tag = { s with time := s.time.accepted o } := by
  rw [State.offset, if_neg (not_not.2 rfl)]
  exact if_neg (Nat.not_lt.2 h)

theorem State.offset_refused (h : s.time.thresh * 65536 < o.natAbs) (ha : (s.time.autoStep && s.noneActive) = false) :
    s.offset o s.time.tag =
      ({ s with time := s.time.refused o } : State).timeEvent Reg.TIME_REFUSALS 0x100 0x0040 1 (detailNs o) := by
  rw [State.offset, if_neg (not_not.2 rfl)]
  exact (if_pos h).trans (if_neg (Bool.eq_false_iff.1 ha))

theorem State.offset_stepped (h : s.time.thresh * 65536 < o.natAbs) (ha : s.time.autoStep = true) (hn : s.noneActive = true) :
    s.offset o s.time.tag = (s.noteOffset o).stepClock o s.time.now := by
  rw [State.offset, if_neg (not_not.2 rfl)]
  exact (if_pos h).trans (if_pos (Bool.and_eq_true_iff.2 ⟨ha, hn⟩))

end offset

/-! ## An accepted offset and the state of the servo (R213) -/

section accept
variable (t : TimeState) (o : Int)

/-- An accepted offset moves the servo's state and the two runs that R213 counts. -/
theorem TimeState.acceptOffset_eq : ∃ st good bad, t.acceptOffset o = { t with st := st, goodRun := good, badRun := bad } := by
  unfold TimeState.acceptOffset
  dsimp only
  generalize decide (o.natAbs ≤ 1000 * 65536) = small
  split
  · exact ⟨_, _, _, rfl⟩
  · exact ⟨_, _, _, rfl⟩
  · exact ⟨_, _, _, rfl⟩
  · generalize (if small = true then t.goodRun + 1 else 0) = good
    split <;> exact ⟨_, _, _, rfl⟩
  · generalize (if small = true then 0 else t.badRun + 1) = bad
    split <;> exact ⟨_, _, _, rfl⟩

variable {t o}

theorem TimeState.acceptOffset_freeRun (h : t.st = .freeRun) : (t.acceptOffset o).st = .freeRun := by
  simp only [TimeState.acceptOffset, h]

theorem TimeState.acceptOffset_reacquire (h : t.st = .holdover ∨ t.st = .stepHeld) : (t.acceptOffset o).st = .acquiring := by
  obtain h | h := h <;> simp only [TimeState.acceptOffset, h]

theorem TimeState.acceptOffset_acquiring (h : t.st = .acquiring) :
    (t.acceptOffset o).st = if o.natAbs ≤ 1000 * 65536 ∧ 7 ≤ t.goodRun then .locked else .acquiring := by
  simp only [TimeState.acceptOffset, h]
  by_cases hsmall : o.natAbs ≤ 1000 * 65536
  · simp only [hsmall, decide_true, if_true, true_and, Nat.succ_le_succ_iff]
    split <;> rfl
  · simp [hsmall]

theorem TimeState.acceptOffset_locked (h : t.st = .locked) :
    (t.acceptOffset o).st = if 1000 * 65536 < o.natAbs ∧ 3 ≤ t.badRun then .acquiring else .locked := by
  simp only [TimeState.acceptOffset, h]
  by_cases hsmall : o.natAbs ≤ 1000 * 65536
  · simp [hsmall, Nat.not_lt.2 hsmall]
  · simp only [hsmall, Nat.lt_of_not_le hsmall, decide_false, Bool.false_eq_true, if_false, true_and, Nat.succ_le_succ_iff]
    split <;> rfl

end accept

/-- What an accepted offset makes of the servo (R211, R213). -/
def OffsetAccepted (o : Int) (t u : TimeState) : Prop :=
  u.i = clampI (t.i - t.ki * o) (-(500000 * 2 ^ 32)) (500000 * 2 ^ 32)
    ∧ u.corr = clampI (-(t.kp * o)) (-((t.slew : Int) * 2 ^ 32)) ((t.slew : Int) * 2 ^ 32)
    ∧ u.incr = incrementOf (u.i + u.corr) ∧ u.pend = none ∧ u.accept = none
    ∧ u.offsetLast = o ∧ (u.value : Int) = t.value ∧ u.frac = t.frac
    ∧ (t.st = .freeRun → u.st = .freeRun)
    ∧ (t.st = .holdover ∨ t.st = .stepHeld → u.st = .acquiring)
    ∧ (t.st = .acquiring → u.st = (if o.natAbs ≤ 1000 * 65536 ∧ 7 ≤ t.goodRun then .locked else .acquiring))
    ∧ (t.st = .locked → u.st = (if 1000 * 65536 < o.natAbs ∧ 3 ≤ t.badRun then .acquiring else .locked))

/-- Steering moves I, corr and the increment; the rest is as the servo's state machine leaves it. -/
theorem TimeState.accepted_offsetAccepted (t : TimeState) (o : Int) : OffsetAccepted o t (t.accepted o) := by
  obtain ⟨st, good, bad, h⟩ := ({ t with offsetLast := o, pend := none, accept := none } : TimeState).acceptOffset_eq o
  have hst : (t.accepted o).st = (({ t with offsetLast := o, pend := none, accept := none } : TimeState).acceptOffset o).st := rfl
  refine ⟨?_, ?_, rfl, ?_, ?_, ?_, ?_, ?_, fun hs => hst.trans (TimeState.acceptOffset_freeRun hs),
    fun hs => hst.trans (TimeState.acceptOffset_reacquire hs), fun hs => hst.trans (TimeState.acceptOffset_acquiring hs),
    fun hs => hst.trans (TimeState.acceptOffset_locked hs)⟩
  all_goals rw [TimeState.accepted, h]; rfl

/-- From `s` to `t` an offset has been refused: it is the pending step, the clock and its increment stay, it is counted and logged. -/
def OffsetRefused (o : Int) (s t : State) : Prop :=
  t.time.pend = some o ∧ t.time.accept = s.time.accept ∧ t.time.st = .stepHeld ∧ t.time.i = s.time.i ∧ t.time.corr = s.time.corr
    ∧ t.time.incr = s.time.incr ∧ (t.time.value : Int) = s.time.value ∧ t.rd Reg.TIME_REFUSALS = s.rd Reg.TIME_REFUSALS + 1
    ∧ Entered 0x0040 0xFF (detailNs o) t

section offsets
variable {s : State} {o l : Int} (hr : s.ctl.restarting = false)
include hr

theorem does_servoOffset_accepted (h : o.natAbs ≤ s.time.thresh * 65536) :
    Does (.servoOffset o s.time.tag l) s [.time] noReg fun t => OffsetAccepted o s.time t.time :=
  does_of_touches ((exec_servoOffset hr).trans (congrArg Host.Outcome.next (State.offset_accepted h)))
    (by simp (disch := decide) only [Touches.set_time, Touches.refl]) (by decide) (s.time.accepted_offsetAccepted o)

theorem does_servoOffset_refused (h : s.time.thresh * 65536 < o.natAbs) (ha : (s.time.autoStep && s.noneActive) = false) :
    Does (.servoOffset o s.time.tag l) s [.regs, .time, .log, .logSeq, .mbx, .out]
      (regIn [Reg.TIME_REFUSALS, Reg.TIME_STATUS, Reg.DEV_STATUS]) (OffsetRefused o s) := by
  refine ⟨_, (exec_servoOffset hr).trans (congrArg Host.Outcome.next (State.offset_refused h ha)),
    .then ?_ (State.timeEvent_touches ..) (by decide), fun off ho => State.timeEvent_rd_ne _ _ _ _ _ ho, ?_⟩
  · simp (disch := decide) only [Touches.set_time, Touches.refl]
  · rw [OffsetRefused, State.timeEvent_time]
    exact ⟨rfl, rfl, rfl, rfl, rfl, rfl, rfl, State.timeEvent_rd_count _ _ _ _ _ (by decide), State.timeEvent_enters ..⟩

theorem does_servoOffset_stepped (h : s.time.thresh * 65536 < o.natAbs) (ha : s.time.autoStep = true) (hn : s.noneActive = true) :
    Does (.servoOffset o s.time.tag l) s [.regs, .time, .chans, .log, .logSeq, .mbx, .out] (regIn stepCells) (ClockStepped o s) := by
  have hnoted : Touches [.time] s (s.noteOffset o) := by
    simp (disch := decide) only [State.noteOffset, Touches.set_time, Touches.refl]
  exact ⟨_, (exec_servoOffset hr).trans (congrArg Host.Outcome.next (State.offset_stepped h ha hn)),
    (hnoted.mono (by decide)).trans ((State.stepClock_touches ..).mono (by decide)),
    fun _ ho => (State.stepClock_rd_ne _ _ _ ho).trans (hnoted.rd_eq (by decide) _), State.stepClock_stepped (s.noteOffset o) o _⟩

end offsets

/-! ## Time-outs (R211, R213) -/

/-- The timebase in holdover: the clock runs at I. -/
def TimeState.heldOver (t : TimeState) : TimeState := { t with st := .holdover, corr := 0, goodRun := 0, badRun := 0 }.retune

section holdover
variable {s : State}

theorem State.enterHoldover_running (h : s.time.st = .acquiring ∨ s.time.st = .locked) :
    s.enterHoldover = ({ s with time := s.time.heldOver } : State).sticky Reg.TIME_STATUS 0x800 :=
  if_pos (by obtain h | h := h <;> rw [h] <;> rfl)

theorem State.enterHoldover_else (ha : s.time.st ≠ .acquiring) (hl : s.time.st ≠ .locked) : s.enterHoldover = s :=
  if_neg (by simp [ha, hl])

theorem State.enterHoldover_rd_ne {off : Nat} (h : off ≠ Reg.TIME_STATUS) : s.enterHoldover.rd off = s.rd off := by
  unfold State.enterHoldover
  split
  · exact State.sticky_rd_ne _ (Ne.symm h) _
  · rfl

theorem TimeState.heldOver_eq (t : TimeState) :
    t.heldOver = { t with st := .holdover, corr := 0, goodRun := 0, badRun := 0, incr := incrementOf t.i } :=
  congrArg (fun y => ({ t with st := .holdover, corr := 0, goodRun := 0, badRun := 0, incr := incrementOf y } : TimeState)) (Int.add_zero _)

theorem does_offsetTimeout (h : s.time.st = .acquiring ∨ s.time.st = .locked) :
    Does .offsetTimeout s [.regs, .time] (regIn [Reg.TIME_STATUS]) fun t =>
      t.time = { s.time with st := .holdover, corr := 0, goodRun := 0, badRun := 0, incr := incrementOf s.time.i } := by
  have htime : s.enterHoldover.time = s.time.heldOver := by rw [State.enterHoldover_running h, State.sticky_time]
  exact ⟨_, rfl, State.enterHoldover_touches s, fun _ ho => State.enterHoldover_rd_ne fun e => ho (List.mem_singleton.2 e),
    htime.trans s.time.heldOver_eq⟩

end holdover

theorem exec_servoCorrExpiry (s : State) :
    Gives .servoCorrExpiry s { s with time := { s.time with corr := 0, incr := incrementOf s.time.i } } :=
  congrArg (fun y => Host.Outcome.next ({ s with time := { s.time with corr := 0, incr := incrementOf y } } : State)) (Int.add_zero _)

/-! ## The statement -/

/-- Settles O13: an offset by its three answers, the step of the clock once for both commands that make it, and the two time-outs. -/
theorem servo : Obligations.Servo := by
  unfold Obligations.Servo
  exact ⟨fun _ _ _ _ h => exec_servoOffset_stale h, fun s o l hr h => does_servoOffset_accepted hr h,
    fun s o l hr h ha => does_servoOffset_refused hr h ha, fun s o l hr h ha hn => does_servoOffset_stepped hr h ha hn,
    fun s o a hp ha => does_stepClock (exec_stepApply hp ha), exec_servoCorrExpiry, fun s h => does_offsetTimeout h,
    fun s ha hl => congrArg Host.Outcome.next (State.enterHoldover_else ha hl)⟩

end Sys2Proof.Machine
end

section
/-!
PROOFS. The PTP exchange (R207, R208, R213): the two ports, the grandmaster and the failover, and each message and timer.
-/
namespace Sys2Proof.Machine
open Sys2Proof

/-! ## The two ports -/

section ports
variable (t : TimeState) {p : Nat} (v w : PtpPort)

/-- Putting a port leaves the rest of the timebase. -/
theorem TimeState.setPort_eq (p : Nat) : ∃ a b, t.setPort p v = { t with port0 := a, port1 := b } := by
  unfold TimeState.setPort
  split <;> exact ⟨_, _, rfl⟩

@[simp] theorem TimeState.setPort_active (p : Nat) : (t.setPort p v).active = t.active := by
  obtain ⟨a, b, h⟩ := t.setPort_eq v p
  rw [h]

@[simp] theorem TimeState.setPort_failoverDue (p : Nat) : (t.setPort p v).failoverDue = t.failoverDue := by
  obtain ⟨a, b, h⟩ := t.setPort_eq v p
  rw [h]

@[simp] theorem TimeState.setPort_gm (p : Nat) : (t.setPort p v).gm = t.gm := by
  obtain ⟨a, b, h⟩ := t.setPort_eq v p
  rw [h]

@[simp] theorem TimeState.setPort_st (p : Nat) : (t.setPort p v).st = t.st := by
  obtain ⟨a, b, h⟩ := t.setPort_eq v p
  rw [h]

@[simp] theorem TimeState.setPort_i (p : Nat) : (t.setPort p v).i = t.i := by
  obtain ⟨a, b, h⟩ := t.setPort_eq v p
  rw [h]

@[simp] theorem TimeState.setPort_utc (p : Nat) : (t.setPort p v).utc = t.utc := by
  obtain ⟨a, b, h⟩ := t.setPort_eq v p
  rw [h]

@[simp] theorem TimeState.setPort_utcValid (p : Nat) : (t.setPort p v).utcValid = t.utcValid := by
  obtain ⟨a, b, h⟩ := t.setPort_eq v p
  rw [h]

@[simp] theorem TimeState.asym_setPort (p q : Nat) : (t.setPort p v).asym q = t.asym q := by
  obtain ⟨a, b, h⟩ := t.setPort_eq v p
  rw [h]
  rfl

/-- There are two ports: a number other than 0 is that of the second. -/
theorem TimeState.port_setPort (p q : Nat) : (t.setPort p v).port q = if (p = 0 ↔ q = 0) then v else t.port q := by
  unfold TimeState.setPort TimeState.port
  by_cases hp : p = 0 <;> by_cases hq : q = 0 <;> simp [hp, hq]

@[simp] theorem TimeState.port_setPort_self (p : Nat) : (t.setPort p v).port p = v := by
  rw [TimeState.port_setPort, if_pos Iff.rfl]

theorem TimeState.port_setPort_other (hp : p ≤ 1) : (t.setPort p v).port (1 - p) = t.port (1 - p) := by
  rw [TimeState.port_setPort, if_neg (by omega)]

@[simp] theorem TimeState.setPort_setPort (p : Nat) : (t.setPort p v).setPort p w = t.setPort p w := by
  unfold TimeState.setPort
  split <;> rfl

variable {v}

/-- What the change of a port keeps is kept of every port. -/
theorem TimeState.port_setPort_keeps {α : Type} {f : PtpPort → α} (hv : f v = f (t.port p)) (q : Nat) :
    f ((t.setPort p v).port q) = f (t.port q) := by
  rw [TimeState.port_setPort]
  split
  case isTrue h => exact hv.trans (congrArg f (if_congr h rfl rfl))
  case isFalse => rfl

end ports

/-- A port, put. -/
def State.withPtpPort (s : State) (p : Nat) (v : PtpPort) : State := { s with time := s.time.setPort p v }

theorem State.withPtpPort_touches (s : State) (p : Nat) (v : PtpPort) : Touches [.time] s (s.withPtpPort p v) := by
  simp (disch := decide) only [State.withPtpPort, Touches.set_time, Touches.refl]

/-! ## The grandmaster (R213) -/

/-- From `s` to `t` the active port's master is the grandmaster; a new identity counts and is logged, unless there was none before. -/
def GmNoted (s t : State) : Prop := ∀ g, (t.time.port t.time.active).master = some g → t.time.gm = g
  ∧ (if s.time.gm ≠ 0 ∧ g ≠ s.time.gm then t.rd Reg.TIME_GM_CHANGES = s.rd Reg.TIME_GM_CHANGES + 1 ∧ Entered 0x0042 0xFF g.toNat t
     else t.rd Reg.TIME_GM_CHANGES = s.rd Reg.TIME_GM_CHANGES ∧ t.log = s.log ∧ t.logSeq = s.logSeq ∧ t.mbx = s.mbx ∧ t.out = s.out)

/-- The cells that a change of grandmaster writes. -/
def gmCells : List Nat := [Reg.TIME_GM_CHANGES, Reg.TIME_STATUS, Reg.DEV_STATUS]

/-- The grandmaster's identity, put. -/
def State.withGm (s : State) (g : BitVec 64) : State := { s with time := { s.time with gm := g } }

section gm
variable (s : State)

theorem State.noteGm_cases : s.noteGm = s ∧ (∀ g, (s.time.port s.time.active).master = some g → g = s.time.gm)
    ∨ (∃ g, (s.time.port s.time.active).master = some g ∧ g ≠ s.time.gm ∧ s.time.gm = 0 ∧ s.noteGm = s.withGm g)
    ∨ ∃ g, (s.time.port s.time.active).master = some g ∧ g ≠ s.time.gm ∧ s.time.gm ≠ 0
      ∧ s.noteGm = (s.withGm g).timeEvent Reg.TIME_GM_CHANGES 0x400 0x0042 0 g.toNat := by
  unfold State.noteGm
  cases hm : (s.time.port s.time.active).master with
  | none => exact .inl ⟨rfl, nofun⟩
  | some g =>
    by_cases hg : g = s.time.gm
    · exact .inl ⟨if_pos hg, fun _ h => Option.some.inj h ▸ hg⟩
    · by_cases hz : s.time.gm = 0
      · exact .inr (.inl ⟨g, rfl, hg, hz, (if_neg hg).trans (if_pos (beq_iff_eq.2 hz))⟩)
      · exact .inr (.inr ⟨g, rfl, hg, hz, (if_neg hg).trans (if_neg (mt beq_iff_eq.1 hz))⟩)

theorem State.noteGm_time : ∃ g, s.noteGm.time = { s.time with gm := g } := by
  obtain ⟨h, -⟩ | ⟨g, -, -, -, h⟩ | ⟨g, -, -, -, h⟩ := s.noteGm_cases
  · exact ⟨s.time.gm, by rw [h]⟩
  · exact ⟨g, by rw [h]; rfl⟩
  · exact ⟨g, by rw [h, State.timeEvent_time]; rfl⟩

theorem State.noteGm_rd_ne {off : Nat} (ho : off ∉ gmCells) : s.noteGm.rd off = s.rd off := by
  obtain ⟨h, -⟩ | ⟨g, -, -, -, h⟩ | ⟨g, -, -, -, h⟩ := s.noteGm_cases
  · rw [h]
  · rw [h]; rfl
  · rw [h]; exact State.timeEvent_rd_ne _ _ _ _ _ ho

theorem State.noteGm_noted : GmNoted s s.noteGm := by
  intro g hg
  obtain ⟨h, hsame⟩ | ⟨k, hk, hne, hz, h⟩ | ⟨k, hk, hne, hz, h⟩ := s.noteGm_cases
  · rw [h] at hg ⊢
    have hgm := hsame g hg
    exact ⟨hgm.symm, by rw [if_neg fun c => c.2 hgm]; exact ⟨rfl, rfl, rfl, rfl, rfl⟩⟩
  · have hkg : k = g := Option.some.inj (hk.symm.trans (by rw [h] at hg; exact hg))
    subst hkg
    rw [h, if_neg fun c => c.1 hz]
    exact ⟨rfl, rfl, rfl, rfl, rfl, rfl⟩
  · have hkg : k = g := Option.some.inj (hk.symm.trans (by rw [h, State.timeEvent_time] at hg; exact hg))
    subst hkg
    rw [h, if_pos ⟨hz, hne⟩, State.timeEvent_time]
    exact ⟨rfl, State.timeEvent_rd_count _ _ _ _ _ (by decide), State.timeEvent_enters ..⟩

end gm

/-- What is noted depends on the grandmaster, the count and the log before. -/
theorem GmNoted.of_before {s u t : State} (h : GmNoted u t) (hgm : u.time.gm = s.time.gm)
    (hcount : u.rd Reg.TIME_GM_CHANGES = s.rd Reg.TIME_GM_CHANGES) (hlog : u.log = s.log) (hseq : u.logSeq = s.logSeq)
    (hmbx : u.mbx = s.mbx) (hout : u.out = s.out) : GmNoted s t := by
  unfold GmNoted at *
  rwa [hgm, hcount, hlog, hseq, hmbx, hout] at h

/-- A change of a port that keeps its master keeps what was noted. -/
theorem GmNoted.withPtpPort {s t : State} (h : GmNoted s t) {p : Nat} {v : PtpPort} (hv : v.master = (t.time.port p).master) :
    GmNoted s (t.withPtpPort p v) := by
  intro g hg
  have hmaster : (t.time.port t.time.active).master = some g := by
    have hactive : (t.withPtpPort p v).time.active = t.time.active := TimeState.setPort_active ..
    rw [← hg, hactive]
    exact (t.time.port_setPort_keeps (f := PtpPort.master) hv _).symm
  obtain ⟨hgm, hrest⟩ := h g hmaster
  exact ⟨(t.time.setPort_gm v p).trans hgm, hrest⟩

/-! ## The failover (R208) -/

/-- A failover to port `p` is due and made at a message of that port. -/
abbrev State.failsOver (s : State) (p : Nat) : Prop := s.time.failoverDue = true ∧ p ≠ s.time.active ∧ (s.time.port p).master.isSome = true

/-- The ports change places, and the failover is counted. -/
def State.switched (s : State) (p : Nat) : State :=
  (({ s with time := { s.time with active := p, failoverDue := false } } : State).bump Reg.TIME_FAILOVERS).sticky Reg.TIME_STATUS 0x1000

section failover
variable {s : State} {p : Nat}

theorem State.failoverAt_due (hp : p ≤ 1) (h : s.failsOver p) : s.failoverAt p = (s.switched p).noteGm := by
  obtain ⟨hdue, hne, hmaster⟩ := h
  exact if_pos (by simp [hdue, hne, hmaster, Nat.lt_succ_of_le hp])

theorem State.failoverAt_none (h : ¬ s.failsOver p) : s.failoverAt p = s := by
  refine if_neg fun hc => h ?_
  simp only [Bool.and_eq_true, bne_iff_ne, ne_eq] at hc
  obtain ⟨⟨⟨hdue, -⟩, hne⟩, hmaster⟩ := hc
  exact ⟨hdue, hne, hmaster⟩

theorem State.failoverAt_time (s : State) {p : Nat} (hp : p ≤ 1) :
    ∃ a d g, (s.failoverAt p).time = { s.time with active := a, failoverDue := d, gm := g } := by
  by_cases h : s.failsOver p
  · obtain ⟨g, hg⟩ := (s.switched p).noteGm_time
    rw [State.failoverAt_due hp h, hg]
    exact ⟨_, _, _, rfl⟩
  · rw [State.failoverAt_none h]
    exact ⟨_, _, _, rfl⟩

theorem State.switched_rd_ne (s : State) (p : Nat) {off : Nat} (ho : off ∉ [Reg.TIME_FAILOVERS, Reg.TIME_STATUS]) :
    (s.switched p).rd off = s.rd off := by
  simp only [List.mem_cons, List.not_mem_nil, or_false, not_or] at ho
  obtain ⟨hcount, hstatus⟩ := ho
  exact (State.sticky_rd_ne _ (Ne.symm hstatus) _).trans (State.bump_rd_ne _ (Ne.symm hcount))

theorem State.failoverAt_rd_ne (s : State) (hp : p ≤ 1) {off : Nat} (ho : off ∉ Reg.TIME_FAILOVERS :: gmCells) :
    (s.failoverAt p).rd off = s.rd off := by
  obtain ⟨hcount, hgm⟩ := not_or.1 (mt List.mem_cons.2 ho)
  by_cases h : s.failsOver p
  · rw [State.failoverAt_due hp h, State.noteGm_rd_ne _ hgm, State.switched_rd_ne]
    simp only [gmCells, List.mem_cons, List.not_mem_nil, or_false, not_or] at hgm ⊢
    exact ⟨hcount, hgm.2.1⟩
  · rw [State.failoverAt_none h]

/-- What a failover made at a message of port `p` leaves. -/
def FailedOver (p : Nat) (s t : State) : Prop := t.time.active = p ∧ t.time.failoverDue = false
  ∧ t.rd Reg.TIME_FAILOVERS = s.rd Reg.TIME_FAILOVERS + 1 ∧ GmNoted s t

theorem State.failoverAt_failedOver (hp : p ≤ 1) (h : s.failsOver p) : FailedOver p s (s.failoverAt p) := by
  rw [State.failoverAt_due hp h]
  obtain ⟨g, hg⟩ := (s.switched p).noteGm_time
  refine ⟨congrArg TimeState.active hg, congrArg TimeState.failoverDue hg, ?_,
    (s.switched p).noteGm_noted.of_before rfl (State.switched_rd_ne _ _ (by decide)) rfl rfl rfl rfl⟩
  exact (State.noteGm_rd_ne _ (by decide)).trans ((State.sticky_rd_ne _ (by decide) _).trans (State.bump_rd_self ..))

end failover

/-! ## Sync and Follow_Up (R207) -/

/-- A port with the offset of a Sync whose delay with its origin is `d`. -/
def PtpPort.timed (v : PtpPort) (m : SyncMsg) (d : Int) : PtpPort :=
  { v with sync := none, syncDelta := d, offset := some (d - v.pathDelay, m.tag, m.logSync) }

/-- A port after a Sync: a two-step one waits for its Follow_Up. -/
def PtpPort.synced (v : PtpPort) (m : SyncMsg) (d : Int) : PtpPort := if m.twoStep then { v with sync := some m } else v.timed m d

theorem PtpPort.synced_master (v : PtpPort) (m : SyncMsg) (d : Int) : (v.synced m d).master = v.master := by
  unfold PtpPort.synced
  split <;> rfl

/-- The delay of a Sync on a port, from its origin. -/
def TimeState.syncDelay (t : TimeState) (p : Nat) (m : SyncMsg) (origin : Int) : Int := m.ingress - origin - t.asym p

/-- Taking a Sync moves one port. -/
theorem TimeState.takeSync_eq (t : TimeState) (p : Nat) (m : SyncMsg) (origin : Int) : t.takeSync p m origin =
    t.setPort p { t.port p with
      syncDelta := t.syncDelay p m origin, offset := some (t.syncDelay p m origin - (t.port p).pathDelay, m.tag, m.logSync) } := rfl

section sync
variable {s : State} {p : Nat}

/-- Firmware that runs hears the messages of a configured port (R207, R397). -/
theorem State.ptpHeard (hr : s.ctl.restarting = false) (hc : s.time.cfg.isSome = true) (hp : p ≤ 1) :
    ¬ (s.ctl.restarting || s.time.cfg.isNone || decide (1 < p)) = true := by
  simpa [hr, Nat.not_lt.2 hp, ← Option.isSome_iff_ne_none] using hc

/-- The state in which a message of port `p` has been taken and a failover that is due has been made. -/
def State.heard (s : State) (p : Nat) : State := s.takePtp.failoverAt p

theorem exec_ptpSync {m : SyncMsg} (hr : s.ctl.restarting = false) (hc : s.time.cfg.isSome = true) (hp : p ≤ 1) :
    exec (.ptpSync p m) s = .next ((s.heard p).withPtpPort p
      (((s.heard p).time.port p).synced m ((s.heard p).time.syncDelay p m m.origin))) := by
  refine congrArg Host.Outcome.next ((if_neg (State.ptpHeard hr hc hp)).trans ?_)
  refine congrArg (fun t => ({ s.heard p with time := t } : State)) ?_
  cases h : m.twoStep with
  | true => simp only [PtpPort.synced, h, if_true, State.heard]
  | false =>
    simp only [PtpPort.synced, PtpPort.timed, h, Bool.false_eq_true, if_false, TimeState.takeSync_eq, TimeState.syncDelay,
      TimeState.port_setPort_self, TimeState.setPort_setPort, TimeState.asym_setPort, State.heard]

theorem does_ptpSync {m : SyncMsg} (hr : s.ctl.restarting = false) (hc : s.time.cfg.isSome = true) (hp : p ≤ 1) :
    Does (.ptpSync p m) s [.regs, .time, .net, .log, .logSeq, .mbx, .out] (regIn (Reg.TIME_FAILOVERS :: gmCells)) fun t =>
      t.net = { s.net with toPtp := s.net.toPtp.drop 1 } ∧ t.time.port (1 - p) = s.time.port (1 - p) ∧ t.time.st = s.time.st
        ∧ t.time.i = s.time.i ∧ t.time.port p = (s.time.port p).synced m (s.time.syncDelay p m m.origin)
        ∧ (if s.failsOver p then FailedOver p s t
          else t.time.active = s.time.active ∧ t.time.failoverDue = s.time.failoverDue ∧ t.time.gm = s.time.gm ∧ t.regs = s.regs
            ∧ t.log = s.log ∧ t.logSeq = s.logSeq ∧ t.mbx = s.mbx ∧ t.out = s.out) := by
  obtain ⟨a, d, g, htime⟩ := s.takePtp.failoverAt_time hp
  have hport (q : Nat) : (s.heard p).time.port q = s.time.port q := (congrArg (TimeState.port · q) htime :)
  have hdelay : (s.heard p).time.syncDelay p m m.origin = s.time.syncDelay p m m.origin :=
    (congrArg (TimeState.syncDelay · p m m.origin) htime :)
  have hframe : Touches [.regs, .time, .net, .log, .logSeq, .mbx, .out] s (s.heard p) :=
    (s.takePtp_touches.mono (by decide)).trans ((State.failoverAt_touches ..).mono (by decide))
  have hx := exec_ptpSync (m := m) hr hc hp
  rw [hport, hdelay] at hx
  refine ⟨_, hx, hframe.trans ((State.withPtpPort_touches ..).mono (by decide)), fun off ho => s.takePtp.failoverAt_rd_ne hp ho,
    (State.failoverAt_touches ..).same .net (by decide), ?_, ?_, ?_, TimeState.port_setPort_self .., ?_⟩
  · exact (TimeState.port_setPort_other _ _ hp).trans (hport _)
  · exact (TimeState.setPort_st ..).trans (congrArg TimeState.st htime :)
  · exact (TimeState.setPort_i ..).trans (congrArg TimeState.i htime :)
  · by_cases h : s.failsOver p
    · rw [if_pos h]
      obtain ⟨hactive, hdue, hcount, hnoted⟩ := State.failoverAt_failedOver (s := s.takePtp) hp h
      refine ⟨(TimeState.setPort_active ..).trans hactive, (TimeState.setPort_failoverDue ..).trans hdue, hcount,
        GmNoted.withPtpPort hnoted ?_⟩
      exact (PtpPort.synced_master ..).trans (congrArg PtpPort.master (hport p).symm)
    · rw [if_neg h, State.heard, State.failoverAt_none (s := s.takePtp) h]
      exact ⟨TimeState.setPort_active .., TimeState.setPort_failoverDue .., TimeState.setPort_gm .., rfl, rfl, rfl, rfl, rfl⟩

theorem exec_ptpFollowUp {m : FollowUpMsg} {y : SyncMsg} (hr : s.ctl.restarting = false) (hp : p ≤ 1)
    (hy : (s.time.port p).sync = some y) (hq : y.seqId = m.seqId) :
    exec (.ptpFollowUp p m) s = .next (s.takePtp.withPtpPort p ((s.time.port p).timed y (s.time.syncDelay p y m.origin))) := by
  change execPtpFollowUp p m s = _
  have hsync : (s.takePtp.time.port p).sync = some y := hy
  rw [execPtpFollowUp]
  dsimp only
  rw [hsync]
  refine congrArg Host.Outcome.next ((if_pos ⟨hq, hp, (congrArg (!·) hr :)⟩).trans ?_)
  simp only [TimeState.takeSync_eq, TimeState.port_setPort_self, TimeState.setPort_setPort]
  rfl

theorem does_ptpFollowUp {m : FollowUpMsg} {y : SyncMsg} (hr : s.ctl.restarting = false) (hp : p ≤ 1)
    (hy : (s.time.port p).sync = some y) (hq : y.seqId = m.seqId) :
    Does (.ptpFollowUp p m) s [.time, .net] noReg fun t =>
      t.net = { s.net with toPtp := s.net.toPtp.drop 1 } ∧ t.time.port (1 - p) = s.time.port (1 - p) ∧ t.time.active = s.time.active
        ∧ t.time.port p = (s.time.port p).timed y (s.time.syncDelay p y m.origin) :=
  does_of_touches (exec_ptpFollowUp hr hp hy hq)
    ((s.takePtp_touches.mono (by decide)).trans ((State.withPtpPort_touches ..).mono (by decide))) (by decide)
    ⟨rfl, TimeState.port_setPort_other _ _ hp, TimeState.setPort_active .., TimeState.port_setPort_self ..⟩

end sync

/-! ## Delay_Req and Delay_Resp (R207) -/

section delay
variable {s : State} {p : Nat}

/-- A port after the answer to its Delay_Req, sent at `t3`. -/
def PtpPort.answered (v : PtpPort) (m : DelayRespMsg) (t3 : Int) : PtpPort :=
  { v with delayReq := none, pathDelay := halfOf (v.syncDelta + m.receive - t3) }

theorem exec_ptpDelayResp {m : DelayRespMsg} {t3 : Int} (hr : s.ctl.restarting = false) (hp : p ≤ 1)
    (hd : (s.time.port p).delayReq = some (m.seqId, t3)) :
    exec (.ptpDelayResp p m) s = .next (s.takePtp.withPtpPort p ((s.time.port p).answered m t3)) := by
  change execPtpDelayResp p m s = _
  have hreq : (s.takePtp.time.port p).delayReq = some (m.seqId, t3) := hd
  rw [execPtpDelayResp]
  dsimp only
  rw [hreq]
  exact congrArg Host.Outcome.next (if_pos ⟨rfl, hp, (congrArg (!·) hr :)⟩)

theorem does_ptpDelayResp {m : DelayRespMsg} {t3 : Int} (hr : s.ctl.restarting = false) (hp : p ≤ 1)
    (hd : (s.time.port p).delayReq = some (m.seqId, t3)) :
    Does (.ptpDelayResp p m) s [.time, .net] noReg fun t => t.net = { s.net with toPtp := s.net.toPtp.drop 1 }
      ∧ t.time.port (1 - p) = s.time.port (1 - p) ∧ t.time.port p = (s.time.port p).answered m t3 :=
  does_of_touches (exec_ptpDelayResp hr hp hd)
    ((s.takePtp_touches.mono (by decide)).trans ((State.withPtpPort_touches ..).mono (by decide))) (by decide)
    ⟨rfl, TimeState.port_setPort_other _ _ hp, TimeState.port_setPort_self ..⟩

/-- The sequenceId of the next Delay_Req. -/
def State.nextDelaySeq (s : State) : State := { s with time := { s.time with delaySeq := (s.time.delaySeq + 1) % 65536 } }

theorem State.nextDelaySeq_touches (s : State) : Touches [.time] s s.nextDelaySeq := by
  simp (disch := decide) only [State.nextDelaySeq, Touches.set_time, Touches.refl]

/-- The Delay_Req that the active port sends next. -/
def State.delayReqOf (s : State) (c : TimeConfigArg) : CtlReply :=
  .delayReq s.time.active s.time.delaySeq (s.delayReqDst c s.time.active) c.vid

theorem exec_delayReqTimer {c : TimeConfigArg} (hr : s.ctl.restarting = false) (hc : s.time.cfg = some c)
    (hm : (s.time.port s.time.active).master.isSome = true) :
    exec .delayReqTimer s = .next (s.nextDelaySeq.sendCtl (portIfOf c s.time.active) 0 (s.delayReqOf c)) := by
  change execDelayReqTimer s = _
  rw [execDelayReqTimer, hc]
  exact congrArg Host.Outcome.next (if_pos (by rw [hm, hr]; rfl))

/-- The egress of an interface with one frame more for queue 0. -/
def TxIface.withCtl (t : TxIface) (x : CtlReply) : TxIface :=
  { t with ctl := t.ctl ++ [⟨0, x.frame, x⟩], held := tset t.held 0 (tgetD t.held 0 0 + x.frame) }

variable {i : Nat} {x : CtlReply}

/-- Queue 0 has no bound but max_frame (R199). -/
theorem State.sendCtl_queue0 (hf : s.dev.fatal = false) (hup : (s.iface i).linkUp = true) (hmac : (s.iface i).mac.isSome = true)
    (hx : x.frame ≤ (s.txIf i).maxF 0) : s.sendCtl i 0 x = s.updTx i (·.withCtl x) := by
  have hmac : (s.iface i).mac.isNone = false := Option.isNone_eq_false_iff.2 hmac
  simp only [State.sendCtl, hf, hup, hmac, Bool.false_eq_true, if_false, Bool.not_true, Bool.or_self, Nat.not_lt.2 hx]
  rfl

/-- On a dark interface a frame of any queue is discarded and counted (R176). -/
theorem State.sendCtl_discarded (h : s.darkFor i) (q : Nat) (x : CtlReply) :
    s.sendCtl i q x = (s.bump (Reg.NET_TX_LINK_DROPS i)).sticky (Reg.NET_TX_STATUS i) 0x20000 := by
  obtain ⟨hf, hdark | hdark⟩ := h <;> simp [State.sendCtl, hf, hdark]

variable {c : TimeConfigArg} (hr : s.ctl.restarting = false) (hc : s.time.cfg = some c)
  (hm : (s.time.port s.time.active).master.isSome = true) (hf : s.dev.fatal = false)
include hr hc hm hf

theorem does_delayReqTimer_queued (hi : i = portIfOf c s.time.active) (hup : (s.iface i).linkUp = true)
    (hmac : (s.iface i).mac.isSome = true) (hx : (s.delayReqOf c).frame ≤ (s.txIf i).maxF 0) :
    Does .delayReqTimer s [.time, .tx] noReg fun t => t.time = { s.time with delaySeq := (s.time.delaySeq + 1) % 65536 }
      ∧ (t.txIf i).ctl = (s.txIf i).ctl ++ [⟨0, (s.delayReqOf c).frame, s.delayReqOf c⟩] ∧ ∀ j, j ≠ i → t.txIf j = s.txIf j := by
  subst hi
  refine does_of_touches ((exec_delayReqTimer hr hc hm).trans (congrArg Host.Outcome.next
    (State.sendCtl_queue0 (s := s.nextDelaySeq) hf hup hmac hx))) ?_ (by decide) ⟨rfl, ?_, fun j hj => ?_⟩
  · exact (s.nextDelaySeq_touches.mono (by decide)).trans ((State.updTx_touches ..).mono (by decide))
  · rw [State.txIf_updTx_self]
    rfl
  · exact State.txIf_updTx_ne _ _ hj

theorem does_delayReqTimer_dark (hi : i = portIfOf c s.time.active) (hd : (s.iface i).linkUp = false ∨ (s.iface i).mac = none) :
    Does .delayReqTimer s [.time, .regs] (regIn [Reg.NET_TX_LINK_DROPS i, Reg.NET_TX_STATUS i]) fun t =>
      t.time = { s.time with delaySeq := (s.time.delaySeq + 1) % 65536 }
        ∧ t.rd (Reg.NET_TX_LINK_DROPS i) = s.rd (Reg.NET_TX_LINK_DROPS i) + 1 := by
  subst hi
  have hne (i : Nat) : Reg.NET_TX_STATUS i ≠ Reg.NET_TX_LINK_DROPS i := by unfold Reg.NET_TX_STATUS Reg.NET_TX_LINK_DROPS; omega
  have hsent := State.sendCtl_discarded (s := s.nextDelaySeq) ⟨hf, hd⟩ 0 (s.delayReqOf c)
  refine ⟨_, (exec_delayReqTimer hr hc hm).trans (congrArg Host.Outcome.next hsent), ?_, fun off ho => ?_, rfl, ?_⟩
  · exact (s.nextDelaySeq_touches.mono (by decide)).trans
      (((State.bump_touches ..).trans (State.sticky_touches ..)).mono (by decide))
  · simp only [regIn, List.mem_cons, List.not_mem_nil, or_false, not_or] at ho
    exact (State.sticky_rd_ne _ (Ne.symm ho.2) _).trans (State.bump_rd_ne _ (Ne.symm ho.1))
  · exact (State.sticky_rd_ne _ (hne _) _).trans (State.bump_rd_self ..)

end delay

/-! ## Announce (R208, R213) -/

/-- A port after an Announce. -/
def PtpPort.announced (v : PtpPort) (m : AnnounceMsg) : PtpPort := { v with master := some m.gm, addr := m.src }

/-- The active port has its master again: no failover is due. -/
def TimeState.dueSettled (t : TimeState) (p : Nat) : TimeState :=
  if t.failoverDue && p == t.active then { t with failoverDue := false } else t

/-- The active port after the comparison of the two masters. -/
def TimeState.chosen (t : TimeState) (p : Nat) : Option Nat → TimeState
  | some b => if !t.failoverDue && decide (b < 2) && (t.port b).master.isSome then { t with active := b } else t
  | none => if !t.failoverDue && (t.port t.active).master.isNone then { t with active := p } else t

/-- The UTC offset, taken from the active port's master. -/
def TimeState.utcTaken (t : TimeState) (p : Nat) (m : AnnounceMsg) : TimeState :=
  if p = t.active then { t with utc := m.utc, utcValid := m.utcValid } else t

/-- The timebase after an Announce has chosen the active port. -/
def TimeState.elected (t : TimeState) (p : Nat) (m : AnnounceMsg) : TimeState :=
  ((t.setPort p ((t.port p).announced m)).dueSettled p).chosen p m.best

/-- The timebase after an Announce, before the grandmaster is noted. -/
def TimeState.announced (t : TimeState) (p : Nat) (m : AnnounceMsg) : TimeState := (t.elected p m).utcTaken p m

section announce
variable (t : TimeState) (p : Nat) (m : AnnounceMsg)

theorem TimeState.dueSettled_eq : ∃ d, t.dueSettled p = { t with failoverDue := d } := by
  unfold TimeState.dueSettled
  split <;> exact ⟨_, rfl⟩

theorem TimeState.chosen_eq (best : Option Nat) : ∃ a, t.chosen p best = { t with active := a } := by
  unfold TimeState.chosen
  split <;> split <;> exact ⟨_, rfl⟩

theorem TimeState.utcTaken_eq : ∃ u v, t.utcTaken p m = { t with utc := u, utcValid := v } := by
  unfold TimeState.utcTaken
  split <;> exact ⟨_, _, rfl⟩

/-- The election moves the port of the Announce and the choice of the active port. -/
theorem TimeState.elected_eq : ∃ d a, t.elected p m = { t.setPort p ((t.port p).announced m) with failoverDue := d, active := a } := by
  obtain ⟨d, hd⟩ := (t.setPort p ((t.port p).announced m)).dueSettled_eq p
  obtain ⟨a, ha⟩ := ({ t.setPort p ((t.port p).announced m) with failoverDue := d } : TimeState).chosen_eq p m.best
  exact ⟨d, a, by rw [TimeState.elected, hd, ha]⟩

/-- An Announce moves the UTC offset besides. -/
theorem TimeState.announced_eq : ∃ d a u v, t.announced p m =
    { t.setPort p ((t.port p).announced m) with failoverDue := d, active := a, utc := u, utcValid := v } := by
  obtain ⟨d, a, he⟩ := t.elected_eq p m
  obtain ⟨u, v, hu⟩ := (t.elected p m).utcTaken_eq p m
  exact ⟨d, a, u, v, by rw [TimeState.announced, hu, he]⟩

theorem TimeState.announced_port (q : Nat) : (t.announced p m).port q = (t.setPort p ((t.port p).announced m)).port q := by
  obtain ⟨d, a, u, v, h⟩ := t.announced_eq p m
  exact (congrArg (TimeState.port · q) h :)

theorem TimeState.announced_st : (t.announced p m).st = t.st := by
  obtain ⟨d, a, u, v, h⟩ := t.announced_eq p m
  exact (congrArg TimeState.st h).trans (TimeState.setPort_st ..)

theorem TimeState.announced_gm : (t.announced p m).gm = t.gm := by
  obtain ⟨d, a, u, v, h⟩ := t.announced_eq p m
  exact (congrArg TimeState.gm h).trans (TimeState.setPort_gm ..)

theorem TimeState.announced_active : (t.announced p m).active = (t.elected p m).active := by
  obtain ⟨u, v, h⟩ := (t.elected p m).utcTaken_eq p m
  exact (congrArg TimeState.active h :)

variable {t p m}

theorem TimeState.chosen_tie (h : (t.port t.active).master.isSome = true) : t.chosen p none = t :=
  if_neg (by simp [Option.isNone_eq_false_iff.2 h])

theorem TimeState.chosen_best {b : Nat} (hb : b < 2) (hd : t.failoverDue = false) (h : (t.port b).master.isSome = true) :
    t.chosen p (some b) = { t with active := b } := if_pos (by simp [hb, hd, h])

theorem TimeState.dueSettled_none (h : t.failoverDue = false) : t.dueSettled p = t := if_neg (by simp [h])

/-- A port that had a master has one after an Announce. -/
theorem TimeState.setPort_announced_isSome {q : Nat} (h : (t.port q).master.isSome = true) :
    ((t.setPort p ((t.port p).announced m)).port q).master.isSome = true := by
  rw [TimeState.port_setPort]
  split
  case isTrue => rfl
  case isFalse => exact h

theorem TimeState.elected_tie (hb : m.best = none) (h : (t.port t.active).master.isSome = true) :
    (t.elected p m).active = t.active := by
  obtain ⟨d, hd⟩ := (t.setPort p ((t.port p).announced m)).dueSettled_eq p
  have hmaster := TimeState.setPort_announced_isSome (p := p) (m := m) h
  rw [TimeState.elected, hb, hd, TimeState.chosen_tie]
  · exact TimeState.setPort_active ..
  · exact (TimeState.setPort_active t ((t.port p).announced m) p).symm ▸ hmaster

theorem TimeState.elected_best {b : Nat} (hm : m.best = some b) (hb : b < 2) (hd : t.failoverDue = false)
    (h : ((t.announced p m).port b).master.isSome = true) : (t.elected p m).active = b := by
  rw [TimeState.announced_port] at h
  have hdue : (t.setPort p ((t.port p).announced m)).failoverDue = false := (TimeState.setPort_failoverDue ..).trans hd
  rw [TimeState.elected, hm, TimeState.dueSettled_none hdue, TimeState.chosen_best hb hdue h]

theorem TimeState.announced_utc_active (h : (t.announced p m).active = p) :
    (t.announced p m).utc = m.utc ∧ (t.announced p m).utcValid = m.utcValid := by
  rw [TimeState.announced_active] at h
  rw [TimeState.announced, TimeState.utcTaken, if_pos h.symm]
  exact ⟨rfl, rfl⟩

theorem TimeState.announced_utc_other (h : (t.announced p m).active ≠ p) :
    (t.announced p m).utc = t.utc ∧ (t.announced p m).utcValid = t.utcValid := by
  rw [TimeState.announced_active] at h
  obtain ⟨d, a, he⟩ := t.elected_eq p m
  rw [TimeState.announced, TimeState.utcTaken, if_neg (Ne.symm h), he]
  exact ⟨TimeState.setPort_utc .., TimeState.setPort_utcValid ..⟩

end announce

/-- The state in which an Announce of port `p` has been taken, before the grandmaster is noted. -/
def State.announce (s : State) (p : Nat) (m : AnnounceMsg) : State := { s.takePtp with time := s.time.announced p m }

section announce
variable {s : State} {p : Nat} {m : AnnounceMsg} (hr : s.ctl.restarting = false) (hc : s.time.cfg.isSome = true) (hp : p ≤ 1)
include hr hc hp

theorem exec_ptpAnnounce : exec (.ptpAnnounce p m) s = .next (s.announce p m).noteGm :=
  congrArg Host.Outcome.next ((if_neg (State.ptpHeard hr hc hp)).trans rfl)

theorem does_ptpAnnounce : Does (.ptpAnnounce p m) s [.regs, .time, .net, .log, .logSeq, .mbx, .out] (regIn gmCells) fun t =>
    t.net = { s.net with toPtp := s.net.toPtp.drop 1 } ∧ t.time.port p = (s.time.port p).announced m
      ∧ t.time.port (1 - p) = s.time.port (1 - p) ∧ t.time.st = s.time.st
      ∧ (m.best = none → (s.time.port s.time.active).master.isSome = true → t.time.active = s.time.active)
      ∧ (∀ b, m.best = some b → b < 2 → s.time.failoverDue = false → (t.time.port b).master.isSome = true → t.time.active = b)
      ∧ (t.time.active = p → t.time.utc = m.utc ∧ t.time.utcValid = m.utcValid)
      ∧ (t.time.active ≠ p → t.time.utc = s.time.utc ∧ t.time.utcValid = s.time.utcValid) ∧ GmNoted s t := by
  obtain ⟨g, htime⟩ := (s.announce p m).noteGm_time
  have hport (q : Nat) : (s.announce p m).noteGm.time.port q = (s.time.announced p m).port q := (congrArg (TimeState.port · q) htime :)
  have hactive : (s.announce p m).noteGm.time.active = (s.time.announced p m).active := (congrArg TimeState.active htime :)
  have hutc : (s.announce p m).noteGm.time.utc = (s.time.announced p m).utc := (congrArg TimeState.utc htime :)
  have hvalid : (s.announce p m).noteGm.time.utcValid = (s.time.announced p m).utcValid := (congrArg TimeState.utcValid htime :)
  have hframe : Touches [.time, .net] s (s.announce p m) := by
    simp (disch := decide) only [State.announce, Touches.set_time]
    exact s.takePtp_touches.mono (by decide)
  refine ⟨_, exec_ptpAnnounce hr hc hp, (hframe.mono (by decide)).trans ((State.noteGm_touches _).mono (by decide)),
    fun off ho => State.noteGm_rd_ne _ ho, (State.noteGm_touches _).same .net (by decide), ?_, ?_, ?_, fun hb h => ?_,
    fun b hm hb hd h => ?_, fun h => ?_, fun h => ?_, (s.announce p m).noteGm_noted.of_before (s.time.announced_gm p m) rfl rfl rfl rfl rfl⟩
  · rw [hport, TimeState.announced_port, TimeState.port_setPort_self]
  · rw [hport, TimeState.announced_port, TimeState.port_setPort_other _ _ hp]
  · exact (congrArg TimeState.st htime :).trans (s.time.announced_st p m)
  · rw [hactive, TimeState.announced_active, TimeState.elected_tie hb h]
  · rw [hport] at h
    rw [hactive, TimeState.announced_active, TimeState.elected_best hm hb hd h]
  · rw [hutc, hvalid]
    exact TimeState.announced_utc_active (hactive.symm.trans h)
  · rw [hutc, hvalid]
    exact TimeState.announced_utc_other (hactive ▸ h)

end announce

/-! ## The announce time-out (R208, R213) -/

/-- A port that has lost its master. -/
def PtpPort.masterless (v : PtpPort) : PtpPort := { v with master := none }

/-- Port `p` has no master. -/
def State.withoutMaster (s : State) (p : Nat) : State := s.withPtpPort p (s.time.port p).masterless

/-- Whether a failover is due, put. -/
def State.withDue (s : State) (due : Bool) : State := { s with time := { s.time with failoverDue := due } }

section announceTimeout
variable (s : State) {p : Nat}

theorem State.enterHoldover_time : ∃ st corr good bad incr, s.enterHoldover.time =
    { s.time with st := st, corr := corr, goodRun := good, badRun := bad, incr := incr } := by
  unfold State.enterHoldover
  split <;> exact ⟨_, _, _, _, _, rfl⟩

theorem State.loseMaster_eq (hp : p ≤ 1) : s.loseMaster p =
    if p = s.time.active then
      if (s.time.port (1 - p)).master.isSome then (s.withoutMaster p).withDue true else (s.withoutMaster p).enterHoldover
    else if s.time.failoverDue then ((s.withoutMaster p).withDue false).enterHoldover else s.withoutMaster p := by
  have hactive : (s.withoutMaster p).time.active = s.time.active := TimeState.setPort_active ..
  have hdue : (s.withoutMaster p).time.failoverDue = s.time.failoverDue := TimeState.setPort_failoverDue ..
  have hother : (s.withoutMaster p).time.port (1 - p) = s.time.port (1 - p) := TimeState.port_setPort_other _ _ hp
  rw [← hactive, ← hdue, ← hother]
  rfl

/-- Losing a master moves its port, the failover and the servo. -/
theorem State.loseMaster_time (hp : p ≤ 1) : ∃ due st corr good bad incr, (s.loseMaster p).time =
    { (s.withoutMaster p).time with
      failoverDue := due, st := st, corr := corr, goodRun := good, badRun := bad, incr := incr } := by
  rw [State.loseMaster_eq s hp]
  split
  · split
    · exact ⟨_, _, _, _, _, _, rfl⟩
    · exact ⟨_, (s.withoutMaster p).enterHoldover_time⟩
  · split
    · exact ⟨_, ((s.withoutMaster p).withDue false).enterHoldover_time⟩
    · exact ⟨_, _, _, _, _, _, rfl⟩

theorem State.loseMaster_rd_ne (hp : p ≤ 1) {off : Nat} (ho : off ≠ Reg.TIME_STATUS) : (s.loseMaster p).rd off = s.rd off := by
  rw [State.loseMaster_eq s hp]
  split
  · split
    · rfl
    · exact State.enterHoldover_rd_ne ho
  · split
    · exact State.enterHoldover_rd_ne ho
    · rfl

variable {s}

theorem State.loseMaster_due (hp : p ≤ 1) (ha : p = s.time.active) (ho : (s.time.port (1 - p)).master.isSome = true) :
    s.loseMaster p = (s.withoutMaster p).withDue true := by
  rw [State.loseMaster_eq s hp, if_pos ha, if_pos ho]

theorem State.loseMaster_holdover (hp : p ≤ 1) (ha : p = s.time.active) (ho : (s.time.port (1 - p)).master = none) :
    s.loseMaster p = (s.withoutMaster p).enterHoldover := by
  rw [State.loseMaster_eq s hp, if_pos ha, if_neg (by rw [ho]; decide)]

theorem exec_announceTimeout (hr : s.ctl.restarting = false) (hc : s.time.cfg.isSome = true) (hp : p < 2) :
    exec (.announceTimeout p) s = .next (s.loseMaster p) :=
  congrArg Host.Outcome.next (if_pos (by simp [hr, hc, hp]))

theorem does_announceTimeout (hr : s.ctl.restarting = false) (hc : s.time.cfg.isSome = true) (hp : p < 2) :
    Does (.announceTimeout p) s [.regs, .time] (regIn [Reg.TIME_STATUS]) fun t => (t.time.port p).master = none
      ∧ t.time.port (1 - p) = s.time.port (1 - p) ∧ t.time.active = s.time.active
      ∧ (p = s.time.active → (s.time.port (1 - p)).master.isSome = true → t.time.failoverDue = true ∧ t.time.st = s.time.st)
      ∧ (p = s.time.active → (s.time.port (1 - p)).master = none → s.time.st = .acquiring ∨ s.time.st = .locked →
          t.time.st = .holdover) := by
  have hp1 : p ≤ 1 := Nat.le_of_lt_succ hp
  obtain ⟨due, st, corr, good, bad, incr, htime⟩ := s.loseMaster_time hp1
  have hport (q : Nat) : (s.loseMaster p).time.port q = (s.time.setPort p (s.time.port p).masterless).port q :=
    (congrArg (TimeState.port · q) htime :)
  refine ⟨_, exec_announceTimeout hr hc hp, State.loseMaster_touches s p,
    fun off ho => s.loseMaster_rd_ne hp1 fun e => ho (List.mem_singleton.2 e), ?_, ?_, ?_, fun ha ho => ?_, fun ha ho hst => ?_⟩
  · rw [hport, TimeState.port_setPort_self]
    rfl
  · rw [hport, TimeState.port_setPort_other _ _ hp1]
  · exact (congrArg TimeState.active htime :).trans (TimeState.setPort_active ..)
  · rw [State.loseMaster_due hp1 ha ho]
    exact ⟨rfl, TimeState.setPort_st ..⟩
  · have hlost : (s.withoutMaster p).time.st = s.time.st := TimeState.setPort_st ..
    rw [State.loseMaster_holdover hp1 ha ho, State.enterHoldover_running (hlost ▸ hst), State.sticky_time]
    rfl

end announceTimeout

/-! ## The statement -/

/-- Settles O14: each message and timer moves one port; a Sync may make the failover first, and an Announce notes the grandmaster last. -/
theorem ptpExchange : Obligations.PtpExchange := by
  unfold Obligations.PtpExchange
  refine ⟨fun s p m hr hc hp => (does_ptpSync (m := m) hr hc hp).imp ?sync, fun s p m y hr hp hy hq => does_ptpFollowUp hr hp hy hq,
    fun s p m hr hc hp => does_ptpAnnounce hr hc hp,
    fun s c hr hc hm hf => ⟨fun hup hmac hx => does_delayReqTimer_queued hr hc hm hf rfl hup hmac hx,
      fun hd => does_delayReqTimer_dark hr hc hm hf rfl hd⟩,
    fun s p m t3 hr hp hd => does_ptpDelayResp hr hp hd, fun s p hr hc hp => does_announceTimeout hr hc hp⟩
  rintro t ⟨htaken, hother, hst, hi, hport, hfail⟩
  refine ⟨htaken, hother, hst, hi, fun h => ?_, fun h => ?_, hfail⟩
  · rw [hport, PtpPort.synced, if_pos h]
  · rw [hport, PtpPort.synced, if_neg (Bool.eq_false_iff.1 h)]
    rfl

end Sys2Proof.Machine
end

section
/-!
PROOFS. Records on the stay legs (R225, R227, R228): what a record that leaves, or a frame that arrives, changes of the machine.
-/
namespace Sys2Proof.Machine
open Sys2Proof

/-! ## Legs -/

theorem State.leg_setLeg (s : State) (i j : Nat) (l : Leg) : (s.setLeg i l).leg j = if (i = 0 ↔ j = 0) then l else s.leg j := by
  unfold State.setLeg State.leg
  by_cases hi : i = 0 <;> by_cases hj : j = 0 <;> simp [hi, hj]

@[simp] theorem State.leg_setLeg_self (s : State) (i : Nat) (l : Leg) : (s.setLeg i l).leg i = l := by
  rw [State.leg_setLeg, if_pos Iff.rfl]

theorem State.leg_congr {s t : State} (h : t.grp = s.grp) (i : Nat) : t.leg i = s.leg i := by
  unfold State.leg
  rw [h]

theorem State.peer_congr {s t : State} (h : t.grp.peers = s.grp.peers) (k : Nat) : t.peer k = s.peer k :=
  congrArg (fun x : Tab Peer => tgetD x k {}) h

theorem State.gch_congr {s t : State} (h : t.grp.chans = s.grp.chans) (c : Nat) : t.gch c = s.gch c :=
  congrArg (fun x : Tab GrpChan => tgetD x c {}) h

/-- A leg is in use: its link is UP and its hello has passed (R225, R228). -/
def State.legOpen (s : State) (i : Nat) : Prop := s.portUp i = true ∧ (s.leg i).helloOk = true

/-! ## What the traffic of a leg leaves alone -/

/-- What only a hello changes: which legs are in use and to whom they lead, that such a leg has nothing waiting, and what the hellos have
told of the peers. -/
structure HelloKept (s t : State) : Prop where
  hello : ∀ i, (t.leg i).helloOk = (s.leg i).helloOk
  rank : ∀ i, (t.leg i).peerRank = (s.leg i).peerRank
  port : ∀ i, t.portUp i = s.portUp i
  drained : ∀ i ≤ 1, s.legOpen i → (s.leg i).outage = [] → (t.leg i).outage = []
  told : ∀ k, (t.peer k).macs = (s.peer k).macs ∧ (t.peer k).level = (s.peer k).level

namespace HelloKept
variable {s t u : State}

theorem refl (s : State) : HelloKept s s := ⟨fun _ => rfl, fun _ => rfl, fun _ => rfl, fun _ _ _ h => h, fun _ => ⟨rfl, rfl⟩⟩

theorem trans (a : HelloKept s t) (b : HelloKept t u) : HelloKept s u where
  hello i := (b.hello i).trans (a.hello i)
  rank i := (b.rank i).trans (a.rank i)
  port i := (b.port i).trans (a.port i)
  drained i hi ho h := b.drained i hi ⟨(a.port i).trans ho.1, (a.hello i).trans ho.2⟩ (a.drained i hi ho h)
  told k := ⟨(b.told k).1.trans (a.told k).1, (b.told k).2.trans (a.told k).2⟩

/-- Nothing of the group is touched but what the hellos have no part in. -/
theorem of_grp (ha : t.grp.legA = s.grp.legA) (hb : t.grp.legB = s.grp.legB) (hp : t.grp.peers = s.grp.peers) (hl : t.lane = s.lane) :
    HelloKept s t := by
  have hleg (i : Nat) : t.leg i = s.leg i := by
    unfold State.leg
    rw [ha, hb]
  refine ⟨fun i => by rw [hleg], fun i => by rw [hleg], fun i => congrArg (fun x : LaneState => (tgetD x.ports i {}).st == .up) hl,
    fun i _ _ h => by rw [hleg, h], fun k => ?_⟩
  rw [State.peer_congr hp]
  exact ⟨rfl, rfl⟩

end HelloKept

/-- The group engine with another next record number and other legs. -/
def GrpState.withTraffic (g : GrpState) (q : Nat) (a b : Leg) : GrpState := { g with recSeq := q, legA := a, legB := b }

/-- What records on the legs change: the numbers of the records and frames, what waits for an acknowledgement or a leg, the outputs, the
counts of the PMU and that of frames that come broken. -/
structure Traffic (s t : State) : Prop where
  touches : Touches [.regs, .pmu, .grp, .out] s t
  grp : ∃ q a b, t.grp = s.grp.withTraffic q a b
  kept : HelloKept s t
  rd : ∀ off, off ≠ Reg.GRP_LATE_RECORDS → ¬ (0x00C00000 ≤ off ∧ off < 0x00D00000) → t.rd off = s.rd off
  out : s.out <:+ t.out

namespace Traffic
variable {s t u : State}

theorem refl (s : State) : Traffic s s :=
  ⟨.refl _ s, ⟨_, _, _, rfl⟩, .refl s, fun _ _ _ => rfl, List.suffix_refl _⟩

theorem trans (a : Traffic s t) (b : Traffic t u) : Traffic s u where
  touches := a.touches.trans b.touches
  grp := by
    obtain ⟨_, _, _, ha⟩ := a.grp
    obtain ⟨q, x, y, hb⟩ := b.grp
    exact ⟨q, x, y, by rw [hb, ha]; rfl⟩
  kept := a.kept.trans b.kept
  rd off hl hp := (b.rd off hl hp).trans (a.rd off hl hp)
  out := a.out.trans b.out

theorem foldl {β : Type} {f : State → β → State} (h : ∀ t x, Traffic t (f t x)) (xs : List β) (s : State) : Traffic s (xs.foldl f s) := by
  induction xs generalizing s with
  | nil => exact .refl s
  | cons x xs ih => exact (h s x).trans (ih _)

/-- A field of the group that is neither the number of the next record nor a leg stays. -/
theorem same {α : Type} (a : Traffic s t) (f : GrpState → α) (hf : ∀ g q x y, f (g.withTraffic q x y) = f g) :
    f t.grp = f s.grp := by
  obtain ⟨q, x, y, h⟩ := a.grp
  rw [h, hf]

theorem role (a : Traffic s t) : t.grp.role = s.grp.role := a.same (·.role) fun _ _ _ _ => rfl

theorem own (a : Traffic s t) : t.grp.rank = s.grp.rank := a.same (·.rank) fun _ _ _ _ => rfl

theorem size (a : Traffic s t) : t.grp.size = s.grp.size := a.same (·.size) fun _ _ _ _ => rfl

theorem peer (a : Traffic s t) (k : Nat) : t.peer k = s.peer k := State.peer_congr (a.same (·.peers) fun _ _ _ _ => rfl) k

theorem gch (a : Traffic s t) (c : Nat) : t.gch c = s.gch c := State.gch_congr (a.same (·.chans) fun _ _ _ _ => rfl) c

end Traffic

section legs
variable (s : State) {i : Nat} {l : Leg}

theorem Traffic.setLeg (hh : l.helloOk = (s.leg i).helloOk) (hr : l.peerRank = (s.leg i).peerRank)
    (ho : (i ≤ 1 → s.legOpen i) → (s.leg i).outage = [] → l.outage = []) : Traffic s (s.setLeg i l) := by
  have hleg (j : Nat) : (s.setLeg i l).leg j = s.leg j ∨ (i = 0 ↔ j = 0) ∧ (s.setLeg i l).leg j = l ∧ s.leg j = s.leg i := by
    rw [State.leg_setLeg]
    split
    case isTrue h =>
      refine .inr ⟨h, rfl, ?_⟩
      unfold State.leg
      simp only [h]
    case isFalse => exact .inl rfl
  have hport (j : Nat) : (s.setLeg i l).portUp j = s.portUp j :=
    congrArg (fun x : LaneState => (tgetD x.ports j {}).st == .up) ((s.setLeg_touches i l).same .lane (by decide))
  have hgrp : ∃ a b, (s.setLeg i l).grp = s.grp.withTraffic s.grp.recSeq a b := by
    unfold State.setLeg
    split <;> exact ⟨_, _, rfl⟩
  obtain ⟨a, b, hgrp⟩ := hgrp
  refine ⟨(s.setLeg_touches i l).mono (by decide), ⟨_, a, b, hgrp⟩, ⟨fun j => ?_, fun j => ?_, hport, fun j hj hopen hnone => ?_,
    fun k => ?_⟩, fun off _ _ => (s.setLeg_touches i l).rd_eq (by decide) off, ?_⟩
  · rcases hleg j with h | ⟨-, h, hj⟩
    · rw [h]
    · rw [h, hj, hh]
  · rcases hleg j with h | ⟨-, h, hj⟩
    · rw [h]
    · rw [h, hj, hr]
  · rcases hleg j with h | ⟨hij, h, hl⟩
    · rw [h, hnone]
    · have hi : i ≤ 1 → i = j := fun _ => by omega
      rw [h, ho (fun hle => hi hle ▸ hopen) (hl ▸ hnone)]
  · rw [State.peer_congr (s := s) (by rw [hgrp]; rfl)]
    exact ⟨rfl, rfl⟩
  · rw [show (s.setLeg i l).out = s.out from (s.setLeg_touches i l).same .out (by decide)]

theorem Traffic.emit (o : Out) : Traffic s (s.emit o) :=
  ⟨(s.emit_touches o).mono (by decide), ⟨_, _, _, rfl⟩, .of_grp rfl rfl rfl rfl, fun _ _ _ => rfl, List.suffix_cons ..⟩

theorem Traffic.pmuEvent (c n : Nat) : Traffic s (s.pmuEvent c n) :=
  ⟨(s.pmuEvent_touches c n).mono (by decide), ⟨_, _, _, s.pmuEvent_grp c n⟩, .of_grp (by simp) (by simp) (by simp) (by simp),
    fun _ _ hp => State.pmuEvent_rd_ne s c n hp, by simp⟩

theorem Traffic.nextRec (m : StayMsg) : Traffic s (s.nextRec m).1 :=
  ⟨.of fun f => by cases f <;> first | exact .inr rfl | exact .inl (by decide), ⟨_, _, _, rfl⟩, .of_grp rfl rfl rfl rfl, fun _ _ _ => rfl,
    List.suffix_refl _⟩

/-! ## Sending -/

theorem Traffic.frameOn (i : Nat) (r : StayRec) : Traffic s (s.frameOn i r) :=
  ((Traffic.setLeg s (i := i) (l := { s.leg i with
    nextLink := ((s.leg i).nextLink + 1) % 256, replay := takeLast 16 ((s.leg i).replay ++ [⟨(s.leg i).nextLink, 0, s.time.up, r⟩]) })
    rfl rfl fun _ h => h).trans (.emit _ _)).trans (.pmuEvent _ 8 0)

theorem State.frameOn_out (i : Nat) (r : StayRec) : (s.frameOn i r).out = .stay i (s.leg i).nextLink r :: s.out := by
  have hset (l : Leg) : (s.setLeg i l).out = s.out := (s.setLeg_touches i l).same .out (by decide)
  simp only [State.frameOn, State.pmuEvent_out, State.emit, hset]

/-- A frame on one leg leaves the other as it is. -/
theorem State.leg_frameOn_ne {i j : Nat} (h : ¬ (i = 0 ↔ j = 0)) (r : StayRec) : (s.frameOn i r).leg j = s.leg j := by
  rw [State.leg_congr (s := (s.setLeg i _).emit _) (by rw [State.frameOn, State.pmuEvent_grp]),
    State.leg_congr (s := s.setLeg i _) (State.emit_grp ..), State.leg_setLeg, if_neg h]

variable {s}

theorem State.sendLeg_open (h : s.legOpen i) (r : StayRec) : s.sendLeg i r = s.frameOn i r :=
  if_pos (by rw [h.1, h.2]; rfl)

theorem State.sendLeg_closed (h : ¬ s.legOpen i) (r : StayRec) :
    s.sendLeg i r = s.setLeg i { s.leg i with outage := takeLast 512 ((s.leg i).outage ++ [r]) } :=
  if_neg fun hu => h (Bool.and_eq_true_iff.1 hu)

variable (s)

theorem Traffic.sendLeg (r : StayRec) (hi : i ≤ 1) : Traffic s (s.sendLeg i r) := by
  by_cases h : s.legOpen i
  · rw [State.sendLeg_open h]
    exact .frameOn s i r
  · rw [State.sendLeg_closed h]
    exact .setLeg s rfl rfl fun hopen => absurd (hopen hi) h

theorem Traffic.sendBoth (m : StayMsg) : Traffic s (s.sendBoth m) :=
  ((Traffic.nextRec s m).trans (.sendLeg _ _ (by decide))).trans (.sendLeg _ _ (by decide))

theorem State.sendAll_eq (m : StayMsg) : s.sendAll m = if s.sendsRecords then s.sendBoth m else s := rfl

theorem Traffic.sendAll (m : StayMsg) : Traffic s (s.sendAll m) := by
  rw [State.sendAll_eq]
  split
  · exact .sendBoth s m
  · exact .refl s

theorem Traffic.sendHello (i : Nat) : Traffic s (s.sendHello i) := by
  unfold State.sendHello
  split
  · exact (Traffic.nextRec s _).trans (.frameOn _ i _)
  · exact .refl s

theorem Traffic.relay (h : RecHdr) (m : StayMsg) : Traffic s (s.relay h m) := by
  unfold State.relay
  split
  · exact .sendLeg s _ (by omega)
  · exact .refl s

theorem Traffic.flushLeg (hi : i ≤ 1) : Traffic s (s.flushLeg i) :=
  (Traffic.setLeg s (i := i) (l := { s.leg i with outage := [] }) rfl rfl fun _ _ => rfl).trans
    (.foldl (fun t r => .sendLeg t r hi) _ _)

theorem State.sendBoth_recSeq (m : StayMsg) : (s.sendBoth m).grp.recSeq = (s.grp.recSeq + 1) % 2 ^ 32 := by
  have hset (t : State) (i : Nat) (l : Leg) : (t.setLeg i l).grp.recSeq = t.grp.recSeq := by
    unfold State.setLeg
    split <;> rfl
  have hone (t : State) (i : Nat) (r : StayRec) : (t.sendLeg i r).grp.recSeq = t.grp.recSeq := by
    unfold State.sendLeg State.frameOn
    dsimp only
    split
    · rw [State.pmuEvent_grp, State.emit_grp, hset]
    · exact hset ..
  exact (hone ..).trans (hone ..)

variable {s}

/-- With both legs in use a record leaves on both, first on A (R225). -/
theorem State.sendBoth_out (h0 : s.legOpen 0) (h1 : s.legOpen 1) (m : StayMsg) : (s.sendBoth m).out =
    .stay 1 (s.leg 1).nextLink ⟨s.grp.recSeq, s.grp.rank, false, m⟩ :: .stay 0 (s.leg 0).nextLink ⟨s.grp.recSeq, s.grp.rank, false, m⟩
      :: s.out := by
  have hfirst : (s.nextRec m).1.legOpen 0 := h0
  have hsecond : ((s.nextRec m).1.frameOn 0 (s.nextRec m).2).legOpen 1 := by
    have hkept := (Traffic.frameOn (s.nextRec m).1 0 (s.nextRec m).2).kept
    exact ⟨(hkept.port 1).trans h1.1, (hkept.hello 1).trans h1.2⟩
  rw [State.sendBoth, State.sendLeg_open hfirst, State.sendLeg_open hsecond, State.frameOn_out, State.frameOn_out,
    State.leg_frameOn_ne _ (by decide)]
  rfl

end legs

end Sys2Proof.Machine
end

section
/-!
PROOFS. The record layer (R225, R227 to R230, R249): which frames are passed up, and which of their records count.
-/
namespace Sys2Proof.Machine
open Sys2Proof

/-! ## Frames (R227, R229) -/

section linkIn
variable {s : State} {h : RecHdr} {m : StayMsg} {b : List Byte}

/-- The next frame in order has been acknowledged (R227). -/
def State.acked (s : State) (h : RecHdr) : State :=
  (s.setLeg h.leg { s.leg h.leg with rxLink := ((s.leg h.leg).rxLink + 1) % 256 }).emit (.ack h.leg h.link)

theorem State.linkIn_off (hon : (s.member && s.portUp h.leg) = false) : s.linkIn h m b = (s, false) :=
  if_pos (by rw [← Bool.not_and, hon]; rfl)

theorem State.linkIn_on (hon : (s.member && s.portUp h.leg) = true) : s.linkIn h m b =
    if !(h.crcOk m b) then (s.bump Reg.GRP_LATE_RECORDS, false)
    else if h.link = (s.leg h.leg).rxLink then (s.acked h, true)
    else if ((s.leg h.leg).rxLink + 256 - h.link) % 256 ≤ 16 then (s.emit (.ack h.leg h.link), false)
    else (s, false) :=
  if_neg (by rw [← Bool.not_and, hon]; decide)

theorem State.linkIn_broken (hon : (s.member && s.portUp h.leg) = true) (hc : h.crc ≠ crc32c (h.bytes m b)) :
    s.linkIn h m b = (s.bump Reg.GRP_LATE_RECORDS, false) := by
  rw [State.linkIn_on hon, if_pos (by simp [RecHdr.crcOk, hc])]

theorem State.linkIn_whole (hon : (s.member && s.portUp h.leg) = true) (hc : h.crc = crc32c (h.bytes m b)) : s.linkIn h m b =
    if h.link = (s.leg h.leg).rxLink then (s.acked h, true)
    else if ((s.leg h.leg).rxLink + 256 - h.link) % 256 ≤ 16 then (s.emit (.ack h.leg h.link), false)
    else (s, false) := by
  rw [State.linkIn_on hon, if_neg (by simp [RecHdr.crcOk, hc])]

/-- A frame that is passed up is the next in order. -/
theorem State.linkIn_up (hup : (s.linkIn h m b).2 = true) : (s.linkIn h m b).1 = s.acked h := by
  cases hon : s.member && s.portUp h.leg with
  | false =>
    rw [State.linkIn_off hon] at hup
    cases hup
  | true =>
    rw [State.linkIn_on hon] at hup ⊢
    split at hup <;> rename_i hbad
    · cases hup
    · rw [if_neg hbad]
      split at hup <;> rename_i hnext
      · rw [if_pos hnext]
      · split at hup <;> cases hup

variable (s h)

theorem Traffic.acked : Traffic s (s.acked h) :=
  (Traffic.setLeg s (i := h.leg) (l := { s.leg h.leg with rxLink := ((s.leg h.leg).rxLink + 1) % 256 }) rfl rfl fun _ hn => hn).trans
    (.emit _ _)

theorem State.acked_ours : (s.acked h).ours h = s.ours h := by
  have hgrp := Traffic.acked s h
  have hid : (s.acked h).grp.groupId = s.grp.groupId := hgrp.same (·.groupId) fun _ _ _ _ => rfl
  unfold State.ours State.member
  rw [hgrp.role, hid, hgrp.size, hgrp.own]

end linkIn

/-! ## Records (R225, R228, R229, R249) -/

section enterRecord
variable {s : State} {h : RecHdr} {late : Bool} {m : StayMsg}

/-- The header is of this group and another member, and the hello of the leg it came on has passed (R225, R228). -/
def State.admitsRec (s : State) (h : RecHdr) : Bool := s.ours h && (s.leg h.leg).helloOk

/-- A record is for this unit: of types 4, 5 and 7 only one that names it (R228). -/
def State.isFor (s : State) (h : RecHdr) (m : StayMsg) : Bool := !m.direct || h.dest == s.grp.rank

/-- A record whose number has been noted, and which a triad has passed on (R228). -/
def State.notedRec (s : State) (h : RecHdr) (m : StayMsg) : State :=
  (s.notePeer h.rank h.role h.recSeq).when (!m.direct || !(s.isFor h m)) (·.relay h m)

/-- A record of a member that is not ACTIVE: from the first in takeover order it ends a candidate's wait (R249). -/
def State.fromOther (s : State) (rank : Nat) : State :=
  if (takeoverOrder s.grp.activeRank s.grp.size).head? == some rank then { s with grp := { s.grp with waiting := false } } else s

theorem State.enterRecord_foreign (ha : s.admitsRec h = false) : s.enterRecord h late m = (s, false) :=
  if_pos (by rw [← Bool.not_and]; exact congrArg (!·) ha)

theorem State.enterRecord_admitted (ha : s.admitsRec h = true) : s.enterRecord h late m =
    if late then (s.bump Reg.GRP_LATE_RECORDS, false)
    else if (s.peer h.rank).seen.contains h.recSeq then (s.bump Reg.GRP_DUP_RECORDS, false)
    else (if h.role = 1 then (s.notedRec h m).fromActive h.rank else (s.notedRec h m).fromOther h.rank, s.isFor h m) :=
  if_neg (by rw [← Bool.not_and, show (s.ours h && (s.leg h.leg).helloOk) = true from ha]; decide)

theorem State.enterRecord_late (ha : s.admitsRec h = true) : s.enterRecord h true m = (s.bump Reg.GRP_LATE_RECORDS, false) := by
  rw [State.enterRecord_admitted ha, if_pos rfl]

theorem State.enterRecord_seen (ha : s.admitsRec h = true) (hs : (s.peer h.rank).seen.contains h.recSeq = true) :
    s.enterRecord h false m = (s.bump Reg.GRP_DUP_RECORDS, false) := by
  rw [State.enterRecord_admitted ha, if_neg (by decide), if_pos hs]

theorem State.enterRecord_new (ha : s.admitsRec h = true) (hs : (s.peer h.rank).seen.contains h.recSeq = false) :
    s.enterRecord h false m =
      (if h.role = 1 then (s.notedRec h m).fromActive h.rank else (s.notedRec h m).fromOther h.rank, s.isFor h m) := by
  rw [State.enterRecord_admitted ha, if_neg (by decide), if_neg (by rw [hs]; decide)]

end enterRecord

/-! ## Rows that end with a record that does not count -/

section stops

/-- Where its record is not taken, the row ends with what the record layer leaves. -/
def StopsAt (i : Instr) (s : State) (h : RecHdr) (late : Bool) (m : StayMsg) (b : List Byte) : Prop :=
  (s.takeBytes h late m b).2 = false → Gives i s (s.takeBytes h late m b).1

/-- A row whose record is taken first, what follows depending on whether it counts. -/
theorem StopsAt.of_guard {i : Instr} {s : State} {h : RecHdr} {late : Bool} {m : StayMsg} {b : List Byte} {q : Bool} {f : State}
    (hx : exec i s = .next (if !(s.takeBytes h late m b).2 || q then (s.takeBytes h late m b).1 else f)) : StopsAt i s h late m b :=
  fun hno => hx.trans (congrArg _ (if_pos (by rw [hno]; rfl)))

theorem StopsAt.of_taken {i : Instr} {s : State} {h : RecHdr} {late : Bool} {m : StayMsg} {b : List Byte} {f : State}
    (hx : exec i s = .next (if !(s.takeBytes h late m b).2 then (s.takeBytes h late m b).1 else f)) : StopsAt i s h late m b :=
  fun hno => hx.trans (congrArg _ (if_pos (by rw [hno]; rfl)))

variable {i : Instr} {s : State} {h : RecHdr} {late : Bool} {m : StayMsg} {b : List Byte}

theorem State.takeBytes_down (hup : (s.linkIn h m b).2 = false) : s.takeBytes h late m b = s.linkIn h m b :=
  if_neg (by rw [hup]; decide)

theorem State.takeBytes_up (hup : (s.linkIn h m b).2 = true) : s.takeBytes h late m b = (s.acked h).enterRecord h late m := by
  rw [State.takeBytes, if_pos hup, State.linkIn_up hup]

variable (s h) in
theorem State.acked_admitsRec : (s.acked h).admitsRec h = s.admitsRec h := by
  unfold State.admitsRec
  rw [State.acked_ours, (Traffic.acked s h).kept.hello]

/-- Which frames and records end their row: one not passed up, a foreign one, a late one, one seen before (R225, R228, R229). -/
theorem StopsAt.clauses (hstop : StopsAt i s h late m b) : let t := s.linkIn h m b
    (t.2 = false → Gives i s t.1)
    ∧ (t.2 = true → s.admitsRec h = false → Gives i s t.1)
    ∧ (t.2 = true → s.admitsRec h = true → late = true → Gives i s (t.1.bump Reg.GRP_LATE_RECORDS))
    ∧ (t.2 = true → s.admitsRec h = true → late = false → (s.peer h.rank).seen.contains h.recSeq = true →
        Gives i s (t.1.bump Reg.GRP_DUP_RECORDS)) := by
  have hends {u : State} (htake : s.takeBytes h late m b = (u, false)) : Gives i s u := by
    have hgive := hstop (by rw [htake])
    rwa [htake] at hgive
  refine ⟨fun hup => ?_, fun hup ha => ?_, fun hup ha hl => ?_, fun hup ha hl hs => ?_⟩
  · exact hends ((State.takeBytes_down hup).trans (Prod.ext rfl hup))
  · rw [State.linkIn_up hup]
    exact hends ((State.takeBytes_up hup).trans (State.enterRecord_foreign ((s.acked_admitsRec h).trans ha)))
  · rw [State.linkIn_up hup]
    rw [hl] at hends
    exact hends ((State.takeBytes_up hup).trans (State.enterRecord_late ((s.acked_admitsRec h).trans ha)))
  · rw [State.linkIn_up hup]
    rw [hl] at hends
    rw [← (Traffic.acked s h).peer] at hs
    exact hends ((State.takeBytes_up hup).trans (State.enterRecord_seen ((s.acked_admitsRec h).trans ha) hs))

end stops

end Sys2Proof.Machine
end

section
/-!
PROOFS. A record that counts (R228, R249, R251), and who sends records in its role (Table 12-2).
-/
namespace Sys2Proof.Machine
open Sys2Proof

/-! ## Roles -/

/-- The machine in another role, the other members not told. -/
def State.inRole (s : State) (r : Role) : State := { s with grp := { s.grp with role := r } }

theorem State.setRole_same {s : State} {r : Role} (h : s.grp.role = r) : s.setRole r = s := if_pos (by rw [h]; exact beq_self_eq_true r)

theorem State.setRole_other {s : State} {r : Role} (h : s.grp.role ≠ r) (hr : r ≠ .active) :
    s.setRole r = (s.inRole r).sendBoth (.roleChange r.code) :=
  (if_neg (by simpa using h)).trans (if_neg (by simpa using hr))

/-- A change to a role other than ACTIVE is told on the legs and no more (R260). -/
theorem Traffic.setRole (s : State) {r : Role} (hr : r ≠ .active) : Traffic (s.inRole r) (s.setRole r) := by
  by_cases h : s.grp.role = r
  · rw [State.setRole_same h, State.inRole, ← h]
    exact .refl s
  · rw [State.setRole_other h hr]
    exact .sendBoth _ _

theorem State.setRole_role (s : State) {r : Role} (hr : r ≠ .active) : (s.setRole r).grp.role = r := (Traffic.setRole s hr).role

/-- Resyncing every channel changes the channels' state in the group only. -/
theorem State.resyncAll_grp (s : State) : ∃ c, s.resyncAll.grp = { s.grp with chans := c } := by
  have hfold (l : List Nat) (t : State) : ∃ c, (l.foldl (fun (t : State) c => t.updGch c (·.resync)) t).grp = { t.grp with chans := c } := by
    induction l generalizing t with
    | nil => exact ⟨_, rfl⟩
    | cons x l ih =>
      obtain ⟨c, hc⟩ := ih (t.updGch x (·.resync))
      exact ⟨c, hc⟩
  exact hfold ..

/-! ## A record of the ACTIVE (R249, R251) -/

/-- The member knows which rank is ACTIVE and waits no longer (R249). -/
def State.knowsActive (s : State) (rank : Nat) : State := { s with grp := { s.grp with activeRank := rank, waiting := false } }

/-- The group has formed (Table 12-10). -/
def State.formed (s : State) : State := { s with grp := { s.grp with forming := false } }

section fromActive
variable {s : State} (rank : Nat)

theorem State.fromActive_active (hr : s.grp.role = .active) : s.fromActive rank = s.overlap rank 0xFF := if_pos (by rw [hr]; rfl)

theorem State.fromActive_forming (hr : s.grp.role = .unverified) (hf : s.grp.forming = true) :
    s.fromActive rank = (s.knowsActive rank).formed.setRole .standby :=
  (if_neg (by rw [hr]; decide)).trans ((if_pos (by rw [hr]; rfl)).trans (if_pos hf))

theorem State.fromActive_joining (hr : s.grp.role = .unverified) (hf : s.grp.forming = false) :
    s.fromActive rank = (s.knowsActive rank).resyncAll.setRole .joining :=
  (if_neg (by rw [hr]; decide)).trans ((if_pos (by rw [hr]; rfl)).trans (if_neg (by rw [hf]; decide)))

theorem State.fromActive_known (ha : s.grp.role ≠ .active) (hu : s.grp.role ≠ .unverified) : s.fromActive rank = s.knowsActive rank :=
  (if_neg (by simpa using ha)).trans (if_neg (by simpa using hu))

theorem State.fromActive_standby (hr : s.grp.role = .unverified) (hf : s.grp.forming = true) :
    (s.fromActive rank).grp.role = .standby := by
  rw [State.fromActive_forming rank hr hf]
  exact State.setRole_role _ (by decide)

theorem State.fromActive_rejoins (hr : s.grp.role = .unverified) (hf : s.grp.forming = false) :
    (s.fromActive rank).grp.role = .joining := by
  rw [State.fromActive_joining rank hr hf]
  exact State.setRole_role _ (by decide)

/-- A member that is not ACTIVE itself learns who is, and keeps what it knows of its peers. -/
theorem State.fromActive_knows (ha : s.grp.role ≠ .active) : (s.fromActive rank).grp.activeRank = rank
    ∧ (s.fromActive rank).grp.waiting = false ∧ (s.fromActive rank).grp.peers = s.grp.peers := by
  have hrole {t : State} {r : Role} (hr : r ≠ .active) : (t.setRole r).grp.activeRank = t.grp.activeRank
      ∧ (t.setRole r).grp.waiting = t.grp.waiting ∧ (t.setRole r).grp.peers = t.grp.peers :=
    have h := Traffic.setRole t hr
    ⟨h.same (·.activeRank) fun _ _ _ _ => rfl, h.same (·.waiting) fun _ _ _ _ => rfl, h.same (·.peers) fun _ _ _ _ => rfl⟩
  by_cases hu : s.grp.role = .unverified
  · cases hf : s.grp.forming with
    | true =>
      rw [State.fromActive_forming rank hu hf]
      exact hrole (by decide)
    | false =>
      rw [State.fromActive_joining rank hu hf]
      obtain ⟨c, hc⟩ := (s.knowsActive rank).resyncAll_grp
      obtain ⟨hk, hw, hp⟩ := hrole (t := (s.knowsActive rank).resyncAll) (r := .joining) (by decide)
      rw [hk, hw, hp, hc]
      exact ⟨rfl, rfl, rfl⟩
  · rw [State.fromActive_known rank ha hu]
    exact ⟨rfl, rfl, rfl⟩

end fromActive

/-! ## A record that counts (R228) -/

theorem getLast?_takeLast_concat {α : Type} {n : Nat} (hn : 0 < n) (l : List α) (a : α) : (takeLast n (l ++ [a])).getLast? = some a := by
  rw [takeLast, List.length_append, List.length_singleton, List.drop_append_of_le_length (by omega), List.getLast?_concat]

section counted
variable (s : State) (h : RecHdr) (m : StayMsg)

theorem State.peer_notePeer (k role q : Nat) :
    (s.notePeer k role q).peer k = { s.peer k with role := role, seen := takeLast 4096 ((s.peer k).seen ++ [q]) } :=
  tgetD_tset_self ..

theorem Traffic.when_relay (c : Bool) : Traffic s (s.when c (·.relay h m)) := by
  cases c
  · exact .refl s
  · exact .relay s h m

theorem Traffic.notedRec : Traffic (s.notePeer h.rank h.role h.recSeq) (s.notedRec h m) := .when_relay ..

theorem State.notedRec_role : (s.notedRec h m).grp.role = s.grp.role := (Traffic.notedRec s h m).role

theorem State.notedRec_forming : (s.notedRec h m).grp.forming = s.grp.forming :=
  (Traffic.notedRec s h m).same (·.forming) fun _ _ _ _ => rfl

theorem State.notedRec_activeRank : (s.notedRec h m).grp.activeRank = s.grp.activeRank :=
  (Traffic.notedRec s h m).same (·.activeRank) fun _ _ _ _ => rfl

theorem State.peer_notedRec : ((s.notedRec h m).peer h.rank).role = h.role
    ∧ ((s.notedRec h m).peer h.rank).seen.getLast? = some h.recSeq := by
  have hlast := getLast?_takeLast_concat (n := 4096) (by omega) (s.peer h.rank).seen h.recSeq
  rw [(Traffic.notedRec s h m).peer, State.peer_notePeer]
  dsimp only
  exact ⟨rfl, hlast⟩

variable {s h m}

/-- A record for this unit alone, or one that has been relayed, or of a pair, goes no further. -/
theorem State.notedRec_quiet (hq : s.grp.size ≠ 3 ∨ h.relayed = true ∨ (m.direct = true ∧ h.dest = s.grp.rank)) :
    s.notedRec h m = s.notePeer h.rank h.role h.recSeq := by
  have hrelay (hno : ¬ (s.grp.size = 3 ∧ (!h.relayed) = true)) (c : Bool) :
      (s.notePeer h.rank h.role h.recSeq).when c (·.relay h m) = s.notePeer h.rank h.role h.recSeq := by
    cases c
    · rfl
    · exact if_neg hno
  unfold State.notedRec
  rcases hq with hsize | hrel | ⟨hd, hme⟩
  · exact hrelay (fun hc => hsize hc.1) _
  · exact hrelay (by simp [hrel]) _
  · simp [State.isFor, hd, hme, State.when]

/-- In a triad a record that came directly leaves on the other leg (R228). -/
theorem State.notedRec_relays (hsize : s.grp.size = 3) (hrel : h.relayed = false) (hfor : m.direct = false ∨ h.dest ≠ s.grp.rank)
    (hopen : s.legOpen (1 - h.leg)) :
    (s.notedRec h m).out = .stay (1 - h.leg) (s.leg (1 - h.leg)).nextLink ⟨h.recSeq, h.rank, true, m⟩ :: s.out := by
  have hgo : (!m.direct || !(s.isFor h m)) = true := by
    rcases hfor with hd | hd
    · rw [hd]; rfl
    · simp [State.isFor, hd]
  rw [State.notedRec, hgo]
  change ((s.notePeer h.rank h.role h.recSeq).relay h m).out = _
  rw [State.relay, if_pos ⟨hsize, by rw [hrel]; rfl⟩, State.sendLeg_open (s := s.notePeer h.rank h.role h.recSeq) hopen,
    State.frameOn_out]
  rfl

/-- What a member that is not ACTIVE makes of a record that counts (R228, R249, R251). -/
theorem State.enterRecord_counts (ha : s.admitsRec h = true) (hs : (s.peer h.rank).seen.contains h.recSeq = false)
    (hr : s.grp.role ≠ .active) : let u := (s.enterRecord h false m).1
    (u.peer h.rank).role = h.role ∧ (u.peer h.rank).seen.getLast? = some h.recSeq
      ∧ (h.role = 1 → u.grp.activeRank = h.rank ∧ u.grp.waiting = false)
      ∧ (h.role ≠ 1 → u.grp.activeRank = s.grp.activeRank ∧ u.grp.role = s.grp.role)
      ∧ (h.role = 1 → s.grp.role = .unverified → s.grp.forming = true → u.grp.role = .standby)
      ∧ (h.role = 1 → s.grp.role = .unverified → s.grp.forming = false → u.grp.role = .joining)
      ∧ (h.role ≠ 1 → u.out = (s.notedRec h m).out) := by
  have hn : (s.notedRec h m).grp.role ≠ .active := (s.notedRec_role h m).symm ▸ hr
  obtain ⟨hrole, hseen⟩ := s.peer_notedRec h m
  rw [State.enterRecord_new ha hs]
  by_cases h1 : h.role = 1
  · obtain ⟨hknows, hwaits, hpeers⟩ := State.fromActive_knows h.rank hn
    simp only [if_pos h1]
    rw [State.peer_congr hpeers]
    refine ⟨hrole, hseen, fun _ => ⟨hknows, hwaits⟩, fun h0 => absurd h1 h0, fun _ hu hf => ?_, fun _ hu hf => ?_, fun h0 => absurd h1 h0⟩
    · exact State.fromActive_standby _ ((s.notedRec_role h m).trans hu) ((s.notedRec_forming h m).trans hf)
    · exact State.fromActive_rejoins _ ((s.notedRec_role h m).trans hu) ((s.notedRec_forming h m).trans hf)
  · have hother (t : State) (k : Nat) : (t.fromOther k).grp.peers = t.grp.peers ∧ (t.fromOther k).grp.activeRank = t.grp.activeRank
        ∧ (t.fromOther k).grp.role = t.grp.role ∧ (t.fromOther k).out = t.out := by
      unfold State.fromOther
      split <;> exact ⟨rfl, rfl, rfl, rfl⟩
    obtain ⟨hpeers, hactive, hsame, hout⟩ := hother (s.notedRec h m) h.rank
    simp only [if_neg h1]
    rw [State.peer_congr hpeers]
    exact ⟨hrole, hseen, fun h0 => absurd h0 h1, fun _ => ⟨hactive.trans (s.notedRec_activeRank h m), hsame.trans (s.notedRec_role h m)⟩,
      fun h0 => absurd h0 h1, fun h0 => absurd h0 h1, fun _ => hout⟩

end counted

/-! ## Who sends records (Table 12-2) -/

section sends
variable {s : State} {m : StayMsg}

theorem State.sendAll_silent (h : s.sendsRecords = false) : s.sendAll m = s := by
  rw [State.sendAll_eq, if_neg (by rw [h]; decide)]

theorem State.sendAll_sends (h : s.sendsRecords = true) : s.sendAll m = s.sendBoth m := by
  rw [State.sendAll_eq, if_pos h]

theorem State.sendsRecords_of (h : s.grp.role = .active ∨ s.grp.role = .standby ∨ s.grp.role = .joining) : s.sendsRecords = true := by
  rcases h with h | h | h <;> rw [State.sendsRecords, h]

theorem State.sendsRecords_outside (h : s.grp.role = .none ∨ s.grp.role = .detached) : s.sendsRecords = false := by
  rcases h with h | h <;> rw [State.sendsRecords, h]

theorem State.sendsRecords_alone (h : s.grp.role = .unverified) (h0 : s.portUp 0 = false) (h1 : s.portUp 1 = false) :
    s.sendsRecords = false := by
  rw [State.sendsRecords, h]
  simp [h0, h1]

end sends

/-! ## The rows of records -/

section rows
variable (s : State) (h : RecHdr)

theorem stopsAt_rowRecord (r : RowRec) : StopsAt (.rowRecord h r) s h (s.rowLate r) (.row r) (StayMsg.body h (.row r)) := .of_taken rfl

theorem stopsAt_pictureRecord (r : PicRec) : StopsAt (.pictureRecord h r) s h (s.picLate r) (.pic r) (StayMsg.body h (.pic r)) :=
  .of_taken rfl

theorem stopsAt_gapRecord (r : GapRec) : StopsAt (.gapRecord h r) s h (s.gapLate r) (.gap r) (StayMsg.body h (.gap r)) := .of_taken rfl

theorem stopsAt_repairRequest (a f n : Nat) :
    StopsAt (.repairRequest h a f n) s h false (.repairRequest a f n) (StayMsg.body h (.repairRequest a f n)) := .of_taken rfl

theorem stopsAt_repairData (a q i : Nat) (p : RtpPacket) :
    StopsAt (.repairData h a ⟨q, p⟩ i) s h false (.repairData a q p) (StayMsg.body h (.repairData a q p)) := .of_taken rfl

theorem stopsAt_handover (t k : Nat) (l : List Nat) :
    StopsAt (.handover h t k l) s h false (.handover t k l) (StayMsg.body h (.handover t k l)) := .of_taken rfl

theorem stopsAt_handoverAck (t : Nat) : StopsAt (.handoverAck h t) s h false (.handoverAck t) (StayMsg.body h (.handoverAck t)) :=
  .of_taken rfl

theorem stopsAt_standDown (a : Nat) : StopsAt (.standDown h a) s h false (.standDown a) (StayMsg.body h (.standDown a)) := .of_taken rfl

theorem stopsAt_rejoinPlan (l : List (Nat × Nat × Option Nat)) :
    StopsAt (.rejoinPlan h l) s h false (.rejoinPlan l) (StayMsg.body h (.rejoinPlan l)) := .of_guard (q := h.role != 1) rfl

theorem stopsAt_rejoinDone (l : List Nat) : StopsAt (.rejoinDone h l) s h false (.rejoinDone l) (StayMsg.body h (.rejoinDone l)) :=
  .of_taken rfl

theorem stopsAt_copyRecord (y : CopyRec) :
    StopsAt (.copyRecord h y) s h false (.copy y.chan y.block y.copy y.slot) (copyBody h y) := by
  intro hno
  refine congrArg Host.Outcome.next (if_pos ?_)
  rw [hno]
  rfl

end rows

/-- Settles O46: the frame by the branches of the link layer, each row by where its record stops, then a record that counts and who
sends. -/
theorem recordLayer : Obligations.RecordLayer := by
  unfold Obligations.RecordLayer
  refine ⟨fun s h m b => ?frames, fun s h r p g a b l y x pl => ?rows, fun s h m ho hl hs hr => ?counts, fun s m => ?sends⟩
  case frames =>
    refine ⟨State.linkIn_off, State.linkIn_broken, fun hon hc => ?_⟩
    rw [State.linkIn_whole hon hc]
    exact ⟨fun hn => if_pos hn, fun hn ha => (if_neg hn).trans (if_pos ha), fun hn ha => (if_neg hn).trans (if_neg (by omega))⟩
  case rows =>
    intro of_ all mine
    have hstops : ∀ k ∈ all, StopsAt k.1 s h k.2.2.2 k.2.1 k.2.2.1 := by
      simp only [all, of_, List.forall_mem_cons]
      exact ⟨stopsAt_rowRecord s h r, stopsAt_pictureRecord s h p, stopsAt_gapRecord s h g, stopsAt_repairRequest s h a b b,
        stopsAt_repairData s h a b b x, stopsAt_handover s h a b l, stopsAt_handoverAck s h a, stopsAt_standDown s h a,
        stopsAt_rejoinPlan s h pl, stopsAt_rejoinDone s h l, stopsAt_copyRecord s h y, List.forall_mem_nil _⟩
    exact fun k hk => (hstops k hk).clauses
  case counts =>
    have ha : s.admitsRec h = true := Bool.and_eq_true_iff.2 ⟨ho, hl⟩
    obtain ⟨hrole, hseen, hactive, hother, hstandby, hjoining, hout⟩ := State.enterRecord_counts (m := m) ha hs hr
    have hframe := State.enterRecord_touches s h false m
    refine ⟨congrArg Prod.snd (State.enterRecord_new ha hs), hrole, hseen, hactive, hother, hstandby, hjoining, fun h1 hq => ?_,
      fun hsize hrel h1 hd hport hhello => ?_, hframe.same .chans (by decide), hframe.same .net (by decide), hframe.same .mem (by decide)⟩
    · rw [hout h1, State.notedRec_quiet hq]
      rfl
    · rw [hout h1, State.notedRec_relays hsize hrel hd ⟨hport, hhello⟩]
  case sends =>
    refine ⟨fun h => State.sendAll_silent (State.sendsRecords_outside h), fun h h0 h1 =>
      State.sendAll_silent (State.sendsRecords_alone h h0 h1), fun h h0 hh0 h1 hh1 => ?_⟩
    rw [State.sendAll_sends (State.sendsRecords_of h)]
    exact ⟨State.sendBoth_out ⟨h0, hh0⟩ ⟨h1, hh1⟩ m, s.sendBoth_recSeq m⟩

end Sys2Proof.Machine
end

section
/-!
PROOFS. Hellos (R225, R228, R232, R256): what the record layer leaves of the legs and of what the hellos have told, and what a hello does.
-/
namespace Sys2Proof.Machine
open Sys2Proof

/-! ## What keeps the legs and what the hellos told -/

namespace HelloKept
variable {s t : State}

theorem of_touches {l : List Fld} (h : Touches l s t) (hg : .grp ∉ l) (hl : .lane ∉ l) : HelloKept s t := by
  have hgrp : t.grp = s.grp := h.same .grp hg
  exact .of_grp (by rw [hgrp]) (by rw [hgrp]) (by rw [hgrp]) (h.same .lane hl)

theorem foldl {β : Type} {f : State → β → State} (h : ∀ t x, HelloKept t (f t x)) (xs : List β) (s : State) :
    HelloKept s (xs.foldl f s) := by
  induction xs generalizing s with
  | nil => exact .refl s
  | cons x xs ih => exact (h s x).trans (ih _)

variable (s)

theorem updGch (c : Nat) (f : GrpChan → GrpChan) : HelloKept s (s.updGch c f) := .of_grp rfl rfl rfl rfl

/-- A peer noted anew, with what its hello told. -/
theorem setPeer {k : Nat} {p : Peer} (hm : p.macs = (s.peer k).macs) (hl : p.level = (s.peer k).level) :
    HelloKept s { s with grp := { s.grp with peers := tset s.grp.peers k p } } := by
  refine ⟨fun _ => rfl, fun _ => rfl, fun _ => rfl, fun _ _ _ h => h, fun j => ?_⟩
  unfold State.peer at *
  by_cases hj : k = j
  · rw [← hj, tgetD_tset_self]
    exact ⟨hm, hl⟩
  · rw [tgetD_tset_ne hj]
    exact ⟨rfl, rfl⟩

theorem setRole {r : Role} (hr : r ≠ .active) : HelloKept s (s.setRole r) :=
  have hrole : HelloKept s (s.inRole r) := .of_grp rfl rfl rfl rfl
  hrole.trans (Traffic.setRole s hr).kept

end HelloKept

/-! ## What keeps the picture records of a group -/

theorem State.gch_updGch (s : State) (c k : Nat) (f : GrpChan → GrpChan) :
    (s.updGch c f).gch k = if c = k then f (s.gch c) else s.gch k := by
  unfold State.updGch State.gch
  split
  case isTrue h => rw [← h, tgetD_tset_self]
  case isFalse h => rw [tgetD_tset_ne h]

/-- Every channel keeps its picture records (R244). -/
structure PicsKept (s t : State) : Prop where
  pics : ∀ c, (t.gch c).pics = (s.gch c).pics

namespace PicsKept
variable {s t u : State}

theorem refl (s : State) : PicsKept s s := ⟨fun _ => rfl⟩

theorem trans (a : PicsKept s t) (b : PicsKept t u) : PicsKept s u := ⟨fun c => (b.pics c).trans (a.pics c)⟩

theorem of_gch (h : ∀ c, t.gch c = s.gch c) : PicsKept s t := ⟨fun c => congrArg GrpChan.pics (h c)⟩

theorem updGch (s : State) (c : Nat) {f : GrpChan → GrpChan} (hf : ∀ g, (f g).pics = g.pics) : PicsKept s (s.updGch c f) := by
  refine ⟨fun k => ?_⟩
  rw [State.gch_updGch]
  split
  case isTrue h => rw [hf, h]
  case isFalse => rfl

end PicsKept

/-- The channel's group state once the active has named s_c (R256 step 2). -/
def GrpChan.withCopyAt (n : Nat) (g : GrpChan) : GrpChan := { g with sC := some n, sR := none, rp := none, failedBlocks := [] }

/-- The machine with another group state of the channels. -/
def State.withGrpChans (s : State) (c : Tab GrpChan) : State := { s with grp := { s.grp with chans := c } }

/-- Naming s_c changes the channels' state in the group, but for the picture records, and tells the members (R256 step 2). -/
theorem State.planCopies_tells (s : State) (cs : List Nat) :
    ∃ c l, s.planCopies cs = (s.withGrpChans c).sendAll (.rejoinPlan l) ∧ PicsKept s (s.withGrpChans c) := by
  have hfold (f : State × List (Nat × Nat × Option Nat) → Nat → State × List (Nat × Nat × Option Nat))
      (hf : ∀ a x, ∃ c, (f a x).1 = a.1.withGrpChans c ∧ PicsKept a.1 (a.1.withGrpChans c)) (xs : List Nat)
      (a : State × List (Nat × Nat × Option Nat)) :
      ∃ c, (xs.foldl f a).1 = a.1.withGrpChans c ∧ PicsKept a.1 (a.1.withGrpChans c) := by
    induction xs generalizing a with
    | nil => exact ⟨_, rfl, .refl a.1⟩
    | cons x xs ih =>
      obtain ⟨c, hc, hk⟩ := hf a x
      obtain ⟨d, hd, hj⟩ := ih (f a x)
      rw [hc] at hd hj
      exact ⟨d, hd, hk.trans hj⟩
  unfold State.planCopies
  generalize hr : List.foldl _ (s, []) cs = r
  obtain ⟨c, hc, hk⟩ : ∃ c, r.1 = s.withGrpChans c ∧ PicsKept s (s.withGrpChans c) := by
    rw [← hr]
    refine hfold _ (fun a x => ?_) cs (s, [])
    dsimp only
    split
    · next ch _ =>
      let f := GrpChan.withCopyAt (ch.picAt (a.1.time.now + 2 * ch.cfg.main.tp))
      exact ⟨(a.1.updGch x f).grp.chans, rfl, .updGch a.1 x (f := f) fun _ => rfl⟩
    · exact ⟨_, rfl, .refl a.1⟩
  exact ⟨c, r.2, congrArg (State.sendAll · _) hc, hk⟩

section kept
variable (s : State)

theorem HelloKept.planCopies (cs : List Nat) : HelloKept s (s.planCopies cs) := by
  obtain ⟨c, l, h, -⟩ := s.planCopies_tells cs
  rw [h]
  refine .trans ?_ (Traffic.sendAll _ _).kept
  exact .of_grp rfl rfl rfl rfl

theorem State.planNeeded_cases : s.planNeeded = s ∨ ∃ cs, s.planNeeded = s.planCopies cs := by
  unfold State.planNeeded
  split
  · dsimp only
    split
    · exact .inl rfl
    · exact .inr ⟨_, rfl⟩
  · exact .inl rfl

theorem HelloKept.planNeeded : HelloKept s s.planNeeded := by
  rcases s.planNeeded_cases with h | ⟨cs, h⟩
  · rw [h]
    exact .refl s
  · rw [h]
    exact .planCopies s cs

theorem HelloKept.settleStandDown : HelloKept s s.settleStandDown := by
  unfold State.settleStandDown
  dsimp only
  split
  · refine .trans ?_ (.setRole _ (by decide))
    exact .of_grp rfl rfl rfl rfl
  · exact .refl s

/-- The overlap with rank `k` has been noted and counted (R253). -/
def State.overlapCounted (s : State) (k obj : Nat) : State :=
  ((({ s with grp := { s.grp with overlapWith := some k } } : State).bump Reg.GRP_OVERLAPS).sticky Reg.GRP_STATUS 0x40000).raise
    0x0051 1 obj k

/-- Every channel is emitted to the end of its AU in emission (R253). -/
def State.endsEmission (s : State) : State :=
  s.chans.foldl (fun (t : State) (e : Nat × Chan) => t.updGch e.1 fun g => { g with emitTo := e.2.inEmission.map (·.1) }) s

/-- The unit gives way to rank `k` once the AUs in emission have ended (R253). -/
def State.givesWay (s : State) (k : Nat) : State :=
  { s.endsEmission with grp := { s.endsEmission.grp with standDown := true, activeRank := k } }

theorem State.overlap_eq (k obj : Nat) : s.overlap k obj = if s.grp.role != .active || s.grp.overlapWith == some k then s
    else if k < (s.overlapCounted k obj).grp.rank then ((s.overlapCounted k obj).givesWay k).settleStandDown
    else s.overlapCounted k obj := rfl

theorem HelloKept.overlapCounted (k obj : Nat) : HelloKept s (s.overlapCounted k obj) :=
  .of_grp (by simp [State.overlapCounted]) (by simp [State.overlapCounted]) (by simp [State.overlapCounted])
    (by simp [State.overlapCounted])

theorem HelloKept.givesWay (k : Nat) : HelloKept s (s.givesWay k) := by
  have hends : HelloKept s s.endsEmission := by
    unfold State.endsEmission
    exact .foldl (fun t e => .updGch t e.1 _) s.chans s
  exact hends.trans (.of_grp rfl rfl rfl rfl)

theorem HelloKept.overlap (k obj : Nat) : HelloKept s (s.overlap k obj) := by
  rw [State.overlap_eq]
  split
  · exact .refl s
  · split
    · exact ((HelloKept.overlapCounted s k obj).trans (.givesWay _ k)).trans (.settleStandDown _)
    · exact .overlapCounted s k obj

theorem HelloKept.resyncAll : HelloKept s s.resyncAll := .foldl (fun t c => .updGch t c _) _ _

theorem HelloKept.fromActive (k : Nat) : HelloKept s (s.fromActive k) := by
  have hknow : HelloKept s (s.knowsActive k) := .of_grp rfl rfl rfl rfl
  by_cases ha : s.grp.role = .active
  · rw [State.fromActive_active k ha]
    exact .overlap s k 0xFF
  · by_cases hu : s.grp.role = .unverified
    · cases hf : s.grp.forming with
      | true =>
        rw [State.fromActive_forming k hu hf]
        have hformed : HelloKept (s.knowsActive k) (s.knowsActive k).formed := .of_grp rfl rfl rfl rfl
        exact (hknow.trans hformed).trans (.setRole _ (by decide))
      | false =>
        rw [State.fromActive_joining k hu hf]
        exact (hknow.trans (.resyncAll _)).trans (.setRole _ (by decide))
    · rw [State.fromActive_known k ha hu]
      exact hknow

theorem HelloKept.fromOther (k : Nat) : HelloKept s (s.fromOther k) := by
  unfold State.fromOther
  split
  · exact .of_grp rfl rfl rfl rfl
  · exact .refl s

theorem HelloKept.notePeer (k role q : Nat) : HelloKept s (s.notePeer k role q) := by
  have hpeer := HelloKept.setPeer s (k := k) (p := { s.peer k with role := role, seen := takeLast 4096 ((s.peer k).seen ++ [q]) }) rfl rfl
  exact hpeer.trans (.of_grp rfl rfl rfl rfl)

theorem HelloKept.notedRec (h : RecHdr) (m : StayMsg) : HelloKept s (s.notedRec h m) :=
  (HelloKept.notePeer s h.rank h.role h.recSeq).trans (Traffic.notedRec s h m).kept

theorem HelloKept.enterRecord (h : RecHdr) (late : Bool) (m : StayMsg) : HelloKept s (s.enterRecord h late m).1 := by
  cases ha : s.admitsRec h with
  | false =>
    rw [State.enterRecord_foreign ha]
    exact .refl s
  | true =>
    rw [State.enterRecord_admitted ha]
    split
    · exact .of_touches (State.bump_touches ..) (by decide) (by decide)
    · split
      · exact .of_touches (State.bump_touches ..) (by decide) (by decide)
      · dsimp only
        split
        · exact (HelloKept.notedRec s h m).trans (.fromActive _ _)
        · exact (HelloKept.notedRec s h m).trans (.fromOther _ _)

end kept

/-! ## What a hello tells (Table 12-6) -/

/-- A hello has told a peer's level and addresses. -/
def State.toldBy (s : State) (h : RecHdr) (r : HelloRec) : State :=
  { s with grp := { s.grp with peers := tset s.grp.peers h.rank { s.peer h.rank with level := r.level, macs := r.macs } } }

theorem HelloKept.hailed (s : State) (h : RecHdr) (r : HelloRec) (new : Bool) : HelloKept (s.toldBy h r) (s.hailed h r new) := by
  unfold State.hailed
  dsimp only
  split
  · refine (HelloKept.setPeer (s.toldBy h r) (k := h.rank) (p := { (s.toldBy h r).peer h.rank with needs := tkeys s.chans }) rfl rfl).trans ?_
    unfold State.when
    split
    · exact .planCopies _ _
    · exact .refl _
  · exact .refl _

/-- Once its outage queue is sent, a leg in use has nothing waiting (R228). -/
theorem State.flushLeg_drained {s : State} {i : Nat} (hi : i ≤ 1) (ho : s.legOpen i) : ((s.flushLeg i).leg i).outage = [] := by
  have hclear := Traffic.setLeg s (i := i) (l := { s.leg i with outage := [] }) rfl rfl fun _ _ => rfl
  refine (Traffic.foldl (fun t r => .sendLeg t r hi) (s.leg i).outage _).kept.drained i hi ?_ ?_
  · exact ⟨(hclear.kept.port i).trans ho.1, (hclear.kept.hello i).trans ho.2⟩
  · rw [State.leg_setLeg_self]

/-! ## HELLO (R225, R228, R256) -/

section hello
variable {s : State} {h : RecHdr} {r : HelloRec}

/-- The leg leads to the sender of a hello. -/
def State.openLeg (s : State) (h : RecHdr) : State := s.setLeg h.leg { s.leg h.leg with helloOk := true, peerRank := h.rank }

/-- A good hello has told what it tells, where its number is new, and its leg is open. -/
def State.greeted (s : State) (h : RecHdr) (r : HelloRec) : State :=
  (if !((s.peer h.rank).seen.contains h.recSeq) then s.hailed h r (s.legTo h.rank).isNone else s).openLeg h

/-- A good hello opens its leg to its sender, and one of a new number tells of it. -/
theorem State.greeted_opens (s : State) (h : RecHdr) (r : HelloRec) : ((s.greeted h r).leg h.leg).helloOk = true
    ∧ ((s.greeted h r).leg h.leg).peerRank = h.rank ∧ (s.greeted h r).portUp h.leg = s.portUp h.leg
    ∧ ((s.peer h.rank).seen.contains h.recSeq = false →
        ((s.greeted h r).peer h.rank).macs = r.macs ∧ ((s.greeted h r).peer h.rank).level = r.level) := by
  have hopen (t : State) : ((t.openLeg h).leg h.leg).helloOk = true ∧ ((t.openLeg h).leg h.leg).peerRank = h.rank
      ∧ (t.openLeg h).portUp h.leg = t.portUp h.leg ∧ (t.openLeg h).peer h.rank = t.peer h.rank := by
    have hlane : (t.openLeg h).lane = t.lane := (t.setLeg_touches ..).same .lane (by decide)
    have hpeers : (t.openLeg h).grp.peers = t.grp.peers := by
      unfold State.openLeg State.setLeg
      split <;> rfl
    refine ⟨?_, ?_, congrArg (fun x : LaneState => (tgetD x.ports h.leg {}).st == .up) hlane, State.peer_congr hpeers _⟩
    · rw [State.openLeg, State.leg_setLeg_self]
    · rw [State.openLeg, State.leg_setLeg_self]
  unfold State.greeted
  cases hseen : (s.peer h.rank).seen.contains h.recSeq with
  | true =>
    obtain ⟨hhello, hrank, hport, -⟩ := hopen s
    exact ⟨hhello, hrank, hport, fun h0 => Bool.noConfusion h0⟩
  | false =>
    obtain ⟨hhello, hrank, hport, hpeer⟩ := hopen (s.hailed h r (s.legTo h.rank).isNone)
    have hkept := HelloKept.hailed s h r (s.legTo h.rank).isNone
    obtain ⟨hmacs, hlevel⟩ := hkept.told h.rank
    have htold : (s.toldBy h r).peer h.rank = { s.peer h.rank with level := r.level, macs := r.macs } := tgetD_tset_self ..
    rw [htold] at hmacs hlevel
    refine ⟨hhello, hrank, hport.trans (hkept.port _), fun _ => ?_⟩
    exact ⟨(congrArg Peer.macs hpeer).trans hmacs, (congrArg Peer.level hpeer).trans hlevel⟩

/-- The checks of a direct hello (R225). -/
def State.goodHello (s : State) (h : RecHdr) (r : HelloRec) : Bool :=
  s.ours h && r.size == s.grp.size && r.level == s.dev.level && s.wired h.leg h.rank r.port

theorem State.acked_goodHello : (s.acked h).goodHello h r = s.goodHello h r := by
  have htraffic := Traffic.acked s h
  have hdev : (s.acked h).dev = s.dev := htraffic.touches.same .dev (by decide)
  unfold State.goodHello State.wired
  rw [State.acked_ours, htraffic.size, hdev, htraffic.own]

variable (hup : (s.linkIn h (.hello r) (StayMsg.body h (.hello r))).2 = true)
include hup

theorem exec_hello_relayed (hrel : h.relayed = true) : exec (.hello h r) s = .next
    (if (((s.acked h).hailed h r false).enterRecord h false (.hello r)).2 then
      (((s.acked h).hailed h r false).enterRecord h false (.hello r)).1.planNeeded
    else ((s.acked h).enterRecord h false (.hello r)).1) := by
  rw [← State.linkIn_up hup]
  exact congrArg Host.Outcome.next ((if_neg (by rw [hup]; decide)).trans (if_pos hrel))

theorem exec_hello_bad (hrel : h.relayed = false) (hbad : s.goodHello h r = false) : exec (.hello h r) s = .next
    (((s.acked h).setLeg h.leg { (s.acked h).leg h.leg with helloOk := false }).sticky Reg.GRP_STATUS 0x800000) := by
  rw [← State.acked_goodHello] at hbad
  rw [← State.linkIn_up hup] at hbad ⊢
  exact congrArg Host.Outcome.next
    ((if_neg (by rw [hup]; decide)).trans ((if_neg (by rw [hrel]; decide)).trans (if_pos (congrArg (!·) hbad))))

theorem exec_hello_good (hrel : h.relayed = false) (hgood : s.goodHello h r = true) : exec (.hello h r) s = .next
    (((((s.acked h).greeted h r).enterRecord h false (.hello r)).1.flushLeg h.leg).planNeeded) := by
  rw [← State.acked_goodHello] at hgood
  rw [← State.linkIn_up hup] at hgood ⊢
  exact congrArg Host.Outcome.next ((if_neg (by rw [hup]; decide)).trans
    ((if_neg (by rw [hrel]; decide)).trans (if_neg (by rw [show (State.ours _ h && _ && _ && _) = true from hgood]; decide))))

omit hup in
/-- A relayed hello changes nothing of the legs. -/
theorem State.hailed_hello (new : Bool) (q : Nat) : ((s.hailed h r new).leg q).helloOk = (s.leg q).helloOk :=
  (HelloKept.hailed s h r new).hello q

theorem does_hello_relayed (hrel : h.relayed = true) :
    Does (.hello h r) s [.regs, .log, .logSeq, .mbx, .pmu, .tx, .grp, .out] anyReg fun t => ∀ q, (t.leg q).helloOk = (s.leg q).helloOk := by
  have hx := exec_hello_relayed hup hrel
  refine ⟨_, hx, (execHello_touches h r s).row hx, fun _ hr => (hr trivial).elim, fun q => ?_⟩
  have hacked := (Traffic.acked s h).kept.hello q
  split
  · have hentered := HelloKept.enterRecord ((s.acked h).hailed h r false) h false (.hello r)
    exact (hentered.trans (.planNeeded _)).hello q |>.trans ((State.hailed_hello false q).trans hacked)
  · exact ((HelloKept.enterRecord ..).hello q).trans hacked

theorem does_hello_good (hrel : h.relayed = false) (hgood : s.goodHello h r = true) (hleg : h.leg ≤ 1) :
    Does (.hello h r) s [.regs, .log, .logSeq, .mbx, .pmu, .tx, .grp, .out] anyReg fun t =>
      (t.leg h.leg).helloOk = true ∧ (t.leg h.leg).peerRank = h.rank ∧ (s.portUp h.leg = true → (t.leg h.leg).outage = [])
        ∧ ((s.peer h.rank).seen.contains h.recSeq = false → (t.peer h.rank).macs = r.macs ∧ (t.peer h.rank).level = r.level) := by
  have hx := exec_hello_good hup hrel hgood
  have hentered := HelloKept.enterRecord ((s.acked h).greeted h r) h false (.hello r)
  have hflushed := (Traffic.flushLeg (((s.acked h).greeted h r).enterRecord h false (.hello r)).1 hleg).kept
  have hplanned := HelloKept.planNeeded ((((s.acked h).greeted h r).enterRecord h false (.hello r)).1.flushLeg h.leg)
  have hkept := (hentered.trans hflushed).trans hplanned
  obtain ⟨hopen, hrank, hport, htold⟩ := (s.acked h).greeted_opens h r
  refine ⟨_, hx, (execHello_touches h r s).row hx, fun _ hr => (hr trivial).elim, (hkept.hello _).trans hopen, (hkept.rank _).trans hrank,
    fun hup => ?_, fun hnew => ?_⟩
  · have hin : (((s.acked h).greeted h r).enterRecord h false (.hello r)).1.legOpen h.leg :=
      ⟨(hentered.port _).trans (hport.trans (((Traffic.acked s h).kept.port _).trans hup)), (hentered.hello _).trans hopen⟩
    exact hplanned.drained _ hleg ⟨(hflushed.port _).trans hin.1, (hflushed.hello _).trans hin.2⟩ (State.flushLeg_drained hleg hin)
  · obtain ⟨hmacs, hlevel⟩ := hkept.told h.rank
    obtain ⟨hmacs', hlevel'⟩ := htold (by rw [(Traffic.acked s h).peer]; exact hnew)
    exact ⟨hmacs.trans hmacs', hlevel.trans hlevel'⟩

end hello

end Sys2Proof.Machine
end

section
/-!
PROOFS. A picture record stays held (R244): the vote it brings about, and what follows from the vote, keep the picture records.
-/
namespace Sys2Proof.Machine
open Sys2Proof

/-! ## Steps that keep every channel's group state, or its picture records -/

theorem State.gch_of_touches {l : List Fld} {s t : State} (h : Touches l s t) (hg : .grp ∉ l) (c : Nat) : t.gch c = s.gch c :=
  State.gch_congr (congrArg GrpState.chans (h.same .grp hg : t.grp = s.grp)) c

theorem State.gch_setRole (s : State) {r : Role} (hr : r ≠ .active) (c : Nat) : (s.setRole r).gch c = s.gch c :=
  (Traffic.setRole s hr).gch c

/-- The end of a resync (R256 step 4) tells it and leaves every channel's group state. -/
theorem State.gch_finishResync (s : State) (c : Nat) : s.finishResync.gch c = s.gch c := by
  unfold State.finishResync
  split
  · refine (State.gch_of_touches (State.bump_touches ..) (by decide) c).trans ?_
    refine (State.gch_of_touches (State.sticky_touches ..) (by decide) c).trans ?_
    exact (State.gch_setRole _ (by decide) c).trans ((Traffic.sendAll ..).gch c)
  · rfl

/-- A handover that starts is noted and told (R246). -/
theorem State.gch_startHandover (s : State) (k : Nat) (d : List Nat) (leave : Bool) (c : Nat) :
    (s.startHandover k d leave).gch c = s.gch c := by
  unfold State.startHandover
  split
  · rfl
  · exact (Traffic.sendAll ..).gch c

namespace PicsKept
variable (s : State)

theorem resyncChan (c : Nat) : PicsKept s (s.resyncChan c) := by
  have hresync : PicsKept s (s.updGch c (·.resync)) := .updGch s c fun _ => rfl
  unfold State.resyncChan
  dsimp only
  split
  · exact hresync.trans (.of_gch (State.gch_setRole _ (by decide)))
  · exact hresync

theorem onChan {c : Nat} {f : Chan → State → State} (hf : ∀ ch, PicsKept s (f ch s)) : PicsKept s (s.onChan c f) := by
  cases h : tget s.chans c with
  | none =>
    rw [State.onChan_none h]
    exact .refl s
  | some ch =>
    rw [State.onChan_some h]
    exact hf ch

theorem setRefresh (c n : Nat) : PicsKept s (s.setRefresh c n) := by
  refine .onChan s fun ch => .trans ?_ (.of_gch (State.gch_of_touches (State.updChan_touches ..) (by decide)))
  exact .updGch s c fun _ => rfl

theorem nameRefresh (c : Nat) : PicsKept s (s.nameRefresh c) :=
  .onChan s fun _ => (PicsKept.setRefresh s c _).trans (.of_gch (Traffic.sendAll _ _).gch)

theorem restartRefresh (c : Nat) : PicsKept s (s.restartRefresh c) := by
  have hsticky : PicsKept s (s.sticky (Reg.GRP_CHN_STATUS c) 0x20000) :=
    .of_gch (State.gch_of_touches (State.sticky_touches ..) (by decide))
  unfold State.restartRefresh
  dsimp only
  split
  · exact hsticky.trans (.nameRefresh _ c)
  · exact hsticky.trans (.updGch _ c fun _ => rfl)

theorem planCopies (cs : List Nat) : PicsKept s (s.planCopies cs) := by
  obtain ⟨c, l, h, hk⟩ := s.planCopies_tells cs
  rw [h]
  exact hk.trans (.of_gch (Traffic.sendAll ..).gch)

theorem planNeeded : PicsKept s s.planNeeded := by
  rcases s.planNeeded_cases with h | ⟨cs, h⟩
  · rw [h]
    exact .refl s
  · rw [h]
    exact .planCopies s cs

theorem noteResync (k c : Nat) (bit : Bool) : PicsKept s (s.noteResync k c bit) := by
  unfold State.noteResync
  split
  · refine .trans ?_ (.planNeeded _)
    exact .of_gch fun _ => rfl
  · exact .refl s

/-! ## The vote (R244, R245, R256, R259) -/

theorem confirmVote (c j : Nat) (matched : Bool) : PicsKept s (s.confirmVote c j matched) := by
  unfold State.confirmVote
  dsimp only
  split
  · split
    · exact .refl s
    · split
      · split
        · exact .updGch s c fun _ => rfl
        · exact .updGch s c fun _ => rfl
      · exact .restartRefresh s c
  · exact .refl s

theorem peerConfirm (c n j : Nat) (v : BitVec 64 × Word) : PicsKept s (s.peerConfirm c n j v) := by
  unfold State.peerConfirm
  dsimp only
  split
  · split
    · exact .restartRefresh s c
    · exact .refl s
  · exact .refl s

end PicsKept

section vote
variable (s : State) (c n j : Nat) (bs : List Ballot) (v : BitVec 64 × Word)

/-- The counts and sticky bits of an outvoted member, and its note of having been outvoted (R245, R247). -/
def State.lostVote : State :=
  (((((s.bump Reg.GRP_VOTES_LOST).bump (Reg.GRP_CHN_MISMATCHES c)).sticky Reg.GRP_STATUS 0x80000).sticky (Reg.GRP_CHN_STATUS c)
    0x10000).updGch c fun g => { g with lost := true })

theorem PicsKept.lostVote : PicsKept s (s.lostVote c) := by
  refine .trans (.of_gch (State.gch_of_touches ?_ (l := [.regs]) (by decide))) (.updGch _ c fun _ => rfl)
  exact ((State.bump_touches ..).trans (State.bump_touches ..)).trans ((State.sticky_touches ..).trans (State.sticky_touches ..))

/-- An outvoted STANDBY or JOINING member resyncs the channel, an outvoted ACTIVE hands over where it can (R245). -/
theorem State.outvoted_cases : s.outvoted c bs v = s.lostVote c ∨ s.outvoted c bs v = (s.lostVote c).resyncChan c
    ∨ ∃ k d, s.outvoted c bs v = (s.lostVote c).startHandover k d false := by
  unfold State.outvoted
  dsimp only
  split
  · exact .inr (.inl rfl)
  · exact .inr (.inl rfl)
  · split
    · exact .inl rfl
    · split
      · exact .inr (.inr ⟨_, _, rfl⟩)
      · exact .inl rfl
  · exact .inl rfl

theorem PicsKept.outvoted : PicsKept s (s.outvoted c bs v) := by
  refine (PicsKept.lostVote s c).trans ?_
  rcases s.outvoted_cases c bs v with h | h | ⟨k, d, h⟩ <;> rw [h]
  · exact .refl _
  · exact .resyncChan _ c
  · exact .of_gch (State.gch_startHandover _ k d false)

/-- The vote of picture `j` has been counted, with the right value `v`, and the peers' digests compared (R244, R259). -/
def State.voteCounted : State :=
  ((s.updGch c fun g => { g with votedPic := some j }).wr (Reg.GRP_CHN_VOTED_PIC c) (BitVec.ofNat 32 (s.wirePic c j))).peerConfirm c n j v

theorem PicsKept.voteCounted : PicsKept s (s.voteCounted c n j v) := by
  have hvoted : PicsKept s (s.updGch c fun g => { g with votedPic := some j }) := .updGch s c fun _ => rfl
  have hshown (t : State) (off : Nat) (w : Word) : PicsKept t (t.wr off w) :=
    .of_gch (State.gch_of_touches (t.wr_touches off w) (by decide))
  exact (hvoted.trans (hshown _ _ _)).trans (.peerConfirm ..)

/-- How a vote ends: not held or without a right value, counted, lost, at odds with every STANDBY, matched, or confirming a resync
(R244, R245, R256). -/
inductive VoteEnds : State → Prop
  | idle : VoteEnds s
  | counted (v : BitVec 64 × Word) : VoteEnds (s.voteCounted c n j v)
  | lost (v : BitVec 64 × Word) : VoteEnds ((s.voteCounted c n j v).outvoted c (s.ballots c n j) v)
  | resync (v : BitVec 64 × Word) : VoteEnds ((s.voteCounted c n j v).resyncChan c)
  | matched (v : BitVec 64 × Word) : VoteEnds
      ((s.voteCounted c n j v).updGch c fun g => { g with lastMatch := some j, lost := false, events := g.events.filter (j < ·) })
  | confirms (v : BitVec 64 × Word) (b : Bool) : VoteEnds ((s.voteCounted c n j v).confirmVote c j b).finishResync

theorem State.vote_ends : VoteEnds s c n j (s.vote c n j) := by
  unfold State.vote
  refine iteInduction (motive := VoteEnds s c n j) (fun _ => .idle) fun _ => ?_
  dsimp only
  split
  · exact .idle
  · next v _ =>
    split
    · split
      · exact .lost v
      · split
        · exact .resync v
        · exact .matched v
    · split
      · split
        · exact .confirms v _
        · exact .counted v
      · exact .counted v

theorem PicsKept.vote : PicsKept s (s.vote c n j) := by
  have hends := s.vote_ends c n j
  generalize s.vote c n j = t at hends
  cases hends with
  | idle => exact .refl s
  | counted v => exact .voteCounted ..
  | lost v => exact (PicsKept.voteCounted ..).trans (.outvoted ..)
  | resync v => exact (PicsKept.voteCounted ..).trans (.resyncChan ..)
  | matched v => exact (PicsKept.voteCounted ..).trans (.updGch _ c fun _ => rfl)
  | confirms v b => exact ((PicsKept.voteCounted ..).trans (.confirmVote ..)).trans (.of_gch (State.gch_finishResync _))

end vote

end Sys2Proof.Machine
end

section
/-!
PROOFS. What each record brings once it has been taken (R230, R235, R237, R246, R248, R256, R257).
-/
namespace Sys2Proof.Machine
open Sys2Proof

/-- A row whose record counts goes on with it. -/
theorem next_taken {t : State × Bool} (ht : t.2 = true) (u : State) :
    (Host.Outcome.next (if !t.2 then t.1 else u) : Host.Outcome State Fault Refusal) = .next u :=
  congrArg Host.Outcome.next (if_neg (by rw [ht]; decide))

/-! ## Row, picture and gap records (R230, R237, R244) -/

section rowRecord
variable {s : State} {h : RecHdr} {r : RowRec} {ch : Chan}

/-- A row record of a sender whose records count is held for its row (R230, R234). -/
def State.holdsRow (u : State) (h : RecHdr) (r : RowRec) (ch : Chan) : State :=
  if recordRole h.role then u.updGch r.chan fun g => { g with rows := tset g.rows (rowKey (ch.serial r.pic) r.row h.rank) r } else u

theorem State.holdsRow_role (u : State) : (u.holdsRow h r ch).grp.role = u.grp.role := by
  unfold State.holdsRow
  split <;> rfl

theorem State.holdsRow_phase (u : State) : ((u.holdsRow h r ch).gch r.chan).phase = (u.gch r.chan).phase := by
  unfold State.holdsRow
  split
  · rw [State.gch_updGch, if_pos rfl]
  · rfl

variable (ht : (s.takeRecord h (s.rowLate r) (.row r)).2 = true)
include ht

theorem exec_rowRecord_unknown (hc : tget (s.takeRecord h (s.rowLate r) (.row r)).1.chans r.chan = none) :
    exec (.rowRecord h r) s = .next (s.takeRecord h (s.rowLate r) (.row r)).1 :=
  (next_taken ht _).trans (congrArg Host.Outcome.next (State.onChan_none hc _))

/-- On a member that is not ACTIVE a row record of a channel in sync is held and no more. -/
theorem exec_rowRecord_held (hc : tget (s.takeRecord h (s.rowLate r) (.row r)).1.chans r.chan = some ch)
    (hr : (s.takeRecord h (s.rowLate r) (.row r)).1.grp.role ≠ .active)
    (hp : ((s.takeRecord h (s.rowLate r) (.row r)).1.gch r.chan).phase = .none) :
    exec (.rowRecord h r) s = .next ((s.takeRecord h (s.rowLate r) (.row r)).1.holdsRow h r ch) := by
  refine (next_taken ht _).trans (congrArg Host.Outcome.next ((State.onChan_some hc _).trans ?_))
  refine (if_neg ?_).trans (if_neg ?_)
  · exact fun hrole => hr ((State.holdsRow_role _).symm.trans (eq_of_beq hrole))
  · intro hphase
    obtain ⟨hphase, -⟩ := Bool.and_eq_true_iff.1 hphase
    exact bne_iff_ne.1 hphase ((State.holdsRow_phase _).trans hp)

end rowRecord

section pictureRecord
variable {s : State} {h : RecHdr} {p : PicRec} {ch : Chan} (ht : (s.takeRecord h (s.picLate p) (.pic p)).2 = true)
include ht

theorem exec_pictureRecord_unknown (hc : tget (s.takeRecord h (s.picLate p) (.pic p)).1.chans p.chan = none) :
    exec (.pictureRecord h p) s = .next (s.takeRecord h (s.picLate p) (.pic p)).1 :=
  (next_taken ht _).trans (congrArg Host.Outcome.next (State.onChan_none hc _))

/-- A picture record is held under its picture and sender, whatever the vote that it completes does. -/
theorem exec_pictureRecord_held (hc : tget (s.takeRecord h (s.picLate p) (.pic p)).1.chans p.chan = some ch) :
    ∃ t, exec (.pictureRecord h p) s = .next t ∧ tget (t.gch p.chan).pics (ch.serial p.pic * 4 + h.rank) = some (h.role, p) := by
  refine ⟨_, (next_taken ht _).trans (congrArg Host.Outcome.next (State.onChan_some hc _)), ?_⟩
  generalize (s.takeRecord h (s.picLate p) (.pic p)).1 = u
  dsimp only
  have hheld : tget ((u.updGch p.chan fun g => { g with pics := tset g.pics (ch.serial p.pic * 4 + h.rank) (h.role, p) }).gch p.chan).pics
      (ch.serial p.pic * 4 + h.rank) = some (h.role, p) := by
    rw [State.gch_updGch, if_pos rfl]
    exact tget_tset_self ..
  generalize (u.updGch p.chan fun g => { g with pics := tset g.pics (ch.serial p.pic * 4 + h.rank) (h.role, p) }) = v at hheld ⊢
  have hnoted := PicsKept.noteResync v h.rank p.chan (p.faults.toNat.testBit 6)
  split
  · rw [(hnoted.trans (.vote ..)).pics, hheld]
  · rw [hnoted.pics, hheld]

end pictureRecord

section gapRecord
variable {s : State} {h : RecHdr} {g : GapRec} (ht : (s.takeRecord h (s.gapLate g) (.gap g)).2 = true)
include ht

/-- A gap list is held under its AU and sender, none for one that overflowed (R237). -/
theorem exec_gapRecord_held : ∃ t, exec (.gapRecord h g) s = .next t
    ∧ ∀ e, tget (s.takeRecord h (s.gapLate g) (.gap g)).1.ext g.stream = some e → ∃ f, tget t.ext g.stream = some f
      ∧ tget f.gaps (4 * g.ts + h.rank) = some (if g.overflow then none else some g.gaps) := by
  refine ⟨_, next_taken ht _, fun e he => ?_⟩
  simp only [State.extSettle, tget_tupd_self, he, Option.map_some]
  exact ⟨_, rfl, tget_tset_self ..⟩

end gapRecord

/-! ## Repair (R235) -/

section repair
variable {s : State} {h : RecHdr}

/-- A packet of merge `m` has been accepted within the last 4 ms (R235). -/
def State.stillStaged (u : State) (m q : Nat) : Bool := (tget (u.merge m).got q).any fun e => decide (u.time.now ≤ e.1 + stageTicks)

theorem exec_repairRequest_answers {m f n : Nat} (ht : (s.takeRecord h false (.repairRequest m f n)).2 = true) :
    let u := (s.takeRecord h false (.repairRequest m f n)).1
    exec (.repairRequest h m f n) s = .next (((u.merge m).stage.filter fun e => decide ((e.1 + 2 ^ 32 - f % 2 ^ 32) % 2 ^ 32 < min n 64)
      && u.stillStaged m e.1).foldl (fun v e => v.sendRepair h.rank m (e.1 % 2 ^ 32) e.2) u) := by
  refine (next_taken ht _).trans ?_
  generalize (s.takeRecord h false (.repairRequest m f n)).1 = u
  refine congrArg (fun l => Host.Outcome.next (List.foldl _ u l)) (List.filter_congr fun e _ => congrArg (_ && ·) ?_)
  unfold State.stillStaged
  beta_reduce
  rcases tget (u.merge m).got e.1 with _ | ⟨at_, num⟩
  · rfl
  · exact (Option.any_some ..).symm

/-- A staged packet leaves while the leg's repair data ends in time, and is left out else (R235). -/
theorem State.sendRepair_inTime (s : State) (k m q : Nat) (p : RtpPacket) :
    let l := s.leg (s.wayTo k)
    let done := max l.repairTo s.time.up + cdiv (8 * (40 + p.payload.length)) 40
    (done ≤ s.time.up + 10000 → s.sendRepair k m q p = (s.setLeg (s.wayTo k) { l with repairTo := done }).sendTo k (.repairData m q p))
      ∧ (s.time.up + 10000 < done → s.sendRepair k m q p = s) :=
  ⟨fun hin => if_pos hin, fun hlate => if_neg (Nat.not_le.2 hlate)⟩

theorem exec_repairData_enters {m q i : Nat} {p : RtpPacket} (ht : (s.takeRecord h false (.repairData m q p)).2 = true) :
    let u := (s.takeRecord h false (.repairData m q p)).1
    let entry := u.net.flows.find? fun e => e.2.arg.kind == 1 && mergeIndex e.2.arg.essence e.2.arg.target == m
      && u.targetTakes e.1 e.2.arg p i == some true
    (entry = none → exec (.repairData h m ⟨q, p⟩ i) s = .next u)
      ∧ (∀ x e, entry = some (x, e) →
          let r := u.intoMerge 32768 e.arg 2 none p i
          exec (.repairData h m ⟨q, p⟩ i) s = .next (if r.2 = true then r.1.bump Reg.GRP_REPAIR_FILLED else r.1)) := by
  intro u entry
  refine ⟨fun hentry => ?_, fun x e hentry => ?_⟩
  · refine (next_taken ht _).trans (congrArg Host.Outcome.next ?_)
    dsimp only
    rw [show List.find? _ _ = none from hentry]
  · refine (next_taken ht _).trans (congrArg Host.Outcome.next ?_)
    dsimp only
    rw [show List.find? _ _ = some (x, e) from hentry]

end repair

/-! ## Handover (R246, R248) -/

section handover
variable {s : State} {h : RecHdr}

/-- The notice of a handover has been noted (R246). -/
def State.noticed (u : State) (tH k : Nat) (d : List Nat) : State :=
  { u with grp := { u.grp with notice := some { tH := tH, target := k, diverged := d } } }

/-- The target of a handover knows t_h (R246 step 4). -/
def State.targeted (u : State) (tH : Nat) : State := { u with grp := { u.grp with targetOf := some tH } }

theorem exec_handover_noticed {tH k : Nat} {d : List Nat} (ht : (s.takeRecord h false (.handover tH k d)).2 = true) :
    let n := (s.takeRecord h false (.handover tH k d)).1.noticed tH k d
    exec (.handover h tH k d) s = .next (if k = n.grp.rank ∧ n.grp.role == .standby then (n.targeted tH).sendAll (.handoverAck tH) else n) :=
  next_taken ht _

theorem exec_handoverAck_marks {tH : Nat} (ht : (s.takeRecord h false (.handoverAck tH)).2 = true) :
    ∃ t, exec (.handoverAck h tH) s = .next t
      ∧ t.grp.handover = (s.takeRecord h false (.handoverAck tH)).1.grp.handover.map (fun o => if o.retry then o else o.ack tH h.rank)
      ∧ t.grp.role = (s.takeRecord h false (.handoverAck tH)).1.grp.role :=
  ⟨_, next_taken ht _, rfl, rfl⟩

theorem Handover.ack_own {o : Handover} {tH k : Nat} (ht : o.tH = tH) (hk : o.target = k) : o.ack tH k = { o with acked := true } :=
  if_pos ⟨ht, hk⟩

theorem Handover.ack_other {o : Handover} {tH k : Nat} (h : o.tH ≠ tH ∨ o.target ≠ k) : o.ack tH k = o :=
  if_neg fun ⟨ht, hk⟩ => h.elim (· ht) (· hk)

end handover

/-! ## Rejoin (R256, R257) -/

section rejoin
variable {s : State} {h : RecHdr}

/-- The joiner of a channel named in a plan begins with its copy or its refresh (R256). -/
def State.rejoinsIn (u : State) (c : Nat) : Bool :=
  u.grp.role == Role.joining && ((u.gch c).phase != ResyncPhase.none || (tget u.chans c).isNone)

/-- s_c of a channel as a plan names it. -/
def State.noteCopyAt (u : State) (c n : Nat) : State := u.updGch c fun g =>
  { g with sC := some (match tget u.chans c with | some ch => ch.serial n | none => n), sR := none, rp := none }

theorem exec_rejoinPlan_copy {c n : Nat} (h1 : h.role = 1) (ht : (s.takeRecord h false (.rejoinPlan [(c, n, none)])).2 = true) :
    let u := (s.takeRecord h false (.rejoinPlan [(c, n, none)])).1
    exec (.rejoinPlan h [(c, n, none)]) s = .next (if u.rejoinsIn c then
      (u.noteCopyAt c n).updGch c fun g => { g with phase := .copy, matchRun := 0, inSync := false } else u.noteCopyAt c n).finishResync :=
  congrArg Host.Outcome.next (if_neg (by rw [ht, h1]; decide))

theorem exec_rejoinPlan_refresh {c n r : Nat} {ch : Chan} (h1 : h.role = 1)
    (ht : (s.takeRecord h false (.rejoinPlan [(c, n, some r)])).2 = true)
    (hc : tget (s.takeRecord h false (.rejoinPlan [(c, n, some r)])).1.chans c = some ch) :
    let u := (s.takeRecord h false (.rejoinPlan [(c, n, some r)])).1
    exec (.rejoinPlan h [(c, n, some r)]) s = .next (if u.rejoinsIn c then
      (u.setRefresh c (ch.serial r)).updGch c fun g => { g with phase := .refresh } else u.setRefresh c (ch.serial r)).finishResync := by
  refine (congrArg Host.Outcome.next (if_neg (by rw [ht, h1]; decide))).trans ?_
  unfold State.rejoinsIn
  simp only [List.foldl_cons, List.foldl_nil, hc]

theorem State.gch_setRefresh {u : State} {c : Nat} {ch : Chan} (hc : tget u.chans c = some ch) (n : Nat) : (u.setRefresh c n).gch c =
    { u.gch c with sR := some n, rp := some (n + ch.cfg.refs.rejoinG - 1), matchRun := 0 } := by
  rw [State.setRefresh, State.onChan_some hc, State.gch_of_touches (State.updChan_touches ..) (by decide), State.gch_updGch, if_pos rfl]

/-- A plan without s_r names s_c (R256 step 2). -/
theorem exec_rejoinPlan_names_copy {c n : Nat} (h1 : h.role = 1) (ht : (s.takeRecord h false (.rejoinPlan [(c, n, none)])).2 = true) :
    ∃ t, exec (.rejoinPlan h [(c, n, none)]) s = .next t
      ∧ (t.gch c).sC = some (match tget (s.takeRecord h false (.rejoinPlan [(c, n, none)])).1.chans c with
        | some ch => ch.serial n
        | none => n)
      ∧ (t.gch c).sR = none := by
  refine ⟨_, exec_rejoinPlan_copy h1 ht, ?_⟩
  rw [State.gch_finishResync]
  split
  · rw [State.gch_updGch, if_pos rfl, State.noteCopyAt, State.gch_updGch, if_pos rfl]
    exact ⟨rfl, rfl⟩
  · rw [State.noteCopyAt, State.gch_updGch, if_pos rfl]
    exact ⟨rfl, rfl⟩

/-- A plan with s_r names it, and RP with it (R256 step 3). -/
theorem exec_rejoinPlan_names_refresh {c n r : Nat} {ch : Chan} (h1 : h.role = 1)
    (hc : tget (s.takeRecord h false (.rejoinPlan [(c, n, some r)])).1.chans c = some ch)
    (ht : (s.takeRecord h false (.rejoinPlan [(c, n, some r)])).2 = true) :
    ∃ t, exec (.rejoinPlan h [(c, n, some r)]) s = .next t ∧ (t.gch c).sR = some (ch.serial r)
      ∧ (t.gch c).rp = some (ch.serial r + ch.cfg.refs.rejoinG - 1) := by
  refine ⟨_, exec_rejoinPlan_refresh h1 ht hc, ?_⟩
  rw [State.gch_finishResync]
  split
  · rw [State.gch_updGch, if_pos rfl, State.gch_setRefresh hc]
    exact ⟨rfl, rfl⟩
  · rw [State.gch_setRefresh hc]
    exact ⟨rfl, rfl⟩

/-- rejoin_done ends what a peer needs (R232, R256). -/
theorem exec_rejoinDone_ends {l : List Nat} (ht : (s.takeRecord h false (.rejoinDone l)).2 = true) :
    ∃ t, exec (.rejoinDone h l) s = .next t ∧ (t.peer h.rank).needs =
      ((s.takeRecord h false (.rejoinDone l)).1.peer h.rank).needs.filter (fun c => !(l.contains c)) := by
  refine ⟨_, next_taken ht _, ?_⟩
  rw [State.peer_congr (foldl_keep (fun t : State => t.grp.peers) (fun (t : State) c => ?_) l _)]
  · exact congrArg Peer.needs (tgetD_tset_self ..)
  · split <;> rfl

end rejoin

/-! ## The records of a copy (R256, R257) -/

section copy
variable {s : State} {h : RecHdr} {y : CopyRec}

/-- The last record of a block ends it at a joiner that takes the copy (R256 step 2). -/
def State.endsBlock (u : State) (y : CopyRec) : Bool := u.grp.role == .joining && (u.gch y.chan).phase == .copy && y.last

/-- What a whole block brings, or a broken one asks for (R256, R257). -/
def State.copyBlock (u : State) (y : CopyRec) : State :=
  if !y.crcOk then
    if (u.gch y.chan).failedBlocks.contains y.block then u.restartCopy y.chan
    else u.updGch y.chan fun g => { g with failedBlocks := g.failedBlocks ++ [y.block] }
  else
    match y.copy with
    | some k =>
      if k.define.channel != y.chan then u
      else
        match u.applyCopy k with
        | some v => v
        | none => (u.updGch y.chan fun g => { g with phase := .none, inSync := false, refused := true }).sticky
            (Reg.GRP_CHN_STATUS y.chan) 0x40000
    | none =>
      match y.slot with
      | some q => u.updChan y.chan fun ch => { ch with pics := tset ch.pics q.pic (slotPic q) }
      | none => u

theorem exec_copyRecord_waits
    (hon : (s.takeBytes h false (.copy y.chan y.block y.copy y.slot) (copyBody h y)).1.endsBlock y = false) :
    exec (.copyRecord h y) s = .next (s.takeBytes h false (.copy y.chan y.block y.copy y.slot) (copyBody h y)).1 := by
  refine congrArg Host.Outcome.next (if_pos ?_)
  simp only [State.endsBlock, Bool.and_eq_false_iff] at hon
  rcases hon with (hrole | hphase) | hlast
  · simp [bne, hrole]
  · simp [bne, hphase]
  · simp [hlast]

theorem exec_copyRecord_ends (ht : (s.takeBytes h false (.copy y.chan y.block y.copy y.slot) (copyBody h y)).2 = true)
    (hon : (s.takeBytes h false (.copy y.chan y.block y.copy y.slot) (copyBody h y)).1.endsBlock y = true) :
    exec (.copyRecord h y) s = .next ((s.takeBytes h false (.copy y.chan y.block y.copy y.slot) (copyBody h y)).1.copyBlock y) := by
  simp only [State.endsBlock, Bool.and_eq_true] at hon
  obtain ⟨⟨hrole, hphase⟩, hlast⟩ := hon
  exact congrArg Host.Outcome.next (if_neg (by simp [bne, ht, hrole, hphase, hlast]))

end copy

section copyBlock
variable {u : State} {y : CopyRec}

theorem State.copyBlock_again (hc : y.crcOk = false) (hf : (u.gch y.chan).failedBlocks.contains y.block = false) :
    u.copyBlock y = u.updGch y.chan fun g => { g with failedBlocks := g.failedBlocks ++ [y.block] } :=
  (if_pos (by rw [hc]; rfl)).trans (if_neg (by rw [hf]; decide))

theorem State.copyBlock_restarts (hc : y.crcOk = false) (hf : (u.gch y.chan).failedBlocks.contains y.block = true) :
    u.copyBlock y = (u.updGch y.chan (·.resync)).sticky (Reg.GRP_CHN_STATUS y.chan) 0x20000 :=
  (if_pos (by rw [hc]; rfl)).trans (if_pos hf)

variable (hc : y.crcOk = true)
include hc

theorem State.copyBlock_empty (hk : y.copy = none) (hs : y.slot = none) : u.copyBlock y = u := by
  rw [State.copyBlock, if_neg (by rw [hc]; decide), hk, hs]

theorem State.copyBlock_slot {q : SlotCopy} (hk : y.copy = none) (hs : y.slot = some q) :
    u.copyBlock y = u.updChan y.chan fun ch => { ch with pics := tset ch.pics q.pic (slotPic q) } := by
  rw [State.copyBlock, if_neg (by rw [hc]; decide), hk, hs]

variable {k : ChanCopy} (hk : y.copy = some k)
include hk

theorem State.copyBlock_stray (hch : k.define.channel ≠ y.chan) : u.copyBlock y = u := by
  rw [State.copyBlock, if_neg (by rw [hc]; decide), hk]
  exact if_pos (bne_iff_ne.2 hch)

theorem State.copyBlock_refused (hch : k.define.channel = y.chan) (ha : u.applyCopy k = none) :
    u.copyBlock y = (u.updGch y.chan fun g => { g with phase := .none, inSync := false, refused := true }).sticky
      (Reg.GRP_CHN_STATUS y.chan) 0x40000 := by
  rw [State.copyBlock, if_neg (by rw [hc]; decide), hk]
  refine (if_neg (by simp [hch])).trans ?_
  rw [ha]

theorem State.copyBlock_applied {v : State} (hch : k.define.channel = y.chan) (ha : u.applyCopy k = some v) : u.copyBlock y = v := by
  rw [State.copyBlock, if_neg (by rw [hc]; decide), hk]
  refine (if_neg (by simp [hch])).trans ?_
  rw [ha]

end copyBlock

/-! ## The statement -/

/-- Settles O47: each row by what it makes of the state in which its record has been taken, hellos last. -/
theorem recordsTaken : Obligations.RecordsTaken := by
  unfold Obligations.RecordsTaken
  refine ⟨fun s h r p g => ?held, fun s h m f n => exec_repairRequest_answers, State.sendRepair_inTime,
    fun s h m q i p => exec_repairData_enters, fun s h tH k d => ?handover, fun s h x ht => next_taken ht _,
    fun s h c n r h1 => ?plan, fun s h l => exec_rejoinDone_ends, fun s h y => ?copy, fun s h r => ?hello⟩
  case held =>
    intro u v w
    exact ⟨fun ht => ⟨exec_rowRecord_unknown ht, fun ch hc hr hp => exec_rowRecord_held ht hc hr hp⟩,
      fun ht => ⟨exec_pictureRecord_unknown ht, fun ch hc => exec_pictureRecord_held ht hc⟩, exec_gapRecord_held⟩
  case handover =>
    intro m u n a
    refine ⟨fun ht => ⟨fun hk hr => ?_, fun hother => ?_⟩, fun ht => ?_⟩
    · exact (exec_handover_noticed ht).trans (congrArg Host.Outcome.next (if_pos ⟨hk, beq_iff_eq.2 hr⟩))
    · refine (exec_handover_noticed ht).trans (congrArg Host.Outcome.next (if_neg fun ⟨hk, hr⟩ => ?_))
      exact hother.elim (· hk) (· (eq_of_beq hr))
    · obtain ⟨t, hx, hmark, hrole⟩ := exec_handoverAck_marks ht
      refine ⟨t, hx, fun o ho htH hk hretry => ?_, fun o ho hother => ?_, hrole⟩
      · rw [hmark, ho, Option.map_some, if_neg (by rw [hretry]; decide), Handover.ack_own htH hk]
      · rw [hmark, ho, Option.map_some, Handover.ack_other hother, ite_self]
  case plan =>
    intro plan u v
    exact ⟨exec_rejoinPlan_names_copy h1, fun ch hc ht => exec_rejoinPlan_names_refresh h1 hc ht⟩
  case copy =>
    intro g u on ht
    have hends (hon : on = true) {t : State} (hb : u.copyBlock y = t) : exec (.copyRecord h y) s = .next t :=
      (exec_copyRecord_ends ht hon).trans (congrArg Host.Outcome.next hb)
    exact ⟨exec_copyRecord_waits, fun hon hc hf => hends hon (State.copyBlock_again hc hf),
      fun hon hc hf => hends hon (State.copyBlock_restarts hc hf), fun hon hc hk hs => hends hon (State.copyBlock_empty hc hk hs),
      fun q hon hc hk hs => hends hon (State.copyBlock_slot hc hk hs), fun k hon hc hk =>
        ⟨fun hch => hends hon (State.copyBlock_stray hc hk hch), fun hch ha => hends hon (State.copyBlock_refused hc hk hch ha),
          fun v hch ha => hends hon (State.copyBlock_applied hc hk hch ha)⟩⟩
  case hello =>
    intro g good fld
    refine ⟨fun hup => congrArg Host.Outcome.next (if_pos (congrArg (!·) hup)), fun hup hrel => does_hello_relayed hup hrel,
      fun hup hrel hbad => ?_, fun hup hrel hgood hleg => does_hello_good hup hrel hgood hleg⟩
    rw [show g.1 = s.acked h from State.linkIn_up hup]
    exact exec_hello_bad hup hrel hbad

end Sys2Proof.Machine
end

section
/-!
PROOFS. Commands of the host that send (R306, R314), and the start of a membership (R222, R242, R254, R256, R262).
-/
namespace Sys2Proof.Machine
open Sys2Proof

/-! ## Served commands that send, wait or are refused -/

section served
variable {i : Instr} {s : State} {h : CmdHdr} {p : Payload} {g b : Nat} {d : List Byte} {l k : List Fld} {P : State → Prop}
  {a : State → Answer} {f : State → State} (hx : exec i s = .next (s.runCommand h p)) (hs : s.serves h p g b = true)
  (hb : ∀ m o x, (s.atBody m o).body x p = a (s.atBody m o))
include hx hs hb

/-- The body answers at once with `d` and leaves the machine as `f` makes it, with what it has sent. -/
theorem Runs.of_sending (hf : ∀ m o, a (s.atBody m o) = (f (s.atBody m o)).reply d) (ht : ∀ t, Touches k t (a t).st) (hm : .mbx ∉ k)
    (hk : ∀ x ∈ k, x ∈ .out :: l) (hp : ∀ m o n, P { f (s.atBody m o) with mbx := n }) : Runs i s h p g b d l anyReg P := by
  refine .of_body hx hs fun m o _ x _ _ _ => ?_
  have htouch := ht (s.atBody m o)
  rw [hf] at htouch
  refine ⟨f (s.atBody m o), m.msixPend, (hb m o x).trans (hf m o), htouch.same .mbx hm, ?_, fun _ hr => (hr trivial).elim, hp m o⟩
  have hread : Touches (.mbx :: .out :: l) s (s.atBody m o) := (s.atBody_touches m o).mono (by simp)
  exact hread.then htouch fun x hx => List.mem_cons_of_mem _ (hk x hx)

/-- The body holds the command back (R314): it is neither answered nor is anything queued. -/
theorem Does.of_hold {why : HoldWhy} (hf : ∀ m o, a (s.atBody m o) = { st := f (s.atBody m o), hold := some why })
    (ht : ∀ t, Touches k t (a t).st) (hm : .mbx ∉ k) (hk : ∀ x ∈ k, x ∈ .out :: l) (hp : ∀ m o n, P { f (s.atBody m o) with mbx := n }) :
    Does i s (.mbx :: .out :: l) anyReg fun t =>
      P t ∧ t.mbx.held.map (·.why) = some why ∧ t.mbx.blocks = s.mbx.blocks ∧ t.mbx.queue = s.mbx.queue := by
  obtain ⟨m, o, htaken, -, hrun⟩ := State.runCommand_served hs
  have htouch := ht (s.atBody m o)
  rw [hb, hf] at hrun
  rw [hf] at htouch
  have hmbx : (f (s.atBody m o)).mbx = m := htouch.same .mbx hm
  have hread : Touches (.mbx :: .out :: l) s (s.atBody m o) := (s.atBody_touches m o).mono (by simp)
  refine ⟨_, hx.trans (congrArg _ hrun), ?_, fun _ hr => (hr trivial).elim, hp m o _, rfl, ?_, ?_⟩
  · exact (Touches.set_mbx (List.mem_cons_self ..) _).mpr (hread.then htouch fun x hx => List.mem_cons_of_mem _ (hk x hx))
  · exact (congrArg MbxState.blocks hmbx).trans htaken.blocks
  · exact (congrArg MbxState.queue hmbx).trans htaken.queue

omit hb in
/-- A check of the body refuses the command with status `e` (R320): the sessions stay as well. -/
theorem Does.of_body_refusal {e : Nat} (hb : ∀ m o x, (s.atBody m o).body x p = { st := s.atBody m o, status := e }) :
    Does i s [.mbx, .out] noReg fun t =>
      tget t.mbx.blocks (32 * h.pair + b) = some (completionOf h (opcodeOf p) e false []) ∧ t.mbx.sessions = s.mbx.sessions := by
  obtain ⟨m, o, htaken, -, hrun⟩ := State.runCommand_served hs
  obtain ⟨t, ht, hframe, hregs, hblock⟩ := Does.of_refusal hx hs fun m o x _ => hb m o x
  refine ⟨t, ht, hframe, hregs, hblock, ?_⟩
  have hanswer (j : Tab JEntry) (c : Completion) (u : State) (y : CmdCtx) (hy : y.from_ = .host h.pair g b) (q : Bool) :
      ((if q then u.setJournal y j else u).complete (.host h.pair g b) c false).mbx.sessions = u.mbx.sessions := by
    cases q
    · rfl
    · rw [if_pos rfl, State.setJournal, hy]
      rfl
  rw [hb] at hrun
  rw [hx, hrun, Host.Outcome.next.injEq] at ht
  rw [← ht]
  exact (hanswer _ _ (s.atBody m o) ⟨.host h.pair g b, _, _, _⟩ rfl _).trans htaken.sessions

end served

/-! ## A membership begins (R222, R242, R256, R262) -/

/-- The unit is a member by these values in role `r`, `a` ACTIVE as far as it knows, nothing of an earlier membership left. -/
def GroupBegun (p : GroupArg) (a : Nat) (r : Role) (t : State) : Prop :=
  t.grp.role = r ∧ t.grp.rank = p.rank ∧ t.grp.size = p.size ∧ t.grp.groupId = p.groupId ∧ t.grp.service = p.addrs ∧ t.grp.activeRank = a
    ∧ t.grp.peers = [] ∧ t.grp.heldPkts = [] ∧ t.rd Reg.GRP_TAKEOVERS = 0 ∧ t.rd Reg.GRP_RESYNCS = 0

section begun
variable {s t : State} {p : GroupArg} {a : Nat} {r : Role}

/-- Records that are sent leave a membership as it has begun. -/
theorem GroupBegun.traffic (hb : GroupBegun p a r s) (h : Traffic s t) : GroupBegun p a r t := by
  obtain ⟨hrole, hrank, hsize, hid, hserv, hact, hpeers, hheld, htake, hres⟩ := hb
  refine ⟨h.role.trans hrole, h.own.trans hrank, h.size.trans hsize, (h.same (·.groupId) fun _ _ _ _ => rfl).trans hid,
    (h.same (·.service) fun _ _ _ _ => rfl).trans hserv, (h.same (·.activeRank) fun _ _ _ _ => rfl).trans hact,
    (h.same (·.peers) fun _ _ _ _ => rfl).trans hpeers, (h.same (·.heldPkts) fun _ _ _ _ => rfl).trans hheld,
    (h.rd _ (by decide) (by decide)).trans htake, (h.rd _ (by decide) (by decide)).trans hres⟩

theorem groupBegun_enterGroup (s : State) (p : GroupArg) (forming : Bool) (a : Nat) (r : Role) :
    GroupBegun p a r ((s.enterGroup p forming a).inRole r) :=
  ⟨rfl, rfl, rfl, rfl, rfl, rfl, rfl, rfl,
    s.clearRegs_rd_inside (lo := 0x00700000) (hi := 0x00700100) (by decide) (reset_eq_zero (by decide) (by decide)),
    s.clearRegs_rd_inside (lo := 0x00700000) (hi := 0x00700100) (by decide) (reset_eq_zero (by decide) (by decide))⟩

theorem Traffic.sendHellos (s : State) : Traffic s ((s.sendHello 0).sendHello 1) := (Traffic.sendHello s 0).trans (.sendHello _ 1)

/-! ### Becoming ACTIVE (R254, R260) -/

/-- The ACTIVE knows itself to be so. -/
def State.selfActive (s : State) : State := { s with grp := { s.grp with activeRank := s.grp.rank } }

theorem State.setRole_active (h : s.grp.role ≠ .active) :
    s.setRole .active = ((s.inRole .active).sendBoth (.roleChange Role.active.code)).selfActive.announceService :=
  (if_neg (by simpa using h)).trans (if_pos rfl)

theorem State.sendCtl_rd_ne (s : State) {i off : Nat} (q : Nat) (x : CtlReply) (hi : i < 16) (ho : 0x00700000 ≤ off) :
    (s.sendCtl i q x).rd off = s.rd off := by
  have hcounted (c m : Nat) (w : Word) (hc : c < 0x00700000) (hm : m < 0x00700000) : ((s.bump c).sticky m w).rd off = s.rd off :=
    (State.sticky_rd_ne _ (by omega) w).trans (s.bump_rd_ne (by omega))
  unfold State.sendCtl
  dsimp only
  split
  · rfl
  · split
    · exact hcounted _ _ _ (by unfold Reg.NET_TX_LINK_DROPS; omega) (by unfold Reg.NET_TX_STATUS; omega)
    · split
      · exact hcounted _ _ _ (by unfold Reg.NET_TX_DROPS; omega) (by unfold Reg.NET_TX_STATUS; omega)
      · rfl

/-- Announcing the service addresses leaves the registers beyond those of the interfaces. -/
theorem State.announceService_rd_ne (hi : ∀ e ∈ s.grp.service, e.1 < 16) {off : Nat} (ho : 0x00700000 ≤ off) :
    s.announceService.rd off = s.rd off := by
  have hfold (l : List (Nat × Addr)) (hl : ∀ e ∈ l, e.1 < 16) (t : State) :
      (l.foldl (fun (t : State) e => t.sendCtl e.1 3 (.announceAddr e.2)) t).rd off = t.rd off := by
    induction l generalizing t with
    | nil => rfl
    | cons e l ih =>
      obtain ⟨he, hl⟩ := List.forall_mem_cons.1 hl
      exact (ih hl _).trans (t.sendCtl_rd_ne 3 _ he ho)
  exact hfold s.grp.service hi s

/-- The first active of a group that forms tells its role and announces the addresses (R254, R260). -/
theorem GroupBegun.becomesActive {q : Role} (hb : GroupBegun p a q s) (hq : q ≠ .active) (ha : p.rank = a)
    (hi : ∀ e ∈ p.addrs, e.1 < 16) : GroupBegun p a .active (s.setRole .active) := by
  have hne : s.grp.role ≠ .active := hb.1.symm ▸ hq
  have hrole : GroupBegun p a .active (s.inRole .active) := ⟨rfl, hb.2⟩
  rw [State.setRole_active hne]
  obtain ⟨hrole, hrank, hsize, hid, hserv, hact, hpeers, hheld, htake, hres⟩ := hrole.traffic (.sendBoth _ (.roleChange Role.active.code))
  generalize (s.inRole .active).sendBoth (.roleChange Role.active.code) = t at hrole hrank hsize hid hserv hact hpeers hheld htake hres ⊢
  have hgrp : t.selfActive.announceService.grp = t.selfActive.grp := (State.announceService_touches _).same .grp (by decide)
  have hrd {off : Nat} (ho : 0x00700000 ≤ off) : t.selfActive.announceService.rd off = t.rd off :=
    State.announceService_rd_ne (s := t.selfActive) (fun e he => hi e (hserv ▸ he)) ho
  unfold GroupBegun
  rw [hgrp, hrd (by decide), hrd (by decide)]
  exact ⟨hrole, hrank, hsize, hid, hserv, hrank.trans ha, hpeers, hheld, htake, hres⟩

end begun

end Sys2Proof.Machine
end

section
/-!
PROOFS. The commands of shroud groups (R222, R242, R246, R256, R262, R352 to R354).
-/
namespace Sys2Proof.Machine
open Sys2Proof

/-! ## GROUP_FORM and GROUP_JOIN (R222, R242, R262) -/

/-- What GROUP_FORM and GROUP_JOIN ask of their arguments alike. -/
def GroupArgsFit (s : State) (p : GroupArg) : Prop := 1 ≤ p.groupId ∧ p.groupId ≤ 255 ∧ (p.size = 2 ∨ p.size = 3) ∧ 1 ≤ p.rank
  ∧ p.rank ≤ p.size ∧ p.addrs.length ≤ 11 ∧ hasRepeat (p.addrs.map (·.1)) = false ∧ (∀ a ∈ p.addrs, s.ifExists a.1 = true)

/-- The unit once a group has been formed. -/
def State.groupFormed (s : State) (p : GroupArg) : State :=
  let t := (s.enterGroup p (p.rank != p.firstActive) p.firstActive).setRole (if p.rank = p.firstActive then .active else .unverified)
  (t.sendHello 0).sendHello 1

/-- The unit once it has asked to join a group. -/
def State.groupJoined (s : State) (p : GroupArg) : State := (((s.enterGroup p false 0).setRole .joining).sendHello 0).sendHello 1

section begin
variable {s : State} {p : GroupArg}

theorem GroupArgsFit.ok {join : Bool} (h : GroupArgsFit s p)
    (ha : (if join then p.firstActive == 0 else decide (1 ≤ p.firstActive) && decide (p.firstActive ≤ p.size)) = true) :
    s.groupArgOk p join = true := by
  obtain ⟨hid, hid', hsize, hrank, hrank', hlen, hrep, hex⟩ := h
  rw [State.groupArgOk, ha, hrep, List.all_eq_true.2 hex]
  simp [hid, hid', hsize, hrank, hrank', hlen]

theorem GroupArgsFit.lt (h : GroupArgsFit s p) : ∀ e ∈ p.addrs, e.1 < 16 := by
  obtain ⟨-, -, -, -, -, -, -, hex⟩ := h
  intro e he
  exact of_decide_eq_true (Bool.and_eq_true_iff.1 (hex e he)).1

/-- Before a role is taken there is a membership in the role held so far. -/
theorem groupBegun_enterGroup_kept (forming : Bool) (a : Nat) : GroupBegun p a s.grp.role (s.enterGroup p forming a) :=
  groupBegun_enterGroup s p forming a s.grp.role

theorem GroupBegun.takesRole {t : State} {a : Nat} {q r : Role} (h : GroupBegun p a q t) (hr : r ≠ .active) :
    GroupBegun p a r (t.setRole r) :=
  have hrole : GroupBegun p a r (t.inRole r) := ⟨rfl, h.2⟩
  hrole.traffic (.setRole t hr)

theorem GroupBegun.set_mbx {t : State} {a : Nat} {r : Role} (h : GroupBegun p a r t) (n : MbxState) : GroupBegun p a r { t with mbx := n } := by
  obtain ⟨hrole, hrank, hsize, hid, hserv, hact, hpeers, hheld, htake, hres⟩ := h
  exact ⟨hrole, hrank, hsize, hid, hserv, hact, hpeers, hheld, htake, hres⟩

theorem groupBegun_groupFormed (hf : GroupArgsFit s p) (hr : s.grp.role = .none) :
    GroupBegun p p.firstActive (if p.rank = p.firstActive then .active else .unverified) (s.groupFormed p) := by
  have henter := groupBegun_enterGroup_kept (s := s) (p := p) (p.rank != p.firstActive) p.firstActive
  refine GroupBegun.traffic ?_ (.sendHellos _)
  split
  case isTrue h => exact henter.becomesActive (by rw [hr]; decide) h hf.lt
  case isFalse => exact henter.takesRole (by decide)

theorem groupBegun_groupJoined : GroupBegun p 0 .joining (s.groupJoined p) :=
  ((groupBegun_enterGroup_kept false 0).takesRole (by decide)).traffic (.sendHellos _)

theorem State.doGroupForm_eq (hf : GroupArgsFit s p) (h1 : 1 ≤ p.firstActive) (ha : p.firstActive ≤ p.size) (hr : s.grp.role = .none)
    (hc : s.chans = []) : s.doGroupForm p = (s.groupFormed p).done := by
  have hok : s.groupArgOk p false = true := hf.ok (by simp [h1, ha])
  have hpass : ∀ e ∈ [(!(s.groupArgOk p false), eBadParam), (s.grp.role != .none || !s.chans.isEmpty, eState)], e.1 = false := by
    simp [hok, hr, hc]
  exact State.checked_pass hpass _

theorem State.groupJoined_portUp (i : Nat) : (s.groupJoined p).portUp i = s.portUp i := by
  have hrole : Touches [.regs, .pmu, .tx, .grp, .out] s ((s.enterGroup p false 0).setRole .joining) :=
    ((s.enterGroup_touches p false 0).mono (by decide)).trans (State.setRole_touches _ _)
  have htouch := hrole.trans ((Traffic.sendHellos _).touches.mono (by decide))
  exact congrArg (fun x : LaneState => (tgetD x.ports i {}).st == .up) (htouch.same .lane (by decide))

theorem State.doGroupJoin_eq (hf : GroupArgsFit s p) (ha : p.firstActive = 0) (hr : s.grp.role = .none ∨ s.grp.role = .detached)
    (hc : s.chans = []) (hd : s.dev.fatal = false) :
    s.doGroupJoin p = { st := s.groupJoined p, hold := if s.portUp 0 || s.portUp 1 then none else some .hello } := by
  have hok : s.groupArgOk p true = true := hf.ok (by simp [ha])
  have hrole : (s.grp.role == .none || s.grp.role == .detached) = true := by simpa using hr
  have hpass : s.doGroupJoin p = {
      st := s.groupJoined p, hold := if (s.groupJoined p).portUp 0 || (s.groupJoined p).portUp 1 then none else some .hello } :=
    State.checked_pass (by simp [hok, hrole, hc, hd]) _
  rw [hpass, State.groupJoined_portUp, State.groupJoined_portUp]

theorem State.doGroupJoin_up (hf : GroupArgsFit s p) (ha : p.firstActive = 0) (hr : s.grp.role = .none ∨ s.grp.role = .detached)
    (hc : s.chans = []) (hd : s.dev.fatal = false) (hu : s.portUp 0 = true ∨ s.portUp 1 = true) :
    s.doGroupJoin p = (s.groupJoined p).done := by
  rw [State.doGroupJoin_eq hf ha hr hc hd, if_pos (Bool.or_eq_true_iff.2 hu)]
  rfl

theorem State.doGroupJoin_down (hf : GroupArgsFit s p) (ha : p.firstActive = 0) (hr : s.grp.role = .none ∨ s.grp.role = .detached)
    (hc : s.chans = []) (hd : s.dev.fatal = false) (h0 : s.portUp 0 = false) (h1 : s.portUp 1 = false) :
    s.doGroupJoin p = { st := s.groupJoined p, hold := some .hello } := by
  rw [State.doGroupJoin_eq hf ha hr hc hd, if_neg (by simp [h0, h1])]

end begin

/-! ## GROUP_LEAVE (R256) -/

/-- A member that leaves, before its state without channels is settled. -/
def State.leaves (s : State) : State :=
  let t := s.setRole .detached
  { t with grp := { t.grp with
    handover := none, targetOf := none, notice := none, heldPkts := [], waiting := false, standDown := false
    chans := tmap t.grp.chans fun _ g => { g with phase := .none, inSync := true, refused := false } } }

section leave
variable {s : State}

theorem State.leaves_chans : s.leaves.chans = s.chans := (State.setRole_touches s .detached).same .chans (by decide)

theorem State.settleFree_kept (h : s.chans ≠ []) : s.settleFree = s :=
  if_neg (by simp [h])

theorem State.detach_kept (h : s.chans ≠ []) : s.detach = s.leaves :=
  State.settleFree_kept (s := s.leaves) fun hc => h (State.leaves_chans.symm.trans hc)

theorem State.leaves_role : s.leaves.grp.role = .detached := s.setRole_role (by decide)

theorem State.detach_role (h : s.chans = []) : s.detach.grp.role = .none :=
  State.settleFree_role (State.leaves_chans.trans h) State.leaves_role

theorem State.doGroupLeave_member (hm : s.member = true) (hr : s.grp.role ≠ .active) : s.doGroupLeave = s.detach.done := by
  have hne : (s.grp.role == .active) = false := by simpa using hr
  rw [State.doGroupLeave, State.checked_pass (by simp [hm, hne]), hne]
  rfl

/-- The ACTIVE hands over before it leaves. -/
theorem State.doGroupLeave_handsOver {k : Nat} {r : List Nat} (hm : s.member = true) (hr : s.grp.role = .active) (hk : s.standbys = k :: r)
    (hh : s.grp.handover = none) : s.doGroupLeave = (s.startHandover k [] true).done := by
  rw [State.doGroupLeave, State.checked_pass (by simp [hm, hr, hk]), hr, hk, hh]
  rfl

/-- A handover under way ends with the leave. -/
theorem State.doGroupLeave_handing {o : Handover} (hm : s.member = true) (hr : s.grp.role = .active) (hk : s.standbys ≠ [])
    (hh : s.grp.handover = some o) :
    s.doGroupLeave = State.done { s with grp := { s.grp with handover := some { o with leave := true } } } := by
  rw [State.doGroupLeave, State.checked_pass (by simp [hm, hr, hk]), hr, hh]
  rfl

end leave

/-! ## A handover is begun (R246) -/

section handover
variable {s : State} {k : Nat} {d : List Nat} {leave : Bool}

/-- The ACTIVE with a handover under way that it has not told of yet. -/
def State.handing (s : State) (k : Nat) (d : List Nat) (leave : Bool) : State :=
  { s with grp := { s.grp with handover := some { tH := s.time.nowNs + 5000000, target := k, diverged := d, leave := leave } } }

theorem State.startHandover_eq (hr : s.grp.role = .active) (hh : s.grp.handover = none) :
    s.startHandover k d leave = (s.handing k d leave).sendBoth (.handover (s.time.nowNs + 5000000) k d) :=
  (if_neg (by simp [hr, hh])).trans (State.sendAll_sends (State.sendsRecords_of (.inl hr)))

theorem State.startHandover_grp (hr : s.grp.role = .active) (hh : s.grp.handover = none) :
    (s.startHandover k d leave).grp.role = .active
      ∧ (s.startHandover k d leave).grp.handover = some { tH := s.time.nowNs + 5000000, target := k, diverged := d, leave := leave } := by
  have hsent := Traffic.sendBoth (s.handing k d leave) (.handover (s.time.nowNs + 5000000) k d)
  rw [State.startHandover_eq hr hh]
  exact ⟨hsent.role.trans hr, hsent.same (·.handover) fun _ _ _ _ => rfl⟩

/-- A record for both legs leaves on stay port A where that leg is in use (R225). -/
theorem State.mem_sendBoth_out (h : s.legOpen 0) (m : StayMsg) :
    .stay 0 (s.leg 0).nextLink ⟨s.grp.recSeq, s.grp.rank, false, m⟩ ∈ (s.sendBoth m).out := by
  refine (Traffic.sendLeg _ _ (by decide)).out.subset ?_
  rw [State.sendLeg_open (s := (s.nextRec m).1) h, State.frameOn_out]
  exact List.mem_cons_self ..

theorem State.startHandover_out (hr : s.grp.role = .active) (hh : s.grp.handover = none) (h : s.legOpen 0) :
    .stay 0 (s.leg 0).nextLink ⟨s.grp.recSeq, s.grp.rank, false, .handover (s.time.nowNs + 5000000) k d⟩ ∈ (s.startHandover k d leave).out := by
  rw [State.startHandover_eq hr hh]
  exact State.mem_sendBoth_out (s := s.handing k d leave) h _

theorem State.doGroupHandover_eq {n : Nat} (hn : n ≤ 3) (hsize : n ≤ s.grp.size) (hr : s.grp.role = .active)
    (h0 : n = 0 → s.standbys.head? = some k) (hk : n ≠ 0 → k = n) (hmem : k ∈ s.standbys) (hneeds : (s.peer k).needs = [])
    (hh : s.grp.handover = none) : s.doGroupHandover n = (s.startHandover k [] false).reply
      (leBytes 4 ((s.time.nowNs + 5000000) % 1000000000) ++ leBytes 4 ((s.time.nowNs + 5000000) / 1000000000)) := by
  have hgood : s.goodTarget k = true := by simp [State.goodTarget, hmem, hneeds]
  have htarget : (if n = 0 then s.standbys.head? else if s.goodTarget n then some n else none) = some k := by
    split
    case isTrue hz => exact h0 hz
    case isFalse hz =>
      obtain rfl := hk hz
      rw [hgood]
      rfl
  rw [State.doGroupHandover, htarget]
  dsimp only
  rw [State.checked_pass (by simp [hr, hgood, Nat.not_lt.2 hn, Nat.not_lt.2 hsize]), hh]

end handover

end Sys2Proof.Machine
end

section
/-!
PROOFS. Enumeration of the ratline chain (R285 to R287) and its commands (R292, R354).
-/
namespace Sys2Proof.Machine
open Sys2Proof

/-! ## Sending on a port of the chain (R285) -/

/-- The chain's state with other messages waiting and other frames not yet acknowledged. -/
def RatState.withTraffic (r : RatState) (q : Tab (List RatFrame)) (p : Tab (List (ReplayFrame RatFrame))) (l : Tab Nat) : RatState :=
  { r with outQ := q, replay := p, nextLink := l }

/-- What a message that is sent changes of the chain's state: what waits and what is not yet acknowledged. -/
structure RatTraffic (s t : State) : Prop where
  rat : ∃ q p l, t.rat = s.rat.withTraffic q p l
  out : s.out <:+ t.out

section sending
variable {s t u : State}

theorem RatTraffic.refl (s : State) : RatTraffic s s := ⟨⟨_, _, _, rfl⟩, List.suffix_refl _⟩

theorem RatTraffic.trans (a : RatTraffic s t) (b : RatTraffic t u) : RatTraffic s u where
  rat := by
    obtain ⟨_, _, _, ha⟩ := a.rat
    obtain ⟨q, p, l, hb⟩ := b.rat
    exact ⟨q, p, l, by rw [hb, ha]; rfl⟩
  out := a.out.trans b.out

/-- A field of the chain's state that says nothing of what waits or is acknowledged stays. -/
theorem RatTraffic.same {α : Type} (a : RatTraffic s t) (f : RatState → α) (hf : ∀ r q p l, f (r.withTraffic q p l) = f r) :
    f t.rat = f s.rat := by
  obtain ⟨q, p, l, h⟩ := a.rat
  rw [h, hf]

/-- The first waiting message of a port has been sent. -/
def State.ratPumped (s : State) (port : Nat) (f : RatFrame) (rest : List RatFrame) : State :=
  let l := tgetD s.rat.nextLink port 0
  let r := s.rat.withTraffic (tset s.rat.outQ port rest)
    (tset s.rat.replay port (tgetD s.rat.replay port [] ++ [⟨l, 0, s.time.up, f⟩])) (tset s.rat.nextLink port ((l + 1) % 256))
  ({ s with rat := r }.emit (.rat port l f)).pmuEvent 8 2

variable {port : Nat} {f : RatFrame} {rest : List RatFrame}

theorem State.ratPumped_out :
    (s.ratPumped port f rest).out = .rat port (tgetD s.rat.nextLink port 0) f :: s.out := by
  simp only [State.ratPumped, State.pmuEvent_out, State.emit]

theorem RatTraffic.ratPumped : RatTraffic s (s.ratPumped port f rest) :=
  ⟨⟨_, _, _, State.pmuEvent_rat ..⟩, State.ratPumped_out ▸ List.suffix_cons ..⟩

theorem State.ratPump_sends (n : Nat) (hq : tgetD s.rat.outQ port [] = f :: rest) (hu : s.ratUp port = true)
    (hr : (tgetD s.rat.replay port []).length < 8) : s.ratPump (n + 1) port = (s.ratPumped port f rest).ratPump n port := by
  rw [State.ratPump, hq]
  exact if_pos (Bool.and_eq_true_iff.2 ⟨hu, decide_eq_true hr⟩)

theorem RatTraffic.ratPump (n : Nat) (s : State) (port : Nat) : RatTraffic s (s.ratPump n port) := by
  induction n generalizing s with
  | zero => exact .refl s
  | succ n ih =>
    rw [State.ratPump]
    split
    · exact .refl s
    · split
      · exact .trans (.ratPumped (s := s)) (ih _)
      · exact .refl s

/-- A message waits behind those that wait already. -/
def State.ratQueued (s : State) (port : Nat) (f : RatFrame) : State :=
  { s with rat := s.rat.withTraffic (tset s.rat.outQ port (tgetD s.rat.outQ port [] ++ [f])) s.rat.replay s.rat.nextLink }

theorem RatTraffic.ratOut (s : State) (port : Nat) (f : RatFrame) : RatTraffic s (s.ratOut port f) := by
  unfold State.ratOut
  dsimp only
  split
  · exact RatTraffic.trans (t := s.ratQueued port f) ⟨⟨_, _, _, rfl⟩, List.suffix_refl _⟩ (.ratPump 8 _ port)
  · exact .refl s

/-- A message leaves at once on a port that is up with nothing waiting and room for another frame (R285). -/
theorem State.mem_ratOut_out (hu : s.ratUp port = true) (hq : tgetD s.rat.outQ port [] = [])
    (hr : (tgetD s.rat.replay port []).length < 8) : .rat port (tgetD s.rat.nextLink port 0) f ∈ (s.ratOut port f).out := by
  have hpump : s.ratOut port f = (s.ratQueued port f).ratPump 8 port :=
    if_pos (by rw [hu, hq]; rfl)
  have hwaits : tgetD (s.ratQueued port f).rat.outQ port [] = [f] := by
    simp [State.ratQueued, RatState.withTraffic, hq]
  rw [hpump, State.ratPump_sends 7 hwaits hu hr]
  refine (RatTraffic.ratPump 7 _ port).out.subset ?_
  rw [State.ratPumped_out]
  exact List.mem_cons_self ..

end sending

/-! ## The walks (R286, R287) -/

section walks
variable {s : State}

/-- The manager before its first walk: it is the only unit known. -/
def State.enumBegun (s : State) : State :=
  { s with rat := { s.rat with addr := 1, table := [(1, s.dev.nvm.unitId)], westWalk := false, ring := 0 } }

theorem RatTraffic.sendEnum (s : State) (port : Nat) (west : Bool) (next : Nat) (ids : List (BitVec 64)) (fin : Bool) :
    RatTraffic s.ratNext (s.sendEnum port west next ids fin) := .ratOut ..

theorem State.enumerate_east (h : s.ratUp 0 = true) :
    s.enumerate = s.enumBegun.sendEnum 0 false 2 [s.dev.nvm.unitId] false := if_pos h

theorem State.enumerate_west (h0 : s.ratUp 0 = false) (h1 : s.ratUp 1 = true) : s.enumerate = s.enumBegun.walkWest :=
  (if_neg (by exact h0 ▸ Bool.false_ne_true)).trans (if_pos h1)

theorem State.enumerate_alone (h0 : s.ratUp 0 = false) (h1 : s.ratUp 1 = false) :
    s.enumerate = { s.enumBegun with rat := { s.enumBegun.rat with enumDone := true } } :=
  (if_neg (by exact h0 ▸ Bool.false_ne_true)).trans (if_neg (by exact h1 ▸ Bool.false_ne_true))

/-- The walk west begins: the chain is a string so far. -/
def State.westBegun (s : State) : State :=
  { s with rat := { s.rat with ring := 2, enumDone := true, westWalk := true } }.sticky Reg.CHAIN_STATUS 0x10000

theorem State.westBegun_rat : s.westBegun.rat = { s.rat with ring := 2, enumDone := true, westWalk := true } := State.sticky_rat ..

theorem State.walkWest_rat :
    ∃ t, t.rat = { s.rat with ring := 2, enumDone := true, westWalk := true, seq := t.rat.seq } ∧ RatTraffic t s.walkWest := by
  unfold State.walkWest
  dsimp only
  split
  · exact ⟨s.westBegun.ratNext, by rw [State.ratNext, State.westBegun_rat], .sendEnum ..⟩
  · exact ⟨s.westBegun, State.westBegun_rat, .refl _⟩

theorem State.enumerate_addr (s : State) : s.enumerate.rat.addr = 1 := by
  cases h0 : s.ratUp 0 with
  | true =>
    rw [State.enumerate_east h0]
    exact (RatTraffic.sendEnum s.enumBegun ..).same (·.addr) fun _ _ _ _ => rfl
  | false =>
    cases h1 : s.ratUp 1 with
    | true =>
      obtain ⟨t, ht, hsent⟩ := s.enumBegun.walkWest_rat
      rw [State.enumerate_west h0 h1, hsent.same (·.addr) fun _ _ _ _ => rfl, ht]
      rfl
    | false => rw [State.enumerate_alone h0 h1]; rfl

theorem State.enumerate_walksEast (h : s.ratUp 0 = true) :
    s.enumerate.rat.table = [(1, s.dev.nvm.unitId)] ∧ s.enumerate.rat.ring = 0
      ∧ (tgetD s.rat.outQ 0 [] = [] → (tgetD s.rat.replay 0 []).length < 8 →
        ∃ k, Out.rat 0 k ⟨false, true, 1, 0xFF, s.rat.seq, 0, .enum 2 [s.dev.nvm.unitId] false⟩ ∈ s.enumerate.out) := by
  rw [State.enumerate_east h]
  have hsent := RatTraffic.sendEnum s.enumBegun 0 false 2 [s.dev.nvm.unitId] false
  exact ⟨hsent.same (·.table) fun _ _ _ _ => rfl, hsent.same (·.ring) fun _ _ _ _ => rfl,
    fun hq hr => ⟨_, State.mem_ratOut_out (s := s.enumBegun.ratNext) h hq hr⟩⟩

theorem State.enumerate_walksWest (h0 : s.ratUp 0 = false) (h1 : s.ratUp 1 = true) :
    s.enumerate.rat.westWalk = true ∧ s.enumerate.rat.ring = 2 := by
  obtain ⟨t, ht, hsent⟩ := s.enumBegun.walkWest_rat
  rw [State.enumerate_west h0 h1, hsent.same (·.westWalk) fun _ _ _ _ => rfl, hsent.same (·.ring) fun _ _ _ _ => rfl, ht]
  exact ⟨rfl, rfl⟩

end walks

/-! ## CHAIN_ENUMERATE and CHAIN_BUDGET -/

section commands
variable {s : State} {n : Nat}

theorem State.doChainEnumerate_eq (hm : s.manages = true) (hf : s.rat.forwarded = []) : s.doChainEnumerate = s.enumerate.done := by
  have hpass : ∀ e ∈ [(!s.manages, eState), (!s.rat.forwarded.isEmpty, eBusy)], e.1 = false := by simp [hm, hf]
  exact State.checked_pass hpass _

theorem State.doChainEnumerate_notManager (hm : s.manages = false) : s.doChainEnumerate = { st := s, status := eState } := by
  rw [State.doChainEnumerate, State.checked, firstBad, hm]
  rfl

theorem State.doChainEnumerate_busy (hm : s.manages = true) (hf : s.rat.forwarded ≠ []) :
    s.doChainEnumerate = { st := s, status := eBusy } :=
  State.checked_last (l := [(!s.manages, eState)]) (by simp [hm]) (by simp [hf]) _

theorem State.doChainBudget_eq (hl : 1600 ≤ n) (hu : n ≤ 84480) (hm : s.manages = true) :
    s.doChainBudget n = State.done { s with rat := { s.rat with limit := some n } } := by
  have hpass : ∀ e ∈ [(decide (n < 1600) || decide (84480 < n), eBadParam), (!s.manages, eState)], e.1 = false := by
    simp [hm, Nat.not_lt.2 hl, Nat.not_lt.2 hu]
  exact State.checked_pass hpass _

theorem State.doChainBudget_notManager (hl : 1600 ≤ n) (hu : n ≤ 84480) (hm : s.manages = false) :
    s.doChainBudget n = { st := s, status := eState } :=
  State.checked_last (l := [(decide (n < 1600) || decide (84480 < n), eBadParam)]) (by simp [Nat.not_lt.2 hl, Nat.not_lt.2 hu])
    (by rw [hm]; rfl) _

theorem State.doChainBudget_outside (h : n < 1600 ∨ 84480 < n) : s.doChainBudget n = { st := s, status := eBadParam } := by
  have hbad : (decide (n < 1600) || decide (84480 < n)) = true := by simpa using h
  rw [State.doChainBudget, State.checked, firstBad, hbad]
  rfl

end commands

end Sys2Proof.Machine
end

section
/-!
PROOFS. What the host sees of the commands of shroud groups and of the chain (R352 to R354): O58.
-/
namespace Sys2Proof.Machine
open Sys2Proof

/-- The fields that these commands may change besides those of every served command. -/
abbrev groupChainFields : List Fld := [.regs, .pmu, .tx, .grp, .rat]

/-! ## Each command, served -/

section served
variable {s : State} {h : CmdHdr} {g b n k : Nat} {p : GroupArg}

theorem runs_groupForm (hs : s.serves h (.groupForm p) g b = true) (hf : GroupArgsFit s p) (h1 : 1 ≤ p.firstActive)
    (ha : p.firstActive ≤ p.size) (hr : s.grp.role = .none) (hc : s.chans = []) :
    Runs (.groupForm h p) s h (.groupForm p) g b [] groupChainFields anyReg
      (GroupBegun p p.firstActive (if p.rank = p.firstActive then .active else .unverified)) :=
  .of_sending (a := (·.doGroupForm p)) (f := (·.groupFormed p)) rfl hs (fun _ _ _ => rfl)
    (fun m o => State.doGroupForm_eq (s := s.atBody m o) hf h1 ha hr hc) (State.doGroupForm_touches · p) (by decide) (by decide)
    fun m o n => (groupBegun_groupFormed (s := s.atBody m o) hf hr).set_mbx n

theorem runs_groupJoin (hs : s.serves h (.groupJoin p) g b = true) (hf : GroupArgsFit s p) (ha : p.firstActive = 0)
    (hr : s.grp.role = .none ∨ s.grp.role = .detached) (hc : s.chans = []) (hd : s.dev.fatal = false)
    (hu : s.portUp 0 = true ∨ s.portUp 1 = true) :
    Runs (.groupJoin h p) s h (.groupJoin p) g b [] groupChainFields anyReg (GroupBegun p 0 .joining) :=
  .of_sending (a := (·.doGroupJoin p)) (f := (·.groupJoined p)) rfl hs (fun _ _ _ => rfl)
    (fun m o => State.doGroupJoin_up (s := s.atBody m o) hf ha hr hc hd hu)
    (State.doGroupJoin_touches · p) (by decide) (by decide) fun _ _ n => groupBegun_groupJoined.set_mbx n

/-- With both stay legs down the join waits for the first hello (R262). -/
theorem does_groupJoin_waits (hs : s.serves h (.groupJoin p) g b = true) (hf : GroupArgsFit s p) (ha : p.firstActive = 0)
    (hr : s.grp.role = .none ∨ s.grp.role = .detached) (hc : s.chans = []) (hd : s.dev.fatal = false)
    (h0 : s.portUp 0 = false) (h1 : s.portUp 1 = false) :
    Does (.groupJoin h p) s (.mbx :: .out :: groupChainFields) anyReg fun t => GroupBegun p 0 .joining t
      ∧ t.mbx.held.map (·.why) = some .hello ∧ t.mbx.blocks = s.mbx.blocks ∧ t.mbx.queue = s.mbx.queue :=
  .of_hold (a := (·.doGroupJoin p)) (f := (·.groupJoined p)) rfl hs (fun _ _ _ => rfl)
    (fun m o => State.doGroupJoin_down (s := s.atBody m o) hf ha hr hc hd h0 h1)
    (State.doGroupJoin_touches · p) (by decide) (by decide) fun _ _ n => groupBegun_groupJoined.set_mbx n

/-- A GROUP_LEAVE that answers with the state `f` makes. -/
theorem runs_groupLeave {f : State → State} {P : State → Prop} (hs : s.serves h .groupLeave g b = true)
    (hf : ∀ m o, (s.atBody m o).doGroupLeave = (f (s.atBody m o)).done) (hp : ∀ m o n, P { f (s.atBody m o) with mbx := n }) :
    Runs (.groupLeave h) s h .groupLeave g b [] groupChainFields anyReg P :=
  .of_sending (a := (·.doGroupLeave)) rfl hs (fun _ _ _ => rfl) hf State.doGroupLeave_touches (by decide) (by decide) hp

/-- The four ways a member leaves (R256). -/
theorem groupLeave_clauses (hs : s.serves h .groupLeave g b = true) (hm : s.member = true) :
    (s.grp.role ≠ .active → s.chans ≠ [] → Runs (.groupLeave h) s h .groupLeave g b [] groupChainFields anyReg fun t =>
      t.grp.role = .detached ∧ t.grp.handover = none ∧ t.grp.heldPkts = [])
    ∧ (s.grp.role ≠ .active → s.chans = [] → Runs (.groupLeave h) s h .groupLeave g b [] groupChainFields anyReg fun t =>
      t.grp.role = .none)
    ∧ (∀ k r, s.standbys = k :: r → s.grp.role = .active → s.grp.handover = none →
      Runs (.groupLeave h) s h .groupLeave g b [] groupChainFields anyReg fun t =>
        t.grp.role = .active ∧ t.grp.handover = some { tH := s.time.nowNs + 5000000, target := k, diverged := [], leave := true })
    ∧ (∀ o, s.grp.handover = some o → s.grp.role = .active → s.standbys ≠ [] →
      Runs (.groupLeave h) s h .groupLeave g b [] [.grp] noReg fun t => t.grp = { s.grp with handover := some { o with leave := true } }) := by
  refine ⟨fun hr hc => ?_, fun hr hc => ?_, fun k r hk hr hh => ?_, fun o ho hr hk => ?_⟩
  · refine runs_groupLeave hs (fun m o => State.doGroupLeave_member (s := s.atBody m o) hm hr) fun m o n => ?_
    rw [State.detach_kept (s := s.atBody m o) hc]
    exact ⟨State.leaves_role, rfl, rfl⟩
  · exact runs_groupLeave hs (fun m o => State.doGroupLeave_member (s := s.atBody m o) hm hr)
      fun m o n => State.detach_role (s := s.atBody m o) hc
  · exact runs_groupLeave (f := (·.startHandover k [] true)) hs
      (fun m o => State.doGroupLeave_handsOver (s := s.atBody m o) hm hr hk hh)
      fun m o _ => State.startHandover_grp (s := s.atBody m o) hr hh
  · exact .of_answer (f := fun t => { t with grp := { t.grp with handover := some { o with leave := true } } }) rfl hs (by decide)
      (fun m x _ => State.doGroupLeave_handing (s := s.atBody m x) hm hr hk ho)
      (fun _ _ => (Touches.set_grp (by decide) _).mpr (.refl ..)) (fun _ _ _ _ => rfl) fun _ _ _ => rfl

theorem runs_groupHandover (hs : s.serves h (.groupHandover n) g b = true) (hn : n ≤ 3) (hsize : n ≤ s.grp.size) (hr : s.grp.role = .active)
    (h0 : n = 0 → s.standbys.head? = some k) (hk : n ≠ 0 → k = n) (hmem : k ∈ s.standbys) (hneeds : (s.peer k).needs = [])
    (hh : s.grp.handover = none) :
    let z := s.time.nowNs + 5000000
    Runs (.groupHandover h n) s h (.groupHandover n) g b (leBytes 4 (z % 1000000000) ++ leBytes 4 (z / 1000000000))
      groupChainFields anyReg fun t => t.grp.role = .active ∧ t.grp.handover = some { tH := z, target := k, diverged := [] }
        ∧ (s.portUp 0 = true → (s.leg 0).helloOk = true →
          Out.stay 0 (s.leg 0).nextLink ⟨s.grp.recSeq, s.grp.rank, false, .handover z k []⟩ ∈ t.out) := by
  refine .of_sending (a := (·.doGroupHandover n)) (f := (·.startHandover k [] false)) rfl hs (fun _ _ _ => rfl)
    (fun m o => State.doGroupHandover_eq (s := s.atBody m o) hn hsize hr h0 hk hmem hneeds hh) (State.doGroupHandover_touches · n)
    (by decide) (by decide) fun m o q => ?_
  obtain ⟨hrole, hover⟩ := State.startHandover_grp (s := s.atBody m o) (k := k) (d := []) (leave := false) hr hh
  exact ⟨hrole, hover, fun hu hok => State.startHandover_out (s := s.atBody m o) hr hh ⟨hu, hok⟩⟩

/-- CHAIN_ENUMERATE on the manager begins the first walk (R286). -/
theorem runs_chainEnumerate (hs : s.serves h .chainEnumerate g b = true) (hm : s.manages = true) (hf : s.rat.forwarded = []) :
    Runs (.chainEnumerate h) s h .chainEnumerate g b [] groupChainFields anyReg fun t => t.rat.addr = 1
      ∧ (s.ratUp 0 = true → t.rat.table = [(1, s.dev.nvm.unitId)] ∧ t.rat.ring = 0 ∧
          (tgetD s.rat.outQ 0 [] = [] → (tgetD s.rat.replay 0 []).length < 8 → ∃ k, Out.rat 0 k
            ⟨false, true, 1, 0xFF, s.rat.seq, 0, .enum 2 [s.dev.nvm.unitId] false⟩ ∈ t.out))
      ∧ (s.ratUp 0 = false → s.ratUp 1 = false → t.rat.enumDone = true ∧ t.rat.table = [(1, s.dev.nvm.unitId)] ∧ t.rat.seq = s.rat.seq)
      ∧ (s.ratUp 0 = false → s.ratUp 1 = true → t.rat.westWalk = true ∧ t.rat.ring = 2) := by
  refine .of_sending (a := (·.doChainEnumerate)) (f := (·.enumerate)) rfl hs (fun _ _ _ => rfl)
    (fun m o => State.doChainEnumerate_eq (s := s.atBody m o) hm hf) State.doChainEnumerate_touches (by decide) (by decide)
    fun m o q => ⟨State.enumerate_addr _, State.enumerate_walksEast (s := s.atBody m o), fun h0 h1 => ?_,
      State.enumerate_walksWest (s := s.atBody m o)⟩
  rw [State.enumerate_alone (s := s.atBody m o) h0 h1]
  exact ⟨rfl, rfl, rfl⟩

theorem runs_chainBudget (hs : s.serves h (.chainBudget n) g b = true) (hl : 1600 ≤ n) (hu : n ≤ 84480) (hm : s.manages = true) :
    Runs (.chainBudget h n) s h (.chainBudget n) g b [] [.rat] noReg fun t => t.rat = { s.rat with limit := some n } :=
  .of_answer (f := fun t => { t with rat := { t.rat with limit := some n } }) rfl hs (by decide)
    (fun m o _ => State.doChainBudget_eq (s := s.atBody m o) hl hu hm) (fun _ _ => (Touches.set_rat (by decide) _).mpr (.refl ..))
    (fun _ _ _ _ => rfl) fun _ _ _ => rfl

end served

/-- Settles O58: each command runs through its checks to the step of the group or of the chain behind it. -/
theorem groupChainCommands : Obligations.GroupChainCommands := by
  refine ⟨fun s h g b p hs hf h1 ha hr hc _ => runs_groupForm hs hf h1 ha hr hc,
    fun s h g b p hs hf ha hr hc hd => ⟨runs_groupJoin hs hf ha hr hc hd, does_groupJoin_waits hs hf ha hr hc hd⟩,
    fun s h g b hs hm => groupLeave_clauses hs hm,
    fun s h g b n k hs hn hsize hr h0 hk hmem hneeds hh => runs_groupHandover hs hn hsize hr h0 hk hmem hneeds hh,
    fun s h g b n => ⟨fun hs => ⟨fun hm => ?_, fun hm hf => ?_, runs_chainEnumerate hs⟩,
      fun hs => ⟨fun hout => ?_, fun hl hu hm => ?_, runs_chainBudget hs⟩⟩⟩
  · exact .of_body_refusal rfl hs fun m o _ => State.doChainEnumerate_notManager (s := s.atBody m o) hm
  · exact .of_body_refusal rfl hs fun m o _ => State.doChainEnumerate_busy (s := s.atBody m o) hm hf
  · exact .of_body_refusal rfl hs fun m o _ => State.doChainBudget_outside hout
  · exact .of_body_refusal rfl hs fun m o _ => State.doChainBudget_notManager (s := s.atBody m o) hl hu hm

end Sys2Proof.Machine
end

section
/-!
PROOFS. What every step keeps: a command answers a next state, leaves the queue alone (log entry 1) and keeps the HBM image in
canonical form (R371, R389).
-/
namespace Sys2Proof.Machine
open Sys2Proof

/-- An outcome of a command on `s` is a next state with the queue of `s`, whose HBM image is in canonical form where that of `s` is. -/
def Steady (s : State) (o : Host.Outcome State Fault Refusal) : Prop := ∃ t, o = .next t ∧ t.pending = s.pending ∧ MemOk s t

namespace Steady

variable {s : State} {o : Host.Outcome State Fault Refusal} {l : List Fld}

theorem of_memOk (hm : MemOk s (outState s o)) (ht : Touches l s (outState s o)) (hl : .pending ∉ l := by decide)
    (ho : ∃ t, o = .next t := by exact ⟨_, rfl⟩) : Steady s o := by
  obtain ⟨t, rfl⟩ := ho
  exact ⟨t, rfl, ht.same .pending hl, hm⟩

/-- A row whose frame holds neither the queue nor the memory. -/
theorem of_frame (ht : Touches l s (outState s o)) (hl : .pending ∉ l ∧ .mem ∉ l := by decide)
    (ho : ∃ t, o = .next t := by exact ⟨_, rfl⟩) : Steady s o :=
  of_memOk ((MemOk.frame ht hl.2).mpr (.refl s)) ht hl.1 ho

/-- A command of the host, whatever its body. -/
theorem runCommand (s : State) (h : CmdHdr) (p : Payload) : Steady s (.next (s.runCommand h p)) :=
  of_memOk (State.runCommand_memOk s h p) (State.runCommand_touches s h p)

end Steady

/-- Every row by the frame of its own definition, the host's commands by that of `State.runCommand`. -/
theorem exec_steady (c : Instr) (s : State) : Steady s (exec c s) := by
  cases c with
  | sessionOpen | sessionProve | sessionClose | completionFetch | keyWrite | deviceInfo | deviceConfigure | powerBudget
  | shutdown | calRead | calWrite | firmwareWrite | lifecycleSet | timeConfig | timeServoConfig | timeAcceptStep
  | timePpsConfig | portConfig | netAddress | flowAdd | flowDelete | txQueueConfig | gateListSet | laneConfig | channelDefine
  | channelDelete | channelStart | channelStop | channelSet | channelCommit | channelRefresh | ltrMark | ltrRelease | roiSet
  | roiClear | extStreamDefine | extStreamDelete | surfaceAlloc | surfaceFree | flipSubmit | protectedLoad | protectedRemove
  | tonemapLoad | audioPortConfig | audioPortStart | audioPortStop | audioStreamConfig | audioStreamDelete | audioRoute
  | audioAlignGroup | audioClock | groupForm | groupJoin | groupLeave | groupHandover | chainEnumerate | chainBudget
  | eventLogFetch | cuAssign =>
    exact .runCommand ..
  | powerOn => exact .of_memOk (execPowerOn_memOk ..) (execPowerOn_touches ..)
  | chipReset => exact .of_memOk (execChipReset_memOk ..) (execChipReset_touches ..)
  | resetRelease => exact .of_memOk (execResetRelease_memOk ..) (execResetRelease_touches ..)
  | firmwareReady => exact .of_memOk (execFirmwareReady_memOk ..) (execFirmwareReady_touches ..)
  | trialTimeout => exact .of_memOk (execTrialTimeout_memOk ..) (execTrialTimeout_touches ..)
  | lifecycleResetTimer => exact .of_memOk (execLifecycleResetTimer_memOk ..) (execLifecycleResetTimer_touches ..)
  | pllUnlock => exact .of_memOk (execPllUnlock_memOk ..) (execPllUnlock_touches ..)
  | refclkEthLoss => exact .of_memOk (execRefclkEthLoss_memOk ..) (execRefclkEthLoss_touches ..)
  | controlComplexReset => exact .of_memOk (execControlComplexReset_memOk ..) (execControlComplexReset_touches ..)
  | watchdogExpiry => exact .of_memOk (execWatchdogExpiry_memOk ..) (execWatchdogExpiry_touches ..)
  | functionLevelReset => exact .of_memOk (execFunctionLevelReset_memOk ..) (execFunctionLevelReset_touches ..)
  | engineLocalReset => exact .of_memOk (execEngineLocalReset_memOk ..) (execEngineLocalReset_touches ..)
  | ethernetFrameRx => exact .of_memOk (execEthernetFrameRx_memOk ..) (execEthernetFrameRx_touches ..)
  | packetTransmit => exact .of_memOk (execPacketTransmit_memOk ..) (execPacketTransmit_touches ..)
  | copyRecord => exact .of_memOk (execCopyRecord_memOk ..) (execCopyRecord_touches ..)
  | ratlineCommand => exact .of_memOk (execRatlineCommand_memOk ..) (execRatlineCommand_touches ..)
  | testGrantTimeout => exact .of_memOk (execTestGrantTimeout_memOk ..) (execTestGrantTimeout_touches ..)
  | selftestBlockEnd => exact .of_memOk (execSelftestBlockEnd_memOk ..) (execSelftestBlockEnd_touches ..)
  | mooredEntry => exact .of_memOk (execMooredEntry_memOk ..) (execMooredEntry_touches ..)
  | thermalTrip => exact .of_memOk (execThermalTrip_memOk ..) (execThermalTrip_touches ..)
  | hbmTempRead => exact .of_memOk (execHbmTempRead_memOk ..) (execHbmTempRead_touches ..)
  | supplyResetCrossing => exact .of_memOk (execSupplyResetCrossing_memOk ..) (execSupplyResetCrossing_touches ..)
  | hbmRefresh => exact .of_memOk (execHbmRefresh_memOk ..) (execHbmRefresh_touches ..)
  | panicLongTimer => exact .of_memOk (execPanicLongTimer_memOk ..) (execPanicLongTimer_touches ..)
  | rowIdleClose => exact .of_memOk (execRowIdleClose_memOk ..) (execRowIdleClose_touches ..)
  | scrubRead => exact .of_memOk (execScrubRead_memOk ..) (execScrubRead_touches ..)
  | eccCorrectedError => exact .of_memOk (execEccCorrectedError_memOk ..) (execEccCorrectedError_touches ..)
  | eccUncorrectableError => exact .of_memOk (execEccUncorrectableError_memOk ..) (execEccUncorrectableError_touches ..)
  | masterResetRetire => exact .of_memOk (execMasterResetRetire_memOk ..) (execMasterResetRetire_touches ..)
  | hostHbmAccess => exact .of_memOk (execHostHbmAccess_memOk ..) (execHostHbmAccess_touches ..)
  | chkScanEnd => exact .of_memOk (execChkScanEnd_memOk ..) (execChkScanEnd_touches ..)
  | pmuDumpTrigger => exact .of_memOk (execPmuDumpTrigger_memOk ..) (execPmuDumpTrigger_touches ..)
  | hourCounterTick => exact .of_frame (execHourCounterTick_touches ..)
  | refclkLinkLoss => exact .of_frame (execRefclkLinkLoss_touches ..)
  | refclkLinkReturn => exact .of_frame (execRefclkLinkReturn_touches ..)
  | audmOscUnlock => exact .of_frame (execAudmOscUnlock_touches ..)
  | restartHoldExpiry => exact .of_frame (execRestartHoldExpiry_touches ..)
  | pictureBoundary => exact .of_frame (execPictureBoundary_touches ..)
  | channelClockChange => exact .of_frame (execChannelClockChange_touches ..)
  | lossMapFreeze => exact .of_frame (execLossMapFreeze_touches ..)
  | rowDeadline => exact .of_frame (execRowDeadline_touches ..)
  | rowJobRelease => exact .of_frame (execRowJobRelease_touches ..)
  | rowJobStart => exact .of_frame (execRowJobStart_touches ..)
  | ctuCommit => exact .of_frame (execCtuCommit_touches ..)
  | rowJobComplete => exact .of_frame (execRowJobComplete_touches ..)
  | jobOverrun => exact .of_frame (execJobOverrun_touches ..)
  | duSubstitution => exact .of_frame (execDuSubstitution_touches ..)
  | trailingFilter => exact .of_frame (execTrailingFilter_touches ..)
  | alfDerivation => exact .of_frame (execAlfDerivation_touches ..)
  | proofDispatch => exact .of_frame (execProofDispatch_touches ..)
  | proofVerdict => exact .of_frame (execProofVerdict_touches ..)
  | verdictDeadline => exact .of_frame (execVerdictDeadline_touches ..)
  | substituteDecode => exact .of_frame (execSubstituteDecode_touches ..)
  | proofTrailingFilter => exact .of_frame (execProofTrailingFilter_touches ..)
  | proofPipeReset => exact .of_frame (execProofPipeReset_touches ..)
  | extAuFreeze => exact .of_frame (execExtAuFreeze_touches ..)
  | extGapDeadline => exact .of_frame (execExtGapDeadline_touches ..)
  | extAuDecode => exact .of_frame (execExtAuDecode_touches ..)
  | duTransmitEntry => exact .of_frame (execDuTransmitEntry_touches ..)
  | seqMissingTimeout => exact .of_frame (execSeqMissingTimeout_touches ..)
  | mergePathDown => exact .of_frame (execMergePathDown_touches ..)
  | firmwareControlPacket => exact .of_frame (execFirmwareControlPacket_touches ..)
  | membershipReportTimer => exact .of_frame (execMembershipReportTimer_touches ..)
  | ethLinkUp => exact .of_frame (execEthLinkUp_touches ..)
  | ethLinkDown => exact .of_frame (execEthLinkDown_touches ..)
  | packetModelInstant => exact .of_frame (execPacketModelInstant_touches ..)
  | tsSlot => exact .of_frame (execTsSlot_touches ..)
  | gateListTaken => exact .of_frame (execGateListTaken_touches ..)
  | gateListStart => exact .of_frame (execGateListStart_touches ..)
  | gateEntryChange => exact .of_frame (execGateEntryChange_touches ..)
  | sampleTick => exact .of_frame (execSampleTick_touches ..)
  | tdmRxFrame => exact .of_frame (execTdmRxFrame_touches ..)
  | tdmTxFrame => exact .of_frame (execTdmTxFrame_touches ..)
  | tdmFrameSync => exact .of_frame (execTdmFrameSync_touches ..)
  | tdmLockTimeout => exact .of_frame (execTdmLockTimeout_touches ..)
  | audioClockLoopUpdate => exact .of_frame (execAudioClockLoopUpdate_touches ..)
  | pilotHoldover => exact .of_frame (execPilotHoldover_touches ..)
  | ptpSync => exact .of_frame (execPtpSync_touches ..)
  | ptpFollowUp => exact .of_frame (execPtpFollowUp_touches ..)
  | ptpAnnounce => exact .of_frame (execPtpAnnounce_touches ..)
  | ptpDelayResp => exact .of_frame (execPtpDelayResp_touches ..)
  | delayReqTimer => exact .of_frame (execDelayReqTimer_touches ..)
  | announceTimeout => exact .of_frame (execAnnounceTimeout_touches ..)
  | servoOffset o tag k => exact .of_frame (execServoOffset_touches o tag k s)
  | servoCorrExpiry => exact .of_frame (execServoCorrExpiry_touches ..)
  | offsetTimeout => exact .of_frame (execOffsetTimeout_touches ..)
  | stepApply => exact .of_frame (execStepApply_touches ..)
  | ppsOutPulse => exact .of_frame (execPpsOutPulse_touches ..)
  | ppsOutFall => exact .of_frame (execPpsOutFall_touches ..)
  | ppsInEdge => exact .of_frame (execPpsInEdge_touches ..)
  | rowRecord => exact .of_frame (execRowRecord_touches ..)
  | pictureRecord => exact .of_frame (execPictureRecord_touches ..)
  | gapRecord => exact .of_frame (execGapRecord_touches ..)
  | repairRequest => exact .of_frame (execRepairRequest_touches ..)
  | repairData => exact .of_frame (execRepairData_touches ..)
  | hello => exact .of_frame (execHello_touches ..)
  | helloTimer => exact .of_frame (execHelloTimer_touches ..)
  | handover => exact .of_frame (execHandover_touches ..)
  | handoverAck => exact .of_frame (execHandoverAck_touches ..)
  | standDown => exact .of_frame (execStandDown_touches ..)
  | rejoinPlan => exact .of_frame (execRejoinPlan_touches ..)
  | rejoinDone => exact .of_frame (execRejoinDone_touches ..)
  | handoverInstant => exact .of_frame (execHandoverInstant_touches ..)
  | handoverRetry => exact .of_frame (execHandoverRetry_touches ..)
  | takeoverTimer => exact .of_frame (execTakeoverTimer_touches ..)
  | takeoverWaitTimer => exact .of_frame (execTakeoverWaitTimer_touches ..)
  | recordSilenceTimeout => exact .of_frame (execRecordSilenceTimeout_touches ..)
  | heldPacketExpiry => exact .of_frame (execHeldPacketExpiry_touches ..)
  | rejoinCopyComplete => exact .of_frame (execRejoinCopyComplete_touches ..)
  | copyRetryTimer => exact .of_frame (execCopyRetryTimer_touches ..)
  | stayReplayTimeout => exact .of_frame (execStayReplayTimeout_touches ..)
  | linkAck => exact .of_frame (execLinkAck_touches ..)
  | trn => exact .of_frame (execTrn_touches ..)
  | aln => exact .of_frame (execAln_touches ..)
  | symbolLock => exact .of_frame (execSymbolLock_touches ..)
  | trainingStepTimer => exact .of_frame (execTrainingStepTimer_touches ..)
  | trainingTimeout => exact .of_frame (execTrainingTimeout_touches ..)
  | laneLosSet => exact .of_frame (execLaneLosSet_touches ..)
  | laneLosClear => exact .of_frame (execLaneLosClear_touches ..)
  | cdrLockChange => exact .of_frame (execCdrLockChange_touches ..)
  | elasticSlip => exact .of_frame (execElasticSlip_touches ..)
  | failedHoldExpiry => exact .of_frame (execFailedHoldExpiry_touches ..)
  | enum => exact .of_frame (execEnum_touches ..)
  | announce => exact .of_frame (execAnnounce_touches ..)
  | announceTimer => exact .of_frame (execAnnounceTimer_touches ..)
  | assign => exact .of_frame (execAssign_touches ..)
  | ratlineCompletion => exact .of_frame (execRatlineCompletion_touches ..)
  | commandResendTimer => exact .of_frame (execCommandResendTimer_touches ..)
  | forwardTimeout => exact .of_frame (execForwardTimeout_touches ..)
  | ringCheckTimer => exact .of_frame (execRingCheckTimer_touches ..)
  | ringCheck => exact .of_frame (execRingCheck_touches ..)
  | ringReport => exact .of_frame (execRingReport_touches ..)
  | ringSplitTimeout => exact .of_frame (execRingSplitTimeout_touches ..)
  | budgetTimer => exact .of_frame (execBudgetTimer_touches ..)
  | budget => exact .of_frame (execBudget_touches ..)
  | budgetTimeout => exact .of_frame (execBudgetTimeout_touches ..)
  | testRequest => exact .of_frame (execTestRequest_touches ..)
  | testGrant => exact .of_frame (execTestGrant_touches ..)
  | testDone => exact .of_frame (execTestDone_touches ..)
  | grantExpiry => exact .of_frame (execGrantExpiry_touches ..)
  | ratlineReplayTimeout => exact .of_frame (execRatlineReplayTimeout_touches ..)
  | mbxH2dWrite => exact .of_frame (execMbxH2dWrite_touches ..)
  | mbxD2hRead => exact .of_frame (execMbxD2hRead_touches ..)
  | d2hQueuePost => exact .of_frame (execD2hQueuePost_touches ..)
  | ping => exact .of_frame (execPing_touches ..)
  | sessionIdleTimeout => exact .of_frame (execSessionIdleTimeout_touches ..)
  | nonceExpiry => exact .of_frame (execNonceExpiry_touches ..)
  | slotLockExpiry => exact .of_frame (execSlotLockExpiry_touches ..)
  | firmwareWriteDone => exact .of_frame (execFirmwareWriteDone_touches ..)
  | selftestBlockStart => exact .of_frame (execSelftestBlockStart_touches ..)
  | tempSensorScan => exact .of_frame (execTempSensorScan_touches ..)
  | thermalHigh => exact .of_frame (execThermalHigh_touches ..)
  | pmbusPoll => exact .of_frame (execPmbusPoll_touches ..)
  | supplyWarningCrossing => exact .of_frame (execSupplyWarningCrossing_touches ..)
  | supplyWarningRelease => exact .of_frame (execSupplyWarningRelease_touches ..)
  | bar0BadAccess => exact .of_frame (execBar0BadAccess_touches ..)
  | registerWrite => exact .of_frame (execRegisterWrite_touches ..)
  | timeNowNsRead => exact .of_frame (execTimeNowNsRead_touches ..)
  | chnAuCountLoRead => exact .of_frame (execChnAuCountLoRead_touches ..)
  | pmuCntLoRead => exact .of_frame (execPmuCntLoRead_touches ..)
  | engPeakLoadRead => exact .of_frame (execEngPeakLoadRead_touches ..)
  | rcHeadroomMinRead => exact .of_frame (execRcHeadroomMinRead_touches ..)
  | lyrFlipResultRead => exact .of_frame (execLyrFlipResultRead_touches ..)
  | extMarginMinRead => exact .of_frame (execExtMarginMinRead_touches ..)
  | netMergeSkewRead => exact .of_frame (execNetMergeSkewRead_touches ..)
  | egrLateMaxRead => exact .of_frame (execEgrLateMaxRead_touches ..)
  | laneFomRead => exact .of_frame (execLaneFomRead_touches ..)
  | halDispatchMaxRead => exact .of_frame (execHalDispatchMaxRead_touches ..)
  | lyrFenceSignal => exact .of_frame (execLyrFenceSignal_touches ..)
  | lyrFenceReset => exact .of_frame (execLyrFenceReset_touches ..)
  | lyrCurPos => exact .of_frame (execLyrCurPos_touches ..)
  | lyrCurQueue => exact .of_frame (execLyrCurQueue_touches ..)
  | audSlotCommit => exact .of_frame (execAudSlotCommit_touches ..)
  | chkPreset => exact .of_frame (execChkPreset_touches ..)
  | chkInit => exact .of_frame (execChkInit_touches ..)
  | chkFinish => exact .of_frame (execChkFinish_touches ..)
  | chkStart => exact .of_frame (execChkStart_touches ..)
  | chkAbort => exact .of_frame (execChkAbort_touches ..)
  | chkFeed8 => exact .of_frame (execChkFeed8_touches ..)
  | chkFeed16 => exact .of_frame (execChkFeed16_touches ..)
  | chkFeed32 => exact .of_frame (execChkFeed32_touches ..)
  | pmuCounterEnable => exact .of_frame (execPmuCounterEnable_touches ..)
  | pmuSample => exact .of_frame (execPmuSample_touches ..)
  | pmuSamplePcRead => exact .of_frame (execPmuSamplePcRead_touches ..)
  | pmuHistClear => exact .of_frame (execPmuHistClear_touches ..)
  | pmuDumpConfigWrite => exact .of_frame (execPmuDumpConfigWrite_touches ..)
  | threadReady => exact .of_frame (execThreadReady_touches ..)
  | devRecovery => exact .of_frame (execDevRecovery_touches ..)
  | bistRunStart => exact .of_frame (execBistRunStart_touches ..)
  | bistOtpBurn => exact .of_frame (execBistOtpBurn_touches ..)
  | bistKeySlotWrite => exact .of_frame (execBistKeySlotWrite_touches ..)
  | codeError => exact .of_frame (execCodeError_touches ..)
  | laneFomLow => exact .of_frame (execLaneFomLow_touches ..)
  | unstableClear => exact .of_frame (execUnstableClear_touches ..)

theorem step_memOk {s t : State} (h : step s = .next t) : MemOk s t := by
  unfold step at h
  split at h
  · cases h
    exact (MemOk.frame (State.idle_touches s) (by decide)).mpr (.refl s)
  · next i r _ =>
    obtain ⟨u, hu, -, hm⟩ := exec_steady i { s with pending := r }
    obtain rfl : u = t := by simpa [hu] using h
    exact .of hm.keeps

/-- Settles O5: the memory law of every row of the step table, and of the step on an empty queue. -/
theorem memoryStaysCanonical : Obligations.MemoryStaysCanonical :=
  fun _ _ hs h => (step_memOk h).keeps hs

/-- Settles O6: every row answers a next state, and no row has the queue in its frame. -/
theorem queueLeftAlone : Obligations.QueueLeftAlone := fun c s =>
  let ⟨t, ht, hp, _⟩ := exec_steady c s
  ⟨t, ht, hp⟩

/-- Settles O1: the branch of the step on a queue with a front. -/
theorem stepTakesFront : Obligations.StepTakesFront := fun _ _ _ h => step_of_pending h

/-- Settles O4: the reset memory lists no byte. -/
theorem resetMemoryCanonical : Obligations.ResetMemoryCanonical := ⟨Memory.wf_nil, fun _ => rfl⟩

/-- Settles O3: each field by its initial value, each register by the empty bank. -/
theorem resetLeaves : Obligations.ResetLeaves :=
  ⟨rfl, rfl, rfl, rfl, rfl, rfl, rfl, rfl, rfl, rfl, rfl, rfl, rfl, rfl, rfl, rfl, fun _ => rfl⟩

end Sys2Proof.Machine
end

section
/-!
PROOFS. What a row keeps of the register bank, step by step; ports that fail and lanes that train (R227, R269 to R273).
-/
namespace Sys2Proof.Machine
open Sys2Proof

/-! ## Registers that a chain of operations keeps -/

/-- From `s` to `t` only registers of `r` differ. -/
structure RegsKept (r : Nat → Prop) (s t : State) : Prop where
  same : ∀ off, ¬ r off → t.rd off = s.rd off

namespace RegsKept

variable {r : Nat → Prop} {s t u : State}

theorem refl (r : Nat → Prop) (s : State) : RegsKept r s s := ⟨fun _ _ => rfl⟩

theorem trans (a : RegsKept r s t) (b : RegsKept r t u) : RegsKept r s u := ⟨fun off h => (b.same off h).trans (a.same off h)⟩

theorem mono {q : Nat → Prop} (a : RegsKept q s t) (h : ∀ off, q off → r off) : RegsKept r s t :=
  ⟨fun off ho => a.same off fun hq => ho (h off hq)⟩

/-- An operation on other fields. -/
theorem of_regs (h : t.regs = s.regs) : RegsKept r s t := ⟨fun off _ => State.rd_congr h off⟩

theorem of_touches {l : List Fld} (a : Touches l s t) (h : .regs ∉ l := by decide) : RegsKept r s t := of_regs (a.same .regs h)

theorem wr {off : Nat} (h : r off) (v : Word) : RegsKept r s (s.wr off v) :=
  ⟨fun _ hc => State.rd_wr_ne (by rintro rfl; exact hc h) s v⟩

theorem bump {off : Nat} (h : r off) : RegsKept r s (s.bump off) := wr h _

theorem bumpBy {off : Nat} (h : r off) (n : Nat) : RegsKept r s (s.bumpBy off n) := wr h _

theorem sticky {off : Nat} (h : r off) (m : Word) : RegsKept r s (s.sticky off m) := wr h _

theorem raise (h : r Reg.DEV_STATUS) (code sev obj detail : Nat) : RegsKept r s (s.raise code sev obj detail) :=
  ⟨fun off ho => s.raise_rd_ne code sev obj detail (by rintro rfl; exact ho h)⟩

end RegsKept

/-! ## Bits of a register -/

/-- A sticky bit reads 1 once it has been set. -/
theorem wbit_or_mask {m : Word} {i : Nat} (h : wbit m i = true) (v : Word) : wbit (v ||| m) i = true := by simp [wbit_or, h]

theorem wbit_or_left {v : Word} {i : Nat} (h : wbit v i = true) (m : Word) : wbit (v ||| m) i = true := by simp [wbit_or, h]

/-! ## The link layer of a port starts again (R227, R228, R285) -/

/-- From `s` to `t` the link layer of port `q` has started again: a leg waits for a hello with its unacknowledged records in its
outage queue, a ratline port has discarded its frames. -/
def LinkRestarted (s t : State) (q : Nat) : Prop :=
  (q < 2 → t.rat = s.rat ∧ t.leg q = { s.leg q with
    helloOk := false, nextLink := 0, rxLink := 0, replay := []
    outage := takeLast 512 ((s.leg q).replay.map (·.msg) ++ (s.leg q).outage) })
  ∧ (2 ≤ q → t.grp = s.grp ∧ t.rat = { s.rat with
    replay := tdel s.rat.replay (q - 2), nextLink := tdel s.rat.nextLink (q - 2), rxLink := tdel s.rat.rxLink (q - 2) })

/-- A step that leaves the group and the chain alone. -/
def LinksKept (s t : State) : Prop := t.grp = s.grp ∧ t.rat = s.rat

theorem LinksKept.of_touches {l : List Fld} {s t : State} (a : Touches l s t) (h : .grp ∉ l ∧ .rat ∉ l := by decide) : LinksKept s t :=
  ⟨a.same .grp h.1, a.same .rat h.2⟩

theorem LinksKept.trans {s t u : State} (a : LinksKept s t) (b : LinksKept t u) : LinksKept s u := ⟨b.1.trans a.1, b.2.trans a.2⟩

theorem LinkRestarted.after {s t u : State} {q : Nat} (a : LinksKept s t) (b : LinkRestarted t u q) : LinkRestarted s u q := by
  obtain ⟨hg, hr⟩ := a
  simpa only [LinkRestarted, State.leg_congr hg, hg, hr] using b

theorem LinkRestarted.then {s t u : State} {q : Nat} (a : LinkRestarted s t q) (b : LinksKept t u) : LinkRestarted s u q := by
  obtain ⟨hg, hr⟩ := b
  simpa only [LinkRestarted, State.leg_congr hg, hg, hr] using a

theorem State.linkRestart_restarted (s : State) (q : Nat) : LinkRestarted s (s.linkRestart q) q := by
  unfold State.linkRestart
  split
  · next hq =>
    refine ⟨fun _ => ⟨?_, State.leg_setLeg_self ..⟩, fun h => absurd hq (by omega)⟩
    exact (State.setLeg_touches ..).same .rat (by decide)
  · next hq => exact ⟨fun h => absurd h hq, fun _ => ⟨rfl, rfl⟩⟩

/-! ## What training keeps of a lane -/

/-- What a restart of its training keeps of a lane's receiver. -/
def Lane.signals (x : Lane) : Bool × Bool × Bool × Bool × List Nat := (x.los, x.lol, x.symLock, x.polInv, x.errAt)

theorem State.retrainLanes_signals (s : State) (q k : Nat) : ((s.retrainLanes q).laneOf k).signals = (s.laneOf k).signals := by
  refine foldl_keep (fun t : State => (t.laneOf k).signals) (fun t j => ?_) _ _
  rw [State.laneOf_updLane]
  split <;> rfl

/-! ## A port fails (R272, R273) -/

/-- The machine once port `q` is FAILED, before a leg's failure is told. -/
def State.portDropped (s : State) (q : Nat) : State :=
  (((((s.updPort q fun p => { p with st := .failed, deskewed := false }).retrainLanes q).linkRestart q).bump
    (Reg.LINK_RETRAINS q)).sticky (Reg.LINK_STATUS q) 0x80000)

section failPort
variable {s : State} {q : Nat}

theorem State.failPort_again (h : (s.portOf q).st = .failed) (cause : Nat) : s.failPort q cause = s := if_pos (beq_iff_eq.2 h)

theorem State.failPort_eq (h : (s.portOf q).st ≠ .failed) (cause : Nat) :
    s.failPort q cause = if q < 2 then (s.portDropped q).legFailed q cause else s.portDropped q :=
  if_neg (by simpa using h)

/-- The cells that the failure of a port moves. -/
def failCells (q : Nat) : List Nat := [Reg.LINK_RETRAINS q, Reg.LINK_STATUS q, Reg.GRP_LINK_FAILS, Reg.GRP_STATUS, Reg.DEV_STATUS]

theorem State.portDropped_lane (s : State) (q : Nat) :
    (s.portDropped q).lane = ((s.updPort q fun p => { p with st := .failed, deskewed := false }).retrainLanes q).lane :=
  (State.linkRestart_touches _ q).same .lane (by decide)

theorem State.linkRestart_kept {r : Nat → Prop} (s : State) (q : Nat) : RegsKept r s (s.linkRestart q) :=
  .of_touches (s.linkRestart_touches q)

theorem State.portDropped_before {r : Nat → Prop} (s : State) (q : Nat) :
    RegsKept r s (((s.updPort q fun p => { p with st := .failed, deskewed := false }).retrainLanes q).linkRestart q) :=
  .trans (.of_touches ((State.updPort_touches ..).trans (State.retrainLanes_touches ..))) (State.linkRestart_kept ..)

theorem State.portDropped_kept (s : State) (q : Nat) : RegsKept (regIn [Reg.LINK_RETRAINS q, Reg.LINK_STATUS q]) s (s.portDropped q) :=
  (s.portDropped_before q).trans ((RegsKept.bump (by simp [regIn])).trans (.sticky (by simp [regIn]) _))

theorem State.legFailed_kept (s : State) (q cause : Nat) :
    RegsKept (regIn [Reg.GRP_LINK_FAILS, Reg.GRP_STATUS, Reg.DEV_STATUS]) s (s.legFailed q cause) :=
  (RegsKept.bump (off := Reg.GRP_LINK_FAILS) (by simp [regIn])).trans
    ((RegsKept.sticky (off := Reg.GRP_STATUS) (by simp [regIn]) _).trans (.raise (by simp [regIn]) ..))

theorem State.failPort_kept (s : State) (q cause : Nat) : RegsKept (regIn (failCells q)) s (s.failPort q cause) := by
  have hd := (s.portDropped_kept q).mono (r := regIn (failCells q)) fun off h => by
    simp only [regIn, failCells, List.mem_cons, List.not_mem_nil, or_false] at h ⊢
    tauto
  by_cases h : (s.portOf q).st = .failed
  · rw [State.failPort_again h]
    exact .refl ..
  · rw [State.failPort_eq h]
    split
    · exact hd.trans ((State.legFailed_kept ..).mono fun off h => by
        simp only [regIn, failCells, List.mem_cons, List.not_mem_nil, or_false] at h ⊢
        tauto)
    · exact hd

/-- Telling that a leg has failed leaves its port, its lanes, its link layer and the port's registers alone. -/
theorem State.failPort_rd (h : (s.portOf q).st ≠ .failed) (cause : Nat) {off : Nat}
    (ho : off ∉ [Reg.GRP_LINK_FAILS, Reg.GRP_STATUS, Reg.DEV_STATUS]) : (s.failPort q cause).rd off = (s.portDropped q).rd off := by
  rw [State.failPort_eq h]
  split
  · exact (State.legFailed_kept ..).same off ho
  · rfl

theorem State.failPort_rd_retrains (h : (s.portOf q).st ≠ .failed) (cause : Nat) :
    (s.failPort q cause).rd (Reg.LINK_RETRAINS q) = s.rd (Reg.LINK_RETRAINS q) + 1 := by
  have hne : Reg.LINK_STATUS q ≠ Reg.LINK_RETRAINS q := by simp [Reg.LINK_STATUS, Reg.LINK_RETRAINS]
  rw [State.failPort_rd h _ (by simp [Reg.LINK_RETRAINS, Reg.GRP_LINK_FAILS, Reg.GRP_STATUS, Reg.DEV_STATUS]; omega),
    State.portDropped, State.sticky_rd_ne _ hne, State.bump_rd_self,
    (s.portDropped_before (r := fun _ => False) q).same _ not_false]

theorem State.failPort_rd_status (h : (s.portOf q).st ≠ .failed) (cause : Nat) :
    (s.failPort q cause).rd (Reg.LINK_STATUS q) = s.rd (Reg.LINK_STATUS q) ||| 0x80000 := by
  have hne : Reg.LINK_RETRAINS q ≠ Reg.LINK_STATUS q := by simp [Reg.LINK_STATUS, Reg.LINK_RETRAINS]
  rw [State.failPort_rd h _ (by simp [Reg.LINK_STATUS, Reg.GRP_LINK_FAILS, Reg.GRP_STATUS, Reg.DEV_STATUS]; omega),
    State.portDropped, State.sticky_rd_self, State.bump_rd_ne _ hne,
    (s.portDropped_before (r := fun _ => False) q).same _ not_false]

theorem State.failPort_restarted (h : (s.portOf q).st ≠ .failed) (cause : Nat) : LinkRestarted s (s.failPort q cause) q := by
  have hd : LinkRestarted s (s.portDropped q) q := by
    refine .after (.of_touches ((State.updPort_touches ..).trans (State.retrainLanes_touches ..)))
      ((State.linkRestart_restarted _ q).then (.of_touches ((State.bump_touches ..).trans (State.sticky_touches ..))))
  rw [State.failPort_eq h]
  split
  · exact hd.then (.of_touches (State.legFailed_touches ..))
  · exact hd

theorem State.failPort_entered (h : (s.portOf q).st ≠ .failed) (hq : q < 2) (cause : Nat) :
    Entered 0x0052 q (cause % 2 ^ 64) (s.failPort q cause) := by
  rw [State.failPort_eq h, if_pos hq]
  obtain ⟨e, r, he, hc, ho, hd⟩ := State.raise_enters (((s.portDropped q).bump Reg.GRP_LINK_FAILS).sticky Reg.GRP_STATUS 0x100000)
    0x0052 1 q cause
  exact ⟨e, r, he, hc, ho, by rw [hd, Nat.mod_mod]⟩

theorem State.failPort_lane (h : (s.portOf q).st ≠ .failed) (cause : Nat) : (s.failPort q cause).lane = (s.portDropped q).lane := by
  rw [State.failPort_eq h]
  split
  · exact (State.legFailed_touches ..).same .lane (by decide)
  · rfl

theorem State.laneOf_congr {s t : State} (h : t.lane.lanes = s.lane.lanes) (k : Nat) : t.laneOf k = s.laneOf k :=
  congrArg (fun l : Tab Lane => tgetD l k {}) h

theorem State.failPort_laneOf (h : (s.portOf q).st ≠ .failed) (cause k : Nat) :
    (s.failPort q cause).laneOf k = ((s.updPort q fun p => { p with st := .failed, deskewed := false }).retrainLanes q).laneOf k :=
  State.laneOf_congr (congrArg LaneState.lanes ((State.failPort_lane h cause).trans (s.portDropped_lane q))) k

theorem State.failPort_signals (s : State) (q cause k : Nat) : ((s.failPort q cause).laneOf k).signals = (s.laneOf k).signals := by
  by_cases h : (s.portOf q).st = .failed
  · rw [State.failPort_again h]
  · rw [State.failPort_laneOf h, State.retrainLanes_signals]
    rfl

theorem State.failPort_otherLane {k : Nat} (hk : k ∉ portLanes q) (cause : Nat) : (s.failPort q cause).laneOf k = s.laneOf k := by
  by_cases h : (s.portOf q).st = .failed
  · rw [State.failPort_again h]
  · rw [State.failPort_laneOf h, State.retrainLanes_other hk]
    rfl

end failPort

end Sys2Proof.Machine
end

section
/-!
PROOFS. The detectors of a lane and its port (R266, R270 to R273, R275): what loses a lane, what fails a port.
-/
namespace Sys2Proof.Machine
open Sys2Proof

/-! ## A lane is lost (R273) -/

/-- What the loss of a lane means for the port it belongs to: an UP port fails, and no link layer starts again otherwise. -/
def PortFalls (s t : State) (l : Nat) : Prop :=
  (∀ q, lanePort l = some q → s.portUp q = true →
    (t.portOf q).st = .failed ∧ t.rd (Reg.LINK_RETRAINS q) = s.rd (Reg.LINK_RETRAINS q) + 1 ∧ LinkRestarted s t q
      ∧ (q < 2 → Entered 0x0052 q 2 t))
  ∧ ((∀ q, lanePort l = some q → s.portUp q = false) → LinksKept s t)

/-- The cells of the port that a lane belongs to. -/
def portCells (l : Nat) : List Nat := (lanePort l).elim [] failCells

section laneLost
variable {s : State} {l q : Nat}

theorem State.portUp_iff : s.portUp q = true ↔ (s.portOf q).st = .up := beq_iff_eq

theorem State.laneLost_up (hl : lanePort l = some q) (hu : s.portUp q = true) : s.laneLost l = s.failPort q 2 := by
  simp [State.laneLost, hl, hu]

theorem State.laneLost_notUp (hl : lanePort l = some q) (hu : s.portUp q = false) : s.laneLost l = s.settlePort q := by
  simp [State.laneLost, hl, hu]

theorem State.laneLost_ethernet (hl : lanePort l = none) : s.laneLost l = s := by simp [State.laneLost, hl]

theorem State.portUp_notFailed (hu : s.portUp q = true) : (s.portOf q).st ≠ .failed := by
  rw [State.portUp_iff.1 hu]
  exact nofun

theorem State.laneLost_falls (s : State) (l : Nat) : PortFalls s (s.laneLost l) l := by
  refine ⟨fun q hl hu => ?_, fun hd => ?_⟩
  · have hf := State.portUp_notFailed hu
    rw [State.laneLost_up hl hu]
    exact ⟨by simp [State.failPort_st], State.failPort_rd_retrains hf 2, State.failPort_restarted hf 2,
      fun hq => State.failPort_entered hf hq 2⟩
  · cases hl : lanePort l with
    | none => rw [State.laneLost_ethernet hl]; exact ⟨rfl, rfl⟩
    | some q => rw [State.laneLost_notUp hl (hd q hl)]; exact .of_touches (s.settlePort_touches q)

theorem State.laneLost_kept (s : State) (l : Nat) : RegsKept (regIn (portCells l)) s (s.laneLost l) := by
  cases hl : lanePort l with
  | none => rw [State.laneLost_ethernet hl]; exact .refl ..
  | some q =>
    cases hu : s.portUp q with
    | true => rw [State.laneLost_up hl hu, portCells, hl]; exact s.failPort_kept q 2
    | false => rw [State.laneLost_notUp hl hu]; exact .of_touches (s.settlePort_touches q)

theorem State.settlePort_laneOf (s : State) (q k : Nat) :
    ((s.settlePort q).laneOf k).signals = (s.laneOf k).signals ∧ (k ∉ portLanes q → (s.settlePort q).laneOf k = s.laneOf k) := by
  unfold State.settlePort
  split
  · exact ⟨State.retrainLanes_signals .., fun hk => State.retrainLanes_other hk⟩
  · exact ⟨rfl, fun _ => rfl⟩

theorem State.laneLost_laneOf (s : State) (l k : Nat) : ((s.laneLost l).laneOf k).signals = (s.laneOf k).signals
    ∧ (k ∉ portLanes ((lanePort l).getD 4) → (s.laneLost l).laneOf k = s.laneOf k) := by
  cases hl : lanePort l with
  | none => rw [State.laneLost_ethernet hl]; exact ⟨rfl, fun _ => rfl⟩
  | some q =>
    cases hu : s.portUp q with
    | true => rw [State.laneLost_up hl hu]; exact ⟨State.failPort_signals .., fun hk => State.failPort_otherLane hk 2⟩
    | false => rw [State.laneLost_notUp hl hu]; exact s.settlePort_laneOf q k

end laneLost

/-! ## Loss of signal and of CDR lock (R273) -/

/-- A lane's detector has tripped: the lane is `f` of what it was, its losses are counted and its status bits `m` are set. -/
def State.tripped (s : State) (l : Nat) (f : Lane → Lane) (m : Word) : State :=
  ((s.updLane l f).bump (Reg.LANE_LOCK_LOSSES l)).sticky (Reg.LANE_STATUS l) m

section detectors
variable {s : State} {l q : Nat}

theorem State.tripped_laneOf (s : State) (l k : Nat) (f : Lane → Lane) (m : Word) :
    (s.tripped l f m).laneOf k = if l = k then f (s.laneOf k) else s.laneOf k :=
  (State.laneOf_congr rfl k).trans (State.laneOf_updLane ..)

theorem State.tripped_rd (s : State) (f : Lane → Lane) (m : Word) :
    (s.tripped l f m).rd (Reg.LANE_LOCK_LOSSES l) = s.rd (Reg.LANE_LOCK_LOSSES l) + 1
      ∧ (s.tripped l f m).rd (Reg.LANE_STATUS l) = s.rd (Reg.LANE_STATUS l) ||| m := by
  have hne : Reg.LANE_STATUS l ≠ Reg.LANE_LOCK_LOSSES l := by simp [Reg.LANE_STATUS, Reg.LANE_LOCK_LOSSES]
  rw [State.tripped, State.sticky_rd_ne _ hne, State.sticky_rd_self, State.bump_rd_self, State.bump_rd_ne _ hne.symm]
  exact ⟨rfl, rfl⟩

theorem State.tripped_kept (s : State) (f : Lane → Lane) (m : Word) :
    RegsKept (regIn [Reg.LANE_LOCK_LOSSES l, Reg.LANE_STATUS l]) s (s.tripped l f m) :=
  .trans (.of_touches (State.updLane_touches ..)) ((RegsKept.bump (by simp [regIn])).trans (.sticky (by simp [regIn]) _))

theorem lanePort_le (hl : lanePort l = some q) : l ≤ 25 := by
  unfold lanePort at hl
  split_ifs at hl <;> omega

/-- The registers of a lane are none of those that the failure of its port moves. -/
theorem laneReg_not_portCells {off : Nat} (hl : l ≤ 25) (ho : off = Reg.LANE_LOCK_LOSSES l ∨ off = Reg.LANE_STATUS l ∨
    off = Reg.LANE_CODE_ERRORS l) : off ∉ portCells l := by
  cases h : lanePort l with
  | none => simp [portCells, h]
  | some q =>
    have hq := lanePort_lt h
    simp only [portCells, h, Option.elim, failCells, List.mem_cons, List.not_mem_nil, or_false, Reg.LANE_LOCK_LOSSES, Reg.LANE_STATUS,
      Reg.LANE_CODE_ERRORS, Reg.LINK_RETRAINS, Reg.LINK_STATUS, Reg.GRP_LINK_FAILS, Reg.GRP_STATUS, Reg.DEV_STATUS] at ho ⊢
    omega

theorem portReg_tripped (hl : lanePort l = some q) (f : Lane → Lane) (m : Word) :
    (s.tripped l f m).rd (Reg.LINK_RETRAINS q) = s.rd (Reg.LINK_RETRAINS q) := by
  have hq := lanePort_lt hl
  have hl' := lanePort_le hl
  refine (s.tripped_kept f m).same _ ?_
  simp only [regIn, List.mem_cons, List.not_mem_nil, or_false, Reg.LINK_RETRAINS, Reg.LANE_LOCK_LOSSES, Reg.LANE_STATUS]
  omega

/-- A port that falls after its lane's detector has tripped falls from where it was. -/
theorem PortFalls.of_tripped {t : State} {f : Lane → Lane} {m : Word} (h : PortFalls (s.tripped l f m) t l) : PortFalls s t l := by
  have hk : LinksKept s (s.tripped l f m) := ⟨rfl, rfl⟩
  refine ⟨fun q hq hu => ?_, fun hd => hk.trans (h.2 hd)⟩
  obtain ⟨hst, hrd, hrel, hent⟩ := h.1 q hq hu
  exact ⟨hst, hrd.trans (by rw [portReg_tripped hq]), hrel.after hk, hent⟩

/-- A detector that trips and loses its lane, whatever the row. -/
theorem does_detector {i : Instr} {f : Lane → Lane} {m : Word} {P : State → Prop} (hl : l ≤ 25)
    (hx : exec i s = .next ((s.tripped l f m).laneLost l))
    (ht : Touches [.regs, .log, .logSeq, .mbx, .grp, .lane, .rat, .out] s ((s.tripped l f m).laneLost l))
    (hp : ∀ t, (t.laneOf l).signals = (f (s.laneOf l)).signals → PortFalls s t l →
      t.rd (Reg.LANE_LOCK_LOSSES l) = s.rd (Reg.LANE_LOCK_LOSSES l) + 1 → t.rd (Reg.LANE_STATUS l) = s.rd (Reg.LANE_STATUS l) ||| m →
      (∀ k, k ∉ portLanes ((lanePort l).getD 4) → k ≠ l → t.laneOf k = s.laneOf k) → P t) :
    Does i s [.regs, .log, .logSeq, .mbx, .grp, .lane, .rat, .out]
      (regIn ([Reg.LANE_LOCK_LOSSES l, Reg.LANE_STATUS l] ++ portCells l)) P := by
  have hlost := (s.tripped l f m).laneLost_kept l
  obtain ⟨hcount, hstat⟩ := s.tripped_rd (l := l) f m
  refine ⟨_, hx, ht, RegsKept.same (.trans ((s.tripped_kept f m).mono fun off h => ?_) (hlost.mono fun off h => ?_)), hp _ ?_ ?_ ?_ ?_ ?_⟩
  · exact List.mem_append_left _ h
  · exact List.mem_append_right _ h
  · rw [(State.laneLost_laneOf _ l l).1, State.tripped_laneOf, if_pos rfl]
  · exact (State.laneLost_falls _ l).of_tripped
  · rw [hlost.same _ (laneReg_not_portCells hl (.inl rfl)), hcount]
  · rw [hlost.same _ (laneReg_not_portCells hl (.inr (.inl rfl))), hstat]
  · intro k hk hne
    rw [(State.laneLost_laneOf _ l k).2 hk, State.tripped_laneOf, if_neg (Ne.symm hne)]

theorem exec_laneLosSet (hl : l ≤ 25) (h : (s.laneOf l).los = false) :
    exec (.laneLosSet l) s = .next ((s.tripped l (fun x => { x with los := true, symLock := false, errAt := [] }) 0x100).laneLost l) := by
  show execLaneLosSet l s = _
  simp [execLaneLosSet, Nat.not_lt.2 hl, h, State.tripped]

theorem exec_cdrLost (hl : l ≤ 25) (h : (s.laneOf l).lol = false) : exec (.cdrLockChange l false) s
    = .next ((s.tripped l (fun x => { x with lol := true, symLock := false, errAt := [] }) 0x200).laneLost l) := by
  show execCdrLockChange l false s = _
  simp [execCdrLockChange, Nat.not_lt.2 hl, h, State.tripped, State.loseCdr]

theorem does_laneLosSet (hl : l ≤ 25) (h : (s.laneOf l).los = false) :
    Does (.laneLosSet l) s [.regs, .log, .logSeq, .mbx, .grp, .lane, .rat, .out]
      (regIn ([Reg.LANE_LOCK_LOSSES l, Reg.LANE_STATUS l] ++ portCells l)) fun t =>
        (t.laneOf l).los = true ∧ (t.laneOf l).symLock = false ∧ (t.laneOf l).lol = (s.laneOf l).lol ∧ PortFalls s t l
          ∧ t.rd (Reg.LANE_LOCK_LOSSES l) = s.rd (Reg.LANE_LOCK_LOSSES l) + 1
          ∧ t.rd (Reg.LANE_STATUS l) = (s.rd (Reg.LANE_STATUS l) ||| 0x100)
          ∧ (∀ k, k ∉ portLanes ((lanePort l).getD 4) → k ≠ l → t.laneOf k = s.laneOf k) := by
  have hx := exec_laneLosSet hl h
  refine does_detector hl hx ((execLaneLosSet_touches l s).row hx) fun t hs hf hc hst ho => ?_
  simp only [Lane.signals, Prod.mk.injEq] at hs
  exact ⟨hs.1, hs.2.2.1, hs.2.1, hf, hc, hst, ho⟩

theorem does_cdrLost (hl : l ≤ 25) (h : (s.laneOf l).lol = false) :
    Does (.cdrLockChange l false) s [.regs, .log, .logSeq, .mbx, .grp, .lane, .rat, .out]
      (regIn ([Reg.LANE_LOCK_LOSSES l, Reg.LANE_STATUS l] ++ portCells l)) fun t =>
        (t.laneOf l).lol = true ∧ (t.laneOf l).symLock = false ∧ PortFalls s t l
          ∧ t.rd (Reg.LANE_LOCK_LOSSES l) = s.rd (Reg.LANE_LOCK_LOSSES l) + 1
          ∧ t.rd (Reg.LANE_STATUS l) = (s.rd (Reg.LANE_STATUS l) ||| 0x200) := by
  have hx := exec_cdrLost hl h
  refine does_detector hl hx ((execCdrLockChange_touches l false s).row hx) fun t hs hf hc hst _ => ?_
  simp only [Lane.signals, Prod.mk.injEq] at hs
  exact ⟨hs.2.1, hs.2.2.1, hf, hc, hst⟩

theorem does_laneLosClear (hl : l ≤ 25) : Does (.laneLosClear l) s [.lane] noReg fun t =>
    t.laneOf l = { s.laneOf l with los := false } ∧ t.lane.ports = s.lane.ports ∧ ∀ k, k ≠ l → t.laneOf k = s.laneOf k := by
  have hx : exec (.laneLosClear l) s = .next (s.updLane l fun x => { x with los := false }) :=
    congrArg Host.Outcome.next (if_neg (Nat.not_lt.2 hl))
  refine does_of_touches hx (State.updLane_touches ..) (by decide) ⟨?_, rfl, fun k hk => ?_⟩
  · rw [State.laneOf_updLane, if_pos rfl]
  · rw [State.laneOf_updLane, if_neg (Ne.symm hk)]

theorem does_cdrLocked (hl : l ≤ 25) : Does (.cdrLockChange l true) s [.lane] noReg fun t =>
    (t.laneOf l).lol = false ∧ (t.laneOf l).fomValid = true ∧ (t.laneOf l).fom = (s.laneOf l).fom ∧ t.lane.ports = s.lane.ports := by
  have hx : exec (.cdrLockChange l true) s = .next (s.updLane l fun x => { x with lol := false }.noteFom x.fom) := by
    show execCdrLockChange l true s = _
    simp [execCdrLockChange, Nat.not_lt.2 hl]
  refine does_of_touches hx (State.updLane_touches ..) (by decide) ?_
  rw [State.laneOf_updLane, if_pos rfl]
  exact ⟨rfl, rfl, rfl, rfl⟩

end detectors

/-! ## Symbol lock and code errors (R270) -/

section symbols
variable {s : State} {l q n : Nat} {inv : Bool}

/-- The lane with symbol lock, before its port may train. -/
def State.symLocked (s : State) (l : Nat) (inv : Bool) : State :=
  s.updLane l fun x => { x with symLock := true, polInv := inv, errAt := [] }

theorem exec_symbolLock (hl : lanePort l = some q) (he : (s.laneOf l).enabled = true) (hm : (s.laneOf l).testMode = false)
    (ho : (s.laneOf l).los = false) (hc : (s.laneOf l).lol = false) : exec (.symbolLock l inv) s
      = .next (if 2 ≤ q ∧ (s.portOf q).st = .down then
          ((s.symLocked l inv).retrainLanes q).updPort q fun p => { p with st := .training } else s.symLocked l inv) := by
  have hp : (s.symLocked l inv).portOf q = s.portOf q := rfl
  show execSymbolLock l inv s = _
  simp only [execSymbolLock, hl, he, hm, ho, hc, Bool.not_true, Bool.or_self, Bool.false_eq_true, if_false, beq_iff_eq]
  rfl

theorem does_symbolLock (hl : lanePort l = some q) (he : (s.laneOf l).enabled = true) (hm : (s.laneOf l).testMode = false)
    (ho : (s.laneOf l).los = false) (hc : (s.laneOf l).lol = false) : Does (.symbolLock l inv) s [.lane] noReg fun t =>
      (t.laneOf l).symLock = true ∧ (t.laneOf l).polInv = inv ∧ (t.laneOf l).errAt = []
        ∧ (t.portOf q).st = (if 2 ≤ q ∧ (s.portOf q).st = .down then .training else (s.portOf q).st) := by
  have hx := exec_symbolLock (inv := inv) hl he hm ho hc
  refine does_of_touches hx ((execSymbolLock_touches l inv s).row hx) (by decide) ?_
  have hs : ((s.symLocked l inv).laneOf l).signals = ((s.laneOf l).los, (s.laneOf l).lol, true, inv, []) := by
    rw [State.symLocked, State.laneOf_updLane, if_pos rfl]
    rfl
  split
  · have hr := (s.symLocked l inv).retrainLanes_signals q l
    rw [hs] at hr
    simp only [Lane.signals, Prod.mk.injEq] at hr
    obtain ⟨-, -, hsym, hpol, herr⟩ := hr
    exact ⟨hsym, hpol, herr, by simp [State.updPort_st]⟩
  · simp only [Lane.signals, Prod.mk.injEq] at hs
    obtain ⟨-, -, hsym, hpol, herr⟩ := hs
    exact ⟨hsym, hpol, herr, rfl⟩

/-- A code error is counted. -/
def State.codeErred (s : State) (l : Nat) : State :=
  ((s.bump (Reg.LANE_CODE_ERRORS l)).sticky (Reg.LANE_STATUS l) 0x800).pmuEvent 8 3

theorem State.codeErred_rd (s : State) (hl : l ≤ 25) :
    (s.codeErred l).rd (Reg.LANE_CODE_ERRORS l) = s.rd (Reg.LANE_CODE_ERRORS l) + 1
      ∧ (s.codeErred l).rd (Reg.LANE_STATUS l) = s.rd (Reg.LANE_STATUS l) ||| 0x800 := by
  have hne : Reg.LANE_STATUS l ≠ Reg.LANE_CODE_ERRORS l := by simp [Reg.LANE_STATUS, Reg.LANE_CODE_ERRORS]
  rw [State.codeErred, State.pmuEvent_rd_ne _ _ _ (by unfold Reg.LANE_CODE_ERRORS; omega),
    State.pmuEvent_rd_ne _ _ _ (by unfold Reg.LANE_STATUS; omega), State.sticky_rd_ne _ hne, State.sticky_rd_self, State.bump_rd_self,
    State.bump_rd_ne _ hne.symm]
  exact ⟨rfl, rfl⟩

theorem State.codeErred_touches (s : State) : Touches [.regs, .pmu] s (s.codeErred l) :=
  (((State.bump_touches ..).trans (State.sticky_touches ..)).mono (by decide)).trans (State.pmuEvent_touches ..)

theorem State.codeErred_kept (s : State) : RegsKept (regOrPmu [Reg.LANE_CODE_ERRORS l, Reg.LANE_STATUS l]) s (s.codeErred l) :=
  (RegsKept.bump (by simp [regOrPmu])).trans ((RegsKept.sticky (by simp [regOrPmu]) _).trans
    ⟨fun off ho => State.pmuEvent_rd_ne _ _ _ fun hp => ho (.inr hp)⟩)

/-- The errors of a lane that the one at symbol `n` finds within 64 symbols. -/
def Lane.nearErrors (x : Lane) (n : Nat) : List Nat := x.errAt.filter fun e => decide (n < e + 64)

/-- The lane without symbol lock, its errors forgotten. -/
def State.symLost (s : State) (l : Nat) : State := s.updLane l fun x => { x with symLock := false, errAt := [] }

theorem exec_codeError (hl : lanePort l = some q) : exec (.codeError l n) s
    = .next (if 3 ≤ ((s.laneOf l).nearErrors n).length then
        if (s.laneOf l).symLock then ((s.codeErred l).symLost l).laneLost l else (s.codeErred l).symLost l
      else (s.codeErred l).updLane l fun x => { x with errAt := (s.laneOf l).nearErrors n ++ [n] }) := by
  have hk : (s.codeErred l).laneOf l = s.laneOf l := State.laneOf_congr (congrArg LaneState.lanes (s.codeErred_touches.same .lane (by decide))) l
  have hlen : 4 ≤ ((s.laneOf l).nearErrors n ++ [n]).length ↔ 3 ≤ ((s.laneOf l).nearErrors n).length := by simp
  show execCodeError l n s = _
  simp only [execCodeError, hl, Option.isNone_some, Bool.false_eq_true, if_false]
  refine congrArg Host.Outcome.next (if_congr hlen ?_ rfl)
  rw [← hk]
  rfl

/-- What four code errors within 64 symbols make of the port. -/
theorem State.symLost_falls (hl : lanePort l = some q) :
    PortFalls s (((s.codeErred l).symLost l).laneLost l) l ∧ LinksKept s ((s.codeErred l).symLost l) := by
  have hq := lanePort_lt hl
  have hl' := lanePort_le hl
  have ht : Touches [.regs, .pmu, .lane] s ((s.codeErred l).symLost l) :=
    (s.codeErred_touches.mono (by decide)).then (State.updLane_touches ..) (by decide)
  have hk : LinksKept s ((s.codeErred l).symLost l) := .of_touches ht
  have hp : ((s.codeErred l).symLost l).lane.ports = s.lane.ports := by
    show (s.codeErred l).lane.ports = _
    rw [s.codeErred_touches.same .lane (by decide)]
  have hup : ∀ k, ((s.codeErred l).symLost l).portUp k = s.portUp k := fun k => congrArg (·.st == .up) (State.portOf_congr hp k)
  have hf := ((s.codeErred l).symLost l).laneLost_falls l
  refine ⟨⟨fun k hlk hu => ?_, fun hd => hk.trans (hf.2 fun k hlk => (hup k).trans (hd k hlk))⟩, hk⟩
  obtain ⟨hst, hrd, hrel, hent⟩ := hf.1 k hlk ((hup k).trans hu)
  obtain rfl : q = k := by simpa [hl] using hlk
  refine ⟨hst, hrd.trans (congrArg (· + 1) ?_), hrel.after hk, hent⟩
  refine (s.codeErred_kept (l := l)).same _ ?_
  simp only [regOrPmu, List.mem_cons, List.not_mem_nil, or_false, Reg.LINK_RETRAINS, Reg.LANE_CODE_ERRORS, Reg.LANE_STATUS]
  omega

theorem does_codeError (hl : lanePort l = some q) :
    Does (.codeError l n) s [.regs, .log, .logSeq, .mbx, .pmu, .grp, .lane, .rat, .out]
      (regOrPmu (Reg.LANE_CODE_ERRORS l :: ([Reg.LANE_LOCK_LOSSES l, Reg.LANE_STATUS l] ++ portCells l))) fun t =>
        t.rd (Reg.LANE_CODE_ERRORS l) = s.rd (Reg.LANE_CODE_ERRORS l) + 1 ∧ wbit (t.rd (Reg.LANE_STATUS l)) 11 = true
          ∧ (((s.laneOf l).nearErrors n).length < 3 → (t.laneOf l).symLock = (s.laneOf l).symLock
              ∧ (t.laneOf l).errAt = (s.laneOf l).nearErrors n ++ [n] ∧ t.lane.ports = s.lane.ports ∧ LinksKept s t)
          ∧ (3 ≤ ((s.laneOf l).nearErrors n).length → (t.laneOf l).symLock = false ∧ (t.laneOf l).errAt = []
              ∧ ((s.laneOf l).symLock = true → s.portUp q = true → (t.portOf q).st = .failed ∧ LinkRestarted s t q)
              ∧ ((s.laneOf l).symLock = false ∨ s.portUp q = false → LinksKept s t)) := by
  have hx := exec_codeError (s := s) (n := n) hl
  have hle := lanePort_le hl
  have hbit : ∀ w : Word, wbit (w ||| 0x800) 11 = true := wbit_or_mask (by decide)
  obtain ⟨hcount, hstat⟩ := s.codeErred_rd hle
  have hkept := (s.codeErred_kept (l := l)).mono
    (r := regOrPmu (Reg.LANE_CODE_ERRORS l :: ([Reg.LANE_LOCK_LOSSES l, Reg.LANE_STATUS l] ++ portCells l))) fun off => Or.imp_left fun h => by
      rcases List.mem_pair.1 h with rfl | rfl <;> simp
  have hlanes : ∀ k, (s.codeErred l).laneOf k = s.laneOf k :=
    State.laneOf_congr (congrArg LaneState.lanes (s.codeErred_touches.same .lane (by decide)))
  have hports : (s.codeErred l).lane.ports = s.lane.ports := congrArg LaneState.ports (s.codeErred_touches.same .lane (by decide))
  have hlinks : LinksKept s (s.codeErred l) := .of_touches s.codeErred_touches
  have ht := (execCodeError_touches l n s).row hx
  by_cases hn : 3 ≤ ((s.laneOf l).nearErrors n).length
  · rw [if_pos hn] at hx ht
    obtain ⟨hfalls, hlost⟩ := s.symLost_falls hl
    have hsig : (((s.codeErred l).symLost l).laneOf l).symLock = false ∧ (((s.codeErred l).symLost l).laneOf l).errAt = [] := by
      rw [State.symLost, State.laneOf_updLane, if_pos rfl]
      exact ⟨rfl, rfl⟩
    by_cases hs : (s.laneOf l).symLock = true
    · rw [if_pos hs] at hx ht
      have hrest := ((s.codeErred l).symLost l).laneLost_kept l
      have hsame := (((s.codeErred l).symLost l).laneLost_laneOf l l).1
      simp only [Lane.signals, Prod.mk.injEq] at hsame
      obtain ⟨-, -, hsym, -, herr⟩ := hsame
      refine ⟨_, hx, ht, (hkept.trans (.trans (.of_touches (State.updLane_touches ..)) (hrest.mono fun off h => ?_))).same,
        ?_, ?_, fun h => absurd hn (by omega), fun _ => ⟨hsym.trans hsig.1, herr.trans hsig.2, fun _ hu => ?_, fun hno => ?_⟩⟩
      · exact .inl (List.mem_cons_of_mem _ (List.mem_append_right _ h))
      · rw [hrest.same _ (laneReg_not_portCells hle (.inr (.inr rfl)))]
        exact hcount
      · rw [hrest.same _ (laneReg_not_portCells hle (.inr (.inl rfl)))]
        exact (congrArg (wbit · 11) hstat).trans (hbit _)
      · obtain ⟨hst, -, hrel, -⟩ := hfalls.1 q hl hu
        exact ⟨hst, hrel⟩
      · refine hfalls.2 fun k hk => ?_
        obtain rfl : q = k := by simpa [hl] using hk
        exact hno.resolve_left (by simp [hs])
    · rw [if_neg hs] at hx ht
      exact ⟨_, hx, ht, (hkept.trans (.of_touches (State.updLane_touches ..))).same, hcount, (congrArg (wbit · 11) hstat).trans (hbit _),
        fun h => absurd hn (by omega), fun _ => ⟨hsig.1, hsig.2, fun h => absurd h hs, fun _ => hlost⟩⟩
  · rw [if_neg hn] at hx ht
    refine ⟨_, hx, ht, (hkept.trans (.of_touches (State.updLane_touches ..))).same, hcount, (congrArg (wbit · 11) hstat).trans (hbit _),
      fun _ => ?_, fun h => absurd h hn⟩
    rw [State.laneOf_updLane, if_pos rfl, hlanes]
    exact ⟨rfl, rfl, hports, hlinks.trans ⟨rfl, rfl⟩⟩

theorem does_laneFomLow {fom : Nat} (hl : lanePort l = some q) (hu : s.portUp q = true) (hf : fom < 32) :
    Does (.laneFomLow l fom) s [.regs, .lane] (regIn [Reg.LANE_FOM_LOW l, Reg.LANE_STATUS l]) fun t =>
      t.rd (Reg.LANE_FOM_LOW l) = s.rd (Reg.LANE_FOM_LOW l) + 1 ∧ t.rd (Reg.LANE_STATUS l) = (s.rd (Reg.LANE_STATUS l) ||| 0x400)
        ∧ (t.laneOf l).fom = fom ∧ t.lane.ports = s.lane.ports := by
  have hne : Reg.LANE_STATUS l ≠ Reg.LANE_FOM_LOW l := by simp [Reg.LANE_STATUS, Reg.LANE_FOM_LOW]
  have hx : exec (.laneFomLow l fom) s
      = .next (((s.updLane l (·.noteFom fom)).bump (Reg.LANE_FOM_LOW l)).sticky (Reg.LANE_STATUS l) 0x400) := by
    show execLaneFomLow l fom s = _
    simp [execLaneFomLow, hl, hu, hf]
  refine ⟨_, hx, (execLaneFomLow_touches l fom s).row hx, RegsKept.same (.trans (.of_touches (State.updLane_touches ..))
    ((RegsKept.bump (by simp [regIn])).trans (.sticky (by simp [regIn]) _))), ?_, ?_, ?_, rfl⟩
  · rw [State.sticky_rd_ne _ hne, State.bump_rd_self]
    rfl
  · rw [State.sticky_rd_self, State.bump_rd_ne _ hne.symm]
    rfl
  · exact congrArg Lane.fom ((State.laneOf_updLane (s := s) l l (·.noteFom fom)).trans (if_pos rfl))

end symbols

/-! ## Elastic slips (R266) and the end of FAILED (R272, R275) -/

section ports
variable {s : State} {q : Nat}

theorem State.portOf_updPort (s : State) (q k : Nat) (f : Port → Port) :
    (s.updPort q f).portOf k = if q = k then f (s.portOf k) else s.portOf k := by
  simp only [State.portOf, State.updPort, tgetD, tget_tset]
  split
  · next h => rw [h]; rfl
  · rfl

/-- A slip of the elastic buffer is counted. -/
def State.slipCounted (s : State) (q : Nat) : State := (s.bump (Reg.LINK_ELASTIC_SLIPS q)).sticky (Reg.LINK_STATUS q) 0x40000

/-- The slips of a port within 1 ms before now. -/
def State.nearSlips (s : State) (q : Nat) : List Nat := (s.portOf q).slips.filter fun e => decide (s.time.up < e + 1000000)

/-- The port as its fourth slip within 1 ms finds it. -/
def State.slipsOver (s : State) (q : Nat) : State :=
  ((s.slipCounted q).updPort q fun p => { p with slips := [] }).sticky (Reg.LINK_STATUS q) 0x20000

theorem exec_elasticSlip (hq : q ≤ 3) : exec (.elasticSlip q) s
    = .next (if 3 ≤ (s.nearSlips q).length then (s.slipsOver q).failPort q 2
        else (s.slipCounted q).updPort q fun p => { p with slips := s.nearSlips q ++ [s.time.up] }) := by
  have hlen : 4 ≤ (s.nearSlips q ++ [s.time.up]).length ↔ 3 ≤ (s.nearSlips q).length := by simp
  show execElasticSlip q s = _
  simp only [execElasticSlip, Nat.not_lt.2 hq, if_false]
  exact congrArg Host.Outcome.next (if_congr hlen rfl rfl)

theorem State.slipCounted_rd (s : State) (q : Nat) :
    (s.slipCounted q).rd (Reg.LINK_ELASTIC_SLIPS q) = s.rd (Reg.LINK_ELASTIC_SLIPS q) + 1
      ∧ (s.slipCounted q).rd (Reg.LINK_STATUS q) = s.rd (Reg.LINK_STATUS q) ||| 0x40000 := by
  have hne : Reg.LINK_STATUS q ≠ Reg.LINK_ELASTIC_SLIPS q := by simp [Reg.LINK_STATUS, Reg.LINK_ELASTIC_SLIPS]
  rw [State.slipCounted, State.sticky_rd_ne _ hne, State.sticky_rd_self, State.bump_rd_self, State.bump_rd_ne _ hne.symm]
  exact ⟨rfl, rfl⟩

/-- The cells that a slip may move. -/
def slipCells (q : Nat) : List Nat :=
  [Reg.LINK_ELASTIC_SLIPS q, Reg.LINK_STATUS q, Reg.LINK_RETRAINS q, Reg.GRP_LINK_FAILS, Reg.GRP_STATUS, Reg.DEV_STATUS]

theorem State.slipCounted_kept (s : State) (q : Nat) : RegsKept (regIn (slipCells q)) s (s.slipCounted q) :=
  (RegsKept.bump (by simp [regIn, slipCells])).trans (.sticky (by simp [regIn, slipCells]) _)

theorem State.slipsOver_kept (s : State) (q : Nat) : RegsKept (regIn (slipCells q)) s (s.slipsOver q) :=
  (s.slipCounted_kept q).trans ((RegsKept.of_touches (State.updPort_touches ..)).trans (.sticky (by simp [regIn, slipCells]) _))

/-- After four slips within 1 ms the status shows both, whether the port fails now or has failed before. -/
theorem State.slipsOver_failed_rd (s : State) (hq : q ≤ 3) :
    ((s.slipsOver q).failPort q 2).rd (Reg.LINK_ELASTIC_SLIPS q) = s.rd (Reg.LINK_ELASTIC_SLIPS q) + 1
      ∧ wbit (((s.slipsOver q).failPort q 2).rd (Reg.LINK_STATUS q)) 18 = true
      ∧ wbit (((s.slipsOver q).failPort q 2).rd (Reg.LINK_STATUS q)) 17 = true := by
  have hne : Reg.LINK_STATUS q ≠ Reg.LINK_ELASTIC_SLIPS q := by simp [Reg.LINK_STATUS, Reg.LINK_ELASTIC_SLIPS]
  obtain ⟨hcount, hstat⟩ := s.slipCounted_rd q
  have hover : (s.slipsOver q).rd (Reg.LINK_STATUS q) = s.rd (Reg.LINK_STATUS q) ||| 0x40000 ||| 0x20000 := by
    rw [State.slipsOver, State.sticky_rd_self]
    exact congrArg (· ||| 0x20000) hstat
  refine ⟨?_, ?_⟩
  · rw [((s.slipsOver q).failPort_kept q 2).same _ ?_, State.slipsOver, State.sticky_rd_ne _ hne]
    · exact hcount
    · simp only [regIn, failCells, List.mem_cons, List.not_mem_nil, or_false, Reg.LINK_ELASTIC_SLIPS, Reg.LINK_RETRAINS, Reg.LINK_STATUS,
        Reg.GRP_LINK_FAILS, Reg.GRP_STATUS, Reg.DEV_STATUS]
      omega
  · by_cases hf : ((s.slipsOver q).portOf q).st = .failed
    · rw [State.failPort_again hf, hover]
      exact ⟨wbit_or_left (wbit_or_mask (by decide) _) _, wbit_or_mask (by decide) _⟩
    · rw [State.failPort_rd_status hf, hover]
      exact ⟨wbit_or_left (wbit_or_left (wbit_or_mask (by decide) _) _) _, wbit_or_left (wbit_or_mask (by decide) _) _⟩

theorem does_elasticSlip (hq : q ≤ 3) : Does (.elasticSlip q) s [.regs, .log, .logSeq, .mbx, .grp, .lane, .rat, .out]
    (regIn (slipCells q)) fun t =>
      t.rd (Reg.LINK_ELASTIC_SLIPS q) = s.rd (Reg.LINK_ELASTIC_SLIPS q) + 1 ∧ wbit (t.rd (Reg.LINK_STATUS q)) 18 = true
        ∧ ((s.nearSlips q).length < 3 → t.portOf q = { s.portOf q with slips := s.nearSlips q ++ [s.time.up] }
            ∧ t.lane.lanes = s.lane.lanes ∧ LinksKept s t)
        ∧ (3 ≤ (s.nearSlips q).length → (t.portOf q).st = .failed ∧ wbit (t.rd (Reg.LINK_STATUS q)) 17 = true
            ∧ ((s.portOf q).st = .failed → LinksKept s t) ∧ ((s.portOf q).st ≠ .failed → LinkRestarted s t q)) := by
  have hx := exec_elasticSlip (s := s) hq
  have ht := (execElasticSlip_touches q s).row hx
  obtain ⟨hcount, hstat⟩ := s.slipCounted_rd q
  by_cases hn : 3 ≤ (s.nearSlips q).length
  · rw [if_pos hn] at hx ht
    obtain ⟨hc, h18, h17⟩ := s.slipsOver_failed_rd hq
    have hst : ((s.slipsOver q).portOf q).st = (s.portOf q).st := by
      show (((s.slipCounted q).updPort q fun p => { p with slips := [] }).portOf q).st = _
      rw [State.updPort_st, if_pos rfl]
      rfl
    refine ⟨_, hx, ht, ((s.slipsOver_kept q).trans (((s.slipsOver q).failPort_kept q 2).mono fun off h => ?_)).same, hc, h18,
      fun h => absurd hn (by omega), fun _ => ⟨by simp [State.failPort_st], h17, fun hf => ?_, fun hf => ?_⟩⟩
    · simp only [regIn, failCells, slipCells, List.mem_cons, List.not_mem_nil, or_false] at h ⊢
      tauto
    · rw [State.failPort_again (hst.trans hf)]
      exact ⟨rfl, rfl⟩
    · exact .after ⟨rfl, rfl⟩ (State.failPort_restarted (fun e => hf (hst.symm.trans e)) 2)
  · rw [if_neg hn] at hx ht
    refine ⟨_, hx, ht, ((s.slipCounted_kept q).trans (.of_touches (State.updPort_touches ..))).same, hcount,
      (congrArg (wbit · 18) hstat).trans (wbit_or_mask (by decide) _), fun _ => ⟨?_, rfl, rfl, rfl⟩, fun h => absurd h hn⟩
    rw [State.portOf_updPort, if_pos rfl]
    rfl

theorem does_failedHoldExpiry (hq : q ≤ 3) (hf : (s.portOf q).st = .failed) (hr : s.dev.linkRefLost = false) :
    Does (.failedHoldExpiry q) s [.lane] noReg fun t =>
      t.portOf q = { s.portOf q with st := if s.portDark q then .down else .training } ∧ t.lane.lanes = s.lane.lanes := by
  have hx : exec (.failedHoldExpiry q) s = .next (s.updPort q fun p => { p with st := if s.portDark q then .down else .training }) := by
    show execFailedHoldExpiry q s = _
    simp [execFailedHoldExpiry, Nat.not_lt.2 hq, hf, hr]
  refine does_of_touches hx (State.updPort_touches ..) (by decide) ⟨?_, rfl⟩
  rw [State.portOf_updPort, if_pos rfl]

end ports

/-- Settles O31: each detector by what it makes of its lane, then by whether the port of the lane falls. -/
theorem laneDetectors : Obligations.LaneDetectors := by
  unfold Obligations.LaneDetectors
  intro cells restarted kept falls
  have hcells : ∀ l, cells l = [Reg.LANE_LOCK_LOSSES l, Reg.LANE_STATUS l] ++ portCells l := fun l => by
    cases h : lanePort l <;> simp [cells, portCells, h, failCells]
  simp only [hcells]
  refine ⟨fun s l hl => ⟨fun h => ?_, does_laneLosSet hl, does_laneLosClear hl, does_cdrLocked hl, fun h => ?_, does_cdrLost hl⟩,
    fun s l q inv hl he hm ho hc => does_symbolLock hl he hm ho hc, fun s l q n hl => does_codeError hl,
    fun s l q fom hl hu hf => does_laneFomLow hl hu hf, fun s q hq => does_elasticSlip hq,
    fun s q hq hf => ⟨fun hr => ?_, does_failedHoldExpiry hq hf⟩⟩
  · show execLaneLosSet l s = _
    simp [execLaneLosSet, h]
  · show execCdrLockChange l false s = _
    simp [execCdrLockChange, h]
  · show execFailedHoldExpiry q s = _
    simp [execFailedHoldExpiry, hr]

end Sys2Proof.Machine
end

section
/-!
PROOFS. Bring-up and training of the stay and ratline ports (R269 to R273).
-/
namespace Sys2Proof.Machine
open Sys2Proof

/-- A field that turns out to be the same leaves the frame. -/
theorem Touches.without {l m : List Fld} {s t : State} (a : Touches m s t) (h : ∀ f ∈ m, f ∈ l ∨ f.same s t) : Touches l s t :=
  .of fun f => by
    by_cases hm : f ∈ m
    · exact h f hm
    · exact .inr (a.same f hm)

/-! ## Changes of several lanes -/

theorem foldl_updLane_mem {f : Lane → Lane} (hf : ∀ x, f (f x) = f x) (l : List Nat) (s : State) (k : Nat) :
    (l.foldl (fun (t : State) j => t.updLane j f) s).laneOf k = if k ∈ l then f (s.laneOf k) else s.laneOf k := by
  induction l generalizing s with
  | nil => rfl
  | cons j l ih =>
    rw [List.foldl_cons, ih, State.laneOf_updLane]
    by_cases hj : j = k
    · subst hj
      by_cases hk : j ∈ l <;> simp [hk, hf]
    · simp [hj, Ne.symm hj]

theorem State.retrainLanes_mem {s : State} {q l : Nat} (h : l ∈ portLanes q) : (s.retrainLanes q).laneOf l = (s.laneOf l).retrain :=
  (foldl_updLane_mem (f := Lane.retrain) (fun _ => rfl) _ s l).trans (if_pos h)

/-- The lanes numbered as an ALN reports. -/
def State.numberLanes (s : State) (ls nums : List Nat) : State :=
  (ls.zip nums).foldl (fun (t : State) e => t.updLane e.1 fun x => { x with number := some e.2 }) s

theorem State.numberLanes_touches (s : State) (ls nums : List Nat) : Touches [.lane] s (s.numberLanes ls nums) :=
  .foldl (fun _ _ => State.updLane_touches ..) _ s

theorem State.numberLanes_ports (s : State) (ls nums : List Nat) : (s.numberLanes ls nums).lane.ports = s.lane.ports := by
  refine foldl_keep (fun t : State => t.lane.ports) (fun _ _ => ?_) _ s
  rfl

theorem State.numberLanes_notMem {ls : List Nat} {k : Nat} (h : k ∉ ls) (nums : List Nat) (s : State) :
    (s.numberLanes ls nums).laneOf k = s.laneOf k := by
  refine List.foldlRecOn (motive := fun t : State => t.laneOf k = s.laneOf k) _ _ rfl fun t ht e he => ?_
  rw [State.laneOf_updLane, if_neg, ht]
  rintro rfl
  exact h (List.of_mem_zip he).1

theorem State.numberLanes_laneOf {ls : List Nat} (hn : ls.Nodup) (nums : List Nat) (s : State) (i : Nat) (hi : i < ls.length)
    (hj : i < nums.length) : ((s.numberLanes ls nums).laneOf ls[i]).number = some nums[i] := by
  induction ls generalizing nums s i with
  | nil => exact absurd hi (Nat.not_lt_zero _)
  | cons l ls ih =>
    obtain ⟨hl, hn⟩ := List.nodup_cons.1 hn
    cases nums with
    | nil => exact absurd hj (Nat.not_lt_zero _)
    | cons n nums =>
      cases i with
      | zero =>
        show ((State.numberLanes (s.updLane l fun x => { x with number := some n }) ls nums).laneOf l).number = some n
        rw [State.numberLanes_notMem hl, State.laneOf_updLane, if_pos rfl]
      | succ i => exact ih hn nums _ i (Nat.lt_of_succ_lt_succ hi) (Nat.lt_of_succ_lt_succ hj)

theorem State.retrainLanes_number (s : State) (q k : Nat) : ((s.retrainLanes q).laneOf k).number = (s.laneOf k).number := by
  by_cases hk : k ∈ portLanes q
  · rw [State.retrainLanes_mem hk]
    rfl
  · rw [State.retrainLanes_other hk]

/-! ## A port is UP (R269) -/

section settleUp
variable {s : State} {q : Nat}

/-- Training has ended on every lane of a port, and ready has come sixteen times in a row. -/
def State.trainedUp (s : State) (q : Nat) : Bool := (s.portOf q).st == .training && (decide (2 ≤ q) || (s.portOf q).deskewed) &&
  (portLanes q).all fun l => (s.laneOf l).trained && decide (16 ≤ (s.laneOf l).readyRun)

theorem State.settleUp_waits (h : s.trainedUp q = false) : s.settleUp q = s := by
  unfold State.settleUp
  exact if_neg (by simpa [State.trainedUp] using h)

theorem State.settleUp_up (h : s.trainedUp q = true) : ((s.settleUp q).portOf q).st = .up := by
  have hup : ((s.updPort q fun p => { p with st := .up }).portOf q).st = .up := by simp [State.updPort_st]
  unfold State.settleUp
  rw [if_pos (by simpa [State.trainedUp] using h)]
  dsimp only
  split
  · rw [State.portOf_congr (congrArg LaneState.ports (Eq.trans ((State.settleJoin_touches _).same .lane (by decide))
      ((State.sendHello_touches _ q).same .lane (by decide))))]
    exact hup
  · exact hup

end settleUp

/-! ## Training failures (R270, R271) -/

section trainFail
variable {s : State} {q : Nat}

/-- A training failure is counted. -/
def State.trainFailed (s : State) (q : Nat) : State := (s.bump (Reg.LINK_TRAIN_FAILS q)).sticky (Reg.LINK_STATUS q) 0x10000

theorem State.trainFailed_kept (s : State) (q : Nat) :
    RegsKept (regIn [Reg.LINK_TRAIN_FAILS q, Reg.LINK_STATUS q]) s (s.trainFailed q) :=
  (RegsKept.bump (by simp [regIn])).trans (.sticky (by simp [regIn]) _)

/-- What a training failure leaves of a port that was not FAILED. -/
structure TrainFails (q : Nat) (s t : State) : Prop where
  regs : RegsKept (regIn [Reg.LINK_TRAIN_FAILS q, Reg.LINK_STATUS q, Reg.LINK_RETRAINS q, Reg.GRP_LINK_FAILS, Reg.GRP_STATUS,
    Reg.DEV_STATUS]) s t
  count : t.rd (Reg.LINK_TRAIN_FAILS q) = s.rd (Reg.LINK_TRAIN_FAILS q) + 1
  failed : (t.portOf q).st = .failed
  restarted : LinkRestarted s t q
  status : wbit (t.rd (Reg.LINK_STATUS q)) 16 = true
  entered : q < 2 → Entered 0x0052 q 2 t

theorem State.trainFail_fails (hq : q ≤ 3) (h : (s.portOf q).st ≠ .failed) : TrainFails q s (s.trainFail q) := by
  have hne : Reg.LINK_STATUS q ≠ Reg.LINK_TRAIN_FAILS q := by simp [Reg.LINK_STATUS, Reg.LINK_TRAIN_FAILS]
  have hf : ((s.trainFailed q).portOf q).st ≠ .failed := h
  have hkept := (s.trainFailed q).failPort_kept q 2
  refine ⟨((s.trainFailed_kept q).mono fun off ho => ?_).trans (hkept.mono fun off ho => ?_), ?_, ?_,
    .after ⟨rfl, rfl⟩ (State.failPort_restarted hf 2), ?_, fun h2 => State.failPort_entered hf h2 2⟩
  · rcases List.mem_pair.1 ho with rfl | rfl <;> simp [regIn]
  · simp only [regIn, failCells, List.mem_cons, List.not_mem_nil, or_false] at ho ⊢
    tauto
  · show ((s.trainFailed q).failPort q 2).rd _ = _
    rw [hkept.same, State.trainFailed, State.sticky_rd_ne _ hne, State.bump_rd_self]
    simp only [regIn, failCells, List.mem_cons, List.not_mem_nil, or_false, Reg.LINK_TRAIN_FAILS, Reg.LINK_RETRAINS, Reg.LINK_STATUS,
      Reg.GRP_LINK_FAILS, Reg.GRP_STATUS, Reg.DEV_STATUS]
    omega
  · exact (State.failPort_st ..).trans (if_pos rfl)
  · show wbit (((s.trainFailed q).failPort q 2).rd _) 16 = true
    rw [State.failPort_rd_status hf, State.trainFailed, State.sticky_rd_self]
    exact wbit_or_left (wbit_or_mask (by decide) _) _

end trainFail

/-! ## ALN (R270) -/

section aln
variable {s : State} {q k : Nat} {nums : List Nat}

/-- The port deskewed on an ALN, its lanes numbered. -/
def State.aligned (s : State) (q k : Nat) (nums : List Nat) : State :=
  let t := s.numberLanes (portLanes q) nums
  (if (s.portOf q).st == .down then t.retrainLanes q else t).updPort q fun p =>
    { p with deskewed := true, skewMax := k, st := if p.st == .down then .training else p.st }

theorem exec_aln (hq : q ≤ 1) (hd : (s.portOf q).deskewed = false) (hf : (s.portOf q).st ≠ .failed)
    (hl : ((portLanes q).all fun l => (s.laneOf l).symLock) = true) :
    exec (.aln q nums k) s = .next (if hasRepeat nums || decide (16 < k) then s.trainFail q else s.aligned q k nums) := by
  show execAln q nums k s = _
  have hst : ((s.portOf q).st == .failed) = false := by simpa using hf
  simp only [execAln, hd, hst, hl, Nat.not_lt.2 hq, decide_false, Bool.or_self, Bool.not_true, Bool.false_eq_true, if_false]
  rfl

theorem State.aligned_touches (s : State) (q k : Nat) (nums : List Nat) : Touches [.lane] s (s.aligned q k nums) := by
  unfold State.aligned
  dsimp only
  refine .trans ?_ (State.updPort_touches ..)
  split
  · exact (s.numberLanes_touches ..).trans (State.retrainLanes_touches ..)
  · exact s.numberLanes_touches ..

theorem portLanes_nodup (q : Nat) : (portLanes q).Nodup := by
  unfold portLanes
  split_ifs <;> decide

theorem portLanes_stay (hq : q ≤ 1) : (portLanes q).length = 4 := by
  rcases Nat.le_one_iff_eq_zero_or_eq_one.1 hq with rfl | rfl <;> rfl

theorem State.aligned_port (s : State) (q k : Nat) (nums : List Nat) : ((s.aligned q k nums).portOf q).deskewed = true
    ∧ ((s.aligned q k nums).portOf q).skewMax = k
    ∧ ((s.aligned q k nums).portOf q).st = (if (s.portOf q).st = .down then .training else (s.portOf q).st) := by
  have hp : ∀ b : Bool, State.portOf (if b then (s.numberLanes (portLanes q) nums).retrainLanes q
      else s.numberLanes (portLanes q) nums) q = s.portOf q := fun b => by
    refine State.portOf_congr (s := s) ?_ q
    cases b
    · exact s.numberLanes_ports ..
    · exact (State.retrainLanes_ports ..).trans (s.numberLanes_ports ..)
  simp only [State.aligned, State.portOf_updPort, if_pos, hp]
  simp

theorem State.aligned_number (hq : q ≤ 1) {i : Nat} (hi : i < 4) (hn : i < nums.length) :
    ((s.aligned q k nums).laneOf ((portLanes q).getD i 0)).number = some (nums.getD i 0) := by
  have hi' : i < (portLanes q).length := by rw [portLanes_stay hq]; exact hi
  have hnum := State.numberLanes_laneOf (portLanes_nodup q) nums s i hi' hn
  rw [List.getD_eq_getElem _ _ hi', List.getD_eq_getElem _ _ hn, ← hnum]
  unfold State.aligned
  dsimp only
  split
  · exact State.retrainLanes_number ..
  · rfl

theorem does_aln_fails (hq : q ≤ 1) (hd : (s.portOf q).deskewed = false) (hf : (s.portOf q).st ≠ .failed)
    (hl : ((portLanes q).all fun l => (s.laneOf l).symLock) = true) (hbad : hasRepeat nums = true ∨ 16 < k) :
    Does (.aln q nums k) s [.regs, .log, .logSeq, .mbx, .grp, .lane, .out]
      (regIn [Reg.LINK_TRAIN_FAILS q, Reg.LINK_STATUS q, Reg.LINK_RETRAINS q, Reg.GRP_LINK_FAILS, Reg.GRP_STATUS, Reg.DEV_STATUS]) fun t =>
        t.rd (Reg.LINK_TRAIN_FAILS q) = s.rd (Reg.LINK_TRAIN_FAILS q) + 1 ∧ (t.portOf q).st = .failed ∧ LinkRestarted s t q
          ∧ wbit (t.rd (Reg.LINK_STATUS q)) 16 = true ∧ Entered 0x0052 q 2 t := by
  have hx := exec_aln (nums := nums) (k := k) hq hd hf hl
  rw [if_pos (by simpa using hbad)] at hx
  have hq2 : q < 2 := by omega
  have h := State.trainFail_fails (by omega) hf
  exact ⟨_, hx, (s.trainFail_touches q).without (by simp [Fld.same, (h.restarted.1 hq2).1]), h.regs.same, h.count, h.failed,
    h.restarted, h.status, h.entered hq2⟩

theorem does_aln (hq : q ≤ 1) (hd : (s.portOf q).deskewed = false) (hf : (s.portOf q).st ≠ .failed)
    (hl : ((portLanes q).all fun l => (s.laneOf l).symLock) = true) (hr : hasRepeat nums = false) (hk : k ≤ 16) :
    Does (.aln q nums k) s [.lane] noReg fun t => (t.portOf q).deskewed = true ∧ (t.portOf q).skewMax = k
      ∧ (t.portOf q).st = (if (s.portOf q).st = .down then .training else (s.portOf q).st)
      ∧ (∀ i, i < 4 → i < nums.length → (t.laneOf ((portLanes q).getD i 0)).number = some (nums.getD i 0)) := by
  have hx := exec_aln (nums := nums) (k := k) hq hd hf hl
  rw [if_neg (by simp [hr, hk])] at hx
  obtain ⟨hdesk, hskew, hst⟩ := s.aligned_port q k nums
  exact does_of_touches hx (s.aligned_touches ..) (by decide) ⟨hdesk, hskew, hst, fun i hi hn => State.aligned_number hq hi hn⟩

end aln

/-! ## TRN and the adaptation of a lane (R271) -/

section training
variable {s : State} {q l fom : Nat} {x : TrnSet}

theorem does_trn_up (h : (s.portOf q).st = .up) : Does (.trn q x) s [.grp, .lane, .rat] noReg fun t =>
    (t.portOf q).st = .training ∧ LinkRestarted s t q ∧ ∀ l ∈ portLanes q, t.laneOf l = (s.laneOf l).retrain := by
  have hx : exec (.trn q x) s
      = .next (((s.retrainLanes q).updPort q fun p => { p with st := .training }).linkRestart q) := by
    show execTrn q x s = _
    simp only [execTrn, h]
  have ht : Touches [.lane] s ((s.retrainLanes q).updPort q fun p => { p with st := .training }) :=
    (s.retrainLanes_touches q).trans (State.updPort_touches ..)
  have hl := (State.linkRestart_touches ((s.retrainLanes q).updPort q fun p => { p with st := .training }) q).same .lane (by decide)
  refine does_of_touches hx ((ht.mono (by decide)).then (State.linkRestart_touches ..) (by decide)) (by decide)
    ⟨?_, .after (.of_touches ht) (State.linkRestart_restarted ..), fun l hm => ?_⟩
  · rw [State.portOf_congr (congrArg LaneState.ports hl)]
    simp [State.updPort_st]
  · rw [State.laneOf_congr (congrArg LaneState.lanes hl)]
    exact State.retrainLanes_mem hm

/-- The lane as a TRN set asks of its transmitter. -/
def Lane.asked (x : TrnSet) (y : Lane) : Lane :=
  { y with pre := cursorStep y.pre x.pre, post := cursorStep y.post x.post, readyRun := if x.ready then y.readyRun + 1 else 0 }

theorem exec_trn_training (h : (s.portOf q).st = .training) (hl : s.laneBy q x.lane = some l) :
    exec (.trn q x) s = .next ((s.updLane l (·.asked x)).settleUp q) := by
  show execTrn q x s = _
  simp only [execTrn, h, hl]
  rfl

theorem gives_trn_off (h : (s.portOf q).st = .down ∨ (s.portOf q).st = .failed) : Gives (.trn q x) s s := by
  show execTrn q x s = _
  rcases h with h | h <;> simp only [execTrn, h]

/-- The lane after one step of its adaptation. -/
def Lane.stepped (x : Lane) (fom : Nat) : Lane := { (x.adapt fom).1 with trained := (x.adapt fom).1.ffeDone && decide (96 ≤ fom) }

/-- The request codes that a step of the adaptation asks for; none is hold, hold. -/
def Lane.stepRequest (x : Lane) (fom : Nat) : Nat × Nat := (x.adapt fom).2.getD (0, 0)

theorem exec_trainingStepTimer (hl : lanePort l = some q) (hst : (s.portOf q).st = .training) (ho : (s.laneOf l).los = false)
    (hc : (s.laneOf l).lol = false) (ht : (s.laneOf l).trained = false) :
    let u := s.updLane l fun _ => (s.laneOf l).stepped fom
    let c := (s.laneOf l).stepRequest fom
    exec (.trainingStepTimer l fom) s = .next ((u.emit (.trn (u.trnSet q l c.1 c.2))).settleUp q) := by
  show execTrainingStepTimer l fom s = _
  simp only [execTrainingStepTimer, hl, hst, ho, hc, ht, bne_self_eq_false, Bool.or_self, Bool.false_eq_true, if_false, Lane.stepRequest]
  cases (s.laneOf l |>.adapt fom).2 <;> rfl

section adapt
variable (x : Lane) (fom : Nat)

theorem Lane.adapt_fom : (x.adapt fom).1.fom = fom := by
  unfold Lane.adapt
  dsimp only
  repeat' split
  all_goals rfl

theorem Lane.adapt_kept {d was : Nat} (h : x.lastStep = some (d, was)) (hf : was + 2 < fom) :
    (x.adapt fom).1.lastStep = some (d, fom) ∧ (x.adapt fom).1.misses = 0 ∧ (x.adapt fom).2 = some (stepCodes d false) := by
  have hl : (x.noteFom fom).lastStep = some (d, was) := h
  simp only [Lane.adapt, hl, if_pos hf, and_self]

theorem Lane.adapt_reversed {d was : Nat} (h : x.lastStep = some (d, was)) (hf : fom ≤ was + 2) :
    (x.adapt fom).1.lastStep = none ∧ (x.adapt fom).1.ffeDone = decide (3 ≤ x.misses) ∧ (x.adapt fom).2 = some (stepCodes d true) := by
  have hl : (x.noteFom fom).lastStep = some (d, was) := h
  simp only [Lane.adapt, hl, if_neg (Nat.not_lt.2 hf), true_and, and_true]
  rfl

theorem Lane.adapt_ended (h : x.lastStep = none) (hd : x.ffeDone = true) : (x.adapt fom).2 = none := by
  have hl : (x.noteFom fom).lastStep = none := h
  have hf : (x.noteFom fom).ffeDone = true := hd
  simp only [Lane.adapt, hl, hf, if_true]

theorem Lane.adapt_asks (h : x.lastStep = none) (hd : x.ffeDone = false) : (x.adapt fom).2 = some (stepCodes x.tryDir false) := by
  have hl : (x.noteFom fom).lastStep = none := h
  have hf : (x.noteFom fom).ffeDone = false := hd
  simp only [Lane.adapt, hl, hf, Bool.false_eq_true, if_false]
  rfl

end adapt

theorem cursorStep_spec (v : Int) (r : Nat) (hlo : -32 ≤ v) (hhi : v ≤ 31) : -32 ≤ cursorStep v r ∧ cursorStep v r ≤ 31
    ∧ (r = 1 → v < 31 → cursorStep v r = v + 1) ∧ (r = 2 → -32 < v → cursorStep v r = v - 1) ∧ (r = 0 → cursorStep v r = v) := by
  unfold cursorStep
  split_ifs <;> omega

/-- The lanes of a port as the end of the training time finds them: a figure of merit of 64 is enough. -/
def State.lateTrained (s : State) (q : Nat) (foms : List Nat) : State :=
  ((portLanes q).zip foms).foldl (fun (t : State) e => t.updLane e.1 fun x =>
    { x with trained := x.trained || decide (64 ≤ e.2) }.noteFom e.2) s

theorem State.lateTrained_touches (s : State) (q : Nat) (foms : List Nat) : Touches [.lane] s (s.lateTrained q foms) :=
  .foldl (fun _ _ => State.updLane_touches ..) _ s

theorem exec_trainingTimeout {foms : List Nat} (hq : q ≤ 3) (hst : (s.portOf q).st = .training) : exec (.trainingTimeout q foms) s
    = .next (if ((portLanes q).all fun l => ((s.lateTrained q foms).laneOf l).trained) = true then (s.lateTrained q foms).settleUp q
        else (s.lateTrained q foms).trainFail q) := by
  show execTrainingTimeout q foms s = _
  simp only [execTrainingTimeout, hst, Nat.not_lt.2 hq, bne_self_eq_false, Bool.false_eq_true, or_self, if_false]
  rfl

theorem does_trainingTimeout_fails {foms : List Nat} (hq : q ≤ 3) (hst : (s.portOf q).st = .training)
    (hbad : ((portLanes q).all fun l => ((s.lateTrained q foms).laneOf l).trained) = false) :
    Does (.trainingTimeout q foms) s [.regs, .log, .logSeq, .mbx, .grp, .lane, .rat, .out]
      (regIn [Reg.LINK_TRAIN_FAILS q, Reg.LINK_STATUS q, Reg.LINK_RETRAINS q, Reg.GRP_LINK_FAILS, Reg.GRP_STATUS, Reg.DEV_STATUS]) fun t =>
        t.rd (Reg.LINK_TRAIN_FAILS q) = s.rd (Reg.LINK_TRAIN_FAILS q) + 1 ∧ (t.portOf q).st = .failed ∧ LinkRestarted s t q := by
  have hx := exec_trainingTimeout (foms := foms) hq hst
  rw [if_neg (by simp [hbad])] at hx
  have htouch := s.lateTrained_touches q foms
  have hports : (s.lateTrained q foms).lane.ports = s.lane.ports := by
    refine foldl_keep (fun t : State => t.lane.ports) (fun _ _ => ?_) _ s
    rfl
  have hf : ((s.lateTrained q foms).portOf q).st ≠ .failed := by
    rw [State.portOf_congr hports, hst]
    exact nofun
  have h := State.trainFail_fails hq hf
  refine ⟨_, hx, (htouch.mono (by decide)).trans (State.trainFail_touches ..), (RegsKept.of_touches htouch).trans h.regs |>.same, ?_,
    h.failed, h.restarted.after (.of_touches htouch)⟩
  rw [h.count, htouch.rd_eq (by decide)]

end training

end Sys2Proof.Machine
end

section
/-!
PROOFS. Ethernet links (R176, R205, R274): what comes up, and what an interface that goes down discards.
-/
namespace Sys2Proof.Machine
open Sys2Proof

/-! ## A link comes up (R274) -/

section up
variable {s : State} {i : Nat}

/-- The lanes of an interface with signal and CDR lock. -/
def State.lanesLocked (s : State) (i : Nat) : State :=
  (s.ifLanes i).foldl (fun (t : State) l => t.updLane l fun x => { x with los := false, lol := false }) s

theorem State.lanesLocked_touches (s : State) (i : Nat) : Touches [.lane] s (s.lanesLocked i) :=
  .foldl (fun _ _ => State.updLane_touches ..) _ s

theorem does_ethLinkUp (he : s.ifExists i = true) (hn : (s.iface i).enabled = true)
    (hm : ((s.ifLanes i).any fun l => (s.laneOf l).testMode) = false) :
    Does (.ethLinkUp i) s [.net, .lane] noReg fun t => t.iface i = { s.iface i with linkUp := true }
      ∧ (∀ k, k ≠ i → t.iface k = s.iface k) ∧ ∀ l ∈ s.ifLanes i, (t.laneOf l).los = false ∧ (t.laneOf l).lol = false := by
  have hx : exec (.ethLinkUp i) s = .next ((s.lanesLocked i).updIface i fun f => { f with linkUp := true }) := by
    show execEthLinkUp i s = _
    simp only [execEthLinkUp, he, hn, hm, Bool.not_false, Bool.and_self, if_true]
    rfl
  have hif : ∀ k, (s.lanesLocked i).iface k = s.iface k := State.iface_congr ((s.lanesLocked_touches i).same .net (by decide))
  refine does_of_touches hx (((s.lanesLocked_touches i).mono (by decide)).then (State.updIface_touches ..) (by decide)) (by decide)
    ⟨?_, fun k hk => ?_, fun l hl => ?_⟩
  · rw [State.iface_updIface_self, hif]
  · rw [State.iface_updIface_ne _ hk, hif]
  · have hlane := (foldl_updLane_mem (f := fun x => { x with los := false, lol := false }) (fun _ => rfl) (s.ifLanes i) s l).trans
      (if_pos hl)
    exact ⟨congrArg Lane.los hlane, congrArg Lane.lol hlane⟩

end up

/-! ## What an interface discards (R205) -/

theorem foldl_erase_cons {α : Type} [BEq α] [LawfulBEq α] {x : α} {ws : List α} (h : x ∉ ws) (q : List α) :
    ws.foldl List.erase (x :: q) = x :: ws.foldl List.erase q := by
  induction ws generalizing q with
  | nil => rfl
  | cons w ws ih =>
    obtain ⟨hne, hmem⟩ := not_or.1 fun ho => h (List.mem_cons.2 ho)
    rw [List.foldl_cons, List.erase_cons_tail (by simpa using hne), ih hmem, List.foldl_cons]

/-- Erasing one by one the entries that meet `p` leaves those that do not. -/
theorem foldl_erase_filter {α : Type} [BEq α] [LawfulBEq α] (p : α → Bool) (q : List α) :
    (q.filter p).foldl List.erase q = q.filter fun x => !p x := by
  induction q with
  | nil => rfl
  | cons x q ih =>
    cases hp : p x with
    | true => simp only [List.filter_cons, hp, if_true, List.foldl_cons, List.erase_cons_head, ih, Bool.not_true, Bool.false_eq_true, if_false]
    | false =>
      have hx : x ∉ q.filter p := fun hm => by simp [(List.mem_filter.1 hm).2] at hp
      simp only [List.filter_cons, hp, Bool.false_eq_true, if_false, Bool.not_false, if_true, foldl_erase_cons hx, ih]

section drop
variable {i : Nat}

theorem State.packetDone_kept (s : State) (c n : Nat) : RegsKept (regIn [Reg.EGR_PACKETS c]) s (s.packetDone c n) := by
  unfold State.packetDone
  dsimp only
  split
  · split
    · refine .trans ?_ (.bump (List.mem_singleton_self _))
      exact .of_regs rfl
    · exact .of_regs rfl
  · exact .refl ..

theorem State.linkDrop_kept (s : State) (i c n : Nat) :
    RegsKept (regIn [Reg.NET_TX_LINK_DROPS i, Reg.NET_TX_STATUS i, Reg.EGR_PACKETS c]) s (s.linkDrop i c n) :=
  (RegsKept.bump (by simp [regIn])).trans ((RegsKept.sticky (by simp [regIn]) _).trans
    ((State.packetDone_kept _ c n).mono fun off h => by
      simp only [regIn, List.mem_singleton] at h; simp [regIn, h]))

theorem State.linkDrop_rd_drops (s : State) (i c n : Nat) :
    (s.linkDrop i c n).rd (Reg.NET_TX_LINK_DROPS i) = s.rd (Reg.NET_TX_LINK_DROPS i) + 1 := by
  unfold State.linkDrop
  rw [(State.packetDone_kept _ c n).same, State.sticky_rd_ne, State.bump_rd_self]
  · simp [Reg.NET_TX_STATUS, Reg.NET_TX_LINK_DROPS]
  · simp only [regIn, List.mem_singleton, Reg.NET_TX_LINK_DROPS, Reg.EGR_PACKETS]
    omega

/-- From `s` to `t` the packets `ws` of interface `i` have been discarded one by one. -/
structure Discards (i : Nat) (ws : List TxPacket) (s t : State) : Prop where
  touches : Touches [.regs, .tx, .txc] s t
  regs : RegsKept (regIn ([Reg.NET_TX_LINK_DROPS i, Reg.NET_TX_STATUS i] ++ ws.map fun w => Reg.EGR_PACKETS w.pkt.chan)) s t
  count : t.rd (Reg.NET_TX_LINK_DROPS i) = s.rd (Reg.NET_TX_LINK_DROPS i) + BitVec.ofNat 32 ws.length
  queued : (t.txIf i).queued = ws.foldl List.erase (s.txIf i).queued
  ctl : (t.txIf i).ctl = (s.txIf i).ctl
  others : ∀ k, k ≠ i → t.txIf k = s.txIf k

theorem discards_one (s : State) (i : Nat) (w : TxPacket) :
    Discards i [w] s ((s.dequeue i w).linkDrop i w.pkt.chan w.pkt.seq) := by
  obtain ⟨⟨c, hi⟩, hothers⟩ := onlyCredits_settleCredits s i
  have hd : Touches [.tx] s (s.dequeue i w) := s.dequeue_touches i w
  have htx : ∀ k, ((s.dequeue i w).linkDrop i w.pkt.chan w.pkt.seq).txIf k = (s.dequeue i w).txIf k :=
    State.txIf_congr (Touches.same (l := [.regs, .txc]) (State.linkDrop_touches ..) .tx (by decide))
  have hself : (s.dequeue i w).txIf i
      = { (s.settleCredits i).txIf i with
          queued := ((s.settleCredits i).txIf i).queued.erase w
          held := tset ((s.settleCredits i).txIf i).held w.queue (tgetD ((s.settleCredits i).txIf i).held w.queue 0 - w.pkt.frame) } :=
    State.txIf_updTx_self ..
  refine ⟨(hd.mono (by decide)).then (State.linkDrop_touches ..) (by decide), (RegsKept.of_touches hd).trans (State.linkDrop_kept ..), ?_, ?_, ?_,
    fun k hk => ?_⟩
  · rw [State.linkDrop_rd_drops, hd.rd_eq (by decide)]
    rfl
  · rw [htx, hself, hi]
    rfl
  · rw [htx, hself, hi]
  · rw [htx, ← hothers k hk]
    exact State.txIf_updTx_ne _ _ hk

theorem Discards.cons {w : TxPacket} {ws : List TxPacket} {s t u : State} (a : Discards i [w] s t) (b : Discards i ws t u) :
    Discards i (w :: ws) s u where
  touches := a.touches.trans b.touches
  regs := (a.regs.mono fun off h => by
      simp only [regIn, List.map_cons, List.map_nil, List.cons_append, List.nil_append, List.mem_cons, List.not_mem_nil, or_false] at h ⊢
      tauto).trans (b.regs.mono fun off h => by
      simp only [regIn, List.map_cons, List.cons_append, List.nil_append, List.mem_cons] at h ⊢
      tauto)
  count := by
    rw [b.count, a.count, List.length_singleton, List.length_cons, Nat.add_comm, BitVec.ofNat_add, BitVec.add_assoc]
  queued := b.queued.trans (by rw [a.queued]; rfl)
  ctl := b.ctl.trans a.ctl
  others k hk := (b.others k hk).trans (a.others k hk)

theorem discards_foldl (ws : List TxPacket) (s : State) :
    Discards i ws s (ws.foldl (fun (u : State) w => (u.dequeue i w).linkDrop i w.pkt.chan w.pkt.seq) s) := by
  induction ws generalizing s with
  | nil => exact ⟨.refl .., .refl .., by simp, rfl, rfl, fun _ _ => rfl⟩
  | cons w ws ih => exact (discards_one s i w).cons (ih _)

/-- What an interface that goes down leaves of its egress, and what it counts. -/
theorem State.dropEligible_leaves (s : State) (i : Nat) :
    RegsKept (regIn ([Reg.NET_TX_LINK_DROPS i, Reg.NET_TX_STATUS i] ++ (s.txIf i).queued.map fun w => Reg.EGR_PACKETS w.pkt.chan)) s
        (s.dropEligible i)
      ∧ ((s.dropEligible i).txIf i).queued = (s.txIf i).queued.filter (fun w => !w.eligible) ∧ ((s.dropEligible i).txIf i).ctl = []
      ∧ (∀ k, k ≠ i → (s.dropEligible i).txIf k = s.txIf k)
      ∧ (s.dropEligible i).rd (Reg.NET_TX_LINK_DROPS i) = s.rd (Reg.NET_TX_LINK_DROPS i)
        + BitVec.ofNat 32 (((s.txIf i).queued.filter (·.eligible)).length + (s.txIf i).ctl.length) := by
  have hne : Reg.NET_TX_STATUS i ≠ Reg.NET_TX_LINK_DROPS i := by simp [Reg.NET_TX_STATUS, Reg.NET_TX_LINK_DROPS]
  have hd := discards_foldl (i := i) ((s.txIf i).queued.filter (·.eligible)) s
  unfold State.dropEligible
  dsimp only
  generalize ((s.txIf i).queued.filter (·.eligible)).foldl (fun (u : State) w => (u.dequeue i w).linkDrop i w.pkt.chan w.pkt.seq) s = u
    at hd ⊢
  have hkept : RegsKept (regIn ([Reg.NET_TX_LINK_DROPS i, Reg.NET_TX_STATUS i] ++ (s.txIf i).queued.map fun w =>
      Reg.EGR_PACKETS w.pkt.chan)) s (u.updTx i fun t => { t with ctl := [], held := tdel (tdel t.held 0) 3 }) :=
    (hd.regs.mono fun off h => (List.mem_append.1 h).elim (List.mem_append_left _) fun h =>
      List.mem_append_right _ (List.map_subset _ (List.filter_subset_self _) h)).trans (.of_touches (State.updTx_touches ..))
  have hq := hd.queued.trans (foldl_erase_filter (fun w : TxPacket => w.eligible) _)
  split
  · next hc =>
    refine ⟨hkept, ?_, ?_, fun k hk => (State.txIf_updTx_ne _ _ hk).trans (hd.others k hk), ?_⟩
    · rw [State.txIf_updTx_self]
      exact hq
    · rw [State.txIf_updTx_self]
    · rw [hc]
      exact hd.count
  · have htx : ∀ (v : State) (off n : Nat) (m : Word) (k : Nat), ((v.bumpBy off n).sticky (Reg.NET_TX_STATUS i) m).txIf k = v.txIf k :=
      fun _ _ _ _ _ => rfl
    refine ⟨hkept.trans ((RegsKept.bumpBy (by simp [regIn]) _).trans (.sticky (by simp [regIn]) _)), ?_, ?_,
      fun k hk => ((htx ..).trans (State.txIf_updTx_ne _ _ hk)).trans (hd.others k hk), ?_⟩
    · rw [htx, State.txIf_updTx_self]
      exact hq
    · rw [htx, State.txIf_updTx_self]
    · rw [State.sticky_rd_ne _ hne, BitVec.ofNat_add, ← BitVec.add_assoc, ← hd.count]
      exact State.rd_wr_self ..

end drop

/-! ## A link goes down (R176, R208) -/

section down
variable {s : State} {i : Nat}

theorem State.ptpLinkDown_kept (s : State) (i : Nat) : RegsKept (regIn [Reg.TIME_STATUS]) s (s.ptpLinkDown i) := by
  have hlose : ∀ (t : State) (b : Prop) [Decidable b] (p : Nat), p ≤ 1 → RegsKept (regIn [Reg.TIME_STATUS]) t (if b then t.loseMaster p else t) :=
    fun t b _ p hp => by
      split
      · exact ⟨fun off ho => State.loseMaster_rd_ne t hp (by simpa [regIn] using ho)⟩
      · exact .refl ..
  unfold State.ptpLinkDown
  split
  · exact (hlose s _ 0 (by decide)).trans (hlose _ _ 1 (by decide))
  · exact .refl ..

/-- The interface marked down, before it discards anything. -/
def State.markedDown (s : State) (i : Nat) : State := (s.updIface i fun f => { f with linkUp := false }).sticky (Reg.NET_PORT_STATUS i) 0x100

theorem exec_ethLinkDown (hu : (s.iface i).linkUp = true) (hr : s.grp.role ≠ .active) :
    exec (.ethLinkDown i) s = .next (((s.markedDown i).dropEligible i).ptpLinkDown i) := by
  have hstand : (((s.markedDown i).dropEligible i).ptpLinkDown i).standDownCheck = ((s.markedDown i).dropEligible i).ptpLinkDown i := by
    have hg : (((s.markedDown i).dropEligible i).ptpLinkDown i).grp = s.grp :=
      ((State.ptpLinkDown_touches _ i).same .grp (by decide)).trans ((State.dropEligible_touches _ i).same .grp (by decide))
    unfold State.standDownCheck
    rw [hg]
    have hb : (s.grp.role == .active) = false := by simpa using hr
    simp [hb]
  show Host.Outcome.next (s.linkDown i) = _
  rw [State.linkDown, if_pos hu]
  exact congrArg _ hstand

theorem does_ethLinkDown (hu : (s.iface i).linkUp = true) (hr : s.grp.role ≠ .active) :
    Does (.ethLinkDown i) s [.regs, .time, .net, .tx, .txc]
      (regIn ([Reg.NET_PORT_STATUS i, Reg.TIME_STATUS, Reg.NET_TX_LINK_DROPS i, Reg.NET_TX_STATUS i]
        ++ (s.txIf i).queued.map fun w => Reg.EGR_PACKETS w.pkt.chan)) fun t =>
      t.iface i = { s.iface i with linkUp := false } ∧ (∀ k, k ≠ i → t.iface k = s.iface k)
        ∧ t.rd (Reg.NET_PORT_STATUS i) = (s.rd (Reg.NET_PORT_STATUS i) ||| 0x100)
        ∧ (t.txIf i).queued = (s.txIf i).queued.filter (fun w => !w.eligible) ∧ (t.txIf i).ctl = []
        ∧ (∀ k, k ≠ i → t.txIf k = s.txIf k)
        ∧ t.rd (Reg.NET_TX_LINK_DROPS i) = s.rd (Reg.NET_TX_LINK_DROPS i)
          + BitVec.ofNat 32 (((s.txIf i).queued.filter (·.eligible)).length + (s.txIf i).ctl.length) := by
  obtain ⟨hkept, hq, hc, ho, hdrops⟩ := (s.markedDown i).dropEligible_leaves i
  have hptp := State.ptpLinkDown_kept ((s.markedDown i).dropEligible i) i
  have hmark : RegsKept (regIn [Reg.NET_PORT_STATUS i]) s (s.markedDown i) :=
    (RegsKept.of_touches (State.updIface_touches ..)).trans (.sticky (by simp [regIn]) _)
  have htx : ∀ k, (((s.markedDown i).dropEligible i).ptpLinkDown i).txIf k = ((s.markedDown i).dropEligible i).txIf k :=
    State.txIf_congr ((State.ptpLinkDown_touches _ i).same .tx (by decide))
  have hif : ∀ k, (((s.markedDown i).dropEligible i).ptpLinkDown i).iface k = (s.updIface i fun f => { f with linkUp := false }).iface k :=
    State.iface_congr (((State.ptpLinkDown_touches _ i).same .net (by decide)).trans ((State.dropEligible_touches _ i).same .net (by decide)))
  refine ⟨_, exec_ethLinkDown hu hr, ?_, RegsKept.same ((hmark.mono fun off h => ?_).trans ((hkept.mono fun off h => ?_).trans
    (hptp.mono fun off h => ?_))), ?_, fun k hk => ?_, ?_, ?_, ?_, fun k hk => ?_, ?_⟩
  · exact (((((State.updIface_touches ..).mono (by decide)).then (State.sticky_touches ..) (by decide)).then
      (State.dropEligible_touches ..) (by decide)).then (State.ptpLinkDown_touches ..) (by decide))
  · simp_all [regIn]
  · exact List.mem_cons_of_mem _ (List.mem_cons_of_mem _ h)
  · simp_all [regIn]
  · rw [hif, State.iface_updIface_self]
  · rw [hif, State.iface_updIface_ne _ hk]
  · rw [hptp.same, hkept.same]
    · exact State.sticky_rd_self ..
    · simp only [regIn, List.mem_append, List.mem_cons, List.not_mem_nil, or_false, List.mem_map, Reg.NET_PORT_STATUS,
        Reg.NET_TX_LINK_DROPS, Reg.NET_TX_STATUS, Reg.EGR_PACKETS, not_or, not_exists, not_and]
      exact ⟨by omega, fun w _ => by omega⟩
    · simp [regIn, Reg.NET_PORT_STATUS, Reg.TIME_STATUS]; omega
  · rw [htx, hq]
    rfl
  · rw [htx, hc]
  · rw [htx, ho k hk]
    rfl
  · rw [hptp.same, hdrops, hmark.same]
    · rfl
    · simp [regIn, Reg.NET_PORT_STATUS, Reg.NET_TX_LINK_DROPS]
    · simp [regIn, Reg.NET_TX_LINK_DROPS, Reg.TIME_STATUS]; omega

end down

/-- Settles O32: the port that comes up, each row of the training by its course, then the Ethernet links. -/
theorem linkTraining : Obligations.LinkTraining := by
  unfold Obligations.LinkTraining
  intro ready all restarted
  refine ⟨fun s q => ⟨State.settleUp_waits, State.settleUp_up⟩,
    fun s q k nums hq hd hf hl => ⟨does_aln_fails hq hd hf hl, does_aln hq hd hf hl⟩,
    fun s q x h => does_trn_up h,
    fun s q l x h hl => ⟨exec_trn_training h hl, (execTrn_touches q x s).row (exec_trn_training h hl)⟩,
    cursorStep_spec, fun s q x h => gives_trn_off h,
    fun s l q fom hl hst ho hc ht => ⟨exec_trainingStepTimer hl hst ho hc ht,
      (execTrainingStepTimer_touches l fom s).row (exec_trainingStepTimer hl hst ho hc ht)⟩,
    fun x fom => ⟨x.adapt_fom fom, fun d was => x.adapt_kept fom, fun d was => x.adapt_reversed fom, x.adapt_ended fom, x.adapt_asks fom⟩,
    fun s q foms hq hst => ⟨fun hok => (exec_trainingTimeout hq hst).trans (congrArg _ (if_pos hok)), does_trainingTimeout_fails hq hst⟩,
    fun s i he hn hm => does_ethLinkUp he hn hm,
    fun s i => ⟨fun hu => ?_, does_ethLinkDown⟩⟩
  exact congrArg Host.Outcome.next (if_neg (by simp [hu]))

end Sys2Proof.Machine
end

section
/-!
PROOFS. The timers of sessions (R308, R309, R311).
-/
namespace Sys2Proof.Machine
open Sys2Proof

/-! ## The status register of pair 64 would be MBX_LOST -/

/-- A unit just after power-on with a session on pair 64, a number that no mailbox has (R301). -/
def strayPair : State := { State.reset with mbx := { State.reset.mbx with sessions := [(64, ⟨0, 1⟩)] } }

theorem strayPair_counts_closing : (outState strayPair (exec (.sessionIdleTimeout 64) strayPair)).rd Reg.MBX_LOST = 0x20000 := by decide

/-- Refutes O24: SESSION_IDLE_TIMEOUT is stated for every pair, not for the nine that exist (R301), to which `Instr.wf` keeps its
operand. On `strayPair` no word waits, and yet MBX_LOST, the cell of pair 64's status, goes from 0 to 0x20000. -/
theorem not_sessionTimers : ¬ Obligations.SessionTimers := by
  unfold Obligations.SessionTimers
  rintro ⟨htimeout, -⟩
  obtain ⟨t, ht, -, -, -, -, -, -, -, hlost, -⟩ := htimeout strayPair 64 (by decide)
  have hstray := strayPair_counts_closing
  rw [ht] at hstray
  exact absurd (hlost.symm.trans hstray) (by decide)

end Sys2Proof.Machine
end

section
/-!
PROOFS. Supply warnings (R366): a group's record of a channel that is not defined.
-/
namespace Sys2Proof.Machine
open Sys2Proof

/-- A standby in whose group channel 0 is in sync, though the unit defines no channel. -/
def strayMember : State :=
  { State.reset with grp := { State.reset.grp with role := .standby, chans := [(0, { inSync := true })] } }

/-- The machine in which a warning of the core's rail has begun on `strayMember`, before its role acts. -/
def strayWarned : State :=
  ({ strayMember with pwr := { strayMember.pwr with
      warnPin := strayMember.pwr.warnPin || 0 == 2, vCore := 700, warn := some ⟨0, strayMember.time.sec, strayMember.time.ns⟩ } }.bump
    Reg.PWR_WARNINGS).sticky Reg.PWR_STATUS 0x100

theorem strayWarned_keeps_sync : tget strayWarned.warnRole.grp.chans 0 = some { inSync := true } := by decide

/-- Refutes O27: a warning makes a standby's defined channels resync (R256); the statement says it of every channel that the group's
table holds, defined or not. On `strayMember` the table's channel 0, which is not defined, stays in sync. -/
theorem not_supplyWarnings : ¬ Obligations.SupplyWarnings := by
  unfold Obligations.SupplyWarnings
  rintro ⟨hbegins, -⟩
  obtain ⟨-, -, hstandby⟩ := hbegins strayMember 0 700 (by decide)
  obtain ⟨-, hresync⟩ := hstandby (by decide)
  exact absurd (hresync 0 _ strayWarned_keeps_sync) (by decide)

end Sys2Proof.Machine
end

section
/-!
PROOFS. The readings of power and heat (R357, R363, R364, R449).
-/
namespace Sys2Proof.Machine
open Sys2Proof

/-! ## The highest valid reading (R357) -/

theorem hottest_eq_none {l : List (Option Int)} {i : Nat} (h : hottest i l = none) (x : Int) : some x ∉ l := by
  induction l generalizing i with
  | nil => exact List.not_mem_nil
  | cons r rs ih =>
    cases r with
    | none => simpa using ih (i := i + 1) (by simpa [hottest] using h)
    | some t =>
      cases hr : hottest (i + 1) rs with
      | none => simp [hottest, hr] at h
      | some p => simp only [hottest, hr] at h; split at h <;> simp at h

theorem hottest_spec {l : List (Option Int)} {i k : Nat} {t : Int} (h : hottest i l = some (t, k)) :
    some t ∈ l ∧ ∀ x, some x ∈ l → x ≤ t := by
  induction l generalizing i t k with
  | nil => simp [hottest] at h
  | cons r rs ih =>
    cases r with
    | none =>
      obtain ⟨hm, hle⟩ := ih (i := i + 1) (by simpa [hottest] using h)
      exact ⟨List.mem_cons_of_mem _ hm, fun x hx => hle x (by simpa using hx)⟩
    | some r =>
      cases hr : hottest (i + 1) rs with
      | none =>
        obtain ⟨rfl, -⟩ : r = t ∧ i = k := by simpa [hottest, hr] using h
        refine ⟨List.mem_cons_self .., fun x hx => ?_⟩
        rcases List.mem_cons.1 hx with he | hx
        · exact le_of_eq (Option.some.inj he)
        · exact absurd hx (hottest_eq_none hr x)
      | some p =>
        obtain ⟨u, j⟩ := p
        obtain ⟨hm, hle⟩ := ih hr
        simp only [hottest, hr] at h
        split at h
        · next hur =>
          obtain ⟨rfl, -⟩ : r = t ∧ i = k := by simpa using h
          refine ⟨List.mem_cons_self .., fun x hx => ?_⟩
          rcases List.mem_cons.1 hx with he | hx
          · exact le_of_eq (Option.some.inj he)
          · exact (hle x hx).trans hur
        · next hur =>
          obtain ⟨rfl, -⟩ : u = t ∧ j = k := by simpa using h
          refine ⟨List.mem_cons_of_mem _ hm, fun x hx => ?_⟩
          rcases List.mem_cons.1 hx with he | hx
          · have := Option.some.inj he
            omega
          · exact hle x hx

theorem tMaxOf_few {l : List (Option Int)} (h : (l.filter (·.isSome)).length < 16) (d : Bool) :
    (tMaxOf l d).1 = if d then 524 else 500 := by
  simp only [tMaxOf, if_pos h]
  rfl

theorem tMaxOf_enough {l : List (Option Int)} (h : 16 ≤ (l.filter (·.isSome)).length) :
    some (tMaxOf l false).1 ∈ l ∧ ∀ x, some x ∈ l → x ≤ (tMaxOf l false).1 := by
  have hn : ¬ (l.filter (·.isSome)).length < 16 := by omega
  cases hh : hottest 0 l with
  | none =>
    have hempty : l.filter (·.isSome) = [] := List.filter_eq_nil_iff.2 fun r hr hs => by
      obtain ⟨x, rfl⟩ := Option.isSome_iff_exists.1 hs
      exact hottest_eq_none hh x hr
    simp [hempty] at h
  | some p =>
    have ht : (tMaxOf l false).1 = p.1 := by simp [tMaxOf, if_neg hn, hh]
    rw [ht]
    exact hottest_spec hh

/-! ## A sticky bit that an operation may set -/

theorem RegsKept.when {r : Nat → Prop} {s : State} {f : State → State} (h : RegsKept r s (f s)) (b : Bool) : RegsKept r s (s.when b f) := by
  cases b
  · exact .refl ..
  · exact h

theorem State.when_sticky_rd {m : Word} {i : Nat} (h : m = bit1 i) (s : State) (b : Bool) (off : Nat) :
    (s.when b (·.sticky off m)).rd off = s.rd off ||| bitIf b i := by
  cases b
  · simp [State.when, bitIf]
  · subst h
    exact State.sticky_rd_self ..

theorem State.when_sticky_regs (s : State) (b : Bool) (off : Nat) (m : Word) : RegsKept (regIn [off]) s (s.when b (·.sticky off m)) := by
  cases b
  · exact .refl ..
  · exact .sticky (List.mem_singleton_self off) m

theorem State.when_sticky_touches (s : State) (b : Bool) (off : Nat) (m : Word) : Touches [.regs] s (s.when b (·.sticky off m)) :=
  State.when_touches (fun t => t.sticky_touches off m) s b

/-! ## The rows -/

section readings
variable (s : State)

/-- The trimmed readings of the 32 sensors that are valid. -/
def State.scanned (rs : List (Option Int)) : List (Option Int) :=
  (List.range 32).map fun i => validReading ((rs.getD i none).map (· + sensorTrim s.dev.calNow i))

theorem does_tempSensorScan (rs : List (Option Int)) : Does (.tempSensorScan rs) s [.regs, .pwr] (regIn [Reg.PWR_STATUS]) fun t =>
    t.pwr = { s.pwr with sensors := s.scanned rs, tMax := (tMaxOf (s.scanned rs) s.dev.calInvalid).1
                         tSensor := (tMaxOf (s.scanned rs) s.dev.calInvalid).2 }
      ∧ t.rd Reg.PWR_STATUS = s.rd Reg.PWR_STATUS ||| bitIf ((s.scanned rs).any (·.isNone)) 10 := by
  let v := s.scanned rs
  let a : State := { s with pwr := { s.pwr with
    sensors := v, tMax := (tMaxOf v s.dev.calInvalid).1, tSensor := (tMaxOf v s.dev.calInvalid).2 } }
  have hx : exec (.tempSensorScan rs) s = .next (a.when (v.any (·.isNone)) (·.sticky Reg.PWR_STATUS 0x400)) := rfl
  refine ⟨_, hx, (execTempSensorScan_touches rs s).row hx, fun off h => ?_, ?_, ?_⟩
  · exact (State.when_sticky_regs a _ Reg.PWR_STATUS 0x400).same off h
  · exact (State.when_sticky_touches a _ Reg.PWR_STATUS 0x400).same .pwr (by decide)
  · exact State.when_sticky_rd (i := 10) rfl a _ Reg.PWR_STATUS

theorem tempSensorScan_reads (rs : List (Option Int)) :
    Does (.tempSensorScan rs) s [.regs, .pwr] (regIn [Reg.PWR_STATUS]) fun t =>
      let v := s.scanned rs
      t.pwr = { s.pwr with sensors := v, tMax := (tMaxOf v s.dev.calInvalid).1, tSensor := (tMaxOf v s.dev.calInvalid).2 }
        ∧ (v.any (·.isNone) = true → t.rd Reg.PWR_STATUS = (s.rd Reg.PWR_STATUS ||| 0x400))
        ∧ (v.any (·.isNone) = false → t.rd Reg.PWR_STATUS = s.rd Reg.PWR_STATUS)
        ∧ ((v.filter (·.isSome)).length < 16 → t.pwr.tMax = if s.dev.calInvalid then 524 else 500)
        ∧ (16 ≤ (v.filter (·.isSome)).length → s.dev.calInvalid = false →
            some t.pwr.tMax ∈ v ∧ ∀ i < 32, ∀ x, v.getD i none = some x → x ≤ t.pwr.tMax) := by
  obtain ⟨t, hx, ht, hr, hp, hs⟩ := does_tempSensorScan s rs
  refine ⟨t, hx, ht, hr, hp, fun h => ?_, fun h => ?_, fun h => ?_, fun h hc => ?_⟩
  · rw [hs, h]
    rfl
  · rw [hs, h]
    exact BitVec.or_zero
  · rw [hp]
    exact tMaxOf_few h _
  · have hm : t.pwr.tMax = (tMaxOf (s.scanned rs) false).1 := by rw [hp, ← hc]
    obtain ⟨hmem, hle⟩ := tMaxOf_enough h
    rw [hm]
    refine ⟨hmem, fun i hi x hx => hle x ?_⟩
    have hlen : i < (s.scanned rs).length := by simpa [State.scanned] using hi
    rw [List.getD_eq_getElem _ _ hlen] at hx
    exact hx ▸ List.getElem_mem hlen

/-- The floor is beyond the budget in force (R363). -/
def State.overFloor : Bool := decide (((s.budgetInForce.1 * pwrScale : Nat) : Int) < s.pT0)

/-- The machine that has taken note of whether the floor is beyond the budget. -/
def State.floorNoted : State := { s with pwr := { s.pwr with floorExceeded := s.overFloor } }

theorem State.checkFloor_eq : s.checkFloor = s.floorNoted.when s.overFloor (·.sticky Reg.PWR_STATUS 0x800) := rfl

theorem State.checkFloor_pwr : s.checkFloor.pwr = s.floorNoted.pwr :=
  (s.floorNoted.when_sticky_touches s.overFloor Reg.PWR_STATUS 0x800).same .pwr (by decide)

theorem State.checkFloor_overFloor : s.checkFloor.overFloor = s.overFloor := by
  have hwhen (t : State) (b : Bool) : (t.when b (·.sticky Reg.PWR_STATUS 0x800)).overFloor = t.overFloor := by cases b <;> rfl
  exact hwhen s.floorNoted s.overFloor

theorem State.checkFloor_kept : RegsKept (regIn [Reg.PWR_STATUS]) s s.checkFloor := by
  rw [State.checkFloor_eq]
  exact .trans (t := s.floorNoted) (.of_regs rfl) (State.when_sticky_regs ..)

theorem State.checkFloor_rd_status : s.checkFloor.rd Reg.PWR_STATUS = s.rd Reg.PWR_STATUS ||| bitIf s.overFloor 11 :=
  State.when_sticky_rd (i := 11) rfl s.floorNoted _ _

/-- The machine with a poll's sum, before the floor is checked. -/
def State.polled (rails : List (Option (Nat × Nat))) : State :=
  let r := railSum s.dev.calNow rails
  let ps := (r.1 :: s.pwr.polls).take 10
  { s with pwr := { s.pwr with polls := ps, pMeas := sumNat ps / (ps.length * unitPower), railStale := r.2 } }

theorem pmbusPoll_sums (rails : List (Option (Nat × Nat))) :
    Does (.pmbusPoll rails) s [.regs, .pwr] (regIn [Reg.PWR_STATUS]) fun t =>
      t.pwr.polls = ((railSum s.dev.calNow rails).1 :: s.pwr.polls).take 10
        ∧ t.pwr.pMeas = sumNat t.pwr.polls / (t.pwr.polls.length * unitPower) ∧ t.pwr.railStale = (railSum s.dev.calNow rails).2
        ∧ t.pwr.floorExceeded = decide (((t.budgetInForce.1 * pwrScale : Nat) : Int) < t.pT0)
        ∧ t.pwr.sensors = s.pwr.sensors ∧ t.pwr.hostBudget = s.pwr.hostBudget ∧ t.pwr.warn = s.pwr.warn
        ∧ t.rd Reg.PWR_STATUS = (s.rd Reg.PWR_STATUS ||| bitIf t.pwr.railStale 10 ||| bitIf t.pwr.floorExceeded 11) := by
  let a := s.polled rails
  let b := a.when (railSum s.dev.calNow rails).2 (·.sticky Reg.PWR_STATUS 0x400)
  have hx : exec (.pmbusPoll rails) s = .next b.checkFloor := rfl
  have hp : b.checkFloor.pwr = { a.pwr with floorExceeded := b.overFloor } := by
    rw [State.checkFloor_pwr]
    show { b.pwr with floorExceeded := b.overFloor } = _
    rw [(a.when_sticky_touches _ Reg.PWR_STATUS 0x400).same .pwr (by decide)]
  refine ⟨_, hx, (execPmbusPoll_touches rails s).row hx, fun off h => ?_, ?_⟩
  · rw [b.checkFloor_kept.same off h]
    exact (a.when_sticky_regs _ Reg.PWR_STATUS 0x400).same off h
  · dsimp only
    rw [hp]
    refine ⟨rfl, rfl, rfl, ?_, rfl, rfl, rfl, ?_⟩
    · exact b.checkFloor_overFloor.symm
    · rw [b.checkFloor_rd_status]
      exact congrArg (· ||| bitIf b.overFloor 11) (State.when_sticky_rd (i := 10) rfl a _ Reg.PWR_STATUS)

theorem thermalHigh_raises (h : 500 ≤ s.pwr.tMax) :
    Does .thermalHigh s [.regs, .log, .logSeq, .mbx, .out] (regIn [Reg.PWR_STATUS, Reg.DEV_STATUS]) fun t =>
      Entered 0x0071 s.pwr.tSensor s.pwr.tMax.toNat t ∧ t.rd Reg.PWR_STATUS = (s.rd Reg.PWR_STATUS ||| 0x200) := by
  have hx : exec .thermalHigh s = .next ((s.raise 0x0071 1 s.pwr.tSensor s.pwr.tMax.toNat).sticky Reg.PWR_STATUS 0x200) :=
    congrArg Host.Outcome.next (if_pos h)
  refine ⟨_, hx, (execThermalHigh_touches s).row hx, RegsKept.same (.trans (.raise (by simp [regIn]) ..) (.sticky (by simp [regIn]) _)), ?_, ?_⟩
  · exact (State.raise_enters ..).of_log rfl
  · rw [State.sticky_rd_self, State.raise_rd_ne _ _ _ _ _ (by decide)]

end readings

/-- Settles O25: the scan by its highest valid reading, the poll by its sum, and the two courses of THERMAL_HIGH. -/
theorem powerReadings : Obligations.PowerReadings := by
  unfold Obligations.PowerReadings
  exact ⟨fun s rs => tempSensorScan_reads s rs, fun s rails => pmbusPoll_sums s rails, fun s h => thermalHigh_raises s h,
    fun s h => congrArg Host.Outcome.next (if_neg (by omega))⟩

end Sys2Proof.Machine
end

section
/-!
PROOFS. The trips of the device (R357, R364, R381, R420).
-/
namespace Sys2Proof.Machine
open Sys2Proof

/-! ## What a trip leaves -/

/-- What a trip with a code and an object leaves (R364). -/
def Tripped (code obj : Nat) (s u : State) : Prop :=
  u.dev.state = .halted ∧ u.dev.mediaOff = true ∧ u.dev.fatal = true
    ∧ u.pwr.tripped = true ∧ u.dev.lastCode = code ∧ u.dev.lastObj = obj ∧ (∀ c ch, tget u.chans c = some ch → ch.st.active = false)
    ∧ (s.member = true → u.grp.role = .detached) ∧ u.mbx.sessions = s.mbx.sessions ∧ u.time = s.time ∧ u.mem.hbm = s.mem.hbm

section trip
variable (s : State) (code obj detail : Nat)

theorem State.fatal_dev : (s.fatal code obj detail).dev = s.stoppedFatal.fatalDev code obj := by
  rw [State.fatal_eq, State.raise_dev]

theorem State.fatal_inactive {c : Nat} {ch : Chan} (h : tget (s.fatal code obj detail).chans c = some ch) : ch.st.active = false := by
  rw [State.fatal_eq, State.raise_chans] at h
  exact State.stoppedFatal_inactive _ h

theorem State.fatal_role (h : s.member = true) : (s.fatal code obj detail).grp.role = .detached := by
  rw [State.fatal_eq, State.raise_grp]
  exact State.stoppedFatal_role s h

theorem State.fatal_sessions : (s.fatal code obj detail).mbx.sessions = s.mbx.sessions := by
  rw [State.fatal_eq, State.raise_sessions]
  exact State.stoppedFatal_sessions s

theorem State.fatal_enters : Entered code obj detail (s.fatal code obj detail) := State.raise_enters ..

theorem State.trip_enters : Entered code obj detail (s.trip code obj detail) := (s.fatal_enters code obj detail).of_log rfl

theorem State.trip_tripped : Tripped code obj s (s.trip code obj detail) := by
  have hd := s.fatal_dev code obj detail
  refine ⟨rfl, rfl, (congrArg DevBlock.fatal hd).trans rfl, rfl, (congrArg DevBlock.lastCode hd).trans rfl,
    (congrArg DevBlock.lastObj hd).trans rfl, fun c ch h => s.fatal_inactive code obj detail h, s.fatal_role code obj detail,
    s.fatal_sessions code obj detail, ?_, ?_⟩
  · exact (s.fatal_touches code obj detail).same .time (by decide)
  · exact congrArg MemState.hbm ((s.fatal_touches code obj detail).same .mem (by decide))

end trip

/-! ## HBM over temperature (R381) -/

section overTemp
variable {v : State}

theorem State.overTemp_quiet (h : v.pwr.tripped = true ∨ (v.mem.hotRun0 < 10 ∧ v.mem.hotRun1 < 10)) : v.overTemp = v := by
  unfold State.overTemp
  rcases h with h | ⟨h0, h1⟩
  · exact if_pos h
  · simp [Nat.not_le.2 h0, Nat.not_le.2 h1]

theorem State.overTemp_first (ht : v.pwr.tripped = false) (h : 10 ≤ v.mem.hotRun0) :
    v.overTemp = (v.trip 0x0014 0 (v.pwr.hbm0 % 2 ^ 64).toNat).sticky Reg.MEM_STATUS 0x2000 :=
  (if_neg (by simp [ht])).trans (if_pos h)

theorem State.overTemp_second (ht : v.pwr.tripped = false) (h0 : v.mem.hotRun0 < 10) (h : 10 ≤ v.mem.hotRun1) :
    v.overTemp = (v.trip 0x0014 1 (v.pwr.hbm1 % 2 ^ 64).toNat).sticky Reg.MEM_STATUS 0x2000 :=
  (if_neg (by simp [ht])).trans ((if_neg (by omega)).trans (if_pos h))

end overTemp

/-! ## The readings of the stacks (R381) -/

section readings
variable (m : MemState) (a b : Option Int)

theorem MemState.readTemps_hot : (m.readTemps a b).hbm = m.hbm ∧ (m.readTemps a b).poison = m.poison
    ∧ (m.readTemps a b).hotRun0 = (match a with | some x => if 420 ≤ x then m.hotRun0 + 1 else 0 | none => 0)
    ∧ (m.readTemps a b).hotRun1 = (match b with | some x => if 420 ≤ x then m.hotRun1 + 1 else 0 | none => 0) := by
  have hrun (n : Nat) (x : Option Int) : runOf n (match x with | some y => decide (420 ≤ y) | none => false)
      = (match x with | some y => if 420 ≤ y then n + 1 else 0 | none => 0) := by
    cases x <;> simp [runOf]
  refine ⟨?_, ?_, .trans ?_ (hrun ..), .trans ?_ (hrun ..)⟩
  · simp only [MemState.readTemps, apply_ite MemState.hbm, ite_self]
  · simp only [MemState.readTemps, apply_ite MemState.poison, ite_self]
  · simp only [MemState.readTemps, apply_ite MemState.hotRun0, ite_self] <;> rfl
  · simp only [MemState.readTemps, apply_ite MemState.hotRun1, ite_self] <;> rfl

variable {m a b}

theorem MemState.readTemps_warm {x : Int} (h : a = some x ∨ b = some x) (hx : 340 < x) : (m.readTemps a b).hotDue = true := by
  unfold MemState.readTemps
  dsimp only
  rw [if_pos]
  rcases h with rfl | rfl <;> simp [hx]

theorem MemState.readTemps_silent (h : 9 ≤ m.badRun0) : (m.readTemps none b).hotDue = true := by
  unfold MemState.readTemps
  dsimp only
  rw [if_pos]
  simp [runOf, show 10 ≤ m.badRun0 + 1 by omega]

theorem MemState.readTemps_cool {x y : Int} (hx : x ≤ 340) (hy : y ≤ 340) :
    (m.readTemps (some x) (some y)).hotDue = if 99 ≤ m.coolRun then false else m.hotDue := by
  unfold MemState.readTemps
  dsimp only
  rw [if_neg (by simp [runOf, hx, hy])]
  by_cases hc : 99 ≤ m.coolRun
  · rw [if_pos (by simp [runOf, hx, hy]; omega), if_pos hc]
  · rw [if_neg (by simp [runOf, hx, hy]; omega), if_neg hc]

end readings

/-- Settles O26: what a trip leaves, once for its three causes; then the runs of the stacks' readings. -/
theorem thermalTrips : Obligations.ThermalTrips := by
  unfold Obligations.ThermalTrips
  refine ⟨fun s n x ht => ⟨?_, s.trip_tripped .., s.trip_enters ..⟩, fun s n x ht => congrArg Host.Outcome.next (if_pos ht), fun s a b => ?_⟩
  · exact congrArg Host.Outcome.next (if_neg (by simp [ht]))
  · intro v
    have hx : exec (.hbmTempRead a b) s = .next v.overTemp.settle := rfl
    obtain ⟨hhbm, hpoison, h0, h1⟩ := s.mem.readTemps_hot a b
    refine ⟨fun h => ?_, fun ht h => ⟨rfl, ?_, ?_⟩, fun ht hlow h => ⟨rfl, ?_⟩, ⟨fun f hf => ?_⟩, rfl, hhbm, hpoison, h0, h1,
      fun x h => MemState.readTemps_warm h, fun ha h => ?_, fun x y ha hb => ?_⟩
    · rw [hx, State.overTemp_quiet h]
    · rw [State.overTemp_first (v := v) ht h]
      exact v.trip_tripped ..
    · rw [State.overTemp_first (v := v) ht h, State.sticky_rd_self]
      exact wbit_or_mask (by decide) _
    · rw [State.overTemp_second (v := v) ht hlow h]
      exact v.trip_tripped ..
    · cases f with
      | mem | pwr => simp at hf
      | _ => rfl
    · subst ha
      exact MemState.readTemps_silent h
    · subst ha hb
      exact MemState.readTemps_cool

end Sys2Proof.Machine
end

section
/-!
PROOFS. The BIST block (R21, R438, R443, R451).
-/
namespace Sys2Proof.Machine
open Sys2Proof

section bist
variable {s : State}

theorem State.bistWrite_open (h0 : s.mbx.pci.d3hot = false) (ho : s.bistOpen = true) (f : State → State) : s.bistWrite f = f s :=
  (State.barWrite_d0 h0).trans (if_pos ho)

theorem State.bistWrite_shut (ho : s.bistOpen = false) (f : State → State) : s.bistWrite f = s.inD0 s.badAccess := by
  have hshut : (if s.bistOpen then f s else s.badAccess) = s.badAccess := if_neg (by simp [ho])
  exact congrArg (fun t => if s.mbx.pci.d3hot = true then s.unsupported else t) hshut

theorem does_bistRunStart {w : Word} (h0 : s.mbx.pci.d3hot = false) (ho : s.bistOpen = true) (hc : s.chans = []) (hw : wbit w 8 = true)
    (pass : Bool) : Does (.bistRunStart w pass) s [.regs, .dev, .eng] (regIn [Reg.BIST_RUN]) fun t =>
      t.dev = { s.dev with bistPass := pass, bistFail := !pass }
        ∧ t.eng = (if pass then s.eng else s.eng.markBlock (wfield w 5 0))
        ∧ t.rd Reg.BIST_RUN = ((w &&& 0x3F) ||| (s.rd Reg.BIST_RUN &&& 0x1000 &&& ~~~w)) := by
  have hx : exec (.bistRunStart w pass) s = .next { s.bistRunFields w with
      dev := { s.dev with bistPass := pass, bistFail := !pass }
      eng := if pass then s.eng else s.eng.markBlock (wfield w 5 0) } :=
    congrArg Host.Outcome.next ((State.bistWrite_open h0 ho _).trans (if_pos (by
      have hchans : (s.bistRunFields w).chans = [] := hc
      simp [hw, hchans])))
  have ht := (s.bistRunFields_touches w).mono (m := [.regs, .dev, .eng]) (by decide)
  exact ⟨_, hx, (Touches.set_dev_eng (by decide) (by decide) _ _).mpr ht,
    RegsKept.same (.trans (.wr (off := Reg.BIST_RUN) (List.mem_singleton_self _) _) (.of_regs rfl)), rfl, rfl, State.rd_wr_self ..⟩

section burn
variable (h0 : s.mbx.pci.d3hot = false) (ho : s.bistOpen = true) (hi : (s.rd Reg.BIST_PROV_INDEX).toNat ≤ 13)
include h0 ho hi

theorem gives_bistOtpBurn_first (hw : thas s.dev.nvm.words (s.rd Reg.BIST_PROV_INDEX).toNat = false) :
    Gives .bistOtpBurn s { s with dev := { s.dev with
      nvm := { s.dev.nvm with words := tset s.dev.nvm.words (s.rd Reg.BIST_PROV_INDEX).toNat (s.rd Reg.BIST_PROV_DATA) } } } :=
  congrArg Host.Outcome.next ((State.bistWrite_open h0 ho _).trans ((if_neg (by omega)).trans (if_neg (by simp [hw]))))

theorem does_bistOtpBurn_again (hw : thas s.dev.nvm.words (s.rd Reg.BIST_PROV_INDEX).toNat = true) :
    Does .bistOtpBurn s [.regs] (regIn [Reg.BIST_RUN]) fun t => t.rd Reg.BIST_RUN = (s.rd Reg.BIST_RUN ||| 0x1000) := by
  have hx : exec .bistOtpBurn s = .next (s.sticky Reg.BIST_RUN 0x1000) :=
    congrArg Host.Outcome.next ((State.bistWrite_open h0 ho _).trans ((if_neg (by omega)).trans (if_pos hw)))
  exact ⟨_, hx, State.sticky_touches .., RegsKept.same (.sticky (List.mem_singleton_self _) _), State.sticky_rd_self ..⟩

end burn

theorem does_bistKeySlotWrite (h0 : s.mbx.pci.d3hot = false) (ho : s.bistOpen = true) : Does .bistKeySlotWrite s [.dev] noReg fun t =>
    tget t.dev.nvm.keys 0 = (if wfield (tgetD s.dev.keyWords 8 0) 4 0 = 0 then none
      else some (s.dev.keyOfWords, wfield (tgetD s.dev.keyWords 8 0) 4 0))
    ∧ (∀ k, k ≠ 0 → tget t.dev.nvm.keys k = tget s.dev.nvm.keys k) ∧ t.dev.nvm.words = s.dev.nvm.words := by
  let roles := wfield (tgetD s.dev.keyWords 8 0) 4 0
  have hx : exec .bistKeySlotWrite s = .next { s with dev := { s.dev with nvm := { s.dev.nvm with
      keys := if roles = 0 then tdel s.dev.nvm.keys 0 else tset s.dev.nvm.keys 0 (s.dev.keyOfWords, roles) } } } :=
    congrArg Host.Outcome.next (State.bistWrite_open h0 ho _)
  refine does_of_touches hx ((Touches.set_dev (by decide) _).mpr (.refl ..)) (by decide) ⟨?_, fun k hk => ?_, rfl⟩
  · show tget (if roles = 0 then _ else _) 0 = if roles = 0 then _ else _
    split
    · exact tget_tdel_self ..
    · exact tget_tset_self ..
  · show tget (if roles = 0 then _ else _) k = _
    split
    · exact tget_tdel_ne (Ne.symm hk) ..
    · exact tget_tset_ne (Ne.symm hk) ..

end bist

/-- Settles O18: a write of the block is made, or is a bad access, by the life-cycle state alone; then each row by its course. -/
theorem bistRows : Obligations.BistRows := by
  unfold Obligations.BistRows
  refine ⟨fun s w pass h0 ho hc hw => does_bistRunStart h0 ho hc hw pass,
    fun s h0 ho hi => ⟨gives_bistOtpBurn_first h0 ho hi, does_bistOtpBurn_again h0 ho hi⟩,
    fun s h0 ho => does_bistKeySlotWrite h0 ho, fun s w pass ho => ⟨?_, ?_, ?_, s.badAccess_rd_count⟩⟩
  · exact congrArg Host.Outcome.next (State.bistWrite_shut ho _)
  · exact congrArg Host.Outcome.next (State.bistWrite_shut ho _)
  · exact congrArg Host.Outcome.next (State.bistWrite_shut ho _)

end Sys2Proof.Machine
end

section
/-!
PROOFS. Errors of the memories, and host accesses to HBM (R298, R382, R389, R390, R392).
-/
namespace Sys2Proof.Machine
open Sys2Proof

/-- A register outside the list reads as before. -/
theorem RegsKept.rd {l : List Nat} {s t : State} (a : RegsKept (regIn l) s t) {off : Nat} (h : off ∉ l) : t.rd off = s.rd off :=
  a.same off h

/-! ## The cells that counting an event moves (R410) -/

theorem RegsKept.pmuCount (l : List Nat) (s : State) (cls num n : Nat) (x : PmuSource) :
    RegsKept (regOrPmu l) s (s.pmuCount cls num n x) :=
  ⟨fun off h => State.pmuCount_rd s cls num n x off (by unfold regOrPmu at h; omega)⟩

theorem State.pmuCount_rd_ne {off : Nat} (h : off < 0x00C00000 ∨ 0x00D00000 ≤ off) (s : State) (cls num n : Nat) (x : PmuSource) :
    (s.pmuCount cls num n x).rd off = s.rd off :=
  State.pmuCount_rd s cls num n x off (by omega)

/-! ## Corrected errors (R389) -/

section corrected
variable (s : State) (a : Nat)

theorem pseudoOf_lt : pseudoOf a < 64 := by
  have hx : a / 2 ^ 8 % 8 ^^^ a / 2 ^ 11 % 8 ^^^ a / 2 ^ 14 % 8 < 2 ^ 3 :=
    Nat.xor_lt_two_pow (Nat.xor_lt_two_pow (Nat.mod_lt _ (by decide)) (Nat.mod_lt _ (by decide))) (Nat.mod_lt _ (by decide))
  unfold pseudoOf
  omega

theorem does_eccCorrected_sram : Does (.eccCorrectedError a true) s [.regs, .pmu] (regOrPmu [Reg.MEM_SRAM_CE]) fun t =>
    t.rd Reg.MEM_SRAM_CE = s.rd Reg.MEM_SRAM_CE + 1 := by
  have hx : exec (.eccCorrectedError a true) s = .next ((s.pmuCount 1 2 1 { addr := some a }).bump Reg.MEM_SRAM_CE) := rfl
  refine ⟨_, hx, ?_, RegsKept.same (.trans (.pmuCount ..) (.bump ?_)), ?_⟩
  · exact ((s.pmuCount_touches ..).mono (by decide)).then (State.bump_touches ..) (by decide)
  · exact .inl (List.mem_singleton_self _)
  · dsimp only
    rw [State.bump_rd_self, State.pmuCount_rd_ne (by decide)]

/-- The machine in which a corrected error of HBM has counted. -/
def State.ceCounted : State :=
  ((s.pmuCount 1 2 1 { addr := some a }).bump Reg.MEM_HBM_CE).bump (Reg.MEM_PC_CE (pseudoOf a))

theorem exec_eccCorrected_hbm : exec (.eccCorrectedError a false) s = .next ((s.ceCounted a).ceStorm (pseudoOf a)) := rfl

/-- The cells that a corrected error of HBM moves, besides those of the PMU. -/
def ceCells : List Nat := [Reg.MEM_HBM_CE, Reg.MEM_PC_CE (pseudoOf a), Reg.MEM_STATUS, Reg.DEV_STATUS]

theorem State.ceCounted_kept : RegsKept (regOrPmu (ceCells a)) s (s.ceCounted a) :=
  (RegsKept.pmuCount ..).trans ((RegsKept.bump (.inl (by simp [ceCells]))).trans (.bump (.inl (by simp [ceCells]))))

theorem State.ceCounted_touches : Touches [.regs, .pmu] s (s.ceCounted a) :=
  (((s.pmuCount_touches ..).mono (by decide)).then (State.bump_touches ..) (by decide)).then (State.bump_touches ..) (by decide)

/-- The second of a pseudo-channel and its corrected errors, the one that comes now among them. -/
def State.ceWindow (g : Nat) : Nat × Nat :=
  match tget s.mem.ceSec g with
  | some (t, n) => if s.time.up < t + 1000000000 then (t, n + 1) else (s.time.up, 1)
  | none => (s.time.up, 1)

/-- The machine in which that second is noted. -/
def State.ceNoted (g : Nat) : State := { s with mem := { s.mem with ceSec := tset s.mem.ceSec g (s.ceWindow g) } }

theorem State.ceStorm_eq (g : Nat) : s.ceStorm g = if (s.ceWindow g).2 = 1001
    then ((s.ceNoted g).raise 0x0011 1 g (s.ceWindow g).2).sticky Reg.MEM_STATUS 0x800 else s.ceNoted g := rfl

theorem State.ceStorm_kept (g : Nat) : RegsKept (regIn [Reg.MEM_STATUS, Reg.DEV_STATUS]) s (s.ceStorm g) := by
  have hn : RegsKept (regIn [Reg.MEM_STATUS, Reg.DEV_STATUS]) s (s.ceNoted g) := .of_regs rfl
  rw [State.ceStorm_eq]
  split
  · exact hn.trans (RegsKept.trans (.raise (List.mem_cons_of_mem _ (List.mem_singleton_self _)) ..) (.sticky (List.mem_cons_self ..) _))
  · exact hn

theorem State.ceStorm_mem (g : Nat) : (s.ceStorm g).mem = (s.ceNoted g).mem := by
  rw [State.ceStorm_eq]
  split
  · exact State.raise_mem ..
  · rfl

theorem State.ceStorm_within {g b n : Nat} (h : tget s.mem.ceSec g = some (b, n)) (hs : s.time.up < b + 1000000000) :
    tget (s.ceStorm g).mem.ceSec g = some (b, n + 1) ∧ (n = 1000 → Entered 0x0011 g 1001 (s.ceStorm g))
      ∧ (n ≠ 1000 → (s.ceStorm g).log = s.log) := by
  have hw : s.ceWindow g = (b, n + 1) := by
    unfold State.ceWindow
    rw [h]
    exact if_pos hs
  refine ⟨?_, fun hn => ?_, fun hn => ?_⟩
  · rw [State.ceStorm_mem, ← hw]
    exact tget_tset_self ..
  · subst hn
    rw [State.ceStorm_eq, hw]
    exact (State.raise_enters ..).of_log rfl
  · rw [State.ceStorm_eq, hw, if_neg (by simpa using hn)]
    rfl

theorem State.ceCounted_rd :
    (s.ceCounted a).rd Reg.MEM_HBM_CE = s.rd Reg.MEM_HBM_CE + 1
      ∧ (s.ceCounted a).rd (Reg.MEM_PC_CE (pseudoOf a)) = s.rd (Reg.MEM_PC_CE (pseudoOf a)) + 1 := by
  have hg := pseudoOf_lt a
  have hne : Reg.MEM_PC_CE (pseudoOf a) ≠ Reg.MEM_HBM_CE := by unfold Reg.MEM_PC_CE Reg.MEM_HBM_CE; omega
  constructor
  · rw [State.ceCounted, State.bump_rd_ne _ hne, State.bump_rd_self, State.pmuCount_rd_ne (by decide)]
  · rw [State.ceCounted, State.bump_rd_self, State.bump_rd_ne _ (Ne.symm hne),
      State.pmuCount_rd_ne (by unfold Reg.MEM_PC_CE; omega)]

theorem does_eccCorrected_hbm : Does (.eccCorrectedError a false) s [.regs, .log, .logSeq, .mbx, .pmu, .mem, .out]
    (regOrPmu [Reg.MEM_HBM_CE, Reg.MEM_PC_CE (pseudoOf a), Reg.MEM_STATUS, Reg.DEV_STATUS]) fun t =>
      t.rd Reg.MEM_HBM_CE = s.rd Reg.MEM_HBM_CE + 1 ∧ t.rd (Reg.MEM_PC_CE (pseudoOf a)) = s.rd (Reg.MEM_PC_CE (pseudoOf a)) + 1
        ∧ t.mem.hbm = s.mem.hbm ∧ t.mem.poison = s.mem.poison
        ∧ (∀ b n, tget s.mem.ceSec (pseudoOf a) = some (b, n) → s.time.up < b + 1000000000 →
            tget t.mem.ceSec (pseudoOf a) = some (b, n + 1) ∧ (n = 1000 → Entered 0x0011 (pseudoOf a) 1001 t)
              ∧ (n ≠ 1000 → t.log = s.log)) := by
  have hx := exec_eccCorrected_hbm s a
  have hstorm := (s.ceCounted a).ceStorm_kept (pseudoOf a)
  have ht := s.ceCounted_touches a
  have hmem : (s.ceCounted a).mem = s.mem := ht.same .mem (by decide)
  have hg := pseudoOf_lt a
  obtain ⟨hce, hpc⟩ := s.ceCounted_rd a
  refine ⟨_, hx, (execEccCorrectedError_touches a false s).row hx, RegsKept.same ((s.ceCounted_kept a).trans (hstorm.mono fun off h => .inl ?_)),
    ?_, ?_, ?_, ?_, fun b n h hs => ?_⟩
  · exact List.mem_cons_of_mem _ (List.mem_cons_of_mem _ h)
  · rw [hstorm.rd (by decide), hce]
  · rw [hstorm.rd (by simp only [List.mem_cons, List.not_mem_nil, or_false, Reg.MEM_PC_CE, Reg.MEM_STATUS, Reg.DEV_STATUS]; omega), hpc]
  · rw [State.ceStorm_mem, ← hmem]
    rfl
  · rw [State.ceStorm_mem, ← hmem]
    rfl
  · rw [← hmem] at h
    have hup : (s.ceCounted a).time.up < b + 1000000000 := by rw [ht.same .time (by decide)]; exact hs
    rw [← (show (s.ceCounted a).log = s.log from ht.same .log (by decide))]
    exact State.ceStorm_within _ h hup

end corrected

/-! ## Uncorrectable errors (R389) -/

section uncorrectable
variable (s : State) (a : Nat) (sram : Bool) (f : FaultSource)

/-- The machine in which an uncorrectable error has left its poison and its count. -/
def State.ueCounted : State :=
  let m := if sram then { s.mem with sramPoison := tset s.mem.sramPoison (a / 8) () }
    else { s.mem with poison := tset s.mem.poison (a / 32) () }
  (({ s with mem := m }.bump (if sram then Reg.MEM_SRAM_UE else Reg.MEM_HBM_UE)).sticky Reg.MEM_STATUS 0x100)

/-- The machine in which it has been captured and has counted as an event. -/
def State.ueCaptured : State := ((s.ueCounted a sram).captureFault f.master f.tag f.id 0 a false).pmuCount 1 3 1 { addr := some a }

theorem State.uncorrectable_eq : s.uncorrectable a sram f
    = (s.ueCaptured a sram f).raise 0x0010 2 (if sram then 64 else pseudoOf a) (a % 2 ^ 38) := rfl

theorem State.captureFault_kept (t : State) (m g d k : Nat) (w : Bool) :
    RegsKept (regIn [Reg.MEM_FAULT_ADDR_LO, Reg.MEM_FAULT_ADDR_HI, Reg.MEM_FAULT]) t (t.captureFault m g d k a w) :=
  (RegsKept.wr (off := Reg.MEM_FAULT_ADDR_LO) (by simp [regIn]) _).trans
    ((RegsKept.wr (off := Reg.MEM_FAULT_ADDR_HI) (by simp [regIn]) _).trans (.wr (off := Reg.MEM_FAULT) (by simp [regIn]) _))

theorem State.captureFault_rd (t : State) (m g d k : Nat) (w : Bool) :
    (t.captureFault m g d k a w).rd Reg.MEM_FAULT_ADDR_LO = BitVec.ofNat 32 a
      ∧ (t.captureFault m g d k a w).rd Reg.MEM_FAULT
        = (wnat m 4 0 ||| wnat g 7 5 ||| wnat d 13 8 ||| bitIf w 14 ||| wnat k 17 16) := by
  constructor
  · unfold State.captureFault
    dsimp only
    rw [State.rd_wr_ne (by decide), State.rd_wr_ne (by decide), State.rd_wr_self]
  · exact State.rd_wr_self ..

theorem State.uncorrectable_rd {off : Nat} (ho : off < 0x00C00000) (hd : off ≠ Reg.DEV_STATUS) :
    (s.uncorrectable a sram f).rd off = ((s.ueCounted a sram).captureFault f.master f.tag f.id 0 a false).rd off := by
  rw [State.uncorrectable_eq, State.raise_rd_ne _ _ _ _ _ hd, State.ueCaptured, State.pmuCount_rd_ne (.inl ho)]

theorem State.uncorrectable_mem : (s.uncorrectable a sram f).mem = (s.ueCounted a sram).mem := by
  rw [State.uncorrectable_eq, State.raise_mem, State.ueCaptured, State.pmuCount_mem]
  exact (State.captureFault_touches ..).same .mem (by decide)

theorem State.uncorrectable_counts : (s.uncorrectable a sram f).rd (if sram then Reg.MEM_SRAM_UE else Reg.MEM_HBM_UE)
    = s.rd (if sram then Reg.MEM_SRAM_UE else Reg.MEM_HBM_UE) + 1 := by
  rw [State.uncorrectable_rd _ _ _ _ (by cases sram <;> decide) (by cases sram <;> decide),
    (State.captureFault_kept ..).rd (by cases sram <;> decide), State.ueCounted, State.sticky_rd_ne _ (by cases sram <;> decide),
    State.bump_rd_self]
  rfl

theorem State.uncorrectable_rd_status : (s.uncorrectable a sram f).rd Reg.MEM_STATUS = s.rd Reg.MEM_STATUS ||| 0x100 := by
  rw [State.uncorrectable_rd _ _ _ _ (by decide) (by decide), (State.captureFault_kept ..).rd (by decide), State.ueCounted,
    State.sticky_rd_self, State.bump_rd_ne _ (by cases sram <;> decide)]
  rfl

theorem State.uncorrectable_captures : (s.uncorrectable a sram f).rd Reg.MEM_FAULT_ADDR_LO = BitVec.ofNat 32 a
    ∧ (s.uncorrectable a sram f).rd Reg.MEM_FAULT = (wnat f.master 4 0 ||| wnat f.tag 7 5 ||| wnat f.id 13 8) := by
  obtain ⟨hlo, hfault⟩ := (s.ueCounted a sram).captureFault_rd a f.master f.tag f.id 0 false
  constructor
  · rw [State.uncorrectable_rd _ _ _ _ (by decide) (by decide), hlo]
  · rw [State.uncorrectable_rd _ _ _ _ (by decide) (by decide), hfault]
    simp [bitIf, wnat]

end uncorrectable

/-! ## The patrol scrub (R390) -/

section scrub
variable (s : State) (a : Nat)

/-- The machine whose scrub has moved past a block. -/
def State.scrubbed : State := { s with mem := { s.mem with scrubAt := (a / 32 + 1) % 2 ^ 30 } }

theorem does_scrubRead_clean : Does (.scrubRead a false .clean) s [.regs, .mem] (regIn [Reg.MEM_SCRUB_PASSES]) fun t =>
    t.mem = { s.mem with scrubAt := (a / 32 + 1) % 2 ^ 30 }
      ∧ t.rd Reg.MEM_SCRUB_PASSES = s.rd Reg.MEM_SCRUB_PASSES + (if a / 32 = 2 ^ 30 - 1 then 1 else 0) := by
  have hx : exec (.scrubRead a false .clean) s
      = .next ((s.scrubbed a).when (a / 32 == 2 ^ 30 - 1) (·.bump Reg.MEM_SCRUB_PASSES)) := rfl
  have hm : Touches [.regs, .mem] s (s.scrubbed a) := (Touches.set_mem (by decide) _).mpr (.refl ..)
  have hk : RegsKept (regIn [Reg.MEM_SCRUB_PASSES]) s (s.scrubbed a) := .of_regs rfl
  by_cases hb : a / 32 = 2 ^ 30 - 1
  · rw [if_pos hb]
    rw [State.when, if_pos (by simpa using hb)] at hx
    refine ⟨_, hx, hm.then (State.bump_touches ..) (by decide), RegsKept.same (hk.trans (.bump (List.mem_singleton_self _))), ?_, ?_⟩
    · exact State.bump_mem ..
    · exact State.bump_rd_self ..
  · rw [if_neg hb]
    rw [State.when, if_neg (by simpa using hb)] at hx
    exact ⟨_, hx, hm, hk.same, rfl, (BitVec.add_zero _).symm⟩

end scrub

/-- Settles O28: corrected errors by their place, an uncorrectable one by what each of its steps leaves, then the scrub. -/
theorem hbmErrors : Obligations.HbmErrors := by
  unfold Obligations.HbmErrors
  refine ⟨does_eccCorrected_sram, does_eccCorrected_hbm, fun s a sram f => ⟨rfl, fun x => rfl, s.uncorrectable_touches a sram f,
    fun h => ?_, fun h => ?_, s.uncorrectable_rd_status a sram f, (s.uncorrectable_captures a sram f).1,
    (s.uncorrectable_captures a sram f).2, State.raise_enters ..⟩, does_scrubRead_clean, fun s t a h => h⟩
  · subst h
    refine ⟨?_, s.uncorrectable_counts a false f, (congrArg MemState.hbm (s.uncorrectable_mem a false f)).trans rfl⟩
    rw [State.poisoned, State.uncorrectable_mem]
    exact thas_tset_self ..
  · subst h
    refine ⟨?_, s.uncorrectable_counts a true f, (congrArg MemState.poison (s.uncorrectable_mem a true f)).trans rfl⟩
    rw [State.uncorrectable_mem]
    exact thas_tset_self ..

end Sys2Proof.Machine
end

section
/-!
PROOFS. Host accesses to HBM and the timers of the memory controllers (R298, R379 to R382, R387, R389, R392, R435).
-/
namespace Sys2Proof.Machine
open Sys2Proof

/-! ## Poison under a write (R389) -/

theorem mem_coveredBlocks {a n b : Nat} : b ∈ coveredBlocks a n ↔ a ≤ 32 * b ∧ 32 * b + 32 ≤ a + n := by
  simp only [coveredBlocks, List.mem_filter, mem_rangeFrom, decide_eq_true_eq, cdiv]
  omega

theorem thas_foldl_tdel {α : Type} (l : List Nat) (t : Tab α) (k : Nat) :
    thas (l.foldl (fun (u : Tab α) b => tdel u b) t) k = (thas t k && !decide (k ∈ l)) := by
  induction l generalizing t with
  | nil => simp
  | cons b l ih =>
    rw [List.foldl_cons, ih]
    by_cases h : b = k
    · subst h
      simp
    · simp [thas, tget_tdel_ne h, Ne.symm h]

/-! ## The courses of an access (R298) -/

section access
variable {s : State} {a : Nat}

theorem exec_hbmAccess_d3hot (h : s.mbx.pci.d3hot = true) (len : Nat) (d : Option (List Byte)) :
    exec (.hostHbmAccess a len d) s = .next (if d.isSome then s.unsupported else s.unsupported.emit .unsupported) :=
  congrArg Host.Outcome.next (if_pos h)

section d0
variable (h0 : s.mbx.pci.d3hot = false)
include h0

theorem exec_hbmRead_beyond {len : Nat} (h : s.bar4Reaches a len = false) : exec (.hostHbmAccess a len none) s = .next (s.emit .abort) :=
  congrArg Host.Outcome.next ((if_neg (by simp [h0])).trans (if_pos (by simp [h])))

theorem exec_hbmWrite_beyond {d : List Byte} (h : s.bar4Reaches a d.length = false) (len : Nat) :
    exec (.hostHbmAccess a len (some d)) s = .next s.badAccess :=
  congrArg Host.Outcome.next ((if_neg (by simp [h0])).trans (if_pos (by simp [h])))

theorem exec_hbmRead_refused {len : Nat} (h : s.bar4Reaches a len = true) (hf : firewalled.any (touches a len) = true) :
    exec (.hostHbmAccess a len none) s = .next ((s.fwViolation 22 0 a false (some 2)).emit .abort) :=
  congrArg Host.Outcome.next ((if_neg (by simp [h0])).trans ((if_neg (by simp [h])).trans (if_pos hf)))

theorem exec_hbmWrite_refused {d : List Byte} (h : s.bar4Reaches a d.length = true) (hf : firewalled.any (touches a d.length) = true)
    (len : Nat) : exec (.hostHbmAccess a len (some d)) s = .next (s.fwViolation 22 0 a true (some 2)) :=
  congrArg Host.Outcome.next ((if_neg (by simp [h0])).trans ((if_neg (by simp [h])).trans (if_pos hf)))

theorem exec_hbmRead_allowed {len : Nat} (h : s.bar4Reaches a len = true) (hf : firewalled.any (touches a len) = false) :
    exec (.hostHbmAccess a len none) s = .next (({ s with fresh := s.fresh + 1 } : State).emit (.hbmData (s.hbmBytes a len))) :=
  congrArg Host.Outcome.next ((if_neg (by simp [h0])).trans ((if_neg (by simp [h])).trans (if_neg (by simp [hf]))))

theorem exec_hbmWrite_allowed {d : List Byte} (h : s.bar4Reaches a d.length = true) (hf : firewalled.any (touches a d.length) = false)
    (len : Nat) : exec (.hostHbmAccess a len (some d)) s = .next (s.hbmWrite a d) :=
  congrArg Host.Outcome.next ((if_neg (by simp [h0])).trans ((if_neg (by simp [h])).trans (if_neg (by simp [hf]))))

end d0

end access

/-! ## What a write stores and a read answers -/

section stored
variable (s : State) (a : Nat)

theorem State.hbmWrite_stores (d : List Byte) :
    (∀ i, i < d.length → Mem.byte (s.hbmWrite a d).mem.hbm (a + i) = d.getD i 0)
      ∧ (∀ b, b < a ∨ a + d.length ≤ b → Mem.byte (s.hbmWrite a d).mem.hbm b = Mem.byte s.mem.hbm b)
      ∧ (∀ b, a ≤ 32 * b → 32 * b + 32 ≤ a + d.length → thas (s.hbmWrite a d).mem.poison b = false)
      ∧ (∀ b, 32 * b < a ∨ a + d.length < 32 * b + 32 → thas (s.hbmWrite a d).mem.poison b = thas s.mem.poison b)
      ∧ (s.hbmWrite a d).mem.scrubAt = s.mem.scrubAt ∧ (s.hbmWrite a d).mem.ceSec = s.mem.ceSec := by
  refine ⟨fun i hi => ?_, fun b hb => Mem.byte_write_out _ _ _ _ hb, fun b hl hu => ?_, fun b hb => ?_, rfl, rfl⟩
  · rw [List.getD_eq_getElem _ _ hi]
    exact Mem.byte_write_in _ _ _ _ hi
  · refine (thas_foldl_tdel ..).trans ?_
    simp [mem_coveredBlocks.2 ⟨hl, hu⟩]
  · refine (thas_foldl_tdel ..).trans ?_
    have hout : b ∉ coveredBlocks a d.length := fun hm => by
      have := mem_coveredBlocks.1 hm
      omega
    simp [hout]

theorem State.hbmBytes_length (n : Nat) : (s.hbmBytes a n).length = n := by simp [State.hbmBytes]

theorem State.hbmBytes_clean {n i : Nat} (hi : i < n) (h : s.poisoned (a + i) = false) :
    (s.hbmBytes a n).getD i 0 = Mem.byte s.mem.hbm (a + i) := by
  simp [State.hbmBytes, List.getD_eq_getElem?_getD, hi, h]

end stored

/-! ## A refused access (R392) -/

section refused
variable (s : State) (m g a : Nat) (w : Bool) (o : Option Nat)

/-- The cells that the firewall's refusal moves, besides those of the PMU. -/
def fwCells : List Nat :=
  [Reg.MEM_FAULT, Reg.MEM_FAULT_ADDR_LO, Reg.MEM_FAULT_ADDR_HI, Reg.MEM_FW_VIOLATIONS, Reg.MEM_STATUS, Reg.DEV_STATUS]

/-- The machine in which a refused request is captured and counted. -/
def State.fwCounted : State :=
  ((({ s with fresh := s.fresh + 1 } : State).captureFault m g (Config.requestId s.fresh).toNat 1 a w).bump
    Reg.MEM_FW_VIOLATIONS).sticky Reg.MEM_STATUS 0x200

theorem State.fwViolation_eq : s.fwViolation m g a w o
    = ((s.fwCounted m g a w).pmuCount 0 6 1 ⟨some m, some a, o⟩).raise 0x0012 2 m (accessDetail a w) := rfl

theorem State.fwCounted_kept : RegsKept (regOrPmu fwCells) s (s.fwCounted m g a w) := by
  refine RegsKept.trans (t := { s with fresh := s.fresh + 1 }) (.of_regs rfl) (.trans ((State.captureFault_kept ..).mono fun off h => .inl ?_)
    (.trans (.bump (.inl (by simp [fwCells]))) (.sticky (.inl (by simp [fwCells])) _)))
  simp only [regIn, fwCells, List.mem_cons, List.not_mem_nil, or_false] at h ⊢
  tauto

theorem State.fwViolation_kept : RegsKept (regOrPmu fwCells) s (s.fwViolation m g a w o) :=
  (s.fwCounted_kept m g a w).trans (.trans (.pmuCount ..) (.raise (.inl (by simp [fwCells])) ..))

theorem State.fwViolation_rd {off : Nat} (ho : off < 0x00C00000) (hd : off ≠ Reg.DEV_STATUS) :
    (s.fwViolation m g a w o).rd off = (s.fwCounted m g a w).rd off := by
  rw [State.fwViolation_eq, State.raise_rd_ne _ _ _ _ _ hd, State.pmuCount_rd_ne (.inl ho)]

theorem State.fwViolation_counts : (s.fwViolation m g a w o).rd Reg.MEM_FW_VIOLATIONS = s.rd Reg.MEM_FW_VIOLATIONS + 1 := by
  rw [State.fwViolation_rd _ _ _ _ _ _ (by decide) (by decide), State.fwCounted, State.sticky_rd_ne _ (by decide), State.bump_rd_self,
    (State.captureFault_kept ..).rd (by decide)]
  rfl

theorem State.fwViolation_flags : wbit ((s.fwViolation m g a w o).rd Reg.MEM_STATUS) 9 = true := by
  rw [State.fwViolation_rd _ _ _ _ _ _ (by decide) (by decide), State.fwCounted, State.sticky_rd_self]
  exact wbit_or_mask (by decide) _

theorem State.fwViolation_captures : (s.fwViolation m g a w o).rd Reg.MEM_FAULT_ADDR_LO = BitVec.ofNat 32 a := by
  rw [State.fwViolation_rd _ _ _ _ _ _ (by decide) (by decide), State.fwCounted, State.sticky_rd_ne _ (by decide),
    State.bump_rd_ne _ (by decide)]
  exact (State.captureFault_rd ..).1

theorem State.fwViolation_enters : Entered 0x0012 m (accessDetail a w) (s.fwViolation m g a w o) := State.raise_enters ..

end refused

/-! ## Panic (R382) -/

theorem does_panicLong {s t : State} {p : Nat} (hx : exec (.panicLongTimer p) s = .next ((t.bump Reg.MEM_PANIC_LONG).sticky Reg.MEM_STATUS 0x1000))
    (hr : t.regs = s.regs) {m : MemState} (hm : t.mem = m) :
    Does (.panicLongTimer p) s [.regs, .mem] (regIn [Reg.MEM_PANIC_LONG, Reg.MEM_STATUS]) fun u =>
      u.mem = m ∧ u.rd Reg.MEM_PANIC_LONG = s.rd Reg.MEM_PANIC_LONG + 1 := by
  refine ⟨_, hx, (execPanicLongTimer_touches p s).row hx, RegsKept.same (.trans (.of_regs hr) (.trans (.bump (by simp [regIn])) (.sticky (by simp [regIn]) _))),
    hm, ?_⟩
  rw [State.sticky_rd_ne _ (by decide), State.bump_rd_self, State.rd_congr hr]

/-- Settles O29: an access by its course, what its write stores and what its refusal leaves; then the controllers' timers. -/
theorem hbmAccess : Obligations.HbmAccess := by
  unfold Obligations.HbmAccess
  refine ⟨fun s a len d h0 h hf => ?write, fun s a n h0 h hf => ?read, fun s a n h0 h hf => ?readRefused,
    fun s a len d h0 h hf => ?writeRefused, fun s a len d h => ⟨exec_hbmAccess_d3hot h len none, exec_hbmAccess_d3hot h len (some d)⟩,
    fun s a len d h0 => ⟨fun h => exec_hbmRead_beyond h0 h, fun h => exec_hbmWrite_beyond h0 h len⟩, fun s => rfl, fun s g b => rfl,
    fun s p => rfl, fun s => ⟨fun hp hl => ?_, fun hp hl => ?_⟩⟩
  case write =>
    exact does_of_touches (exec_hbmWrite_allowed h0 h hf len) (s.hbmWrite_touches a d) (by decide) (s.hbmWrite_stores a d)
  case read =>
    refine does_of_touches (exec_hbmRead_allowed h0 h hf) ?_ (by decide) ⟨_, rfl, State.hbmBytes_length .., fun i hi hp => ?_⟩
    · exact (Touches.set_out (by decide) _).mpr ((Touches.set_fresh (by decide) _).mpr (.refl ..))
    · exact s.hbmBytes_clean a hi hp
  case readRefused =>
    have hx := exec_hbmRead_refused h0 h hf
    have ht : Touches [.regs, .log, .logSeq, .mbx, .pmu, .out, .fresh] s ((s.fwViolation 22 0 a false (some 2)).emit .abort) :=
      (Touches.set_out (by decide) _).mpr (State.fwViolation_touches ..)
    exact ⟨_, hx, ht, (s.fwViolation_kept ..).same, s.fwViolation_counts .., (s.fwViolation_enters ..).of_log rfl, s.fwViolation_flags ..,
      s.fwViolation_captures .., rfl⟩
  case writeRefused =>
    exact ⟨_, exec_hbmWrite_refused h0 h hf len, State.fwViolation_touches .., (s.fwViolation_kept ..).same, s.fwViolation_counts ..,
      s.fwViolation_enters ..⟩
  · exact does_panicLong (t := { s with mem := { s.mem with long0 := true } }) (congrArg Host.Outcome.next (if_pos (by simp [hp, hl]))) rfl rfl
  · exact does_panicLong (t := { s with mem := { s.mem with long1 := true } })
      (congrArg Host.Outcome.next ((if_neg (by simp)).trans (if_pos (by simp [hp, hl])))) rfl rfl

end Sys2Proof.Machine
end

section
/-!
PROOFS. Register-fed check units (R404 to R406, R408).
-/
namespace Sys2Proof.Machine
open Sys2Proof

/-! ## Fields of a word -/

theorem wfield_or (a b : Word) (hi lo : Nat) : wfield (a ||| b) hi lo = wfield a hi lo ||| wfield b hi lo := by
  simp only [wfield, BitVec.toNat_or, Nat.shiftRight_or_distrib, Nat.or_mod_two_pow]

theorem wfield_and (a b : Word) (hi lo : Nat) : wfield (a &&& b) hi lo = wfield a hi lo &&& wfield b hi lo := by
  simp only [wfield, BitVec.toNat_and, Nat.shiftRight_and_distrib, Nat.and_mod_two_pow]

theorem wbit_and (a b : Word) (i : Nat) : wbit (a &&& b) i = (wbit a i && wbit b i) := by simp [wbit]

/-- A field that its mask covers. -/
theorem wfield_and_of_full {m : Word} {hi lo : Nat} (h : wfield m hi lo = 2 ^ (hi - lo + 1) - 1) (w : Word) :
    wfield (w &&& m) hi lo = wfield w hi lo := by
  rw [wfield_and, h, Nat.and_two_pow_sub_one_eq_mod]
  exact Nat.mod_mod ..

theorem wfield_and_of_none {m : Word} {hi lo : Nat} (h : wfield m hi lo = 0) (w : Word) : wfield (w &&& m) hi lo = 0 := by
  rw [wfield_and, h, Nat.and_zero]

/-! ## Writes to a unit (R408) -/

section unit
variable {s : State} {u : Nat}

theorem State.chkWrite_free (hu : chkHost u = true) (hg : (s.chkOf u).granted = true) (hr : s.reaches (Reg.CHK_CONFIG u) = true)
    (f : State → State) : s.chkWrite u f = f s :=
  (if_neg (by simp [hu])).trans ((State.hostWrite_reaches hr).trans (if_pos hg))

theorem State.chkWrite_lost (hu : chkHost u = true) (hg : (s.chkOf u).granted = false) (f : State → State) :
    s.chkWrite u f = s.inD0 s.badAccess := by
  have hfree : (if (s.chkOf u).granted then f s else s.badAccess) = s.badAccess := if_neg (by simp [hg])
  refine (if_neg (by simp [hu])).trans ?_
  unfold State.inD0
  split
  · next h0 => exact State.hostWrite_d3hot h0
  · next h0 =>
    have h0 : s.mbx.pci.d3hot = false := by simpa using h0
    cases hd : s.dev.down (regDomain (Reg.CHK_CONFIG u))
    · exact (State.hostWrite_reaches (State.reaches_iff.2 ⟨h0, hd⟩)).trans hfree
    · exact State.hostWrite_down h0 hd

@[simp] theorem State.chkOf_updChk_self (s : State) (u : Nat) (f : ChkUnit → ChkUnit) : (s.updChk u f).chkOf u = f (s.chkOf u) :=
  tgetD_tset_self ..

/-- A row that changes the unit alone. -/
theorem does_updChk {i : Instr} {f : ChkUnit → ChkUnit} {P : State → Prop} (hx : exec i s = .next (s.updChk u f)) (hp : P (s.updChk u f)) :
    Does i s [.chk] noReg P :=
  does_of_touches hx (State.updChk_touches ..) (by decide) hp

/-- A row that sets a bit of the unit's status. -/
theorem does_chkSticky {i : Instr} {m : Word} (hx : exec i s = .next (s.sticky (Reg.CHK_STATUS u) m)) :
    Does i s [.regs] (regIn [Reg.CHK_STATUS u]) fun t => t.rd (Reg.CHK_STATUS u) = (s.rd (Reg.CHK_STATUS u) ||| m) :=
  ⟨_, hx, State.sticky_touches .., RegsKept.same (.sticky (List.mem_singleton_self _) _), State.sticky_rd_self ..⟩

end unit

/-! ## Presets (R404) -/

theorem chkPreset_fits {k n p i x : Nat} {r : Bool} (h : chkPreset k = some (n, p, i, r, x)) :
    n ≤ 64 ∧ p < 2 ^ n ∧ i < 2 ^ n ∧ x < 2 ^ n := by
  unfold chkPreset at h
  split at h <;> simp only [Option.some.injEq, Prod.mk.injEq, reduceCtorEq] at h
  all_goals
    obtain ⟨rfl, rfl, rfl, -, rfl⟩ := h
    decide

theorem chkPreset_none {k : Nat} (h : 9 < k) : chkPreset k = none := by
  unfold chkPreset
  split <;> first | rfl | omega

/-- A 64-bit value as its pair of registers holds it. -/
theorem pair_of_parts {v n : Nat} (hn : n ≤ 64) (hv : v < 2 ^ n) :
    ((BitVec.ofNat 32 v).toNat + 2 ^ 32 * (BitVec.ofNat 32 (v / 2 ^ 32)).toNat) % 2 ^ n = v := by
  have h64 : v < 2 ^ 64 := hv.trans_le (Nat.pow_le_pow_right (by decide) hn)
  have hparts : (BitVec.ofNat 32 v).toNat + 2 ^ 32 * (BitVec.ofNat 32 (v / 2 ^ 32)).toNat = v := by
    simp only [BitVec.toNat_ofNat]
    omega
  rw [hparts, Nat.mod_eq_of_lt hv]

/-- CHK_CONFIG after a preset: the mode of before, with a width and a reflection. -/
def presetConfig (c : Word) (n : Nat) (r : Bool) : Word := (c &&& 0xC00) ||| wnat n 6 0 ||| bitIf r 8 ||| bitIf r 9

theorem wfield_wnat_self {v hi lo : Nat} (h : v < 2 ^ (hi - lo + 1)) (hw : hi < 32) (hl : lo ≤ hi) : wfield (wnat v hi lo) hi lo = v := by
  have hlt : v <<< lo < 2 ^ 32 := by
    rw [Nat.shiftLeft_eq]
    calc v * 2 ^ lo < 2 ^ (hi - lo + 1) * 2 ^ lo := Nat.mul_lt_mul_of_pos_right h (Nat.two_pow_pos lo)
      _ = 2 ^ (hi + 1) := by rw [← Nat.pow_add]; congr 1; omega
      _ ≤ 2 ^ 32 := Nat.pow_le_pow_right (by decide) (by omega)
  rw [wfield, wnat, Nat.mod_eq_of_lt h, BitVec.toNat_ofNat, Nat.mod_eq_of_lt hlt, Nat.shiftLeft_shiftRight, Nat.mod_eq_of_lt h]

theorem wnat_low_toNat {n : Nat} (hn : n ≤ 64) : (wnat n 6 0).toNat = n := by
  simp only [wnat, BitVec.toNat_ofNat, Nat.shiftLeft_zero]
  omega

theorem presetConfig_fields {n : Nat} (hn : n ≤ 64) (c : Word) (r : Bool) :
    wfield (presetConfig c n r) 6 0 = n ∧ wbit (presetConfig c n r) 8 = r ∧ wbit (presetConfig c n r) 9 = r
      ∧ wfield (presetConfig c n r) 11 10 = wfield c 11 10 := by
  have hbit {i : Nat} (hi : 8 ≤ i) : wbit (wnat n 6 0) i = false := by
    rw [wbit, wnat_low_toNat hn]
    exact Nat.testBit_lt_two_pow (by calc n ≤ 64 := hn
      _ < 2 ^ 8 := by decide
      _ ≤ 2 ^ i := Nat.pow_le_pow_right (by decide) hi)
  have hmode : wfield (wnat n 6 0) 11 10 = 0 := by
    rw [wfield, wnat_low_toNat hn, Nat.shiftRight_eq_div_pow]
    omega
  refine ⟨?_, ?_, ?_, ?_⟩
  · rw [presetConfig, wfield_or, wfield_or, wfield_or, wfield_and_of_none (by decide), wfield_wnat_self (by omega) (by decide) (by decide)]
    cases r <;> simp [bitIf, bit1, wfield]
  · rw [presetConfig, wbit_or, wbit_or, wbit_or, wbit_and, hbit (by decide), show wbit (0xC00 : Word) 8 = false by decide, Bool.and_false]
    cases r <;> decide
  · rw [presetConfig, wbit_or, wbit_or, wbit_or, wbit_and, hbit (by decide), show wbit (0xC00 : Word) 9 = false by decide, Bool.and_false]
    cases r <;> decide
  · rw [presetConfig, wfield_or, wfield_or, wfield_or, wfield_and_of_full (by decide), hmode]
    cases r <;> simp [bitIf, bit1, wfield]

section preset
variable {s : State} {u : Nat}

/-- The machine in which a preset's values are loaded. -/
def State.presetLoaded (s : State) (u n p i x : Nat) (r : Bool) : State :=
  (((s.wr (Reg.CHK_CONFIG u) (presetConfig (s.rd (Reg.CHK_CONFIG u)) n r)).wrPair (Reg.CHK_POLY_LO u) (Reg.CHK_POLY_HI u) p).wrPair
    (Reg.CHK_INIT_LO u) (Reg.CHK_INIT_HI u) i).wrPair (Reg.CHK_XOROUT_LO u) (Reg.CHK_XOROUT_HI u) x

theorem RegsKept.wrPair {r : Nat → Prop} {lo hi : Nat} (hl : r lo) (hh : r hi) (s : State) (v : Nat) : RegsKept r s (s.wrPair lo hi v) :=
  (RegsKept.wr hl _).trans (.wr hh _)

theorem State.presetLoaded_touches (s : State) (u n p i x : Nat) (r : Bool) : Touches [.regs] s (s.presetLoaded u n p i x r) :=
  (((s.wr_touches ..).trans (State.wrPair_touches ..)).trans (State.wrPair_touches ..)).trans (State.wrPair_touches ..)

theorem State.presetLoaded_kept (s : State) (u n p i x : Nat) (r : Bool) :
    RegsKept (regIn [Reg.CHK_CONFIG u, Reg.CHK_POLY_LO u, Reg.CHK_POLY_HI u, Reg.CHK_INIT_LO u, Reg.CHK_INIT_HI u, Reg.CHK_XOROUT_LO u,
      Reg.CHK_XOROUT_HI u]) s (s.presetLoaded u n p i x r) :=
  (RegsKept.wr (by simp [regIn]) _).trans ((RegsKept.wrPair (by simp [regIn]) (by simp [regIn]) _ _).trans
    ((RegsKept.wrPair (by simp [regIn]) (by simp [regIn]) _ _).trans (.wrPair (by simp [regIn]) (by simp [regIn]) _ _)))

theorem State.presetLoaded_config {n p i x : Nat} (hn : n ≤ 64) (hp : p < 2 ^ n) (hi : i < 2 ^ n) (hx : x < 2 ^ n) (s : State) (u : Nat)
    (r : Bool) : (s.presetLoaded u n p i x r).chkConfig u
      = { width := n, refin := r, refout := r, mode := (s.chkConfig u).mode, poly := p, init := i, xorout := x } := by
  let t := s.presetLoaded u n p i x r
  obtain ⟨hwidth, hin, hout, hmode⟩ := presetConfig_fields hn (s.rd (Reg.CHK_CONFIG u)) r
  have hc : t.rd (Reg.CHK_CONFIG u) = presetConfig (s.rd (Reg.CHK_CONFIG u)) n r := by
    simp [t, State.presetLoaded, State.wrPair, State.rd_wr, Reg.CHK_CONFIG, Reg.CHK_POLY_LO, Reg.CHK_POLY_HI, Reg.CHK_INIT_LO,
      Reg.CHK_INIT_HI, Reg.CHK_XOROUT_LO, Reg.CHK_XOROUT_HI]
  have hpl : t.rd (Reg.CHK_POLY_LO u) = BitVec.ofNat 32 p ∧ t.rd (Reg.CHK_POLY_HI u) = BitVec.ofNat 32 (p / 2 ^ 32) := by
    simp [t, State.presetLoaded, State.wrPair, State.rd_wr, Reg.CHK_POLY_LO, Reg.CHK_POLY_HI, Reg.CHK_INIT_LO, Reg.CHK_INIT_HI,
      Reg.CHK_XOROUT_LO, Reg.CHK_XOROUT_HI]
  have hil : t.rd (Reg.CHK_INIT_LO u) = BitVec.ofNat 32 i ∧ t.rd (Reg.CHK_INIT_HI u) = BitVec.ofNat 32 (i / 2 ^ 32) := by
    simp [t, State.presetLoaded, State.wrPair, State.rd_wr, Reg.CHK_INIT_LO, Reg.CHK_INIT_HI, Reg.CHK_XOROUT_LO, Reg.CHK_XOROUT_HI]
  have hxl : t.rd (Reg.CHK_XOROUT_LO u) = BitVec.ofNat 32 x ∧ t.rd (Reg.CHK_XOROUT_HI u) = BitVec.ofNat 32 (x / 2 ^ 32) := by
    simp [t, State.presetLoaded, State.wrPair, State.rd_wr, Reg.CHK_XOROUT_LO, Reg.CHK_XOROUT_HI]
  show t.chkConfig u = _
  unfold State.chkConfig
  dsimp only
  rw [hc, hpl.1, hpl.2, hil.1, hil.2, hxl.1, hxl.2, hwidth, hin, hout, hmode]
  simp only [pair_of_parts hn hp, pair_of_parts hn hi, pair_of_parts hn hx]

end preset

/-! ## The rows -/

section rows
variable {s : State} {u : Nat} (hu : chkHost u = true) (hg : (s.chkOf u).granted = true) (hr : s.reaches (Reg.CHK_CONFIG u) = true)
include hu hg hr

theorem does_chkPreset {n p i x : Nat} {r : Bool} {w : Word} (hw : chkPreset (wfield w 3 0) = some (n, p, i, r, x)) :
    Does (.chkPreset u w) s [.regs] (regIn [Reg.CHK_CONFIG u, Reg.CHK_POLY_LO u, Reg.CHK_POLY_HI u, Reg.CHK_INIT_LO u,
        Reg.CHK_INIT_HI u, Reg.CHK_XOROUT_LO u, Reg.CHK_XOROUT_HI u]) fun t =>
      t.chkConfig u = { width := n, refin := r, refout := r, mode := (s.chkConfig u).mode, poly := p, init := i, xorout := x } := by
  obtain ⟨hn, hp, hi, hx⟩ := chkPreset_fits hw
  have hrow : exec (.chkPreset u w) s = .next (s.presetLoaded u n p i x r) := by
    show Host.Outcome.next (s.chkWrite u _) = _
    rw [State.chkWrite_free hu hg hr, hw]
    rfl
  exact ⟨_, hrow, State.presetLoaded_touches .., (State.presetLoaded_kept ..).same, State.presetLoaded_config hn hp hi hx s u r⟩

theorem does_chkPreset_unknown {w : Word} (hw : 9 < wfield w 3 0) :
    Does (.chkPreset u w) s [.regs] (regIn [Reg.CHK_STATUS u]) fun t => t.rd (Reg.CHK_STATUS u) = (s.rd (Reg.CHK_STATUS u) ||| 0x100) := by
  refine does_chkSticky ?_
  show Host.Outcome.next (s.chkWrite u _) = _
  rw [State.chkWrite_free hu hg hr, chkPreset_none hw]

section fed
variable (hscan : chkScan u = false)
include hscan

theorem exec_chkInit : exec (.chkInit u) s = .next (if (s.chkConfig u).bad false 0 then s.sticky (Reg.CHK_STATUS u) 0x100
    else s.updChk u (·.begin_ (s.chkConfig u))) := by
  show Host.Outcome.next (s.chkWrite u _) = _
  rw [State.chkWrite_free hu hg hr, if_neg (by simp [hscan])]

theorem State.chkFeed_free {c : ChkCfg} (hl : (s.chkOf u).latched = some c) (hd : (s.chkOf u).done = false) (b : List Byte) :
    s.chkFeed u b = s.updChk u fun x => { x with
      bytes := x.bytes ++ b, value := c.value (x.bytes ++ b), length := x.length + b.length } := by
  unfold State.chkFeed
  rw [State.chkWrite_free hu hg hr, hl]
  exact if_neg (by simp [hscan, hd])

/-- A feed, whatever the width of its write. -/
theorem does_chkFeed {i : Instr} {b : List Byte} (hx : exec i s = .next (s.chkFeed u b)) {c : ChkCfg} (hl : (s.chkOf u).latched = some c)
    (hd : (s.chkOf u).done = false) : Does i s [.chk] noReg fun t => t.chkOf u = { s.chkOf u with
      bytes := (s.chkOf u).bytes ++ b, value := c.value ((s.chkOf u).bytes ++ b), length := (s.chkOf u).length + b.length } := by
  rw [State.chkFeed_free hu hg hr hscan hl hd] at hx
  exact does_updChk hx (State.chkOf_updChk_self ..)

theorem exec_chkFinish {c : ChkCfg} (hl : (s.chkOf u).latched = some c) (hd : (s.chkOf u).done = false) :
    exec (.chkFinish u) s = .next (if c.mode == 2 && decide ((s.chkOf u).bytes.length < c.width / 8)
      then s.sticky (Reg.CHK_STATUS u) 0x100 else s.updChk u fun x => x.finish c x.bytes) := by
  show Host.Outcome.next (s.chkWrite u _) = _
  rw [State.chkWrite_free hu hg hr, hl]
  exact congrArg Host.Outcome.next (if_neg (by simp [hscan, hd]))

end fed

end rows

theorem ChkUnit.finish_checked {c : ChkCfg} (h : c.mode = 2) (x : ChkUnit) (b : List Byte) :
    let m := b.length - c.width / 8
    (x.finish c b).done = true ∧ (x.finish c b).busy = false ∧ (x.finish c b).length = m
      ∧ (x.finish c b).pass = decide (b.drop m = c.bytes (c.value (b.take m))) ∧ (x.finish c b).fail = !(x.finish c b).pass := by
  unfold ChkUnit.finish
  rw [if_pos h]
  exact ⟨rfl, rfl, rfl, Bool.eq_iff_iff.2 (by simp), rfl⟩

theorem ChkUnit.finish_plain {c : ChkCfg} (h : c.mode ≠ 2) (x : ChkUnit) (b : List Byte) :
    x.finish c b = { x with busy := false, done := true, value := c.value b, length := b.length } := if_neg h

/-- Settles O19: what a granted unit's rows do, the feeds once for all widths, and the loss of a write to one that is not granted. -/
theorem checkUnits : Obligations.CheckUnits := by
  unfold Obligations.CheckUnits
  intro free fed
  have hhost {u : Nat} (hu : u = 2 ∨ u = 3 ∨ u = 7) : chkHost u = true := by rcases hu with rfl | rfl | rfl <;> rfl
  have hfed {u : Nat} (hu : u = 2 ∨ u = 3) : chkHost u = true ∧ chkScan u = false := by rcases hu with rfl | rfl <;> exact ⟨rfl, rfl⟩
  refine ⟨fun s u n p i x r w hu ⟨hg, hr⟩ hw => does_chkPreset (hhost hu) hg hr hw,
    fun s u w hu ⟨hg, hr⟩ hw => does_chkPreset_unknown (hhost hu) hg hr hw, fun s u hu ⟨hg, hr⟩ => ?init,
    fun s u w hu ⟨hg, hr⟩ => ?feed, fun s u c hu ⟨hg, hr⟩ hl hd => ?finish, fun s u w hu hg => ?lost⟩
  case init =>
    obtain ⟨hh, hscan⟩ := hfed hu
    have hx := exec_chkInit hh hg hr hscan
    refine ⟨fun hb => ?_, fun hb => ?_⟩
    · rw [if_neg (by simp [hb])] at hx
      refine does_updChk hx ?_
      rw [State.chkOf_updChk_self]
      exact ⟨rfl, rfl, rfl, rfl, rfl, rfl, rfl⟩
    · rw [if_pos hb] at hx
      exact does_chkSticky hx
  case feed =>
    obtain ⟨hh, hscan⟩ := hfed hu
    refine ⟨fun c hl hd => does_chkFeed hh hg hr hscan rfl hl hd, fun c hl hd => does_chkFeed hh hg hr hscan rfl hl hd,
      fun c hl hd => does_chkFeed hh hg hr hscan ?_ hl hd, fun h c hl hd => does_chkFeed hh hg hr hscan rfl hl hd⟩
    exact congrArg (fun b => Host.Outcome.next (s.chkFeed u b)) (List.append_nil _)
  case finish =>
    obtain ⟨hh, hscan⟩ := hfed hu
    have hx := exec_chkFinish hh hg hr hscan hl hd
    refine ⟨fun hm => ?_, fun hm hlen => ?_, fun hm hlen => ?_⟩
    · rw [if_neg (by simp [hm])] at hx
      refine does_updChk hx ?_
      rw [State.chkOf_updChk_self, ChkUnit.finish_plain hm]
      exact ⟨rfl, rfl, rfl⟩
    · rw [if_neg (by simp [hlen])] at hx
      refine does_updChk hx ?_
      rw [State.chkOf_updChk_self]
      obtain ⟨hdone, -, hlength, hpass, hfail⟩ := ChkUnit.finish_checked hm (s.chkOf u) (s.chkOf u).bytes
      exact ⟨hdone, hlength, hpass, hfail⟩
    · rw [if_pos (by simp [hm, hlen])] at hx
      exact does_chkSticky hx
  case lost =>
    have hlost (f : State → State) : Host.Outcome.next (s.chkWrite u f) = (.next (s.inD0 s.badAccess) : Host.Outcome State Fault Refusal) :=
      congrArg _ (State.chkWrite_lost (hhost hu) hg f)
    exact ⟨hlost _, hlost _, hlost _, hlost _, fun h => hlost _, hlost _, hlost _, hlost _, s.badAccess_rd_count⟩

end Sys2Proof.Machine
end

section
/-!
PROOFS. The scan unit CU7 (R377, R405 to R407).
-/
namespace Sys2Proof.Machine
open Sys2Proof

/-! ## What is read back of a write -/

theorem Mem.read_write_self (m : Mem) (a : Nat) (b : List Byte) : Mem.read (Mem.write m a b) a b.length = b := by
  refine List.ext_getElem (by simp) fun i h _ => ?_
  have hi : i < b.length := by simpa using h
  simp only [Mem.read, List.getElem_map, List.getElem_range]
  exact Mem.byte_write_in m a b i hi

/-! ## Start and abort -/

section start
variable {s : State} (hg : (s.chkOf 7).granted = true) (hr : s.reaches (Reg.CHK_CONFIG 7) = true)
include hg hr

theorem exec_chkStart : exec (.chkStart 7) s = .next (
    if (s.chkOf 7).busy then s.sticky (Reg.CHK_STATUS 7) 0x1000
    else if (s.chkConfig 7).bad true (s.rd (Reg.CHK_SCAN_LEN 7)).toNat then s.sticky (Reg.CHK_STATUS 7) 0x100
    else s.updChk 7 fun x => { x.begin_ (s.chkConfig 7) with
      busy := true, scanLen := (s.rd (Reg.CHK_SCAN_LEN 7)).toNat
      scanAt := s.rangeAddr (Reg.CHK_SCAN_ADDR_LO 7) (Reg.CHK_SCAN_ADDR_HI 7) }) := by
  show Host.Outcome.next (s.chkWrite 7 _) = _
  rw [State.chkWrite_free rfl hg hr]
  rfl

theorem exec_chkAbort (hb : (s.chkOf 7).busy = true) : exec (.chkAbort 7) s
    = .next (s.chkStop 7 (Config.scanProgress s.fresh % ((s.chkOf 7).scanLen + 1)) 0x800) := by
  show Host.Outcome.next (s.chkWrite 7 _) = _
  rw [State.chkWrite_free rfl hg hr]
  exact congrArg Host.Outcome.next (if_pos (by simp [hb, chkScan]))

end start

/-! ## A scan that stops early (R407) -/

section stop
variable (s : State) (n : Nat) (m : Word)

/-- What a scan that stops after `n` bytes leaves of its unit. -/
def ScanStopped (s : State) (n : Nat) (t : State) : Prop :=
  (t.chkOf 7).busy = false ∧ (t.chkOf 7).done = true ∧ (t.chkOf 7).length = n ∧ (t.chkOf 7).pass = (s.chkOf 7).pass
    ∧ (t.chkOf 7).fail = (s.chkOf 7).fail

/-- The machine in which a scan has stopped after `n` bytes with the value `v`. -/
def State.scanHalted (v : Nat) : State :=
  ({ s with fresh := s.fresh + 1 } : State).updChk 7 fun x => { x with busy := false, done := true, length := n, value := v }

theorem State.chkStop_eq : ∃ v, s.chkStop 7 n m = (s.scanHalted n v).sticky (Reg.CHK_STATUS 7) m := ⟨_, rfl⟩

theorem State.chkStop_stopped : ScanStopped s n (s.chkStop 7 n m) := by
  obtain ⟨v, hv⟩ := s.chkStop_eq n m
  have hchk : (s.chkStop 7 n m).chkOf 7 = { s.chkOf 7 with busy := false, done := true, length := n, value := v } := by
    rw [hv]
    show (s.scanHalted n v).chkOf 7 = _
    rw [State.scanHalted, State.chkOf_updChk_self]
    rfl
  unfold ScanStopped
  rw [hchk]
  exact ⟨rfl, rfl, rfl, rfl, rfl⟩

theorem State.chkStop_kept : RegsKept (regIn [Reg.CHK_STATUS 7]) s (s.chkStop 7 n m) := by
  obtain ⟨v, hv⟩ := s.chkStop_eq n m
  rw [hv]
  exact .trans (t := s.scanHalted n v) (.of_regs rfl) (.sticky (List.mem_singleton_self _) _)

theorem State.chkStop_rd_status : (s.chkStop 7 n m).rd (Reg.CHK_STATUS 7) = s.rd (Reg.CHK_STATUS 7) ||| m := State.sticky_rd_self ..

theorem ScanStopped.of_chk {s t u : State} {n : Nat} (h : ScanStopped s n t) (hu : u.chk = t.chk) : ScanStopped s n u := by
  have hof : u.chkOf 7 = t.chkOf 7 := congrArg (fun c : Tab ChkUnit => tgetD c 7 {}) hu
  unfold ScanStopped
  rw [hof]
  exact h

end stop

/-! ## A refused read (R377, R392) -/

section refused
variable (s : State) (a : Nat)

/-- The machine in which a request without a target is captured and counted. -/
def State.defaultCounted (m g : Nat) (w : Bool) : State :=
  ((({ s with fresh := s.fresh + 1 } : State).captureFault m g (Config.requestId s.fresh).toNat 2 a w).bump
    Reg.MEM_DECODE_ERRORS).sticky Reg.MEM_STATUS 0x400

theorem State.decodeError_eq (m g : Nat) (w : Bool) :
    s.decodeError m g a w = (s.defaultCounted a m g w).raise 0x0013 2 m (accessDetail a w) := rfl

theorem State.decodeError_kept (m g : Nat) (w : Bool) : RegsKept (regIn [Reg.MEM_FAULT_ADDR_LO, Reg.MEM_FAULT_ADDR_HI, Reg.MEM_FAULT,
    Reg.MEM_DECODE_ERRORS, Reg.MEM_STATUS, Reg.DEV_STATUS]) s (s.decodeError m g a w) := by
  refine RegsKept.trans (t := { s with fresh := s.fresh + 1 }) (.of_regs rfl) (.trans ((State.captureFault_kept ..).mono fun off h => ?_)
    (.trans (.bump (by simp [regIn])) (.trans (.sticky (by simp [regIn]) _) (.raise (by simp [regIn]) ..))))
  simp only [regIn, List.mem_cons, List.not_mem_nil, or_false] at h ⊢
  tauto

theorem State.decodeError_counts (m g : Nat) (w : Bool) :
    (s.decodeError m g a w).rd Reg.MEM_DECODE_ERRORS = s.rd Reg.MEM_DECODE_ERRORS + 1 := by
  rw [State.decodeError_eq, State.raise_rd_ne _ _ _ _ _ (by decide), State.defaultCounted, State.sticky_rd_ne _ (by decide),
    State.bump_rd_self, (State.captureFault_kept ..).rd (by decide)]
  rfl

theorem State.refusedRead_rd_status : (s.refusedRead a).rd (Reg.CHK_STATUS 7) = s.rd (Reg.CHK_STATUS 7) := by
  unfold State.refusedRead
  split
  · exact (s.decodeError_kept ..).rd (by decide)
  · exact (s.fwViolation_kept ..).same _ (by rintro (h | h); exacts [absurd h (by decide), absurd h (by decide)])

theorem State.refusedRead_counts :
    (unmapped a = true → (s.refusedRead a).rd Reg.MEM_DECODE_ERRORS = s.rd Reg.MEM_DECODE_ERRORS + 1)
      ∧ (unmapped a = false → (s.refusedRead a).rd Reg.MEM_FW_VIOLATIONS = s.rd Reg.MEM_FW_VIOLATIONS + 1) := by
  refine ⟨fun h => ?_, fun h => ?_⟩
  · rw [State.refusedRead, if_pos h]
    exact s.decodeError_counts ..
  · rw [State.refusedRead, if_neg (by simp [h])]
    exact s.fwViolation_counts ..

end refused

/-! ## The end of a scan (R405 to R407) -/

section ends
variable {s : State} {c : ChkCfg} (hl : (s.chkOf 7).latched = some c) (hb : (s.chkOf 7).busy = true)
include hl hb

/-- The machine in which the scan's bytes are all in. -/
def State.scanDone (s : State) (c : ChkCfg) : State :=
  ({ s with fresh := s.fresh + 1 } : State).updChk 7 fun x => x.finish c (s.fabricBytes (s.chkOf 7).scanAt (s.chkOf 7).scanLen)

theorem exec_chkScanEnd_none (he : s.scanEnd (s.chkOf 7).scanAt (s.chkOf 7).scanLen = none) : exec (.chkScanEnd 7 false) s
    = .next (if c.mode = 1 then (s.scanDone c).chkAppend ((s.chkOf 7).scanAt + (s.chkOf 7).scanLen)
        (c.bytes (c.value (s.fabricBytes (s.chkOf 7).scanAt (s.chkOf 7).scanLen))) else s.scanDone c) := by
  show execChkScanEnd 7 false s = _
  simp only [execChkScanEnd, hl, hb, he]
  rfl

theorem exec_chkScanEnd_poison {n : Nat} (he : s.scanEnd (s.chkOf 7).scanAt (s.chkOf 7).scanLen = some (n, false)) :
    exec (.chkScanEnd 7 true) s = .next (s.chkStop 7 n 0x400) := by
  show execChkScanEnd 7 true s = _
  simp only [execChkScanEnd, hl, hb, he]
  rfl

theorem exec_chkScanEnd_refused {n : Nat} (he : s.scanEnd (s.chkOf 7).scanAt (s.chkOf 7).scanLen = some (n, true)) :
    exec (.chkScanEnd 7 true) s = .next ((s.chkStop 7 n 0x200).refusedRead ((s.chkOf 7).scanAt + n)) := by
  show execChkScanEnd 7 true s = _
  simp only [execChkScanEnd, hl, hb, he]
  rfl

/-- A command that names the end the scan does not have. -/
theorem gives_chkScanEnd_other :
    Gives (.chkScanEnd 7 (s.scanEnd (s.chkOf 7).scanAt (s.chkOf 7).scanLen).isNone) s s := by
  show execChkScanEnd 7 _ s = _
  simp only [execChkScanEnd, hl, hb]
  rcases s.scanEnd (s.chkOf 7).scanAt (s.chkOf 7).scanLen with _ | ⟨n, _ | _⟩ <;> rfl

end ends

theorem State.scanDone_touches (s : State) (c : ChkCfg) : Touches [.chk, .fresh] s (s.scanDone c) :=
  (Touches.mono (m := [.chk, .fresh]) ((Touches.set_fresh (t := s) (l := [.fresh]) (by decide) _).mpr (.refl ..)) (by decide)).then
    (State.updChk_touches ..) (by decide)

theorem State.scanDone_chk (s : State) (c : ChkCfg) :
    (s.scanDone c).chkOf 7 = (s.chkOf 7).finish c (s.fabricBytes (s.chkOf 7).scanAt (s.chkOf 7).scanLen) :=
  State.chkOf_updChk_self ..

/-- Settles O20: start and abort by the state of the unit, and a scan's end by what its range meets first. -/
theorem scanUnit : Obligations.ScanUnit := by
  unfold Obligations.ScanUnit
  intro free len
  refine ⟨fun s ⟨hg, hr⟩ hb hbad => ?start, fun s ⟨hg, hr⟩ h => ?rejected, fun s ⟨hg, hr⟩ hb => ?abort, fun s c hl hb => ?ends⟩
  case start =>
    have hx := exec_chkStart hg hr
    rw [if_neg (by simp [hb]), if_neg (by simpa using hbad)] at hx
    refine does_updChk hx ?_
    rw [State.chkOf_updChk_self]
    exact ⟨rfl, rfl, rfl, rfl, rfl⟩
  case rejected =>
    have hx := exec_chkStart hg hr
    cases hb : (s.chkOf 7).busy
    · rw [if_neg (by simp [hb]), if_pos (by simpa [hb] using h)] at hx
      exact does_chkSticky hx
    · rw [if_pos hb] at hx
      exact does_chkSticky hx
  case abort =>
    have hx := exec_chkAbort hg hr hb
    obtain ⟨hbusy, hdone, hlen, hpass, hfail⟩ := s.chkStop_stopped (Config.scanProgress s.fresh % ((s.chkOf 7).scanLen + 1)) 0x800
    refine ⟨_, hx, State.chkStop_touches .., (s.chkStop_kept ..).same, hbusy, hdone, ?_, hpass, hfail,
      s.chkStop_rd_status ..⟩
    rw [hlen]
    exact Nat.lt_succ_iff.1 (Nat.mod_lt _ (Nat.succ_pos _))
  case ends =>
    intro b m e
    refine ⟨gives_chkScanEnd_other hl hb, fun he hm => ?plain, fun he hm => ?check, fun he hm hle hf => ?append, fun n he => ?poison,
      fun n he => ?refused⟩
    case plain =>
      have hx := exec_chkScanEnd_none hl hb he
      rw [if_neg (by simp [hm])] at hx
      refine does_of_touches hx (s.scanDone_touches c) (by decide) ?_
      rw [State.scanDone_chk, ChkUnit.finish_plain (by simp [hm])]
      exact ⟨rfl, rfl, rfl, rfl⟩
    case check =>
      have hx := exec_chkScanEnd_none hl hb he
      rw [if_neg (by simp [hm])] at hx
      refine does_of_touches hx (s.scanDone_touches c) (by decide) ?_
      rw [State.scanDone_chk]
      exact ChkUnit.finish_checked hm ..
    case append =>
      have hx := exec_chkScanEnd_none hl hb he
      have happend : (s.scanDone c).chkAppend e (c.bytes (c.value b)) = (s.scanDone c).hbmWrite e (c.bytes (c.value b)) :=
        (if_neg (by simp [hf])).trans (if_pos hle)
      rw [if_pos hm, happend] at hx
      refine does_of_touches hx (((s.scanDone_touches c).mono (by decide)).then (State.hbmWrite_touches ..) (by decide)) (by decide) ?_
      have hchk : ((s.scanDone c).hbmWrite e (c.bytes (c.value b))).chkOf 7 = (s.chkOf 7).finish c b := s.scanDone_chk c
      rw [hchk, ChkUnit.finish_plain (by simp [hm])]
      exact ⟨rfl, rfl, Mem.read_write_self .., fun a ha => Mem.byte_write_out _ _ _ _ ha⟩
    case poison =>
      have hx := exec_chkScanEnd_poison hl hb he
      obtain ⟨hbusy, hdone, hlen, -, -⟩ := s.chkStop_stopped n 0x400
      exact ⟨_, hx, State.chkStop_touches .., (s.chkStop_kept ..).same, hdone, hbusy, hlen, s.chkStop_rd_status ..⟩
    case refused =>
      have hx := exec_chkScanEnd_refused hl hb he
      have hread := (s.chkStop 7 n 0x200).refusedRead_touches ((s.chkOf 7).scanAt + n)
      obtain ⟨hbusy, hdone, hlen, -, -⟩ := (s.chkStop_stopped n 0x200).of_chk (hread.same .chk (by decide))
      obtain ⟨hdecode, hfw⟩ := (s.chkStop 7 n 0x200).refusedRead_counts ((s.chkOf 7).scanAt + n)
      refine ⟨_, hx, ((State.chkStop_touches ..).mono (by decide)).then hread (by decide), fun off h => absurd trivial h, hdone, hbusy, hlen,
        ?_, fun h => ?_, fun h => ?_⟩
      · rw [State.refusedRead_rd_status, State.chkStop_rd_status]
      · rw [hdecode h, (s.chkStop_kept ..).rd (by decide)]
      · rw [hfw h, (s.chkStop_kept ..).rd (by decide)]

end Sys2Proof.Machine
end

section
/-!
PROOFS. Power-on and chip resets (R424, R425, Table 20-4).
-/
namespace Sys2Proof.Machine
open Sys2Proof

section reset
variable (s : State) (kind : Nat)

theorem State.bare_rd (off : Nat) : (s.bare kind).rd off = Reg.reset off := rfl

theorem State.bare_cleared : Cleared kind (s.bare kind) := ⟨rfl, rfl, rfl, rfl, rfl, rfl, rfl, rfl, rfl⟩

theorem State.chipReset_cleared : Cleared kind (s.chipReset kind) := s.bare_cleared kind

theorem State.chipReset_rd (off : Nat) :
    (s.chipReset kind).rd off = if off = Reg.PWR_RESET_CAUSE then s.rd off else Reg.reset off := by
  unfold State.chipReset
  rw [State.rd_wr]
  by_cases h : Reg.PWR_RESET_CAUSE = off
  · rw [if_pos h, if_pos h.symm, h]
  · rw [if_neg h, if_neg (Ne.symm h)]
    exact s.bare_rd kind off

/-- Every field but the outputs, the counter of free values and the queue may differ after a reset. -/
theorem touches_resetFlds {s t : State} (ho : t.out = s.out) (hf : t.fresh = s.fresh) (hp : t.pending = s.pending) :
    Touches resetFlds s t :=
  ⟨fun f h => by
    cases f with
    | out => exact ho
    | fresh => exact hf
    | pending => exact hp
    | _ => exact absurd (by decide) h⟩

theorem does_reset {i : Instr} {s t : State} {P : State → Prop} (hx : exec i s = .next t) (ho : t.out = s.out) (hf : t.fresh = s.fresh)
    (hp : t.pending = s.pending) (h : P t) : Does i s resetFlds anyReg P :=
  ⟨t, hx, touches_resetFlds ho hf hp, fun _ hn => absurd trivial hn, h⟩

end reset

/-- Settles O7: the five resets through the two states they build on, the bare one and that of a chip reset. -/
theorem chipResets : Obligations.ChipResets := by
  unfold Obligations.ChipResets
  refine ⟨fun s => ?_, fun s => ?_, fun s rail mv => ?_, fun s h => ?_, fun s ht hr => ?_⟩
  · exact does_reset rfl rfl rfl rfl ⟨s.bare_cleared 0, s.bare_rd 0, rfl, rfl, rfl, rfl, rfl⟩
  · exact does_reset rfl rfl rfl rfl ⟨s.chipReset_cleared 1, s.chipReset_rd 1, rfl, rfl, rfl, rfl, rfl, rfl⟩
  · refine does_reset rfl rfl rfl rfl ⟨s.chipReset_cleared 2, fun off => ?_, rfl, rfl⟩
    rw [State.rd_wr]
    by_cases h : Reg.PWR_RESET_CAUSE = off
    · rw [if_pos h, if_pos h.symm]
    · rw [if_neg h, if_neg (Ne.symm h), State.chipReset_rd, if_neg (Ne.symm h)]
  · have hx : exec .lifecycleResetTimer s = .next (s.chipReset 1) := congrArg Host.Outcome.next (if_pos h)
    exact does_reset hx rfl rfl rfl ⟨s.chipReset_cleared 1, (s.chipReset_rd 1 _).trans (if_pos rfl), rfl⟩
  · let d : DevBlock := { (s.chipReset 1).dev with nvm := { s.dev.nvm with prefer := some (1 - s.dev.booted), trial := false } }
    have hx : exec .trialTimeout s = .next (State.sticky { s.chipReset 1 with dev := d } Reg.DEV_BOOT_STATUS 0x1000000) :=
      congrArg Host.Outcome.next (if_pos (by simp [ht, hr]))
    refine does_reset hx rfl rfl rfl ⟨s.chipReset_cleared 1, rfl, ?_⟩
    rw [State.sticky_rd_self]
    exact wbit_or_mask (i := 24) (by decide) _

end Sys2Proof.Machine
end

section
/-!
PROOFS. The boot: the image chosen and the boot test (R279, R431 to R438).
-/
namespace Sys2Proof.Machine
open Sys2Proof

/-! ## The boot test (R436 to R438, R447) -/

section bootTest
variable (s : State) (failed : List Nat) (core : Bool)

/-- The blocks that the boot test finds failed. -/
def State.bootBad : List Nat := (s.bootBlocks s.fullBistDue).filter fun b => failed.contains b

/-- The boot test stops the boot. -/
def State.bootStops : Bool := core || (s.bootBad failed).any fun b => decide (40 ≤ b)

/-- The machine whose failed engines and pipelines are marked. -/
def State.badMarked : State := (s.bootBad failed).foldl (fun (t : State) b => { t with eng := t.eng.markBlock b }) s

/-- What the boot test makes of the device. -/
def State.bootDev : DevBlock :=
  { (if s.fullBistDue && (s.bootBad failed).isEmpty && !core then s.dev.writeRecord allBlocks 0 true 1 else s.dev) with
    fullBist := s.fullBistDue, bootFail := s.bootStops failed core
    phase := if s.bootStops failed core then .failed else .booted }

theorem State.badMarked_dev : (s.badMarked failed).dev = s.dev := by
  refine foldl_keep (fun t : State => t.dev) (fun _ _ => ?_) _ _
  rfl

theorem State.badMarked_regs : (s.badMarked failed).regs = s.regs := by
  refine foldl_keep (fun t : State => t.regs) (fun _ _ => ?_) _ _
  rfl

theorem State.bootTest_eq : s.bootTest failed core =
    let u : State := { s.badMarked failed with dev := s.bootDev failed core }
    if (s.bootBad failed).isEmpty then u
    else u.raise 0x0082 2 0xFF ((s.bootBlocks s.fullBistDue).length + 2 ^ 16 * (s.bootBad failed).length) := by
  unfold State.bootDev
  rw [← s.badMarked_dev failed]
  rfl

theorem State.bootTest_dev : (s.bootTest failed core).dev = s.bootDev failed core := by
  rw [State.bootTest_eq]
  dsimp only
  split
  · rfl
  · exact State.raise_dev ..

theorem State.bootTest_kept : RegsKept (regIn [Reg.DEV_STATUS]) s (s.bootTest failed core) := by
  have hu : RegsKept (regIn [Reg.DEV_STATUS]) s { s.badMarked failed with dev := s.bootDev failed core } :=
    .of_regs (s.badMarked_regs failed)
  rw [State.bootTest_eq]
  dsimp only
  split
  · exact hu
  · exact hu.trans (.raise (List.mem_singleton_self _) ..)

theorem State.bootTest_kept_clean (h : s.bootBad failed = []) : (s.bootTest failed core).regs = s.regs := by
  rw [State.bootTest_eq, h]
  exact s.badMarked_regs failed

/-- What the boot test keeps of the device. -/
theorem State.bootDev_keeps : (s.bootDev failed core).booted = s.dev.booted ∧ (s.bootDev failed core).trial = s.dev.trial
    ∧ (s.bootDev failed core).aBad = s.dev.aBad ∧ (s.bootDev failed core).bBad = s.dev.bBad
    ∧ (s.bootDev failed core).nvm.imageA = s.dev.nvm.imageA ∧ (s.bootDev failed core).nvm.imageB = s.dev.nvm.imageB := by
  unfold State.bootDev
  split <;> exact ⟨rfl, rfl, rfl, rfl, rfl, rfl⟩

end bootTest

/-! ## The release of reset (R279, R431, R433) -/

section release
variable (s : State) (mgr : Bool)

/-- The machine that has sampled MGR_SEL and looked at its images, its lanes transmitting. -/
def State.sampled : State :=
  (rangeFrom 16 10).foldl (fun (t : State) l => t.updLane l fun x => { x with enabled := true }) { s with
    rat := { s.rat with manager := mgr, addr := if mgr then 1 else 0 }
    dev := { s.dev with
      aBad := !(s.dev.nvm.imageA.valid s.dev.nvm.floor), bBad := !(s.dev.nvm.imageB.valid s.dev.nvm.floor) } }

/-- The machine that boots image `i`, before it is tested. -/
def State.loads (i : Nat) : State :=
  { s with
    dev := { s.dev with booted := i, trial := s.dev.nvm.trial && s.dev.nvm.prefer == some i }.readFlash
    mem := { s.mem with
      hbm := s.mem.hbm.filter fun (e : Nat × Byte) => !(systemArea e.1)
      poison := s.mem.poison.filter fun (e : Nat × Unit) => !(systemArea (32 * e.1)) } }

theorem State.sampled_dev : (s.sampled mgr).dev = { s.dev with
    aBad := !(s.dev.nvm.imageA.valid s.dev.nvm.floor), bBad := !(s.dev.nvm.imageB.valid s.dev.nvm.floor) } := by
  refine (foldl_keep (fun t : State => t.dev) (fun _ _ => ?_) _ _).trans rfl
  rfl

theorem State.sampled_rat : (s.sampled mgr).rat = { s.rat with manager := mgr, addr := if mgr then 1 else 0 } := by
  refine (foldl_keep (fun t : State => t.rat) (fun _ _ => ?_) _ _).trans rfl
  rfl

theorem State.sampled_regs : (s.sampled mgr).regs = s.regs := by
  refine (foldl_keep (fun t : State => t.regs) (fun _ _ => ?_) _ _).trans rfl
  rfl

variable {s}

theorem exec_resetRelease_none (h : s.dev.phase = .held) (hc : s.dev.nvm.choose = none) (failed : List Nat) (core : Bool) :
    exec (.resetRelease mgr failed core) s
      = .next { s.sampled mgr with dev := { (s.sampled mgr).dev with phase := .recovery, booted := 2 } } := by
  show execResetRelease mgr failed core s = _
  unfold execResetRelease
  rw [if_neg (by simp [h])]
  simp only [hc]
  rfl

theorem exec_resetRelease_some (h : s.dev.phase = .held) {i : Nat} (hc : s.dev.nvm.choose = some i) (failed : List Nat) (core : Bool) :
    exec (.resetRelease mgr failed core) s = .next ((((s.sampled mgr).loads i).bootTest failed core).emit (.boot i)) := by
  have hv : (s.sampled mgr).dev.nvm = s.dev.nvm := (congrArg DevBlock.nvm (s.sampled_dev mgr)).trans rfl
  show execResetRelease mgr failed core s = _
  unfold execResetRelease
  rw [if_neg (by simp [h])]
  simp only [hc, State.loads, hv]
  rfl

end release

/-- Settles O8: the state that is booted is the sampled one; with an image the boot test decides, without one the part recovers. -/
theorem bootFromFlash : Obligations.BootFromFlash := by
  unfold Obligations.BootFromFlash
  refine ⟨fun s mgr core failed h => ?release, fun s w info h hv => ?recovery⟩
  case release =>
    have hd := s.sampled_dev mgr
    have hr := s.sampled_rat mgr
    cases hc : s.dev.nvm.choose with
    | none =>
      have hx := exec_resetRelease_none mgr h hc failed core
      have htouch := (execResetRelease_touches mgr failed core s).row hx
      refine ⟨_, hx, htouch, fun off _ => State.rd_congr (s.sampled_regs mgr) off,
        congrArg RatState.manager hr, congrArg RatState.addr hr, ?_, ?_, fun _ => ⟨rfl, rfl⟩,
        fun i hi => absurd hi.symm (Option.some_ne_none i)⟩
      · exact congrArg DevBlock.aBad hd
      · exact congrArg DevBlock.bBad hd
    | some i =>
      have hx := exec_resetRelease_some mgr h hc failed core
      let u := (s.sampled mgr).loads i
      have hku : RegsKept (regIn [Reg.DEV_STATUS]) s u := .of_regs (s.sampled_regs mgr)
      have hnvm : u.dev.nvm = s.dev.nvm := (congrArg DevBlock.nvm hd).trans rfl
      have hfull : u.fullBistDue = s.fullBistDue := by
        unfold State.fullBistDue State.bistOpen State.life
        rw [hnvm]
      have hbad : u.bootBad failed = (s.bootBlocks s.fullBistDue).filter fun b => failed.contains b := by
        unfold State.bootBad State.bootBlocks
        rw [hfull, hnvm]
      have ht := u.bootTest_dev failed core
      have hkept := hku.trans (u.bootTest_kept failed core)
      have hrat : (u.bootTest failed core).rat = u.rat := (u.bootTest_touches failed core).same .rat (by decide)
      obtain ⟨hbooted, htrial, ha, hb, -, -⟩ := u.bootDev_keeps failed core
      have htouch := (execResetRelease_touches mgr failed core s).row hx
      change exec _ s = .next (State.emit (u.bootTest failed core) _) at hx
      generalize u.bootTest failed core = v at hx ht hkept hrat htouch
      refine ⟨v.emit (.boot i), hx, htouch, hkept.same, congrArg RatState.manager (hrat.trans hr), congrArg RatState.addr (hrat.trans hr),
        ?_, ?_, fun hn => absurd hn (Option.some_ne_none i), fun j hj => ?_⟩
      · refine (congrArg DevBlock.aBad ht).trans (ha.trans ?_)
        exact (congrArg DevBlock.aBad hd).trans rfl
      · refine (congrArg DevBlock.bBad ht).trans (hb.trans ?_)
        exact (congrArg DevBlock.bBad hd).trans rfl
      · obtain rfl := Option.some.inj hj
        have hdev : (v.emit (.boot i)).dev = u.bootDev failed core := ht
        rw [hdev]
        refine ⟨hbooted, htrial.trans ?_, hfull, ?_, rfl⟩
        · show ((s.sampled mgr).dev.nvm.trial && (s.sampled mgr).dev.nvm.prefer == some i) = _
          rw [hd]
        · show u.bootStops failed core = _
          rw [State.bootStops, hbad]
  case recovery =>
    let u : State := { s with dev := { s.dev with booted := 2 }.readFlash }
    have hx : exec (.devRecovery w info) s = .next ((u.bootTest [] false).emit (.boot 2)) :=
      congrArg Host.Outcome.next (if_pos (by simp [h, hv]))
    have hbad : u.bootBad [] = [] := by simp [State.bootBad]
    have ht : ((u.bootTest [] false).emit (.boot 2)).dev = u.bootDev [] false := u.bootTest_dev [] false
    have hstop : u.bootStops [] false = false := by simp [State.bootStops, hbad]
    obtain ⟨hbooted, -, -, -, hia, hib⟩ := u.bootDev_keeps [] false
    refine ⟨_, hx, (execDevRecovery_touches w info s).row hx, fun off _ => State.rd_congr (u.bootTest_kept_clean [] false hbad) off, ?_⟩
    dsimp only
    rw [ht]
    refine ⟨?_, hbooted, hstop, hia, hib⟩
    show (if u.bootStops [] false then BootPhase.failed else .booted) = _
    rw [hstop]
    rfl

end Sys2Proof.Machine
end

section
/-!
PROOFS. Control-complex resets (R315, R396 to R398).
-/
namespace Sys2Proof.Machine
open Sys2Proof

theorem RegsKept.foldl {α : Type} {r : Nat → Prop} {f : State → α → State} (h : ∀ t x, RegsKept r t (f t x)) (l : List α) (s : State) :
    RegsKept r s (l.foldl f s) := by
  induction l generalizing s with
  | nil => exact .refl ..
  | cons x l ih => exact (h s x).trans (ih _)

/-! ## What the reset's cuts leave of the mailboxes (R315) -/

section cuts
variable (s : State)

theorem State.setJournal_mbx (x : CmdCtx) (j : Tab JEntry) : ∃ t, (s.setJournal x j).mbx = { s.mbx with journal := t } := by
  unfold State.setJournal
  split <;> exact ⟨_, rfl⟩

theorem State.cutHeld_mbx : ∃ j c, s.cutHeld.mbx = { s.mbx with held := none, journal := j, cut := c } := by
  have hfree : ∀ (t : State) (k : HeldCmd),
      (if k.why == .hello then State.settleFree { t with grp := { t.grp with role := .detached } } else t).mbx = t.mbx := fun t k => by
    split
    · exact (State.settleFree_touches _).same .mbx (by decide)
    · rfl
  unfold State.cutHeld
  split
  · next h => exact ⟨s.mbx.journal, s.mbx.cut, by rw [← h]⟩
  · next k h =>
    dsimp only
    rw [hfree]
    obtain ⟨t, ht⟩ := State.setJournal_mbx { s with mbx := { s.mbx with held := none } } ⟨k.from_, k.slot, k.roles, k.hdr.seq⟩
      (tdel (s.journalOf ⟨k.from_, k.slot, k.roles, k.hdr.seq⟩) k.hdr.seq)
    split <;> split
    · rw [ht]
      exact ⟨_, _, rfl⟩
    · exact ⟨_, _, rfl⟩
    · exact ⟨_, _, ht⟩
    · exact ⟨_, _, rfl⟩

/-- What discarding completions leaves of the mailboxes. -/
theorem State.dropCompletions_mbx (p : Nat) : ({ (s.dropCompletions p).mbx with queue := [] } : MbxState) = { s.mbx with queue := [] } := rfl

theorem State.cutSessions_mbx : ∃ q, s.cutSessions.mbx = { s.mbx with
    sessions := [], closing := s.mbx.closing ++ tkeys s.mbx.sessions, nonces := [], fails := [], locked := [], queue := q } := by
  let t := (tkeys s.mbx.sessions).foldl (fun (t : State) p => (t.dropCompletions p).sticky (Reg.MBX_STATUS p) 0x20000) (s.dropCompletions 0)
  have ht : ({ t.mbx with queue := [] } : MbxState) = { s.mbx with queue := [] } := by
    refine (foldl_keep (fun t : State => ({ t.mbx with queue := [] } : MbxState)) (fun u p => ?_) _ _).trans ?_ <;> rfl
  refine ⟨t.mbx.queue, ?_⟩
  exact congrArg (fun m : MbxState => { m with
    sessions := [], closing := m.closing ++ tkeys s.mbx.sessions, nonces := [], fails := [], locked := [], queue := t.mbx.queue }) ht

theorem State.ctlCut_leaves : s.ctlCut.mbx.sessions = [] ∧ s.ctlCut.mbx.nonces = [] ∧ s.ctlCut.mbx.fails = [] ∧ s.ctlCut.mbx.locked = []
    ∧ s.ctlCut.mbx.held = none ∧ s.ctlCut.mbx.h2d = s.mbx.h2d ∧ s.ctlCut.mbx.d2h = s.mbx.d2h := by
  let a := s.bump Reg.HAL_CTRL_RESETS
  obtain ⟨j, c, hheld⟩ := a.cutHeld_mbx
  have hfwd : a.cutHeld.cutForwarded.mbx
      = { a.cutHeld.mbx with cut := a.cutHeld.mbx.cut ++ a.cutHeld.rat.forwarded.map fun f => (f.pair, mbxWord 1 f.tag f.block) } := rfl
  obtain ⟨q, hq⟩ := a.cutHeld.cutForwarded.cutSessions_mbx
  have hcut : s.ctlCut.mbx = a.cutHeld.cutForwarded.cutSessions.mbx := (State.dropUncommitted_touches _).same .mbx (by decide)
  rw [hcut, hq, hfwd, hheld]
  exact ⟨rfl, rfl, rfl, rfl, rfl, rfl, rfl⟩

theorem State.cutSessions_kept : RegsKept (fun off => ∃ p, off = Reg.MBX_STATUS p) s s.cutSessions :=
  .trans (.trans (.of_touches (s.dropCompletions_touches 0))
    (.foldl (fun t p => .trans (.of_touches (t.dropCompletions_touches p)) (.sticky ⟨p, rfl⟩ _)) _ _)) (.of_regs rfl)

theorem State.ctlCut_rd {off : Nat} (h : off % 0x40 ≠ 0x08) : s.ctlCut.rd off = (s.bump Reg.HAL_CTRL_RESETS).rd off := by
  have hm : ¬ ∃ p, off = Reg.MBX_STATUS p := by
    rintro ⟨p, rfl⟩
    unfold Reg.MBX_STATUS at h
    omega
  rw [State.ctlCut, (State.dropUncommitted_touches _).rd_eq (by decide), (State.cutSessions_kept _).same _ hm,
    (State.cutForwarded_touches _).rd_eq (by decide), (State.cutHeld_touches _).rd_eq (by decide)]

theorem State.ctlCut_chan (c : Nat) :
    ∃ f : Chan → RunCfg, tget s.ctlCut.chans c = (tget s.chans c).map fun ch => { ch with shadow := f ch } := by
  let a := (s.bump Reg.HAL_CTRL_RESETS).cutHeld.cutForwarded.cutSessions
  have ha : a.chans = s.chans := by
    show State.chans (State.cutSessions _) = _
    rw [(State.cutSessions_touches _).same .chans (by decide), (State.cutForwarded_touches _).same .chans (by decide),
      (State.cutHeld_touches _).same .chans (by decide), State.bump_chans]
  refine ⟨fun ch => (tget (a.gch c).held (a.gch c).gen).getD ch.active, ?_⟩
  rw [← ha]
  exact tget_tmap a.chans (fun c ch => { ch with shadow := (tget (a.gch c).held (a.gch c).gen).getD ch.active }) c

end cuts

/-! ## The reset (R396 to R398) -/

/-- What a reset of a cause leaves of the control complex, and what it keeps. -/
def CtlKept (n : Nat) (s t : State) : Prop :=
  t.mbx.fwReady = false ∧ t.ctl.cores = 0 ∧ t.ctl.restarting = true ∧ t.ctl.slots = [] ∧ t.ctl.running = [] ∧ t.ctl.ready = []
    ∧ t.ctl.spill = [] ∧ t.ctl.lastCause = n ∧ t.mbx.sessions = [] ∧ t.mbx.nonces = [] ∧ t.mbx.fails = [] ∧ t.mbx.locked = []
    ∧ t.mbx.held = none ∧ t.mbx.h2d = s.mbx.h2d ∧ t.mbx.d2h = s.mbx.d2h ∧ t.dev.resetKind = 3
    ∧ t.rd Reg.HAL_CTRL_RESETS = s.rd Reg.HAL_CTRL_RESETS + 1
    ∧ ∀ c, (tget t.chans c).map (fun ch => (ch.st, ch.active, ch.pics, ch.nextPic)) =
        (tget s.chans c).map (fun ch => (ch.st, ch.active, ch.pics, ch.nextPic))

section reset
variable (s : State) (cause core : Nat)

theorem State.resetMaster_kept (port n : Nat) : RegsKept (regIn [Reg.MEM_MASTER_RESETS]) s (s.resetMaster port n) := by
  unfold State.resetMaster
  split
  · exact .trans (t := { s with mem := { s.mem with retiring := tset s.mem.retiring port n } }) (.of_regs rfl)
      (.bump (List.mem_singleton_self _))
  · exact .refl ..

theorem State.ctlReset_mbx : (s.ctlReset cause core).mbx = (s.ctlHalted cause core).ctlCut.mbx := by
  rw [State.ctlReset_eq, (State.resetMaster_touches ..).same .mbx (by decide)]

theorem State.ctlReset_ctl : (s.ctlReset cause core).ctl = (s.ctlHalted cause core).ctl := by
  rw [State.ctlReset_eq, (State.resetMaster_touches ..).same .ctl (by decide)]
  exact (State.ctlCut_touches _).same .ctl (by decide)

theorem State.ctlReset_chans : (s.ctlReset cause core).chans = (s.ctlHalted cause core).ctlCut.chans := by
  rw [State.ctlReset_eq, (State.resetMaster_touches ..).same .chans (by decide)]

theorem State.ctlReset_dev : (s.ctlReset cause core).dev = (s.ctlHalted cause core).dev := by
  rw [State.ctlReset_eq, (State.resetMaster_touches ..).same .dev (by decide)]
  exact (State.ctlCut_touches _).same .dev (by decide)

theorem State.ctlReset_rd {off : Nat} (hm : off ≠ Reg.MEM_MASTER_RESETS) (h : off % 0x40 ≠ 0x08) :
    (s.ctlReset cause core).rd off = (s.bump Reg.HAL_CTRL_RESETS).rd off := by
  rw [State.ctlReset_eq, (State.resetMaster_kept ..).rd (by simpa using hm)]
  exact State.ctlCut_rd _ h

theorem State.ctlReset_kept : CtlKept cause s (s.ctlReset cause core) := by
  obtain ⟨hready, hcause, hrestart, hsessions, -⟩ := s.ctlReset_leaves cause core
  obtain ⟨-, hnonces, hfails, hlocked, hheld, hh2d, hd2h⟩ := (s.ctlHalted cause core).ctlCut_leaves
  refine ⟨hready, ?_, hrestart, ?_, ?_, ?_, ?_, hcause, hsessions, ?_, ?_, ?_, ?_, ?_, ?_, ?_, ?_, fun c => ?_⟩
  · rw [State.ctlReset_ctl]; rfl
  · rw [State.ctlReset_ctl]; rfl
  · rw [State.ctlReset_ctl]; rfl
  · rw [State.ctlReset_ctl]; rfl
  · rw [State.ctlReset_ctl]; rfl
  · rw [State.ctlReset_mbx, hnonces]
  · rw [State.ctlReset_mbx, hfails]
  · rw [State.ctlReset_mbx, hlocked]
  · rw [State.ctlReset_mbx, hheld]
  · rw [State.ctlReset_mbx, hh2d]; rfl
  · rw [State.ctlReset_mbx, hd2h]; rfl
  · rw [State.ctlReset_dev]; rfl
  · rw [State.ctlReset_rd _ _ _ (by decide) (by decide), State.bump_rd_self]
  · obtain ⟨f, hf⟩ := (s.ctlHalted cause core).ctlCut_chan c
    rw [State.ctlReset_chans, hf, Option.map_map]
    rfl

variable {s}

theorem exec_controlComplexReset (h : s.dev.phase = .booted) : exec .controlComplexReset s = .next (s.ctlReset 3 0) :=
  congrArg Host.Outcome.next (if_pos (by simp [State.ctlRuns, h]))

theorem does_controlComplexReset (h : s.dev.phase = .booted) {P : State → Prop} (hp : P (s.ctlReset 3 0)) :
    Does .controlComplexReset s [.regs, .dev, .mbx, .ctl, .mem, .chans, .grp, .rat, .fresh] anyReg P :=
  ⟨_, exec_controlComplexReset h, State.ctlReset_touches .., fun _ hn => absurd trivial hn, hp⟩

theorem exec_watchdogExpiry (h : s.dev.phase = .booted) (hc : core < 8) :
    exec (.watchdogExpiry core) s = .next ((s.ctlReset 1 core).bump Reg.HAL_WDOG_EXPIRIES) :=
  congrArg Host.Outcome.next (if_pos (by simp [State.ctlRuns, h, hc]))

/-- The fourth reset within 60 s of the first of three (R398). -/
theorem CtlState.noteReset_fourth {c : CtlState} {x y z now : Nat} (hr : c.resets.take 3 = [x, y, z]) (ht : now ≤ z + 60000000000) :
    (c.noteReset now).unstable = true ∧ (c.noteReset now).hold = true ∧ (c.noteReset now).resets = [now, x, y, z] := by
  have hz : c.resets[2]? = some z := by
    have h := congrArg (·[2]?) hr
    simpa [List.getElem?_take] using h
  have hu : (c.unstable || (match c.resets[2]? with | some t => decide (now ≤ t + 60000000000) | none => false)) = true := by
    simp [hz, ht]
  refine ⟨hu, hu, ?_⟩
  show (now :: c.resets).take 4 = _
  rw [List.take_succ_cons, hr]

end reset

/-- Settles O10: both resets leave the state of one, which keeps what is said of it; the hold follows from the record of resets. -/
theorem controlReset : Obligations.ControlReset := by
  unfold Obligations.ControlReset
  refine ⟨fun s h => does_controlComplexReset h (s.ctlReset_kept 3 0), fun s core h hc => ?_, fun s x y z h hr ht => ?_, fun s => rfl,
    fun s => rfl⟩
  · have hx := exec_watchdogExpiry core h hc
    obtain ⟨hready, hcores, hrestart, hslots, hrun, hlist, hspill, hcause, hsessions, hnonces, hfails, hlocked, hheld, hh2d, hd2h, hkind,
      hcount, hchans⟩ := s.ctlReset_kept 1 core
    have hctl := s.ctlReset_ctl 1 core
    have htouch := (execWatchdogExpiry_touches core s).row hx
    have hwd := s.ctlReset_rd 1 core (off := Reg.HAL_WDOG_EXPIRIES) (by decide) (by decide)
    generalize s.ctlReset 1 core = t at *
    refine ⟨_, hx, htouch, fun _ hn => absurd trivial hn,
      ⟨hready, hcores, hrestart, hslots, hrun, hlist, hspill, hcause, hsessions, hnonces, hfails, hlocked, hheld, hh2d, hd2h, hkind,
        ?_, hchans⟩, ?_, ?_⟩
    · rw [State.bump_rd_ne _ (by decide), hcount]
    · rw [State.bump_ctl, hctl]
      rfl
    · rw [State.bump_rd_self, hwd, State.bump_rd_ne _ (by decide)]
  · refine does_controlComplexReset h ?_
    rw [State.ctlReset_ctl]
    exact CtlState.noteReset_fourth hr ht

end Sys2Proof.Machine
end

section
/-!
PROOFS. Firmware becomes ready (R291, R315, R397, R434).
-/
namespace Sys2Proof.Machine
open Sys2Proof

/-! ## What firmware's readiness asks of the mailboxes -/

/-- Firmware's readiness, and what the end of a restart leaves to tell. -/
def MbxState.telling (m : MbxState) : Bool × List (Nat × Word) × List Nat := (m.fwReady, m.cut, m.closing)

section telling
variable (s : State)

theorem State.signal_telling (v : Nat) : (s.signal v).mbx.telling = s.mbx.telling := (congrArg MbxState.telling (s.signal_mbx v) :)

theorem State.raise_telling (code sev obj detail : Nat) : (s.raise code sev obj detail).mbx.telling = s.mbx.telling :=
  (congrArg MbxState.telling (s.raise_mbx code sev obj detail) :)

theorem State.loseWord_telling (p : Nat) (w : Word) : (s.loseWord p w).mbx.telling = s.mbx.telling := by
  unfold State.loseWord
  dsimp only
  split <;> rfl

theorem State.takeWord_telling (p : Nat) : (s.takeWord p).mbx.telling = s.mbx.telling := State.signal_telling ..

theorem State.postLost_telling : s.postLost.mbx.telling = (s.mbx.fwReady, [], []) := by
  let a := s.mbx.cut.foldl (fun (t : State) (e : Nat × Word) => t.loseWord e.1 e.2) s
  let b := a.mbx.h2d.foldl (fun (t : State) (e : Nat × Word) => (t.takeWord e.1).loseWord e.1 e.2) a
  let c := b.mbx.closing.foldl (fun (t : State) p => t.queueWord p (mbxWord 6 0 4)) b
  have ha : a.mbx.telling = s.mbx.telling := foldl_keep (fun t : State => t.mbx.telling) (fun t e => t.loseWord_telling ..) _ _
  have hb : b.mbx.telling = a.mbx.telling := foldl_keep (fun t : State => t.mbx.telling) (fun t e =>
    (State.loseWord_telling ..).trans (t.takeWord_telling _)) _ _
  have hc : c.mbx.telling = b.mbx.telling := by
    refine foldl_keep (fun t : State => t.mbx.telling) (fun t p => ?_) _ _
    rfl
  show (c.mbx.fwReady, [], []) = _
  rw [show c.mbx.fwReady = s.mbx.fwReady from congrArg Prod.fst (hc.trans (hb.trans ha))]

theorem State.endTest_telling : s.endTest.mbx.telling = s.mbx.telling := State.raise_telling ..

/-- What the end of a test and its grants keep of the device. -/
def DevBlock.booting (d : DevBlock) : Bool × Bool × List Domain := (d.readyOnce, d.trial, d.unlocked)

theorem State.endTest_booting : s.endTest.dev.booting = s.dev.booting := by
  unfold State.endTest
  simp only [State.raise_dev]
  split <;> rfl

theorem State.grantPump_booting (fuel : Nat) (s : State) : (State.grantPump fuel s).dev.booting = s.dev.booting := by
  induction fuel generalizing s with
  | zero => rfl
  | succ fuel ih =>
    unfold State.grantPump
    split
    · rfl
    · dsimp only
      split
      · rw [ih]
        split
        · rfl
        · rw [(State.ratSend_touches ..).same .dev (by decide)]
      · rfl

theorem State.takeTestDone_booting (src b : Nat) : (s.takeTestDone src b).dev.booting = s.dev.booting := by
  unfold State.takeTestDone
  split
  · exact State.grantPump_booting ..
  · rfl

theorem State.releaseGrant_booting (b : Nat) : (s.releaseGrant b).dev.booting = s.dev.booting := by
  unfold State.releaseGrant
  split
  · dsimp only
    split
    · exact State.takeTestDone_booting ..
    · rw [(State.ratSend_touches ..).same .dev (by decide)]
      rfl
  · rfl

/-- What a settled test keeps. -/
theorem State.settleTest_keeps : s.settleTest.mbx.telling = s.mbx.telling ∧ s.settleTest.dev.booting = s.dev.booting
    ∧ s.settleTest.ctl = s.ctl := by
  refine ⟨?_, ?_, (s.settleTest_touches).same .ctl (by decide)⟩
  · unfold State.settleTest
    dsimp only
    split
    · rw [State.endTest_telling]
      exact foldl_keep (fun t : State => t.mbx.telling) (fun t b => congrArg MbxState.telling ((t.releaseGrant_touches b).same .mbx (by decide))) _ _
    · rfl
  · unfold State.settleTest
    dsimp only
    split
    · rw [State.endTest_booting]
      exact foldl_keep (fun t : State => t.dev.booting) (fun t b => t.releaseGrant_booting b) _ _
    · rfl

end telling

/-! ## The first time since reset (R286, R434) -/

section first
variable (s : State)

theorem DevBlock.passTrial_booting (d : DevBlock) : d.passTrial.booting = (d.readyOnce, false, d.unlocked) := by
  unfold DevBlock.passTrial
  split
  · rfl
  · next h => simp [DevBlock.booting, h]

/-- The device after firmware's first readiness since reset: its trial has passed. -/
theorem State.firstReady_booting : s.firstReady.dev.booting = (true, s.dev.trial && s.dev.readyOnce, s.dev.unlocked) := by
  unfold State.firstReady
  split
  · next h => simp [DevBlock.booting, h]
  · next h =>
    have hdev : (DevBlock.passTrial { s.dev with readyOnce := true }).booting = (true, s.dev.trial && s.dev.readyOnce, s.dev.unlocked) := by
      rw [DevBlock.passTrial_booting]
      simp [h]
    dsimp only
    split
    · rw [(State.enumerate_touches _).same .dev (by decide)]
      exact hdev
    · exact hdev

end first

/-! ## Ready -/

section ready
variable (s : State) (ms : Nat) (reread : Bool)

/-- The machine whose firmware is ready, all cores running. -/
def State.fwUp : State :=
  { s with
    mbx := { s.mbx with fwReady := true }, ctl := { s.ctl with cores := 0xFF }
    dev := { s.dev with unlocked := s.dev.unlocked.filter (· != Domain.ctrl) } }

/-- A restart, where there is one, has ended. -/
def State.restartEnded : State := if s.ctl.restarting then s.fwUp.restarted ms reread else s.fwUp

theorem State.restarted_telling (t : State) : (t.restarted ms reread).mbx.telling = (t.mbx.fwReady, [], []) := by
  unfold State.restarted
  dsimp only
  rw [State.postLost_telling]
  refine congrArg (·, [], []) ?_
  exact congrArg Prod.fst (State.raise_telling ..)

theorem State.restarted_ctl (t : State) : (t.restarted ms reread).ctl
    = { t.ctl with restarting := false, lastMs := ms, lastCause := if reread then 4 else t.ctl.lastCause } := by
  unfold State.restarted
  dsimp only
  rw [(State.postLost_touches _).same .ctl (by decide), State.raise_ctl]

theorem State.restartEnded_touches : Touches [.regs, .dev, .log, .logSeq, .mbx, .ctl, .out] s (s.restartEnded ms reread) := by
  have hup : Touches [.regs, .dev, .log, .logSeq, .mbx, .ctl, .out] s s.fwUp :=
    (Touches.set_dev_mbx_ctl (by decide) (by decide) (by decide) _ _ _).mpr (.refl ..)
  unfold State.restartEnded
  split
  · exact hup.then (State.restarted_touches ..) (by decide)
  · exact hup

theorem State.restartEnded_dev : (s.restartEnded ms reread).dev = s.fwUp.dev := by
  unfold State.restartEnded
  split
  · exact (State.restarted_touches ..).same .dev (by decide)
  · rfl

theorem State.restartEnded_up : (s.restartEnded ms reread).mbx.fwReady = true ∧ (s.restartEnded ms reread).ctl.cores = 0xFF
    ∧ (s.restartEnded ms reread).ctl.restarting = false := by
  unfold State.restartEnded
  split
  · rw [State.restarted_ctl]
    exact ⟨congrArg Prod.fst (s.fwUp.restarted_telling ms reread), rfl, rfl⟩
  · next h => exact ⟨rfl, rfl, Bool.eq_false_iff.2 h⟩

theorem State.restartEnded_told (h : s.ctl.restarting = true) : (s.restartEnded ms reread).ctl.lastMs = ms
    ∧ (s.restartEnded ms reread).ctl.lastCause = (if reread then 4 else s.ctl.lastCause)
    ∧ (s.restartEnded ms reread).mbx.cut = [] ∧ (s.restartEnded ms reread).mbx.closing = [] := by
  unfold State.restartEnded
  rw [if_pos h, State.restarted_ctl]
  have htold := s.fwUp.restarted_telling ms reread
  exact ⟨rfl, rfl, congrArg (·.2.1) htold, congrArg (·.2.2) htold⟩

end ready

/-- Settles O9: the end of a restart, the first readiness and the end of a test, each by what it keeps of the others' work. -/
theorem firmwareComesUp : Obligations.FirmwareComesUp := by
  unfold Obligations.FirmwareComesUp
  intro s ms reread hphase hready hheld v u
  let r := s.restartEnded ms reread
  have hu : u = r.firstReady.settleTest := rfl
  have htouch : Touches [.regs, .dev, .log, .logSeq, .mbx, .ctl, .pmu, .rat, .out] s u :=
    (((s.restartEnded_touches ms reread).mono (by decide)).then (State.firstReady_touches _) (by decide)).then
      (State.settleTest_touches _) (by decide)
  obtain ⟨htell, hboot, hctl⟩ := r.firstReady.settleTest_keeps
  have hmbx : r.firstReady.mbx = r.mbx := r.firstReady_touches.same .mbx (by decide)
  rw [hmbx, ← hu] at htell
  rw [r.firstReady_touches.same .ctl (by decide), ← hu] at hctl
  rw [r.firstReady_booting, ← hu, s.restartEnded_dev] at hboot
  obtain ⟨hup, hcores, hrun⟩ := s.restartEnded_up ms reread
  refine ⟨congrArg Host.Outcome.next (if_neg (by simp [hphase, hready, hheld])), htouch, (congrArg Prod.fst htell).trans hup,
    (congrArg CtlState.cores hctl).trans hcores, (congrArg CtlState.restarting hctl).trans hrun, congrArg Prod.fst hboot, ?_, fun h => ?_,
    fun h => ?_⟩
  · rw [show u.dev.unlocked = s.fwUp.dev.unlocked from congrArg (·.2.2) hboot]
    simp [State.fwUp]
  · obtain ⟨hms, hcause, hcut, hclosing⟩ := s.restartEnded_told ms reread h
    rw [hctl]
    exact ⟨hms, hcause, (congrArg (·.2.1) htell).trans hcut, (congrArg (·.2.2) htell).trans hclosing⟩
  · have htrial : u.dev.trial = (s.fwUp.dev.trial && s.fwUp.dev.readyOnce) := congrArg (·.2.1) hboot
    rw [htrial, show s.fwUp.dev.readyOnce = false from h, Bool.and_false]

end Sys2Proof.Machine
end

section
/-!
PROOFS. Blocks of the shutdown self-test, and the end of a firmware write (R293, R335, R444 to R446).
-/
namespace Sys2Proof.Machine
open Sys2Proof

/-! ## The end of a test -/

section settle
variable {s : State}

theorem State.testRuns_testing (h : s.testRuns = true) : s.dev.state = .testing := by
  unfold State.testRuns at h
  simpa using (Bool.and_eq_true_iff.1 h).1

theorem State.settleService_testing (h : s.dev.state = .testing) : s.settleService = s := by
  unfold State.settleService
  split
  · exact if_neg (by simp [h])
  · rfl

theorem State.settleService_idle (h : s.mbx.held = none) : s.settleService = s := by
  unfold State.settleService
  rw [h]

/-- A test goes on while a block runs, during a restart, and until it is stopped or out of blocks. -/
theorem State.settleTest_goesOn (h : s.dev.test.running ≠ [] ∨ s.ctl.restarting = true ∨ (s.dev.test.stopping = false ∧ s.dev.test.next < 50)) :
    s.settleTest = s := by
  refine if_neg ?_
  rcases h with h | h | ⟨h, hn⟩
  · simp [h]
  · simp [h]
  · simp [h, Nat.not_le.2 hn]

theorem State.settleTest_ends (ht : s.testRuns = true) (hc : s.ctl.restarting = false) (hr : s.dev.test.running = [])
    (hg : s.dev.test.granted = []) (h : s.dev.test.stopping = true ∨ 50 ≤ s.dev.test.next) : s.settleTest = s.endTest := by
  refine (if_pos ?_).trans ?_
  · simpa [ht, hc, hr] using h
  · rw [hg]
    rfl

theorem State.releaseGrant_none (h : s.dev.test.granted = []) (b : Nat) : s.releaseGrant b = s := if_neg (by simp [h])

/-- What the end of a test leaves (R445, R446). -/
theorem State.endTest_leaves (s : State) : s.endTest.dev.state = .halted ∧ s.endTest.dev.nvm.keys = s.dev.nvm.keys
    ∧ s.endTest.dev.test.tested = s.dev.test.tested ∧ s.endTest.dev.test.asked = false
    ∧ Entered 0x0082 0xFF (bitCount s.dev.test.tested + 2 ^ 16 * bitCount s.dev.test.failed
        + (if s.dev.test.tested = allBlocks then 0 else 2 ^ 32)) s.endTest := by
  have hdetail : (if (s.dev.test.tested == allBlocks) = true then 0 else 2 ^ 32) = (if s.dev.test.tested = allBlocks then 0 else 2 ^ 32) := by
    simp
  rw [← hdetail]
  refine ⟨?_, ?_, ?_, ?_, State.raise_enters ..⟩
  · unfold State.endTest
    simp only [State.raise_dev]
  · unfold State.endTest
    simp only [State.raise_dev]
    split <;> rfl
  · unfold State.endTest
    simp only [State.raise_dev]
  · unfold State.endTest
    simp only [State.raise_dev]

end settle

/-! ## A block starts (R293, R444) -/

section start
variable {s : State}

theorem exec_blockStart (hd : s.blockDue = true) : exec .selftestBlockStart s = .next (
    if s.numbered && !(s.dev.test.granted.contains s.dev.test.next) then (if s.dev.test.asked then s else s.askGrant)
    else if s.blockFits && decide (s.pwr.tMax ≤ 460) && s.pwr.warn.isNone then s.startBlock
    else s) :=
  congrArg Host.Outcome.next (if_neg (by simp [hd]))

theorem RatTraffic.ratSend (s : State) (dst : Nat) (m : RatMsg) : RatTraffic s.ratNext (s.ratSend dst m) :=
  (RatTraffic.ratOut ..).trans (.ratOut ..)

theorem does_blockStart_asks (hd : s.blockDue = true) (hn : s.numbered = true)
    (hg : s.dev.test.granted.contains s.dev.test.next = false) (ha : s.dev.test.asked = false) (hm : s.rat.manager = false) :
    Does .selftestBlockStart s [.regs, .dev, .pmu, .rat, .out] anyReg fun t =>
      t.dev = { s.dev with test := { s.dev.test with asked := true } } ∧ t.rat.seq = (s.rat.seq + 1) % 2 ^ 32
        ∧ t.rat.grants = s.rat.grants ∧ t.rat.waiting = s.rat.waiting := by
  let v : State := { s with dev := { s.dev with test := { s.dev.test with asked := true } } }
  let m : RatMsg := .testRequest s.dev.test.next (blockRequest s.dev.test.next)
  have hask : s.askGrant = v.ratSend 1 m := if_neg (by simp [hm])
  have hx : exec .selftestBlockStart s = .next (v.ratSend 1 m) := by
    rw [exec_blockStart hd, if_pos (by rw [hn, hg]; rfl), if_neg (by simp [ha]), hask]
  have htraffic := RatTraffic.ratSend v 1 m
  refine ⟨_, hx, (execSelftestBlockStart_touches s).row hx, fun _ h => absurd trivial h, (v.ratSend_touches 1 m).same .dev (by decide), ?_, ?_,
    ?_⟩
  · exact htraffic.same RatState.seq fun _ _ _ _ => rfl
  · exact htraffic.same RatState.grants fun _ _ _ _ => rfl
  · exact htraffic.same RatState.waiting fun _ _ _ _ => rfl

end start

/-! ## A block ends (R445) -/

section ends
variable {s : State} {b : Nat} {pass : Bool}

/-- The machine in which block `b` has ended with its result. -/
def State.blockNoted (s : State) (b : Nat) (pass : Bool) : State :=
  { s with
    dev := { s.dev with test := { s.dev.test with
      running := s.dev.test.running.filter (·.block != b)
      tested := s.dev.test.tested ||| bit64 b
      failed := if pass then s.dev.test.failed else s.dev.test.failed ||| bit64 b } }
    eng := if pass then s.eng else s.eng.markBlock b }

theorem State.blockEnd_other (h : s.dev.test.running.any (·.block == b) = false) : s.blockEnd b pass = s := if_neg (by simp [h])

theorem State.blockEnd_running (h : s.dev.test.running.any (·.block == b) = true) (hg : s.dev.test.granted = []) :
    s.blockEnd b pass = (s.blockNoted b pass).settleTest := by
  refine (if_pos h).trans ?_
  show ((s.blockNoted b pass).releaseGrant b).settleTest = _
  rw [State.releaseGrant_none (s := s.blockNoted b pass) hg]

end ends

/-! ## A flash write ends (R335) -/

section flash
variable {v : Nvm} {st i : Nat} {image : ImageSlot} {boot : Bool}

/-- The flash after a write of slot `i` has ended with status `st`. -/
def Nvm.written (v : Nvm) (st i : Nat) (image : ImageSlot) (boot : Bool) : Nvm :=
  let nvm := if st = 0 then v.setSlot i image else v
  if st = 0 ∧ boot then { nvm with prefer := some i, trial := true } else nvm

theorem Nvm.written_boots (h : st = 0 ∧ boot = true) : (v.written st i image boot).prefer = some i ∧ (v.written st i image boot).trial = true := by
  unfold Nvm.written
  rw [if_pos h]
  exact ⟨rfl, rfl⟩

theorem Nvm.written_failed (h : st ≠ 0) : v.written st i image boot = v := (if_neg fun hb => h hb.1).trans (if_neg h)

theorem Nvm.setSlot_holds : (if i = 0 then (v.setSlot i image).imageA else (v.setSlot i image).imageB) = image := by
  unfold Nvm.setSlot
  split <;> rfl

theorem Nvm.written_slot (h : st = 0) : (if i = 0 then (v.written st i image boot).imageA else (v.written st i image boot).imageB) = image := by
  refine Eq.trans ?_ (Nvm.setSlot_holds (v := v) (i := i))
  unfold Nvm.written
  rw [if_pos h]
  dsimp only
  by_cases hb : st = 0 ∧ boot = true
  · rw [if_pos hb]
  · rw [if_neg hb]

end flash

/-- Settles O30: a block's start by what stops it, its end and a grant's time-out by whether the test goes on, then the flash. -/
theorem selftestBlocks : Obligations.SelftestBlocks := by
  unfold Obligations.SelftestBlocks
  intro started
  refine ⟨fun s h => congrArg Host.Outcome.next (if_pos (by simp [h])), fun s hd hg => ?start,
    fun s hd hn hg => ⟨fun ha => ?_, does_blockStart_asks hd hn hg⟩, fun s b pass ht hg => ?ends, fun s h hh => ?idle,
    fun s ht ha hg hr hc => ?timeout, fun s st i h x boot hf => ?flash, fun s st hf => ?_⟩
  case start =>
    have hx := exec_blockStart hd
    rw [if_neg (by rcases hg with h | h <;> simp_all)] at hx
    refine ⟨fun ⟨hfit, hcool, hwarn⟩ => ?_, fun h => ?_⟩
    · rw [if_pos (by simp [hfit, hcool, hwarn])] at hx
      exact hx
    · rw [if_neg ?_] at hx
      · exact hx
      rcases h with h | h | h
      · simp [h]
      · simp [not_le.2 h]
      · cases hw : s.pwr.warn <;> simp_all
  · have hx := exec_blockStart hd
    rw [if_pos (by rw [hn, hg]; rfl), if_pos ha] at hx
    exact hx
  case ends =>
    have hstate := State.testRuns_testing ht
    have hx : exec (.selftestBlockEnd b pass) s = .next (s.blockEnd b pass).settleService := rfl
    refine ⟨fun h => ?_, fun h => ?_⟩
    · rw [State.blockEnd_other h, State.settleService_testing hstate] at hx
      exact hx
    · intro rest dev eng
      rw [State.blockEnd_running h hg] at hx
      refine ⟨fun hon => ?_, fun hrest hc hend => ?_⟩
      · rw [State.settleTest_goesOn (s := s.blockNoted b pass) hon, State.settleService_testing (s := s.blockNoted b pass) hstate] at hx
        exact hx
      · rw [State.settleTest_ends (s := s.blockNoted b pass) ht hc hrest hg hend] at hx
        obtain ⟨hhalted, hkeys, htested, -, hentered⟩ := (s.blockNoted b pass).endTest_leaves
        have htouch := (s.blockNoted b pass).endTest_touches
        exact ⟨hx, hhalted, htouch.same .eng (by decide), htouch.same .mem (by decide), htouch.same .chans (by decide), hkeys, htested,
          hentered⟩
  case idle =>
    have hto : s.grantTimeout = s := if_neg (by rcases h with h | h <;> simp [h])
    show Host.Outcome.next s.grantTimeout.settleService = _
    rw [hto, State.settleService_idle hh]
  case timeout =>
    intro u
    let v : State := { s with dev := { s.dev with test := { s.dev.test with stopping := true, asked := false } } }
    have hto : s.grantTimeout = v.settleTest := if_pos (by simp [State.testRuns_testing ht, ha])
    have hx : exec .testGrantTimeout s = .next v.settleTest.settleService := by rw [← hto]; rfl
    rw [State.settleTest_ends (s := v) ht hc hr hg (.inl rfl)] at hx
    obtain ⟨hhalted, -, -, hasked, -⟩ := v.endTest_leaves
    exact ⟨hx, hhalted, hasked, v.endTest_touches.same .rat (by decide)⟩
  case flash =>
    let v : State := { s with dev := { s.dev with fwWrite := none, nvm := s.dev.nvm.written st i (slotOf x) boot } }
    have hx : exec (.firmwareWriteDone st) s = .next (v.raise 0x0081 (if st = 0 then 0 else 2) i st) := by
      show execFirmwareWriteDone st s = _
      simp only [execFirmwareWriteDone, hf]
      rfl
    refine ⟨_, hx, (execFirmwareWriteDone_touches st s).row hx, RegsKept.same (.trans (t := v) (.of_regs rfl) (.raise (List.mem_singleton_self _) ..)),
      State.raise_enters .., fun h => ?_, fun h => ?_, fun h => ?_, ?_, ?_⟩
    · rw [State.raise_dev]
      exact Nvm.written_boots h
    · rw [State.raise_dev]
      exact Nvm.written_slot h
    · rw [State.raise_dev]
      exact congrArg (fun w => ({ s.dev with fwWrite := none, nvm := w } : DevBlock)) (Nvm.written_failed h)
    · rw [State.raise_dev]
    · rw [State.raise_dev]
  · show execFirmwareWriteDone st s = _
    simp only [execFirmwareWriteDone, hf]

end Sys2Proof.Machine
end

section
/-!
PROOFS. SESSION_PROVE (R309, R311): the session it replaces may stand in a model state on a pair that has no mailbox.
-/
namespace Sys2Proof.Machine
open Sys2Proof

/-! ## A good proof of a slot whose session stands on another pair -/

section good
variable {s : State} {p : SessionProveArg} {n : Nonce} {key : BitVec 256} {roles q : Nat}

/-- The closing of a pair on which no word waits sets one status bit and leaves every other cell. -/
theorem State.closeSession_regs (hq : thas s.mbx.sessions q = true) (hw : tget s.mbx.h2d q = none) (r : Nat) :
    (s.closeSession q (some r)).regs = (s.sticky (Reg.MBX_STATUS q) 0x20000).regs := by
  obtain ⟨e, he⟩ := Option.isSome_iff_exists.1 hq
  refine (congrArg State.regs (if_pos hq)).trans ?_
  have he' : tget (s.dropCompletions q).mbx.sessions q = some e := he
  unfold State.shutSession
  simp only [he', State.sticky, State.wr]
  rw [show (s.dropCompletions q).mbx.h2d = s.mbx.h2d from rfl, hw]
  rfl

theorem State.doSessionProve_good (hn : s.mbx.nonces.find? (·.nonce == p.nonce) = some n) (hk : tget s.dev.nvm.keys n.slot = some (key, roles))
    (hp : Config.hmac key (proofMessage 0x48 n.nonce s.dev.nvm.unitId n.slot n.roles n.pair) = p.proof) (hr : n.roles &&& roles = n.roles)
    (hs : s.slotPair n.slot = some q) (hq : thas s.mbx.sessions q = true) (hw : tget s.mbx.h2d q = none) :
    ∃ u d, s.doSessionProve p = { st := u, data := d } ∧ u.rd (Reg.MBX_STATUS q) = s.rd (Reg.MBX_STATUS q) ||| 0x20000 := by
  let v : State := { s with mbx := { s.mbx with nonces := s.mbx.nonces.filter fun m => m.nonce != p.nonce } }
  have hslot : v.slotPair n.slot = some q := hs
  have hrd : (v.closeSession q (some 2)).rd (Reg.MBX_STATUS q) = s.rd (Reg.MBX_STATUS q) ||| 0x20000 := by
    have hregs := v.closeSession_regs hq hw 2
    exact (congrArg (fun r => ({ v with regs := r } : State).rd (Reg.MBX_STATUS q)) hregs).trans (v.sticky_rd_self _ _)
  unfold State.doSessionProve
  simp only [hn, hk, hp, hr, beq_self_eq_true, Bool.and_self, if_true]
  refine ⟨_, _, rfl, ?_⟩
  rw [hslot]
  exact hrd

end good

/-! ## The refutation -/

/-- A unit just after power-on with the session of key slot 2 on pair 9, a number that no mailbox has (R301), and a nonce of that slot
for pair 2; a COMMAND word for block 3 waits in the lobby. -/
def strayProve : State :=
  { State.reset with
    mbx := { fwReady := true, sessions := [(9, ⟨2, 3⟩)], h2d := [(0, mbxWord 1 5 3)], nonces := [⟨6, 2, 3, 2⟩] }
    dev := { State.reset.dev with nvm := { State.reset.dev.nvm with keys := [(2, (9, 3))] } } }

/-- The good proof of that nonce. -/
def strayProof : SessionProveArg := ⟨6, Config.hmac 9 (proofMessage 0x48 6 strayProve.dev.nvm.unitId 2 3 2)⟩

/-- The CRC of a block does not cover itself. -/
theorem crcOk_withCrc (h : CmdHdr) (p : Payload) : ({ h with crc := crc32c (blockBytes h p) } : CmdHdr).crcOk p = true := by
  have hbytes (x : Word) : blockBytes { h with crc := x } p = blockBytes h p := by simp only [blockBytes]
  simp only [CmdHdr.crcOk, hbytes, beq_self_eq_true]

/-- The header of SESSION_PROVE in the lobby. -/
def lobbyHead : CmdHdr :=
  { pair := 0, opcode := 0x0102, extra := [], crc := 0, session := 0, seq := 9, target := 0, length := 32 }

/-- The header with the CRC that the block of that proof has. -/
def strayHead : CmdHdr := { lobbyHead with crc := crc32c (blockBytes lobbyHead (.sessionProve strayProof)) }

theorem strayHead_crcOk : strayHead.crcOk (.sessionProve strayProof) = true := crcOk_withCrc lobbyHead _

theorem lobbyHead_accepted {x : Word} {p : SessionProveArg} (hc : ({ lobbyHead with crc := x } : CmdHdr).crcOk (.sessionProve p) = true) :
    commandRefusal { lobbyHead with crc := x } 0 (.sessionProve p) = none := by
  unfold commandRefusal
  rw [hc]
  rfl

theorem strayProve_serves : strayProve.serves strayHead (.sessionProve strayProof) 5 3 = true := by
  have haccepted := lobbyHead_accepted strayHead_crcOk
  unfold strayHead at *
  generalize crc32c (blockBytes lobbyHead (.sessionProve strayProof)) = x at *
  generalize strayProof = p at *
  have hroles : (tgetD strayProve.mbx.sessions lobbyHead.pair ⟨0, 0⟩).roles = 0 := rfl
  simp only [State.serves, hroles, haccepted]
  rfl

theorem strayProve_closes_pair9 (t : State) (ht : exec (.sessionProve strayHead strayProof) strayProve = .next t) :
    t.rd (Reg.MBX_STATUS 9) = strayProve.rd (Reg.MBX_STATUS 9) ||| 0x20000 := by
  obtain ⟨m, o, htaken, -, hrun⟩ := State.runCommand_served strayProve_serves
  obtain ⟨u, d, hbody, hrd⟩ := State.doSessionProve_good (s := strayProve.atBody m o) (p := strayProof) (n := ⟨6, 2, 3, 2⟩) (key := 9)
    (roles := 3) (q := 9) (by rw [htaken.nonces]; rfl) rfl rfl rfl (by rw [State.slotPair, htaken.sessions]; rfl)
    (by rw [htaken.sessions]; rfl) (by rw [htaken.h2d]; rfl)
  obtain ⟨k, hanswer, -⟩ := HeldCmd.answer_host (k := strayProve.heldOf strayHead (.sessionProve strayProof) 5 3) rfl rfl u eOk d
  have hnext : exec (.sessionProve strayHead strayProof) strayProve = .next { u with mbx := k } := by
    refine congrArg Host.Outcome.next (hrun.trans ?_)
    rw [← hanswer]
    exact congrArg _ hbody
  rw [ht, Host.Outcome.next.injEq] at hnext
  rw [hnext]
  exact hrd

/-- Refutes O52: SESSION_PROVE is stated for every table of sessions, and allows a change of the status registers of the nine pairs
only (R301). On `strayProve` the slot's session stands on pair 9, and its closing sets a bit at 0x00100248. -/
theorem not_sessionCommands : ¬ Obligations.SessionCommands := by
  unfold Obligations.SessionCommands
  rintro ⟨-, hprove, -⟩
  obtain ⟨hknown, -⟩ := hprove strayProve strayHead 5 3 strayProof strayProve_serves
  obtain ⟨hgood, -⟩ := hknown ⟨6, 2, 3, 2⟩ 9 3 (by decide) (by decide)
  obtain ⟨t, ht, -, hregs, -⟩ := hgood rfl (by decide)
  have hkept := hregs (Reg.MBX_STATUS 9) (by simp [regIn]; decide)
  rw [strayProve_closes_pair9 t ht] at hkept
  exact absurd hkept (by decide)

end Sys2Proof.Machine
end

section
/-!
PROOFS. Test grants (R293): a request that waits can make room for the one before it.
-/
namespace Sys2Proof.Machine
open Sys2Proof

/-! ## How a message arrives -/

section arrive
variable {s u v : State} {h : RatHdr} {m : RatMsg} {dup : Bool}

theorem State.ratTake_left (hr : s.ratReceive h m = ⟨u, false, dup⟩) : s.ratTake h m = u := by
  simp only [State.ratTake, hr, Bool.not_false, if_true]

theorem State.ratTake_handled (hr : s.ratReceive h m = ⟨u, true, dup⟩) (ha : u.fwAlive = true) : s.ratTake h m = u.ratHandle h m := by
  simp only [State.ratTake, hr, ha, Bool.not_true, Bool.false_eq_true, if_false, if_true]

theorem State.ratTake_waits (hr : s.ratReceive h m = ⟨u, true, dup⟩) (ha : u.fwAlive = false) : s.ratTake h m = u.ratWait h m := by
  simp only [State.ratTake, hr, ha, Bool.not_true, Bool.false_eq_true, if_false]

theorem State.ratArrive_stopped (hl : s.ratLinkIn h m = (u, false)) : s.ratArrive h m = u := by
  simp only [State.ratArrive, hl, Bool.false_eq_true, if_false]

theorem State.ratArrive_passed (hl : s.ratLinkIn h m = (u, true)) : s.ratArrive h m = u.ratTake h m := by
  simp only [State.ratArrive, hl, if_true]

end arrive

/-! ## The refutation -/

/-- A manager under a limit of 105, with a budget of 100 for the unit at address 2 and a request of 10 of the unit at address 3 that does
not fit beside that budget. -/
def crowded : State :=
  { State.reset with
    mbx := { fwReady := true }
    lane := { ports := [(2, { st := .up })] }
    rat := { State.reset.rat with addr := 1, manager := true, limit := some 105, budgets := [(2, 100)], waiting := [⟨3, 0, 10, 0⟩] } }

/-- The header of a TEST_REQUEST of the unit at address 2 to the manager. -/
def requestHead : RatHdr :=
  { port := 0, link := 0, crc := 0, length := 32, west := true, manager := false, src := 2, dst := 1, seq := 5, hops := 0 }

/-- Its request of 10 for block 0. -/
def request : RatMsg := .testRequest 0 10

/-- The header with the CRC that the message has. -/
def requestSealed : RatHdr := { requestHead with crc := crc32c (requestHead.bytes request) }

/-- The CRC of a message does not cover itself. -/
theorem ok_withCrc (h : RatHdr) (m : RatMsg) (hl : 16 ≤ h.length ∧ h.length ≤ 272) :
    ({ h with crc := crc32c (h.bytes m) } : RatHdr).ok m = true := by
  have hbytes (x : Word) : ({ h with crc := x } : RatHdr).bytes m = h.bytes m := rfl
  simp only [RatHdr.ok, hbytes, beq_self_eq_true, hl, decide_true, Bool.and_self]

/-- The manager after the link layer has taken the message. -/
def crowdedAcked : State :=
  { crowded with rat := { crowded.rat with rxLink := tset crowded.rat.rxLink 0 1 } }.emit (.ack 2 0)

theorem crowded_linkIn {x : Word} (hok : ({ requestHead with crc := x } : RatHdr).ok request = true) :
    crowded.ratLinkIn { requestHead with crc := x } request = (crowdedAcked, true) := by
  unfold State.ratLinkIn
  rw [hok]
  rfl

theorem crowdedAcked_receives (x : Word) :
    crowdedAcked.ratReceive { requestHead with crc := x } request = ⟨crowdedAcked.ratTaken 2 5, true, false⟩ := rfl

theorem crowdedAcked_ratTake (x : Word) :
    crowdedAcked.ratTake { requestHead with crc := x } request = (crowdedAcked.ratTaken 2 5).takeTestRequest 2 0 10 := by
  rw [State.ratTake_handled (crowdedAcked_receives x) (by decide)]
  rfl

/-- The unit at address 2 waits from now on, its budget no longer counts, and both requests are granted. -/
theorem crowdedAcked_grants : ((crowdedAcked.ratTaken 2 5).takeTestRequest 2 0 10).rat.grants = [⟨3, 0, 10, 0⟩, ⟨2, 0, 10, 0⟩] := by
  decide

/-- Refutes O50: a request that arrives behind one that does not fit is said to wait and to change no grant. But the budget of a unit
that waits for a grant is not counted (R293): on `crowded` the request of the unit at address 2 frees the 100 of its budget, the
request before it fits, and both are granted. -/
theorem not_ringFirmware : ¬ Obligations.RingFirmware := by
  unfold Obligations.RingFirmware
  rintro ⟨hmessages, -⟩
  obtain ⟨-, -, -, -, -, -, -, hwaits, -⟩ := hmessages crowded requestSealed 0 0 10 [] rfl
  have hlink := crowded_linkIn (ok_withCrc requestHead request (by decide))
  obtain ⟨t, ht, -, -, -, hgrants⟩ := hwaits (by
    show ((crowded.ratLinkIn requestSealed request).2
      && ((crowded.ratLinkIn requestSealed request).1.ratReceive requestSealed request).taken) = true
    rw [show crowded.ratLinkIn requestSealed request = _ from hlink]
    exact congrArg RatTake.taken (crowdedAcked_receives _)) (by decide) (.inl (by decide)) (by decide)
  have hnext : exec (.testRequest requestSealed 0 10) crowded = .next (crowdedAcked.ratTake requestSealed request) :=
    congrArg Host.Outcome.next (State.ratArrive_passed hlink)
  rw [ht, Host.Outcome.next.injEq] at hnext
  rw [hnext, show crowdedAcked.ratTake requestSealed request = _ from crowdedAcked_ratTake _, crowdedAcked_grants] at hgrants
  exact absurd hgrants (by decide)

end Sys2Proof.Machine
end

section
/-!
PROOFS. Receiving a message of the ratline before firmware takes it (R282 to R285, R291).
-/
namespace Sys2Proof.Machine
open Sys2Proof

/-! ## The window of a source (R284) -/

section window
variable {k b : Nat} {l : List Nat}

theorem mem_of_mem_insertNat {x : Nat} (h : x ∈ insertNat k l) : x = k ∨ x ∈ l := by
  induction l with
  | nil => exact .inl (List.mem_singleton.1 h)
  | cons j r ih =>
    unfold insertNat at h
    split at h
    · exact List.mem_cons.1 h
    · split at h
      · exact .inr h
      · rcases List.mem_cons.1 h with h | h
        · exact .inr (h ▸ List.mem_cons_self ..)
        · exact (ih h).imp_right (List.mem_cons_of_mem _)

theorem maxNat_le (h : ∀ x ∈ l, x ≤ b) : maxNat l ≤ b :=
  List.foldlRecOn l max (motive := (· ≤ b)) (Nat.zero_le b) fun _ hm x hx => max_le hm (h x hx)

theorem foldl_max_ge (l : List Nat) (a : Nat) : a ≤ l.foldl max a ∧ ∀ x ∈ l, x ≤ l.foldl max a := by
  induction l generalizing a with
  | nil => exact ⟨le_rfl, fun _ h => absurd h (List.not_mem_nil)⟩
  | cons y r ih =>
    obtain ⟨hle, hmem⟩ := ih (max a y)
    refine ⟨(le_max_left a y).trans hle, fun x hx => ?_⟩
    rcases List.mem_cons.1 hx with rfl | hx
    · exact (le_max_right a x).trans hle
    · exact hmem x hx

theorem le_maxNat {x : Nat} (h : x ∈ l) : x ≤ maxNat l := (foldl_max_ge l 0).2 x h

/-- A number that is not below the window stays in it when it is entered. -/
theorem maxNat_insertNat_le (h : maxNat l ≤ k + 256) : maxNat (insertNat k l) ≤ k + 256 := by
  refine maxNat_le fun x hx => ?_
  rcases mem_of_mem_insertNat hx with rfl | hx
  · omega
  · exact (le_maxNat hx).trans h

theorem State.ratTaken_duplicate {s : State} {src seq : Nat} (h : s.ratDuplicate src seq = false) :
    (s.ratTaken src seq).ratDuplicate src seq = true := by
  have hbelow : maxNat (tgetD s.rat.windows src []) ≤ seq + 256 := by
    simpa [State.ratDuplicate] using (Bool.or_eq_false_iff.1 h).2
  simp only [State.ratDuplicate, State.ratTaken, tgetD_tset_self, Bool.or_eq_true, List.contains_iff_mem, List.mem_filter]
  exact .inl ⟨mem_insertNat _ _, decide_eq_true (maxNat_insertNat_le hbelow)⟩

end window

/-! ## What the receiving of a message is -/

section receive
variable {s t : State} {h : RatHdr} {m : RatMsg} {α : Type} {l : List Fld}

theorem Touches.fwAlive (ht : Touches l s t) (hm : .mbx ∉ l) (hc : .ctl ∉ l) : t.fwAlive = s.fwAlive := by
  unfold State.fwAlive
  rw [ht.same .mbx hm, ht.same .ctl hc]

theorem RatTraffic.bump (s : State) (off : Nat) : RatTraffic s (s.bump off) := ⟨⟨_, _, _, s.bump_rat off⟩, s.bump_out off ▸ List.suffix_refl _⟩

theorem RatTraffic.ratForward (s : State) (h : RatHdr) (m : RatMsg) : RatTraffic s (s.ratForward h m) := by
  unfold State.ratForward
  dsimp only
  split
  · exact .refl s
  · split
    · exact .ratOut ..
    · exact .bump ..

theorem State.ratForward_own (ho : (s.rat.addr != 0 && (h.dst == s.rat.addr || h.src == s.rat.addr)) = true ∨ 15 ≤ h.hops) :
    s.ratForward h m = s :=
  if_pos (Bool.or_eq_true_iff.2 (ho.imp_right decide_eq_true))

theorem State.ratForward_other (ho : (s.rat.addr != 0 && (h.dst == s.rat.addr || h.src == s.rat.addr)) = false) (hh : h.hops < 15) :
    s.ratForward h m = if s.ratUp (1 - h.port) then s.ratOut (1 - h.port) (passedOn h m) else s.bump Reg.CHAIN_FWD_DROPS :=
  if_neg (by rw [ho]; simpa using hh)

/-- The unit when it looks whether a message is for it: the message has been forwarded, and an ASSIGN has made its address's window
empty. -/
def State.ratSeen (s : State) (h : RatHdr) (m : RatMsg) : State :=
  match m with
  | .assign _ a => (s.ratForward h m).clearWindow a
  | _ => s.ratForward h m

theorem State.ratSeen_same (f : RatState → α) (hf : ∀ r q p l, f (r.withTraffic q p l) = f r) (hw : ∀ r w, f { r with windows := w } = f r) :
    f (s.ratSeen h m).rat = f s.rat := by
  have hforward := (RatTraffic.ratForward s h m).same f hf
  unfold State.ratSeen
  split
  · exact (hw ..).trans hforward
  · exact hforward

theorem State.ratSeen_touches (s : State) (h : RatHdr) (m : RatMsg) : Touches [.regs, .pmu, .rat, .out] s (s.ratSeen h m) := by
  have hforward := s.ratForward_touches h m
  unfold State.ratSeen
  split
  · exact (Touches.set_rat (by decide) _).mpr hforward
  · exact hforward

theorem State.ratSeen_ratMine : (s.ratSeen h m).ratMine h m = s.ratMine h m := by
  unfold State.ratMine
  rw [State.ratSeen_same (·.addr) (fun _ _ _ _ => rfl) fun _ _ => rfl, (s.ratSeen_touches h m).same .dev (by decide)]

theorem State.ratReceive_eq : s.ratReceive h m =
    if !((s.ratSeen h m).ratMine h m) then ⟨s.ratSeen h m, false, false⟩
    else if (s.ratSeen h m).ratDuplicate h.src h.seq then ⟨(s.ratSeen h m).bump Reg.CHAIN_DUPLICATES, false, true⟩
    else ⟨(s.ratSeen h m).ratTaken h.src h.seq, true, false⟩ := rfl

theorem State.ratReceive_notMine (hm : s.ratMine h m = false) : s.ratReceive h m = ⟨s.ratSeen h m, false, false⟩ := by
  rw [State.ratReceive_eq, State.ratSeen_ratMine, hm]
  rfl

theorem State.ratReceive_duplicate (hm : s.ratMine h m = true) (hd : (s.ratSeen h m).ratDuplicate h.src h.seq = true) :
    s.ratReceive h m = ⟨(s.ratSeen h m).bump Reg.CHAIN_DUPLICATES, false, true⟩ := by
  rw [State.ratReceive_eq, State.ratSeen_ratMine, hm, hd]
  rfl

theorem State.ratReceive_fresh (hm : s.ratMine h m = true) (hd : (s.ratSeen h m).ratDuplicate h.src h.seq = false) :
    s.ratReceive h m = ⟨(s.ratSeen h m).ratTaken h.src h.seq, true, false⟩ := by
  rw [State.ratReceive_eq, State.ratSeen_ratMine, hm, hd]
  rfl

/-- What receiving a message leaves alone of the chain's state. -/
theorem State.ratReceive_same (f : RatState → α) (hf : ∀ r q p l, f (r.withTraffic q p l) = f r) (hw : ∀ r w, f { r with windows := w } = f r) :
    f (s.ratReceive h m).st.rat = f s.rat := by
  have hseen : f (s.ratSeen h m).rat = f s.rat := State.ratSeen_same f hf hw
  cases hm : s.ratMine h m with
  | false => rw [State.ratReceive_notMine hm, hseen]
  | true =>
    cases hd : (s.ratSeen h m).ratDuplicate h.src h.seq with
    | true => rw [State.ratReceive_duplicate hm hd, State.bump_rat, hseen]
    | false =>
      rw [State.ratReceive_fresh hm hd]
      exact (hw ..).trans hseen

/-- What the link layer leaves alone of the chain's state. -/
theorem State.ratLinkIn_same (f : RatState → α) (hl : ∀ r x, f { r with rxLink := x } = f r) : f (s.ratLinkIn h m).1.rat = f s.rat := by
  unfold State.ratLinkIn
  dsimp only
  split
  · rfl
  · split
    · rw [State.bump_rat]
    · split
      · exact hl ..
      · split <;> rfl

/-- A message that has been taken is a duplicate from then on, whatever it says. -/
theorem State.ratReceive_again (hm : s.ratMine h m = true) (hd : (s.ratSeen h m).ratDuplicate h.src h.seq = false) :
    (((s.ratReceive h m).st).ratReceive h .ringCheck).taken = false := by
  rw [State.ratReceive_fresh hm hd]
  dsimp only
  cases hm' : ((s.ratSeen h m).ratTaken h.src h.seq).ratMine h .ringCheck with
  | false => rw [State.ratReceive_notMine hm']
  | true =>
    have hagain := State.ratTaken_duplicate hd
    have hwindow := (RatTraffic.ratForward ((s.ratSeen h m).ratTaken h.src h.seq) h .ringCheck).same (·.windows) fun _ _ _ _ => rfl
    rw [State.ratReceive_duplicate hm']
    unfold State.ratDuplicate at hagain ⊢
    rw [← hagain]
    exact congrArg (fun w => (tgetD w h.src []).contains h.seq || decide (h.seq + 256 < maxNat (tgetD w h.src []))) hwindow

end receive

/-! ## The link layer of a port (R282, R285) -/

section link
variable {s : State} {h : RatHdr} {m : RatMsg} {p : Nat} {f : RatFrame}

theorem State.ratLinkIn_down (hu : s.ratUp h.port = false) : s.ratLinkIn h m = (s, false) := if_pos (by simpa using hu)

theorem State.ratLinkIn_broken (hu : s.ratUp h.port = true) (ho : h.ok m = false) :
    s.ratLinkIn h m = (s.bump Reg.CHAIN_CRC_ERRORS, false) := by
  simp only [State.ratLinkIn, hu, ho, Bool.not_true, Bool.not_false, Bool.false_eq_true, if_false, if_true]

theorem State.ratLinkIn_good (hu : s.ratUp h.port = true) (ho : h.ok m = true) : s.ratLinkIn h m =
    (let n := tgetD s.rat.rxLink h.port 0
    if h.link = n then
      ({ s with rat := { s.rat with rxLink := tset s.rat.rxLink h.port ((n + 1) % 256) } }.emit (.ack (2 + h.port) h.link), true)
    else if (n + 256 - h.link) % 256 ≤ 8 then (s.emit (.ack (2 + h.port) h.link), false)
    else (s, false)) := by
  simp only [State.ratLinkIn, hu, ho, Bool.not_true, Bool.false_eq_true, if_false]

theorem State.ratOut_nothing (hn : s.ratUp p = false ∨ 256 ≤ (tgetD s.rat.outQ p []).length) : s.ratOut p f = s := by
  refine if_neg ?_
  rcases hn with hn | hn
  · simp [hn]
  · simp [Nat.not_lt.2 hn]

theorem State.ratOut_queues (hu : s.ratUp p = true) (hq : (tgetD s.rat.outQ p []).length < 256) :
    s.ratOut p f = (s.ratQueued p f).ratPump 8 p := if_pos (by rw [hu, decide_eq_true hq]; rfl)

/-- With nothing waiting and room in the replay buffer a message leaves at once, and alone. -/
theorem State.ratOut_leaves (hu : s.ratUp p = true) (hq : tgetD s.rat.outQ p [] = []) (hr : (tgetD s.rat.replay p []).length < 8) :
    s.ratOut p f = (s.ratQueued p f).ratPumped p f [] := by
  have hwaits : tgetD (s.ratQueued p f).rat.outQ p [] = [f] := by
    simp [State.ratQueued, RatState.withTraffic, hq]
  rw [State.ratOut_queues hu (by simp [hq]), State.ratPump_sends 7 hwaits hu hr]
  have hempty : tgetD ((s.ratQueued p f).ratPumped p f []).rat.outQ p [] = [] := by
    simp [State.ratPumped, RatState.withTraffic, State.emit]
  rw [State.ratPump, hempty]

/-- With the replay buffer full a message waits. -/
theorem State.ratOut_waits (hu : s.ratUp p = true) (hq : (tgetD s.rat.outQ p []).length < 256) (hr : 8 ≤ (tgetD s.rat.replay p []).length) :
    s.ratOut p f = s.ratQueued p f := by
  rw [State.ratOut_queues hu hq, State.ratPump]
  split
  · rfl
  · have hfull : ¬ (tgetD (s.ratQueued p f).rat.replay p []).length < 8 := Nat.not_lt.2 hr
    exact if_neg (by simp [hfull])

end link

/-! ## The rows of the messages that firmware takes -/

section rows
variable {s : State} {h : RatHdr}

/-- The rows whose message this firmware handles as any other, with their messages. -/
def ringRows (h : RatHdr) (id : BitVec 64) (a b : Nat) (l : List Nat) (c : Completion) : List (Instr × RatMsg) :=
  [(.announce h id, .announce id), (.assign h id a, .assign id a), (.ratlineCompletion h c, .completion c), (.ringCheck h, .ringCheck),
    (.budget h l, .budget l), (.testRequest h a b, .testRequest a b), (.testGrant h a b, .testGrant a b), (.testDone h a, .testDone a)]

theorem exec_ringRow {id : BitVec 64} {a b : Nat} {l : List Nat} {c : Completion} {e : Instr × RatMsg} (he : e ∈ ringRows h id a b l c) :
    exec e.1 s = .next (s.ratArrive h e.2) := by
  simp only [ringRows, List.mem_cons, List.not_mem_nil, or_false] at he
  rcases he with rfl | rfl | rfl | rfl | rfl | rfl | rfl | rfl <;> rfl

variable {i : Instr} {m : RatMsg} (hx : exec i s = .next (s.ratArrive h m))
include hx

theorem gives_stopped (hl : (s.ratLinkIn h m).2 = false) : Gives i s (s.ratLinkIn h m).1 :=
  hx.trans (congrArg _ (State.ratArrive_stopped (Prod.ext rfl hl)))

theorem ratArrive_received (hl : (s.ratLinkIn h m).2 = true) : exec i s = .next ((s.ratLinkIn h m).1.ratTake h m) :=
  hx.trans (congrArg _ (State.ratArrive_passed (Prod.ext rfl hl)))

theorem gives_left (hl : (s.ratLinkIn h m).2 = true) (ht : ((s.ratLinkIn h m).1.ratReceive h m).taken = false) :
    Gives i s ((s.ratLinkIn h m).1.ratReceive h m).st :=
  (ratArrive_received hx hl).trans (congrArg _ (if_pos (by simpa using ht)))

/-- Firmware is not there: the message goes to the receive ring. -/
theorem gives_waits (hl : (s.ratLinkIn h m).2 = true) (ht : ((s.ratLinkIn h m).1.ratReceive h m).taken = true) (hf : s.fwAlive = false) :
    Gives i s (((s.ratLinkIn h m).1.ratReceive h m).st.ratWait h m) := by
  have hreceive := (s.ratLinkIn h m).1.ratReceive_touches h m
  have halive : ((s.ratLinkIn h m).1.ratReceive h m).st.fwAlive = false :=
    (hreceive.fwAlive (by decide) (by decide)).trans (((s.ratLinkIn_touches h m).fwAlive (by decide) (by decide)).trans hf)
  exact (ratArrive_received hx hl).trans (congrArg _ (State.ratTake_waits (dup := ((s.ratLinkIn h m).1.ratReceive h m).dup) (by rw [← ht]) halive))

end rows

/-- A RING_REPORT that is not for this manager shows it no way. -/
theorem exec_ringReport_elsewhere {s : State} {h : RatHdr} {ports d f : Nat} (hn : s.rat.manager = false ∨ h.dst ≠ s.rat.addr) :
    exec (.ringReport h ports d f) s = .next (s.ratArrive h (.ringReport ports d f)) := by
  have hm : (s.ratLinkIn h (.ringReport ports d f)).1.rat.manager = s.rat.manager := State.ratLinkIn_same (·.manager) fun _ _ => rfl
  have ha : (s.ratLinkIn h (.ringReport ports d f)).1.rat.addr = s.rat.addr := State.ratLinkIn_same (·.addr) fun _ _ => rfl
  have hoff : (s.rat.manager && h.dst == s.rat.addr) = false := by
    rcases hn with hn | hn
    · rw [hn]; rfl
    · rw [beq_eq_false_iff_ne.2 hn, Bool.and_false]
  show execRingReport h ports d f s = _
  simp only [execRingReport, State.ratArrive, hm, ha, hoff, State.when]
  cases (s.ratLinkIn h (.ringReport ports d f)).2 <;> rfl

section ring
variable {s : State} {h : RatHdr} {m : RatMsg}

theorem State.received_rxRing : ((s.ratLinkIn h m).1.ratReceive h m).st.rat.rxRing = s.rat.rxRing :=
  (State.ratReceive_same (·.rxRing) (fun _ _ _ _ => rfl) fun _ _ => rfl).trans (State.ratLinkIn_same (·.rxRing) fun _ _ => rfl)

theorem State.received_touches : Touches [.regs, .pmu, .rat, .out] s ((s.ratLinkIn h m).1.ratReceive h m).st :=
  ((s.ratLinkIn_touches h m).mono (by decide)).trans ((s.ratLinkIn h m).1.ratReceive_touches h m)

theorem State.ratWait_room (hr : s.rat.rxRing.length < 64) :
    (s.ratWait h m).rat.rxRing = s.rat.rxRing ++ [⟨h.west, h.manager, h.src, h.dst, h.seq, h.hops, m⟩] := by
  rw [State.ratWait, if_pos hr]
  rfl

theorem State.ratWait_full (hr : 64 ≤ s.rat.rxRing.length) : s.ratWait h m = s.bump Reg.CHAIN_RX_OVERFLOWS := if_neg (Nat.not_lt.2 hr)

theorem does_waits {i : Instr} (hx : exec i s = .next (s.ratArrive h m)) (hl : (s.ratLinkIn h m).2 = true)
    (ht : ((s.ratLinkIn h m).1.ratReceive h m).taken = true) (hf : s.fwAlive = false) (hr : s.rat.rxRing.length < 64) :
    Does i s [.regs, .pmu, .rat, .out] anyReg fun t =>
      t.rat.rxRing = s.rat.rxRing ++ [⟨h.west, h.manager, h.src, h.dst, h.seq, h.hops, m⟩] := by
  refine ⟨_, gives_waits hx hl ht hf, State.received_touches.trans ((State.ratWait_touches _ h m).mono (by decide)), fun _ hn => absurd trivial hn,
    ?_⟩
  dsimp only
  rw [State.ratWait_room (by rw [State.received_rxRing]; exact hr), State.received_rxRing]

end ring

/-- Settles O49: the link layer by its cases, the rows through `State.ratArrive`, then what forwarding, receiving and sending are. -/
theorem ringMessages : Obligations.RingMessages := by
  unfold Obligations.RingMessages
  intro msg
  refine ⟨fun s h m => ?link, fun s h id a b l c e he => ?rows, fun s h m => ?receive, fun s p f hp => ?out, fun s h ports d f => ?report⟩
  case link =>
    refine ⟨State.ratLinkIn_down, State.ratLinkIn_broken, fun hu ho => ?_⟩
    rw [State.ratLinkIn_good hu ho]
    exact ⟨fun h1 => if_pos h1, fun h1 h2 => (if_neg h1).trans (if_pos h2), fun h1 h2 => (if_neg h1).trans (if_neg (Nat.not_le.2 h2))⟩
  case rows =>
    have hx : exec e.1 s = .next (s.ratArrive h e.2) := exec_ringRow he
    refine ⟨gives_stopped hx, gives_left hx, does_waits hx, fun hl ht hf hr => ?_⟩
    have hfull := State.ratWait_full (s := ((s.ratLinkIn h e.2).1.ratReceive h e.2).st) (h := h) (m := e.2)
      (by rw [State.received_rxRing]; exact hr)
    exact hfull ▸ gives_waits hx hl ht hf
  case receive =>
    intro own mine w seen dup
    have hmine : s.ratMine h m = mine := rfl
    have hw : w = s.ratSeen h m := rfl
    have hdup : (s.ratSeen h m).ratDuplicate h.src h.seq = dup := rfl
    rw [← hmine, ← hdup]
    refine ⟨State.ratForward_own, fun hown hhops hup => ?_, fun hown hhops hup => ?_, fun hm => ?_, fun hm hd => ?_, fun hm hd => ?_⟩
    · exact (State.ratForward_other hown hhops).trans (if_neg (by simpa using hup))
    · exact (State.ratForward_other hown hhops).trans (if_pos hup)
    · rw [State.ratReceive_notMine hm]
      exact ⟨hw.symm, rfl⟩
    · rw [State.ratReceive_duplicate hm hd]
      exact ⟨hw ▸ rfl, rfl⟩
    · refine ⟨by rw [State.ratReceive_fresh hm hd], State.ratReceive_same (·.seq) (fun _ _ _ _ => rfl) fun _ _ => rfl,
        State.ratReceive_same (·.rxRing) (fun _ _ _ _ => rfl) fun _ _ => rfl, State.ratReceive_same (·.table) (fun _ _ _ _ => rfl) fun _ _ => rfl,
        fun _ => State.ratReceive_again hm hd⟩
  case out =>
    refine ⟨State.ratOut_nothing, fun hu hq hr => ?_, fun hu hq hr => ?_⟩
    · rw [State.ratOut_leaves hu hq hr, State.ratPumped_out]
      refine ⟨rfl, ?_, ?_⟩
      · simp [State.ratPumped, RatState.withTraffic, State.emit, State.ratQueued]
      · simp [State.ratPumped, RatState.withTraffic, State.emit, State.ratQueued]
    · rw [State.ratOut_waits hu hq hr]
      exact ⟨rfl, tgetD_tset_self ..⟩
  case report =>
    refine ⟨fun hl => congrArg Host.Outcome.next (if_pos (by simpa using hl)), fun hl hn ht => ?_⟩
    have hx := exec_ringReport_elsewhere (ports := ports) (d := d) (f := f) hn
    exact gives_left hx hl ht

end Sys2Proof.Machine
end

section
/-!
PROOFS. The journal rule (R306, R313, R322), and that a refused command changes nothing (R320).
-/
namespace Sys2Proof.Machine
open Sys2Proof

/-! ## A command that is refused changes nothing (R320) -/

/-- A refused command changes nothing. -/
def Answer.Spares (s : State) (a : Answer) : Prop := a.status ≠ eOk → a.st = s

section spares
variable {s : State} {a : Answer} {h : CmdHdr} {x : CmdCtx} {p : Payload}

theorem Answer.Spares.ok (h : a.status = eOk) : a.Spares s := fun hn => absurd h hn

theorem Answer.Spares.same (h : a.st = s) : a.Spares s := fun _ => h

theorem Answer.Spares.checked {l : List (Bool × Nat)} {f : State → Answer} (h : (f s).Spares s) : (s.checked l f).Spares s := by
  unfold State.checked
  split
  · exact .same rfl
  · exact h

theorem State.doFlowAdd_spares {f : FlowArg} (hn : (s.doFlowAdd f).status ≠ eNoCapacity) : (s.doFlowAdd f).Spares s := by
  unfold State.doFlowAdd at hn ⊢
  split
  · exact .same rfl
  · next hb =>
    rw [hb] at hn
    cases hplace : placement s.net.flows (keyOf f) with
    | none => exact absurd rfl (hplace ▸ hn)
    | some e => exact .ok rfl

theorem State.doNetAddress_spares (n : NetAddressArg) : (s.doNetAddress n).Spares s := by
  unfold State.doNetAddress
  split
  · exact .same rfl
  · dsimp only
    split
    · split
      · split
        · exact .ok rfl
        · exact .same rfl
      · exact .ok rfl
    · exact .ok rfl

theorem State.doTimeConfig_spares (c : TimeConfigArg) : (s.doTimeConfig c).Spares s := by
  unfold State.doTimeConfig
  split
  · exact .same rfl
  · split
    · exact .same rfl
    · exact .ok rfl

theorem State.doCalRead_spares (f : Nat) : (s.doCalRead f).Spares s := by
  unfold State.doCalRead
  split
  · exact .same rfl
  · exact .ok rfl

theorem State.doCalWrite_spares (c : CalWriteArg) : (s.doCalWrite c).Spares s := by
  unfold State.doCalWrite
  split
  · exact .same rfl
  · exact .checked (.ok rfl)

theorem State.doCompletionFetch_spares (q : Nat) : (s.doCompletionFetch x q).Spares s := by
  unfold State.doCompletionFetch
  split <;> exact .same rfl

/-- A command changes nothing when it is refused, but for SESSION_PROVE and a FLOW_ADD for which there is no room. -/
theorem State.body_spares (hp : opcodeOf p ≠ 0x0102) (hf : ¬ (opcodeOf p = 0x0403 ∧ (s.body x p).status = eNoCapacity)) :
    (s.body x p).Spares s := by
  cases p with
  | sessionProve => exact absurd rfl hp
  | flowAdd => exact State.doFlowAdd_spares fun h => hf ⟨rfl, h⟩
  | sessionClose | deviceInfo => exact .same rfl
  | completionFetch => exact State.doCompletionFetch_spares _
  | calRead => exact State.doCalRead_spares _
  | calWrite => exact State.doCalWrite_spares _
  | timeConfig => exact State.doTimeConfig_spares _
  | netAddress => exact State.doNetAddress_spares _
  | shutdown | laneConfig | channelStart | channelStop | channelCommit | channelRefresh | ltrMark | ltrRelease | protectedLoad
  | protectedRemove | groupLeave | groupHandover | cuAssign =>
    -- the command is done or replies, whatever its last case distinction gives
    refine .checked (.ok ?_)
    dsimp only
    repeat' split
    all_goals rfl
  | _ => exact .checked (.ok rfl)

theorem State.checkedBody_cases (s : State) (h : CmdHdr) (x : CmdCtx) (p : Payload) :
    s.checkedBody h x p = { st := s, status := eBadParam } ∨ s.checkedBody h x p = s.body x p := ite_eq_or_eq ..

theorem State.checkedBody_spares (hp : opcodeOf p ≠ 0x0102) (hf : ¬ (opcodeOf p = 0x0403 ∧ (s.checkedBody h x p).status = eNoCapacity)) :
    (s.checkedBody h x p).Spares s := by
  rcases s.checkedBody_cases h x p with hc | hc
  · rw [hc]
    exact .same rfl
  · rw [hc] at hf ⊢
    exact State.body_spares hp hf

theorem State.bringReady_spares : (s.bringReady h x p).Spares s := by
  unfold State.bringReady
  dsimp only
  split
  · next hok => exact .ok hok
  · exact .same rfl

theorem State.execute_noThread (ht : s.threadFree = false) : s.execute h x p = { st := s, status := eBusy } := if_pos (by simp [ht])

theorem State.execute_ready (ht : s.threadFree = true) (hd : s.dev.state = .ready) : s.execute h x p = s.checkedBody h x p := by
  unfold State.execute
  rw [ht, hd]
  rfl

theorem State.execute_testing (ht : s.threadFree = true) (hd : s.dev.state = .testing) (hc : (opInfo p).cls = .r) :
    s.execute h x p = { st := s, status := eRejectedSelftest } := by
  unfold State.execute
  rw [ht, hd, hc]
  rfl

theorem State.execute_halted (ht : s.threadFree = true) (hd : s.dev.state = .halted) (hc : (opInfo p).cls = .r) :
    s.execute h x p = { st := s, status := eState } := by
  unfold State.execute
  rw [ht, hd, hc]
  rfl

theorem State.execute_haltedCool (ht : s.threadFree = true) (hd : s.dev.state = .halted) (hc : (opInfo p).cls = .s) (hh : s.tooHot = false) :
    s.execute h x p = s.bringReady h x p := by
  unfold State.execute
  rw [ht, hd, hc, hh]
  rfl

end spares

/-! ## The journal (R312, R313) -/

section journal
variable {j : Tab JEntry} {q : Nat}

theorem journalPut_above (hs : tsorted j = true) (h : journalHigh j < q) (e : JEntry) :
    journalPut j q e = j.drop (j.length + 1 - 32768) ++ [(q, e)] := by
  unfold journalPut
  rw [tset_below (below_of_high hs h)]
  dsimp only
  rw [List.length_append, List.length_singleton]
  exact List.drop_append_of_le_length (by omega)

theorem tget_journalPut_above (hs : tsorted j = true) (h : journalHigh j < q) (e : JEntry) : tget (journalPut j q e) q = some e := by
  rw [journalPut_above hs h]
  exact tget_last (fun x hx => below_of_high hs h x (List.mem_of_mem_drop hx)) e

theorem journalHigh_journalPut_above (hs : tsorted j = true) (h : journalHigh j < q) (e : JEntry) : journalHigh (journalPut j q e) = q := by
  rw [journalPut_above hs h, journalHigh, List.getLast?_concat]

theorem tget_of_above (hs : tsorted j = true) (h : journalHigh j < q) : tget j q = none := by
  have hbelow := below_of_high hs h
  clear hs h
  induction j with
  | nil => rfl
  | cons e r ih =>
    exact (if_neg (hbelow e (List.mem_cons_self ..)).ne).trans (ih fun x hx => hbelow x (List.mem_cons_of_mem _ hx))

theorem journalRule_above (hs : tsorted j = true) (h : journalHigh j < q) : journalRule j q = .fresh := by
  unfold journalRule
  rw [if_neg (by omega), tget_of_above hs h]
  exact if_pos h

theorem journalRule_zero : journalRule j 0 = .refuse eBadParam := if_pos rfl

theorem journalRule_done {c : Completion} (h0 : q ≠ 0) (h : tget j q = some (.done c)) : journalRule j q = .repeated c := by
  unfold journalRule
  rw [if_neg h0, h]

theorem journalRule_inProgress (h0 : q ≠ 0) (h : tget j q = some .inProgress) : journalRule j q = .inProgress := by
  unfold journalRule
  rw [if_neg h0, h]

theorem journalRule_old (h0 : q ≠ 0) (h : tget j q = none) (hq : q ≤ journalHigh j) : journalRule j q = .refuse eState := by
  unfold journalRule
  rw [if_neg h0, h]
  exact if_neg (Nat.not_lt.2 hq)

end journal

/-! ## A command under the rule -/

section rule
variable {s : State} {h : CmdHdr} {x : CmdCtx} {p : Payload} {f : State → Answer}

theorem State.runHere_unjournaled (hu : unjournaled p = true) :
    s.runHere h x p f = HeldCmd.answer ⟨.service, x.from_, x.slot, x.roles, h, p, false⟩ (f s) := if_pos hu

theorem State.runHere_refused {e : Nat} (hu : unjournaled p = false) (hj : journalRule (s.journalOf x) h.seq = .refuse e) :
    s.runHere h x p f = s.complete x.from_ (completionOf h (opcodeOf p) e false []) false := by
  simp only [State.runHere, hu, hj, Bool.false_eq_true, if_false]

theorem State.runHere_repeated {c : Completion} (hu : unjournaled p = false) (hj : journalRule (s.journalOf x) h.seq = .repeated c) :
    s.runHere h x p f = s.complete x.from_ { c with duplicate := true } false := by
  simp only [State.runHere, hu, hj, Bool.false_eq_true, if_false]

theorem State.runHere_inProgress (hu : unjournaled p = false) (hj : journalRule (s.journalOf x) h.seq = .inProgress) :
    s.runHere h x p f = s.complete x.from_ (completionOf h (opcodeOf p) eBusy true []) false := by
  simp only [State.runHere, hu, hj, Bool.false_eq_true, if_false]

theorem State.runHere_fresh (hu : unjournaled p = false) (hj : journalRule (s.journalOf x) h.seq = .fresh) :
    s.runHere h x p f = HeldCmd.answer ⟨.service, x.from_, x.slot, x.roles, h, p, false⟩
      (f (s.setJournal x (journalPut (s.journalOf x) h.seq .inProgress))) := by
  simp only [State.runHere, hu, hj, Bool.false_eq_true, if_false]

end rule

/-! ## A command word of the host (R306) -/

section host
variable {s : State} {h : CmdHdr} {p : Payload} {g b : Nat}

/-- Who issues the command that the word of a pair announces. -/
def State.ctxOf (s : State) (h : CmdHdr) (g b : Nat) : CmdCtx :=
  let e := tgetD s.mbx.sessions h.pair ⟨0, 0⟩
  ⟨.host h.pair g b, e.slot, e.roles, h.seq⟩

/-- A COMMAND word with tag `g` for block `b` that a block can answer waits in the mailbox of the pair, and the firmware may read it. -/
structure Announced (s : State) (h : CmdHdr) (g b : Nat) : Prop where
  tag : g < 4096
  block : b < 32
  word : tget s.mbx.h2d h.pair = some (mbxWord 1 g b)
  turn : s.mayRead h.pair = true
  known : h.pair = 0 ∨ thas s.mbx.sessions h.pair = true

theorem Announced.wordRefusal (ha : Announced s h g b) : s.wordRefusal h.pair (mbxWord 1 g b) = none := by
  have hblock := ha.block
  unfold State.wordRefusal
  rw [wordType_mbxWord (by decide), wordParam_mbxWord (by omega), if_neg (by decide), if_neg (by omega)]
  refine if_neg fun ⟨hp, hs⟩ => ?_
  rcases ha.known with hk | hk
  · exact hp hk
  · simp [hk] at hs

theorem State.serveWord_sessions (s : State) (k : Nat) : (s.serveWord k).mbx.sessions = s.mbx.sessions := by
  obtain ⟨m, o, heq, htaken, -⟩ := s.serveWord_eq k
  rw [heq]
  exact htaken.sessions

theorem State.runCommand_announced (ha : Announced s h g b) : s.runCommand h p =
    (commandRefusal h (s.ctxOf h g b).roles p).elim
      (if 2 ≤ h.target then (s.serveWord h.pair).runForward h (s.ctxOf h g b) g b p
        else (s.serveWord h.pair).runHere h (s.ctxOf h g b) p fun t => t.execute h (s.ctxOf h g b) p)
      fun e => (s.serveWord h.pair).complete (.host h.pair g b) (completionOf h h.opcode e false []) false := by
  have hblock := ha.block
  unfold State.runCommand
  rw [ha.word]
  simp only [ha.turn, wordType_mbxWord (show 1 < 16 by decide), ha.wordRefusal, wordTag_mbxWord ha.tag,
    wordParam_mbxWord (show b < 65536 by omega), State.serveWord_sessions]
  show (match commandRefusal h (s.ctxOf h g b).roles p with | some e => _ | none => _) = _
  cases commandRefusal h (s.ctxOf h g b).roles p <;> rfl

/-- What a command that is completed at once leaves: its block holds the completion and its word is the last of the queue. -/
def State.CompletedHere (s : State) (h : CmdHdr) (g b : Nat) (c : Completion) (t : State) : Prop :=
  Touches [.mbx, .out] s t ∧ t.mbx.journal = s.mbx.journal ∧ t.mbx.sessions = s.mbx.sessions
    ∧ tget t.mbx.blocks (32 * h.pair + b) = some c ∧ tget t.mbx.h2d h.pair = none
    ∧ ∃ a, tgetD t.mbx.queue h.pair [] = tgetD s.mbx.queue h.pair [] ++ [(mbxWord 1 g b, a)]

theorem State.completedHere (s : State) (h : CmdHdr) (g b : Nat) (c : Completion) :
    s.CompletedHere h g b c ((s.serveWord h.pair).complete (.host h.pair g b) c false) := by
  obtain ⟨m, o, heq, htaken, hjournal⟩ := s.serveWord_eq h.pair
  rw [heq]
  refine ⟨s.atBody_touches _ o, hjournal, htaken.sessions, tget_tset_self .., ?_, ?_⟩
  · exact (congrArg (tget · h.pair) htaken.h2d).trans (tget_tdel_self ..)
  · exact ⟨_, (tgetD_tset_self ..).trans (congrArg (tgetD · h.pair [] ++ _) htaken.queue)⟩

theorem State.journalOf_serveWord (s : State) (h : CmdHdr) (g b : Nat) :
    (s.serveWord h.pair).journalOf (s.ctxOf h g b) = tgetD s.mbx.journal (tgetD s.mbx.sessions h.pair ⟨0, 0⟩).slot [] := by
  obtain ⟨m, o, heq, -, hjournal⟩ := s.serveWord_eq h.pair
  rw [heq]
  exact congrArg (tgetD · _ []) hjournal

theorem State.runCommand_refused (ha : Announced s h g b) {r : Nat} (hc : commandRefusal h (s.ctxOf h g b).roles p = some r) :
    s.runCommand h p = (s.serveWord h.pair).complete (.host h.pair g b) (completionOf h h.opcode r false []) false := by
  rw [State.runCommand_announced ha, hc]
  rfl

theorem State.runCommand_here (ha : Announced s h g b) (hc : commandRefusal h (s.ctxOf h g b).roles p = none) (ht : h.target < 2) :
    s.runCommand h p = (s.serveWord h.pair).runHere h (s.ctxOf h g b) p fun t => t.execute h (s.ctxOf h g b) p := by
  rw [State.runCommand_announced ha, hc]
  exact if_neg (Nat.not_le.2 ht)

theorem State.runCommand_away (ha : Announced s h g b) (hc : commandRefusal h (s.ctxOf h g b).roles p = none) (ht : 2 ≤ h.target) :
    s.runCommand h p = (s.serveWord h.pair).runForward h (s.ctxOf h g b) g b p := by
  rw [State.runCommand_announced ha, hc]
  exact if_pos ht

/-- COMPLETION_FETCH of a completed sequence returns the stored block (R313). -/
theorem State.runCommand_fetches (ha : Announced s h g b) {q : Nat} {c : Completion}
    (hc : commandRefusal h (s.ctxOf h g b).roles (.completionFetch q) = none) (ht : h.target < 2) (hr : h.reservedOk = true)
    (hq : tget (tgetD s.mbx.journal (tgetD s.mbx.sessions h.pair ⟨0, 0⟩).slot []) q = some (.done c)) (hd : s.dev.state = .ready)
    (hf : s.threadFree = true) :
    s.runCommand h (.completionFetch q) =
      (s.serveWord h.pair).complete (.host h.pair g b) { c with duplicate := true, fetched := true } false := by
  have hserved := s.serveWord_touches h.pair
  have hd' : (s.serveWord h.pair).dev.state = .ready := by rw [hserved.same .dev (by decide), hd]
  have hf' : (s.serveWord h.pair).threadFree = true := by rw [State.threadFree, hserved.same .ctl (by decide)]; exact hf
  have hbody : (s.serveWord h.pair).execute h (s.ctxOf h g b) (.completionFetch q)
      = { st := s.serveWord h.pair, stored := some { c with duplicate := true, fetched := true }, status := c.status } := by
    rw [State.execute_ready hf' hd']
    unfold State.checkedBody
    rw [hr]
    show (s.serveWord h.pair).doCompletionFetch (s.ctxOf h g b) q = _
    rw [State.doCompletionFetch, State.journalOf_serveWord, hq]
  rw [State.runCommand_here ha hc ht, State.runHere_unjournaled rfl, hbody]
  unfold HeldCmd.answer
  dsimp only
  rw [if_neg (by simp [unjournaled])]
  rfl

/-! ## A command for a worker (R289, R290) -/

theorem State.runForward_sends {x : CmdCtx} (hf : s.forwardRefusal h p = none)
    (hn : unjournaled p = true ∨ (h.seq ≠ 0 ∧ thas (s.journalOf x) h.seq = false)) : s.runForward h x g b p = s.forward h x g b p := by
  unfold State.runForward
  rw [hf]
  refine if_neg ?_
  rcases hn with hn | ⟨h0, hn⟩
  · simp [hn]
  · simp [h0, hn]

theorem State.forward_mbx {x : CmdCtx} : (s.forward h x g b p).mbx = s.mbx := (State.ratSend_touches ..).same .mbx (by decide)

theorem State.forwardRefusal_serveWord (s : State) (k : Nat) : (s.serveWord k).forwardRefusal h p = s.forwardRefusal h p := by
  unfold State.forwardRefusal
  rw [(s.serveWord_touches k).same .rat (by decide)]

end host

/-! ## A command as it begins -/

section begins
variable {s : State} {x : CmdCtx} {q : Nat}

/-- The machine in which a new sequence of a slot's journal is in progress. -/
def State.journaled (s : State) (x : CmdCtx) (q : Nat) : State := s.setJournal x (journalPut (s.journalOf x) q .inProgress)

theorem State.journaled_host_journal {pair g b : Nat} (hx : x.from_ = .host pair g b) (s : State) (q : Nat) :
    tgetD (s.journaled x q).mbx.journal x.slot [] = journalPut (tgetD s.mbx.journal x.slot []) q .inProgress := by
  have hj : s.journalOf x = tgetD s.mbx.journal x.slot [] := by rw [State.journalOf, hx]
  have hset (j : Tab JEntry) : (s.setJournal x j).mbx.journal = if j.isEmpty then tdel s.mbx.journal x.slot else tset s.mbx.journal x.slot j := by
    rw [State.setJournal, hx]
  rw [State.journaled, hset, hj, if_neg (by rw [journalPut_ne]; decide), tgetD_tset_self]

theorem State.journaled_host_touches {pair g b : Nat} (hx : x.from_ = .host pair g b) (s : State) (q : Nat) :
    Touches [.mbx, .out] s (s.journaled x q) := by
  unfold State.journaled State.setJournal
  rw [hx]
  exact s.atBody_touches _ s.out

theorem State.journaled_ratline {src : Nat} (hx : x.from_ = .ratline src) (s : State) (q : Nat) :
    let j := journalPut (tgetD s.rat.stored (8 * src + x.slot) []) q .inProgress
    s.journaled x q = { s with rat := { s.rat with stored := tset s.rat.stored (8 * src + x.slot) j } } := by
  intro j
  unfold State.journaled State.setJournal State.journalOf
  rw [hx]

end begins

/-- Settles O59: a command of the host by its refusal and the journal rule, one of a manager in the same way, and what a refusal spares. -/
theorem journalRule_holds : Obligations.JournalRule := by
  unfold Obligations.JournalRule
  refine ⟨fun s h p g b => ?host, fun s h p src k roles => ?worker, fun s h x p => ?spares⟩
  case host =>
    intro e j x t answers hg hb hw hm ho
    have ha : Announced s h g b := ⟨hg, hb, hw, hm, ho⟩
    have hj : (s.serveWord h.pair).journalOf (s.ctxOf h g b) = j := s.journalOf_serveWord h g b
    have hrule {r : JournalRule} (hr : journalRule j h.seq = r) : journalRule ((s.serveWord h.pair).journalOf (s.ctxOf h g b)) h.seq = r := by
      rw [hj]
      exact hr
    have hanswers {c : Completion} (hc : t = (s.serveWord h.pair).complete (.host h.pair g b) c false) : answers c := by
      have hdone := s.completedHere h g b c
      rw [← hc] at hdone
      exact hdone
    refine ⟨fun r hr => hanswers (State.runCommand_refused ha hr), fun hc hu ht => ?_, fun hc ht hf hn => ?_, fun q c hp hc ht hr hq hd hfree => ?_⟩
    · have hrun : t = _ := State.runCommand_here ha hc ht
      refine ⟨fun h0 => ?_, fun c h0 hq => ?_, fun h0 hq => ?_, fun h0 hq hold => ?_, fun hs habove => ?_⟩
      · exact hanswers (hrun.trans (State.runHere_refused hu (hrule (by rw [h0]; exact journalRule_zero))))
      · exact hanswers (hrun.trans (State.runHere_repeated hu (hrule (journalRule_done h0 hq))))
      · exact hanswers (hrun.trans (State.runHere_inProgress hu (hrule (journalRule_inProgress h0 hq))))
      · exact hanswers (hrun.trans (State.runHere_refused hu (hrule (journalRule_old h0 hq hold))))
      · intro w
        have hw : w = (s.serveWord h.pair).journaled (s.ctxOf h g b) h.seq := by
          rw [State.journaled, hj]
          rfl
        have hjournal : tgetD w.mbx.journal e.slot [] = journalPut j h.seq .inProgress := by
          rw [hw, ← hj]
          exact State.journaled_host_journal rfl _ _
        refine ⟨?_, ?_, ?_, ?_⟩
        · rw [hw]
          exact (s.serveWord_touches h.pair).trans (State.journaled_host_touches rfl _ _)
        · rw [hjournal]
          exact tget_journalPut_above hs habove _
        · rw [hjournal]
          exact journalHigh_journalPut_above hs habove _
        · rw [hrun, hw]
          exact State.runHere_fresh hu (hrule (journalRule_above hs habove))
    · have hsent : unjournaled p = true ∨ (h.seq ≠ 0 ∧ thas ((s.serveWord h.pair).journalOf (s.ctxOf h g b)) h.seq = false) :=
        hn.imp_right fun ⟨h0, hq⟩ => ⟨h0, by rw [hj, thas, hq]; rfl⟩
      have hrun : t = (s.serveWord h.pair).forward h (s.ctxOf h g b) g b p :=
        (State.runCommand_away ha hc ht).trans (State.runForward_sends ((s.forwardRefusal_serveWord _).trans hf) hsent)
      obtain ⟨m, o, heq, htaken, hjournal⟩ := s.serveWord_eq h.pair
      rw [hrun, State.forward_mbx, heq]
      exact ⟨hjournal, htaken.blocks⟩
    · subst hp
      exact hanswers (State.runCommand_fetches ha hc ht hr hq hd hfree)
  case worker =>
    intro j x w hu hs habove
    have hw : w = s.journaled x h.seq := rfl
    have hjournal : tgetD w.rat.stored (8 * src + k) [] = journalPut j h.seq .inProgress := by
      rw [hw, State.journaled_ratline rfl]
      exact tgetD_tset_self ..
    refine ⟨?_, ?_, ?_, ?_⟩
    · rw [hw, State.journaled_ratline rfl]
      exact (Touches.set_rat (by decide) _).mpr (Touches.refl _ s)
    · rw [hjournal]
      exact tget_journalPut_above hs habove _
    · rw [hjournal]
      exact journalHigh_journalPut_above hs habove _
    · exact State.runHere_fresh (s := s) (x := x) (f := fun t => t.execute h x p) hu (journalRule_above (j := j) hs habove)
  case spares =>
    intro a
    cases ht : s.threadFree with
    | false =>
      have ha : a = { st := s, status := eBusy } := State.execute_noThread ht
      rw [ha]
      exact ⟨fun _ _ _ _ => rfl, fun _ => ⟨rfl, rfl⟩, fun h => absurd h (by decide), fun h => absurd h (by decide), fun _ _ _ _ => rfl⟩
    | true =>
      refine ⟨fun hd hn hp hf => ?_, fun h => absurd h (by decide), fun _ hd hc => ?_, fun _ hd hc => ?_, fun hd hc hh hn => ?_⟩
      · have ha : a = s.checkedBody h x p := State.execute_ready ht hd
        rw [ha] at hn hf ⊢
        exact State.checkedBody_spares hp hf hn
      · rw [show a = _ from State.execute_testing ht hd hc]
        exact ⟨rfl, rfl⟩
      · rw [show a = _ from State.execute_halted ht hd hc]
        exact ⟨rfl, rfl⟩
      · have ha : a = s.bringReady h x p := State.execute_haltedCool ht hd hc hh
        rw [ha] at hn ⊢
        exact State.bringReady_spares hn

end Sys2Proof.Machine
end

section
/-!
PROOFS. Commands for a worker: at the manager (R280, R289, R290) and at the worker (R284, R289, R290).
-/
namespace Sys2Proof.Machine
open Sys2Proof

/-! ## Sending on both ports (R283) -/

section sending
variable {s : State} {dst seq p q n : Nat} {m : RatMsg} {f : RatFrame}

/-- What waits for a port, and what it has not yet acknowledged, is as before. -/
def PortKept (q : Nat) (s t : State) : Prop :=
  tgetD t.rat.outQ q [] = tgetD s.rat.outQ q [] ∧ tgetD t.rat.replay q [] = tgetD s.rat.replay q []

theorem PortKept.ratPump (hne : p ≠ q) (n : Nat) (s : State) : PortKept q s (s.ratPump n p) := by
  induction n generalizing s with
  | zero => exact ⟨rfl, rfl⟩
  | succ n ih =>
    rw [State.ratPump]
    split
    · exact ⟨rfl, rfl⟩
    · next f rest _ =>
      split
      · obtain ⟨hout, hreplay⟩ := ih (s.ratPumped p f rest)
        refine ⟨hout.trans ?_, hreplay.trans ?_⟩
        · simp [State.ratPumped, RatState.withTraffic, State.emit, tgetD_tset_ne hne]
        · simp [State.ratPumped, RatState.withTraffic, State.emit, tgetD_tset_ne hne]
      · exact ⟨rfl, rfl⟩

theorem PortKept.ratOut (hne : p ≠ q) (s : State) (f : RatFrame) : PortKept q s (s.ratOut p f) := by
  unfold State.ratOut
  dsimp only
  split
  · obtain ⟨hout, hreplay⟩ := PortKept.ratPump hne 8 (s.ratQueued p f)
    exact ⟨hout.trans (tgetD_tset_ne hne ..), hreplay⟩
  · exact ⟨rfl, rfl⟩

theorem RatTraffic.ratSendAs (s : State) (dst seq : Nat) (m : RatMsg) : RatTraffic s (s.ratSendAs dst seq m) :=
  (RatTraffic.ratOut ..).trans (.ratOut ..)

/-- A message leaves at once on each port that is up with nothing waiting and room for another frame (R285). -/
theorem State.mem_ratSendAs_out (hq : q ≤ 1) (hu : s.ratUp q = true) (ho : tgetD s.rat.outQ q [] = [])
    (hr : (tgetD s.rat.replay q []).length < 8) : ∃ k, Out.rat q k (s.ratFrame dst seq (q == 1) m) ∈ (s.ratSendAs dst seq m).out := by
  obtain rfl | rfl : q = 0 ∨ q = 1 := by omega
  · exact ⟨_, (RatTraffic.ratOut ..).out.subset (State.mem_ratOut_out hu ho hr)⟩
  · obtain ⟨hout, hreplay⟩ := PortKept.ratOut (p := 0) (q := 1) (by decide) s (s.ratFrame dst seq false m)
    have hup : (s.ratOut 0 (s.ratFrame dst seq false m)).ratUp 1 = true := by
      rw [State.ratUp, State.portUp, (State.ratOut_touches ..).same .lane (by decide)]
      exact hu
    exact ⟨_, State.mem_ratOut_out hup (hout.trans ho) (by rw [hreplay]; exact hr)⟩

theorem RatTraffic.foldl_ratSendAs {β : Type} (d r : β → Nat) (m : β → RatMsg) (l : List β) (s : State) :
    RatTraffic s (l.foldl (fun t x => t.ratSendAs (d x) (r x) (m x)) s) := by
  induction l generalizing s with
  | nil => exact .refl s
  | cons x l ih => exact (RatTraffic.ratSendAs ..).trans (ih _)

end sending

/-! ## At the manager (R280, R289) -/

section manager
variable {s : State} {h : CmdHdr} {p : Payload} {g b : Nat} {x : CmdCtx}

/-- Why a command for a worker is refused, in order (R280, R289). -/
theorem State.forwardRefusal_eq (s : State) (h : CmdHdr) (p : Payload) : s.forwardRefusal h p =
    if (opInfo p).roles == .oneOf 16 then some eNotAuthorised else if s.rat.conflict then some eState
    else if s.rat.manager = false ∨ thas s.rat.table h.target = false then some eBadParam else none := by
  have hlast : (!s.rat.manager || !(thas s.rat.table h.target)) = true ↔ s.rat.manager = false ∨ thas s.rat.table h.target = false := by
    simp only [Bool.or_eq_true, Bool.not_eq_true']
  simp only [State.forwardRefusal, firstBad, hlast]

theorem State.runForward_refused {e : Nat} (hf : s.forwardRefusal h p = some e) :
    s.runForward h x g b p = s.runHere h x p fun t => { st := t, status := e } := by
  unfold State.runForward
  rw [hf]

theorem State.runForward_known (hf : s.forwardRefusal h p = none) (hu : unjournaled p = false) (hk : thas (s.journalOf x) h.seq = true) :
    s.runForward h x g b p = s.runHere h x p State.done := by
  unfold State.runForward
  rw [hf]
  exact if_pos (by simp [hu, hk])

/-- The command as the manager keeps it until its completion comes. -/
def State.forwarding (s : State) (h : CmdHdr) (x : CmdCtx) (tag block : Nat) (p : Payload) : State :=
  { s with rat := { s.rat with forwarded := s.rat.forwarded ++ [⟨x.pair, tag, block, h, x.slot, x.roles, p, s.rat.seq⟩] } }

theorem State.forward_traffic : RatTraffic (s.forwarding h x g b p).ratNext (s.forward h x g b p) := .ratSend ..

/-- A completion of a forwarded command goes into the host's block, and the command is no longer kept. -/
theorem State.finishForward_finishes (s : State) (f : Forwarded) (c : Completion) : ∃ m,
    s.finishForward f c = { s with rat := { s.rat with forwarded := s.rat.forwarded.erase f }, mbx := m }
      ∧ tget m.blocks (32 * f.pair + f.block) =
          some { c with session := if c.fetched then c.session else f.hdr.session, target := f.hdr.target, forwarded := true }
      ∧ ∃ a, tgetD m.queue f.pair [] = tgetD s.mbx.queue f.pair [] ++ [(mbxWord 1 f.tag f.block, a)] :=
  ⟨_, rfl, tget_tset_self .., _, tgetD_tset_self ..⟩

/-- A command that a check refuses is answered so, and its journal entry holds that completion. -/
theorem State.runHere_answers {e : Nat} (hu : unjournaled p = false)
    (hj : journalRule (tgetD s.mbx.journal (s.ctxOf h g b).slot []) h.seq = .fresh) :
    let u := (s.serveWord h.pair).runHere h (s.ctxOf h g b) p fun t => { st := t, status := e }
    Touches [.mbx, .out] s u ∧ tget u.mbx.blocks (32 * h.pair + b) = some (completionOf h (opcodeOf p) e false [])
      ∧ (tsorted (tgetD s.mbx.journal (s.ctxOf h g b).slot []) = true →
          tget (tgetD u.mbx.journal (s.ctxOf h g b).slot []) h.seq = some (.done (completionOf h (opcodeOf p) e false []))) := by
  intro u
  have hof := s.journalOf_serveWord h g b
  obtain ⟨-, habove⟩ := fresh_iff hj
  have hrun : u = HeldCmd.answer ⟨.service, .host h.pair g b, (s.ctxOf h g b).slot, (s.ctxOf h g b).roles, h, p, false⟩
      { st := (s.serveWord h.pair).journaled (s.ctxOf h g b) h.seq, status := e } :=
    State.runHere_fresh (f := fun t => { st := t, status := e }) hu (by rw [hof]; exact hj)
  have hbegun := (s.serveWord_touches h.pair).trans (State.journaled_host_touches (x := s.ctxOf h g b) rfl (s.serveWord h.pair) h.seq)
  have hjournal := State.journaled_host_journal (x := s.ctxOf h g b) rfl (s.serveWord h.pair) h.seq
  rw [show tgetD (s.serveWord h.pair).mbx.journal (s.ctxOf h g b).slot [] = _ from hof] at hjournal
  generalize (s.serveWord h.pair).journaled (s.ctxOf h g b) h.seq = v at hrun hbegun hjournal
  obtain ⟨m, hm, hblocks, -, -, -, -, hdone⟩ := answer_journaled v (s.ctxOf h g b) h.pair g b (s.ctxOf h g b).slot h.seq
    (completionOf h (opcodeOf p) e false []) _ _ (tsorted (tgetD s.mbx.journal (s.ctxOf h g b).slot []) = true) rfl rfl (journalPut_ne ..)
    (fun hs => journalPut_has hs habove _) fun hs => journalPut_twice hs habove _ _
  have hanswer : u = { v with mbx := m } := by
    rw [hrun, ← hm]
    unfold HeldCmd.answer
    simp only [State.journalOf, hjournal, hu, Bool.not_false, Bool.and_true, Option.getD_none]
    rfl
  rw [hanswer]
  exact ⟨hbegun.trans (v.atBody_touches m v.out), (congrArg (tget · _) hblocks).trans (tget_tset_self ..), hdone⟩

end manager

/-! ## Completions and resending at the manager (R289, R290) -/

section completions
variable {s : State} {src : Nat} {c : Completion}

theorem State.takeCompletion_unknown (hn : (s.rat.forwarded.find? fun f => f.hdr.target == src && f.answeredBy c) = none) :
    s.takeCompletion src c = s := by
  unfold State.takeCompletion
  rw [hn]

theorem State.takeCompletion_known {f : Forwarded} (hf : (s.rat.forwarded.find? fun f => f.hdr.target == src && f.answeredBy c) = some f) :
    s.takeCompletion src c = s.finishForward f c := by
  unfold State.takeCompletion
  rw [hf]

/-- The machine after every forwarded command has been sent again. -/
def State.resent (s : State) : State :=
  s.rat.forwarded.foldl (fun (t : State) f => t.ratSendAs f.hdr.target f.seq (.command f.hdr f.slot f.roles f.body)) s

theorem State.resent_traffic (s : State) : RatTraffic s s.resent := .foldl_ratSendAs ..

end completions

/-! ## At the worker (R284, R289, R290) -/

section worker
variable {s u : State} {h : RatHdr} {c : CmdHdr} {k roles : Nat} {p : Payload} {m : RatMsg}

/-- What the worker has after the link layer and the duplicate check. -/
def State.commandTake (s : State) (h : RatHdr) (m : RatMsg) : RatTake :=
  let l := s.ratLinkIn h m
  if l.2 then l.1.ratReceive h m else ⟨l.1, false, false⟩

theorem State.ratReceive_taken (ht : (s.ratReceive h m).taken = true) : (s.ratReceive h m).dup = false := by
  cases hm : s.ratMine h m with
  | false => rw [State.ratReceive_notMine hm]
  | true =>
    cases hd : (s.ratSeen h m).ratDuplicate h.src h.seq with
    | false => rw [State.ratReceive_fresh hm hd]
    | true => rw [State.ratReceive_duplicate hm hd] at ht; cases ht

theorem State.commandTake_taken (ht : (s.commandTake h m).taken = true) : (s.commandTake h m).dup = false := by
  unfold State.commandTake at ht ⊢
  dsimp only at ht ⊢
  split at ht
  · next hl => rw [if_pos hl]; exact State.ratReceive_taken ht
  · cases ht

theorem State.commandTake_touches (s : State) (h : RatHdr) (m : RatMsg) : Touches [.regs, .pmu, .rat, .out] s (s.commandTake h m).st := by
  have hlink := (s.ratLinkIn_touches h m).mono (m := [.regs, .pmu, .rat, .out]) (by decide)
  unfold State.commandTake
  dsimp only
  split
  · exact State.received_touches
  · exact hlink

theorem State.commandTake_rxRing (s : State) (h : RatHdr) (m : RatMsg) : (s.commandTake h m).st.rat.rxRing = s.rat.rxRing := by
  unfold State.commandTake
  dsimp only
  split
  · exact State.received_rxRing
  · exact State.ratLinkIn_same (·.rxRing) fun _ _ => rfl

theorem State.drainRing_empty (hr : s.rat.rxRing = []) (n : Nat) : s.drainRing n = s := by
  cases n with
  | zero => rfl
  | succ n => rw [State.drainRing, hr]

/-- The row of COMMAND, from the message as it is received and the machine after older messages have been taken. -/
theorem exec_ratlineCommand : exec (.ratlineCommand h c k roles p) s = .next (
    let v := s.commandTake h (.command c k roles p)
    let u := State.drainRing 64 v.st
    if v.dup then (if fromManager h && u.fwAlive then u.resendCompletion h.src c k else u)
    else if !v.taken then u
    else if !(fromManager h) then u.bump Reg.CHAIN_FWD_DROPS
    else if u.fwAlive && u.mbx.held.isNone then u.ratCommand h.src c k roles p
    else u.ratWait h (.command c k roles p)) := rfl

/-- The machine in which a journal of the worker has another entry. -/
def State.storing (s : State) (src slot seq : Nat) (y : JEntry) : State :=
  { s with rat := { s.rat with stored := tset s.rat.stored (8 * src + slot) (journalPut (tgetD s.rat.stored (8 * src + slot) []) seq y) } }

theorem State.resendCompletion_done {src : Nat} {d : Completion} (hd : tget (tgetD s.rat.stored (8 * src + k) []) c.seq = some (.done d)) :
    s.resendCompletion src c k = s.ratSend src (.completion { d with forwarded := true }) := by
  unfold State.resendCompletion
  rw [hd]
  rfl

theorem State.resendCompletion_none {src : Nat} (hd : tget (tgetD s.rat.stored (8 * src + k) []) c.seq = none) :
    s.resendCompletion src c k = s := by
  unfold State.resendCompletion
  rw [hd]

theorem State.ratCommand_eq (s : State) (src : Nat) (c : CmdHdr) (k roles : Nat) (p : Payload) : s.ratCommand src c k roles p =
    s.runHere c ⟨.ratline src, k, roles, c.seq⟩ p fun t => t.execute c ⟨.ratline src, k, roles, c.seq⟩ p := rfl

section command
variable {src : Nat} (hu : unjournaled p = false)
include hu

theorem State.ratCommand_repeated {r : Completion} (h0 : c.seq ≠ 0) (hr : tget (tgetD s.rat.stored (8 * src + k) []) c.seq = some (.done r)) :
    s.ratCommand src c k roles p = s.ratSend src (.completion { r with duplicate := true, forwarded := true }) := by
  have hrule : journalRule (s.journalOf ⟨.ratline src, k, roles, c.seq⟩) c.seq = .repeated r := journalRule_done h0 hr
  rw [State.ratCommand_eq, State.runHere_repeated hu hrule]
  rfl

theorem State.ratCommand_zero (h0 : c.seq = 0) : s.ratCommand src c k roles p =
    s.ratSend src (.completion { completionOf c (opcodeOf p) eBadParam false [] with forwarded := true }) := by
  have hrule : journalRule (s.journalOf ⟨.ratline src, k, roles, c.seq⟩) c.seq = .refuse eBadParam := by
    rw [h0]
    exact journalRule_zero
  rw [State.ratCommand_eq, State.runHere_refused hu hrule]
  rfl

/-- A command that executes at once is journaled with its completion, which is sent. -/
theorem State.ratCommand_executes (hj : journalRule (tgetD s.rat.stored (8 * src + k) []) c.seq = .fresh) (hd : s.dev.state = .ready)
    (ht : s.threadFree = true) {a : Answer} (ha : (s.storing src k c.seq .inProgress).checkedBody c ⟨.ratline src, k, roles, c.seq⟩ p = a)
    (hh : a.hold = none) (hc : a.close = none) (hst : a.stored = none) {w : State} (hw : a.st = w)
    (hthas : thas (tgetD w.rat.stored (8 * src + k) []) c.seq = true) {d : Completion}
    (hdone : completionOf c (opcodeOf p) a.status false a.data = d) :
    s.ratCommand src c k roles p = (w.storing src k c.seq (.done d)).ratSend src (.completion { d with forwarded := true }) := by
  have hrun : s.ratCommand src c k roles p = HeldCmd.answer ⟨.service, .ratline src, k, roles, c, p, false⟩
      ((s.storing src k c.seq .inProgress).execute c ⟨.ratline src, k, roles, c.seq⟩ p) :=
    State.runHere_fresh (s := s) (x := ⟨.ratline src, k, roles, c.seq⟩) (f := fun t => t.execute c ⟨.ratline src, k, roles, c.seq⟩ p) hu hj
  rw [hrun, State.execute_ready (s := s.storing src k c.seq .inProgress) ht hd, ha]
  unfold HeldCmd.answer
  simp only [hh, hc, hst, hw, State.journalOf, hthas, hdone, hu, Bool.not_false, Bool.and_true, Option.getD_none, if_true]
  rfl

end command

/-! ### CU_ASSIGN (R332, R408) -/

section assign
variable {n : Nat}

theorem State.chkReset_granted (s : State) (n : Nat) : ((s.chkReset n).chkOf n).granted = (s.chkOf n).granted := by
  unfold State.chkReset
  rw [State.chkOf_updChk_self]
  exact congrArg (fun t => (tgetD t n {} : ChkUnit).granted) ((s.clearRegs_touches ..).same .chk (by decide))

/-- A grant of a unit that can be granted is done, and the unit is granted then. -/
theorem State.doCuAssign_grants (s : State) (hn : n = 2 ∨ n = 3 ∨ n = 7) : ∃ t, s.doCuAssign ⟨n, 1⟩ = { st := t } ∧ (t.chkOf n).granted = true := by
  have hgood : chkHost n = true := by
    rcases hn with rfl | rfl | rfl <;> rfl
  have hchecks : s.doCuAssign ⟨n, 1⟩ = if (s.chkOf n).granted then s.done
      else ((s.updChk n fun x => { x with granted := true }).chkReset n).done := by
    unfold State.doCuAssign State.checked firstBad
    simp only [hgood]
    rfl
  rw [hchecks]
  split
  · next hg => exact ⟨s, rfl, hg⟩
  · refine ⟨_, rfl, ?_⟩
    rw [State.chkReset_granted, State.chkOf_updChk_self]

/-- CU_ASSIGN of a manager grants the unit, is journaled and answered. -/
theorem does_grants {i : Instr} (htouch : Touches [.regs, .pmu, .rat, .out] s u) (hn : n = 2 ∨ n = 3 ∨ n = 7) (hres : c.reservedOk = true)
    (hj : journalRule (tgetD u.rat.stored (8 * h.src + k) []) c.seq = .fresh) (hd : u.dev.state = .ready) (hfree : u.threadFree = true)
    (hsorted : tsorted (tgetD u.rat.stored (8 * h.src + k) []) = true)
    (hrun : exec i s = .next (u.ratCommand h.src c k roles (.cuAssign ⟨n, 1⟩))) :
    Does i s [.regs, .chk, .pmu, .rat, .out] anyReg fun t => (t.chkOf n).granted = true
      ∧ tget (tgetD t.rat.stored (8 * h.src + k) []) c.seq = some (.done (completionOf c 0x0A02 eOk false [])) := by
  obtain ⟨-, habove⟩ := fresh_iff hj
  let b : State := u.storing h.src k c.seq .inProgress
  obtain ⟨w, hw, hgranted⟩ := b.doCuAssign_grants hn
  have hbody : b.checkedBody c ⟨.ratline h.src, k, roles, c.seq⟩ (.cuAssign ⟨n, 1⟩) = { st := w } := by
    unfold State.checkedBody
    rw [hres]
    exact hw
  have htouchw : Touches [.regs, .chk] b w := by
    have hgrant := b.doCuAssign_touches ⟨n, 1⟩
    rw [hw] at hgrant
    exact hgrant
  have hstored : tgetD w.rat.stored (8 * h.src + k) [] = journalPut (tgetD u.rat.stored (8 * h.src + k) []) c.seq .inProgress := by
    rw [htouchw.same .rat (by decide)]
    exact tgetD_tset_self ..
  have hthas : thas (tgetD w.rat.stored (8 * h.src + k) []) c.seq = true := by
    rw [hstored]
    exact journalPut_has hsorted habove _
  let d : Completion := completionOf c 0x0A02 eOk false []
  let e : State := w.storing h.src k c.seq (.done d)
  have hexec : u.ratCommand h.src c k roles (.cuAssign ⟨n, 1⟩) = e.ratSend h.src (.completion { d with forwarded := true }) :=
    State.ratCommand_executes rfl hj hd hfree hbody rfl rfl rfl rfl hthas rfl
  have htoe : Touches [.regs, .chk, .pmu, .rat, .out] s e :=
    ((htouch.mono (by decide)).trans ((Touches.set_rat (by decide) _).mpr (Touches.refl _ u))).trans
      ((htouchw.mono (by decide)).trans ((Touches.set_rat (by decide) _).mpr (Touches.refl _ w)))
  refine ⟨_, hrun.trans (congrArg _ hexec), htoe.trans ((e.ratSend_touches ..).mono (by decide)), fun _ hr => absurd trivial hr, ?_, ?_⟩
  · rw [State.chkOf, (e.ratSend_touches ..).same .chk (by decide)]
    exact hgranted
  · rw [(RatTraffic.ratSend e ..).same (·.stored) fun _ _ _ _ => rfl]
    have hput : tgetD e.rat.stored (8 * h.src + k) [] = journalPut (tgetD w.rat.stored (8 * h.src + k) []) c.seq (.done d) := tgetD_tset_self ..
    exact (congrArg (tget · c.seq) (hput.trans (by rw [hstored]))).trans (journalPut_twice hsorted habove _ _)

end assign

end worker

/-- Settles O51: at the manager a forwarded command by what refuses it, at the worker the row by its branches, then completions, the
resending and the time-out. -/
theorem forwardedCommands : Obligations.ForwardedCommands := by
  unfold Obligations.ForwardedCommands
  refine ⟨fun s h p g b => ?manager, fun s h c k roles p => ?worker, fun s h c hf => ?completion, fun s => ?resend, fun s pair q => ?timeout⟩
  case manager =>
    intro e j keys why hg hb hw hm hp hs hc ht
    have ha : Announced s h g b := ⟨hg, hb, hw, hm, .inr hs⟩
    have hwhy : (s.serveWord h.pair).forwardRefusal h p = why := (s.forwardRefusal_serveWord _).trans (s.forwardRefusal_eq h p)
    have hj : (s.serveWord h.pair).journalOf (s.ctxOf h g b) = j := s.journalOf_serveWord h g b
    have hrun : s.runCommand h p = (s.serveWord h.pair).runForward h (s.ctxOf h g b) g b p := State.runCommand_away ha hc ht
    refine ⟨fun hnone hn => ?_, fun x hx hu hrule => ?_, fun c hnone hu h0 hq => ?_⟩
    · intro u f
      have hu : u = (s.serveWord h.pair).forward h (s.ctxOf h g b) g b p :=
        hrun.trans (State.runForward_sends (hwhy.trans hnone) (by rw [hj]; exact hn))
      obtain ⟨m, o, heq, htaken, hjournal⟩ := s.serveWord_eq h.pair
      have htraffic := State.forward_traffic (s := s.serveWord h.pair) (h := h) (x := s.ctxOf h g b) (g := g) (b := b) (p := p)
      have hmbx : u.mbx = (s.serveWord h.pair).mbx := hu ▸ State.forward_mbx
      rw [← hu] at htraffic
      rw [hmbx]
      have hfields := (s.serveWord_touches h.pair).mono (m := [.regs, .mbx, .pmu, .rat, .out]) (by decide)
      have hsent := ((s.serveWord h.pair).forward_touches h (s.ctxOf h g b) g b p).mono (m := [.regs, .mbx, .pmu, .rat, .out]) (by decide)
      rw [← hu] at hsent
      refine ⟨hfields.trans hsent, ?_, ?_, ?_, ?_, ?_, ?_, fun q hq hup ho hr => ?_⟩
      · rw [htraffic.same (·.forwarded) fun _ _ _ _ => rfl, heq]
        rfl
      · rw [htraffic.same (·.seq) fun _ _ _ _ => rfl, heq]
        rfl
      · rw [heq]
        exact (congrArg (tget · h.pair) htaken.h2d).trans (tget_tdel_self ..)
      · rw [heq]
        exact htaken.blocks
      · rw [heq]
        exact htaken.queue
      · rw [heq]
        exact hjournal
      · rw [hu, heq]
        exact State.mem_ratSendAs_out hq hup ho hr
    · rw [hrun, State.runForward_refused (hwhy.trans hx)]
      exact State.runHere_answers hu hrule
    · rw [hrun, State.runForward_known (hwhy.trans hnone) hu (by rw [hj, thas, hq]; rfl),
        State.runHere_repeated hu (by rw [hj]; exact journalRule_done h0 hq)]
      exact (s.completedHere h g b _).2.2.2.1
  case worker =>
    intro l v u mine
    have hx : exec (.ratlineCommand h c k roles p) s = _ := exec_ratlineCommand
    have hv : s.commandTake h (.command c k roles p) = v := rfl
    have hmine : fromManager h = mine := rfl
    rw [hv, hmine] at hx
    have hu : State.drainRing 64 v.st = u := rfl
    dsimp only at hx
    rw [hu] at hx
    have hdrained (hr : s.rat.rxRing = []) : u = v.st := State.drainRing_empty ((s.commandTake_rxRing ..).trans hr) 64
    have htouch : Touches [.regs, .pmu, .rat, .out] s v.st := s.commandTake_touches ..
    have hdup (ht : v.taken = true) : v.dup = false := State.commandTake_taken ht
    clear_value u v
    refine ⟨hdrained, fun hd ht => ?_, fun ht hm => ?_, fun ht hm hn => ?_, fun hd hn => ?_, fun hd hm ha => ?_, fun ht hm ha hheld huj => ?_⟩
    · simpa [Gives, hd, ht] using hx
    · simpa [Gives, hdup ht, ht, hm] using hx
    · have hwaits : (u.fwAlive && u.mbx.held.isNone) = false := by
        rcases hn with hn | hn
        · rw [hn]; rfl
        · rw [Option.isNone_eq_false_iff.2 (Option.isSome_iff_ne_none.2 hn), Bool.and_false]
      simpa [Gives, hdup ht, ht, hm, hwaits] using hx
    · have hstays : (mine && u.fwAlive) = false := by
        rcases hn with hn | hn <;> simp [hn]
      simpa [Gives, hd, hstays] using hx
    · have hresend : exec (.ratlineCommand h c k roles p) s = .next (u.resendCompletion h.src c k) := by simpa [hd, hm, ha] using hx
      exact ⟨fun d hdone => hresend.trans (congrArg _ (State.resendCompletion_done hdone)),
        fun hnone => hresend.trans (congrArg _ (State.resendCompletion_none hnone))⟩
    · have hrun : exec (.ratlineCommand h c k roles p) s = .next (u.ratCommand h.src c k roles p) := by
        simpa [hdup ht, ht, hm, ha, hheld] using hx
      intro j put a d
      refine ⟨fun r h0 hr => ?_, fun h0 => ?_, fun hj hd hfree hh hcl hst hthas => ?_, fun n hp hn hres hlen hj hd hfree hsorted hring => ?_⟩
      · exact hrun.trans (congrArg _ (State.ratCommand_repeated huj h0 hr))
      · exact hrun.trans (congrArg _ (State.ratCommand_zero huj h0))
      · exact hrun.trans (congrArg _ (State.ratCommand_executes huj hj hd hfree rfl hh hcl hst rfl hthas rfl))
      · subst hp
        exact does_grants (hdrained hring ▸ htouch) hn hres hj hd hfree hsorted hrun
  case completion =>
    intro l v answers hl ht
    have hx : exec (.ratlineCompletion h c) s = .next (l.1.ratTake h (.completion c)) := ratArrive_received rfl hl
    have halive : v.st.fwAlive = true := (State.received_touches.fwAlive (by decide) (by decide)).trans hf
    rw [State.ratTake_handled (u := v.st) (dup := v.dup) (by rw [← ht]) halive] at hx
    have hkept : v.st.rat.forwarded = s.rat.forwarded :=
      (State.ratReceive_same (·.forwarded) (fun _ _ _ _ => rfl) fun _ _ => rfl).trans (State.ratLinkIn_same (·.forwarded) fun _ _ => rfl)
    have htouch : Touches [.regs, .pmu, .rat, .out] s v.st := State.received_touches
    refine ⟨fun hnone => hx.trans (congrArg _ (State.takeCompletion_unknown (hkept ▸ hnone))), fun f hsome => ?_⟩
    obtain ⟨m, hm, hblock, hqueue⟩ := v.st.finishForward_finishes f c
    refine ⟨_, hx.trans (congrArg _ ((State.takeCompletion_known (hkept ▸ hsome)).trans hm)), ?_, fun _ hr => absurd trivial hr,
      congrArg (List.erase · f) hkept, hblock, ?_⟩
    · refine (htouch.mono (by decide)).trans ?_
      rw [← hm]
      exact v.st.finishForward_touches f c
    · rw [htouch.same .mbx (by decide)] at hqueue
      exact hqueue
  case resend =>
    refine ⟨fun hn => congrArg Host.Outcome.next ?_, fun ha hc hne => ?_⟩
    · rcases hn with hn | hn | hn
      · exact if_neg (by simp [hn])
      · exact if_neg (by simp [hn])
      · rw [hn]
        exact ite_self s
    · have hx : exec .commandResendTimer s = .next s.resent := congrArg Host.Outcome.next (if_pos (by simp [ha, hc]))
      have htraffic := s.resent_traffic
      refine ⟨_, hx, (execCommandResendTimer_touches s).row hx, fun _ hr => absurd trivial hr, htraffic.same (·.forwarded) fun _ _ _ _ => rfl,
        htraffic.same (·.seq) fun _ _ _ _ => rfl, fun f r hl hup ho hr => ?_⟩
      obtain ⟨k, hk⟩ := State.mem_ratSendAs_out (s := s) (dst := f.hdr.target) (seq := f.seq) (m := .command f.hdr f.slot f.roles f.body)
        (Nat.zero_le 1) hup ho hr
      refine ⟨k, ?_⟩
      unfold State.resent
      rw [hl, List.foldl_cons]
      exact (RatTraffic.foldl_ratSendAs ..).out.subset hk
  case timeout =>
    intro x
    have hx : exec (.forwardTimeout pair q) s = .next (match x with
      | some f => s.finishForward f
        { opcode := opcodeOf f.body, seq := f.hdr.seq, session := f.hdr.session, target := f.hdr.target, duplicate := false, fetched := false
          forwarded := true, status := eTimeout, payload := [] }
      | none => s) := rfl
    clear_value x
    refine ⟨fun hnone => ?_, fun f hsome => ?_⟩
    · rw [hnone] at hx
      exact hx
    · rw [hsome] at hx
      obtain ⟨m, hm, hblock, hqueue⟩ := s.finishForward_finishes f _
      refine ⟨_, hx.trans (congrArg _ hm), (Touches.set_mbx_rat (by decide) (by decide) _ _).mpr (Touches.refl _ s), fun _ _ => rfl, rfl, hblock, hqueue⟩

end Sys2Proof.Machine
end
